-- ==== Sys2Proof/Word.lean ====
section
/-!
DEFINITION. The word types of the device: bytes, 32-bit and 64-bit words (R3, R4, R10), 24-bit slice words,
128-bit tile-program words.
-/
namespace Sys2Proof

/-- A byte of memory. -/
abbrev Byte := BitVec 8

/-- A 64-bit word: a register (R10), a memory word with a full/empty bit (R172), a scalar register. -/
abbrev Word := BitVec 64

/-- A 128-bit word of a core's instruction memory (R119). -/
abbrev IWord := BitVec 128

/-- A 24-bit data word of a signal-processing slice (R344). -/
abbrev SWord := BitVec 24

end Sys2Proof
end

