-- ==== Sys2Proof/Syntax.lean ====
section
/-!
DEFINITION. The commands of the device, one constructor per row of the opcode table: an instruction of a command queue (the
queue, numbered 8 x core + q over the device), an access to a register, a packet or cell that arrives, a pin event, or an
event in time (a completion, a timeout, the end of a delay). The operands are what the event brings with it.
-/
namespace Sys2Proof

/-- A unit whose waiting access is performed (R173): the load and store port of a queue, a core's convert unit, a channel
queue of the cells that a quarter's ports receive (R245), or a packet with a full/empty mode that waits at its memory. -/
inductive Port where
  | lsu (queue : Fin 4096)
  | conv (core : Fin 512)
  | cells (quarter : Fin 4) (channel : Fin 64)
  | packet (src txn : Nat)
  deriving DecidableEq, Repr

/-- A request to the CXL tier (R289): a transfer of a stream engine, by set, descriptor and position; or a request of the network, by its
source's unit and slot. -/
inductive CxlReq where
  | transfer (e : Fin 1024) (set : Fin 2) (desc : Fin 256) (pos : Nat)
  | request (src : Fin 32768) (txn : Fin 8) (write : Bool)
  deriving DecidableEq, Repr

/-- A packet of the network (R299, R300), with what befalls it on its way: the errors of the die links it crosses, in order (0 none,
1 corrected, 2 payload, 3 header), the cycles it waited at the routers of its path, the error-correction outcome of each HBM atom it
touches (0 none, 1 corrected, 2 uncorrectable), whether a panic request is queued at its controller, the bytes that a
host returns, and the probes whose records a trace packet carries (no wire of the packet's). -/
structure Packet where
  cls : Nat
  op : Nat
  flits : Nat
  src : Nat
  dst : Nat
  da : Nat
  len : Nat
  fe : Nat
  key : Nat
  sched : Bool
  panic : Bool
  txn : Nat
  issue : Nat
  width : Nat
  status : Nat
  data : List Byte
  linkErr : List Nat
  waits : List Nat
  ecc : List Nat
  panicQueued : Bool
  probes : List Nat
  deriving DecidableEq, Repr


/-- A cell of Kamrus (R244): its header fields and 512 bytes of payload. `sched` says that it left its sender from a channel
and not from the free or system queue (R250). -/
structure Cell where
  seq : Nat
  typ : Nat
  channel : Nat
  dst : Nat
  hops : Nat
  src : Nat
  eng : Nat
  xslot : Nat
  num : Nat
  len : Nat
  dfe : Nat
  last : Bool
  da : Nat
  count : Nat
  sched : Bool
  payload : List Byte
  deriving DecidableEq, Repr

/-- What firmware brings for one device of the shape table (R268): its node, the clusters and the HBM in GiB that the schedule may
claim, its ports in use, the raw rate of each, and its serial. -/
structure Claim where
  node : Nat
  clusters : Nat
  hbm : Nat
  ports : Nat
  raw : Nat
  serial : Nat
  deriving DecidableEq, Repr

/-- Where a shape table comes from (R268): the domain manager's write of its bytes, or this device, which builds it with the track that
carries the lap boundaries. -/
inductive ShapeSource where
  | received (bytes : List Byte)
  | built (track : Fin 8) (claims : List Claim)
  deriving DecidableEq, Repr

/-- A path of a dictionary transaction, with what brings the request (R405, R418, R420): the field ports' mailbox, with the request
in the form of R418; the mailbox of BAR0, which holds its request; a CONTROL cell that a Kamrus port received; or a request
that this device sends to another node. -/
inductive DPath where
  | field (req : List Byte)
  | mailbox
  | kamrus (p : Fin 12) (c : Cell)
  | sent (dst : Nat) (req : List Byte)
  deriving DecidableEq, Repr

/-- The commands, in the order of the opcode table; each with its mnemonic and what its row says of it. -/
inductive Instr where
  /-- REGISTER_WRITE (R5): A write to a register that has no row of its own stores or acts on its fields under the access codes, clamps and width rules. -/
  | registerWrite (off width : Nat) (value : Word)
  /-- BAR0_REQUEST (R393): A PCIe request to BAR0 reaches the control window under R10 and R11. -/
  | bar0Request (write : Bool) (off width : Nat) (value : Word)
  /-- BAR2_REQUEST (R393): A PCIe request to BAR2 at offset o addresses DA PCI_BAR2_BASE + o, or fails with an error response. -/
  | bar2Request (write : Bool) (off len : Nat) (data : List Byte) (ecc : List Nat) (panic : Bool)
  /-- MATMUL (R34): A matrix instruction folds its logical tile onto an engine: it loads weights, swaps sets, feeds rows, accumulates and rounds each element. -/
  | matmul (q : Fin 4096)
  /-- FEED_RESUME (R49): An array held on an empty operand word resumes feeding at the next beat boundary once the word is full. -/
  | feedResume (e : Fin 2048) (beats : Nat)
  /-- OUTPUT_PATH_RESUME (R46): An array held because the 64 output places were full resumes once a place frees. -/
  | outputPathResume (e : Fin 2048) (beats : Nat)
  /-- D_WORD_WRITE (R46): A D word written with DWAIT is written in the cycle in which it is found empty. -/
  | dWordWrite (e : Fin 2048) (da : Nat)
  /-- MATMUL_COMPLETE (R81): After every D word is committed the engine writes the completion record, words 1–7 before word 0, and signals its queue. -/
  | matmulComplete (e : Fin 2048)
  /-- DUTY (R50): A write of MXE_CTRL.DUTY raises the duty at the next beat boundary, or is refused in assured mode when it would slow a scheduled session. -/
  | duty (e : Fin 2048) (value : Fin 32)
  /-- PREEMPT (R51): A write of 1 to MXE_CTRL.PREEMPT requests a stop at the next N-block boundary of the instruction in progress, or lapses. -/
  | preempt (e : Fin 2048)
  /-- ENGINE_STOP (R51): The engine stops at the N-block boundary, sets STOPPED and loads MXE_RESUME. -/
  | engineStop (e : Fin 2048)
  /-- CONTINUE (R51): A write of 1 to MXE_CTRL.CONTINUE resumes the stopped instruction from NB_START. -/
  | continueEngine (e : Fin 2048)
  /-- DATA_ERROR (R52): An operand read, D write or spill access with an error response stops the engine and yields a DATA_ERROR record. -/
  | dataError (e : Fin 2048) (older : Bool)
  /-- CONVERT (R82): A convert instruction reads a source in FP32, BF16 or FP16 and writes codes, scales, side list and statistics of the target. -/
  | convert (q : Fin 4096)
  /-- TABLE (R105): A product-table build writes the header and the 256 × 2^b entries of a codebook product table and a record. -/
  | table (q : Fin 4096)
  /-- SPILL_CONVERT (R91): After the last row of a spilled matrix instruction the convert unit converts the spill region into D and writes record and statistics. -/
  | spillConvert (e : Fin 2048)
  /-- SLOT_CLEAR (R95): A write of 1 to QNT_CTRL.SLOT_CLEAR starts a 4-cycle clear of the selected history slot. -/
  | slotClear (k : Fin 512)
  /-- SLOT_CLEAR_END (R95): A single-slot clear ends and SLOT_CLEAR clears itself, releasing operations that wait on the slot. -/
  | slotClearEnd (k : Fin 512) (slot : Fin 4096)
  /-- HIST_CLEAR (R95): A write of 1 to QNT_CTRL.HIST_CLEAR starts a 4,096-cycle clear of all history slots. -/
  | histClear (k : Fin 512)
  /-- HIST_CLEAR_END (R95): A full clear of the history slots ends and HIST_CLEAR clears itself. -/
  | histClearEnd (k : Fin 512)
  /-- VADD (R127): Vector add of operands a and b in each unmasked lane. -/
  | vadd (q : Fin 4096)
  /-- VSUB (R127): Vector subtract a − b in each unmasked lane. -/
  | vsub (q : Fin 4096)
  /-- VMUL (R127): Vector multiply a × b in each unmasked lane. -/
  | vmul (q : Fin 4096)
  /-- VFMA (R127): Vector fused multiply-add a × b + c with one rounding. -/
  | vfma (q : Fin 4096)
  /-- VDIV (R127): Vector divide a ÷ b. -/
  | vdiv (q : Fin 4096)
  /-- VSQRT (R127): Vector square root of a. -/
  | vsqrt (q : Fin 4096)
  /-- VMIN (R127): Vector IEEE minimum of a and b. -/
  | vmin (q : Fin 4096)
  /-- VMAX (R127): Vector IEEE maximum of a and b. -/
  | vmax (q : Fin 4096)
  /-- VABS (R127): Vector sign clear. -/
  | vabs (q : Fin 4096)
  /-- VNEG (R127): Vector sign inversion. -/
  | vneg (q : Fin 4096)
  /-- VCMP (R127): Vector compare writes one predicate bit per lane. -/
  | vcmp (q : Fin 4096)
  /-- VSEL (R127): Vector select of a or b by a predicate bit per lane. -/
  | vsel (q : Fin 4096)
  /-- VCVT (R127): Vector conversion of a to the named format. -/
  | vcvt (q : Fin 4096)
  /-- VRED (R127): Vector sum of the lanes in the fixed pairwise tree into an S register. -/
  | vred (q : Fin 4096)
  /-- VRMAX (R127): Vector maximum of the lanes into an S register. -/
  | vrmax (q : Fin 4096)
  /-- VLD (R128): Vector load of 256 bytes in the selected full/empty mode. -/
  | vld (q : Fin 4096)
  /-- VST (R128): Vector store of 256 bytes in the selected full/empty mode. -/
  | vst (q : Fin 4096)
  /-- VMOVS (R127): Moves an S register into one lane of a vector register. -/
  | vmovs (q : Fin 4096)
  /-- VMOVV (R127): Moves one lane of a vector register into an S register. -/
  | vmovv (q : Fin 4096)
  /-- VAND (R127): Vector bitwise AND. -/
  | vand (q : Fin 4096)
  /-- VOR (R127): Vector bitwise OR. -/
  | vor (q : Fin 4096)
  /-- VXOR (R127): Vector bitwise XOR. -/
  | vxor (q : Fin 4096)
  /-- VSHL (R127): Vector logical shift left. -/
  | vshl (q : Fin 4096)
  /-- VSHR (R127): Vector logical shift right. -/
  | vshr (q : Fin 4096)
  /-- VREC (R129): Closes the open vector operation and writes its completion record. -/
  | vrec (q : Fin 4096)
  /-- NOP (R130): Loop-class no operation. -/
  | nop (q : Fin 4096)
  /-- LOOP (R131): Repeats the following LEN words count times, pushing a loop level. -/
  | loop (q : Fin 4096)
  /-- LIDX (R130): Loads the iteration index of a loop level into an S register. -/
  | lidx (q : Fin 4096)
  /-- BR (R132): Conditional branch relative to PC, popping loop levels it leaves. -/
  | br (q : Fin 4096)
  /-- ADD (R130): Scalar add. -/
  | add (q : Fin 4096)
  /-- SUB (R130): Scalar subtract. -/
  | sub (q : Fin 4096)
  /-- MUL (R130): Scalar multiply keeping the low 64 bits. -/
  | mul (q : Fin 4096)
  /-- AND (R130): Scalar bitwise AND. -/
  | and (q : Fin 4096)
  /-- OR (R130): Scalar bitwise OR. -/
  | or (q : Fin 4096)
  /-- XOR (R130): Scalar bitwise XOR. -/
  | xor (q : Fin 4096)
  /-- SHL (R130): Scalar shift left. -/
  | shl (q : Fin 4096)
  /-- SHR (R130): Scalar logical shift right. -/
  | shr (q : Fin 4096)
  /-- SAR (R130): Scalar arithmetic shift right. -/
  | sar (q : Fin 4096)
  /-- LI (R130): Loads a sign-extended immediate into an S register. -/
  | li (q : Fin 4096)
  /-- LIH (R130): Loads the immediate into the upper half of an S register. -/
  | lih (q : Fin 4096)
  /-- SLD (R130): Scalar 64-bit load in a full/empty mode. -/
  | sld (q : Fin 4096)
  /-- SST (R130): Scalar 64-bit store in a full/empty mode. -/
  | sst (q : Fin 4096)
  /-- FENCE (R130): Waits until every earlier instruction of the queue is complete. -/
  | fence (q : Fin 4096)
  /-- HALT (R130): The queue enters HALTED with PC on the next word. -/
  | halt (q : Fin 4096)
  /-- SIGNAL (R130): Sets VEC_Q_STAT.EVENT and signals the MC. -/
  | signal (q : Fin 4096)
  /-- QUEUE_FAULT (R134): An illegal word or sequencer error faults the queue without issuing the word. -/
  | queueFault (q : Fin 4096)
  /-- WAITING_ACCESS_PERFORM (R173): An access waiting at its port is performed when its word reaches the state its mode requires. -/
  | waitingAccessPerform (a : Port) (n : Nat)
  /-- VEC_Q_START (R133): START moves a queue from IDLE, HALTED or SAVED to RUN at PC. -/
  | vecQStart (q : Fin 4096)
  /-- VEC_Q_STOP (R133): STOP moves a queue from RUN or WAIT to IDLE at the next issue boundary, abandoning a waiting head. -/
  | vecQStop (q : Fin 4096)
  /-- CLEAR_FAULT (R133): CLEAR_FAULT moves a queue from FAULT to IDLE. -/
  | clearFault (q : Fin 4096)
  /-- VMASK_WRITE (R113): A write of VEC_Q_RANGE stores only VMASK bits held by no other queue and flags a clip. -/
  | vmaskWrite (q : Fin 4096) (value : Word)
  /-- VEC_IMEM_DATA_HI (R135): A write of DATA_HI stores an instruction word and increments ADDR, or is refused for a running range. -/
  | vecImemDataHi (core : Fin 512) (value : Word)
  /-- SAVE (R136): A write of 1 to VEC_CTX_CTRL.SAVE quiesces the core and writes its state to the save area. -/
  | save (core : Fin 512)
  /-- SAVE_DONE (R140): A context save ends with queues SAVED and DONE set, or fails under R142. -/
  | saveDone (core : Fin 512) (error : Bool) (cycles : Nat)
  /-- RESTORE (R141): A write of 1 to VEC_CTX_CTRL.RESTORE checks the save area and reads it back into the core. -/
  | restore (core : Fin 512)
  /-- RESTORE_DONE (R141): A restore ends with replay entries taken up and queues in their saved states or RUN with AUTOSTART. -/
  | restoreDone (core : Fin 512) (error : Bool) (cycles : Nat)
  /-- SPAD_INIT_END (R111): Scratchpad initialisation after reset ends after 4,096 cycles and waiting accesses proceed. -/
  | spadInitEnd (core : Fin 512) (staging : Bool)
  /-- STREAM (R145): Arms a descriptor set of a stream engine, waiting while the set is armed or running. -/
  | stream (q : Fin 4096)
  /-- TRANSFER_ISSUE (R150): The stream engine checks a descriptor and issues its next transfer in walk order when a slot is free. -/
  | transferIssue (e : Fin 1024)
  /-- READ_TRANSFER_COMPLETE (R144): The last byte of a read transfer enters the engine's buffer and its slot frees. -/
  | readTransferComplete (e : Fin 1024) (set : Fin 2) (desc : Fin 256) (pos : Nat) (ext : List Byte) (ecc : List Nat)
  /-- LINE_DELIVERY (R151): A completed line is written and all its words marked full together, after waiting for empty words in sync mode. -/
  | lineDelivery (e : Fin 1024) (set : Fin 2) (desc : Fin 256) (line : Nat) (ecc : List Nat)
  /-- WRITE_TRANSFER_ACK (R144): A write transfer is acknowledged and its slot frees. -/
  | writeTransferAck (e : Fin 1024) (set : Fin 2) (desc : Fin 256) (pos : Nat) (ecc : List Nat)
  /-- DESCRIPTOR_COMPLETE (R152): A descriptor completes when all lines are delivered and writes acknowledged, and arrives at its hurdle with HEN. -/
  | descriptorComplete (e : Fin 1024) (set : Fin 2) (desc : Fin 256)
  /-- URGENCY_UPDATE (R156): The engine recomputes a descriptor's urgency and key and raises or lowers panic. -/
  | urgencyUpdate (e : Fin 1024) (set : Fin 2) (desc : Fin 256)
  /-- STREAM_LATE (R159): A running descriptor's finish line passes: key 0, panic, LATE and a late report to the Track unit. -/
  | streamLate (e : Fin 1024) (set : Fin 2) (desc : Fin 256)
  /-- TRANSLATION_FAULT (R161): A failed translation holds the walk and sends a page request, or stops the set in a scheduled session. -/
  | translationFault (e : Fin 1024)
  /-- TRANSFER_ERROR (R164): An error response to a read or write transfer makes the set stop issuing. -/
  | transferError (e : Fin 1024) (set : Fin 2) (desc : Fin 256) (pos : Nat)
  /-- SET_STOP (R164): After outstanding transfers finish, a stopping set records its checkpoint, enters ERROR and signals the MC. -/
  | setStop (e : Fin 1024) (set : Fin 2)
  /-- STM_RESUME (R165): A write of 1 to STM_CTRL.RESUME resumes a stopped or waiting set from its checkpoint. -/
  | stmResume (e : Fin 1024)
  /-- STM_ABANDON (R165): A write of 1 to STM_CTRL.ABANDON ends a stopped set and starts the next armed set. -/
  | stmAbandon (e : Fin 1024)
  /-- HINIT (R179): Sets a hurdle's target, count, mode and window. -/
  | hinit (q : Fin 4096)
  /-- HARRIVE (R177): An arrival of 1 at a hurdle, completing generations and waking waiters. -/
  | harrive (q : Fin 4096)
  /-- HADD (R179): An arrival of n at a hurdle. -/
  | hadd (q : Fin 4096)
  /-- HWAIT (R180): Waits until GEN of a hurdle has passed the argument. -/
  | hwait (q : Fin 4096)
  /-- HSYNC (R179): Arrives at a hurdle and then waits on the generation of its arrival. -/
  | hsync (q : Fin 4096)
  /-- HTEST (R179): Returns GEN, COUNT and MODE of a hurdle without waiting. -/
  | htest (q : Fin 4096)
  /-- HREAD (R179): Returns VALUE and the last baton source of a hurdle. -/
  | hread (q : Fin 4096)
  /-- HUR_OP_HINIT (R182): A 64-bit write of HUR_OP with OP hinit initialises a hurdle. -/
  | hurOpHinit (h : Fin 65536) (value : Word)
  /-- HUR_OP_HARRIVE (R182): A 64-bit write of HUR_OP with OP harrive makes an arrival of 1. -/
  | hurOpHarrive (h : Fin 65536) (value : Word)
  /-- HUR_OP_HADD (R182): A 64-bit write of HUR_OP with OP hadd makes an arrival of n. -/
  | hurOpHadd (h : Fin 65536) (value : Word)
  /-- HUR_STATE_WRITE (R182): A write of HUR_STATE sets COUNT and GEN, or is refused while waiters are recorded. -/
  | hurStateWrite (h : Fin 65536) (value : Word)
  /-- HUR_CFG_WRITE (R177): A write of HUR_CFG sets target, mode and window; generations complete in the next cycle when COUNT reaches TARGET. -/
  | hurCfgWrite (h : Fin 65536) (value : Word)
  /-- FE_PORT_LOAD (R175): A read of HUR_FE_DATA performs one load at the port's DA and mode without waiting. -/
  | fePortLoad (c : Fin 32)
  /-- FE_PORT_STORE (R175): A write of HUR_FE_DATA performs one store at the port's DA and mode without waiting. -/
  | fePortStore (c : Fin 32) (value : Word)
  /-- BATON (R184): Sends a baton record to the signal address of a target hurdle. -/
  | baton (q : Fin 4096)
  /-- BATON_ARRIVAL (R187): A baton reaches its hurdle and enters its window queue, or is discarded. -/
  | batonArrival (w0 w1 w2 w3 : Word) (port : Option (Fin 12))
  /-- BATON_RELEASE (R187): The head baton is released when CREDIT covers its CNT, setting VALUE and arriving at the hurdle. -/
  | batonRelease (w : Fin 2048)
  /-- HUR_WIN_WRITE (R186): A write of HUR_WIN_BASE or HUR_WIN_LEN clamps the window and zeroes its CREDIT. -/
  | hurWinWrite (w : Fin 2048) (isLen : Bool) (value : Word)
  /-- WMARK (R209): Waits until a track reaches a mark, completing at once and flagging a late mark when passed. -/
  | wmark (q : Fin 4096)
  /-- MARK_REACHED (R209): A waiting WMARK completes in the cycle the cluster position reaches its mark. -/
  | markReached (q : Fin 4096)
  /-- RPOS (R208): Reads the lap, angle and state of a track into S registers. -/
  | rpos (q : Fin 4096)
  /-- FARM (R210): Arms a finish-line slot, waiting while the slot is armed. -/
  | farm (q : Fin 4096)
  /-- ARM (R210): A write of 1 to TRK_FL_STAT.ARM arms an unarmed slot. -/
  | arm (slot : Fin 2048)
  /-- FINISH_LINE_CHECK (R212): When the position reaches a slot's finish line the slot is checked, disarmed and found met or late. -/
  | finishLineCheck (slot : Fin 2048)
  /-- TRK_ENABLE (R197): A write of 1 to TRK_CTRL.EN moves OFF to ACQUIRING and loads the preset position. -/
  | trkEnable (t : Fin 8)
  /-- TRK_DISABLE (R197): A write of 0 to TRK_CTRL.EN moves the track to OFF with the position held. -/
  | trkDisable (t : Fin 8)
  /-- TRACK_EDGE (R200): A filtered input edge advances, absorbs or reverses the track position and its interpolation. -/
  | trackEdge (t : Fin 8) (fabric a b z : Bool) (held : Nat)
  /-- INDEX_PULSE (R200): A rising Z edge advances the lap and checks the edge count. -/
  | indexPulse (t : Fin 8) (fabric : Bool) (held : Nat)
  /-- TRK_STEP (R203): A 64-bit write of TRK_STEP moves a mode-5 track forward. -/
  | trkStep (t : Fin 8) (value : Word)
  /-- TRACK_STALL (R218): A track silent for TRK_STALL_TO cycles enters STALLED. -/
  | trackStall (t : Fin 8)
  /-- TRK_LAP_READ (R223): A read of TRK_LAP captures the angle into TRK_ANGLE. -/
  | trkLapRead (t : Fin 8)
  /-- LATE_LOG_POP (R214): A 64-bit read of TRK_LATE_LOG3 removes the head late record. -/
  | lateLogPop
  /-- TIMESTAMP_WRAP (R222): The trace timestamp wraps, an epoch record is inserted and TRK_EPOCH increments. -/
  | timestampWrap
  /-- EMERGENCY (R422): Firmware sends an emergency on every path within 1 ms of its event. -/
  | emergency (event : BitVec 32) (byte7 : Fin 256)
  /-- ADMIT (R225): Admits a session after the clamp checks, making it READY or RESIDENT. -/
  | admitSession (n : Fin 65536)
  /-- END (R228): Ends a session, stopping and resetting its cores and releasing its slots and rings. -/
  | endSession (n : Fin 65536)
  /-- SUSPEND (R227): Requests suspension of a session at its preemption point. -/
  | suspend (n : Fin 65536)
  /-- RESUME (R235): Restores a suspended session, making it READY or RESIDENT. -/
  | resume (n : Fin 65536)
  /-- LAP_BOUNDARY_SUSPEND (R235): At the next lap boundary of its track a scheduled session's checks are made, its queues stop and its save begins. -/
  | lapBoundarySuspend (n : Fin 65536)
  /-- QUANTUM_EXPIRY (R233): A free session's quantum expires and it is switched out when another is eligible. -/
  | quantumExpiry (n : Fin 65536)
  /-- SESSION_SWITCH_SAVED (R234): The outgoing session's saves end and the incoming session's restore begins. -/
  | sessionSwitchSaved (n : Fin 65536) (used : Nat)
  /-- SESSION_SWITCH_RESTORED (R234): The incoming session's restore ends, it becomes RESIDENT and its quantum starts. -/
  | sessionSwitchRestored (n : Fin 65536)
  /-- DOORBELL (R230): A write of SES_DOORBELL stores a ring's TAIL or is discarded. -/
  | doorbell (value : Word)
  /-- RING_CONTEXT_LOAD (R231): A ring context missing from the cache is loaded in place of the least recently used unpinned one. -/
  | ringContextLoad (n : Fin 65536) (r : Fin 32)
  /-- SUBMISSION_RUN (R232): A RUN submission starts queues of named cores, or completes BUSY. -/
  | submissionRun (n : Fin 65536) (ext : List Byte)
  /-- SUBMISSION_ARRIVE (R232): An ARRIVE submission applies harrive to a hurdle and completes. -/
  | submissionArrive (n : Fin 65536) (ext : List Byte)
  /-- RUN_COMPLETE (R232): A RUN completes when all its queues halt, fault or are stopped, and its completion entry is written. -/
  | runComplete (idx : Nat)
  /-- COMPLETION_ENTRY_WRITE (R232): A held completion entry is written once its completion ring has room, freeing its sample slot. -/
  | completionEntryWrite (idx : Nat)
  /-- SES_CLOCK_WRITE (R237): A write of SES_CLOCK changes clock mode and ACLK step or is refused. -/
  | sesClockWrite (value : Word)
  /-- SES_RING_PIN_WRITE (R231): A write of SES_RING_PIN pins or unpins a ring context within the clamp. -/
  | sesRingPinWrite (value : Word)
  /-- CAPABILITY_EXCHANGE (R241): Port ends exchange lane and FEC masks and choose a mode. -/
  | capabilityExchange (p : Fin 12) (m224 m112 m56 : Fin 256) (fec : Fin 4) (sleep : Fin 256)
  /-- NO_MODE_RETRY (R241): With no qualifying mode the port returns to training after 10 ms. -/
  | noModeRetry (p : Fin 12)
  /-- PORT_DOWN (R243): A lane loss of lock or too many uncorrectable codewords takes a Kamrus port down. -/
  | portDown (p : Fin 12)
  /-- RENEG (R243): A write of 1 to KMR_CTRL.RENEG takes an ACTIVE port down to renegotiate. -/
  | reneg (p : Fin 12)
  /-- CODEWORD_RECEIVE (R247): A received codeword is corrected or found uncorrectable, discarding the cells it touches. -/
  | codewordReceive (p : Fin 12) (outcome : Fin 3) (cells : Fin 4)
  /-- WRITE_CELL (R245): A WRITE cell is committed at its DA with an ACK entry returned, or forwarded to another node. -/
  | writeCell (p : Fin 12) (c : Cell) (ecc : List Nat)
  /-- ACK_CELL (R246): ACK entries complete the cells of remote write transfers. -/
  | ackCell (p : Fin 12) (c : Cell)
  /-- SYNC_CELL (R244): A SYNC cell delivers its batons to their hurdles or forwards them. -/
  | syncCell (p : Fin 12) (c : Cell) (foreign : Bool)
  /-- TRACK_CELL (R265): A TRACK cell gives a worker its track samples and frame counter. -/
  | trackCell (p : Fin 12) (c : Cell)
  /-- HELLO (R257): A HELLO control cell is recorded and a worker may follow its manager. -/
  | hello (p : Fin 12) (c : Cell)
  /-- LATENCY_CALIBRATION (R266): Timestamped control cells set KMR_LAT.ONE_WAY and TRK_FWD_COMP. -/
  | latencyCalibration (p : Fin 12) (c : Cell)
  /-- NEIGHBOUR_REPORT (R260): A member's neighbour report reaches the manager and may start a rebuild. -/
  | neighbourReport (p : Fin 12) (c : Cell)
  /-- DICTIONARY_RESPONSE (R420): A dictionary response cell ends the sender's transaction, or is discarded when late. -/
  | dictionaryResponse (p : Fin 12) (c : Cell)
  /-- DICTIONARY_TIMEOUT (R420): A Kamrus dictionary request without response for 10 ms ends with abort 0x0504_0000. -/
  | dictionaryTimeout (tag : Nat)
  /-- REMOTE_RESET (R431): A remote reset control cell performs a device or block reset or is discarded. -/
  | remoteReset (p : Fin 12) (c : Cell)
  /-- ACK_TIMEOUT (R246): A remote write transfer without final acknowledgement within KMR_ACK_TO completes with an error response. -/
  | ackTimeout (e : Fin 1024) (slot : Fin 8)
  /-- SWAP (R253): A write of 1 to KMR_FRAME.SWAP requests the other slot table bank. -/
  | swap (p : Fin 12)
  /-- BANK_SWAP_APPLY (R253): At the first slot of the next frame the other bank becomes active and SWAP clears. -/
  | bankSwapApply (p : Fin 12)
  /-- REBUILD (R260): A port change starts a start-list rebuild with HELLOs to members. -/
  | rebuild
  /-- REBUILD_END (R260): A rebuild ends after reports or TIMEOUT, updating the start list and GEN. -/
  | rebuildEnd
  /-- REFERENCE_LOSS (R263): Loss of the primary reference switches to the secondary within 2 µs, or starts holdover. -/
  | referenceLoss (p : Fin 12)
  /-- HOLDOVER_EXPIRY (R263): After 10 ms of holdover with both references lost the ports go down. -/
  | holdoverExpiry
  /-- KMR_REF_CTRL_WRITE (R264): A write of KMR_REF_CTRL sets source or spread, refused while a session or assured device forbids it. -/
  | kmrRefCtrlWrite (value : Word)
  /-- TRACK_SAMPLE_PERIOD (R265): A manager sends TRACK cells on its forwarding ports at least every PERIOD cycles. -/
  | trackSamplePeriod (p : Fin 12)
  /-- STANDBY_TAKEOVER (R267): A standby silent from its manager for STBY_TO cycles takes over reference and Track. -/
  | standbyTakeover
  /-- SHAPE_TABLE (R268): The domain manager writes the shape table into the device and GEN is set. -/
  | shapeTable (t : ShapeSource)
  /-- HBM_BAND_WRITE (R275): A write of HBM_BAND changes a band's mode and grain at once, or is refused while a scheduled session is admitted. -/
  | hbmBandWrite (j : Fin 6) (value : Word)
  /-- READ (R276): A read request packet is served at its destination, with HBM forwarding from the write queue. -/
  | read (p : Packet)
  /-- WRITE (R276): A write request packet is committed at its destination. -/
  | write (p : Packet)
  /-- PATROL_SCRUB (R279): The patrol scrub reads and corrects atoms once every SCRUB_H hours. -/
  | patrolScrub (pc : Fin 256) (atom : Nat) (ecc : Fin 3) (panic : Bool)
  /-- REFRESH (R283): A due refresh is issued, or postponed under panic up to its limit. -/
  | refresh (pc : Fin 256) (bank : Fin 64) (panic : Bool)
  /-- POWER_DOWN_ENTRY (R281): An idle pseudo-channel enters power-down after PD_TIMER cycles. -/
  | powerDownEntry (pc : Fin 256) (panic : Bool)
  /-- SELF_REFRESH_ENTRY (R281): An idle stack enters self-refresh after SR_TIMER cycles. -/
  | selfRefreshEntry (stack : Fin 8)
  /-- HBM_TRAINING (R284): Controllers validate stored training or train fully at power-on, brown-out or quarter reset. -/
  | hbmTraining (q bad : Fin 4)
  /-- TRAINING_DONE (R285): Training ends with HBM_STATUS.READY set, or fences a stack that failed. -/
  | trainingDone (q : Fin 4) (margins dTemps : List Nat) (failed : Fin 4)
  /-- CXL_ERROR_RESPONSE (R289): A poisoned or error CXL response completes the request with an error response. -/
  | cxlErrorResponse (r : CxlReq)
  /-- CXL_COMPLETION_TIMEOUT (R289): A CXL request without completion in CXL_CPL_TO cycles completes with an error response. -/
  | cxlCompletionTimeout (r : CxlReq)
  /-- CXL_WIN_CFG_WRITE (R293): A write of CXL_WIN_CFG enables or disables a window, refused where R293 forbids. -/
  | cxlWinCfgWrite (w : Fin 16) (value : Word)
  /-- PRQ_REC_POP (R296): A 64-bit read of CXL_PRQ_REC removes the head page request record. -/
  | prqRecPop
  /-- CXL_PRQ_RESP (R291): Firmware answers a page request group; success makes the stream translate again. -/
  | cxlPrqResp (value : Word)
  /-- XLT_INV (R291): A write of CXL_XLT_INV drops cached translations of named pages. -/
  | xltInv (value : Word)
  /-- XLT_INV_DONE (R291): An invalidation completes, clearing BUSY, after requests that used the dropped entries complete. -/
  | xltInvDone
  /-- CXL_LINK_UP (R292): A CXL link comes up, setting HOTADD and signalling the MC. -/
  | cxlLinkUp (p : Fin 2) (speed : Fin 8) (width : Fin 32) (ltssm : Fin 64)
  /-- CXL_LINK_DOWN (R294): A CXL link goes down without removal, marking its targets down. -/
  | cxlLinkDown (p : Fin 2)
  /-- CELL (R302): A CELL packet carries a Kamrus cell across the device to its port. -/
  | cell (p : Packet)
  /-- READ_DATA (R300): A READ_DATA response delivers one line of read data to its source. -/
  | readData (dst : Fin 32768) (txn : Fin 8) (linkErr : List Nat)
  /-- WRITE_ACK (R300): A WRITE_ACK response acknowledges a write to its source. -/
  | writeAck (dst : Fin 32768) (txn : Fin 8) (linkErr : List Nat)
  /-- NOC_BATON (R300): A sync-class BATON packet carries a baton record to its hurdle table. -/
  | nocBaton (p : Packet)
  /-- NOC_ARRIVE (R300): A sync-class ARRIVE packet carries a hurdle operation to its table. -/
  | nocArrive (p : Packet)
  /-- REG_READ (R300): A control-class REG_READ packet reads a register at its block. -/
  | regRead (p : Packet)
  /-- REG_WRITE (R300): A control-class REG_WRITE packet writes a register at its block. -/
  | regWrite (p : Packet)
  /-- REG_RESP (R300): A REG_RESP packet returns a register access result. -/
  | regResp (p : Packet)
  /-- EVENT (R300): An EVENT control packet signals the MC. -/
  | event (p : Packet)
  /-- RECORDS (R312): A trace packet of probe records is written to the trace ring. -/
  | records (q : Fin 4) (linkErr : List Nat)
  /-- TRACE_PACKET_DISCARD (R304): A trace packet waiting longer than TRACE_AGE at one router is discarded. -/
  | tracePacketDiscard (q : Fin 4)
  /-- NOC_COMPLETION_TIMEOUT (R307): A local request without response for NOC_CPL_TO cycles completes with an error response. -/
  | nocCompletionTimeout (src : Fin 32768) (txn : Fin 8) (write ctl : Bool)
  /-- DOMAIN_SLEEP (R308): An idle domain with its enable set sleeps after IDLE_TIMER cycles. -/
  | domainSleep (q : Fin 4) (d : Fin 18)
  /-- DOMAIN_WAKE (R309): A sleeping domain that received a packet wakes and admits its held packets in order. -/
  | domainWake (q : Fin 4) (d : Fin 18)
  /-- NOC_PRB_CTRL_WRITE (R313): A write of NOC_PRB_CTRL enables a probe and clears its count, or is ignored while enabled. -/
  | nocPrbCtrlWrite (n : Fin 272) (value : Word)
  /-- RAM_READ (R325): A fabric RAM read with ECC corrects a single error or reports an uncorrectable one. -/
  | ramRead (b : Fin 4096) (a : Fin 1024) (outcome : Fin 3) (flip : Word)
  /-- PLL_LOCK (R327): A fabric PLL locks and, in assured mode, becomes ALIGNED. -/
  | pllLock (p : Fin 16)
  /-- MARK_FIRE (R328): A fabric mark unit fires when the position reaches it and advances by STEP. -/
  | markFire (u : Fin 64)
  /-- FABRIC_PORT_REQUEST (R331): User logic issues a READ, WRITE, ARRIVE or BATON through a fabric port after its window check. -/
  | fabricPortRequest (n : Fin 128) (kind : Fin 4) (dst ga words fe : Nat) (data : List Byte)
  /-- TARGET_ACCESS (R334): A control access to a port's target window is delivered to user logic or fails. -/
  | targetAccess (p : Packet)
  /-- ISOLATE (R335): A write of FAB_PORT_CTRL.ISOLATE stops new requests at a fabric port. -/
  | isolate (n : Fin 128)
  /-- PORT_ISOLATED (R335): An isolated port with nothing outstanding reads ISOLATED. -/
  | portIsolated (n : Fin 128)
  /-- VCCIO_FAULT (R338): A bank VCCIO more than 5 % off its declared value holds the bank's outputs. -/
  | vccioFault (b : Fin 20) (mv : Fin 4096)
  /-- VCCIO_RESUME (R338): After VCCIO stays within 5 % for 1 ms the bank's outputs resume. -/
  | vccioResume (b : Fin 20) (mv : Fin 4096)
  /-- SPS_NOP (R349): Slice no operation. -/
  | spsNop (n : Fin 1536)
  /-- MPY (R349): Slice multiply into an accumulator. -/
  | mpy (n : Fin 1536)
  /-- MAC (R349): Slice multiply-accumulate. -/
  | mac (n : Fin 1536)
  /-- MSU (R349): Slice multiply-subtract. -/
  | msu (n : Fin 1536)
  /-- CLR (R349): Clears an accumulator. -/
  | clr (n : Fin 1536)
  /-- ADDA (R349): Adds one accumulator to another. -/
  | adda (n : Fin 1536)
  /-- SUBA (R349): Subtracts one accumulator from another. -/
  | suba (n : Fin 1536)
  /-- SPS_ABS (R349): Slice accumulator absolute value. -/
  | spsAbs (n : Fin 1536)
  /-- SPS_NEG (R349): Slice accumulator negation. -/
  | spsNeg (n : Fin 1536)
  /-- SPS_SHL (R349): Slice accumulator shift left by one, limited. -/
  | spsShl (n : Fin 1536)
  /-- SPS_SHR (R349): Slice accumulator arithmetic shift right by one. -/
  | spsShr (n : Fin 1536)
  /-- LDACC (R349): Loads a 24-bit operand into an accumulator. -/
  | ldacc (n : Fin 1536)
  /-- MOVR (R343): Moves an accumulator to a D register with scaling, rounding and saturation. -/
  | movr (n : Fin 1536)
  /-- IN (R351): Takes the head of an input FIFO into a D register, waiting while it is empty. -/
  | inFifo (n : Fin 1536)
  /-- OUT (R351): Writes a D register to an output FIFO, waiting while it is full. -/
  | outFifo (n : Fin 1536)
  /-- SLICE_FIFO_RESUME (R351): A waiting in or out completes once its FIFO has a word or room. -/
  | sliceFifoResume (n : Fin 1536)
  /-- REP (R350): Repeats the next word n times without interruption. -/
  | rep (n : Fin 1536)
  /-- SPS_LOOP (R349): Slice loop over following words n times. -/
  | spsLoop (n : Fin 1536)
  /-- JMP (R349): Slice jump. -/
  | jmp (n : Fin 1536)
  /-- SPS_BR (R349): Slice conditional branch on an accumulator. -/
  | spsBr (n : Fin 1536)
  /-- WAITM (R353): Waits for a pending mark and clears PEND. -/
  | waitm (n : Fin 1536)
  /-- PEND_SET (R353): A fired mark unit sets the slice's PEND at the SCLK edge after c + 12, or is lost. -/
  | pendSet (n : Fin 1536)
  /-- WSET (R349): Sets BASE, POS, LEN or STEP and MEM of a walker. -/
  | wset (n : Fin 1536)
  /-- WSTEP (R349): Steps a walker's POS without memory access. -/
  | wstep (n : Fin 1536)
  /-- SCALE (R349): Sets the slice scaling mode. -/
  | scale (n : Fin 1536)
  /-- SPS_HALT (R349): The slice enters HALTED. -/
  | spsHalt (n : Fin 1536)
  /-- SLICE_FAULT (R350): An illegal slice word moves the slice to FAULT without executing. -/
  | sliceFault (n : Fin 1536)
  /-- SPS_START (R352): START moves a slice from IDLE or HALTED to RUN. -/
  | spsStart (n : Fin 1536)
  /-- SPS_STOP (R352): STOP moves a slice to IDLE at the next instruction boundary after any repeat. -/
  | spsStop (n : Fin 1536)
  /-- SPS_CLEAR_FAULT (R352): CLEAR_FAULT moves a slice from FAULT to IDLE. -/
  | spsClearFault (n : Fin 1536)
  /-- SRST (R352): SRST resets a slice's registers, empties its FIFOs and puts it in IDLE. -/
  | srst (n : Fin 1536)
  /-- SPS_MEM_READ (R345): A read of SPS_MEM_DATA returns a slice memory word. -/
  | spsMemRead (n : Fin 1536)
  /-- SPS_MEM_WRITE (R345): A write of SPS_MEM_DATA writes a data memory word or is refused for instruction memory. -/
  | spsMemWrite (n : Fin 1536) (value : Word)
  /-- CFG_LOAD_START (R364): CFG_LOAD.START begins a load, or refuses it before reading a byte. -/
  | cfgLoadStart
  /-- SCOPE_ISOLATED (R365): The scope's ports are isolated, boundaries frozen and clusters reset, and the header is read. -/
  | scopeIsolated (timeout : Bool)
  /-- HEADER (R366): The image header is checked for identity, format, part and scope. -/
  | header (ext : List Byte) (bad : Bool)
  /-- SIGNATURE_VERIFY (R451): The security block verifies an image's signature block and digest table. -/
  | signatureVerify (sigExt tableExt : List Byte) (bad : Bool)
  /-- CHUNK_VERIFIED (R365): A chunk whose digest matches is executed record by record. -/
  | chunkVerified (ext : List Byte) (bad : Bool)
  /-- LOAD_TIMEOUT (R368): A slave-port load 2 s without a word and without END fails truncated. -/
  | loadTimeout
  /-- ABORT (R368): CFG_LOAD.ABORT fails the load in progress with cause 0x9. -/
  | abort
  /-- OCHRE_FALLBACK (R369): After a failed load with frames written the ochre part for the scope is loaded. -/
  | ochreFallback
  /-- RELEASE (R369): CFG_REGION.RELEASE releases a FROZEN region's boundary and ports. -/
  | release (r : Fin 32)
  /-- SLAVE_PORT_WORD (R484): A slave port takes a nibble or word, or discards it when no load accepts it. -/
  | slavePortWord (parallel : Bool) (value : BitVec 32) (rdy : Bool)
  /-- SSP_CS_RISE (R484): An unpaired nibble is discarded when SSP_CS_N rises. -/
  | sspCsRise
  /-- GROUP_CHECK (R374): Mordant checks one group, correcting, refetching or marking it failed. -/
  | groupCheck (faults : List (Nat × Nat)) (mismatch sigEcc : Bool) (coverUs : Nat)
  /-- MORDANT_WATCHDOG (R377): A cover longer than WDOG ms fires the Mordant heat. -/
  | mordantWatchdog
  /-- TMR_MISMATCH (R377): Disagreement of the copies of MDT_CTRL fires the Mordant heat. -/
  | tmrMismatch (a b c : BitVec 16)
  /-- MDT_LOG_POP (R380): A 64-bit read of MDT_LOG removes the oldest failed-group record. -/
  | mdtLogPop
  /-- RECEIVER_DETECT (R382): A lane in DETECT tries receiver detection every 1 ms. -/
  | receiverDetect (l : Fin 144) (found : Bool)
  /-- LANE_RETRY (R382): A FAILED lane retries training after 10 ms. -/
  | laneRetry (l : Fin 144)
  /-- LANE_SEARCH_DONE (R387): An equaliser search ends with the best settings, reaching BIT_LOCK or the next rate. -/
  | laneSearchDone (l : Fin 144) (fom : Fin 256) (eq : Word) (offered : Bool)
  /-- LOCK_LOSS (R389): FOM below FOM_MIN for 1 ms counts as loss of lock of a lane. -/
  | lockLoss (l : Fin 144) (fom : Fin 256)
  /-- TX_SLEEP (R390): A transmitter with only IDLE cells for IDLE_TIMER cycles sends the idle marker and sleeps. -/
  | txSleep (l : Fin 96)
  /-- TX_WAKE (R391): A sleeping transmitter wakes on a cell or SCHED_EN and sends its wake pattern. -/
  | txWake (l : Fin 96)
  /-- WAKE_TIMEOUT (R391): A receiver not relocked 10 µs after wake takes its port down. -/
  | wakeTimeout (l : Fin 96)
  /-- ATS_INVALIDATE (R397): An ATS Invalidate Request removes translation entries and completes after their requests. -/
  | atsInvalidate (page pages : Nat)
  /-- PAGE_REQUEST_GROUP_RESPONSE (R396): A PCIe page request group response resumes or fails the stream that asked. -/
  | pageRequestGroupResponse (group : Fin 512) (success : Bool)
  /-- FUNCTION_LEVEL_RESET (R398): FLR resets the configuration space, empties the translation cache and fails host-window requests. -/
  | functionLevelReset
  /-- PCIE_LINK_DOWN (R398): The PCIe link goes down, setting LINK_DOWN and signalling the MC. -/
  | pcieLinkDown
  /-- HOT_RESET (R426): A PCIe hot reset resets the port or the device. -/
  | hotReset
  /-- PCI_MSIX_RAISE (R402): A write of PCI_MSIX_RAISE raises an MSI-X vector. -/
  | pciMsixRaise (value : Word)
  /-- RD (R399): CXL_CFG_ADDR.RD starts a configuration read on a CXL port. -/
  | rd (p : Fin 2)
  /-- CXL_CFG_DATA_WRITE (R399): A write of CXL_CFG_DATA starts a configuration write. -/
  | cxlCfgDataWrite (p : Fin 2) (value : Word)
  /-- CXL_CFG_DONE (R399): A configuration completion or 50 ms timeout sets DONE or ERR. -/
  | cxlCfgDone (p : Fin 2) (ok : Bool) (answer : Option Nat)
  /-- REMOVE (R400): CXL_PORT_CTRL.REMOVE starts a managed removal or is refused. -/
  | remove (p : Fin 2)
  /-- REMOVED (R400): A managed removal completes with the link in Detect and REMOVED set. -/
  | removed (p : Fin 2)
  /-- UPLOAD (R418): A dictionary transaction reads a subindex. -/
  | upload (path : DPath)
  /-- DOWNLOAD (R418): A dictionary transaction writes a subindex. -/
  | download (path : DPath)
  /-- UPLOAD_CA (R418): A dictionary complete access reads all subindexes of an object. -/
  | uploadCa (path : DPath)
  /-- DOWNLOAD_CA (R418): A dictionary complete access writes subindexes of an object in one transaction. -/
  | downloadCa (path : DPath)
  /-- OBJ_INFO (R418): Returns object code, subindexes and their types and access codes. -/
  | objInfo (path : DPath)
  /-- EXECUTE (R432): A write of 1 to object 0x2201 EXECUTE performs the named reset after the response. -/
  | execute
  /-- UNLOCK_TIMEOUT (R410): The expert unlock of a path is released after 600 s without an ex write. -/
  | unlockTimeout (path : Nat)
  /-- AL_STATE_REQUEST (R412): An AL state request is applied within the limits of the device state or refused. -/
  | alStateRequest (value : Fin 16) (ack : Bool)
  /-- SM2_BUFFER (R415): A completed SM2 buffer is copied as the output image and makes a hurdle arrival. -/
  | sm2Buffer (data : List Byte)
  /-- INPUT_IMAGE_READ (R415): The input image is read at SM2 completion or LEAD ns before SYNC0. -/
  | inputImageRead
  /-- SM2_WATCHDOG (R416): The SM2 watchdog expires and the AL state drops from OP to SAFEOP. -/
  | sm2Watchdog
  /-- DC_UPDATE (R417): A system time difference update adjusts the distributed clock and may gain or lose sync. -/
  | dcUpdate (diff : Nat) (time : Word)
  /-- DC_UPDATE_TIMEOUT (R417): 100 ms without an update takes the distributed clock out of sync. -/
  | dcUpdateTimeout
  /-- MBX_EMCY_POP (R423): A 64-bit read of FLD_MBX_EMCY removes the oldest queued emergency. -/
  | mbxEmcyPop
  /-- POWER_ON (R426): The input rises past 40 V from below 20 V and the power-on sequence runs. -/
  | powerOn (recs : List (Nat × Nat))
  /-- NSYSRST (R426): nSYSRST low for at least 1 µs causes a device reset. -/
  | nsysrst (low : Bool)
  /-- PCIE_PERST_N (R426): PCIE_PERST_N asserted resets the device or the PCIe port. -/
  | pciePerstN
  /-- RESET_RELEASE (R433): A device-level reset releases after its stretch, nSYSRST high, input in range and trims applied; the hub ROM starts. -/
  | resetRelease (codes : List Nat) (bad : Fin 4) (nvOK : Bool)
  /-- QUARTER_RESET (R427): A block reset of a quarter, refused under R429. -/
  | quarterReset (q : Fin 4) (hold : Bool)
  /-- CLUSTER_RESET (R427): A block reset of a cluster, refused under R429. -/
  | clusterReset (c : Fin 32) (hold : Bool)
  /-- CORE_RESET (R427): A block reset of a core, refused under R429. -/
  | coreReset (core : Fin 512) (hold : Bool)
  /-- FABRIC_REGION_RESET (R427): A block reset of a fabric region, refused under R429. -/
  | fabricRegionReset (r : Fin 32) (hold : Bool)
  /-- KAMRUS_PORT_RESET (R427): A block reset of a Kamrus port, refused under R429. -/
  | kamrusPortReset (p : Fin 12) (hold : Bool)
  /-- BLOCK_RESET_RELEASE (R430): A block reset releases after 1,024 cycles unless held. -/
  | blockResetRelease (kind : Fin 6) (idx : Fin 512)
  /-- PACER_TICK (R439): Each 1 µs tick the Pacer evaluates its heats on new samples. -/
  | pacerTick (v idx mw : Nat) (temps : List (Nat × Int)) (volts ains : List (Nat × Nat))
  /-- HEAT_FIRE (R440): A heat whose condition persists fires and applies its actions. -/
  | heatFire (h : Fin 256)
  /-- PAC_TRIP_WRITE (R443): A write of PAC_TRIP releases a trip whose condition has released. -/
  | pacTripWrite (value : Word)
  /-- KICK (R444): A write of 1 to PAC_WDOG.KICK restarts the watchdog period. -/
  | kick
  /-- WATCHDOG_WARNING (R444): At half the period WDOG_WARN is set and the MC signalled. -/
  | watchdogWarning
  /-- WATCHDOG_EXPIRY (R444): The watchdog expires and restarts the MC or resets the device. -/
  | watchdogExpiry
  /-- PWR_QCTRL_WRITE (R441): A write of PWR_QCTRL powers quarters off or on, or is refused. -/
  | pwrQctrlWrite (value : Word)
  /-- QUARTER_POWER_ON (R441): A quarter powered on is released under R438 after about 0.5 ms. -/
  | quarterPowerOn (q : Fin 4)
  /-- PAC_LOG_POP (R446): A read of PAC_LOG removes the oldest Pacer record. -/
  | pacLogPop
  /-- PWR_AVG_READ (R446): A read of PWR_AVG returns and clears PEAK. -/
  | pwrAvgRead
  /-- PAC_TEMP_READ (R446): A read of PAC_TEMP returns and clears MAX. -/
  | pacTempRead (idx : Fin 64)
  /-- ROLLBACK_GO (R454): SEC_ROLLBACK.GO raises a counter floor by blowing bits, or is refused. -/
  | rollbackGo
  /-- FLOOR_BLOWN (R454): Blowing of floor bits completes and GO clears. -/
  | floorBlown
  /-- SEC_VERIFY_GO (R458): SEC_VERIFY.GO verifies a firmware slot from NV. -/
  | secVerifyGo
  /-- VERIFY_DONE (R458): A slot verification ends with PASS or the failing step. -/
  | verifyDone
  /-- SWITCH (R458): SEC_BOOT.SWITCH writes a trial boot record for the other slot, or is refused. -/
  | switchSlot
  /-- CONFIRM (R458): SEC_BOOT.CONFIRM ends a trial boot. -/
  | confirm
  /-- SEC_EXTEND (R456): Eight writes of SEC_EXTEND form a digest that extends M7. -/
  | secExtend (value : Word)
  /-- SEC_ATT_GO (R461): SEC_ATT.GO builds and signs an attestation report. -/
  | secAttGo
  /-- REPORT_WRITTEN (R461): The signed attestation report is written to its DA. -/
  | reportWritten (ecc : List Nat)
  /-- CHAL (R462): SEC_DBG.CHAL draws a new debug nonce. -/
  | chal
  /-- SEC_DBG_GO (R462): SEC_DBG.GO verifies a debug token and grants its scope. -/
  | secDbgGo (ecc : List Nat)
  /-- NEXT (R459): SEC_RCV.NEXT hands the next recovery part to the ROM for verification and writing to slot A. -/
  | nextPart
  /-- TST_FENCE_CLUSTER (R468): A write of TST_FENCE.CLUSTER fences or releases clusters, or is refused. -/
  | tstFenceCluster (value : Word)
  /-- TST_FENCE_QUARTER (R469): A write of TST_FENCE.QUARTER fences or powers on quarters, or is refused. -/
  | tstFenceQuarter (value : Word)
  /-- TST_CDL_GO (R470): TST_CDL.GO starts the cool-down lap or is refused. -/
  | tstCdlGo
  /-- CDL_COMPLETE (R471): The cool-down lap ends with its record written and the device parked. -/
  | cdlComplete (failed links klanes clanes fom margin : Fin 256) (codes : List Nat)
  /-- BYPASS (R486): The test access port selects BYPASS. -/
  | bypass
  /-- IDCODE (R486): The test access port returns IDCODE. -/
  | idcode
  /-- SAMPLE_PRELOAD (R486): The test access port samples or preloads the boundary scan. -/
  | samplePreload (levels load : List Bool)
  /-- EXTEST (R486): EXTEST drives pins from boundary scan during reset or park, otherwise acts as BYPASS. -/
  | extest (levels : List Bool)
  /-- CLAMP (R486): CLAMP holds pins from boundary scan during reset or park, otherwise acts as BYPASS. -/
  | clamp
  /-- SLOT_TRANSMISSION (R252): At each slot of a frame a Kamrus port transmits the head of the channel or queue that the slot's KIND names, or IDLE. -/
  | slotTransmission (p : Fin 12)
  /-- TRACK_INTERPOLATION (R204): Each ACLK cycle a LOCKED track advances its angle by INC up to the cap below the next edge (modes 0–2, 4), or follows system time (mode 3), and the position goes to the clusters. -/
  | trackInterpolation (t : Fin 8)
  /-- EMERGENCY_CELL (R422): A CONTROL cell of subtype 0x12 from a member reaches its group manager and is forwarded to the domain manager and logged in 0x2010. -/
  | emergencyCell (p : Fin 12) (c : Cell)
  /-- BIT_LOCK_TIMEOUT (R241): A lane that has not reached bit lock in the chosen mode within 10 ms is removed from the mask of that rate, and negotiation repeats. -/
  | bitLockTimeout (p : Fin 12) (lane : Fin 8)
  /-- BLOCK_LOCK (R382): A lane finds the training frame marker 64 times in succession and enters BLOCK_LOCK, recording the rate in its lane mask. -/
  | blockLock (l : Fin 144)
  /-- IDLE_MARKER (R390): A receiver that gets the partner's idle marker goes to sleep. -/
  | idleMarker (l : Fin 96)
  /-- WAKE_PATTERN (R391): A sleeping receiver gets the partner's wake pattern and regains lock from its present settings. -/
  | wakePattern (l : Fin 96)
  /-- PLL_LOCK_LOSS (R327): A fabric PLL loses lock and FAB_PLL_STAT.LOCK_LOST is set. -/
  | pllLockLoss (p : Fin 16)
  /-- FABRIC_FIFO_HANDSHAKE (R351): User logic pushes a word into a slice input FIFO, or takes one from an output FIFO, through the valid and ready handshake. -/
  | fabricFifoHandshake (n : Fin 1536) (output : Bool) (k : Fin 2) (word : SWord)
  /-- TRANSLATION_COMPLETION (R397): An ATS translation completion from the host arrives and fills the address translation cache for a waiting stream transfer. -/
  | translationCompletion (page : Nat) (write invalidated : Bool)
  /-- CONFIGURATION_REQUEST (R394): A PCIe configuration request from the host reads or writes the function's configuration space, or completes with Request Retry Status before the hub configuration has loaded. -/
  | configurationRequest (dw : Fin 1024) (write : Bool) (value : BitVec 32) (be : Fin 16)
  /-- PCIE_LINK_UP (R392): The PCIe link trains to L0 and PCI_STATUS.LINK_UP is set with its speed and width. -/
  | pcieLinkUp (speed : Fin 8) (width : Fin 32) (flit : Bool) (ltssm : Fin 64)
  /-- FIELD_PORT_LINK (R414): A field port gains or loses its Ethernet link, FLD_STATUS.LINK changes, and the loop closes or opens as the standard requires. -/
  | fieldPortLink (p : Fin 2) (up : Bool)
  /-- INPUT_RETURN (R424): After an overvoltage the input returns into 40–60 V and the power-on sequence runs. -/
  | inputReturn
  /-- INPUT_REMOVED (R425): The input falls below 20 V, the AON domain stops, the device is OFF, and PWR_CAUSE records input removed. -/
  | inputRemoved
  deriving DecidableEq, Repr

end Sys2Proof
end

