-- ==== Sys2Proof/Config.lean ====
section
/-!
DEFINITION. What one part or its surroundings fix and the spec does not: constants without a body, of which no proof can
know the value (the free values of the model).
-/
namespace Sys2Proof.Config

/-- A value the spec leaves open, fresh for each count of `State.freeCtr`. -/
opaque freeValue : Nat → Nat

/-- Whether the vector units judge tininess after rounding: IEEE 754-2019 leaves it to the implementation and R129 does
not say. -/
opaque tinyAfterRounding : Bool

/-- An Ed448 signature check (R451): public key, context, message, signature. The arithmetic of the standard is not in the
spec. -/
opaque ed448Verify : List (BitVec 8) → List (BitVec 8) → List (BitVec 8) → List (BitVec 8) → Bool

/-- An ML-DSA-87 signature check (R451): public key, context, message, signature. -/
opaque mldsaVerify : List (BitVec 8) → List (BitVec 8) → List (BitVec 8) → List (BitVec 8) → Bool

/-- The code of an element of D under a tensor scale that is not finite (R67 states no value): from the two scale codes, the
element's exact sum, its addend's code, and the format. -/
opaque openElem : Nat → Nat → Int → Nat → Nat → Nat

/-- What lidx reads for a loop level that is not on the stack (R130 states no index): from the level and the levels there are. -/
opaque openLoopIndex : Nat → Nat → Nat

/-- Whether br of a slice branches for a condition code that R349 does not name: from the code and the accumulator's value. -/
opaque openBranch : Nat → Int → Bool

/-- Which of several side-list entries of one row and one k an escape takes (R100 speaks of one entry). -/
opaque sideChoice : List Nat → Nat

/-- Device signatures (R461): scheme number and message give the signature bytes. -/
opaque deviceSign : Nat → List (BitVec 8) → List (BitVec 8)

/-- The receive polarity of a lane is inverted: the board's wiring, which training finds (R384). -/
opaque laneInverted : Nat → Bool

/-- The 64-bit serial number of the device (R257), which its fuses hold. -/
opaque deviceSerial : Nat

/-- Major and minor stepping codes of the part (R1), 0x01 for A. -/
opaque majorStepping : Nat
opaque minorStepping : Nat

/-- Nominal rails in mV after trimming, by voltage monitor (R437): no rule gives them. -/
opaque railMV : Nat → Nat

/-- What the four frames of a product-term block say (R316-R322); the places of its items in them are not in the spec. Product term
(0-95) or control term (96-103) `t` chooses literal `l`: 0-39 the block's inputs true, 40-79 complemented, 80-159 its joined
partner's in the same order. -/
opaque literal : List (BitVec 8) → Nat → Nat → Bool

/-- Group `g` is steered to macrocell `m` (R317). -/
opaque steered : List (BitVec 8) → Nat → Nat → Bool

/-- Item `n` of macrocell `m` (R318-R320): 0 XOR_EN, 1 ARITH, 2 mode (0 D, 1 T, 2 latch, 3 combinational), 3 clock (0-3 BCLK, 4 CT0),
4 polarity, 5 enable (0 on, 1 CT1, 2 CT2), 6 set (0 none, 1 CT3, 2 CT4), 7 reset (0 none, 1 CT5, 2 CT6), 8 INIT. -/
opaque cellItem : List (BitVec 8) → Nat → Nat → Nat

/-- Item `n` of the block (R321, R322): 0 joined, 1 CIN_SEL (0, 1, 2 for CT7). -/
opaque blockItem : List (BitVec 8) → Nat → Nat

/-- Item `n` of the frame of a pin (R336): 0 its standard, coded as `IoStd`, 1 whether it drives an output. -/
opaque pinItem : List (BitVec 8) → Nat → Nat


/-- The public keys of the device (R460): 0 Ed448, 1 ML-DSA-87. -/
opaque publicKey : Nat → List (BitVec 8)

/-- The digest of the hub ROM (R455). -/
opaque romDigest : List (BitVec 8)

/-- The firmware's version text of object 0x100A. -/
opaque versionText : List (BitVec 8)

end Sys2Proof.Config
end

