-- ==== Sys2Proof/Machine/Bits.lean ====
section
/-!
DEFINITION. Bit fields, sign extension and byte order (R3, R4): the helpers with which words, records and packets are
taken apart and put together.
-/
namespace Sys2Proof.Machine

/-- Bits [lo + w - 1 : lo] of `n` (R3). -/
def bits (n lo w : Nat) : Nat := n / 2 ^ lo % 2 ^ w

/-- Bit `i` of `n` as 0 or 1. -/
def bit (n i : Nat) : Nat := n / 2 ^ i % 2

/-- `n` with bits [lo + w - 1 : lo] replaced by `v`. -/
def setBits (n lo w v : Nat) : Nat := n - bits n lo w * 2 ^ lo + v % 2 ^ w * 2 ^ lo

/-- The two's complement value of the low `w` bits of `n`. -/
def sext (w n : Nat) : Int := if n % 2 ^ w < 2 ^ (w - 1) then (n % 2 ^ w : Nat) else ((n % 2 ^ w : Nat) : Int) - (2 ^ w : Nat)

/-- The low `w` bits of an integer in two's complement. -/
def wrapInt (w : Nat) (i : Int) : Nat := (i % ((2 ^ w : Nat) : Int)).toNat

/-- A truth value as a bit. -/
def b2n (b : Bool) : Nat := if b then 1 else 0

/-- `n` rounded up to a multiple of `m`. -/
def alignUp (n m : Nat) : Nat := (n + m - 1) / m * m

/-- Quotient rounded up. -/
def ceilDiv (n m : Nat) : Nat := (n + m - 1) / m

/-- The nearest value to `v` in `lo` to `hi` (R7). -/
def clampTo (lo hi v : Nat) : Nat := if v < lo then lo else if hi < v then hi else v

/-- The bytes of `v`, lowest first (R4). -/
def bytesLE : Nat → Nat → List (BitVec 8)
  | 0, _ => []
  | k + 1, v => BitVec.ofNat 8 v :: bytesLE k (v / 256)

/-- The value of bytes, lowest first (R4). -/
def ofBytesLE : List (BitVec 8) → Nat
  | [] => 0
  | b :: r => b.toNat + 256 * ofBytesLE r

/-- Words put together, lowest first. -/
def ofWordsLE : List Nat → Nat
  | [] => 0
  | w :: r => w % 2 ^ 64 + 2 ^ 64 * ofWordsLE r

/-- GEN `a` has passed `g` (R180): their difference modulo 2^32 lies in 1 to 2^31 - 1. -/
def genPassed (a g : Nat) : Bool :=
  let d := (a % 2 ^ 32 + 2 ^ 32 - g % 2 ^ 32) % 2 ^ 32
  decide (1 ≤ d) && decide (d < 2 ^ 31)

/-- The largest number whose square is at most `n`, found bit by bit from bit `b` down. -/
def isqrtBits (n : Nat) : Nat → Nat → Nat
  | 0, r => if (r + 1) * (r + 1) ≤ n then r + 1 else r
  | b + 1, r => isqrtBits n b (if (r + 2 ^ (b + 1)) * (r + 2 ^ (b + 1)) ≤ n then r + 2 ^ (b + 1) else r)

end Sys2Proof.Machine
end

