-- ==== Sys2Proof/Machine/Num.lean ====
section
/-!
DEFINITION. Numbers of the device: exact fractions, the floating-point, integer and scale encodings of R55-R58, and the
one rounding every unit uses (R68, R73-R76). A value is decoded to an exact number, computed on exactly, and rounded once.
-/
namespace Sys2Proof.Machine

/-- An exact fraction; `den` is positive by construction. -/
structure Frac where
  num : Int
  den : Nat
  deriving DecidableEq, Repr

def Frac.ofInt (i : Int) : Frac := ⟨i, 1⟩
def Frac.neg (x : Frac) : Frac := ⟨-x.num, x.den⟩
def Frac.abs (x : Frac) : Frac := ⟨x.num.natAbs, x.den⟩
def Frac.mul (x y : Frac) : Frac := ⟨x.num * y.num, x.den * y.den⟩
def Frac.add (x y : Frac) : Frac := ⟨x.num * y.den + y.num * x.den, x.den * y.den⟩
def Frac.sub (x y : Frac) : Frac := Frac.add x (Frac.neg y)
/-- The quotient; the divisor is not zero where it is used. -/
def Frac.div (x y : Frac) : Frac := ⟨x.num * y.den * y.num.sign, x.den * y.num.natAbs⟩
/-- 2 to the power `e`. -/
def Frac.pow2 (e : Int) : Frac := if 0 ≤ e then ⟨((2 ^ e.toNat : Nat) : Int), 1⟩ else ⟨1, 2 ^ (-e).toNat⟩
/-- `x` times 2 to the power `e`. -/
def Frac.scale (x : Frac) (e : Int) : Frac :=
  if 0 ≤ e then ⟨x.num * ((2 ^ e.toNat : Nat) : Int), x.den⟩ else ⟨x.num, x.den * 2 ^ (-e).toNat⟩
def Frac.lt (x y : Frac) : Bool := decide (x.num * y.den < y.num * x.den)
def Frac.le (x y : Frac) : Bool := decide (x.num * y.den ≤ y.num * x.den)
def Frac.eq (x y : Frac) : Bool := decide (x.num * y.den = y.num * x.den)
def Frac.isZero (x : Frac) : Bool := decide (x.num = 0)
def Frac.isNeg (x : Frac) : Bool := decide (x.num < 0)
/-- The greatest integer not above `x`. -/
def Frac.floor (x : Frac) : Int := x.num / (x.den : Int)
/-- The least integer not below `x`. -/
def Frac.ceil (x : Frac) : Int := -((-x.num) / (x.den : Int))
def Frac.max (x y : Frac) : Frac := if Frac.lt x y then y else x
def Frac.min (x y : Frac) : Frac := if Frac.lt y x then y else x

/-- floor(log2 |x|) of a nonzero fraction. -/
def Frac.ilog2 (x : Frac) : Int :=
  let n := x.num.natAbs
  let e : Int := (Nat.log2 n : Int) - (Nat.log2 x.den : Int)
  let above := if 0 ≤ e then decide (x.den * 2 ^ e.toNat ≤ n) else decide (x.den ≤ n * 2 ^ (-e).toNat)
  if above then e else e - 1

/-- ceil(log2 x) of a positive fraction. -/
def Frac.clog2 (x : Frac) : Int :=
  let e := Frac.ilog2 x
  if Frac.eq (Frac.abs x) (Frac.pow2 e) then e else e + 1

/-- A decoded number: NaN, an infinity, or a finite value with its sign kept apart so that signed zeros stay. -/
inductive Val where
  | nan
  | inf (neg : Bool)
  | fin (neg : Bool) (mag : Frac)
  deriving DecidableEq, Repr

/-- The exact signed value of a finite number (0 for the others). -/
def Val.frac : Val → Frac
  | .fin neg m => if neg then Frac.neg m else m
  | _ => ⟨0, 1⟩
def Val.isFin : Val → Bool
  | .fin _ _ => true
  | _ => false
def Val.isNaN : Val → Bool
  | .nan => true
  | _ => false
def Val.isInf : Val → Bool
  | .inf _ => true
  | _ => false
def Val.isZero : Val → Bool
  | .fin _ m => Frac.isZero m
  | _ => false
def Val.isNeg : Val → Bool
  | .fin n _ => n
  | .inf n => n
  | .nan => false
/-- A finite value from its exact signed value; zero gets the sign `z`. -/
def Val.ofFrac (z : Bool) (x : Frac) : Val :=
  if Frac.isZero x then .fin z ⟨0, 1⟩ else .fin (Frac.isNeg x) (Frac.abs x)

/-- How a format codes infinity and NaN (R56). -/
inductive Specials where
  | ieee   -- exponent all ones: infinity at fraction 0, NaN elsewhere
  | e4m3   -- NaN only, at exponent and fraction all ones
  | none   -- neither
  deriving DecidableEq, Repr

/-- A binary floating-point format of R56. -/
structure FloatFmt where
  ebits : Nat
  fbits : Nat
  bias : Int
  spec : Specials
  canonNaN : Nat
  deriving DecidableEq, Repr

def fp64 : FloatFmt := ⟨11, 52, 1023, .ieee, 0x7FF8000000000000⟩
def fp32 : FloatFmt := ⟨8, 23, 127, .ieee, 0x7FC00000⟩
def bf16 : FloatFmt := ⟨8, 7, 127, .ieee, 0x7FC0⟩
def fp16 : FloatFmt := ⟨5, 10, 15, .ieee, 0x7E00⟩
def e4m3 : FloatFmt := ⟨4, 3, 7, .e4m3, 0x7F⟩
def e5m2 : FloatFmt := ⟨5, 2, 15, .ieee, 0x7E⟩
def e3m2 : FloatFmt := ⟨3, 2, 3, .none, 0⟩
def e2m3 : FloatFmt := ⟨2, 3, 1, .none, 0⟩
def e2m1 : FloatFmt := ⟨2, 1, 1, .none, 0⟩

def FloatFmt.width (f : FloatFmt) : Nat := 1 + f.ebits + f.fbits
/-- Largest exponent field that codes finite values. -/
def FloatFmt.topE (f : FloatFmt) : Nat := match f.spec with | .ieee => 2 ^ f.ebits - 2 | _ => 2 ^ f.ebits - 1
/-- Significand of the largest finite value, as an integer of fbits + 1 bits. -/
def FloatFmt.topM (f : FloatFmt) : Nat := match f.spec with | .e4m3 => 2 ^ (f.fbits + 1) - 2 | _ => 2 ^ (f.fbits + 1) - 1
/-- Exponent of the unit of the subnormals. -/
def FloatFmt.minQ (f : FloatFmt) : Int := 1 - f.bias - f.fbits
/-- The largest finite value (R56). -/
def FloatFmt.maxVal (f : FloatFmt) : Frac := Frac.scale (Frac.ofInt f.topM) ((f.topE : Int) - f.bias - f.fbits)
/-- Code of the largest finite magnitude. -/
def FloatFmt.maxCode (f : FloatFmt) : Nat := f.topE * 2 ^ f.fbits + (f.topM - 2 ^ f.fbits)
def FloatFmt.signBit (f : FloatFmt) (neg : Bool) : Nat := if neg then 2 ^ (f.ebits + f.fbits) else 0
/-- Code of an infinity of the format. -/
def FloatFmt.infCode (f : FloatFmt) (neg : Bool) : Nat := f.signBit neg + (2 ^ f.ebits - 1) * 2 ^ f.fbits

/-- The value of a code (R56, R57). -/
def FloatFmt.decode (f : FloatFmt) (c : Nat) : Val :=
  let s := decide (bit c (f.ebits + f.fbits) = 1)
  let e := bits c f.fbits f.ebits
  let m := bits c 0 f.fbits
  let top := decide (e = 2 ^ f.ebits - 1)
  if top && f.spec = .ieee then (if m = 0 then .inf s else .nan)
  else if top && f.spec = .e4m3 && decide (m = 2 ^ f.fbits - 1) then .nan
  else if e = 0 then .fin s (Frac.scale (Frac.ofInt m) f.minQ)
  else .fin s (Frac.scale (Frac.ofInt (2 ^ f.fbits + m : Nat)) ((e : Int) - f.bias - f.fbits))

/-- Rounding directions of R73, R74 and R126; `sr u` is stochastic rounding with the 32 random bits `u`. -/
inductive Rnd where
  | rne | rtz | rup | rdn
  | sr (u : Nat)
  deriving DecidableEq, Repr

/-- The integer that rounding makes of a nonnegative fraction, and whether it was not an integer. -/
def roundInt (rnd : Rnd) (neg : Bool) (x : Frac) : Nat × Bool :=
  let n := (Frac.floor x).toNat
  let r := Frac.sub x (Frac.ofInt n)
  let inexact := !(Frac.isZero r)
  let up := match rnd with
    | .rne => Frac.lt ⟨1, 2⟩ r || (Frac.eq ⟨1, 2⟩ r && decide (n % 2 = 1))
    | .rtz => false
    | .rup => inexact && !neg
    | .rdn => inexact && neg
    | .sr u => Frac.lt (Frac.ofInt u) (Frac.mul r (Frac.ofInt (2 ^ 32 : Nat)))
  (if up then n + 1 else n, inexact)

/-- What rounding a finite value to a floating-point format gave. -/
structure Rounded where
  code : Nat
  /-- The magnitude, rounded with unbounded exponent, exceeds the largest finite value. -/
  tooBig : Bool
  /-- A nonzero value rounded to zero. -/
  toZero : Bool
  inexact : Bool
  /-- The exact value is nonzero and below the smallest normal in magnitude. -/
  tinyBefore : Bool
  /-- The value rounded with unbounded exponent is below the smallest normal. -/
  tinyAfter : Bool
  deriving DecidableEq, Repr

/-- Code of a sign, an integer significand `n` of at most fbits + 1 bits (or exactly 2^(fbits+1)) and its unit 2^q. -/
def FloatFmt.encode (f : FloatFmt) (neg : Bool) (n : Nat) (q : Int) : Nat :=
  let h := 2 ^ f.fbits
  if n < h then f.signBit neg + n
  else if n < 2 * h then f.signBit neg + (q + f.bias + f.fbits).toNat * h + (n - h)
  else f.signBit neg + (q + 1 + f.bias + f.fbits).toNat * h

/-- Rounds a finite value to the format's grid, subnormals kept; `code` is that of the rounded value when it does not
exceed the largest finite value, else that of the largest finite value (R68, R73). -/
def FloatFmt.round (f : FloatFmt) (rnd : Rnd) (neg : Bool) (x : Frac) : Rounded :=
  if Frac.isZero x then ⟨f.signBit neg, false, false, false, false, false⟩
  else
    let e := Frac.ilog2 x
    let qu := e - f.fbits
    let q := if qu < f.minQ then f.minQ else qu
    let r := roundInt rnd neg (Frac.scale x (-q))
    let v := Frac.scale (Frac.ofInt r.1) q
    let small := Frac.pow2 (1 - f.bias)
    let ru := Frac.scale (Frac.ofInt (roundInt rnd neg (Frac.scale x (-qu))).1) qu
    let tooBig := Frac.lt f.maxVal v
    ⟨if tooBig then f.signBit neg + f.maxCode else f.encode neg r.1 q, tooBig, decide (r.1 = 0), r.2, Frac.lt x small,
      Frac.lt ru small⟩

/-- The code of an exact value in a format known to hold it. -/
def FloatFmt.exact (f : FloatFmt) (x : Frac) : Nat := (f.round .rne (Frac.isNeg x) (Frac.abs x)).code

/-- Events that a rounding to a narrower format counts (R73). -/
structure Counts1 where
  sat : Bool
  flushed : Bool
  invalid : Bool
  nanOut : Bool
  deriving DecidableEq, Repr

def noEvents : Counts1 := ⟨false, false, false, false⟩

/-- Conversion of a value to a floating-point target under R73. -/
def FloatFmt.narrow (f : FloatFmt) (rnd : Rnd) (v : Val) : Nat × Counts1 :=
  match v with
  | .nan => match f.spec with
    | .none => (0, { noEvents with invalid := true })
    | _ => (f.canonNaN, { noEvents with nanOut := true })
  | .inf neg => match f.spec with
    | .ieee => (f.infCode neg, noEvents)
    | _ => (f.signBit neg + f.maxCode, { noEvents with sat := true })
  | .fin neg m =>
    let r := f.round rnd neg m
    (r.code, { noEvents with sat := r.tooBig, flushed := r.toZero })

/-- Conversion of a value to a `w`-bit two's complement integer under R73. -/
def narrowInt (w : Nat) (rnd : Rnd) (v : Val) : Nat × Counts1 :=
  let hi : Int := ((2 ^ (w - 1) : Nat) : Int) - 1
  let lo : Int := -((2 ^ (w - 1) : Nat) : Int)
  match v with
  | .nan => (0, { noEvents with invalid := true })
  | .inf neg => (wrapInt w (if neg then lo else hi), { noEvents with sat := true })
  | .fin neg m =>
    let n : Int := ((roundInt rnd neg m).1 : Int)
    let i := if neg then -n else n
    if hi < i then (wrapInt w hi, { noEvents with sat := true })
    else if i < lo then (wrapInt w lo, { noEvents with sat := true })
    else (wrapInt w i, { noEvents with flushed := decide (i = 0) && !(Frac.isZero m) })

/-- The floating-point format of a format code of R55. -/
def floatOf (code : Nat) : Option FloatFmt :=
  match code with
  | 0x00 => some fp32 | 0x01 => some bf16 | 0x02 => some fp16 | 0x03 => some fp64
  | 0x04 => some e4m3 | 0x05 => some e5m2 | 0x06 => some e3m2 | 0x07 => some e2m3 | 0x08 => some e2m1
  | _ => none

/-- Width in bits of the elements of a format code (R55); 0 for a code the table does not list. -/
def fmtWidth (code : Nat) : Nat :=
  match code with
  | 0x00 => 32 | 0x01 => 16 | 0x02 => 16 | 0x03 => 64 | 0x04 => 8 | 0x05 => 8 | 0x06 => 6 | 0x07 => 6 | 0x08 => 4
  | 0x0C => 8 | 0x0D => 4 | 0x0E => 32 | 0x10 => 2 | 0x11 => 3 | 0x12 => 4 | _ => 0

/-- The value of an element's code in a format (R56, R58). -/
def fmtDecode (code c : Nat) : Val :=
  match floatOf code with
  | some f => f.decode c
  | none => let i := sext (fmtWidth code) c; .fin (decide (i < 0)) ⟨i.natAbs, 1⟩

/-- Bytes that a row of `n` elements takes (R59): whole groups for 6-bit and 3-bit elements. -/
def rowExtent (code n : Nat) : Nat :=
  match code with
  | 0x06 => 3 * ceilDiv n 4 | 0x07 => 3 * ceilDiv n 4
  | 0x11 => 3 * ceilDiv n 8
  | _ => ceilDiv (n * fmtWidth code) 8

/-- The E8M0 scale of an MX block (R58): `none` codes NaN. -/
def e8m0 (c : Nat) : Option Frac := if c = 255 then none else some (Frac.pow2 ((c : Int) - 127))

/-- The hash of R74: 64 random bits of seed `z` and element index `n`. -/
def srMix (z n : Nat) : Nat :=
  let m := 2 ^ 64
  let y0 := (z + (n + 1) * 0x9E3779B97F4A7C15) % m
  let y1 := (y0 ^^^ (y0 >>> 30)) * 0xBF58476D1CE4E5B9 % m
  let y2 := (y1 ^^^ (y1 >>> 27)) * 0x94D049BB133111EB % m
  y2 ^^^ (y2 >>> 31)

/-- The 32 random bits of stochastic rounding (R74). -/
def srBits (z n : Nat) : Nat := srMix (z % 2 ^ 64) (n % 2 ^ 64) / 2 ^ 32

/-- up32 of R87: the smallest FP32 value not below a positive fraction, as an exact value. -/
def up32 (x : Frac) : Frac := (fp32.decode (fp32.round .rup false x).code).frac

end Sys2Proof.Machine
end

