-- ==== Sys2Proof/Machine/Tab.lean ====
section
/-!
DEFINITION. Sparse tables in one canonical form: a list of (key, value) pairs with rising keys, in which no entry
holds what an unlisted key reads as. Every numbered collection of the state (registers, memories, hurdles, engines)
is held this way, so equal contents are equal lists.
-/
namespace Sys2Proof.Machine

/-- A sparse table: entries by rising key; an unlisted key reads as the table's default. -/
abbrev Tab (α : Type) := List (Nat × α)

/-- The entry of key `k`, if one is listed. -/
def Tab.find? {α : Type} : Tab α → Nat → Option α
  | [], _ => none
  | (j, v) :: r, k => if j = k then some v else Tab.find? r k

/-- The value of key `k`: its entry, or `d` when no entry is listed. -/
def Tab.get {α : Type} (d : α) (t : Tab α) (k : Nat) : α := (Tab.find? t k).getD d

/-- The table without an entry of key `k`. -/
def Tab.erase {α : Type} : Tab α → Nat → Tab α
  | [], _ => []
  | (j, v) :: r, k => if j = k then Tab.erase r k else (j, v) :: Tab.erase r k

/-- The table with the entry `(k, v)` put before the first larger key. -/
def Tab.ins {α : Type} : Tab α → Nat → α → Tab α
  | [], k, v => [(k, v)]
  | (j, w) :: r, k, v => if k < j then (k, v) :: (j, w) :: r else (j, w) :: Tab.ins r k v

/-- The table in which key `k` reads as `v`; writing the default removes the entry. -/
def Tab.set {α : Type} [DecidableEq α] (d : α) (t : Tab α) (k : Nat) (v : α) : Tab α :=
  if v = d then Tab.erase t k else Tab.ins (Tab.erase t k) k v

/-- The table without the entries whose keys satisfy `p`: those keys read as the default again. -/
def Tab.drop {α : Type} (t : Tab α) (p : Nat → Bool) : Tab α := List.filter (fun e => !p e.1) t

/-- Every key of the table lies above `lo`, in rising order. -/
def Tab.risingFrom {α : Type} : Option Nat → Tab α → Bool
  | _, [] => true
  | none, (j, _) :: r => Tab.risingFrom (some j) r
  | some lo, (j, _) :: r => decide (lo < j) && Tab.risingFrom (some j) r

/-- The canonical form: rising keys, and no entry equal to what its key reads as when unlisted. -/
def Tab.wf {α : Type} [DecidableEq α] (d : Nat → α) (t : Tab α) : Bool :=
  Tab.risingFrom none t && List.all t (fun e => decide (e.2 ≠ d e.1))

end Sys2Proof.Machine
end

