-- ==== Sys2Proof/Machine/RegMap.lean ====
section
/-!
DEFINITION. The register maps of the spec: every register of the control window with its place (block kind and offset)
and every field with its bits, access code, reset value and the rule whose map gives it (R5-R11; the maps stand in the
chapter of each block).
-/
namespace Sys2Proof.Machine

/-- The access codes of R5. -/
inductive Acc where
  | rw | ro | wo | w1c | w1s | rc | rwl
  deriving DecidableEq, Repr

/-- The kinds of unit that own a bank of registers; a register is one of a kind and is repeated per unit. -/
inductive Bank where
  | hub | quarter | cluster | core | engine | queue | qstall | stream | window | hurdle | track | slot | resident | kport | kslot | kgrp | kmbr | kstart | kpos | pchan | band | cxlwin | probe | fabpll | fabbank | fabport | fabmark | slice | region | lane | cxlport | mbxreq | mbxrsp | pacceil | pactemp | pacvmon | pacain | heat | secm | secnonce | secdbgn | secrcv | cdllast
  deriving DecidableEq, Repr

/-- How many units of a kind the device has (R18, R20 and the maps). -/
def Bank.count : Bank → Nat
  | .hub => 1
  | .quarter => 4
  | .cluster => 32
  | .core => 512
  | .engine => 2048
  | .queue => 4096
  | .qstall => 4096
  | .stream => 1024
  | .window => 2048
  | .hurdle => 65536
  | .track => 8
  | .slot => 2048
  | .resident => 32
  | .kport => 12
  | .kslot => 49152
  | .kgrp => 128
  | .kmbr => 128
  | .kstart => 128
  | .kpos => 128
  | .pchan => 256
  | .band => 6
  | .cxlwin => 16
  | .probe => 272
  | .fabpll => 16
  | .fabbank => 20
  | .fabport => 128
  | .fabmark => 64
  | .slice => 1536
  | .region => 32
  | .lane => 144
  | .cxlport => 2
  | .mbxreq => 512
  | .mbxrsp => 512
  | .pacceil => 32
  | .pactemp => 64
  | .pacvmon => 48
  | .pacain => 16
  | .heat => 256
  | .secm => 64
  | .secnonce => 4
  | .secdbgn => 4
  | .secrcv => 8192
  | .cdllast => 8

/-- Control-window offset of quarter `q` (R14). -/
def quarterBase (q : Nat) : Nat := 0x1000000 + q * 0x400000
/-- Control-window offset of global cluster `c` (R14, R16). -/
def clusterBase (c : Nat) : Nat := quarterBase (c / 8) + 0x200000 + c % 8 * 0x40000
/-- Control-window offset of global core `k` (R14, R16). -/
def coreBase (k : Nat) : Nat := clusterBase (k / 16) + k % 16 * 0x2000

/-- Control-window offset of the first register of unit `n` of a kind, as the maps place it. -/
def Bank.base (b : Bank) (n : Nat) : Nat :=
  match b with
  | .hub => 0
  | .quarter => quarterBase n
  | .cluster => clusterBase n
  | .core => coreBase n
  | .engine => coreBase (n / 4) + 0x800 + n % 4 * 0x100
  | .queue => coreBase (n / 8) + 0x100 + n % 8 * 0x20
  | .qstall => coreBase (n / 8) + 0x200 + n % 8 * 8
  | .stream => coreBase (n / 2) + 0x1000 + n % 2 * 0x200
  | .window => clusterBase (n / 64) + 0x20800 + n % 64 * 0x20
  | .hurdle => clusterBase (n / 2048) + 0x30000 + n % 2048 * 0x20
  | .track => 0x500000 + n * 0x100
  | .slot => 0x510000 + n / 64 * 0x800 + n % 64 * 0x20
  | .resident => 0x700100 + n * 8
  | .kport => quarterBase (n / 3) + 0x80000 + n % 3 * 0x10000
  | .kslot => quarterBase (n / 4096 / 3) + 0x80000 + n / 4096 % 3 * 0x10000 + 0x8000 + n % 4096 * 8
  | .kgrp => 0x10B0400 + n * 8
  | .kmbr => 0x10B0800 + n * 8
  | .kstart => 0x10B1000 + n * 0x20
  | .kpos => 0x10B2000 + n * 8
  | .pchan => quarterBase (n / 64) + 0x800 + n % 64 * 8
  | .band => 0x1001000 + n * 8
  | .cxlwin => 0x680100 + n * 0x20
  | .probe => if n < 256 then quarterBase (n / 64) + 0xC1000 + n % 64 * 0x40 else 0x801000 + (n - 256) * 0x40
  | .fabpll => quarterBase (n / 4) + 0x100100 + n % 4 * 0x10
  | .fabbank => quarterBase (n / 5) + 0x100200 + n % 5 * 0x10
  | .fabport => quarterBase (n / 32) + 0x101000 + n % 32 * 0x20
  | .fabmark => quarterBase (n / 16) + 0x102000 + n % 16 * 0x20
  | .slice => quarterBase (n / 384) + 0x140000 + n % 384 * 0x80
  | .region => 0x100100 + n * 8
  | .lane => if n < 96 then quarterBase (n / 24) + 0x180000 + n % 24 * 0x40 else 0x6C0000 + (n - 96) * 0x40
  | .cxlport => 0x640000 + n * 0x10000
  | .mbxreq => 0x301000 + n * 8
  | .mbxrsp => 0x302000 + n * 8
  | .pacceil => 0x2100 + n * 8
  | .pactemp => 0x2400 + n * 8
  | .pacvmon => 0x2600 + n * 8
  | .pacain => 0x2780 + n * 8
  | .heat => 0x3000 + n * 0x20
  | .secm => 0x200100 + n * 8
  | .secnonce => 0x200300 + n * 8
  | .secdbgn => 0x200400 + n * 8
  | .secrcv => 0x208000 + n * 8
  | .cdllast => 0x800040 + n * 8

/-- The registers of the control window, by the spec's names. -/
inductive Reg where
  | MXE_CTRL | MXE_STATUS | MXE_POS | MXE_RESUME | MXE_INSTR_CNT | MXE_PASS_CNT
  | MXE_PROD_CNT | MXE_SWAP_STALL_CNT | MXE_FEED_STALL_CNT | MXE_WRAP | MXE_LAST_REC | QNT_CTRL
  | QNT_STATUS | QNT_SLOT_RANGE | QNT_SLOT_SEL | QNT_SLOT_INFO | QNT_SLOT_AMAX | QNT_CONV_CNT
  | QNT_ESC_CNT | QNT_DEGEN_CNT | QNT_WARMUP_CNT | QNT_TABLE_STALL_CNT | QNT_WRAP | VEC_CTRL
  | VEC_STATUS | VEC_IMEM_ADDR | VEC_IMEM_DATA_LO | VEC_IMEM_DATA_HI | VEC_CTX_CTRL | VEC_CTX_DA
  | VEC_CTX_STATUS | VEC_ISSUE_CNT | VEC_VOP_CNT | VEC_WRAP | VEC_Q_CTRL | VEC_Q_STAT
  | VEC_Q_PC | VEC_Q_RANGE | VEC_Q_STALL_CNT | STM_CTRL | STM_STATUS | STM_SET0
  | STM_SET1 | STM_URGENCY | STM_CKPT0 | STM_CKPT1 | STM_CKPT2 | STM_CKPT3
  | STM_CKPT4 | STM_CKPT5 | STM_CKPT6 | STM_CKPT7 | STM_RD_BYTES_CNT | STM_WR_BYTES_CNT
  | STM_DESC_CNT | STM_PANIC_CNT | STM_FAULT_CNT | STM_WRAP | HUR_CTRL | HUR_STATUS
  | HUR_FE_CTRL | HUR_FE_DATA | HUR_ARRIVE_CNT | HUR_COMPLETE_CNT | HUR_BATON_CNT | HUR_BATON_DROP_CNT
  | HUR_WRAP | HUR_WIN_BASE | HUR_WIN_LEN | HUR_WIN_CREDIT | HUR_WIN_STAT | HUR_CFG
  | HUR_STATE | HUR_VALUE | HUR_OP | TRK_CTRL | TRK_CFG | TRK_EPL
  | TRK_STALL_TO | TRK_NOMINAL | TRK_PRESET_LAP | TRK_PRESET_ANGLE | TRK_DC_START | TRK_DC_CYCLE
  | TRK_FWD_COMP | TRK_LAP | TRK_ANGLE | TRK_INC | TRK_STATUS | TRK_STEP
  | TRK_DEFICIT | TRK_EDGE_CNT | TRK_STALL_CNT | TRK_LATE_CNT | TRK_LATE_MARK_CNT | TRK_IDX_ERR_CNT
  | TRK_REV_CNT | TRK_WRAP | TRK_LATE_LOG0 | TRK_LATE_LOG1 | TRK_LATE_LOG2 | TRK_LATE_LOG3
  | TRK_EPOCH | TRK_FL_LAP | TRK_FL_SET | TRK_FL_GEN | TRK_FL_STAT | SES_CTRL
  | SES_STATUS | SES_TABLE_DA | SES_ADMIT | SES_ADMIT_STAT | SES_CLOCK | SES_SLOTS_USED
  | SES_RING_PIN | SES_SWITCH_CNT | SES_DOORBELL_CNT | SES_DB_DROP_CNT | SES_RING_MISS_CNT | SES_FL_DISARM_CNT
  | SES_WRAP | SES_DOORBELL | SES_RESIDENT | KMR_CTRL | KMR_STATUS | KMR_MODE
  | KMR_PARTNER | KMR_PARTNER_SERIAL | KMR_LAT | KMR_FRAME | KMR_TX_CELL_CNT | KMR_RX_CELL_CNT
  | KMR_CW_CORR_CNT | KMR_CW_UNCORR_CNT | KMR_CELL_LOST_CNT | KMR_CELL_DROP_CNT | KMR_DOWN_CNT | KMR_WRAP
  | KMR_SLOT_TABLE | KMR_ROLE | KMR_DEV_STATUS | KMR_REF_CTRL | KMR_TRK_FWD | KMR_ACK_TO
  | KMR_SHAPE | KMR_SL_CTRL | KMR_RELAY_CNT | KMR_HOPS_DROP_CNT | KMR_ACK_LATE_CNT | KMR_SL_REBUILD_CNT
  | KMR_DEV_WRAP | KMR_ROUTE_GRP | KMR_ROUTE_MBR | KMR_START_LIST0 | KMR_START_LIST1 | KMR_START_LIST2
  | KMR_START_LIST3 | KMR_POS_TABLE | HBM_CTRL | HBM_STATUS | HBM_PD_CTRL | HBM_REF_CTRL
  | HBM_WQ_CTRL | HBM_RT_PORTS | HBM_TRAIN | HBM_ERR_LOG | HBM_RD_BYTES_CNT | HBM_WR_BYTES_CNT
  | HBM_CE_CNT | HBM_UE_CNT | HBM_FWD_CNT | HBM_PANIC_CNT | HBM_REF_FORCE_CNT | HBM_PD_ENTRY_CNT
  | HBM_SR_EXIT_CNT | HBM_WRAP | HBM_PC_STATE | HBM_BAND | CXL_TIER_CTRL | CXL_TIER_STATUS
  | CXL_XLT_INV | CXL_PRQ_REC | CXL_PRQ_RESP | CXL_CPL_TO | CXL_RD_BYTES_CNT | CXL_WR_BYTES_CNT
  | CXL_ERR_RSP_CNT | CXL_XLT_MISS_CNT | CXL_WRAP | CXL_WIN_CFG | CXL_WIN_TGT | CXL_WIN_XLT
  | CXL_WIN_STAT | NOC_CTRL | NOC_STATUS | NOC_PWR_CTRL | NOC_PWR_STAT | NOC_TRACE_BASE
  | NOC_TRACE_LEN | NOC_TRACE_WP | NOC_CPL_TO | NOC_FLIT_CNT | NOC_WAKE_CNT | NOC_HOLD_CNT
  | NOC_TRACE_DROP_CNT | NOC_LINK_CE_CNT | NOC_LINK_UE_CNT | NOC_MISROUTE_CNT | NOC_WRAP | NOC_PRB_WRAP
  | NOC_PRB_CTRL | NOC_PRB_FILT | NOC_PRB_UNIT | NOC_PRB_DA_LO | NOC_PRB_DA_HI | NOC_PRB_CNT
  | FAB_CTRL | FAB_STATUS | FAB_RD_BYTES_CNT | FAB_WR_BYTES_CNT | FAB_PORT_ERR_CNT | FAB_RAM_CE_CNT
  | FAB_RAM_UE_CNT | FAB_MARK_SKIP_CNT | FAB_VCCIO_FAULT_CNT | FAB_WRAP | FAB_PLL_CTRL | FAB_PLL_STAT
  | FAB_BANK_CFG | FAB_BANK_STAT | FAB_PORT_CTRL | FAB_PORT_WIN_LO | FAB_PORT_WIN_HI | FAB_PORT_STAT
  | FAB_MARK_CFG | FAB_MARK_LAP | FAB_MARK_STEP | FAB_MARK_STAT | SPS_CTRL | SPS_STATUS
  | SPS_PC | SPS_MEM_ADDR | SPS_MEM_DATA | SPS_CYCLE_CNT | SPS_SAT_CNT | SPS_OVF_CNT
  | SPS_MARK_OVR_CNT | SPS_WRAP | CFG_CTRL | CFG_STATUS | CFG_LOAD | CFG_SRC
  | CFG_PROGRESS | CFG_FAIL | CFG_LOAD_CNT | CFG_FAIL_CNT | CFG_FALLBACK_CNT | CFG_PORT_DISCARD_CNT
  | CFG_WRAP | CFG_REGION | MDT_CTRL | MDT_STATUS | MDT_POS | MDT_LOG
  | MDT_GROUP_CNT | MDT_COVER_CNT | MDT_CORR_CNT | MDT_REFETCH_CNT | MDT_UE_CNT | MDT_RESET_CNT
  | MDT_WRAP | LNE_CTRL | LNE_STAT | LNE_THRESH | LNE_EQ | LNE_RETRAIN_CNT
  | LNE_WAKE_CNT | LNE_LOCK_LOSS_CNT | LNE_WRAP | PCI_CTRL | PCI_STATUS | PCI_BAR2_BASE
  | PCI_BAR2_SIZE | PCI_MSIX_RAISE | PCI_ATC_STAT | PCI_RX_BYTES_CNT | PCI_TX_BYTES_CNT | PCI_ATS_REQ_CNT
  | PCI_PRQ_CNT | PCI_INVAL_CNT | PCI_ERR_CNT | PCI_WRAP | CXL_PORT_CTRL | CXL_PORT_STAT
  | CXL_CFG_ADDR | CXL_CFG_DATA | CXL_PORT_REPLAY_CNT | CXL_PORT_DOWN_CNT | CXL_PORT_ERR_CNT | CXL_PORT_WRAP
  | FLD_MBX_CTRL | FLD_MBX_STAT | FLD_MBX_EMCY | FLD_MBX_REQ_CNT | FLD_MBX_ABORT_CNT | FLD_EMCY_CNT
  | FLD_EMCY_DROP_CNT | FLD_MBX_WRAP | FLD_MBX_REQ_BUF | FLD_MBX_RSP_BUF | FLD_CTRL | FLD_STATUS
  | FLD_DC_CTRL | FLD_DC_TIME | FLD_PDO_OUT | FLD_PDO_IN | FLD_FRAME_CNT | FLD_FRAME_ERR_CNT
  | FLD_PDO_OVR_CNT | FLD_WDOG_CNT | FLD_DC_LOSS_CNT | FLD_WRAP | RST_CTRL | RST_STATUS
  | RST_CAUSE | RST_BOOT | RST_BLOCK | RST_SRC_CFG | RST_TRIM | RST_DEVICE_CNT
  | RST_MC_CNT | RST_BLOCK_CNT | RST_BLOCK_REFUSED_CNT | RST_WRAP | PWR_CTRL | PWR_STATUS
  | PWR_INPUT | PWR_AVG | PWR_QCTRL | PWR_CAUSE | PWR_ENERGY_CNT | PWR_BROWNOUT_CNT
  | PWR_RAIL_FAULT_CNT | PWR_WRAP | PAC_CTRL | PAC_STATUS | PAC_WDOG | PAC_TRIP
  | PAC_LOG | PAC_FIRE_CNT | PAC_REFUSED_CNT | PAC_THROTTLE_CYC_CNT | PAC_TRIP_CYC_CNT | PAC_WRAP
  | PAC_CEIL | PAC_TEMP | PAC_VMON | PAC_AIN | PAC_HEAT_CFG | PAC_HEAT_TH
  | PAC_HEAT_ACT | PAC_HEAT_STAT | SEC_CTRL | SEC_STATUS | SEC_BOOT | SEC_ROLLBACK
  | SEC_VERIFY | SEC_EXTEND | SEC_ATT | SEC_DBG | SEC_RCV | SEC_VERIFY_CNT
  | SEC_VERIFY_FAIL_CNT | SEC_ATT_CNT | SEC_WRAP | SEC_M | SEC_ATT_NONCE | SEC_DBG_NONCE
  | SEC_RCV_BUF | TST_CTRL | TST_STATUS | TST_FENCE | TST_CDL | TST_CDL_CNT
  | TST_CDL_FAIL_CNT | TST_FENCE_CNT | TST_WRAP | TST_CDL_LAST
  deriving DecidableEq, Repr

/-- A field of a register: its register, its lowest bit, its width, its access code, the value every reset of its block
gives it, and whether it reflects live state ("—" in the Reset column, R6). `key` numbers the fields. -/
structure Fld where
  key : Nat
  reg : Reg
  lo : Nat
  width : Nat
  acc : Acc
  reset : Nat
  live : Bool
  /-- The clamp of the map (R7): least and greatest value stored, and how many low bits are stored as zero. -/
  cmin : Nat
  cmax : Nat
  zeros : Nat
  deriving DecidableEq, Repr

namespace F
def MXE_CTRL_EN : Fld := ⟨0, .MXE_CTRL, 0, 1, .rw, 1, false, 0, 1, 0⟩
def MXE_CTRL_DRAIN : Fld := ⟨1, .MXE_CTRL, 1, 1, .rw, 0, false, 0, 1, 0⟩
def MXE_CTRL_FORCE_EXACT : Fld := ⟨2, .MXE_CTRL, 2, 1, .rw, 0, false, 0, 1, 0⟩
def MXE_CTRL_PREEMPT : Fld := ⟨3, .MXE_CTRL, 3, 1, .w1s, 0, false, 0, 1, 0⟩
def MXE_CTRL_GATE_EN : Fld := ⟨4, .MXE_CTRL, 4, 1, .rw, 1, false, 0, 1, 0⟩
def MXE_CTRL_CONTINUE : Fld := ⟨5, .MXE_CTRL, 5, 1, .w1s, 0, false, 0, 1, 0⟩
def MXE_CTRL_DUTY : Fld := ⟨6, .MXE_CTRL, 16, 5, .rw, 16, false, 4, 16, 0⟩
def MXE_STATUS_BUSY : Fld := ⟨7, .MXE_STATUS, 0, 1, .ro, 0, false, 0, 1, 0⟩
def MXE_STATUS_STAGED : Fld := ⟨8, .MXE_STATUS, 1, 1, .ro, 0, false, 0, 1, 0⟩
def MXE_STATUS_ACTIVE_SET : Fld := ⟨9, .MXE_STATUS, 2, 1, .ro, 0, false, 0, 1, 0⟩
def MXE_STATUS_STOPPED : Fld := ⟨10, .MXE_STATUS, 3, 1, .ro, 0, false, 0, 1, 0⟩
def MXE_STATUS_CONFIG_ERR : Fld := ⟨11, .MXE_STATUS, 8, 1, .w1c, 0, false, 0, 1, 0⟩
def MXE_STATUS_DATA_ERR : Fld := ⟨12, .MXE_STATUS, 9, 1, .w1c, 0, false, 0, 1, 0⟩
def MXE_STATUS_RECORD_ERR : Fld := ⟨13, .MXE_STATUS, 10, 1, .w1c, 0, false, 0, 1, 0⟩
def MXE_STATUS_THROTTLE_REFUSED : Fld := ⟨14, .MXE_STATUS, 11, 1, .w1c, 0, false, 0, 1, 0⟩
def MXE_STATUS_CAUSE : Fld := ⟨15, .MXE_STATUS, 16, 4, .ro, 0, false, 0, 15, 0⟩
def MXE_POS_M_ROW : Fld := ⟨16, .MXE_POS, 0, 12, .ro, 0, true, 0, 4095, 0⟩
def MXE_POS_KB : Fld := ⟨17, .MXE_POS, 12, 9, .ro, 0, true, 0, 511, 0⟩
def MXE_POS_NB : Fld := ⟨18, .MXE_POS, 21, 7, .ro, 0, true, 0, 127, 0⟩
def MXE_RESUME_NB_START : Fld := ⟨19, .MXE_RESUME, 0, 7, .rw, 0, false, 0, 127, 0⟩
def MXE_RESUME_VALID : Fld := ⟨20, .MXE_RESUME, 8, 1, .rw, 0, false, 0, 1, 0⟩
def MXE_INSTR_CNT_COUNT : Fld := ⟨21, .MXE_INSTR_CNT, 0, 64, .ro, 0, false, 0, 0xffffffffffffffff, 0⟩
def MXE_PASS_CNT_COUNT : Fld := ⟨22, .MXE_PASS_CNT, 0, 64, .ro, 0, false, 0, 0xffffffffffffffff, 0⟩
def MXE_PROD_CNT_COUNT : Fld := ⟨23, .MXE_PROD_CNT, 0, 64, .ro, 0, false, 0, 0xffffffffffffffff, 0⟩
def MXE_SWAP_STALL_CNT_COUNT : Fld := ⟨24, .MXE_SWAP_STALL_CNT, 0, 64, .ro, 0, false, 0, 0xffffffffffffffff, 0⟩
def MXE_FEED_STALL_CNT_COUNT : Fld := ⟨25, .MXE_FEED_STALL_CNT, 0, 64, .ro, 0, false, 0, 0xffffffffffffffff, 0⟩
def MXE_WRAP_INSTR : Fld := ⟨26, .MXE_WRAP, 0, 1, .w1c, 0, false, 0, 1, 0⟩
def MXE_WRAP_PASS : Fld := ⟨27, .MXE_WRAP, 1, 1, .w1c, 0, false, 0, 1, 0⟩
def MXE_WRAP_PROD : Fld := ⟨28, .MXE_WRAP, 2, 1, .w1c, 0, false, 0, 1, 0⟩
def MXE_WRAP_SWAP_STALL : Fld := ⟨29, .MXE_WRAP, 3, 1, .w1c, 0, false, 0, 1, 0⟩
def MXE_WRAP_FEED_STALL : Fld := ⟨30, .MXE_WRAP, 4, 1, .w1c, 0, false, 0, 1, 0⟩
def MXE_LAST_REC_DA : Fld := ⟨31, .MXE_LAST_REC, 0, 48, .ro, 0, false, 0, 0xffffffffffff, 0⟩
def QNT_CTRL_SLOT_CLEAR : Fld := ⟨32, .QNT_CTRL, 0, 1, .w1s, 0, false, 0, 1, 0⟩
def QNT_CTRL_HIST_CLEAR : Fld := ⟨33, .QNT_CTRL, 1, 1, .w1s, 0, false, 0, 1, 0⟩
def QNT_CTRL_FAULT_EVT_EN : Fld := ⟨34, .QNT_CTRL, 2, 1, .rw, 0, false, 0, 1, 0⟩
def QNT_STATUS_BUSY : Fld := ⟨35, .QNT_STATUS, 0, 1, .ro, 0, false, 0, 1, 0⟩
def QNT_STATUS_CLEARING : Fld := ⟨36, .QNT_STATUS, 1, 1, .ro, 1, false, 0, 1, 0⟩
def QNT_STATUS_DESC_ERR : Fld := ⟨37, .QNT_STATUS, 8, 1, .w1c, 0, false, 0, 1, 0⟩
def QNT_STATUS_THRESHOLD : Fld := ⟨38, .QNT_STATUS, 9, 1, .w1c, 0, false, 0, 1, 0⟩
def QNT_STATUS_WARMUP : Fld := ⟨39, .QNT_STATUS, 10, 1, .w1c, 0, false, 0, 1, 0⟩
def QNT_STATUS_SIDE_FULL : Fld := ⟨40, .QNT_STATUS, 11, 1, .w1c, 0, false, 0, 1, 0⟩
def QNT_STATUS_STATS_SAT : Fld := ⟨41, .QNT_STATUS, 12, 1, .w1c, 0, false, 0, 1, 0⟩
def QNT_STATUS_DESC_CAUSE : Fld := ⟨42, .QNT_STATUS, 16, 4, .ro, 0, false, 0, 15, 0⟩
def QNT_SLOT_RANGE_LO : Fld := ⟨43, .QNT_SLOT_RANGE, 0, 12, .rw, 0, false, 0, 4095, 0⟩
def QNT_SLOT_RANGE_HI : Fld := ⟨44, .QNT_SLOT_RANGE, 16, 12, .rw, 4095, false, 0, 4095, 0⟩
def QNT_SLOT_SEL_SLOT : Fld := ⟨45, .QNT_SLOT_SEL, 0, 12, .rw, 0, false, 0, 4095, 0⟩
def QNT_SLOT_INFO_STEPS : Fld := ⟨46, .QNT_SLOT_INFO, 0, 5, .ro, 0, false, 0, 31, 0⟩
def QNT_SLOT_INFO_HEAD : Fld := ⟨47, .QNT_SLOT_INFO, 8, 4, .ro, 0, false, 0, 15, 0⟩
def QNT_SLOT_INFO_OWNER_Q : Fld := ⟨48, .QNT_SLOT_INFO, 12, 3, .ro, 0, false, 0, 7, 0⟩
def QNT_SLOT_INFO_OWNED : Fld := ⟨49, .QNT_SLOT_INFO, 15, 1, .ro, 0, false, 0, 1, 0⟩
def QNT_SLOT_INFO_WARM : Fld := ⟨50, .QNT_SLOT_INFO, 16, 1, .ro, 0, false, 0, 1, 0⟩
def QNT_SLOT_INFO_PENDING : Fld := ⟨51, .QNT_SLOT_INFO, 32, 32, .ro, 0, false, 0, 0xffffffff, 0⟩
def QNT_SLOT_AMAX_AMAX : Fld := ⟨52, .QNT_SLOT_AMAX, 0, 32, .ro, 0, false, 0, 0xffffffff, 0⟩
def QNT_CONV_CNT_COUNT : Fld := ⟨53, .QNT_CONV_CNT, 0, 64, .ro, 0, false, 0, 0xffffffffffffffff, 0⟩
def QNT_ESC_CNT_COUNT : Fld := ⟨54, .QNT_ESC_CNT, 0, 64, .ro, 0, false, 0, 0xffffffffffffffff, 0⟩
def QNT_DEGEN_CNT_COUNT : Fld := ⟨55, .QNT_DEGEN_CNT, 0, 64, .ro, 0, false, 0, 0xffffffffffffffff, 0⟩
def QNT_WARMUP_CNT_COUNT : Fld := ⟨56, .QNT_WARMUP_CNT, 0, 64, .ro, 0, false, 0, 0xffffffffffffffff, 0⟩
def QNT_TABLE_STALL_CNT_COUNT : Fld := ⟨57, .QNT_TABLE_STALL_CNT, 0, 64, .ro, 0, false, 0, 0xffffffffffffffff, 0⟩
def QNT_WRAP_CONV : Fld := ⟨58, .QNT_WRAP, 0, 1, .w1c, 0, false, 0, 1, 0⟩
def QNT_WRAP_ESC : Fld := ⟨59, .QNT_WRAP, 1, 1, .w1c, 0, false, 0, 1, 0⟩
def QNT_WRAP_DEGEN : Fld := ⟨60, .QNT_WRAP, 2, 1, .w1c, 0, false, 0, 1, 0⟩
def QNT_WRAP_WARMUP : Fld := ⟨61, .QNT_WRAP, 3, 1, .w1c, 0, false, 0, 1, 0⟩
def QNT_WRAP_TABLE_STALL : Fld := ⟨62, .QNT_WRAP, 4, 1, .w1c, 0, false, 0, 1, 0⟩
def VEC_CTRL_EN : Fld := ⟨63, .VEC_CTRL, 0, 1, .rw, 1, false, 0, 1, 0⟩
def VEC_STATUS_SPAD_INIT : Fld := ⟨64, .VEC_STATUS, 0, 1, .ro, 1, false, 0, 1, 0⟩
def VEC_STATUS_IMEM_REFUSED : Fld := ⟨65, .VEC_STATUS, 8, 1, .w1c, 0, false, 0, 1, 0⟩
def VEC_STATUS_VMASK_CLIPPED : Fld := ⟨66, .VEC_STATUS, 9, 1, .w1c, 0, false, 0, 1, 0⟩
def VEC_STATUS_REC_ERR : Fld := ⟨67, .VEC_STATUS, 10, 1, .w1c, 0, false, 0, 1, 0⟩
def VEC_STATUS_Q_FAULT : Fld := ⟨68, .VEC_STATUS, 11, 1, .w1c, 0, false, 0, 1, 0⟩
def VEC_IMEM_ADDR_WORD : Fld := ⟨69, .VEC_IMEM_ADDR, 0, 12, .rw, 0, false, 0, 4095, 0⟩
def VEC_IMEM_DATA_LO_DATA : Fld := ⟨70, .VEC_IMEM_DATA_LO, 0, 64, .wo, 0, true, 0, 0xffffffffffffffff, 0⟩
def VEC_IMEM_DATA_HI_DATA : Fld := ⟨71, .VEC_IMEM_DATA_HI, 0, 64, .wo, 0, true, 0, 0xffffffffffffffff, 0⟩
def VEC_CTX_CTRL_SAVE : Fld := ⟨72, .VEC_CTX_CTRL, 0, 1, .w1s, 0, false, 0, 1, 0⟩
def VEC_CTX_CTRL_RESTORE : Fld := ⟨73, .VEC_CTX_CTRL, 1, 1, .w1s, 0, false, 0, 1, 0⟩
def VEC_CTX_CTRL_AUTOSTART : Fld := ⟨74, .VEC_CTX_CTRL, 2, 1, .rw, 0, false, 0, 1, 0⟩
def VEC_CTX_CTRL_SPAD_LEN : Fld := ⟨75, .VEC_CTX_CTRL, 8, 9, .rw, 256, false, 0, 256, 0⟩
def VEC_CTX_DA_DA : Fld := ⟨76, .VEC_CTX_DA, 0, 48, .rw, 0, false, 0, 0xffffffffffff, 8⟩
def VEC_CTX_STATUS_BUSY : Fld := ⟨77, .VEC_CTX_STATUS, 0, 1, .ro, 0, false, 0, 1, 0⟩
def VEC_CTX_STATUS_QUIESCE : Fld := ⟨78, .VEC_CTX_STATUS, 1, 1, .ro, 0, false, 0, 1, 0⟩
def VEC_CTX_STATUS_DONE : Fld := ⟨79, .VEC_CTX_STATUS, 8, 1, .w1c, 0, false, 0, 1, 0⟩
def VEC_CTX_STATUS_ERR : Fld := ⟨80, .VEC_CTX_STATUS, 9, 1, .w1c, 0, false, 0, 1, 0⟩
def VEC_CTX_STATUS_CAUSE : Fld := ⟨81, .VEC_CTX_STATUS, 16, 4, .ro, 0, false, 0, 15, 0⟩
def VEC_CTX_STATUS_CYCLES : Fld := ⟨82, .VEC_CTX_STATUS, 32, 32, .ro, 0, false, 0, 0xffffffff, 0⟩
def VEC_ISSUE_CNT_COUNT : Fld := ⟨83, .VEC_ISSUE_CNT, 0, 64, .ro, 0, false, 0, 0xffffffffffffffff, 0⟩
def VEC_VOP_CNT_COUNT : Fld := ⟨84, .VEC_VOP_CNT, 0, 64, .ro, 0, false, 0, 0xffffffffffffffff, 0⟩
def VEC_WRAP_ISSUE : Fld := ⟨85, .VEC_WRAP, 0, 1, .w1c, 0, false, 0, 1, 0⟩
def VEC_WRAP_VOP : Fld := ⟨86, .VEC_WRAP, 1, 1, .w1c, 0, false, 0, 1, 0⟩
def VEC_WRAP_QSTALL : Fld := ⟨87, .VEC_WRAP, 2, 8, .w1c, 0, false, 0, 255, 0⟩
def VEC_Q_CTRL_START : Fld := ⟨88, .VEC_Q_CTRL, 0, 1, .w1s, 0, false, 0, 1, 0⟩
def VEC_Q_CTRL_STOP : Fld := ⟨89, .VEC_Q_CTRL, 1, 1, .w1s, 0, false, 0, 1, 0⟩
def VEC_Q_CTRL_CLEAR_FAULT : Fld := ⟨90, .VEC_Q_CTRL, 2, 1, .w1s, 0, false, 0, 1, 0⟩
def VEC_Q_STAT_STATE : Fld := ⟨91, .VEC_Q_STAT, 0, 3, .ro, 0, false, 0, 7, 0⟩
def VEC_Q_STAT_WAIT_ON : Fld := ⟨92, .VEC_Q_STAT, 4, 4, .ro, 0, false, 0, 15, 0⟩
def VEC_Q_STAT_FAULT_CAUSE : Fld := ⟨93, .VEC_Q_STAT, 8, 8, .ro, 0, false, 0, 255, 0⟩
def VEC_Q_STAT_LOOP_DEPTH : Fld := ⟨94, .VEC_Q_STAT, 16, 3, .ro, 0, false, 0, 7, 0⟩
def VEC_Q_STAT_EVENT : Fld := ⟨95, .VEC_Q_STAT, 24, 1, .w1c, 0, false, 0, 1, 0⟩
def VEC_Q_PC_PC : Fld := ⟨96, .VEC_Q_PC, 0, 12, .rw, 0, false, 0, 4095, 0⟩
def VEC_Q_RANGE_LO : Fld := ⟨97, .VEC_Q_RANGE, 0, 12, .rw, 0, false, 0, 4095, 0⟩
def VEC_Q_RANGE_HI : Fld := ⟨98, .VEC_Q_RANGE, 16, 12, .rw, 4095, false, 0, 4095, 0⟩
def VEC_Q_RANGE_VMASK : Fld := ⟨99, .VEC_Q_RANGE, 32, 32, .rw, 0, false, 0, 0xffffffff, 0⟩
def VEC_Q_STALL_CNT_COUNT : Fld := ⟨100, .VEC_Q_STALL_CNT, 0, 64, .ro, 0, false, 0, 0xffffffffffffffff, 0⟩
def STM_CTRL_EN : Fld := ⟨101, .STM_CTRL, 0, 1, .rw, 1, false, 0, 1, 0⟩
def STM_CTRL_RESUME : Fld := ⟨102, .STM_CTRL, 1, 1, .w1s, 0, false, 0, 1, 0⟩
def STM_CTRL_ABANDON : Fld := ⟨103, .STM_CTRL, 2, 1, .w1s, 0, false, 0, 1, 0⟩
def STM_CTRL_PANIC_EN : Fld := ⟨104, .STM_CTRL, 3, 1, .rw, 1, false, 0, 1, 0⟩
def STM_CTRL_RATE : Fld := ⟨105, .STM_CTRL, 8, 8, .rw, 64, false, 1, 128, 0⟩
def STM_CTRL_PANIC_TH : Fld := ⟨106, .STM_CTRL, 32, 16, .rw, 2048, false, 0, 0xffff, 0⟩
def STM_STATUS_BUSY : Fld := ⟨107, .STM_STATUS, 0, 1, .ro, 0, false, 0, 1, 0⟩
def STM_STATUS_RUN_SET : Fld := ⟨108, .STM_STATUS, 1, 1, .ro, 0, false, 0, 1, 0⟩
def STM_STATUS_ARMED : Fld := ⟨109, .STM_STATUS, 2, 2, .ro, 0, false, 0, 3, 0⟩
def STM_STATUS_STATE : Fld := ⟨110, .STM_STATUS, 4, 2, .ro, 0, false, 0, 3, 0⟩
def STM_STATUS_SCHED : Fld := ⟨111, .STM_STATUS, 6, 1, .ro, 0, false, 0, 1, 0⟩
def STM_STATUS_PANIC : Fld := ⟨112, .STM_STATUS, 7, 1, .ro, 0, false, 0, 1, 0⟩
def STM_STATUS_LATE : Fld := ⟨113, .STM_STATUS, 8, 1, .w1c, 0, false, 0, 1, 0⟩
def STM_STATUS_DESC_ERR : Fld := ⟨114, .STM_STATUS, 9, 1, .w1c, 0, false, 0, 1, 0⟩
def STM_STATUS_XLATE_ERR : Fld := ⟨115, .STM_STATUS, 10, 1, .w1c, 0, false, 0, 1, 0⟩
def STM_STATUS_DATA_ERR : Fld := ⟨116, .STM_STATUS, 11, 1, .w1c, 0, false, 0, 1, 0⟩
def STM_STATUS_CAUSE : Fld := ⟨117, .STM_STATUS, 16, 4, .ro, 0, false, 0, 15, 0⟩
def STM_SET0_LIST_DA : Fld := ⟨118, .STM_SET0, 0, 48, .ro, 0, false, 0, 0xffffffffffff, 0⟩
def STM_SET0_COUNT : Fld := ⟨119, .STM_SET0, 48, 8, .ro, 0, false, 0, 255, 0⟩
def STM_SET0_NEXT : Fld := ⟨120, .STM_SET0, 56, 8, .ro, 0, false, 0, 255, 0⟩
def STM_SET1_LIST_DA : Fld := ⟨121, .STM_SET1, 0, 48, .ro, 0, false, 0, 0xffffffffffff, 0⟩
def STM_SET1_COUNT : Fld := ⟨122, .STM_SET1, 48, 8, .ro, 0, false, 0, 255, 0⟩
def STM_SET1_NEXT : Fld := ⟨123, .STM_SET1, 56, 8, .ro, 0, false, 0, 255, 0⟩
def STM_URGENCY_KEY : Fld := ⟨124, .STM_URGENCY, 0, 16, .ro, 65535, false, 0, 0xffff, 0⟩
def STM_URGENCY_U : Fld := ⟨125, .STM_URGENCY, 32, 32, .ro, 0, false, 0, 0xffffffff, 0⟩
def STM_CKPT0_DATA : Fld := ⟨126, .STM_CKPT0, 0, 64, .ro, 0, false, 0, 0xffffffffffffffff, 0⟩
def STM_CKPT1_DATA : Fld := ⟨127, .STM_CKPT1, 0, 64, .ro, 0, false, 0, 0xffffffffffffffff, 0⟩
def STM_CKPT2_DATA : Fld := ⟨128, .STM_CKPT2, 0, 64, .ro, 0, false, 0, 0xffffffffffffffff, 0⟩
def STM_CKPT3_DATA : Fld := ⟨129, .STM_CKPT3, 0, 64, .ro, 0, false, 0, 0xffffffffffffffff, 0⟩
def STM_CKPT4_DATA : Fld := ⟨130, .STM_CKPT4, 0, 64, .ro, 0, false, 0, 0xffffffffffffffff, 0⟩
def STM_CKPT5_DATA : Fld := ⟨131, .STM_CKPT5, 0, 64, .ro, 0, false, 0, 0xffffffffffffffff, 0⟩
def STM_CKPT6_DATA : Fld := ⟨132, .STM_CKPT6, 0, 64, .ro, 0, false, 0, 0xffffffffffffffff, 0⟩
def STM_CKPT7_DATA : Fld := ⟨133, .STM_CKPT7, 0, 64, .ro, 0, false, 0, 0xffffffffffffffff, 0⟩
def STM_RD_BYTES_CNT_COUNT : Fld := ⟨134, .STM_RD_BYTES_CNT, 0, 64, .ro, 0, false, 0, 0xffffffffffffffff, 0⟩
def STM_WR_BYTES_CNT_COUNT : Fld := ⟨135, .STM_WR_BYTES_CNT, 0, 64, .ro, 0, false, 0, 0xffffffffffffffff, 0⟩
def STM_DESC_CNT_COUNT : Fld := ⟨136, .STM_DESC_CNT, 0, 64, .ro, 0, false, 0, 0xffffffffffffffff, 0⟩
def STM_PANIC_CNT_COUNT : Fld := ⟨137, .STM_PANIC_CNT, 0, 64, .ro, 0, false, 0, 0xffffffffffffffff, 0⟩
def STM_FAULT_CNT_COUNT : Fld := ⟨138, .STM_FAULT_CNT, 0, 64, .ro, 0, false, 0, 0xffffffffffffffff, 0⟩
def STM_WRAP_RD_BYTES : Fld := ⟨139, .STM_WRAP, 0, 1, .w1c, 0, false, 0, 1, 0⟩
def STM_WRAP_WR_BYTES : Fld := ⟨140, .STM_WRAP, 1, 1, .w1c, 0, false, 0, 1, 0⟩
def STM_WRAP_DESC : Fld := ⟨141, .STM_WRAP, 2, 1, .w1c, 0, false, 0, 1, 0⟩
def STM_WRAP_PANIC : Fld := ⟨142, .STM_WRAP, 3, 1, .w1c, 0, false, 0, 1, 0⟩
def STM_WRAP_FAULT : Fld := ⟨143, .STM_WRAP, 4, 1, .w1c, 0, false, 0, 1, 0⟩
def HUR_CTRL_EN : Fld := ⟨144, .HUR_CTRL, 0, 1, .rw, 1, false, 0, 1, 0⟩
def HUR_CTRL_DROP_EVT_EN : Fld := ⟨145, .HUR_CTRL, 1, 1, .rw, 1, false, 0, 1, 0⟩
def HUR_STATUS_BATON_REJ : Fld := ⟨146, .HUR_STATUS, 0, 1, .w1c, 0, false, 0, 1, 0⟩
def HUR_STATUS_BATON_FULL : Fld := ⟨147, .HUR_STATUS, 1, 1, .w1c, 0, false, 0, 1, 0⟩
def HUR_STATUS_STATE_REFUSED : Fld := ⟨148, .HUR_STATUS, 2, 1, .w1c, 0, false, 0, 1, 0⟩
def HUR_FE_CTRL_DA : Fld := ⟨149, .HUR_FE_CTRL, 0, 48, .rw, 0, false, 0, 0xffffffffffff, 3⟩
def HUR_FE_CTRL_MODE : Fld := ⟨150, .HUR_FE_CTRL, 48, 2, .rw, 1, false, 0, 2, 0⟩
def HUR_FE_CTRL_MISS : Fld := ⟨151, .HUR_FE_CTRL, 56, 1, .w1c, 0, false, 0, 1, 0⟩
def HUR_FE_CTRL_FULL : Fld := ⟨152, .HUR_FE_CTRL, 57, 1, .ro, 0, true, 0, 1, 0⟩
def HUR_FE_DATA_DATA : Fld := ⟨153, .HUR_FE_DATA, 0, 64, .rw, 0, true, 0, 0xffffffffffffffff, 0⟩
def HUR_ARRIVE_CNT_COUNT : Fld := ⟨154, .HUR_ARRIVE_CNT, 0, 64, .ro, 0, false, 0, 0xffffffffffffffff, 0⟩
def HUR_COMPLETE_CNT_COUNT : Fld := ⟨155, .HUR_COMPLETE_CNT, 0, 64, .ro, 0, false, 0, 0xffffffffffffffff, 0⟩
def HUR_BATON_CNT_COUNT : Fld := ⟨156, .HUR_BATON_CNT, 0, 64, .ro, 0, false, 0, 0xffffffffffffffff, 0⟩
def HUR_BATON_DROP_CNT_COUNT : Fld := ⟨157, .HUR_BATON_DROP_CNT, 0, 64, .ro, 0, false, 0, 0xffffffffffffffff, 0⟩
def HUR_WRAP_ARRIVE : Fld := ⟨158, .HUR_WRAP, 0, 1, .w1c, 0, false, 0, 1, 0⟩
def HUR_WRAP_COMPLETE : Fld := ⟨159, .HUR_WRAP, 1, 1, .w1c, 0, false, 0, 1, 0⟩
def HUR_WRAP_BATON : Fld := ⟨160, .HUR_WRAP, 2, 1, .w1c, 0, false, 0, 1, 0⟩
def HUR_WRAP_BATON_DROP : Fld := ⟨161, .HUR_WRAP, 3, 1, .w1c, 0, false, 0, 1, 0⟩
def HUR_WIN_BASE_DA : Fld := ⟨162, .HUR_WIN_BASE, 0, 48, .rw, 0, false, 0, 0xffffffffffff, 0⟩
def HUR_WIN_LEN_LEN : Fld := ⟨163, .HUR_WIN_LEN, 0, 22, .rw, 0, false, 0, 0x3fffff, 0⟩
def HUR_WIN_CREDIT_CREDIT : Fld := ⟨164, .HUR_WIN_CREDIT, 0, 64, .ro, 0, false, 0, 0xffffffffffffffff, 0⟩
def HUR_WIN_STAT_HELD : Fld := ⟨165, .HUR_WIN_STAT, 0, 4, .ro, 0, false, 0, 15, 0⟩
def HUR_WIN_STAT_HEAD_TAG : Fld := ⟨166, .HUR_WIN_STAT, 8, 8, .ro, 0, false, 0, 255, 0⟩
def HUR_WIN_STAT_HEAD_CNT : Fld := ⟨167, .HUR_WIN_STAT, 16, 40, .ro, 0, false, 0, 0xffffffffff, 0⟩
def HUR_CFG_TARGET : Fld := ⟨168, .HUR_CFG, 0, 16, .rw, 1, false, 1, 0xffff, 0⟩
def HUR_CFG_MODE : Fld := ⟨169, .HUR_CFG, 16, 1, .rw, 0, false, 0, 1, 0⟩
def HUR_CFG_WIN : Fld := ⟨170, .HUR_CFG, 17, 6, .rw, 0, false, 0, 63, 0⟩
def HUR_STATE_COUNT : Fld := ⟨171, .HUR_STATE, 0, 16, .rw, 0, false, 0, 0xffff, 0⟩
def HUR_STATE_GEN : Fld := ⟨172, .HUR_STATE, 16, 32, .rw, 0, false, 0, 0xffffffff, 0⟩
def HUR_STATE_WAITERS : Fld := ⟨173, .HUR_STATE, 48, 1, .ro, 0, false, 0, 1, 0⟩
def HUR_VALUE_VALUE : Fld := ⟨174, .HUR_VALUE, 0, 32, .ro, 0, false, 0, 0xffffffff, 0⟩
def HUR_VALUE_SRC_NODE : Fld := ⟨175, .HUR_VALUE, 32, 14, .ro, 0, false, 0, 0x3fff, 0⟩
def HUR_OP_OP : Fld := ⟨176, .HUR_OP, 0, 2, .wo, 0, true, 0, 3, 0⟩
def HUR_OP_ARG : Fld := ⟨177, .HUR_OP, 32, 32, .wo, 0, true, 0, 0xffffffff, 0⟩
def TRK_CTRL_EN : Fld := ⟨178, .TRK_CTRL, 0, 1, .rw, 0, false, 0, 1, 0⟩
def TRK_CFG_MODE : Fld := ⟨179, .TRK_CFG, 0, 3, .rw, 0, false, 0, 5, 0⟩
def TRK_CFG_SRC : Fld := ⟨180, .TRK_CFG, 3, 1, .rw, 0, false, 0, 1, 0⟩
def TRK_CFG_INDEX_EN : Fld := ⟨181, .TRK_CFG, 4, 1, .rw, 0, false, 0, 1, 0⟩
def TRK_CFG_BOTH : Fld := ⟨182, .TRK_CFG, 5, 1, .rw, 0, false, 0, 1, 0⟩
def TRK_CFG_FILT : Fld := ⟨183, .TRK_CFG, 6, 2, .rw, 2, false, 0, 3, 0⟩
def TRK_CFG_FLT : Fld := ⟨184, .TRK_CFG, 8, 8, .rw, 4, false, 1, 255, 0⟩
def TRK_CFG_HOLDOFF : Fld := ⟨185, .TRK_CFG, 16, 32, .rw, 0, false, 0, 0xffffffff, 0⟩
def TRK_EPL_EPL : Fld := ⟨186, .TRK_EPL, 0, 24, .rw, 4096, false, 4, 0xffffff, 0⟩
def TRK_STALL_TO_CYCLES : Fld := ⟨187, .TRK_STALL_TO, 0, 40, .rw, 0, false, 0, 0xffffffffff, 0⟩
def TRK_NOMINAL_CYCLES : Fld := ⟨188, .TRK_NOMINAL, 0, 48, .rw, 0, false, 0, 0xffffffffffff, 0⟩
def TRK_PRESET_LAP_LAP : Fld := ⟨189, .TRK_PRESET_LAP, 0, 64, .rw, 0, false, 0, 0xffffffffffffffff, 0⟩
def TRK_PRESET_ANGLE_ANGLE : Fld := ⟨190, .TRK_PRESET_ANGLE, 0, 32, .rw, 0, false, 0, 0xffffffff, 0⟩
def TRK_DC_START_NS : Fld := ⟨191, .TRK_DC_START, 0, 64, .rw, 0, false, 0, 0xffffffffffffffff, 0⟩
def TRK_DC_CYCLE_NS : Fld := ⟨192, .TRK_DC_CYCLE, 0, 32, .rw, 1000000, false, 1000, 0x3b9aca00, 0⟩
def TRK_FWD_COMP_CYCLES : Fld := ⟨193, .TRK_FWD_COMP, 0, 16, .rw, 0, false, 0, 0xffff, 0⟩
def TRK_LAP_LAP : Fld := ⟨194, .TRK_LAP, 0, 64, .ro, 0, false, 0, 0xffffffffffffffff, 0⟩
def TRK_ANGLE_ANGLE : Fld := ⟨195, .TRK_ANGLE, 0, 32, .ro, 0, false, 0, 0xffffffff, 0⟩
def TRK_INC_INC : Fld := ⟨196, .TRK_INC, 0, 48, .ro, 0, false, 0, 0xffffffffffff, 0⟩
def TRK_STATUS_STATE : Fld := ⟨197, .TRK_STATUS, 0, 2, .ro, 0, false, 0, 3, 0⟩
def TRK_STATUS_STALL : Fld := ⟨198, .TRK_STATUS, 8, 1, .w1c, 0, false, 0, 1, 0⟩
def TRK_STATUS_LATE : Fld := ⟨199, .TRK_STATUS, 9, 1, .w1c, 0, false, 0, 1, 0⟩
def TRK_STATUS_INDEX_ERR : Fld := ⟨200, .TRK_STATUS, 10, 1, .w1c, 0, false, 0, 1, 0⟩
def TRK_STATUS_REVERSE : Fld := ⟨201, .TRK_STATUS, 11, 1, .w1c, 0, false, 0, 1, 0⟩
def TRK_STATUS_CFG_REFUSED : Fld := ⟨202, .TRK_STATUS, 12, 1, .w1c, 0, false, 0, 1, 0⟩
def TRK_STATUS_LAP_WRAP : Fld := ⟨203, .TRK_STATUS, 13, 1, .w1c, 0, false, 0, 1, 0⟩
def TRK_STATUS_LATE_OVF : Fld := ⟨204, .TRK_STATUS, 14, 1, .w1c, 0, false, 0, 1, 0⟩
def TRK_STATUS_LATE_MARK : Fld := ⟨205, .TRK_STATUS, 15, 1, .w1c, 0, false, 0, 1, 0⟩
def TRK_STEP_ANGLE : Fld := ⟨206, .TRK_STEP, 0, 32, .wo, 0, true, 0, 0xffffffff, 0⟩
def TRK_STEP_LAPS : Fld := ⟨207, .TRK_STEP, 32, 32, .wo, 0, true, 0, 0xffffffff, 0⟩
def TRK_DEFICIT_EDGES : Fld := ⟨208, .TRK_DEFICIT, 0, 32, .ro, 0, false, 0, 0xffffffff, 0⟩
def TRK_EDGE_CNT_COUNT : Fld := ⟨209, .TRK_EDGE_CNT, 0, 64, .ro, 0, false, 0, 0xffffffffffffffff, 0⟩
def TRK_STALL_CNT_COUNT : Fld := ⟨210, .TRK_STALL_CNT, 0, 64, .ro, 0, false, 0, 0xffffffffffffffff, 0⟩
def TRK_LATE_CNT_COUNT : Fld := ⟨211, .TRK_LATE_CNT, 0, 64, .ro, 0, false, 0, 0xffffffffffffffff, 0⟩
def TRK_LATE_MARK_CNT_COUNT : Fld := ⟨212, .TRK_LATE_MARK_CNT, 0, 64, .ro, 0, false, 0, 0xffffffffffffffff, 0⟩
def TRK_IDX_ERR_CNT_COUNT : Fld := ⟨213, .TRK_IDX_ERR_CNT, 0, 64, .ro, 0, false, 0, 0xffffffffffffffff, 0⟩
def TRK_REV_CNT_COUNT : Fld := ⟨214, .TRK_REV_CNT, 0, 64, .ro, 0, false, 0, 0xffffffffffffffff, 0⟩
def TRK_WRAP_FLAGS : Fld := ⟨215, .TRK_WRAP, 0, 6, .w1c, 0, false, 0, 63, 0⟩
def TRK_LATE_LOG0_DATA : Fld := ⟨216, .TRK_LATE_LOG0, 0, 64, .ro, 0, false, 0, 0xffffffffffffffff, 0⟩
def TRK_LATE_LOG1_DATA : Fld := ⟨217, .TRK_LATE_LOG1, 0, 64, .ro, 0, false, 0, 0xffffffffffffffff, 0⟩
def TRK_LATE_LOG2_DATA : Fld := ⟨218, .TRK_LATE_LOG2, 0, 64, .ro, 0, false, 0, 0xffffffffffffffff, 0⟩
def TRK_LATE_LOG3_DATA : Fld := ⟨219, .TRK_LATE_LOG3, 0, 64, .rc, 0, false, 0, 0xffffffffffffffff, 0⟩
def TRK_EPOCH_EPOCH : Fld := ⟨220, .TRK_EPOCH, 0, 64, .ro, 0, false, 0, 0xffffffffffffffff, 0⟩
def TRK_FL_LAP_LAP : Fld := ⟨221, .TRK_FL_LAP, 0, 64, .rw, 0, false, 0, 0xffffffffffffffff, 0⟩
def TRK_FL_SET_ANGLE : Fld := ⟨222, .TRK_FL_SET, 0, 32, .rw, 0, false, 0, 0xffffffff, 0⟩
def TRK_FL_SET_TRK : Fld := ⟨223, .TRK_FL_SET, 32, 3, .rw, 0, false, 0, 7, 0⟩
def TRK_FL_SET_HUR : Fld := ⟨224, .TRK_FL_SET, 35, 11, .rw, 0, false, 0, 2047, 0⟩
def TRK_FL_GEN_G : Fld := ⟨225, .TRK_FL_GEN, 0, 32, .rw, 0, false, 0, 0xffffffff, 0⟩
def TRK_FL_GEN_ALT : Fld := ⟨226, .TRK_FL_GEN, 32, 11, .rw, 0, false, 0, 2047, 0⟩
def TRK_FL_GEN_ALT_EN : Fld := ⟨227, .TRK_FL_GEN, 43, 1, .rw, 0, false, 0, 1, 0⟩
def TRK_FL_STAT_ARM : Fld := ⟨228, .TRK_FL_STAT, 0, 1, .w1s, 0, false, 0, 1, 0⟩
def TRK_FL_STAT_ARMED : Fld := ⟨229, .TRK_FL_STAT, 1, 1, .ro, 0, false, 0, 1, 0⟩
def TRK_FL_STAT_MET : Fld := ⟨230, .TRK_FL_STAT, 2, 1, .w1c, 0, false, 0, 1, 0⟩
def TRK_FL_STAT_LATE : Fld := ⟨231, .TRK_FL_STAT, 3, 1, .w1c, 0, false, 0, 1, 0⟩
def TRK_FL_STAT_MARGIN : Fld := ⟨232, .TRK_FL_STAT, 32, 32, .ro, 0, false, 0, 0xffffffff, 0⟩
def SES_CTRL_EN : Fld := ⟨233, .SES_CTRL, 0, 1, .rw, 0, false, 0, 1, 0⟩
def SES_CTRL_SLICE_HOLD : Fld := ⟨234, .SES_CTRL, 1, 1, .rw, 0, false, 0, 1, 0⟩
def SES_STATUS_DB_DROP : Fld := ⟨235, .SES_STATUS, 0, 1, .w1c, 0, false, 0, 1, 0⟩
def SES_STATUS_ADMIT_REFUSED : Fld := ⟨236, .SES_STATUS, 1, 1, .w1c, 0, false, 0, 1, 0⟩
def SES_STATUS_CLOCK_REFUSED : Fld := ⟨237, .SES_STATUS, 2, 1, .w1c, 0, false, 0, 1, 0⟩
def SES_STATUS_FL_DISARMED : Fld := ⟨238, .SES_STATUS, 3, 1, .w1c, 0, false, 0, 1, 0⟩
def SES_TABLE_DA_DA : Fld := ⟨239, .SES_TABLE_DA, 0, 48, .rw, 0, false, 0, 0xffffffffffff, 7⟩
def SES_ADMIT_SESSION : Fld := ⟨240, .SES_ADMIT, 0, 16, .wo, 0, true, 0, 0xffff, 0⟩
def SES_ADMIT_ACTION : Fld := ⟨241, .SES_ADMIT, 16, 3, .wo, 0, true, 0, 7, 0⟩
def SES_ADMIT_STAT_BUSY : Fld := ⟨242, .SES_ADMIT_STAT, 0, 1, .ro, 0, false, 0, 1, 0⟩
def SES_ADMIT_STAT_CAUSE : Fld := ⟨243, .SES_ADMIT_STAT, 8, 4, .ro, 0, false, 0, 15, 0⟩
def SES_ADMIT_STAT_SESSION : Fld := ⟨244, .SES_ADMIT_STAT, 16, 16, .ro, 0, false, 0, 0xffff, 0⟩
def SES_CLOCK_MODE : Fld := ⟨245, .SES_CLOCK, 0, 1, .rw, 0, false, 0, 1, 0⟩
def SES_CLOCK_STEP : Fld := ⟨246, .SES_CLOCK, 1, 2, .rw, 0, false, 0, 2, 0⟩
def SES_SLOTS_USED_SLOTS : Fld := ⟨247, .SES_SLOTS_USED, 0, 11, .ro, 0, false, 0, 2047, 0⟩
def SES_RING_PIN_PINNED : Fld := ⟨248, .SES_RING_PIN, 0, 14, .ro, 0, false, 0, 0x3fff, 0⟩
def SES_RING_PIN_SESSION : Fld := ⟨249, .SES_RING_PIN, 16, 16, .wo, 0, true, 0, 0xffff, 0⟩
def SES_RING_PIN_RING : Fld := ⟨250, .SES_RING_PIN, 32, 5, .wo, 0, true, 0, 31, 0⟩
def SES_RING_PIN_PIN : Fld := ⟨251, .SES_RING_PIN, 40, 1, .wo, 0, true, 0, 1, 0⟩
def SES_SWITCH_CNT_COUNT : Fld := ⟨252, .SES_SWITCH_CNT, 0, 64, .ro, 0, false, 0, 0xffffffffffffffff, 0⟩
def SES_DOORBELL_CNT_COUNT : Fld := ⟨253, .SES_DOORBELL_CNT, 0, 64, .ro, 0, false, 0, 0xffffffffffffffff, 0⟩
def SES_DB_DROP_CNT_COUNT : Fld := ⟨254, .SES_DB_DROP_CNT, 0, 64, .ro, 0, false, 0, 0xffffffffffffffff, 0⟩
def SES_RING_MISS_CNT_COUNT : Fld := ⟨255, .SES_RING_MISS_CNT, 0, 64, .ro, 0, false, 0, 0xffffffffffffffff, 0⟩
def SES_FL_DISARM_CNT_COUNT : Fld := ⟨256, .SES_FL_DISARM_CNT, 0, 64, .ro, 0, false, 0, 0xffffffffffffffff, 0⟩
def SES_WRAP_FLAGS : Fld := ⟨257, .SES_WRAP, 0, 5, .w1c, 0, false, 0, 31, 0⟩
def SES_DOORBELL_DATA : Fld := ⟨258, .SES_DOORBELL, 0, 64, .wo, 0, true, 0, 0xffffffffffffffff, 0⟩
def SES_RESIDENT_SESSION : Fld := ⟨259, .SES_RESIDENT, 0, 16, .ro, 0, false, 0, 0xffff, 0⟩
def SES_RESIDENT_VALID : Fld := ⟨260, .SES_RESIDENT, 16, 1, .ro, 0, false, 0, 1, 0⟩
def SES_RESIDENT_SCHED : Fld := ⟨261, .SES_RESIDENT, 17, 1, .ro, 0, false, 0, 1, 0⟩
def SES_RESIDENT_SWITCHING : Fld := ⟨262, .SES_RESIDENT, 18, 1, .ro, 0, false, 0, 1, 0⟩
def KMR_CTRL_EN : Fld := ⟨263, .KMR_CTRL, 0, 1, .rw, 1, false, 0, 1, 0⟩
def KMR_CTRL_RENEG : Fld := ⟨264, .KMR_CTRL, 1, 1, .w1s, 0, false, 0, 1, 0⟩
def KMR_CTRL_SCHED_EN : Fld := ⟨265, .KMR_CTRL, 2, 1, .rw, 0, false, 0, 1, 0⟩
def KMR_CTRL_REF_OUT : Fld := ⟨266, .KMR_CTRL, 3, 1, .rw, 0, false, 0, 1, 0⟩
def KMR_CTRL_CAP_RATE : Fld := ⟨267, .KMR_CTRL, 8, 3, .rw, 7, false, 0, 7, 0⟩
def KMR_CTRL_CAP_LANES : Fld := ⟨268, .KMR_CTRL, 12, 4, .rw, 15, false, 0, 15, 0⟩
def KMR_CTRL_CAP_FEC : Fld := ⟨269, .KMR_CTRL, 16, 2, .rw, 3, false, 0, 3, 0⟩
def KMR_CTRL_MIN_RAW : Fld := ⟨270, .KMR_CTRL, 20, 3, .rw, 5, false, 0, 5, 0⟩
def KMR_CTRL_DOWN_TH : Fld := ⟨271, .KMR_CTRL, 32, 8, .rw, 16, false, 1, 255, 0⟩
def KMR_STATUS_STATE : Fld := ⟨272, .KMR_STATUS, 0, 2, .ro, 0, false, 0, 3, 0⟩
def KMR_STATUS_NO_MODE : Fld := ⟨273, .KMR_STATUS, 8, 1, .w1c, 0, false, 0, 1, 0⟩
def KMR_STATUS_MODE_LOW : Fld := ⟨274, .KMR_STATUS, 9, 1, .ro, 0, false, 0, 1, 0⟩
def KMR_STATUS_LOST : Fld := ⟨275, .KMR_STATUS, 10, 1, .w1c, 0, false, 0, 1, 0⟩
def KMR_STATUS_DOWN_EVT : Fld := ⟨276, .KMR_STATUS, 11, 1, .w1c, 0, false, 0, 1, 0⟩
def KMR_MODE_LANES : Fld := ⟨277, .KMR_MODE, 0, 2, .ro, 0, false, 0, 3, 0⟩
def KMR_MODE_RATE : Fld := ⟨278, .KMR_MODE, 2, 2, .ro, 0, false, 0, 3, 0⟩
def KMR_MODE_FEC : Fld := ⟨279, .KMR_MODE, 4, 1, .ro, 0, false, 0, 1, 0⟩
def KMR_MODE_GROUP : Fld := ⟨280, .KMR_MODE, 5, 3, .ro, 0, false, 0, 7, 0⟩
def KMR_MODE_PMASKS : Fld := ⟨281, .KMR_MODE, 16, 24, .ro, 0, false, 0, 0xffffff, 0⟩
def KMR_PARTNER_NODE : Fld := ⟨282, .KMR_PARTNER, 0, 14, .ro, 0, false, 0, 0x3fff, 0⟩
def KMR_PARTNER_PORT : Fld := ⟨283, .KMR_PARTNER, 16, 4, .ro, 0, false, 0, 15, 0⟩
def KMR_PARTNER_ROLE : Fld := ⟨284, .KMR_PARTNER, 20, 2, .ro, 0, false, 0, 3, 0⟩
def KMR_PARTNER_SERIAL_SERIAL : Fld := ⟨285, .KMR_PARTNER_SERIAL, 0, 64, .ro, 0, false, 0, 0xffffffffffffffff, 0⟩
def KMR_LAT_ONE_WAY : Fld := ⟨286, .KMR_LAT, 0, 16, .ro, 0, false, 0, 0xffff, 0⟩
def KMR_LAT_RTT_MIN : Fld := ⟨287, .KMR_LAT, 16, 16, .ro, 0, false, 0, 0xffff, 0⟩
def KMR_FRAME_LEN : Fld := ⟨288, .KMR_FRAME, 0, 13, .rw, 4096, false, 1, 4096, 0⟩
def KMR_FRAME_BANK : Fld := ⟨289, .KMR_FRAME, 16, 1, .ro, 0, false, 0, 1, 0⟩
def KMR_FRAME_SWAP : Fld := ⟨290, .KMR_FRAME, 17, 1, .w1s, 0, false, 0, 1, 0⟩
def KMR_FRAME_FRAME_NO : Fld := ⟨291, .KMR_FRAME, 32, 32, .ro, 0, false, 0, 0xffffffff, 0⟩
def KMR_TX_CELL_CNT_COUNT : Fld := ⟨292, .KMR_TX_CELL_CNT, 0, 64, .ro, 0, false, 0, 0xffffffffffffffff, 0⟩
def KMR_RX_CELL_CNT_COUNT : Fld := ⟨293, .KMR_RX_CELL_CNT, 0, 64, .ro, 0, false, 0, 0xffffffffffffffff, 0⟩
def KMR_CW_CORR_CNT_COUNT : Fld := ⟨294, .KMR_CW_CORR_CNT, 0, 64, .ro, 0, false, 0, 0xffffffffffffffff, 0⟩
def KMR_CW_UNCORR_CNT_COUNT : Fld := ⟨295, .KMR_CW_UNCORR_CNT, 0, 64, .ro, 0, false, 0, 0xffffffffffffffff, 0⟩
def KMR_CELL_LOST_CNT_COUNT : Fld := ⟨296, .KMR_CELL_LOST_CNT, 0, 64, .ro, 0, false, 0, 0xffffffffffffffff, 0⟩
def KMR_CELL_DROP_CNT_COUNT : Fld := ⟨297, .KMR_CELL_DROP_CNT, 0, 64, .ro, 0, false, 0, 0xffffffffffffffff, 0⟩
def KMR_DOWN_CNT_COUNT : Fld := ⟨298, .KMR_DOWN_CNT, 0, 64, .ro, 0, false, 0, 0xffffffffffffffff, 0⟩
def KMR_WRAP_FLAGS : Fld := ⟨299, .KMR_WRAP, 0, 7, .w1c, 0, false, 0, 127, 0⟩
def KMR_SLOT_TABLE_DATA : Fld := ⟨300, .KMR_SLOT_TABLE, 0, 64, .rw, 0, false, 0, 0xffffffffffffffff, 0⟩
def KMR_ROLE_ROLE : Fld := ⟨301, .KMR_ROLE, 0, 2, .ro, 0, true, 0, 3, 0⟩
def KMR_ROLE_STANDBY : Fld := ⟨302, .KMR_ROLE, 2, 1, .rw, 0, false, 0, 1, 0⟩
def KMR_ROLE_NODE : Fld := ⟨303, .KMR_ROLE, 16, 14, .ro, 16383, false, 0, 0x3fff, 0⟩
def KMR_ROLE_DOMAIN : Fld := ⟨304, .KMR_ROLE, 32, 14, .ro, 16383, false, 0, 0x3fff, 0⟩
def KMR_DEV_STATUS_SL_CHANGED : Fld := ⟨305, .KMR_DEV_STATUS, 0, 1, .w1c, 0, false, 0, 1, 0⟩
def KMR_DEV_STATUS_REF_SWITCH : Fld := ⟨306, .KMR_DEV_STATUS, 1, 1, .w1c, 0, false, 0, 1, 0⟩
def KMR_DEV_STATUS_TAKEOVER : Fld := ⟨307, .KMR_DEV_STATUS, 2, 1, .w1c, 0, false, 0, 1, 0⟩
def KMR_DEV_STATUS_REF_LOST : Fld := ⟨308, .KMR_DEV_STATUS, 3, 1, .w1c, 0, false, 0, 1, 0⟩
def KMR_DEV_STATUS_SPREAD_IN : Fld := ⟨309, .KMR_DEV_STATUS, 4, 1, .ro, 0, false, 0, 1, 0⟩
def KMR_REF_CTRL_SRC : Fld := ⟨310, .KMR_REF_CTRL, 0, 2, .rw, 0, false, 0, 1, 0⟩
def KMR_REF_CTRL_PRIMARY : Fld := ⟨311, .KMR_REF_CTRL, 4, 4, .rw, 0, false, 0, 15, 0⟩
def KMR_REF_CTRL_SECONDARY : Fld := ⟨312, .KMR_REF_CTRL, 8, 4, .rw, 15, false, 0, 15, 0⟩
def KMR_REF_CTRL_SSC : Fld := ⟨313, .KMR_REF_CTRL, 12, 1, .rw, 0, false, 0, 1, 0⟩
def KMR_TRK_FWD_PORTS : Fld := ⟨314, .KMR_TRK_FWD, 0, 12, .rw, 0, false, 0, 4095, 0⟩
def KMR_TRK_FWD_AUTO : Fld := ⟨315, .KMR_TRK_FWD, 12, 1, .rw, 1, false, 0, 1, 0⟩
def KMR_TRK_FWD_PERIOD : Fld := ⟨316, .KMR_TRK_FWD, 16, 16, .rw, 8192, false, 1024, 0xffff, 0⟩
def KMR_TRK_FWD_STBY_TO : Fld := ⟨317, .KMR_TRK_FWD, 32, 32, .rw, 32768, false, 4096, 0xffffffff, 0⟩
def KMR_ACK_TO_CYCLES : Fld := ⟨318, .KMR_ACK_TO, 0, 32, .rw, 1750000, false, 4096, 0xffffffff, 0⟩
def KMR_SHAPE_DA : Fld := ⟨319, .KMR_SHAPE, 0, 48, .rw, 0, false, 0, 0xffffffffffff, 6⟩
def KMR_SHAPE_GEN : Fld := ⟨320, .KMR_SHAPE, 48, 16, .ro, 0, false, 0, 0xffff, 0⟩
def KMR_SL_CTRL_TIMEOUT : Fld := ⟨321, .KMR_SL_CTRL, 0, 32, .rw, 175000, false, 4096, 0xffffffff, 0⟩
def KMR_SL_CTRL_GEN : Fld := ⟨322, .KMR_SL_CTRL, 32, 32, .ro, 0, false, 0, 0xffffffff, 0⟩
def KMR_RELAY_CNT_COUNT : Fld := ⟨323, .KMR_RELAY_CNT, 0, 64, .ro, 0, false, 0, 0xffffffffffffffff, 0⟩
def KMR_HOPS_DROP_CNT_COUNT : Fld := ⟨324, .KMR_HOPS_DROP_CNT, 0, 64, .ro, 0, false, 0, 0xffffffffffffffff, 0⟩
def KMR_ACK_LATE_CNT_COUNT : Fld := ⟨325, .KMR_ACK_LATE_CNT, 0, 64, .ro, 0, false, 0, 0xffffffffffffffff, 0⟩
def KMR_SL_REBUILD_CNT_COUNT : Fld := ⟨326, .KMR_SL_REBUILD_CNT, 0, 64, .ro, 0, false, 0, 0xffffffffffffffff, 0⟩
def KMR_DEV_WRAP_FLAGS : Fld := ⟨327, .KMR_DEV_WRAP, 0, 4, .w1c, 0, false, 0, 15, 0⟩
def KMR_ROUTE_GRP_REQ_PORT : Fld := ⟨328, .KMR_ROUTE_GRP, 0, 4, .rw, 0, false, 0, 11, 0⟩
def KMR_ROUTE_GRP_REQ_CH : Fld := ⟨329, .KMR_ROUTE_GRP, 4, 6, .rw, 0, false, 0, 63, 0⟩
def KMR_ROUTE_GRP_RSP_PORT : Fld := ⟨330, .KMR_ROUTE_GRP, 16, 4, .rw, 0, false, 0, 11, 0⟩
def KMR_ROUTE_GRP_RSP_CH : Fld := ⟨331, .KMR_ROUTE_GRP, 20, 6, .rw, 0, false, 0, 63, 0⟩
def KMR_ROUTE_GRP_SYN_PORT : Fld := ⟨332, .KMR_ROUTE_GRP, 32, 4, .rw, 0, false, 0, 11, 0⟩
def KMR_ROUTE_GRP_SYN_CH : Fld := ⟨333, .KMR_ROUTE_GRP, 36, 6, .rw, 0, false, 0, 63, 0⟩
def KMR_ROUTE_GRP_VALID : Fld := ⟨334, .KMR_ROUTE_GRP, 63, 1, .rw, 0, false, 0, 1, 0⟩
def KMR_ROUTE_MBR_REQ_PORT : Fld := ⟨335, .KMR_ROUTE_MBR, 0, 4, .rw, 0, false, 0, 11, 0⟩
def KMR_ROUTE_MBR_REQ_CH : Fld := ⟨336, .KMR_ROUTE_MBR, 4, 6, .rw, 0, false, 0, 63, 0⟩
def KMR_ROUTE_MBR_RSP_PORT : Fld := ⟨337, .KMR_ROUTE_MBR, 16, 4, .rw, 0, false, 0, 11, 0⟩
def KMR_ROUTE_MBR_RSP_CH : Fld := ⟨338, .KMR_ROUTE_MBR, 20, 6, .rw, 0, false, 0, 63, 0⟩
def KMR_ROUTE_MBR_SYN_PORT : Fld := ⟨339, .KMR_ROUTE_MBR, 32, 4, .rw, 0, false, 0, 11, 0⟩
def KMR_ROUTE_MBR_SYN_CH : Fld := ⟨340, .KMR_ROUTE_MBR, 36, 6, .rw, 0, false, 0, 63, 0⟩
def KMR_ROUTE_MBR_VALID : Fld := ⟨341, .KMR_ROUTE_MBR, 63, 1, .rw, 0, false, 0, 1, 0⟩
def KMR_START_LIST0_DATA : Fld := ⟨342, .KMR_START_LIST0, 0, 64, .ro, 0, false, 0, 0xffffffffffffffff, 0⟩
def KMR_START_LIST1_DATA : Fld := ⟨343, .KMR_START_LIST1, 0, 64, .ro, 0, false, 0, 0xffffffffffffffff, 0⟩
def KMR_START_LIST2_DATA : Fld := ⟨344, .KMR_START_LIST2, 0, 64, .ro, 0, false, 0, 0xffffffffffffffff, 0⟩
def KMR_START_LIST3_DATA : Fld := ⟨345, .KMR_START_LIST3, 0, 64, .ro, 0, false, 0, 0xffffffffffffffff, 0⟩
def KMR_POS_TABLE_KEY : Fld := ⟨346, .KMR_POS_TABLE, 0, 48, .rw, 281474976710655, false, 0, 0xffffffffffff, 0⟩
def KMR_POS_TABLE_VALID : Fld := ⟨347, .KMR_POS_TABLE, 63, 1, .rw, 0, false, 0, 1, 0⟩
def HBM_CTRL_SCRUB_EN : Fld := ⟨348, .HBM_CTRL, 0, 1, .rw, 1, false, 0, 1, 0⟩
def HBM_CTRL_SR_EN : Fld := ⟨349, .HBM_CTRL, 1, 1, .rw, 0, false, 0, 1, 0⟩
def HBM_CTRL_UE_EVT_EN : Fld := ⟨350, .HBM_CTRL, 2, 1, .rw, 1, false, 0, 1, 0⟩
def HBM_CTRL_SCRUB_H : Fld := ⟨351, .HBM_CTRL, 16, 8, .rw, 24, false, 1, 255, 0⟩
def HBM_STATUS_READY : Fld := ⟨352, .HBM_STATUS, 0, 1, .ro, 0, false, 0, 1, 0⟩
def HBM_STATUS_TRAIN_STATE : Fld := ⟨353, .HBM_STATUS, 1, 2, .ro, 0, false, 0, 3, 0⟩
def HBM_STATUS_STACK_FAIL : Fld := ⟨354, .HBM_STATUS, 3, 2, .ro, 0, false, 0, 3, 0⟩
def HBM_STATUS_CE : Fld := ⟨355, .HBM_STATUS, 8, 1, .w1c, 0, false, 0, 1, 0⟩
def HBM_STATUS_UE : Fld := ⟨356, .HBM_STATUS, 9, 1, .w1c, 0, false, 0, 1, 0⟩
def HBM_STATUS_MAP_REFUSED : Fld := ⟨357, .HBM_STATUS, 10, 1, .w1c, 0, false, 0, 1, 0⟩
def HBM_STATUS_REF_FORCED : Fld := ⟨358, .HBM_STATUS, 11, 1, .w1c, 0, false, 0, 1, 0⟩
def HBM_STATUS_TRAIN_FALLBACK : Fld := ⟨359, .HBM_STATUS, 12, 1, .w1c, 0, false, 0, 1, 0⟩
def HBM_PD_CTRL_PD_TIMER : Fld := ⟨360, .HBM_PD_CTRL, 0, 16, .rw, 256, false, 64, 0xffff, 0⟩
def HBM_PD_CTRL_SR_TIMER : Fld := ⟨361, .HBM_PD_CTRL, 16, 32, .rw, 1750000, false, 175000, 0xffffffff, 0⟩
def HBM_REF_CTRL_POSTPONE : Fld := ⟨362, .HBM_REF_CTRL, 0, 4, .rw, 8, false, 0, 8, 0⟩
def HBM_WQ_CTRL_HIGH : Fld := ⟨363, .HBM_WQ_CTRL, 0, 6, .rw, 48, false, 16, 63, 0⟩
def HBM_WQ_CTRL_LOW : Fld := ⟨364, .HBM_WQ_CTRL, 8, 6, .rw, 32, false, 0, 63, 0⟩
def HBM_RT_PORTS_PORTS : Fld := ⟨365, .HBM_RT_PORTS, 0, 32, .rw, 0, false, 0, 0xffffffff, 0⟩
def HBM_RT_PORTS_LOW : Fld := ⟨366, .HBM_RT_PORTS, 40, 7, .rw, 4, false, 1, 64, 0⟩
def HBM_TRAIN_FORCE_FULL : Fld := ⟨367, .HBM_TRAIN, 0, 1, .rw, 0, false, 0, 1, 0⟩
def HBM_TRAIN_MIN_MARGIN : Fld := ⟨368, .HBM_TRAIN, 8, 8, .rw, 32, false, 8, 255, 0⟩
def HBM_TRAIN_WORST : Fld := ⟨369, .HBM_TRAIN, 16, 8, .ro, 0, false, 0, 255, 0⟩
def HBM_TRAIN_TEMP_DELTA : Fld := ⟨370, .HBM_TRAIN, 32, 8, .rw, 40, false, 10, 80, 0⟩
def HBM_ERR_LOG_DA : Fld := ⟨371, .HBM_ERR_LOG, 0, 48, .ro, 0, false, 0, 0xffffffffffff, 0⟩
def HBM_ERR_LOG_PC : Fld := ⟨372, .HBM_ERR_LOG, 48, 8, .ro, 0, false, 0, 255, 0⟩
def HBM_ERR_LOG_WRITE : Fld := ⟨373, .HBM_ERR_LOG, 56, 1, .ro, 0, false, 0, 1, 0⟩
def HBM_ERR_LOG_VALID : Fld := ⟨374, .HBM_ERR_LOG, 63, 1, .w1c, 0, false, 0, 1, 0⟩
def HBM_RD_BYTES_CNT_COUNT : Fld := ⟨375, .HBM_RD_BYTES_CNT, 0, 64, .ro, 0, false, 0, 0xffffffffffffffff, 0⟩
def HBM_WR_BYTES_CNT_COUNT : Fld := ⟨376, .HBM_WR_BYTES_CNT, 0, 64, .ro, 0, false, 0, 0xffffffffffffffff, 0⟩
def HBM_CE_CNT_COUNT : Fld := ⟨377, .HBM_CE_CNT, 0, 64, .ro, 0, false, 0, 0xffffffffffffffff, 0⟩
def HBM_UE_CNT_COUNT : Fld := ⟨378, .HBM_UE_CNT, 0, 64, .ro, 0, false, 0, 0xffffffffffffffff, 0⟩
def HBM_FWD_CNT_COUNT : Fld := ⟨379, .HBM_FWD_CNT, 0, 64, .ro, 0, false, 0, 0xffffffffffffffff, 0⟩
def HBM_PANIC_CNT_COUNT : Fld := ⟨380, .HBM_PANIC_CNT, 0, 64, .ro, 0, false, 0, 0xffffffffffffffff, 0⟩
def HBM_REF_FORCE_CNT_COUNT : Fld := ⟨381, .HBM_REF_FORCE_CNT, 0, 64, .ro, 0, false, 0, 0xffffffffffffffff, 0⟩
def HBM_PD_ENTRY_CNT_COUNT : Fld := ⟨382, .HBM_PD_ENTRY_CNT, 0, 64, .ro, 0, false, 0, 0xffffffffffffffff, 0⟩
def HBM_SR_EXIT_CNT_COUNT : Fld := ⟨383, .HBM_SR_EXIT_CNT, 0, 64, .ro, 0, false, 0, 0xffffffffffffffff, 0⟩
def HBM_WRAP_FLAGS : Fld := ⟨384, .HBM_WRAP, 0, 9, .w1c, 0, false, 0, 511, 0⟩
def HBM_PC_STATE_STATE : Fld := ⟨385, .HBM_PC_STATE, 0, 2, .ro, 0, false, 0, 3, 0⟩
def HBM_PC_STATE_MARGIN : Fld := ⟨386, .HBM_PC_STATE, 8, 8, .ro, 0, false, 0, 255, 0⟩
def HBM_BAND_MODE : Fld := ⟨387, .HBM_BAND, 0, 1, .rw, 0, false, 0, 1, 0⟩
def HBM_BAND_GRAIN : Fld := ⟨388, .HBM_BAND, 8, 4, .rw, 4, false, 0, 8, 0⟩
def CXL_TIER_CTRL_EN : Fld := ⟨389, .CXL_TIER_CTRL, 0, 1, .rw, 0, false, 0, 1, 0⟩
def CXL_TIER_STATUS_LINK_UP : Fld := ⟨390, .CXL_TIER_STATUS, 0, 2, .ro, 0, false, 0, 3, 0⟩
def CXL_TIER_STATUS_HOTADD : Fld := ⟨391, .CXL_TIER_STATUS, 8, 1, .w1c, 0, false, 0, 1, 0⟩
def CXL_TIER_STATUS_SURPRISE : Fld := ⟨392, .CXL_TIER_STATUS, 9, 1, .w1c, 0, false, 0, 1, 0⟩
def CXL_TIER_STATUS_PRQ_PENDING : Fld := ⟨393, .CXL_TIER_STATUS, 10, 1, .ro, 0, false, 0, 1, 0⟩
def CXL_XLT_INV_DA : Fld := ⟨394, .CXL_XLT_INV, 0, 48, .wo, 0, true, 0, 0xffffffffffff, 21⟩
def CXL_XLT_INV_PAGES : Fld := ⟨395, .CXL_XLT_INV, 48, 15, .wo, 0, true, 0, 0x7fff, 0⟩
def CXL_XLT_INV_BUSY : Fld := ⟨396, .CXL_XLT_INV, 63, 1, .ro, 0, false, 0, 1, 0⟩
def CXL_PRQ_REC_DA : Fld := ⟨397, .CXL_PRQ_REC, 0, 48, .rc, 0, false, 0, 0xffffffffffff, 0⟩
def CXL_PRQ_REC_PRG : Fld := ⟨398, .CXL_PRQ_REC, 48, 9, .rc, 0, false, 0, 511, 0⟩
def CXL_PRQ_REC_WRITE : Fld := ⟨399, .CXL_PRQ_REC, 57, 1, .rc, 0, false, 0, 1, 0⟩
def CXL_PRQ_RESP_PRG : Fld := ⟨400, .CXL_PRQ_RESP, 0, 9, .wo, 0, true, 0, 511, 0⟩
def CXL_PRQ_RESP_SUCCESS : Fld := ⟨401, .CXL_PRQ_RESP, 9, 1, .wo, 0, true, 0, 1, 0⟩
def CXL_CPL_TO_CYCLES : Fld := ⟨402, .CXL_CPL_TO, 0, 32, .rw, 17500000, false, 17500, 0xffffffff, 0⟩
def CXL_RD_BYTES_CNT_COUNT : Fld := ⟨403, .CXL_RD_BYTES_CNT, 0, 64, .ro, 0, false, 0, 0xffffffffffffffff, 0⟩
def CXL_WR_BYTES_CNT_COUNT : Fld := ⟨404, .CXL_WR_BYTES_CNT, 0, 64, .ro, 0, false, 0, 0xffffffffffffffff, 0⟩
def CXL_ERR_RSP_CNT_COUNT : Fld := ⟨405, .CXL_ERR_RSP_CNT, 0, 64, .ro, 0, false, 0, 0xffffffffffffffff, 0⟩
def CXL_XLT_MISS_CNT_COUNT : Fld := ⟨406, .CXL_XLT_MISS_CNT, 0, 64, .ro, 0, false, 0, 0xffffffffffffffff, 0⟩
def CXL_WRAP_FLAGS : Fld := ⟨407, .CXL_WRAP, 0, 4, .w1c, 0, false, 0, 15, 0⟩
def CXL_WIN_CFG_EN : Fld := ⟨408, .CXL_WIN_CFG, 0, 1, .rw, 0, false, 0, 1, 0⟩
def CXL_WIN_CFG_XLT : Fld := ⟨409, .CXL_WIN_CFG, 1, 1, .rw, 0, false, 0, 1, 0⟩
def CXL_WIN_CFG_BASE : Fld := ⟨410, .CXL_WIN_CFG, 4, 15, .rw, 0, false, 0, 0x7fff, 0⟩
def CXL_WIN_CFG_SIZE_M1 : Fld := ⟨411, .CXL_WIN_CFG, 20, 15, .rw, 0, false, 0, 0x7fff, 0⟩
def CXL_WIN_CFG_WAYS : Fld := ⟨412, .CXL_WIN_CFG, 36, 2, .rw, 0, false, 0, 3, 0⟩
def CXL_WIN_CFG_GRAN : Fld := ⟨413, .CXL_WIN_CFG, 40, 3, .rw, 0, false, 0, 6, 0⟩
def CXL_WIN_TGT_TARGETS : Fld := ⟨414, .CXL_WIN_TGT, 0, 64, .rw, 0, false, 0, 0xffffffffffffffff, 0⟩
def CXL_WIN_XLT_TABLE_DA : Fld := ⟨415, .CXL_WIN_XLT, 0, 48, .rw, 0, false, 0, 0xffffffffffff, 12⟩
def CXL_WIN_STAT_TGT_DOWN : Fld := ⟨416, .CXL_WIN_STAT, 0, 8, .ro, 0, false, 0, 255, 0⟩
def CXL_WIN_STAT_DIS_REFUSED : Fld := ⟨417, .CXL_WIN_STAT, 8, 1, .w1c, 0, false, 0, 1, 0⟩
def CXL_WIN_STAT_CFG_REFUSED : Fld := ⟨418, .CXL_WIN_STAT, 9, 1, .w1c, 0, false, 0, 1, 0⟩
def NOC_CTRL_TRACE_EN : Fld := ⟨419, .NOC_CTRL, 0, 1, .rw, 0, false, 0, 1, 0⟩
def NOC_CTRL_TRACE_AGE : Fld := ⟨420, .NOC_CTRL, 16, 16, .rw, 4096, false, 64, 0xffff, 0⟩
def NOC_STATUS_LINK_CE : Fld := ⟨421, .NOC_STATUS, 8, 1, .w1c, 0, false, 0, 1, 0⟩
def NOC_STATUS_LINK_UE : Fld := ⟨422, .NOC_STATUS, 9, 1, .w1c, 0, false, 0, 1, 0⟩
def NOC_STATUS_MISROUTE : Fld := ⟨423, .NOC_STATUS, 10, 1, .w1c, 0, false, 0, 1, 0⟩
def NOC_STATUS_TRACE_DROP : Fld := ⟨424, .NOC_STATUS, 11, 1, .w1c, 0, false, 0, 1, 0⟩
def NOC_STATUS_WAKE_FAIL : Fld := ⟨425, .NOC_STATUS, 12, 1, .w1c, 0, false, 0, 1, 0⟩
def NOC_STATUS_TRACE_WRAP : Fld := ⟨426, .NOC_STATUS, 13, 1, .w1c, 0, false, 0, 1, 0⟩
def NOC_STATUS_PRB_REFUSED : Fld := ⟨427, .NOC_STATUS, 14, 1, .w1c, 0, false, 0, 1, 0⟩
def NOC_PWR_CTRL_CLUSTER_EN : Fld := ⟨428, .NOC_PWR_CTRL, 0, 8, .rw, 0, false, 0, 255, 0⟩
def NOC_PWR_CTRL_FPORT_EN : Fld := ⟨429, .NOC_PWR_CTRL, 8, 4, .rw, 0, false, 0, 15, 0⟩
def NOC_PWR_CTRL_LINK_EN : Fld := ⟨430, .NOC_PWR_CTRL, 12, 3, .rw, 0, false, 0, 7, 0⟩
def NOC_PWR_CTRL_IDLE_TIMER : Fld := ⟨431, .NOC_PWR_CTRL, 32, 16, .rw, 16384, false, 1024, 0xffff, 0⟩
def NOC_PWR_STAT_CLUSTER : Fld := ⟨432, .NOC_PWR_STAT, 0, 8, .ro, 0, false, 0, 255, 0⟩
def NOC_PWR_STAT_FPORT : Fld := ⟨433, .NOC_PWR_STAT, 8, 4, .ro, 0, false, 0, 15, 0⟩
def NOC_PWR_STAT_LINK : Fld := ⟨434, .NOC_PWR_STAT, 12, 6, .ro, 0, false, 0, 63, 0⟩
def NOC_PWR_STAT_WAKING : Fld := ⟨435, .NOC_PWR_STAT, 24, 1, .ro, 0, false, 0, 1, 0⟩
def NOC_TRACE_BASE_DA : Fld := ⟨436, .NOC_TRACE_BASE, 0, 48, .rw, 0, false, 0, 0xffffffffffff, 12⟩
def NOC_TRACE_LEN_PAGES : Fld := ⟨437, .NOC_TRACE_LEN, 0, 20, .rw, 0, false, 0, 0xfffff, 0⟩
def NOC_TRACE_WP_DA : Fld := ⟨438, .NOC_TRACE_WP, 0, 48, .ro, 0, false, 0, 0xffffffffffff, 0⟩
def NOC_CPL_TO_CYCLES : Fld := ⟨439, .NOC_CPL_TO, 0, 32, .rw, 175000, false, 4096, 0xffffffff, 0⟩
def NOC_FLIT_CNT_COUNT : Fld := ⟨440, .NOC_FLIT_CNT, 0, 64, .ro, 0, false, 0, 0xffffffffffffffff, 0⟩
def NOC_WAKE_CNT_COUNT : Fld := ⟨441, .NOC_WAKE_CNT, 0, 64, .ro, 0, false, 0, 0xffffffffffffffff, 0⟩
def NOC_HOLD_CNT_COUNT : Fld := ⟨442, .NOC_HOLD_CNT, 0, 64, .ro, 0, false, 0, 0xffffffffffffffff, 0⟩
def NOC_TRACE_DROP_CNT_COUNT : Fld := ⟨443, .NOC_TRACE_DROP_CNT, 0, 64, .ro, 0, false, 0, 0xffffffffffffffff, 0⟩
def NOC_LINK_CE_CNT_COUNT : Fld := ⟨444, .NOC_LINK_CE_CNT, 0, 64, .ro, 0, false, 0, 0xffffffffffffffff, 0⟩
def NOC_LINK_UE_CNT_COUNT : Fld := ⟨445, .NOC_LINK_UE_CNT, 0, 64, .ro, 0, false, 0, 0xffffffffffffffff, 0⟩
def NOC_MISROUTE_CNT_COUNT : Fld := ⟨446, .NOC_MISROUTE_CNT, 0, 64, .ro, 0, false, 0, 0xffffffffffffffff, 0⟩
def NOC_WRAP_FLAGS : Fld := ⟨447, .NOC_WRAP, 0, 7, .w1c, 0, false, 0, 127, 0⟩
def NOC_PRB_WRAP_FLAGS : Fld := ⟨448, .NOC_PRB_WRAP, 0, 64, .w1c, 0, false, 0, 0xffffffffffffffff, 0⟩
def NOC_PRB_CTRL_EN : Fld := ⟨449, .NOC_PRB_CTRL, 0, 1, .rw, 0, false, 0, 1, 0⟩
def NOC_PRB_CTRL_ROUTER : Fld := ⟨450, .NOC_PRB_CTRL, 1, 5, .rw, 0, false, 0, 19, 0⟩
def NOC_PRB_CTRL_PORT : Fld := ⟨451, .NOC_PRB_CTRL, 6, 3, .rw, 0, false, 0, 4, 0⟩
def NOC_PRB_CTRL_DIR : Fld := ⟨452, .NOC_PRB_CTRL, 9, 1, .rw, 0, false, 0, 1, 0⟩
def NOC_PRB_CTRL_PLANES : Fld := ⟨453, .NOC_PRB_CTRL, 10, 4, .rw, 15, false, 0, 15, 0⟩
def NOC_PRB_CTRL_MODE : Fld := ⟨454, .NOC_PRB_CTRL, 14, 2, .rw, 0, false, 0, 3, 0⟩
def NOC_PRB_CTRL_TRACE : Fld := ⟨455, .NOC_PRB_CTRL, 16, 1, .rw, 0, false, 0, 1, 0⟩
def NOC_PRB_CTRL_SAMPLE : Fld := ⟨456, .NOC_PRB_CTRL, 17, 5, .rw, 0, false, 0, 31, 0⟩
def NOC_PRB_FILT_CLASS : Fld := ⟨457, .NOC_PRB_FILT, 0, 5, .rw, 31, false, 0, 31, 0⟩
def NOC_PRB_FILT_OP : Fld := ⟨458, .NOC_PRB_FILT, 5, 5, .rw, 0, false, 0, 31, 0⟩
def NOC_PRB_FILT_OP_MASK : Fld := ⟨459, .NOC_PRB_FILT, 10, 5, .rw, 0, false, 0, 31, 0⟩
def NOC_PRB_FILT_PANIC_ONLY : Fld := ⟨460, .NOC_PRB_FILT, 16, 1, .rw, 0, false, 0, 1, 0⟩
def NOC_PRB_FILT_SCHED_ONLY : Fld := ⟨461, .NOC_PRB_FILT, 17, 1, .rw, 0, false, 0, 1, 0⟩
def NOC_PRB_UNIT_SRC : Fld := ⟨462, .NOC_PRB_UNIT, 0, 15, .rw, 0, false, 0, 0x7fff, 0⟩
def NOC_PRB_UNIT_SRC_MASK : Fld := ⟨463, .NOC_PRB_UNIT, 16, 15, .rw, 0, false, 0, 0x7fff, 0⟩
def NOC_PRB_UNIT_DST : Fld := ⟨464, .NOC_PRB_UNIT, 32, 15, .rw, 0, false, 0, 0x7fff, 0⟩
def NOC_PRB_UNIT_DST_MASK : Fld := ⟨465, .NOC_PRB_UNIT, 48, 15, .rw, 0, false, 0, 0x7fff, 0⟩
def NOC_PRB_DA_LO_DA : Fld := ⟨466, .NOC_PRB_DA_LO, 0, 48, .rw, 0, false, 0, 0xffffffffffff, 0⟩
def NOC_PRB_DA_HI_DA : Fld := ⟨467, .NOC_PRB_DA_HI, 0, 48, .rw, 281474976710655, false, 0, 0xffffffffffff, 0⟩
def NOC_PRB_CNT_COUNT : Fld := ⟨468, .NOC_PRB_CNT, 0, 64, .ro, 0, false, 0, 0xffffffffffffffff, 0⟩
def FAB_CTRL_UE_EVT_EN : Fld := ⟨469, .FAB_CTRL, 0, 1, .rw, 1, false, 0, 1, 0⟩
def FAB_STATUS_CONFIGURED : Fld := ⟨470, .FAB_STATUS, 0, 1, .ro, 0, false, 0, 1, 0⟩
def FAB_STATUS_PORT_ERR : Fld := ⟨471, .FAB_STATUS, 8, 1, .w1c, 0, false, 0, 1, 0⟩
def FAB_STATUS_RAM_CE : Fld := ⟨472, .FAB_STATUS, 9, 1, .w1c, 0, false, 0, 1, 0⟩
def FAB_STATUS_RAM_UE : Fld := ⟨473, .FAB_STATUS, 10, 1, .w1c, 0, false, 0, 1, 0⟩
def FAB_STATUS_MARK_SKIP : Fld := ⟨474, .FAB_STATUS, 11, 1, .w1c, 0, false, 0, 1, 0⟩
def FAB_STATUS_VCCIO_BAD : Fld := ⟨475, .FAB_STATUS, 12, 1, .w1c, 0, false, 0, 1, 0⟩
def FAB_RD_BYTES_CNT_COUNT : Fld := ⟨476, .FAB_RD_BYTES_CNT, 0, 64, .ro, 0, false, 0, 0xffffffffffffffff, 0⟩
def FAB_WR_BYTES_CNT_COUNT : Fld := ⟨477, .FAB_WR_BYTES_CNT, 0, 64, .ro, 0, false, 0, 0xffffffffffffffff, 0⟩
def FAB_PORT_ERR_CNT_COUNT : Fld := ⟨478, .FAB_PORT_ERR_CNT, 0, 64, .ro, 0, false, 0, 0xffffffffffffffff, 0⟩
def FAB_RAM_CE_CNT_COUNT : Fld := ⟨479, .FAB_RAM_CE_CNT, 0, 64, .ro, 0, false, 0, 0xffffffffffffffff, 0⟩
def FAB_RAM_UE_CNT_COUNT : Fld := ⟨480, .FAB_RAM_UE_CNT, 0, 64, .ro, 0, false, 0, 0xffffffffffffffff, 0⟩
def FAB_MARK_SKIP_CNT_COUNT : Fld := ⟨481, .FAB_MARK_SKIP_CNT, 0, 64, .ro, 0, false, 0, 0xffffffffffffffff, 0⟩
def FAB_VCCIO_FAULT_CNT_COUNT : Fld := ⟨482, .FAB_VCCIO_FAULT_CNT, 0, 64, .ro, 0, false, 0, 0xffffffffffffffff, 0⟩
def FAB_WRAP_FLAGS : Fld := ⟨483, .FAB_WRAP, 0, 7, .w1c, 0, false, 0, 127, 0⟩
def FAB_PLL_CTRL_EN : Fld := ⟨484, .FAB_PLL_CTRL, 0, 1, .rw, 0, false, 0, 1, 0⟩
def FAB_PLL_CTRL_N_M1 : Fld := ⟨485, .FAB_PLL_CTRL, 1, 4, .rw, 0, false, 0, 15, 0⟩
def FAB_PLL_CTRL_M_M1 : Fld := ⟨486, .FAB_PLL_CTRL, 5, 6, .rw, 2, false, 0, 63, 0⟩
def FAB_PLL_CTRL_DIV : Fld := ⟨487, .FAB_PLL_CTRL, 16, 8, .rw, 0, false, 0, 255, 0⟩
def FAB_PLL_STAT_LOCK : Fld := ⟨488, .FAB_PLL_STAT, 0, 1, .ro, 0, false, 0, 1, 0⟩
def FAB_PLL_STAT_ALIGNED : Fld := ⟨489, .FAB_PLL_STAT, 1, 1, .ro, 0, false, 0, 1, 0⟩
def FAB_PLL_STAT_LOCK_LOST : Fld := ⟨490, .FAB_PLL_STAT, 8, 1, .w1c, 0, false, 0, 1, 0⟩
def FAB_BANK_CFG_VCCIO : Fld := ⟨491, .FAB_BANK_CFG, 0, 3, .ro, 0, false, 0, 7, 0⟩
def FAB_BANK_CFG_WIDE : Fld := ⟨492, .FAB_BANK_CFG, 8, 1, .ro, 0, true, 0, 1, 0⟩
def FAB_BANK_STAT_MV : Fld := ⟨493, .FAB_BANK_STAT, 0, 12, .ro, 0, true, 0, 4095, 0⟩
def FAB_BANK_STAT_HELD : Fld := ⟨494, .FAB_BANK_STAT, 16, 1, .ro, 0, false, 0, 1, 0⟩
def FAB_PORT_CTRL_EN : Fld := ⟨495, .FAB_PORT_CTRL, 0, 1, .rw, 1, false, 0, 1, 0⟩
def FAB_PORT_CTRL_ISOLATE : Fld := ⟨496, .FAB_PORT_CTRL, 1, 1, .rw, 0, false, 0, 1, 0⟩
def FAB_PORT_CTRL_TGT_EN : Fld := ⟨497, .FAB_PORT_CTRL, 2, 1, .rw, 0, false, 0, 1, 0⟩
def FAB_PORT_CTRL_REMOTE_EN : Fld := ⟨498, .FAB_PORT_CTRL, 3, 1, .rw, 0, false, 0, 1, 0⟩
def FAB_PORT_WIN_LO_DA : Fld := ⟨499, .FAB_PORT_WIN_LO, 0, 48, .rw, 0, false, 0, 0xffffffffffff, 0⟩
def FAB_PORT_WIN_HI_DA : Fld := ⟨500, .FAB_PORT_WIN_HI, 0, 48, .rw, 0, false, 0, 0xffffffffffff, 0⟩
def FAB_PORT_STAT_ISOLATED : Fld := ⟨501, .FAB_PORT_STAT, 0, 1, .ro, 0, false, 0, 1, 0⟩
def FAB_PORT_STAT_RD_OUT : Fld := ⟨502, .FAB_PORT_STAT, 4, 4, .ro, 0, false, 0, 15, 0⟩
def FAB_PORT_STAT_WR_OUT : Fld := ⟨503, .FAB_PORT_STAT, 8, 4, .ro, 0, false, 0, 15, 0⟩
def FAB_PORT_STAT_WIN_ERR : Fld := ⟨504, .FAB_PORT_STAT, 16, 1, .w1c, 0, false, 0, 1, 0⟩
def FAB_PORT_STAT_TGT_TO : Fld := ⟨505, .FAB_PORT_STAT, 17, 1, .w1c, 0, false, 0, 1, 0⟩
def FAB_MARK_CFG_EN : Fld := ⟨506, .FAB_MARK_CFG, 0, 1, .rw, 0, false, 0, 1, 0⟩
def FAB_MARK_CFG_TRK : Fld := ⟨507, .FAB_MARK_CFG, 1, 3, .rw, 0, false, 0, 7, 0⟩
def FAB_MARK_CFG_CLK : Fld := ⟨508, .FAB_MARK_CFG, 4, 5, .rw, 0, false, 0, 23, 0⟩
def FAB_MARK_CFG_ANGLE : Fld := ⟨509, .FAB_MARK_CFG, 32, 32, .rw, 0, false, 0, 0xffffffff, 0⟩
def FAB_MARK_LAP_LAP : Fld := ⟨510, .FAB_MARK_LAP, 0, 64, .rw, 0, false, 0, 0xffffffffffffffff, 0⟩
def FAB_MARK_STEP_STEP : Fld := ⟨511, .FAB_MARK_STEP, 0, 64, .rw, 0, false, 0, 0xffffffffffffffff, 0⟩
def FAB_MARK_STAT_FIRED : Fld := ⟨512, .FAB_MARK_STAT, 0, 1, .w1c, 0, false, 0, 1, 0⟩
def FAB_MARK_STAT_SKIP : Fld := ⟨513, .FAB_MARK_STAT, 8, 8, .ro, 0, false, 0, 255, 0⟩
def SPS_CTRL_START : Fld := ⟨514, .SPS_CTRL, 0, 1, .w1s, 0, false, 0, 1, 0⟩
def SPS_CTRL_STOP : Fld := ⟨515, .SPS_CTRL, 1, 1, .w1s, 0, false, 0, 1, 0⟩
def SPS_CTRL_CLEAR_FAULT : Fld := ⟨516, .SPS_CTRL, 2, 1, .w1s, 0, false, 0, 1, 0⟩
def SPS_CTRL_SRST : Fld := ⟨517, .SPS_CTRL, 3, 1, .w1s, 0, false, 0, 1, 0⟩
def SPS_CTRL_MSEL : Fld := ⟨518, .SPS_CTRL, 4, 4, .rw, 0, false, 0, 15, 0⟩
def SPS_STATUS_STATE : Fld := ⟨519, .SPS_STATUS, 0, 3, .ro, 0, false, 0, 7, 0⟩
def SPS_STATUS_WAIT_ON : Fld := ⟨520, .SPS_STATUS, 4, 2, .ro, 0, false, 0, 3, 0⟩
def SPS_STATUS_PEND : Fld := ⟨521, .SPS_STATUS, 6, 1, .ro, 0, false, 0, 1, 0⟩
def SPS_STATUS_IN_REP : Fld := ⟨522, .SPS_STATUS, 7, 1, .ro, 0, false, 0, 1, 0⟩
def SPS_STATUS_SCALE : Fld := ⟨523, .SPS_STATUS, 8, 2, .ro, 0, false, 0, 3, 0⟩
def SPS_STATUS_ALIGNED : Fld := ⟨524, .SPS_STATUS, 10, 1, .ro, 0, false, 0, 1, 0⟩
def SPS_STATUS_LIMIT : Fld := ⟨525, .SPS_STATUS, 16, 1, .w1c, 0, false, 0, 1, 0⟩
def SPS_STATUS_OVF : Fld := ⟨526, .SPS_STATUS, 17, 1, .w1c, 0, false, 0, 1, 0⟩
def SPS_STATUS_MARK_OVR : Fld := ⟨527, .SPS_STATUS, 18, 1, .w1c, 0, false, 0, 1, 0⟩
def SPS_STATUS_IMEM_REFUSED : Fld := ⟨528, .SPS_STATUS, 19, 1, .w1c, 0, false, 0, 1, 0⟩
def SPS_PC_PC : Fld := ⟨529, .SPS_PC, 0, 12, .rw, 0, false, 0, 4095, 0⟩
def SPS_MEM_ADDR_ADDR : Fld := ⟨530, .SPS_MEM_ADDR, 0, 12, .rw, 0, false, 0, 4095, 0⟩
def SPS_MEM_ADDR_SPACE : Fld := ⟨531, .SPS_MEM_ADDR, 12, 2, .rw, 0, false, 0, 2, 0⟩
def SPS_MEM_ADDR_INC : Fld := ⟨532, .SPS_MEM_ADDR, 16, 1, .rw, 0, false, 0, 1, 0⟩
def SPS_MEM_DATA_DATA : Fld := ⟨533, .SPS_MEM_DATA, 0, 32, .rw, 0, true, 0, 0xffffffff, 0⟩
def SPS_CYCLE_CNT_COUNT : Fld := ⟨534, .SPS_CYCLE_CNT, 0, 64, .ro, 0, false, 0, 0xffffffffffffffff, 0⟩
def SPS_SAT_CNT_COUNT : Fld := ⟨535, .SPS_SAT_CNT, 0, 64, .ro, 0, false, 0, 0xffffffffffffffff, 0⟩
def SPS_OVF_CNT_COUNT : Fld := ⟨536, .SPS_OVF_CNT, 0, 64, .ro, 0, false, 0, 0xffffffffffffffff, 0⟩
def SPS_MARK_OVR_CNT_COUNT : Fld := ⟨537, .SPS_MARK_OVR_CNT, 0, 64, .ro, 0, false, 0, 0xffffffffffffffff, 0⟩
def SPS_WRAP_FLAGS : Fld := ⟨538, .SPS_WRAP, 0, 4, .w1c, 0, false, 0, 15, 0⟩
def CFG_CTRL_SSP_EN : Fld := ⟨539, .CFG_CTRL, 0, 1, .rw, 1, false, 0, 1, 0⟩
def CFG_CTRL_SPP_EN : Fld := ⟨540, .CFG_CTRL, 1, 1, .rw, 1, false, 0, 1, 0⟩
def CFG_CTRL_FAIL_EVT_EN : Fld := ⟨541, .CFG_CTRL, 2, 1, .rw, 1, false, 0, 1, 0⟩
def CFG_STATUS_BUSY : Fld := ⟨542, .CFG_STATUS, 0, 1, .ro, 0, false, 0, 1, 0⟩
def CFG_STATUS_PHASE : Fld := ⟨543, .CFG_STATUS, 1, 3, .ro, 0, false, 0, 7, 0⟩
def CFG_STATUS_DONE : Fld := ⟨544, .CFG_STATUS, 8, 1, .w1c, 0, false, 0, 1, 0⟩
def CFG_STATUS_FAIL : Fld := ⟨545, .CFG_STATUS, 9, 1, .w1c, 0, false, 0, 1, 0⟩
def CFG_STATUS_FALLBACK : Fld := ⟨546, .CFG_STATUS, 10, 1, .w1c, 0, false, 0, 1, 0⟩
def CFG_STATUS_OCHRE_FAIL : Fld := ⟨547, .CFG_STATUS, 11, 1, .w1c, 0, false, 0, 1, 0⟩
def CFG_STATUS_REFUSED : Fld := ⟨548, .CFG_STATUS, 12, 1, .w1c, 0, false, 0, 1, 0⟩
def CFG_STATUS_REFUSE_CAUSE : Fld := ⟨549, .CFG_STATUS, 16, 4, .ro, 0, false, 0, 15, 0⟩
def CFG_LOAD_START : Fld := ⟨550, .CFG_LOAD, 0, 1, .w1s, 0, false, 0, 1, 0⟩
def CFG_LOAD_ABORT : Fld := ⟨551, .CFG_LOAD, 1, 1, .w1s, 0, false, 0, 1, 0⟩
def CFG_LOAD_SRC : Fld := ⟨552, .CFG_LOAD, 4, 3, .rw, 0, false, 0, 3, 0⟩
def CFG_LOAD_KEEP : Fld := ⟨553, .CFG_LOAD, 7, 1, .rw, 0, false, 0, 1, 0⟩
def CFG_LOAD_SCOPE : Fld := ⟨554, .CFG_LOAD, 8, 56, .rw, 0, false, 0, 0xffffffffffffff, 0⟩
def CFG_SRC_ADDR : Fld := ⟨555, .CFG_SRC, 0, 48, .rw, 0, false, 0, 0xffffffffffff, 3⟩
def CFG_SRC_SCOPE_HI : Fld := ⟨556, .CFG_SRC, 56, 8, .rw, 0, false, 0, 255, 0⟩
def CFG_PROGRESS_BYTES : Fld := ⟨557, .CFG_PROGRESS, 0, 32, .ro, 0, false, 0, 0xffffffff, 0⟩
def CFG_PROGRESS_FRAMES : Fld := ⟨558, .CFG_PROGRESS, 32, 32, .ro, 0, false, 0, 0xffffffff, 0⟩
def CFG_FAIL_CAUSE : Fld := ⟨559, .CFG_FAIL, 0, 4, .ro, 0, false, 0, 15, 0⟩
def CFG_FAIL_WRITTEN : Fld := ⟨560, .CFG_FAIL, 4, 1, .ro, 0, false, 0, 1, 0⟩
def CFG_FAIL_FRAME : Fld := ⟨561, .CFG_FAIL, 8, 27, .ro, 0, false, 0, 0x7ffffff, 0⟩
def CFG_FAIL_OFFSET : Fld := ⟨562, .CFG_FAIL, 35, 29, .ro, 0, false, 0, 0x1fffffff, 0⟩
def CFG_LOAD_CNT_COUNT : Fld := ⟨563, .CFG_LOAD_CNT, 0, 64, .ro, 0, false, 0, 0xffffffffffffffff, 0⟩
def CFG_FAIL_CNT_COUNT : Fld := ⟨564, .CFG_FAIL_CNT, 0, 64, .ro, 0, false, 0, 0xffffffffffffffff, 0⟩
def CFG_FALLBACK_CNT_COUNT : Fld := ⟨565, .CFG_FALLBACK_CNT, 0, 64, .ro, 0, false, 0, 0xffffffffffffffff, 0⟩
def CFG_PORT_DISCARD_CNT_COUNT : Fld := ⟨566, .CFG_PORT_DISCARD_CNT, 0, 64, .ro, 0, false, 0, 0xffffffffffffffff, 0⟩
def CFG_WRAP_FLAGS : Fld := ⟨567, .CFG_WRAP, 0, 4, .w1c, 0, false, 0, 15, 0⟩
def CFG_REGION_STATE : Fld := ⟨568, .CFG_REGION, 0, 2, .ro, 0, false, 0, 3, 0⟩
def CFG_REGION_RELEASE : Fld := ⟨569, .CFG_REGION, 2, 1, .w1s, 0, false, 0, 1, 0⟩
def CFG_REGION_SOURCE : Fld := ⟨570, .CFG_REGION, 3, 1, .ro, 0, false, 0, 1, 0⟩
def MDT_CTRL_EN : Fld := ⟨571, .MDT_CTRL, 0, 1, .rw, 1, false, 0, 1, 0⟩
def MDT_CTRL_REPAIR_EN : Fld := ⟨572, .MDT_CTRL, 1, 1, .rw, 1, false, 0, 1, 0⟩
def MDT_CTRL_REFETCH_EN : Fld := ⟨573, .MDT_CTRL, 2, 1, .rw, 1, false, 0, 1, 0⟩
def MDT_CTRL_EVT_EN : Fld := ⟨574, .MDT_CTRL, 3, 1, .rw, 1, false, 0, 1, 0⟩
def MDT_CTRL_WDOG : Fld := ⟨575, .MDT_CTRL, 8, 8, .rw, 40, false, 25, 255, 0⟩
def MDT_STATUS_RUNNING : Fld := ⟨576, .MDT_STATUS, 0, 1, .ro, 0, false, 0, 1, 0⟩
def MDT_STATUS_CORR : Fld := ⟨577, .MDT_STATUS, 8, 1, .w1c, 0, false, 0, 1, 0⟩
def MDT_STATUS_UE : Fld := ⟨578, .MDT_STATUS, 9, 1, .w1c, 0, false, 0, 1, 0⟩
def MDT_STATUS_TMR_MISMATCH : Fld := ⟨579, .MDT_STATUS, 10, 1, .w1c, 0, false, 0, 1, 0⟩
def MDT_STATUS_WDOG : Fld := ⟨580, .MDT_STATUS, 11, 1, .w1c, 0, false, 0, 1, 0⟩
def MDT_STATUS_SIG_ECC : Fld := ⟨581, .MDT_STATUS, 12, 1, .w1c, 0, false, 0, 1, 0⟩
def MDT_STATUS_FAILED_GROUPS : Fld := ⟨582, .MDT_STATUS, 16, 16, .ro, 0, false, 0, 0xffff, 0⟩
def MDT_POS_GROUP : Fld := ⟨583, .MDT_POS, 0, 14, .ro, 0, false, 0, 0x3fff, 0⟩
def MDT_POS_COVER_US : Fld := ⟨584, .MDT_POS, 16, 32, .ro, 0, false, 0, 0xffffffff, 0⟩
def MDT_LOG_GROUP : Fld := ⟨585, .MDT_LOG, 0, 14, .rc, 0, false, 0, 0x3fff, 0⟩
def MDT_LOG_FRAME : Fld := ⟨586, .MDT_LOG, 14, 27, .rc, 0, false, 0, 0x7ffffff, 0⟩
def MDT_LOG_REFETCHED : Fld := ⟨587, .MDT_LOG, 41, 1, .rc, 0, false, 0, 1, 0⟩
def MDT_LOG_VALID : Fld := ⟨588, .MDT_LOG, 42, 1, .rc, 0, false, 0, 1, 0⟩
def MDT_GROUP_CNT_COUNT : Fld := ⟨589, .MDT_GROUP_CNT, 0, 64, .ro, 0, false, 0, 0xffffffffffffffff, 0⟩
def MDT_COVER_CNT_COUNT : Fld := ⟨590, .MDT_COVER_CNT, 0, 64, .ro, 0, false, 0, 0xffffffffffffffff, 0⟩
def MDT_CORR_CNT_COUNT : Fld := ⟨591, .MDT_CORR_CNT, 0, 64, .ro, 0, false, 0, 0xffffffffffffffff, 0⟩
def MDT_REFETCH_CNT_COUNT : Fld := ⟨592, .MDT_REFETCH_CNT, 0, 64, .ro, 0, false, 0, 0xffffffffffffffff, 0⟩
def MDT_UE_CNT_COUNT : Fld := ⟨593, .MDT_UE_CNT, 0, 64, .ro, 0, false, 0, 0xffffffffffffffff, 0⟩
def MDT_RESET_CNT_COUNT : Fld := ⟨594, .MDT_RESET_CNT, 0, 64, .ro, 0, false, 0, 0xffffffffffffffff, 0⟩
def MDT_WRAP_FLAGS : Fld := ⟨595, .MDT_WRAP, 0, 6, .w1c, 0, false, 0, 63, 0⟩
def LNE_CTRL_EN : Fld := ⟨596, .LNE_CTRL, 0, 1, .rw, 1, false, 0, 1, 0⟩
def LNE_CTRL_TX_SLEEP_EN : Fld := ⟨597, .LNE_CTRL, 1, 1, .rw, 0, false, 0, 1, 0⟩
def LNE_CTRL_RX_SLEEP_EN : Fld := ⟨598, .LNE_CTRL, 2, 1, .rw, 1, false, 0, 1, 0⟩
def LNE_CTRL_FORCE_FULL : Fld := ⟨599, .LNE_CTRL, 3, 1, .rw, 0, false, 0, 1, 0⟩
def LNE_STAT_STATE : Fld := ⟨600, .LNE_STAT, 0, 3, .ro, 0, false, 0, 7, 0⟩
def LNE_STAT_RATE : Fld := ⟨601, .LNE_STAT, 4, 2, .ro, 0, false, 0, 3, 0⟩
def LNE_STAT_TX_ASLEEP : Fld := ⟨602, .LNE_STAT, 6, 1, .ro, 0, false, 0, 1, 0⟩
def LNE_STAT_RX_ASLEEP : Fld := ⟨603, .LNE_STAT, 7, 1, .ro, 0, false, 0, 1, 0⟩
def LNE_STAT_FOM : Fld := ⟨604, .LNE_STAT, 8, 8, .ro, 0, false, 0, 255, 0⟩
def LNE_STAT_HIST_USED : Fld := ⟨605, .LNE_STAT, 16, 1, .ro, 0, false, 0, 1, 0⟩
def LNE_STAT_HIST_NEW : Fld := ⟨606, .LNE_STAT, 17, 1, .w1c, 0, false, 0, 1, 0⟩
def LNE_STAT_POL_INV : Fld := ⟨607, .LNE_STAT, 18, 1, .ro, 0, false, 0, 1, 0⟩
def LNE_THRESH_FOM_MIN : Fld := ⟨608, .LNE_THRESH, 0, 8, .rw, 40, false, 16, 128, 0⟩
def LNE_THRESH_FOM_GOOD : Fld := ⟨609, .LNE_THRESH, 8, 8, .rw, 96, false, 0, 255, 0⟩
def LNE_THRESH_IDLE_TIMER : Fld := ⟨610, .LNE_THRESH, 16, 32, .rw, 175000, false, 17500, 0xffffffff, 0⟩
def LNE_EQ_CTLE : Fld := ⟨611, .LNE_EQ, 0, 5, .ro, 0, false, 0, 31, 0⟩
def LNE_EQ_PRESET : Fld := ⟨612, .LNE_EQ, 8, 4, .ro, 0, false, 0, 15, 0⟩
def LNE_EQ_DFE : Fld := ⟨613, .LNE_EQ, 16, 48, .ro, 0, false, 0, 0xffffffffffff, 0⟩
def LNE_RETRAIN_CNT_COUNT : Fld := ⟨614, .LNE_RETRAIN_CNT, 0, 64, .ro, 0, false, 0, 0xffffffffffffffff, 0⟩
def LNE_WAKE_CNT_COUNT : Fld := ⟨615, .LNE_WAKE_CNT, 0, 64, .ro, 0, false, 0, 0xffffffffffffffff, 0⟩
def LNE_LOCK_LOSS_CNT_COUNT : Fld := ⟨616, .LNE_LOCK_LOSS_CNT, 0, 64, .ro, 0, false, 0, 0xffffffffffffffff, 0⟩
def LNE_WRAP_FLAGS : Fld := ⟨617, .LNE_WRAP, 0, 3, .w1c, 0, false, 0, 7, 0⟩
def PCI_CTRL_L1_EN : Fld := ⟨618, .PCI_CTRL, 0, 1, .rw, 1, false, 0, 1, 0⟩
def PCI_CTRL_L0P_EN : Fld := ⟨619, .PCI_CTRL, 1, 1, .rw, 1, false, 0, 1, 0⟩
def PCI_CTRL_LINK_EVT_EN : Fld := ⟨620, .PCI_CTRL, 2, 1, .rw, 1, false, 0, 1, 0⟩
def PCI_STATUS_LINK_UP : Fld := ⟨621, .PCI_STATUS, 0, 1, .ro, 0, false, 0, 1, 0⟩
def PCI_STATUS_SPEED : Fld := ⟨622, .PCI_STATUS, 1, 3, .ro, 0, false, 0, 7, 0⟩
def PCI_STATUS_WIDTH : Fld := ⟨623, .PCI_STATUS, 4, 5, .ro, 0, false, 0, 31, 0⟩
def PCI_STATUS_FLIT : Fld := ⟨624, .PCI_STATUS, 9, 1, .ro, 0, false, 0, 1, 0⟩
def PCI_STATUS_LTSSM : Fld := ⟨625, .PCI_STATUS, 10, 6, .ro, 0, false, 0, 63, 0⟩
def PCI_STATUS_ATS_EN : Fld := ⟨626, .PCI_STATUS, 16, 1, .ro, 0, false, 0, 1, 0⟩
def PCI_STATUS_PRI_EN : Fld := ⟨627, .PCI_STATUS, 17, 1, .ro, 0, false, 0, 1, 0⟩
def PCI_STATUS_BME : Fld := ⟨628, .PCI_STATUS, 18, 1, .ro, 0, false, 0, 1, 0⟩
def PCI_STATUS_D3 : Fld := ⟨629, .PCI_STATUS, 19, 1, .ro, 0, false, 0, 1, 0⟩
def PCI_STATUS_LINK_DOWN : Fld := ⟨630, .PCI_STATUS, 24, 1, .w1c, 0, false, 0, 1, 0⟩
def PCI_STATUS_FLR : Fld := ⟨631, .PCI_STATUS, 25, 1, .w1c, 0, false, 0, 1, 0⟩
def PCI_STATUS_PIN_INVAL : Fld := ⟨632, .PCI_STATUS, 26, 1, .w1c, 0, false, 0, 1, 0⟩
def PCI_STATUS_BAR2_ERR : Fld := ⟨633, .PCI_STATUS, 27, 1, .w1c, 0, false, 0, 1, 0⟩
def PCI_STATUS_AER : Fld := ⟨634, .PCI_STATUS, 28, 1, .w1c, 0, false, 0, 1, 0⟩
def PCI_BAR2_BASE_DA : Fld := ⟨635, .PCI_BAR2_BASE, 0, 48, .rw, 0, false, 0, 0xffffffffffff, 0⟩
def PCI_BAR2_SIZE_CODE : Fld := ⟨636, .PCI_BAR2_SIZE, 0, 4, .ro, 6, false, 0, 15, 0⟩
def PCI_MSIX_RAISE_VECTOR : Fld := ⟨637, .PCI_MSIX_RAISE, 0, 8, .wo, 0, true, 0, 255, 0⟩
def PCI_ATC_STAT_ENTRIES : Fld := ⟨638, .PCI_ATC_STAT, 0, 13, .ro, 0, false, 0, 8191, 0⟩
def PCI_ATC_STAT_LOCKED : Fld := ⟨639, .PCI_ATC_STAT, 16, 13, .ro, 0, false, 0, 8191, 0⟩
def PCI_ATC_STAT_PRQ_OUT : Fld := ⟨640, .PCI_ATC_STAT, 32, 10, .ro, 0, false, 0, 1023, 0⟩
def PCI_RX_BYTES_CNT_COUNT : Fld := ⟨641, .PCI_RX_BYTES_CNT, 0, 64, .ro, 0, false, 0, 0xffffffffffffffff, 0⟩
def PCI_TX_BYTES_CNT_COUNT : Fld := ⟨642, .PCI_TX_BYTES_CNT, 0, 64, .ro, 0, false, 0, 0xffffffffffffffff, 0⟩
def PCI_ATS_REQ_CNT_COUNT : Fld := ⟨643, .PCI_ATS_REQ_CNT, 0, 64, .ro, 0, false, 0, 0xffffffffffffffff, 0⟩
def PCI_PRQ_CNT_COUNT : Fld := ⟨644, .PCI_PRQ_CNT, 0, 64, .ro, 0, false, 0, 0xffffffffffffffff, 0⟩
def PCI_INVAL_CNT_COUNT : Fld := ⟨645, .PCI_INVAL_CNT, 0, 64, .ro, 0, false, 0, 0xffffffffffffffff, 0⟩
def PCI_ERR_CNT_COUNT : Fld := ⟨646, .PCI_ERR_CNT, 0, 64, .ro, 0, false, 0, 0xffffffffffffffff, 0⟩
def PCI_WRAP_FLAGS : Fld := ⟨647, .PCI_WRAP, 0, 6, .w1c, 0, false, 0, 63, 0⟩
def CXL_PORT_CTRL_EN : Fld := ⟨648, .CXL_PORT_CTRL, 0, 1, .rw, 1, false, 0, 1, 0⟩
def CXL_PORT_CTRL_REMOVE : Fld := ⟨649, .CXL_PORT_CTRL, 1, 1, .w1s, 0, false, 0, 1, 0⟩
def CXL_PORT_CTRL_SSC : Fld := ⟨650, .CXL_PORT_CTRL, 2, 1, .rw, 0, false, 0, 1, 0⟩
def CXL_PORT_STAT_LINK_UP : Fld := ⟨651, .CXL_PORT_STAT, 0, 1, .ro, 0, false, 0, 1, 0⟩
def CXL_PORT_STAT_SPEED : Fld := ⟨652, .CXL_PORT_STAT, 1, 3, .ro, 0, false, 0, 7, 0⟩
def CXL_PORT_STAT_WIDTH : Fld := ⟨653, .CXL_PORT_STAT, 4, 5, .ro, 0, false, 0, 31, 0⟩
def CXL_PORT_STAT_LTSSM : Fld := ⟨654, .CXL_PORT_STAT, 10, 6, .ro, 0, false, 0, 63, 0⟩
def CXL_PORT_STAT_REMOVED : Fld := ⟨655, .CXL_PORT_STAT, 24, 1, .w1c, 0, false, 0, 1, 0⟩
def CXL_PORT_STAT_REMOVE_REFUSED : Fld := ⟨656, .CXL_PORT_STAT, 25, 1, .w1c, 0, false, 0, 1, 0⟩
def CXL_PORT_STAT_LINK_DOWN : Fld := ⟨657, .CXL_PORT_STAT, 26, 1, .w1c, 0, false, 0, 1, 0⟩
def CXL_CFG_ADDR_REG : Fld := ⟨658, .CXL_CFG_ADDR, 0, 12, .rw, 0, false, 0, 4095, 2⟩
def CXL_CFG_ADDR_FUNC : Fld := ⟨659, .CXL_CFG_ADDR, 12, 3, .rw, 0, false, 0, 7, 0⟩
def CXL_CFG_ADDR_DEV : Fld := ⟨660, .CXL_CFG_ADDR, 15, 5, .rw, 0, false, 0, 31, 0⟩
def CXL_CFG_ADDR_BUS : Fld := ⟨661, .CXL_CFG_ADDR, 20, 8, .rw, 0, false, 0, 255, 0⟩
def CXL_CFG_ADDR_TYPE1 : Fld := ⟨662, .CXL_CFG_ADDR, 28, 1, .rw, 0, false, 0, 1, 0⟩
def CXL_CFG_ADDR_BUSY : Fld := ⟨663, .CXL_CFG_ADDR, 31, 1, .ro, 0, false, 0, 1, 0⟩
def CXL_CFG_ADDR_DONE : Fld := ⟨664, .CXL_CFG_ADDR, 32, 1, .ro, 0, false, 0, 1, 0⟩
def CXL_CFG_ADDR_ERR : Fld := ⟨665, .CXL_CFG_ADDR, 33, 1, .w1c, 0, false, 0, 1, 0⟩
def CXL_CFG_ADDR_RD : Fld := ⟨666, .CXL_CFG_ADDR, 34, 1, .w1s, 0, false, 0, 1, 0⟩
def CXL_CFG_DATA_DATA : Fld := ⟨667, .CXL_CFG_DATA, 0, 32, .rw, 0, false, 0, 0xffffffff, 0⟩
def CXL_PORT_REPLAY_CNT_COUNT : Fld := ⟨668, .CXL_PORT_REPLAY_CNT, 0, 64, .ro, 0, false, 0, 0xffffffffffffffff, 0⟩
def CXL_PORT_DOWN_CNT_COUNT : Fld := ⟨669, .CXL_PORT_DOWN_CNT, 0, 64, .ro, 0, false, 0, 0xffffffffffffffff, 0⟩
def CXL_PORT_ERR_CNT_COUNT : Fld := ⟨670, .CXL_PORT_ERR_CNT, 0, 64, .ro, 0, false, 0, 0xffffffffffffffff, 0⟩
def CXL_PORT_WRAP_FLAGS : Fld := ⟨671, .CXL_PORT_WRAP, 0, 3, .w1c, 0, false, 0, 7, 0⟩
def FLD_MBX_CTRL_GO : Fld := ⟨672, .FLD_MBX_CTRL, 0, 1, .w1s, 0, false, 0, 1, 0⟩
def FLD_MBX_CTRL_IRQ_EN : Fld := ⟨673, .FLD_MBX_CTRL, 1, 1, .rw, 1, false, 0, 1, 0⟩
def FLD_MBX_STAT_BUSY : Fld := ⟨674, .FLD_MBX_STAT, 0, 1, .ro, 0, false, 0, 1, 0⟩
def FLD_MBX_STAT_DONE : Fld := ⟨675, .FLD_MBX_STAT, 8, 1, .w1c, 0, false, 0, 1, 0⟩
def FLD_MBX_STAT_REQ_REFUSED : Fld := ⟨676, .FLD_MBX_STAT, 9, 1, .w1c, 0, false, 0, 1, 0⟩
def FLD_MBX_STAT_EMCY_OVF : Fld := ⟨677, .FLD_MBX_STAT, 10, 1, .w1c, 0, false, 0, 1, 0⟩
def FLD_MBX_STAT_EMCY_PEND : Fld := ⟨678, .FLD_MBX_STAT, 16, 6, .ro, 0, false, 0, 63, 0⟩
def FLD_MBX_EMCY_MSG : Fld := ⟨679, .FLD_MBX_EMCY, 0, 64, .rc, 0, false, 0, 0xffffffffffffffff, 0⟩
def FLD_MBX_REQ_CNT_COUNT : Fld := ⟨680, .FLD_MBX_REQ_CNT, 0, 64, .ro, 0, false, 0, 0xffffffffffffffff, 0⟩
def FLD_MBX_ABORT_CNT_COUNT : Fld := ⟨681, .FLD_MBX_ABORT_CNT, 0, 64, .ro, 0, false, 0, 0xffffffffffffffff, 0⟩
def FLD_EMCY_CNT_COUNT : Fld := ⟨682, .FLD_EMCY_CNT, 0, 64, .ro, 0, false, 0, 0xffffffffffffffff, 0⟩
def FLD_EMCY_DROP_CNT_COUNT : Fld := ⟨683, .FLD_EMCY_DROP_CNT, 0, 64, .ro, 0, false, 0, 0xffffffffffffffff, 0⟩
def FLD_MBX_WRAP_FLAGS : Fld := ⟨684, .FLD_MBX_WRAP, 0, 4, .w1c, 0, false, 0, 15, 0⟩
def FLD_MBX_REQ_BUF_DATA : Fld := ⟨685, .FLD_MBX_REQ_BUF, 0, 64, .rw, 0, false, 0, 0xffffffffffffffff, 0⟩
def FLD_MBX_RSP_BUF_DATA : Fld := ⟨686, .FLD_MBX_RSP_BUF, 0, 64, .ro, 0, false, 0, 0xffffffffffffffff, 0⟩
def FLD_CTRL_EN : Fld := ⟨687, .FLD_CTRL, 0, 1, .ro, 0, true, 0, 1, 0⟩
def FLD_CTRL_WDOG_EVT_EN : Fld := ⟨688, .FLD_CTRL, 1, 1, .rw, 1, false, 0, 1, 0⟩
def FLD_STATUS_AL_STATE : Fld := ⟨689, .FLD_STATUS, 0, 4, .ro, 1, false, 0, 15, 0⟩
def FLD_STATUS_AL_ERR : Fld := ⟨690, .FLD_STATUS, 4, 1, .ro, 0, false, 0, 1, 0⟩
def FLD_STATUS_AL_CODE : Fld := ⟨691, .FLD_STATUS, 16, 16, .ro, 0, false, 0, 0xffff, 0⟩
def FLD_STATUS_LINK : Fld := ⟨692, .FLD_STATUS, 32, 2, .ro, 0, false, 0, 3, 0⟩
def FLD_STATUS_DC_SYNC : Fld := ⟨693, .FLD_STATUS, 34, 1, .ro, 0, false, 0, 1, 0⟩
def FLD_STATUS_WDOG : Fld := ⟨694, .FLD_STATUS, 40, 1, .w1c, 0, false, 0, 1, 0⟩
def FLD_STATUS_DC_LOST : Fld := ⟨695, .FLD_STATUS, 41, 1, .w1c, 0, false, 0, 1, 0⟩
def FLD_STATUS_PDO_OVR : Fld := ⟨696, .FLD_STATUS, 42, 1, .w1c, 0, false, 0, 1, 0⟩
def FLD_DC_CTRL_SYNC_WIN : Fld := ⟨697, .FLD_DC_CTRL, 0, 32, .rw, 1000, false, 10, 0xf4240, 0⟩
def FLD_DC_CTRL_ACQ : Fld := ⟨698, .FLD_DC_CTRL, 32, 16, .rw, 1000, false, 16, 0xffff, 0⟩
def FLD_DC_CTRL_LOSS : Fld := ⟨699, .FLD_DC_CTRL, 48, 8, .rw, 16, false, 1, 255, 0⟩
def FLD_DC_TIME_NS : Fld := ⟨700, .FLD_DC_TIME, 0, 64, .ro, 0, false, 0, 0xffffffffffffffff, 0⟩
def FLD_PDO_OUT_DA : Fld := ⟨701, .FLD_PDO_OUT, 0, 48, .rw, 0, false, 0, 0xffffffffffff, 3⟩
def FLD_PDO_OUT_HUR : Fld := ⟨702, .FLD_PDO_OUT, 48, 11, .rw, 0, false, 0, 2047, 0⟩
def FLD_PDO_OUT_CLUSTER : Fld := ⟨703, .FLD_PDO_OUT, 59, 5, .rw, 0, false, 0, 31, 0⟩
def FLD_PDO_IN_DA : Fld := ⟨704, .FLD_PDO_IN, 0, 48, .rw, 0, false, 0, 0xffffffffffff, 3⟩
def FLD_PDO_IN_LEAD : Fld := ⟨705, .FLD_PDO_IN, 48, 16, .rw, 2000, false, 0, 0xffff, 0⟩
def FLD_FRAME_CNT_COUNT : Fld := ⟨706, .FLD_FRAME_CNT, 0, 64, .ro, 0, false, 0, 0xffffffffffffffff, 0⟩
def FLD_FRAME_ERR_CNT_COUNT : Fld := ⟨707, .FLD_FRAME_ERR_CNT, 0, 64, .ro, 0, false, 0, 0xffffffffffffffff, 0⟩
def FLD_PDO_OVR_CNT_COUNT : Fld := ⟨708, .FLD_PDO_OVR_CNT, 0, 64, .ro, 0, false, 0, 0xffffffffffffffff, 0⟩
def FLD_WDOG_CNT_COUNT : Fld := ⟨709, .FLD_WDOG_CNT, 0, 64, .ro, 0, false, 0, 0xffffffffffffffff, 0⟩
def FLD_DC_LOSS_CNT_COUNT : Fld := ⟨710, .FLD_DC_LOSS_CNT, 0, 64, .ro, 0, false, 0, 0xffffffffffffffff, 0⟩
def FLD_WRAP_FLAGS : Fld := ⟨711, .FLD_WRAP, 0, 5, .w1c, 0, false, 0, 31, 0⟩
def RST_CTRL_REMOTE_EN : Fld := ⟨712, .RST_CTRL, 0, 1, .rw, 1, false, 0, 1, 0⟩
def RST_STATUS_IN_BLOCK : Fld := ⟨713, .RST_STATUS, 0, 1, .ro, 0, false, 0, 1, 0⟩
def RST_STATUS_BLOCK_REFUSED : Fld := ⟨714, .RST_STATUS, 8, 1, .w1c, 0, false, 0, 1, 0⟩
def RST_STATUS_REMOTE_DROP : Fld := ⟨715, .RST_STATUS, 9, 1, .w1c, 0, false, 0, 1, 0⟩
def RST_STATUS_TRIM_FALLBACK : Fld := ⟨716, .RST_STATUS, 10, 1, .w1c, 0, false, 0, 1, 0⟩
def RST_CAUSE_SOURCES : Fld := ⟨717, .RST_CAUSE, 0, 9, .ro, 0, true, 0, 511, 0⟩
def RST_CAUSE_FIRST : Fld := ⟨718, .RST_CAUSE, 12, 4, .ro, 0, true, 0, 15, 0⟩
def RST_CAUSE_MC_ONLY : Fld := ⟨719, .RST_CAUSE, 16, 1, .ro, 0, true, 0, 1, 0⟩
def RST_BOOT_BIN : Fld := ⟨720, .RST_BOOT, 0, 4, .ro, 0, true, 0, 15, 0⟩
def RST_BOOT_ROLE : Fld := ⟨721, .RST_BOOT, 4, 2, .ro, 0, true, 0, 3, 0⟩
def RST_BOOT_FABRIC_SRC : Fld := ⟨722, .RST_BOOT, 6, 3, .ro, 0, true, 0, 7, 0⟩
def RST_BOOT_FIELD_EN : Fld := ⟨723, .RST_BOOT, 9, 1, .ro, 0, true, 0, 1, 0⟩
def RST_BOOT_AMBIG : Fld := ⟨724, .RST_BOOT, 10, 1, .ro, 0, true, 0, 1, 0⟩
def RST_BOOT_CODE : Fld := ⟨725, .RST_BOOT, 16, 12, .ro, 0, true, 0, 4095, 0⟩
def RST_BLOCK_KIND : Fld := ⟨726, .RST_BLOCK, 0, 4, .rw, 0, false, 1, 5, 0⟩
def RST_BLOCK_INDEX : Fld := ⟨727, .RST_BLOCK, 4, 12, .rw, 0, false, 0, 4095, 0⟩
def RST_BLOCK_HOLD : Fld := ⟨728, .RST_BLOCK, 16, 1, .rw, 0, false, 0, 1, 0⟩
def RST_BLOCK_GO : Fld := ⟨729, .RST_BLOCK, 17, 1, .w1s, 0, false, 0, 1, 0⟩
def RST_BLOCK_HELD : Fld := ⟨730, .RST_BLOCK, 18, 1, .ro, 0, false, 0, 1, 0⟩
def RST_SRC_CFG_PERST_SCOPE : Fld := ⟨731, .RST_SRC_CFG, 0, 1, .rw, 0, false, 0, 1, 0⟩
def RST_SRC_CFG_HOT_SCOPE : Fld := ⟨732, .RST_SRC_CFG, 1, 1, .rw, 1, false, 0, 1, 0⟩
def RST_SRC_CFG_WDOG_SCOPE : Fld := ⟨733, .RST_SRC_CFG, 2, 1, .rw, 0, false, 0, 1, 0⟩
def RST_SRC_CFG_DRIVE : Fld := ⟨734, .RST_SRC_CFG, 16, 9, .rw, 511, false, 0, 511, 0⟩
def RST_TRIM_STATE : Fld := ⟨735, .RST_TRIM, 0, 2, .ro, 0, true, 0, 3, 0⟩
def RST_TRIM_TRIES : Fld := ⟨736, .RST_TRIM, 4, 2, .ro, 0, true, 0, 3, 0⟩
def RST_DEVICE_CNT_COUNT : Fld := ⟨737, .RST_DEVICE_CNT, 0, 64, .ro, 0, false, 0, 0xffffffffffffffff, 0⟩
def RST_MC_CNT_COUNT : Fld := ⟨738, .RST_MC_CNT, 0, 64, .ro, 0, false, 0, 0xffffffffffffffff, 0⟩
def RST_BLOCK_CNT_COUNT : Fld := ⟨739, .RST_BLOCK_CNT, 0, 64, .ro, 0, false, 0, 0xffffffffffffffff, 0⟩
def RST_BLOCK_REFUSED_CNT_COUNT : Fld := ⟨740, .RST_BLOCK_REFUSED_CNT, 0, 64, .ro, 0, false, 0, 0xffffffffffffffff, 0⟩
def RST_WRAP_FLAGS : Fld := ⟨741, .RST_WRAP, 0, 4, .w1c, 0, false, 0, 15, 0⟩
def PWR_CTRL_RAIL_EVT_EN : Fld := ⟨742, .PWR_CTRL, 0, 1, .rw, 1, false, 0, 1, 0⟩
def PWR_STATUS_IN_RANGE : Fld := ⟨743, .PWR_STATUS, 0, 1, .ro, 0, true, 0, 1, 0⟩
def PWR_STATUS_Q_ON : Fld := ⟨744, .PWR_STATUS, 4, 4, .ro, 0, true, 0, 15, 0⟩
def PWR_STATUS_BROWNOUT : Fld := ⟨745, .PWR_STATUS, 8, 1, .w1c, 0, false, 0, 1, 0⟩
def PWR_STATUS_RAIL_FAULT : Fld := ⟨746, .PWR_STATUS, 9, 1, .w1c, 0, false, 0, 1, 0⟩
def PWR_STATUS_Q_REFUSED : Fld := ⟨747, .PWR_STATUS, 10, 1, .w1c, 0, false, 0, 1, 0⟩
def PWR_INPUT_V : Fld := ⟨748, .PWR_INPUT, 0, 16, .ro, 0, true, 0, 0xffff, 0⟩
def PWR_INPUT_I : Fld := ⟨749, .PWR_INPUT, 16, 16, .ro, 0, true, 0, 0xffff, 0⟩
def PWR_INPUT_MW : Fld := ⟨750, .PWR_INPUT, 32, 32, .ro, 0, true, 0, 0xffffffff, 0⟩
def PWR_AVG_MW : Fld := ⟨751, .PWR_AVG, 0, 32, .ro, 0, true, 0, 0xffffffff, 0⟩
def PWR_AVG_PEAK : Fld := ⟨752, .PWR_AVG, 32, 32, .rc, 0, false, 0, 0xffffffff, 0⟩
def PWR_QCTRL_OFF : Fld := ⟨753, .PWR_QCTRL, 0, 4, .rw, 0, false, 0, 15, 1⟩
def PWR_CAUSE_LAST_OFF : Fld := ⟨754, .PWR_CAUSE, 0, 2, .ro, 0, true, 0, 3, 0⟩
def PWR_ENERGY_CNT_COUNT : Fld := ⟨755, .PWR_ENERGY_CNT, 0, 64, .ro, 0, false, 0, 0xffffffffffffffff, 0⟩
def PWR_BROWNOUT_CNT_COUNT : Fld := ⟨756, .PWR_BROWNOUT_CNT, 0, 64, .ro, 0, false, 0, 0xffffffffffffffff, 0⟩
def PWR_RAIL_FAULT_CNT_COUNT : Fld := ⟨757, .PWR_RAIL_FAULT_CNT, 0, 64, .ro, 0, false, 0, 0xffffffffffffffff, 0⟩
def PWR_WRAP_FLAGS : Fld := ⟨758, .PWR_WRAP, 0, 3, .w1c, 0, false, 0, 7, 0⟩
def PAC_CTRL_PROG_EN : Fld := ⟨759, .PAC_CTRL, 0, 1, .rw, 1, false, 0, 1, 0⟩
def PAC_CTRL_AIN_EN : Fld := ⟨760, .PAC_CTRL, 16, 16, .rw, 0, false, 0, 0xffff, 0⟩
def PAC_STATUS_THROTTLE : Fld := ⟨761, .PAC_STATUS, 0, 1, .ro, 0, false, 0, 1, 0⟩
def PAC_STATUS_TRIP : Fld := ⟨762, .PAC_STATUS, 1, 1, .ro, 0, false, 0, 1, 0⟩
def PAC_STATUS_THROTTLE_REFUSED : Fld := ⟨763, .PAC_STATUS, 8, 1, .w1c, 0, false, 0, 1, 0⟩
def PAC_STATUS_WDOG_WARN : Fld := ⟨764, .PAC_STATUS, 9, 1, .w1c, 0, false, 0, 1, 0⟩
def PAC_STATUS_LOG_OVF : Fld := ⟨765, .PAC_STATUS, 10, 1, .w1c, 0, false, 0, 1, 0⟩
def PAC_STATUS_CFG_REFUSED : Fld := ⟨766, .PAC_STATUS, 11, 1, .w1c, 0, false, 0, 1, 0⟩
def PAC_WDOG_KICK : Fld := ⟨767, .PAC_WDOG, 0, 1, .w1s, 0, false, 0, 1, 0⟩
def PAC_WDOG_PERIOD_MS : Fld := ⟨768, .PAC_WDOG, 16, 14, .rw, 10000, false, 1, 0x2710, 0⟩
def PAC_WDOG_LEFT_US : Fld := ⟨769, .PAC_WDOG, 32, 32, .ro, 0, true, 0, 0xffffffff, 0⟩
def PAC_TRIP_POWER : Fld := ⟨770, .PAC_TRIP, 0, 1, .w1c, 0, false, 0, 1, 0⟩
def PAC_TRIP_THERM : Fld := ⟨771, .PAC_TRIP, 1, 4, .w1c, 0, false, 0, 15, 0⟩
def PAC_LOG_HEAT : Fld := ⟨772, .PAC_LOG, 0, 8, .rc, 0, false, 0, 255, 0⟩
def PAC_LOG_KIND : Fld := ⟨773, .PAC_LOG, 8, 2, .rc, 0, false, 0, 3, 0⟩
def PAC_LOG_CLUSTER : Fld := ⟨774, .PAC_LOG, 10, 5, .rc, 0, false, 0, 31, 0⟩
def PAC_LOG_ENGINE : Fld := ⟨775, .PAC_LOG, 15, 6, .rc, 0, false, 0, 63, 0⟩
def PAC_LOG_VALID : Fld := ⟨776, .PAC_LOG, 23, 1, .rc, 0, false, 0, 1, 0⟩
def PAC_LOG_T : Fld := ⟨777, .PAC_LOG, 24, 40, .rc, 0, false, 0, 0xffffffffff, 0⟩
def PAC_FIRE_CNT_COUNT : Fld := ⟨778, .PAC_FIRE_CNT, 0, 64, .ro, 0, false, 0, 0xffffffffffffffff, 0⟩
def PAC_REFUSED_CNT_COUNT : Fld := ⟨779, .PAC_REFUSED_CNT, 0, 64, .ro, 0, false, 0, 0xffffffffffffffff, 0⟩
def PAC_THROTTLE_CYC_CNT_COUNT : Fld := ⟨780, .PAC_THROTTLE_CYC_CNT, 0, 64, .ro, 0, false, 0, 0xffffffffffffffff, 0⟩
def PAC_TRIP_CYC_CNT_COUNT : Fld := ⟨781, .PAC_TRIP_CYC_CNT, 0, 64, .ro, 0, false, 0, 0xffffffffffffffff, 0⟩
def PAC_WRAP_FLAGS : Fld := ⟨782, .PAC_WRAP, 0, 4, .w1c, 0, false, 0, 15, 0⟩
def PAC_CEIL_CEIL : Fld := ⟨783, .PAC_CEIL, 0, 5, .ro, 16, false, 0, 31, 0⟩
def PAC_CEIL_TRIP : Fld := ⟨784, .PAC_CEIL, 5, 1, .ro, 0, false, 0, 1, 0⟩
def PAC_CEIL_REFUSED : Fld := ⟨785, .PAC_CEIL, 6, 1, .ro, 0, false, 0, 1, 0⟩
def PAC_TEMP_T : Fld := ⟨786, .PAC_TEMP, 0, 16, .ro, 0, true, 0, 0xffff, 0⟩
def PAC_TEMP_MAX : Fld := ⟨787, .PAC_TEMP, 16, 16, .rc, 0, true, 0, 0xffff, 0⟩
def PAC_VMON_MV : Fld := ⟨788, .PAC_VMON, 0, 16, .ro, 0, true, 0, 0xffff, 0⟩
def PAC_AIN_CODE : Fld := ⟨789, .PAC_AIN, 0, 12, .ro, 0, true, 0, 4095, 0⟩
def PAC_HEAT_CFG_EN : Fld := ⟨790, .PAC_HEAT_CFG, 0, 1, .rw, 0, false, 0, 1, 0⟩
def PAC_HEAT_CFG_SRC : Fld := ⟨791, .PAC_HEAT_CFG, 1, 3, .rw, 0, false, 0, 6, 0⟩
def PAC_HEAT_CFG_INDEX : Fld := ⟨792, .PAC_HEAT_CFG, 4, 6, .rw, 0, false, 0, 63, 0⟩
def PAC_HEAT_CFG_SHIFT : Fld := ⟨793, .PAC_HEAT_CFG, 10, 4, .rw, 0, false, 0, 15, 0⟩
def PAC_HEAT_CFG_OP : Fld := ⟨794, .PAC_HEAT_CFG, 14, 1, .rw, 0, false, 0, 1, 0⟩
def PAC_HEAT_CFG_PERSIST : Fld := ⟨795, .PAC_HEAT_CFG, 16, 8, .rw, 1, false, 1, 255, 0⟩
def PAC_HEAT_TH_TH : Fld := ⟨796, .PAC_HEAT_TH, 0, 32, .rw, 0, false, 0, 0xffffffff, 0⟩
def PAC_HEAT_TH_HYS : Fld := ⟨797, .PAC_HEAT_TH, 32, 32, .rw, 0, false, 0, 0xffffffff, 0⟩
def PAC_HEAT_ACT_SIG : Fld := ⟨798, .PAC_HEAT_ACT, 0, 1, .rw, 1, false, 0, 1, 0⟩
def PAC_HEAT_ACT_THR : Fld := ⟨799, .PAC_HEAT_ACT, 1, 1, .rw, 0, false, 0, 1, 0⟩
def PAC_HEAT_ACT_RST : Fld := ⟨800, .PAC_HEAT_ACT, 2, 1, .rw, 0, false, 0, 1, 0⟩
def PAC_HEAT_ACT_CEIL : Fld := ⟨801, .PAC_HEAT_ACT, 4, 5, .rw, 16, false, 4, 16, 0⟩
def PAC_HEAT_ACT_CLMASK : Fld := ⟨802, .PAC_HEAT_ACT, 16, 32, .rw, 0, false, 0, 0xffffffff, 0⟩
def PAC_HEAT_ACT_RKIND : Fld := ⟨803, .PAC_HEAT_ACT, 48, 4, .rw, 0, false, 1, 5, 0⟩
def PAC_HEAT_ACT_RINDEX : Fld := ⟨804, .PAC_HEAT_ACT, 52, 12, .rw, 0, false, 0, 4095, 0⟩
def PAC_HEAT_STAT_ACTIVE : Fld := ⟨805, .PAC_HEAT_STAT, 0, 1, .ro, 0, false, 0, 1, 0⟩
def PAC_HEAT_STAT_FIRED : Fld := ⟨806, .PAC_HEAT_STAT, 1, 1, .w1c, 0, false, 0, 1, 0⟩
def PAC_HEAT_STAT_REFUSED : Fld := ⟨807, .PAC_HEAT_STAT, 2, 1, .w1c, 0, false, 0, 1, 0⟩
def PAC_HEAT_STAT_FILT : Fld := ⟨808, .PAC_HEAT_STAT, 32, 32, .ro, 0, true, 0, 0xffffffff, 0⟩
def SEC_CTRL_EVT_EN : Fld := ⟨809, .SEC_CTRL, 0, 1, .rw, 1, false, 0, 1, 0⟩
def SEC_STATUS_OWNER_MODE : Fld := ⟨810, .SEC_STATUS, 0, 1, .ro, 0, true, 0, 1, 0⟩
def SEC_STATUS_REVOKED : Fld := ⟨811, .SEC_STATUS, 1, 4, .ro, 0, true, 0, 15, 0⟩
def SEC_STATUS_DBG : Fld := ⟨812, .SEC_STATUS, 5, 3, .ro, 0, false, 0, 7, 0⟩
def SEC_STATUS_RECOVERY : Fld := ⟨813, .SEC_STATUS, 8, 1, .ro, 0, false, 0, 1, 0⟩
def SEC_STATUS_RB_REFUSED : Fld := ⟨814, .SEC_STATUS, 16, 1, .w1c, 0, false, 0, 1, 0⟩
def SEC_STATUS_SLOT_REFUSED : Fld := ⟨815, .SEC_STATUS, 17, 1, .w1c, 0, false, 0, 1, 0⟩
def SEC_STATUS_DBG_FAIL : Fld := ⟨816, .SEC_STATUS, 18, 1, .w1c, 0, false, 0, 1, 0⟩
def SEC_BOOT_SLOT : Fld := ⟨817, .SEC_BOOT, 0, 1, .ro, 0, true, 0, 1, 0⟩
def SEC_BOOT_TRIAL : Fld := ⟨818, .SEC_BOOT, 1, 1, .ro, 0, true, 0, 1, 0⟩
def SEC_BOOT_TRIES : Fld := ⟨819, .SEC_BOOT, 8, 8, .ro, 0, true, 0, 255, 0⟩
def SEC_BOOT_FALLBACK : Fld := ⟨820, .SEC_BOOT, 4, 1, .w1c, 0, false, 0, 1, 0⟩
def SEC_BOOT_REVERTED : Fld := ⟨821, .SEC_BOOT, 5, 1, .w1c, 0, false, 0, 1, 0⟩
def SEC_BOOT_SWITCH : Fld := ⟨822, .SEC_BOOT, 6, 1, .w1s, 0, false, 0, 1, 0⟩
def SEC_BOOT_CONFIRM : Fld := ⟨823, .SEC_BOOT, 7, 1, .w1s, 0, false, 0, 1, 0⟩
def SEC_BOOT_VERSION : Fld := ⟨824, .SEC_BOOT, 32, 32, .ro, 0, true, 0, 0xffffffff, 0⟩
def SEC_ROLLBACK_CTR : Fld := ⟨825, .SEC_ROLLBACK, 0, 2, .rw, 0, false, 0, 2, 0⟩
def SEC_ROLLBACK_FLOOR : Fld := ⟨826, .SEC_ROLLBACK, 8, 8, .rw, 0, false, 0, 255, 0⟩
def SEC_ROLLBACK_GO : Fld := ⟨827, .SEC_ROLLBACK, 16, 1, .w1s, 0, false, 0, 1, 0⟩
def SEC_ROLLBACK_FLOORS : Fld := ⟨828, .SEC_ROLLBACK, 24, 24, .ro, 0, true, 0, 0xffffff, 0⟩
def SEC_VERIFY_SLOT : Fld := ⟨829, .SEC_VERIFY, 0, 1, .rw, 0, false, 0, 1, 0⟩
def SEC_VERIFY_GO : Fld := ⟨830, .SEC_VERIFY, 1, 1, .w1s, 0, false, 0, 1, 0⟩
def SEC_VERIFY_PASS : Fld := ⟨831, .SEC_VERIFY, 2, 1, .ro, 0, false, 0, 1, 0⟩
def SEC_VERIFY_STEP : Fld := ⟨832, .SEC_VERIFY, 4, 4, .ro, 0, false, 0, 15, 0⟩
def SEC_EXTEND_D : Fld := ⟨833, .SEC_EXTEND, 0, 64, .wo, 0, true, 0, 0xffffffffffffffff, 0⟩
def SEC_ATT_DA : Fld := ⟨834, .SEC_ATT, 0, 48, .rw, 0, false, 0, 0xffffffffffff, 13⟩
def SEC_ATT_GO : Fld := ⟨835, .SEC_ATT, 48, 1, .w1s, 0, false, 0, 1, 0⟩
def SEC_DBG_CHAL : Fld := ⟨836, .SEC_DBG, 0, 1, .w1s, 0, false, 0, 1, 0⟩
def SEC_DBG_GO : Fld := ⟨837, .SEC_DBG, 1, 1, .w1s, 0, false, 0, 1, 0⟩
def SEC_DBG_DA : Fld := ⟨838, .SEC_DBG, 8, 40, .rw, 0, false, 0, 0xffffffffff, 0⟩
def SEC_RCV_NEXT : Fld := ⟨839, .SEC_RCV, 0, 1, .w1s, 0, false, 0, 1, 0⟩
def SEC_VERIFY_CNT_COUNT : Fld := ⟨840, .SEC_VERIFY_CNT, 0, 64, .ro, 0, false, 0, 0xffffffffffffffff, 0⟩
def SEC_VERIFY_FAIL_CNT_COUNT : Fld := ⟨841, .SEC_VERIFY_FAIL_CNT, 0, 64, .ro, 0, false, 0, 0xffffffffffffffff, 0⟩
def SEC_ATT_CNT_COUNT : Fld := ⟨842, .SEC_ATT_CNT, 0, 64, .ro, 0, false, 0, 0xffffffffffffffff, 0⟩
def SEC_WRAP_FLAGS : Fld := ⟨843, .SEC_WRAP, 0, 3, .w1c, 0, false, 0, 7, 0⟩
def SEC_M_DATA : Fld := ⟨844, .SEC_M, 0, 64, .ro, 0, false, 0, 0xffffffffffffffff, 0⟩
def SEC_ATT_NONCE_DATA : Fld := ⟨845, .SEC_ATT_NONCE, 0, 64, .rw, 0, false, 0, 0xffffffffffffffff, 0⟩
def SEC_DBG_NONCE_DATA : Fld := ⟨846, .SEC_DBG_NONCE, 0, 64, .ro, 0, false, 0, 0xffffffffffffffff, 0⟩
def SEC_RCV_BUF_DATA : Fld := ⟨847, .SEC_RCV_BUF, 0, 64, .rw, 0, false, 0, 0xffffffffffffffff, 0⟩
def TST_CTRL_EVT_EN : Fld := ⟨848, .TST_CTRL, 0, 1, .rw, 1, false, 0, 1, 0⟩
def TST_STATUS_FENCE_REFUSED : Fld := ⟨849, .TST_STATUS, 8, 1, .w1c, 0, false, 0, 1, 0⟩
def TST_STATUS_CDL_REFUSED : Fld := ⟨850, .TST_STATUS, 9, 1, .w1c, 0, false, 0, 1, 0⟩
def TST_FENCE_CLUSTER : Fld := ⟨851, .TST_FENCE, 0, 32, .rw, 0, false, 0, 0xffffffff, 0⟩
def TST_FENCE_QUARTER : Fld := ⟨852, .TST_FENCE, 32, 4, .rw, 0, false, 0, 15, 1⟩
def TST_CDL_GO : Fld := ⟨853, .TST_CDL, 0, 1, .w1s, 0, false, 0, 1, 0⟩
def TST_CDL_STEP : Fld := ⟨854, .TST_CDL, 1, 3, .ro, 0, false, 0, 7, 0⟩
def TST_CDL_PARKED : Fld := ⟨855, .TST_CDL, 4, 1, .ro, 0, false, 0, 1, 0⟩
def TST_CDL_FAILED : Fld := ⟨856, .TST_CDL, 8, 8, .ro, 0, false, 0, 255, 0⟩
def TST_CDL_CNT_COUNT : Fld := ⟨857, .TST_CDL_CNT, 0, 64, .ro, 0, false, 0, 0xffffffffffffffff, 0⟩
def TST_CDL_FAIL_CNT_COUNT : Fld := ⟨858, .TST_CDL_FAIL_CNT, 0, 64, .ro, 0, false, 0, 0xffffffffffffffff, 0⟩
def TST_FENCE_CNT_COUNT : Fld := ⟨859, .TST_FENCE_CNT, 0, 64, .ro, 0, false, 0, 0xffffffffffffffff, 0⟩
def TST_WRAP_FLAGS : Fld := ⟨860, .TST_WRAP, 0, 3, .w1c, 0, false, 0, 7, 0⟩
def TST_CDL_LAST_DATA : Fld := ⟨861, .TST_CDL_LAST, 0, 64, .ro, 0, true, 0, 0xffffffffffffffff, 0⟩
end F

/-- A cumulative counter (R221): its field, and the flag its wrap sets. -/
structure Cnt where
  fld : Fld
  wrapFld : Fld
  bit : Nat
  deriving DecidableEq, Repr

namespace C
def MXE_INSTR_CNT : Cnt := ⟨F.MXE_INSTR_CNT_COUNT, F.MXE_WRAP_INSTR, 0⟩
def MXE_PASS_CNT : Cnt := ⟨F.MXE_PASS_CNT_COUNT, F.MXE_WRAP_PASS, 0⟩
def MXE_PROD_CNT : Cnt := ⟨F.MXE_PROD_CNT_COUNT, F.MXE_WRAP_PROD, 0⟩
def MXE_SWAP_STALL_CNT : Cnt := ⟨F.MXE_SWAP_STALL_CNT_COUNT, F.MXE_WRAP_SWAP_STALL, 0⟩
def MXE_FEED_STALL_CNT : Cnt := ⟨F.MXE_FEED_STALL_CNT_COUNT, F.MXE_WRAP_FEED_STALL, 0⟩
def QNT_CONV_CNT : Cnt := ⟨F.QNT_CONV_CNT_COUNT, F.QNT_WRAP_CONV, 0⟩
def QNT_ESC_CNT : Cnt := ⟨F.QNT_ESC_CNT_COUNT, F.QNT_WRAP_ESC, 0⟩
def QNT_DEGEN_CNT : Cnt := ⟨F.QNT_DEGEN_CNT_COUNT, F.QNT_WRAP_DEGEN, 0⟩
def QNT_WARMUP_CNT : Cnt := ⟨F.QNT_WARMUP_CNT_COUNT, F.QNT_WRAP_WARMUP, 0⟩
def QNT_TABLE_STALL_CNT : Cnt := ⟨F.QNT_TABLE_STALL_CNT_COUNT, F.QNT_WRAP_TABLE_STALL, 0⟩
def VEC_ISSUE_CNT : Cnt := ⟨F.VEC_ISSUE_CNT_COUNT, F.VEC_WRAP_ISSUE, 0⟩
def VEC_VOP_CNT : Cnt := ⟨F.VEC_VOP_CNT_COUNT, F.VEC_WRAP_VOP, 0⟩
def STM_RD_BYTES_CNT : Cnt := ⟨F.STM_RD_BYTES_CNT_COUNT, F.STM_WRAP_RD_BYTES, 0⟩
def STM_WR_BYTES_CNT : Cnt := ⟨F.STM_WR_BYTES_CNT_COUNT, F.STM_WRAP_WR_BYTES, 0⟩
def STM_DESC_CNT : Cnt := ⟨F.STM_DESC_CNT_COUNT, F.STM_WRAP_DESC, 0⟩
def STM_PANIC_CNT : Cnt := ⟨F.STM_PANIC_CNT_COUNT, F.STM_WRAP_PANIC, 0⟩
def STM_FAULT_CNT : Cnt := ⟨F.STM_FAULT_CNT_COUNT, F.STM_WRAP_FAULT, 0⟩
def HUR_ARRIVE_CNT : Cnt := ⟨F.HUR_ARRIVE_CNT_COUNT, F.HUR_WRAP_ARRIVE, 0⟩
def HUR_COMPLETE_CNT : Cnt := ⟨F.HUR_COMPLETE_CNT_COUNT, F.HUR_WRAP_COMPLETE, 0⟩
def HUR_BATON_CNT : Cnt := ⟨F.HUR_BATON_CNT_COUNT, F.HUR_WRAP_BATON, 0⟩
def HUR_BATON_DROP_CNT : Cnt := ⟨F.HUR_BATON_DROP_CNT_COUNT, F.HUR_WRAP_BATON_DROP, 0⟩
def TRK_EDGE_CNT : Cnt := ⟨F.TRK_EDGE_CNT_COUNT, F.TRK_WRAP_FLAGS, 0⟩
def TRK_STALL_CNT : Cnt := ⟨F.TRK_STALL_CNT_COUNT, F.TRK_WRAP_FLAGS, 1⟩
def TRK_LATE_CNT : Cnt := ⟨F.TRK_LATE_CNT_COUNT, F.TRK_WRAP_FLAGS, 2⟩
def TRK_LATE_MARK_CNT : Cnt := ⟨F.TRK_LATE_MARK_CNT_COUNT, F.TRK_WRAP_FLAGS, 3⟩
def TRK_IDX_ERR_CNT : Cnt := ⟨F.TRK_IDX_ERR_CNT_COUNT, F.TRK_WRAP_FLAGS, 4⟩
def TRK_REV_CNT : Cnt := ⟨F.TRK_REV_CNT_COUNT, F.TRK_WRAP_FLAGS, 5⟩
def SES_SWITCH_CNT : Cnt := ⟨F.SES_SWITCH_CNT_COUNT, F.SES_WRAP_FLAGS, 0⟩
def SES_DOORBELL_CNT : Cnt := ⟨F.SES_DOORBELL_CNT_COUNT, F.SES_WRAP_FLAGS, 1⟩
def SES_DB_DROP_CNT : Cnt := ⟨F.SES_DB_DROP_CNT_COUNT, F.SES_WRAP_FLAGS, 2⟩
def SES_RING_MISS_CNT : Cnt := ⟨F.SES_RING_MISS_CNT_COUNT, F.SES_WRAP_FLAGS, 3⟩
def SES_FL_DISARM_CNT : Cnt := ⟨F.SES_FL_DISARM_CNT_COUNT, F.SES_WRAP_FLAGS, 4⟩
def KMR_TX_CELL_CNT : Cnt := ⟨F.KMR_TX_CELL_CNT_COUNT, F.KMR_WRAP_FLAGS, 0⟩
def KMR_RX_CELL_CNT : Cnt := ⟨F.KMR_RX_CELL_CNT_COUNT, F.KMR_WRAP_FLAGS, 1⟩
def KMR_CW_CORR_CNT : Cnt := ⟨F.KMR_CW_CORR_CNT_COUNT, F.KMR_WRAP_FLAGS, 2⟩
def KMR_CW_UNCORR_CNT : Cnt := ⟨F.KMR_CW_UNCORR_CNT_COUNT, F.KMR_WRAP_FLAGS, 3⟩
def KMR_CELL_LOST_CNT : Cnt := ⟨F.KMR_CELL_LOST_CNT_COUNT, F.KMR_WRAP_FLAGS, 4⟩
def KMR_CELL_DROP_CNT : Cnt := ⟨F.KMR_CELL_DROP_CNT_COUNT, F.KMR_WRAP_FLAGS, 5⟩
def KMR_DOWN_CNT : Cnt := ⟨F.KMR_DOWN_CNT_COUNT, F.KMR_WRAP_FLAGS, 6⟩
def KMR_RELAY_CNT : Cnt := ⟨F.KMR_RELAY_CNT_COUNT, F.KMR_DEV_WRAP_FLAGS, 0⟩
def KMR_HOPS_DROP_CNT : Cnt := ⟨F.KMR_HOPS_DROP_CNT_COUNT, F.KMR_DEV_WRAP_FLAGS, 1⟩
def KMR_ACK_LATE_CNT : Cnt := ⟨F.KMR_ACK_LATE_CNT_COUNT, F.KMR_DEV_WRAP_FLAGS, 2⟩
def KMR_SL_REBUILD_CNT : Cnt := ⟨F.KMR_SL_REBUILD_CNT_COUNT, F.KMR_DEV_WRAP_FLAGS, 3⟩
def HBM_RD_BYTES_CNT : Cnt := ⟨F.HBM_RD_BYTES_CNT_COUNT, F.HBM_WRAP_FLAGS, 0⟩
def HBM_WR_BYTES_CNT : Cnt := ⟨F.HBM_WR_BYTES_CNT_COUNT, F.HBM_WRAP_FLAGS, 1⟩
def HBM_CE_CNT : Cnt := ⟨F.HBM_CE_CNT_COUNT, F.HBM_WRAP_FLAGS, 2⟩
def HBM_UE_CNT : Cnt := ⟨F.HBM_UE_CNT_COUNT, F.HBM_WRAP_FLAGS, 3⟩
def HBM_FWD_CNT : Cnt := ⟨F.HBM_FWD_CNT_COUNT, F.HBM_WRAP_FLAGS, 4⟩
def HBM_PANIC_CNT : Cnt := ⟨F.HBM_PANIC_CNT_COUNT, F.HBM_WRAP_FLAGS, 5⟩
def HBM_REF_FORCE_CNT : Cnt := ⟨F.HBM_REF_FORCE_CNT_COUNT, F.HBM_WRAP_FLAGS, 6⟩
def HBM_PD_ENTRY_CNT : Cnt := ⟨F.HBM_PD_ENTRY_CNT_COUNT, F.HBM_WRAP_FLAGS, 7⟩
def HBM_SR_EXIT_CNT : Cnt := ⟨F.HBM_SR_EXIT_CNT_COUNT, F.HBM_WRAP_FLAGS, 8⟩
def CXL_RD_BYTES_CNT : Cnt := ⟨F.CXL_RD_BYTES_CNT_COUNT, F.CXL_WRAP_FLAGS, 0⟩
def CXL_WR_BYTES_CNT : Cnt := ⟨F.CXL_WR_BYTES_CNT_COUNT, F.CXL_WRAP_FLAGS, 1⟩
def CXL_ERR_RSP_CNT : Cnt := ⟨F.CXL_ERR_RSP_CNT_COUNT, F.CXL_WRAP_FLAGS, 2⟩
def CXL_XLT_MISS_CNT : Cnt := ⟨F.CXL_XLT_MISS_CNT_COUNT, F.CXL_WRAP_FLAGS, 3⟩
def NOC_FLIT_CNT : Cnt := ⟨F.NOC_FLIT_CNT_COUNT, F.NOC_WRAP_FLAGS, 0⟩
def NOC_WAKE_CNT : Cnt := ⟨F.NOC_WAKE_CNT_COUNT, F.NOC_WRAP_FLAGS, 1⟩
def NOC_HOLD_CNT : Cnt := ⟨F.NOC_HOLD_CNT_COUNT, F.NOC_WRAP_FLAGS, 2⟩
def NOC_TRACE_DROP_CNT : Cnt := ⟨F.NOC_TRACE_DROP_CNT_COUNT, F.NOC_WRAP_FLAGS, 3⟩
def NOC_LINK_CE_CNT : Cnt := ⟨F.NOC_LINK_CE_CNT_COUNT, F.NOC_WRAP_FLAGS, 4⟩
def NOC_LINK_UE_CNT : Cnt := ⟨F.NOC_LINK_UE_CNT_COUNT, F.NOC_WRAP_FLAGS, 5⟩
def NOC_MISROUTE_CNT : Cnt := ⟨F.NOC_MISROUTE_CNT_COUNT, F.NOC_WRAP_FLAGS, 6⟩
def FAB_RD_BYTES_CNT : Cnt := ⟨F.FAB_RD_BYTES_CNT_COUNT, F.FAB_WRAP_FLAGS, 0⟩
def FAB_WR_BYTES_CNT : Cnt := ⟨F.FAB_WR_BYTES_CNT_COUNT, F.FAB_WRAP_FLAGS, 1⟩
def FAB_PORT_ERR_CNT : Cnt := ⟨F.FAB_PORT_ERR_CNT_COUNT, F.FAB_WRAP_FLAGS, 2⟩
def FAB_RAM_CE_CNT : Cnt := ⟨F.FAB_RAM_CE_CNT_COUNT, F.FAB_WRAP_FLAGS, 3⟩
def FAB_RAM_UE_CNT : Cnt := ⟨F.FAB_RAM_UE_CNT_COUNT, F.FAB_WRAP_FLAGS, 4⟩
def FAB_MARK_SKIP_CNT : Cnt := ⟨F.FAB_MARK_SKIP_CNT_COUNT, F.FAB_WRAP_FLAGS, 5⟩
def FAB_VCCIO_FAULT_CNT : Cnt := ⟨F.FAB_VCCIO_FAULT_CNT_COUNT, F.FAB_WRAP_FLAGS, 6⟩
def SPS_CYCLE_CNT : Cnt := ⟨F.SPS_CYCLE_CNT_COUNT, F.SPS_WRAP_FLAGS, 0⟩
def SPS_SAT_CNT : Cnt := ⟨F.SPS_SAT_CNT_COUNT, F.SPS_WRAP_FLAGS, 1⟩
def SPS_OVF_CNT : Cnt := ⟨F.SPS_OVF_CNT_COUNT, F.SPS_WRAP_FLAGS, 2⟩
def SPS_MARK_OVR_CNT : Cnt := ⟨F.SPS_MARK_OVR_CNT_COUNT, F.SPS_WRAP_FLAGS, 3⟩
def CFG_LOAD_CNT : Cnt := ⟨F.CFG_LOAD_CNT_COUNT, F.CFG_WRAP_FLAGS, 0⟩
def CFG_FAIL_CNT : Cnt := ⟨F.CFG_FAIL_CNT_COUNT, F.CFG_WRAP_FLAGS, 1⟩
def CFG_FALLBACK_CNT : Cnt := ⟨F.CFG_FALLBACK_CNT_COUNT, F.CFG_WRAP_FLAGS, 2⟩
def CFG_PORT_DISCARD_CNT : Cnt := ⟨F.CFG_PORT_DISCARD_CNT_COUNT, F.CFG_WRAP_FLAGS, 3⟩
def MDT_GROUP_CNT : Cnt := ⟨F.MDT_GROUP_CNT_COUNT, F.MDT_WRAP_FLAGS, 0⟩
def MDT_COVER_CNT : Cnt := ⟨F.MDT_COVER_CNT_COUNT, F.MDT_WRAP_FLAGS, 1⟩
def MDT_CORR_CNT : Cnt := ⟨F.MDT_CORR_CNT_COUNT, F.MDT_WRAP_FLAGS, 2⟩
def MDT_REFETCH_CNT : Cnt := ⟨F.MDT_REFETCH_CNT_COUNT, F.MDT_WRAP_FLAGS, 3⟩
def MDT_UE_CNT : Cnt := ⟨F.MDT_UE_CNT_COUNT, F.MDT_WRAP_FLAGS, 4⟩
def MDT_RESET_CNT : Cnt := ⟨F.MDT_RESET_CNT_COUNT, F.MDT_WRAP_FLAGS, 5⟩
def LNE_RETRAIN_CNT : Cnt := ⟨F.LNE_RETRAIN_CNT_COUNT, F.LNE_WRAP_FLAGS, 0⟩
def LNE_WAKE_CNT : Cnt := ⟨F.LNE_WAKE_CNT_COUNT, F.LNE_WRAP_FLAGS, 1⟩
def LNE_LOCK_LOSS_CNT : Cnt := ⟨F.LNE_LOCK_LOSS_CNT_COUNT, F.LNE_WRAP_FLAGS, 2⟩
def PCI_RX_BYTES_CNT : Cnt := ⟨F.PCI_RX_BYTES_CNT_COUNT, F.PCI_WRAP_FLAGS, 0⟩
def PCI_TX_BYTES_CNT : Cnt := ⟨F.PCI_TX_BYTES_CNT_COUNT, F.PCI_WRAP_FLAGS, 1⟩
def PCI_ATS_REQ_CNT : Cnt := ⟨F.PCI_ATS_REQ_CNT_COUNT, F.PCI_WRAP_FLAGS, 2⟩
def PCI_PRQ_CNT : Cnt := ⟨F.PCI_PRQ_CNT_COUNT, F.PCI_WRAP_FLAGS, 3⟩
def PCI_INVAL_CNT : Cnt := ⟨F.PCI_INVAL_CNT_COUNT, F.PCI_WRAP_FLAGS, 4⟩
def PCI_ERR_CNT : Cnt := ⟨F.PCI_ERR_CNT_COUNT, F.PCI_WRAP_FLAGS, 5⟩
def CXL_PORT_REPLAY_CNT : Cnt := ⟨F.CXL_PORT_REPLAY_CNT_COUNT, F.CXL_PORT_WRAP_FLAGS, 0⟩
def CXL_PORT_DOWN_CNT : Cnt := ⟨F.CXL_PORT_DOWN_CNT_COUNT, F.CXL_PORT_WRAP_FLAGS, 1⟩
def CXL_PORT_ERR_CNT : Cnt := ⟨F.CXL_PORT_ERR_CNT_COUNT, F.CXL_PORT_WRAP_FLAGS, 2⟩
def FLD_MBX_REQ_CNT : Cnt := ⟨F.FLD_MBX_REQ_CNT_COUNT, F.FLD_MBX_WRAP_FLAGS, 0⟩
def FLD_MBX_ABORT_CNT : Cnt := ⟨F.FLD_MBX_ABORT_CNT_COUNT, F.FLD_MBX_WRAP_FLAGS, 1⟩
def FLD_EMCY_CNT : Cnt := ⟨F.FLD_EMCY_CNT_COUNT, F.FLD_MBX_WRAP_FLAGS, 2⟩
def FLD_EMCY_DROP_CNT : Cnt := ⟨F.FLD_EMCY_DROP_CNT_COUNT, F.FLD_MBX_WRAP_FLAGS, 3⟩
def FLD_FRAME_CNT : Cnt := ⟨F.FLD_FRAME_CNT_COUNT, F.FLD_WRAP_FLAGS, 0⟩
def FLD_FRAME_ERR_CNT : Cnt := ⟨F.FLD_FRAME_ERR_CNT_COUNT, F.FLD_WRAP_FLAGS, 1⟩
def FLD_PDO_OVR_CNT : Cnt := ⟨F.FLD_PDO_OVR_CNT_COUNT, F.FLD_WRAP_FLAGS, 2⟩
def FLD_WDOG_CNT : Cnt := ⟨F.FLD_WDOG_CNT_COUNT, F.FLD_WRAP_FLAGS, 3⟩
def FLD_DC_LOSS_CNT : Cnt := ⟨F.FLD_DC_LOSS_CNT_COUNT, F.FLD_WRAP_FLAGS, 4⟩
def RST_DEVICE_CNT : Cnt := ⟨F.RST_DEVICE_CNT_COUNT, F.RST_WRAP_FLAGS, 0⟩
def RST_MC_CNT : Cnt := ⟨F.RST_MC_CNT_COUNT, F.RST_WRAP_FLAGS, 1⟩
def RST_BLOCK_CNT : Cnt := ⟨F.RST_BLOCK_CNT_COUNT, F.RST_WRAP_FLAGS, 2⟩
def RST_BLOCK_REFUSED_CNT : Cnt := ⟨F.RST_BLOCK_REFUSED_CNT_COUNT, F.RST_WRAP_FLAGS, 3⟩
def PWR_ENERGY_CNT : Cnt := ⟨F.PWR_ENERGY_CNT_COUNT, F.PWR_WRAP_FLAGS, 0⟩
def PWR_BROWNOUT_CNT : Cnt := ⟨F.PWR_BROWNOUT_CNT_COUNT, F.PWR_WRAP_FLAGS, 1⟩
def PWR_RAIL_FAULT_CNT : Cnt := ⟨F.PWR_RAIL_FAULT_CNT_COUNT, F.PWR_WRAP_FLAGS, 2⟩
def PAC_FIRE_CNT : Cnt := ⟨F.PAC_FIRE_CNT_COUNT, F.PAC_WRAP_FLAGS, 0⟩
def PAC_REFUSED_CNT : Cnt := ⟨F.PAC_REFUSED_CNT_COUNT, F.PAC_WRAP_FLAGS, 1⟩
def PAC_THROTTLE_CYC_CNT : Cnt := ⟨F.PAC_THROTTLE_CYC_CNT_COUNT, F.PAC_WRAP_FLAGS, 2⟩
def PAC_TRIP_CYC_CNT : Cnt := ⟨F.PAC_TRIP_CYC_CNT_COUNT, F.PAC_WRAP_FLAGS, 3⟩
def SEC_VERIFY_CNT : Cnt := ⟨F.SEC_VERIFY_CNT_COUNT, F.SEC_WRAP_FLAGS, 0⟩
def SEC_VERIFY_FAIL_CNT : Cnt := ⟨F.SEC_VERIFY_FAIL_CNT_COUNT, F.SEC_WRAP_FLAGS, 1⟩
def SEC_ATT_CNT : Cnt := ⟨F.SEC_ATT_CNT_COUNT, F.SEC_WRAP_FLAGS, 2⟩
def TST_CDL_CNT : Cnt := ⟨F.TST_CDL_CNT_COUNT, F.TST_WRAP_FLAGS, 0⟩
def TST_CDL_FAIL_CNT : Cnt := ⟨F.TST_CDL_FAIL_CNT_COUNT, F.TST_WRAP_FLAGS, 1⟩
def TST_FENCE_CNT : Cnt := ⟨F.TST_FENCE_CNT_COUNT, F.TST_WRAP_FLAGS, 2⟩
end C

/-- The fields of each register, as its map lists them. -/
def Reg.fields : Reg → List Fld
  | .MXE_CTRL => [F.MXE_CTRL_EN, F.MXE_CTRL_DRAIN, F.MXE_CTRL_FORCE_EXACT, F.MXE_CTRL_PREEMPT, F.MXE_CTRL_GATE_EN, F.MXE_CTRL_CONTINUE, F.MXE_CTRL_DUTY]
  | .MXE_STATUS => [F.MXE_STATUS_BUSY, F.MXE_STATUS_STAGED, F.MXE_STATUS_ACTIVE_SET, F.MXE_STATUS_STOPPED, F.MXE_STATUS_CONFIG_ERR, F.MXE_STATUS_DATA_ERR, F.MXE_STATUS_RECORD_ERR, F.MXE_STATUS_THROTTLE_REFUSED, F.MXE_STATUS_CAUSE]
  | .MXE_POS => [F.MXE_POS_M_ROW, F.MXE_POS_KB, F.MXE_POS_NB]
  | .MXE_RESUME => [F.MXE_RESUME_NB_START, F.MXE_RESUME_VALID]
  | .MXE_INSTR_CNT => [F.MXE_INSTR_CNT_COUNT]
  | .MXE_PASS_CNT => [F.MXE_PASS_CNT_COUNT]
  | .MXE_PROD_CNT => [F.MXE_PROD_CNT_COUNT]
  | .MXE_SWAP_STALL_CNT => [F.MXE_SWAP_STALL_CNT_COUNT]
  | .MXE_FEED_STALL_CNT => [F.MXE_FEED_STALL_CNT_COUNT]
  | .MXE_WRAP => [F.MXE_WRAP_INSTR, F.MXE_WRAP_PASS, F.MXE_WRAP_PROD, F.MXE_WRAP_SWAP_STALL, F.MXE_WRAP_FEED_STALL]
  | .MXE_LAST_REC => [F.MXE_LAST_REC_DA]
  | .QNT_CTRL => [F.QNT_CTRL_SLOT_CLEAR, F.QNT_CTRL_HIST_CLEAR, F.QNT_CTRL_FAULT_EVT_EN]
  | .QNT_STATUS => [F.QNT_STATUS_BUSY, F.QNT_STATUS_CLEARING, F.QNT_STATUS_DESC_ERR, F.QNT_STATUS_THRESHOLD, F.QNT_STATUS_WARMUP, F.QNT_STATUS_SIDE_FULL, F.QNT_STATUS_STATS_SAT, F.QNT_STATUS_DESC_CAUSE]
  | .QNT_SLOT_RANGE => [F.QNT_SLOT_RANGE_LO, F.QNT_SLOT_RANGE_HI]
  | .QNT_SLOT_SEL => [F.QNT_SLOT_SEL_SLOT]
  | .QNT_SLOT_INFO => [F.QNT_SLOT_INFO_STEPS, F.QNT_SLOT_INFO_HEAD, F.QNT_SLOT_INFO_OWNER_Q, F.QNT_SLOT_INFO_OWNED, F.QNT_SLOT_INFO_WARM, F.QNT_SLOT_INFO_PENDING]
  | .QNT_SLOT_AMAX => [F.QNT_SLOT_AMAX_AMAX]
  | .QNT_CONV_CNT => [F.QNT_CONV_CNT_COUNT]
  | .QNT_ESC_CNT => [F.QNT_ESC_CNT_COUNT]
  | .QNT_DEGEN_CNT => [F.QNT_DEGEN_CNT_COUNT]
  | .QNT_WARMUP_CNT => [F.QNT_WARMUP_CNT_COUNT]
  | .QNT_TABLE_STALL_CNT => [F.QNT_TABLE_STALL_CNT_COUNT]
  | .QNT_WRAP => [F.QNT_WRAP_CONV, F.QNT_WRAP_ESC, F.QNT_WRAP_DEGEN, F.QNT_WRAP_WARMUP, F.QNT_WRAP_TABLE_STALL]
  | .VEC_CTRL => [F.VEC_CTRL_EN]
  | .VEC_STATUS => [F.VEC_STATUS_SPAD_INIT, F.VEC_STATUS_IMEM_REFUSED, F.VEC_STATUS_VMASK_CLIPPED, F.VEC_STATUS_REC_ERR, F.VEC_STATUS_Q_FAULT]
  | .VEC_IMEM_ADDR => [F.VEC_IMEM_ADDR_WORD]
  | .VEC_IMEM_DATA_LO => [F.VEC_IMEM_DATA_LO_DATA]
  | .VEC_IMEM_DATA_HI => [F.VEC_IMEM_DATA_HI_DATA]
  | .VEC_CTX_CTRL => [F.VEC_CTX_CTRL_SAVE, F.VEC_CTX_CTRL_RESTORE, F.VEC_CTX_CTRL_AUTOSTART, F.VEC_CTX_CTRL_SPAD_LEN]
  | .VEC_CTX_DA => [F.VEC_CTX_DA_DA]
  | .VEC_CTX_STATUS => [F.VEC_CTX_STATUS_BUSY, F.VEC_CTX_STATUS_QUIESCE, F.VEC_CTX_STATUS_DONE, F.VEC_CTX_STATUS_ERR, F.VEC_CTX_STATUS_CAUSE, F.VEC_CTX_STATUS_CYCLES]
  | .VEC_ISSUE_CNT => [F.VEC_ISSUE_CNT_COUNT]
  | .VEC_VOP_CNT => [F.VEC_VOP_CNT_COUNT]
  | .VEC_WRAP => [F.VEC_WRAP_ISSUE, F.VEC_WRAP_VOP, F.VEC_WRAP_QSTALL]
  | .VEC_Q_CTRL => [F.VEC_Q_CTRL_START, F.VEC_Q_CTRL_STOP, F.VEC_Q_CTRL_CLEAR_FAULT]
  | .VEC_Q_STAT => [F.VEC_Q_STAT_STATE, F.VEC_Q_STAT_WAIT_ON, F.VEC_Q_STAT_FAULT_CAUSE, F.VEC_Q_STAT_LOOP_DEPTH, F.VEC_Q_STAT_EVENT]
  | .VEC_Q_PC => [F.VEC_Q_PC_PC]
  | .VEC_Q_RANGE => [F.VEC_Q_RANGE_LO, F.VEC_Q_RANGE_HI, F.VEC_Q_RANGE_VMASK]
  | .VEC_Q_STALL_CNT => [F.VEC_Q_STALL_CNT_COUNT]
  | .STM_CTRL => [F.STM_CTRL_EN, F.STM_CTRL_RESUME, F.STM_CTRL_ABANDON, F.STM_CTRL_PANIC_EN, F.STM_CTRL_RATE, F.STM_CTRL_PANIC_TH]
  | .STM_STATUS => [F.STM_STATUS_BUSY, F.STM_STATUS_RUN_SET, F.STM_STATUS_ARMED, F.STM_STATUS_STATE, F.STM_STATUS_SCHED, F.STM_STATUS_PANIC, F.STM_STATUS_LATE, F.STM_STATUS_DESC_ERR, F.STM_STATUS_XLATE_ERR, F.STM_STATUS_DATA_ERR, F.STM_STATUS_CAUSE]
  | .STM_SET0 => [F.STM_SET0_LIST_DA, F.STM_SET0_COUNT, F.STM_SET0_NEXT]
  | .STM_SET1 => [F.STM_SET1_LIST_DA, F.STM_SET1_COUNT, F.STM_SET1_NEXT]
  | .STM_URGENCY => [F.STM_URGENCY_KEY, F.STM_URGENCY_U]
  | .STM_CKPT0 => [F.STM_CKPT0_DATA]
  | .STM_CKPT1 => [F.STM_CKPT1_DATA]
  | .STM_CKPT2 => [F.STM_CKPT2_DATA]
  | .STM_CKPT3 => [F.STM_CKPT3_DATA]
  | .STM_CKPT4 => [F.STM_CKPT4_DATA]
  | .STM_CKPT5 => [F.STM_CKPT5_DATA]
  | .STM_CKPT6 => [F.STM_CKPT6_DATA]
  | .STM_CKPT7 => [F.STM_CKPT7_DATA]
  | .STM_RD_BYTES_CNT => [F.STM_RD_BYTES_CNT_COUNT]
  | .STM_WR_BYTES_CNT => [F.STM_WR_BYTES_CNT_COUNT]
  | .STM_DESC_CNT => [F.STM_DESC_CNT_COUNT]
  | .STM_PANIC_CNT => [F.STM_PANIC_CNT_COUNT]
  | .STM_FAULT_CNT => [F.STM_FAULT_CNT_COUNT]
  | .STM_WRAP => [F.STM_WRAP_RD_BYTES, F.STM_WRAP_WR_BYTES, F.STM_WRAP_DESC, F.STM_WRAP_PANIC, F.STM_WRAP_FAULT]
  | .HUR_CTRL => [F.HUR_CTRL_EN, F.HUR_CTRL_DROP_EVT_EN]
  | .HUR_STATUS => [F.HUR_STATUS_BATON_REJ, F.HUR_STATUS_BATON_FULL, F.HUR_STATUS_STATE_REFUSED]
  | .HUR_FE_CTRL => [F.HUR_FE_CTRL_DA, F.HUR_FE_CTRL_MODE, F.HUR_FE_CTRL_MISS, F.HUR_FE_CTRL_FULL]
  | .HUR_FE_DATA => [F.HUR_FE_DATA_DATA]
  | .HUR_ARRIVE_CNT => [F.HUR_ARRIVE_CNT_COUNT]
  | .HUR_COMPLETE_CNT => [F.HUR_COMPLETE_CNT_COUNT]
  | .HUR_BATON_CNT => [F.HUR_BATON_CNT_COUNT]
  | .HUR_BATON_DROP_CNT => [F.HUR_BATON_DROP_CNT_COUNT]
  | .HUR_WRAP => [F.HUR_WRAP_ARRIVE, F.HUR_WRAP_COMPLETE, F.HUR_WRAP_BATON, F.HUR_WRAP_BATON_DROP]
  | .HUR_WIN_BASE => [F.HUR_WIN_BASE_DA]
  | .HUR_WIN_LEN => [F.HUR_WIN_LEN_LEN]
  | .HUR_WIN_CREDIT => [F.HUR_WIN_CREDIT_CREDIT]
  | .HUR_WIN_STAT => [F.HUR_WIN_STAT_HELD, F.HUR_WIN_STAT_HEAD_TAG, F.HUR_WIN_STAT_HEAD_CNT]
  | .HUR_CFG => [F.HUR_CFG_TARGET, F.HUR_CFG_MODE, F.HUR_CFG_WIN]
  | .HUR_STATE => [F.HUR_STATE_COUNT, F.HUR_STATE_GEN, F.HUR_STATE_WAITERS]
  | .HUR_VALUE => [F.HUR_VALUE_VALUE, F.HUR_VALUE_SRC_NODE]
  | .HUR_OP => [F.HUR_OP_OP, F.HUR_OP_ARG]
  | .TRK_CTRL => [F.TRK_CTRL_EN]
  | .TRK_CFG => [F.TRK_CFG_MODE, F.TRK_CFG_SRC, F.TRK_CFG_INDEX_EN, F.TRK_CFG_BOTH, F.TRK_CFG_FILT, F.TRK_CFG_FLT, F.TRK_CFG_HOLDOFF]
  | .TRK_EPL => [F.TRK_EPL_EPL]
  | .TRK_STALL_TO => [F.TRK_STALL_TO_CYCLES]
  | .TRK_NOMINAL => [F.TRK_NOMINAL_CYCLES]
  | .TRK_PRESET_LAP => [F.TRK_PRESET_LAP_LAP]
  | .TRK_PRESET_ANGLE => [F.TRK_PRESET_ANGLE_ANGLE]
  | .TRK_DC_START => [F.TRK_DC_START_NS]
  | .TRK_DC_CYCLE => [F.TRK_DC_CYCLE_NS]
  | .TRK_FWD_COMP => [F.TRK_FWD_COMP_CYCLES]
  | .TRK_LAP => [F.TRK_LAP_LAP]
  | .TRK_ANGLE => [F.TRK_ANGLE_ANGLE]
  | .TRK_INC => [F.TRK_INC_INC]
  | .TRK_STATUS => [F.TRK_STATUS_STATE, F.TRK_STATUS_STALL, F.TRK_STATUS_LATE, F.TRK_STATUS_INDEX_ERR, F.TRK_STATUS_REVERSE, F.TRK_STATUS_CFG_REFUSED, F.TRK_STATUS_LAP_WRAP, F.TRK_STATUS_LATE_OVF, F.TRK_STATUS_LATE_MARK]
  | .TRK_STEP => [F.TRK_STEP_ANGLE, F.TRK_STEP_LAPS]
  | .TRK_DEFICIT => [F.TRK_DEFICIT_EDGES]
  | .TRK_EDGE_CNT => [F.TRK_EDGE_CNT_COUNT]
  | .TRK_STALL_CNT => [F.TRK_STALL_CNT_COUNT]
  | .TRK_LATE_CNT => [F.TRK_LATE_CNT_COUNT]
  | .TRK_LATE_MARK_CNT => [F.TRK_LATE_MARK_CNT_COUNT]
  | .TRK_IDX_ERR_CNT => [F.TRK_IDX_ERR_CNT_COUNT]
  | .TRK_REV_CNT => [F.TRK_REV_CNT_COUNT]
  | .TRK_WRAP => [F.TRK_WRAP_FLAGS]
  | .TRK_LATE_LOG0 => [F.TRK_LATE_LOG0_DATA]
  | .TRK_LATE_LOG1 => [F.TRK_LATE_LOG1_DATA]
  | .TRK_LATE_LOG2 => [F.TRK_LATE_LOG2_DATA]
  | .TRK_LATE_LOG3 => [F.TRK_LATE_LOG3_DATA]
  | .TRK_EPOCH => [F.TRK_EPOCH_EPOCH]
  | .TRK_FL_LAP => [F.TRK_FL_LAP_LAP]
  | .TRK_FL_SET => [F.TRK_FL_SET_ANGLE, F.TRK_FL_SET_TRK, F.TRK_FL_SET_HUR]
  | .TRK_FL_GEN => [F.TRK_FL_GEN_G, F.TRK_FL_GEN_ALT, F.TRK_FL_GEN_ALT_EN]
  | .TRK_FL_STAT => [F.TRK_FL_STAT_ARM, F.TRK_FL_STAT_ARMED, F.TRK_FL_STAT_MET, F.TRK_FL_STAT_LATE, F.TRK_FL_STAT_MARGIN]
  | .SES_CTRL => [F.SES_CTRL_EN, F.SES_CTRL_SLICE_HOLD]
  | .SES_STATUS => [F.SES_STATUS_DB_DROP, F.SES_STATUS_ADMIT_REFUSED, F.SES_STATUS_CLOCK_REFUSED, F.SES_STATUS_FL_DISARMED]
  | .SES_TABLE_DA => [F.SES_TABLE_DA_DA]
  | .SES_ADMIT => [F.SES_ADMIT_SESSION, F.SES_ADMIT_ACTION]
  | .SES_ADMIT_STAT => [F.SES_ADMIT_STAT_BUSY, F.SES_ADMIT_STAT_CAUSE, F.SES_ADMIT_STAT_SESSION]
  | .SES_CLOCK => [F.SES_CLOCK_MODE, F.SES_CLOCK_STEP]
  | .SES_SLOTS_USED => [F.SES_SLOTS_USED_SLOTS]
  | .SES_RING_PIN => [F.SES_RING_PIN_PINNED, F.SES_RING_PIN_SESSION, F.SES_RING_PIN_RING, F.SES_RING_PIN_PIN]
  | .SES_SWITCH_CNT => [F.SES_SWITCH_CNT_COUNT]
  | .SES_DOORBELL_CNT => [F.SES_DOORBELL_CNT_COUNT]
  | .SES_DB_DROP_CNT => [F.SES_DB_DROP_CNT_COUNT]
  | .SES_RING_MISS_CNT => [F.SES_RING_MISS_CNT_COUNT]
  | .SES_FL_DISARM_CNT => [F.SES_FL_DISARM_CNT_COUNT]
  | .SES_WRAP => [F.SES_WRAP_FLAGS]
  | .SES_DOORBELL => [F.SES_DOORBELL_DATA]
  | .SES_RESIDENT => [F.SES_RESIDENT_SESSION, F.SES_RESIDENT_VALID, F.SES_RESIDENT_SCHED, F.SES_RESIDENT_SWITCHING]
  | .KMR_CTRL => [F.KMR_CTRL_EN, F.KMR_CTRL_RENEG, F.KMR_CTRL_SCHED_EN, F.KMR_CTRL_REF_OUT, F.KMR_CTRL_CAP_RATE, F.KMR_CTRL_CAP_LANES, F.KMR_CTRL_CAP_FEC, F.KMR_CTRL_MIN_RAW, F.KMR_CTRL_DOWN_TH]
  | .KMR_STATUS => [F.KMR_STATUS_STATE, F.KMR_STATUS_NO_MODE, F.KMR_STATUS_MODE_LOW, F.KMR_STATUS_LOST, F.KMR_STATUS_DOWN_EVT]
  | .KMR_MODE => [F.KMR_MODE_LANES, F.KMR_MODE_RATE, F.KMR_MODE_FEC, F.KMR_MODE_GROUP, F.KMR_MODE_PMASKS]
  | .KMR_PARTNER => [F.KMR_PARTNER_NODE, F.KMR_PARTNER_PORT, F.KMR_PARTNER_ROLE]
  | .KMR_PARTNER_SERIAL => [F.KMR_PARTNER_SERIAL_SERIAL]
  | .KMR_LAT => [F.KMR_LAT_ONE_WAY, F.KMR_LAT_RTT_MIN]
  | .KMR_FRAME => [F.KMR_FRAME_LEN, F.KMR_FRAME_BANK, F.KMR_FRAME_SWAP, F.KMR_FRAME_FRAME_NO]
  | .KMR_TX_CELL_CNT => [F.KMR_TX_CELL_CNT_COUNT]
  | .KMR_RX_CELL_CNT => [F.KMR_RX_CELL_CNT_COUNT]
  | .KMR_CW_CORR_CNT => [F.KMR_CW_CORR_CNT_COUNT]
  | .KMR_CW_UNCORR_CNT => [F.KMR_CW_UNCORR_CNT_COUNT]
  | .KMR_CELL_LOST_CNT => [F.KMR_CELL_LOST_CNT_COUNT]
  | .KMR_CELL_DROP_CNT => [F.KMR_CELL_DROP_CNT_COUNT]
  | .KMR_DOWN_CNT => [F.KMR_DOWN_CNT_COUNT]
  | .KMR_WRAP => [F.KMR_WRAP_FLAGS]
  | .KMR_SLOT_TABLE => [F.KMR_SLOT_TABLE_DATA]
  | .KMR_ROLE => [F.KMR_ROLE_ROLE, F.KMR_ROLE_STANDBY, F.KMR_ROLE_NODE, F.KMR_ROLE_DOMAIN]
  | .KMR_DEV_STATUS => [F.KMR_DEV_STATUS_SL_CHANGED, F.KMR_DEV_STATUS_REF_SWITCH, F.KMR_DEV_STATUS_TAKEOVER, F.KMR_DEV_STATUS_REF_LOST, F.KMR_DEV_STATUS_SPREAD_IN]
  | .KMR_REF_CTRL => [F.KMR_REF_CTRL_SRC, F.KMR_REF_CTRL_PRIMARY, F.KMR_REF_CTRL_SECONDARY, F.KMR_REF_CTRL_SSC]
  | .KMR_TRK_FWD => [F.KMR_TRK_FWD_PORTS, F.KMR_TRK_FWD_AUTO, F.KMR_TRK_FWD_PERIOD, F.KMR_TRK_FWD_STBY_TO]
  | .KMR_ACK_TO => [F.KMR_ACK_TO_CYCLES]
  | .KMR_SHAPE => [F.KMR_SHAPE_DA, F.KMR_SHAPE_GEN]
  | .KMR_SL_CTRL => [F.KMR_SL_CTRL_TIMEOUT, F.KMR_SL_CTRL_GEN]
  | .KMR_RELAY_CNT => [F.KMR_RELAY_CNT_COUNT]
  | .KMR_HOPS_DROP_CNT => [F.KMR_HOPS_DROP_CNT_COUNT]
  | .KMR_ACK_LATE_CNT => [F.KMR_ACK_LATE_CNT_COUNT]
  | .KMR_SL_REBUILD_CNT => [F.KMR_SL_REBUILD_CNT_COUNT]
  | .KMR_DEV_WRAP => [F.KMR_DEV_WRAP_FLAGS]
  | .KMR_ROUTE_GRP => [F.KMR_ROUTE_GRP_REQ_PORT, F.KMR_ROUTE_GRP_REQ_CH, F.KMR_ROUTE_GRP_RSP_PORT, F.KMR_ROUTE_GRP_RSP_CH, F.KMR_ROUTE_GRP_SYN_PORT, F.KMR_ROUTE_GRP_SYN_CH, F.KMR_ROUTE_GRP_VALID]
  | .KMR_ROUTE_MBR => [F.KMR_ROUTE_MBR_REQ_PORT, F.KMR_ROUTE_MBR_REQ_CH, F.KMR_ROUTE_MBR_RSP_PORT, F.KMR_ROUTE_MBR_RSP_CH, F.KMR_ROUTE_MBR_SYN_PORT, F.KMR_ROUTE_MBR_SYN_CH, F.KMR_ROUTE_MBR_VALID]
  | .KMR_START_LIST0 => [F.KMR_START_LIST0_DATA]
  | .KMR_START_LIST1 => [F.KMR_START_LIST1_DATA]
  | .KMR_START_LIST2 => [F.KMR_START_LIST2_DATA]
  | .KMR_START_LIST3 => [F.KMR_START_LIST3_DATA]
  | .KMR_POS_TABLE => [F.KMR_POS_TABLE_KEY, F.KMR_POS_TABLE_VALID]
  | .HBM_CTRL => [F.HBM_CTRL_SCRUB_EN, F.HBM_CTRL_SR_EN, F.HBM_CTRL_UE_EVT_EN, F.HBM_CTRL_SCRUB_H]
  | .HBM_STATUS => [F.HBM_STATUS_READY, F.HBM_STATUS_TRAIN_STATE, F.HBM_STATUS_STACK_FAIL, F.HBM_STATUS_CE, F.HBM_STATUS_UE, F.HBM_STATUS_MAP_REFUSED, F.HBM_STATUS_REF_FORCED, F.HBM_STATUS_TRAIN_FALLBACK]
  | .HBM_PD_CTRL => [F.HBM_PD_CTRL_PD_TIMER, F.HBM_PD_CTRL_SR_TIMER]
  | .HBM_REF_CTRL => [F.HBM_REF_CTRL_POSTPONE]
  | .HBM_WQ_CTRL => [F.HBM_WQ_CTRL_HIGH, F.HBM_WQ_CTRL_LOW]
  | .HBM_RT_PORTS => [F.HBM_RT_PORTS_PORTS, F.HBM_RT_PORTS_LOW]
  | .HBM_TRAIN => [F.HBM_TRAIN_FORCE_FULL, F.HBM_TRAIN_MIN_MARGIN, F.HBM_TRAIN_WORST, F.HBM_TRAIN_TEMP_DELTA]
  | .HBM_ERR_LOG => [F.HBM_ERR_LOG_DA, F.HBM_ERR_LOG_PC, F.HBM_ERR_LOG_WRITE, F.HBM_ERR_LOG_VALID]
  | .HBM_RD_BYTES_CNT => [F.HBM_RD_BYTES_CNT_COUNT]
  | .HBM_WR_BYTES_CNT => [F.HBM_WR_BYTES_CNT_COUNT]
  | .HBM_CE_CNT => [F.HBM_CE_CNT_COUNT]
  | .HBM_UE_CNT => [F.HBM_UE_CNT_COUNT]
  | .HBM_FWD_CNT => [F.HBM_FWD_CNT_COUNT]
  | .HBM_PANIC_CNT => [F.HBM_PANIC_CNT_COUNT]
  | .HBM_REF_FORCE_CNT => [F.HBM_REF_FORCE_CNT_COUNT]
  | .HBM_PD_ENTRY_CNT => [F.HBM_PD_ENTRY_CNT_COUNT]
  | .HBM_SR_EXIT_CNT => [F.HBM_SR_EXIT_CNT_COUNT]
  | .HBM_WRAP => [F.HBM_WRAP_FLAGS]
  | .HBM_PC_STATE => [F.HBM_PC_STATE_STATE, F.HBM_PC_STATE_MARGIN]
  | .HBM_BAND => [F.HBM_BAND_MODE, F.HBM_BAND_GRAIN]
  | .CXL_TIER_CTRL => [F.CXL_TIER_CTRL_EN]
  | .CXL_TIER_STATUS => [F.CXL_TIER_STATUS_LINK_UP, F.CXL_TIER_STATUS_HOTADD, F.CXL_TIER_STATUS_SURPRISE, F.CXL_TIER_STATUS_PRQ_PENDING]
  | .CXL_XLT_INV => [F.CXL_XLT_INV_DA, F.CXL_XLT_INV_PAGES, F.CXL_XLT_INV_BUSY]
  | .CXL_PRQ_REC => [F.CXL_PRQ_REC_DA, F.CXL_PRQ_REC_PRG, F.CXL_PRQ_REC_WRITE]
  | .CXL_PRQ_RESP => [F.CXL_PRQ_RESP_PRG, F.CXL_PRQ_RESP_SUCCESS]
  | .CXL_CPL_TO => [F.CXL_CPL_TO_CYCLES]
  | .CXL_RD_BYTES_CNT => [F.CXL_RD_BYTES_CNT_COUNT]
  | .CXL_WR_BYTES_CNT => [F.CXL_WR_BYTES_CNT_COUNT]
  | .CXL_ERR_RSP_CNT => [F.CXL_ERR_RSP_CNT_COUNT]
  | .CXL_XLT_MISS_CNT => [F.CXL_XLT_MISS_CNT_COUNT]
  | .CXL_WRAP => [F.CXL_WRAP_FLAGS]
  | .CXL_WIN_CFG => [F.CXL_WIN_CFG_EN, F.CXL_WIN_CFG_XLT, F.CXL_WIN_CFG_BASE, F.CXL_WIN_CFG_SIZE_M1, F.CXL_WIN_CFG_WAYS, F.CXL_WIN_CFG_GRAN]
  | .CXL_WIN_TGT => [F.CXL_WIN_TGT_TARGETS]
  | .CXL_WIN_XLT => [F.CXL_WIN_XLT_TABLE_DA]
  | .CXL_WIN_STAT => [F.CXL_WIN_STAT_TGT_DOWN, F.CXL_WIN_STAT_DIS_REFUSED, F.CXL_WIN_STAT_CFG_REFUSED]
  | .NOC_CTRL => [F.NOC_CTRL_TRACE_EN, F.NOC_CTRL_TRACE_AGE]
  | .NOC_STATUS => [F.NOC_STATUS_LINK_CE, F.NOC_STATUS_LINK_UE, F.NOC_STATUS_MISROUTE, F.NOC_STATUS_TRACE_DROP, F.NOC_STATUS_WAKE_FAIL, F.NOC_STATUS_TRACE_WRAP, F.NOC_STATUS_PRB_REFUSED]
  | .NOC_PWR_CTRL => [F.NOC_PWR_CTRL_CLUSTER_EN, F.NOC_PWR_CTRL_FPORT_EN, F.NOC_PWR_CTRL_LINK_EN, F.NOC_PWR_CTRL_IDLE_TIMER]
  | .NOC_PWR_STAT => [F.NOC_PWR_STAT_CLUSTER, F.NOC_PWR_STAT_FPORT, F.NOC_PWR_STAT_LINK, F.NOC_PWR_STAT_WAKING]
  | .NOC_TRACE_BASE => [F.NOC_TRACE_BASE_DA]
  | .NOC_TRACE_LEN => [F.NOC_TRACE_LEN_PAGES]
  | .NOC_TRACE_WP => [F.NOC_TRACE_WP_DA]
  | .NOC_CPL_TO => [F.NOC_CPL_TO_CYCLES]
  | .NOC_FLIT_CNT => [F.NOC_FLIT_CNT_COUNT]
  | .NOC_WAKE_CNT => [F.NOC_WAKE_CNT_COUNT]
  | .NOC_HOLD_CNT => [F.NOC_HOLD_CNT_COUNT]
  | .NOC_TRACE_DROP_CNT => [F.NOC_TRACE_DROP_CNT_COUNT]
  | .NOC_LINK_CE_CNT => [F.NOC_LINK_CE_CNT_COUNT]
  | .NOC_LINK_UE_CNT => [F.NOC_LINK_UE_CNT_COUNT]
  | .NOC_MISROUTE_CNT => [F.NOC_MISROUTE_CNT_COUNT]
  | .NOC_WRAP => [F.NOC_WRAP_FLAGS]
  | .NOC_PRB_WRAP => [F.NOC_PRB_WRAP_FLAGS]
  | .NOC_PRB_CTRL => [F.NOC_PRB_CTRL_EN, F.NOC_PRB_CTRL_ROUTER, F.NOC_PRB_CTRL_PORT, F.NOC_PRB_CTRL_DIR, F.NOC_PRB_CTRL_PLANES, F.NOC_PRB_CTRL_MODE, F.NOC_PRB_CTRL_TRACE, F.NOC_PRB_CTRL_SAMPLE]
  | .NOC_PRB_FILT => [F.NOC_PRB_FILT_CLASS, F.NOC_PRB_FILT_OP, F.NOC_PRB_FILT_OP_MASK, F.NOC_PRB_FILT_PANIC_ONLY, F.NOC_PRB_FILT_SCHED_ONLY]
  | .NOC_PRB_UNIT => [F.NOC_PRB_UNIT_SRC, F.NOC_PRB_UNIT_SRC_MASK, F.NOC_PRB_UNIT_DST, F.NOC_PRB_UNIT_DST_MASK]
  | .NOC_PRB_DA_LO => [F.NOC_PRB_DA_LO_DA]
  | .NOC_PRB_DA_HI => [F.NOC_PRB_DA_HI_DA]
  | .NOC_PRB_CNT => [F.NOC_PRB_CNT_COUNT]
  | .FAB_CTRL => [F.FAB_CTRL_UE_EVT_EN]
  | .FAB_STATUS => [F.FAB_STATUS_CONFIGURED, F.FAB_STATUS_PORT_ERR, F.FAB_STATUS_RAM_CE, F.FAB_STATUS_RAM_UE, F.FAB_STATUS_MARK_SKIP, F.FAB_STATUS_VCCIO_BAD]
  | .FAB_RD_BYTES_CNT => [F.FAB_RD_BYTES_CNT_COUNT]
  | .FAB_WR_BYTES_CNT => [F.FAB_WR_BYTES_CNT_COUNT]
  | .FAB_PORT_ERR_CNT => [F.FAB_PORT_ERR_CNT_COUNT]
  | .FAB_RAM_CE_CNT => [F.FAB_RAM_CE_CNT_COUNT]
  | .FAB_RAM_UE_CNT => [F.FAB_RAM_UE_CNT_COUNT]
  | .FAB_MARK_SKIP_CNT => [F.FAB_MARK_SKIP_CNT_COUNT]
  | .FAB_VCCIO_FAULT_CNT => [F.FAB_VCCIO_FAULT_CNT_COUNT]
  | .FAB_WRAP => [F.FAB_WRAP_FLAGS]
  | .FAB_PLL_CTRL => [F.FAB_PLL_CTRL_EN, F.FAB_PLL_CTRL_N_M1, F.FAB_PLL_CTRL_M_M1, F.FAB_PLL_CTRL_DIV]
  | .FAB_PLL_STAT => [F.FAB_PLL_STAT_LOCK, F.FAB_PLL_STAT_ALIGNED, F.FAB_PLL_STAT_LOCK_LOST]
  | .FAB_BANK_CFG => [F.FAB_BANK_CFG_VCCIO, F.FAB_BANK_CFG_WIDE]
  | .FAB_BANK_STAT => [F.FAB_BANK_STAT_MV, F.FAB_BANK_STAT_HELD]
  | .FAB_PORT_CTRL => [F.FAB_PORT_CTRL_EN, F.FAB_PORT_CTRL_ISOLATE, F.FAB_PORT_CTRL_TGT_EN, F.FAB_PORT_CTRL_REMOTE_EN]
  | .FAB_PORT_WIN_LO => [F.FAB_PORT_WIN_LO_DA]
  | .FAB_PORT_WIN_HI => [F.FAB_PORT_WIN_HI_DA]
  | .FAB_PORT_STAT => [F.FAB_PORT_STAT_ISOLATED, F.FAB_PORT_STAT_RD_OUT, F.FAB_PORT_STAT_WR_OUT, F.FAB_PORT_STAT_WIN_ERR, F.FAB_PORT_STAT_TGT_TO]
  | .FAB_MARK_CFG => [F.FAB_MARK_CFG_EN, F.FAB_MARK_CFG_TRK, F.FAB_MARK_CFG_CLK, F.FAB_MARK_CFG_ANGLE]
  | .FAB_MARK_LAP => [F.FAB_MARK_LAP_LAP]
  | .FAB_MARK_STEP => [F.FAB_MARK_STEP_STEP]
  | .FAB_MARK_STAT => [F.FAB_MARK_STAT_FIRED, F.FAB_MARK_STAT_SKIP]
  | .SPS_CTRL => [F.SPS_CTRL_START, F.SPS_CTRL_STOP, F.SPS_CTRL_CLEAR_FAULT, F.SPS_CTRL_SRST, F.SPS_CTRL_MSEL]
  | .SPS_STATUS => [F.SPS_STATUS_STATE, F.SPS_STATUS_WAIT_ON, F.SPS_STATUS_PEND, F.SPS_STATUS_IN_REP, F.SPS_STATUS_SCALE, F.SPS_STATUS_ALIGNED, F.SPS_STATUS_LIMIT, F.SPS_STATUS_OVF, F.SPS_STATUS_MARK_OVR, F.SPS_STATUS_IMEM_REFUSED]
  | .SPS_PC => [F.SPS_PC_PC]
  | .SPS_MEM_ADDR => [F.SPS_MEM_ADDR_ADDR, F.SPS_MEM_ADDR_SPACE, F.SPS_MEM_ADDR_INC]
  | .SPS_MEM_DATA => [F.SPS_MEM_DATA_DATA]
  | .SPS_CYCLE_CNT => [F.SPS_CYCLE_CNT_COUNT]
  | .SPS_SAT_CNT => [F.SPS_SAT_CNT_COUNT]
  | .SPS_OVF_CNT => [F.SPS_OVF_CNT_COUNT]
  | .SPS_MARK_OVR_CNT => [F.SPS_MARK_OVR_CNT_COUNT]
  | .SPS_WRAP => [F.SPS_WRAP_FLAGS]
  | .CFG_CTRL => [F.CFG_CTRL_SSP_EN, F.CFG_CTRL_SPP_EN, F.CFG_CTRL_FAIL_EVT_EN]
  | .CFG_STATUS => [F.CFG_STATUS_BUSY, F.CFG_STATUS_PHASE, F.CFG_STATUS_DONE, F.CFG_STATUS_FAIL, F.CFG_STATUS_FALLBACK, F.CFG_STATUS_OCHRE_FAIL, F.CFG_STATUS_REFUSED, F.CFG_STATUS_REFUSE_CAUSE]
  | .CFG_LOAD => [F.CFG_LOAD_START, F.CFG_LOAD_ABORT, F.CFG_LOAD_SRC, F.CFG_LOAD_KEEP, F.CFG_LOAD_SCOPE]
  | .CFG_SRC => [F.CFG_SRC_ADDR, F.CFG_SRC_SCOPE_HI]
  | .CFG_PROGRESS => [F.CFG_PROGRESS_BYTES, F.CFG_PROGRESS_FRAMES]
  | .CFG_FAIL => [F.CFG_FAIL_CAUSE, F.CFG_FAIL_WRITTEN, F.CFG_FAIL_FRAME, F.CFG_FAIL_OFFSET]
  | .CFG_LOAD_CNT => [F.CFG_LOAD_CNT_COUNT]
  | .CFG_FAIL_CNT => [F.CFG_FAIL_CNT_COUNT]
  | .CFG_FALLBACK_CNT => [F.CFG_FALLBACK_CNT_COUNT]
  | .CFG_PORT_DISCARD_CNT => [F.CFG_PORT_DISCARD_CNT_COUNT]
  | .CFG_WRAP => [F.CFG_WRAP_FLAGS]
  | .CFG_REGION => [F.CFG_REGION_STATE, F.CFG_REGION_RELEASE, F.CFG_REGION_SOURCE]
  | .MDT_CTRL => [F.MDT_CTRL_EN, F.MDT_CTRL_REPAIR_EN, F.MDT_CTRL_REFETCH_EN, F.MDT_CTRL_EVT_EN, F.MDT_CTRL_WDOG]
  | .MDT_STATUS => [F.MDT_STATUS_RUNNING, F.MDT_STATUS_CORR, F.MDT_STATUS_UE, F.MDT_STATUS_TMR_MISMATCH, F.MDT_STATUS_WDOG, F.MDT_STATUS_SIG_ECC, F.MDT_STATUS_FAILED_GROUPS]
  | .MDT_POS => [F.MDT_POS_GROUP, F.MDT_POS_COVER_US]
  | .MDT_LOG => [F.MDT_LOG_GROUP, F.MDT_LOG_FRAME, F.MDT_LOG_REFETCHED, F.MDT_LOG_VALID]
  | .MDT_GROUP_CNT => [F.MDT_GROUP_CNT_COUNT]
  | .MDT_COVER_CNT => [F.MDT_COVER_CNT_COUNT]
  | .MDT_CORR_CNT => [F.MDT_CORR_CNT_COUNT]
  | .MDT_REFETCH_CNT => [F.MDT_REFETCH_CNT_COUNT]
  | .MDT_UE_CNT => [F.MDT_UE_CNT_COUNT]
  | .MDT_RESET_CNT => [F.MDT_RESET_CNT_COUNT]
  | .MDT_WRAP => [F.MDT_WRAP_FLAGS]
  | .LNE_CTRL => [F.LNE_CTRL_EN, F.LNE_CTRL_TX_SLEEP_EN, F.LNE_CTRL_RX_SLEEP_EN, F.LNE_CTRL_FORCE_FULL]
  | .LNE_STAT => [F.LNE_STAT_STATE, F.LNE_STAT_RATE, F.LNE_STAT_TX_ASLEEP, F.LNE_STAT_RX_ASLEEP, F.LNE_STAT_FOM, F.LNE_STAT_HIST_USED, F.LNE_STAT_HIST_NEW, F.LNE_STAT_POL_INV]
  | .LNE_THRESH => [F.LNE_THRESH_FOM_MIN, F.LNE_THRESH_FOM_GOOD, F.LNE_THRESH_IDLE_TIMER]
  | .LNE_EQ => [F.LNE_EQ_CTLE, F.LNE_EQ_PRESET, F.LNE_EQ_DFE]
  | .LNE_RETRAIN_CNT => [F.LNE_RETRAIN_CNT_COUNT]
  | .LNE_WAKE_CNT => [F.LNE_WAKE_CNT_COUNT]
  | .LNE_LOCK_LOSS_CNT => [F.LNE_LOCK_LOSS_CNT_COUNT]
  | .LNE_WRAP => [F.LNE_WRAP_FLAGS]
  | .PCI_CTRL => [F.PCI_CTRL_L1_EN, F.PCI_CTRL_L0P_EN, F.PCI_CTRL_LINK_EVT_EN]
  | .PCI_STATUS => [F.PCI_STATUS_LINK_UP, F.PCI_STATUS_SPEED, F.PCI_STATUS_WIDTH, F.PCI_STATUS_FLIT, F.PCI_STATUS_LTSSM, F.PCI_STATUS_ATS_EN, F.PCI_STATUS_PRI_EN, F.PCI_STATUS_BME, F.PCI_STATUS_D3, F.PCI_STATUS_LINK_DOWN, F.PCI_STATUS_FLR, F.PCI_STATUS_PIN_INVAL, F.PCI_STATUS_BAR2_ERR, F.PCI_STATUS_AER]
  | .PCI_BAR2_BASE => [F.PCI_BAR2_BASE_DA]
  | .PCI_BAR2_SIZE => [F.PCI_BAR2_SIZE_CODE]
  | .PCI_MSIX_RAISE => [F.PCI_MSIX_RAISE_VECTOR]
  | .PCI_ATC_STAT => [F.PCI_ATC_STAT_ENTRIES, F.PCI_ATC_STAT_LOCKED, F.PCI_ATC_STAT_PRQ_OUT]
  | .PCI_RX_BYTES_CNT => [F.PCI_RX_BYTES_CNT_COUNT]
  | .PCI_TX_BYTES_CNT => [F.PCI_TX_BYTES_CNT_COUNT]
  | .PCI_ATS_REQ_CNT => [F.PCI_ATS_REQ_CNT_COUNT]
  | .PCI_PRQ_CNT => [F.PCI_PRQ_CNT_COUNT]
  | .PCI_INVAL_CNT => [F.PCI_INVAL_CNT_COUNT]
  | .PCI_ERR_CNT => [F.PCI_ERR_CNT_COUNT]
  | .PCI_WRAP => [F.PCI_WRAP_FLAGS]
  | .CXL_PORT_CTRL => [F.CXL_PORT_CTRL_EN, F.CXL_PORT_CTRL_REMOVE, F.CXL_PORT_CTRL_SSC]
  | .CXL_PORT_STAT => [F.CXL_PORT_STAT_LINK_UP, F.CXL_PORT_STAT_SPEED, F.CXL_PORT_STAT_WIDTH, F.CXL_PORT_STAT_LTSSM, F.CXL_PORT_STAT_REMOVED, F.CXL_PORT_STAT_REMOVE_REFUSED, F.CXL_PORT_STAT_LINK_DOWN]
  | .CXL_CFG_ADDR => [F.CXL_CFG_ADDR_REG, F.CXL_CFG_ADDR_FUNC, F.CXL_CFG_ADDR_DEV, F.CXL_CFG_ADDR_BUS, F.CXL_CFG_ADDR_TYPE1, F.CXL_CFG_ADDR_BUSY, F.CXL_CFG_ADDR_DONE, F.CXL_CFG_ADDR_ERR, F.CXL_CFG_ADDR_RD]
  | .CXL_CFG_DATA => [F.CXL_CFG_DATA_DATA]
  | .CXL_PORT_REPLAY_CNT => [F.CXL_PORT_REPLAY_CNT_COUNT]
  | .CXL_PORT_DOWN_CNT => [F.CXL_PORT_DOWN_CNT_COUNT]
  | .CXL_PORT_ERR_CNT => [F.CXL_PORT_ERR_CNT_COUNT]
  | .CXL_PORT_WRAP => [F.CXL_PORT_WRAP_FLAGS]
  | .FLD_MBX_CTRL => [F.FLD_MBX_CTRL_GO, F.FLD_MBX_CTRL_IRQ_EN]
  | .FLD_MBX_STAT => [F.FLD_MBX_STAT_BUSY, F.FLD_MBX_STAT_DONE, F.FLD_MBX_STAT_REQ_REFUSED, F.FLD_MBX_STAT_EMCY_OVF, F.FLD_MBX_STAT_EMCY_PEND]
  | .FLD_MBX_EMCY => [F.FLD_MBX_EMCY_MSG]
  | .FLD_MBX_REQ_CNT => [F.FLD_MBX_REQ_CNT_COUNT]
  | .FLD_MBX_ABORT_CNT => [F.FLD_MBX_ABORT_CNT_COUNT]
  | .FLD_EMCY_CNT => [F.FLD_EMCY_CNT_COUNT]
  | .FLD_EMCY_DROP_CNT => [F.FLD_EMCY_DROP_CNT_COUNT]
  | .FLD_MBX_WRAP => [F.FLD_MBX_WRAP_FLAGS]
  | .FLD_MBX_REQ_BUF => [F.FLD_MBX_REQ_BUF_DATA]
  | .FLD_MBX_RSP_BUF => [F.FLD_MBX_RSP_BUF_DATA]
  | .FLD_CTRL => [F.FLD_CTRL_EN, F.FLD_CTRL_WDOG_EVT_EN]
  | .FLD_STATUS => [F.FLD_STATUS_AL_STATE, F.FLD_STATUS_AL_ERR, F.FLD_STATUS_AL_CODE, F.FLD_STATUS_LINK, F.FLD_STATUS_DC_SYNC, F.FLD_STATUS_WDOG, F.FLD_STATUS_DC_LOST, F.FLD_STATUS_PDO_OVR]
  | .FLD_DC_CTRL => [F.FLD_DC_CTRL_SYNC_WIN, F.FLD_DC_CTRL_ACQ, F.FLD_DC_CTRL_LOSS]
  | .FLD_DC_TIME => [F.FLD_DC_TIME_NS]
  | .FLD_PDO_OUT => [F.FLD_PDO_OUT_DA, F.FLD_PDO_OUT_HUR, F.FLD_PDO_OUT_CLUSTER]
  | .FLD_PDO_IN => [F.FLD_PDO_IN_DA, F.FLD_PDO_IN_LEAD]
  | .FLD_FRAME_CNT => [F.FLD_FRAME_CNT_COUNT]
  | .FLD_FRAME_ERR_CNT => [F.FLD_FRAME_ERR_CNT_COUNT]
  | .FLD_PDO_OVR_CNT => [F.FLD_PDO_OVR_CNT_COUNT]
  | .FLD_WDOG_CNT => [F.FLD_WDOG_CNT_COUNT]
  | .FLD_DC_LOSS_CNT => [F.FLD_DC_LOSS_CNT_COUNT]
  | .FLD_WRAP => [F.FLD_WRAP_FLAGS]
  | .RST_CTRL => [F.RST_CTRL_REMOTE_EN]
  | .RST_STATUS => [F.RST_STATUS_IN_BLOCK, F.RST_STATUS_BLOCK_REFUSED, F.RST_STATUS_REMOTE_DROP, F.RST_STATUS_TRIM_FALLBACK]
  | .RST_CAUSE => [F.RST_CAUSE_SOURCES, F.RST_CAUSE_FIRST, F.RST_CAUSE_MC_ONLY]
  | .RST_BOOT => [F.RST_BOOT_BIN, F.RST_BOOT_ROLE, F.RST_BOOT_FABRIC_SRC, F.RST_BOOT_FIELD_EN, F.RST_BOOT_AMBIG, F.RST_BOOT_CODE]
  | .RST_BLOCK => [F.RST_BLOCK_KIND, F.RST_BLOCK_INDEX, F.RST_BLOCK_HOLD, F.RST_BLOCK_GO, F.RST_BLOCK_HELD]
  | .RST_SRC_CFG => [F.RST_SRC_CFG_PERST_SCOPE, F.RST_SRC_CFG_HOT_SCOPE, F.RST_SRC_CFG_WDOG_SCOPE, F.RST_SRC_CFG_DRIVE]
  | .RST_TRIM => [F.RST_TRIM_STATE, F.RST_TRIM_TRIES]
  | .RST_DEVICE_CNT => [F.RST_DEVICE_CNT_COUNT]
  | .RST_MC_CNT => [F.RST_MC_CNT_COUNT]
  | .RST_BLOCK_CNT => [F.RST_BLOCK_CNT_COUNT]
  | .RST_BLOCK_REFUSED_CNT => [F.RST_BLOCK_REFUSED_CNT_COUNT]
  | .RST_WRAP => [F.RST_WRAP_FLAGS]
  | .PWR_CTRL => [F.PWR_CTRL_RAIL_EVT_EN]
  | .PWR_STATUS => [F.PWR_STATUS_IN_RANGE, F.PWR_STATUS_Q_ON, F.PWR_STATUS_BROWNOUT, F.PWR_STATUS_RAIL_FAULT, F.PWR_STATUS_Q_REFUSED]
  | .PWR_INPUT => [F.PWR_INPUT_V, F.PWR_INPUT_I, F.PWR_INPUT_MW]
  | .PWR_AVG => [F.PWR_AVG_MW, F.PWR_AVG_PEAK]
  | .PWR_QCTRL => [F.PWR_QCTRL_OFF]
  | .PWR_CAUSE => [F.PWR_CAUSE_LAST_OFF]
  | .PWR_ENERGY_CNT => [F.PWR_ENERGY_CNT_COUNT]
  | .PWR_BROWNOUT_CNT => [F.PWR_BROWNOUT_CNT_COUNT]
  | .PWR_RAIL_FAULT_CNT => [F.PWR_RAIL_FAULT_CNT_COUNT]
  | .PWR_WRAP => [F.PWR_WRAP_FLAGS]
  | .PAC_CTRL => [F.PAC_CTRL_PROG_EN, F.PAC_CTRL_AIN_EN]
  | .PAC_STATUS => [F.PAC_STATUS_THROTTLE, F.PAC_STATUS_TRIP, F.PAC_STATUS_THROTTLE_REFUSED, F.PAC_STATUS_WDOG_WARN, F.PAC_STATUS_LOG_OVF, F.PAC_STATUS_CFG_REFUSED]
  | .PAC_WDOG => [F.PAC_WDOG_KICK, F.PAC_WDOG_PERIOD_MS, F.PAC_WDOG_LEFT_US]
  | .PAC_TRIP => [F.PAC_TRIP_POWER, F.PAC_TRIP_THERM]
  | .PAC_LOG => [F.PAC_LOG_HEAT, F.PAC_LOG_KIND, F.PAC_LOG_CLUSTER, F.PAC_LOG_ENGINE, F.PAC_LOG_VALID, F.PAC_LOG_T]
  | .PAC_FIRE_CNT => [F.PAC_FIRE_CNT_COUNT]
  | .PAC_REFUSED_CNT => [F.PAC_REFUSED_CNT_COUNT]
  | .PAC_THROTTLE_CYC_CNT => [F.PAC_THROTTLE_CYC_CNT_COUNT]
  | .PAC_TRIP_CYC_CNT => [F.PAC_TRIP_CYC_CNT_COUNT]
  | .PAC_WRAP => [F.PAC_WRAP_FLAGS]
  | .PAC_CEIL => [F.PAC_CEIL_CEIL, F.PAC_CEIL_TRIP, F.PAC_CEIL_REFUSED]
  | .PAC_TEMP => [F.PAC_TEMP_T, F.PAC_TEMP_MAX]
  | .PAC_VMON => [F.PAC_VMON_MV]
  | .PAC_AIN => [F.PAC_AIN_CODE]
  | .PAC_HEAT_CFG => [F.PAC_HEAT_CFG_EN, F.PAC_HEAT_CFG_SRC, F.PAC_HEAT_CFG_INDEX, F.PAC_HEAT_CFG_SHIFT, F.PAC_HEAT_CFG_OP, F.PAC_HEAT_CFG_PERSIST]
  | .PAC_HEAT_TH => [F.PAC_HEAT_TH_TH, F.PAC_HEAT_TH_HYS]
  | .PAC_HEAT_ACT => [F.PAC_HEAT_ACT_SIG, F.PAC_HEAT_ACT_THR, F.PAC_HEAT_ACT_RST, F.PAC_HEAT_ACT_CEIL, F.PAC_HEAT_ACT_CLMASK, F.PAC_HEAT_ACT_RKIND, F.PAC_HEAT_ACT_RINDEX]
  | .PAC_HEAT_STAT => [F.PAC_HEAT_STAT_ACTIVE, F.PAC_HEAT_STAT_FIRED, F.PAC_HEAT_STAT_REFUSED, F.PAC_HEAT_STAT_FILT]
  | .SEC_CTRL => [F.SEC_CTRL_EVT_EN]
  | .SEC_STATUS => [F.SEC_STATUS_OWNER_MODE, F.SEC_STATUS_REVOKED, F.SEC_STATUS_DBG, F.SEC_STATUS_RECOVERY, F.SEC_STATUS_RB_REFUSED, F.SEC_STATUS_SLOT_REFUSED, F.SEC_STATUS_DBG_FAIL]
  | .SEC_BOOT => [F.SEC_BOOT_SLOT, F.SEC_BOOT_TRIAL, F.SEC_BOOT_TRIES, F.SEC_BOOT_FALLBACK, F.SEC_BOOT_REVERTED, F.SEC_BOOT_SWITCH, F.SEC_BOOT_CONFIRM, F.SEC_BOOT_VERSION]
  | .SEC_ROLLBACK => [F.SEC_ROLLBACK_CTR, F.SEC_ROLLBACK_FLOOR, F.SEC_ROLLBACK_GO, F.SEC_ROLLBACK_FLOORS]
  | .SEC_VERIFY => [F.SEC_VERIFY_SLOT, F.SEC_VERIFY_GO, F.SEC_VERIFY_PASS, F.SEC_VERIFY_STEP]
  | .SEC_EXTEND => [F.SEC_EXTEND_D]
  | .SEC_ATT => [F.SEC_ATT_DA, F.SEC_ATT_GO]
  | .SEC_DBG => [F.SEC_DBG_CHAL, F.SEC_DBG_GO, F.SEC_DBG_DA]
  | .SEC_RCV => [F.SEC_RCV_NEXT]
  | .SEC_VERIFY_CNT => [F.SEC_VERIFY_CNT_COUNT]
  | .SEC_VERIFY_FAIL_CNT => [F.SEC_VERIFY_FAIL_CNT_COUNT]
  | .SEC_ATT_CNT => [F.SEC_ATT_CNT_COUNT]
  | .SEC_WRAP => [F.SEC_WRAP_FLAGS]
  | .SEC_M => [F.SEC_M_DATA]
  | .SEC_ATT_NONCE => [F.SEC_ATT_NONCE_DATA]
  | .SEC_DBG_NONCE => [F.SEC_DBG_NONCE_DATA]
  | .SEC_RCV_BUF => [F.SEC_RCV_BUF_DATA]
  | .TST_CTRL => [F.TST_CTRL_EVT_EN]
  | .TST_STATUS => [F.TST_STATUS_FENCE_REFUSED, F.TST_STATUS_CDL_REFUSED]
  | .TST_FENCE => [F.TST_FENCE_CLUSTER, F.TST_FENCE_QUARTER]
  | .TST_CDL => [F.TST_CDL_GO, F.TST_CDL_STEP, F.TST_CDL_PARKED, F.TST_CDL_FAILED]
  | .TST_CDL_CNT => [F.TST_CDL_CNT_COUNT]
  | .TST_CDL_FAIL_CNT => [F.TST_CDL_FAIL_CNT_COUNT]
  | .TST_FENCE_CNT => [F.TST_FENCE_CNT_COUNT]
  | .TST_WRAP => [F.TST_WRAP_FLAGS]
  | .TST_CDL_LAST => [F.TST_CDL_LAST_DATA]

/-- The kind of unit that owns a register, and the register's offset within the unit. -/
def Reg.place : Reg → Bank × Nat
  | .MXE_CTRL => (.engine, 0x0)
  | .MXE_STATUS => (.engine, 0x8)
  | .MXE_POS => (.engine, 0x10)
  | .MXE_RESUME => (.engine, 0x18)
  | .MXE_INSTR_CNT => (.engine, 0x20)
  | .MXE_PASS_CNT => (.engine, 0x28)
  | .MXE_PROD_CNT => (.engine, 0x30)
  | .MXE_SWAP_STALL_CNT => (.engine, 0x38)
  | .MXE_FEED_STALL_CNT => (.engine, 0x40)
  | .MXE_WRAP => (.engine, 0x48)
  | .MXE_LAST_REC => (.engine, 0x50)
  | .QNT_CTRL => (.core, 0xC00)
  | .QNT_STATUS => (.core, 0xC08)
  | .QNT_SLOT_RANGE => (.core, 0xC10)
  | .QNT_SLOT_SEL => (.core, 0xC18)
  | .QNT_SLOT_INFO => (.core, 0xC20)
  | .QNT_SLOT_AMAX => (.core, 0xC28)
  | .QNT_CONV_CNT => (.core, 0xC30)
  | .QNT_ESC_CNT => (.core, 0xC38)
  | .QNT_DEGEN_CNT => (.core, 0xC40)
  | .QNT_WARMUP_CNT => (.core, 0xC48)
  | .QNT_TABLE_STALL_CNT => (.core, 0xC50)
  | .QNT_WRAP => (.core, 0xC58)
  | .VEC_CTRL => (.core, 0x0)
  | .VEC_STATUS => (.core, 0x8)
  | .VEC_IMEM_ADDR => (.core, 0x10)
  | .VEC_IMEM_DATA_LO => (.core, 0x18)
  | .VEC_IMEM_DATA_HI => (.core, 0x20)
  | .VEC_CTX_CTRL => (.core, 0x28)
  | .VEC_CTX_DA => (.core, 0x30)
  | .VEC_CTX_STATUS => (.core, 0x38)
  | .VEC_ISSUE_CNT => (.core, 0x40)
  | .VEC_VOP_CNT => (.core, 0x48)
  | .VEC_WRAP => (.core, 0x50)
  | .VEC_Q_CTRL => (.queue, 0x0)
  | .VEC_Q_STAT => (.queue, 0x8)
  | .VEC_Q_PC => (.queue, 0x10)
  | .VEC_Q_RANGE => (.queue, 0x18)
  | .VEC_Q_STALL_CNT => (.qstall, 0x0)
  | .STM_CTRL => (.stream, 0x0)
  | .STM_STATUS => (.stream, 0x8)
  | .STM_SET0 => (.stream, 0x10)
  | .STM_SET1 => (.stream, 0x18)
  | .STM_URGENCY => (.stream, 0x20)
  | .STM_CKPT0 => (.stream, 0x40)
  | .STM_CKPT1 => (.stream, 0x48)
  | .STM_CKPT2 => (.stream, 0x50)
  | .STM_CKPT3 => (.stream, 0x58)
  | .STM_CKPT4 => (.stream, 0x60)
  | .STM_CKPT5 => (.stream, 0x68)
  | .STM_CKPT6 => (.stream, 0x70)
  | .STM_CKPT7 => (.stream, 0x78)
  | .STM_RD_BYTES_CNT => (.stream, 0x80)
  | .STM_WR_BYTES_CNT => (.stream, 0x88)
  | .STM_DESC_CNT => (.stream, 0x90)
  | .STM_PANIC_CNT => (.stream, 0x98)
  | .STM_FAULT_CNT => (.stream, 0xA0)
  | .STM_WRAP => (.stream, 0xA8)
  | .HUR_CTRL => (.cluster, 0x20000)
  | .HUR_STATUS => (.cluster, 0x20008)
  | .HUR_FE_CTRL => (.cluster, 0x20010)
  | .HUR_FE_DATA => (.cluster, 0x20018)
  | .HUR_ARRIVE_CNT => (.cluster, 0x20020)
  | .HUR_COMPLETE_CNT => (.cluster, 0x20028)
  | .HUR_BATON_CNT => (.cluster, 0x20030)
  | .HUR_BATON_DROP_CNT => (.cluster, 0x20038)
  | .HUR_WRAP => (.cluster, 0x20040)
  | .HUR_WIN_BASE => (.window, 0x0)
  | .HUR_WIN_LEN => (.window, 0x8)
  | .HUR_WIN_CREDIT => (.window, 0x10)
  | .HUR_WIN_STAT => (.window, 0x18)
  | .HUR_CFG => (.hurdle, 0x0)
  | .HUR_STATE => (.hurdle, 0x8)
  | .HUR_VALUE => (.hurdle, 0x10)
  | .HUR_OP => (.hurdle, 0x18)
  | .TRK_CTRL => (.track, 0x0)
  | .TRK_CFG => (.track, 0x8)
  | .TRK_EPL => (.track, 0x10)
  | .TRK_STALL_TO => (.track, 0x18)
  | .TRK_NOMINAL => (.track, 0x20)
  | .TRK_PRESET_LAP => (.track, 0x28)
  | .TRK_PRESET_ANGLE => (.track, 0x30)
  | .TRK_DC_START => (.track, 0x38)
  | .TRK_DC_CYCLE => (.track, 0x40)
  | .TRK_FWD_COMP => (.track, 0x48)
  | .TRK_LAP => (.track, 0x50)
  | .TRK_ANGLE => (.track, 0x58)
  | .TRK_INC => (.track, 0x60)
  | .TRK_STATUS => (.track, 0x68)
  | .TRK_STEP => (.track, 0x70)
  | .TRK_DEFICIT => (.track, 0x78)
  | .TRK_EDGE_CNT => (.track, 0x80)
  | .TRK_STALL_CNT => (.track, 0x88)
  | .TRK_LATE_CNT => (.track, 0x90)
  | .TRK_LATE_MARK_CNT => (.track, 0x98)
  | .TRK_IDX_ERR_CNT => (.track, 0xA0)
  | .TRK_REV_CNT => (.track, 0xA8)
  | .TRK_WRAP => (.track, 0xB0)
  | .TRK_LATE_LOG0 => (.hub, 0x500800)
  | .TRK_LATE_LOG1 => (.hub, 0x500808)
  | .TRK_LATE_LOG2 => (.hub, 0x500810)
  | .TRK_LATE_LOG3 => (.hub, 0x500818)
  | .TRK_EPOCH => (.hub, 0x500820)
  | .TRK_FL_LAP => (.slot, 0x0)
  | .TRK_FL_SET => (.slot, 0x8)
  | .TRK_FL_GEN => (.slot, 0x10)
  | .TRK_FL_STAT => (.slot, 0x18)
  | .SES_CTRL => (.hub, 0x700000)
  | .SES_STATUS => (.hub, 0x700008)
  | .SES_TABLE_DA => (.hub, 0x700010)
  | .SES_ADMIT => (.hub, 0x700018)
  | .SES_ADMIT_STAT => (.hub, 0x700020)
  | .SES_CLOCK => (.hub, 0x700028)
  | .SES_SLOTS_USED => (.hub, 0x700030)
  | .SES_RING_PIN => (.hub, 0x700038)
  | .SES_SWITCH_CNT => (.hub, 0x700040)
  | .SES_DOORBELL_CNT => (.hub, 0x700048)
  | .SES_DB_DROP_CNT => (.hub, 0x700050)
  | .SES_RING_MISS_CNT => (.hub, 0x700058)
  | .SES_FL_DISARM_CNT => (.hub, 0x700060)
  | .SES_WRAP => (.hub, 0x700068)
  | .SES_DOORBELL => (.hub, 0x710000)
  | .SES_RESIDENT => (.resident, 0x0)
  | .KMR_CTRL => (.kport, 0x0)
  | .KMR_STATUS => (.kport, 0x8)
  | .KMR_MODE => (.kport, 0x10)
  | .KMR_PARTNER => (.kport, 0x18)
  | .KMR_PARTNER_SERIAL => (.kport, 0x20)
  | .KMR_LAT => (.kport, 0x28)
  | .KMR_FRAME => (.kport, 0x30)
  | .KMR_TX_CELL_CNT => (.kport, 0x38)
  | .KMR_RX_CELL_CNT => (.kport, 0x40)
  | .KMR_CW_CORR_CNT => (.kport, 0x48)
  | .KMR_CW_UNCORR_CNT => (.kport, 0x50)
  | .KMR_CELL_LOST_CNT => (.kport, 0x58)
  | .KMR_CELL_DROP_CNT => (.kport, 0x60)
  | .KMR_DOWN_CNT => (.kport, 0x68)
  | .KMR_WRAP => (.kport, 0x70)
  | .KMR_SLOT_TABLE => (.kslot, 0x0)
  | .KMR_ROLE => (.hub, 0x10B0000)
  | .KMR_DEV_STATUS => (.hub, 0x10B0008)
  | .KMR_REF_CTRL => (.hub, 0x10B0010)
  | .KMR_TRK_FWD => (.hub, 0x10B0018)
  | .KMR_ACK_TO => (.hub, 0x10B0020)
  | .KMR_SHAPE => (.hub, 0x10B0028)
  | .KMR_SL_CTRL => (.hub, 0x10B0030)
  | .KMR_RELAY_CNT => (.hub, 0x10B0038)
  | .KMR_HOPS_DROP_CNT => (.hub, 0x10B0040)
  | .KMR_ACK_LATE_CNT => (.hub, 0x10B0048)
  | .KMR_SL_REBUILD_CNT => (.hub, 0x10B0050)
  | .KMR_DEV_WRAP => (.hub, 0x10B0058)
  | .KMR_ROUTE_GRP => (.kgrp, 0x0)
  | .KMR_ROUTE_MBR => (.kmbr, 0x0)
  | .KMR_START_LIST0 => (.kstart, 0x0)
  | .KMR_START_LIST1 => (.kstart, 0x8)
  | .KMR_START_LIST2 => (.kstart, 0x10)
  | .KMR_START_LIST3 => (.kstart, 0x18)
  | .KMR_POS_TABLE => (.kpos, 0x0)
  | .HBM_CTRL => (.quarter, 0x0)
  | .HBM_STATUS => (.quarter, 0x8)
  | .HBM_PD_CTRL => (.quarter, 0x10)
  | .HBM_REF_CTRL => (.quarter, 0x18)
  | .HBM_WQ_CTRL => (.quarter, 0x20)
  | .HBM_RT_PORTS => (.quarter, 0x28)
  | .HBM_TRAIN => (.quarter, 0x30)
  | .HBM_ERR_LOG => (.quarter, 0x38)
  | .HBM_RD_BYTES_CNT => (.quarter, 0x40)
  | .HBM_WR_BYTES_CNT => (.quarter, 0x48)
  | .HBM_CE_CNT => (.quarter, 0x50)
  | .HBM_UE_CNT => (.quarter, 0x58)
  | .HBM_FWD_CNT => (.quarter, 0x60)
  | .HBM_PANIC_CNT => (.quarter, 0x68)
  | .HBM_REF_FORCE_CNT => (.quarter, 0x70)
  | .HBM_PD_ENTRY_CNT => (.quarter, 0x78)
  | .HBM_SR_EXIT_CNT => (.quarter, 0x80)
  | .HBM_WRAP => (.quarter, 0x88)
  | .HBM_PC_STATE => (.pchan, 0x0)
  | .HBM_BAND => (.band, 0x0)
  | .CXL_TIER_CTRL => (.hub, 0x680000)
  | .CXL_TIER_STATUS => (.hub, 0x680008)
  | .CXL_XLT_INV => (.hub, 0x680010)
  | .CXL_PRQ_REC => (.hub, 0x680018)
  | .CXL_PRQ_RESP => (.hub, 0x680020)
  | .CXL_CPL_TO => (.hub, 0x680028)
  | .CXL_RD_BYTES_CNT => (.hub, 0x680030)
  | .CXL_WR_BYTES_CNT => (.hub, 0x680038)
  | .CXL_ERR_RSP_CNT => (.hub, 0x680040)
  | .CXL_XLT_MISS_CNT => (.hub, 0x680048)
  | .CXL_WRAP => (.hub, 0x680050)
  | .CXL_WIN_CFG => (.cxlwin, 0x0)
  | .CXL_WIN_TGT => (.cxlwin, 0x8)
  | .CXL_WIN_XLT => (.cxlwin, 0x10)
  | .CXL_WIN_STAT => (.cxlwin, 0x18)
  | .NOC_CTRL => (.quarter, 0xC0000)
  | .NOC_STATUS => (.quarter, 0xC0008)
  | .NOC_PWR_CTRL => (.quarter, 0xC0010)
  | .NOC_PWR_STAT => (.quarter, 0xC0018)
  | .NOC_TRACE_BASE => (.quarter, 0xC0020)
  | .NOC_TRACE_LEN => (.quarter, 0xC0028)
  | .NOC_TRACE_WP => (.quarter, 0xC0030)
  | .NOC_CPL_TO => (.quarter, 0xC0038)
  | .NOC_FLIT_CNT => (.quarter, 0xC0040)
  | .NOC_WAKE_CNT => (.quarter, 0xC0048)
  | .NOC_HOLD_CNT => (.quarter, 0xC0050)
  | .NOC_TRACE_DROP_CNT => (.quarter, 0xC0058)
  | .NOC_LINK_CE_CNT => (.quarter, 0xC0060)
  | .NOC_LINK_UE_CNT => (.quarter, 0xC0068)
  | .NOC_MISROUTE_CNT => (.quarter, 0xC0070)
  | .NOC_WRAP => (.quarter, 0xC0078)
  | .NOC_PRB_WRAP => (.quarter, 0xC0080)
  | .NOC_PRB_CTRL => (.probe, 0x0)
  | .NOC_PRB_FILT => (.probe, 0x8)
  | .NOC_PRB_UNIT => (.probe, 0x10)
  | .NOC_PRB_DA_LO => (.probe, 0x18)
  | .NOC_PRB_DA_HI => (.probe, 0x20)
  | .NOC_PRB_CNT => (.probe, 0x28)
  | .FAB_CTRL => (.quarter, 0x100000)
  | .FAB_STATUS => (.quarter, 0x100008)
  | .FAB_RD_BYTES_CNT => (.quarter, 0x100010)
  | .FAB_WR_BYTES_CNT => (.quarter, 0x100018)
  | .FAB_PORT_ERR_CNT => (.quarter, 0x100020)
  | .FAB_RAM_CE_CNT => (.quarter, 0x100028)
  | .FAB_RAM_UE_CNT => (.quarter, 0x100030)
  | .FAB_MARK_SKIP_CNT => (.quarter, 0x100038)
  | .FAB_VCCIO_FAULT_CNT => (.quarter, 0x100040)
  | .FAB_WRAP => (.quarter, 0x100048)
  | .FAB_PLL_CTRL => (.fabpll, 0x0)
  | .FAB_PLL_STAT => (.fabpll, 0x8)
  | .FAB_BANK_CFG => (.fabbank, 0x0)
  | .FAB_BANK_STAT => (.fabbank, 0x8)
  | .FAB_PORT_CTRL => (.fabport, 0x0)
  | .FAB_PORT_WIN_LO => (.fabport, 0x8)
  | .FAB_PORT_WIN_HI => (.fabport, 0x10)
  | .FAB_PORT_STAT => (.fabport, 0x18)
  | .FAB_MARK_CFG => (.fabmark, 0x0)
  | .FAB_MARK_LAP => (.fabmark, 0x8)
  | .FAB_MARK_STEP => (.fabmark, 0x10)
  | .FAB_MARK_STAT => (.fabmark, 0x18)
  | .SPS_CTRL => (.slice, 0x0)
  | .SPS_STATUS => (.slice, 0x8)
  | .SPS_PC => (.slice, 0x10)
  | .SPS_MEM_ADDR => (.slice, 0x18)
  | .SPS_MEM_DATA => (.slice, 0x20)
  | .SPS_CYCLE_CNT => (.slice, 0x28)
  | .SPS_SAT_CNT => (.slice, 0x30)
  | .SPS_OVF_CNT => (.slice, 0x38)
  | .SPS_MARK_OVR_CNT => (.slice, 0x40)
  | .SPS_WRAP => (.slice, 0x48)
  | .CFG_CTRL => (.hub, 0x100000)
  | .CFG_STATUS => (.hub, 0x100008)
  | .CFG_LOAD => (.hub, 0x100010)
  | .CFG_SRC => (.hub, 0x100018)
  | .CFG_PROGRESS => (.hub, 0x100020)
  | .CFG_FAIL => (.hub, 0x100028)
  | .CFG_LOAD_CNT => (.hub, 0x100030)
  | .CFG_FAIL_CNT => (.hub, 0x100038)
  | .CFG_FALLBACK_CNT => (.hub, 0x100040)
  | .CFG_PORT_DISCARD_CNT => (.hub, 0x100048)
  | .CFG_WRAP => (.hub, 0x100050)
  | .CFG_REGION => (.region, 0x0)
  | .MDT_CTRL => (.hub, 0x108000)
  | .MDT_STATUS => (.hub, 0x108008)
  | .MDT_POS => (.hub, 0x108010)
  | .MDT_LOG => (.hub, 0x108018)
  | .MDT_GROUP_CNT => (.hub, 0x108020)
  | .MDT_COVER_CNT => (.hub, 0x108028)
  | .MDT_CORR_CNT => (.hub, 0x108030)
  | .MDT_REFETCH_CNT => (.hub, 0x108038)
  | .MDT_UE_CNT => (.hub, 0x108040)
  | .MDT_RESET_CNT => (.hub, 0x108048)
  | .MDT_WRAP => (.hub, 0x108050)
  | .LNE_CTRL => (.lane, 0x0)
  | .LNE_STAT => (.lane, 0x8)
  | .LNE_THRESH => (.lane, 0x10)
  | .LNE_EQ => (.lane, 0x18)
  | .LNE_RETRAIN_CNT => (.lane, 0x20)
  | .LNE_WAKE_CNT => (.lane, 0x28)
  | .LNE_LOCK_LOSS_CNT => (.lane, 0x30)
  | .LNE_WRAP => (.lane, 0x38)
  | .PCI_CTRL => (.hub, 0x600000)
  | .PCI_STATUS => (.hub, 0x600008)
  | .PCI_BAR2_BASE => (.hub, 0x600010)
  | .PCI_BAR2_SIZE => (.hub, 0x600018)
  | .PCI_MSIX_RAISE => (.hub, 0x600020)
  | .PCI_ATC_STAT => (.hub, 0x600028)
  | .PCI_RX_BYTES_CNT => (.hub, 0x600030)
  | .PCI_TX_BYTES_CNT => (.hub, 0x600038)
  | .PCI_ATS_REQ_CNT => (.hub, 0x600040)
  | .PCI_PRQ_CNT => (.hub, 0x600048)
  | .PCI_INVAL_CNT => (.hub, 0x600050)
  | .PCI_ERR_CNT => (.hub, 0x600058)
  | .PCI_WRAP => (.hub, 0x600060)
  | .CXL_PORT_CTRL => (.cxlport, 0x0)
  | .CXL_PORT_STAT => (.cxlport, 0x8)
  | .CXL_CFG_ADDR => (.cxlport, 0x10)
  | .CXL_CFG_DATA => (.cxlport, 0x18)
  | .CXL_PORT_REPLAY_CNT => (.cxlport, 0x20)
  | .CXL_PORT_DOWN_CNT => (.cxlport, 0x28)
  | .CXL_PORT_ERR_CNT => (.cxlport, 0x30)
  | .CXL_PORT_WRAP => (.cxlport, 0x38)
  | .FLD_MBX_CTRL => (.hub, 0x300000)
  | .FLD_MBX_STAT => (.hub, 0x300008)
  | .FLD_MBX_EMCY => (.hub, 0x300010)
  | .FLD_MBX_REQ_CNT => (.hub, 0x300018)
  | .FLD_MBX_ABORT_CNT => (.hub, 0x300020)
  | .FLD_EMCY_CNT => (.hub, 0x300028)
  | .FLD_EMCY_DROP_CNT => (.hub, 0x300030)
  | .FLD_MBX_WRAP => (.hub, 0x300038)
  | .FLD_MBX_REQ_BUF => (.mbxreq, 0x0)
  | .FLD_MBX_RSP_BUF => (.mbxrsp, 0x0)
  | .FLD_CTRL => (.hub, 0x400000)
  | .FLD_STATUS => (.hub, 0x400008)
  | .FLD_DC_CTRL => (.hub, 0x400010)
  | .FLD_DC_TIME => (.hub, 0x400018)
  | .FLD_PDO_OUT => (.hub, 0x400020)
  | .FLD_PDO_IN => (.hub, 0x400028)
  | .FLD_FRAME_CNT => (.hub, 0x400030)
  | .FLD_FRAME_ERR_CNT => (.hub, 0x400038)
  | .FLD_PDO_OVR_CNT => (.hub, 0x400040)
  | .FLD_WDOG_CNT => (.hub, 0x400048)
  | .FLD_DC_LOSS_CNT => (.hub, 0x400050)
  | .FLD_WRAP => (.hub, 0x400058)
  | .RST_CTRL => (.hub, 0x0)
  | .RST_STATUS => (.hub, 0x8)
  | .RST_CAUSE => (.hub, 0x10)
  | .RST_BOOT => (.hub, 0x18)
  | .RST_BLOCK => (.hub, 0x20)
  | .RST_SRC_CFG => (.hub, 0x28)
  | .RST_TRIM => (.hub, 0x30)
  | .RST_DEVICE_CNT => (.hub, 0x38)
  | .RST_MC_CNT => (.hub, 0x40)
  | .RST_BLOCK_CNT => (.hub, 0x48)
  | .RST_BLOCK_REFUSED_CNT => (.hub, 0x50)
  | .RST_WRAP => (.hub, 0x58)
  | .PWR_CTRL => (.hub, 0x1000)
  | .PWR_STATUS => (.hub, 0x1008)
  | .PWR_INPUT => (.hub, 0x1010)
  | .PWR_AVG => (.hub, 0x1018)
  | .PWR_QCTRL => (.hub, 0x1020)
  | .PWR_CAUSE => (.hub, 0x1028)
  | .PWR_ENERGY_CNT => (.hub, 0x1030)
  | .PWR_BROWNOUT_CNT => (.hub, 0x1038)
  | .PWR_RAIL_FAULT_CNT => (.hub, 0x1040)
  | .PWR_WRAP => (.hub, 0x1048)
  | .PAC_CTRL => (.hub, 0x2000)
  | .PAC_STATUS => (.hub, 0x2008)
  | .PAC_WDOG => (.hub, 0x2010)
  | .PAC_TRIP => (.hub, 0x2018)
  | .PAC_LOG => (.hub, 0x2020)
  | .PAC_FIRE_CNT => (.hub, 0x2030)
  | .PAC_REFUSED_CNT => (.hub, 0x2038)
  | .PAC_THROTTLE_CYC_CNT => (.hub, 0x2040)
  | .PAC_TRIP_CYC_CNT => (.hub, 0x2048)
  | .PAC_WRAP => (.hub, 0x2050)
  | .PAC_CEIL => (.pacceil, 0x0)
  | .PAC_TEMP => (.pactemp, 0x0)
  | .PAC_VMON => (.pacvmon, 0x0)
  | .PAC_AIN => (.pacain, 0x0)
  | .PAC_HEAT_CFG => (.heat, 0x0)
  | .PAC_HEAT_TH => (.heat, 0x8)
  | .PAC_HEAT_ACT => (.heat, 0x10)
  | .PAC_HEAT_STAT => (.heat, 0x18)
  | .SEC_CTRL => (.hub, 0x200000)
  | .SEC_STATUS => (.hub, 0x200008)
  | .SEC_BOOT => (.hub, 0x200010)
  | .SEC_ROLLBACK => (.hub, 0x200018)
  | .SEC_VERIFY => (.hub, 0x200020)
  | .SEC_EXTEND => (.hub, 0x200028)
  | .SEC_ATT => (.hub, 0x200030)
  | .SEC_DBG => (.hub, 0x200038)
  | .SEC_RCV => (.hub, 0x200040)
  | .SEC_VERIFY_CNT => (.hub, 0x200048)
  | .SEC_VERIFY_FAIL_CNT => (.hub, 0x200050)
  | .SEC_ATT_CNT => (.hub, 0x200058)
  | .SEC_WRAP => (.hub, 0x200060)
  | .SEC_M => (.secm, 0x0)
  | .SEC_ATT_NONCE => (.secnonce, 0x0)
  | .SEC_DBG_NONCE => (.secdbgn, 0x0)
  | .SEC_RCV_BUF => (.secrcv, 0x0)
  | .TST_CTRL => (.hub, 0x800000)
  | .TST_STATUS => (.hub, 0x800008)
  | .TST_FENCE => (.hub, 0x800010)
  | .TST_CDL => (.hub, 0x800018)
  | .TST_CDL_CNT => (.hub, 0x800080)
  | .TST_CDL_FAIL_CNT => (.hub, 0x800088)
  | .TST_FENCE_CNT => (.hub, 0x800090)
  | .TST_WRAP => (.hub, 0x800098)
  | .TST_CDL_LAST => (.cdllast, 0x0)

end Sys2Proof.Machine
end

