-- ==== Sys2Proof/Machine/State.lean ====
section
/-!
DEFINITION. The machine's state: plain data that holds every register field (by field and unit, a field at its reset
value being unlisted), every memory, queue, buffer and mode the spec gives the device, the commands that wait, and what
has left the device. `State.reset` is the device right after a device reset, its memories empty.
-/
namespace Sys2Proof.Machine

/-! ### Cores, queues and engines (chapters 02-05) -/

/-- One level of a queue's loop stack (R131): first and last word of the body, passes left, iteration index. -/
structure LoopLvl where
  first : Nat
  last : Nat
  left : Nat
  index : Nat
  deriving DecidableEq, Repr

/-- The counts of a queue's open vector operation (R129). -/
structure VOp where
  instrs : Nat
  sat : Nat
  flushed : Nat
  invalid : Nat
  nanOut : Nat
  firstInv : Option Nat
  tStart : Option Nat
  /-- Time of the last result written (R78). -/
  tEnd : Nat
  deriving DecidableEq, Repr

/-- An open vector operation without instructions. -/
def VOp.none : VOp := ⟨0, 0, 0, 0, 0, Option.none, Option.none, 0⟩

/-- What a waiting head instruction of a queue waits for, when an event ends the wait (R118): `plain` waits are tried
again by the sequencer, the others end by a memory word, a hurdle or a mark. -/
inductive HeadWait where
  | plain
  | access
  | hurdle
  | held
  | mark
  deriving DecidableEq, Repr

/-- A matrix, convert or table instruction with the values it read when it issued (R115): the issuing queue (global),
its word, its eight (or three) parameter values, record DA and descriptor DA. -/
structure OpIns where
  queue : Nat
  word : Nat
  par : List Nat
  recDA : Nat
  sqd : Nat
  deriving DecidableEq, Repr

/-- Bytes on their way to a place of memory; `fill` marks a write that completes its word and sets it full (R46, R174). -/
structure OutWrite where
  da : Nat
  bytes : List (BitVec 8)
  fill : Bool
  deriving DecidableEq, Repr

/-- The first invalid element of an operation (R80): kind, m, n, k. -/
structure FirstInv where
  kind : Nat
  m : Nat
  n : Nat
  k : Nat
  deriving DecidableEq, Repr

/-- Counts of an operation for its completion record (R78-R80). -/
structure OpCounts where
  sat : Nat
  flushed : Nat
  invalid : Nat
  winLoss : Nat
  zeroBlk : Nat
  esc : Nat
  nanOut : Nat
  firstProd : Option FirstInv
  firstConv : Option FirstInv
  tStart : Nat
  /-- Time of the last result word committed so far (R78). -/
  tEnd : Nat
  deriving DecidableEq, Repr

/-- The accumulator of one element of D (R45, R62, R66, R72): exact sum in units of 2^-320, FP32 sum of fast mode, the
addend's code, and the element's flags. -/
structure Elem where
  acc : Int
  f32 : Nat
  addend : Nat
  nan : Bool
  pPos : Bool
  pNeg : Bool
  aPos : Bool
  aNeg : Bool
  inv : Bool
  loss : Bool
  sat : Bool
  flushed : Bool
  deriving DecidableEq, Repr

/-- Statistics that a conversion gathers for its record (R107); magnitudes and scales as FP32 codes. -/
structure ConvStats where
  sqerr : Nat
  count : Nat
  amax : Nat
  warm : Bool
  sideFull : Bool
  degenerate : Nat
  zeroBlk : Nat
  esc : Nat
  sat : Nat
  flushed : Nat
  lastScale : Option Nat
  deriving DecidableEq, Repr

/-- No statistics yet. -/
def ConvStats.none : ConvStats := ⟨0, 0, 0, false, false, 0, 0, 0, 0, 0, Option.none⟩

/-- What an operation has seen of one channel (R93, R102): amax as an FP32 code, and its one finite value so far, or that
it has several. -/
structure ChanTrk where
  amax : Nat
  val : Option Nat
  several : Bool
  deriving DecidableEq, Repr

/-- Why the array of an engine holds (R46, R49), or that it stands at an N-block boundary at which it was asked to stop. -/
inductive MxHold where
  | none
  | operand
  | outPath
  | stopPoint
  deriving DecidableEq, Repr

/-- What happened to an element of a row that went to the spill region, before its conversion (R79): it saturated, it was
flushed, it was invalid. -/
structure SpillEv where
  sat : Bool
  flushed : Bool
  invalid : Bool
  deriving DecidableEq, Repr

/-- A weight register set of the array, with the weight-scale registers of the column ends that go with it (R29): the array
rows loaded for the pass it is filled for, and by lane of the pass the weights of its columns, each an element's code and its
block scale's code. In the pair group array row `i` holds lanes `i` and 32 + `i` (R32). -/
structure WSet where
  rows : Nat
  lanes : Tab (List (Nat × Nat))
  deriving DecidableEq, Repr

/-- A matrix instruction in progress on an engine (R34): where the fold stands, the accumulators, and the rows on the output
path. -/
structure MxRun where
  ins : OpIns
  /-- Words of the quantisation descriptor; none when D takes none. -/
  desc : List Nat
  /-- The tensor scales are read and the table headers are checked. -/
  begun : Bool
  exact : Bool
  nbStart : Nat
  nb : Nat
  kb : Nat
  /-- Rows of the pass read so far; 0 until the pass is swapped in (R41). -/
  mr : Nat
  /-- Beats since the last swap (R42), beats of the duty's window of 16 (R50), and extra beats of the row's escapes that are left
  (R101). -/
  since : Nat
  phase : Nat
  extra : Nat
  /-- Its first weights were loaded behind another instruction (R44). -/
  chained : Bool
  /-- Entries and codebook of the product table of the N-block, and the bytes that the other table bank has taken of the next
  one (R103, R105, R106). -/
  table : List Nat
  book : List Nat
  nextTable : List Byte
  /-- FP32 codes of the tensor scales of TZ16 operands. -/
  tsA : Nat
  tsB : Nat
  /-- The two accumulator banks, by row x 32 + column; N-block nb uses bank nb mod 2 (R45). -/
  bank0 : Tab Elem
  bank1 : Tab Elem
  /-- Scale words known at the start that are not written yet (R93). -/
  scaleOut : List OutWrite
  /-- Rows handed to the output path that are not wholly written, oldest first, with their N-blocks (R46). -/
  out : List (Nat × List OutWrite)
  hold : MxHold
  /-- All rows of the fold are handed out. -/
  fed : Bool
  /-- D goes to the spill region, and whether the convert unit has converted it (R91). -/
  spill : Bool
  spilled : Bool
  /-- What the elements of the spill region have met, by row x 4,096 + column. -/
  spillEvs : Tab SpillEv
  warm : Bool
  /-- Scale codes per channel that delayed scaling took at the start (R93). -/
  scales : List Nat
  chans : List ChanTrk
  /-- Side-list entries written so far, by row of D (R99). -/
  sideCnt : Tab Nat
  cnt : OpCounts
  stats : ConvStats
  deriving DecidableEq, Repr

/-- A matrix engine: the instruction in progress (or held stopped, R51), the staged one (R44), those whose rows are all read
and that are not complete, oldest first, and the two weight sets (R29). -/
structure Engine where
  cur : Option MxRun
  staged : Option OpIns
  ending : List MxRun
  set0 : WSet
  set1 : WSet
  deriving DecidableEq, Repr

/-- An engine without an instruction. -/
def Engine.idle : Engine := ⟨none, none, [], ⟨0, []⟩, ⟨0, []⟩⟩

/-- A completion record that waits for its memory's initialisation (R111): the issuing queue, the engine of a matrix
instruction, DA and words. -/
structure RecWait where
  queue : Nat
  engine : Option Nat
  da : Nat
  words : List Nat
  deriving DecidableEq, Repr

/-- The operation that a convert unit runs (R82): 0 CONVERT, 1 TABLE, 2 the second phase of a spilled matrix
instruction of an engine (global). -/
structure ConvOp where
  kind : Nat
  ins : OpIns
  desc : List Nat
  engine : Nat
  /-- The results are formed and `writes` are on their way. -/
  formed : Bool
  writes : List OutWrite
  warm : Bool
  scales : List Nat
  chans : List ChanTrk
  cnt : OpCounts
  stats : ConvStats
  deriving DecidableEq, Repr

/-- A history slot (R92): its amax entries, the most recent first, as FP32 codes; head, pending amax, owner, WARM. -/
structure HistSlot where
  recent : List Nat
  head : Nat
  pending : Nat
  owner : Option Nat
  warm : Bool
  deriving DecidableEq, Repr

/-- A cleared history slot (R95). -/
def HistSlot.clear : HistSlot := ⟨[], 0, 0, none, false⟩

/-- A context save or restore in progress on a core (R136, R141). -/
inductive CtxOp where
  | save
  | restore
  deriving DecidableEq, Repr

/-- The parts of the cores that no register map lists (R112, R135, R137). Keys: global core, queue, engine as R16
numbers them, then the register or word number. -/
structure Tile where
  imem : Tab IWord
  imemLo : Tab Word
  sregs : Tab Word
  pregs : Tab Word
  vregs : Tab (BitVec 2048)
  loops : Tab (List LoopLvl)
  vops : Tab VOp
  heads : Tab HeadWait
  arrived : Tab Bool
  engines : Tab Engine
  conv : Tab (Option ConvOp)
  hist : Tab HistSlot
  /-- Slots of a core that a single-slot clear is clearing (R95). -/
  slotClear : Tab (List Nat)
  ctx : Tab (Option CtxOp)
  recs : List RecWait
  deriving DecidableEq, Repr

/-! ### Full/empty words, hurdles and batons (chapter 07) -/

/-- A unit that may wait on full/empty words (R173). -/
inductive Agent where
  | lsu (queue : Nat)
  | out (engine : Nat)
  | conv (core : Nat)
  | stream (engine set : Nat)
  | cells (queue : Nat)
  | packet (src txn : Nat)
  deriving DecidableEq, Repr

/-- An access that waits for its words (R173): mode of R172, direction, and the words by DA / 8. -/
structure Waiter where
  who : Agent
  mode : Nat
  store : Bool
  words : List Nat
  deriving DecidableEq, Repr

/-- A queue recorded as waiter at a hurdle (R180): hurdle (global cluster x 2048 + h), argument, result register;
`sync` for hsync, whose result is already written. -/
structure HurWaiter where
  hur : Nat
  queue : Nat
  arg : Nat
  dest : Nat
  sync : Bool
  deriving DecidableEq, Repr

/-- A baton record (R185). -/
structure Baton where
  ga : Nat
  cnt : Nat
  hops : Nat
  tag : Nat
  val : Nat
  srcNode : Nat
  srcCore : Nat
  tSend : Nat
  deriving DecidableEq, Repr

/-- An arrival or baton that waits at the hurdle table while HUR_CTRL.EN is 0. -/
inductive HeldOp where
  /-- Arrival of `n` at a hurdle; from a queue, with its result register and whether it is an hsync. -/
  | arrive (hur n : Nat) (fromQueue : Option (Nat × Nat × Bool))
  | baton (hur : Nat) (b : Baton)
  deriving DecidableEq, Repr

/-- Hurdles' and windows' contents beyond their registers. -/
structure Sync where
  waiters : List Waiter
  hurWait : List HurWaiter
  held : List HeldOp
  /-- Clusters whose staging buffer has been initialised since its last reset (R111, R171). -/
  staged : Tab Bool
  /-- Batons queued in each window (global cluster x 64 + w), oldest first (R187). -/
  batons : Tab (List Baton)
  deriving DecidableEq, Repr

/-! ### The Track (chapter 08) -/

/-- A track's workings beyond its registers (R200-R204). -/
structure Track where
  angle : Nat
  i : Nat
  frac : Nat
  /-- Intervals of the history, the most recent first. -/
  hist : List Nat
  /-- The previous forward edge was accepted, since the entry to ACQUIRING. -/
  prevAccepted : Bool
  /-- Angle of the latest edge; in mode 4 the whole position of the latest sample. -/
  ea : Nat
  /-- A forward edge has been seen since the track was enabled. -/
  seen : Bool
  /-- ACLK cycles since the previous forward edge. -/
  sinceEdge : Nat
  /-- ACLK cycles since the last edge, sample or sync (R218). -/
  silent : Nat
  /-- Edge count of the index check (R200). -/
  edges : Nat
  /-- Limit of the latest sample in mode 4 (R202): none for a sample without one. -/
  limit : Option (Nat × Nat)
  /-- The levels of inputs A and B that the glitch filter took last (R199). -/
  inA : Bool
  inB : Bool
  deriving DecidableEq, Repr

/-- A track that has never been enabled. -/
def Track.off : Track := ⟨0, 0, 0, [], false, 0, false, 0, 0, 0, none, false, false⟩

/-- The Track unit. -/
structure TrackUnit where
  tracks : Tab Track
  /-- Late records (R214), oldest first, four words each. -/
  lateLog : List (Nat × Nat × Nat × Nat)
  /-- The trace timestamp (R222), and the part of a count that has passed, in twelfths. -/
  ts : Nat
  frac : Nat
  /-- The part of a nanosecond that the distributed clock's system time has passed, in parts of 21 (R201). -/
  nsFrac : Nat
  deriving DecidableEq, Repr

/-! ### Memories (chapters 11 and 16) -/

/-- The memory tiers. HBM bytes are kept by pseudo-channel and address within it (R274): key pc x 2^31 + address. -/
structure Mem where
  hbm : Tab Byte
  /-- Atoms accepted into a pseudo-channel's write queue and not drained, oldest first (R276). -/
  wq : Tab (List Nat)
  /-- Refreshes postponed under panic, by bank: pseudo-channel x 64 + bank (R283). -/
  postponed : Tab Nat
  /-- Stacks that have a training record in NV, and what training of a stack is in progress: 0 none, 1 full, 2 a validation
  of its record (R284). -/
  trainRec : Tab Bool
  training : Tab Nat
  /-- Atoms that hold an error: pseudo-channel x 2^26 + atom; 1 correctable, 2 not (R279, R280). -/
  weak : Tab Nat
  /-- CXL target memories: key (port x 8 + device) x 2^48 + host physical address. -/
  cxl : Tab Byte
  /-- Translation cache (R290): page DA / 2^21 and entry, the latest first. -/
  xlt : List (Nat × Nat)
  /-- Entries that an invalidation has dropped and that wait for the requests translated with them (R291). -/
  xltGone : List (Nat × Nat)
  /-- Page requests of the tier (R290), oldest first: DA, group, write. -/
  prq : List (Nat × Nat × Bool)
  /-- Page request groups outstanding at the tier: group, and the stream engine that waits on it, if it still does. -/
  groups : List (Nat × Option Nat)
  deriving DecidableEq, Repr

/-! ### Stream engines (chapter 06) -/

/-- How far an issued transfer is (R144): reading, its bytes in the data buffer, acknowledged, or failed with a cause. -/
inductive XState where
  | reading
  | held
  | acked
  | failed (cause : Nat)
  deriving DecidableEq, Repr

/-- An issued transfer (R150, R153, R154): descriptor, position in the walk (walk step x 2^24 + offset in the run) and the
position after it, the pieces (source, destination, length; one piece but for gathered elements that share a read), the
pages it was translated with (page DA / 2^21 and backing page), its pieces' bytes once read (while it is still reading: once its
destination has served it, R157), and what its request carries (R157): urgency key, SCHED, panic and the time of issue. -/
structure Issued where
  desc : Nat
  pos : Nat
  after : Nat
  parts : List (Nat × Nat × Nat)
  xl : List (Nat × Nat)
  st : XState
  bytes : List (List Byte)
  key : Nat
  sched : Bool
  panic : Bool
  time : Nat
  deriving DecidableEq, Repr

/-- A failure (R164): its cause, descriptor, position in the walk, the global address of the failed transfer, and the
trace timestamp. -/
structure StmFail where
  cause : Nat
  desc : Nat
  pos : Nat
  addr : Nat
  ts : Nat
  deriving DecidableEq, Repr

/-- A descriptor set of a stream engine (R144-R146). -/
structure StmSet where
  /-- Armed, running or draining. -/
  armed : Bool
  list : Nat
  count : Nat
  /-- Descriptor that issues next, and the position in its walk; `next` beyond COUNT when all is issued. -/
  next : Nat
  pos : Nat
  doneDescs : List Nat
  /-- The descriptors read so far, in bursts of 8, sixteen words each (R147). -/
  descs : List (List Nat)
  /-- Lap counts of the tracks at arming, for DL_REL. -/
  laps : List Nat
  /-- The issuing queue. -/
  queue : Nat
  /-- Index entries read, by descriptor (R155). -/
  entries : Tab (List Nat)
  /-- Bytes delivered, by descriptor. -/
  bytesDone : Tab Nat
  issued : List Issued
  /-- Lines delivered: descriptor and line (global destination address / 128). -/
  lines : List (Nat × Nat)
  fail : Option StmFail
  /-- The checkpoint record, empty when none is held (R166). -/
  ckpt : List Nat
  /-- Descriptors reported late (R159), and those that have raised panic (R158). -/
  late : List Nat
  panics : List Nat
  /-- Descriptor and position at which a restore resumed the set: all before it was delivered (R168). -/
  base : Nat × Nat
  /-- The set was abandoned with transfers on their way, which complete (R165). -/
  abandoned : Bool
  deriving DecidableEq, Repr

def StmSet.idle : StmSet := ⟨false, 0, 0, 0, 0, [], [], [], 0, [], [], [], [], none, [], [], [], (0, 0), false⟩

/-- A stream engine's workings beyond its registers: its sets, the sets whose transfers are not all issued in the order of
arming, the set that is stopped or in FAULT_WAIT, whether its page request waits for a free group (R396), whether a
context save has suspended the engine, and the set that was armed first. -/
structure Stream where
  set0 : StmSet
  set1 : StmSet
  order : List Nat
  stopped : Option Nat
  wantsGroup : Bool
  suspended : Bool
  older : Nat
  deriving DecidableEq, Repr

def Stream.idle : Stream := ⟨StmSet.idle, StmSet.idle, [], none, false, false, 0⟩

/-! ### The network (chapter 12) -/

/-- A request that its source has open (R307): source unit, slot, whether a write, destination unit, whether it is a register
access, the words that no response has covered yet, the data lines that have come (by DA), and whether one had an error. -/
structure OpenReq where
  src : Nat
  txn : Nat
  write : Bool
  dst : Nat
  ctl : Bool
  left : Nat
  got : List (Nat × List Byte)
  bad : Bool
  /-- Trace timestamp at issue (R307), and whether its packet has entered the network. -/
  since : Nat
  sent : Bool
  deriving DecidableEq, Repr

/-- A packet that waits in a buffer (R303, R309): the router's die and number, its input, whether the buffer is one of transit (R298); its
class and plane are the packet's. -/
structure Stall where
  die : Nat
  router : Nat
  inp : Nat
  transit : Bool
  pkt : Packet
  deriving DecidableEq, Repr

/-- The network's contents. -/
structure Noc where
  opened : List OpenReq
  /-- Packets held at the boundary of a sleeping domain (R309), in order of arrival: domain and packet. -/
  heldPkts : List (Nat × Packet)
  /-- Packets that wait in buffers before a boundary that holds four of their class, in order of arrival (R309). -/
  stalled : List Stall
  /-- Trace timestamp at which a domain was last busy, by quarter x 32 + domain (R308). -/
  busyAt : Tab Nat
  /-- Responses on their way. -/
  flight : List Packet
  /-- Matches counted for SAMPLE by probe, records that wait for the trace unit, by quarter, each with its probe (272 for an epoch
  record), and probes that have lost one (R312). -/
  sampled : Tab Nat
  recs : Tab (List (Nat × List Nat))
  gap : Tab Bool
  /-- Packets with a full/empty mode that wait at their memory (R173). -/
  waiting : List Packet
  deriving DecidableEq, Repr
/-! ### The PCIe port (chapter 16) -/

/-- An entry of the address translation cache (R395): host page (address / 4096), whether it may be written, locked. -/
structure AtcEntry where
  page : Nat
  write : Bool
  locked : Bool
  deriving DecidableEq, Repr

/-- A stream transfer: its engine, checkpoint set, descriptor and position. -/
structure TransferKey where
  e : Nat
  k : Nat
  desc : Nat
  pos : Nat
  deriving DecidableEq, Repr

/-- An ATS invalidation that has not completed (R397): first page, pages, and the stream transfers still to complete. -/
structure Inval where
  page : Nat
  pages : Nat
  users : List TransferKey
  deriving DecidableEq, Repr

/-- The PCIe port beyond its registers. -/
structure Pci where
  /-- The address translation cache, the latest first, at most 4,096 entries. -/
  atc : List AtcEntry
  /-- Pages whose translation is asked for and not answered. -/
  asked : List Nat
  /-- Page request groups outstanding (R396): group, and the stream engine that waits on it, if it still does. -/
  groups : List (Nat × Option Nat)
  /-- The function's configuration space by doubleword, where it differs from its defaults (R392). -/
  cfg : Tab Nat
  /-- ATS invalidations not yet completed (R397), the oldest first. -/
  inval : List Inval
  deriving DecidableEq, Repr


/-! ### Sessions (chapter 09) -/

/-- An admitted session (R224-R227): its table entry as read at admission, and its state (1 READY, 2 RESIDENT,
3 SUSPENDED). -/
structure Sess where
  sched : Bool
  st : Nat
  trk : Nat
  prio : Nat
  slots : Nat
  batonIn : Bool
  clusters : Nat
  ringTable : Nat
  saveDA : Nat
  spadLen : Nat
  qLo : Nat
  qHi : Nat
  quantum : Nat
  used : Nat
  /-- Windows: base, length, PINNED. -/
  wins : List (Nat × Nat × Bool)
  admitLap : Nat
  /-- A SUSPEND that waits for its lap boundary, with the lap at which it was asked (R235). -/
  suspending : Option Nat
  /-- The save of a SUSPEND, or the restore of a RESUME, is in progress. -/
  saving : Bool
  restoring : Bool
  /-- Its quantum has expired since it became resident (R233). -/
  expired : Bool
  /-- A queue was RUN or WAIT when it was last saved. -/
  hadWork : Bool
  /-- Its state is saved at SAVE_DA. -/
  saved : Bool
  /-- Ring from which the next entry is dispatched (R232). -/
  nextRing : Nat
  deriving DecidableEq, Repr

/-- A ring context (R229). -/
structure Ring where
  base : Nat
  log2 : Nat
  completion : Bool
  valid : Bool
  cring : Nat
  head : Nat
  tail : Nat
  pin : Bool
  deriving DecidableEq, Repr

/-- A submission that is dispatched and has no committed completion entry (R232): session, completion ring, tag, time of
dispatch, the queues that RUN started, the status once it is complete, and the time of completion. -/
structure Submission where
  session : Nat
  cring : Nat
  tag : Nat
  tDispatch : Nat
  queues : List Nat
  status : Option Nat
  tDone : Nat
  /-- DA of its completion ring's context, which outlives the session's entry here (R228). -/
  ringDA : Nat
  deriving DecidableEq, Repr

/-- A switch of a slicing group (R234): the outgoing and incoming sessions, and whether the save has ended. -/
structure Switch where
  clusters : Nat
  out : Option Nat
  inc : Option Nat
  saved : Bool
  deriving DecidableEq, Repr

/-- The session machinery. -/
structure Sessions where
  sess : Tab (Option Sess)
  /-- Cached ring contexts by session x 32 + ring, and their order of use, the latest first (R231). -/
  rings : Tab (Option Ring)
  lru : List Nat
  /-- Doorbells that wait on loads: session, ring, TAIL. -/
  loads : List (Nat × Nat × Nat)
  subs : List Submission
  switches : List Switch
  /-- The session last resident, by group (R233). -/
  last : Tab Nat
  deriving DecidableEq, Repr

/-! ### Kamrus (chapter 10) -/

/-- A Kamrus port beyond its registers. -/
structure KPort where
  /-- Lanes that reached block lock at 224, 112 and 56 Gb/s (R383), and the partner's masks and FEC mask (R241). -/
  own : Nat × Nat × Nat
  theirs : Nat × Nat × Nat
  theirFec : Nat
  /-- Lanes whose receiver the partner lets sleep (R390). -/
  theirSleep : Nat
  /-- A mode is chosen; no mode qualified and the port waits to retrain. -/
  chosen : Bool
  noMode : Bool
  /-- Cells that wait, by channel 0-63, free queue 64 and system queue 65; a relayed cell is marked. -/
  queues : Tab (List (Cell × Bool))
  txSeq : Nat
  /-- SEQ of the last cell accepted. -/
  rxSeq : Option Nat
  /-- Slot of the frame that comes next. -/
  slot : Nat
  /-- Trace timestamps of the uncorrectable codewords of the last 1 ms, and the cells still to come that lie in one (R247). -/
  bad : List Nat
  spoiled : Nat
  /-- Pairs of calibration cells exchanged since the port became ACTIVE (R266). -/
  cal : Nat
  deriving DecidableEq, Repr

def KPort.idle : KPort := ⟨(0, 0, 0), (0, 0, 0), 0, 0, false, false, [], 0, none, 0, [], 0, 0⟩

/-- A HELLO (R257, R264): role, node ID, serial, manager node, domain manager node, the sender's port number, its ACTIVE ports with
their partners' ports, whether the reference it drives is spread, whether the device reports assured mode, and a node ID that a
manager assigns with it, for the device at the rest of a path. -/
structure Hello where
  role : Nat
  node : Nat
  serial : Nat
  manager : Nat
  domain : Nat
  port : Nat
  ports : List (Nat × Nat)
  spread : Bool
  assured : Bool
  assign : Option (Nat × Nat)
  deriving DecidableEq, Repr

/-- A remote write transfer of a stream engine (R246): its set, descriptor and the positions of the transfers it writes, the number of
its last cell once that has left or was discarded, the cells acknowledged, whether an entry carried ERR, and the time at which the
last cell left. -/
structure Remote where
  set : Nat
  desc : Nat
  poss : List Nat
  lastCell : Option Nat
  acked : List Nat
  err : Bool
  sentAt : Nat
  deriving DecidableEq, Repr

/-- A member's neighbour report (R258, R260). -/
structure Report where
  key : Nat
  serial : Nat
  role : Nat
  standby : Bool
  /-- Word 2 of its start list entry: ports, lanes, rate and FEC of its first hop. -/
  hop : Nat
  deriving DecidableEq, Repr

structure Kamrus where
  ports : Tab KPort
  /-- Remote write transfers, by engine x 8 + slot. -/
  remote : Tab (Option Remote)
  /-- Cells that wait on full/empty words, by quarter x 64 + channel (R245). -/
  stalled : Tab (List Cell)
  /-- The manager followed and the ports that lead to it, the port followed first (R257). -/
  manager : Option Nat
  mgrPorts : List Nat
  /-- Other manager HELLOs recorded for the neighbour report: port and node; and their count. -/
  neighbours : List (Nat × Nat)
  neighbourCnt : Nat
  /-- Nodes whose last HELLO reported assured mode (R264). -/
  assured : List Nat
  /-- SPREAD of the last HELLO or TRACK cell on the primary reference port since it was selected. -/
  spread : Option Bool
  /-- A rebuild is in progress, and the reports it has (R260); full position keys by member index. -/
  rebuild : Bool
  reports : List Report
  keys : Tab Nat
  /-- References lost, by port; the device runs on its secondary reference; it holds over (R263). -/
  refLost : List Nat
  onSecondary : Bool
  holdover : Bool
  /-- This device has taken over as manager (R267). -/
  tookOver : Bool
  deriving DecidableEq, Repr

/-! ### The fabric and its slices (chapters 13 and 14) -/

/-- A walker of a slice (R341); `lenM1` is LEN - 1. -/
structure Walker where
  mem : Nat
  base : Nat
  pos : Nat
  lenM1 : Nat
  step : Int
  deriving DecidableEq, Repr

def Walker.zero : Walker := ⟨0, 0, 0, 0, 0⟩

/-- A slice beyond its registers and memories (R341, R351): D registers, accumulators, walkers, loop stack, repetitions of
the next word that are left (0 outside a repeat), input and output FIFOs, and firings that have not set PEND yet. -/
structure Slice where
  d : Tab SWord
  acc : Tab (BitVec 56)
  walk : Tab Walker
  loops : List LoopLvl
  rep : Nat
  in0 : List SWord
  in1 : List SWord
  out0 : List SWord
  out1 : List SWord
  firings : Nat
  deriving DecidableEq, Repr

def Slice.zero : Slice := ⟨[], [], [], [], 0, [], [], [], [], 0⟩

/-- The fabric's contents: slices by global slice, instruction memories (slice x 4096 + word), data memories ((slice x 2 +
memory) x 2048 + word), slices that start by themselves, fabric RAM (block x 1024 + word of 72 bits), macrocell registers
that do not hold their INIT value (block x 16 + macrocell), and the values of the configuration registers RAM_MODE by RAM block
and SLICE_START by slice (R363). -/
structure Fabric where
  slices : Tab Slice
  imem : Tab (BitVec 32)
  dm : Tab SWord
  auto : Tab Bool
  ram : Tab (BitVec 72)
  cells : Tab Bool
  ramMode : Tab Nat
  sliceCfg : Tab Nat
  deriving DecidableEq, Repr

/-! ### Serial lanes (chapter 16) -/

/-- The lanes beyond their registers: searches in progress that are full ones, by lane; equaliser settings loaded from NV
and settings found, by lane x 4 + rate; CXL ports with a managed removal in progress (R400). -/
structure Lanes where
  full : Tab Bool
  recs : Tab (Option Nat)
  kept : Tab Nat
  removing : List Nat
  deriving DecidableEq, Repr

/-! ### Configuration and Mordant (chapter 15) -/

/-- What the header of an image says (R358). -/
structure Header where
  part : Nat
  lock : Bool
  scope : Nat
  serial : Nat
  length : Nat
  chunks : Nat
  version : Nat
  sigOff : Nat
  digOff : Nat
  strOff : Nat
  deriving DecidableEq, Repr

/-- A load in progress (R365): its source, address and scope (regions in [31:0], clusters in [63:32]), KEEP, the boot load
of R367, step 1 not complete, the image bytes a slave port has taken and an unpaired nibble, the header, the signature
passed, the image digest and the digest table, the next chunk, the current partition, the ports it isolated, the frames
written (by frame address), the regions cleared, the regions and clusters that held a configuration before, and the bytes of
a record that goes on in the next chunk, with its image offset. -/
structure Load where
  src : Nat
  addr : Nat
  scope : Nat
  keep : Bool
  boot : Bool
  isolating : Bool
  recv : List Byte
  nibble : Option Nat
  hdr : Option Header
  verified : Bool
  dimg : List Byte
  table : List Byte
  chunk : Nat
  part : Nat
  ports : List Nat
  written : Tab Bool
  cleared : List Nat
  had : Nat
  rest : List Byte
  pos : Nat
  deriving DecidableEq, Repr

/-- Configuration: the load in progress; the scope that awaits the ochre image, with the boot load's mark
and the ports that the load isolated; frames by
address; where the record of a frame stands (1 NV, 2 HBM; address; length); regions whose frames stand as CLEAR wrote them; the
signature table by group; groups failed (1) or UNKNOWN (2); Mordant's log (group, frame, refetched); the hub configuration
has loaded; clusters loaded; regions with a frozen boundary; VERSION by region (0-31), of the hub (32) and the tile-cluster
configuration (33); image digests of regions; ports that a region's configuration keeps isolated. -/
structure Conf where
  load : Option Load
  fallback : Option (Nat × Bool × List Nat)
  frames : Tab (List Byte)
  recAt : Tab (Option (Nat × Nat × Nat))
  clr : List Nat
  sigs : Tab Nat
  failed : Tab Nat
  mdtLog : List (Nat × Nat × Bool)
  hubLoaded : Bool
  clusters : Tab Bool
  frozen : Tab Bool
  versions : Tab Nat
  digests : Tab (List Byte)
  ports : List Nat
  deriving DecidableEq, Repr

/-! ### The object dictionary and the field ports (chapter 17) -/

/-- The dictionary: paths that hold the expert unlock (0 field, 1 mailbox, 2 + node Kamrus); stored objects by index x 256
+ subindex; emergencies queued on the field, mailbox and Kamrus paths, and those discarded there; the emergency log (message, node,
time); the error register's link and unread sources; the distributed clock's consecutive updates inside and outside its
window; a copy of the output image in progress and a buffer that waits; the output and input images; a reset that 0x2201
asked for (kind, index, hold); tags of requests sent over Kamrus; sums of counters last read, by index; firmware has
declared a fault. -/
structure Dict where
  unlock : List Nat
  objs : Tab Nat
  emcy : Tab (List Nat)
  dropped : Tab Nat
  log : List (Nat × Nat × Nat)
  raised : Tab Nat
  dcIn : Nat
  dcOut : Nat
  copying : Option (List Byte)
  waiting : Option (List Byte)
  output : List Byte
  input : List Byte
  exec : Option (Nat × Nat × Bool)
  asked : List Nat
  sums : Tab Nat
  fault : Bool
  /-- Emergencies that events call for and firmware has not sent yet, in order: event code and byte 7 (R421). -/
  owed : List (Nat × Nat)
  deriving DecidableEq, Repr

/-! ### Reset, power, Pacer (chapter 18) -/

/-- A record of the Pacer's log (R446): heat, kind, cluster, engine, time. -/
structure PacRec where
  heat : Nat
  kind : Nat
  cluster : Nat
  engine : Nat
  t : Nat
  deriving DecidableEq, Repr

/-- Power and the Pacer beyond their registers: the AON domain runs; every other rail is off (R424, R443); the nSYSRST pin
is held low from outside; blocks held in reset by HOLD, by kind x 4096 + index; block resets that have asserted and not
released; the last 1,000 power samples; filter values and samples counted towards PERSIST, by heat (256 + sensor for heat
10, 320 + monitor for heat 13); heats whose filter holds a value, and by 512 + sensor those sampled since MAX was read; heats that fired and have not acted; the log; quarters being
powered on; the MC runs; input energy in nJ that has not made a mJ; ceilings refused now, by heat x 32 + cluster (R442). -/
structure Pwr where
  aon : Bool
  railsOff : Bool
  pinLow : Bool
  held : Tab Bool
  asserted : List Nat
  samples : List Nat
  filt : Tab Int
  count : Tab Nat
  seen : Tab Bool
  due : List Nat
  log : List PacRec
  powering : Nat
  mc : Bool
  energy : Nat
  refused : List Nat
  deriving DecidableEq, Repr

/-! ### Security, NV and fuses (chapter 19), self-test (chapter 20), pins (chapter 21) -/

/-- Recovery in progress (R459): the parts handed over so far, the header's fields once the signature has passed, and the
next chunk. -/
structure Rcv where
  head : List Byte
  hdr : Option Header
  table : List Byte
  chunk : Nat
  deriving DecidableEq, Repr

/-- The security block: NV; key digests, blown floor bits (0 FW, 1 CFG, 2 FAB) and the trim copy of the fuses; owner mode and
revoked slots; words of SEC_EXTEND; slots whose last verification passed; the verification, blowing (counter, floor) and report (its DA and bytes) in
progress; a debug nonce that no GO has used; recovery. -/
structure Sec where
  nv : Tab Byte
  keys : Tab (List Byte)
  floors : Tab Nat
  trim : List Byte
  owner : Bool
  revoked : Nat
  extend : List Nat
  passed : Tab Bool
  checking : Option Nat
  blowing : Option (Nat × Nat)
  report : Option (Nat × List Byte)
  nonce : Bool
  rcv : Rcv
  deriving DecidableEq, Repr

/-- Pins and self-test: reset states of user pins from the fuses (R435), and whether they have been programmed; the
instruction of the test access port and its boundary scan cells; the reference codes of R472 once a lap has stored them; a
cool-down lap in progress, or the device parked after it. -/
structure Pins where
  fuse : Tab Nat
  programmed : Bool
  tap : Nat
  scan : List Bool
  ref : Option (List Nat)
  lap : Bool
  /-- ALERT_N is driven low (R485). -/
  alert : Bool
  deriving DecidableEq, Repr
/-! ### The whole device -/

/-- What the device has sent out or signalled, the newest first (the model's own record of its outputs). -/
inductive Out where
  /-- A signal to the management controller, named by the status field of the event and its unit. -/
  | mc (f : Fld) (unit : Nat)
  /-- Data that a read returned. -/
  | data (v : Nat)
  /-- An error response. -/
  | error
  /-- Bytes written to the host window. -/
  | hostWrite (da : Nat) (bytes : List Byte)
  /-- The epoch record of R222, in words. -/
  | epoch (words : List Nat)
  /-- A STREAM instruction that ended with error, by its queue (R165). -/
  | streamError (queue : Nat)
  /-- A matrix, convert or vector operation that is signalled complete with error to its queue (R52, R125). -/
  | opError (queue : Nat)
  /-- A baton that leaves a core, in words (R185). -/
  | baton (words : List Nat)
  /-- A session fault signalled to the MC, by cluster (R163). -/
  | sessionFault (cluster : Nat)
  /-- An address translation request and a page request to the host (R395, R396): page; page, group, write. -/
  | atsRequest (page : Nat)
  | pageRequest (page group : Nat) (write : Bool)
  /-- A cell that a Kamrus port transmits, and the masks it sends in a capability exchange: block lock at 224, 112 and 56 Gb/s, FEC,
  receivers that may sleep (R241, R390). -/
  | cell (port : Nat) (c : Cell)
  | exchange (port m224 m112 m56 fec sleep : Nat)
  /-- An idle marker (`wake` false) or a wake pattern that a lane transmits (R390, R391). -/
  | lanePattern (lane : Nat) (wake : Bool)
  /-- The shape table that the domain manager writes to a node (R268). -/
  | shape (node : Nat) (bytes : List Byte)
  /-- Data, or an error response, that a unit receives for a request of its own. -/
  | response (unit txn : Nat) (data : Option (List Byte))
  /-- A packet that leaves a unit, and an event packet at the MC. -/
  | packet (p : Packet)
  | event (src : Nat) (data : List Byte)
  /-- A fabric mark unit drives its mark signal (R328). -/
  | mark (unit : Nat)
  /-- A configuration request answered with Request Retry Status (R394); an ATS invalidation completed: page, pages (R397); an
  MSI-X vector raised (R402). -/
  | configRetry
  | invalidated (page pages : Nat)
  | msix (vector : Nat)
  /-- A configuration request of a CXL port: CXL_CFG_ADDR's target, and the data of a write (R399). -/
  | cxlConfig (port target : Nat) (data : Option Nat)
  /-- The nSYSRST pin is driven low, by source (R433). -/
  | nsysrst (source : Nat)
  /-- An emergency that a path sends: 0 CoE, 1 a CONTROL cell to the manager (R422). -/
  | emergency (path msg : Nat)
  /-- A dictionary response on a path: abort code and data (R406, R418). -/
  | answer (path abort : Nat) (data : List Byte)
  /-- The input process data that the field port offers after a read of the input image (R415). -/
  | inputs (data : List Byte)
  /-- ALERT_N is driven low, or left at high impedance (R485). -/
  | alert (low : Bool)
  /-- What the test data output shows (R486). -/
  | tdo (bits : List Bool)
  deriving DecidableEq, Repr

/-- The state of the device. -/
structure State where
  regs : Tab Nat
  sram : Tab Byte
  full : Tab Bool
  tile : Tile
  sync : Sync
  trk : TrackUnit
  mem : Mem
  streams : Tab Stream
  noc : Noc
  ses : Sessions
  pci : Pci
  kmr : Kamrus
  fab : Fabric
  lanes : Lanes
  conf : Conf
  dict : Dict
  pwr : Pwr
  sec : Sec
  pins : Pins
  /-- Blocks in reset: kind of RST_BLOCK x 4096 + index; 0 the device. -/
  rst : Tab Bool
  outbox : List Out
  freeCtr : Nat
  pending : List Instr
  deriving DecidableEq, Repr

/-! ### Blocks in reset, sessions held (R430, R21) -/

/-- A block of a kind of RST_BLOCK is in reset. -/
def State.inReset (s : State) (kind i : Nat) : Bool := Tab.get false s.rst (kind * 4096 + i)

/-- A quarter, cluster or core is in reset, or a block that encloses it. -/
def State.quarterDown (s : State) (q : Nat) : Bool := s.inReset 0 0 || s.inReset 1 q
def State.clusterDown (s : State) (c : Nat) : Bool := s.inReset 2 c || s.quarterDown (c / 8)
def State.coreDown (s : State) (k : Nat) : Bool := s.inReset 3 k || s.clusterDown (k / 16)

/-- Why a step stops with a fault. -/
inductive Fault where
  /-- A command whose operands no event of the device can have. No meaning raises it: a request that cannot be performed ends with an error
  response or leaves the state as it is, and both are next states. Safe: it would stop where the device does nothing. -/
  | illFormed
  deriving DecidableEq, Repr

/-- Why a step has no meaning. -/
inductive Refusal where
  /-- A command that the model does not cover, by name: safe. No arm answers it, since every command has its meaning. -/
  | notModelled (mnemonic : String)
  deriving DecidableEq, Repr

/-! ### Reset -/

/-- The entry of a field of unit 0 in the register file. -/
def Fld.entry (f : Fld) (v : Nat) : Nat × Nat := (f.key * 131072, v)

/-- The device right after a device-level reset, before the hub ROM has run (R427, R455): every register field at its Reset value
(an unlisted field reads so), memories without contents, every queue empty, no block in reset. Live fields that reflect what
surrounds the device: the open BOOTSEL pin's bin, trims from the fuses at the first read, the input in range and every quarter
powered, the watchdog's period ahead (DESIGN CHOICE). -/
def State.reset : State where
  regs := [F.RST_BOOT_BIN.entry 15, F.RST_TRIM_STATE.entry 1, F.RST_TRIM_TRIES.entry 1, F.PWR_STATUS_IN_RANGE.entry 1,
           F.PWR_STATUS_Q_ON.entry 15, F.PAC_WDOG_LEFT_US.entry 10000000]
  sram := []
  full := []
  tile := ⟨[], [], [], [], [], [], [], [], [], [], [], [], [], [], []⟩
  sync := ⟨[], [], [], [], []⟩
  trk := ⟨[], [], 0, 0, 0⟩
  mem := ⟨[], [], [], [], [], [], [], [], [], [], []⟩
  streams := []
  noc := ⟨[], [], [], [], [], [], [], [], []⟩
  ses := ⟨[], [], [], [], [], [], []⟩
  pci := ⟨[], [], [], [], []⟩
  kmr := ⟨[], [], [], none, [], [], 0, [], none, false, [], [], [], false, false, false⟩
  fab := ⟨[], [], [], [], [], [], [], []⟩
  lanes := ⟨[], [], [], []⟩
  conf := ⟨none, none, [], [], [], [], [], [], false, [], [], [], [], []⟩
  dict := ⟨[], [], [], [], [], [], 0, 0, none, none, [], [], none, [], [], false, []⟩
  pwr := ⟨true, false, false, [], [], [], [], [], [], [], [], 0, false, 0, []⟩
  sec := ⟨[], [], [], [], false, 0, [], [], none, none, none, false, ⟨[], none, [], 0⟩⟩
  pins := ⟨[], false, 0, [], none, false, false⟩
  rst := []
  outbox := []
  freeCtr := 0
  pending := []

end Sys2Proof.Machine
end

