-- ==== Sys2Proof/Machine/Ops.lean ====
section
/-!
DEFINITION. The named operations every meaning is written with: fields of the register maps, counters and their wrap
flags, signals to the MC, free values, the address space of R12, on-chip memory words with their full/empty bits, and the
credits of baton windows.
-/
namespace Sys2Proof.Machine

/-! ### Register fields -/

/-- Where a field of instance `i` of its unit stands in the register file. -/
def Fld.at (f : Fld) (i : Nat) : Nat := f.key * 131072 + i

/-- The value a field has after a reset of its block (R6): its Reset column, except VMASK, which the map gives as
0xFFFF_FFFF for Q0 and 0 for the other queues (R143). -/
def Fld.resetAt (f : Fld) (i : Nat) : Nat :=
  if f.key = F.VEC_Q_RANGE_VMASK.key then (if i % 8 = 0 then 0xFFFFFFFF else 0) else f.reset

/-- The stored value of field `f` of unit `i`. -/
def State.rd (s : State) (f : Fld) (i : Nat) : Nat := Tab.get (f.resetAt i) s.regs (f.at i)

/-- `s` with field `f` of unit `i` set to `v` (its low bits). -/
def State.wr (s : State) (f : Fld) (i v : Nat) : State :=
  { s with regs := Tab.set (f.resetAt i) s.regs (f.at i) (v % 2 ^ f.width) }

/-- A one-bit field read as a condition. -/
def State.on (s : State) (f : Fld) (i : Nat) : Bool := decide (s.rd f i ≠ 0)

/-- Bit `b` of field `f` of unit `i` set. -/
def State.setBit (s : State) (f : Fld) (i b : Nat) : State := s.wr f i (s.rd f i ||| 2 ^ b)

/-- Bit `b` of field `f` of unit `i` cleared. -/
def State.clearBit (s : State) (f : Fld) (i b : Nat) : State := s.wr f i (setBits (s.rd f i) b 1 0)

/-- The clamp of a field (R7): the nearest value the map allows. -/
def Fld.clamp (f : Fld) (v : Nat) : Nat := clampTo f.cmin f.cmax (v / 2 ^ f.zeros * 2 ^ f.zeros)

/-- Writes a field under its clamp. -/
def State.wrClamped (s : State) (f : Fld) (i v : Nat) : State := s.wr f i (f.clamp v)

/-- Writes a field only when `c` holds. -/
def State.wrIf (s : State) (c : Bool) (f : Fld) (i v : Nat) : State := if c then s.wr f i v else s

/-- A cumulative counter advanced by `n`: it wraps at 2^64 and then sets its flag (R221). -/
def State.bump (s : State) (c : Cnt) (i n : Nat) : State :=
  let v := s.rd c.fld i + n
  let s := s.wr c.fld i v
  if 2 ^ 64 ≤ v then s.setBit c.wrapFld i c.bit else s

/-- A counter whose flag stands in a register of another unit (VEC_Q_STALL_CNT, NOC_PRB_CNT). -/
def State.bumpTo (s : State) (f : Fld) (i n : Nat) (w : Fld) (wi b : Nat) : State :=
  let v := s.rd f i + n
  let s := s.wr f i v
  if 2 ^ 64 ≤ v then s.setBit w wi b else s

/-- The stored fields of a block between two keys return to their reset values for the units that `p` names. -/
def State.resetFields (s : State) (lo hi : Fld) (p : Nat → Bool) : State :=
  { s with regs := Tab.drop s.regs (fun k => decide (lo.key ≤ k / 131072) && decide (k / 131072 ≤ hi.key) && p (k % 131072)) }

/-! ### What leaves the block, and free values -/

/-- Adds an output; the newest stands first. -/
def State.emit (s : State) (o : Out) : State := { s with outbox := o :: s.outbox }

/-- Signals the MC (R133, R188, ...): the event is named by the status field it concerns and its unit. -/
def State.signalMC (s : State) (f : Fld) (i : Nat) : State := s.emit (.mc f i)

/-- Sets a status flag and signals the MC. -/
def State.flagMC (s : State) (f : Fld) (i : Nat) : State := (s.wr f i 1).signalMC f i

/-- An event calls for an emergency (R215, R280, R285, R289, R294): its Grensel event code, and byte 7, the quarter of origin or 4 for
the hub (R421). -/
def State.owe (s : State) (event byte7 : Nat) : State := { s with dict := { s.dict with owed := s.dict.owed ++ [(event, byte7)] } }

/-- A value the spec leaves open: nothing constrains it, and each use takes the next one. -/
def State.fresh (s : State) : Nat × State := (Config.freeValue s.freeCtr, { s with freeCtr := s.freeCtr + 1 })

/-! ### Units (R16) -/

/-- In assured mode a scheduled session holds the cluster (R21, R50). -/
def schedAssured (s : State) (c : Nat) : Bool :=
  decide (s.rd F.SES_CLOCK_MODE 0 = 0) && s.on F.SES_RESIDENT_VALID c && s.on F.SES_RESIDENT_SCHED c

def coreOfQueue (q : Nat) : Nat := q / 8
def coreOfEngine (e : Nat) : Nat := e / 4
def clusterOfCore (k : Nat) : Nat := k / 16
def clusterOfQueue (q : Nat) : Nat := q / 128

/-! ### Sessions that are admitted (R224, R227) -/

/-- The admitted sessions with their numbers. -/
def State.admitted (s : State) : List (Nat × Sess) := s.ses.sess.filterMap (fun e => e.2.map (fun x => (e.1, x)))

/-- A scheduled session is admitted. -/
def schedAdmitted (s : State) : Bool := s.admitted.any (fun e => e.2.sched)

/-- A quarter is fenced: its bit of TST_FENCE, or quarter 0 without its rails (R466, R469). -/
def quarterFenced (s : State) (q : Nat) : Bool :=
  decide (bit (s.rd F.TST_FENCE_QUARTER 0) q = 1) || (decide (q = 0) && s.inReset 1 0 && decide (bit (s.rd F.PWR_STATUS_Q_ON 0) 0 = 0))

/-- A cluster is fenced (R468): by its bit, with its quarter (R466), or from the start of the cool-down lap (R470). -/
def clusterFenced (s : State) (c : Nat) : Bool :=
  decide (bit (s.rd F.TST_FENCE_CLUSTER 0) c = 1) || quarterFenced s (c / 8) || s.pins.lap

/-- An admitted scheduled session holds the cluster; a session that is SUSPENDED holds none (R227, R235), and a fenced
cluster counts as held (R468). -/
def clusterSched (s : State) (c : Nat) : Bool :=
  clusterFenced s c || s.admitted.any (fun e => e.2.sched && decide (e.2.st ≠ 3) && decide (bit e.2.clusters c = 1))

/-- An admitted session holds the cluster. -/
def clusterTaken (s : State) (c : Nat) : Bool := s.admitted.any (fun e => decide (e.2.st ≠ 3) && decide (bit e.2.clusters c = 1))

/-! ### Heats that fire, trips (R440, R443, R446) -/

/-- A record enters the Pacer's log of 32, or is discarded when it is full. -/
def pacLog (s : State) (heat kind cluster engine : Nat) : State :=
  if 32 ≤ s.pwr.log.length then s.wr F.PAC_STATUS_LOG_OVF 0 1
  else { s with pwr := { s.pwr with log := s.pwr.log ++ [⟨heat, kind, cluster, engine, s.trk.ts % 2 ^ 40⟩] } }

/-- The emergency that a firing calls for (R445): event and byte 7. -/
def heatEvent (s : State) (h : Nat) : Option (Nat × Nat) :=
  if h = 0 then some (0x21000001, 4)
  else if h = 1 then some (0x21000002, 4)
  else if h < 6 then some (0x21000001, h - 2)
  else if h < 10 then some (0x21000002, h - 6)
  else if 16 ≤ h ∧ s.rd F.PAC_HEAT_ACT_SIG h = 1 then some (0x21000100 + h, 4)
  else none

/-- A heat fires: it is shown, counted and logged, and signals the MC when SIG is set. -/
def fireHeat (s : State) (h : Nat) : State :=
  let s := match heatEvent s h with | some e => s.owe e.1 e.2 | none => s
  let s := pacLog ((s.wr F.PAC_HEAT_STAT_FIRED h 1).bump C.PAC_FIRE_CNT 0 1) h 0 0 0
  if s.on F.PAC_HEAT_ACT_SIG h then s.signalMC F.PAC_HEAT_STAT_FIRED h else s

/-- A trip holds the feeds of the engines of quarter `q`. -/
def tripHolds (s : State) (q : Nat) : Bool := s.on F.PAC_TRIP_POWER 0 || decide (bit (s.rd F.PAC_TRIP_THERM 0) q = 1)

/-- A throttle that is refused is counted, flagged and signalled (R442). -/
def throttleRefused (s : State) (heat kind cluster engine : Nat) : State :=
  pacLog (((s.bump C.PAC_REFUSED_CNT 0 1).flagMC F.PAC_STATUS_THROTTLE_REFUSED 0).owe 0x21000005 (cluster / 8)) heat kind cluster engine

/-! ### The address space (R12, R13) -/

/-- Where a device address lies. -/
inductive Region where
  | hbm
  | scratch (core : Nat)
  | staging (cluster : Nat)
  | window (off : Nat)
  | cxl (off : Nat)
  | host
  | hole
  deriving DecidableEq, Repr

def scratchBase : Nat := 0x010000000000
def stagingBase : Nat := 0x010100000000
def windowBase : Nat := 0x020000000000
def cxlBase : Nat := 0x100000000000
def hostBase : Nat := 0x800000000000

/-- The region of a DA (R12); a DA outside every range is a hole (R13). -/
def regionOf (da : Nat) : Region :=
  if da < 0x006000000000 then .hbm
  else if scratchBase ≤ da ∧ da < scratchBase + 512 * 0x100000 then .scratch ((da - scratchBase) / 0x100000)
  else if stagingBase ≤ da ∧ da < stagingBase + 32 * 0x200000 then .staging ((da - stagingBase) / 0x200000)
  else if windowBase ≤ da ∧ da < windowBase + 0x4000000 then .window (da - windowBase)
  else if cxlBase ≤ da ∧ da < 0x180000000000 then .cxl (da - cxlBase)
  else if hostBase ≤ da ∧ da < 0x1000000000000 then .host
  else .hole

/-- The cluster whose on-chip memory a DA lies in. -/
def clusterOfDA (da : Nat) : Option Nat :=
  match regionOf da with
  | .scratch k => some (k / 16)
  | .staging c => some c
  | _ => none

/-- Bytes [da, da + len) lie in the places of R47 for cluster `c`: the scratchpads of its cores, which lie next to one
another, or its staging buffer. -/
def inPlaces (c da len : Nat) : Bool :=
  (decide (scratchBase + c * 0x1000000 ≤ da) && decide (da + len ≤ scratchBase + (c + 1) * 0x1000000)) ||
  (decide (stagingBase + c * 0x200000 ≤ da) && decide (da + len ≤ stagingBase + (c + 1) * 0x200000))

/-! ### On-chip memory (R111, R171-R175) -/

/-- The memory at a DA is in reset or without power: accesses complete with error responses (R434). -/
def padDown (s : State) (da : Nat) : Bool :=
  match regionOf da with
  | .scratch k => s.coreDown k
  | .staging c => s.clusterDown c
  | _ => false

/-- A byte of a table of bytes; a byte nothing has written reads as 0. -/
def byteAt (m : Tab Byte) (a : Nat) : Byte := Tab.get 0 m a

/-- `n` bytes from address `a`. -/
def readBytes (m : Tab Byte) (a : Nat) : Nat → List Byte
  | 0 => []
  | n + 1 => byteAt m a :: readBytes m (a + 1) n

/-- The table with bytes written from address `a` on. -/
def writeBytes (m : Tab Byte) (a : Nat) : List Byte → Tab Byte
  | [] => m
  | b :: r => writeBytes (Tab.set 0 m a b) (a + 1) r

/-- Little-endian value of `n` bytes (R4). -/
def readNat (m : Tab Byte) (a n : Nat) : Nat := ofBytesLE (readBytes m a n)

/-- The full/empty bit of the word at DA `8 * w`. -/
def State.isFull (s : State) (w : Nat) : Bool := Tab.get false s.full w

/-- The full/empty bit of a word set or cleared. -/
def State.setFull (s : State) (w : Nat) (v : Bool) : State := { s with full := Tab.set false s.full w v }

/-- The words, by DA / 8, that bytes [da, da + len) touch. -/
def wordsOf (da len : Nat) : List Nat :=
  if len = 0 then [] else (List.range ((da + len - 1) / 8 - da / 8 + 1)).map (fun k => da / 8 + k)

/-- The words that bytes [da, da + len) cover wholly. -/
def wholeWords (da len : Nat) : List Nat :=
  (wordsOf da len).filter (fun w => decide (da ≤ w * 8) && decide (w * 8 + 8 ≤ da + len))

/-- Bytes shared by [a, a + n) and [b, b + m). -/
def overlapLen (a n b m : Nat) : Nat := Nat.min (a + n) (b + m) - Nat.max a b

/-- Credit of one window for bytes committed at [da, da + len) (R186). -/
def creditWindow (da len : Nat) (s : State) (w : Nat) : State :=
  let k := overlapLen da len (s.rd F.HUR_WIN_BASE_DA w) (s.rd F.HUR_WIN_LEN_LEN w)
  if k = 0 then s else s.wr F.HUR_WIN_CREDIT_CREDIT w (s.rd F.HUR_WIN_CREDIT_CREDIT w + k)

/-- Credits of every window of a cluster for bytes committed there (R186). -/
def creditWindows (s : State) (c da len : Nat) : State :=
  (List.range 64).foldl (fun s w => creditWindow da len s (c * 64 + w)) s

/-- Bytes committed to on-chip memory: the bytes, and the credits of the cluster's baton windows. Full/empty bits are
set by the access that makes the write. -/
def State.commit (s : State) (da : Nat) (bs : List Byte) : State :=
  let s := { s with sram := writeBytes s.sram da bs }
  match clusterOfDA da with
  | some c => creditWindows s c da bs.length
  | none => s

/-- Full bits set for the given words. -/
def State.fillWords (s : State) (ws : List Nat) : State := ws.foldl (fun s w => s.setFull w true) s

/-- Empty bits set for the given words. -/
def State.emptyWords (s : State) (ws : List Nat) : State := ws.foldl (fun s w => s.setFull w false) s

/-- A plain store of bytes to on-chip memory (R172, R174): words covered wholly become full. -/
def State.storePlain (s : State) (da : Nat) (bs : List Byte) : State :=
  (s.commit da bs).fillWords (wholeWords da bs.length)

/-- An output write that may complete its last word (R46, R174). -/
def State.storeOut (s : State) (o : OutWrite) : State :=
  let s := s.storePlain o.da o.bytes
  if o.fill then s.fillWords (wordsOf o.da o.bytes.length) else s

/-- The 64-bit word at DA `8 * w`. -/
def State.word (s : State) (w : Nat) : Nat := readNat s.sram (w * 8) 8

/-- Every word that bytes [da, da + len) touch is full (R49). -/
def State.allFull (s : State) (da len : Nat) : Bool := (wordsOf da len).all s.isFull

/-- The state an access in full/empty mode `m` requires of a word (R172): any, or a given bit. -/
def feReady (s : State) (m : Nat) (store : Bool) (w : Nat) : Bool :=
  match m, store with
  | 0, _ => true
  | 1, false => s.isFull w
  | 1, true => !(s.isFull w)
  | _, _ => s.isFull w

/-- What an access in mode `m` leaves of the words it performed on (R172): a plain load leaves them, a store or a sync
load leaves full, a consume load leaves empty. -/
def feLeave (s : State) (m : Nat) (store : Bool) (ws : List Nat) : State :=
  if store then s.fillWords ws
  else if m = 2 then s.emptyWords ws else s

/-- Whether a recorded waiter could be performed now. -/
def Waiter.ready (s : State) (w : Waiter) : Bool := w.words.all (feReady s w.mode w.store)

/-- Two lists of words share one. -/
def sharesWord (a b : List Nat) : Bool := a.any (fun x => b.contains x)

/-- An access to words `ws` may be performed now: its words are in the state it requires, and no waiter that came before
it could be served on one of them (R173). -/
def mayAccess (s : State) (earlier : List Waiter) (m : Nat) (store : Bool) (ws : List Nat) : Bool :=
  ws.all (feReady s m store) && !(earlier.any (fun w => sharesWord w.words ws && w.ready s))

/-- The waiters recorded before the first one of an agent on the given words. -/
def waitersBefore (who : Agent) (ws : List Nat) : List Waiter → List Waiter
  | [] => []
  | w :: r => if w.who = who ∧ w.words = ws then [] else w :: waitersBefore who ws r

def State.addWaiter (s : State) (w : Waiter) : State := { s with sync := { s.sync with waiters := s.sync.waiters ++ [w] } }

/-- The waiters of an agent are recorded no longer. -/
def State.dropWaiters (s : State) (who : Agent) : State :=
  { s with sync := { s.sync with waiters := s.sync.waiters.filter (fun w => decide (w.who ≠ who)) } }

/-- The list without the first access of an agent on the given words. -/
def withoutWaiter (who : Agent) (ws : List Nat) : List Waiter → List Waiter
  | [] => []
  | w :: r => if w.who = who ∧ w.words = ws then r else w :: withoutWaiter who ws r

/-- One waiting access of an agent is recorded no longer. -/
def State.dropWaiter (s : State) (who : Agent) (ws : List Nat) : State :=
  { s with sync := { s.sync with waiters := withoutWaiter who ws s.sync.waiters } }

/-- An access to memory completes with an error response: the memory is in reset or without power (R430). -/
def memDown (s : State) (ws : List Nat) : Bool := ws.any (fun w => padDown s (w * 8))

/-- The scratchpad or staging buffer that a DA lies in is being initialised (R111, R171): an access waits. -/
def padBusy (s : State) (da : Nat) : Bool :=
  match regionOf da with
  | .scratch k => s.on F.VEC_STATUS_SPAD_INIT k
  | .staging c => !(Tab.get false s.sync.staged c)
  | _ => false

/-- Words that an engine or a convert unit may read now (R49, R82): full, and of memory that answers. -/
def wordsReadable (s : State) (ws : List Nat) : Bool := ws.all (fun w => s.isFull w && !(padBusy s (w * 8)) && !(padDown s (w * 8)))

end Sys2Proof.Machine
end

