-- ==== Sys2Proof/Machine/Seq.lean ====
section
/-!
DEFINITION. The sequencer of a core (R112-R122, R130-R134): scalar, predicate and vector registers, the loop stack, the
legality of instruction words, faults and waits of a queue, and the one operation by which every tile instruction
issues.
-/
namespace Sys2Proof.Machine

/-! ### Register files (R112) -/

/-- S register `r` of queue `q`; S0 reads as zero. -/
def State.sreg (s : State) (q r : Nat) : Nat := if r = 0 then 0 else (Tab.get 0 s.tile.sregs (q * 32 + r)).toNat

/-- Writes S register `r` of queue `q`; a write of S0 is discarded. -/
def State.setS (s : State) (q r v : Nat) : State :=
  if r = 0 then s else { s with tile := { s.tile with sregs := Tab.set 0 s.tile.sregs (q * 32 + r) (BitVec.ofNat 64 v) } }

/-- Predicate register `p` of queue `q`. -/
def State.preg (s : State) (q p : Nat) : Nat := (Tab.get 0 s.tile.pregs (q * 8 + p)).toNat

def State.setP (s : State) (q p v : Nat) : State :=
  { s with tile := { s.tile with pregs := Tab.set 0 s.tile.pregs (q * 8 + p) (BitVec.ofNat 64 v) } }

/-- Vector register `v` of the core of queue `q`. -/
def State.vreg (s : State) (q v : Nat) : Nat := (Tab.get 0 s.tile.vregs (coreOfQueue q * 32 + v)).toNat

def State.setV (s : State) (q v x : Nat) : State :=
  { s with tile := { s.tile with vregs := Tab.set 0 s.tile.vregs (coreOfQueue q * 32 + v) (BitVec.ofNat 2048 x) } }

def State.loopStack (s : State) (q : Nat) : List LoopLvl := Tab.get [] s.tile.loops q

/-- Sets the loop stack and the depth that VEC_Q_STAT shows. -/
def State.setLoops (s : State) (q : Nat) (l : List LoopLvl) : State :=
  ({ s with tile := { s.tile with loops := Tab.set [] s.tile.loops q l } } : State).wr F.VEC_Q_STAT_LOOP_DEPTH q l.length

def State.headWait (s : State) (q : Nat) : HeadWait := Tab.get .plain s.tile.heads q

def State.setHead (s : State) (q : Nat) (h : HeadWait) : State :=
  { s with tile := { s.tile with heads := Tab.set .plain s.tile.heads q h } }

/-- The queue's instruction is marked ARRIVED (R136). -/
def State.arrivedMark (s : State) (q : Nat) : Bool := Tab.get false s.tile.arrived q

def State.setArrived (s : State) (q : Nat) (v : Bool) : State :=
  { s with tile := { s.tile with arrived := Tab.set false s.tile.arrived q v } }

/-- Word `w` of the instruction memory of core `k`. -/
def State.imemWord (s : State) (k w : Nat) : Nat := (Tab.get 0 s.tile.imem (k * 4096 + w)).toNat

/-! ### Fields of the instruction word (R119, R122) -/

def wClass (w : Nat) : Nat := bits w 0 3
def wOp (w : Nat) : Nat := bits w 3 5
def wPEN (w : Nat) : Bool := decide (bit w 8 = 1)
def wPSEL (w : Nat) : Nat := bits w 9 3
def wPNEG (w : Nat) : Nat := bit w 12
def wTAG (w : Nat) : Nat := bits w 16 16
/-- Register fields at [36:32], [41:37], [46:42], [51:47]. -/
def wR0 (w : Nat) : Nat := bits w 32 5
def wR1 (w : Nat) : Nat := bits w 37 5
def wR2 (w : Nat) : Nat := bits w 42 5
def wR3 (w : Nat) : Nat := bits w 47 5
def wIMM (w : Nat) : Nat := bits w 64 32
/-- IMM32 sign-extended to 64 bits. -/
def wIMMs (w : Nat) : Nat := wrapInt 64 (sext 32 (wIMM w))
/-- Fields of the matrix and convert classes. -/
def wSB (w : Nat) : Nat := bits w 34 5
def wSREC (w : Nat) : Nat := bits w 39 5
def wSQD (w : Nat) : Nat := bits w 44 5
/-- Fields of the vector class. -/
def wTYPE (w : Nat) : Nat := bits w 52 2
def wRM (w : Nat) : Nat := bits w 54 2
def wVSA (w : Nat) : Nat := bits w 56 5
def wVFE (w : Nat) : Nat := bits w 61 2
def wBCAST (w : Nat) : Bool := decide (bit w 63 = 1)
def wVSREC (w : Nat) : Nat := bits w 96 5
/-- Fields of the loop class. -/
def wIMMSEL (w : Nat) : Bool := decide (bit w 47 = 1)
def wCOND (w : Nat) : Nat := bits w 48 3
def wLFE (w : Nat) : Nat := bits w 51 2
def wLEN (w : Nat) : Nat := bits w 96 12

/-- Bits `lo` and above up to bit 127 are zero. -/
def zeroFrom (w lo : Nat) : Bool := decide (w % 2 ^ 128 / 2 ^ lo = 0)

/-- The vector operation and its TYPE are in the table of R127. -/
def vecOpLegal (w : Nat) : Bool :=
  let t := wTYPE w
  let fl := decide (t ≤ 1)
  let all := decide (t ≤ 2)
  match wOp w with
  | 0x00 => all | 0x01 => all | 0x02 => all
  | 0x03 => fl | 0x04 => fl | 0x05 => fl
  | 0x06 => all | 0x07 => all
  | 0x08 => fl | 0x09 => fl
  | 0x0A => all && decide (bits (wR0 w) 3 2 = 0) && decide (bits (wIMM w) 0 3 ≤ 6)
  | 0x0B => all
  | 0x0C => all && [0x00, 0x01, 0x02, 0x03, 0x0E].contains (bits (wIMM w) 0 5)
  | 0x0D => fl
  | 0x0E => all
  | 0x10 => all && decide (wVFE w ≤ 2) | 0x11 => all && decide (wVFE w ≤ 2)
  | 0x12 => all | 0x13 => all
  | 0x14 => decide (t = 2) | 0x15 => decide (t = 2) | 0x16 => decide (t = 2)
  | 0x17 => decide (t = 2) | 0x18 => decide (t = 2)
  | 0x1F => all
  | _ => false

/-- The word is legal (R119, R122): listed class and OP, listed field codes, reserved bits zero. Format and block codes
of matrix and convert words are judged by R33 instead (R55). -/
def wordLegal (w : Nat) : Bool :=
  decide (bits w 13 3 = 0) &&
  match wClass w with
  | 0 => decide (wOp w = 0) && zeroFrom w 78 && decide (wSB w ≤ 24)
  | 1 => zeroFrom w 101 && decide (wTYPE w ≤ 2) && vecOpLegal w
  | 2 => decide (wOp w ≤ 1) && decide (bits w 32 2 = 0) && zeroFrom w 57 && decide (wSB w ≤ 29) &&
      decide (¬ (wOp w = 1 ∧ bits w 54 2 = 3))
  | 3 => decide (wOp w = 0) && zeroFrom w 47
  | 4 => decide (wOp w ≤ 6) && zeroFrom w 42
  | 5 => decide (wOp w = 0) && zeroFrom w 47
  | 6 => decide (wOp w ≤ 2) && decide (bits w 40 24 = 0) && zeroFrom w 96 && (decide (wOp w = 0) || decide (bits w 35 5 ≤ 30))
  | _ => decide (bits w 53 11 = 0) && zeroFrom w 108 &&
      (match wOp w with
       | 0x00 => true | 0x01 => true | 0x02 => true
       | 0x03 => decide (wCOND w ≤ 6)
       | 0x13 => decide (wLFE w ≤ 2) | 0x14 => decide (wLFE w ≤ 2)
       | o => decide (0x08 ≤ o ∧ o ≤ 0x12) || decide (0x15 ≤ o ∧ o ≤ 0x17))

/-- The vector registers that a vector word names as operands or destination (R126, R127). -/
def vregsNamed (w : Nat) : List Nat :=
  let d := wR0 w
  let a := wR1 w
  let b := if wBCAST w then [] else [wR2 w]
  match wOp w with
  | 0x00 => d :: a :: b | 0x01 => d :: a :: b | 0x02 => d :: a :: b
  | 0x03 => d :: a :: wR3 w :: b
  | 0x04 => d :: a :: b | 0x05 => [d, a]
  | 0x06 => d :: a :: b | 0x07 => d :: a :: b
  | 0x08 => [d, a] | 0x09 => [d, a]
  | 0x0A => a :: b
  | 0x0B => d :: a :: b
  | 0x0C => [d, a]
  | 0x0D => [a] | 0x0E => [a]
  | 0x10 => [d] | 0x11 => [d]
  | 0x12 => [d] | 0x13 => [a]
  | 0x14 => d :: a :: b | 0x15 => d :: a :: b | 0x16 => d :: a :: b
  | 0x17 => [d, a] | 0x18 => [d, a]
  | _ => []

/-! ### Queue states (R133) -/

def qIDLE : Nat := 0
def qRUN : Nat := 1
def qWAIT : Nat := 2
def qHALTED : Nat := 3
def qFAULT : Nat := 4
def qSAVED : Nat := 5

def State.qState (s : State) (q : Nat) : Nat := s.rd F.VEC_Q_STAT_STATE q
def State.qPC (s : State) (q : Nat) : Nat := s.rd F.VEC_Q_PC_PC q
/-- The word at the queue's PC. -/
def State.headWord (s : State) (q : Nat) : Nat := s.imemWord (coreOfQueue q) (s.qPC q)
def State.running (s : State) (q : Nat) : Bool := decide (s.qState q = qRUN) || decide (s.qState q = qWAIT)

/-- The head of queue `q` waits with condition `c` of R118; `h` says what ends the wait. -/
def State.holdHead (s : State) (q c : Nat) (h : HeadWait) : State :=
  ((s.wr F.VEC_Q_STAT_STATE q qWAIT).wr F.VEC_Q_STAT_WAIT_ON q c).setHead q h

/-- The queue issues again: no wait is shown (R133). -/
def State.unhold (s : State) (q : Nat) : State :=
  ((s.wr F.VEC_Q_STAT_STATE q qRUN).wr F.VEC_Q_STAT_WAIT_ON q 0).setHead q .plain

/-- Where the loop stack leaves a queue that has finished word `last`: the innermost loop whose body ends there repeats
or is left, innermost first (R131). -/
def afterWord (last : Nat) : List LoopLvl → Nat × List LoopLvl
  | [] => ((last + 1) % 4096, [])
  | l :: r =>
    if l.last = last then
      if 1 < l.left then (l.first, { l with left := l.left - 1, index := l.index + 1 } :: r)
      else afterWord last r
    else ((last + 1) % 4096, l :: r)

/-- The queue goes on after word `last`. -/
def State.advanceFrom (s : State) (q last : Nat) : State :=
  let r := afterWord last (s.loopStack q)
  (s.setLoops q r.2).wr F.VEC_Q_PC_PC q r.1

/-- The head instruction is finished with: the queue runs on at the next word. -/
def State.doneHead (s : State) (q : Nat) : State := ((s.unhold q).setArrived q false).advanceFrom q (s.qPC q)

/-- One instruction issued (VEC_ISSUE_CNT). -/
def State.countIssue (s : State) (q : Nat) : State := s.bump C.VEC_ISSUE_CNT (coreOfQueue q) 1

/-- A queue faults with a cause of R134: PC stays on the word, and the MC is signalled. -/
def State.faultQueue (s : State) (q cause : Nat) : State :=
  let s := (s.wr F.VEC_Q_STAT_STATE q qFAULT).wr F.VEC_Q_STAT_WAIT_ON q 0
  let s := (s.wr F.VEC_Q_STAT_FAULT_CAUSE q cause).setHead q .plain
  s.flagMC F.VEC_STATUS_Q_FAULT (coreOfQueue q)

/-! ### Predicates, addresses and checks of the head -/

/-- The predicate of a word that is not of the vector class holds (R120). -/
def predOn (s : State) (q w : Nat) : Bool :=
  !(wPEN w) || decide ((bit (s.preg q (wPSEL w)) 0 + wPNEG w) % 2 = 1)

/-- The address of a vector load or store: S[SA] + IMM32 (R127). -/
def vecAddr (s : State) (q w : Nat) : Nat := (s.sreg q (wVSA w) + wIMMs w) % 2 ^ 64

/-- The address of a scalar load or store: S[SA] + IMM32 (R130). -/
def scalAddr (s : State) (q w : Nat) : Nat := (s.sreg q (wR1 w) + wIMMs w) % 2 ^ 64

/-- Operand b of the loop class (R130). -/
def scalB (s : State) (q w : Nat) : Nat := if wIMMSEL w then wIMMs w else s.sreg q (wR2 w)

/-- The target of a branch (R130): PC plus the signed immediate. -/
def brTarget (s : State) (q w : Nat) : Int := (s.qPC q : Int) + sext 32 (wIMM w)

/-- The condition of a branch (R130). -/
def brTaken (s : State) (q w : Nat) : Bool :=
  let a := s.sreg q (wR1 w)
  let b := s.sreg q (wR2 w)
  match wCOND w with
  | 0 => decide (a = b) | 1 => decide (a ≠ b)
  | 2 => decide (sext 64 a < sext 64 b) | 3 => decide (sext 64 b ≤ sext 64 a)
  | 4 => decide (a < b) | 5 => decide (b ≤ a)
  | _ => true

/-- A global address names the signal address of a hurdle (R176, R184): its flags and DA. -/
def hurdleOfDA (da : Nat) : Option Nat :=
  if da < windowBase + 0x1000000 ∨ windowBase + 0x2000000 ≤ da then none
  else
    let o := da - windowBase - 0x1000000
    let qo := o % 0x400000
    if qo < 0x200000 then none
    else
      let co := (qo - 0x200000) % 0x40000
      if co < 0x30000 ∨ co % 0x20 ≠ 0 then none
      else some ((o / 0x400000 * 8 + (qo - 0x200000) / 0x40000) * 2048 + (co - 0x30000) / 0x20)

/-- The signal address of a hurdle (R176). -/
def hurdleDA (h : Nat) : Nat := windowBase + clusterBase (h / 2048) + 0x30000 + h % 2048 * 0x20

/-- The fault that the head of a queue meets, if any (R131, R132, R134): the word does not issue then. -/
def headFault (s : State) (q : Nat) : Option Nat :=
  let pc := s.qPC q
  let hi := s.rd F.VEC_Q_RANGE_HI q
  let lo := s.rd F.VEC_Q_RANGE_LO q
  if pc < lo ∨ hi < pc then some 0x02
  else
    let w := s.headWord q
    if !(wordLegal w) then some 0x01
    else
      match wClass w with
      | 1 =>
        if (vregsNamed w).any (fun v => decide (bit (s.rd F.VEC_Q_RANGE_VMASK q) v = 0)) then some 0x03
        else if wOp w = 0x10 ∨ wOp w = 0x11 then
          let a := vecAddr s q w
          if a % 8 = 0 ∧ inPlaces (clusterOfQueue q) a 256 then none else some 0x07
        else none
      | 5 =>
        if !(predOn s q w) then none
        else
          let ga := s.sreg q (wR0 w)
          if ga / 2 ^ 63 = 0 ∧ (hurdleOfDA (ga % 2 ^ 48)).isSome then none else some 0x07
      | 7 =>
        if !(predOn s q w) then none
        else match wOp w with
          | 0x01 =>
            if wLEN w = 0 ∨ hi < pc + wLEN w then some 0x05
            else if (s.loopStack q).any (fun l => decide (pc ≤ l.last ∧ l.last < pc + wLEN w)) then some 0x05
            else if 4 ≤ (s.loopStack q).length then some 0x04
            else none
          | 0x03 =>
            if brTaken s q w ∧ (brTarget s q w < (lo : Int) ∨ (hi : Int) < brTarget s q w) then some 0x06 else none
          | 0x13 =>
            let a := scalAddr s q w
            if a % 8 = 0 ∧ inPlaces (clusterOfQueue q) a 8 then none else some 0x07
          | 0x14 =>
            let a := scalAddr s q w
            if a % 8 = 0 ∧ inPlaces (clusterOfQueue q) a 8 then none else some 0x07
          | _ => none
      | _ => none

/-- A core does not issue while a context save or restore is in progress (R136), or while it is in reset (R430). -/
def coreStopped (s : State) (k : Nat) : Bool := s.on F.VEC_CTX_STATUS_BUSY k || s.coreDown k

/-- The one way a tile instruction issues: queue `q` runs, its head is not held by an event, its core is enabled
(else the head waits with WAIT_ON 0x8), and its head is the instruction `cls`, `op`. A head that faults faults the
queue instead (R134); a head predicated off is complete at issue (R120). `eff` is the instruction's own effect. -/
def issue (s : State) (q cls op : Nat) (eff : State → Nat → State) : State :=
  if !(s.running q) || coreStopped s (coreOfQueue q) then s
  else if s.headWait q ≠ .plain then s
  else if !(s.on F.VEC_CTRL_EN (coreOfQueue q)) then s.holdHead q 0x8 .plain
  else match headFault s q with
    | some c => s.faultQueue q c
    | none =>
      let w := s.headWord q
      if wClass w ≠ cls ∨ wOp w ≠ op then s
      else if cls ≠ 1 && !(predOn s q w) then (s.countIssue q).doneHead q
      else eff s w

end Sys2Proof.Machine
end

