-- ==== Sys2Proof/Machine/Hurdles.lean ====
section
/-!
DEFINITION. Hurdles (R176-R183) and the finish-line work they carry (R211): arrivals, generations, waiters, and the
hurdle class of instructions with the register operations HUR_OP, HUR_STATE and HUR_CFG. A hurdle is numbered global
cluster x 2048 + h.
-/
namespace Sys2Proof.Machine

/-! ### Track positions (R195, R207) -/

def State.track (s : State) (t : Nat) : Track := Tab.get Track.off s.trk.tracks t
def State.setTrack (s : State) (t : Nat) (k : Track) : State :=
  { s with trk := { s.trk with tracks := Tab.set Track.off s.trk.tracks t k } }
def State.lap (s : State) (t : Nat) : Nat := s.rd F.TRK_LAP_LAP t
def State.trkState (s : State) (t : Nat) : Nat := s.rd F.TRK_STATUS_STATE t

/-- A position as one number that orders as R195 says. -/
def posOf (lap angle : Nat) : Nat := lap * 2 ^ 32 + angle
/-- The position of track `t`, which every cluster sees (R207). -/
def State.position (s : State) (t : Nat) : Nat := posOf (s.lap t) (s.track t).angle

/-! ### Arrivals (R177, R180, R211) -/

def clusterOfHurdle (h : Nat) : Nat := h / 2048
def State.gen (s : State) (h : Nat) : Nat := s.rd F.HUR_STATE_GEN h

/-- A waiter is woken (R180): its result is written, its instruction is complete and its queue resumes. -/
def wakeWaiter (s : State) (w : HurWaiter) : State :=
  let s := if w.sync then s else s.setS w.queue w.dest (s.gen w.hur)
  (s.countIssue w.queue).doneHead w.queue

/-- Every waiter of hurdle `h` whose condition holds is woken, in the order of record. -/
def wakeWaiters (s : State) (h : Nat) : State :=
  let woken := s.sync.hurWait.filter (fun w => decide (w.hur = h) && genPassed (s.gen h) w.arg)
  let rest := s.sync.hurWait.filter (fun w => !(decide (w.hur = h) && genPassed (s.gen h) w.arg))
  woken.foldl wakeWaiter { s with sync := { s.sync with hurWait := rest } }

/-- The position of a slot's finish line. -/
def slotPos (s : State) (slot : Nat) : Nat := posOf (s.rd F.TRK_FL_LAP_LAP slot) (s.rd F.TRK_FL_SET_ANGLE slot)
/-- Angle units from the cluster position to a slot's finish line, saturated (R211). -/
def slotMargin (s : State) (slot : Nat) : Nat :=
  Nat.min (slotPos s slot - s.position (s.rd F.TRK_FL_SET_TRK slot)) (2 ^ 32 - 1)
/-- The work of a slot is met (R211). -/
def slotMet (s : State) (slot : Nat) : Bool :=
  genPassed (s.gen (slot / 64 * 2048 + s.rd F.TRK_FL_SET_HUR slot)) (s.rd F.TRK_FL_GEN_G slot)

/-- MARGIN recorded for an armed slot of hurdle `h` whose work becomes met with GEN going from `old` to its present
value (R211). -/
def recordMargin (h old : Nat) (s : State) (slot : Nat) : State :=
  if s.on F.TRK_FL_STAT_ARMED slot && decide (s.rd F.TRK_FL_SET_HUR slot = h % 2048) &&
     !(genPassed old (s.rd F.TRK_FL_GEN_G slot)) && slotMet s slot
  then s.wr F.TRK_FL_STAT_MARGIN slot (slotMargin s slot) else s

/-- What a change of GEN brings about: margins of the cluster's armed slots, then the waiters. -/
def genChanged (s : State) (h old : Nat) : State :=
  if s.gen h = old then s
  else wakeWaiters ((List.range 64).foldl (fun s n => recordMargin h old s (clusterOfHurdle h * 64 + n)) s) h

/-- Generations complete while COUNT is at least TARGET (R177): `count` is the sum reached. -/
def settle (s : State) (h count : Nat) : State :=
  let t := s.rd F.HUR_CFG_TARGET h
  let k := if t = 0 then 0 else count / t
  let old := s.gen h
  let s := (s.wr F.HUR_STATE_COUNT h (count - k * t)).wr F.HUR_STATE_GEN h (old + k)
  genChanged (s.bump C.HUR_COMPLETE_CNT (clusterOfHurdle h) k) h old

/-- An arrival of `n` at hurdle `h` (R177). -/
def arrive (s : State) (h n : Nat) : State :=
  settle (s.bump C.HUR_ARRIVE_CNT (clusterOfHurdle h) n) h (s.rd F.HUR_STATE_COUNT h + n)

/-- hinit (R179): TARGET, COUNT, MODE and WIN; GEN and VALUE stay. -/
def hurInit (s : State) (h arg : Nat) : State :=
  (((s.wr F.HUR_CFG_TARGET h (clampTo 1 65535 (bits arg 0 16))).wr F.HUR_STATE_COUNT h 0).wr
    F.HUR_CFG_MODE h (bit arg 16)).wr F.HUR_CFG_WIN h (bits arg 17 6)

/-! ### The hurdle class of instructions (R178-R181) -/

/-- The hurdle an instruction's operand names (R178). -/
def hurdleNamed (q v : Nat) : Nat := (if bit v 16 = 1 then clusterOfQueue q else bits v 11 5) * 2048 + bits v 0 11

/-- A matrix or convert instruction of queue `q` that is not complete (R117). -/
def writesPending (s : State) (q : Nat) : Bool :=
  let k := coreOfQueue q
  (List.range 4).any (fun e =>
    let g := Tab.get Engine.idle s.tile.engines (k * 4 + e)
    (g.ending ++ g.cur.toList).any (fun r => decide (r.ins.queue = q)) ||
    (match g.staged with | some i => decide (i.queue = q) | none => false)) ||
  (match Tab.get none s.tile.conv k with | some o => decide (o.kind ≠ 2 ∧ o.ins.queue = q) | none => false) ||
  s.tile.recs.any (fun w => decide (w.queue = q))

def State.stream (s : State) (g : Nat) : Stream := Tab.get Stream.idle s.streams g

/-- A STREAM instruction of queue `q` that is not complete: a set it armed has not ended (R145). -/
def streamsPending (s : State) (q : Nat) : Bool :=
  [0, 1].any (fun e => let g := s.stream (coreOfQueue q * 2 + e)
    (g.set0.armed && decide (g.set0.queue = q)) || (g.set1.armed && decide (g.set1.queue = q)))

/-- Arrivals and batons wait at the hurdle table of this hurdle's cluster (HUR_CTRL.EN is 0). -/
def tableShut (s : State) (h : Nat) : Bool := !(s.on F.HUR_CTRL_EN (clusterOfHurdle h))

def State.holdOp (s : State) (o : HeldOp) : State := { s with sync := { s.sync with held := s.sync.held ++ [o] } }

/-- A queue is recorded as waiter at a hurdle (R180). -/
def recordWaiter (s : State) (w : HurWaiter) : State :=
  ({ s with sync := { s.sync with hurWait := s.sync.hurWait ++ [w] } } : State).holdHead w.queue 0x4 .hurdle

/-- The wait of hwait or hsync at a hurdle: it ends at once when GEN has passed the argument, else the queue waits. -/
def hurdleWait (s : State) (w : HurWaiter) : State :=
  if genPassed (s.gen w.hur) w.arg then wakeWaiter s w else recordWaiter s w

/-- A hurdle of a cluster in reset (R183, R434): nothing reaches it, and a request gets an error response. -/
def hurdleDown (s : State) (h : Nat) : Bool := s.clusterDown (clusterOfHurdle h)

/-- A hurdle instruction whose hurdle is in reset: the error response completes it and S[SD] stays, as for a load in R134. DEDUCED
(log entry 102). -/
def hurdleError (s : State) (q : Nat) : State := (s.countIssue q).doneHead q

/-- An arrival that an instruction makes, with its result: the generation of the arrival (R179). hsync then waits. -/
def arriveFor (s : State) (h n q dest : Nat) (sync : Bool) : State :=
  let g := s.gen h
  let s := (arrive s h n).setS q dest g
  if sync then hurdleWait (s.setArrived q true) ⟨h, q, g, dest, true⟩ else (s.countIssue q).doneHead q

/-- harrive, hadd and hsync: the instruction waits for earlier writes of its queue (R181), and its arrival waits while
the table is shut; an hsync marked ARRIVED only waits (R183). -/
def arriveInstr (s : State) (q w n : Nat) (sync : Bool) : State :=
  let h := hurdleNamed q (s.sreg q (wR0 w))
  if writesPending s q then s.holdHead q 0x4 .plain
  else
    if hurdleDown s h then hurdleError s q
    else if sync && s.arrivedMark q then hurdleWait s ⟨h, q, s.sreg q (wR1 w) % 2 ^ 32, wR1 w, true⟩
    else if tableShut s h then (s.holdOp (.arrive h n (some (q, wR1 w, sync)))).holdHead q 0x4 .held
    else arriveFor s h n q (wR1 w) sync

/-- hinit (R179): S[SD] is GEN. -/
def hinitEff (s : State) (q w : Nat) : State :=
  let v := s.sreg q (wR0 w)
  let h := hurdleNamed q v
  if hurdleDown s h then hurdleError s q
  else ((hurInit (s.countIssue q) h (bits v 32 32)).setS q (wR1 w) (s.gen h)).doneHead q

/-- hwait (R179, R180): waits until GEN has passed the argument. -/
def hwaitEff (s : State) (q w : Nat) : State :=
  let v := s.sreg q (wR0 w)
  let h := hurdleNamed q v
  if hurdleDown s h then hurdleError s q else hurdleWait s ⟨h, q, bits v 32 32, wR1 w, false⟩

/-- htest (R179): GEN, COUNT and MODE. -/
def htestEff (s : State) (q w : Nat) : State :=
  let h := hurdleNamed q (s.sreg q (wR0 w))
  let v := s.gen h + s.rd F.HUR_STATE_COUNT h * 2 ^ 32 + s.rd F.HUR_CFG_MODE h * 2 ^ 48
  if hurdleDown s h then hurdleError s q else ((s.countIssue q).setS q (wR1 w) v).doneHead q

/-- hread (R179): VALUE and the last baton's source node. -/
def hreadEff (s : State) (q w : Nat) : State :=
  let h := hurdleNamed q (s.sreg q (wR0 w))
  let v := s.rd F.HUR_VALUE_VALUE h + s.rd F.HUR_VALUE_SRC_NODE h * 2 ^ 32
  if hurdleDown s h then hurdleError s q else ((s.countIssue q).setS q (wR1 w) v).doneHead q

/-- hadd's count: the argument [15:0], clamped to 1 to 65,535 (R179). -/
def haddCount (arg : Nat) : Nat := clampTo 1 65535 (bits arg 0 16)

/-! ### Register operations on hurdles (R182) -/

/-- An arrival from a register write or a descriptor: it waits while the table is shut, and is lost on a cluster in reset (R183). -/
def arriveFrom (s : State) (h n : Nat) : State :=
  if hurdleDown s h then s else if tableShut s h then s.holdOp (.arrive h n none) else arrive s h n

/-- A hurdle with waiters recorded (HUR_STATE.WAITERS). -/
def hasWaiters (s : State) (h : Nat) : Bool := s.sync.hurWait.any (fun w => decide (w.hur = h))

/-- A write of HUR_OP with its whole 64-bit value (R182). -/
def hurOp (s : State) (h v : Nat) : State :=
  match bits v 0 2 with
  | 0 => hurInit s h (bits v 32 32)
  | 1 => arriveFrom s h 1
  | 2 => arriveFrom s h (haddCount (bits v 32 32))
  | _ => s

/-- A write of HUR_STATE (R182): ignored and flagged while waiters are recorded; else COUNT, under its clamp, and GEN are
set, generations complete when COUNT is at least TARGET (R177), and margins are recorded for work that becomes met
(R211). -/
def hurStateWrite (s : State) (h count gen : Nat) : State :=
  if hasWaiters s h then s.wr F.HUR_STATUS_STATE_REFUSED (clusterOfHurdle h) 1
  else
    let old := s.gen h
    let t := s.rd F.HUR_CFG_TARGET h
    genChanged ((s.wr F.HUR_STATE_COUNT h (clampTo 0 (t - 1) count)).wr F.HUR_STATE_GEN h gen) h old

/-- A write of HUR_CFG (R177): target, mode and window; generations complete when COUNT stands at or above TARGET. -/
def hurCfgWrite (s : State) (h target mode win : Nat) : State :=
  let s := ((s.wr F.HUR_CFG_TARGET h (clampTo 1 65535 target)).wr F.HUR_CFG_MODE h mode).wr F.HUR_CFG_WIN h win
  settle s h (s.rd F.HUR_STATE_COUNT h)

/-- A register operation on a hurdle; on one in reset it gets an error response (R434). -/
def hurReach (s : State) (h : Nat) (t : State) : State := if hurdleDown s h then s.emit .error else t

/-! ### The meanings -/

def execHinit (q : Fin 4096) (s : State) : Host.Outcome State Fault Refusal := .next (issue s q 4 0x00 (fun s w => hinitEff s q w))
def execHarrive (q : Fin 4096) (s : State) : Host.Outcome State Fault Refusal :=
  .next (issue s q 4 0x01 (fun s w => arriveInstr s q w 1 false))
def execHadd (q : Fin 4096) (s : State) : Host.Outcome State Fault Refusal :=
  .next (issue s q 4 0x02 (fun s w => arriveInstr s q w (haddCount (bits (s.sreg q (wR0 w)) 32 32)) false))
def execHwait (q : Fin 4096) (s : State) : Host.Outcome State Fault Refusal := .next (issue s q 4 0x03 (fun s w => hwaitEff s q w))
def execHsync (q : Fin 4096) (s : State) : Host.Outcome State Fault Refusal :=
  .next (issue s q 4 0x04 (fun s w => arriveInstr s q w 1 true))
def execHtest (q : Fin 4096) (s : State) : Host.Outcome State Fault Refusal := .next (issue s q 4 0x05 (fun s w => htestEff s q w))
def execHread (q : Fin 4096) (s : State) : Host.Outcome State Fault Refusal := .next (issue s q 4 0x06 (fun s w => hreadEff s q w))

/-- HUR_OP with OP hinit (R182): the row's operation, whatever the low bits of the value. -/
def execHurOpHinit (h : Fin 65536) (value : Word) (s : State) : Host.Outcome State Fault Refusal :=
  .next (hurReach s h (hurInit s h (bits value.toNat 32 32)))
/-- HUR_OP with OP harrive (R182). -/
def execHurOpHarrive (h : Fin 65536) (_value : Word) (s : State) : Host.Outcome State Fault Refusal := .next (hurReach s h (arriveFrom s h 1))
/-- HUR_OP with OP hadd (R182). -/
def execHurOpHadd (h : Fin 65536) (value : Word) (s : State) : Host.Outcome State Fault Refusal :=
  .next (hurReach s h (arriveFrom s h (haddCount (bits value.toNat 32 32))))
/-- A write of HUR_STATE (R182). -/
def execHurStateWrite (h : Fin 65536) (value : Word) (s : State) : Host.Outcome State Fault Refusal :=
  .next (hurReach s h (hurStateWrite s h (bits value.toNat 0 16) (bits value.toNat 16 32)))
/-- A write of HUR_CFG (R177). -/
def execHurCfgWrite (h : Fin 65536) (value : Word) (s : State) : Host.Outcome State Fault Refusal :=
  .next (hurReach s h (hurCfgWrite s h (bits value.toNat 0 16) (bit value.toNat 16) (bits value.toNat 17 6)))

end Sys2Proof.Machine
end

