-- ==== Sys2Proof/Machine/TrackUnit.lean ====
section
/-!
DEFINITION. The Track unit (chapter 08): edges, index pulses, samples, steps and interpolation of a track, stalls, marks,
finish-line slots and late records, the time estimate, and the trace timestamp.
-/
namespace Sys2Proof.Machine

def trkOFF : Nat := 0
def trkACQ : Nat := 1
def trkLOCKED : Nat := 2
def trkSTALLED : Nat := 3

/-- Modes 0 to 5 of R198. -/
def State.trkMode (s : State) (t : Nat) : Nat := s.rd F.TRK_CFG_MODE t

/-- Edges in one lap (R198). -/
def trkEpl (s : State) (t : Nat) : Nat :=
  match s.trkMode t with
  | 0 => s.rd F.TRK_EPL_EPL t
  | 2 => if s.on F.TRK_CFG_BOTH t then 2 else 1
  | _ => 1

/-- The angle of edge `i` (R198). -/
def edgeAngle (epl i : Nat) : Nat := i * 2 ^ 32 / epl

/-- The lap set; passing 2^64 - 1 wraps it and sets LAP_WRAP (R220). -/
def setLap (s : State) (t lap : Nat) : State :=
  let s := s.wr F.TRK_LAP_LAP t lap
  if 2 ^ 64 ≤ lap then s.wr F.TRK_STATUS_LAP_WRAP t 1 else s

/-- Entry to ACQUIRING (R205): the interval history is empty and INC reads 0; the position holds. -/
def enterAcquiring (s : State) (t : Nat) : State :=
  ((s.wr F.TRK_STATUS_STATE t trkACQ).wr F.TRK_INC_INC t 0).setTrack t
    { s.track t with hist := [], prevAccepted := false, frac := 0 }

/-- What an accepted forward edge does to the interval history and INC (R204, R205). -/
def recordInterval (s : State) (t : Nat) : State :=
  let k := s.track t
  let n := 2 ^ s.rd F.TRK_CFG_FILT t
  if k.prevAccepted then
    let hist := (k.sinceEdge :: k.hist).take n
    let s := s.setTrack t { k with hist := hist }
    if hist.length = n then
      let ibar := hist.sum / n
      ((s.wr F.TRK_INC_INC t (2 ^ 48 / (trkEpl s t * ibar))).wr F.TRK_STATUS_STATE t trkLOCKED)
    else s
  else s

/-- An accepted forward edge moves the track to edge `i`; `next` says that the edge begins the next lap (R204). -/
def acceptEdge (s : State) (t i : Nat) (next : Bool) : State :=
  let s := recordInterval s t
  let k := s.track t
  let ea := edgeAngle (trkEpl s t) i
  let s := if next then setLap s t (s.lap t + 1) else s
  let a := if next then ea else Nat.max k.angle ea
  (s.setTrack t { k with i := i, angle := a, ea := ea, frac := 0, prevAccepted := true, sinceEdge := 0, silent := 0, seen := true }).bump
    C.TRK_EDGE_CNT t 1

/-- A forward edge that is not accepted (R204): it records nothing and moves nothing. -/
def passEdge (s : State) (t : Nat) : State :=
  s.setTrack t { s.track t with prevAccepted := false, sinceEdge := 0, silent := 0, seen := true }

/-- A forward edge or sample ends STALLED: the track enters ACQUIRING and takes the edge (R219). -/
def leaveStall (s : State) (t : Nat) : State := if s.trkState t = trkSTALLED then enterAcquiring s t else s

/-- A reverse edge (R200): counted in every state; LOCKED returns to ACQUIRING. -/
def reverseEdge (s : State) (t : Nat) : State :=
  let d := s.rd F.TRK_DEFICIT_EDGES t + 1
  let (fv, s1) := s.fresh
  let s := if d < 2 ^ 32 then s.wr F.TRK_DEFICIT_EDGES t d else s1.wr F.TRK_DEFICIT_EDGES t fv
  let s := (s.wr F.TRK_STATUS_REVERSE t 1).bump C.TRK_REV_CNT t 1
  let s := s.setTrack t { s.track t with silent := 0 }
  if s.trkState t = trkLOCKED then enterAcquiring s t else s

/-- The index check at a rising Z (R200): an edge count other than EPL is an index error; the count starts again. -/
def indexCheck (s : State) (t : Nat) : State :=
  let k := s.track t
  let bad := decide (k.edges ≠ trkEpl s t)
  let s := s.setTrack t { k with edges := 0 }
  if bad then ((s.wr F.TRK_STATUS_INDEX_ERR t 1).bump C.TRK_IDX_ERR_CNT t 1).owe 0x24000004 4 else s

/-- A forward edge of A or B in mode 0; `withZ`: Z rises in the same cycle (R200). -/
def quadEdge (s : State) (t : Nat) (withZ : Bool) : State :=
  let s := leaveStall s t
  let idx := s.on F.TRK_CFG_INDEX_EN t
  let d := s.rd F.TRK_DEFICIT_EDGES t
  let z := idx && withZ
  if 0 < d then
    let s := s.wr F.TRK_DEFICIT_EDGES t (d - 1)
    if z then acceptEdge (indexCheck s t) t 0 true else passEdge s t
  else
    let k := s.track t
    let s := s.setTrack t { k with edges := k.edges + 1 }
    if z then acceptEdge (indexCheck s t) t 0 true
    else if k.i + 1 = trkEpl s t then
      if idx then passEdge s t else acceptEdge s t 0 true
    else acceptEdge s t (k.i + 1) false

/-- A pulse of mode 1 or a crossing of mode 2 (`rising`): ignored within HOLDOFF of the previous accepted edge (R199); a falling
crossing is an edge only with BOTH. Any of them restarts the count of R218. -/
def pulseEdge (s : State) (t : Nat) (rising : Bool) : State :=
  let k := s.track t
  let s := s.setTrack t { k with silent := 0 }
  if k.seen && decide (k.sinceEdge ≤ s.rd F.TRK_CFG_HOLDOFF t) && decide (s.rd F.TRK_CFG_HOLDOFF t ≠ 0) then s
  else if s.trkMode t = 1 ∨ rising then acceptEdge (leaveStall s t) t 0 true
  else if s.on F.TRK_CFG_BOTH t then acceptEdge (leaveStall s t) t 1 false
  else s

/-- Where the pair (A, B) stands in the cycle of R200: (0, 0), (1, 0), (1, 1), (0, 1). -/
def quadPhase (a b : Bool) : Nat := if a then (if b then 2 else 1) else (if b then 3 else 0)

/-- A level of the source that TRK_CFG.SRC selects passes the glitch filter: it has been stable for FLT cycles (R198, R199). -/
def passesFilter (s : State) (t : Nat) (fabric : Bool) (held : Nat) : Bool :=
  decide (s.rd F.TRK_CFG_SRC t = b2n fabric) && decide (s.rd F.TRK_CFG_FLT t ≤ held)

/-- TRACK_EDGE: levels of A and B from the pins or the fabric, `held` cycles stable, and whether Z rises in the same cycle. In mode 0 the
phase of the pair gives the direction, and a reverse edge counts in every state; mode 1 takes rising edges of A, mode 2 both kinds
(R198-R200). -/
def trackEdge (s : State) (t : Nat) (fabric a b z : Bool) (held : Nat) : State :=
  if !(passesFilter s t fabric held) then s
  else
    let k := s.track t
    let s := s.setTrack t { k with inA := a, inB := b }
    let off := decide (s.trkState t = trkOFF)
    match s.trkMode t with
    | 0 =>
      let d := (quadPhase a b + 4 - quadPhase k.inA k.inB) % 4
      if d = 1 then (if off then s else quadEdge s t z) else if d = 3 then reverseEdge s t else s
    | 1 => if a && !k.inA && !off then pulseEdge s t true else s
    | 2 => if a ≠ k.inA ∧ off = false then pulseEdge s t a else s
    | _ => s

/-- A rising Z edge by itself (R200). -/
def indexPulse (s : State) (t : Nat) (fabric : Bool) (held : Nat) : State :=
  if s.trkState t = trkOFF ∨ s.trkMode t ≠ 0 ∨ !(s.on F.TRK_CFG_INDEX_EN t) ∨ !(passesFilter s t fabric held) then s
  else let s := leaveStall s t; acceptEdge (indexCheck s t) t 0 true

/-- Moves a track to position `p` when it lies ahead (R196, R202). -/
def moveAhead (s : State) (t p : Nat) : State :=
  if s.position t < p then
    let s := setLap s t (p / 2 ^ 32)
    s.setTrack t { s.track t with angle := p % 2 ^ 32 }
  else s

/-- A sample of the manager's track in mode 4 (R202): its position advanced by FWD_COMP cycles, but not past its limit,
is taken as an edge. -/
def trackSample (s : State) (t lap angle inc : Nat) (locked : Bool) (limit : Option (Nat × Nat)) : State :=
  if s.trkState t = trkOFF ∨ s.trkMode t ≠ 4 then s
  else
    let s := leaveStall s t
    let p := posOf lap angle + s.rd F.TRK_FWD_COMP_CYCLES t * inc / 65536
    let p := match limit with | some l => Nat.min p (posOf l.1 l.2) | none => p
    let ahead := decide (s.position t < p)
    let s := moveAhead s t p
    let s := s.setTrack t { s.track t with ea := p, frac := 0, limit := limit, silent := 0, sinceEdge := 0 }
    let s := (s.wr F.TRK_STATUS_STATE t (if locked then trkLOCKED else trkACQ)).wr F.TRK_INC_INC t (if locked then inc else 0)
    if ahead then s.bump C.TRK_EDGE_CNT t 1 else s

/-- The position that system time gives a track in mode 3 (R201). -/
def dcPosition (s : State) (t : Nat) : Nat :=
  let now := s.rd F.FLD_DC_TIME_NS 0
  let st := s.rd F.TRK_DC_START_NS t
  let c := s.rd F.TRK_DC_CYCLE_NS t
  if now < st then 0 else posOf ((now - st) / c) ((now - st) % c * 2 ^ 32 / c)

/-- A track in mode 3 follows system time while the distributed clock is in sync, and holds without it (R201). -/
def dcFollow (s : State) (t : Nat) : State :=
  if s.trkMode t ≠ 3 ∨ s.trkState t = trkOFF then s
  else if s.on F.FLD_STATUS_DC_SYNC 0 then
    let s := leaveStall s t
    let s := s.wr F.TRK_STATUS_STATE t trkLOCKED
    moveAhead (s.setTrack t { s.track t with silent := 0 }) t (dcPosition s t)
  else if s.trkState t = trkLOCKED then s.wr F.TRK_STATUS_STATE t trkACQ else s

/-- One ACLK cycle of a track (R204): its interval and stall counts go on, and a LOCKED track advances by INC, up to one
unit below the next edge (modes 0-2) or to the limit of the latest sample (mode 4). -/
def trackCycle (s : State) (t : Nat) : State :=
  if s.trkState t = trkOFF then s
  else
    let k := s.track t
    let s := s.setTrack t { k with sinceEdge := k.sinceEdge + 1, silent := k.silent + 1 }
    let m := s.trkMode t
    if m = 3 then dcFollow s t
    else if s.trkState t ≠ trkLOCKED ∨ m = 5 then s
    else
      let k := s.track t
      let frac := k.frac + s.rd F.TRK_INC_INC t
      let s := s.setTrack t { k with frac := frac }
      if m = 4 then
        let p := k.ea + frac / 65536
        moveAhead s t (match k.limit with | some l => Nat.min p (posOf l.1 l.2) | none => p)
      else
        let nxt := edgeAngle (trkEpl s t) (k.i + 1)
        s.setTrack t { s.track t with angle := Nat.max k.angle (Nat.min (k.ea + frac / 65536) (nxt - 1)) }

/-- EN written 1 (R197): OFF becomes ACQUIRING at the preset position; a mode-5 track is LOCKED from then on (R203). -/
def trkEnable (s : State) (t : Nat) : State :=
  if s.on F.TRK_CTRL_EN t then s
  else
    let s := (s.wr F.TRK_CTRL_EN t 1).wr F.TRK_DEFICIT_EDGES t 0
    let s := s.wr F.TRK_LAP_LAP t (s.rd F.TRK_PRESET_LAP_LAP t)
    let a := s.rd F.TRK_PRESET_ANGLE_ANGLE t
    let s := s.setTrack t { Track.off with inA := (s.track t).inA, inB := (s.track t).inB, angle := a, ea := posOf (if s.trkMode t = 4 then s.lap t else 0) a }
    (s.wr F.TRK_INC_INC t 0).wr F.TRK_STATUS_STATE t (if s.trkMode t = 5 then trkLOCKED else trkACQ)

/-- EN written 0 (R197): OFF, and the position holds. -/
def trkDisable (s : State) (t : Nat) : State :=
  ((s.wr F.TRK_CTRL_EN t 0).wr F.TRK_STATUS_STATE t trkOFF).wr F.TRK_INC_INC t 0

/-- A 64-bit write of TRK_STEP (R203). -/
def trkStep (s : State) (t v : Nat) : State :=
  if s.trkState t = trkOFF ∨ s.trkMode t ≠ 5 then s
  else moveAhead s t (posOf (s.lap t + bits v 32 32) (bits v 0 32))

/-- The stall timeout passes (R218). -/
def trackStall (s : State) (t : Nat) : State :=
  let st := s.trkState t
  let lim := s.rd F.TRK_STALL_TO_CYCLES t
  if (st = trkACQ ∨ st = trkLOCKED) ∧ lim ≠ 0 ∧ lim ≤ (s.track t).silent ∧ s.trkMode t ≠ 5 then
    let s := ((s.wr F.TRK_STATUS_STATE t trkSTALLED).wr F.TRK_INC_INC t 0).bump C.TRK_STALL_CNT t 1
    (s.flagMC F.TRK_STATUS_STALL t).owe 0x24000003 4
  else s

/-- A change of the ACLK step returns LOCKED tracks of modes 0-2 and 4 to ACQUIRING (R206). -/
def relockTracks (s : State) : State :=
  (List.range 8).foldl (fun s t =>
    if s.trkState t = trkLOCKED ∧ s.trkMode t ≠ 3 ∧ s.trkMode t ≠ 5 then enterAcquiring s t else s) s

/-! ### Late records and finish lines (R210-R214) -/

/-- A late finish line on track `t` (R212, R214): counted, flagged, logged while the log has room, and signalled; its emergency is owed, or
that of the overflow when it is discarded (R215). -/
def lateRecord (s : State) (t : Nat) (r : Nat × Nat × Nat × Nat) : State :=
  let s := (s.wr F.TRK_STATUS_LATE t 1).bump C.TRK_LATE_CNT t 1
  let s := if s.trk.lateLog.length < 32 then
      ({ s with trk := { s.trk with lateLog := s.trk.lateLog ++ [r] } } : State).owe (0x24000001 + bit r.2.1 35) (bits r.2.1 36 5 / 8)
    else if s.on F.TRK_STATUS_LATE_OVF t then s else (s.wr F.TRK_STATUS_LATE_OVF t 1).owe 0x24000005 4
  s.signalMC F.TRK_STATUS_LATE t

/-- The late record of a slot (R214). -/
def slotRecord (s : State) (slot : Nat) : Nat × Nat × Nat × Nat :=
  (s.rd F.TRK_FL_LAP_LAP slot,
   s.rd F.TRK_FL_SET_ANGLE slot + s.rd F.TRK_FL_SET_TRK slot * 2 ^ 32 + slot / 64 * 2 ^ 36 + slot % 64 * 2 ^ 41,
   s.trk.ts % 2 ^ 48,
   s.rd F.TRK_FL_GEN_G slot + s.rd F.TRK_FL_SET_HUR slot * 2 ^ 32)

/-- The late record of a stream descriptor (R213, R214). -/
def streamRecord (s : State) (e lap angle t tag : Nat) : Nat × Nat × Nat × Nat :=
  (lap, angle + t * 2 ^ 32 + 2 ^ 35 + e / 32 * 2 ^ 36 + e * 2 ^ 47, s.trk.ts % 2 ^ 48, tag * 2 ^ 48)

/-- The check of a slot whose finish line is reached (R212). -/
def checkSlot (s : State) (slot : Nat) : State :=
  let t := s.rd F.TRK_FL_SET_TRK slot
  if !(s.on F.TRK_FL_STAT_ARMED slot) || decide (s.trkState t = trkSTALLED) || decide (s.position t < slotPos s slot) then s
  else
    let r := slotRecord s slot
    let met := slotMet s slot
    let s := s.wr F.TRK_FL_STAT_ARMED slot 0
    if met then s.wr F.TRK_FL_STAT_MET slot 1
    else
      let s := lateRecord ((s.wr F.TRK_FL_STAT_LATE slot 1).wr F.TRK_FL_STAT_MARGIN slot 0) t r
      if s.on F.TRK_FL_GEN_ALT_EN slot then arriveFrom s (slot / 64 * 2048 + s.rd F.TRK_FL_GEN_ALT slot) 1 else s

/-- Arms a slot with the fields it holds (R210): work already met records MARGIN (R211), and a finish line already
reached is checked (R212). -/
def armSlot (s : State) (slot : Nat) : State :=
  let s := s.wr F.TRK_FL_STAT_ARMED slot 1
  let s := if slotMet s slot then s.wr F.TRK_FL_STAT_MARGIN slot (slotMargin s slot) else s
  checkSlot s slot

/-! ### The mark-wait class (R208, R209) -/

/-- Track, lap and angle that a mark-wait word names. -/
def markTrk (w : Nat) : Nat := bits w 32 3
def markReg (w : Nat) : Nat := bits w 35 5
def markPos (s : State) (q w : Nat) : Nat := posOf (s.sreg q (markReg w)) (wIMM w)

/-- WMARK (R209): a mark already reached is late and completes at once; else the queue waits for it. -/
def wmarkEff (s : State) (q w : Nat) : State :=
  let t := markTrk w
  if markPos s q w ≤ s.position t then (((s.countIssue q).wr F.TRK_STATUS_LATE_MARK t 1).bump C.TRK_LATE_MARK_CNT t 1).doneHead q
  else s.holdHead q 0x5 .mark

/-- RPOS (R208). -/
def rposEff (s : State) (q w : Nat) : State :=
  let t := markTrk w
  let r := markReg w
  let s := (s.countIssue q).setS q r (s.lap t)
  (s.setS q (r + 1) ((s.track t).angle + s.trkState t * 2 ^ 32)).doneHead q

/-- FARM (R210): waits while the slot is armed. -/
def farmEff (s : State) (q w : Nat) : State :=
  let v := s.sreg q (markReg w + 1)
  let slot := clusterOfQueue q * 64 + bits v 0 6
  if s.on F.TRK_FL_STAT_ARMED slot then s.holdHead q 0x5 .plain
  else
    let s := ((s.countIssue q).wr F.TRK_FL_LAP_LAP slot (s.sreg q (markReg w))).wr F.TRK_FL_SET_ANGLE slot (wIMM w)
    let s := ((s.wr F.TRK_FL_SET_TRK slot (markTrk w)).wr F.TRK_FL_SET_HUR slot (bits v 6 11)).wr F.TRK_FL_GEN_G slot (bits v 32 32)
    (armSlot s slot).doneHead q

/-- A waiting WMARK whose mark the cluster position has reached completes (R209). -/
def markReached (s : State) (q : Nat) : State :=
  if s.headWait q = .mark ∧ markPos s q (s.headWord q) ≤ s.position (markTrk (s.headWord q)) then (s.countIssue q).doneHead q else s

/-! ### The time estimate (R217) -/

/-- ACLK cycles until a finish line on track `t` (R217). -/
def timeLeft (s : State) (t lap angle : Nat) : Nat :=
  let r := posOf lap angle - s.position t
  let sat := 2 ^ 40 - 1
  let nominal := s.rd F.TRK_NOMINAL_CYCLES t
  let viaNominal := if nominal = 0 then sat else Nat.min sat (ceilDiv (r * nominal) (2 ^ 32))
  match s.trkState t with
  | 1 => viaNominal
  | 2 => match s.trkMode t with
    | 3 => Nat.min sat (ceilDiv (r * s.rd F.TRK_DC_CYCLE_NS t * 7) (2 ^ 32 * 4))
    | 5 => viaNominal
    | _ => if s.rd F.TRK_INC_INC t = 0 then (if r = 0 then 0 else sat) else Nat.min sat (ceilDiv (r * 2 ^ 16) (s.rd F.TRK_INC_INC t))
  | 3 => 0
  | _ => sat

/-! ### The trace timestamp (R222) -/

/-- The epoch record at a wrap (R222): words 0 to 15. -/
def epochRecord (s : State) : List Nat :=
  [0xE0, s.rd F.TRK_EPOCH_EPOCH 0] ++ (List.range 8).map s.lap ++
  (List.range 4).map (fun w => (s.track (2 * w)).angle + (s.track (2 * w + 1)).angle * 2 ^ 32) ++
  [(List.range 8).foldl (fun a t => a + s.trkState t * 4 ^ t) 0, 0]

/-- The timestamp wraps: it reads 0, TRK_EPOCH counts, and the trace stream of every quarter gets the
epoch record (R312). -/
def timestampWrap (s : State) : State :=
  let s := { s with trk := { s.trk with ts := 0 } }
  let s := s.wr F.TRK_EPOCH_EPOCH 0 (s.rd F.TRK_EPOCH_EPOCH 0 + 1)
  let e := epochRecord s
  let parts := (List.range 4).map (fun k => (e.drop (4 * k)).take 4)
  let recs := (List.range 4).foldl (fun r q => Tab.set [] r q (Tab.get [] r q ++ parts.map (fun w => (272, w)))) s.noc.recs
  ({ s with noc := { s.noc with recs := recs } } : State).emit (.epoch e)

/-- One count of the trace timestamp. -/
def timestampTick (s : State) : State :=
  if s.trk.ts + 1 = 2 ^ 48 then timestampWrap s else { s with trk := { s.trk with ts := s.trk.ts + 1 } }

/-- How long an ACLK cycle takes, in twelfths of 1 / 1.75 GHz: 1.75, 1.40 or 1.05 GHz (R21). -/
def cycleTime (s : State) : Nat := if s.rd F.SES_CLOCK_MODE 0 = 0 then 12 else match s.rd F.SES_CLOCK_STEP 0 with | 0 => 12 | 1 => 15 | _ => 20

/-- What an ACLK cycle adds to the trace timestamp, which counts at 1.75 GHz in every clock mode (R222). -/
def timestampCycle (s : State) : State :=
  let n := s.trk.frac + cycleTime s
  (List.range (n / 12)).foldl (fun s _ => timestampTick s) ({ s with trk := { s.trk with frac := n % 12 } } : State)

/-- What an ACLK cycle adds to the system time of the distributed clock, in nanoseconds (R201): 1 / 1.75 GHz is 12/21 ns. -/
def dcCycle (s : State) : State :=
  let n := s.trk.nsFrac + cycleTime s
  ({ s with trk := { s.trk with nsFrac := n % 21 } } : State).wr F.FLD_DC_TIME_NS 0 (s.rd F.FLD_DC_TIME_NS 0 + n / 21)

/-! ### The meanings -/

def execWmark (q : Fin 4096) (s : State) : Host.Outcome State Fault Refusal := .next (issue s q 6 0x00 (fun s w => wmarkEff s q w))
def execMarkReached (q : Fin 4096) (s : State) : Host.Outcome State Fault Refusal := .next (markReached s q)
def execRpos (q : Fin 4096) (s : State) : Host.Outcome State Fault Refusal := .next (issue s q 6 0x01 (fun s w => rposEff s q w))
def execFarm (q : Fin 4096) (s : State) : Host.Outcome State Fault Refusal := .next (issue s q 6 0x02 (fun s w => farmEff s q w))
/-- TRK_FL_STAT.ARM written 1 (R210): ignored on an armed slot. -/
def execArm (slot : Fin 2048) (s : State) : Host.Outcome State Fault Refusal :=
  .next (if s.on F.TRK_FL_STAT_ARMED slot then s else armSlot s slot)
def execFinishLineCheck (slot : Fin 2048) (s : State) : Host.Outcome State Fault Refusal := .next (checkSlot s slot)
def execTrkEnable (t : Fin 8) (s : State) : Host.Outcome State Fault Refusal := .next (trkEnable s t)
def execTrkDisable (t : Fin 8) (s : State) : Host.Outcome State Fault Refusal := .next (trkDisable s t)
def execTrackEdge (t : Fin 8) (fabric a b z : Bool) (held : Nat) (s : State) : Host.Outcome State Fault Refusal :=
  .next (trackEdge s t fabric a b z held)
def execIndexPulse (t : Fin 8) (fabric : Bool) (held : Nat) (s : State) : Host.Outcome State Fault Refusal :=
  .next (indexPulse s t fabric held)
def execTrkStep (t : Fin 8) (value : Word) (s : State) : Host.Outcome State Fault Refusal := .next (trkStep s t value.toNat)
def execTrackStall (t : Fin 8) (s : State) : Host.Outcome State Fault Refusal := .next (trackStall s t)
/-- A read of TRK_LAP (R223): it returns the lap and captures the angle. -/
def execTrkLapRead (t : Fin 8) (s : State) : Host.Outcome State Fault Refusal :=
  .next ((s.wr F.TRK_ANGLE_ANGLE t (s.track t).angle).emit (.data (s.lap t)))
/-- A 64-bit read of TRK_LATE_LOG3 (R214): word 3 of the head record, which is removed. -/
def execLateLogPop (s : State) : Host.Outcome State Fault Refusal :=
  .next (match s.trk.lateLog with
    | [] => s.emit (.data 0)
    | r :: rest => ({ s with trk := { s.trk with lateLog := rest } } : State).emit (.data r.2.2.2))
def execTimestampWrap (s : State) : Host.Outcome State Fault Refusal :=
  .next (if s.trk.ts + 1 = 2 ^ 48 then timestampWrap s else s)
def execTrackInterpolation (t : Fin 8) (s : State) : Host.Outcome State Fault Refusal := .next (trackCycle s t)

end Sys2Proof.Machine
end

