-- ==== Sys2Proof/Machine/Record.lean ====
section
/-!
DEFINITION. Completion records (R78-R81, R121, R125): eight words, each count stopping at 0xFFFF_FFFF, written words 1-7
before word 0 and every word full.
-/
namespace Sys2Proof.Machine

def OpCounts.start (ts : Nat) : OpCounts := ⟨0, 0, 0, 0, 0, 0, 0, none, none, ts, ts⟩

/-- A count as a record shows it (R79). -/
def cnt32 (n : Nat) : Nat := Nat.min n (2 ^ 32 - 1)

/-- A count has stopped (R79). -/
def cntStopped (n : Nat) : Bool := decide (2 ^ 32 - 1 ≤ n)

/-- The TAG field of a record (R121): the instruction's TAG and the issuing queue of its core. -/
def recTag (word queue : Nat) : Nat := wTAG word + queue % 8 * 2 ^ 16

/-- The parts of word 0 besides the counts. -/
structure RecHead where
  status : Nat
  op : Nat
  fmt : Nat
  blk : Nat
  exact : Bool
  sr : Bool
  tag : Nat
  deriving DecidableEq, Repr

/-- The words of a completion record (R78); `errNb` for DATA_ERROR, `w5` the words' FI fields, `fiKind` the kind. -/
def recordWords (h : RecHead) (c : OpCounts) (errNb fiKind w5 : Nat) : List Nat :=
  let stopped := [c.sat, c.flushed, c.invalid, c.winLoss, c.zeroBlk, c.esc, c.nanOut].any cntStopped
  [h.status + h.op * 2 ^ 8 + h.fmt % 32 * 2 ^ 16 + h.blk % 4 * 2 ^ 21 + b2n h.exact * 2 ^ 23 + b2n h.sr * 2 ^ 24 +
     b2n stopped * 2 ^ 25 + h.tag % 2 ^ 32 * 2 ^ 32,
   cnt32 c.sat + cnt32 c.flushed * 2 ^ 32,
   cnt32 c.invalid + cnt32 c.winLoss * 2 ^ 32,
   cnt32 c.zeroBlk + cnt32 c.esc * 2 ^ 32,
   cnt32 c.nanOut + errNb % 128 * 2 ^ 32 + fiKind % 4 * 2 ^ 40,
   w5, c.tStart % 2 ^ 48, c.tEnd % 2 ^ 48]

/-- FI fields of a matrix record (R78, R80): kind and word 5. -/
def fiMatrix (c : OpCounts) : Nat × Nat :=
  match c.firstProd with
  | some f => (f.kind, f.m % 4096 + f.n % 4096 * 2 ^ 16 + f.k % 16384 * 2 ^ 32 + 2 ^ 63)
  | none => match c.firstConv with
    | some f => (0, f.m % 4096 + f.n % 4096 * 2 ^ 16 + 2 ^ 63)
    | none => (0, 0)

/-- FI_INDEX of a vector, convert or table record: word 5. -/
def fiIndex (i : Option Nat) : Nat := match i with | some n => n % 2 ^ 48 + 2 ^ 63 | none => 0

/-- A record may be written at `da` for a core of cluster `c`: in the places of R47, on an 8-byte boundary. DESIGN CHOICE (log
entry 99): a record DA that lies in a place but off an 8-byte boundary is treated under R125 (no record, RECORD_ERR or REC_ERR)
and not as cause 0x5 of R33, whose record would have to go to that very DA. -/
def recordPlace (c da : Nat) : Bool := inPlaces c da 64 && decide (da % 8 = 0)

/-- A 64-bit word stored plain, and full. -/
def State.storeWord (s : State) (da v : Nat) : State := s.storePlain da (bytesLE 8 v)

/-- Writes a record: words 1 to 7, then word 0 (R81). -/
def writeRecord (s : State) (da : Nat) (ws : List Nat) : State :=
  let s := (List.range 7).foldl (fun s k => s.storeWord (da + (k + 1) * 8) (ws.getD (k + 1) 0)) s
  s.storeWord da (ws.getD 0 0)

/-- Adds an operation's record to those that wait for initialisation (R111). -/
def State.waitRecord (s : State) (w : RecWait) : State := { s with tile := { s.tile with recs := s.tile.recs ++ [w] } }

/-- The record of an operation of queue `q` of a core of cluster `c` (R78, R81, R125): it is written, waits for a memory under
initialisation (R111), or cannot be written, which completes the operation with error (R52). `engine` is that of a matrix
instruction, whose MXE_LAST_REC shows the DA; the flag says that the record cannot be written. -/
def putRecord (s : State) (c q : Nat) (engine : Option Nat) (da : Nat) (ws : List Nat) : State × Bool :=
  if !(recordPlace c da) || padDown s da then (s.emit (.opError q), true)
  else if padBusy s da then (s.waitRecord ⟨q, engine, da, ws⟩, false)
  else
    let s := writeRecord s da ws
    (match engine with | some e => s.wr F.MXE_LAST_REC_DA e da | none => s, false)

/-- The records that waited are written once their memory is initialised. -/
def flushRecords (s : State) : State :=
  let due := s.tile.recs.filter (fun w => !(padBusy s w.da))
  let s := { s with tile := { s.tile with recs := s.tile.recs.filter (fun w => padBusy s w.da) } }
  due.foldl (fun s w =>
    if padDown s w.da then
      (match w.engine with | some e => s.wr F.MXE_STATUS_RECORD_ERR e 1 | none => s.wr F.VEC_STATUS_REC_ERR (w.queue / 8) 1).emit (.opError w.queue)
    else
      let s := writeRecord s w.da w.words
      match w.engine with | some e => s.wr F.MXE_LAST_REC_DA e w.da | none => s) s

end Sys2Proof.Machine
end

