-- ==== Sys2Proof/Machine/Quant.lean ====
section
/-!
DEFINITION. Quantisation (R84-R108): the descriptor, storage rows, scale derivation, conversion of rows with blocks and
side-list escapes, statistics, history slots, and the checks of descriptor, slots and places. The convert unit and the
output paths of the matrix engines both use it.
-/
namespace Sys2Proof.Machine

/-! ### The descriptor (R85) -/

/-- The fields of a quantisation descriptor, under their clamps. -/
structure QDesc where
  tfmt : Nat
  tblk : Nat
  gran : Nat
  asym : Bool
  delayed : Bool
  algo : Bool
  advance : Bool
  rnd : Bool
  sideEn : Bool
  statsEn : Bool
  warmup : Nat
  hlen : Nat
  margin : Nat
  escMax : Nat
  hslot : Nat
  escGain : Nat
  sideCap : Nat
  seed : Nat
  base : Nat
  pitch : Nat
  scaleDA : Nat
  satLim : Nat
  sideDA : Nat
  fluLim : Nat
  statsDA : Nat
  invLim : Nat
  spillDA : Nat
  deriving DecidableEq, Repr

/-- The descriptor that eight words hold (R85). -/
def qdesc (ws : List Nat) : QDesc :=
  let w := fun i => ws.getD i 0
  { tfmt := bits (w 0) 0 5, tblk := bits (w 0) 5 2, gran := bits (w 0) 7 2, asym := decide (bit (w 0) 9 = 1),
    delayed := decide (bit (w 0) 10 = 1), algo := decide (bit (w 0) 11 = 1), advance := decide (bit (w 0) 12 = 1),
    rnd := decide (bit (w 0) 13 = 1), sideEn := decide (bit (w 0) 14 = 1), statsEn := decide (bit (w 0) 15 = 1),
    warmup := bits (w 0) 16 4, hlen := bits (w 0) 20 4, margin := bits (w 0) 24 3, escMax := clampTo 0 4 (bits (w 0) 27 3),
    hslot := bits (w 0) 32 12, escGain := clampTo 1 15 (bits (w 0) 44 4), sideCap := clampTo 0 4096 (bits (w 0) 48 16),
    seed := w 1, base := w 2, pitch := w 3, scaleDA := bits (w 4) 0 48, satLim := bits (w 4) 48 16,
    sideDA := bits (w 5) 0 48, fluLim := bits (w 5) 48 16, statsDA := bits (w 6) 0 48, invLim := bits (w 6) 48 16,
    spillDA := bits (w 7) 0 48 }

/-- The eight words at a descriptor's DA. -/
def readDesc (s : State) (da : Nat) : List Nat := (List.range 8).map (fun i => readNat s.sram (da + 8 * i) 8)

/-- What scales a target takes (R84-R86): 0 none, 1 plain, 2 MX, 3 TZ16. -/
def QDesc.cls (d : QDesc) : Nat := if d.tfmt ≤ 2 then 0 else if d.tblk = 1 then 2 else if d.tblk = 2 then 3 else 1

/-- The target takes a tensor or channel scale (R90). -/
def QDesc.coarse (d : QDesc) : Bool := decide (d.cls = 1 ∨ d.cls = 3)

/-- Channels of an operation over `rows` storage rows of `cols` elements (R85, R86). -/
def QDesc.channels (d : QDesc) (rows cols : Nat) : Nat :=
  if d.cls = 1 then (match d.gran with | 1 => rows | 2 => cols | _ => 1) else if d.cls = 3 then 1 else 0

/-- The channel of an element. -/
def QDesc.chanOf (d : QDesc) (row col : Nat) : Nat :=
  if d.cls = 1 then (match d.gran with | 1 => row | 2 => col | _ => 0) else 0

def isFp8642 (f : Nat) : Bool := decide (4 ≤ f ∧ f ≤ 8)
def isIntFmt (f : Nat) : Bool := decide (f = 0x0C ∨ f = 0x0D)

/-- Block elements of the target: 32, 16, or the whole row. -/
def QDesc.blockLen (d : QDesc) : Nat := if d.cls = 2 then 32 else 16

/-- Bytes of the block scales of one storage row, padded (R86). -/
def QDesc.scaleRow (d : QDesc) (cols : Nat) : Nat := alignUp (ceilDiv cols d.blockLen) 8

/-- Bytes of the scale array (R86). -/
def QDesc.scaleBytes (d : QDesc) (rows cols : Nat) : Nat :=
  match d.cls with
  | 1 => alignUp (d.channels rows cols * (if d.asym then 8 else 4)) 8
  | 2 => rows * d.scaleRow cols
  | 3 => 8 + rows * d.scaleRow cols
  | _ => 0

/-- Bytes of the side list (R99). -/
def QDesc.sideBytes (d : QDesc) (rows : Nat) : Nat := alignUp (2 * rows) 8 + rows * d.sideCap * 4

/-- A reserved code or a combination that the chapter forbids (R73, R84, R85). -/
def QDesc.badCode (d : QDesc) : Bool :=
  !(decide (d.tfmt ≤ 2) || isFp8642 d.tfmt || isIntFmt d.tfmt) || decide (d.tblk = 3) ||
  (decide (d.tblk ≠ 0) && !(isFp8642 d.tfmt)) || (d.sideEn && decide (d.cls ≠ 3)) ||
  (d.rnd && !([1, 4, 5, 8].contains d.tfmt)) || (decide (d.cls = 1) && decide (d.gran = 3)) ||
  (d.asym && decide (d.cls ≠ 0) && (!(isIntFmt d.tfmt) || d.delayed))

/-! ### History slots (R92-R95) -/

def State.slot (s : State) (k i : Nat) : HistSlot := Tab.get HistSlot.clear s.tile.hist (k * 4096 + i)
def State.setSlot (s : State) (k i : Nat) (h : HistSlot) : State :=
  { s with tile := { s.tile with hist := Tab.set HistSlot.clear s.tile.hist (k * 4096 + i) h } }

/-- The slots that an operation names (R92): under delayed scaling with tensor or channel scales only. -/
def QDesc.slots (d : QDesc) (rows cols : Nat) : List Nat :=
  if d.delayed && d.coarse then (List.range (d.channels rows cols)).map (fun c => d.hslot + c) else []

/-- A clear of one of the slots is in progress (R95). -/
def slotsClearing (s : State) (k : Nat) (sl : List Nat) : Bool :=
  !(sl.isEmpty) && (s.on F.QNT_CTRL_HIST_CLEAR k || s.on F.QNT_STATUS_CLEARING k && (Tab.get [] s.tile.slotClear k).isEmpty ||
    sl.any (fun i => (Tab.get [] s.tile.slotClear k).contains i))

/-- The cause that forbids the slots (R92): outside the range 0x2, owned by another queue 0x3. -/
def slotCause (s : State) (k queue : Nat) (sl : List Nat) : Option Nat :=
  let lo := s.rd F.QNT_SLOT_RANGE_LO k
  let hi := s.rd F.QNT_SLOT_RANGE_HI k
  if sl.any (fun i => decide (i < lo ∨ hi < i)) then some 0x2
  else if sl.any (fun i => match (s.slot k i).owner with | some o => decide (o ≠ queue % 8) | none => false) then some 0x3
  else none

/-- The first operation to name an unowned slot makes its queue the owner (R92). -/
def ownSlots (s : State) (k queue : Nat) (sl : List Nat) : State :=
  sl.foldl (fun s i => let h := s.slot k i; if h.owner.isNone then s.setSlot k i { h with owner := some (queue % 8) } else s) s

/-- Warm-up (R94): STEPS of a named slot is below max(WARMUP, 1). -/
def inWarmup (s : State) (k : Nat) (d : QDesc) (sl : List Nat) : Bool :=
  sl.any (fun i => decide ((s.slot k i).recent.length < Nat.max d.warmup 1))

/-- The largest of a list of codes. -/
def maxCodeOf (l : List Nat) : Nat := l.foldl Nat.max 0

/-- The amax that delayed scaling takes from a slot (R93). -/
def delayedAmax (d : QDesc) (h : HistSlot) : Nat :=
  if d.algo then h.recent.headD 0 else maxCodeOf (h.recent.take (d.hlen + 1))

/-- The merge into a slot at the operation's completion, and its ADVANCE (R93). -/
def mergeSlot (d : QDesc) (warm : Bool) (amax : Nat) (h : HistSlot) : HistSlot :=
  let h := { h with pending := Nat.max h.pending amax, warm := warm }
  if d.advance then { h with recent := (h.pending :: h.recent).take 16, head := (h.head + 1) % 16, pending := 0 } else h

/-! ### Scales (R87), as FP32 or block-scale codes -/

/-- The largest finite value of a target; 127 and 7 for the integers. -/
def emaxValue (f : Nat) : Frac :=
  match floatOf f with
  | some g => g.maxVal
  | none => if f = 0x0C then ⟨127, 1⟩ else ⟨7, 1⟩

/-- The exponent of that value. -/
def emaxExp (f : Nat) : Int := Frac.ilog2 (emaxValue f)

def f32 (c : Nat) : Frac := (fp32.decode c).frac
def minScale : Nat := 0x00800000
def maxF32 : Nat := 0x7F7FFFFF
/-- up32 as a code, held between 2^-126 and the largest FP32 value. -/
def scaleCode (x : Frac) : Nat := clampTo minScale maxF32 (fp32.round .rup false x).code

def plainSym (f mg a : Nat) : Nat :=
  if a = 0 then 0 else scaleCode (Frac.div (Frac.scale (f32 a) mg) (emaxValue f))

/-- Scale and offset of the asymmetric case, from the smallest and largest finite element. -/
def plainAsym (f : Nat) (lo hi : Frac) : Nat × Nat :=
  let b := fmtWidth f
  if Frac.eq lo hi then (minScale, fp32.exact hi)
  else
    let s := scaleCode (Frac.div (Frac.sub hi lo) (Frac.ofInt (2 ^ b - 1 : Nat)))
    let o := Frac.add lo (Frac.scale (f32 s) (b - 1 : Nat))
    (s, (fp32.round .rne (Frac.isNeg o) (Frac.abs o)).code)

def mxScale (f : Nat) (ab : Frac) : Nat :=
  if Frac.isZero ab then 0 else (clampTo 0 254 (Frac.ilog2 ab - emaxExp f + 127).toNat)

def tzTensor (f mg a : Nat) : Nat :=
  if a = 0 then 0x3F800000
  else
    let e := Frac.clog2 (Frac.div (Frac.scale (f32 a) mg) (Frac.mul (emaxValue f) (Frac.ofInt 448)))
    fp32.exact (Frac.pow2 (if e < -126 then -126 else if 127 < e then 127 else e))

def tzBlock (f : Nat) (ab ts : Frac) : Nat :=
  if Frac.isZero ab then 0
  else ((List.range 0x7F).drop 1).findSome? (fun c =>
      if Frac.le ab (Frac.mul (e4m3.decode c).frac (Frac.mul ts (emaxValue f))) then some c else none) |>.getD 0x7E

/-! ### Conversion of elements and rows (R88, R97-R99, R108) -/

/-- An element on its way: its value, its rounding (with its own random bits), its column. -/
structure CvIn where
  v : Val
  rnd : Rnd
  deriving DecidableEq, Repr

/-- A converted element: code, events, squared error in 2^-24. -/
structure CvOut where
  code : Nat
  ev : Counts1
  d2 : Nat
  deriving DecidableEq, Repr

def narrowTo (f : Nat) (rnd : Rnd) (v : Val) : Nat × Counts1 :=
  match floatOf f with
  | some g => g.narrow rnd v
  | none => narrowInt (fmtWidth f) rnd v

/-- d squared, capped at 2^24, truncated to a multiple of 2^-24 (R108). -/
def sqErr (d : Frac) : Nat :=
  let q := Frac.mul d d
  if Frac.le (Frac.ofInt (2 ^ 24 : Nat)) q then 2 ^ 48 else (Frac.floor (Frac.scale q 24)).toNat

/-- Converts an element under scale `sc` and offset `o` (R88): under a scale of zero a finite element is +0. -/
def convertOne (f : Nat) (sc o : Frac) (x : CvIn) : CvOut :=
  match x.v with
  | .fin neg m =>
    if Frac.isZero sc then ⟨0, { noEvents with flushed := !(Frac.isZero m) }, 0⟩
    else
      let y : Val := if Frac.isZero o then .fin neg (Frac.div m sc) else Val.ofFrac false (Frac.div (Frac.sub x.v.frac o) sc)
      let r := narrowTo f x.rnd y
      ⟨r.1, r.2, sqErr (Frac.sub y.frac (fmtDecode f r.1).frac)⟩
  | v => let r := narrowTo f x.rnd v; ⟨r.1, r.2, 0⟩

/-- Largest magnitude of the finite elements; 0 when there is none. -/
def amaxOf (l : List CvIn) : Frac := l.foldl (fun a x => Frac.max a (Frac.abs x.v.frac)) ⟨0, 1⟩

/-- An element of a zero block (R97). -/
def zeroOne (f : Nat) (x : CvIn) : CvOut :=
  match x.v with
  | .fin _ _ => ⟨0, noEvents, 0⟩
  | v => let r := narrowTo f x.rnd v; ⟨r.1, r.2, 0⟩

/-- A block of a row: its scale code, its elements, its escapes (position in the block and FP16 code), whether it is a
zero block, whether an escape was refused. -/
structure BlockOut where
  scale : Nat
  els : List CvOut
  escs : List (Nat × Nat)
  zero : Bool
  full : Bool
  deriving DecidableEq, Repr

def mxBlock (f : Nat) (l : List CvIn) : BlockOut :=
  let ab := amaxOf l
  if Frac.isZero ab then ⟨0, l.map (zeroOne f), [], true, false⟩
  else
    let c := mxScale f ab
    ⟨c, l.map (convertOne f (Frac.pow2 ((c : Int) - 127)) ⟨0, 1⟩), [], false, false⟩

/-- The exponent of the side list's scale (R98). -/
def sideExp (f : Nat) : Nat := if f = 0x04 then 8 else if f = 0x05 then 16 else 0

/-- Elements of a block that have not escaped, with their positions. -/
def restOf (l : List CvIn) (esc : List Nat) : List (Nat × CvIn) := (l.zipIdx.map (fun p => (p.2, p.1))).filter (fun p => !(esc.contains p.1))

/-- Finite nonzero elements that would round to zero under the block scale of the given elements (R98). -/
def flushesOf (f : Nat) (ts : Frac) (l : List CvIn) : Nat :=
  let sc := Frac.mul ts (e4m3.decode (tzBlock f (amaxOf l) ts)).frac
  (l.filter (fun x => (convertOne f sc ⟨0, 1⟩ x).ev.flushed)).length

/-- The finite element of largest magnitude, lowest position on a tie. -/
def largest (l : List (Nat × CvIn)) : Option (Nat × CvIn) :=
  l.foldl (fun b p => if !(p.2.v.isFin) then b else match b with
    | none => some p
    | some q => if Frac.lt (Frac.abs q.2.v.frac) (Frac.abs p.2.v.frac) then some p else b) none

/-- The escape loop of R98: positions escaped, in the order taken, and whether a full row refused one; `room` entries
are left in the row. -/
def escapeLoop (d : QDesc) (ts : Frac) (l : List CvIn) : Nat → Nat → List Nat → List Nat × Bool
  | 0, _, esc => (esc, false)
  | n + 1, room, esc =>
    let rest := restOf l esc
    match largest rest with
    | none => (esc, false)
    | some (j, x) =>
      if ((fp16.round .rne x.v.isNeg (Frac.div (Frac.abs x.v.frac) (Frac.scale ts (sideExp d.tfmt)))).tooBig) then (esc, false)
      else
        let fl := flushesOf d.tfmt ts (rest.map Prod.snd)
        let fl2 := flushesOf d.tfmt ts ((rest.filter (fun p => decide (p.1 ≠ j))).map Prod.snd)
        if fl < fl2 + d.escGain then (esc, false)
        else if room = 0 then (esc, true)
        else escapeLoop d ts l n (room - 1) (esc ++ [j])

/-- The code of negative zero, which marks an escape (R99). -/
def negZero (f : Nat) : Nat := 2 ^ (fmtWidth f - 1)

/-- A TZ16 block (R87, R97-R99) with tensor scale `ts`; the row has room for `room` further entries. -/
def tzBlockOut (d : QDesc) (ts : Frac) (room : Nat) (l : List CvIn) : BlockOut :=
  let f := d.tfmt
  let e := if d.sideEn then escapeLoop d ts l d.escMax room [] else ([], false)
  let rest := (restOf l e.1).map Prod.snd
  let ab := amaxOf rest
  let zero := Frac.isZero ab
  let c := tzBlock f ab ts
  let sc := Frac.mul ts (e4m3.decode c).frac
  let side := Frac.scale ts (sideExp f)
  let escCode := fun (x : CvIn) => (fp16.round .rne x.v.isNeg (Frac.div (Frac.abs x.v.frac) side)).code
  let one := fun (p : CvIn × Nat) =>
    let x := p.1
    if e.1.contains p.2 then
      ⟨negZero f, noEvents, sqErr (Frac.sub (Frac.div x.v.frac side) (fp16.decode (escCode x)).frac)⟩
    else
      let r := if zero then zeroOne f x else convertOne f sc ⟨0, 1⟩ x
      if d.sideEn && decide (r.code = negZero f) && x.v.isFin then { r with code := 0 } else r
  let pos := (List.range l.length).filter e.1.contains
  ⟨c, l.zipIdx.map one, pos.map (fun j => (j, (l[j]?.map escCode).getD 0)), zero, e.2⟩

/-- What converting part of a storage row gave: codes, block-scale codes, side-list entries, events, statistics. -/
structure RowOut where
  codes : List Nat
  scales : List Nat
  side : List Nat
  evs : List Counts1
  d2 : Nat
  finite : Nat
  zeroBlk : Nat
  full : Bool
  deriving DecidableEq, Repr

/-- Pieces of `n` elements of a list, in order. -/
def chunks {α : Type} (n : Nat) : Nat → List α → List (List α)
  | 0, _ => []
  | k + 1, l => if l.isEmpty then [] else l.take n :: chunks n k (l.drop n)

/-- Converts TZ16 blocks one after another: `col` is the first column, `used` the entries of the row so far. -/
def tzBlocks (d : QDesc) (ts : Frac) : Nat → Nat → List (List CvIn) → List (Nat × BlockOut)
  | _, _, [] => []
  | col, used, b :: r =>
    let o := tzBlockOut d ts (d.sideCap - used) b
    (col, o) :: tzBlocks d ts (col + b.length) (used + o.escs.length) r

def blocksOut (bs : List (Nat × BlockOut)) (fin : Nat) : RowOut :=
  let els := bs.flatMap (fun b => b.2.els)
  { codes := els.map (·.code), scales := bs.map (fun b => b.2.scale),
    side := bs.flatMap (fun b => b.2.escs.map (fun e => (b.1 + e.1) % 2 ^ 14 + e.2 * 2 ^ 16)),
    evs := els.map (·.ev), d2 := (els.map (·.d2)).sum, finite := fin,
    zeroBlk := (bs.filter (fun b => b.2.zero)).length, full := bs.any (fun b => b.2.full) }

/-- The elements of a row from column `col` on, with their roundings: element index base + row x pitch + column (R75). -/
def rowIn (d : QDesc) (row col : Nat) (l : List Val) : List CvIn :=
  l.zipIdx.map (fun p => ⟨p.1, if d.rnd then .sr (srBits d.seed (d.base + row * d.pitch + col + p.2)) else .rne⟩)

/-- Converts elements of storage row `row` from column `col` (a block boundary) on: `sc` gives scale and offset per
channel (FP32 codes), `used` the side-list entries the row holds already. -/
def convertRow (d : QDesc) (sc : Nat → Nat × Nat) (row col used : Nat) (l : List Val) : RowOut :=
  let xs := rowIn d row col l
  let fin := (l.filter Val.isFin).length
  match d.cls with
  | 2 => blocksOut ((chunks 32 (l.length + 1) xs).zipIdx.map (fun p => (col + 32 * p.2, mxBlock d.tfmt p.1))) fin
  | 3 => blocksOut (tzBlocks d (f32 (sc 0).1) col used (chunks 16 (l.length + 1) xs)) fin
  | c =>
    let one := fun (p : CvIn × Nat) =>
      if c = 0 then convertOne d.tfmt ⟨1, 1⟩ ⟨0, 1⟩ p.1
      else let z := sc (d.chanOf row (col + p.2)); convertOne d.tfmt (f32 z.1) (f32 z.2) p.1
    let els := xs.zipIdx.map one
    { codes := els.map (·.code), scales := [], side := [], evs := els.map (·.ev), d2 := (els.map (·.d2)).sum, finite := fin,
      zeroBlk := 0, full := false }

/-- Codes packed from bit 0 upward into the bytes of `n` elements of the format (R59). -/
def packCodes (f : Nat) (codes : List Nat) : List Byte :=
  let w := fmtWidth f
  bytesLE (rowExtent f codes.length) (codes.reverse.foldl (fun a c => a * 2 ^ w + c % 2 ^ w) 0)

/-- The code of element `k` of a row that begins at `a` (R59). -/
def elemCode (m : Tab Byte) (a f k : Nat) : Nat :=
  let w := fmtWidth f
  bits (readNat m (a + k * w / 8) (w / 8 + 2)) (k * w % 8) w

/-- The words that elements k0 to k0 + n - 1 of a row at `a` touch. -/
def elemWords (a f k0 n : Nat) : List Nat :=
  let w := fmtWidth f
  if n = 0 then [] else wordsOf (a + k0 * w / 8) (ceilDiv ((k0 + n) * w) 8 - k0 * w / 8)

/-! ### Channels and statistics -/

def ChanTrk.none : ChanTrk := ⟨0, Option.none, false⟩

/-- The FP32 code of a finite value, +0 for both zeros. -/
def valCode (v : Val) : Nat := let c := fp32.exact v.frac; if Frac.isZero v.frac then 0 else c

def ChanTrk.see (t : ChanTrk) (v : Val) : ChanTrk :=
  if !(v.isFin) then t
  else
    let c := valCode v
    { amax := Nat.max t.amax (c % 2 ^ 31), val := some (t.val.getD c), several := t.several || decide (t.val.getD c ≠ c) }

/-- Channels after the elements of a row from column `col` on. -/
def seeRow (d : QDesc) (ch : List ChanTrk) (row col : Nat) (l : List Val) : List ChanTrk :=
  if ch.isEmpty then ch
  else l.zipIdx.foldl (fun ch p => let c := d.chanOf row (col + p.2); ch.set c ((ch.getD c ChanTrk.none).see p.1)) ch

/-- Degenerate channels (R102). -/
def degenCount (ch : List ChanTrk) : Nat := (ch.filter (fun t => !t.several)).length

/-- Statistics and counts after a converted row part; `xs` its inputs. -/
def ConvStats.add (t : ConvStats) (xs : List Val) (r : RowOut) : ConvStats :=
  { t with sqerr := t.sqerr + r.d2, count := t.count + r.finite, amax := xs.foldl (fun a v => if v.isFin then Nat.max a (valCode v % 2 ^ 31) else a) t.amax,
           sideFull := t.sideFull || r.full, zeroBlk := t.zeroBlk + r.zeroBlk, esc := t.esc + r.side.length,
           sat := t.sat + (r.evs.filter (·.sat)).length, flushed := t.flushed + (r.evs.filter (·.flushed)).length }

/-- A 32-bit field that stops at its largest value (R107). -/
def sat32 (a b : Nat) : Nat := Nat.min (a + b) (2 ^ 32 - 1)

/-- The statistics record with an operation's statistics added (R107, R108), and whether SQERR stopped. -/
def statsWords (old : List Nat) (t : ConvStats) : List Nat × Bool :=
  let w := fun i => old.getD i 0
  let sq := w 0 + t.sqerr
  let stop := decide (2 ^ 64 ≤ sq)
  let cnt := w 1 + t.count
  let b := fun i => bit (w 2) i
  ([Nat.min sq (2 ^ 64 - 1), cnt % 2 ^ 64,
    Nat.max (bits (w 2) 0 32) t.amax + Nat.max (b 32) (b2n t.warm) * 2 ^ 32 + Nat.max (b 33) (b2n stop) * 2 ^ 33 +
      Nat.max (b 34) (b2n t.sideFull) * 2 ^ 34 + Nat.max (b 35) (b2n (decide (2 ^ 64 ≤ cnt))) * 2 ^ 35 + w 2 / 2 ^ 36 * 2 ^ 36,
    sat32 (bits (w 3) 0 32) t.degenerate + sat32 (bits (w 3) 32 32) t.zeroBlk * 2 ^ 32,
    sat32 (bits (w 4) 0 32) t.esc + sat32 (bits (w 4) 32 32) t.sat * 2 ^ 32,
    sat32 (bits (w 5) 0 32) t.flushed + w 5 / 2 ^ 32 * 2 ^ 32,
    (match t.lastScale with | some c => c | none => bits (w 6) 0 32) + w 6 / 2 ^ 32 * 2 ^ 32,
    w 7], stop)

/-- Updates the statistics record at `da` (R107): whatever its full/empty bits, which it leaves set. -/
def updateStats (s : State) (k da : Nat) (t : ConvStats) : State :=
  let r := statsWords ((List.range 8).map (fun i => readNat s.sram (da + 8 * i) 8)) t
  let s := r.1.zipIdx.foldl (fun s p => s.storeWord (da + 8 * p.2) p.1) s
  s.wrIf r.2 F.QNT_STATUS_STATS_SAT k 1

/-- What a conversion leaves at its completion besides its record (R93, R94, R98, R102, R107): slots, counters, flags,
statistics. -/
def closeConversion (s : State) (k : Nat) (d : QDesc) (sl : List Nat) (ch : List ChanTrk) (t : ConvStats) (elems : Nat) : State :=
  let s := sl.zipIdx.foldl (fun s p => s.setSlot k p.1 (mergeSlot d t.warm (ch.getD p.2 ChanTrk.none).amax (s.slot k p.1))) s
  let s := ((s.bump C.QNT_CONV_CNT k elems).bump C.QNT_ESC_CNT k t.esc).bump C.QNT_DEGEN_CNT k t.degenerate
  let s := s.wrIf t.sideFull F.QNT_STATUS_SIDE_FULL k 1
  if d.statsEn then updateStats s k d.statsDA t else s

/-- The fault limits of R96: a count exceeds its limit; 0xFFFF never faults. -/
def overLimit (d : QDesc) (c : OpCounts) : Bool :=
  let o := fun lim n => decide (lim ≠ 0xFFFF ∧ lim < n)
  o d.satLim c.sat || o d.fluLim c.flushed || o d.invLim c.invalid

/-- A threshold fault (R96): the flag, and the signal that FAULT_EVT_EN asks for. -/
def thresholdFault (s : State) (k : Nat) : State :=
  let s := s.wr F.QNT_STATUS_THRESHOLD k 1
  if s.on F.QNT_CTRL_FAULT_EVT_EN k then s.signalMC F.QNT_STATUS_THRESHOLD k else s

/-- A rejection on descriptor, slot or table (R85). -/
def descError (s : State) (k cause : Nat) : State := (s.wr F.QNT_STATUS_DESC_ERR k 1).wr F.QNT_STATUS_DESC_CAUSE k cause

/-! ### Places and overlap (R47, R48) -/

/-- Rows of bytes: first address, stride, count, and bytes of each. -/
structure Rows where
  da : Nat
  stride : Nat
  n : Nat
  ext : Nat
  deriving DecidableEq, Repr

/-- One run of bytes. -/
def Rows.run (da len : Nat) : Rows := ⟨da, 0, 1, len⟩

/-- Every row lies in the places of R47, which are two unbroken ranges. -/
def Rows.placed (r : Rows) (c : Nat) : Bool := decide (r.n = 0 ∨ r.ext = 0) || inPlaces c r.da ((r.n - 1) * r.stride + r.ext)

/-- Some row of `r` shares a byte with [a, a + len). -/
def Rows.hits (r : Rows) (a len : Nat) : Bool :=
  if r.n = 0 ∨ r.ext = 0 ∨ len = 0 then false
  else if r.stride = 0 then decide (r.da < a + len ∧ a < r.da + r.ext)
  else
    -- the first row that ends above `a` is the only candidate below `a + len`
    let i := if a < r.da + r.ext then 0 else (a - (r.da + r.ext)) / r.stride + 1
    decide (i < r.n ∧ r.da + i * r.stride < a + len)

/-- Two operands share a byte (R48): rows at their strides, the bytes between rows belonging to neither. -/
def Rows.overlap (p q : Rows) : Bool := (List.range p.n).any (fun i => q.hits (p.da + i * p.stride) p.ext)

/-- The cause that forbids the places a descriptor names (R85, R91, R107): place 0x4, alignment 0x5. -/
def descPlaces (c core : Nat) (d : QDesc) (rows cols : Nat) : Option Nat :=
  let sc := d.scaleBytes rows cols
  let sd := if d.sideEn then d.sideBytes rows else 0
  if (decide (sc ≠ 0) && !(inPlaces c d.scaleDA sc)) || (decide (sd ≠ 0) && !(inPlaces c d.sideDA sd)) ||
     (d.statsEn && decide (regionOf d.statsDA ≠ .scratch core ∨ regionOf (d.statsDA + 63) ≠ .scratch core)) then some 0x4
  else if (decide (sc ≠ 0 ∧ d.scaleDA % 8 ≠ 0)) || (decide (sd ≠ 0 ∧ d.sideDA % 8 ≠ 0)) || (d.statsEn && decide (d.statsDA % 8 ≠ 0)) then some 0x5
  else none

/-- Bytes cut at word boundaries; the last piece is marked when it completes its word (R46, R174). -/
def splitWords (fill : Bool) : Nat → Nat → List Byte → List OutWrite
  | 0, _, _ => []
  | n + 1, da, bs =>
    let k := 8 - da % 8
    if bs.isEmpty then []
    else if bs.length ≤ k then [⟨da, bs, fill⟩]
    else ⟨da, bs.take k, decide (da % 8 ≠ 0)⟩ :: splitWords fill n (da + k) (bs.drop k)

def outWords (da : Nat) (bs : List Byte) (fill : Bool) : List OutWrite := splitWords fill (bs.length + 1) da bs

/-- The block scales of row `row` for blocks `b` on (R86): the row's end brings its padding. -/
def scaleWrites (d : QDesc) (row cols b : Nat) (codes : List Nat) : List OutWrite :=
  let nb := ceilDiv cols d.blockLen
  let last := decide (nb ≤ b + codes.length)
  let bs := codes.map (fun c => BitVec.ofNat 8 c) ++ (if last then List.replicate (d.scaleRow cols - nb) 0 else [])
  let a := d.scaleDA + (if d.cls = 3 then 8 else 0) + row * d.scaleRow cols + b
  outWords a bs (decide ((a + bs.length) % 8 = 0))

/-- The plain scales (R86), or the tensor scale word of TZ16; `sc` gives scale and offset codes per channel. -/
def coarseWrites (d : QDesc) (sc : Nat → Nat × Nat) (rows cols : Nat) : List OutWrite :=
  match d.cls with
  | 1 =>
    let n := d.channels rows cols
    let one := fun c => if d.asym then bytesLE 4 (sc c).1 ++ bytesLE 4 (sc c).2 else bytesLE 4 (sc c).1
    let bs := (List.range n).flatMap one
    outWords d.scaleDA (bs ++ List.replicate (alignUp bs.length 8 - bs.length) 0) true
  | 3 => outWords d.scaleDA (bytesLE 8 (sc 0).1) true
  | _ => []

/-- The side-list entries of a row from entry `used` on (R99). -/
def sideWrites (d : QDesc) (rows row used : Nat) (es : List Nat) : List OutWrite :=
  outWords (d.sideDA + alignUp (2 * rows) 8 + (row * d.sideCap + used) * 4) (es.flatMap (bytesLE 4)) true

/-- The entry count of a row (R99); the array's last row brings its padding. -/
def sideCount (d : QDesc) (rows row n : Nat) : List OutWrite :=
  let last := decide (row + 1 = rows)
  let bs := bytesLE 2 n ++ (if last then List.replicate (alignUp (2 * rows) 8 - 2 * rows) 0 else [])
  outWords (d.sideDA + 2 * row) bs (decide ((d.sideDA + 2 * row + bs.length) % 8 = 0))

/-- The scales of current scaling (R87, R90, R102) from the elements of each channel: the list per channel. -/
def currentScales (d : QDesc) (ch : List ChanTrk) (range : Nat → Frac × Frac) : List (Nat × Nat) :=
  ch.zipIdx.map (fun p =>
    if d.cls = 3 then (tzTensor d.tfmt 0 p.1.amax, 0)
    else if d.asym then (match p.1.val with | none => (minScale, 0) | some _ => plainAsym d.tfmt (range p.2).1 (range p.2).2)
    else (plainSym d.tfmt 0 p.1.amax, 0))

/-- The scales of delayed scaling from the slots' amax (R93): 2^-126 when it is 0. -/
def delayedScale (d : QDesc) (a : Nat) : Nat :=
  if a = 0 then minScale else if d.cls = 3 then tzTensor d.tfmt d.margin a else plainSym d.tfmt d.margin a

/-- Channels of a symmetric plain target whose scale is +0: each counts as a zero block (R102). -/
def zeroChannels (d : QDesc) (sc : List (Nat × Nat)) : Nat :=
  if d.cls = 1 ∧ ¬ d.asym then (sc.filter (fun z => decide (z.1 = 0))).length else 0

end Sys2Proof.Machine
end

