-- ==== Sys2Proof/Machine/Fold.lean ====
section
/-!
DEFINITION. The arithmetic of the matrix engines (R28-R49, R55-R72, R99-R106): operands and their formats, products and
their classes, the pass results of the exact and the fast mode, the accumulators and their one rounding, and the checks
that reject an instruction (R33).
-/
namespace Sys2Proof.Machine

/-! ### Parameters (R122, R123) -/

/-- The fields of a MATMUL word and its parameters. -/
structure MxPar where
  aDA : Nat
  aS : Nat
  bDA : Nat
  bS : Nat
  cDA : Nat
  cS : Nat
  dDA : Nat
  dS : Nat
  scA : Nat
  scB : Nat
  tabS : Nat
  sideDA : Nat
  sideCap : Nat
  m : Nat
  n : Nat
  k : Nat
  fa : Nat
  ba : Nat
  fb : Nat
  bb : Nat
  fc : Nat
  cen : Bool
  fd : Nat
  bd : Nat
  exactBit : Bool
  dwait : Bool
  deriving DecidableEq, Repr

def OpIns.mx (i : OpIns) : MxPar :=
  let p := fun j => i.par.getD j 0
  let w := i.word
  { aDA := bits (p 0) 0 48, aS := bits (p 0) 48 16 * 8, bDA := bits (p 1) 0 48, bS := bits (p 1) 48 16 * 8,
    cDA := bits (p 2) 0 48, cS := bits (p 2) 48 16 * 8, dDA := bits (p 3) 0 48, dS := bits (p 3) 48 16 * 8,
    scA := bits (p 4) 0 48, scB := bits (p 5) 0 48, tabS := bits (p 5) 48 16 * 64,
    sideDA := bits (p 6) 0 48, sideCap := bits (p 6) 48 13,
    m := bits (p 7) 0 16, n := bits (p 7) 16 16, k := bits (p 7) 32 16,
    fa := bits w 49 5, ba := bits w 54 2, fb := bits w 56 5, bb := bits w 61 2, fc := bits w 63 5,
    cen := decide (bit w 68 = 1), fd := bits w 69 5, bd := bits w 74 2, exactBit := decide (bit w 76 = 1),
    dwait := decide (bit w 77 = 1) }

/-- B holds codebook indices. -/
def MxPar.book (p : MxPar) : Bool := decide (0x10 ≤ p.fb ∧ p.fb ≤ 0x12)
/-- Bits of an index. -/
def MxPar.idxBits (p : MxPar) : Nat := p.fb - 0x0E
def isFp8 (f : Nat) : Bool := decide (f = 4 ∨ f = 5)
/-- The pairing is one of integers (R55). -/
def MxPar.isInt (p : MxPar) : Bool := isIntFmt p.fa
/-- D needs a quantisation descriptor (R85). -/
def MxPar.quantD (p : MxPar) : Bool := isFp8642 p.fd || isIntFmt p.fd
/-- An operand is TZ16 (R67). -/
def MxPar.tz (p : MxPar) : Bool := decide (p.ba = 2 ∨ p.bb = 2)
/-- A names a side list (R100). -/
def MxPar.side (p : MxPar) : Bool := decide (p.ba = 2 ∧ p.sideDA ≠ 0)

/-- The rate group is the pair group (R30, R32): both operands have 6 bits or fewer, and no codebook. -/
def MxPar.pair (p : MxPar) : Bool := let narrow := fun f => decide (f = 6 ∨ f = 7 ∨ f = 8 ∨ f = 0x0D); narrow p.fa && narrow p.fb
def MxPar.kblk (p : MxPar) : Nat := if p.pair then 64 else 32
def MxPar.nbs (p : MxPar) : Nat := ceilDiv p.n 32
def MxPar.kbs (p : MxPar) : Nat := ceilDiv p.k p.kblk
/-- Valid columns of N-block `nb`. -/
def MxPar.nv (p : MxPar) (nb : Nat) : Nat := Nat.min 32 (p.n - nb * 32)
/-- Valid reduction elements of K-block `kb`. -/
def MxPar.kv (p : MxPar) (kb : Nat) : Nat := Nat.min p.kblk (p.k - kb * p.kblk)

/-- Array rows that the weights of a K-block take: 32 at most, one per beat of the load (R42). -/
def MxPar.loadRows (p : MxPar) (kb : Nat) : Nat := Nat.min 32 (p.kv kb)
/-- The lanes whose weights array row `i` holds in a K-block: slot 0, and slot 1 in the pair group (R32). -/
def MxPar.rowLanes (p : MxPar) (kb i : Nat) : List Nat := [i, 32 + i].filter (fun l => decide (l < p.kv kb))

/-- The pairing, block codes, addend and destination are accepted (R32, R55, R68). DESIGN CHOICE (log entry 99): FMT_C is judged
only when CEN is 1, since without an addend the code names nothing. -/
def MxPar.formatsOK (p : MxPar) : Bool :=
  let blk := fun f b => decide (b = 0) || (decide (b = 1 ∨ b = 2) && isFp8642 f)
  let pairing :=
    (isFp8642 p.fa && isFp8642 p.fb) || (isIntFmt p.fa && isIntFmt p.fb) ||
    (p.book && (isFp8 p.fa || decide (p.fa = 0x0C))) || decide (p.fa = 1 ∧ p.fb = 1) || decide (p.fa = 2 ∧ p.fb = 2)
  let addend := !p.cen || decide (p.fc ≤ 2) || (p.isInt && decide (p.fc = 0x0E))
  let dest := p.quantD || decide (p.fd = 0) || (if p.isInt then decide (p.fd = 0x0E) else decide (p.fd = 1 ∨ p.fd = 2))
  pairing && blk p.fa p.ba && blk p.fb p.bb && addend && dest && blk p.fd p.bd

/-- Bytes of the scale array of an operand with `rows` storage rows along K (R86). -/
def operandScaleBytes (blk rows k : Nat) : Nat :=
  match blk with
  | 1 => rows * alignUp (ceilDiv k 32) 8
  | 2 => 8 + rows * alignUp (ceilDiv k 16) 8
  | _ => 0

def MxPar.rowsA (p : MxPar) : Rows := ⟨p.aDA, p.aS, p.m, rowExtent p.fa p.k⟩
def MxPar.rowsB (p : MxPar) : Rows := ⟨p.bDA, p.bS, p.n, rowExtent p.fb p.k⟩
def MxPar.rowsC (p : MxPar) : Rows := ⟨p.cDA, p.cS, if p.cen then p.m else 0, rowExtent p.fc p.n⟩
def MxPar.rowsD (p : MxPar) : Rows := ⟨p.dDA, p.dS, p.m, rowExtent p.fd p.n⟩
def MxPar.scalesA (p : MxPar) : Rows := Rows.run p.scA (operandScaleBytes p.ba p.m p.k)
def MxPar.scalesB (p : MxPar) : Rows := Rows.run p.scB (operandScaleBytes p.bb p.n p.k)
def tableBytes (b : Nat) : Nat := 64 + 256 * 2 ^ b * 2
def MxPar.tables (p : MxPar) : Rows :=
  ⟨p.scB, p.tabS, if p.book then (if p.tabS = 0 then 1 else p.nbs) else 0, tableBytes p.idxBits⟩
def MxPar.sideRun (p : MxPar) : Rows := Rows.run p.sideDA (if p.side then alignUp (2 * p.m) 8 + p.m * p.sideCap * 4 else 0)
/-- The spill region (R91). -/
def MxPar.spillRun (p : MxPar) (da : Nat) : Rows := Rows.run da (p.m * alignUp (4 * p.n) 8)

/-- D coincides with C (R48): the same DA and stride, rows that do not run into one another, and no C element that a D element
covers before it is read: D's elements are no wider than C's, or one N-block holds the whole row. DEDUCED (log entry 100). -/
def MxPar.sameCD (p : MxPar) : Bool :=
  decide (p.cDA = p.dDA ∧ p.cS = p.dS) && (decide (fmtWidth p.fd ≤ fmtWidth p.fc) || decide (p.n ≤ 32)) &&
    (decide (p.m ≤ 1) || decide (Nat.max (rowExtent p.fc p.n) (rowExtent p.fd p.n) ≤ p.dS))

/-- The cause among place, overlap and alignment that rejects the operands (R33, R47, R48); `dsc` is D's own scale array. -/
def MxPar.placeCause (p : MxPar) (c recDA : Nat) (dsc : Rows) : Option Nat :=
  let ops := [p.rowsA, p.rowsB, p.rowsC, p.rowsD, p.scalesA, p.scalesB, p.tables, p.sideRun]
  let others := [p.rowsA, p.rowsB, p.scalesA, p.scalesB, dsc, Rows.run recDA 64] ++ (if p.sameCD then [] else [p.rowsC])
  if !(ops.all (fun r => r.placed c)) then some 0x3
  else if others.any (fun r => Rows.overlap p.rowsD r) then some 0x4
  else if ops.any (fun r => decide (r.n ≠ 0 ∧ r.ext ≠ 0 ∧ r.da % 8 ≠ 0)) || (p.book && decide (p.scB % 64 ≠ 0)) then some 0x5
  else none

/-- A spill region's fault (R91): it must lie in the places, share no byte with an operand, and be aligned; `own` are the other
regions the instruction writes, D's scale array, its side list and the record. -/
def MxPar.spillCause (p : MxPar) (c da : Nat) (own : List Rows) : Option Nat :=
  let r := p.spillRun da
  if !(r.placed c) || ([p.rowsA, p.rowsB, p.rowsC, p.rowsD, p.scalesA, p.scalesB, p.tables, p.sideRun] ++ own).any (fun q => Rows.overlap q r) then some 0x4
  else if da % 8 ≠ 0 then some 0x5
  else none

/-- The dimensions of R33. -/
def MxPar.dimsOK (p : MxPar) : Bool := decide (1 ≤ p.m ∧ p.m ≤ 4096 ∧ 1 ≤ p.n ∧ p.n ≤ 4096 ∧ 1 ≤ p.k ∧ p.k ≤ 16384)

/-! ### Operand elements (R60, R61, R100, R103, R104) -/

/-- A block scale: `none` makes NaN elements, zero a zero block. -/
def blkScale (blk c : Nat) : Option Frac :=
  match blk with
  | 1 => e8m0 c
  | 2 => if c = 0 then some ⟨0, 1⟩ else if 128 ≤ c ∨ c = 0x7F then none else some (e4m3.decode c).frac
  | _ => some ⟨1, 1⟩

/-- Where the block scale of an element stands: storage row `r`, position `k` of rows of `len` elements. -/
def blkScaleDA (blk da r k len : Nat) : Nat :=
  match blk with
  | 1 => da + r * alignUp (ceilDiv len 32) 8 + k / 32
  | _ => da + 8 + r * alignUp (ceilDiv len 16) 8 + k / 16

def blkCode (m : Tab Byte) (blk da r k len : Nat) : Nat := if blk = 0 then 0 else (byteAt m (blkScaleDA blk da r k len)).toNat

/-- The words of the block scales of elements k0 to k0 + n - 1. -/
def blkWords (blk da r k0 n len : Nat) : List Nat :=
  if blk = 0 ∨ n = 0 then []
  else wordsOf (blkScaleDA blk da r k0 len) (blkScaleDA blk da r (k0 + n - 1) len + 1 - blkScaleDA blk da r k0 len)

/-- An activation in its lane: its value and code with its block scale, or an escape (R100) with its value. -/
inductive ALane where
  | elem (v : Val) (code : Nat) (sc : Frac)
  | esc (v : Val)
  deriving DecidableEq, Repr

/-- The entries that a row of the side list holds: the count, at most the capacity (R100). -/
def sideEntries (m : Tab Byte) (p : MxPar) (row : Nat) : Nat := Nat.min (readNat m (p.sideDA + 2 * row) 2) p.sideCap

def sideEntryDA (p : MxPar) (row i : Nat) : Nat := p.sideDA + alignUp (2 * p.m) 8 + (row * p.sideCap + i) * 4

/-- The value of an escape (R100): NaN when no entry holds its k; which of several entries applies the spec leaves open. -/
def escapeVal (m : Tab Byte) (p : MxPar) (row k : Nat) : Val :=
  let es := (List.range (sideEntries m p row)).map (fun i => readNat m (sideEntryDA p row i) 4)
  match (es.filter (fun e => decide (bits e 0 14 = k))).map (fun e => bits e 16 16) with
  | [] => .nan
  | [c] => fp16.decode c
  | cs => fp16.decode (Config.sideChoice cs % 2 ^ 16)

def Val.times (v : Val) (x : Frac) : Val := match v with | .fin n f => .fin n (Frac.mul f x) | v => v

/-- Activation (row, k). -/
def aLane (m : Tab Byte) (p : MxPar) (row k : Nat) : ALane :=
  let c := elemCode m (p.aDA + row * p.aS) p.fa k
  if p.side && decide (c = negZero p.fa) then .esc ((escapeVal m p row k).times (Frac.pow2 (sideExp p.fa)))
  else match blkScale p.ba (blkCode m p.ba p.scA row k p.k) with
    | none => .elem .nan c ⟨1, 1⟩
    | some sc => if Frac.isZero sc then .elem (.fin false ⟨0, 1⟩) 0 ⟨1, 1⟩ else .elem (fmtDecode p.fa c) c sc

/-- A weight from its code and its block scale's code. -/
def wVal (p : MxPar) (w : Nat × Nat) : Val :=
  match blkScale p.bb w.2 with
  | none => .nan
  | some sc => if Frac.isZero sc then .fin false ⟨0, 1⟩ else (fmtDecode p.fb w.1).times sc

/-! ### Products (R62) -/

/-- The class of a product. -/
inductive Prod2 where
  | nan
  | zeroInf
  | inf (neg : Bool)
  | fin (x : Frac)
  deriving DecidableEq, Repr

def mulVal (a b : Val) : Prod2 :=
  match a, b with
  | .nan, _ => .nan
  | _, .nan => .nan
  | .inf n, .inf k => .inf (n != k)
  | .inf n, .fin k x => if Frac.isZero x then .zeroInf else .inf (n != k)
  | .fin k x, .inf n => if Frac.isZero x then .zeroInf else .inf (n != k)
  | .fin n x, .fin k y => .fin (Frac.mul (if n then Frac.neg x else x) (if k then Frac.neg y else y))

/-- The product that a table entry codes (R104). -/
def entryProd (fa e : Nat) : Prod2 :=
  if fa = 0x0C then .fin (Frac.ofInt (sext 16 e))
  else
    let x := bits e 9 6
    let g := bits e 0 9
    let neg := decide (bit e 15 = 1)
    if x ≠ 0 then .fin (Frac.scale (Frac.ofInt (if neg then -(g : Int) else g)) ((x : Int) - 40))
    else if g = 0 then .fin ⟨0, 1⟩ else if g = 0x1FD then .zeroInf else if g = 0x1FE then .inf neg else .nan

/-- The codebook value that an escaped activation multiplies with (R106). -/
def bookVal (fa : Nat) (book : List Nat) (j : Nat) : Val := fmtDecode (if fa = 0x0C then 0x0C else 0x04) (book.getD j 0)

/-- An operand value as its TZ16 tensor scale makes it, as far as its class goes (R61, R62): a scale of zero makes zeros, and of an
infinity NaN, as R62 has of a product of the two; a negative one turns the sign. -/
def Val.under (v : Val) (tz : Bool) (ts : Nat) : Val :=
  if !tz then v
  else
    let zero := match fp32.decode ts with | .fin _ x => Frac.isZero x | _ => false
    let neg := decide (bit ts 31 = 1)
    match v with
    | .nan => .nan
    | .inf n => if zero then .nan else .inf (n != neg)
    | .fin n x => if zero then .fin false ⟨0, 1⟩ else .fin (n != neg) x

/-- The class of a product whose operands are not both finite, or whose class a tensor scale changes. -/
def Prod2.special : Prod2 → Bool
  | .fin _ => false
  | _ => true

/-- The product of an activation and the weight of a lane; `tsA` and `tsB` are the tensor scales of TZ16 operands. -/
def laneProd (p : MxPar) (table book : List Nat) (tsA tsB : Nat) (a : ALane) (w : Nat × Nat) : Prod2 :=
  let b := if p.book then bookVal p.fa book w.1 else wVal p w
  let cls := fun (v : Val) => mulVal (v.under (decide (p.ba = 2)) tsA) (b.under (decide (p.bb = 2 ∧ ¬ p.book)) tsB)
  match a with
  | .esc v => if (cls v).special then cls v else mulVal v b
  | .elem v c sc =>
    -- a table entry says the class of its product itself; only the sign of the tensor scale is not in it
    let r := if p.book then
        (if v.isNaN then .nan
         else match entryProd p.fa (table.getD (c * 2 ^ p.idxBits + w.1) 0), Val.under (.inf false) (decide (p.ba = 2)) tsA with
           | .inf n, .inf k => .inf (n != k)
           | .inf _, _ => .nan
           | x, _ => x)
      else if (cls v).special then cls v else mulVal v b
    match r with
    | .fin x => .fin (Frac.mul x sc)
    | r => r

/-! ### Sums (R65, R66, R69, R71, R72) -/

/-- An exact number in units of 2^-320 (R66). -/
def toAcc (x : Frac) : Int := x.num * ((2 ^ 320 : Nat) : Int) / (x.den : Int)

/-- The floating window of a BF16 column (R69), in units of 2^-400: exponent of the leading bit, integer, loss. -/
def winStep (st : Option (Nat × Int) × Bool) (x : Frac) : Option (Nat × Int) × Bool :=
  if Frac.isZero x then st
  else
    let v : Int := x.num * ((2 ^ 400 : Nat) : Int) / (x.den : Int)
    let tx := Nat.log2 v.natAbs
    let enter := fun (t : Nat) (w : Int) (loss : Bool) =>
      let u : Int := ((2 ^ (t - 120) : Nat) : Int)
      (some (t, w + v / u), loss || decide (v % u ≠ 0))
    match st.1 with
    | none => enter tx 0 st.2
    | some (t, w) =>
      if t < tx then
        let d : Int := ((2 ^ (tx - t) : Nat) : Int)
        enter tx (w / d) (st.2 || decide (w % d ≠ 0))
      else enter t w st.2

/-- The pass result of a BF16 column in units of 2^-320, and its window loss. -/
def winPass (xs : List Frac) : Int × Bool :=
  let r := xs.foldl winStep (none, false)
  match r.1 with
  | none => (0, r.2)
  | some (t, w) => (w * ((2 ^ (t - 120) : Nat) : Int) / ((2 ^ 80 : Nat) : Int), r.2)

/-- A partial sum of fast mode (R71): sign, exponent, 30-bit significand. -/
structure FastSum where
  neg : Bool
  e : Int
  f : Nat
  deriving DecidableEq, Repr

/-- An exact product in the form of R71; `none` is zero. -/
def fastForm (x : Frac) : Option FastSum :=
  if Frac.isZero x then none
  else let e := Frac.ilog2 x; some ⟨Frac.isNeg x, e, (Frac.floor (Frac.scale (Frac.abs x) (29 - e))).toNat⟩

/-- One step of R71. -/
def fastStep (p : Option FastSum) (x : Frac) : Option FastSum :=
  match p, fastForm x with
  | p, none => p
  | none, some x => some x
  | some p, some x =>
    let e := if p.e < x.e then x.e else p.e
    let u : Int := (p.f * 8 / 2 ^ (e - p.e).toNat : Nat)
    let v : Int := (x.f * 8 / 2 ^ (e - x.e).toNat : Nat)
    let r := (if p.neg then -u else u) + (if x.neg then -v else v)
    if r = 0 then none
    else
      let g := r.natAbs
      if 2 ^ 33 ≤ g then some ⟨decide (r < 0), e + 1, g / 2 / 8⟩
      else
        let k := 32 - Nat.log2 g
        some ⟨decide (r < 0), e - k, g * 2 ^ k / 8⟩

def fastVal (p : Option FastSum) : Frac :=
  match p with
  | none => ⟨0, 1⟩
  | some p => Frac.scale (Frac.ofInt (if p.neg then -(p.f : Int) else p.f)) (p.e - 29)

/-- The FP32 addition of the column end in fast mode (R72): new code, saturated, flushed. DESIGN CHOICE (log entry 99): a nonzero
exact sum that rounds to zero itself is treated as one that rounds to a subnormal, a zero with its sign, counted as flushed. -/
def fastAdd (c : Nat) (x : Frac) : Nat × Bool × Bool :=
  let v := Frac.add (f32 c) x
  if Frac.isZero v then (0, false, false)
  else
    let r := fp32.round .rne (Frac.isNeg v) (Frac.abs v)
    if bits r.code 23 8 = 0 then (fp32.signBit (Frac.isNeg v), false, true) else (r.code, r.tooBig, false)

/-! ### Elements of D -/

def Elem.zero : Elem := ⟨0, 0, 0, false, false, false, false, false, false, false, false, false⟩

/-- `init` of R34, R62, R67, R72: the addend. -/
def elemInit (p : MxPar) (exact : Bool) (c : Nat) : Elem :=
  if !p.cen then Elem.zero
  else match fmtDecode p.fc c with
    | .nan => { Elem.zero with nan := true }
    | .inf n => { Elem.zero with aPos := !n, aNeg := n }
    | .fin n m =>
      let x := if n then Frac.neg m else m
      if !exact then { Elem.zero with f32 := (fp32.round .rne n m).code }
      else if p.tz then { Elem.zero with addend := c }
      else { Elem.zero with acc := toAcc x }

/-- The element is invalid (R62). -/
def Elem.invalid (e : Elem) : Bool := e.inv || (e.pPos && e.pNeg) || (e.pPos && e.aNeg) || (e.pNeg && e.aPos)

/-- Flags after a product of index `k`, and the first product of the row that makes an element invalid (R62, R80). -/
def flagStep (st : Elem × Option (Nat × Nat)) (kp : Nat × Prod2) : Elem × Option (Nat × Nat) :=
  let e := st.1
  let first := fun kind => match st.2 with | some f => some f | none => some (kp.1, kind)
  match kp.2 with
  | .nan => ({ e with nan := true }, st.2)
  | .zeroInf => ({ e with nan := true, inv := true }, first 1)
  | .inf true => ({ e with pNeg := true }, if e.pPos then first 2 else if e.aPos then first 3 else st.2)
  | .inf false => ({ e with pPos := true }, if e.pNeg then first 2 else if e.aNeg then first 3 else st.2)
  | .fin _ => st

/-- The column end adds the products of one pass into an element. -/
def elemPass (p : MxPar) (exact : Bool) (e : Elem) (k0 : Nat) (ps : List Prod2) : Elem × Option (Nat × Nat) :=
  let fl := (ps.zipIdx.map (fun x => (k0 + x.2, x.1))).foldl flagStep (e, none)
  let xs := ps.filterMap (fun x => match x with | .fin v => some v | _ => none)
  let e := fl.1
  if !exact then
    let r := fastAdd e.f32 (fastVal (xs.foldl fastStep none))
    ({ e with f32 := r.1, sat := e.sat || r.2.1, flushed := e.flushed || r.2.2 }, fl.2)
  else if p.fa = 1 then
    let r := winPass xs
    ({ e with acc := e.acc + r.1, loss := e.loss || r.2 }, fl.2)
  else ({ e with acc := xs.foldl (fun a x => a + toAcc x) e.acc }, fl.2)

/-- `round_once` (R63, R68, R72): the element in format `f` (FP32, BF16, FP16, INT32), and its events. DESIGN CHOICE (log entry 99):
R68 calls the value for an INT32 destination an integer, but a floating-point addend may make it a fraction; it is rounded to
nearest, ties to even, and counted as flushed when a nonzero value becomes 0. -/
def elemRound (p : MxPar) (exact : Bool) (tsA tsB f : Nat) (e : Elem) : Nat × Counts1 :=
  let g := (floatOf f).getD fp32
  if e.nan || e.invalid then
    if f = 0x0E then (0, { noEvents with invalid := true }) else (g.canonNaN, { noEvents with nanOut := true, invalid := e.invalid })
  else if e.pPos || e.aPos || e.pNeg || e.aNeg then
    let neg := e.pNeg || e.aNeg
    if f = 0x0E then (if neg then 2 ^ 31 else 2 ^ 31 - 1, { noEvents with sat := true }) else (g.infCode neg, noEvents)
  else if !exact then
    let r := if f = 0 then (e.f32, noEvents) else g.narrow .rne (fp32.decode e.f32)
    (r.1, { r.2 with sat := r.2.sat || e.sat, flushed := r.2.flushed || e.flushed })
  else
    let a : Frac := ⟨e.acc, 2 ^ 320⟩
    let v := if p.tz then Frac.add (Frac.mul (Frac.mul (f32 tsA) (f32 tsB)) a) (fmtDecode p.fc e.addend).frac else a
    if f = 0x0E then narrowInt 32 .rne (Val.ofFrac false v)
    else
      let r := g.round .rne (Frac.isNeg v) (Frac.abs v)
      (if Frac.isZero v then 0 else r.code, { noEvents with sat := r.tooBig, flushed := r.toZero })

end Sys2Proof.Machine
end

