-- ==== Sys2Proof/Machine/Matrix.lean ====
section
/-!
DEFINITION. The matrix engines (R28-R54, R81, R91-R96, R115): accepting an instruction, the fold in its fixed order, holds
on empty words and on a full output path, D words that wait, stops at N-block boundaries, data errors and completion.
-/
namespace Sys2Proof.Machine

def State.eng (s : State) (e : Nat) : Engine := Tab.get Engine.idle s.tile.engines e
def State.setEng (s : State) (e : Nat) (g : Engine) : State :=
  { s with tile := { s.tile with engines := Tab.set Engine.idle s.tile.engines e g } }
def State.convOp (s : State) (k : Nat) : Option ConvOp := Tab.get none s.tile.conv k
def State.setConv (s : State) (k : Nat) (o : Option ConvOp) : State :=
  { s with tile := { s.tile with conv := Tab.set none s.tile.conv k o } }

/-- Sets the instruction in progress of an engine. -/
def State.setRun (s : State) (e : Nat) (r : MxRun) : State := s.setEng e { s.eng e with cur := some r }

/-- The instructions of an engine whose rows are not all written, oldest first. -/
def Engine.runs (g : Engine) : List MxRun := g.ending ++ g.cur.toList

/-- The weight set `i` of an engine (R29). -/
def Engine.wset (g : Engine) (i : Nat) : WSet := if i = 0 then g.set0 else g.set1
def Engine.putSet (g : Engine) (i : Nat) (w : WSet) : Engine := if i = 0 then { g with set0 := w } else { g with set1 := w }

/-- The set whose tag new rows receive, and the shadow set, which the load bus fills (R29, R41). -/
def activeSet (s : State) (e : Nat) : Nat := s.rd F.MXE_STATUS_ACTIVE_SET e
def shadowSet (s : State) (e : Nat) : Nat := 1 - activeSet s e
def State.shadow (s : State) (e : Nat) : WSet := (s.eng e).wset (shadowSet s e)

/-- The accumulator bank of an N-block (R45). -/
def MxRun.bank (r : MxRun) (nb : Nat) : Tab Elem := if nb % 2 = 0 then r.bank0 else r.bank1
def MxRun.putBank (r : MxRun) (nb : Nat) (t : Tab Elem) : MxRun := if nb % 2 = 0 then { r with bank0 := t } else { r with bank1 := t }

def OpIns.desc (s : State) (i : OpIns) : QDesc := qdesc (readDesc s i.sqd)

/-! ### Acceptance (R33, R44, R85, R92-R95) -/

/-- A rejection: the cause in the engine's status and the descriptor's cause. -/
structure Reject where
  cause : Nat
  desc : Option Nat
  deriving DecidableEq, Repr

/-- The descriptor's DA is in a place and aligned (R85). -/
def descAt (c sqd : Nat) : Option Nat := if !(inPlaces c sqd 64) then some 0x4 else if sqd % 64 ≠ 0 then some 0x5 else none

/-- The regions besides its operands that an instruction which converts D writes: D's scale array and side list, and the
record. -/
def ownRegions (i : OpIns) (d : QDesc) : List Rows :=
  [Rows.run d.scaleDA (d.scaleBytes i.mx.m i.mx.n), Rows.run d.sideDA (if d.sideEn then d.sideBytes i.mx.m else 0), Rows.run i.recDA 64]

/-- Why a matrix instruction of core `k` is rejected when the engine accepts it. DESIGN CHOICE (log entry 99): where several reasons
hold, CAUSE names the first of dimensions, formats, descriptor, place, overlap, alignment; R33 gives no order. -/
def mxReject (s : State) (k : Nat) (i : OpIns) : Option Reject :=
  let p := i.mx
  let c := clusterOfCore k
  let d := i.desc s
  if !p.dimsOK then some ⟨0x1, none⟩
  else if !p.formatsOK then some ⟨0x2, none⟩
  else if p.quantD && decide (wSQD i.word = 0) then some ⟨0x2, none⟩
  else
    let dc : Option Nat :=
      if !p.quantD then none
      else (descAt c i.sqd).orElse (fun _ =>
        if d.badCode || decide (d.tfmt ≠ p.fd ∨ d.tblk ≠ p.bd) then some 0x1
        else (slotCause s k i.queue (d.slots p.m p.n)).orElse (fun _ =>
          (descPlaces c k d p.m p.n).orElse (fun _ =>
            if d.coarse && !d.delayed then p.spillCause c d.spillDA (ownRegions i d) else none)))
    match dc with
    | some x => some ⟨0x2, some x⟩
    | none =>
      match p.placeCause c i.recDA (Rows.run d.scaleDA (if p.quantD then d.scaleBytes p.m p.n else 0)) with
      | some x => some ⟨x, none⟩
      | none => none

/-- The slots of operations of core `k` with an ADVANCE in flight (R93). -/
def advancing (s : State) (k : Nat) : List Nat :=
  let of := fun (i : OpIns) (d : QDesc) => if i.mx.quantD && d.advance then d.slots i.mx.m i.mx.n else []
  (List.range 4).flatMap (fun e =>
    ((s.eng (k * 4 + e)).runs.flatMap (fun r => if r.desc.isEmpty then [] else of r.ins (qdesc r.desc))) ++
    (match (s.eng (k * 4 + e)).staged with | some i => of i (i.desc s) | none => [])) ++
  (match s.convOp k with
   | some o => if o.kind = 0 then (let d := qdesc o.desc; if d.advance then d.slots (bits (o.ins.par.getD 2 0) 0 32) (bits (o.ins.par.getD 2 0) 32 16) else []) else []
   | none => [])

/-- An operation that names the slots waits at the head (R93, R95). -/
def slotsBusy (s : State) (k : Nat) (sl : List Nat) : Bool :=
  slotsClearing s k sl || (let a := advancing s k; sl.any (fun i => a.contains i))

/-! ### Records -/

/-- Writes the completion record of an engine's operation (R52, R81, R125). -/
def mxRecord (s : State) (e : Nat) (i : OpIns) (ws : List Nat) : State :=
  let x := putRecord (s.bump C.MXE_INSTR_CNT e 1) (clusterOfCore (e / 4)) i.queue (some e) i.recDA ws
  x.1.wrIf x.2 F.MXE_STATUS_RECORD_ERR e 1

def mxHead (i : OpIns) (status : Nat) (exact : Bool) (desc : List Nat) : RecHead :=
  ⟨status, 0x01, i.mx.fd, i.mx.bd, exact, (!(desc.isEmpty)) && (qdesc desc).rnd, recTag i.word i.queue⟩

/-- Accumulation is exact (R31). -/
def mxExact (s : State) (e : Nat) (i : OpIns) : Bool :=
  let p := i.mx
  !(decide (p.fa = 1 ∨ p.fa = 2)) || p.exactBit || s.on F.MXE_CTRL_FORCE_EXACT e

/-- A rejected instruction completes with a CONFIG_ERR record and nothing else (R33); it accumulated nothing, so EXACT is 0 (R78). -/
def mxRefuse (s : State) (e : Nat) (i : OpIns) (r : Reject) : State :=
  let s := (s.wr F.MXE_STATUS_CONFIG_ERR e 1).wr F.MXE_STATUS_CAUSE e r.cause
  let s := match r.desc with | some x => descError s (e / 4) x | none => s
  mxRecord s e i (recordWords (mxHead i 0x01 false []) (OpCounts.start s.trk.ts) 0 0 0)

/-! ### The output path (R46, R83, R99) -/

/-- A write of the output path may be made now. -/
def outReady (s : State) (who : Agent) (dwait : Bool) (o : OutWrite) : Bool :=
  let ws := wordsOf o.da o.bytes.length
  !(padBusy s o.da) && !(padDown s o.da) &&
    (!dwait || mayAccess s (waitersBefore who ws s.sync.waiters) 1 true ws)

/-- Writes a row's words as far as they may be written; the others stay on the output path, in sync mode as waiters. -/
def putWords (s : State) (who : Agent) (dwait : Bool) : List OutWrite → State × List OutWrite
  | [] => (s, [])
  | o :: r =>
    if outReady s who dwait o then
      putWords (s.storeOut o) who dwait r
    else
      let s := if dwait then s.addWaiter ⟨who, 1, true, wordsOf o.da o.bytes.length⟩ else s
      let x := putWords s who dwait r
      (x.1, o :: x.2)

/-- Time of the last result word committed, after words of which some are left. -/
def OpCounts.wrote (c : OpCounts) (before left : List OutWrite) (ts : Nat) : OpCounts :=
  if left.length < before.length then { c with tEnd := ts } else c

/-- A row is handed to the output path. -/
def handRow (s : State) (e : Nat) (r : MxRun) (dwait : Bool) (ws : List OutWrite) : State × MxRun :=
  let x := putWords s (.out e) dwait ws
  (x.1, { r with cnt := r.cnt.wrote ws x.2 s.trk.ts, out := if x.2.isEmpty then r.out else r.out ++ [(r.nb, x.2)] })

/-- Bytes of columns nb x 32 on of row `m` of D (R46, R59): 32 elements take whole words, the row's end completes its
word. -/
def dWrites (p : MxPar) (m nb : Nat) (codes : List Nat) : List OutWrite :=
  outWords (p.dDA + m * p.dS + nb * 4 * fmtWidth p.fd) (packCodes p.fd codes) true

/-- Counts after the events of a row's elements; `ev` per element, `nb`, `m` of the row. DESIGN CHOICE (log entry 99): an INT32
element that a NaN operand or addend makes invalid, with no invalid product, is named in the FI fields with kind 0, as an element
that the conversion counts. -/
def countRow (c : OpCounts) (evs : List Counts1) (nb m : Nat) (elemInv : List Bool) (losses : Nat) : OpCounts :=
  let n := fun (f : Counts1 → Bool) => (evs.filter f).length
  let conv := (evs.zip elemInv).findIdx? (fun x => x.1.invalid && !x.2)
  { c with sat := c.sat + n (·.sat), flushed := c.flushed + n (·.flushed), invalid := c.invalid + n (·.invalid),
           nanOut := c.nanOut + n (·.nanOut), winLoss := c.winLoss + losses,
           firstConv := match c.firstConv, conv with
             | none, some j => some ⟨0, m, nb * 32 + j, 0⟩
             | f, _ => f }

/-- The events of an element that is rounded and then converted (R79): each at most once. -/
def Counts1.join (a b : Counts1) : Counts1 := ⟨a.sat || b.sat, a.flushed || b.flushed, a.invalid || b.invalid, b.nanOut⟩

/-- An element's value under a tensor scale that is not finite: the spec states none, so it is open. -/
def openScale (p : MxPar) (r : MxRun) : Bool := p.tz && (!((fp32.decode r.tsA).isFin) || !((fp32.decode r.tsB).isFin))

/-- An element of D in format `f` and its events (R68): under an open tensor scale its code is a free value of the operands, the
same in every run (R25). -/
def roundElem (p : MxPar) (r : MxRun) (f : Nat) (x : Elem) : Nat × Counts1 :=
  let y := elemRound p r.exact r.tsA r.tsB f x
  if openScale p r && !y.2.nanOut then (Config.openElem r.tsA r.tsB x.acc x.addend f % 2 ^ fmtWidth f, y.2) else y

/-- What the elements of a row have met before the conversion of the spill region, kept with those of the other rows. -/
def noteSpilled (t : Tab SpillEv) (row n0 : Nat) (evs : List Counts1) : Tab SpillEv :=
  evs.zipIdx.foldl (fun t x => Tab.set ⟨false, false, false⟩ t (row * 4096 + n0 + x.2) ⟨x.1.sat, x.1.flushed, x.1.invalid⟩) t

/-- The finished row `m` of the N-block goes out: rounded, converted where D needs it (R68, R72, R83), or to the spill
region (R91). -/
def finishRow (s : State) (e : Nat) (r : MxRun) (m : Nat) (els : List Elem) : State × MxRun :=
  let p := r.ins.mx
  let losses := (els.filter (fun x => x.loss)).length
  let inv := els.map Elem.invalid
  let f := if p.quantD then 0 else p.fd
  let oc := els.map (roundElem p r f)
  if !p.quantD then
    let r := { r with cnt := countRow r.cnt (oc.map (·.2)) r.nb m inv losses }
    handRow s e r p.dwait (dWrites p m r.nb (oc.map (·.1)))
  else
    let d := qdesc r.desc
    let xs := oc.map (fun x => fp32.decode x.1)
    if r.spill then
      let last := decide (r.nb + 1 = p.nbs)
      let bs := oc.flatMap (fun x => bytesLE 4 x.1) ++ (if last ∧ p.n % 2 = 1 then List.replicate 4 0 else [])
      -- the elements are counted when they are converted, each at most once (R79)
      let r := { r with cnt := countRow r.cnt [] r.nb m [] losses, spillEvs := noteSpilled r.spillEvs m (r.nb * 32) (oc.map (·.2)) }
      let x := putWords s (.out e) false (outWords (d.spillDA + m * alignUp (4 * p.n) 8 + r.nb * 128) bs true)
      (x.1, if x.2.isEmpty then r else { r with out := r.out ++ [(r.nb, x.2)] })
    else
      let used := Tab.get 0 r.sideCnt m
      let z := convertRow d (fun ch => (r.scales.getD ch 0, 0)) m (r.nb * 32) used xs
      let evs := (oc.zip z.evs).map (fun x => x.1.2.join x.2)
      let used2 := used + z.side.length
      let last := decide (r.nb + 1 = p.nbs)
      let c := countRow r.cnt evs r.nb m inv losses
      let r := { r with
        cnt := { c with zeroBlk := c.zeroBlk, esc := c.esc }
        stats := r.stats.add xs z
        chans := seeRow d r.chans m (r.nb * 32) xs
        sideCnt := Tab.set 0 r.sideCnt m used2 }
      handRow s e r p.dwait (dWrites p m r.nb z.codes ++ (if d.cls ≥ 2 then scaleWrites d m p.n (r.nb * 32 / d.blockLen) z.scales else []) ++
        (if d.sideEn then sideWrites d p.m m used z.side ++ (if last then sideCount d p.m m used2 else []) else []))

/-! ### The fold (R34-R49, R103-R106) -/

/-- The words that row `m` needs for the pass: A, its block scales, its side list, and C in the first pass (R49). -/
def rowWords (s : State) (p : MxPar) (m nb kb : Nat) : List Nat :=
  let k0 := kb * p.kblk
  elemWords (p.aDA + m * p.aS) p.fa k0 (p.kv kb) ++ blkWords p.ba p.scA m k0 (p.kv kb) p.k ++
  (if p.side then (p.sideDA + 2 * m) / 8 :: wordsOf (sideEntryDA p m 0) (4 * sideEntries s.sram p m) else []) ++
  (if p.cen && decide (kb = 0) then elemWords (p.cDA + m * p.cS) p.fc (nb * 32) (p.nv nb) else [])

/-- The words of the weights that array row `i` takes for a pass, and of their block scales (R42, R49). -/
def weightWords (p : MxPar) (nb kb i : Nat) : List Nat :=
  (List.range (p.nv nb)).flatMap (fun j => (p.rowLanes kb i).flatMap (fun l =>
    elemWords (p.bDA + (nb * 32 + j) * p.bS) p.fb (kb * p.kblk + l) 1 ++ blkWords p.bb p.scB (nb * 32 + j) (kb * p.kblk + l) 1 p.k))

/-- Address of the product table of an N-block (R106). -/
def tableDA (p : MxPar) (nb : Nat) : Nat := p.scB + nb * p.tabS

/-- The weights of one lane of a pass, by column, with their block scales' codes. -/
def laneWeights (m : Tab Byte) (p : MxPar) (nb kb l : Nat) : List (Nat × Nat) :=
  (List.range (p.nv nb)).map (fun j =>
    let n := nb * 32 + j
    let k := kb * p.kblk + l
    (elemCode m (p.bDA + n * p.bS) p.fb k, if p.book then 0 else blkCode m p.bb p.scB n k p.k))

/-- A set after the load bus has written its next array row (R42). -/
def loadRow (m : Tab Byte) (p : MxPar) (nb kb : Nat) (w : WSet) : WSet :=
  ⟨w.rows + 1, (p.rowLanes kb w.rows).foldl (fun t l => Tab.set [] t l (laneWeights m p nb kb l)) w.lanes⟩

/-- The words read before the first pass: tensor scales and table headers. -/
def startWords (p : MxPar) : List Nat :=
  (if p.ba = 2 then [p.scA / 8] else []) ++ (if p.bb = 2 ∧ ¬ p.book then [p.scB / 8] else []) ++
  (if p.book then (List.range (if p.tabS = 0 then 1 else p.nbs)).flatMap (fun nb => wordsOf (tableDA p nb) 64) else [])

/-- A table header matches the instruction (R103, R106). -/
def headerOK (m : Tab Byte) (p : MxPar) (nb : Nat) : Bool :=
  let w := readNat m (tableDA p nb) 8
  decide (bits w 0 5 = p.fa ∧ bits w 8 2 + 2 = p.idxBits)

/-- Beats that may read a row out of every 16: the lower of DUTY and the Pacer's ceiling (R50, R441). -/
def dutyNow (s : State) (e : Nat) : Nat := Nat.min (s.rd F.MXE_CTRL_DUTY e) (s.rd F.PAC_CEIL_CEIL (e / 64))

/-- The N-block whose product table the free table bank takes: the N-block that is about to begin, else the next one; none when
the table is shared or loaded for all (R106). -/
def tableFor (r : MxRun) : Option Nat :=
  let p := r.ins.mx
  if !p.book then none
  else if r.mr = 0 ∧ r.kb = 0 then (if r.nb = r.nbStart ∨ p.tabS ≠ 0 then some r.nb else none)
  else if p.tabS ≠ 0 ∧ r.nb + 1 < p.nbs then some (r.nb + 1) else none

/-- The bytes of a product table that the feed takes next, 128 per beat (R105): their DA and number. -/
def tableChunk (r : MxRun) : Option (Nat × Nat) :=
  let size := tableBytes r.ins.mx.idxBits
  match tableFor r with
  | some nb => if r.nextTable.length < size then some (tableDA r.ins.mx nb + r.nextTable.length, Nat.min 128 (size - r.nextTable.length)) else none
  | none => none

/-- The feed has taken a chunk of a table. -/
def takeChunk (m : Tab Byte) (r : MxRun) : MxRun :=
  match tableChunk r with
  | some (a, n) => { r with nextTable := r.nextTable ++ readBytes m a n }
  | none => r

/-- The table bank that was loaded is used from now on: its entries and its codebook (R103, R106). -/
def useTable (r : MxRun) : MxRun :=
  let at_ := fun i => (r.nextTable.getD i 0).toNat
  { r with nextTable := [], book := (List.range 16).map (fun j => at_ (8 + j)),
           table := (List.range (256 * 2 ^ r.ins.mx.idxBits)).map (fun i => at_ (64 + 2 * i) + at_ (65 + 2 * i) * 256) }

/-- The pass whose weights the load bus puts into the shadow set: the pass not swapped in yet, the next one, or the first of the
staged instruction (R42, R44). Before an N-block boundary at which it is asked to stop, none (R51). -/
def shadowPass (s : State) (e : Nat) (r : MxRun) : Option (MxPar × Nat × Nat) :=
  let p := r.ins.mx
  if r.mr = 0 then some (p, r.nb, r.kb)
  else if r.kb + 1 < p.kbs then some (p, r.nb, r.kb + 1)
  else if r.nb + 1 < p.nbs then (if s.on F.MXE_CTRL_PREEMPT e then none else some (p, r.nb + 1, 0))
  else (s.eng e).staged.map (fun i => (i.mx, 0, 0))

/-- The pass of which the load bus writes an array row in this beat: row `i` no earlier than beat S + 31 + i (R42). -/
def loadNow (s : State) (e : Nat) (r : MxRun) : Option (MxPar × Nat × Nat) :=
  let n := (s.shadow e).rows
  (shadowPass s e r).filter (fun x => decide (n < x.1.loadRows x.2.2 ∧ 31 + n ≤ r.since))

/-- The weights of the pass that is to be swapped in are loaded, and at the first pass of an N-block its product table. -/
def setLoaded (s : State) (e : Nat) (r : MxRun) : Bool := decide (r.ins.mx.loadRows r.kb ≤ (s.shadow e).rows)
def tableLoaded (r : MxRun) : Bool := decide (r.kb ≠ 0) || (tableChunk r).isNone

/-- The feed may read a row in this beat: the duty lets it, no beat of an escape is left, and the pass is or can be swapped in.
DESIGN CHOICE (log entry 99): of the 16 beats of a window the first ones read rows; the window runs on from the first beat of
the instruction, held beats left out. -/
def dutyBeat (s : State) (e : Nat) (r : MxRun) : Bool := decide (r.extra = 0) && decide (r.phase < dutyNow s e)
def feedNow (s : State) (e : Nat) (r : MxRun) : Bool := dutyBeat s e r && (decide (r.mr ≠ 0) || (setLoaded s e r && tableLoaded r))

/-- The swap (R41), in the beat in which the pass's first row is read: the shadow set becomes the active one, the retired one is
free to be filled, and at the first pass of an N-block its product table is taken up. -/
def swapIn (s : State) (e : Nat) (r : MxRun) : State × MxRun :=
  let old := activeSet s e
  let s := s.setEng e ((s.eng e).putSet old { (s.eng e).wset old with rows := 0 })
  let s := ((s.bump C.MXE_PASS_CNT e 1).wr F.MXE_STATUS_ACTIVE_SET e (1 - old)).wr F.MXE_POS_KB e r.kb
  (s.wr F.MXE_POS_NB e r.nb, { (if r.kb = 0 ∧ (tableFor r).isSome then useTable r else r) with since := 0 })

/-- A beat in which the feed stands before the first row of a pass: for want of weights behind another pass it is a swap-stall
beat (R43), for want of the table of a later N-block a table stall (R106). -/
def stallBeat (s : State) (e : Nat) (r : MxRun) : State :=
  if r.mr = 0 ∧ dutyBeat s e r then
    let s := if !(setLoaded s e r) && (r.chained || decide (r.nb ≠ r.nbStart ∨ r.kb ≠ 0)) then s.bump C.MXE_SWAP_STALL_CNT e 1 else s
    if !(tableLoaded r) && decide (r.nb ≠ r.nbStart) then s.bump C.QNT_TABLE_STALL_CNT (e / 4) 1 else s
  else s

/-- The products of one row and column. -/
def rowProds (p : MxPar) (r : MxRun) (as : List ALane) (ws : List (Nat × Nat)) : List Prod2 :=
  List.zipWith (laneProd p r.table r.book r.tsA r.tsB) as ws

/-- The first of two products under the order of R80, within a row: by k, then n. -/
def earlier (a : Option (Nat × Nat × Nat)) (k n kind : Nat) : Option (Nat × Nat × Nat) :=
  match a with
  | none => some (k, n, kind)
  | some (k', n', kind') => if k < k' ∨ (k = k' ∧ n < n') then some (k, n, kind) else some (k', n', kind')

/-- Row `mr` of the pass enters: its products with the weights of the active set, those of the escape unit among them (R101), go
into the accumulators of the N-block's bank; in the last pass the row goes out. -/
def feedRow (s : State) (e : Nat) (r : MxRun) : State × MxRun :=
  let p := r.ins.mx
  let k0 := r.kb * p.kblk
  let as := (List.range (p.kv r.kb)).map (fun i => aLane s.sram p r.mr (k0 + i))
  let escs := (as.filter (fun a => match a with | .esc _ => true | _ => false)).length
  let lanes := ((s.eng e).wset (activeSet s e)).lanes
  let weight := fun (j l : Nat) => (Tab.get [] lanes l).getD j (0, 0)
  let bank := r.bank r.nb
  let one := fun (j : Nat) =>
    let key := r.mr * 32 + j
    let e0 := if r.kb = 0 then elemInit p r.exact (elemCode s.sram (p.cDA + r.mr * p.cS) p.fc (r.nb * 32 + j)) else Tab.get Elem.zero bank key
    elemPass p r.exact e0 k0 (rowProds p r as ((List.range (p.kv r.kb)).map (weight j)))
  let res := (List.range (p.nv r.nb)).map one
  let first := res.zipIdx.foldl (fun a x => match x.1.2 with | some (k, kind) => earlier a k (r.nb * 32 + x.2) kind | none => a) none
  let blks := List.range (ceilDiv (p.kv r.kb) 16)
  let zeroA := if p.ba = 2 ∧ r.nb = 0 then (blks.filter (fun b => decide (blkCode s.sram 2 p.scA r.mr (k0 + 16 * b) p.k = 0))).length else 0
  let zeroB := if p.bb = 2 ∧ r.mr = 0 then ((List.range (p.nv r.nb)).map (fun j => (blks.filter (fun b => decide ((weight j (16 * b)).2 = 0))).length)).sum else 0
  let cnt := { r.cnt with
    zeroBlk := r.cnt.zeroBlk + zeroA + zeroB, esc := r.cnt.esc + (if r.nb = 0 then escs else 0),
    firstProd := match r.cnt.firstProd, first with | none, some (k, n, kind) => some ⟨kind, r.mr, n, k⟩ | f, _ => f }
  let s := (s.bump C.MXE_PROD_CNT e (p.kv r.kb * p.nv r.nb)).wr F.MXE_POS_M_ROW e r.mr
  let last := decide (r.kb + 1 = p.kbs)
  let bank := res.zipIdx.foldl (fun t x => Tab.set Elem.zero t (r.mr * 32 + x.2) (if last then Elem.zero else x.1.1)) bank
  let r1 := { r.putBank r.nb bank with cnt := cnt, extra := escs }
  let x := if last then finishRow s e r1 r.mr (res.map (·.1)) else (s, r1)
  let r2 := { x.2 with mr := r.mr + 1 }
  if r.mr + 1 < p.m then (x.1, r2)
  else if !last then (x.1, { r2 with mr := 0, kb := r.kb + 1 })
  else if r.nb + 1 < p.nbs then (x.1, { r2 with mr := 0, kb := 0, nb := r.nb + 1 })
  -- the last row of the instruction is out: a request to stop that is still pending lapses (R51)
  else (x.1.wr F.MXE_CTRL_PREEMPT e 0, { r2 with fed := true })

/-- Rows on the output path of an engine (R46). -/
def outRows (s : State) (e : Nat) (r : MxRun) : Nat := ((s.eng e).ending.map (fun x => x.out.length)).sum + r.out.length

/-- The words that a beat needs (R49): those of the row it reads, of the array row it loads, of the table's chunk. -/
def beatWords (s : State) (e : Nat) (r : MxRun) : List Nat :=
  (if feedNow s e r then rowWords s r.ins.mx r.mr r.nb r.kb else []) ++
  (match loadNow s e r with | some (p, nb, kb) => weightWords p nb kb (s.shadow e).rows | none => []) ++
  (match tableChunk r with | some (a, n) => wordsOf a n | none => [])

/-- One beat that is not held: the load bus and the table bank take what this beat brings them, and the feed reads a row or
stands. -/
def beat (s : State) (e : Nat) (r : MxRun) : State × MxRun :=
  let feed := feedNow s e r
  let stalled := stallBeat s e r
  let sh := shadowSet s e
  let loaded := match loadNow s e r with
    | some (p, nb, kb) => (stalled.setEng e ((s.eng e).putSet sh (loadRow s.sram p nb kb (s.shadow e))), takeChunk s.sram r)
    | none => (stalled, takeChunk s.sram r)
  let x := if feed then (let y := if r.mr = 0 then swapIn loaded.1 e loaded.2 else loaded; feedRow y.1 e y.2)
    else (loaded.1, { loaded.2 with extra := r.extra - 1 })
  (x.1, { x.2 with since := x.2.since + 1, phase := (r.phase + 1) % 16 })

/-- One step of the fold: the state, the run, and whether it goes on. A trip of the Pacer holds the feed as an empty word does
(R443). -/
def foldStep (s : State) (e : Nat) (r : MxRun) : State × MxRun × Bool :=
  let p := r.ins.mx
  let held := fun h => (s, { r with hold := h }, false)
  if r.fed then (s, r, false)
  else if tripHolds s (e / 512) then held .operand
  else if r.mr = 0 ∧ r.kb = 0 ∧ r.nb ≠ r.nbStart ∧ s.on F.MXE_CTRL_PREEMPT e then held .stopPoint
  else if !(wordsReadable s (beatWords s e r)) then held .operand
  else if feedNow s e r && decide (r.kb + 1 = p.kbs ∧ 64 ≤ outRows s e r) then held .outPath
  else let x := beat s e { r with hold := .none }; (x.1, x.2, true)

/-- The fold runs until it holds, stops or has handed out its last row. -/
def foldRun : Nat → State → Nat → MxRun → State × MxRun
  | 0, s, _, r => (s, r)
  | n + 1, s, e, r =>
    let x := foldStep s e r
    if x.2.2 then foldRun n x.1 e x.2.1 else (x.1, x.2.1)

/-- Beats that a fold can take at most: a row and its escapes at the lowest duty, and the loads before each pass. -/
def foldFuel (p : MxPar) : Nat := p.nbs * p.kbs * (p.m * 65 * 16 + 512) + 512

/-! ### Start, completion -/

/-- An instruction begins on an engine, as far as it can be read from its words at the start: the scales of delayed
scaling, or warm-up (R93, R94). `behind` is the one behind whose last pass its first weights were loaded (R44): the beats since
its last swap and of the duty's window run on. On an idle engine the load begins at once. -/
def newRun (s : State) (e : Nat) (i : OpIns) (behind : Option MxRun) : MxRun :=
  let p := i.mx
  let dw := if p.quantD then readDesc s i.sqd else []
  let d := qdesc dw
  let sl := if p.quantD then d.slots p.m p.n else []
  let warm := inWarmup s (e / 4) d sl
  { ins := i, desc := dw, begun := false, exact := mxExact s e i, nbStart := 0, nb := 0, kb := 0, mr := 0,
    since := (match behind with | some b => b.since | none => 31), phase := (match behind with | some b => b.phase | none => 0), extra := 0,
    chained := behind.isSome, table := [], book := [], nextTable := [], tsA := 0x3F800000, tsB := 0x3F800000, bank0 := [], bank1 := [],
    scaleOut := [], out := [], hold := .none, fed := false,
    spill := p.quantD && d.coarse && (!d.delayed || warm), spilled := false, spillEvs := [], warm := warm,
    scales := sl.map (fun j => delayedScale d (delayedAmax d (s.slot (e / 4) j))),
    chans := if p.quantD then List.replicate (d.channels p.m p.n) ChanTrk.none else [],
    sideCnt := [], cnt := OpCounts.start s.trk.ts, stats := { ConvStats.none with warm := warm } }

/-- The warm-up of an operation is counted and shown (R94). -/
def noteWarmup (s : State) (k : Nat) : State := (s.bump C.QNT_WARMUP_CNT k 1).wr F.QNT_STATUS_WARMUP k 1

/-- The engine is busy while an instruction is in progress or not complete. -/
def settleBusy (s : State) (e : Nat) : State := s.wr F.MXE_STATUS_BUSY e (b2n (!((s.eng e).runs.isEmpty)))

/-- The instruction in progress leaves the engine, rejected or complete: nothing of it is held stopped or asked to stop. -/
def clearCur (s : State) (e : Nat) : State :=
  ((settleBusy (s.setEng e { s.eng e with cur := none }) e).wr F.MXE_STATUS_STOPPED e 0).wr F.MXE_CTRL_PREEMPT e 0

/-- The shadow set is to be filled from its first array row. -/
def emptyShadow (s : State) (e : Nat) : State :=
  s.setEng e ((s.eng e).putSet (shadowSet s e) { s.shadow e with rows := 0 })

/-- The checks of the first words read (R94, R106): a spill region needed for warm-up, and the table headers. -/
def beginReject (s : State) (e : Nat) (r : MxRun) : Option Reject :=
  let p := r.ins.mx
  let d := qdesc r.desc
  if r.warm && (match p.spillCause (clusterOfCore (e / 4)) d.spillDA (ownRegions r.ins d) with | some _ => true | none => false) then some ⟨0x2, some 0x4⟩
  else if p.book && !((List.range (if p.tabS = 0 then 1 else p.nbs)).all (headerOK s.sram p)) then some ⟨0x2, some 0x7⟩
  else none

/-- The fold of the instruction in progress begins or goes on as far as it can: R46, R49 and R51 say where it holds. -/
def driveCur (s : State) (e : Nat) : State :=
  match (s.eng e).cur with
  | none => s
  | some r =>
    let p := r.ins.mx
    if r.begun then
      let x := foldRun (foldFuel p) s e r
      x.1.setRun e x.2
    else if tripHolds s (e / 512) || !(wordsReadable s (startWords p)) then s.setRun e { r with hold := .operand }
    else match beginReject s e r with
      | some j => clearCur (mxRefuse s e r.ins j) e
      | none =>
        let s := if r.warm then noteWarmup s (e / 4) else s
        let d := qdesc r.desc
        let r := { r with begun := true, hold := .none, tsA := (if p.ba = 2 then readNat s.sram p.scA 4 else r.tsA),
                          tsB := (if p.bb = 2 ∧ ¬ p.book then readNat s.sram p.scB 4 else r.tsB) }
        -- scales that are known at the start go out before the first row
        let ws := if p.quantD ∧ ¬ r.spill ∧ d.coarse then coarseWrites d (fun c => (r.scales.getD c 0, 0)) p.m p.n else []
        let y := putWords s (.out e) p.dwait ws
        let x := foldRun (foldFuel p) y.1 e { r with scaleOut := y.2, cnt := r.cnt.wrote ws y.2 s.trk.ts }
        x.1.setRun e x.2

/-- The engine takes up an instruction that it has accepted, behind another one or idle. -/
def beginIns (s : State) (e : Nat) (i : OpIns) (behind : Option MxRun) : State :=
  let r := newRun s e i behind
  let s := if behind.isNone then emptyShadow s e else s
  driveCur ((s.setRun e r).wr F.MXE_STATUS_BUSY e 1) e

/-- The staged instruction begins once every row of the current one is read, whose rows are still written (R44), or on an engine
that holds none. -/
def takeStaged (s : State) (e : Nat) : State :=
  let g := s.eng e
  match g.staged, g.cur with
  | none, _ => s
  | some i, none => beginIns ((s.setEng e { g with staged := none }).wr F.MXE_STATUS_STAGED e 0) e i none
  | some i, some r =>
    if r.fed then beginIns ((s.setEng e { g with staged := none, cur := none, ending := g.ending ++ [r] }).wr F.MXE_STATUS_STAGED e 0) e i (some r)
    else s

/-- The instruction in progress goes on as far as it can, and the staged one behind it. -/
def drive (s : State) (e : Nat) : State := takeStaged (driveCur s e) e

/-- The last pass of the instruction in progress has begun (R44). -/
def lastPassBegun (r : MxRun) : Bool :=
  let p := r.ins.mx
  r.fed || decide (r.mr ≠ 0 ∧ r.nb + 1 = p.nbs ∧ r.kb + 1 = p.kbs)

/-- MATMUL at the head of queue `q` (R33, R44, R51, R93, R118): it waits, is rejected, is staged, or begins. -/
def matmulEff (s : State) (q w : Nat) : State :=
  let k := coreOfQueue q
  let e := k * 4 + bits w 32 2
  let par := (List.range 8).map (fun j => s.sreg q (wSB w + j))
  let i : OpIns := ⟨q, w, par, s.sreg q (wSREC w) % 2 ^ 48, s.sreg q (wSQD w) % 2 ^ 48⟩
  let g := s.eng e
  let d := i.desc s
  let sl := if i.mx.quantD && (descAt (clusterOfCore k) i.sqd).isNone then d.slots i.mx.m i.mx.n else []
  if !(s.on F.MXE_CTRL_EN e) then s.holdHead q 0x8 .plain
  else if s.on F.MXE_CTRL_DRAIN e || g.staged.isSome || (match g.cur with | some r => !(lastPassBegun r) || s.on F.MXE_STATUS_STOPPED e | none => false) then
    s.holdHead q 0x2 .plain
  else if slotsBusy s k sl then s.holdHead q 0x6 .plain
  else
    let s := (s.countIssue q).wr F.MXE_RESUME_VALID e 0
    let s := match mxReject s k i with
      | some r => mxRefuse s e i r
      | none =>
        let s := ownSlots s k q sl
        if g.cur.isSome then takeStaged ((s.setEng e { g with staged := some i }).wr F.MXE_STATUS_STAGED e 1) e else beginIns s e i none
    s.doneHead q

/-- Every row is read, every word is written, and a spilled D is converted. -/
def MxRun.whole (r : MxRun) : Bool := r.fed && r.out.isEmpty && r.scaleOut.isEmpty && (!r.spill || r.spilled)

/-- An instruction that is whole ends: statistics, slots, thresholds and its record, whose counts are a conversion's second phase's
too (R78, R93, R96). -/
def endRun (s : State) (e : Nat) (r : MxRun) : State :=
  let p := r.ins.mx
  let k := e / 4
  let d := qdesc r.desc
  let sl := if p.quantD then d.slots p.m p.n else []
  let t := if !p.quantD then r.stats
    else if r.spill then r.stats
    else { r.stats with degenerate := degenCount r.chans, lastScale := if d.coarse then some (r.scales.getD 0 0) else none }
  let past := p.quantD && overLimit d r.cnt
  let s := if p.quantD then closeConversion s k d sl r.chans t (p.m * p.n) else s
  let s := if past then thresholdFault s k else s
  let fi := fiMatrix r.cnt
  mxRecord s e r.ins (recordWords (mxHead r.ins (if past then 0x03 else 0x00) r.exact r.desc) r.cnt 0 fi.1 fi.2)

/-- The first run that satisfies `p`, and the others. -/
def takeRun (p : MxRun → Bool) : List MxRun → Option (MxRun × List MxRun)
  | [] => none
  | r :: l => if p r then some (r, l) else (takeRun p l).map (fun x => (x.1, r :: x.2))

/-- MATMUL_COMPLETE (R46, R81, R93, R96): the oldest instruction that is whole completes. -/
def matmulComplete (s : State) (e : Nat) : State :=
  let g := s.eng e
  match takeRun MxRun.whole g.ending with
  | some (r, rest) => settleBusy (endRun (s.setEng e { g with ending := rest }) e r) e
  | none => match g.cur with
    | some r => if r.whole then takeStaged (clearCur (endRun s e r) e) e else s
    | none => s

/-- Table chunks that came in during `n` beats of a hold (R106). -/
def chunksHeld (s : State) : Nat → MxRun → MxRun
  | 0, r => r
  | n + 1, r =>
    match tableChunk r with
    | some (a, l) => if wordsReadable s (wordsOf a l) then chunksHeld s n (takeChunk s.sram r) else r
    | none => r

/-- A hold of `beats` beats is over (R46, R49): they are counted, product tables came in meanwhile, and the fold goes on. -/
def resumeFold (s : State) (e beats : Nat) (r : MxRun) : State :=
  let r := if r.begun then chunksHeld s (Nat.min beats 128) r else r
  drive ((s.bump C.MXE_FEED_STALL_CNT e beats).setRun e r) e

/-- FEED_RESUME (R49): the words are full, and the fold goes on; `beats` were held. -/
def feedResume (s : State) (e beats : Nat) : State :=
  match (s.eng e).cur with
  | some r =>
    let p := r.ins.mx
    let ready := if !r.begun then !(tripHolds s (e / 512)) && wordsReadable s (startWords p) else (foldStep s e r).2.2 || decide ((foldStep s e r).2.1.hold ≠ .operand)
    if decide (r.hold = .operand) && ready then resumeFold s e beats r else s
  | none => s

/-- OUTPUT_PATH_RESUME (R46): a place of the output path is free again. -/
def outputPathResume (s : State) (e beats : Nat) : State :=
  match (s.eng e).cur with
  | some r => if r.hold = .outPath ∧ outRows s e r < 64 then resumeFold s e beats r else s
  | none => s

/-- The rows on the output path without the first write to word `w`; and that write. -/
def takeWrite (w : Nat) : List (Nat × List OutWrite) → Option (OutWrite × List (Nat × List OutWrite))
  | [] => none
  | (nb, ws) :: r =>
    match ws.find? (fun o => decide (o.da / 8 = w)) with
    | some o =>
      let left := ws.erase o
      some (o, if left.isEmpty then r else (nb, left) :: r)
    | none => (takeWrite w r).map (fun x => (x.1, (nb, ws) :: x.2))

/-- D words of an instruction wait for empty words: DWAIT, but not on the way to the spill region (R46, R91). -/
def MxRun.dwait (r : MxRun) : Bool := r.ins.mx.dwait && !r.spill

/-- The first write of an instruction to word `w` that waits, and the instruction once it is made, at `ts`. -/
def MxRun.takeWord (r : MxRun) (w ts : Nat) : Option (OutWrite × MxRun) :=
  let made := { r with cnt := { r.cnt with tEnd := if r.spill then r.cnt.tEnd else ts } }
  match r.scaleOut.find? (fun o => decide (o.da / 8 = w)) with
  | some o => some (o, { made with scaleOut := r.scaleOut.erase o })
  | none => (takeWrite w r.out).map (fun x => (x.1, { made with out := x.2 }))

/-- The first of the runs with a write to word `w` that waits, and the runs once it is made. -/
def takeWord (w ts : Nat) : List MxRun → Option (OutWrite × Bool × List MxRun)
  | [] => none
  | r :: l => match r.takeWord w ts with
    | some (o, r') => some (o, r.dwait, r' :: l)
    | none => (takeWord w ts l).map (fun x => (x.1, x.2.1, r :: x.2.2))

/-- The engine with its runs, in the order of `Engine.runs`, put back. -/
def Engine.putRuns (g : Engine) (l : List MxRun) : Engine := { g with ending := l.take g.ending.length, cur := l[g.ending.length]? }

/-- D_WORD_WRITE (R46, R172): a D word that waited is found empty and written. -/
def dWordWrite (s : State) (e da : Nat) : State :=
  let g := s.eng e
  match takeWord (da / 8) s.trk.ts g.runs with
  | some (o, dwait, rs) =>
    if outReady s (.out e) dwait o then
      ((s.dropWaiter (.out e) (wordsOf o.da o.bytes.length)).storeOut o).setEng e (g.putRuns rs)
    else s
  | none => s

/-! ### Duty, stops, errors (R50-R53) -/

/-- A write of DUTY (R50): clamped, and refused when it lowers the duty of an engine that holds an instruction of a
scheduled session in assured mode; the Pacer counts, logs and signals the refusal (R442). -/
def dutyWrite (s : State) (e v : Nat) : State :=
  let n := F.MXE_CTRL_DUTY.clamp v
  if n < s.rd F.MXE_CTRL_DUTY e ∧ s.on F.MXE_STATUS_BUSY e ∧ schedAssured s (clusterOfCore (e / 4)) then
    throttleRefused (s.flagMC F.MXE_STATUS_THROTTLE_REFUSED e) 0 3 (e / 64) (e % 64)
  else s.wr F.MXE_CTRL_DUTY e n

/-- A matrix instruction is preemptible (R137). -/
def preemptible (r : MxRun) : Bool := r.desc.isEmpty || (let d := qdesc r.desc; decide (d.cls = 2) && !d.statsEn)

/-- PREEMPT (R51): the request applies to the instruction in progress, or lapses. -/
def preempt (s : State) (e : Nat) : State :=
  match (s.eng e).cur with
  | some r => if !r.fed && preemptible r && !(s.on F.MXE_STATUS_STOPPED e) then s.wr F.MXE_CTRL_PREEMPT e 1 else s
  | none => s

/-- ENGINE_STOP (R51): the fold stands at the boundary it was asked to stop at. -/
def engineStop (s : State) (e : Nat) : State :=
  match (s.eng e).cur with
  | some r =>
    if r.hold = .stopPoint ∧ s.on F.MXE_CTRL_PREEMPT e then
      (((s.wr F.MXE_STATUS_STOPPED e 1).wr F.MXE_RESUME_NB_START e r.nb).wr F.MXE_RESUME_VALID e 1).wr F.MXE_CTRL_PREEMPT e 0
    else s
  | none => s

/-- The instruction held stopped goes on from NB_START (R51). DESIGN CHOICE (log entry 99): with NB_START at or beyond its N-blocks,
which software can write, no N-block is left and the instruction ends at once. -/
def continueStopped (s : State) (e : Nat) : State :=
  match (s.eng e).cur with
  | some r =>
    if s.on F.MXE_STATUS_STOPPED e then
      let nb := s.rd F.MXE_RESUME_NB_START e
      let r := { r with nb := nb, nbStart := nb, kb := 0, mr := 0, since := 31, phase := 0, extra := 0, chained := false, nextTable := [],
                        hold := .none, fed := decide (r.ins.mx.nbs ≤ nb) }
      drive ((emptyShadow ((s.wr F.MXE_RESUME_VALID e 0).wr F.MXE_STATUS_STOPPED e 0) e).setRun e r) e
    else s
  | none => s

/-- The waiting writes of an instruction are made no longer (R52): they leave the queue of waiters. -/
def dropOut (s : State) (e : Nat) (r : MxRun) : State :=
  (r.scaleOut ++ r.out.flatMap Prod.snd).foldl (fun s o => s.dropWaiter (.out e) (wordsOf o.da o.bytes.length)) s

/-- An instruction ends with DATA_ERROR (R52): nothing more of it is written but its record. -/
def failRun (s : State) (e : Nat) (r : MxRun) : State :=
  let nb := if r.spill then 0 else (r.out.head?.map Prod.fst).getD r.nb
  let fi := fiMatrix r.cnt
  let s := dropOut (s.wr F.MXE_STATUS_DATA_ERR e 1) e r
  let s := match s.convOp (e / 4) with
    | some o => if o.kind = 2 ∧ o.engine = e ∧ o.ins = r.ins then (s.setConv (e / 4) none).dropWaiters (.conv (e / 4)) else s
    | none => s
  mxRecord s e r.ins (recordWords (mxHead r.ins 0x02 r.exact r.desc) r.cnt nb fi.1 fi.2)

/-- DATA_ERROR (R52): an access completes with an error response, of the oldest instruction whose rows are all read and not all
written (`older`), or of the one in progress. An instruction held stopped has only the D words accesses that still wait. -/
def dataError (s : State) (e : Nat) (older : Bool) : State :=
  let g := s.eng e
  match older, g.ending, g.cur with
  | true, r :: rest, _ => settleBusy (failRun (s.setEng e { g with ending := rest }) e r) e
  | true, [], _ => s
  | false, _, some r =>
    if s.on F.MXE_STATUS_STOPPED e && r.out.isEmpty && r.scaleOut.isEmpty then s else takeStaged (clearCur (failRun s e r) e) e
  | false, _, none => s

/-! ### The meanings -/

def execMatmul (q : Fin 4096) (s : State) : Host.Outcome State Fault Refusal := .next (issue s q 0 0x00 (fun s w => matmulEff s q w))
def execFeedResume (e : Fin 2048) (beats : Nat) (s : State) : Host.Outcome State Fault Refusal := .next (feedResume s e beats)
def execOutputPathResume (e : Fin 2048) (beats : Nat) (s : State) : Host.Outcome State Fault Refusal := .next (outputPathResume s e beats)
def execDWordWrite (e : Fin 2048) (da : Nat) (s : State) : Host.Outcome State Fault Refusal := .next (dWordWrite s e da)
def execMatmulComplete (e : Fin 2048) (s : State) : Host.Outcome State Fault Refusal := .next (matmulComplete s e)
def execDuty (e : Fin 2048) (value : Fin 32) (s : State) : Host.Outcome State Fault Refusal := .next (dutyWrite s e value)
def execPreempt (e : Fin 2048) (s : State) : Host.Outcome State Fault Refusal := .next (preempt s e)
def execEngineStop (e : Fin 2048) (s : State) : Host.Outcome State Fault Refusal := .next (engineStop s e)
def execContinueEngine (e : Fin 2048) (s : State) : Host.Outcome State Fault Refusal := .next (continueStopped s e)
def execDataError (e : Fin 2048) (older : Bool) (s : State) : Host.Outcome State Fault Refusal := .next (dataError s e older)

end Sys2Proof.Machine
end

