-- ==== Sys2Proof/Machine/Convert.lean ====
section
/-!
DEFINITION. The convert unit of a core (R82-R99, R103-R105, R124): CONVERT, TABLE and the second phase of a spilled matrix
instruction; and the clears of history slots (R95).
-/
namespace Sys2Proof.Machine

/-! ### Parameters (R124) -/

def OpIns.cvSrc (i : OpIns) : Nat := bits (i.par.getD 0 0) 0 48
def OpIns.cvSrcS (i : OpIns) : Nat := bits (i.par.getD 0 0) 48 16 * 8
def OpIns.cvDst (i : OpIns) : Nat := bits (i.par.getD 1 0) 0 48
def OpIns.cvDstS (i : OpIns) : Nat := bits (i.par.getD 1 0) 48 16 * 8
def OpIns.cvRows (i : OpIns) : Nat := bits (i.par.getD 2 0) 0 32
def OpIns.cvLen (i : OpIns) : Nat := bits (i.par.getD 2 0) 32 16
def OpIns.cvFmt (i : OpIns) : Nat := bits i.word 49 5
def OpIns.cvIdx (i : OpIns) : Nat := bits i.word 54 2
def OpIns.cvDwait (i : OpIns) : Bool := decide (bit i.word 56 = 1)
def OpIns.cvSrcRows (i : OpIns) : Rows := ⟨i.cvSrc, i.cvSrcS, i.cvRows, rowExtent i.cvFmt i.cvLen⟩
def OpIns.cvDstRows (i : OpIns) (f : Nat) : Rows := ⟨i.cvDst, i.cvDstS, i.cvRows, rowExtent f i.cvLen⟩

/-- Why a CONVERT is rejected (R33, R85, R92, R124). -/
def cvReject (s : State) (k : Nat) (i : OpIns) : Option Reject :=
  let c := clusterOfCore k
  let d := i.desc s
  if !(decide (1 ≤ i.cvRows ∧ i.cvRows ≤ 1048576 ∧ 1 ≤ i.cvLen ∧ i.cvLen ≤ 16384)) then some ⟨0x1, none⟩
  else if 2 < i.cvFmt then some ⟨0x2, none⟩
  else
    let dc := (descAt c i.sqd).orElse (fun _ =>
      if d.badCode then some 0x1
      else (slotCause s k i.queue (d.slots i.cvRows i.cvLen)).orElse (fun _ => descPlaces c k d i.cvRows i.cvLen))
    match dc with
    | some x => some ⟨0x2, some x⟩
    | none =>
      let src := i.cvSrcRows
      let dst := i.cvDstRows d.tfmt
      let same := decide (i.cvSrc = i.cvDst ∧ i.cvSrcS = i.cvDstS)
      if !(src.placed c) || !(dst.placed c) then some ⟨0x3, none⟩
      else if (!same && Rows.overlap dst src) || Rows.overlap dst (Rows.run d.scaleDA (d.scaleBytes i.cvRows i.cvLen)) ||
          Rows.overlap dst (Rows.run i.recDA 64) then some ⟨0x4, none⟩
      else if i.cvSrc % 8 ≠ 0 ∨ i.cvDst % 8 ≠ 0 then some ⟨0x5, none⟩
      else none

/-- Why a TABLE is rejected (R103, R124). -/
def tableReject (k : Nat) (i : OpIns) : Option Reject :=
  let c := clusterOfCore k
  let b := i.cvIdx + 2
  if !(isFp8 i.cvFmt || decide (i.cvFmt = 0x0C)) then some ⟨0x2, none⟩
  else if !(inPlaces c i.cvSrc (2 ^ b)) || !(inPlaces c i.cvDst (tableBytes b)) then some ⟨0x3, none⟩
  else if i.cvDst % 64 ≠ 0 ∨ i.cvSrc % 8 ≠ 0 then some ⟨0x5, none⟩
  else none

/-! ### Records and completion -/

/-- Writes a record of the convert unit (R125). -/
def cvRecord (s : State) (k : Nat) (i : OpIns) (ws : List Nat) : State :=
  let x := putRecord s (clusterOfCore k) i.queue none i.recDA ws
  x.1.wrIf x.2 F.VEC_STATUS_REC_ERR k 1

/-- The head of a record; the result format of a product table is not stated, and is open: DST_FMT of a completed TABLE is a free
value (log entry 29), and that of a rejected one, which has no result, is 0 (DESIGN CHOICE, log entry 99). -/
def cvHead (i : OpIns) (kind status fmt blk : Nat) (sr : Bool) : RecHead :=
  ⟨status, if kind = 1 then 0x04 else 0x03, fmt, blk, false, sr, recTag i.word i.queue⟩

def cvRefuse (s : State) (k kind : Nat) (i : OpIns) (r : Reject) : State :=
  let d := if kind = 0 then i.desc s else qdesc []
  let s := match r.desc with | some x => descError s k x | none => s
  cvRecord s k i (recordWords (cvHead i kind 0x01 d.tfmt d.tblk false) (OpCounts.start s.trk.ts) 0 0 0)

/-- The instruction whose spill region a convert operation of kind 2 converts: of its engine, read to the last row, not converted. -/
def spillOf (i : OpIns) (r : MxRun) : Bool := r.spill && !r.spilled && r.fed && decide (r.ins = i)

/-- The first run that satisfies `p` is changed. -/
def updRun (p : MxRun → Bool) (f : MxRun → MxRun) : List MxRun → List MxRun
  | [] => []
  | r :: l => if p r then f r :: l else r :: updRun p f l

/-- A matrix instruction takes the second phase's counts and statistics over (R91). -/
def spillDone (o : ConvOp) (r : MxRun) : MxRun :=
  let c := r.cnt
  { r with
    spilled := true, chans := o.chans, stats := o.stats,
    cnt := { c with sat := c.sat + o.cnt.sat, flushed := c.flushed + o.cnt.flushed, invalid := c.invalid + o.cnt.invalid,
                    nanOut := c.nanOut + o.cnt.nanOut, tEnd := o.cnt.tEnd,
                    firstConv := match c.firstConv with | some f => some f | none => o.cnt.firstConv } }

/-- The convert unit's operation is done with: every word is written. -/
def cvFinish (s : State) (k : Nat) (o : ConvOp) : State :=
  let s := (s.setConv k none).wr F.QNT_STATUS_BUSY k 0
  let d := qdesc o.desc
  match o.kind with
  | 2 => let g := s.eng o.engine; s.setEng o.engine (g.putRuns (updRun (spillOf o.ins) (spillDone o) g.runs))
  | 1 =>
    let f := s.fresh
    cvRecord f.2 k o.ins (recordWords (cvHead o.ins 1 0x00 (f.1 % 32) 0 false) o.cnt 0 0 (fiIndex (o.cnt.firstConv.map (·.k))))
  | _ =>
    let s := closeConversion s k d (d.slots o.ins.cvRows o.ins.cvLen) o.chans o.stats (o.ins.cvRows * o.ins.cvLen)
    let past := overLimit d o.cnt
    let s := if past then thresholdFault s k else s
    cvRecord s k o.ins (recordWords (cvHead o.ins 0 (if past then 0x03 else 0x00) d.tfmt d.tblk d.rnd) o.cnt 0 0
      (fiIndex (o.cnt.firstConv.map (·.k))))

/-! ### Forming the results -/

/-- The smallest and largest finite element of a list. -/
def rangeOf (l : List Frac) : Frac × Frac :=
  match l with
  | [] => (⟨0, 1⟩, ⟨0, 1⟩)
  | x :: r => r.foldl (fun a y => (Frac.min a.1 y, Frac.max a.2 y)) (x, x)

/-- The finite elements of a channel. -/
def chanVals (d : QDesc) (rows : List (List Val)) (c : Nat) : List Frac :=
  rows.zipIdx.flatMap (fun r => (r.1.zipIdx.filter (fun x => x.1.isFin && decide (d.chanOf r.2 x.2 = c))).map (fun x => x.1.frac))

/-- The first of two invalid elements of D in the order (N-block, m, n) of R80. -/
def earlierConv (a : Option FirstInv) (b : FirstInv) : Option FirstInv :=
  match a with
  | none => some b
  | some f =>
    if b.n / 32 < f.n / 32 ∨ (b.n / 32 = f.n / 32 ∧ (b.m < f.m ∨ (b.m = f.m ∧ b.n < f.n))) then some b else some f

/-- Counts of a convert operation after a row: `evs` are its elements' events, `z` the conversion's. Positions are row x length +
column (R80); of a spilled D they are coordinates, and the first is that of R80's order. -/
def cvCount (c : OpCounts) (evs : List Counts1) (z : RowOut) (row len : Nat) (matrix : Bool) : OpCounts :=
  let n := fun (f : Counts1 → Bool) => (evs.filter f).length
  { c with sat := c.sat + n (·.sat), flushed := c.flushed + n (·.flushed), invalid := c.invalid + n (·.invalid),
           nanOut := c.nanOut + n (·.nanOut), zeroBlk := c.zeroBlk + z.zeroBlk, esc := c.esc + z.side.length,
           firstConv := match z.evs.findIdx? (·.invalid) with
             | none => c.firstConv
             | some j => if matrix then earlierConv c.firstConv ⟨0, row, j, 0⟩
                         else (match c.firstConv with | some f => some f | none => some ⟨0, 0, 0, row * len + j⟩) }

/-- An element's events before and in the conversion of a spill region, each at most once (R79). -/
def SpillEv.join (a : SpillEv) (b : Counts1) : Counts1 := ⟨a.sat || b.sat, a.flushed || b.flushed, a.invalid || b.invalid, b.nanOut⟩

/-- Converts a whole source: the writes, channels, counts and statistics. `given` are delayed scales; without them the
scales are current (R90). `spilled` says of the elements of a spill region what they met before. -/
def cvForm (d : QDesc) (given : List Nat) (rows : List (List Val)) (len : Nat) (dst dstS : Nat) (spilled : Option (Tab SpillEv)) (o : ConvOp) : ConvOp :=
  let n := rows.length
  let ch0 := List.replicate (d.channels n len) ChanTrk.none
  let ch := rows.zipIdx.foldl (fun ch r => seeRow d ch r.2 0 r.1) ch0
  let sc := if given.isEmpty then currentScales d ch (fun c => rangeOf (chanVals d rows c)) else given.map (fun c => (c, 0))
  let before := fun (row col : Nat) => Tab.get ⟨false, false, false⟩ (spilled.getD []) (row * 4096 + col)
  let one := fun (st : List OutWrite × OpCounts × ConvStats) (r : List Val × Nat) =>
    let z := convertRow d (fun c => sc.getD c (0, 0)) r.2 0 0 r.1
    let evs := if spilled.isSome then z.evs.zipIdx.map (fun x => (before r.2 x.2).join x.1) else z.evs
    (st.1 ++ outWords (dst + r.2 * dstS) (packCodes d.tfmt z.codes) true ++ (if d.cls ≥ 2 then scaleWrites d r.2 len 0 z.scales else []) ++
       (if d.sideEn then sideWrites d n r.2 0 z.side ++ sideCount d n r.2 z.side.length else []),
     cvCount st.2.1 evs z r.2 len spilled.isSome, st.2.2.add r.1 z)
  let st := rows.zipIdx.foldl one (coarseWrites d (fun c => sc.getD c (0, 0)) n len, o.cnt, o.stats)
  let zc := if given.isEmpty then zeroChannels d sc else 0
  { o with
    formed := true, writes := st.1, chans := ch,
    cnt := { st.2.1 with zeroBlk := st.2.1.zeroBlk + zc }
    stats := { st.2.2 with zeroBlk := st.2.2.zeroBlk + zc, degenerate := degenCount ch, lastScale := if d.coarse then some (sc.getD 0 (0, 0)).1 else none } }

/-- The significand and unit of an FP8 code. -/
def sigUnit (f : FloatFmt) (c : Nat) : Nat × Int :=
  let e := bits c f.fbits f.ebits
  let m := bits c 0 f.fbits
  if e = 0 then (m, f.minQ) else (2 ^ f.fbits + m, (e : Int) - f.bias - f.fbits)

/-- The table entry of an activation code and a codebook entry (R104). -/
def tableEntry (fmt a b : Nat) : Nat :=
  if fmt = 0x0C then wrapInt 16 (sext 8 a * sext 8 b)
  else
    let f := if fmt = 0x05 then e5m2 else e4m3
    match mulVal (f.decode a) (e4m3.decode b) with
    | .nan => 0x1FF
    | .zeroInf => 0x1FD
    | .inf n => b2n n * 2 ^ 15 + 0x1FE
    | .fin x =>
      if Frac.isZero x then 0
      else
        let u := sigUnit f a
        let v := sigUnit e4m3 b
        b2n (Frac.isNeg x) * 2 ^ 15 + (u.2 + v.2 + 40).toNat * 2 ^ 9 + u.1 * v.1

/-- The header and the entries of a product table (R103, R105). -/
def tableForm (s : State) (o : ConvOp) : ConvOp :=
  let i := o.ins
  let b := i.cvIdx + 2
  let book := (List.range (2 ^ b)).map (fun j => (byteAt s.sram (i.cvSrc + j)).toNat)
  let es := (List.range 256).flatMap (fun a => book.map (tableEntry i.cvFmt a))
  let head := bytesLE 8 (i.cvFmt + i.cvIdx * 2 ^ 8) ++ book.map (BitVec.ofNat 8) ++ List.replicate (56 - 2 ^ b) 0
  let fp := decide (i.cvFmt ≠ 0x0C)
  let inv := fun e => fp && decide (e % 2 ^ 15 = 0x1FD)
  { o with
    formed := true
    writes := outWords i.cvDst (head ++ es.flatMap (bytesLE 2)) true
    cnt := { o.cnt with
      invalid := (es.filter inv).length, nanOut := if fp then (es.filter (fun e => decide (e % 2 ^ 15 = 0x1FF))).length else 0,
      firstConv := (es.findIdx? inv).map (fun j => ⟨0, 0, 0, j⟩) } }

/-- The words that the unit reads (R82). -/
def cvReads (o : ConvOp) : List Nat :=
  let i := o.ins
  match o.kind with
  | 0 => (List.range i.cvRows).flatMap (fun r => elemWords (i.cvSrc + r * i.cvSrcS) i.cvFmt 0 i.cvLen)
  | 1 => wordsOf i.cvSrc (2 ^ (i.cvIdx + 2))
  | _ =>
    let p := i.mx
    (List.range p.m).flatMap (fun m => elemWords ((qdesc o.desc).spillDA + m * alignUp (4 * p.n) 8) 0 0 p.n)

/-- The unit forms its results once every word it reads is full, and writes what may be written. -/
def cvDrive (s : State) (k : Nat) : State :=
  match s.convOp k with
  | none => s
  | some o =>
    if o.formed || !(wordsReadable s (cvReads o)) then s
    else
      let i := o.ins
      let d := qdesc o.desc
      let row := fun a f n => (List.range n).map (fun j => fmtDecode f (elemCode s.sram a f j))
      let o := match o.kind with
        | 1 => tableForm s o
        | 0 => cvForm d o.scales ((List.range i.cvRows).map (fun r => row (i.cvSrc + r * i.cvSrcS) i.cvFmt i.cvLen)) i.cvLen i.cvDst i.cvDstS none o
        | _ =>
          let p := i.mx
          cvForm d [] ((List.range p.m).map (fun m => row (d.spillDA + m * alignUp (4 * p.n) 8) 0 p.n)) p.n p.dDA p.dS
            (some (match (s.eng o.engine).runs.find? (spillOf i) with | some r => r.spillEvs | none => [])) o
      let dwait := if o.kind = 2 then i.mx.dwait else i.cvDwait
      let x := putWords s (.conv k) dwait o.writes
      let o := { o with writes := x.2, cnt := o.cnt.wrote o.writes x.2 s.trk.ts }
      if o.writes.isEmpty then cvFinish x.1 k o else x.1.setConv k (some o)

/-- Takes an operation up. -/
def cvBegin (s : State) (k : Nat) (o : ConvOp) : State := cvDrive ((s.setConv k (some o)).wr F.QNT_STATUS_BUSY k 1) k

/-- A write of the unit that waited is made (R82, R172): the `n`-th that is left; with none formed the unit tries to read. -/
def cvResume (s : State) (k n : Nat) : State :=
  match s.convOp k with
  | none => s
  | some o =>
    if !o.formed then cvDrive s k
    else match o.writes[n]? with
      | none => s
      | some w =>
        if outReady s (.conv k) (if o.kind = 2 then o.ins.mx.dwait else o.ins.cvDwait) w then
          let s := (s.dropWaiter (.conv k) (wordsOf w.da w.bytes.length)).storeOut w
          let o := { o with writes := o.writes.eraseIdx n, cnt := { o.cnt with tEnd := s.trk.ts } }
          if o.writes.isEmpty then cvFinish s k o else s.setConv k (some o)
        else s

/-- CONVERT at the head (R82, R93, R118). -/
def convertEff (s : State) (q w : Nat) : State :=
  let k := coreOfQueue q
  let i : OpIns := ⟨q, w, (List.range 3).map (fun j => s.sreg q (wSB w + j)), s.sreg q (wSREC w) % 2 ^ 48, s.sreg q (wSQD w) % 2 ^ 48⟩
  let dw := readDesc s i.sqd
  let d := qdesc dw
  let sl := if (descAt (clusterOfCore k) i.sqd).isNone then d.slots i.cvRows i.cvLen else []
  if (s.convOp k).isSome then s.holdHead q 0x2 .plain
  else if slotsBusy s k sl then s.holdHead q 0x6 .plain
  else
    let s := s.countIssue q
    let s := match cvReject s k i with
      | some r => cvRefuse s k 0 i r
      | none =>
        let s := ownSlots s k q sl
        let warm := inWarmup s k d sl
        let s := if warm then noteWarmup s k else s
        cvBegin s k { kind := 0, ins := i, desc := dw, engine := 0, formed := false, writes := [], warm := warm,
                      scales := if warm then [] else sl.map (fun j => delayedScale d (delayedAmax d (s.slot k j))),
                      chans := [], cnt := OpCounts.start s.trk.ts, stats := { ConvStats.none with warm := warm } }
    s.doneHead q

/-- TABLE at the head (R103-R105, R118). -/
def tableEff (s : State) (q w : Nat) : State :=
  let k := coreOfQueue q
  let i : OpIns := ⟨q, w, (List.range 3).map (fun j => s.sreg q (wSB w + j)), s.sreg q (wSREC w) % 2 ^ 48, 0⟩
  if (s.convOp k).isSome then s.holdHead q 0x2 .plain
  else
    let s := s.countIssue q
    let s := match tableReject k i with
      | some r => cvRefuse s k 1 i r
      | none => cvBegin s k { kind := 1, ins := i, desc := [], engine := 0, formed := false, writes := [], warm := false, scales := [],
                              chans := [], cnt := OpCounts.start s.trk.ts, stats := ConvStats.none }
    s.doneHead q

/-- SPILL_CONVERT (R91): after the last row of a spilled instruction the core's convert unit takes the second phase. -/
def spillConvert (s : State) (e : Nat) : State :=
  let k := e / 4
  match (s.eng e).runs.find? (fun r => r.spill && !r.spilled && r.fed && r.out.isEmpty) with
  | some r =>
    if (s.convOp k).isNone then
      cvBegin s k { kind := 2, ins := r.ins, desc := r.desc, engine := e, formed := false, writes := [], warm := r.warm, scales := [],
                    chans := [], cnt := OpCounts.start s.trk.ts, stats := { ConvStats.none with warm := r.warm } }
    else s
  | none => s

/-! ### Clears of history slots (R95) -/

def State.clearingSlots (s : State) (k : Nat) : List Nat := Tab.get [] s.tile.slotClear k
def State.setClearing (s : State) (k : Nat) (l : List Nat) : State :=
  { s with tile := { s.tile with slotClear := Tab.set [] s.tile.slotClear k l } }

/-- A full clear is in progress, of HIST_CLEAR or of a reset. -/
def fullClear (s : State) (k : Nat) : Bool :=
  s.on F.QNT_CTRL_HIST_CLEAR k || (s.on F.QNT_STATUS_CLEARING k && (s.clearingSlots k).isEmpty)

/-- SLOT_CLEAR: absorbed while a clear of the slot or a full clear is in progress. -/
def slotClear (s : State) (k : Nat) : State :=
  let j := s.rd F.QNT_SLOT_SEL_SLOT k
  if fullClear s k || (s.clearingSlots k).contains j then s
  else ((s.setClearing k (s.clearingSlots k ++ [j])).wr F.QNT_CTRL_SLOT_CLEAR k 1).wr F.QNT_STATUS_CLEARING k 1

/-- The single-slot clear ends. -/
def slotClearEnd (s : State) (k j : Nat) : State :=
  if (s.clearingSlots k).contains j then
    let l := (s.clearingSlots k).filter (fun i => decide (i ≠ j))
    let s := (s.setSlot k j HistSlot.clear).setClearing k l
    if l.isEmpty then (s.wr F.QNT_CTRL_SLOT_CLEAR k 0).wrIf (!(s.on F.QNT_CTRL_HIST_CLEAR k)) F.QNT_STATUS_CLEARING k 0 else s
  else s

/-- HIST_CLEAR: absorbed in a full clear in progress. -/
def histClear (s : State) (k : Nat) : State :=
  if fullClear s k then s else (s.wr F.QNT_CTRL_HIST_CLEAR k 1).wr F.QNT_STATUS_CLEARING k 1

/-- Every history slot of a core cleared. -/
def clearAllSlots (s : State) (k : Nat) : State :=
  { s with tile := { s.tile with hist := Tab.drop s.tile.hist (fun i => decide (i / 4096 = k)) } }

/-- The full clear ends. -/
def histClearEnd (s : State) (k : Nat) : State :=
  if fullClear s k then
    let s := (clearAllSlots s k).wr F.QNT_CTRL_HIST_CLEAR k 0
    s.wrIf (s.clearingSlots k).isEmpty F.QNT_STATUS_CLEARING k 0
  else s

/-! ### The meanings -/

def execConvert (q : Fin 4096) (s : State) : Host.Outcome State Fault Refusal := .next (issue s q 2 0x00 (fun s w => convertEff s q w))
def execTable (q : Fin 4096) (s : State) : Host.Outcome State Fault Refusal := .next (issue s q 2 0x01 (fun s w => tableEff s q w))
def execSpillConvert (e : Fin 2048) (s : State) : Host.Outcome State Fault Refusal := .next (spillConvert s e)
def execSlotClear (k : Fin 512) (s : State) : Host.Outcome State Fault Refusal := .next (slotClear s k)
def execSlotClearEnd (k : Fin 512) (slot : Fin 4096) (s : State) : Host.Outcome State Fault Refusal := .next (slotClearEnd s k slot)
def execHistClear (k : Fin 512) (s : State) : Host.Outcome State Fault Refusal := .next (histClear s k)
def execHistClearEnd (k : Fin 512) (s : State) : Host.Outcome State Fault Refusal := .next (histClearEnd s k)

end Sys2Proof.Machine
end

