-- ==== Sys2Proof/Machine/Memory.lean ====
section
/-!
DEFINITION. The memory tiers (R12, R13, R273-R295): HBM with its band map, write queues, error correction, power states
and training; the CXL windows, targets and translation; and the one way any unit reads and writes memory by DA.
-/
namespace Sys2Proof.Machine

/-! ### HBM (R274-R286) -/

/-- The pseudo-channel and the address within it of a DA (R274). -/
def hbmLoc (s : State) (da : Nat) : Nat × Nat :=
  let j := da / 2 ^ 36
  let off := da % 2 ^ 36
  let grain := 256 * 2 ^ s.rd F.HBM_BAND_GRAIN j
  if s.rd F.HBM_BAND_MODE j = 0 then
    let g := off / grain
    (g % 256, j * 2 ^ 28 + (g / 256 * grain + off % grain))
  else
    let o2 := off % 2 ^ 33
    let g := o2 / grain
    (off / 2 ^ 33 * 32 + g % 32, j * 2 ^ 28 + (g / 32 * grain + o2 % grain))

def hbmKey (s : State) (da : Nat) : Nat := let l := hbmLoc s da; l.1 * 2 ^ 31 + l.2
def quarterOfPc (pc : Nat) : Nat := pc / 64
def hbmQueue (s : State) (pc : Nat) : List Nat := Tab.get [] s.mem.wq pc
def State.setMem (s : State) (m : Mem) : State := { s with mem := m }
def State.setQueue (s : State) (pc : Nat) (l : List Nat) : State := s.setMem { s.mem with wq := Tab.set [] s.mem.wq pc l }

/-- Requests to a pseudo-channel are served (R285, R434): its quarter is ready and out of reset, its stack not fenced. -/
def pcServes (s : State) (pc : Nat) : Bool :=
  s.on F.HBM_STATUS_READY (quarterOfPc pc) && decide (s.rd F.HBM_PC_STATE_STATE pc ≠ 3) && !(s.quarterDown (quarterOfPc pc))

/-- A request wakes a pseudo-channel from power-down, and its stack from self-refresh (R281). -/
def wakePc (s : State) (pc : Nat) : State :=
  match s.rd F.HBM_PC_STATE_STATE pc with
  | 1 => s.wr F.HBM_PC_STATE_STATE pc 0
  | 2 =>
    let s := (List.range 32).foldl (fun s i =>
      let p := pc / 32 * 32 + i
      if s.rd F.HBM_PC_STATE_STATE p = 2 then s.wr F.HBM_PC_STATE_STATE p 0 else s) s
    s.bump C.HBM_SR_EXIT_CNT (quarterOfPc pc) 1
  | _ => s

/-! ### Requests that wait at a controller or a memory (R157, R190, R278, R283) -/

/-- The DA of a global address (R15). -/
def gaDA (ga : Nat) : Nat := bits ga 0 48

/-- An address under the pages a transfer was translated with. -/
def underXl (xl : List (Nat × Nat)) (da : Nat) : Nat :=
  match xl.find? (fun p => decide (p.1 = da / 2 ^ 21)) with
  | some p => p.2 * 2 ^ 21 + da % 2 ^ 21
  | none => da

/-- The enabled windows that an offset of the tier lies in (R288). -/
def cxlWindows (s : State) (off : Nat) : List Nat :=
  (List.range 16).filter (fun w => s.on F.CXL_WIN_CFG_EN w &&
    decide (s.rd F.CXL_WIN_CFG_BASE w * 2 ^ 28 ≤ off ∧ off < (s.rd F.CXL_WIN_CFG_BASE w + s.rd F.CXL_WIN_CFG_SIZE_M1 w + 1) * 2 ^ 28))

/-- The target of an address in an untranslated window, as its position among the window's targets. -/
def cxlTarget (s : State) (w off : Nat) : Nat :=
  (off - s.rd F.CXL_WIN_CFG_BASE w * 2 ^ 28) / (256 * 2 ^ s.rd F.CXL_WIN_CFG_GRAN w) % 2 ^ s.rd F.CXL_WIN_CFG_WAYS w

/-- The atoms, by DA / 32, that bytes [da, da + n) touch. -/
def atomsOf (da n : Nat) : List Nat := if n = 0 then [] else (List.range ((da + n - 1) / 32 - da / 32 + 1)).map (fun k => da / 32 + k)

/-- The pseudo-channels that bytes [da, da + n) of HBM lie on. -/
def pcsOf (s : State) (da n : Nat) : List Nat := ((atomsOf da n).map (fun a => (hbmLoc s (a * 32)).1)).eraseDups

/-- The destinations of R190 and R278 that bytes [da, da + n) lie in: a pseudo-channel, a CXL target (0x1000 + port x 8 + device),
a scratchpad (0x2000 + core) or a staging buffer (0x3000 + cluster). -/
def destsOf (s : State) (da n : Nat) : List Nat :=
  match regionOf da with
  | .hbm => pcsOf s da n
  | .cxl off => ((List.range ((off + n - 1) / 256 - off / 256 + 1)).filterMap (fun i =>
      let o := (off / 256 + i) * 256
      match cxlWindows s o with
      | [w] => some (0x1000 + bits (s.rd F.CXL_WIN_TGT_TARGETS w) (8 * cxlTarget s w o) 4)
      | _ => none)).eraseDups
  | .scratch k => [0x2000 + k]
  | .staging c => [0x3000 + c]
  | _ => []

/-- A request in its queue (R157): its panic and SCHED bits, its key, the time of its issue and its stream engine. -/
structure QReq where
  panic : Bool
  sched : Bool
  key : Nat
  time : Nat
  eng : Nat
  deriving DecidableEq, Repr

/-- The rank of a request at a time (R157): a request of rank 4 is served as key 0xFFFE after 16,384 cycles. -/
def QReq.rank (now : Nat) (r : QReq) : Nat × Nat :=
  if r.panic then (1, r.key)
  else if r.sched then (2, r.key)
  else if r.key < 0xFFFF then (3, r.key)
  else if 16384 ≤ (now + 2 ^ 48 - r.time) % 2 ^ 48 then (3, 0xFFFE)
  else (4, r.key)

/-- `x` is served before `y` (R157): by rank and key, then the earlier issue on bits [9:0] of the trace timestamp in serial-number
arithmetic, then the lower engine. Of two issued 512 cycles or more apart either may come first: the same comparison decides. -/
def QReq.before (now : Nat) (x y : QReq) : Bool :=
  let a := x.rank now
  let b := y.rank now
  let d := (y.time + 1024 - x.time % 1024) % 1024
  decide (a.1 < b.1) || (decide (a.1 = b.1) && (decide (a.2 < b.2) || (decide (a.2 = b.2) &&
    (decide (0 < d ∧ d < 512) || (decide (d = 0) && decide (x.eng < y.eng))))))

/-- A read transfer that a destination has not served: its engine and set, the transfer, and its request. -/
structure OpenRead where
  eng : Nat
  set : Nat
  x : Issued
  req : QReq
  deriving DecidableEq, Repr

/-- The request of an issued transfer; it carries the panic bit also while its descriptor has panic raised (R158). -/
def Issued.req (g : Nat) (a : StmSet) (i : Issued) : QReq := ⟨i.panic || a.panics.contains i.desc, i.sched, i.key, i.time, g⟩

/-- The read transfers that no destination has served yet. -/
def openReads (s : State) : List OpenRead :=
  s.streams.flatMap (fun e =>
    let of := fun (k : Nat) (a : StmSet) =>
      (a.issued.filter (fun i => decide (i.st = .reading) && i.bytes.isEmpty)).map (fun i => (⟨e.1, k, i, i.req e.1 a⟩ : OpenRead))
    of 0 e.2.set0 ++ of 1 e.2.set1)

/-- The destinations of a transfer's source pieces. -/
def Issued.dests (s : State) (i : Issued) : List Nat := (i.parts.flatMap (fun x => destsOf s (underXl i.xl (gaDA x.1)) x.2.2)).eraseDups

/-- A panic request is queued at a pseudo-channel's controller (R158, R283). -/
def panicAt (s : State) (pc : Nat) : Bool := (openReads s).any (fun r => r.req.panic && (r.x.dests s).contains pc)

/-- Captures an uncorrectable atom (R280). -/
def hbmUncorrectable (s : State) (pc da : Nat) (write : Bool) : State :=
  let q := quarterOfPc pc
  let s := (s.bump C.HBM_UE_CNT q 1).wr F.HBM_STATUS_UE q 1
  let s := if s.on F.HBM_ERR_LOG_VALID q then s
    else (((s.wr F.HBM_ERR_LOG_DA q da).wr F.HBM_ERR_LOG_PC q pc).wr F.HBM_ERR_LOG_WRITE q (b2n write)).wr F.HBM_ERR_LOG_VALID q 1
  if s.on F.HBM_CTRL_UE_EVT_EN q then (s.signalMC F.HBM_STATUS_UE q).owe 0x2B000001 q else s

/-- A corrected atom (R279). -/
def hbmCorrected (s : State) (pc : Nat) : State :=
  let q := quarterOfPc pc
  (s.bump C.HBM_CE_CNT q 1).wr F.HBM_STATUS_CE q 1

/-- The key of the atom of bytes from `da` on in the table of atoms with errors. -/
def atomKey (s : State) (da : Nat) : Nat := hbmKey s da / 32
def State.setWeak (s : State) (k v : Nat) : State := s.setMem { s.mem with weak := Tab.set 0 s.mem.weak k v }

/-- What error correction makes of the read of an atom: the event's outcome, or the error that the atom still holds from an earlier one. -/
def atomOutcome (s : State) (da ecc : Nat) : Nat := Nat.min 2 (Nat.max ecc (Tab.get 0 s.mem.weak (atomKey s da)))

/-- One atom read (R276, R279, R280): a queued atom is forwarded; a corrected one is written back when SCRUB_EN is 1; an uncorrectable
one answers with an error. -/
def hbmAtomRead (s : State) (atom ecc : Nat) : State × Bool :=
  let l := hbmLoc s (atom * 32)
  let s := wakePc s l.1
  if (hbmQueue s l.1).contains (l.2 / 32) then (s.bump C.HBM_FWD_CNT (quarterOfPc l.1) 1, true)
  else match atomOutcome s (atom * 32) ecc with
    | 0 => (s, true)
    | 1 => ((hbmCorrected s l.1).setWeak (atomKey s (atom * 32)) (if s.on F.HBM_CTRL_SCRUB_EN (quarterOfPc l.1) then 0 else 1), true)
    | _ => ((hbmUncorrectable s l.1 (atom * 32) false).setWeak (atomKey s (atom * 32)) 2, false)

/-- The write queue drains (R283): at HIGH down to LOW; with a panic request queued only when full, by eight atoms. -/
def hbmDrain (s : State) (pc : Nat) (panic : Bool) : State :=
  let q := quarterOfPc pc
  let l := hbmQueue s pc
  if panic || panicAt s pc then (if 64 ≤ l.length then s.setQueue pc (l.drop 8) else s)
  else if s.rd F.HBM_WQ_CTRL_HIGH q ≤ l.length then s.setQueue pc (l.drop (l.length - s.rd F.HBM_WQ_CTRL_LOW q))
  else s

/-- Walks the atoms of a read; all of them answer, or the request completes with an error response. -/
def hbmReadAtoms (s : State) : List Nat → List Nat → State × Bool
  | [], _ => (s, true)
  | a :: r, ecc =>
    let x := hbmAtomRead s a (ecc.headD 0)
    let y := hbmReadAtoms x.1 r (ecc.drop 1)
    (y.1, x.2 && y.2)

/-- The bytes of HBM at [da, da + n): every committed write is seen. -/
def hbmBytes (s : State) (da n : Nat) : List Byte := (List.range n).map (fun i => byteAt s.mem.hbm (hbmKey s (da + i)))

/-- Bytes of [da, da + n) that lie in the stacks of quarter `q`. -/
def bytesIn (s : State) (da n q : Nat) : Nat :=
  ((atomsOf da n).map (fun a => if quarterOfPc (hbmLoc s (a * 32)).1 = q then overlapLen (a * 32) 32 da n else 0)).sum

/-- Bytes read or written are counted in the quarters of their stacks (R295). -/
def countBytes (s : State) (c : Cnt) (da n : Nat) : State :=
  (List.range 4).foldl (fun s q => let k := bytesIn s da n q; if k = 0 then s else s.bump c q k) s

/-- A read of HBM; `ecc` is the error-correction outcome per atom. -/
def hbmRead (s : State) (da n : Nat) (ecc : List Nat) : State × Option (List Byte) :=
  let as := atomsOf da n
  if !(as.all (fun a => pcServes s (hbmLoc s (a * 32)).1)) then (s, none)
  else
    let x := hbmReadAtoms s as ecc
    (countBytes x.1 C.HBM_RD_BYTES_CNT da n, if x.2 then some (hbmBytes s da n) else none)

/-- One atom of a write (R276, R277, R280): a part of an atom is a read-modify-write. -/
def hbmAtomWrite (s : State) (da : Nat) (bs : List Byte) (ecc : Nat) (panic : Bool) : State × Bool :=
  let l := hbmLoc s da
  let s := wakePc s l.1
  let read := decide (bs.length < 32) && !((hbmQueue s l.1).contains (l.2 / 32))
  let o := if read then atomOutcome s da ecc else 0
  if o = 2 then ((hbmUncorrectable s l.1 (da / 32 * 32) true).setWeak (atomKey s da) 2, false)
  else
    let s := (if o = 1 then hbmCorrected s l.1 else s).setWeak (atomKey s da) 0
    let key := hbmKey s da
    let s := s.setMem { s.mem with hbm := writeBytes s.mem.hbm key bs }
    let q := hbmQueue s l.1
    let a := l.2 / 32
    (hbmDrain (s.setQueue l.1 (q.filter (fun x => decide (x ≠ a)) ++ [a])) l.1 panic, true)

/-- The bytes of a write cut at atoms. -/
def atomPieces : Nat → Nat → List Byte → List (Nat × List Byte)
  | 0, _, _ => []
  | n + 1, da, bs => if bs.isEmpty then [] else (da, bs.take (32 - da % 32)) :: atomPieces n (da + (32 - da % 32)) (bs.drop (32 - da % 32))

def hbmWriteAtoms (s : State) (panic : Bool) : List (Nat × List Byte) → List Nat → State × Bool
  | [], _ => (s, true)
  | p :: r, ecc =>
    let x := hbmAtomWrite s p.1 p.2 (ecc.headD 0) panic
    let y := hbmWriteAtoms x.1 panic r (ecc.drop 1)
    (y.1, x.2 && y.2)

/-- A write of HBM: it commits when the controllers accept it (R276). -/
def hbmWrite (s : State) (da : Nat) (bs : List Byte) (ecc : List Nat) (panic : Bool) : State × Bool :=
  if !((atomsOf da bs.length).all (fun a => pcServes s (hbmLoc s (a * 32)).1)) then (s, false)
  else
    let x := hbmWriteAtoms s panic (atomPieces (bs.length + 1) da bs) ecc
    (countBytes x.1 C.HBM_WR_BYTES_CNT da bs.length, x.2)

/-! ### The CXL tier (R287-R291) -/

/-- What an address of the tier leads to: a target's memory, a failed translation, an error response, or a target behind a link that
is not up, which gives no completion (R289). -/
inductive CxlTo where
  | mem (key : Nat)
  | fault
  | error
  | silent
  deriving DecidableEq, Repr

/-- An address in an untranslated window (R288, R294); a port that is disabled or being removed takes no request (R400, R403). -/
def cxlDirect (s : State) (off : Nat) : CxlTo :=
  match cxlWindows s off with
  | [w] =>
    if s.on F.CXL_WIN_CFG_XLT w then .error
    else
      let t := cxlTarget s w off
      let g := bits (s.rd F.CXL_WIN_TGT_TARGETS w) (8 * t) 4
      if bit (s.rd F.CXL_WIN_STAT_TGT_DOWN w) t = 1 then .error
      else if !(s.on F.CXL_PORT_CTRL_EN (g / 8)) || s.lanes.removing.contains (g / 8) then .error
      else if bit (s.rd F.CXL_TIER_STATUS_LINK_UP 0) (g / 8) = 0 then .silent
      else .mem (g * 2 ^ 48 + (cxlBase + off))
  | _ => .error

/-- The table entry of a page (R290): from the translation cache, or from HBM. -/
def xltEntry (s : State) (page entryDA : Nat) : State × Option Nat :=
  match s.mem.xlt.find? (fun e => decide (e.1 = page)) with
  | some e => (s, some e.2)
  | none =>
    let r := hbmRead s entryDA 8 []
    match r.2 with
    | none => (r.1, none)
    | some bs =>
      let v := ofBytesLE bs
      (if bit v 0 = 1 then r.1.setMem { r.1.mem with xlt := ((page, v) :: r.1.mem.xlt).take 4096 } else r.1, some v)

/-- What translation makes of an address of the tier: an untranslated window's own address, a backing address, a failed
translation, or an error response. -/
inductive Xlated where
  | at (off : Nat)
  | fault
  | error
  deriving DecidableEq, Repr

/-- Translation of an address of the tier (R288, R290): the entry of its page leads to an untranslated window. -/
def cxlTranslate (s : State) (off : Nat) (write : Bool) : State × Xlated :=
  if !(s.on F.CXL_TIER_CTRL_EN 0) then (s, .error)
  else match cxlWindows s off with
  | [w] =>
    if !(s.on F.CXL_WIN_CFG_XLT w) then (s, .at off)
    else
      let page := (off - s.rd F.CXL_WIN_CFG_BASE w * 2 ^ 28) / 2 ^ 21
      let r := xltEntry s ((cxlBase + off) / 2 ^ 21) (s.rd F.CXL_WIN_XLT_TABLE_DA w + 8 * page)
      match r.2 with
      | none => (r.1, .error)
      | some e =>
        if bit e 0 = 0 ∨ (write ∧ bit e 1 = 0) then (r.1, .fault)
        else
          let da := bits e 21 27 * 2 ^ 21 + off % 2 ^ 21
          if da < cxlBase then (r.1, .fault)
          else if (cxlWindows r.1 (da - cxlBase)).all (fun v => s.on F.CXL_WIN_CFG_XLT v) then (r.1, .fault)
          else (r.1, .at (da - cxlBase))
  | _ => (s, .error)

/-- The tier's answer for an address (R288-R290); a failed translation is counted by the unit that makes the access. -/
def cxlResolve (s : State) (off : Nat) (write : Bool) : State × CxlTo :=
  let r := cxlTranslate s off write
  match r.2 with
  | .at o => (r.1, cxlDirect r.1 o)
  | .fault => (r.1, .fault)
  | .error => (r.1, .error)

/-- The error response of a request to the tier (R289, R290). -/
def cxlError (s : State) : State := (s.bump C.CXL_ERR_RSP_CNT 0 1).owe 0x2C000002 4
def cxlMiss (s : State) : State := s.bump C.CXL_XLT_MISS_CNT 0 1

/-- The memory keys of bytes of the tier from an offset on; the first answer that is none of memory ends it, a failed translation and
a request without completion counted. -/
def cxlKeys (s : State) (off : Nat) (write : Bool) : Nat → State × Except Unit (List Nat)
  | 0 => (s, .ok [])
  | n + 1 =>
    let r := cxlResolve s off write
    match r.2 with
    | .error => (r.1, .error ())
    | .fault => (cxlMiss r.1, .error ())
    | .silent => (cxlError r.1, .error ())
    | .mem k =>
      let t := cxlKeys r.1 (off + 1) write n
      match t.2 with
      | .error b => (t.1, .error b)
      | .ok l => (t.1, .ok (k :: l))

/-- A read of the tier; a failed translation gives an error response to any unit but a stream (R290), and so does a target that
answers with poison or an error status (R289), which is outcome 2. -/
def cxlRead (s : State) (off n : Nat) (ecc : List Nat) : State × Option (List Byte) :=
  let r := cxlKeys s off false n
  match r.2 with
  | .error _ => (r.1, none)
  | .ok ks =>
    if ecc.contains 2 then (cxlError r.1, none)
    else (r.1.bump C.CXL_RD_BYTES_CNT 0 n, some (ks.map (byteAt r.1.mem.cxl)))

def cxlWrite (s : State) (off : Nat) (bs : List Byte) (ecc : List Nat) : State × Bool :=
  let r := cxlKeys s off true bs.length
  match r.2 with
  | .error _ => (r.1, false)
  | .ok ks =>
    if ecc.contains 2 then (cxlError r.1, false)
    else
      let m := (ks.zip bs).foldl (fun m p => Tab.set 0 m p.1 p.2) r.1.mem.cxl
      ((r.1.setMem { r.1.mem with cxl := m }).bump C.CXL_WR_BYTES_CNT 0 bs.length, true)

/-! ### Memory by DA -/

/-- What surrounds an access: the host's bytes, HBM's error-correction outcomes by atom (2 for a CXL target that answers with an error),
a panic request of another port queued. -/
structure Around where
  ext : List Byte
  ecc : List Nat
  panic : Bool
  deriving DecidableEq, Repr

def Around.quiet : Around := ⟨[], [], false⟩

/-- The host window answers: Bus Master Enable is 1 and the function is not in D3hot (R398). -/
def hostReachable (s : State) : Bool := s.on F.PCI_STATUS_BME 0 && !(s.on F.PCI_STATUS_D3 0)

/-- A read of the host window: the host's bytes `ext`, when it returns as many as are asked for. -/
def hostRead (s : State) (n : Nat) (ext : List Byte) : State × Option (List Byte) :=
  if !(hostReachable s) then (s.bump C.PCI_ERR_CNT 0 1, none)
  else if ext.length = n then (s.bump C.PCI_RX_BYTES_CNT 0 n, some ext)
  else (s, none)

/-- A write of the host window. -/
def hostWrite (s : State) (da : Nat) (bs : List Byte) : State × Bool :=
  if !(hostReachable s) then (s.bump C.PCI_ERR_CNT 0 1, false)
  else ((s.bump C.PCI_TX_BYTES_CNT 0 bs.length).emit (.hostWrite da bs), true)

/-- A read of memory by DA, whatever full/empty bits: `none` is an error response. The host window answers with the
bytes that the host returns; registers are not memory (R11). -/
def memRead (s : State) (da n : Nat) (a : Around) : State × Option (List Byte) :=
  match regionOf da with
  | .hbm => if regionOf (da + n - 1) = .hbm then hbmRead s da n a.ecc else (s, none)
  | .scratch _ => if memDown s (wordsOf da n) || decide (clusterOfDA (da + n - 1) = none) then (s, none) else (s, some (readBytes s.sram da n))
  | .staging _ => if memDown s (wordsOf da n) || decide (clusterOfDA (da + n - 1) = none) then (s, none) else (s, some (readBytes s.sram da n))
  | .cxl off => cxlRead s off n a.ecc
  | .host => hostRead s n a.ext
  | .window _ => (s, none)
  | .hole => (s, none)

/-- A write of memory by DA: on-chip words covered wholly become full (R174, R175). A write of the host window leaves
the device. -/
def memWrite (s : State) (da : Nat) (bs : List Byte) (a : Around) : State × Bool :=
  match regionOf da with
  | .hbm => if regionOf (da + bs.length - 1) = .hbm then hbmWrite s da bs a.ecc a.panic else (s, false)
  | .scratch _ => if memDown s (wordsOf da bs.length) || decide (clusterOfDA (da + bs.length - 1) = none) then (s, false) else (s.storePlain da bs, true)
  | .staging _ => if memDown s (wordsOf da bs.length) || decide (clusterOfDA (da + bs.length - 1) = none) then (s, false) else (s.storePlain da bs, true)
  | .cxl off => cxlWrite s off bs a.ecc
  | .host => hostWrite s da bs
  | .window _ => (s, false)
  | .hole => (s, false)

/-- Little-endian value of bytes read, or none. -/
def memNat (s : State) (da n : Nat) : State × Option Nat :=
  let r := memRead s da n Around.quiet
  (r.1, r.2.map ofBytesLE)

/-! ### Commands of the HBM controllers -/

/-- HBM_BAND_WRITE (R275): ignored while a scheduled session is admitted. -/
def hbmBandWrite (s : State) (j v : Nat) : State :=
  if schedAdmitted s then s.wr F.HBM_STATUS_MAP_REFUSED 0 1
  else (s.wr F.HBM_BAND_MODE j (bit v 0)).wrClamped F.HBM_BAND_GRAIN j (bits v 8 4)

/-- PATROL_SCRUB (R279, R283): the patrol reads one atom of a pseudo-channel and corrects it; suspended while a panic request is queued. -/
def patrolScrub (s : State) (pc addr ecc : Nat) (panic : Bool) : State :=
  if s.on F.HBM_CTRL_SCRUB_EN (quarterOfPc pc) && pcServes s pc && !panic && !(panicAt s pc) then
    match Nat.min 2 (Nat.max ecc (Tab.get 0 s.mem.weak (pc * 2 ^ 26 + addr))) with
    | 0 => s
    | 1 => (hbmCorrected s pc).setWeak (pc * 2 ^ 26 + addr) 0
    | _ =>
      -- the log holds the DA of the atom: the band map takes it back from its place
      (hbmUncorrectable s pc (hbmDA s pc (addr * 32)) false).setWeak (pc * 2 ^ 26 + addr) 2
  else s
where
  /-- The DA that maps to an address of a pseudo-channel (R274, read backwards). -/
  hbmDA (s : State) (pc addr : Nat) : Nat :=
    let j := addr / 2 ^ 28
    let l := addr % 2 ^ 28
    let grain := 256 * 2 ^ s.rd F.HBM_BAND_GRAIN j
    if s.rd F.HBM_BAND_MODE j = 0 then j * 2 ^ 36 + (l / grain * 256 + pc) * grain + l % grain
    else j * 2 ^ 36 + pc / 32 * 2 ^ 33 + (l / grain * 32 + pc % 32) * grain + l % grain

/-- REFRESH (R283): a refresh of a bank falls due. With a panic request queued it is postponed up to the limit, then forced;
without one it is issued, and the postponed ones are made up. -/
def refresh (s : State) (pc bank : Nat) (panic : Bool) : State :=
  let q := quarterOfPc pc
  let n := Tab.get 0 s.mem.postponed (pc * 64 + bank)
  let set := fun (s : State) v => s.setMem { s.mem with postponed := Tab.set 0 s.mem.postponed (pc * 64 + bank) v }
  if !panic && !(panicAt s pc) then set s 0
  else if n < s.rd F.HBM_REF_CTRL_POSTPONE q then set s (n + 1)
  else (s.bump C.HBM_REF_FORCE_CNT q 1).wr F.HBM_STATUS_REF_FORCED q 1

/-- A cycle at the controllers (R283): counted in each quarter where a panic request is queued; where none is, postponed refreshes are
made up. -/
def hbmCycle (s : State) : State :=
  let pcs := ((openReads s).flatMap (fun r => if r.req.panic then (r.x.dests s).filter (fun d => decide (d < 256)) else [])).eraseDups
  let s := (List.range 4).foldl (fun s q => if pcs.any (fun p => decide (quarterOfPc p = q)) then s.bump C.HBM_PANIC_CNT q 1 else s) s
  if s.mem.postponed.isEmpty then s else s.setMem { s.mem with postponed := Tab.drop s.mem.postponed (fun k => !(pcs.contains (k / 64))) }

/-- A pseudo-channel has empty queues: no write is queued and no read waits. -/
def pcIdle (s : State) (pc : Nat) : Bool := (hbmQueue s pc).isEmpty && (openReads s).all (fun r => !((r.x.dests s).contains pc))

/-- POWER_DOWN_ENTRY (R281): an active pseudo-channel with empty queues; held while a panic request is queued (R283). -/
def powerDown (s : State) (pc : Nat) (panic : Bool) : State :=
  if s.rd F.HBM_PC_STATE_STATE pc = 0 ∧ pcIdle s pc ∧ ¬ panic ∧ pcServes s pc then
    (s.wr F.HBM_PC_STATE_STATE pc 1).bump C.HBM_PD_ENTRY_CNT (quarterOfPc pc) 1
  else s

/-- SELF_REFRESH_ENTRY (R281): every pseudo-channel of a stack has been idle; SR_EN counts as 0 while a scheduled session
is admitted. -/
def selfRefresh (s : State) (stack : Nat) : State :=
  let pcs := (List.range 32).map (fun i => stack * 32 + i)
  if s.on F.HBM_CTRL_SR_EN (stack / 2) && !(schedAdmitted s) && pcs.all (fun p => pcServes s p && pcIdle s p) then
    pcs.foldl (fun s p => s.wr F.HBM_PC_STATE_STATE p 2) s
  else s

/-- What HBM_STATUS.TRAIN_STATE of a quarter shows of its two stacks: full training, a validation, or training done. -/
def trainState (s : State) (q : Nat) : Nat :=
  let t := fun k => Tab.get 0 s.mem.training (2 * q + k)
  if t 0 = 1 ∨ t 1 = 1 then 1 else if t 0 = 2 ∨ t 1 = 2 then 2 else 3

def State.setTraining (s : State) (k v : Nat) : State := s.setMem { s.mem with training := Tab.set 0 s.mem.training k v }

/-- HBM_TRAINING (R284): training of a quarter begins. Each stack trains fully when its record is missing, fails its CRC (its bit of
`bad`) or FORCE_FULL is set; else its record is applied and validated. -/
def hbmTraining (s : State) (q bad : Nat) : State :=
  if s.rd F.HBM_STATUS_TRAIN_STATE q = 1 ∨ s.rd F.HBM_STATUS_TRAIN_STATE q = 2 then s
  else
    let s := (List.range 2).foldl (fun s k =>
      let valid := Tab.get false s.mem.trainRec (2 * q + k) && decide (bit bad k = 0)
      s.setTraining (2 * q + k) (if s.on F.HBM_TRAIN_FORCE_FULL q || !valid then 1 else 2)) s
    (s.wr F.HBM_STATUS_READY q 0).wr F.HBM_STATUS_TRAIN_STATE q (trainState s q)

/-- Training or validation of one stack ends (R284, R285): the margins found, the change of die temperature against its record, and
whether full training failed. A validation that falls short is followed by full training of the stack. -/
def stackTrained (s : State) (q k : Nat) (margins : List Nat) (dTemp : Nat) (failed : Bool) : State :=
  let stack := 2 * q + k
  let st := Tab.get 0 s.mem.training stack
  if st = 0 then s
  else
    let m := fun p => margins.getD (32 * k + p) 0
    let s := (List.range 32).foldl (fun s p => s.wr F.HBM_PC_STATE_MARGIN (stack * 32 + p) (m p)) s
    let low := (List.range 32).any (fun p => decide (m p < s.rd F.HBM_TRAIN_MIN_MARGIN q))
    if st = 2 ∧ (low ∨ s.rd F.HBM_TRAIN_TEMP_DELTA q < dTemp) then (s.wr F.HBM_STATUS_TRAIN_FALLBACK q 1).setTraining stack 1
    else
      let fail := decide (st = 1) && failed
      let s := (List.range 32).foldl (fun s p => s.wr F.HBM_PC_STATE_STATE (stack * 32 + p) (if fail then 3 else 0)) s
      let s := if fail then (s.setBit F.HBM_STATUS_STACK_FAIL q k).owe 0x2B000002 q else s.clearBit F.HBM_STATUS_STACK_FAIL q k
      (s.setMem { s.mem with trainRec := Tab.set false s.mem.trainRec stack (!fail) }).setTraining stack 0

/-- TRAINING_DONE (R284, R285): what runs on the stacks of a quarter has ended; when nothing more is to run, the quarter is ready. -/
def trainingDone (s : State) (q : Nat) (margins dTemps : List Nat) (failed : Nat) : State :=
  if s.rd F.HBM_STATUS_TRAIN_STATE q ≠ 1 ∧ s.rd F.HBM_STATUS_TRAIN_STATE q ≠ 2 then s
  else
    let s := (List.range 2).foldl (fun s k => stackTrained s q k margins (dTemps.getD k 0) (decide (bit failed k = 1))) s
    let worst := (List.range 64).foldl (fun a p => Nat.min a (s.rd F.HBM_PC_STATE_MARGIN (64 * q + p))) 255
    let s := (s.wr F.HBM_TRAIN_WORST q worst).wr F.HBM_STATUS_TRAIN_STATE q (trainState s q)
    if trainState s q = 3 then (s.wr F.HBM_STATUS_READY q 1).wr F.HBM_TRAIN_FORCE_FULL q 0 else s

/-! ### Commands of the CXL tier -/

/-- CXL_WIN_CFG_WRITE (R293): a write of the configuration of a window. -/
def winUsed (s : State) (w : Nat) : Bool :=
  let lo := cxlBase + s.rd F.CXL_WIN_CFG_BASE w * 2 ^ 28
  let hi := lo + (s.rd F.CXL_WIN_CFG_SIZE_M1 w + 1) * 2 ^ 28
  s.admitted.any (fun e => e.2.sched && e.2.wins.any (fun x => decide (x.2.1 ≠ 0 ∧ x.1 < hi ∧ lo < x.1 + x.2.1)))

def cxlWinCfgWrite (s : State) (w v : Nat) : State :=
  let en := s.on F.CXL_WIN_CFG_EN w
  if en then
    let same := decide (bit v 1 = s.rd F.CXL_WIN_CFG_XLT w ∧ bits v 4 15 = s.rd F.CXL_WIN_CFG_BASE w ∧ bits v 20 15 = s.rd F.CXL_WIN_CFG_SIZE_M1 w ∧
      bits v 36 2 = s.rd F.CXL_WIN_CFG_WAYS w ∧ bits v 40 3 = s.rd F.CXL_WIN_CFG_GRAN w)
    let s := s.wrIf (!same) F.CXL_WIN_STAT_CFG_REFUSED w 1
    if bit v 0 = 1 then s.wr F.CXL_WIN_STAT_TGT_DOWN w 0
    else if winUsed s w then s.wr F.CXL_WIN_STAT_DIS_REFUSED w 1
    else s.wr F.CXL_WIN_CFG_EN w 0
  else
    let base := bits v 4 15
    let s := ((s.wr F.CXL_WIN_CFG_EN w (bit v 0)).wr F.CXL_WIN_CFG_XLT w (bit v 1)).wr F.CXL_WIN_CFG_BASE w base
    let s := (s.wr F.CXL_WIN_CFG_SIZE_M1 w (Nat.min (bits v 20 15) (32767 - base))).wr F.CXL_WIN_CFG_WAYS w (bits v 36 2)
    let s := s.wrClamped F.CXL_WIN_CFG_GRAN w (bits v 40 3)
    if bit v 0 = 1 then s.wr F.CXL_WIN_STAT_TGT_DOWN w 0 else s

/-- PRQ_REC_POP (R290, R296): a read of the head of the page request queue removes it. -/
def prqPop (s : State) : State :=
  match s.mem.prq with
  | [] => s.emit (.data 0)
  | (da, g, w) :: r =>
    let s := s.setMem { s.mem with prq := r }
    (s.wr F.CXL_TIER_STATUS_PRQ_PENDING 0 (b2n (!(r.isEmpty)))).emit (.data (da + g * 2 ^ 48 + b2n w * 2 ^ 57))

/-- XLT_INV (R291): the cached entries of the pages named are dropped; it stays BUSY until it completes. -/
def xltInv (s : State) (v : Nat) : State :=
  let first := bits v 21 27
  let n := bits v 48 15
  let named := fun (e : Nat × Nat) => decide (n = 0) || (decide (first ≤ e.1) && decide (e.1 < first + n))
  let s := s.setMem { s.mem with xlt := s.mem.xlt.filter (fun e => !(named e)), xltGone := s.mem.xltGone ++ s.mem.xlt.filter named }
  s.wr F.CXL_XLT_INV_BUSY 0 1

/-- A transfer that a stream has outstanding was translated with a dropped entry (R291): it is still being read, or its bytes are
still to be written to a page under the entry. -/
def xltInUse (s : State) (page : Nat) : Bool :=
  s.streams.any (fun g => (g.2.set0.issued ++ g.2.set1.issued).any (fun x =>
    x.xl.any (fun p => decide (p.1 = page)) &&
    (match x.st with
     | .reading => true
     | .held => x.parts.any (fun y => decide (gaDA y.2.1 / 2 ^ 21 ≤ page ∧ page ≤ (gaDA y.2.1 + y.2.2 - 1) / 2 ^ 21))
     | _ => false)))

/-- XLT_INV_DONE (R291): the invalidation completes when no request uses a dropped entry. -/
def xltInvDone (s : State) : State :=
  if s.mem.xltGone.any (fun e => xltInUse s e.1) then s
  else (s.setMem { s.mem with xltGone := [] }).wr F.CXL_XLT_INV_BUSY 0 0

/-- CXL_LINK_UP (R292, R399): CXL_PORT_STAT shows the speed and the width at which the link came up. -/
def cxlLinkUp (s : State) (p speed width ltssm : Nat) : State :=
  if bit (s.rd F.CXL_TIER_STATUS_LINK_UP 0) p = 1 || !(s.on F.CXL_PORT_CTRL_EN p) then s
  else
    let s := ((s.wr F.CXL_PORT_STAT_SPEED p speed).wr F.CXL_PORT_STAT_WIDTH p width).wr F.CXL_PORT_STAT_LTSSM p ltssm
    ((s.setBit F.CXL_TIER_STATUS_LINK_UP 0 p).wr F.CXL_PORT_STAT_LINK_UP p 1).flagMC F.CXL_TIER_STATUS_HOTADD 0

/-- Targets of a port are marked down in every window that names it (R294). -/
def markDown (s : State) (p : Nat) : State :=
  (List.range 16).foldl (fun s w =>
    if s.on F.CXL_WIN_CFG_XLT w then s
    else (List.range (2 ^ s.rd F.CXL_WIN_CFG_WAYS w)).foldl (fun s t =>
      if bits (s.rd F.CXL_WIN_TGT_TARGETS w) (8 * t + 3) 1 = p then s.setBit F.CXL_WIN_STAT_TGT_DOWN w t else s) s) s

/-! ### The meanings -/

def execHbmBandWrite (j : Fin 6) (value : Word) (s : State) : Host.Outcome State Fault Refusal := .next (hbmBandWrite s j value.toNat)
def execPatrolScrub (pc : Fin 256) (atom : Nat) (ecc : Fin 3) (panic : Bool) (s : State) : Host.Outcome State Fault Refusal :=
  .next (patrolScrub s pc atom ecc panic)
def execRefresh (pc : Fin 256) (bank : Fin 64) (panic : Bool) (s : State) : Host.Outcome State Fault Refusal := .next (refresh s pc bank panic)
def execPowerDownEntry (pc : Fin 256) (panic : Bool) (s : State) : Host.Outcome State Fault Refusal := .next (powerDown s pc panic)
def execSelfRefreshEntry (stack : Fin 8) (s : State) : Host.Outcome State Fault Refusal := .next (selfRefresh s stack)
def execHbmTraining (q bad : Fin 4) (s : State) : Host.Outcome State Fault Refusal := .next (hbmTraining s q bad)
def execTrainingDone (q : Fin 4) (margins dTemps : List Nat) (failed : Fin 4) (s : State) : Host.Outcome State Fault Refusal :=
  .next (trainingDone s q margins dTemps failed)
def execCxlWinCfgWrite (w : Fin 16) (value : Word) (s : State) : Host.Outcome State Fault Refusal := .next (cxlWinCfgWrite s w value.toNat)
def execPrqRecPop (s : State) : Host.Outcome State Fault Refusal := .next (prqPop s)
def execXltInv (value : Word) (s : State) : Host.Outcome State Fault Refusal := .next (xltInv s value.toNat)
def execXltInvDone (s : State) : Host.Outcome State Fault Refusal := .next (xltInvDone s)
def execCxlLinkUp (p : Fin 2) (speed : Fin 8) (width : Fin 32) (ltssm : Fin 64) (s : State) : Host.Outcome State Fault Refusal :=
  .next (cxlLinkUp s p speed width ltssm)

end Sys2Proof.Machine
end

