-- ==== Sys2Proof/Machine/Packets.lean ====
section
/-!
DEFINITION. Packets of the network on chip (chapter 12) on their way: units and routes, probes, die links, sleeping domains and the
buffers before them, requests open at their sources and the responses to them; and what Kamrus and the stream engines need of
global addresses, routes between nodes and cells (R15, R244, R251).
-/
namespace Sys2Proof.Machine

def State.setNoc (s : State) (n : Noc) : State := { s with noc := n }

/-! ### Units (R297, R301) -/

/-- The quarter of port K(3q + p), and whether the port is in reset (R427). -/
def quarterOfPort (p : Nat) : Nat := p / 3
def portDownRst (s : State) (p : Nat) : Bool := s.inReset 5 p || s.quarterDown (quarterOfPort p)

def dieOf (u : Nat) : Nat := u / 4096
def unitNo (u : Nat) : Nat := u % 4096

/-- A unit ID that the table of R301 assigns. -/
def unitExists (u : Nat) : Bool :=
  let n := unitNo u
  if dieOf u < 4 then
    decide (n < 0x800 ∧ n % 16 ≤ 10) || decide (0x800 ≤ n ∧ n < 0x808) || decide (0x810 ≤ n ∧ n < 0x830) || decide (0x830 ≤ n ∧ n < 0x833) ||
    decide (0x840 ≤ n ∧ n < 0x880) || decide (n = 0x880)
  else decide (dieOf u = 4 ∧ n ≤ 6)

/-- The router of a unit of a quarter, as (x, y) (R297). -/
def routerOf (u : Nat) : Nat × Nat :=
  let n := unitNo u
  let cl := fun c => (1 + c % 4, 1 + c / 4)
  if n < 0x800 then cl (n / 256)
  else if n < 0x808 then cl (n - 0x800)
  else if n < 0x830 then (0, (n - 0x810) / 8)
  else if n < 0x833 ∨ n = 0x880 then (1, 3)
  else (1 + (n - 0x840) / 16, 0)

/-- The global cluster of a unit that belongs to one. -/
def clusterOfUnit (u : Nat) : Option Nat :=
  if 4 ≤ dieOf u then none
  else if unitNo u < 0x800 then some (dieOf u * 8 + unitNo u / 256)
  else if unitNo u < 0x808 then some (dieOf u * 8 + (unitNo u - 0x800))
  else none

/-- The global fabric port of a unit that is one. -/
def fportOfUnit (u : Nat) : Option Nat :=
  if dieOf u < 4 ∧ 0x810 ≤ unitNo u ∧ unitNo u < 0x830 then some (dieOf u * 32 + (unitNo u - 0x810)) else none

/-- The unit ID of a fabric port (R331) and of a Kamrus port. -/
def unitOfFport (n : Nat) : Nat := n / 32 * 4096 + 0x810 + n % 32
def unitOfKport (p : Nat) : Nat := quarterOfPort p * 4096 + 0x830 + p % 3

/-- The block of a unit is in reset (R434): kind 4 regions hold four fabric ports each (R315). -/
def fportDown (s : State) (n : Nat) : Bool := s.inReset 4 (n / 4) || s.quarterDown (n / 32)
def unitDown (s : State) (u : Nat) : Bool :=
  if 4 ≤ dieOf u then s.inReset 0 0
  else match clusterOfUnit u, fportOfUnit u with
    | some c, _ => if unitNo u < 0x800 then s.coreDown (c * 16 + unitNo u % 256 / 16) else s.clusterDown c
    | none, some n => fportDown s n
    | none, none => if 0x830 ≤ unitNo u ∧ unitNo u < 0x833 then portDownRst s (dieOf u * 3 + (unitNo u - 0x830)) else s.quarterDown (dieOf u)

/-! ### Routes (R297, R298) -/

/-- One router on the way: die, router number, input port and output port (0 local, 1 north, 2 east, 3 south, 4 west). -/
structure Hop where
  die : Nat
  router : Nat
  inp : Nat
  out : Nat
  deriving DecidableEq, Repr

/-- Along x from `a` to `b`, without `a`. -/
def stepsTo (a b : Nat) : List Nat := if a ≤ b then (List.range (b - a)).map (fun i => a + 1 + i) else (List.range (a - b)).map (fun i => a - 1 - i)

/-- Routers crossed in one quarter: first along x, then along y (R298). -/
def meshPath (a b : Nat × Nat) : List (Nat × Nat) := a :: (stepsTo a.1 b.1).map (fun x => (x, a.2)) ++ (stepsTo a.2 b.2).map (fun y => (b.1, y))

/-- The side of router `a` that faces its neighbour `b`; larger y lies south. -/
def sideOf (a b : Nat × Nat) : Nat := if b.1 > a.1 then 2 else if b.1 < a.1 then 4 else if b.2 > a.2 then 3 else if b.2 < a.2 then 1 else 0

/-- The hops of a path in a die, given the router before. -/
def hopsOf (die : Nat) : Option (Nat × Nat) → List (Nat × Nat) → List Hop
  | _, [] => []
  | prev, r :: rest =>
    ⟨die, r.2 * 5 + r.1, match prev with | some p => sideOf r p | none => 0, match rest with | n :: _ => sideOf r n | [] => 0⟩ :: hopsOf die (some r) rest

def hubLink : Nat × Nat := (2, 3)
def prevLink : Nat × Nat := (3, 3)
def nextLink : Nat × Nat := (4, 3)

/-- Hops within the quarters from die `q` to die `d`, with the die links crossed (from, to); at most one die between. While the
quarter between is fenced, the way passes the hub links and the hub crossbar in its place (R467). Between units of the hub there is its one
crossbar. -/
def dieRoute (fenced : Nat → Bool) : Nat → Nat → Nat → Nat × Nat → Nat × Nat → List Hop × List (Nat × Nat)
  | 0, _, _, _, _ => ([], [])
  | f + 1, q, d, at0, fin =>
    if q = d then (if d < 4 then hopsOf q none (meshPath at0 fin) else [⟨4, 4, 0, 0⟩], [])
    else if d = 4 then (hopsOf q none (meshPath at0 hubLink) ++ [⟨4, q, 0, 0⟩, ⟨4, 4, 0, 0⟩], [(q, 4)])
    else if q = 4 then
      let r := dieRoute fenced f d d hubLink fin
      ([⟨4, 4, 0, 0⟩, ⟨4, d, 0, 0⟩] ++ r.1, (4, d) :: r.2)
    else
      let back := decide (d = (q + 3) % 4)
      let nxt := if back then (q + 3) % 4 else (q + 1) % 4
      if nxt ≠ d ∧ fenced nxt then
        let r := dieRoute fenced f d d hubLink fin
        (hopsOf q none (meshPath at0 hubLink) ++ [⟨4, q, 0, 0⟩, ⟨4, d, 0, 0⟩] ++ r.1, (q, 4) :: (4, d) :: r.2)
      else
      let r := dieRoute fenced f nxt d (if back then nextLink else prevLink) fin
      (hopsOf q none (meshPath at0 (if back then prevLink else nextLink)) ++ r.1, (q, nxt) :: r.2)

/-- The way of a packet; traffic inside a cluster does not enter the mesh (R298). -/
def routeOfPkt (s : State) (p : Packet) : List Hop × List (Nat × Nat) :=
  if (clusterOfUnit p.src).isSome ∧ clusterOfUnit p.src = clusterOfUnit p.dst then ([], [])
  else dieRoute (quarterFenced s) 4 (dieOf p.src) (dieOf p.dst) (routerOf p.src) (routerOf p.dst)

/-- The plane a packet travels on (R297). -/
def planeOf (p : Packet) : Nat := (p.dst % 4).xor (p.dst / 16 % 4)

/-! ### Probes (R311, R312) -/

/-- A packet's header (R299, R300). -/
def headerOf (p : Packet) : Nat :=
  p.cls % 8 + p.op % 32 * 2 ^ 3 + (p.flits - 1) % 8 * 2 ^ 8 + p.src % 2 ^ 15 * 2 ^ 11 + p.dst % 2 ^ 15 * 2 ^ 26 +
  (match p.cls with
   | 0 => p.da % 2 ^ 48 * 2 ^ 41 + (p.len - 1) % 64 * 2 ^ 89 + p.fe % 4 * 2 ^ 95 + p.key % 2 ^ 16 * 2 ^ 97 + b2n p.sched * 2 ^ 113 +
          b2n p.panic * 2 ^ 114 + p.txn % 8 * 2 ^ 115 + p.issue % 2 ^ 10 * 2 ^ 118
   | 1 => p.da % 2 ^ 48 * 2 ^ 41 + (p.len - 1) % 64 * 2 ^ 89 + p.txn % 8 * 2 ^ 115 + p.status % 4 * 2 ^ 118
   | 3 => p.da % 2 ^ 48 * 2 ^ 41 + p.width % 2 * 2 ^ 89 + p.txn % 8 * 2 ^ 115 + p.status % 4 * 2 ^ 118
   | 4 => (p.len - 1) % 8 * 2 ^ 41
   | _ => 0)

def hasDA (p : Packet) : Bool := decide (p.cls = 0 ∨ p.cls = 1 ∨ p.cls = 3)

/-- A probe watches this hop of a packet. -/
def probeSees (s : State) (n : Nat) (h : Hop) (p : Packet) : Bool :=
  let m := fun (v val mask : Nat) => decide ((v.xor val) &&& mask = 0)
  let lo := s.rd F.NOC_PRB_DA_LO_DA n
  let hi := s.rd F.NOC_PRB_DA_HI_DA n
  s.on F.NOC_PRB_CTRL_EN n && decide (s.rd F.NOC_PRB_CTRL_ROUTER n = h.router) &&
  decide (s.rd F.NOC_PRB_CTRL_PORT n = if s.rd F.NOC_PRB_CTRL_DIR n = 0 then h.inp else h.out) &&
  decide (bit (s.rd F.NOC_PRB_CTRL_PLANES n) (planeOf p) = 1) && decide (bit (s.rd F.NOC_PRB_FILT_CLASS n) p.cls = 1) &&
  m p.op (s.rd F.NOC_PRB_FILT_OP n) (s.rd F.NOC_PRB_FILT_OP_MASK n) && m p.src (s.rd F.NOC_PRB_UNIT_SRC n) (s.rd F.NOC_PRB_UNIT_SRC_MASK n) &&
  m p.dst (s.rd F.NOC_PRB_UNIT_DST n) (s.rd F.NOC_PRB_UNIT_DST_MASK n) && ((p.panic && decide (p.cls = 0)) || !(s.on F.NOC_PRB_FILT_PANIC_ONLY n)) &&
  ((p.sched && decide (p.cls = 0)) || !(s.on F.NOC_PRB_FILT_SCHED_ONLY n)) &&
  (if hasDA p then decide (lo ≤ p.da ∧ p.da ≤ hi) else decide (lo = 0 ∧ hi = 2 ^ 48 - 1))

/-- The quarter whose trace unit takes a probe's records; those of the hub's probes go to quarter 0 (the model's choice). -/
def quarterOfProbe (n : Nat) : Nat := if n < 256 then n / 64 else 0
def localProbe (n : Nat) : Nat := if n < 256 then n % 64 else n - 256

/-- A record of a match (R312). -/
def probeRecord (s : State) (n : Nat) (h : Hop) (p : Packet) (wait : Nat) : List Nat :=
  let d := s.rd F.NOC_PRB_CTRL_DIR n
  [0x10 + localProbe n * 2 ^ 8 + h.router * 2 ^ 14 + s.rd F.NOC_PRB_CTRL_PORT n * 2 ^ 19 + d * 2 ^ 22 + b2n (Tab.get false s.noc.gap n) * 2 ^ 23 +
     planeOf p * 2 ^ 24,
   headerOf p % 2 ^ 64, headerOf p / 2 ^ 64, s.trk.ts % 2 ^ 48 + Nat.min wait 0xFFFF * 2 ^ 48]

/-- A match counts, and every 2^SAMPLE-th one leaves a record. -/
def probeMatch (s : State) (n : Nat) (h : Hop) (p : Packet) (wait : Nat) : State :=
  let v := match s.rd F.NOC_PRB_CTRL_MODE n with | 0 => 1 | 1 => p.flits | 2 => wait | _ => p.data.length
  let s := if n < 256 then s.bumpTo F.NOC_PRB_CNT_COUNT n v F.NOC_PRB_WRAP_FLAGS (n / 64) (n % 64)
    else s.wr F.NOC_PRB_CNT_COUNT n (s.rd F.NOC_PRB_CNT_COUNT n + v)
  if !(s.on F.NOC_PRB_CTRL_TRACE n) then s
  else
    let k := Tab.get 0 s.noc.sampled n + 1
    if k < 2 ^ s.rd F.NOC_PRB_CTRL_SAMPLE n then s.setNoc { s.noc with sampled := Tab.set 0 s.noc.sampled n k }
    else
      let q := quarterOfProbe n
      let r := probeRecord s n h p wait
      s.setNoc { s.noc with sampled := Tab.set 0 s.noc.sampled n 0, gap := Tab.set false s.noc.gap n false,
                            recs := Tab.set [] s.noc.recs q (Tab.get [] s.noc.recs q ++ [(n, r)]) }

/-- The probes of a hop's die. -/
def probesOf (die : Nat) : List Nat := if die < 4 then (List.range 64).map (fun i => die * 64 + i) else (List.range 16).map (fun i => 256 + i)

/-- The probes see a packet on its way, with the cycles it waits at each router; a match changes no probe's settings. -/
def seePacket (s : State) (p : Packet) (hops : List Hop) (waits : List Nat) : State :=
  (hops.zipIdx.flatMap (fun h => ((probesOf h.1.die).filter (fun n => probeSees s n h.1 p)).map (fun n => (n, h)))).foldl
    (fun s x => probeMatch s x.1 x.2.1 p (waits.getD x.2.2 0)) s

/-! ### The way of a packet (R304-R307) -/

/-- A packet is discarded as misrouted (R306, R307, R310). -/
def misroute (s : State) (q : Nat) : State := (s.bump C.NOC_MISROUTE_CNT q 1).wr F.NOC_STATUS_MISROUTE q 1
def quarterOfDie (d other : Nat) : Nat := if d < 4 then d else if other < 4 then other else 0

/-- What a packet's way makes of it: it arrives, arrives marked as an error, is lost, is held on its way, or, a request, is refused with an
error response on the way. -/
inductive Arrival where
  | ok
  | marked
  | gone
  | refused
  | held
  deriving DecidableEq, Repr

/-- A request: of the request class, or a register access. -/
def isRequest (p : Packet) : Bool := decide (p.cls = 0 ∨ (p.cls = 3 ∧ (p.op = 1 ∨ p.op = 2)))

/-- An error on a die link (R306): 1 corrected, 2 payload, 3 header. -/
def linkError (s : State) (p : Packet) (e q : Nat) : State × Arrival :=
  match e with
  | 0 => (s, .ok)
  | 1 => ((s.bump C.NOC_LINK_CE_CNT q 1).wr F.NOC_STATUS_LINK_CE q 1, .ok)
  | 2 => ((s.bump C.NOC_LINK_UE_CNT q 1).flagMC F.NOC_STATUS_LINK_UE q, if p.cls ≤ 1 then .marked else .gone)
  | _ => ((s.bump C.NOC_LINK_UE_CNT q 1).flagMC F.NOC_STATUS_LINK_UE q, .gone)

/-- The die links of a way, one after the other: each carries the packet's flits and may strike it with an error; with the number of links
that it passed whole. -/
def crossLinks (s : State) (p : Packet) : List (Nat × Nat) → List Nat → State × Arrival × Nat
  | [], _ => (s, .ok, 0)
  | (a, b) :: r, es =>
    let s := if a < 4 then s.bump C.NOC_FLIT_CNT a p.flits else s
    let e := linkError s p (es.headD 0) (quarterOfDie b a)
    if e.2 = .gone then (e.1, .gone, 0)
    else
      let t := crossLinks e.1 p r es.tail
      (t.1, if e.2 = .marked ∧ t.2.1 = .ok then .marked else t.2.1, t.2.2 + 1)

/-- The hops before the packet leaves its die for the `n`-th time, that die's last hop among them. -/
def untilLink : Nat → List Hop → List Hop
  | _, [] => []
  | _, [h] => [h]
  | n, h :: g :: r =>
    if h.die = g.die then h :: untilLink n (g :: r)
    else match n with
      | 0 => [h]
      | m + 1 => h :: untilLink m (g :: r)

/-! ### Sleeping domains (R308-R310): 0-7 clusters, 8-11 fabric port groups, 12-17 link directions of a quarter -/

/-- A domain sleeps: its bit of NOC_PWR_STAT. -/
def asleep (s : State) (q d : Nat) : Bool :=
  if d < 8 then decide (bit (s.rd F.NOC_PWR_STAT_CLUSTER q) d = 1)
  else if d < 12 then decide (bit (s.rd F.NOC_PWR_STAT_FPORT q) (d - 8) = 1)
  else decide (bit (s.rd F.NOC_PWR_STAT_LINK q) (d - 12) = 1)

def setAsleep (s : State) (q d : Nat) (v : Bool) : State :=
  let set := fun (f : Fld) i => if v then s.setBit f q i else s.clearBit f q i
  if d < 8 then set F.NOC_PWR_STAT_CLUSTER d else if d < 12 then set F.NOC_PWR_STAT_FPORT (d - 8) else set F.NOC_PWR_STAT_LINK (d - 12)

/-- The outgoing direction of the link that leads from quarter `a` to die `b`, and the incoming one at the far end. -/
def linkDomains (a b : Nat) : List (Nat × Nat) :=
  let side := fun q o => if o = 4 then 0 else if o = (q + 3) % 4 then 1 else 2
  (if a < 4 then [(a, 12 + 2 * side a b)] else []) ++ (if b < 4 then [(b, 13 + 2 * side b a)] else [])

/-- The destination's domain. -/
def endDomains (p : Packet) : List (Nat × Nat) :=
  match clusterOfUnit p.dst, fportOfUnit p.dst with
  | some c, _ => if clusterOfUnit p.src = some c then [] else [(c / 8, c % 8)]
  | none, some n => [(n / 32, 8 + n % 32 / 8)]
  | none, none => []

/-- The routers on a way, each with the domains that lie at its exit. -/
def exitsOf (p : Packet) : List Hop → List (Hop × List (Nat × Nat))
  | [] => []
  | [h] => [(h, endDomains p)]
  | h :: g :: r => (h, if h.die = g.die then [] else linkDomains h.die g.die) :: exitsOf p (g :: r)

/-- The domains that a packet meets, as (quarter, domain). -/
def domainsOf (s : State) (p : Packet) : List (Nat × Nat) := (exitsOf p (routeOfPkt s p).1).flatMap (fun x => x.2)

/-- A packet crosses an intermediate die at this router and is in its transit buffers there (R298). -/
def inTransit (p : Packet) (h : Hop) : Bool := decide (h.die ≠ dieOf p.src ∧ h.die ≠ dieOf p.dst)

/-- A waiting packet is in the buffer that `p` needs at a router: that of its input, class and plane (R303). -/
def Stall.blocks (x : Stall) (p : Packet) (h : Hop) : Bool :=
  decide (x.die = h.die ∧ x.router = h.router ∧ x.inp = h.inp ∧ x.transit = inTransit p h ∧ x.pkt.cls = p.cls ∧ planeOf x.pkt = planeOf p)

/-- Where a packet comes to wait (R309): at the boundary of a domain, or, when that holds four of its class or a packet before it waits
there, in the buffer of a router. -/
inductive Way where
  | clear
  | hold (q d : Nat)
  | stall (h : Hop)
  deriving DecidableEq, Repr

/-- Packets of a class that a boundary holds. -/
def heldIn (s : State) (d : Nat × Nat) (cls : Nat) : Nat := (s.noc.heldPkts.filter (fun h => decide (h.1 = d.1 * 32 + d.2 ∧ h.2.cls = cls))).length

def wayOf (s : State) (p : Packet) : List (Hop × List (Nat × Nat)) → Way
  | [] => .clear
  | (h, ds) :: r =>
    if s.noc.stalled.any (fun x => x.blocks p h) then .stall h
    else match ds.find? (fun d => asleep s d.1 d.2 || decide (0 < heldIn s d p.cls)) with
      | some d => if heldIn s d p.cls < 4 then .hold d.1 d.2 else .stall h
      | none => wayOf s p r

/-- Domains that carry a packet are busy now (R308, R310). -/
def markBusy (s : State) (ds : List (Nat × Nat)) : State :=
  s.setNoc { s.noc with busyAt := ds.foldl (fun t d => Tab.set 0 t (d.1 * 32 + d.2) s.trk.ts) s.noc.busyAt }

/-- A packet with a way before it crosses it: probes, die links, blocks in reset (R306, R311, R434). A baton whose cluster is in reset is
discarded there (R188). -/
def travel (s : State) (p : Packet) : State × Arrival :=
  let r := routeOfPkt s p
  let l := crossLinks (markBusy s (domainsOf s p)) p r.2 p.linkErr
  let s := seePacket l.1 p (if l.2.1 = .gone then untilLink l.2.2 r.1 else r.1) p.waits
  if l.2.1 = .gone then (s, .gone)
  else if unitDown s p.dst && !(decide (p.cls = 2 ∧ p.op = 1) && !(s.quarterDown (dieOf p.dst))) then (s, if isRequest p then .refused else .gone)
  else (s, l.2.1)

/-- A packet enters the network: it is misrouted, held on its way, or travels to its destination unit (R306, R309). -/
def carry (s : State) (p : Packet) : State × Arrival :=
  if !(unitExists p.dst) then (misroute s (quarterOfDie (dieOf p.src) (dieOf p.dst)), if isRequest p then .refused else .gone)
  else match wayOf s p (exitsOf p (routeOfPkt s p).1) with
    | .hold q d => ((s.setNoc { s.noc with heldPkts := s.noc.heldPkts ++ [(q * 32 + d, p)] }).wr F.NOC_PWR_STAT_WAKING q 1, .held)
    | .stall h => (s.setNoc { s.noc with stalled := s.noc.stalled ++ [⟨h.die, h.router, h.inp, inTransit p h, p⟩] }, .held)
    | .clear => travel s p

/-! ### The order in which waiting packets go on (R303, R305) -/

/-- The rank of a class at an output: control, sync, response, request, trace. -/
def classRank (cls : Nat) : Nat := match cls with | 3 => 0 | 2 => 1 | 1 => 2 | 0 => 3 | _ => 4

/-- A request packet in the order of R157. -/
def packetReq (p : Packet) : QReq := ⟨p.panic, p.sched, p.key, p.issue, p.src⟩

/-- Two packets keep the order of their source (R305). -/
def sameStream (p r : Packet) : Bool := decide (p.src = r.src ∧ p.dst = r.dst ∧ p.cls = r.cls)

/-- `p` passes a packet `r` that arrived before it: by class, and among requests by R157; never within one source's stream. -/
def passes (now : Nat) (p r : Packet) : Bool :=
  decide (classRank p.cls < classRank r.cls) ||
  (decide (p.cls = 0 ∧ r.cls = 0) && !(sameStream p r) && (packetReq p).before now (packetReq r))

/-- A packet takes its place before those that it passes, counted from the end. -/
def placePacket (now : Nat) (p : Packet) : List Packet → List Packet
  | [] => [p]
  | r :: l => if (r :: l).all (passes now p) then p :: r :: l else r :: placePacket now p l

/-- Waiting packets in the order in which they are served. -/
def servedOrder (now : Nat) (l : List Packet) : List Packet := l.foldl (fun a p => placePacket now p a) []

/-! ### Open requests and responses (R300, R305-R307, R331) -/

/-- A request is recorded as open at its source, if it is not already. -/
def openReq (s : State) (p : Packet) (ctl : Bool) : State :=
  let w := decide (p.cls = 0 ∧ p.op = 2) || (ctl && decide (p.op = 2))
  if s.noc.opened.any (fun o => decide (o.src = p.src ∧ o.txn = p.txn ∧ o.write = w ∧ o.ctl = ctl)) then s
  else s.setNoc { s.noc with opened := s.noc.opened ++ [⟨p.src, p.txn, w, p.dst, ctl, if w then 0 else p.len, [], false, s.trk.ts, false⟩] }

/-- A response on its way back. -/
def respond (s : State) (p : Packet) (cls op da words status : Nat) (data : List Byte) : State :=
  let r := { p with cls := cls, op := op, flits := 1, src := p.dst, dst := p.src, da := da, len := words, status := status, data := data,
                    linkErr := [], waits := [], ecc := [] }
  s.setNoc { s.noc with flight := s.noc.flight ++ [r] }

/-- Replaces or removes the open request of a response. -/
def mapOpen (s : State) (src txn : Nat) (write ctl : Bool) (f : OpenReq → Option OpenReq) : State :=
  s.setNoc { s.noc with opened := s.noc.opened.filterMap (fun o =>
    if o.src = src ∧ o.txn = txn ∧ o.write = write ∧ o.ctl = ctl then f o else some o) }

def findOpen (s : State) (src txn : Nat) (write ctl : Bool) : Option OpenReq :=
  s.noc.opened.find? (fun o => decide (o.src = src ∧ o.txn = txn ∧ o.write = write ∧ o.ctl = ctl))

/-- Outstanding reads and writes of a fabric port, and whether it is isolated with none (R331, R335). -/
def showPort (s : State) (n : Nat) : State :=
  let u := unitOfFport n
  let cnt := fun w => (s.noc.opened.filter (fun o => decide (o.src = u ∧ o.write = w ∧ o.ctl = false))).length
  let s := (s.wr F.FAB_PORT_STAT_RD_OUT n (cnt false)).wr F.FAB_PORT_STAT_WR_OUT n (cnt true)
  s.wr F.FAB_PORT_STAT_ISOLATED n (b2n (s.on F.FAB_PORT_CTRL_ISOLATE n && decide (cnt false + cnt true = 0)))

/-- The bytes that an open read has gathered, in address order. -/
def gathered (o : OpenReq) : List Byte := (o.got.foldl (fun t l => Tab.ins (Tab.erase t l.1) l.1 l.2) ([] : Tab (List Byte))).flatMap (fun l => l.2)

/-- A fabric port delivers what is complete in the order of issue (R331); an isolated port discards it (R335). -/
def deliverPort : Nat → State → Nat → Bool → State
  | 0, s, _, _ => s
  | f + 1, s, n, write =>
    let u := unitOfFport n
    match s.noc.opened.find? (fun o => decide (o.src = u ∧ o.write = write ∧ o.ctl = false)) with
    | some o =>
      if (write && o.got.isEmpty && !o.bad) || (!write && decide (0 < o.left)) then showPort s n
      else
        let s := s.setNoc { s.noc with opened := s.noc.opened.erase o }
        let data := if o.bad then none else some (gathered o)
        let s := if s.on F.FAB_PORT_CTRL_ISOLATE n then s else
          let s := s.emit (.response u o.txn data)
          if o.bad || write then s else s.bump C.FAB_RD_BYTES_CNT (n / 32) (gathered o).length
        deliverPort f s n write
    | none => showPort s n

/-- The packet of an open request enters the network. -/
def markSent (s : State) (p : Packet) (ctl : Bool) : State := mapOpen s p.src p.txn (decide (p.op = 2)) ctl (fun o => some { o with sent := true })

/-- An earlier request of the same source to the same destination has not entered the network: it goes first (R190, R278, R305). -/
def waitsBehind (s : State) (p : Packet) (ctl : Bool) : Bool :=
  (s.noc.opened.takeWhile (fun o => !(decide (o.src = p.src ∧ o.txn = p.txn ∧ o.write = decide (p.op = 2) ∧ o.ctl = ctl)))).any
    (fun o => decide (o.src = p.src ∧ o.dst = p.dst ∧ o.ctl = ctl) && !o.sent)

/-- An open request completes with an error response (R306, R307); that of a fabric port in its order. -/
def completeError (s : State) (src txn : Nat) (write ctl : Bool) : State :=
  match findOpen s src txn write ctl with
  | none => s
  | some o =>
    match (if ctl then none else fportOfUnit src) with
    | some n => deliverPort 17 (mapOpen s src txn write ctl (fun o => some { o with bad := true, left := 0 })) n write
    | none =>
      let s := (mapOpen s src txn write ctl (fun _ => none)).emit (.response src txn none)
      match (if ctl then fportOfUnit o.dst else none) with
      | some n => s.wr F.FAB_PORT_STAT_TGT_TO n 1
      | none => s

/-! ### Global addresses, routes between nodes, cells (R15, R244, R251) -/

def gaFlags (ga : Nat) : Nat := bits ga 62 2
def gaNode (ga : Nat) : Nat := bits ga 48 14
/-- The node ID of this device (R15, R256). -/
def State.node (s : State) : Nat := s.rd F.KMR_ROLE_NODE 0
/-- A global address that addresses the local device (R15). -/
def gaLocal (s : State) (ga : Nat) : Bool := decide (gaFlags ga = 1) || (decide (gaFlags ga = 0) && decide (gaNode ga = s.node))

/-- Port, channel and VALID of a class's route to a node (R251): 0 request, 1 response, 2 sync. -/
def routeOf (s : State) (node cls : Nat) : Nat × Nat × Bool :=
  if node / 128 = s.node / 128 then
    let i := node % 128
    let v := s.on F.KMR_ROUTE_MBR_VALID i
    match cls with
    | 0 => (s.rd F.KMR_ROUTE_MBR_REQ_PORT i, s.rd F.KMR_ROUTE_MBR_REQ_CH i, v)
    | 1 => (s.rd F.KMR_ROUTE_MBR_RSP_PORT i, s.rd F.KMR_ROUTE_MBR_RSP_CH i, v)
    | _ => (s.rd F.KMR_ROUTE_MBR_SYN_PORT i, s.rd F.KMR_ROUTE_MBR_SYN_CH i, v)
  else
    let i := node / 128 % 128
    let v := s.on F.KMR_ROUTE_GRP_VALID i
    match cls with
    | 0 => (s.rd F.KMR_ROUTE_GRP_REQ_PORT i, s.rd F.KMR_ROUTE_GRP_REQ_CH i, v)
    | 1 => (s.rd F.KMR_ROUTE_GRP_RSP_PORT i, s.rd F.KMR_ROUTE_GRP_RSP_CH i, v)
    | _ => (s.rd F.KMR_ROUTE_GRP_SYN_PORT i, s.rd F.KMR_ROUTE_GRP_SYN_CH i, v)

/-- The route class of a cell: ACK response, SYNC sync, and every other type the request route. -/
def cellClass (c : Cell) : Nat := if c.typ = 2 then 1 else if c.typ = 3 then 2 else 0

/-- The number in `n` bytes from byte `o` on. -/
def natAt (bs : List Byte) (o n : Nat) : Nat := ofBytesLE ((bs.drop o).take n)

/-- The 544 bytes of a cell (R244): its header and its payload. -/
def cellWire (c : Cell) : List Byte :=
  bytesLE 8 (c.seq % 2 ^ 32 + c.typ % 16 * 2 ^ 32 + c.channel % 64 * 2 ^ 36 + c.dst % 2 ^ 14 * 2 ^ 42 + c.hops % 16 * 2 ^ 56) ++
  bytesLE 8 (c.src % 2 ^ 14 + c.eng % 1024 * 2 ^ 14 + c.xslot % 8 * 2 ^ 24 + c.num % 8 * 2 ^ 27 + c.len % 64 * 2 ^ 30 + c.dfe % 4 * 2 ^ 36 +
    b2n c.last * 2 ^ 38) ++
  bytesLE 8 (c.da % 2 ^ 48) ++ bytesLE 8 (c.count % 128) ++ c.payload

/-- The cell of 544 bytes that a CELL packet carries. -/
def cellOf (bs : List Byte) (sched : Bool) : Cell :=
  let w := fun i => ofBytesLE ((bs.drop (8 * i)).take 8)
  { seq := bits (w 0) 0 32, typ := bits (w 0) 32 4, channel := bits (w 0) 36 6, dst := bits (w 0) 42 14, hops := bits (w 0) 56 4,
    src := bits (w 1) 0 14, eng := bits (w 1) 14 10, xslot := bits (w 1) 24 3, num := bits (w 1) 27 3, len := bits (w 1) 30 6,
    dfe := bits (w 1) 36 2, last := decide (bit (w 1) 38 = 1), da := bits (w 2) 0 48, count := bits (w 3) 0 7, sched := sched,
    payload := (bs.drop 32).take 512 }

/-- A CELL packet from a unit to the Kamrus port of the cell's route (R302). -/
def cellPkt (s : State) (u : Nat) (c : Cell) : Packet :=
  { cls := 0, op := 3, flits := ((cellWire c).length + 127) / 128, src := u, dst := unitOfKport (routeOf s c.dst (cellClass c)).1, da := c.da, len := 1, fe := c.dfe,
    key := 0xFFFF, sched := c.sched, panic := false, txn := 0, issue := s.trk.ts % 1024, width := 0, status := 0, data := (cellWire c), linkErr := [],
    waits := [], ecc := [], panicQueued := false, probes := [] }

/-- The remote write transfer of an engine and slot (R246): engine x 8 + slot. -/
def remoteOf (s : State) (k : Nat) : Option Remote := Tab.get none s.kmr.remote k
def setRemote (s : State) (k : Nat) (r : Option Remote) : State := { s with kmr := { s.kmr with remote := Tab.set none s.kmr.remote k r } }

/-- The units of R301 that hold memory: the scratchpad or staging buffer of a DA, the controller of its first atom, the CXL port of its
target, the PCIe port. -/
def unitOfDA (s : State) (da : Nat) : Nat :=
  match regionOf da with
  | .scratch k => k / 128 * 4096 + k % 128 * 16 + 10
  | .staging c => c / 8 * 4096 + 0x800 + c % 8
  | .hbm => (hbmLoc s da).1 / 64 * 4096 + 0x840 + (hbmLoc s da).1 % 64
  | .cxl off => 0x4002 + (match cxlWindows s off with | w :: _ => bits (s.rd F.CXL_WIN_TGT_TARGETS w) (8 * cxlTarget s w off) 4 / 8 | [] => 0)
  | _ => 0x4001

/-- The probes and links on its way see a packet that another command has carried. -/
def passBy (s : State) (p : Packet) : State := if unitExists p.dst then (travel s p).1 else s

end Sys2Proof.Machine
end

