-- ==== Sys2Proof/Machine/Stream.lean ====
section
/-!
DEFINITION. Stream engines (chapter 06): descriptor sets, the check and the walk of a descriptor, transfers, lines,
urgency and panic, translation faults, stops and checkpoints. A position in a walk is walk step x 2^24 + offset in the run.
-/
namespace Sys2Proof.Machine

/-! ### Descriptors (R148) -/

/-- The sixteen words of a descriptor. -/
abbrev Dsc := List Nat

def Dsc.src (d : Dsc) : Nat := d.getD 0 0
def Dsc.dst (d : Dsc) : Nat := d.getD 1 0
def Dsc.len0 (d : Dsc) : Nat := bits (d.getD 2 0) 0 24
/-- Counts of dimensions 1 to 4. -/
def Dsc.c (d : Dsc) (k : Nat) : Nat :=
  match k with
  | 1 => bits (d.getD 2 0) 32 16
  | 2 => bits (d.getD 2 0) 48 16
  | 3 => bits (d.getD 3 0) 0 16
  | _ => bits (d.getD 3 0) 16 16
def Dsc.mode (d : Dsc) : Nat := bits (d.getD 3 0) 32 2
def Dsc.sfe (d : Dsc) : Nat := bits (d.getD 3 0) 34 2
def Dsc.dfe (d : Dsc) : Nat := bits (d.getD 3 0) 36 2
def Dsc.hen (d : Dsc) : Bool := decide (bit (d.getD 3 0) 38 = 1)
def Dsc.hur (d : Dsc) : Nat := bits (d.getD 3 0) 39 11
/-- Strides of dimensions 1 to 4. -/
def Dsc.ss (d : Dsc) (k : Nat) : Int := sext 48 (d.getD (3 + k) 0)
def Dsc.ds (d : Dsc) (k : Nat) : Int := sext 48 (d.getD (7 + k) 0)
def Dsc.dlAngle (d : Dsc) : Nat := bits (d.getD 12 0) 0 32
def Dsc.dlTrk (d : Dsc) : Nat := bits (d.getD 12 0) 32 3
def Dsc.dlEn (d : Dsc) : Bool := decide (bit (d.getD 12 0) 35 = 1)
def Dsc.dlRel (d : Dsc) : Bool := decide (bit (d.getD 12 0) 36 = 1)
def Dsc.dlLap (d : Dsc) : Nat := bits (d.getD 13 0) 0 64
def Dsc.idxDA (d : Dsc) : Nat := bits (d.getD 14 0) 0 48
/-- Bytes of an index entry. -/
def Dsc.idxW (d : Dsc) : Nat := if bit (d.getD 14 0) 48 = 1 then 2 else 4
def Dsc.ife (d : Dsc) : Nat := bits (d.getD 14 0) 49 2
def Dsc.idxLimit (d : Dsc) : Nat := bits (d.getD 15 0) 0 32
def Dsc.tag (d : Dsc) : Nat := bits (d.getD 15 0) 32 16
/-- Walk steps of a descriptor (R150). -/
def Dsc.steps (d : Dsc) : Nat := d.c 1 * d.c 2 * d.c 3 * d.c 4
def Dsc.bytes (d : Dsc) : Nat := d.len0 * d.steps
/-- Indices of dimensions 1 to 4 at walk step `n`. -/
def Dsc.ix (d : Dsc) (n k : Nat) : Nat :=
  match k with
  | 1 => n % d.c 1
  | 2 => n / d.c 1 % d.c 2
  | 3 => n / d.c 1 / d.c 2 % d.c 3
  | _ => n / d.c 1 / d.c 2 / d.c 3

/-- A global address moved by a byte offset: its DA wraps, flags and node stay. -/
def gaAdd (ga : Nat) (o : Int) : Nat := ga / 2 ^ 48 * 2 ^ 48 + wrapInt 48 (((ga % 2 ^ 48 : Nat) : Int) + o)

/-- Source of walk step `n`, whose row number is `r` (R150). -/
def Dsc.srcAt (d : Dsc) (n r : Nat) : Nat :=
  gaAdd d.src ((r : Int) * d.ss 1 + d.ix n 2 * d.ss 2 + d.ix n 3 * d.ss 3 + d.ix n 4 * d.ss 4)
/-- Destination of walk step `n` (R150). -/
def Dsc.dstAt (d : Dsc) (n : Nat) : Nat :=
  gaAdd d.dst ((d.ix n 1 : Int) * d.ds 1 + d.ix n 2 * d.ds 2 + d.ix n 3 * d.ds 3 + d.ix n 4 * d.ds 4)

/-- Row number of walk step `n`: i1 in COPY mode, else the entry of the index list. -/
def Dsc.row (d : Dsc) (entries : List Nat) (n : Nat) : Nat := if d.mode = 0 then d.ix n 1 else entries.getD n 0

/-- Reserved codes and reserved bits of a descriptor. -/
def Dsc.reservedUsed (d : Dsc) : Bool :=
  decide (d.mode = 3 ∨ d.sfe = 3 ∨ d.dfe = 3 ∨ d.ife = 3) ||
  decide (bits (d.getD 2 0) 24 8 ≠ 0 ∨ bits (d.getD 3 0) 50 14 ≠ 0 ∨ bits (d.getD 12 0) 37 27 ≠ 0 ∨ bits (d.getD 14 0) 51 13 ≠ 0 ∨
    bits (d.getD 15 0) 48 16 ≠ 0) ||
  (List.range 8).any (fun k => decide (bits (d.getD (4 + k) 0) 48 16 ≠ 0)) || decide (1 < gaFlags d.src ∨ 1 < gaFlags d.dst)

/-- `i` is a multiple of `m`. -/
def mulOf (m : Nat) (i : Int) : Bool := decide (i % (m : Int) = 0)

/-- Alignment of addresses, length and strides (R149, R154). -/
def Dsc.misaligned (d : Dsc) : Bool :=
  if d.mode = 2 then
    let e := d.len0
    !([1, 2, 4, 8].contains e) || decide (d.ds 1 ≠ (e : Int)) || decide (d.dst % 8 ≠ 0) || decide (d.c 1 * e % 8 ≠ 0) ||
    decide (d.src % e ≠ 0) || !(mulOf e (d.ss 1)) ||
    [2, 3, 4].any (fun k => decide (1 < d.c k) && (!(mulOf e (d.ss k)) || !(mulOf 8 (d.ds k))))
  else
    decide (d.src % 8 ≠ 0 ∨ d.dst % 8 ≠ 0 ∨ d.len0 % 8 ≠ 0) ||
    [1, 2, 3, 4].any (fun k => decide (1 < d.c k) && (!(mulOf 8 (d.ss k)) || !(mulOf 8 (d.ds k))))

/-- The index list lies in the scratchpad of core `k` or in the staging buffer of its cluster (R155). -/
def Dsc.indexPlaced (d : Dsc) (k : Nat) : Bool :=
  let n := d.steps * d.idxW
  (decide (scratchBase + k * 0x100000 ≤ d.idxDA) && decide (d.idxDA + n ≤ scratchBase + (k + 1) * 0x100000)) ||
  (decide (stagingBase + k / 16 * 0x200000 ≤ d.idxDA) && decide (d.idxDA + n ≤ stagingBase + (k / 16 + 1) * 0x200000))

/-- The check of a descriptor before its first transfer (R149), but for the overlap of its first runs. -/
def Dsc.fails (s : State) (k : Nat) (d : Dsc) : Bool :=
  d.reservedUsed || !(gaLocal s d.src) || decide (regionOf (gaDA d.dst) = .hole) ||
  decide (d.len0 = 0 ∨ d.c 1 = 0 ∨ d.c 2 = 0 ∨ d.c 3 = 0 ∨ d.c 4 = 0) || d.misaligned || (decide (d.mode ≠ 0) && !(d.indexPlaced k))

/-- The first destination run overlaps the first source run (R149). -/
def Dsc.overlaps (s : State) (d : Dsc) (entries : List Nat) : Bool :=
  gaLocal s d.dst && decide (0 < overlapLen (gaDA (d.srcAt 0 (d.row entries 0))) d.len0 (gaDA (d.dstAt 0)) d.len0)

/-! ### Transfers of a walk (R150, R153, R154) -/

def posStep (p : Nat) : Nat := p / 2 ^ 24
def posOff (p : Nat) : Nat := p % 2 ^ 24

/-- The transfer of a run at a position: its piece, cut at 4 KiB boundaries of both sides, and the position after it. -/
def Dsc.runPiece (d : Dsc) (entries : List Nat) (p : Nat) : (Nat × Nat × Nat) × Nat :=
  let n := posStep p
  let o := posOff p
  let a := gaAdd (d.srcAt n (d.row entries n)) o
  let b := gaAdd (d.dstAt n) o
  let len := Nat.min (d.len0 - o) (Nat.min (4096 - a % 4096) (4096 - b % 4096))
  ((a, b, len), if o + len < d.len0 then p + len else (n + 1) * 2 ^ 24)

/-- The elements from step `n` on that lie in the 64-byte block `blk` of the source. -/
def Dsc.gathered (d : Dsc) (entries : List Nat) (blk : Nat) : Nat → Nat → List (Nat × Nat × Nat)
  | 0, _ => []
  | f + 1, n =>
    if n < d.steps ∧ n < entries.length ∧ entries.getD n 0 < d.idxLimit ∧ d.srcAt n (entries.getD n 0) / 64 = blk then
      (d.srcAt n (entries.getD n 0), d.dstAt n, d.len0) :: d.gathered entries blk f (n + 1)
    else []

/-- Pieces of the transfer at a position, and the position after it. -/
def Dsc.piece (d : Dsc) (entries : List Nat) (p : Nat) : List (Nat × Nat × Nat) × Nat :=
  if d.mode = 2 then
    let n := posStep p
    let l := d.gathered entries (d.srcAt n (entries.getD n 0) / 64) (entries.length + 1) n
    (l, (n + l.length) * 2 ^ 24)
  else let r := d.runPiece entries p; ([r.1], r.2)

/-! ### Engines and sets -/

def State.setStream (s : State) (g : Nat) (x : Stream) : State := { s with streams := Tab.set Stream.idle s.streams g x }
def Stream.get (x : Stream) (k : Nat) : StmSet := if k = 0 then x.set0 else x.set1
def Stream.put (x : Stream) (k : Nat) (a : StmSet) : Stream := if k = 0 then { x with set0 := a } else { x with set1 := a }
def State.stmSet (s : State) (g k : Nat) : StmSet := (s.stream g).get k
def State.setStmSet (s : State) (g k : Nat) (a : StmSet) : State := s.setStream g ((s.stream g).put k a)
def coreOfStream (g : Nat) : Nat := g / 2
def StmSet.dsc (a : StmSet) (d : Nat) : Dsc := a.descs.getD d []
def StmSet.ents (a : StmSet) (d : Nat) : List Nat := Tab.get [] a.entries d

/-- The fields of STM_STATUS and STM_SETs that show the sets (R170); those of a set that has ended stay as they were, and NEXT stays at
the last descriptor once it has issued. -/
def stmShow (s : State) (g : Nat) : State :=
  let x := s.stream g
  let s := (s.wr F.STM_STATUS_ARMED g (b2n x.set0.armed + 2 * b2n x.set1.armed)).wr F.STM_STATUS_BUSY g (b2n (x.set0.armed || x.set1.armed))
  let s := s.wr F.STM_STATUS_RUN_SET g (x.order.headD (s.rd F.STM_STATUS_RUN_SET g))
  let s := if x.set0.armed then ((s.wr F.STM_SET0_LIST_DA g x.set0.list).wr F.STM_SET0_COUNT g x.set0.count).wr F.STM_SET0_NEXT g (Nat.min x.set0.next x.set0.count) else s
  let s := if x.set1.armed then ((s.wr F.STM_SET1_LIST_DA g x.set1.list).wr F.STM_SET1_COUNT g x.set1.count).wr F.STM_SET1_NEXT g (Nat.min x.set1.next x.set1.count) else s
  let s := s.wr F.STM_STATUS_PANIC g (b2n (!(x.set0.panics.isEmpty) || !(x.set1.panics.isEmpty)))
  if x.stopped.isSome then s
  else s.wr F.STM_STATUS_STATE g (b2n ((x.set0.armed && !x.set0.abandoned) || (x.set1.armed && !x.set1.abandoned)))

/-- An access of a stream engine to on-chip words in a full/empty mode (R173): performed now, or recorded as waiting. -/
def streamTry (s : State) (g k mode : Nat) (store : Bool) (ws : List Nat) : State × Bool :=
  let who := Agent.stream g k
  if mayAccess s (waitersBefore who ws s.sync.waiters) mode store ws then (s.dropWaiter who ws, true)
  else if s.sync.waiters.any (fun w => decide (w.who = who) && decide (w.words = ws)) then (s, false)
  else (s.addWaiter ⟨who, mode, store, ws⟩, false)

/-- A failure is recorded, the first in walk order standing (R164); a set that was abandoned stops no more (R165). -/
def setFail (s : State) (g k : Nat) (f : StmFail) : State :=
  let a := s.stmSet g k
  if a.abandoned then s
  else match a.fail with
  | some e => if e.desc < f.desc ∨ (e.desc = f.desc ∧ e.pos ≤ f.pos) then s else s.setStmSet g k { a with fail := some f }
  | none => s.setStmSet g k { a with fail := some f }

/-! ### Arming and reading descriptors (R145-R147) -/

/-- Words of descriptors in a list of bytes. -/
def dscsOf : Nat → List Byte → List Dsc
  | 0, _ => []
  | n + 1, bs => (List.range 16).map (fun k => ofBytesLE ((bs.drop (8 * k)).take 8)) :: dscsOf n (bs.drop 128)

/-- The descriptor list may be read (R147): on a 128-byte boundary, in a place of R47 or in HBM. -/
def listPlaced (k list n : Nat) : Bool :=
  decide (list % 128 = 0) && (inPlaces (clusterOfCore k) list (128 * n) || (decide (regionOf list = .hbm) && decide (regionOf (list + 128 * n - 1) = .hbm)))

/-- Reads the burst of descriptors that begins at descriptor `8 * b`; an error response leaves it unread. -/
def readBurst (s : State) (g k b : Nat) : State :=
  let a := s.stmSet g k
  let n := Nat.min 8 (a.count + 1 - 8 * b)
  if a.descs.length ≠ 8 * b ∨ n = 0 then s
  else
    let r := memRead s (a.list + 1024 * b) (128 * n) Around.quiet
    match r.2 with
    | none => r.1
    | some bs => r.1.setStmSet g k { r.1.stmSet g k with descs := a.descs ++ dscsOf n bs }

/-- STREAM (R145): arms a set, or waits with WAIT_ON 0x2 while it is armed. -/
def streamEff (s : State) (q w : Nat) : State :=
  let core := coreOfQueue q
  let g := core * 2 + bit w 32
  let k := bit w 46
  let list := bits (s.sreg q (bits w 33 5)) 0 48
  let count := bits w 38 8
  if (s.stmSet g k).armed then s.holdHead q 0x2 .plain
  else
    let s := s.countIssue q
    let a := { StmSet.idle with armed := true, list := list, count := count, queue := q, laps := (List.range 8).map s.lap }
    let x := (s.stream g).put k a
    let s := s.setStream g { x with order := x.order ++ [k], older := if (x.get (1 - k)).armed then 1 - k else k }
    let s := if listPlaced core list (count + 1) then readBurst s g k 0 else s
    (stmShow s g).doneHead q

/-! ### Urgency and panic (R156-R159) -/

/-- The position of a descriptor's finish line. -/
def finishOf (a : StmSet) (d : Dsc) : Nat × Nat :=
  (if d.dlRel then (a.laps.getD d.dlTrk 0 + d.dlLap) % 2 ^ 64 else d.dlLap, d.dlAngle)

/-- Bytes of descriptor `j` that are not yet issued. -/
def bytesLeft (a : StmSet) (j : Nat) : Nat :=
  let d := a.dsc j
  if j < a.next then 0
  else if a.next < j then d.bytes
  else d.bytes - (posStep a.pos * d.len0 + posOff a.pos)

/-- Urgency U of descriptor `j` (R156). -/
def urgency (s : State) (g : Nat) (a : StmSet) (j : Nat) : Int :=
  let d := a.dsc j
  let f := finishOf a d
  (timeLeft s d.dlTrk f.1 f.2 : Int) - (ceilDiv (bytesLeft a j) (s.rd F.STM_CTRL_RATE g) : Nat)

/-- The urgency key (R156, R159): 0 for a late descriptor and while the track is stalled. -/
def urgencyKey (s : State) (a : StmSet) (j : Nat) (u : Int) : Nat :=
  let d := a.dsc j
  if !(d.dlEn) then 0xFFFF
  else if a.late.contains j || decide (s.trkState d.dlTrk = trkSTALLED) then 0
  else if u < 0 then 0 else Nat.min (u.toNat / 16) 0xFFFE

/-- The urgency as STM_URGENCY shows it. -/
def showU (u : Int) : Nat := wrapInt 32 (if u < -(2 ^ 31 : Int) then -(2 ^ 31 : Int) else if (2 ^ 31 : Int) ≤ u then 2 ^ 31 - 1 else u)

/-- Whether descriptor `j` has panic raised after its urgency is `u` (R158, R159). -/
def panicNow (s : State) (g : Nat) (a : StmSet) (j : Nat) (u : Int) : Bool :=
  let d := a.dsc j
  if !(s.on F.STM_STATUS_SCHED g) || !(s.on F.STM_CTRL_PANIC_EN g) || !(d.dlEn) || decide (s.trkState d.dlTrk = trkSTALLED) then false
  else if a.late.contains j then true
  else
    let th := (s.rd F.STM_CTRL_PANIC_TH g : Int)
    decide (u ≤ th) || (a.panics.contains j && !(decide (th + 1024 < u)))

/-- URGENCY_UPDATE of a descriptor that is running. -/
def urgencyUpdate (s : State) (g k j : Nat) : State :=
  let a := s.stmSet g k
  if !(a.armed) || decide (a.count < j) || decide (a.descs.length ≤ j) || a.doneDescs.contains j then s
  else
    let u := urgency s g a j
    let key := urgencyKey s a j u
    let panics := if panicNow s g a j u then (if a.panics.contains j then a.panics else a.panics ++ [j]) else a.panics.filter (fun i => decide (i ≠ j))
    let s := s.setStmSet g k { a with panics := panics }
    let s := if (s.stream g).order.head? = some k ∧ j = a.next then (s.wr F.STM_URGENCY_KEY g key).wr F.STM_URGENCY_U g (if (a.dsc j).dlEn then showU u else 0) else s
    stmShow s g

/-- Descriptor `j` has begun to issue and has not completed. -/
def dscRunning (a : StmSet) (j : Nat) : Bool :=
  a.armed && decide (j < a.descs.length) && !(a.doneDescs.contains j) && (decide (j < a.next) || (decide (j = a.next) && decide (0 < a.pos)))

/-- STREAM_LATE (R159, R213). -/
def streamLate (s : State) (g k j : Nat) : State :=
  let a := s.stmSet g k
  let d := a.dsc j
  let f := finishOf a d
  let t := d.dlTrk
  if !(dscRunning a j) || !(d.dlEn) || a.late.contains j || decide (s.trkState t = trkSTALLED) || decide (s.position t < posOf f.1 f.2) then s
  else
    let s := s.setStmSet g k { a with late := a.late ++ [j] }
    let s := urgencyUpdate (s.flagMC F.STM_STATUS_LATE g) g k j
    lateRecord s t (streamRecord s g f.1 f.2 t d.tag)

/-! ### Translation (R160, R290, R395) -/

/-- What translation says of one side of a transfer: known (with the page pair it uses), not known yet, or failed. -/
inductive SideX where
  | known (xl : List (Nat × Nat))
  | unknown
  | fault
  deriving DecidableEq, Repr

/-- The host page of a DA in the host window (R395). -/
def hostPage (da : Nat) : Nat := (da - hostBase) / 4096

/-- Looks one local address up. -/
def translateSide (s : State) (da : Nat) (write : Bool) : State × SideX :=
  match regionOf da with
  | .cxl off =>
    let r := cxlTranslate s off write
    match r.2 with
    | .at o => (r.1, .known (if o = off then [] else [(da / 2 ^ 21, (cxlBase + o) / 2 ^ 21)]))
    | .fault => (r.1, .fault)
    | .error => (r.1, .known [])
  | .host =>
    if !(s.on F.PCI_STATUS_ATS_EN 0) then (s, .known [])
    else if s.pci.atc.any (fun e => decide (e.page = hostPage da) && (e.write || !write)) then (s, .known [])
    else (s, .unknown)
  | _ => (s, .known [])

/-- Looks up every address of a transfer's pieces, source before destination. -/
def translateParts (s : State) : List (Nat × Nat × Nat) → State × SideX
  | [] => (s, .known [])
  | (a, b, _) :: r =>
    let x := translateSide s (gaDA a) false
    match x.2 with
    | .known l1 =>
      let y := if gaLocal s b then translateSide x.1 (gaDA b) true else (x.1, .known [])
      match y.2 with
      | .known l2 =>
        let z := translateParts y.1 r
        (z.1, match z.2 with | .known l3 => .known (l1 ++ l2 ++ l3) | o => o)
      | o => (y.1, o)
    | o => (x.1, o)

/-- The first address of a transfer whose translation is not known, and whether it is written. -/
def unknownAddr (s : State) : List (Nat × Nat × Nat) → Option (Nat × Bool)
  | [] => none
  | (a, b, _) :: r =>
    match (translateSide s (gaDA a) false).2 with
    | .known _ =>
      if gaLocal s b then
        match (translateSide s (gaDA b) true).2 with
        | .known _ => unknownAddr s r
        | _ => some (b, true)
      else unknownAddr s r
    | _ => some (a, false)

/-- A translation request is sent to the host, once. -/
def askHost (s : State) (page : Nat) : State :=
  if s.pci.asked.contains page then s
  else ({ s with pci := { s.pci with asked := s.pci.asked ++ [page] } } : State).bump C.PCI_ATS_REQ_CNT 0 1 |>.emit (.atsRequest page)

/-! ### Issuing transfers (R144, R146, R149, R155) -/

def readsOut (a : StmSet) : Nat := (a.issued.filter (fun x => decide (x.st = .reading))).length

/-- The engine may issue: enabled, not stopped, suspended or failing, and fewer than 8 reads are outstanding. -/
def mayIssue (s : State) (g : Nat) : Bool :=
  let x := s.stream g
  s.on F.STM_CTRL_EN g && !(s.coreDown (coreOfStream g)) && !(x.suspended) && x.stopped.isNone && x.set0.fail.isNone && x.set1.fail.isNone &&
  decide (readsOut x.set0 + readsOut x.set1 < 8)

/-- Entries are read 8 at a time in the full/empty mode of IFE (R155): the next eight of descriptor `j`. -/
def readEntries (s : State) (g k j : Nat) : State :=
  let a := s.stmSet g k
  let d := a.dsc j
  let es := a.ents j
  let n := Nat.min 8 (d.steps - es.length)
  let da := d.idxDA + es.length * d.idxW
  let ws := wordsOf da (n * d.idxW)
  if n = 0 || ws.any (fun w => padBusy s (w * 8)) then s
  else if memDown s ws then setFail s g k ⟨0x5, j, es.length * 2 ^ 24, 2 ^ 62 + da, s.trk.ts⟩
  else
    let r := streamTry s g k d.ife false ws
    if !r.2 then r.1
    else
      let vals := (List.range n).map (fun i => readNat r.1.sram (da + i * d.idxW) d.idxW)
      let s := feLeave r.1 d.ife false (wholeWords da (n * d.idxW))
      s.setStmSet g k { s.stmSet g k with entries := Tab.set [] a.entries j (es ++ vals) }

/-- The entries that the next transfer needs are read: its own, and in GATHER the one that ends its block. -/
def entriesReady (a : StmSet) (j p : Nat) : Bool :=
  let d := a.dsc j
  let es := a.ents j
  let n := posStep p
  if d.mode = 0 then true
  else if d.mode = 1 then decide (n < es.length)
  else decide (es.length = d.steps) || (decide (n < es.length) && decide (posStep (d.piece es p).2 < es.length))

/-- The walk moves on to a position; at its end the next descriptor, or none, issues next (R146). -/
def walkTo (s : State) (g k j p : Nat) : State :=
  let a := s.stmSet g k
  if posStep p < (a.dsc j).steps then s.setStmSet g k { a with pos := p }
  else
    let s := s.setStmSet g k { a with next := j + 1, pos := 0 }
    if j + 1 ≤ a.count then s else s.setStream g { s.stream g with order := (s.stream g).order.filter (fun i => decide (i ≠ k)) }

/-- What the request of a transfer of descriptor `j` carries at its issue (R157). -/
def tagOf (s : State) (g k j : Nat) (i : Issued) : Issued :=
  let a := s.stmSet g k
  { i with key := urgencyKey s a j (urgency s g a j), sched := s.on F.STM_STATUS_SCHED g, panic := a.panics.contains j, time := s.trk.ts }

/-- A transfer whose translation is known issues: its request reaches its destination and wakes the pseudo-channels it names (R281). -/
def putIssued (s : State) (g k j p : Nat) (parts : List (Nat × Nat × Nat)) (after : Nat) (xl : List (Nat × Nat)) : State :=
  let s := urgencyUpdate (walkTo s g k j after) g k j
  let a := s.stmSet g k
  let i := tagOf s g k j ⟨j, p, after, parts, xl, .reading, [], 0, false, false, 0⟩
  (((i.dests s).filter (fun d => decide (d < 256))).foldl wakePc s).setStmSet g k { a with issued := a.issued ++ [i] }

/-- The next transfer of the set that runs. -/
def issueNext (s : State) (g k j p : Nat) : State :=
  let a := s.stmSet g k
  let d := a.dsc j
  let es := a.ents j
  let free := s.fresh
  if p = 0 && d.fails s (coreOfStream g) then setFail free.2 g k ⟨0x1, j, p, free.1 % 2 ^ 64, s.trk.ts⟩
  else if !(entriesReady a j p) then readEntries s g k j
  else if d.mode ≠ 0 ∧ d.idxLimit ≤ es.getD (posStep p) 0 then setFail free.2 g k ⟨0x2, j, p, free.1 % 2 ^ 64, s.trk.ts⟩
  else if p = 0 && d.overlaps s es then setFail free.2 g k ⟨0x1, j, p, free.1 % 2 ^ 64, s.trk.ts⟩
  else
    let x := d.piece es p
    match a.issued.find? (fun i => decide (i.desc = j ∧ i.pos = p)) with
    | some i => walkTo s g k j i.after
    | none =>
      let r := translateParts s x.1
      match r.2 with
      | .known xl => putIssued r.1 g k j p x.1 x.2 xl
      | .fault => r.1
      | .unknown => match unknownAddr s x.1 with
        | some u => askHost r.1 (hostPage (gaDA u.1))
        | none => r.1

/-- TRANSFER_ISSUE: the engine reads the burst ahead when the first descriptor of a burst begins (R147), checks the
descriptor, reads index entries, and issues the next transfer. A descriptor that has completed is passed over (R162). -/
def transferIssue (s : State) (g : Nat) : State :=
  if !(mayIssue s g) then s
  else match (s.stream g).order.head? with
  | none => s
  | some k =>
    let a := s.stmSet g k
    let j := a.next
    if a.doneDescs.contains j then stmShow (walkTo s g k j ((a.dsc j).steps * 2 ^ 24)) g
    else if !(listPlaced (coreOfStream g) a.list (a.count + 1)) then
      let f := s.fresh
      setFail f.2 g k ⟨0x1, j, 0, f.1 % 2 ^ 64, s.trk.ts⟩
    else
      let s := if a.descs.length ≤ j then readBurst s g k (j / 8) else s
      if (s.stmSet g k).descs.length ≤ j then setFail s g k ⟨0x5, j, 0, 2 ^ 62 + a.list + 128 * j, s.trk.ts⟩
      else
        let s := if j % 8 = 0 ∧ a.pos = 0 then readBurst s g k (j / 8 + 1) else s
        stmShow (issueNext s g k j a.pos) g

/-! ### Reads (R144, R172) -/

/-- Replaces the issued transfer at a position. -/
def setIssued (s : State) (g k j p : Nat) (f : Issued → Issued) : State :=
  let a := s.stmSet g k
  s.setStmSet g k { a with issued := a.issued.map (fun i => if i.desc = j ∧ i.pos = p then f i else i) }

def onChip (da : Nat) : Bool := (clusterOfDA da).isSome

/-- The lines that a write transfer to another node has sent count as not delivered when it is answered with an error (R164). -/
def withdrawLines (s : State) (g k : Nat) (i : Issued) : State :=
  let a := s.stmSet g k
  if gaLocal s (a.dsc i.desc).dst then s
  else s.setStmSet g k { a with lines := a.lines.filter (fun l => !(decide (l.1 = i.desc) &&
    i.parts.any (fun x => decide (x.2.1 / 128 ≤ l.2 ∧ l.2 ≤ (x.2.1 + x.2.2 - 1) / 128)))) }

/-- An issued transfer fails. -/
def failTransfer (s : State) (g k cause : Nat) (i : Issued) : State :=
  let s := withdrawLines s g k i
  let addr := match i.parts with | (a, b, _) :: _ => if cause = 0x6 then b else a | [] => 0
  setFail (setIssued s g k i.desc i.pos (fun i => { i with st := .failed cause, bytes := [] })) g k ⟨cause, i.desc, i.pos, addr, s.trk.ts⟩

/-- Reads the pieces of a transfer from memory that has no full/empty bits; the outcomes of error correction are by atom of the pieces. -/
def readParts (s : State) (xl : List (Nat × Nat)) (ext : List Byte) (ecc : List Nat) (panic : Bool) :
    List (Nat × Nat × Nat) → State × Option (List (List Byte))
  | [] => (s, some [])
  | (a, _, n) :: r =>
    let x := memRead s (underXl xl (gaDA a)) n ⟨ext.take n, ecc, panic⟩
    let y := readParts x.1 xl (ext.drop n) (ecc.drop (atomsOf (gaDA a) n).length) panic r
    (y.1, match x.2, y.2 with | some b, some l => some (b :: l) | _, _ => none)

/-- What a destination gives a read when it serves it: the bytes as they stand, if the source has no full/empty wait. -/
def servedBytes (s : State) (mode : Nat) (i : Issued) : Option (List (List Byte)) :=
  match i.parts with
  | [] => none
  | (src, _, _) :: _ =>
    match regionOf (gaDA src) with
    | .host => none
    | .scratch _ => if mode = 0 ∧ i.parts.all (fun x => !(memDown s (wordsOf (gaDA x.1) x.2.2))) then some (i.parts.map (fun x => readBytes s.sram (gaDA x.1) x.2.2)) else none
    | .staging _ => if mode = 0 ∧ i.parts.all (fun x => !(memDown s (wordsOf (gaDA x.1) x.2.2))) then some (i.parts.map (fun x => readBytes s.sram (gaDA x.1) x.2.2)) else none
    | _ => (readParts s i.xl [] [] false i.parts).2

/-- A destination serves a waiting read: the transfer keeps the bytes, and completes by its own event. -/
def serveOpen (s : State) (r : OpenRead) : State :=
  match servedBytes s ((s.stmSet r.eng r.set).dsc r.x.desc).sfe r.x with
  | some bs => setIssued s r.eng r.set r.x.desc r.x.pos (fun i => { i with bytes := bs })
  | none => s

/-- Before a request is served at destinations `ds`, those served that stand before it there: requests of the same engine that
issued earlier (R190, R278), and those that the order of R157 puts first. -/
def serveBefore (s : State) (ds : List Nat) (q : QReq) (earlier : OpenRead → Bool) : State :=
  ((openReads s).filter (fun r => (earlier r || r.req.before s.trk.ts q) && (r.x.dests s).any (fun d => ds.contains d))).foldl serveOpen s

/-- READ_TRANSFER_COMPLETE: the read is served, if it has not been, and its bytes enter the buffer. -/
def readComplete (s : State) (g k j p : Nat) (ext : List Byte) (ecc : List Nat) : State :=
  match (s.stmSet g k).issued.find? (fun i => decide (i.desc = j ∧ i.pos = p ∧ i.st = .reading)) with
  | none => s
  | some i =>
    let q := i.req g (s.stmSet g k)
    let s := if i.bytes.isEmpty then serveBefore s (i.dests s) q (fun r => decide (r.eng = g) && (if r.set = k then decide (r.x.desc < j ∨ (r.x.desc = j ∧ r.x.pos < p)) else decide (r.set = (s.stream g).older))) else s
    let d := (s.stmSet g k).dsc j
    let total := (i.parts.map (fun x => x.2.2)).sum
    let done := fun (s : State) (bs : List (List Byte)) =>
      (setIssued s g k j p (fun x => { x with st := .held, bytes := if x.bytes.isEmpty then bs else x.bytes })).bump C.STM_RD_BYTES_CNT g total
    match i.parts with
    | [] => s
    | (src, _, _) :: _ =>
      if onChip (gaDA src) then
        let ws := (i.parts.flatMap (fun x => wordsOf (gaDA x.1) x.2.2)).eraseDups
        if ws.any (fun w => padBusy s (w * 8)) then s
        else if memDown s ws || i.parts.any (fun x => !(onChip (gaDA x.1 + x.2.2 - 1))) then failTransfer s g k 0x5 i
        else
          let r := streamTry s g k d.sfe false ws
          if !r.2 then r.1
          else
            let bs := i.parts.map (fun x => readBytes r.1.sram (gaDA x.1) x.2.2)
            done (feLeave r.1 d.sfe false (i.parts.flatMap (fun x => wholeWords (gaDA x.1) x.2.2))) bs
      else
        let r := readParts s i.xl ext ecc q.panic i.parts
        match r.2 with
        | none => failTransfer r.1 g k 0x5 i
        | some bs => done r.1 bs

/-! ### Lines (R151, R154) -/

/-- What issued transfers have for walk step `n` at destination address `b`: nothing yet, a byte that has been read, or a byte that
has been written (R151: data words are written without their full bits). -/
def heldByte (xs : List Issued) (n b : Nat) : Option (Option Byte) :=
  xs.findSome? (fun i =>
    if i.st = .reading ∨ n < posStep i.pos ∨ i.after ≤ n * 2 ^ 24 then none
    else if i.st = .acked then (if i.parts.any (fun x => decide (x.2.1 ≤ b ∧ b < x.2.1 + x.2.2)) then some none else none)
    else (i.parts.zip i.bytes).findSome? (fun x =>
      if x.1.2.1 ≤ b ∧ b < x.1.2.1 + x.1.2.2 then (x.2[b - x.1.2.1]?).map some else none))

/-- Walk steps that write in a line. -/
def lineSteps (d : Dsc) (line : Nat) : List Nat := (List.range d.steps).filter (fun n => decide (0 < overlapLen (d.dstAt n) d.len0 (line * 128) 128))

/-- The bytes that step `n` writes in a line: its addresses there that do not lie before the point of a restore. -/
def stepBytes (a : StmSet) (j line n : Nat) : List Nat :=
  let d := a.dsc j
  ((List.range 128).map (fun i => line * 128 + i)).filter (fun b =>
    decide (d.dstAt n ≤ b ∧ b < d.dstAt n + d.len0) &&
    !(decide (j < a.base.1) || (decide (j = a.base.1) && decide (n * 2 ^ 24 + (b - d.dstAt n) < a.base.2))))

/-- What each step writes in a line, with what has become of it. -/
def lineCells (a : StmSet) (j line : Nat) : List (Nat × Option (Option Byte)) :=
  (lineSteps (a.dsc j) line).flatMap (fun n => (stepBytes a j line n).map (fun b => (b, heldByte (a.issued.filter (fun i => decide (i.desc = j))) n b)))

/-- The bytes of a line that are still to be written, by rising address, and how many the transfers bring; none while a transfer of
the line has not been read. -/
def lineData (a : StmSet) (j line : Nat) : Option (Tab Byte × Nat) :=
  let cells := lineCells a j line
  if cells.isEmpty || cells.any (fun c => c.2.isNone) then none
  else some (cells.foldl (fun t c => match c.2 with | some (some v) => Tab.ins (Tab.erase t c.1) c.1 v | _ => Tab.erase t c.1) [],
    (cells.filter (fun c => match c.2 with | some (some _) => true | _ => false)).length)

/-- The words that a descriptor writes in a line, by DA / 8. -/
def lineWords (d : Dsc) (line : Nat) : List Nat :=
  ((lineSteps d line).flatMap (fun n => (((List.range 128).map (fun i => line * 128 + i)).filter (fun b =>
    decide (d.dstAt n ≤ b ∧ b < d.dstAt n + d.len0))).map (fun b => gaDA b / 8))).eraseDups

/-- Bytes at neighbouring addresses put together. -/
def runsOf : Tab Byte → List (Nat × List Byte)
  | [] => []
  | (b, v) :: r => match runsOf r with
    | (c, vs) :: rest => if c = b + 1 then (b, v :: vs) :: rest else (b, [v]) :: (c, vs) :: rest
    | [] => [(b, [v])]

/-- Lines that a transfer's pieces touch. -/
def linesOf (i : Issued) : List Nat :=
  (i.parts.flatMap (fun x => (List.range ((x.2.1 + x.2.2 - 1) / 128 - x.2.1 / 128 + 1)).map (fun k => x.2.1 / 128 + k))).eraseDups

def delivered (a : StmSet) (j line : Nat) : Bool := a.lines.contains (j, line)
/-- A write transfer is outstanding: a line of it is delivered, and it is not acknowledged. -/
def isWriting (a : StmSet) (i : Issued) : Bool := decide (i.st = .held) && (linesOf i).any (delivered a i.desc)
/-- The write transfer that a transfer's bytes travel in: its own, or, for one that lies within a line, the line's. -/
def writeKey (k : Nat) (i : Issued) : Nat × Nat × Nat :=
  match linesOf i with
  | [l] => (k, 2 * i.desc + 1, l)
  | _ => (k, 2 * i.desc, i.pos)
/-- The write transfers that may be outstanding (R144): the first 8 whose bytes have been read, of the set armed first before the other. -/
def writeSlots (x : Stream) : List (Nat × Nat × Nat) :=
  let held := fun (k : Nat) => ((x.get k).issued.filter (fun i => decide (i.st = .held))).map (writeKey k)
  ((held x.older ++ held (1 - x.older)).eraseDups).take 8

/-- Writes the runs of a line to memory without full/empty bits. -/
def writeRuns (s : State) (xl : List (Nat × Nat)) (ecc : List Nat) (panic : Bool) : List (Nat × List Byte) → State × Bool
  | [] => (s, true)
  | (b, bs) :: r =>
    let x := memWrite s (underXl xl (gaDA b)) bs ⟨[], ecc, panic⟩
    let y := writeRuns x.1 xl (ecc.drop (atomsOf (gaDA b) bs.length).length) panic r
    (y.1, x.2 && y.2)

/-- A line's place answers: no memory in reset, no stack that is not ready or is fenced, a target that is there. -/
def placeAnswers (s : State) (da : Nat) : Bool :=
  match regionOf da with
  | .hbm => (pcsOf s da 128).all (pcServes s)
  | .cxl off => (match (cxlResolve s off true).2 with | .mem _ => true | _ => false)
  | .host => hostReachable s
  | .scratch _ => !(padDown s da)
  | .staging _ => !(padDown s da)
  | _ => false

/-- Writes runs as one request of a set (R164): after what stands before it at their destinations; one that is answered with an error
writes nothing. -/
def writeAll (s : State) (g k j : Nat) (xl : List (Nat × Nat)) (ecc : List Nat) (runs : List (Nat × List Byte)) : State × Bool :=
  let q := (tagOf s g k j ⟨j, 0, 0, [], [], .held, [], 0, false, false, 0⟩).req g (s.stmSet g k)
  let ds := (runs.flatMap (fun r => destsOf s (underXl xl (gaDA r.1)) r.2.length)).eraseDups
  let s := serveBefore s ds q (fun r => decide (r.eng = g))
  let r := writeRuns s xl ecc q.panic runs
  if r.2 then r else (r.1.setMem { r.1.mem with hbm := s.mem.hbm, cxl := s.mem.cxl, wq := s.mem.wq }, false)

/-- The checkpoint that a stopped engine shows counts the lines delivered since. -/
def refreshCkpt (s : State) (g k j : Nat) : State :=
  let a := s.stmSet g k
  if (s.stream g).stopped = some k ∧ bits (a.ckpt.getD 0 0) 48 8 = j then
    let v := Tab.get 0 a.bytesDone j
    (s.setStmSet g k { a with ckpt := a.ckpt.set 4 v }).wr F.STM_CKPT4_DATA g v
  else s

/-- Bytes that a descriptor has delivered are counted. -/
def countDelivered (s : State) (g k j n : Nat) : State :=
  let a := s.stmSet g k
  let s := s.setStmSet g k { a with bytesDone := Tab.set 0 a.bytesDone j (Tab.get 0 a.bytesDone j + n) }
  refreshCkpt (s.bump C.STM_WR_BYTES_CNT g n) g k j

/-- A line is delivered: recorded, its bytes counted; those of a line for another node are counted when they are acknowledged. -/
def markDelivered (s : State) (g k j line n : Nat) : State :=
  let a := s.stmSet g k
  let s := s.setStmSet g k { a with lines := a.lines ++ [(j, line)] }
  if gaLocal s (a.dsc j).dst then countDelivered s g k j n else s

/-! ### Lines for another node (R149, R244, R246, R302) -/

/-- The unit of a stream engine (R301). -/
def unitOfStream (g : Nat) : Nat := g / 256 * 4096 + g / 2 % 128 * 16 + 6 + g % 2

/-- The bytes of transfers by rising address, put together. -/
def transferRuns (xs : List Issued) : List (Nat × List Byte) :=
  runsOf ((xs.flatMap (fun i => (i.parts.zip i.bytes).flatMap (fun x => x.2.zipIdx.map (fun v => (x.1.2.1 + v.2, v.1))))).foldl
    (fun t c => Tab.ins (Tab.erase t c.1) c.1 c.2) [])

/-- The write transfers that the delivery of a line completes, as the positions that each writes and its runs: the transfers within
the line, each longer one whose lines have all been delivered, or, in GATHER mode, the line. -/
def remoteWrites (a : StmSet) (j line : Nat) (runs : List (Nat × List Byte)) : List (List Nat × List (Nat × List Byte)) :=
  let xs := a.issued.filter (fun i => decide (i.desc = j) && decide (i.st = .held) && (linesOf i).contains line)
  if (a.dsc j).mode = 2 then [(xs.map (fun i => i.pos), runs)]
  else
    let one := xs.filter (fun i => decide (linesOf i = [line]))
    let more := xs.filter (fun i => decide (linesOf i ≠ [line]) && (linesOf i).all (delivered a j))
    (if one.isEmpty then [] else [(one.map (fun i => i.pos), transferRuns one)]) ++ more.map (fun i => ([i.pos], transferRuns [i]))

/-- Runs cut into the payloads of cells (R244). -/
def cutRun : Nat → Nat → List Byte → List (Nat × List Byte)
  | 0, _, _ => []
  | f + 1, ga, bs => if bs.isEmpty then [] else (ga, bs.take 512) :: cutRun f (ga + 512) (bs.drop 512)
def payloadsOf (runs : List (Nat × List Byte)) : List (Nat × List Byte) := runs.flatMap (fun r => cutRun (r.2.length + 1) r.1 r.2)

/-- The WRITE cells of one write transfer in a slot of its engine leave as CELL packets (R244, R302). -/
def sendTransfer (s : State) (g k j x : Nat) (w : List Nat × List (Nat × List Byte)) : State :=
  let ps := payloadsOf w.2
  let s := setRemote s (g * 8 + x) (some ⟨k, j, w.1, none, [], false, 0⟩)
  ps.zipIdx.foldl (fun s p =>
    s.emit (.packet (cellPkt s (unitOfStream g)
      { typ := 1, seq := 0, channel := 0, dst := gaNode p.1.1, hops := 0, src := s.node, eng := g, xslot := x, num := p.2, len := p.1.2.length / 8 - 1,
        dfe := ((s.stmSet g k).dsc j).dfe, last := decide (p.2 + 1 = ps.length), da := gaDA p.1.1, count := 0, sched := s.on F.STM_STATUS_SCHED g,
        payload := p.1.2 }))) s

/-- The slots of an engine that no remote write transfer holds. -/
def freeSlots (s : State) (g : Nat) : List Nat := (List.range 8).filter (fun x => (remoteOf s (g * 8 + x)).isNone)

/-- A line for another node is delivered: the write transfers that it completes leave, while the engine has slots for them. -/
def deliverRemote (s : State) (g k j line n : Nat) (runs : List (Nat × List Byte)) : State :=
  let t := markDelivered s g k j line n
  let ws := remoteWrites (t.stmSet g k) j line runs
  if (freeSlots s g).length < ws.length then s
  else (ws.zip (freeSlots s g)).foldl (fun s w => sendTransfer s g k j w.2 w.1) t

/-- LINE_DELIVERY (R151): a line all of whose bytes have been read is written, but for what was written before, and all its words
become full together. A write whose place does not answer fails before any line of its transfer is written (R164); a line that cannot
be merged into its atom after lines of its transfer were written is no event. -/
def lineDelivery (s : State) (g k j line : Nat) (ecc : List Nat) : State :=
  let a := s.stmSet g k
  let d := a.dsc j
  match lineData a j line with
  | none => s
  | some (cells, n) =>
    let xs := a.issued.filter (fun i => decide (i.desc = j) && decide (i.st = .held) && (linesOf i).contains line)
    let slots := writeSlots (s.stream g)
    if !(a.armed) || delivered a j line || !(xs.isEmpty || xs.any (fun i => slots.contains (writeKey k i))) || s.coreDown (coreOfStream g) then s
    else
      let runs := runsOf cells
      let begun := xs.any (isWriting a)
      let fails := fun (s : State) => match xs with | i :: _ => failTransfer s g k 0x6 i | [] => s
      if !(gaLocal s d.dst) then
        deliverRemote s g k j line n runs
      else if !begun && xs.any (fun i => (linesOf i).any (fun l => !(placeAnswers s (underXl i.xl (gaDA (l * 128)))))) then fails s
      else if onChip (gaDA (line * 128)) then
        let ws := lineWords d line
        if ws.any (fun w => padBusy s (w * 8)) then s
        else if memDown s ws then fails s
        else
          let r := streamTry s g k d.dfe true ws
          if !r.2 then r.1
          else
            let s := serveBefore r.1 (destsOf s (gaDA (line * 128)) 128) ((tagOf r.1 g k j ⟨j, 0, 0, [], [], .held, [], 0, false, false, 0⟩).req g a)
              (fun x => decide (x.eng = g))
            let s := runs.foldl (fun s x => s.commit (gaDA x.1) x.2) s
            markDelivered (s.fillWords ws) g k j line n
      else
        let r := writeAll s g k j (xs.flatMap (fun i => i.xl)) ecc runs
        if r.2 then markDelivered r.1 g k j line n
        else if begun && ecc.contains 2 then s
        else fails r.1

/-- The bytes of a transfer that lie in lines not yet delivered. -/
def openBytes (a : StmSet) (i : Issued) : Tab Byte :=
  ((i.parts.zip i.bytes).flatMap (fun x => x.2.zipIdx.map (fun v => (x.1.2.1 + v.2, v.1)))).foldl
    (fun t c => if delivered a i.desc (c.1 / 128) then t else Tab.ins (Tab.erase t c.1) c.1 c.2) []

/-- WRITE_TRANSFER_ACK (R144, R151): a transfer to this device has written its words, without their full bits where their line is not
complete, and is acknowledged. In sync and consume mode a line is not begun before all its words are as the mode requires (R172). -/
def writeAck (s : State) (g k j p : Nat) (ecc : List Nat) : State :=
  let a := s.stmSet g k
  let d := a.dsc j
  match a.issued.find? (fun i => decide (i.desc = j ∧ i.pos = p ∧ i.st = .held)) with
  | none => s
  | some i =>
    if !(gaLocal s d.dst) || !(a.armed) || s.coreDown (coreOfStream g) then s
    else
      let acked := fun (s : State) => setIssued s g k j p (fun i => { i with st := .acked, bytes := [] })
      let open_ := (linesOf i).filter (fun l => !(delivered a j l))
      if open_.isEmpty then acked s
      else if !((writeSlots (s.stream g)).contains (writeKey k i)) then s
      else
        let cells := openBytes a i
        let runs := runsOf cells
        if onChip (gaDA d.dst) then
          let wss := open_.map (lineWords d)
          if wss.any (fun ws => ws.any (fun w => padBusy s (w * 8))) then s
          else if wss.any (memDown s) then failTransfer s g k 0x6 i
          else
            let r := wss.foldl (fun x ws => let y := streamTry x.1 g k d.dfe true ws; (y.1, x.2 && y.2)) (s, true)
            if !r.2 then r.1 else countDelivered (acked (runs.foldl (fun s x => s.commit (gaDA x.1) x.2) r.1)) g k j cells.length
        else
          let r := writeAll s g k j i.xl ecc runs
          if r.2 then countDelivered (acked r.1) g k j cells.length else failTransfer r.1 g k 0x6 i

/-! ### Completion (R152) -/

/-- Every line of descriptor `j` is delivered, and every transfer acknowledged. -/
def dscFinished (a : StmSet) (j : Nat) : Bool :=
  let d := a.dsc j
  let before := if j = a.base.1 then posStep a.base.2 * d.len0 + posOff a.base.2 else 0
  let acked := ((a.issued.filter (fun i => decide (i.desc = j ∧ i.st = .acked))).flatMap (fun i => i.parts.map (fun x => x.2.2))).sum
  a.armed && decide (j < a.descs.length) && !(a.doneDescs.contains j) && decide (0 < d.bytes) && decide (before + acked = d.bytes) &&
    a.issued.all (fun i => decide (i.desc ≠ j) || (linesOf i).all (delivered a j))

/-- The set ends: its slot is free, and it no longer issues. -/
def endSet (s : State) (g k : Nat) : State :=
  let x := (s.stream g).put k StmSet.idle
  stmShow ((s.setStream g { x with order := x.order.filter (fun i => decide (i ≠ k)), older := 1 - k }).dropWaiters (.stream g k)) g

/-- DESCRIPTOR_COMPLETE: counted, its hurdle arrival made, its panic lowered; the last one ends the set (R145). -/
def descriptorComplete (s : State) (g k j : Nat) : State :=
  let a := s.stmSet g k
  if !(dscFinished a j) then s
  else
    let d := a.dsc j
    let b := { a with doneDescs := a.doneDescs ++ [j], issued := a.issued.filter (fun i => decide (i.desc ≠ j)),
                      lines := a.lines.filter (fun l => decide (l.1 ≠ j)), panics := a.panics.filter (fun i => decide (i ≠ j)),
                      entries := Tab.erase a.entries j }
    let s := (s.setStmSet g k b).bump C.STM_DESC_CNT g 1
    let s := if d.hen then arriveFrom s (clusterOfCore (coreOfStream g) * 2048 + d.hur) 1 else s
    if b.doneDescs.length = b.count + 1 then endSet s g k else stmShow s g

/-! ### Faults, stops and checkpoints (R160-R166) -/

/-- A checkpoint record (R166). -/
def ckptWords (a : StmSet) (k state j p cause addr prg ts : Nat) : List Nat :=
  let d := a.dsc j
  let n := posStep p
  [(a.list + 128 * j) % 2 ^ 48 + j % 256 * 2 ^ 48 + k * 2 ^ 56 + state * 2 ^ 57 + 2 ^ 63,
   posOff p + d.ix n 1 % 2 ^ 16 * 2 ^ 32 + d.ix n 2 % 2 ^ 16 * 2 ^ 48,
   d.ix n 3 % 2 ^ 16 + d.ix n 4 % 2 ^ 16 * 2 ^ 16 + n % 2 ^ 32 * 2 ^ 32,
   addr % 2 ^ 64, Tab.get 0 a.bytesDone j, cause + prg % 512 * 2 ^ 16 + d.tag * 2 ^ 48, ts % 2 ^ 48, 0]

/-- The record stands in STM_CKPT0 to STM_CKPT7. -/
def showCkpt (s : State) (g : Nat) (ws : List Nat) : State :=
  let s := ((s.wr F.STM_CKPT0_DATA g (ws.getD 0 0)).wr F.STM_CKPT1_DATA g (ws.getD 1 0)).wr F.STM_CKPT2_DATA g (ws.getD 2 0)
  let s := ((s.wr F.STM_CKPT3_DATA g (ws.getD 3 0)).wr F.STM_CKPT4_DATA g (ws.getD 4 0)).wr F.STM_CKPT5_DATA g (ws.getD 5 0)
  (s.wr F.STM_CKPT6_DATA g (ws.getD 6 0)).wr F.STM_CKPT7_DATA g (ws.getD 7 0)

/-- A set is stopped with its checkpoint: FAULT_WAIT (2) or ERROR (3). -/
def stopWith (s : State) (g k state : Nat) (ws : List Nat) : State :=
  let s := s.setStmSet g k { s.stmSet g k with ckpt := ws }
  let s := s.setStream g { s.stream g with stopped := some k }
  stmShow ((showCkpt s g ws).wr F.STM_STATUS_STATE g state) g

/-- The lowest group index that is not outstanding. -/
def freeGroup (l : List (Nat × Option Nat)) (n : Nat) : Option Nat := (List.range n).find? (fun i => !(l.any (fun e => decide (e.1 = i))))

/-- Groups that the host has allocated (R396): the doubleword of the Page Request capability, at most 512. -/
def prAlloc (s : State) : Nat := if s.on F.PCI_STATUS_PRI_EN 0 then Nat.min 512 (Tab.get 0 s.pci.cfg 0xB3) else 0

/-- Page request groups outstanding, as PCI_ATC_STAT shows them. -/
def setPciGroups (s : State) (l : List (Nat × Option Nat)) : State :=
  ({ s with pci := { s.pci with groups := l } } : State).wr F.PCI_ATC_STAT_PRQ_OUT 0 l.length

/-- A page request to the host for the faulting address of an engine, when a group is free (R396). -/
def askPage (s : State) (g ga : Nat) (write : Bool) : State × Nat :=
  match freeGroup s.pci.groups (prAlloc s) with
  | some n =>
    let s := (setPciGroups s (s.pci.groups ++ [(n, some g)])).bump C.PCI_PRQ_CNT 0 1
    ((s.setStream g { s.stream g with wantsGroup := false }).emit (.pageRequest (hostPage (gaDA ga)) n write), n)
  | none => (s.setStream g { s.stream g with wantsGroup := true }, 0)

/-- A page request to the tier's queue (R290); no rule says what a full set of groups does: the engine waits. -/
def askTier (s : State) (g ga : Nat) (write : Bool) : State × Nat :=
  match freeGroup s.mem.groups 512 with
  | some n =>
    let s := s.setMem { s.mem with prq := s.mem.prq ++ [(gaDA ga, n, write)], groups := s.mem.groups ++ [(n, some g)] }
    (s.flagMC F.CXL_TIER_STATUS_PRQ_PENDING 0, n)
  | none => (s.setStream g { s.stream g with wantsGroup := true }, 0)

/-- The page request group of the engine's checkpoint is set. -/
def noteGroup (s : State) (g n : Nat) : State :=
  match (s.stream g).stopped with
  | none => s
  | some k =>
    let ws := (s.stmSet g k).ckpt
    let ws := ws.set 5 (setBits (ws.getD 5 0) 16 9 n)
    showCkpt (s.setStmSet g k { s.stmSet g k with ckpt := ws }) g ws

/-- A group has returned: the first engine that waits for one, with an address in the host window or in the tier, sends its request. -/
def nextRequest (s : State) (host : Bool) : State :=
  match List.find? (fun (e : Nat × Stream) => e.2.wantsGroup && (match e.2.stopped with
      | some k => decide (decide (regionOf (gaDA (((e.2.get k).ckpt).getD 3 0)) = .host) = host)
      | none => false)) s.streams with
  | none => s
  | some (g, x) =>
    match x.stopped with
    | none => s
    | some k =>
      let ga := ((x.get k).ckpt).getD 3 0
      let a := x.get k
      let write := match unknownAddr s (((a.dsc a.next).piece (a.ents a.next) a.pos).1) with | some u => u.2 | none => false
      let r := if host then askPage s g ga write else askTier s g ga write
      noteGroup r.1 g r.2

/-- TRANSLATION_FAULT: the translation of the engine's next transfer fails (R160-R163). -/
def translationFault (s : State) (g : Nat) : State :=
  if !(mayIssue s g) then s
  else match (s.stream g).order.head? with
  | none => s
  | some k =>
    let a := s.stmSet g k
    let j := a.next
    let d := a.dsc j
    if a.descs.length ≤ j || !(entriesReady a j a.pos) || d.fails s (coreOfStream g) then s
    else
      let parts := (d.piece (a.ents j) a.pos).1
      match unknownAddr s parts with
      | none => s
      | some (ga, write) =>
        let host := decide (regionOf (gaDA ga) = .host)
        if host && !(s.pci.asked.contains (hostPage (gaDA ga))) then s
        else
          let s := if host then { s with pci := { s.pci with asked := s.pci.asked.filter (fun x => decide (x ≠ hostPage (gaDA ga))) } } else cxlMiss s
          if s.on F.STM_STATUS_SCHED g then
            (setFail s g k ⟨0x4, j, a.pos, ga, s.trk.ts⟩).emit (.sessionFault (clusterOfCore (coreOfStream g)))
          else
            let s := s.bump C.STM_FAULT_CNT g 1
            let r := if host then askPage s g ga write else askTier s g ga write
            stopWith r.1 g k 2 (ckptWords a k 2 j a.pos 0 ga r.2 s.trk.ts)

/-- TRANSFER_ERROR: an error response to an outstanding read or write transfer (R164). It writes no data: a write to this device some of
whose lines are delivered has none. -/
def transferError (s : State) (g k j p : Nat) : State :=
  let a := s.stmSet g k
  match a.issued.find? (fun i => decide (i.desc = j ∧ i.pos = p)) with
  | none => s
  | some i =>
    if i.st = .reading then failTransfer s g k 0x5 i
    else if i.st = .held ∧ ¬ (gaLocal s (a.dsc j).dst ∧ isWriting a i) then failTransfer s g k 0x6 i
    else s

/-- Nothing of a set is on its way: no read, no write of this device without its acknowledgement, no line that could be delivered. -/
def setQuiet (s : State) (a : StmSet) : Bool :=
  a.issued.all (fun i =>
    let still := (linesOf i).all (fun l => delivered a i.desc l || (lineData a i.desc l).isNone)
    match i.st with
    | .reading => false
    | .held => !(gaLocal s (a.dsc i.desc).dst) && !((linesOf i).all (delivered a i.desc)) && still
    | .acked => still
    | .failed _ => true)

/-- The flag of STM_STATUS for a cause (R170). -/
def stopFlag (s : State) (g cause : Nat) : State :=
  let s := s.wr F.STM_STATUS_CAUSE g cause
  if cause ≤ 2 then s.flagMC F.STM_STATUS_DESC_ERR g
  else if cause ≤ 4 then s.flagMC F.STM_STATUS_XLATE_ERR g
  else s.flagMC F.STM_STATUS_DATA_ERR g

/-- SET_STOP (R164): once nothing is on its way, a failing set records its checkpoint and enters ERROR; a set that was abandoned ends. -/
def setStop (s : State) (g k : Nat) : State :=
  let a := s.stmSet g k
  if a.abandoned then (if setQuiet s a then endSet s g k else s)
  else match a.fail with
  | none => s
  | some f =>
    let x := s.stream g
    if !(setQuiet s a) || (x.stopped.isSome && !(decide (x.stopped = some k) && decide (s.rd F.STM_STATUS_STATE g = 2))) then s
    else stopFlag (stopWith s g k 3 (ckptWords a k 3 f.desc f.pos f.cause f.addr 0 f.ts)) g f.cause

/-- The engine's groups no longer have anyone waiting on them. -/
def dropGroups (s : State) (g : Nat) : State :=
  let clear := fun (l : List (Nat × Option Nat)) => l.map (fun e => if e.2 = some g then (e.1, none) else e)
  { s with mem := { s.mem with groups := clear s.mem.groups }, pci := { s.pci with groups := clear s.pci.groups } }

/-- The stopped set resumes from its checkpoint (R162, R165): transfers that were read stay, failed ones issue again. -/
def resumeSet (s : State) (g : Nat) : State :=
  let x := s.stream g
  match x.stopped with
  | none => s
  | some k =>
    let a := x.get k
    let b := match a.fail with
      | some f => { a with next := f.desc, pos := f.pos }
      | none => a
    let b := { b with fail := none, ckpt := [], issued := b.issued.filter (fun i => match i.st with | .failed _ => false | _ => true) }
    let y := x.put k b
    let y := { y with stopped := none, wantsGroup := false, order := if y.order.contains k then y.order else k :: y.order }
    stmShow (dropGroups (s.setStream g y) g) g

/-- The stopped set is abandoned (R165): it issues nothing more and its STREAM completes with error; what is on its way completes, and
the set then ends. -/
def abandonSet (s : State) (g : Nat) : State :=
  let x := s.stream g
  match x.stopped with
  | none => s
  | some k =>
    let a := x.get k
    let s := dropGroups (s.setStream g { x with stopped := none, wantsGroup := false }) g
    if setQuiet s a then (endSet s g k).emit (.streamError a.queue)
    else
      let y := (s.stream g).put k { a with abandoned := true, fail := none, ckpt := [] }
      (stmShow (s.setStream g { y with order := y.order.filter (fun i => decide (i ≠ k)) }) g).emit (.streamError a.queue)

/-- A page request group of an engine is answered (R162): success resumes, failure stops the set with CAUSE 0x3. -/
def groupAnswered (s : State) (g : Nat) (success : Bool) : State :=
  let x := s.stream g
  match x.stopped with
  | some k =>
    if s.rd F.STM_STATUS_STATE g ≠ 2 then s
    else if success then resumeSet s g
    else
      let a := x.get k
      setFail s g k ⟨0x3, a.next, a.pos, a.ckpt.getD 3 0, s.trk.ts⟩
  | none => s

/-- A reset abandons both sets of an engine (R169). -/
def resetStream (s : State) (g : Nat) : State :=
  dropGroups (((s.setStream g Stream.idle).dropWaiters (.stream g 0)).dropWaiters (.stream g 1)) g

/-! ### The tier's page requests (R291) -/

/-- CXL_PRQ_RESP (R291): the group's answer; an index without a pending request is discarded. -/
def cxlPrqResp (s : State) (n : Nat) (success : Bool) : State :=
  match s.mem.groups.find? (fun e => decide (e.1 = n)) with
  | none => s
  | some e =>
    let s := s.setMem { s.mem with groups := s.mem.groups.filter (fun x => decide (x.1 ≠ n)) }
    let s := match e.2 with
      | some g => groupAnswered s g success
      | none => s
    nextRequest s false

/-! ### The meanings -/

def execStream (q : Fin 4096) (s : State) : Host.Outcome State Fault Refusal := .next (issue s q 3 0x00 (fun s w => streamEff s q w))
def execTransferIssue (e : Fin 1024) (s : State) : Host.Outcome State Fault Refusal := .next (transferIssue s e)
/-- The operands name the transfer by set, descriptor and position, and bring the host's bytes and the error-correction outcomes. -/
def execReadTransferComplete (e : Fin 1024) (set : Fin 2) (desc : Fin 256) (pos : Nat) (ext : List Byte) (ecc : List Nat) (s : State) :
    Host.Outcome State Fault Refusal := .next (readComplete s e set desc pos ext ecc)
def execLineDelivery (e : Fin 1024) (set : Fin 2) (desc : Fin 256) (line : Nat) (ecc : List Nat) (s : State) : Host.Outcome State Fault Refusal :=
  .next (lineDelivery s e set desc line ecc)
def execWriteTransferAck (e : Fin 1024) (set : Fin 2) (desc : Fin 256) (pos : Nat) (ecc : List Nat) (s : State) :
    Host.Outcome State Fault Refusal := .next (writeAck s e set desc pos ecc)
def execDescriptorComplete (e : Fin 1024) (set : Fin 2) (desc : Fin 256) (s : State) : Host.Outcome State Fault Refusal :=
  .next (descriptorComplete s e set desc)
def execUrgencyUpdate (e : Fin 1024) (set : Fin 2) (desc : Fin 256) (s : State) : Host.Outcome State Fault Refusal := .next (urgencyUpdate s e set desc)
def execStreamLate (e : Fin 1024) (set : Fin 2) (desc : Fin 256) (s : State) : Host.Outcome State Fault Refusal := .next (streamLate s e set desc)
def execTranslationFault (e : Fin 1024) (s : State) : Host.Outcome State Fault Refusal := .next (translationFault s e)
def execTransferError (e : Fin 1024) (set : Fin 2) (desc : Fin 256) (pos : Nat) (s : State) : Host.Outcome State Fault Refusal :=
  .next (transferError s e set desc pos)
def execSetStop (e : Fin 1024) (set : Fin 2) (s : State) : Host.Outcome State Fault Refusal := .next (setStop s e set)
/-- RESUME written 1 (R163, R165): ignored while SCHED is 1, and in any state but ERROR and FAULT_WAIT. -/
def execStmResume (e : Fin 1024) (s : State) : Host.Outcome State Fault Refusal := .next (if s.on F.STM_STATUS_SCHED e then s else resumeSet s e)
def execStmAbandon (e : Fin 1024) (s : State) : Host.Outcome State Fault Refusal := .next (abandonSet s e)
def execCxlPrqResp (value : Word) (s : State) : Host.Outcome State Fault Refusal :=
  .next (cxlPrqResp s (bits value.toNat 0 9) (decide (bit value.toNat 9 = 1)))

end Sys2Proof.Machine
end

