-- ==== Sys2Proof/Machine/Batons.lean ====
section
/-!
DEFINITION. The full/empty port (R175), batons and baton windows (R184-R188), and the opening of a hurdle table.
-/
namespace Sys2Proof.Machine

/-! ### The full/empty port (R175) -/

/-- The port's DA lies in a memory of cluster `c`. -/
def fePortPlace (s : State) (c : Nat) : Bool := decide (clusterOfDA (s.rd F.HUR_FE_CTRL_DA c) = some c)

/-- A read of HUR_FE_DATA: a load in the port's mode, without waiting. -/
def fePortLoad (s : State) (c : Nat) : State :=
  let da := s.rd F.HUR_FE_CTRL_DA c
  let m := s.rd F.HUR_FE_CTRL_MODE c
  if !(fePortPlace s c) || padDown s da then s.emit .error
  else if padBusy s da then s
  else if feReady s m false (da / 8) then (feLeave s m false [da / 8]).emit (.data (s.word (da / 8)))
  else (s.wr F.HUR_FE_CTRL_MISS c 1).emit (.data 0)

/-- A write of HUR_FE_DATA: a store in the port's mode, without waiting. -/
def fePortStore (s : State) (c v : Nat) : State :=
  let da := s.rd F.HUR_FE_CTRL_DA c
  let m := s.rd F.HUR_FE_CTRL_MODE c
  if !(fePortPlace s c) || padDown s da then s.emit .error
  else if padBusy s da then s
  else if feReady s m true (da / 8) then feLeave (s.commit da (bytesLE 8 v)) m true [da / 8]
  else s.wr F.HUR_FE_CTRL_MISS c 1

/-! ### Baton records (R185) -/

def Baton.words (b : Baton) : List Nat :=
  [b.ga % 2 ^ 64, b.cnt % 2 ^ 40 + b.hops % 16 * 2 ^ 40 + b.tag % 2 ^ 16 * 2 ^ 48,
   b.val % 2 ^ 32 + b.srcNode % 2 ^ 14 * 2 ^ 32 + b.srcCore % 2 ^ 9 * 2 ^ 46, b.tSend % 2 ^ 48]

def batonOf (w : List Nat) : Baton :=
  ⟨w.getD 0 0 % 2 ^ 64, bits (w.getD 1 0) 0 40, bits (w.getD 1 0) 40 4, bits (w.getD 1 0) 48 16, bits (w.getD 2 0) 0 32,
   bits (w.getD 2 0) 32 14, bits (w.getD 2 0) 46 9, bits (w.getD 3 0) 0 48⟩

/-- BATON (R184, R185): the record leaves the core; flags 0b01 become the sender's node. -/
def batonEff (s : State) (q w : Nat) : State :=
  let ga := s.sreg q (wR0 w)
  let ga := if gaFlags ga = 1 then s.node * 2 ^ 48 + gaDA ga else ga
  let b : Baton := ⟨ga, bits (s.sreg q (wR2 w)) 0 40, 0, wTAG w, bits (s.sreg q (wR1 w)) 0 32, s.node, coreOfQueue q, s.trk.ts % 2 ^ 48⟩
  ((s.countIssue q).emit (.baton b.words)).doneHead q

/-! ### Windows (R186, R187) -/

def State.windowQueue (s : State) (w : Nat) : List Baton := Tab.get [] s.sync.batons w

/-- Sets a window's queue and the fields that show it. -/
def setWindowQueue (s : State) (w : Nat) (l : List Baton) : State :=
  let s := { s with sync := { s.sync with batons := Tab.set [] s.sync.batons w l } }
  let s := s.wr F.HUR_WIN_STAT_HELD w l.length
  let s := s.wr F.HUR_WIN_STAT_HEAD_TAG w (match l with | b :: _ => b.tag % 256 | [] => 0)
  s.wr F.HUR_WIN_STAT_HEAD_CNT w (match l with | b :: _ => b.cnt | [] => 0)

/-- A baton is released to its hurdle: VALUE and source node, then an arrival of 1 (R187). -/
def releaseBaton (s : State) (h : Nat) (b : Baton) : State :=
  let s := (s.bump C.HUR_BATON_CNT (clusterOfHurdle h) 1).wr F.HUR_VALUE_VALUE h b.val
  arrive (s.wr F.HUR_VALUE_SRC_NODE h b.srcNode) h 1

/-- A baton is discarded at a cluster (R188). -/
def dropBaton (s : State) (c : Nat) (f : Fld) : State :=
  let s := (s.bump C.HUR_BATON_DROP_CNT c 1).wr f c 1
  if s.on F.HUR_CTRL_DROP_EVT_EN c then s.signalMC f c else s

/-- The cluster in whose control-window range a DA lies (R188). -/
def clusterOfWindowDA (da : Nat) : Option Nat :=
  if da < windowBase + 0x1000000 ∨ windowBase + 0x2000000 ≤ da then none
  else
    let o := da - windowBase - 0x1000000
    if o % 0x400000 < 0x200000 then none else some (o / 0x400000 * 8 + (o % 0x400000 - 0x200000) / 0x40000)

/-- A baton at the table of its hurdle. -/
def batonAtHurdle (s : State) (h : Nat) (b : Baton) : State :=
  let c := clusterOfHurdle h
  if s.clusterDown c then dropBaton s c F.HUR_STATUS_BATON_REJ
  else if tableShut s h then s.holdOp (.baton h b)
  else if b.cnt = 0 then releaseBaton s h b
  else if s.rd F.HUR_CFG_MODE h = 0 then dropBaton s c F.HUR_STATUS_BATON_REJ
  else
    let w := c * 64 + s.rd F.HUR_CFG_WIN h
    let l := s.windowQueue w
    if 8 ≤ l.length then dropBaton s c F.HUR_STATUS_BATON_FULL else setWindowQueue s w (l ++ [b])

/-- A baton at its target node (R187, R188); `port` is the Kamrus port that delivered it, if one did. -/
def batonArrives (s : State) (b : Baton) (port : Option Nat) : State :=
  match (if gaFlags b.ga = 0 then hurdleOfDA (gaDA b.ga) else none) with
  | some h => batonAtHurdle s h b
  | none =>
    match clusterOfWindowDA (gaDA b.ga) with
    | some c => dropBaton s c F.HUR_STATUS_BATON_REJ
    | none => match port with
      | some p => (s.bump C.KMR_CELL_DROP_CNT p 1).signalMC F.KMR_CELL_DROP_CNT_COUNT p
      | none => s

/-- BATON_RELEASE (R187): the head of a window is released when CREDIT covers its CNT. -/
def batonRelease (s : State) (w : Nat) : State :=
  match s.windowQueue w with
  | [] => s
  | b :: r =>
    match hurdleOfDA (gaDA b.ga) with
    | none => s
    | some h =>
      let c := s.rd F.HUR_WIN_CREDIT_CREDIT w
      if c < b.cnt || tableShut s h then s
      else releaseBaton (setWindowQueue (s.wr F.HUR_WIN_CREDIT_CREDIT w (c - b.cnt)) w r) h b

/-! ### Window registers (R186) -/

/-- The two ranges of a cluster: first byte and the byte after the last. -/
def windowRanges (c : Nat) : (Nat × Nat) × (Nat × Nat) :=
  ((scratchBase + c * 0x1000000, scratchBase + (c + 1) * 0x1000000), (stagingBase + c * 0x200000, stagingBase + (c + 1) * 0x200000))

/-- The address of a cluster's ranges nearest to `v`, the lower on a tie. -/
def nearestBase (c v : Nat) : Nat :=
  let r := windowRanges c
  let a := clampTo r.1.1 (r.1.2 - 1) v
  let b := clampTo r.2.1 (r.2.2 - 1) v
  let dist := fun x => (x - v) + (v - x)
  if dist a ≤ dist b then a else b

/-- LEN under its clamp for the BASE held; a BASE still at its reset value lies in no range and clamps nothing. -/
def clampLen (c base len : Nat) : Nat :=
  let r := windowRanges c
  if r.1.1 ≤ base ∧ base < r.1.2 then Nat.min len (r.1.2 - base)
  else if r.2.1 ≤ base ∧ base < r.2.2 then Nat.min len (r.2.2 - base)
  else len

/-- HUR_WIN_WRITE (R186): BASE or LEN is written under its clamp, and CREDIT becomes zero. DESIGN CHOICE (log entry 99): a 32-bit write
of one half of BASE clamps the value that the two halves make together, so the other half may change; R7's nearest bound and
R10's 'keeps' cannot both hold there. -/
def winWrite (s : State) (w : Nat) (isLen : Bool) (v : Nat) : State :=
  let c := w / 64
  let s := s.wr F.HUR_WIN_CREDIT_CREDIT w 0
  if isLen then s.wr F.HUR_WIN_LEN_LEN w (clampLen c (s.rd F.HUR_WIN_BASE_DA w) (bits v 0 22))
  else
    let b := nearestBase c (bits v 0 48)
    (s.wr F.HUR_WIN_BASE_DA w b).wr F.HUR_WIN_LEN_LEN w (clampLen c b (s.rd F.HUR_WIN_LEN_LEN w))

/-! ### The table opens again (R194) -/

/-- An operation that waited at the table is applied. -/
def applyHeld (s : State) (o : HeldOp) : State :=
  match o with
  | .arrive h n (some (q, dest, sync)) => arriveFor s h n q dest sync
  | .arrive h n none => arrive s h n
  | .baton h b => batonAtHurdle s h b

def HeldOp.hurdle (o : HeldOp) : Nat := match o with | .arrive h _ _ => h | .baton h _ => h

/-- HUR_CTRL.EN of cluster `c` returns to 1: what waits at the table is applied in order. -/
def openTable (s : State) (c : Nat) : State :=
  let mine := s.sync.held.filter (fun o => decide (clusterOfHurdle o.hurdle = c))
  let rest := s.sync.held.filter (fun o => decide (clusterOfHurdle o.hurdle ≠ c))
  mine.foldl applyHeld ({ s with sync := { s.sync with held := rest } } : State)

/-! ### The meanings -/

def execFePortLoad (c : Fin 32) (s : State) : Host.Outcome State Fault Refusal := .next (fePortLoad s c)
def execFePortStore (c : Fin 32) (value : Word) (s : State) : Host.Outcome State Fault Refusal := .next (fePortStore s c value.toNat)
def execBaton (q : Fin 4096) (s : State) : Host.Outcome State Fault Refusal := .next (issue s q 5 0x00 (fun s w => batonEff s q w))
/-- The baton's four words, and the Kamrus port that delivered it, if one did. -/
def execBatonArrival (w0 w1 w2 w3 : Word) (port : Option (Fin 12)) (s : State) : Host.Outcome State Fault Refusal :=
  .next (batonArrives s (batonOf [w0.toNat, w1.toNat, w2.toNat, w3.toNat]) (port.map (fun p => p.val)))
def execBatonRelease (w : Fin 2048) (s : State) : Host.Outcome State Fault Refusal := .next (batonRelease s w)
def execHurWinWrite (w : Fin 2048) (isLen : Bool) (value : Word) (s : State) : Host.Outcome State Fault Refusal :=
  .next (hurReach s (w.val / 64 * 2048) (winWrite s w isLen value.toNat))

end Sys2Proof.Machine
end

