-- ==== Sys2Proof/Machine/Scalar.lean ====
section
/-!
DEFINITION. The loop class of a core's scalar unit (R130-R134): arithmetic, immediates, loops, branches, scalar loads and
stores, FENCE, HALT, SIGNAL; and the fault of a queue.
-/
namespace Sys2Proof.Machine

/-- An instruction that only writes S[SD] (R130). -/
def scalWrite (s : State) (q w v : Nat) : State := ((s.countIssue q).setS q (wR0 w) v).doneHead q

/-- The arithmetic of OP 0x08 to 0x10 (R130): mul keeps the low 64 bits; shifts use b[5:0]. -/
def scalOp (op a b : Nat) : Nat :=
  match op with
  | 0x08 => (a + b) % 2 ^ 64
  | 0x09 => (a + (2 ^ 64 - b % 2 ^ 64)) % 2 ^ 64
  | 0x0A => a * b % 2 ^ 64
  | 0x0B => a &&& b
  | 0x0C => a ||| b
  | 0x0D => a ^^^ b
  | 0x0E => a * 2 ^ (b % 64) % 2 ^ 64
  | 0x0F => a / 2 ^ (b % 64)
  | _ => wrapInt 64 (sext 64 a / ((2 ^ (b % 64) : Nat) : Int))

def scalArith (op : Nat) (s : State) (q w : Nat) : State := scalWrite s q w (scalOp op (s.sreg q (wR1 w)) (scalB s q w))

/-- loop (R131): count 0 skips the body, else a level is pushed and the body begins. -/
def loopEff (s : State) (q w : Nat) : State :=
  let n := if wIMMSEL w then wIMM w else s.sreg q (wR1 w)
  let pc := s.qPC q
  let s := (s.countIssue q).unhold q
  if n = 0 then s.advanceFrom q (pc + wLEN w)
  else (s.setLoops q (⟨pc + 1, pc + wLEN w, n, 0⟩ :: s.loopStack q)).wr F.VEC_Q_PC_PC q (pc + 1)

/-- lidx (R130): the iteration index of a loop level; the spec states no index for a level that is not on the stack: a free value, the
same in every run (R25). -/
def lidxEff (s : State) (q w : Nat) : State :=
  match (s.loopStack q)[bits (wIMM w) 0 2]? with
  | some l => scalWrite s q w l.index
  | none => scalWrite s q w (Config.openLoopIndex (bits (wIMM w) 0 2) (s.loopStack q).length)

/-- br (R130, R132): a taken branch removes the loop levels whose body its target lies outside of, and every level
inside them. -/
def brEff (s : State) (q w : Nat) : State :=
  if brTaken s q w then
    let t := (brTarget s q w).toNat
    let inside := fun (l : LoopLvl) => decide (l.first ≤ t ∧ t ≤ l.last)
    let keep := ((s.loopStack q).reverse.takeWhile inside).reverse
    ((((s.countIssue q).unhold q)).setLoops q keep).wr F.VEC_Q_PC_PC q t
  else (s.countIssue q).doneHead q

/-- Performs the scalar load or store at the head (R128, R172). -/
def scalAccess (s : State) (q w : Nat) : State :=
  let a := scalAddr s q w
  let store := decide (wOp w = 0x14)
  let s := s.countIssue q
  if padDown s a then s.faultQueue q 0x08
  else
    let s1 := if store then s.commit a (bytesLE 8 (s.sreg q (wR2 w))) else s.setS q (wR0 w) (s.word (a / 8))
    (feLeave s1 (wLFE w) store [a / 8]).doneHead q

/-- sld and sst: the access is performed, or waits at the load and store port with WAIT_ON 0x3 (R118, R173). -/
def scalMem (s : State) (q w : Nat) : State :=
  let a := scalAddr s q w
  let store := decide (wOp w = 0x14)
  if padBusy s a then s.holdHead q 0x3 .plain
  else if padDown s a || mayAccess s s.sync.waiters (wLFE w) store [a / 8] then scalAccess s q w
  else (s.addWaiter ⟨.lsu q, wLFE w, store, [a / 8]⟩).holdHead q 0x3 .access

/-- fence (R117, R130): waits until every earlier instruction of the queue is complete. -/
def fenceEff (s : State) (q : Nat) : State :=
  if writesPending s q || streamsPending s q then s.holdHead q 0x7 .plain else (s.countIssue q).doneHead q

/-- halt (R130): HALTED with PC on the next word. -/
def haltEff (s : State) (q : Nat) : State := ((s.countIssue q).doneHead q).wr F.VEC_Q_STAT_STATE q qHALTED

/-- signal (R130). -/
def signalEff (s : State) (q : Nat) : State := ((s.countIssue q).flagMC F.VEC_Q_STAT_EVENT q).doneHead q

/-- QUEUE_FAULT (R134): the head of a running queue that meets a fault faults it. -/
def queueFault (s : State) (q : Nat) : State :=
  if s.running q && !(coreStopped s (coreOfQueue q)) && decide (s.headWait q = .plain) && s.on F.VEC_CTRL_EN (coreOfQueue q) then
    match headFault s q with
    | some c => s.faultQueue q c
    | none => s
  else s

/-! ### The meanings -/

def execNop (q : Fin 4096) (s : State) : Host.Outcome State Fault Refusal :=
  .next (issue s q 7 0x00 (fun s _ => (s.countIssue q).doneHead q))
def execLoop (q : Fin 4096) (s : State) : Host.Outcome State Fault Refusal := .next (issue s q 7 0x01 (fun s w => loopEff s q w))
def execLidx (q : Fin 4096) (s : State) : Host.Outcome State Fault Refusal := .next (issue s q 7 0x02 (fun s w => lidxEff s q w))
def execBr (q : Fin 4096) (s : State) : Host.Outcome State Fault Refusal := .next (issue s q 7 0x03 (fun s w => brEff s q w))
def execAdd (q : Fin 4096) (s : State) : Host.Outcome State Fault Refusal := .next (issue s q 7 0x08 (fun s w => scalArith 0x08 s q w))
def execSub (q : Fin 4096) (s : State) : Host.Outcome State Fault Refusal := .next (issue s q 7 0x09 (fun s w => scalArith 0x09 s q w))
def execMul (q : Fin 4096) (s : State) : Host.Outcome State Fault Refusal := .next (issue s q 7 0x0A (fun s w => scalArith 0x0A s q w))
def execAnd (q : Fin 4096) (s : State) : Host.Outcome State Fault Refusal := .next (issue s q 7 0x0B (fun s w => scalArith 0x0B s q w))
def execOr (q : Fin 4096) (s : State) : Host.Outcome State Fault Refusal := .next (issue s q 7 0x0C (fun s w => scalArith 0x0C s q w))
def execXor (q : Fin 4096) (s : State) : Host.Outcome State Fault Refusal := .next (issue s q 7 0x0D (fun s w => scalArith 0x0D s q w))
def execShl (q : Fin 4096) (s : State) : Host.Outcome State Fault Refusal := .next (issue s q 7 0x0E (fun s w => scalArith 0x0E s q w))
def execShr (q : Fin 4096) (s : State) : Host.Outcome State Fault Refusal := .next (issue s q 7 0x0F (fun s w => scalArith 0x0F s q w))
def execSar (q : Fin 4096) (s : State) : Host.Outcome State Fault Refusal := .next (issue s q 7 0x10 (fun s w => scalArith 0x10 s q w))
def execLi (q : Fin 4096) (s : State) : Host.Outcome State Fault Refusal := .next (issue s q 7 0x11 (fun s w => scalWrite s q w (wIMMs w)))
/-- lih (R130): IMM32 goes to the upper half, the lower half stays. -/
def execLih (q : Fin 4096) (s : State) : Host.Outcome State Fault Refusal :=
  .next (issue s q 7 0x12 (fun s w => scalWrite s q w (s.sreg q (wR0 w) % 2 ^ 32 + wIMM w * 2 ^ 32)))
def execSld (q : Fin 4096) (s : State) : Host.Outcome State Fault Refusal := .next (issue s q 7 0x13 (fun s w => scalMem s q w))
def execSst (q : Fin 4096) (s : State) : Host.Outcome State Fault Refusal := .next (issue s q 7 0x14 (fun s w => scalMem s q w))
def execFence (q : Fin 4096) (s : State) : Host.Outcome State Fault Refusal := .next (issue s q 7 0x15 (fun s _ => fenceEff s q))
def execHalt (q : Fin 4096) (s : State) : Host.Outcome State Fault Refusal := .next (issue s q 7 0x16 (fun s _ => haltEff s q))
def execSignal (q : Fin 4096) (s : State) : Host.Outcome State Fault Refusal := .next (issue s q 7 0x17 (fun s _ => signalEff s q))
def execQueueFault (q : Fin 4096) (s : State) : Host.Outcome State Fault Refusal := .next (queueFault s q)

end Sys2Proof.Machine
end

