-- ==== Sys2Proof/Machine/Vector.lean ====
section
/-!
DEFINITION. The vector unit of a core (R126-R129): lane arithmetic after IEEE 754-2019 with the deviations of R77, the
reductions, loads and stores, and the completion record of an open vector operation.
-/
namespace Sys2Proof.Machine

/-- What one lane computes: its code, and the events that count for it (R129). -/
structure Lane where
  val : Nat
  sat : Bool
  flushed : Bool
  invalid : Bool
  nanOut : Bool
  deriving DecidableEq, Repr

def Lane.plain (v : Nat) : Lane := ⟨v, false, false, false, false⟩

/-! ### Elements and types -/

/-- Bits of an element of a TYPE: 64 for FP64, 32 for FP32 and INT32. -/
def typeWidth (t : Nat) : Nat := if t = 1 then 64 else 32
def typeLanes (t : Nat) : Nat := if t = 1 then 32 else 64
/-- The floating-point format of a TYPE. -/
def typeFmt (t : Nat) : FloatFmt := if t = 1 then fp64 else fp32
/-- The format code of a TYPE (R55, R129). -/
def typeCode (t : Nat) : Nat := match t with | 0 => 0x00 | 1 => 0x03 | _ => 0x0E

/-- Element `i` of `w` bits of a vector register. -/
def elemOf (v w i : Nat) : Nat := bits v (w * i) w
/-- A vector register with element `i` of `w` bits replaced. -/
def setElem (v w i x : Nat) : Nat := setBits v (w * i) w x

/-- The value of an element of a TYPE. -/
def typeVal (t c : Nat) : Val :=
  if t = 2 then let i := sext 32 c; .fin (decide (i < 0)) ⟨i.natAbs, 1⟩ else (typeFmt t).decode c

/-! ### IEEE results (R76) -/

/-- The rounding direction of RM (R126). -/
def rmOf (rm : Nat) : Rnd := match rm with | 0 => .rne | 1 => .rtz | 2 => .rup | _ => .rdn

/-- An IEEE result of an exact finite value: overflow follows the direction, underflow is tiny and inexact. -/
def ieeeRound (f : FloatFmt) (rm : Rnd) (neg : Bool) (m : Frac) : Lane :=
  let r := f.round rm neg m
  let toInf := match rm with | .rne => true | .rup => !neg | .rdn => neg | _ => false
  let tiny := if Config.tinyAfterRounding then r.tinyAfter else r.tinyBefore
  if r.tooBig then ⟨if toInf then f.infCode neg else f.signBit neg + f.maxCode, true, false, false, false⟩
  else ⟨r.code, false, tiny && r.inexact, false, false⟩

/-- A NaN result: the canonical NaN; invalid when no operand was NaN (R57). -/
def laneNaN (f : FloatFmt) (invalid : Bool) : Lane := ⟨f.canonNaN, false, false, invalid, true⟩
def laneInf (f : FloatFmt) (neg : Bool) : Lane := Lane.plain (f.infCode neg)

/-- The sign of an exact zero sum (IEEE 754-2019 6.3): the common sign of its terms, else minus only toward -infinity. -/
def zeroSumSign (rm : Rnd) (a b : Bool) : Bool := if a = b then a else decide (rm = .rdn)

/-- The sum of two values. -/
def ieeeAdd (f : FloatFmt) (rm : Rnd) (a b : Val) : Lane :=
  match a, b with
  | .nan, _ => laneNaN f false
  | _, .nan => laneNaN f false
  | .inf x, .inf y => if x = y then laneInf f x else laneNaN f true
  | .inf x, .fin _ _ => laneInf f x
  | .fin _ _, .inf y => laneInf f y
  | .fin x m, .fin y n =>
    let v := Frac.add (Val.frac (.fin x m)) (Val.frac (.fin y n))
    if Frac.isZero v then Lane.plain (f.signBit (if Frac.isZero m then zeroSumSign rm x y else decide (rm = .rdn)))
    else ieeeRound f rm (Frac.isNeg v) (Frac.abs v)

/-- A value with its sign inverted. -/
def Val.negate : Val → Val
  | .nan => .nan
  | .inf x => .inf (!x)
  | .fin x m => .fin (!x) m

/-- The product of two values, exact, and whether it is an invalid operation. -/
def valMul (a b : Val) : Val × Bool :=
  match a, b with
  | .nan, _ => (.nan, false)
  | _, .nan => (.nan, false)
  | .inf x, .inf y => (.inf (xor x y), false)
  | .inf x, .fin y n => if Frac.isZero n then (.nan, true) else (.inf (xor x y), false)
  | .fin x m, .inf y => if Frac.isZero m then (.nan, true) else (.inf (xor x y), false)
  | .fin x m, .fin y n => (.fin (xor x y) (Frac.mul m n), false)

/-- Rounds an exact value. -/
def ieeeOf (f : FloatFmt) (rm : Rnd) (v : Val) (invalid : Bool) : Lane :=
  match v with
  | .nan => laneNaN f invalid
  | .inf x => laneInf f x
  | .fin x m => ieeeRound f rm x m

def ieeeMul (f : FloatFmt) (rm : Rnd) (a b : Val) : Lane := let p := valMul a b; ieeeOf f rm p.1 p.2

/-- a x b + c with one rounding; not counted invalid when an operand is NaN. -/
def ieeeFma (f : FloatFmt) (rm : Rnd) (a b c : Val) : Lane :=
  let p := valMul a b
  if p.2 then laneNaN f (!(Val.isNaN c)) else ieeeAdd f rm p.1 c

def ieeeDiv (f : FloatFmt) (rm : Rnd) (a b : Val) : Lane :=
  match a, b with
  | .nan, _ => laneNaN f false
  | _, .nan => laneNaN f false
  | .inf _, .inf _ => laneNaN f true
  | .inf x, .fin y _ => laneInf f (xor x y)
  | .fin x _, .inf y => Lane.plain (f.signBit (xor x y))
  | .fin x m, .fin y n =>
    if Frac.isZero n then (if Frac.isZero m then laneNaN f true else laneInf f (xor x y))
    else ieeeRound f rm (xor x y) (Frac.div m n)

/-- A fraction on the same side of every rounding boundary as the square root of `x`: the root cut to 70 places below its
leading bit, with a trailing bit that tells an inexact root. -/
def sqrtFrac (x : Frac) : Frac :=
  let e := Frac.ilog2 x
  let sh : Int := 140 - 2 * (e / 2)
  let y := Frac.scale x sh
  let n := (Frac.floor y).toNat
  let r := isqrtBits n 72 0
  let exactRoot := decide (r * r = n) && Frac.eq y (Frac.ofInt n)
  Frac.scale (Frac.ofInt (2 * r + (if exactRoot then 0 else 1) : Nat)) (-(sh / 2) - 1)

def ieeeSqrt (f : FloatFmt) (rm : Rnd) (a : Val) : Lane :=
  match a with
  | .nan => laneNaN f false
  | .inf x => if x then laneNaN f true else laneInf f false
  | .fin x m =>
    if Frac.isZero m then Lane.plain (f.signBit x)
    else if x then laneNaN f true
    else ieeeRound f rm false (sqrtFrac m)

/-- a lies below b, with -0 below +0 (R127). -/
def valBelow (a b : Val) : Bool :=
  match a, b with
  | .inf x, .inf y => x && !y
  | .inf x, .fin _ _ => x
  | .fin _ _, .inf y => !y
  | .fin x m, .fin y n =>
    if Frac.isZero m && Frac.isZero n then x && !y else Frac.lt (Val.frac (.fin x m)) (Val.frac (.fin y n))
  | _, _ => false

/-- vmin or vmax of two codes of a TYPE (R127): NaN if either is NaN. -/
def minMax (t : Nat) (wantMax : Bool) (a b : Nat) : Lane :=
  let x := typeVal t a
  let y := typeVal t b
  if Val.isNaN x || Val.isNaN y then laneNaN (typeFmt t) false
  else if valBelow x y then Lane.plain (if wantMax then b else a) else Lane.plain (if wantMax then a else b)

/-- Equality of values: zeros of either sign are equal, NaN equals nothing. -/
def valEq (a b : Val) : Bool :=
  match a, b with
  | .inf x, .inf y => decide (x = y)
  | .fin x m, .fin y n => Frac.eq (Val.frac (.fin x m)) (Val.frac (.fin y n))
  | _, _ => false

/-- The comparisons of vcmp (R127). -/
def cmpVal (c : Nat) (a b : Val) : Bool :=
  if Val.isNaN a || Val.isNaN b then decide (c = 1 ∨ c = 6)
  else
    let lt := valBelow a b && !(valEq a b)
    let gt := valBelow b a && !(valEq a b)
    match c with
    | 0 => valEq a b | 1 => !(valEq a b) | 2 => lt | 3 => !gt | 4 => gt | 5 => !lt | _ => false

/-- vcvt of a value to a format code (R127, R129). -/
def cvtLane (code : Nat) (rm : Rnd) (fromInt : Bool) (v : Val) : Lane :=
  match floatOf code with
  | some f => ieeeOf f rm v false
  | none =>
    match v with
    | .nan => ⟨0, false, false, true, false⟩
    | .inf x => ⟨if x then 0x80000000 else 0x7FFFFFFF, false, false, true, false⟩
    | .fin x m =>
      let n : Int := ((roundInt rm x m).1 : Int)
      let i := if x then -n else n
      if 0x7FFFFFFF < i then ⟨0x7FFFFFFF, false, false, !fromInt, false⟩
      else if i < -0x80000000 then ⟨0x80000000, false, false, !fromInt, false⟩
      else Lane.plain (wrapInt 32 i)

/-! ### Lane masks and the open operation (R126, R129) -/

/-- Lane `i` executes (R126): vsel ignores PEN (R127). -/
def laneOn (s : State) (q w i : Nat) : Bool :=
  !(wPEN w) || decide (wOp w = 0x0B) || decide ((bit (s.preg q (wPSEL w)) i + wPNEG w) % 2 = 1)

def State.vop (s : State) (q : Nat) : VOp := Tab.get VOp.none s.tile.vops q
def State.setVop (s : State) (q : Nat) (v : VOp) : State := { s with tile := { s.tile with vops := Tab.set VOp.none s.tile.vops q v } }

/-- An element copied as it is, of a TYPE: it counts as written NaN when it is one (R78, R129). DEDUCED (log entry 101). -/
def Lane.copy (t v : Nat) : Lane := { Lane.plain v with nanOut := Val.isNaN (typeVal t v) }

/-- Adds the counts of an instruction's lanes, in lane order, to the open vector operation; `writes` when it writes a result. -/
def countLanes (s : State) (q : Nat) (ls : List (Nat × Lane)) (writes : Bool) : State :=
  let v := s.vop q
  let n := fun (p : Lane → Bool) => (ls.filter (fun x => p x.2)).length
  let first := match v.firstInv with
    | some i => some i
    | none => ((ls.filter (fun x => x.2.invalid)).map (fun x => v.instrs * 64 + x.1)).head?
  (s.setVop q { instrs := v.instrs + 1, sat := v.sat + n Lane.sat, flushed := v.flushed + n Lane.flushed,
                invalid := v.invalid + n Lane.invalid, nanOut := v.nanOut + n Lane.nanOut, firstInv := first,
                tStart := some (v.tStart.getD s.trk.ts), tEnd := if writes then s.trk.ts else v.tEnd }).bump C.VEC_VOP_CNT (coreOfQueue q) 1

/-- Ends a vector instruction whose lanes are counted. -/
def vecDone (s : State) (q : Nat) (ls : List (Nat × Lane)) : State := (countLanes (s.countIssue q) q ls true).doneHead q

/-- The lanes below `n` that execute. -/
def lanesOn (s : State) (q w n : Nat) : List Nat := (List.range n).filter (laneOn s q w)

/-- Operand codes of lane `i`: a, b (the broadcast S register with BCAST) and c. -/
def opA (s : State) (q w i : Nat) : Nat := elemOf (s.vreg q (wR1 w)) (typeWidth (wTYPE w)) i
def opB (s : State) (q w i : Nat) : Nat :=
  if wBCAST w then bits (s.sreg q (wVSA w)) 0 (typeWidth (wTYPE w)) else elemOf (s.vreg q (wR2 w)) (typeWidth (wTYPE w)) i
def opC (s : State) (q w i : Nat) : Nat := elemOf (s.vreg q (wR3 w)) (typeWidth (wTYPE w)) i

/-- An instruction that writes each executing lane of VD (R126): masked lanes keep their elements. -/
def vecMap (s : State) (q w : Nat) (f : Nat → Lane) : State :=
  let tw := typeWidth (wTYPE w)
  let ls := (lanesOn s q w (typeLanes (wTYPE w))).map (fun i => (i, f i))
  let v := ls.foldl (fun v x => setElem v tw x.1 x.2.val) (s.vreg q (wR0 w))
  vecDone (s.setV q (wR0 w) v) q ls

/-- Two-operand arithmetic of OP 0x00 to 0x02 (R127). -/
def vecArith (op t rm a b : Nat) : Lane :=
  if t = 2 then
    match op with
    | 0 => Lane.plain ((a + b) % 2 ^ 32)
    | 1 => Lane.plain ((a + (2 ^ 32 - b % 2 ^ 32)) % 2 ^ 32)
    | _ => Lane.plain (a * b % 2 ^ 32)
  else
    let f := typeFmt t
    let x := f.decode a
    let y := f.decode b
    match op with
    | 0 => ieeeAdd f (rmOf rm) x y
    | 1 => ieeeAdd f (rmOf rm) x (Val.negate y)
    | _ => ieeeMul f (rmOf rm) x y

/-- vabs and vneg (R127): the sign cleared or inverted; a NaN gives the canonical NaN. -/
def vecSign (neg : Bool) (t a : Nat) : Lane :=
  let f := typeFmt t
  if Val.isNaN (f.decode a) then laneNaN f false
  else
    let m := bits a 0 (f.ebits + f.fbits)
    Lane.plain (m + (if neg && decide (bit a (f.ebits + f.fbits) = 0) then 2 ^ (f.ebits + f.fbits) else 0))

def vecArithEff (op : Nat) (s : State) (q w : Nat) : State :=
  vecMap s q w (fun i => vecArith op (wTYPE w) (wRM w) (opA s q w i) (opB s q w i))
def vfmaEff (s : State) (q w : Nat) : State :=
  let f := typeFmt (wTYPE w)
  vecMap s q w (fun i => ieeeFma f (rmOf (wRM w)) (f.decode (opA s q w i)) (f.decode (opB s q w i)) (f.decode (opC s q w i)))
def vdivEff (s : State) (q w : Nat) : State :=
  let f := typeFmt (wTYPE w)
  vecMap s q w (fun i => ieeeDiv f (rmOf (wRM w)) (f.decode (opA s q w i)) (f.decode (opB s q w i)))
def vsqrtEff (s : State) (q w : Nat) : State :=
  let f := typeFmt (wTYPE w)
  vecMap s q w (fun i => ieeeSqrt f (rmOf (wRM w)) (f.decode (opA s q w i)))
def vminmaxEff (wantMax : Bool) (s : State) (q w : Nat) : State :=
  vecMap s q w (fun i => minMax (wTYPE w) wantMax (opA s q w i) (opB s q w i))
def vsignEff (neg : Bool) (s : State) (q w : Nat) : State := vecMap s q w (fun i => vecSign neg (wTYPE w) (opA s q w i))

/-- vcmp (R127): one predicate bit per executing lane. -/
def vcmpEff (s : State) (q w : Nat) : State :=
  let t := wTYPE w
  let p := bits (wR0 w) 0 3
  let on := lanesOn s q w (typeLanes t)
  let v := on.foldl (fun v i => setBits v i 1 (b2n (cmpVal (bits (wIMM w) 0 3) (typeVal t (opA s q w i)) (typeVal t (opB s q w i))))) (s.preg q p)
  vecDone (s.setP q p v) q (on.map (fun i => (i, Lane.plain 0)))

/-- vsel (R127): the predicate bit of the lane selects a or b. -/
def vselEff (s : State) (q w : Nat) : State :=
  vecMap s q w (fun i => Lane.copy (wTYPE w) (if bit (s.preg q (wPSEL w)) i = 1 then opA s q w i else opB s q w i))

/-- vcvt (R127): element i of VD, of the target's size, from element i of VA; as many lanes as both registers hold. -/
def vcvtEff (s : State) (q w : Nat) : State :=
  let t := wTYPE w
  let code := bits (wIMM w) 0 5
  let dw := if code = 0x03 then 64 else 32
  let n := if t = 1 ∨ code = 0x03 then 32 else 64
  let ls := (lanesOn s q w n).map (fun i => (i, cvtLane code (rmOf (wRM w)) (decide (t = 2)) (typeVal t (opA s q w i))))
  let v := ls.foldl (fun v x => setElem v dw x.1 x.2.val) (s.vreg q (wR0 w))
  vecDone (s.setV q (wR0 w) v) q ls

/-- One level of the pairwise tree (R76). DESIGN CHOICE (log entry 99): the spec does not say what a masked lane gives in the tree; a
lane that does not execute passes its partner on, unrounded. -/
def treeLevel (f : FloatFmt) (rm : Rnd) : List (Option Lane) → List (Option Lane)
  | [] => []
  | [x] => [x]
  | x :: y :: r =>
    (match x, y with
     | some a, some b =>
       let c := ieeeAdd f rm (f.decode a.val) (f.decode b.val)
       some ⟨c.val, a.sat || b.sat || c.sat, a.flushed || b.flushed || c.flushed, a.invalid || b.invalid || c.invalid, c.nanOut⟩
     | some a, none => some a
     | none, some b => some b
     | none, none => none) :: treeLevel f rm r

/-- The sum of the executing lanes in the fixed tree; none when no lane executes. -/
def treeSum (f : FloatFmt) (rm : Rnd) : Nat → List (Option Lane) → Option Lane
  | 0, l => (l.head?).getD none
  | k + 1, l => treeSum f rm k (treeLevel f rm l)

/-- A leaf of the tree: the lane's value, a NaN as the canonical one (R77). -/
def leaf (f : FloatFmt) (c : Nat) : Lane := if Val.isNaN (f.decode c) then laneNaN f false else Lane.plain c

/-- vred (R127). DESIGN CHOICE (log entry 99): the events of the tree's nodes count together as one element at lane 0; with no executing
lane S[SA] stays. -/
def vredEff (s : State) (q w : Nat) : State :=
  let f := typeFmt (wTYPE w)
  let ls := (List.range (typeLanes (wTYPE w))).map (fun i =>
    if laneOn s q w i then some (leaf f (opA s q w i)) else none)
  match treeSum f (rmOf (wRM w)) 6 ls with
  | some l => vecDone (s.setS q (wVSA w) l.val) q [(0, l)]
  | none => vecDone s q []

/-- vrmax (R127). -/
def vrmaxEff (s : State) (q w : Nat) : State :=
  let t := wTYPE w
  match (lanesOn s q w (typeLanes t)).map (opA s q w) with
  | [] => vecDone s q []
  | x :: r =>
    let l := r.foldl (fun l y => minMax t true l.val y) (if Val.isNaN (typeVal t x) then laneNaN (typeFmt t) false else Lane.plain x)
    vecDone (s.setS q (wVSA w) l.val) q [(0, l)]

/-- vmovs (R127): one lane of VD from S[SA]. -/
def vmovsEff (s : State) (q w : Nat) : State :=
  let t := wTYPE w
  let i := bits (wIMM w) 0 6 % typeLanes t
  let x := bits (s.sreg q (wVSA w)) 0 (typeWidth t)
  if laneOn s q w i then vecDone (s.setV q (wR0 w) (setElem (s.vreg q (wR0 w)) (typeWidth t) i x)) q [(i, Lane.copy t x)] else vecDone s q []

/-- vmovv (R127): S[SA] from one lane of VA. -/
def vmovvEff (s : State) (q w : Nat) : State :=
  let t := wTYPE w
  let i := bits (wIMM w) 0 6 % typeLanes t
  if laneOn s q w i then vecDone (s.setS q (wVSA w) (opA s q w i)) q [(i, Lane.copy t (opA s q w i))] else vecDone s q []

/-- Bitwise operations and shifts of INT32 (R127). -/
def vecBits (op a b sh : Nat) : Lane :=
  match op with
  | 0x14 => Lane.plain (a &&& b)
  | 0x15 => Lane.plain (a ||| b)
  | 0x16 => Lane.plain (a ^^^ b)
  | 0x17 => Lane.plain (a * 2 ^ sh % 2 ^ 32)
  | _ => Lane.plain (a / 2 ^ sh)

def vecBitsEff (op : Nat) (s : State) (q w : Nat) : State :=
  vecMap s q w (fun i => vecBits op (opA s q w i) (opB s q w i) (bits (wIMM w) 0 5))

/-! ### Loads and stores (R128) -/

/-- The words, counted from the access address, that hold an executing lane (R128). -/
def vecWords (s : State) (q w : Nat) : List Nat :=
  let t := wTYPE w
  (List.range 32).filter (fun k => if t = 1 then laneOn s q w k else laneOn s q w (2 * k) || laneOn s q w (2 * k + 1))

/-- Of those words, the ones whose every element executes: only an access to a whole word changes its full/empty bit (R174). -/
def vecWhole (s : State) (q w : Nat) : List Nat :=
  (vecWords s q w).filter (fun k => decide (wTYPE w = 1) || (laneOn s q w (2 * k) && laneOn s q w (2 * k + 1)))

/-- Performs the vector load at the head: executing lanes take their elements. -/
def vldAccess (s : State) (q w : Nat) : State :=
  let a := vecAddr s q w
  let t := wTYPE w
  let b := typeWidth t / 8
  let ws := (vecWords s q w).map (fun k => a / 8 + k)
  let whole := (vecWhole s q w).map (fun k => a / 8 + k)
  let s := s.countIssue q
  if ws.any (fun x => padDown s (x * 8)) then s.faultQueue q 0x08
  else
    let ls := (lanesOn s q w (typeLanes t)).map (fun i => (i, Lane.copy t (readNat s.sram (a + b * i) b)))
    let v := ls.foldl (fun v x => setElem v (typeWidth t) x.1 x.2.val) (s.vreg q (wR0 w))
    (countLanes (feLeave (s.setV q (wR0 w) v) (wVFE w) false whole) q ls true).doneHead q

/-- Performs the vector store at the head: executing lanes write their elements. -/
def vstAccess (s : State) (q w : Nat) : State :=
  let a := vecAddr s q w
  let t := wTYPE w
  let b := typeWidth t / 8
  let ws := (vecWords s q w).map (fun k => a / 8 + k)
  let whole := (vecWhole s q w).map (fun k => a / 8 + k)
  let s := s.countIssue q
  if ws.any (fun x => padDown s (x * 8)) then s.faultQueue q 0x08
  else
    let s := (lanesOn s q w (typeLanes t)).foldl (fun s i => s.commit (a + b * i) (bytesLE b (elemOf (s.vreg q (wR0 w)) (typeWidth t) i))) s
    (countLanes (feLeave s (wVFE w) true whole) q [] true).doneHead q

def vecAccess (s : State) (q w : Nat) : State := if wOp w = 0x11 then vstAccess s q w else vldAccess s q w

/-- vld and vst: performed, or waiting at the load and store port (R118, R173). -/
def vecMem (s : State) (q w : Nat) : State :=
  let a := vecAddr s q w
  let store := decide (wOp w = 0x11)
  let ws := (vecWords s q w).map (fun k => a / 8 + k)
  if ws.any (fun x => padBusy s (x * 8)) then s.holdHead q 0x3 .plain
  else if ws.any (fun x => padDown s (x * 8)) || mayAccess s s.sync.waiters (wVFE w) store ws then vecAccess s q w
  else (s.addWaiter ⟨.lsu q, wVFE w, store, ws⟩).holdHead q 0x3 .access

/-- vrec (R125, R129): closes the open vector operation and writes its record, which may wait for a memory under initialisation
(R111), or sets REC_ERR when it cannot be written. -/
def vrecEff (s : State) (q w : Nat) : State :=
  let s := countLanes (s.countIssue q) q [] false
  let v := s.vop q
  let c : OpCounts := ⟨v.sat, v.flushed, v.invalid, 0, 0, 0, v.nanOut, none, none, v.tStart.getD s.trk.ts, v.tEnd⟩
  let ws := recordWords ⟨0, 0x02, typeCode (wTYPE w), 0, false, false, recTag w q⟩ c 0 0 (fiIndex v.firstInv)
  let x := putRecord (s.setVop q VOp.none) (clusterOfQueue q) q none (s.sreg q (wVSREC w)) ws
  (x.1.wrIf x.2 F.VEC_STATUS_REC_ERR (coreOfQueue q) 1).doneHead q

/-! ### The meanings -/

def execVadd (q : Fin 4096) (s : State) : Host.Outcome State Fault Refusal := .next (issue s q 1 0x00 (fun s w => vecArithEff 0 s q w))
def execVsub (q : Fin 4096) (s : State) : Host.Outcome State Fault Refusal := .next (issue s q 1 0x01 (fun s w => vecArithEff 1 s q w))
def execVmul (q : Fin 4096) (s : State) : Host.Outcome State Fault Refusal := .next (issue s q 1 0x02 (fun s w => vecArithEff 2 s q w))
def execVfma (q : Fin 4096) (s : State) : Host.Outcome State Fault Refusal := .next (issue s q 1 0x03 (fun s w => vfmaEff s q w))
def execVdiv (q : Fin 4096) (s : State) : Host.Outcome State Fault Refusal := .next (issue s q 1 0x04 (fun s w => vdivEff s q w))
def execVsqrt (q : Fin 4096) (s : State) : Host.Outcome State Fault Refusal := .next (issue s q 1 0x05 (fun s w => vsqrtEff s q w))
def execVmin (q : Fin 4096) (s : State) : Host.Outcome State Fault Refusal := .next (issue s q 1 0x06 (fun s w => vminmaxEff false s q w))
def execVmax (q : Fin 4096) (s : State) : Host.Outcome State Fault Refusal := .next (issue s q 1 0x07 (fun s w => vminmaxEff true s q w))
def execVabs (q : Fin 4096) (s : State) : Host.Outcome State Fault Refusal := .next (issue s q 1 0x08 (fun s w => vsignEff false s q w))
def execVneg (q : Fin 4096) (s : State) : Host.Outcome State Fault Refusal := .next (issue s q 1 0x09 (fun s w => vsignEff true s q w))
def execVcmp (q : Fin 4096) (s : State) : Host.Outcome State Fault Refusal := .next (issue s q 1 0x0A (fun s w => vcmpEff s q w))
def execVsel (q : Fin 4096) (s : State) : Host.Outcome State Fault Refusal := .next (issue s q 1 0x0B (fun s w => vselEff s q w))
def execVcvt (q : Fin 4096) (s : State) : Host.Outcome State Fault Refusal := .next (issue s q 1 0x0C (fun s w => vcvtEff s q w))
def execVred (q : Fin 4096) (s : State) : Host.Outcome State Fault Refusal := .next (issue s q 1 0x0D (fun s w => vredEff s q w))
def execVrmax (q : Fin 4096) (s : State) : Host.Outcome State Fault Refusal := .next (issue s q 1 0x0E (fun s w => vrmaxEff s q w))
def execVld (q : Fin 4096) (s : State) : Host.Outcome State Fault Refusal := .next (issue s q 1 0x10 (fun s w => vecMem s q w))
def execVst (q : Fin 4096) (s : State) : Host.Outcome State Fault Refusal := .next (issue s q 1 0x11 (fun s w => vecMem s q w))
def execVmovs (q : Fin 4096) (s : State) : Host.Outcome State Fault Refusal := .next (issue s q 1 0x12 (fun s w => vmovsEff s q w))
def execVmovv (q : Fin 4096) (s : State) : Host.Outcome State Fault Refusal := .next (issue s q 1 0x13 (fun s w => vmovvEff s q w))
def execVand (q : Fin 4096) (s : State) : Host.Outcome State Fault Refusal := .next (issue s q 1 0x14 (fun s w => vecBitsEff 0x14 s q w))
def execVor (q : Fin 4096) (s : State) : Host.Outcome State Fault Refusal := .next (issue s q 1 0x15 (fun s w => vecBitsEff 0x15 s q w))
def execVxor (q : Fin 4096) (s : State) : Host.Outcome State Fault Refusal := .next (issue s q 1 0x16 (fun s w => vecBitsEff 0x16 s q w))
def execVshl (q : Fin 4096) (s : State) : Host.Outcome State Fault Refusal := .next (issue s q 1 0x17 (fun s w => vecBitsEff 0x17 s q w))
def execVshr (q : Fin 4096) (s : State) : Host.Outcome State Fault Refusal := .next (issue s q 1 0x18 (fun s w => vecBitsEff 0x18 s q w))
def execVrec (q : Fin 4096) (s : State) : Host.Outcome State Fault Refusal := .next (issue s q 1 0x1F (fun s w => vrecEff s q w))

end Sys2Proof.Machine
end

