-- ==== Sys2Proof/Machine/Context.lean ====
section
/-!
DEFINITION. A queue's states under register writes (R133), the instruction memory port (R135), context save and restore
(R136-R142, R167, R168), waiting accesses (R173), and the end of scratchpad initialisation (R111).
-/
namespace Sys2Proof.Machine

/-! ### START, STOP, CLEAR_FAULT (R133) -/

/-- What a waiting head of queue `q` left behind is removed: the access, the waiter, the held arrival (R173, R183). -/
def dropWaits (s : State) (q : Nat) : State :=
  let s := s.dropWaiters (.lsu q)
  { s with sync := { s.sync with
      hurWait := s.sync.hurWait.filter (fun w => decide (w.queue ≠ q)),
      held := s.sync.held.filter (fun o => match o with | .arrive _ _ (some (p, _, _)) => decide (p ≠ q) | _ => true) } }

/-- An engine whose page request a save has abandoned translates again when it goes on (R167, R168). -/
def retranslate (s : State) (g : Nat) : State :=
  let asked := fun (l : List (Nat × Option Nat)) => l.any (fun e => decide (e.2 = some g))
  if s.rd F.STM_STATUS_STATE g = 2 && !((s.stream g).wantsGroup) && !(asked s.pci.groups) && !(asked s.mem.groups) then resumeSet s g else s

/-- The stream engines of core `k` are suspended, and abandon their page requests (R167), or go on. -/
def setSuspended (s : State) (k : Nat) (v : Bool) : State :=
  [0, 1].foldl (fun s e =>
    let g := k * 2 + e
    let s := s.setStream g { s.stream g with suspended := v, wantsGroup := if v then false else (s.stream g).wantsGroup }
    if v then dropGroups s g else retranslate s g) s

/-- VEC_Q_START: IDLE, HALTED or SAVED becomes RUN; a stopped matrix instruction of the core goes on (R51), and stream
engines that a save suspended. -/
def queueStart (s : State) (q : Nat) : State :=
  let st := s.qState q
  let k := coreOfQueue q
  if s.coreDown k ∨ ¬ (st = qIDLE ∨ st = qHALTED ∨ st = qSAVED) then s
  else
    let s := s.wr F.VEC_Q_STAT_STATE q qRUN
    let s := (List.range 4).foldl (fun s e => continueStopped s (k * 4 + e)) s
    if s.on F.VEC_CTX_STATUS_BUSY k then s else setSuspended s k false

/-- VEC_Q_STOP: RUN or WAIT becomes IDLE; a waiting head is abandoned, PC stays on it. -/
def queueStop (s : State) (q : Nat) : State :=
  if s.running q then
    (((dropWaits s q).unhold q).setArrived q false).wr F.VEC_Q_STAT_STATE q qIDLE
  else s

def clearFault (s : State) (q : Nat) : State := if s.qState q = qFAULT then s.wr F.VEC_Q_STAT_STATE q qIDLE else s

/-- A write of VEC_Q_RANGE (R113, R143): ignored in RUN and WAIT; VMASK keeps the bits no other queue of the core holds. -/
def rangeWrite (s : State) (q v : Nat) : State :=
  if s.running q then s
  else
    let k := coreOfQueue q
    let others := (List.range 8).foldl (fun m i => if k * 8 + i = q then m else m ||| s.rd F.VEC_Q_RANGE_VMASK (k * 8 + i)) 0
    let want := bits v 32 32
    let got := (List.range 32).foldl (fun m i => if bit want i = 1 ∧ bit others i = 0 then m + 2 ^ i else m) 0
    let s := ((s.wr F.VEC_Q_RANGE_LO q (bits v 0 12)).wr F.VEC_Q_RANGE_HI q (bits v 16 12)).wr F.VEC_Q_RANGE_VMASK q got
    s.wrIf (decide (got ≠ want)) F.VEC_STATUS_VMASK_CLIPPED k 1

/-- A 64-bit write of VEC_IMEM_DATA_LO (R135): held until DATA_HI is written. -/
def imemLo (s : State) (k v : Nat) : State := { s with tile := { s.tile with imemLo := Tab.set 0 s.tile.imemLo k (BitVec.ofNat 64 v) } }

/-- A 64-bit write of VEC_IMEM_DATA_HI (R135): the word is stored unless a running queue may fetch it; ADDR increments. -/
def imemHi (s : State) (k v : Nat) : State :=
  let a := s.rd F.VEC_IMEM_ADDR_WORD k
  let busy := (List.range 8).any (fun i => let q := k * 8 + i
    s.running q && decide (s.rd F.VEC_Q_RANGE_LO q ≤ a) && decide (a ≤ s.rd F.VEC_Q_RANGE_HI q))
  let w := (Tab.get 0 s.tile.imemLo k).toNat + v % 2 ^ 64 * 2 ^ 64
  let s := if busy then s.wr F.VEC_STATUS_IMEM_REFUSED k 1
    else { s with tile := { s.tile with imem := Tab.set 0 s.tile.imem (k * 4096 + a) (BitVec.ofNat 128 w) } }
  s.wr F.VEC_IMEM_ADDR_WORD k (a + 1)

/-! ### The parts of a save area (R138) -/

def ctxWords (ws : List Nat) : List Byte := ws.flatMap (fun w => bytesLE 8 w)
def padTo (n : Nat) (bs : List Byte) : List Byte := bs ++ List.replicate (n - bs.length) 0

/-- A loop level in three words: start [11:0] and end [27:16], remaining count, index. -/
def loopWords (l : LoopLvl) : List Nat := [l.first % 4096 + l.last % 4096 * 2 ^ 16, l.left, l.index]

/-- The open vector operation in eight words (their layout is the model's). -/
def vopWords (v : VOp) : List Nat :=
  [v.instrs, v.sat, v.flushed, v.invalid, v.nanOut, (match v.firstInv with | some n => n + 2 ^ 63 | none => 0),
   (match v.tStart with | some n => n + 2 ^ 63 | none => 0), v.tEnd]

/-- A queue's state as it is saved: WAIT as RUN. -/
def savedState (s : State) (q : Nat) : Nat := if s.qState q = qWAIT then qRUN else s.qState q

/-- A queue record. -/
def queueWords (s : State) (q : Nat) : List Nat :=
  let ls := s.loopStack q
  [s.qPC q + savedState s q * 2 ^ 12 + ls.length % 8 * 2 ^ 16 + b2n (s.arrivedMark q) * 2 ^ 19 + s.rd F.VEC_Q_RANGE_VMASK q * 2 ^ 32,
   s.rd F.VEC_Q_RANGE_LO q + s.rd F.VEC_Q_RANGE_HI q * 2 ^ 16] ++
  ((List.range 4).flatMap (fun i => match ls[i]? with | some l => loopWords l | none => [0, 0, 0])) ++ [0, 0] ++ vopWords (s.vop q)

/-- A replay entry (R137; its layout is the model's): valid, the word, eight parameters, record and descriptor DA,
NB_START, queue, and words 1 to 6 of the record so far. -/
def replayWords (i : OpIns) (nb : Nat) (c : OpCounts) : List Nat :=
  let fi := fiMatrix c
  let rec6 := recordWords ⟨0, 0, 0, 0, false, false, 0⟩ c 0 fi.1 fi.2
  [1 + nb % 128 * 2 ^ 8 + i.queue % 4096 * 2 ^ 16, i.word % 2 ^ 64, i.word / 2 ^ 64] ++ (List.range 8).map (fun j => i.par.getD j 0) ++
    [i.recDA, i.sqd] ++ (List.range 6).map (fun j => rec6.getD (j + 1) 0)

/-- Replay entry `n` of core `k`: engine `n / 2`, current or staged. -/
def replayEntry (s : State) (k n : Nat) : List Nat :=
  let g := s.eng (k * 4 + n / 2)
  if n % 2 = 0 then (match g.cur with | some r => replayWords r.ins (s.rd F.MXE_RESUME_NB_START (k * 4 + n / 2)) r.cnt | none => [])
  else (match g.staged with | some i => replayWords i 0 (OpCounts.start s.trk.ts) | none => [])

/-! ### Stream engines in a save (R167) -/

/-- The first transfer in walk order that is not delivered. -/
def firstUndelivered (a : StmSet) : Nat × Nat :=
  let open_ := (a.issued.filter (fun i => decide (i.st ≠ .acked) && !((linesOf i).all (delivered a i.desc)))).map (fun i => (i.desc, i.pos))
  open_.foldl (fun b x => if x.1 < b.1 ∨ (x.1 = b.1 ∧ x.2 < b.2) then x else b) (a.next, a.pos)

/-- The engine has stopped at a transfer boundary, nothing is on its way, and no completed descriptor waits. -/
def streamQuiet (s : State) (x : Stream) : Bool :=
  [x.set0, x.set1].all (fun a => setQuiet s a && (List.range a.descs.length).all (fun j => !(dscFinished a j)))

/-- A set's checkpoint in a save: the one it is stopped with, else its first transfer not delivered. -/
def setCkpt (s : State) (a : StmSet) (k : Nat) : List Nat :=
  if !a.armed then []
  else if !(a.ckpt.isEmpty) then a.ckpt
  else if a.next = 0 ∧ a.pos = 0 ∧ a.issued.isEmpty then []
  else let p := firstUndelivered a; ckptWords a k 1 p.1 p.2 0 0 0 s.trk.ts

/-- The 2 KiB of engine `g` in the save area. -/
def streamBytes (s : State) (g : Nat) : List Byte :=
  let x := s.stream g
  let armed := b2n x.set0.armed + 2 * b2n x.set1.armed
  let run := x.order.headD 0
  let first := x.older
  let ctrl := s.rd F.STM_CTRL_EN g + s.rd F.STM_CTRL_PANIC_EN g * 2 ^ 3 + s.rd F.STM_CTRL_RATE g * 2 ^ 8 + s.rd F.STM_CTRL_PANIC_TH g * 2 ^ 32
  let part := fun (a : StmSet) (k : Nat) =>
    padTo 0x40 (ctxWords [a.list + a.count * 2 ^ 48, a.laps.getD ((a.dsc a.next).dlTrk) 0]) ++ padTo 0x40 (ctxWords (setCkpt s a k))
  padTo 0x800 (padTo 0x40 (ctxWords [armed + run * 4 + first * 8, ctrl]) ++ part x.set0 0 ++ part x.set1 1)

/-! ### Save (R136-R140, R142) -/

/-- Offset of the scratchpad in the save area; bytes of a save area of `l` scratchpad bytes. -/
def ctxPad : Nat := 0x18B00
def ctxLen (s : State) (k : Nat) : Nat := s.rd F.VEC_CTX_CTRL_SPAD_LEN k * 4096
def ctxInHbm (da l : Nat) : Bool := decide (da + ctxPad + l ≤ 0x006000000000)

/-- A request is refused or fails with a cause (R142). -/
def ctxFail (s : State) (k cause : Nat) : State := (s.wr F.VEC_CTX_STATUS_ERR k 1).wr F.VEC_CTX_STATUS_CAUSE k cause

def State.setCtx (s : State) (k : Nat) (o : Option CtxOp) : State := { s with tile := { s.tile with ctx := Tab.set none s.tile.ctx k o } }
def State.ctxOp (s : State) (k : Nat) : Option CtxOp := Tab.get none s.tile.ctx k

/-- The full/empty bits of the first `l` bytes of a scratchpad. -/
def fullBytes (s : State) (k l : Nat) : List Byte :=
  (List.range (l / 64)).map (fun b => BitVec.ofNat 8 ((List.range 8).foldl (fun v i => v + b2n (s.isFull ((scratchBase + k * 0x100000) / 8 + 8 * b + i)) * 2 ^ i) 0))

/-- The pieces of a save area, the header last. -/
def ctxImage (s : State) (k : Nat) : List (Nat × List Byte) :=
  let l := ctxLen s k
  let qs := (List.range 8).map (fun i => k * 8 + i)
  [(0x100, qs.flatMap (fun q => padTo 256 (ctxWords (queueWords s q)))),
   (0x900, qs.flatMap (fun q => ctxWords ((List.range 8).map (s.preg q)))),
   (0xB00, qs.flatMap (fun q => ctxWords ((List.range 32).map (s.sreg q)))),
   (0x1300, (List.range 8).flatMap (fun n => padTo 256 (ctxWords (replayEntry s k n)))),
   (0x1B00, streamBytes s (k * 2) ++ streamBytes s (k * 2 + 1)),
   (0x2B00, (List.range 32).flatMap (fun v => bytesLE 256 (s.vreg (k * 8) v))),
   (0x4B00, fullBytes s k l),
   (0x8B00, (List.range 4096).flatMap (fun w => bytesLE 16 (s.imemWord k w))),
   (ctxPad, readBytes s.sram (scratchBase + k * 0x100000) l),
   (0, padTo 256 (ctxWords [1 + k * 2 ^ 16 + 2 ^ 31 + l * 2 ^ 32, s.trk.ts % 2 ^ 48]))]

/-- Writes pieces at an area in order; an error response ends it. -/
def writeImage (s : State) (da : Nat) : List (Nat × List Byte) → State × Bool
  | [] => (s, true)
  | (o, bs) :: r =>
    if bs.isEmpty then writeImage s da r
    else
      let x := memWrite s (da + o) bs Around.quiet
      if x.2 then writeImage x.1 da r else (x.1, false)

/-- A queue's head no longer waits by an event: it is tried again when the queue runs (R136). -/
def quietHead (s : State) (q : Nat) : State := (dropWaits s q).setHead q .plain

/-- SAVE (R136, R142): VALID of the area is cleared, the queues stop issuing, matrix engines are asked to stop, and the
stream engines suspend. -/
def ctxSave (s : State) (k : Nat) : State :=
  let da := s.rd F.VEC_CTX_DA_DA k
  if s.coreDown k then s
  else if s.on F.VEC_CTX_STATUS_BUSY k then ctxFail s k 0x1
  else if !(ctxInHbm da (ctxLen s k)) then ctxFail s k 0x2
  else
    let h := memNat s da 8
    let z := match h.2 with
      | some v => memWrite h.1 da (bytesLE 8 (setBits v 31 1 0)) Around.quiet
      | none => (h.1, false)
    if !z.2 then ctxFail z.1 k 0x5
    else
      let s := (List.range 8).foldl (fun s i => quietHead s (k * 8 + i)) z.1
      let s := ((s.wr F.VEC_CTX_CTRL_SAVE k 1).wr F.VEC_CTX_STATUS_BUSY k 1).wr F.VEC_CTX_STATUS_QUIESCE k 1
      let s := (List.range 4).foldl (fun s e => preempt s (k * 4 + e)) s
      (setSuspended s k true).setCtx k (some .save)

/-- The units of a core have come to rest (R136): engines idle or stopped, the convert unit idle, the streams quiet. -/
def coreQuiet (s : State) (k : Nat) : Bool :=
  (List.range 4).all (fun e =>
    let g := s.eng (k * 4 + e)
    g.ending.isEmpty && (match g.cur with | some r => s.on F.MXE_STATUS_STOPPED (k * 4 + e) && r.out.isEmpty && r.scaleOut.isEmpty | none => true)) &&
  !(s.tile.recs.any (fun w => decide (w.queue / 8 = k))) && (s.convOp k).isNone &&
  streamQuiet s (s.stream (k * 2)) && streamQuiet s (s.stream (k * 2 + 1))

/-- A save or restore is over. -/
def ctxEnd (s : State) (k cycles : Nat) : State :=
  let s := (s.wr F.VEC_CTX_CTRL_SAVE k 0).wr F.VEC_CTX_CTRL_RESTORE k 0
  (((s.wr F.VEC_CTX_STATUS_BUSY k 0).wr F.VEC_CTX_STATUS_QUIESCE k 0).wr F.VEC_CTX_STATUS_CYCLES k cycles).setCtx k none

/-- Every queue of the core is in SAVED, but those in FAULT (R140). -/
def allSaved (s : State) (k : Nat) : State :=
  (List.range 8).foldl (fun s i =>
    if s.qState (k * 8 + i) = qFAULT then s
    else (s.wr F.VEC_Q_STAT_STATE (k * 8 + i) qSAVED).wr F.VEC_Q_STAT_WAIT_ON (k * 8 + i) 0) s

/-- SAVE_DONE (R136, R140, R142): the data phase, once the core has come to rest; `error` is an error response in it. -/
def saveDone (s : State) (k : Nat) (error : Bool) (cycles : Nat) : State :=
  if s.ctxOp k ≠ some .save || !(coreQuiet s k) then s
  else
    let r := if error then (s, false) else writeImage s (s.rd F.VEC_CTX_DA_DA k) (ctxImage s k)
    let s := ctxEnd (allSaved r.1 k) k cycles
    if r.2 then s.wr F.VEC_CTX_STATUS_DONE k 1 else ctxFail s k 0x5

/-! ### Restore (R141, R142, R168) -/

/-- The header names this core and a valid save (R141). -/
def ctxHeaderOK (v k : Nat) : Bool := decide (bits v 0 16 = 1) && decide (bits v 16 9 = k) && decide (bit v 31 = 1)

/-- A failed restore leaves every queue in IDLE (R142). -/
def allIdle (s : State) (k : Nat) : State :=
  (List.range 8).foldl (fun s i => ((dropWaits s (k * 8 + i)).unhold (k * 8 + i)).wr F.VEC_Q_STAT_STATE (k * 8 + i) qIDLE) s

/-- RESTORE (R141, R142): the checks, and the reading begins. -/
def ctxRestore (s : State) (k : Nat) : State :=
  let da := s.rd F.VEC_CTX_DA_DA k
  if s.coreDown k then s
  else if s.on F.VEC_CTX_STATUS_BUSY k then ctxFail s k 0x1
  else if !(ctxInHbm da (ctxLen s k)) then ctxFail s k 0x2
  else if (List.range 8).any (fun i => s.running (k * 8 + i)) then ctxFail s k 0x3
  else
    let h := memNat s da 8
    match h.2 with
    | none => ctxFail (allIdle h.1 k) k 0x5
    | some v =>
      if !(ctxHeaderOK v k) then ctxFail h.1 k 0x4
      else ((h.1.wr F.VEC_CTX_CTRL_RESTORE k 1).wr F.VEC_CTX_STATUS_BUSY k 1).setCtx k (some .restore)

def wordAt (bs : List Byte) (n : Nat) : Nat := ofBytesLE ((bs.drop (8 * n)).take 8)

/-- A queue is set from its record (R138, R141). -/
def restoreQueue (s : State) (q : Nat) (bs : List Byte) (auto : Bool) : State :=
  let w := wordAt bs
  let v := w 0
  let ls := (List.range (bits v 16 3)).map (fun i => (⟨bits (w (2 + 3 * i)) 0 12, bits (w (2 + 3 * i)) 16 12, w (3 + 3 * i), w (4 + 3 * i)⟩ : LoopLvl))
  let opt := fun n => if bit n 63 = 1 then some (n % 2 ^ 63) else none
  let s := (s.wr F.VEC_Q_PC_PC q (bits v 0 12)).setLoops q ls
  let s := ((s.wr F.VEC_Q_RANGE_VMASK q (bits v 32 32)).wr F.VEC_Q_RANGE_LO q (bits (w 1) 0 12)).wr F.VEC_Q_RANGE_HI q (bits (w 1) 16 12)
  let s := (s.setVop q ⟨w 16, w 17, w 18, w 19, w 20, opt (w 21), opt (w 22), w 23⟩).unhold q
  let s := s.setArrived q (decide (bit v 19 = 1))
  s.wr F.VEC_Q_STAT_STATE q (if bits v 12 3 = qRUN then (if auto then qRUN else qSAVED) else bits v 12 3)

/-- The counts of a replay entry. -/
def replayCounts (bs : List Byte) : OpCounts :=
  let w := fun j => wordAt bs (12 + j)
  let fi : FirstInv := ⟨bits (w 4) 40 2, bits (w 5) 0 16, bits (w 5) 16 16, bits (w 5) 32 16⟩
  let has := decide (bit (w 5) 63 = 1)
  ⟨bits (w 1) 0 32, bits (w 1) 32 32, bits (w 2) 0 32, bits (w 2) 32 32, bits (w 3) 0 32, bits (w 3) 32 32, bits (w 4) 0 32,
   if has ∧ fi.kind ≠ 0 then some fi else none, if has ∧ fi.kind = 0 then some fi else none, bits (w 6) 0 48, bits (w 6) 0 48⟩

/-- The instruction of a replay entry, if the entry is valid. -/
def replayIns (bs : List Byte) : Option OpIns :=
  let w := wordAt bs
  if bit (w 0) 0 = 0 then none
  else some ⟨bits (w 0) 16 12, w 1 + w 2 * 2 ^ 64, (List.range 8).map (fun j => w (3 + j)), w 11, w 12⟩

/-- An engine takes its replay entries up, current before staged (R137): the current one goes on at its NB_START. -/
def takeReplay (s : State) (e : Nat) (cur staged : List Byte) : State :=
  let s := ((s.setEng e Engine.idle).wr F.MXE_STATUS_BUSY e 0).wr F.MXE_STATUS_STOPPED e 0
  let s := match replayIns staged with
    | some i => (s.setEng e { s.eng e with staged := some i }).wr F.MXE_STATUS_STAGED e 1
    | none => s.wr F.MXE_STATUS_STAGED e 0
  match replayIns cur with
  | some i =>
    let nb := bits (wordAt cur 0) 8 7
    let s := s.setRun e { newRun s e i none with cnt := replayCounts cur }
    let s := (s.wr F.MXE_RESUME_NB_START e nb).wr F.MXE_RESUME_VALID e 1
    continueStopped ((s.wr F.MXE_STATUS_BUSY e 1).wr F.MXE_STATUS_STOPPED e 1) e
  | none => takeStaged s e

/-- A set of a stream engine is read back (R168): its descriptors are read again, and it goes on from its checkpoint. -/
def restoreSet (s : State) (g k q : Nat) (bs ck : List Byte) (armed : Bool) : State :=
  if !armed then s.setStmSet g k StmSet.idle
  else
    let w := wordAt bs
    let c := wordAt ck
    let at_ := if bit (c 0) 63 = 1 then (bits (c 0) 48 8, bits (c 2) 32 32 * 2 ^ 24 + bits (c 1) 0 24) else (0, 0)
    let a : StmSet := { StmSet.idle with
      armed := true, list := bits (w 0) 0 48, count := bits (w 0) 48 8, queue := q, laps := List.replicate 8 (w 1),
      next := at_.1, pos := at_.2, base := at_, doneDescs := List.range at_.1,
      bytesDone := if bit (c 0) 63 = 1 then Tab.set 0 [] at_.1 (c 4) else [] }
    let s := s.setStmSet g k a
    let s := (List.range (at_.1 / 8 + 1)).foldl (fun s b => readBurst s g k b) s
    -- the index list goes on at IDX_POS: the entries before it are not read again
    let a := s.stmSet g k
    if (a.dsc at_.1).mode = 0 then s else s.setStmSet g k { a with entries := Tab.set [] a.entries at_.1 (List.replicate (posStep at_.2) 0) }

/-- A stream engine is read back. -/
def restoreStream (s : State) (g q : Nat) (bs : List Byte) : State :=
  let w := wordAt bs 0
  let ctrl := wordAt bs 1
  let s := resetStream s g
  let s := ((s.wr F.STM_CTRL_EN g (bit ctrl 0)).wr F.STM_CTRL_PANIC_EN g (bit ctrl 3)).wr F.STM_CTRL_RATE g (bits ctrl 8 8)
  let s := s.wr F.STM_CTRL_PANIC_TH g (bits ctrl 32 16)
  let part := fun n => (bs.drop (0x40 + n * 0x80)).take 0x40
  let ck := fun n => (bs.drop (0x80 + n * 0x80)).take 0x40
  let s := restoreSet s g 0 q (part 0) (ck 0) (decide (bit w 0 = 1))
  let s := restoreSet s g 1 q (part 1) (ck 1) (decide (bit w 1 = 1))
  let sets := (if bit w 0 = 1 then [0] else []) ++ (if bit w 1 = 1 then [1] else [])
  let s := s.setStream g { s.stream g with order := if bit w 3 = 1 then sets.reverse else sets, suspended := true, older := bit w 3 }
  -- a set that was stopped in ERROR stays stopped with its record; one in FAULT_WAIT translates again
  let stopped := sets.find? (fun n => decide (bits (wordAt (ck n) 0) 57 2 = 3))
  let s := stmShow s g
  match stopped with
  | some n =>
    let c := wordAt (ck n)
    let s := setFail s g n ⟨bits (c 5) 0 4, bits (c 0) 48 8, bits (c 2) 32 32 * 2 ^ 24 + bits (c 1) 0 24, c 3, bits (c 6) 0 48⟩
    stopWith s g n 3 ((List.range 8).map c)
  | none => s

/-- Reads a part of the area. -/
def areaPart (s : State) (da : Nat) (part : Nat × Nat) : State × Option (List Byte) :=
  if part.2 = 0 then (s, some []) else memRead s (da + part.1) part.2 Around.quiet

/-- Reads parts of the area, or none when one of them answers with an error. -/
def areaParts (s : State) (da : Nat) : List (Nat × Nat) → State × Option (List (List Byte))
  | [] => (s, some [])
  | p :: r =>
    let x := areaPart s da p
    match x.2 with
    | none => (x.1, none)
    | some b =>
      let y := areaParts x.1 da r
      (y.1, y.2.map (fun l => b :: l))

/-- The register files, instruction memory and scratchpad of a core are read back. -/
def restoreFiles (s : State) (k l : Nat) (p sr v fe im pad : List Byte) : State :=
  let s := (List.range 64).foldl (fun s i => s.setP (k * 8 + i / 8) (i % 8) (wordAt p i)) s
  let s := (List.range 256).foldl (fun s i => s.setS (k * 8 + i / 32) (i % 32) (wordAt sr i)) s
  let s := (List.range 32).foldl (fun s i => s.setV (k * 8) i (ofBytesLE ((v.drop (256 * i)).take 256))) s
  let words := (List.range 4096).foldl (fun t i => Tab.set 0 t (k * 4096 + i) (BitVec.ofNat 128 (ofBytesLE ((im.drop (16 * i)).take 16)))) s.tile.imem
  let s := { s with tile := { s.tile with imem := words } }
  let base := scratchBase + k * 0x100000
  let s := if l = 0 then s else s.commit base pad
  (List.range (l / 8)).foldl (fun s i => s.setFull (base / 8 + i) (decide (bit (fe.getD (i / 8) 0).toNat (i % 8) = 1))) s

/-- RESTORE_DONE (R137, R141, R142): the area is read back; `error` is an error response in the data phase. -/
def restoreDone (s : State) (k : Nat) (error : Bool) (cycles : Nat) : State :=
  if s.ctxOp k ≠ some .restore then s
  else
    let da := s.rd F.VEC_CTX_DA_DA k
    let h := memNat s da 8
    let l := Nat.min 0x100000 (bits (h.2.getD 0) 32 32)
    let r := if error || h.2.isNone then (h.1, none)
      else areaParts h.1 da [(0x100, 2048), (0x900, 512), (0xB00, 2048), (0x1300, 2048), (0x1B00, 4096), (0x2B00, 8192), (0x4B00, l / 64), (0x8B00, 65536), (ctxPad, l)]
    match r.2 with
    | some [qb, pb, sb, rb, tb, vb, fb, ib, xb] =>
      let s := restoreFiles r.1 k l pb sb vb fb ib xb
      let s := (List.range 4).foldl (fun s e => takeReplay s (k * 4 + e) ((rb.drop (512 * e)).take 256) ((rb.drop (512 * e + 256)).take 256)) s
      let s := (List.range 2).foldl (fun s e => restoreStream s (k * 2 + e) (k * 8) ((tb.drop (2048 * e)).take 2048)) s
      let auto := s.on F.VEC_CTX_CTRL_AUTOSTART k
      let s := (List.range 8).foldl (fun s i => restoreQueue s (k * 8 + i) ((qb.drop (256 * i)).take 256) auto) s
      setSuspended ((ctxEnd s k cycles).wr F.VEC_CTX_STATUS_DONE k 1) k false
    | _ => ctxFail (ctxEnd (allIdle r.1 k) k cycles) k 0x5

/-! ### Waiting accesses (R173) -/

/-- The waiting load or store of a queue is performed when its words are in the state its mode requires. -/
def lsuResume (s : State) (q : Nat) : State :=
  let w := s.headWord q
  let vec := decide (wClass w = 1)
  let ws := if vec then (vecWords s q w).map (fun k => vecAddr s q w / 8 + k) else [scalAddr s q w / 8]
  let m := if vec then wVFE w else wLFE w
  let store := if vec then decide (wOp w = 0x11) else decide (wOp w = 0x14)
  if s.headWait q ≠ .access || coreStopped s (coreOfQueue q) then s
  else if memDown s ws || mayAccess s (waitersBefore (.lsu q) ws s.sync.waiters) m store ws then
    let s := s.dropWaiter (.lsu q) ws
    if vec then vecAccess s q w else scalAccess s q w
  else s

/-! ### The meanings -/

def execVecQStart (q : Fin 4096) (s : State) : Host.Outcome State Fault Refusal := .next (queueStart s q)
def execVecQStop (q : Fin 4096) (s : State) : Host.Outcome State Fault Refusal := .next (queueStop s q)
def execClearFault (q : Fin 4096) (s : State) : Host.Outcome State Fault Refusal := .next (clearFault s q)
def execVmaskWrite (q : Fin 4096) (value : Word) (s : State) : Host.Outcome State Fault Refusal := .next (rangeWrite s q value.toNat)
def execVecImemDataHi (core : Fin 512) (value : Word) (s : State) : Host.Outcome State Fault Refusal := .next (imemHi s core value.toNat)
def execSave (core : Fin 512) (s : State) : Host.Outcome State Fault Refusal := .next (ctxSave s core)
def execSaveDone (core : Fin 512) (error : Bool) (cycles : Nat) (s : State) : Host.Outcome State Fault Refusal := .next (saveDone s core error cycles)
def execRestore (core : Fin 512) (s : State) : Host.Outcome State Fault Refusal := .next (ctxRestore s core)
def execRestoreDone (core : Fin 512) (error : Bool) (cycles : Nat) (s : State) : Host.Outcome State Fault Refusal :=
  .next (restoreDone s core error cycles)
/-- The initialisation of a core's scratchpad, or of the staging buffer of its cluster, has ended (R111, R171): records that waited
are written, and other accesses that waited proceed, each by its own row. -/
def initEnd (s : State) (k : Nat) (staging : Bool) : State :=
  if staging then
    (if s.clusterDown (clusterOfCore k) then s
     else flushRecords { s with sync := { s.sync with staged := Tab.set false s.sync.staged (clusterOfCore k) true } })
  else if s.coreDown k then s else flushRecords (s.wr F.VEC_STATUS_SPAD_INIT k 0)

/-- SPAD_INIT_END (R111, R171). -/
def execSpadInitEnd (core : Fin 512) (staging : Bool) (s : State) : Host.Outcome State Fault Refusal := .next (initEnd s core staging)

end Sys2Proof.Machine
end

