-- ==== Sys2Proof/Machine/CoreReset.lean ====
section
/-!
DEFINITION. What a reset clears in a core and in a cluster (R53, R95, R111, R169, R171, R183, R216, R427), apart from
who asked for it.
-/
namespace Sys2Proof.Machine

/-- The block of a kind (1 quarter, 2 cluster, 3 core, 4 fabric region, 5 Kamrus port) is held in reset, or leaves it. -/
def State.setRst (s : State) (kind i : Nat) (v : Bool) : State := { s with rst := Tab.set false s.rst (kind * 4096 + i) v }

/-- The bytes [da, da + n) of on-chip memory become zero, and their words empty (R111, R171). -/
def clearMemory (s : State) (da n : Nat) : State :=
  { s with sram := Tab.drop s.sram (fun a => decide (da ≤ a ∧ a < da + n)),
           full := Tab.drop s.full (fun w => decide (da ≤ w * 8 ∧ w * 8 < da + n)) }

/-- The registers of core `k` return to their reset values. -/
def resetCoreRegs (s : State) (k : Nat) : State :=
  let s := s.resetFields F.MXE_CTRL_EN F.MXE_LAST_REC_DA (fun i => decide (i / 4 = k))
  let s := s.resetFields F.QNT_CTRL_SLOT_CLEAR F.VEC_WRAP_QSTALL (fun i => decide (i = k))
  let s := s.resetFields F.VEC_Q_CTRL_START F.VEC_Q_STALL_CNT_COUNT (fun i => decide (i / 8 = k))
  s.resetFields F.STM_CTRL_EN F.STM_WRAP_FAULT (fun i => decide (i / 2 = k))

/-- The register files, queues, engines and history slots of core `k` are cleared; its instruction memory stays. -/
def resetTile (s : State) (k : Nat) : State :=
  let t := s.tile
  { s with tile := { t with
      imemLo := Tab.drop t.imemLo (fun i => decide (i = k)),
      sregs := Tab.drop t.sregs (fun i => decide (i / 256 = k)),
      pregs := Tab.drop t.pregs (fun i => decide (i / 64 = k)),
      vregs := Tab.drop t.vregs (fun i => decide (i / 32 = k)),
      loops := Tab.drop t.loops (fun i => decide (i / 8 = k)),
      vops := Tab.drop t.vops (fun i => decide (i / 8 = k)),
      heads := Tab.drop t.heads (fun i => decide (i / 8 = k)),
      arrived := Tab.drop t.arrived (fun i => decide (i / 8 = k)),
      engines := Tab.drop t.engines (fun i => decide (i / 4 = k)),
      conv := Tab.drop t.conv (fun i => decide (i = k)),
      hist := Tab.drop t.hist (fun i => decide (i / 4096 = k)),
      slotClear := Tab.drop t.slotClear (fun i => decide (i = k)),
      ctx := Tab.drop t.ctx (fun i => decide (i = k)),
      recs := t.recs.filter (fun w => decide (w.queue / 8 ≠ k)) } }

/-- What a reset clears in core `k`. -/
def clearCore (s : State) (k : Nat) : State :=
  let s := (List.range 8).foldl (fun s i => dropWaits s (k * 8 + i)) s
  let s := (List.range 4).foldl (fun s e => s.dropWaiters (.out (k * 4 + e))) s
  let s := (List.range 2).foldl (fun s e => resetStream s (k * 2 + e)) (s.dropWaiters (.conv k))
  clearMemory (resetTile (resetCoreRegs s k) k) (scratchBase + k * 0x100000) 0x100000

/-- A core is reset and held in reset (R430). -/
def resetCore (s : State) (k : Nat) : State := (clearCore s k).setRst 3 k true

/-- The hurdles and baton windows of cluster `c` (R183): waiters of queues of other clusters stay recorded. -/
def clearHurdles (s : State) (c : Nat) : State :=
  let s := s.resetFields F.HUR_WIN_BASE_DA F.HUR_WIN_STAT_HEAD_CNT (fun w => decide (w / 64 = c))
  let s := s.resetFields F.HUR_CFG_TARGET F.HUR_OP_ARG (fun h => decide (h / 2048 = c))
  { s with sync := { s.sync with
      batons := Tab.drop s.sync.batons (fun w => decide (w / 64 = c)),
      held := s.sync.held.filter (fun o => decide (clusterOfHurdle o.hurdle ≠ c)),
      hurWait := s.sync.hurWait.filter (fun w => !(decide (clusterOfHurdle w.hur = c) && decide (clusterOfQueue w.queue = c))) } }

/-- The finish-line slots of cluster `c` are disarmed without a check, and their fields cleared (R216). -/
def clearFinishLines (s : State) (c : Nat) : State := s.resetFields F.TRK_FL_LAP_LAP F.TRK_FL_STAT_MARGIN (fun n => decide (n / 64 = c))

/-- The staging buffer of cluster `c` is cleared, and is initialised again once the cluster is released (R171). -/
def clearStaging (s : State) (c : Nat) : State :=
  let s := clearMemory s (stagingBase + c * 0x200000) 0x200000
  { s with sync := { s.sync with staged := Tab.set false s.sync.staged c false } }

/-- What a reset clears in cluster `c`: its cores, staging buffer, hurdles, windows, finish-line slots and registers. -/
def clearCluster (s : State) (c : Nat) : State :=
  let s := (List.range 16).foldl (fun s k => clearCore s (c * 16 + k)) s
  let s := clearFinishLines (clearHurdles (clearStaging s c) c) c
  s.resetFields F.HUR_CTRL_EN F.HUR_WRAP_BATON_DROP (fun i => decide (i = c))

/-- Core `k` leaves reset (R438): its scratchpad and history slots are initialised, and accesses wait (R111, R95). -/
def releaseCore (s : State) (k : Nat) : State :=
  let s := s.setRst 3 k false
  if s.coreDown k then s else (s.wr F.VEC_STATUS_SPAD_INIT k 1).wr F.QNT_STATUS_CLEARING k 1

/-- Cluster `c` leaves reset unless it is held or fenced (R430, R468), its cores with it. -/
def releaseCluster (s : State) (c : Nat) : State :=
  if Tab.get false s.pwr.held (2 * 4096 + c) || decide (bit (s.rd F.TST_FENCE_CLUSTER 0) c = 1) then s
  else
    let s := s.setRst 2 c false
    (List.range 16).foldl (fun s k => if s.inReset 3 (c * 16 + k) then s else releaseCore s (c * 16 + k)) s

end Sys2Proof.Machine
end

