-- ==== Sys2Proof/Machine/Sessions.lean ====
section
/-!
DEFINITION. Sessions (chapter 09): the session table, admission and its clamps, rings and doorbells, submissions and
completions, slicing groups and their switches, suspension at lap boundaries, and the clock mode.
-/
namespace Sys2Proof.Machine

/-! ### Tables and records -/

def State.sess (s : State) (n : Nat) : Option Sess := Tab.get none s.ses.sess n
def State.setSess (s : State) (n : Nat) (x : Option Sess) : State := { s with ses := { s.ses with sess := Tab.set none s.ses.sess n x } }
def State.ring (s : State) (n r : Nat) : Option Ring := Tab.get none s.ses.rings (n * 32 + r)
def State.setSes (s : State) (x : Sessions) : State := { s with ses := x }

/-- The clusters of a mask, from bit 0 up; and their cores. -/
def maskClusters (m : Nat) : List Nat := (List.range 32).filter (fun c => decide (bit m c = 1))
def maskCores (m : Nat) : List Nat := (maskClusters m).flatMap (fun c => (List.range 16).map (fun k => c * 16 + k))

/-- DA of a session's entry (R224). -/
def entryDA (s : State) (n : Nat) : Nat := s.rd F.SES_TABLE_DA_DA 0 + n * 0x80

/-- The sixteen words of a session's entry, none when it cannot be read. -/
def readEntry (s : State) (n : Nat) : State × Option (List Nat) :=
  let r := memRead s (entryDA s n) 128 Around.quiet
  (r.1, r.2.map (fun bs => (List.range 16).map (wordAt bs)))

/-- Writes bits of a word of a session's entry back. -/
def entryWrite (s : State) (n word lo w v : Nat) : State :=
  let da := entryDA s n + 8 * word
  let r := memNat s da 8
  match r.2 with
  | some x => (memWrite r.1 da (bytesLE 8 (setBits x lo w v)) Around.quiet).1
  | none => r.1

/-- STATE of a session is written back (R224). -/
def entryState (s : State) (n v : Nat) : State := entryWrite s n 0 2 3 v

/-- A session as its entry describes it (R224), its fields under their clamps. -/
def sessOf (ws : List Nat) (lap : Nat) : Sess :=
  let w := fun k => ws.getD k 0
  { sched := decide (bits (w 0) 0 2 = 2), st := 1, trk := bits (w 0) 5 3, prio := bits (w 0) 8 8, slots := clampTo 1 1024 (bits (w 0) 16 11),
    batonIn := decide (bit (w 0) 32 = 1), clusters := bits (w 1) 0 32, ringTable := bits (w 2) 0 48, saveDA := bits (w 3) 0 48,
    spadLen := clampTo 0 256 (bits (w 3) 48 9), qLo := bits (w 4) 0 12, qHi := bits (w 4) 16 12,
    quantum := (if bits (w 5) 0 32 = 0 then 2000 else clampTo 100 1000000 (bits (w 5) 0 32)), used := bits (w 5) 32 32,
    wins := (List.range 4).map (fun i => (bits (w (6 + 2 * i)) 0 48, bits (w (7 + 2 * i)) 0 48, decide (bit (w (6 + 2 * i)) 63 = 1))),
    admitLap := lap, suspending := none, saving := false, restoring := false, expired := false, hadWork := false, saved := false, nextRing := 0 }

/-- The ring context in two words (R229), LOG2_SIZE under its clamp. -/
def ringOf (w0 w1 : Nat) (pin : Bool) : Ring :=
  ⟨bits w0 0 48, clampTo 4 16 (bits w0 48 4), decide (bit w0 52 = 1), decide (bit w0 53 = 1), bits w0 56 5, bits w1 0 16, bits w1 16 16, pin⟩

def Ring.size (r : Ring) : Nat := 2 ^ r.log2
/-- Entries pending in a ring. -/
def Ring.count (r : Ring) : Nat := (r.tail + r.size - r.head % r.size) % r.size

/-- DA of a ring context. -/
def ringDA (x : Sess) (r : Nat) : Nat := x.ringTable + 64 * r

/-- A ring context as memory holds it. -/
def readRingAt (s : State) (da : Nat) (pin : Bool) : State × Option Ring :=
  let a := memNat s da 8
  let b := memNat a.1 (da + 8) 8
  (b.1, match a.2, b.2 with | some w0, some w1 => some (ringOf w0 w1 pin) | _, _ => none)

/-- HEAD and TAIL of a context are written back; HEAD of a completion ring is software's, and stays. -/
def writeRingAt (s : State) (da : Nat) (c : Ring) : State :=
  if c.completion then (memWrite s (da + 10) (bytesLE 2 (c.tail % 2 ^ 16)) Around.quiet).1
  else (memWrite s (da + 8) (bytesLE 4 (c.head % 2 ^ 16 + c.tail % 2 ^ 16 * 2 ^ 16)) Around.quiet).1
def writeRing (s : State) (x : Sess) (r : Nat) (c : Ring) : State := writeRingAt s (ringDA x r) c

def readRing (s : State) (x : Sess) (r : Nat) (pin : Bool) : State × Option Ring := readRingAt s (ringDA x r) pin

/-- A ring of a session: the cached context, else what memory holds. -/
def ringView (s : State) (n r : Nat) : Option Ring :=
  match s.ring n r with
  | some c => some c
  | none => (s.sess n).bind (fun x => (readRing s x r false).2)

/-- A context in the cache, the latest used (R231). -/
def putRing (s : State) (n r : Nat) (c : Ring) : State :=
  let k := n * 32 + r
  s.setSes { s.ses with rings := Tab.set none s.ses.rings k (some c), lru := k :: s.ses.lru.filter (fun i => decide (i ≠ k)) }

/-- Drops a context from the cache. -/
def dropRing (s : State) (k : Nat) : State :=
  s.setSes { s.ses with rings := Tab.set none s.ses.rings k none, lru := s.ses.lru.filter (fun i => decide (i ≠ k)) }

/-- Contexts that are pinned (R225, R231). -/
def pinnedRings (s : State) : Nat := (s.ses.rings.filter (fun e => match e.2 with | some c => c.pin | none => false)).length

def showPinned (s : State) : State := s.wr F.SES_RING_PIN_PINNED 0 (pinnedRings s)

/-- The least recently used unpinned context. -/
def evictee (s : State) : Option Nat :=
  s.ses.lru.reverse.find? (fun k => match Tab.get none s.ses.rings k with | some c => !c.pin | none => false)

/-- Room for one more context: the least recently used unpinned one is written back and leaves (R231). -/
def makeRoom (s : State) : State :=
  if s.ses.lru.length < 16384 then s
  else match evictee s with
    | none => s
    | some k =>
      let s := match s.sess (k / 32), Tab.get none s.ses.rings k with
        | some x, some c => writeRing s x (k % 32) c
        | _, _ => s
      dropRing s k

/-- Loads a context into the cache; an error response leaves it uncached. -/
def cacheRing (s : State) (n r : Nat) (pin : Bool) : State :=
  match s.sess n with
  | none => s
  | some x =>
    let s := makeRoom s
    let c := readRing s x r pin
    match c.2 with
    | some c' => showPinned (putRing c.1 n r c')
    | none => c.1

def dropDoorbell (s : State) : State := (s.bump C.SES_DB_DROP_CNT 0 1).wr F.SES_STATUS_DB_DROP 0 1

/-- A doorbell's TAIL at a cached context (R230): stored modulo the size, or the doorbell is discarded. -/
def storeTail (s : State) (n r tail : Nat) : State :=
  match s.ring n r with
  | some c =>
    let held := if c.head ≤ tail then tail - c.head else tail + c.size - c.head
    if !c.valid || c.completion || decide (c.size - 1 < held) then dropDoorbell s else putRing s n r { c with tail := tail % c.size }
  | none => dropDoorbell s

/-- A context that is not cached is loaded (R231): the miss is counted, and the doorbells that waited for it are applied. -/
def missRing (s : State) (n r : Nat) : State :=
  let s := (cacheRing s n r false).bump C.SES_RING_MISS_CNT 0 1
  let mine := s.ses.loads.filter (fun l => decide (l.1 = n ∧ l.2.1 = r))
  let s := s.setSes { s.ses with loads := s.ses.loads.filter (fun l => !(decide (l.1 = n ∧ l.2.1 = r))) }
  mine.foldl (fun s l => storeTail s n r l.2.2) s

/-! ### Sample slots and completions (R232) -/

/-- Submissions that hold a sample slot: those of admitted sessions that an END has not abandoned. -/
def slotsHeld (s : State) : List Submission := s.ses.subs.filter (fun b => (s.sess b.session).isSome && decide (b.status ≠ some 2))
def slotsOf (s : State) (n : Nat) : Nat := (s.ses.subs.filter (fun b => decide (b.session = n) && decide (b.status ≠ some 2))).length
def showSlots (s : State) : State := s.wr F.SES_SLOTS_USED_SLOTS 0 (slotsHeld s).length

/-- The completion ring of a submission: the cached context, loaded first if it is not cached (R231); one of a session that has ended
is read where it lies. -/
def completionRing (s : State) (b : Submission) : State × Option Ring :=
  if (s.sess b.session).isNone then readRingAt s b.ringDA false
  else
    let s := if (s.ring b.session b.cring).isNone then missRing s b.session b.cring else s
    (s, s.ring b.session b.cring)

/-- Writes a completion entry when its ring has room (R232): software's HEAD is read from the context in memory. -/
def commitCompletion (s : State) (i : Nat) : State :=
  match s.ses.subs[i]? with
  | none => s
  | some b =>
    match b.status with
    | none => s
    | some st =>
      let r := completionRing s b
      match r.2 with
      | none => r.1
      | some c0 =>
        let mem := memNat r.1 (b.ringDA + 8) 2
        let c := { c0 with head := mem.2.getD c0.head % c0.size }
        if !c.valid || !c.completion || decide (c.count = c.size - 1) then mem.1
        else
          let ws := [st + b.tag * 2 ^ 32, b.tDispatch, b.tDone, 0, 0, 0, 0, 0]
          let w := memWrite mem.1 (c.base + 64 * c.tail) (ctxWords ws) Around.quiet
          let c := { c with tail := (c.tail + 1) % c.size }
          let s := if (w.1.sess b.session).isSome then putRing w.1 b.session b.cring c else w.1
          let s := writeRingAt s b.ringDA c
          showSlots (s.setSes { s.ses with subs := s.ses.subs.eraseIdx i })

/-- A submission is complete with a status; its entry is written when it can be. -/
def completeSub (s : State) (i status : Nat) : State :=
  match s.ses.subs[i]? with
  | none => s
  | some b => commitCompletion (s.setSes { s.ses with subs := s.ses.subs.set i { b with status := some status, tDone := s.trk.ts % 2 ^ 48 } }) i

/-! ### Residence and slicing (R233, R234) -/

/-- SES_RESIDENT of a session's clusters. -/
def showResident (s : State) (m n : Nat) (valid sched switching : Bool) : State :=
  (maskClusters m).foldl (fun s c =>
    (((s.wr F.SES_RESIDENT_SESSION c n).wr F.SES_RESIDENT_VALID c (b2n valid)).wr F.SES_RESIDENT_SCHED c (b2n sched)).wr F.SES_RESIDENT_SWITCHING c (b2n switching)) s

/-- STM_STATUS.SCHED of the stream engines of a session's cores (R226): they belong to a scheduled session. -/
def setSched (s : State) (m : Nat) (v : Bool) : State :=
  (maskCores m).foldl (fun s k => (s.wr F.STM_STATUS_SCHED (2 * k) (b2n v)).wr F.STM_STATUS_SCHED (2 * k + 1) (b2n v)) s

/-- Sleeping clusters of a scheduled session wake (R308). -/
def wakeClusters (s : State) (m : Nat) : State :=
  (maskClusters m).foldl (fun s c =>
    if bit (s.rd F.NOC_PWR_STAT_CLUSTER (c / 8)) (c % 8) = 1 then (s.clearBit F.NOC_PWR_STAT_CLUSTER (c / 8) (c % 8)).bump C.NOC_WAKE_CNT (c / 8) 1
    else s) s

/-- The history slot range of a session goes to every core (R224). -/
def giveSlots (s : State) (x : Sess) : State :=
  (maskCores x.clusters).foldl (fun s k => (s.wr F.QNT_SLOT_RANGE_LO k x.qLo).wr F.QNT_SLOT_RANGE_HI k x.qHi) s

/-- A valid submission ring of the session has entries pending. -/
def hasPending (s : State) (n : Nat) : Bool :=
  (List.range 32).any (fun r => match ringView s n r with | some c => c.valid && !c.completion && decide (c.count ≠ 0) | none => false)

/-- Eligible (R233): READY, with entries pending or a queue that had work when it was last saved. -/
def eligible (s : State) (n : Nat) (x : Sess) : Bool := decide (x.st = 1) && !x.sched && (hasPending s n || x.hadWork)

/-- The eligible sessions of a group. -/
def candidates (s : State) (m : Nat) : List (Nat × Sess) := s.admitted.filter (fun e => decide (e.2.clusters = m) && eligible s e.1 e.2)

/-- The eligible session of highest PRIO; equal PRIO in round-robin order after the one last resident. -/
def pick (s : State) (m : Nat) : Option (Nat × Sess) :=
  let cs := candidates s m
  let top := cs.foldl (fun a e => Nat.max a e.2.prio) 0
  let best := cs.filter (fun e => decide (e.2.prio = top))
  let last := Tab.get 65536 s.ses.last m
  (best.find? (fun e => decide (last < e.1))).orElse (fun _ => best.head?)

/-- The free session resident on a group's clusters. -/
def residentOf (s : State) (m : Nat) : Option (Nat × Sess) :=
  s.admitted.find? (fun e => decide (e.2.clusters = m) && decide (e.2.st = 2) && !e.2.sched)

/-- Save area of core `k` of the cluster of rank `i`, and of the cluster itself (R224). -/
def coreArea (x : Sess) (i k : Nat) : Nat := x.saveDA + (i * 16 + k) * 0x200000
def clusterArea (x : Sess) (i : Nat) : Nat := x.saveDA + (maskClusters x.clusters).length * 16 * 0x200000 + i * 0x20000

/-- Runs `f` on every core of a session with its save area. -/
def eachCore (x : Sess) (f : State → Nat → Nat → State) (s : State) : State :=
  (maskClusters x.clusters).zipIdx.foldl (fun s p => (List.range 16).foldl (fun s k => f s (p.1 * 16 + k) (coreArea x p.2 k)) s) s

/-- The save or restore of every core of a session begins. -/
def saveCores (s : State) (x : Sess) : State :=
  eachCore x (fun s k da => ctxSave ((s.wr F.VEC_CTX_DA_DA k da).wr F.VEC_CTX_CTRL_SPAD_LEN k x.spadLen) k) s
def restoreCores (s : State) (x : Sess) : State :=
  eachCore x (fun s k da => ctxRestore (((s.wr F.VEC_CTX_DA_DA k da).wr F.VEC_CTX_CTRL_SPAD_LEN k x.spadLen).wr F.VEC_CTX_CTRL_AUTOSTART k 1) k) s

/-- No core of a mask has a save or restore in progress. -/
def coresRest (s : State) (m : Nat) : Bool := (maskCores m).all (fun k => (s.ctxOp k).isNone)

/-- A queue of the session runs or waits. -/
def anyRunning (s : State) (m : Nat) : Bool := (maskCores m).any (fun k => (List.range 8).any (fun i => s.running (k * 8 + i)))

/-! #### Cluster save areas (R234; the layout within the area is the model's) -/

def hurdleBytes (s : State) (h : Nat) : List Byte :=
  ctxWords [s.rd F.HUR_CFG_TARGET h + s.rd F.HUR_CFG_MODE h * 2 ^ 16 + s.rd F.HUR_CFG_WIN h * 2 ^ 17,
            s.rd F.HUR_STATE_COUNT h + s.gen h * 2 ^ 16, s.rd F.HUR_VALUE_VALUE h + s.rd F.HUR_VALUE_SRC_NODE h * 2 ^ 32, 0]

def windowBytes (s : State) (w : Nat) : List Byte :=
  let l := s.windowQueue w
  padTo 0x200 (ctxWords ([s.rd F.HUR_WIN_BASE_DA w, s.rd F.HUR_WIN_LEN_LEN w, s.rd F.HUR_WIN_CREDIT_CREDIT w, l.length] ++ l.flatMap Baton.words))

def finishBytes (s : State) (n : Nat) : List Byte :=
  ctxWords [s.rd F.TRK_FL_LAP_LAP n,
    s.rd F.TRK_FL_SET_ANGLE n + s.rd F.TRK_FL_SET_TRK n * 2 ^ 32 + s.rd F.TRK_FL_SET_HUR n * 2 ^ 35,
    s.rd F.TRK_FL_GEN_G n + s.rd F.TRK_FL_GEN_ALT n * 2 ^ 32 + s.rd F.TRK_FL_GEN_ALT_EN n * 2 ^ 43,
    s.rd F.TRK_FL_STAT_ARMED n + s.rd F.TRK_FL_STAT_MET n * 2 + s.rd F.TRK_FL_STAT_LATE n * 4 + s.rd F.TRK_FL_STAT_MARGIN n * 2 ^ 32]

/-- Hurdle table and baton windows of a cluster are written to its area. -/
def saveHurdles (s : State) (c da : Nat) : State :=
  let s := (memWrite s da ((List.range 2048).flatMap (fun h => hurdleBytes s (c * 2048 + h))) Around.quiet).1
  (memWrite s (da + 0x10000) ((List.range 64).flatMap (fun w => windowBytes s (c * 64 + w))) Around.quiet).1

/-- Slots are disarmed without a check. -/
def disarm (s : State) (c : Nat) : State := (List.range 64).foldl (fun s n => s.wr F.TRK_FL_STAT_ARMED (c * 64 + n) 0) s

/-- Finish-line slots of a cluster are written to its area, and disarmed (R234). -/
def saveSlots (s : State) (c da : Nat) : State :=
  disarm (memWrite s (da + 0x18000) ((List.range 64).flatMap (fun n => finishBytes s (c * 64 + n))) Around.quiet).1 c

/-- One hurdle is set from its 32 bytes. -/
def loadHurdle (s : State) (h : Nat) (bs : List Byte) : State :=
  let a := wordAt bs 0
  let b := wordAt bs 1
  let v := wordAt bs 2
  let s := ((s.wr F.HUR_CFG_TARGET h (bits a 0 16)).wr F.HUR_CFG_MODE h (bit a 16)).wr F.HUR_CFG_WIN h (bits a 17 6)
  let s := (s.wr F.HUR_STATE_COUNT h (bits b 0 16)).wr F.HUR_STATE_GEN h (bits b 16 32)
  (s.wr F.HUR_VALUE_VALUE h (bits v 0 32)).wr F.HUR_VALUE_SRC_NODE h (bits v 32 14)

def loadWindow (s : State) (w : Nat) (bs : List Byte) : State :=
  let n := Nat.min 8 (wordAt bs 3)
  let s := ((s.wr F.HUR_WIN_BASE_DA w (wordAt bs 0)).wr F.HUR_WIN_LEN_LEN w (wordAt bs 1)).wr F.HUR_WIN_CREDIT_CREDIT w (wordAt bs 2)
  setWindowQueue s w ((List.range n).map (fun i => batonOf ((List.range 4).map (fun j => wordAt bs (4 + 4 * i + j)))))

/-- A slot is set from its 32 bytes; an armed one is rearmed, and checked when its finish line has passed (R212, R234). -/
def loadSlot (s : State) (n : Nat) (bs : List Byte) : State :=
  let a := wordAt bs 1
  let g := wordAt bs 2
  let t := wordAt bs 3
  let s := ((s.wr F.TRK_FL_LAP_LAP n (wordAt bs 0)).wr F.TRK_FL_SET_ANGLE n (bits a 0 32)).wr F.TRK_FL_SET_TRK n (bits a 32 3)
  let s := ((s.wr F.TRK_FL_SET_HUR n (bits a 35 11)).wr F.TRK_FL_GEN_G n (bits g 0 32)).wr F.TRK_FL_GEN_ALT n (bits g 32 11)
  let s := (((s.wr F.TRK_FL_GEN_ALT_EN n (bit g 43)).wr F.TRK_FL_STAT_MET n (bit t 1)).wr F.TRK_FL_STAT_LATE n (bit t 2)).wr F.TRK_FL_STAT_MARGIN n (bits t 32 32)
  if bit t 0 = 1 then armSlot s n else s

/-- A cluster is read back from its area; slots only for a free session (R234, R235). -/
def loadCluster (s : State) (c da : Nat) (slots : Bool) : State :=
  let r := memRead s da 0x18800 Around.quiet
  match r.2 with
  | none => r.1
  | some bs =>
    let s := (List.range 2048).foldl (fun s h => loadHurdle s (c * 2048 + h) ((bs.drop (32 * h)).take 32)) (clearHurdles r.1 c)
    let s := (List.range 64).foldl (fun s w => loadWindow s (c * 64 + w) ((bs.drop (0x10000 + 0x200 * w)).take 0x200)) s
    if slots then (List.range 64).foldl (fun s n => loadSlot s (c * 64 + n) ((bs.drop (0x18000 + 32 * n)).take 32)) s else s

/-- Runs `f` on every cluster of a session with its save area. -/
def eachCluster (x : Sess) (f : State → Nat → Nat → State) (s : State) : State :=
  (maskClusters x.clusters).zipIdx.foldl (fun s p => f s p.1 (clusterArea x p.2)) s

/-! #### Switches -/

def addSwitch (s : State) (w : Switch) : State := s.setSes { s.ses with switches := s.ses.switches ++ [w] }
def switchOf (s : State) (m : Nat) : Option Switch := s.ses.switches.find? (fun w => decide (w.clusters = m))
def setSwitch (s : State) (m : Nat) (w : Option Switch) : State :=
  s.setSes { s.ses with switches := s.ses.switches.filter (fun x => decide (x.clusters ≠ m)) ++ w.toList }

/-- The restore of an incoming session begins; one without saved state takes its clusters as a reset of hurdles and
slots leaves them. -/
def beginRestore (s : State) (n : Nat) (x : Sess) : State :=
  let s := setSched (giveSlots (showResident s x.clusters n false x.sched true) x) x.clusters x.sched
  let s := if x.sched then wakeClusters s x.clusters else s
  if x.saved then restoreCores s x else eachCluster x (fun s c _ => clearFinishLines (clearHurdles s c) c) s

/-- A switch begins (R234): the outgoing session's save, or at once the incoming one's restore. -/
def beginSwitch (s : State) (m : Nat) (out inc : Option Nat) : State :=
  match out.bind (fun n => (s.sess n).map (fun x => (n, x))) with
  | some (n, x) =>
    let s := s.setSess n (some { x with hadWork := anyRunning s m })
    let s := showResident s m n true x.sched true
    let s := if x.sched then s else eachCluster x saveSlots s
    saveCores (addSwitch s ⟨m, out, inc, false⟩) x
  | none => match inc.bind (fun n => (s.sess n).map (fun x => (n, x))) with
    | some (n, x) => beginRestore (addSwitch s ⟨m, none, inc, true⟩) n x
    | none => s

/-- The resident session has nothing pending and every queue IDLE or HALTED (R233). -/
def sessIdle (s : State) (n : Nat) (x : Sess) : Bool :=
  !(hasPending s n) && (maskCores x.clusters).all (fun k => (List.range 8).all (fun i => decide (s.qState (k * 8 + i) = qIDLE ∨ s.qState (k * 8 + i) = qHALTED)))

/-- Slicing of one group (R233), while its cores are neither in reset nor being saved or restored. -/
def slice (s : State) (m : Nat) : State :=
  if !(s.on F.SES_CTRL_EN 0) || (switchOf s m).isSome || !(coresRest s m) || (maskCores m).any s.coreDown then s
  else match pick s m with
    | none => s
    | some (i, y) =>
      match residentOf s m with
      | none => beginSwitch s m none (some i)
      | some (n, x) =>
        if x.prio < y.prio || sessIdle s n x || (x.expired && decide (x.prio ≤ y.prio) && !(s.on F.SES_CTRL_SLICE_HOLD 0)) then beginSwitch s m (some n) (some i)
        else s

/-- The switch of a RESUME of a scheduled session begins once its cores are out of reset (R235). -/
def startResume (s : State) (n : Nat) : State :=
  match s.sess n with
  | none => s
  | some x =>
    if x.sched && x.restoring && (switchOf s x.clusters).isNone && coresRest s x.clusters && !((maskCores x.clusters).any s.coreDown) then
      beginSwitch s x.clusters none (some n)
    else s

/-- Slicing of every group, and resumptions that wait. -/
def sliceAll (s : State) : State :=
  (s.admitted.map (fun e => e.2.clusters)).eraseDups.foldl slice ((s.admitted.map (fun e => e.1)).foldl startResume s)

/-! ### Actions (R225-R228, R235) -/

def admitBusy (s : State) : State :=
  s.wr F.SES_ADMIT_STAT_BUSY 0 (b2n (s.admitted.any (fun e => e.2.suspending.isSome || e.2.saving || e.2.restoring)))

/-- An action is refused with a cause. -/
def refuseAction (s : State) (cause : Nat) : State := (s.wr F.SES_STATUS_ADMIT_REFUSED 0 1).wr F.SES_ADMIT_STAT_CAUSE 0 cause

/-- A used window may belong to a scheduled session (R225): pinned, and within HBM, the CXL tier or the host window. -/
def winAllowed (w : Nat × Nat × Bool) : Bool :=
  decide (w.2.1 = 0) || (w.2.2 &&
    (match regionOf w.1 with
     | .hbm => decide (regionOf (w.1 + w.2.1 - 1) = .hbm)
     | .cxl _ => decide (w.1 + w.2.1 ≤ 0x180000000000)
     | .host => decide (w.1 + w.2.1 ≤ 0x1000000000000)
     | _ => false))

/-- A ring context is well-formed (R229). -/
def ringOK (rs : List (Option Ring)) (c : Ring) : Bool :=
  !c.valid ||
  (decide (c.base % (64 * c.size) = 0) &&
   (match regionOf c.base with | .hbm => true | .host => true | .cxl _ => true | _ => false) &&
   (c.completion || (match rs.getD c.cring none with | some d => d.valid && d.completion | none => false)))

/-- The save base of R224 lies wholly within HBM. -/
def saveInHbm (x : Sess) : Bool :=
  let n := (maskClusters x.clusters).length
  decide (x.saveDA + n * 16 * 0x200000 + n * 0x20000 ≤ 0x006000000000)

/-- The first check of R225 that fails, in the table's order; `cls` and `st` as the entry holds them. The other admitted sessions
are judged; a SUSPENDED scheduled session holds no cluster, a free one counts in every state. -/
def admitCause (s : State) (n : Nat) (x : Sess) (cls st : Nat) (rs : List (Option Ring)) : Option Nat :=
  let others := s.admitted.filter (fun e => decide (e.1 ≠ n))
  let shares := fun (e : Nat × Sess) => decide (e.2.clusters &&& x.clusters ≠ 0)
  let holds := fun (e : Nat × Sess) => shares e && decide (e.2.st ≠ 3)
  let valid := (rs.filter (fun r => match r with | some c => c.valid | none => false)).length
  let pinned := (s.ses.rings.filter (fun e => decide (e.1 / 32 ≠ n) && (match e.2 with | some c => c.pin | none => false))).length
  if x.sched && decide (s.rd F.SES_CLOCK_MODE 0 ≠ 0) then some 0x1
  else if x.sched && !(x.wins.all winAllowed) then some 0x2
  else if (maskClusters x.clusters).any (clusterFenced s) || others.any (fun e => holds e && (e.2.sched || x.sched)) ||
      (!x.sched && others.any (fun e => !e.2.sched && decide (e.2.clusters ≠ x.clusters) && shares e)) then some 0x3
  else if 1024 < (others.map (fun e => e.2.slots)).sum + x.slots then some 0x4
  else if x.sched && decide (15360 < valid + pinned) then some 0x5
  else if x.batonIn && others.any (fun e => shares e && (!e.2.sched || decide (e.2.st ≠ 3))) then some 0x6
  else if cls = 0 ∨ cls = 3 ∨ x.clusters = 0 ∨ ¬ (st = 0 ∨ st = 4) ∨ x.saveDA % 0x200000 ≠ 0 ∨ !(saveInHbm x) ∨
      x.ringTable % 64 ≠ 0 ∨ regionOf x.ringTable ≠ .hbm ∨ !(rs.all (fun r => match r with | some c => ringOK rs c | none => false)) then some 0x7
  else none

/-- The clusters of a scheduled session wake, and stacks in self-refresh, whose exit no request has asked for (R281, R308). -/
def wakeForSched (s : State) (x : Sess) : State :=
  (List.range 256).foldl (fun s p => if s.rd F.HBM_PC_STATE_STATE p = 2 then s.wr F.HBM_PC_STATE_STATE p 0 else s) (wakeClusters s x.clusters)

/-- A scheduled session is admitted (R226). -/
def admitSched (s : State) (n : Nat) (x : Sess) : State :=
  let s := setSched s x.clusters true
  let s := s.setSess n (some { x with st := 2 })
  let s := giveSlots (wakeForSched s x) x
  let s := (List.range 32).foldl (fun s r => match (readRing s x r true).2 with
    | some c => if c.valid then showPinned (putRing (makeRoom s) n r c) else s
    | none => s) s
  entryState (showResident s x.clusters n true true false) n 2

/-- ADMIT (R225-R227). -/
def admitSession (s : State) (n : Nat) : State :=
  let s := s.wr F.SES_ADMIT_STAT_SESSION 0 n
  let e := readEntry s n
  let s := e.1
  let ws := e.2.getD []
  let x0 := sessOf ws 0
  let x := { x0 with admitLap := s.lap x0.trk }
  let rs := (List.range 32).map (fun r => (readRing s x r false).2)
  let st := if (s.sess n).isSome then 2 else bits (ws.getD 0 0) 2 3
  if s.on F.TST_CDL_PARKED 0 || decide (s.rd F.TST_CDL_STEP 0 ≠ 0) then
    -- the cool-down lap admits nothing (R470); the spec gives no cause for it
    let f := s.fresh
    refuseAction f.2 f.1
  else match admitCause s n x (bits (ws.getD 0 0) 0 2) st rs with
    | some c => refuseAction s c
    | none =>
      let s := entryWrite s n 14 0 64 x.admitLap
      if x.sched then admitSched s n x
      else slice (entryState (s.setSess n (some x)) n 1) x.clusters

/-- Every queue of a session's cores stops, its stream sets are abandoned, and its cores are reset (R228): block resets that release
under R430. -/
def stopSession (s : State) (x : Sess) : State :=
  let s := (maskCores x.clusters).foldl (fun s k =>
    let s := (List.range 8).foldl (fun s i => queueStop s (k * 8 + i)) s
    resetCore s k) s
  let keys := (maskCores x.clusters).map (fun k => 3 * 4096 + k)
  ({ s with pwr := { s.pwr with asserted := s.pwr.asserted.filter (fun a => !(keys.contains a)) ++ keys } } : State).wr F.RST_STATUS_IN_BLOCK 0 1

/-- Open submissions of a session get entries with STATUS ABANDONED (R228). -/
def abandonSubs (s : State) (n : Nat) : State :=
  let now := s.trk.ts % 2 ^ 48
  let mark := s.ses.subs.map (fun b => if b.session = n ∧ b.status.isNone then { b with status := some 2, tDone := now } else b)
  (List.range mark.length).reverse.foldl (fun s i =>
    match s.ses.subs[i]? with
    | some b => if b.session = n then commitCompletion s i else s
    | none => s) (s.setSes { s.ses with subs := mark })

/-- The rings of a session leave the cache, written back. -/
def dropRings (s : State) (n : Nat) (x : Sess) : State :=
  showPinned ((List.range 32).foldl (fun s r => match s.ring n r with
    | some c => dropRing (writeRing s x r c) (n * 32 + r)
    | none => s) s)

/-- A session is being restored onto its clusters. -/
def restoringNow (s : State) (n : Nat) (x : Sess) : Bool :=
  match switchOf s x.clusters with
  | some w => w.saved && decide (w.inc = some n)
  | none => false

/-- END takes effect (R228): of a session that is resident or being restored, its cores are reset; the saved state of any other is of no
further use. -/
def endNow (s : State) (n : Nat) (x : Sess) : State :=
  let s := if x.st = 2 ∨ restoringNow s n x then
      let s := stopSession s x
      let s := if s.admitted.any (fun e => decide (e.1 ≠ n) && decide (e.2.st ≠ 3) && decide (e.2.clusters &&& x.clusters ≠ 0)) then s
        else (maskClusters x.clusters).foldl (fun s c => clearStaging (clearFinishLines (clearHurdles s c) c) c) s
      let s := s.setSes { s.ses with last := if x.sched then s.ses.last else Tab.set 65536 s.ses.last x.clusters n }
      showResident s x.clusters 0 false false false
    else s
  let s := dropRings (abandonSubs s n) n x
  let loads := s.ses.loads.filter (fun l => decide (l.1 ≠ n))
  let others := s.ses.switches.filter (fun w => decide (w.out ≠ some n) && !(w.saved && decide (w.inc = some n)))
  let left := others.map (fun w => if w.inc = some n then { w with inc := none } else w)
  let s := s.setSes { s.ses with loads := loads, switches := left }
  slice (admitBusy (showSlots (entryState (s.setSess n none) n 4))) x.clusters

/-- SUSPEND (R227, R234, R235). A READY session leaves the slicing at once, and a switch to it that still saves; one that is being
restored, or is being switched out, is suspended when that ends. -/
def suspend (s : State) (n : Nat) (x : Sess) : State :=
  if x.st = 1 ∧ !(restoringNow s n x) then
    let s := s.setSes { s.ses with switches := s.ses.switches.map (fun w => if w.inc = some n then { w with inc := none } else w) }
    slice (entryState (s.setSess n (some { x with st := 3 })) n 3) x.clusters
  else if x.sched then admitBusy (s.setSess n (some { x with suspending := some (s.lap x.trk) }))
  else if (switchOf s x.clusters).isSome then admitBusy (s.setSess n (some { x with suspending := some 0 }))
  else admitBusy (beginSwitch (s.setSess n (some { x with saving := true })) x.clusters (some n) none)

/-- RESUME (R227, R235): its clusters must be free for it; the restore of a scheduled one begins once its cores are out of reset. -/
def resume (s : State) (n : Nat) (x : Sess) : State :=
  let mine := maskClusters x.clusters
  let conflict := if x.sched then mine.any (fun c => clusterTaken s c || clusterSched s c)
    else mine.any (clusterSched s) || s.admitted.any (fun e => decide (e.2.st ≠ 3) && decide (e.2.clusters ≠ x.clusters) && decide (e.2.clusters &&& x.clusters ≠ 0))
  if conflict then refuseAction s 0x3
  else if x.sched then
    admitBusy (startResume (s.setSess n (some { x with restoring := true })) n)
  else slice (entryState (s.setSess n (some { x with st := 1 })) n 1) x.clusters

/-- An action of SES_ADMIT on a session that is admitted, or its refusal (R227, R235). While an action is pending, SUSPEND and END are
refused with cause 0x9, but END takes the place of a pending SUSPEND; a second RESUME counts with them (the model's choice). -/
def sesAction (s : State) (n action : Nat) : State :=
  let s := s.wr F.SES_ADMIT_STAT_SESSION 0 n
  match s.sess n with
  | none => refuseAction s 0x8
  | some x =>
    let waiting := x.suspending.isSome || x.saving
    if (x.restoring && decide (2 ≤ action ∧ action ≤ 4)) || (waiting && decide (action = 3)) then refuseAction s 0x9
    else match action with
      | 2 => if x.st = 1 ∨ x.st = 2 then endNow s n x else refuseAction s 0x8
      | 3 => if x.st = 1 ∨ x.st = 2 then suspend s n x else refuseAction s 0x8
      | 4 => if x.st = 3 then resume s n x else refuseAction s 0x8
      | _ => refuseAction s 0x8

/-- A write of SES_ADMIT. -/
def admitWrite (s : State) (v : Nat) : State :=
  if bits v 16 3 = 1 then admitSession s (bits v 0 16) else sesAction s (bits v 0 16) (bits v 16 3)

/-- LAP_BOUNDARY_SUSPEND (R235): checks first, then the remaining slots are disarmed and counted, and the save begins. -/
def lapSuspend (s : State) (n : Nat) : State :=
  match s.sess n with
  | none => s
  | some x =>
    match x.suspending with
    | none => s
    | some lap =>
      if !x.sched || decide (s.trkState x.trk = trkOFF) || decide (s.trkState x.trk = trkSTALLED) || decide (s.lap x.trk ≤ lap) then s
      else
        let slots := (maskClusters x.clusters).flatMap (fun c => (List.range 64).map (fun i => c * 64 + i))
        let s := slots.foldl checkSlot s
        let left := (slots.filter (fun i => s.on F.TRK_FL_STAT_ARMED i)).length
        let s := (maskClusters x.clusters).foldl disarm s
        let s := (s.bump C.SES_FL_DISARM_CNT 0 left).wrIf (decide (left ≠ 0)) F.SES_STATUS_FL_DISARMED 0 1
        admitBusy (beginSwitch (s.setSess n (some { x with suspending := none, saving := true })) x.clusters (some n) none)

/-- QUANTUM_EXPIRY (R233). -/
def quantumExpiry (s : State) (n : Nat) : State :=
  match s.sess n with
  | none => s
  | some x =>
    if x.sched || decide (x.st ≠ 2) || s.on F.SES_CTRL_SLICE_HOLD 0 || (switchOf s x.clusters).isSome then s
    else slice (s.setSess n (some { x with expired := true })) x.clusters

/-- SESSION_SWITCH_SAVED (R234, R235): the saves of the session have ended; `used` is its quantum time. -/
def switchSaved (s : State) (n used : Nat) : State :=
  match s.sess n with
  | none => s
  | some x =>
    match switchOf s x.clusters with
    | none => s
    | some w =>
      if w.out ≠ some n || w.saved || !(coresRest s x.clusters) then s
      else
        let s := eachCluster x saveHurdles s
        let gone := x.saving || x.suspending.isSome
        let y := { x with st := (if gone then 3 else 1), saving := false, suspending := none, saved := true, expired := false, used := used }
        let s := entryWrite (entryState (s.setSess n (some y)) n y.st) n 5 32 32 used
        let s := if x.sched then setSched s x.clusters false else s
        let s := admitBusy (s.setSes { s.ses with last := if x.sched then s.ses.last else Tab.set 65536 s.ses.last x.clusters n })
        match w.inc.bind (fun i => (s.sess i).map (fun z => (i, z))) with
        | some (i, z) => beginRestore (setSwitch s x.clusters (some { w with saved := true })) i z
        | none => slice (showResident (setSwitch s x.clusters none) x.clusters 0 false false false) x.clusters

/-- SESSION_SWITCH_RESTORED (R234, R235): the restores have ended; the session is resident, and its quantum begins, unless a SUSPEND came
meanwhile or a session of higher PRIO has become eligible. -/
def switchRestored (s : State) (n : Nat) : State :=
  match s.sess n with
  | none => s
  | some x =>
    match switchOf s x.clusters with
    | none => s
    | some w =>
      if w.inc ≠ some n || !w.saved || !(coresRest s x.clusters) then s
      else
        let s := if x.saved then eachCluster x (fun s c da => loadCluster s c da (!x.sched)) s else s
        let y := { x with st := 2, restoring := false, expired := false, hadWork := false, suspending := none, saving := x.suspending.isSome }
        let s := entryState (setSwitch (s.setSess n (some y)) x.clusters none) n 2
        let s := admitBusy (showResident (s.bump C.SES_SWITCH_CNT 0 1) x.clusters n true x.sched false)
        if y.saving then beginSwitch s x.clusters (some n) none else slice s x.clusters

/-! ### Doorbells and rings (R230, R231) -/

/-- A doorbell at a cached context (R230): its group is sliced with the new TAIL. -/
def ringDoorbell (s : State) (n r tail : Nat) : State :=
  match s.sess n with
  | some x => slice (storeTail s n r tail) x.clusters
  | none => dropDoorbell s

/-- DOORBELL: a 64-bit write of SES_DOORBELL. -/
def doorbell (s : State) (v : Nat) : State :=
  let n := bits v 0 16
  let r := bits v 16 5
  let s := s.bump C.SES_DOORBELL_CNT 0 1
  if (s.sess n).isNone then dropDoorbell s
  else if (s.ring n r).isSome then ringDoorbell s n r (bits v 32 16)
  else if 256 ≤ s.ses.loads.length then dropDoorbell s
  else s.setSes { s.ses with loads := s.ses.loads ++ [(n, r, bits v 32 16)] }

/-- RING_CONTEXT_LOAD (R231): a missing context is loaded, and the doorbells that waited for it are applied. -/
def ringLoad (s : State) (n r : Nat) : State :=
  match s.sess n with
  | none => s
  | some x => if (s.ring n r).isSome then s else slice (missRing s n r) x.clusters

/-- SES_RING_PIN_WRITE (R231, R238). -/
def ringPin (s : State) (v : Nat) : State :=
  let n := bits v 16 16
  let r := bits v 32 5
  match s.sess n with
  | none => s
  | some x =>
    let s := if (s.ring n r).isSome then s else missRing s n r
    match s.ring n r with
    | none => s
    | some c =>
      if bit v 40 = 1 then
        if !c.pin && decide (15360 ≤ pinnedRings s) then s.wr F.SES_STATUS_ADMIT_REFUSED 0 1
        else showPinned (putRing s n r { c with pin := true })
      else if x.sched then s
      else showPinned (putRing s n r { c with pin := false })

/-! ### Dispatch (R232) -/

/-- The next ring of a session with entries pending, in ascending order from `nextRing`. -/
def nextPending (s : State) (n : Nat) (x : Sess) : Option Nat :=
  ((List.range 32).map (fun i => (x.nextRing + i) % 32)).find? (fun r =>
    match ringView s n r with | some c => c.valid && !c.completion && decide (c.count ≠ 0) | none => false)

/-- The session dispatches: it is resident, is not being switched, and holds fewer sample slots than it may. -/
def dispatches (s : State) (n : Nat) (x : Sess) : Bool :=
  s.on F.SES_CTRL_EN 0 && decide (x.st = 2) && !x.saving && (switchOf s x.clusters).isNone && decide (slotsOf s n < x.slots)

/-- The queues that a RUN names (R232). -/
def runQueues (x : Sess) (w1 w2 : Nat) : List Nat :=
  (maskClusters x.clusters).zipIdx.flatMap (fun p =>
    if bit w1 p.2 = 1 then ((List.range 16).filter (fun k => decide (bit w2 k = 1))).map (fun k => (p.1 * 16 + k) * 8 + bits w2 28 3) else [])

/-- Takes the entry at the head of ring `r`: eight words (`ext` is what the host returns), and HEAD advances. -/
def takeEntry (s : State) (n r : Nat) (c : Ring) (x : Sess) (ext : List Byte) : State × Option (List Nat) :=
  let e := memRead s (c.base + 64 * c.head) 64 ⟨ext, [], false⟩
  match e.2 with
  | none => (e.1, none)
  | some bs =>
    let s := putRing e.1 n r { c with head := (c.head + 1) % c.size }
    (s.setSess n (some { x with nextRing := (r + 1) % 32 }), some ((List.range 8).map (wordAt bs)))

/-- A submission is dispatched: it holds a sample slot. -/
def openSub (s : State) (n : Nat) (c : Ring) (tag : Nat) (qs : List Nat) : State :=
  showSlots (s.setSes { s.ses with subs := s.ses.subs ++ [⟨n, c.cring, tag, s.trk.ts % 2 ^ 48, qs, none, 0, match s.sess n with | some x => ringDA x c.cring | none => 0⟩] })

/-- Dispatch of the next entry of a session, when its OP is the row's: ARRIVE (0x02) or any other. -/
def dispatch (s : State) (n : Nat) (isArrive : Bool) (ext : List Byte) (eff : State → Sess → Ring → List Nat → State) : State :=
  match s.sess n with
  | none => s
  | some x =>
    if !(dispatches s n x) then s
    else match nextPending s n x with
      | none => s
      | some r => match s.ring n r with
        | none => s
        | some c =>
          let e := takeEntry s n r c x ext
          match e.2 with
          | none => e.1
          | some ws => if decide (bits (ws.getD 0 0) 0 8 = 2) = isArrive then slice (eff e.1 x c ws) x.clusters else s

/-- SUBMISSION_RUN: RUN starts its queues or completes BUSY; an unknown OP completes ILLEGAL. -/
def submissionRun (s : State) (n : Nat) (ext : List Byte) : State :=
  dispatch s n false ext (fun s x c ws =>
    let tag := bits (ws.getD 0 0) 32 32
    let i := s.ses.subs.length
    if bits (ws.getD 0 0) 0 8 ≠ 1 then completeSub (openSub s n c tag []) i 3
    else
      let qs := runQueues x (bits (ws.getD 1 0) 0 32) (ws.getD 2 0)
      if qs.any (fun q => s.running q || decide (s.qState q = qFAULT)) then completeSub (openSub s n c tag []) i 4
      else
        let s := qs.foldl (fun s q => queueStart (s.wr F.VEC_Q_PC_PC q (bits (ws.getD 2 0) 16 12)) q) (openSub s n c tag qs)
        if qs.isEmpty then completeSub s i 0 else s)

/-- SUBMISSION_ARRIVE: harrive at the hurdle of word 1; a hurdle of "the cluster of the issuing core" is of the session's
first cluster. -/
def submissionArrive (s : State) (n : Nat) (ext : List Byte) : State :=
  dispatch s n true ext (fun s x c ws =>
    let w := ws.getD 1 0
    let cl := if bit w 16 = 1 then (maskClusters x.clusters).headD 0 else bits w 11 5
    let i := s.ses.subs.length
    completeSub (arriveFrom (openSub s n c (bits (ws.getD 0 0) 32 32) []) (cl * 2048 + bits w 0 11) 1) i 0)

/-- RUN_COMPLETE (R232): every queue that the RUN started is HALTED, FAULT or IDLE. -/
def runComplete (s : State) (i : Nat) : State :=
  match s.ses.subs[i]? with
  | none => s
  | some b =>
    match s.sess b.session with
    | none => s
    | some x =>
      let ended := fun q => decide (s.qState q = qHALTED ∨ s.qState q = qFAULT ∨ s.qState q = qIDLE)
      if b.status.isSome || decide (x.st ≠ 2) || (switchOf s x.clusters).isSome || !(b.queues.all ended) then s
      else slice (completeSub s i (if b.queues.any (fun q => decide (s.qState q = qFAULT)) then 1 else 0)) x.clusters

/-! ### The clock (R21, R237, R264) -/

/-- A write of SES_CLOCK: refused when it leaves assured mode under an admitted scheduled session, names an economy step
in assured mode, or selects assured mode under a spread reference. -/
def clockWrite (s : State) (v : Nat) : State :=
  let mode := bit v 0
  let step := clampTo 0 2 (bits v 1 2)
  if (s.rd F.SES_CLOCK_MODE 0 = 0 ∧ mode = 1 ∧ schedAdmitted s) ∨ (mode = 0 ∧ step ≠ 0) ∨ (mode = 0 ∧ s.on F.KMR_DEV_STATUS_SPREAD_IN 0) then
    s.wr F.SES_STATUS_CLOCK_REFUSED 0 1
  else
    let old := s.rd F.SES_CLOCK_STEP 0
    let s := (s.wr F.SES_CLOCK_MODE 0 mode).wr F.SES_CLOCK_STEP 0 step
    if step = old then s else relockTracks s

/-! ### The meanings -/

def execAdmitSession (n : Fin 65536) (s : State) : Host.Outcome State Fault Refusal := .next (admitSession s n)
def execEndSession (n : Fin 65536) (s : State) : Host.Outcome State Fault Refusal := .next (sesAction s n 2)
def execSuspend (n : Fin 65536) (s : State) : Host.Outcome State Fault Refusal := .next (sesAction s n 3)
def execResume (n : Fin 65536) (s : State) : Host.Outcome State Fault Refusal := .next (sesAction s n 4)
def execLapBoundarySuspend (n : Fin 65536) (s : State) : Host.Outcome State Fault Refusal := .next (lapSuspend s n)
def execQuantumExpiry (n : Fin 65536) (s : State) : Host.Outcome State Fault Refusal := .next (quantumExpiry s n)
def execSessionSwitchSaved (n : Fin 65536) (used : Nat) (s : State) : Host.Outcome State Fault Refusal := .next (switchSaved s n used)
def execSessionSwitchRestored (n : Fin 65536) (s : State) : Host.Outcome State Fault Refusal := .next (switchRestored s n)
def execDoorbell (value : Word) (s : State) : Host.Outcome State Fault Refusal := .next (doorbell s value.toNat)
def execRingContextLoad (n : Fin 65536) (r : Fin 32) (s : State) : Host.Outcome State Fault Refusal := .next (ringLoad s n r)
def execSubmissionRun (n : Fin 65536) (ext : List Byte) (s : State) : Host.Outcome State Fault Refusal := .next (submissionRun s n ext)
def execSubmissionArrive (n : Fin 65536) (ext : List Byte) (s : State) : Host.Outcome State Fault Refusal := .next (submissionArrive s n ext)
/-- The operand numbers the open submission. -/
def execRunComplete (i : Nat) (s : State) : Host.Outcome State Fault Refusal := .next (runComplete s i)
def execCompletionEntryWrite (i : Nat) (s : State) : Host.Outcome State Fault Refusal := .next (commitCompletion s i)
def execSesClockWrite (value : Word) (s : State) : Host.Outcome State Fault Refusal := .next (clockWrite s value.toNat)
def execSesRingPinWrite (value : Word) (s : State) : Host.Outcome State Fault Refusal := .next (ringPin s value.toNat)

end Sys2Proof.Machine
end

