-- ==== Sys2Proof/Machine/Kamrus.lean ====
section
/-!
DEFINITION. Kamrus (chapter 10): negotiation of a port's mode, cells and their queues, routes and relays, slots, the start
list, references, Track distribution, and the shape table. A cell's queue is its channel 0-63, 64 free, 65 system.
-/
namespace Sys2Proof.Machine

/-! ### Ports -/

def State.setKmr (s : State) (k : Kamrus) : State := { s with kmr := k }
def State.kport (s : State) (p : Nat) : KPort := Tab.get KPort.idle s.kmr.ports p
def State.setKport (s : State) (p : Nat) (x : KPort) : State := s.setKmr { s.kmr with ports := Tab.set KPort.idle s.kmr.ports p x }

def portActive (s : State) (p : Nat) : Bool := decide (s.rd F.KMR_STATUS_STATE p = 3) && !(portDownRst s p)

/-- Lane `i` of port `p`, as the lanes are numbered (R381). -/
def laneOf (p i : Nat) : Nat := p * 8 + i
/-- Raw-rate code of a mode (R240, R268). -/
def rawOf (s : State) (p : Nat) : Nat := s.rd F.KMR_MODE_LANES p + s.rd F.KMR_MODE_RATE p
/-- The lanes of the group of the port's mode, by number in the port (R239). -/
def groupLanes (s : State) (p : Nat) : List Nat :=
  let n := 8 / 2 ^ s.rd F.KMR_MODE_LANES p
  (List.range n).map (fun i => n * s.rd F.KMR_MODE_GROUP p + i)

/-- A slot transmits under the slot table (R242, R252). -/
def schedEn (s : State) (p : Nat) : Bool := s.on F.KMR_CTRL_SCHED_EN p && !(s.on F.KMR_STATUS_MODE_LOW p)

/-! ### Negotiation (R239-R242, R383) -/

/-- The aligned lane groups of the modes in the order of R241: lanes code, rate code, FEC, group. -/
def modesInOrder : List (Nat × Nat × Nat × Nat) :=
  (List.range 6).flatMap (fun raw => [2, 1, 0].flatMap (fun rate =>
    if rate ≤ raw ∧ raw - rate ≤ 3 then
      (List.range (2 ^ (raw - rate))).flatMap (fun g => [0, 1].map (fun f => (raw - rate, rate, f, g)))
    else []))

/-- A mode qualifies: its lane group lies in the common mask of its rate, and its FEC is common (R239, R241). -/
def modeFits (masks : Nat → Nat) (rates lanes fec : Nat) (m : Nat × Nat × Nat × Nat) : Bool :=
  let n := 8 / 2 ^ m.1
  let grp := (2 ^ n - 1) * 2 ^ (n * m.2.2.2)
  decide (bit rates m.2.1 = 1 ∧ bit lanes m.1 = 1 ∧ bit fec m.2.2.1 = 1 ∧ (m.2.2.1 = 0 ∨ m.2.1 = 2)) &&
  decide (masks m.2.1 &&& grp = grp)

/-- One of the three masks of a triple. -/
def maskOf (t : Nat × Nat × Nat) (r : Nat) : Nat := match r with | 0 => t.1 | 1 => t.2.1 | _ => t.2.2

/-- The mode that both ends choose (R241). -/
def chooseMode (s : State) (p : Nat) : Option (Nat × Nat × Nat × Nat) :=
  let x := s.kport p
  modesInOrder.find? (modeFits (fun r => maskOf x.own r &&& maskOf x.theirs r) (s.rd F.KMR_CTRL_CAP_RATE p) (s.rd F.KMR_CTRL_CAP_LANES p)
    (s.rd F.KMR_CTRL_CAP_FEC p &&& x.theirFec))

/-- The lanes of port `p` enter a stage. -/
def setLanes (s : State) (p st : Nat) (ls : List Nat) : State :=
  ls.foldl (fun s i => if s.on F.LNE_CTRL_EN (laneOf p i) then s.wr F.LNE_STAT_STATE (laneOf p i) st else s) s

/-- The first rate that a port offers, and the next one below a rate (R383): 0 224 Gb/s, 1 112, 2 56. -/
def firstRate (s : State) (p : Nat) : Nat := ([0, 1, 2].find? (fun r => decide (bit (s.rd F.KMR_CTRL_CAP_RATE p) r = 1))).getD 2
def nextRate (s : State) (p r : Nat) : Option Nat := [1, 2].find? (fun x => decide (r < x ∧ bit (s.rd F.KMR_CTRL_CAP_RATE p) x = 1))

def State.setLaneState (s : State) (l : Lanes) : State := { s with lanes := l }

/-- A lane begins to search at a rate (R387, R388): from the settings loaded from NV, or in full. -/
def startSearch (s : State) (l r : Nat) : State :=
  let rec' : Option Nat := Tab.get none s.lanes.recs (l * 4 + r)
  let full := s.on F.LNE_CTRL_FORCE_FULL l || rec'.isNone
  let s := s.setLaneState { s.lanes with full := Tab.set false s.lanes.full l full }
  let eq := rec'.getD 0
  let s := if full then s else
    ((s.wr F.LNE_EQ_CTLE l (bits eq 0 5)).wr F.LNE_EQ_PRESET l (bits eq 8 4)).wr F.LNE_EQ_DFE l (bits eq 16 48)
  ((s.wr F.LNE_STAT_STATE l 2).wr F.LNE_STAT_RATE l r).wr F.LNE_STAT_HIST_USED l (b2n (!full))

/-- A lane retrains at the chosen rate from the settings it kept (R383). -/
def trainKept (s : State) (l r : Nat) : State :=
  let eq := Tab.get 0 s.lanes.kept (l * 4 + r)
  let s := ((s.wr F.LNE_EQ_CTLE l (bits eq 0 5)).wr F.LNE_EQ_PRESET l (bits eq 8 4)).wr F.LNE_EQ_DFE l (bits eq 16 48)
  (s.wr F.LNE_STAT_STATE l 2).wr F.LNE_STAT_RATE l r

/-- Lanes of port `p` return to TRAINING (R382): each retrains, at the rate of the mode chosen or at the rates offered. -/
def retrainLanes (s : State) (p : Nat) (chosen : Option Nat) (ls : List Nat) : State :=
  ls.foldl (fun s i =>
    let l := laneOf p i
    if s.on F.LNE_CTRL_EN l then
      let s := ((s.wr F.LNE_STAT_TX_ASLEEP l 0).wr F.LNE_STAT_RX_ASLEEP l 0).bump C.LNE_RETRAIN_CNT l 1
      match chosen with
      | some r => trainKept s l r
      | none => startSearch s l (firstRate s p)
    else s) s

/-- Negotiation of a port from the masks it holds (R241, R242). -/
def negotiatePort (s : State) (p : Nat) : State :=
  let s := s.wr F.KMR_STATUS_STATE p 2
  match chooseMode s p with
  | none => (s.setKport p { s.kport p with chosen := false, noMode := true }).wr F.KMR_STATUS_NO_MODE p 1
  | some (lanes, rate, fec, g) =>
    let s := (((s.wr F.KMR_MODE_LANES p lanes).wr F.KMR_MODE_RATE p rate).wr F.KMR_MODE_FEC p fec).wr F.KMR_MODE_GROUP p g
    let s := s.setKport p { s.kport p with chosen := true, noMode := false }
    let s := retrainLanes s p (some rate) (groupLanes s p)
    if s.rd F.KMR_CTRL_MIN_RAW p < lanes + rate then s.flagMC F.KMR_STATUS_MODE_LOW p else s.wr F.KMR_STATUS_MODE_LOW p 0

/-- The masks that this end sends in the exchange (R241, R390): block lock by rate, the FEC that it offers, receivers that may sleep. -/
def sendMasks (s : State) (p : Nat) : State :=
  let o := (s.kport p).own
  s.emit (.exchange p o.1 o.2.1 o.2.2 (s.rd F.KMR_CTRL_CAP_FEC p)
    ((List.range 8).foldl (fun m i => m + b2n (s.on F.LNE_CTRL_RX_SLEEP_EN (laneOf p i)) * 2 ^ i) 0))

/-- CAPABILITY_EXCHANGE (R241, R383, R390): the partner's lane masks, FEC mask and receivers that may sleep arrive. -/
def capabilityExchange (s : State) (p m224 m112 m56 fec sleep : Nat) : State :=
  if portDownRst s p || !(s.on F.KMR_CTRL_EN p) || decide (s.rd F.KMR_STATUS_STATE p = 3) || decide ((s.kport p).own.2.2 % 256 = 0) then s
  else
    let s := s.setKport p { s.kport p with theirs := (m224 % 256, m112 % 256, m56 % 256), theirFec := fec % 4, theirSleep := sleep % 256 }
    let s := s.wr F.KMR_MODE_PMASKS p (m224 % 256 + m112 % 256 * 2 ^ 8 + m56 % 256 * 2 ^ 16)
    let s := setLanes s p 5 ((List.range 8).filter (fun i => decide (bit (s.kport p).own.2.2 i = 1)))
    negotiatePort s p

/-- NO_MODE_RETRY (R241): 10 ms after an exchange without a mode. -/
def noModeRetry (s : State) (p : Nat) : State :=
  let x := s.kport p
  if x.noMode && decide (s.rd F.KMR_STATUS_STATE p = 2) then
    retrainLanes ((s.setKport p { x with noMode := false, own := (0, 0, 0) }).wr F.KMR_STATUS_STATE p 1) p none (List.range 8)
  else s

def dropMaskBit (t : Nat × Nat × Nat) (r i : Nat) : Nat × Nat × Nat :=
  match r with | 0 => (setBits t.1 i 1 0, t.2) | 1 => (t.1, setBits t.2.1 i 1 0, t.2.2) | _ => (t.1, t.2.1, setBits t.2.2 i 1 0)
def addMaskBit (t : Nat × Nat × Nat) (r i : Nat) : Nat × Nat × Nat :=
  match r with | 0 => (t.1 ||| 2 ^ i, t.2) | 1 => (t.1, t.2.1 ||| 2 ^ i, t.2.2) | _ => (t.1, t.2.1, t.2.2 ||| 2 ^ i)

/-- BIT_LOCK_TIMEOUT (R241): a lane of the chosen group without bit lock leaves the mask of that rate, and negotiation repeats. -/
def bitLockTimeout (s : State) (p i : Nat) : State :=
  let x := s.kport p
  if x.chosen && decide (s.rd F.KMR_STATUS_STATE p = 2) && (groupLanes s p).contains i && decide (s.rd F.LNE_STAT_STATE (laneOf p i) < 3) then
    negotiatePort (sendMasks (s.setKport p { x with own := dropMaskBit x.own (s.rd F.KMR_MODE_RATE p) i }) p) p
  else s

/-! ### Queues and routes (R250-R254) -/

/-- The queue that a cell enters (R250). -/
def cellQueue (c : Cell) : Nat := if c.typ = 4 ∨ c.typ = 5 then 65 else if c.sched then c.channel else 64

/-- A WRITE cell of an engine of this device has left, or is discarded (R246, R249): its transfer knows its last cell, and when. -/
def noteSent (s : State) (c : Cell) : State :=
  let k := c.eng * 8 + c.xslot
  match remoteOf s k with
  | some r => if c.typ = 1 ∧ c.src = s.node ∧ c.last then setRemote s k (some { r with lastCell := some c.num, sentAt := s.trk.ts }) else s
  | none => s

/-- A cell is discarded at a port and counted (R243, R249, R251, R254). -/
def countDrop (s : State) (p : Nat) : State := s.bump C.KMR_CELL_DROP_CNT p 1
def dropCell (s : State) (p : Nat) (c : Cell) : State := noteSent (countDrop s p) c

/-- A cell enters the queue of its port (R242, R250, R254); the transmitters of the port wake by themselves (R391). -/
def enqueueCell (s : State) (p : Nat) (c : Cell) (relayed : Bool) : State :=
  let x := s.kport p
  let l := Tab.get [] x.queues (cellQueue c)
  let room := if (cellQueue c) = 65 then true else decide ((l.filter (fun e => e.2)).length < (if (cellQueue c) = 64 then 256 else 64))
  if !(portActive s p) || (c.sched && s.on F.KMR_STATUS_MODE_LOW p && decide ((cellQueue c) < 64)) then dropCell s p c
  else if relayed && !room then (dropCell s p c).signalMC F.KMR_CELL_DROP_CNT_COUNT p
  else
    let s := s.setKport p { x with queues := Tab.set [] x.queues (cellQueue c) (l ++ [(c, relayed)]) }
    if relayed then s.bump C.KMR_RELAY_CNT 0 1 else s

/-- A CONTROL cell of this device (R420). -/
def controlCell (s : State) (dst : Nat) (payload : List Byte) : Cell :=
  { typ := 5, seq := 0, channel := 0, dst := dst, hops := 0, src := s.node, eng := 0, xslot := 0, num := 0, len := (payload.length + 7) / 8 - 1, dfe := 0,
    last := true, da := 0, count := 0, sched := false, payload := payload }

/-! ### HELLOs, reports and calibration cells as CONTROL cells (R257, R266, R420): the spec gives their subtypes, and the model their
other places in the payload -/

def kmrRole (s : State) : Nat := s.rd F.KMR_ROLE_ROLE 0

def Hello.bytes (h : Hello) : List Byte :=
  bytesLE 8 (0x01 + h.role % 4 * 2 ^ 8 + b2n h.spread * 2 ^ 10 + b2n h.assured * 2 ^ 11 + h.port % 16 * 2 ^ 12 + b2n h.assign.isSome * 2 ^ 16 +
    h.ports.length % 16 * 2 ^ 24) ++
  bytesLE 8 (h.node % 2 ^ 14 + h.manager % 2 ^ 14 * 2 ^ 16 + h.domain % 2 ^ 14 * 2 ^ 32) ++ bytesLE 8 h.serial ++
  bytesLE 8 ((h.assign.getD (0, 0)).1 % 2 ^ 48 + (h.assign.getD (0, 0)).2 % 2 ^ 14 * 2 ^ 48) ++
  h.ports.flatMap (fun e => bytesLE 1 (e.1 % 16 + e.2 % 16 * 16))

def helloOf (bs : List Byte) : Hello :=
  let w := natAt bs 0 8
  let n := natAt bs 8 8
  let a := natAt bs 24 8
  ⟨bits w 8 2, bits n 0 14, natAt bs 16 8, bits n 16 14, bits n 32 14, bits w 12 4,
   (List.range (bits w 24 4)).map (fun i => (natAt bs (32 + i) 1 % 16, natAt bs (32 + i) 1 / 16)), decide (bit w 10 = 1), decide (bit w 11 = 1),
   if bit w 16 = 1 then some (bits a 0 48, bits a 48 14) else none⟩

/-- A neighbour report: the report, and the manager HELLOs that the member recorded. -/
def reportBytes (r : Report) (near : List (Nat × Nat)) : List Byte :=
  bytesLE 8 (0x03 + r.role % 4 * 2 ^ 8 + b2n r.standby * 2 ^ 10 + near.length % 2 ^ 16 * 2 ^ 16) ++ bytesLE 8 r.key ++ bytesLE 8 r.serial ++ bytesLE 8 r.hop ++
  near.flatMap (fun e => bytesLE 2 e.1 ++ bytesLE 2 e.2)

def reportOf (bs : List Byte) : Report :=
  let w := natAt bs 0 8
  ⟨natAt bs 8 8 % 2 ^ 48, natAt bs 16 8, bits w 8 2, decide (bit w 10 = 1), natAt bs 24 8 % 2 ^ 14⟩

/-- The reference that this device drives or relays is spread (R264). -/
def drivesSpread (s : State) : Bool := s.on F.KMR_REF_CTRL_SSC 0 || (decide (s.rd F.KMR_REF_CTRL_SRC 0 = 1) && s.kmr.spread.getD true)

/-- The HELLO that this device sends on a port (R257, R264). -/
def myHello (s : State) (p : Nat) (assign : Option (Nat × Nat)) : Hello :=
  ⟨kmrRole s, s.node, Config.deviceSerial, s.kmr.manager.getD 0x3FFF, s.rd F.KMR_ROLE_DOMAIN 0, p,
   ((List.range 12).filter (portActive s)).map (fun i => (i, s.rd F.KMR_PARTNER_PORT i)), drivesSpread s, decide (s.rd F.SES_CLOCK_MODE 0 = 0), assign⟩

/-- A HELLO enters the system queue of an ACTIVE port (R250, R257); it is for the device at the other end. -/
def sendHello (s : State) (p : Nat) (assign : Option (Nat × Nat)) : State :=
  if portActive s p then enqueueCell s p (controlCell s (s.rd F.KMR_PARTNER_NODE p) (myHello s p assign).bytes) false else s

def sendHellos (s : State) : State := (List.range 12).foldl (fun s p => sendHello s p none) s

/-- A calibration cell (R266): 0 a request, whose timestamp it takes when it leaves, 1 an answer with the request's timestamp. -/
def calCell (s : State) (p kind t : Nat) : Cell := controlCell s (s.rd F.KMR_PARTNER_NODE p) (bytesLE 8 (0x02 + kind * 2 ^ 8) ++ bytesLE 8 t)

/-- A rebuild starts, or starts again, at a manager (R260). -/
def startRebuild (s : State) : State :=
  if kmrRole s = 0 then s else sendHellos (s.setKmr { s.kmr with rebuild := true, reports := [] })

/-! ### Ports come up and go down (R243, R255, R257, R266) -/

/-- A port that becomes ACTIVE takes the frame and slot that the other ports have reached (R255): those of the first other ACTIVE port, in
slots of its own mode. -/
def alignFrame (s : State) (p : Nat) : State :=
  match (List.range 12).find? (fun i => decide (i ≠ p) && portActive s i) with
  | none => s
  | some o =>
    let t := (s.rd F.KMR_FRAME_FRAME_NO o * s.rd F.KMR_FRAME_LEN o + (s.kport o).slot) * 2 ^ rawOf s o / 2 ^ rawOf s p
    let len := s.rd F.KMR_FRAME_LEN p
    (s.setKport p { s.kport p with slot := t % len }).wr F.KMR_FRAME_FRAME_NO p (t / len)

/-- A port becomes ACTIVE (R257, R266, R382): its lanes are ACTIVE, those outside its group sleep, a HELLO leaves (R390), and the first of
64 calibration requests. -/
def portUp (s : State) (p : Nat) : State :=
  let s := setLanes (s.wr F.KMR_STATUS_STATE p 3) p 6 (List.range 8)
  let s := (List.range 8).foldl (fun s i =>
    let out := decide (!((groupLanes s p).contains i))
    (s.wr F.LNE_STAT_TX_ASLEEP (laneOf p i) (b2n out)).wr F.LNE_STAT_RX_ASLEEP (laneOf p i) (b2n out)) s
  let s := alignFrame s p
  let s := sendHello (s.setKport p { s.kport p with cal := 0 }) p none
  startRebuild (enqueueCell s p (calCell s p 0 0) false)

/-- A port goes down (R243): what is queued on it is discarded and counted, and it trains again, if it is enabled. A worker whose ports to
its manager are all down follows none (R257). -/
def portGoesDown (s : State) (p : Nat) : State :=
  let x := s.kport p
  let cells := (x.queues.flatMap (fun q => q.2)).map (fun e => e.1)
  let s := cells.foldl noteSent ((s.bump C.KMR_CELL_DROP_CNT p cells.length).bump C.KMR_DOWN_CNT p 1)
  let s := s.setKport p { x with chosen := false, noMode := false, own := (0, 0, 0), queues := [], rxSeq := none, bad := [], spoiled := 0 }
  let s := retrainLanes ((s.flagMC F.KMR_STATUS_DOWN_EVT p).wr F.KMR_STATUS_STATE p (b2n (s.on F.KMR_CTRL_EN p))) p none (List.range 8)
  let ports := s.kmr.mgrPorts.filter (fun i => decide (i ≠ p))
  let s := s.setKmr { s.kmr with mgrPorts := ports, manager := if ports.isEmpty then none else s.kmr.manager,
                                 neighbours := s.kmr.neighbours.filter (fun e => decide (e.1 ≠ p)) }
  startRebuild s

/-- PORT_DOWN: the event that R243 names at an ACTIVE port. -/
def portDown (s : State) (p : Nat) : State := if portActive s p then portGoesDown s p else s

/-- CODEWORD_RECEIVE (R243, R247): 0 clean, 1 corrected, 2 uncorrectable; the next `cells` cells of the port, at most three, have bytes in an
uncorrectable one and are discarded. -/
def codeword (s : State) (p outcome cells : Nat) : State :=
  if !(portActive s p) then s
  else match outcome with
    | 1 => s.bump C.KMR_CW_CORR_CNT p 1
    | 2 =>
      let x := s.kport p
      let bad := s.trk.ts :: x.bad.filter (fun t => decide ((s.trk.ts + 2 ^ 48 - t) % 2 ^ 48 < 1750000))
      let s := (s.bump C.KMR_CW_UNCORR_CNT p 1).setKport p { x with bad := bad, spoiled := x.spoiled + cells }
      if s.rd F.KMR_CTRL_DOWN_TH p < bad.length then portGoesDown s p else s
    | _ => s

/-! ### Sending and relaying (R251, R254, R302) -/

/-- A cell is sent along its route (R251); `from?` is the port on which a relayed cell arrived. -/
def sendCell (s : State) (c : Cell) (from? : Option Nat) : State :=
  let r := routeOf s c.dst (cellClass c)
  if r.2.2 then enqueueCell s r.1 { c with channel := r.2.1 } from?.isSome else dropCell s (from?.getD r.1) c

/-- Discarded for HOPS, and counted (R189, R254). -/
def hopsDrop (s : State) : State := (s.bump C.KMR_HOPS_DROP_CNT 0 1).signalMC F.KMR_HOPS_DROP_CNT_COUNT 0

/-- A cell for another node is relayed (R245, R189, R254): to a port of another quarter it crosses the device as a CELL packet (R302). -/
def relayCell (s : State) (p : Nat) (c : Cell) : State :=
  if 15 ≤ c.hops then hopsDrop s
  else
    let c := { c with hops := c.hops + 1 }
    let r := routeOf s c.dst (cellClass c)
    if r.2.2 && decide (quarterOfPort r.1 ≠ quarterOfPort p) then s.emit (.packet (cellPkt s (unitOfKport p) c))
    else sendCell s c (some p)

/-! ### Receiving cells (R244, R248, R249) -/

/-- What the receiver makes of a cell: the state with its counts, and whether the cell is accepted. One with bytes in an uncorrectable
codeword does not arrive (R247); IDLE cells are not counted and have no number of their own (R244). -/
def receiveCell (s : State) (p : Nat) (c : Cell) : State × Bool :=
  let x := s.kport p
  if !(portActive s p) then (s, false)
  else if 0 < x.spoiled then (s.setKport p { x with spoiled := x.spoiled - 1 }, false)
  else if c.typ = 0 then (s, false)
  else
    let s := s.bump C.KMR_RX_CELL_CNT p 1
    let d := match x.rxSeq with | some l => (c.seq + 2 ^ 32 - l) % 2 ^ 32 | none => 1
    if d = 0 ∨ 2 ^ 31 < d then ((countDrop s p).flagMC F.KMR_STATUS_LOST p |>.owe 0x2A000001 (p / 3), false)
    else
      let s := s.setKport p { x with rxSeq := some (c.seq % 2 ^ 32) }
      let s := if 1 < d then (s.bump C.KMR_CELL_LOST_CNT p (d - 1)).flagMC F.KMR_STATUS_LOST p |>.owe 0x2A000001 (p / 3) else s
      if 5 < c.typ then (countDrop s p, false) else (s, true)

/-- A received cell that is not for this device is relayed, one not of the type the event names does nothing more; else `f` has it. -/
def cellArrives (s : State) (p typ : Nat) (c : Cell) (f : State → State) : State :=
  let r := receiveCell s p c
  if !r.2 || decide (c.typ ≠ typ) then r.1
  else if c.dst = s.node then f r.1
  else relayCell r.1 p c

/-- A CONTROL cell of a subtype between the two ends of a link, which takes no route (R257, R266). -/
def linkCell (s : State) (p sub : Nat) (c : Cell) (f : State → State) : State :=
  let r := receiveCell s p c
  if r.2 && decide (c.typ = 5) && decide (natAt c.payload 0 1 = sub) then f r.1 else r.1

/-- Bytes of a WRITE cell. -/
def cellBytes (c : Cell) : List Byte := c.payload.take (8 * (c.len % 64 + 1))

/-- One acknowledgement entry (R244). -/
def ackEntry (c : Cell) (err : Bool) : Nat := c.eng % 1024 + c.xslot % 8 * 2 ^ 10 + c.num % 8 * 2 ^ 13 + b2n err * 2 ^ 16

/-- The ACK cell for one entry returns to the sender (R245). -/
def ackCell (s : State) (c : Cell) (err : Bool) : State :=
  sendCell s { typ := 2, seq := 0, channel := 0, dst := c.src, hops := 0, src := s.node, eng := 0, xslot := 0, num := 0, len := 0, dfe := 0,
               last := false, da := 0, count := 1, sched := c.sched, payload := bytesLE 8 (ackEntry c err) } none

/-- Commits a WRITE cell (R245, R172, R173) of channel queue `k`: the state, and whether it is done; else it waits on full/empty bits. -/
def commitCell (s : State) (k : Nat) (c : Cell) (ecc : List Nat) : State × Bool :=
  let bs := (cellBytes c)
  if onChip c.da then
    let ws := wordsOf c.da bs.length
    let who := Agent.cells k
    if memDown s ws || !(onChip (c.da + bs.length - 1)) then (ackCell (s.dropWaiters who) c true, true)
    else if ws.any (fun w => padBusy s (w * 8)) then (s, false)
    else if mayAccess s (waitersBefore who ws s.sync.waiters) c.dfe true ws then
      (ackCell (((s.dropWaiters who).commit c.da bs).fillWords (wholeWords c.da bs.length)) c false, true)
    else if s.sync.waiters.any (fun w => decide (w.who = who)) then (s, false)
    else (s.addWaiter ⟨who, c.dfe, true, ws⟩, false)
  else
    let r := memWrite s c.da bs ⟨[], ecc, false⟩
    (ackCell r.1 c (!r.2), true)

def stalledCells (s : State) (k : Nat) : List Cell := Tab.get [] s.kmr.stalled k
def setStalled (s : State) (k : Nat) (l : List Cell) : State := s.setKmr { s.kmr with stalled := Tab.set [] s.kmr.stalled k l }

/-- A WRITE cell for this device: it waits behind the cells of its channel queue that wait (R245). -/
def writeCell (s : State) (p : Nat) (c : Cell) (ecc : List Nat) : State :=
  let k := quarterOfPort p * 64 + c.channel % 64
  if !((stalledCells s k).isEmpty) then setStalled s k (stalledCells s k ++ [c])
  else
    let r := commitCell s k c ecc
    if r.2 then r.1 else setStalled r.1 k [c]

/-- The head of a channel queue of waiting cells is tried again. -/
def cellsResume (s : State) (k : Nat) : State :=
  match stalledCells s k with
  | [] => s
  | c :: r =>
    let t := commitCell s k c []
    if t.2 then setStalled t.1 k r else t.1

/-! ### Remote write transfers (R246) -/

/-- A transfer that a remote write carries is acknowledged once all its lines have left and no other remote write carries it. -/
def ackTransfer (s : State) (g : Nat) (r : Remote) (p : Nat) : State :=
  let a := s.stmSet g r.set
  match a.issued.find? (fun i => decide (i.desc = r.desc ∧ i.pos = p ∧ i.st = .held)) with
  | none => s
  | some i =>
    let more := (List.range 8).any (fun x => match remoteOf s (g * 8 + x) with
      | some q => decide (q.set = r.set ∧ q.desc = r.desc) && q.poss.contains p | none => false)
    if more || !((linesOf i).all (delivered a i.desc)) then s
    else countDelivered (setIssued s g r.set i.desc i.pos (fun i => { i with st := .acked, bytes := [] })) g r.set i.desc ((i.parts.map (fun x => x.2.2)).sum)

/-- A remote write transfer ends: the stream transfers it carries are acknowledged, or the first has its error response. -/
def endRemote (s : State) (k : Nat) (r : Remote) (ok : Bool) : State :=
  let g := k / 8
  let s := setRemote s k none
  if ok then r.poss.foldl (fun s p => ackTransfer s g r p) s
  else match (s.stmSet g r.set).issued.find? (fun i => decide (i.desc = r.desc ∧ i.st = .held) && r.poss.contains i.pos) with
    | some i => failTransfer s g r.set 0x6 i
    | none => s

/-- The fabric port whose write to another node an entry or a slot names (R331, R333): its cells carry the port's number and its TXN. -/
def portWrite (s : State) (k : Nat) : Option Nat :=
  match findOpen s (unitOfFport (k / 8)) (k % 8) true false with
  | some o => if k / 8 < 128 ∧ 0x830 ≤ unitNo o.dst ∧ unitNo o.dst < 0x833 then some (k / 8) else none
  | none => none

/-- One acknowledgement entry (R246). -/
def takeAck (s : State) (e : Nat) : State :=
  let k := e % 1024 * 8 + bits e 10 3
  match remoteOf s k with
  | none => match portWrite s k with
    | some n => deliverPort 17 (mapOpen s (unitOfFport n) (k % 8) true false (fun o => some { o with got := o.got ++ [(0, [])], bad := o.bad || decide (bit e 16 = 1) })) n true
    | none => s.bump C.KMR_ACK_LATE_CNT 0 1
  | some r =>
    let n := bits e 13 3
    let r := { r with acked := if r.acked.contains n then r.acked else r.acked ++ [n], err := r.err || decide (bit e 16 = 1) }
    match r.lastCell with
    | some l => if r.acked.length = l + 1 then endRemote s k r (!r.err) else setRemote s k (some r)
    | none => setRemote s k (some r)

/-- An ACK cell for this device. -/
def takeAcks (s : State) (c : Cell) : State :=
  (List.range (Nat.min c.count 64)).foldl (fun s i => takeAck s (ofBytesLE ((c.payload.drop (8 * i)).take 8))) s

/-- ACK_TIMEOUT (R246): KMR_ACK_TO cycles after the last cell was sent, or after a fabric port's write was issued. -/
def ackTimeout (s : State) (k : Nat) : State :=
  let due := fun (t : Nat) => decide (s.rd F.KMR_ACK_TO_CYCLES 0 ≤ (s.trk.ts + 2 ^ 48 - t) % 2 ^ 48)
  match remoteOf s k with
  | some r => if r.lastCell.isSome && due r.sentAt then endRemote s k r false else s
  | none => match portWrite s k, findOpen s (unitOfFport (k / 8)) (k % 8) true false with
    | some n, some o => if due o.since then completeError s (unitOfFport n) (k % 8) true false else s
    | _, _ => s

/-! ### SYNC cells (R188, R189, R262) -/

/-- The batons of a SYNC cell for this device; `foreign` says that its sender belongs to another lockstep domain. -/
def takeBatons (s : State) (p : Nat) (c : Cell) (foreign : Bool) : State :=
  (List.range (Nat.min c.count 16)).foldl (fun s i =>
    let ws := (List.range 4).map (fun k => ofBytesLE ((c.payload.drop (32 * i + 8 * k)).take 8))
    let b := batonOf ws
    if foreign && decide (0 < b.cnt) then
      match hurdleOfDA (gaDA b.ga) with
      | some h => dropBaton s (clusterOfHurdle h) F.HUR_STATUS_BATON_REJ
      | none => batonArrives s b (some p)
    else batonArrives s b (some p)) s

/-- The 32 bytes of a baton with HOPS one higher. -/
def hopBaton (b : List Byte) : List Byte := b.take 8 ++ bytesLE 8 (setBits (natAt b 8 8) 40 4 (bits (natAt b 8 8) 40 4 + 1)) ++ b.drop 16

/-- A SYNC cell for another node is relayed with HOPS of its batons higher; a baton at HOPS 15 is discarded (R189). -/
def relaySync (s : State) (p : Nat) (c : Cell) : State :=
  let bs := (List.range (Nat.min c.count 16)).map (fun i => (c.payload.drop (32 * i)).take 32)
  let keep := bs.filter (fun b => decide (bits (natAt b 8 8) 40 4 < 15))
  let s := (bs.filter (fun b => decide (bits (natAt b 8 8) 40 4 = 15))).foldl (fun s _ => hopsDrop s) s
  if keep.isEmpty && !(bs.isEmpty) then s else relayCell s p { c with count := keep.length, payload := keep.flatMap hopBaton }

/-- SYNC_CELL: for this device, or relayed. -/
def syncCell (s : State) (p : Nat) (c : Cell) (foreign : Bool) : State :=
  let r := receiveCell s p c
  if !r.2 || decide (c.typ ≠ 3) then r.1
  else if c.dst = s.node then takeBatons r.1 p c foreign
  else relaySync r.1 p c

/-! ### Spread of the reference (R264) -/

/-- SPREAD_IN, and the economy mode it holds. -/
def showSpread (s : State) : State :=
  let v := decide (s.rd F.KMR_REF_CTRL_SRC 0 = 1) && s.kmr.spread.getD true
  let s := s.wr F.KMR_DEV_STATUS_SPREAD_IN 0 (b2n v)
  if v then s.wr F.SES_CLOCK_MODE 0 1 else s

/-- A HELLO or TRACK cell on the primary reference port says whether the reference is spread. -/
def noteSpread (s : State) (p : Nat) (v : Bool) : State :=
  if s.rd F.KMR_REF_CTRL_SRC 0 = 1 ∧ p = s.rd F.KMR_REF_CTRL_PRIMARY 0 then showSpread (s.setKmr { s.kmr with spread := some v }) else s

/-- The reference port nearest to a written one (R7, R272): 0-11, or 15 for none. -/
def refPort (n : Nat) : Nat := if n < 12 then n else if n < 14 then 11 else 15

/-- KMR_REF_CTRL_WRITE (R263, R264): a write that changes SRC while a scheduled session is admitted is not applied; SSC holds while a device
reports assured mode. What was heard of a spread reference was heard of the source selected then. -/
def refCtrlWrite (s : State) (v : Nat) : State :=
  let src := Nat.min (bits v 0 2) 1
  let pri := refPort (bits v 4 4)
  if src ≠ s.rd F.KMR_REF_CTRL_SRC 0 ∧ schedAdmitted s then s
  else
    let change := decide (src ≠ s.rd F.KMR_REF_CTRL_SRC 0 ∨ pri ≠ s.rd F.KMR_REF_CTRL_PRIMARY 0)
    let s := if change then s.setKmr { s.kmr with spread := none, onSecondary := false } else s
    let s := ((s.wr F.KMR_REF_CTRL_SRC 0 src).wr F.KMR_REF_CTRL_PRIMARY 0 pri).wr F.KMR_REF_CTRL_SECONDARY 0 (refPort (bits v 8 4))
    let assured := decide (s.rd F.SES_CLOCK_MODE 0 = 0) || !(s.kmr.assured.isEmpty)
    let s := if bit v 12 ≠ s.rd F.KMR_REF_CTRL_SSC 0 ∧ assured then s else s.wr F.KMR_REF_CTRL_SSC 0 (bit v 12)
    showSpread s

/-! ### HELLO and the manager (R257, R258) -/

/-- A manager's HELLO at a device that takes orders: the first one is followed, others are recorded. -/
def followManager (s : State) (p : Nat) (h : Hello) : State :=
  let k := s.kmr
  if h.role ≤ kmrRole s then s
  else if k.manager.isNone ∨ k.mgrPorts.head? = some p then
    (s.setKmr { k with manager := some h.node, mgrPorts := if k.mgrPorts.isEmpty then [p] else k.mgrPorts }).wr F.KMR_ROLE_DOMAIN 0 h.domain
  else
    let ports := if k.manager = some h.node ∧ !(k.mgrPorts.contains p) then k.mgrPorts ++ [p] else k.mgrPorts
    let near := if k.neighbours.contains (p, h.node) then k.neighbours else k.neighbours ++ [(p, h.node)]
    s.setKmr { k with mgrPorts := ports, neighbours := near, neighbourCnt := k.neighbourCnt + 1 }

/-- This device takes a node ID (R258); a domain manager's domain is its own, and a manager's members follow it to its group. -/
def takeNode (s : State) (n : Nat) : State :=
  let s := s.wr F.KMR_ROLE_NODE 0 n
  startRebuild (if kmrRole s = 2 then s.wr F.KMR_ROLE_DOMAIN 0 n else s)

/-- Words 2 of start list entries (R259): ports, lanes, rate and FEC of a first hop. -/
def hopWord (s : State) (p mport : Nat) : Nat :=
  mport % 16 + p % 16 * 2 ^ 4 + s.rd F.KMR_MODE_LANES p * 2 ^ 8 + s.rd F.KMR_MODE_RATE p * 2 ^ 11 + s.rd F.KMR_MODE_FEC p * 2 ^ 13

/-- The neighbour report with which a device answers the HELLO of the manager it follows (R257, R260): its key is the one pair of ports. -/
def answerHello (s : State) (p : Nat) (h : Hello) : State :=
  if s.kmr.mgrPorts.head? = some p ∧ kmrRole s < h.role then
    enqueueCell s p (controlCell s h.node (reportBytes
      ⟨h.port % 16 + p % 16 * 16 + 0xFFFFFFFFFF00, Config.deviceSerial, kmrRole s, s.on F.KMR_ROLE_STANDBY 0, hopWord s p h.port⟩ s.kmr.neighbours)) false
  else s

/-- A node ID that comes with a HELLO (R258): from the manager followed, or, for a manager, from the system root; it is for this device at
the end of its path, or goes on along it. -/
def takeAssign (s : State) (p : Nat) (h : Hello) : State :=
  match h.assign with
  | none => s
  | some (path, n) =>
    if !(s.kmr.mgrPorts.contains p) && !(decide (h.node = 0 ∧ 1 ≤ kmrRole s)) then s
    else if path % 256 = 0xFF then (if n = s.node then s else takeNode s n)
    else sendHello s (path % 16) (some (path / 256 + 0xFF * 2 ^ 40, n))

/-- HELLO: the partner's registers, the manager, an assigned node ID, assured mode and spread; a member answers with its report. -/
def takeHello (s : State) (p : Nat) (h : Hello) : State :=
  let s := ((s.wr F.KMR_PARTNER_NODE p h.node).wr F.KMR_PARTNER_PORT p h.port).wr F.KMR_PARTNER_ROLE p h.role
  let s := takeAssign (followManager (s.wr F.KMR_PARTNER_SERIAL_SERIAL p h.serial) p h) p h
  let rest := s.kmr.assured.filter (fun n => decide (n ≠ h.node))
  let s := s.setKmr { s.kmr with assured := if h.assured then rest ++ [h.node] else rest }
  answerHello (if 1 ≤ h.role then noteSpread s p h.spread else s) p h

/-! ### The start list (R258-R260) -/

/-- A report says what the start list does not hold. -/
def reportChange (s : State) (r : Report) : Bool :=
  !((List.range 128).any (fun i => decide (bit (s.rd F.KMR_START_LIST0_DATA i) 16 = 1) && decide (Tab.get 0 s.kmr.keys i = r.key) &&
    decide (s.rd F.KMR_START_LIST1_DATA i = r.serial) && decide (s.rd F.KMR_START_LIST2_DATA i = r.hop)))

/-- NEIGHBOUR_REPORT: it belongs to the rebuild in progress, or starts one when it shows a change; a second, different report of a member in
one rebuild is a change that restarts it (R260). -/
def neighbourReport (s : State) (r : Report) : State :=
  let put := fun (s : State) => s.setKmr { s.kmr with reports := s.kmr.reports.filter (fun x => decide (x.key ≠ r.key)) ++ [r] }
  if kmrRole s = 0 then s
  else if s.kmr.rebuild then (if s.kmr.reports.any (fun x => decide (x.key = r.key ∧ x ≠ r)) then put (startRebuild s) else put s)
  else if reportChange s r then put (startRebuild s)
  else s

/-- The member index of a report (R258): its entry while it stayed present, its place in the position table, else the
lowest free index that the table does not name. The manager's own is 0. -/
def memberIndex (s : State) (r : Report) : Option Nat :=
  let present := fun i => decide (bit (s.rd F.KMR_START_LIST0_DATA i) 16 = 1)
  let idx := (List.range 128).filter (fun i => decide (0 < i))
  match idx.find? (fun i => present i && decide (Tab.get 0 s.kmr.keys i = r.key)) with
  | some i => some i
  | none => match idx.find? (fun i => s.on F.KMR_POS_TABLE_VALID i && decide (s.rd F.KMR_POS_TABLE_KEY i = r.key)) with
    | some i => some i
    | none => idx.find? (fun i => !(present i) && !(s.on F.KMR_POS_TABLE_VALID i))

/-- The node ID that this manager gives a member (R258): G x 128 + index; the system root gives a group manager its group. -/
def memberNode (s : State) (i role : Nat) : Nat :=
  if s.node = 0x3FFF then 0x3FFF else if role = 0 ∨ i = 0 then s.node / 128 * 128 + i else if s.node = 0 then i * 128 else 0x3FFF

/-- Writes one entry (R259); word 3 takes the time of a change. -/
def writeEntry (s : State) (i : Nat) (r : Report) : State :=
  let w0 := memberNode s i r.role + r.role % 4 * 2 ^ 14 + 2 ^ 16 + b2n r.standby * 2 ^ 17 + r.key % 2 ^ 16 * 2 ^ 32
  let same := decide (s.rd F.KMR_START_LIST0_DATA i = w0 ∧ s.rd F.KMR_START_LIST1_DATA i = r.serial ∧ s.rd F.KMR_START_LIST2_DATA i = r.hop)
  let s := ((s.wr F.KMR_START_LIST0_DATA i w0).wr F.KMR_START_LIST1_DATA i r.serial).wr F.KMR_START_LIST2_DATA i r.hop
  let s := s.setKmr { s.kmr with keys := Tab.set 0 s.kmr.keys i r.key }
  if same then s else s.wr F.KMR_START_LIST3_DATA i s.trk.ts

/-- A member's entry is written, and its node ID, when there is one, leaves with a HELLO on the first hop of its path (R258). -/
def enterMember (s : State) (r : Report) : State :=
  match memberIndex s r with
  | none => s
  | some i =>
    let s := writeEntry s i r
    if memberNode s i r.role = 0x3FFF then s else sendHello s (r.key % 16) (some (r.key / 256 + 0xFF * 2 ^ 40, memberNode s i r.role))

/-- The manager's own entry (R258, R259): index 0, no path. -/
def ownReport (s : State) : Report := ⟨0xFFFFFFFFFFFF, Config.deviceSerial, kmrRole s, s.on F.KMR_ROLE_STANDBY 0, 0⟩

/-- A domain manager that no other domain manager neighbours and no root has given a group is the system root, at node 0 (R258). -/
def becomeRoot (s : State) : State :=
  if kmrRole s = 2 ∧ s.node = 0x3FFF ∧ (List.range 12).all (fun p => !(portActive s p) || decide (s.rd F.KMR_PARTNER_ROLE p ≠ 2)) then
    (s.wr F.KMR_ROLE_NODE 0 0).wr F.KMR_ROLE_DOMAIN 0 0
  else s

/-- REBUILD_END (R260): members that did not answer are no longer present, and GEN counts. -/
def rebuildEnd (s : State) : State :=
  if !(s.kmr.rebuild) then s
  else
    let s := becomeRoot s
    let keep := 0xFFFFFFFFFFFF :: s.kmr.reports.map (fun r => r.key)
    let s := (List.range 128).foldl (fun s i =>
      if bit (s.rd F.KMR_START_LIST0_DATA i) 16 = 1 ∧ !(keep.contains (Tab.get 0 s.kmr.keys i)) then
        (s.wr F.KMR_START_LIST0_DATA i (s.rd F.KMR_START_LIST0_DATA i - 2 ^ 16)).wr F.KMR_START_LIST3_DATA i s.trk.ts
      else s) s
    let s := s.kmr.reports.foldl enterMember (writeEntry s 0 (ownReport s))
    let s := s.setKmr { s.kmr with rebuild := false, reports := [] }
    ((s.wr F.KMR_SL_CTRL_GEN 0 (s.rd F.KMR_SL_CTRL_GEN 0 + 1)).bump C.KMR_SL_REBUILD_CNT 0 1).flagMC F.KMR_DEV_STATUS_SL_CHANGED 0

/-! ### References (R263, R267) -/

/-- REFERENCE_LOSS: the reference of a port is lost. -/
def referenceLoss (s : State) (p : Nat) : State :=
  let k := s.kmr
  let lost := if k.refLost.contains p then k.refLost else k.refLost ++ [p]
  let s := s.setKmr { k with refLost := lost }
  let pri := s.rd F.KMR_REF_CTRL_PRIMARY 0
  let sec := s.rd F.KMR_REF_CTRL_SECONDARY 0
  if s.rd F.KMR_REF_CTRL_SRC 0 ≠ 1 ∨ (p ≠ pri ∧ p ≠ sec) ∨ k.holdover then s
  else if lost.contains pri ∧ (sec = 15 ∨ lost.contains sec) then (s.setKmr { s.kmr with holdover := true }).wr F.KMR_DEV_STATUS_REF_LOST 0 1
  else if p = pri then (s.setKmr { s.kmr with onSecondary := true }).wr F.KMR_DEV_STATUS_REF_SWITCH 0 1
  else s

/-- HOLDOVER_EXPIRY: 10 ms of holdover, and the ports go down. -/
def holdoverExpiry (s : State) : State :=
  if s.kmr.holdover then
    let s := s.setKmr { s.kmr with holdover := false }
    (List.range 12).foldl portDown s
  else s

/-- STANDBY_TAKEOVER (R267). -/
def standbyTakeover (s : State) : State :=
  if s.on F.KMR_ROLE_STANDBY 0 && !(s.kmr.tookOver) then (s.setKmr { s.kmr with tookOver := true }).flagMC F.KMR_DEV_STATUS_TAKEOVER 0 else s

/-! ### Track distribution (R202, R265, R266) -/

/-- The limit that a track's samples carry (R202). -/
def trackLimit (s : State) (t : Nat) : Option (Nat × Nat) :=
  let k := s.track t
  match s.trkMode t with
  | 3 => none
  | 4 => k.limit
  | 5 => some (s.lap t, k.angle)
  | _ =>
    let nxt := edgeAngle (trkEpl s t) (k.i + 1)
    let p := posOf (s.lap t) (if nxt = 0 then 0 else nxt - 1)
    some (p / 2 ^ 32, p % 2 ^ 32)

/-- The 32 bytes of one track in a TRACK cell (R265). -/
def trackBytes (s : State) (t : Nat) : List Byte :=
  let lim := trackLimit s t
  bytesLE 8 (s.lap t) ++ bytesLE 4 (s.track t).angle ++ bytesLE 6 (s.rd F.TRK_INC_INC t) ++
  bytesLE 2 (s.trkState t + b2n lim.isSome * 4) ++ bytesLE 4 (lim.getD (0, 0)).2 ++ bytesLE 8 (lim.getD (0, 0)).1

/-- Payload of a TRACK cell: the tracks, then frame number, slot index and SPREAD at bytes 256, 260 and 264 (the model's
own places; R265 gives none). -/
def trackPayload (s : State) (p : Nat) : List Byte :=
  (List.range 8).flatMap (trackBytes s) ++ bytesLE 4 (s.rd F.KMR_FRAME_FRAME_NO p) ++ bytesLE 4 (s.kport p).slot ++ bytesLE 1 (b2n (drivesSpread s))

/-- TRACK_SAMPLE_PERIOD (R265): a manager, or a standby that took over, queues a TRACK cell on a forwarding port. -/
def trackPeriod (s : State) (p : Nat) : State :=
  if bit (s.rd F.KMR_TRK_FWD_PORTS 0) p = 1 ∧ (1 ≤ kmrRole s ∨ s.kmr.tookOver) ∧ portActive s p then
    enqueueCell s p { typ := 4, seq := 0, channel := 0, dst := s.rd F.KMR_PARTNER_NODE p, hops := 0, src := s.node, eng := 0, xslot := 0, num := 0,
                      len := 0, dfe := 0, last := false, da := 0, count := 0, sched := false, payload := [] } false
  else s

/-- ACLK cycles of 1.75 GHz counted as slots of the port's mode (R240): a cell of 544 bytes at the payload rate. -/
def cycleSlots (s : State) (p cycles : Nat) : Nat :=
  let mhz := if s.rd F.SES_CLOCK_MODE 0 = 0 then 1750 else match s.rd F.SES_CLOCK_STEP 0 with | 0 => 1750 | 1 => 1400 | _ => 1050
  let n := if s.rd F.KMR_MODE_FEC p = 1 then 528 else 544
  cycles * 1000 * 1792 * 514 / (mhz * 2 ^ rawOf s p * 4352 * n)

/-- The frame counter of every port set to a frame and slot (R255, R265). -/
def setFrame (s : State) (frame slot : Nat) : State :=
  (List.range 12).foldl (fun s p =>
    let len := s.rd F.KMR_FRAME_LEN p
    (s.setKport p { s.kport p with slot := slot % len }).wr F.KMR_FRAME_FRAME_NO p (frame + slot / len)) s

/-- A TRACK cell for this device: samples of every track, the frame counter, SPREAD. -/
def takeTrack (s : State) (p : Nat) (c : Cell) : State :=
  let s := (List.range 8).foldl (fun s t =>
    let b := (c.payload.drop (32 * t)).take 32
    let at' := fun o n => ofBytesLE ((b.drop o).take n)
    trackSample s t (at' 0 8) (at' 8 4) (at' 12 6) (decide (at' 18 1 % 4 = trkLOCKED)) (if bit (at' 18 1) 2 = 1 then some (at' 24 8, at' 20 4) else none)) s
  let num := fun o n => ofBytesLE ((c.payload.drop o).take n)
  let s := setFrame s (num 256 4) (num 260 4 + cycleSlots s p (s.rd F.KMR_LAT_ONE_WAY p))
  noteSpread s p (decide (num 264 1 % 2 = 1))

/-- Calibration ends with the smallest round trip (R266). -/
def calibrated (s : State) (p m : Nat) : State :=
  let ow := (m + 1) / 2
  let s := s.wr F.KMR_LAT_ONE_WAY p ow
  let mine := decide (s.kmr.mgrPorts.head? = some p) || (decide (s.rd F.KMR_REF_CTRL_SRC 0 = 1) && decide (s.rd F.KMR_REF_CTRL_PRIMARY 0 = p))
  if s.on F.KMR_TRK_FWD_AUTO 0 && mine then
    (List.range 8).foldl (fun s t => if s.trkMode t = 4 then s.wr F.TRK_FWD_COMP_CYCLES t (ow + 30) else s) s
  else s

/-- LATENCY_CALIBRATION (R266): a calibration cell arrives. A request is answered with its timestamp; an answer is a round trip, after
which the next request leaves, until there have been 64. -/
def calibrate (s : State) (p : Nat) (c : Cell) : State :=
  linkCell s p 0x02 c (fun s =>
    let t := natAt c.payload 8 8
    let x := s.kport p
    if natAt c.payload 1 1 = 0 then enqueueCell s p (calCell s p 1 t) false
    else if 64 ≤ x.cal then s
    else
      let rtt := Nat.min 0xFFFF ((s.trk.ts + 2 ^ 48 - t % 2 ^ 48) % 2 ^ 48)
      let m := if x.cal = 0 then rtt else Nat.min (s.rd F.KMR_LAT_RTT_MIN p) rtt
      let s := (s.setKport p { x with cal := x.cal + 1 }).wr F.KMR_LAT_RTT_MIN p m
      if x.cal + 1 < 64 then enqueueCell s p (calCell s p 0 0) false else calibrated s p m)

/-! ### Slots (R252-R255) -/

/-- The entry of a slot in the active bank. -/
def slotEntry (s : State) (p i : Nat) : Nat :=
  let w := s.rd F.KMR_SLOT_TABLE_DATA (p * 4096 + s.rd F.KMR_FRAME_BANK p * 2048 + i / 2)
  bits w (32 * (i % 2)) 32

/-- BANK_SWAP_APPLY (R253). -/
def applySwap (s : State) (p : Nat) : State :=
  if s.on F.KMR_FRAME_SWAP p && decide ((s.kport p).slot = 0) then
    (s.wr F.KMR_FRAME_BANK p (1 - s.rd F.KMR_FRAME_BANK p)).wr F.KMR_FRAME_SWAP p 0
  else s

/-- The queues that a slot looks at, in order (R252). -/
def slotQueues (s : State) (p : Nat) : List Nat :=
  if !(schedEn s p) then [64, 65]
  else
    let e := slotEntry s p (s.kport p).slot
    match bits e 6 2 with
    | 0 => []
    | 1 => [bits e 0 6, 64]
    | 2 => [64, 65]
    | _ => [65, 64]

/-- A cell begins transmission: it takes its SEQ, a TRACK cell of this device its samples, and a calibration request its timestamp. -/
def transmit (s : State) (p : Nat) (c : Cell) (relayed : Bool) : State :=
  let x := s.kport p
  let c := { c with seq := (x.txSeq + 1) % 2 ^ 32 }
  let c := if c.typ = 4 ∧ !relayed then { c with payload := trackPayload s p }
    else if c.typ = 5 ∧ !relayed ∧ natAt c.payload 0 2 = 0x02 then { c with payload := c.payload.take 8 ++ bytesLE 8 s.trk.ts } else c
  let s := (s.setKport p { x with txSeq := (x.txSeq + 1) % 2 ^ 32 }).bump C.KMR_TX_CELL_CNT p 1
  (noteSent s c).emit (.cell p c)

/-- The next slot begins: after the last of a frame the frame counter goes on. -/
def nextSlot (s : State) (p : Nat) : State :=
  let x := s.kport p
  if x.slot + 1 < s.rd F.KMR_FRAME_LEN p then s.setKport p { x with slot := x.slot + 1 }
  else (s.setKport p { x with slot := 0 }).wr F.KMR_FRAME_FRAME_NO p (s.rd F.KMR_FRAME_FRAME_NO p + 1)

/-- SLOT_TRANSMISSION: while a lane of the group sleeps, slots pass without a cell (R391). -/
def slotTransmission (s : State) (p : Nat) : State :=
  if !(portActive s p) then s
  else
    let s := applySwap s p
    let x := s.kport p
    let asleep := (groupLanes s p).any (fun i => s.on F.LNE_STAT_TX_ASLEEP (laneOf p i))
    let s := match (slotQueues s p).find? (fun q => !((Tab.get [] x.queues q).isEmpty)) with
      | none => s
      | some q => match Tab.get [] x.queues q with
        | [] => s
        | (c, r) :: rest => if asleep then s else transmit (s.setKport p { x with queues := Tab.set [] x.queues q rest }) p c r
    nextSlot s p

/-! ### The shape table (R268) -/

/-- One entry of the table. -/
def Claim.bytes (c : Claim) : List Byte :=
  bytesLE 8 (c.node % 2 ^ 14 + c.clusters % 2 ^ 32 * 2 ^ 16) ++ bytesLE 8 (c.hbm % 2 ^ 16 + c.ports % 2 ^ 12 * 2 ^ 16) ++ bytesLE 8 (c.raw % 2 ^ 36) ++
  bytesLE 8 c.serial

/-- A claim takes its place by rising node ID. -/
def placeClaim (c : Claim) : List Claim → List Claim
  | [] => [c]
  | x :: l => if c.node ≤ x.node then c :: x :: l else x :: placeClaim c l

/-- The devices of the domain: the members that this manager's start list shows present, with what firmware claims of them, and those of other
groups that firmware names. -/
def shapeDevices (s : State) (claims : List Claim) : List Claim :=
  let own := (List.range 128).filterMap (fun i =>
    let w := s.rd F.KMR_START_LIST0_DATA i
    if bit w 16 = 0 then none
    else
      let c := (claims.find? (fun c => decide (c.node = bits w 0 14))).getD ⟨0, 0, 0, 0, 0, 0⟩
      some { c with node := bits w 0 14, serial := s.rd F.KMR_START_LIST1_DATA i })
  (own ++ claims.filter (fun c => decide (c.node / 128 ≠ s.node / 128))).foldl (fun l c => placeClaim c l) []

/-- Header and entries of a table with a track of lap boundaries; its GEN is one above that of the table last written. -/
def shapeBytes (s : State) (track : Nat) (ds : List Claim) : List Byte :=
  let len := s.rd F.KMR_FRAME_LEN (((List.range 12).find? (portActive s)).getD 0)
  bytesLE 8 (0x0001 + ds.length % 2 ^ 16 * 2 ^ 16 + (s.rd F.KMR_SHAPE_GEN 0 + 1) * 2 ^ 32) ++
  bytesLE 8 (s.node + len % 2 ^ 15 * 2 ^ 16 + track % 8 * 2 ^ 32) ++ List.replicate 48 0#8 ++ ds.flatMap Claim.bytes

/-- A table is written at KMR_SHAPE.DA, which lies in HBM; GEN is set and the MC signalled. -/
def storeShape (s : State) (bs : List Byte) : State :=
  let da := s.rd F.KMR_SHAPE_DA 0
  if regionOf da ≠ .hbm ∨ regionOf (da + bs.length) ≠ .hbm then s
  else
    let r := memWrite s da bs Around.quiet
    if r.2 then (r.1.wr F.KMR_SHAPE_GEN 0 (natAt bs 4 4 % 2 ^ 16)).signalMC F.KMR_SHAPE_GEN 0 else r.1

/-- SHAPE_TABLE: the domain manager's table arrives, or the domain manager builds it and writes it to each device of its domain. -/
def shapeTable (s : State) : ShapeSource → State
  | .received bs => storeShape s bs
  | .built track claims =>
    if kmrRole s ≠ 2 then s
    else
      let ds := shapeDevices s claims
      let bs := shapeBytes s track ds
      (ds.filter (fun d => decide (d.node ≠ s.node))).foldl (fun s d => s.emit (.shape d.node bs)) (storeShape s bs)

/-! ### The meanings -/

/-- WAITING_ACCESS_PERFORM of a queue's load or store, of the `n`-th access that a convert unit has left, or of the cells
of a channel queue. A packet that waits is tried again by the network. -/
def performWaiting (s : State) (a : Port) (n : Nat) (packet : State → Nat → Nat → State) : State :=
  match a with
  | .lsu q => lsuResume s q
  | .conv k => cvResume s k n
  | .cells q c => cellsResume s (q.val * 64 + c.val)
  | .packet src txn => packet s src txn

def execCapabilityExchange (p : Fin 12) (m224 m112 m56 : Fin 256) (fec : Fin 4) (sleep : Fin 256) (s : State) : Host.Outcome State Fault Refusal :=
  .next (capabilityExchange s p m224 m112 m56 fec sleep)
def execNoModeRetry (p : Fin 12) (s : State) : Host.Outcome State Fault Refusal := .next (noModeRetry s p)
def execPortDown (p : Fin 12) (s : State) : Host.Outcome State Fault Refusal := .next (portDown s p)
/-- RENEG written 1 (R243): it clears itself. -/
def execReneg (p : Fin 12) (s : State) : Host.Outcome State Fault Refusal := .next (portDown (s.wr F.KMR_CTRL_RENEG p 0) p)
def execCodewordReceive (p : Fin 12) (outcome : Fin 3) (cells : Fin 4) (s : State) : Host.Outcome State Fault Refusal := .next (codeword s p outcome cells)
def execAckCell (p : Fin 12) (c : Cell) (s : State) : Host.Outcome State Fault Refusal := .next (cellArrives s p 2 c (fun s => takeAcks s c))
def execSyncCell (p : Fin 12) (c : Cell) (foreign : Bool) (s : State) : Host.Outcome State Fault Refusal := .next (syncCell s p c foreign)
def execTrackCell (p : Fin 12) (c : Cell) (s : State) : Host.Outcome State Fault Refusal := .next (cellArrives s p 4 c (fun s => takeTrack s p c))
/-- HELLO: a CONTROL cell of subtype 0x01 from the other end of the link. -/
def execHello (p : Fin 12) (c : Cell) (s : State) : Host.Outcome State Fault Refusal := .next (linkCell s p 0x01 c (fun s => takeHello s p (helloOf c.payload)))
def execLatencyCalibration (p : Fin 12) (c : Cell) (s : State) : Host.Outcome State Fault Refusal := .next (calibrate s p c)
/-- NEIGHBOUR_REPORT: a CONTROL cell of subtype 0x03. -/
def execNeighbourReport (p : Fin 12) (c : Cell) (s : State) : Host.Outcome State Fault Refusal :=
  .next (cellArrives s p 5 c (fun s => if natAt c.payload 0 1 = 0x03 then neighbourReport s (reportOf c.payload) else s))
def execAckTimeout (e : Fin 1024) (slot : Fin 8) (s : State) : Host.Outcome State Fault Refusal := .next (ackTimeout s (e.val * 8 + slot.val))
/-- SWAP written 1 (R253). -/
def execSwap (p : Fin 12) (s : State) : Host.Outcome State Fault Refusal := .next (s.wr F.KMR_FRAME_SWAP p 1)
def execBankSwapApply (p : Fin 12) (s : State) : Host.Outcome State Fault Refusal := .next (applySwap s p)
def execRebuild (s : State) : Host.Outcome State Fault Refusal := .next (startRebuild s)
def execRebuildEnd (s : State) : Host.Outcome State Fault Refusal := .next (rebuildEnd s)
def execReferenceLoss (p : Fin 12) (s : State) : Host.Outcome State Fault Refusal := .next (referenceLoss s p)
def execHoldoverExpiry (s : State) : Host.Outcome State Fault Refusal := .next (holdoverExpiry s)
def execKmrRefCtrlWrite (value : Word) (s : State) : Host.Outcome State Fault Refusal := .next (refCtrlWrite s value.toNat)
def execTrackSamplePeriod (p : Fin 12) (s : State) : Host.Outcome State Fault Refusal := .next (trackPeriod s p)
def execStandbyTakeover (s : State) : Host.Outcome State Fault Refusal := .next (standbyTakeover s)
def execShapeTable (t : ShapeSource) (s : State) : Host.Outcome State Fault Refusal := .next (shapeTable s t)
def execSlotTransmission (p : Fin 12) (s : State) : Host.Outcome State Fault Refusal := .next (slotTransmission s p)
def execBitLockTimeout (p : Fin 12) (lane : Fin 8) (s : State) : Host.Outcome State Fault Refusal := .next (bitLockTimeout s p lane)

end Sys2Proof.Machine
end

