-- ==== Sys2Proof/Machine/Lanes.lean ====
section
/-!
DEFINITION. Serial lanes, the PCIe endpoint and the CXL root ports (chapter 16).
-/
namespace Sys2Proof.Machine

/-! ### Bring-up of a lane (R381-R389) -/

/-- Lanes 0-95 serve Kamrus, 96-111 PCIe, 112-143 the CXL ports (R381). -/
def isKamrusLane (l : Nat) : Bool := decide (l < 96)
def portOfLane (l : Nat) : Nat := l / 8
def cxlOfLane (l : Nat) : Option Nat := if 112 ≤ l ∧ l < 144 then some ((l - 112) / 16) else none

/-- The lane's block is in reset. -/
def laneDown (s : State) (l : Nat) : Bool := if l < 96 then portDownRst s (portOfLane l) else s.inReset 0 0

/-- The lane, and its port, may train (R382, R401, R403). -/
def laneEn (s : State) (l : Nat) : Bool :=
  s.on F.LNE_CTRL_EN l && !(laneDown s l) &&
  (if l < 96 then s.on F.KMR_CTRL_EN (portOfLane l) else match cxlOfLane l with | some p => s.on F.CXL_PORT_CTRL_EN p | none => true)

/-- RECEIVER_DETECT (R382). -/
def receiverDetect (s : State) (l : Nat) (found : Bool) : State :=
  if !(laneEn s l) || decide (1 < s.rd F.LNE_STAT_STATE l) then s
  else if !found then s.wr F.LNE_STAT_STATE l 1
  else if l < 96 then
    let p := portOfLane l
    startSearch (if s.rd F.KMR_STATUS_STATE p = 0 then s.wr F.KMR_STATUS_STATE p 1 else s) l (firstRate s p)
  else startSearch s l 0

/-- LANE_RETRY (R382): a FAILED lane, 10 ms later. -/
def laneRetry (s : State) (l : Nat) : State :=
  if !(laneEn s l) || decide (s.rd F.LNE_STAT_STATE l ≠ 7) then s
  else if l < 96 then startSearch (s.bump C.LNE_RETRAIN_CNT l 1) l (firstRate s (portOfLane l))
  else (s.wr F.LNE_STAT_STATE l 1).bump C.LNE_RETRAIN_CNT l 1

/-- The lane has reached block lock at one of the rates (R383). -/
def lockedSome (s : State) (l : Nat) : Bool :=
  let o := (s.kport (portOfLane l)).own
  decide (bit (o.1 ||| o.2.1 ||| o.2.2) (l % 8) = 1)

/-- A lane of the port has reached block lock. -/
def lockedAny (s : State) (p : Nat) : Bool := (List.range 8).any (fun i => lockedSome s (laneOf p i))

/-- The port's lanes have tried all the rates it offers: each is disabled, has failed, or has locked at its last rate (R383). -/
def searchOver (s : State) (p : Nat) : Bool :=
  (List.range 8).all (fun i =>
    let l := laneOf p i
    let st := s.rd F.LNE_STAT_STATE l
    !(s.on F.LNE_CTRL_EN l) || decide (st = 7 ∨ st = 5) || (decide (st = 4) && (nextRate s p (s.rd F.LNE_STAT_RATE l)).isNone))

/-- The last lane to end its search begins the capability exchange, on the lanes that locked at 56 Gb/s (R241, R382, R383). -/
def offerMasks (s : State) (p : Nat) : State :=
  if searchOver s p && lockedAny s p then sendMasks (setLanes s p 5 ((List.range 8).filter (fun i => decide (bit (s.kport p).own.2.2 i = 1)))) p else s

/-- A rate ends without lock (R383): the next rate, or FAILED when none locked. -/
def rateFails (s : State) (l : Nat) : State :=
  let r := s.rd F.LNE_STAT_RATE l
  if l < 96 then
    match nextRate s (portOfLane l) r with
    | some n => startSearch s l n
    | none => offerMasks (if lockedSome s l then s.wr F.LNE_STAT_STATE l 4 else s.wr F.LNE_STAT_STATE l 7) (portOfLane l)
  else if r < 3 then startSearch s l (r + 1) else s.wr F.LNE_STAT_STATE l 7

/-- The port retrains the lane at the rate of the mode it chose. -/
def inChosen (s : State) (l : Nat) : Bool :=
  decide (l < 96) && (s.kport (portOfLane l)).chosen && (groupLanes s (portOfLane l)).contains (l % 8)

/-- LANE_SEARCH_DONE (R382, R383, R386-R388): the settings found, the figure of merit they give, and whether the partner offers
the rate. A search from history that misses FOM_GOOD is followed by a full one. -/
def searchDone (s : State) (l fom eq : Nat) (offered : Bool) : State :=
  if !(laneEn s l) || decide (s.rd F.LNE_STAT_STATE l ≠ 2) then s
  else if !offered then rateFails s l
  else
    let s := ((s.wr F.LNE_EQ_CTLE l (bits eq 0 5)).wr F.LNE_EQ_PRESET l (Nat.min 10 (bits eq 8 4))).wr F.LNE_EQ_DFE l (bits eq 16 48)
    let s := s.wr F.LNE_STAT_FOM l fom
    let full := Tab.get false s.lanes.full l
    let retrain := inChosen s l
    if !full && !retrain && decide (fom < s.rd F.LNE_THRESH_FOM_GOOD l) then
      s.setLaneState { s.lanes with full := Tab.set false s.lanes.full l true }
    else
      let s := if full && !retrain then s.wr F.LNE_STAT_HIST_NEW l 1 else s
      let s := s.setLaneState { s.lanes with kept := Tab.set 0 s.lanes.kept (l * 4 + s.rd F.LNE_STAT_RATE l) eq }
      if s.rd F.LNE_THRESH_FOM_MIN l ≤ fom then s.wr F.LNE_STAT_STATE l 3
      else if retrain then s
      else rateFails s l

/-- BLOCK_LOCK (R382, R383): the lane records its rate and trains the next one; when every lane of the chosen group has
locked, the port is ACTIVE. -/
def blockLock (s : State) (l : Nat) : State :=
  if !(laneEn s l) || decide (s.rd F.LNE_STAT_STATE l ≠ 3) then s
  else
    let s := (s.wr F.LNE_STAT_STATE l 4).wr F.LNE_STAT_POL_INV l (b2n (Config.laneInverted l))
    if 96 ≤ l then s
    else
      let p := portOfLane l
      if inChosen s l then
        if (groupLanes s p).all (fun i => decide (s.rd F.LNE_STAT_STATE (laneOf p i) = 4)) && decide (s.rd F.KMR_STATUS_STATE p = 2) then portUp s p else s
      else
        let r := s.rd F.LNE_STAT_RATE l
        let x := s.kport p
        let s := s.setKport p { x with own := addMaskBit x.own r (l % 8) }
        match nextRate s p r with
        | some n => startSearch s l n
        | none => offerMasks s p

/-- LOCK_LOSS (R389): a lane that is ACTIVE and awake. -/
def lockLoss (s : State) (l fom : Nat) : State :=
  if decide (s.rd F.LNE_STAT_STATE l ≠ 6) || s.on F.LNE_STAT_RX_ASLEEP l || laneDown s l then s
  else
    let s := (s.wr F.LNE_STAT_FOM l fom).bump C.LNE_LOCK_LOSS_CNT l 1
    if l < 96 then portDown s (portOfLane l)
    else (s.wr F.LNE_STAT_STATE l 2).bump C.LNE_RETRAIN_CNT l 1

/-! ### Sleep per direction (R390, R391) -/

/-- No cell waits at the port. -/
def portIdle (s : State) (p : Nat) : Bool := (s.kport p).queues.all (fun q => q.2.isEmpty)

/-- TX_SLEEP (R390): an idle marker leaves before the transmitter sleeps. -/
def txSleep (s : State) (l : Nat) : State :=
  let p := portOfLane l
  if portActive s p && (groupLanes s p).contains (l % 8) && s.on F.LNE_CTRL_TX_SLEEP_EN l && !(s.on F.KMR_CTRL_SCHED_EN p) &&
     decide (bit (s.kport p).theirSleep (l % 8) = 1) && portIdle s p then (s.wr F.LNE_STAT_TX_ASLEEP l 1).emit (.lanePattern l false)
  else s

/-- TX_WAKE (R391): a cell waits at the port, or SCHED_EN is 1; a wake pattern leaves. -/
def txWake (s : State) (l : Nat) : State :=
  let p := portOfLane l
  if portActive s p && (groupLanes s p).contains (l % 8) && s.on F.LNE_STAT_TX_ASLEEP l && (s.on F.KMR_CTRL_SCHED_EN p || !(portIdle s p)) then
    ((s.wr F.LNE_STAT_TX_ASLEEP l 0).bump C.LNE_WAKE_CNT l 1).emit (.lanePattern l true)
  else s

/-- The receiver of a lane of the negotiated group of an ACTIVE port. -/
def groupRx (s : State) (l : Nat) : Bool := portActive s (portOfLane l) && (groupLanes s (portOfLane l)).contains (l % 8)

/-- IDLE_MARKER (R390): a receiver that announced RX_SLEEP_EN sleeps. -/
def idleMarker (s : State) (l : Nat) : State :=
  if groupRx s l && s.on F.LNE_CTRL_RX_SLEEP_EN l then s.wr F.LNE_STAT_RX_ASLEEP l 1 else s

/-- WAKE_PATTERN (R391): the sleeping receiver regains lock. -/
def wakePattern (s : State) (l : Nat) : State := if groupRx s l then s.wr F.LNE_STAT_RX_ASLEEP l 0 else s

/-- WAKE_TIMEOUT (R391): no lock 10 us after the wake pattern began. -/
def wakeTimeout (s : State) (l : Nat) : State :=
  if groupRx s l && s.on F.LNE_STAT_RX_ASLEEP l then portDown s (portOfLane l) else s

/-- A lane is disabled or enabled by a write of LNE_CTRL (R382, R243). -/
def laneEnable (s : State) (l : Nat) (en : Bool) : State :=
  let was := s.on F.LNE_CTRL_EN l
  let used := decide (l < 96) && groupRx s l
  let s := s.wr F.LNE_CTRL_EN l (b2n en)
  if was && !en then
    let s := if used then portDown s (portOfLane l) else s
    ((s.wr F.LNE_STAT_STATE l 0).wr F.LNE_STAT_TX_ASLEEP l 0).wr F.LNE_STAT_RX_ASLEEP l 0
  else s

/-! ### The PCIe endpoint (R392-R398) -/

def State.setPci (s : State) (x : Pci) : State := { s with pci := x }

/-- A doubleword of the configuration space as a reset leaves it (R392). The type 0 header has its standard places; the
capabilities stand at places of the model's own. -/
def cfgDefault (s : State) (dw : Nat) : Nat :=
  match dw with
  | 0x00 => 0x98401F5C
  | 0x01 => 0x00100000
  | 0x02 => 0x12000000 + Config.majorStepping % 256
  | 0x04 => 0x00000004
  | 0x06 => 0x0000000C
  | 0x0D => 0x00000040
  | 0x41 => Config.deviceSerial % 2 ^ 32
  | 0x42 => Config.deviceSerial / 2 ^ 32 % 2 ^ 32
  | 0x91 => (10 + s.rd F.PCI_BAR2_SIZE_CODE 0) * 2 ^ 8
  | 0xB2 => 512
  | _ => 0

/-- The bits of a doubleword that the host writes: command; BAR0 and BAR2; power state; MSI-X, device, link, Resizable BAR, ATS and
page request control; the page request allocation. -/
def cfgMask (s : State) (dw : Nat) : Nat :=
  let c := s.rd F.PCI_BAR2_SIZE_CODE 0
  match dw with
  | 0x01 => 0x0546
  | 0x04 => 0xFC000000
  | 0x05 => 0xFFFFFFFF
  | 0x06 => if c = 0 then 0xC0000000 else if c = 1 then 0x80000000 else 0
  | 0x07 => 2 ^ 32 - 2 ^ (c - 2)
  | 0x11 => 0x3
  | 0x14 => 0xC0000000
  | 0x1E => 0x7FFF
  | 0x20 => 0xFFFF
  | 0x91 => 0x3F00
  | 0xA1 => 0x801F0000
  | 0xB1 => 0x1
  | 0xB3 => 0xFFFFFFFF
  | _ => 0

def cfgRead (s : State) (dw : Nat) : Nat := Tab.get (cfgDefault s dw) s.pci.cfg dw

/-- PCI_STATUS and PCI_BAR2_SIZE copy the configuration state. -/
def cfgCopies (s : State) : State :=
  let s := (s.wr F.PCI_STATUS_BME 0 (bit (cfgRead s 0x01) 2)).wr F.PCI_STATUS_D3 0 (b2n (decide (bits (cfgRead s 0x11) 0 2 = 3)))
  (s.wr F.PCI_STATUS_ATS_EN 0 (bit (cfgRead s 0xA1) 31)).wr F.PCI_STATUS_PRI_EN 0 (bit (cfgRead s 0xB1) 0)

/-- Outstanding requests of the streams to the host window end with error responses (R398). -/
def failHost (s : State) : State :=
  s.streams.foldl (fun s e =>
    [0, 1].foldl (fun s k =>
      (s.stmSet e.1 k).issued.foldl (fun s i =>
        match i.st with
        | .reading => if i.parts.any (fun x => decide (regionOf (gaDA x.1) = .host)) then failTransfer s e.1 k 0x5 i else s
        | .held =>
          if isWriting (s.stmSet e.1 k) i && i.parts.any (fun x => gaLocal s x.2.1 && decide (regionOf (gaDA x.2.1) = .host)) then failTransfer s e.1 k 0x6 i else s
        | _ => s) s) s) s

/-- What the register map shows of the translation cache. -/
def showAtc (s : State) : State :=
  (s.wr F.PCI_ATC_STAT_ENTRIES 0 s.pci.atc.length).wr F.PCI_ATC_STAT_LOCKED 0 (s.pci.atc.filter (fun e => e.locked)).length

/-- The configuration space returns to its defaults; the translation cache is empty; page requests are abandoned, and their
streams stay in FAULT_WAIT (R398). -/
def functionReset (s : State) : State :=
  let s := failHost s
  let s := s.setPci { s.pci with atc := [], asked := [], cfg := [], inval := [] }
  cfgCopies (showAtc (setPciGroups s []))

/-- FUNCTION_LEVEL_RESET. -/
def functionLevelReset (s : State) : State :=
  let size := s.rd F.PCI_BAR2_SIZE_CODE 0
  ((functionReset s).wr F.PCI_BAR2_SIZE_CODE 0 size).wr F.PCI_STATUS_FLR 0 1

/-- The host sets the size of BAR2; the base stays a multiple of it (R393). -/
def setBar2Size (s : State) (c : Nat) : State :=
  let s := s.wr F.PCI_BAR2_SIZE_CODE 0 c
  s.wr F.PCI_BAR2_BASE_DA 0 (s.rd F.PCI_BAR2_BASE_DA 0 / 2 ^ (30 + c) * 2 ^ (30 + c))

/-- A write of the enabled bytes of a doubleword. -/
def cfgWrite (s : State) (dw v be : Nat) : State :=
  let bytes := bit be 0 * 0xFF + bit be 1 * 0xFF00 + bit be 2 * 0xFF0000 + bit be 3 * 0xFF000000
  let m := cfgMask s dw &&& bytes
  let old := cfgRead s dw
  let new := (old &&& (2 ^ 32 - 1 - m)) ||| (v &&& m)
  if dw = 0x1E ∧ bit (v &&& bytes) 15 = 1 then functionLevelReset s
  else
    let new := if dw = 0x11 ∧ (bits new 0 2 = 1 ∨ bits new 0 2 = 2) then old else new
    let new := if dw = 0x91 then (let c := bits new 8 6; if c < 10 ∨ 19 < c then old else new) else new
    let s := s.setPci { s.pci with cfg := Tab.set (cfgDefault s dw) s.pci.cfg dw new }
    if dw = 0x91 then
      let t := setBar2Size s (bits new 8 6 - 10)
      t.setPci { t.pci with cfg := Tab.erase t.pci.cfg dw }
    else cfgCopies s

/-- CONFIGURATION_REQUEST (R394). -/
def configRequest (s : State) (dw : Nat) (write : Bool) (v be : Nat) : State :=
  if s.inReset 0 0 then s.emit .error
  else if !(s.conf.hubLoaded) then s.emit .configRetry
  else if write then cfgWrite s dw v be
  else s.emit (.data (cfgRead s dw))

/-- PCIE_LINK_UP (R392, R402): the lanes of the link are ACTIVE. -/
def pcieLinkUp (s : State) (speed width : Nat) (flit : Bool) (ltssm : Nat) : State :=
  if s.inReset 0 0 then s
  else
    let s := ((s.wr F.PCI_STATUS_LINK_UP 0 1).wr F.PCI_STATUS_SPEED 0 speed).wr F.PCI_STATUS_WIDTH 0 width
    let s := (s.wr F.PCI_STATUS_FLIT 0 (b2n flit)).wr F.PCI_STATUS_LTSSM 0 ltssm
    (List.range (Nat.min width 16)).foldl (fun s i =>
      if s.on F.LNE_CTRL_EN (96 + i) then (s.wr F.LNE_STAT_STATE (96 + i) 6).wr F.LNE_STAT_RATE (96 + i) (6 - Nat.max 3 (Nat.min speed 6)) else s) s

/-- The link is down: its lanes are in Detect. -/
def pcieDrop (s : State) : State :=
  let s := (((s.wr F.PCI_STATUS_LINK_UP 0 0).wr F.PCI_STATUS_SPEED 0 0).wr F.PCI_STATUS_WIDTH 0 0).wr F.PCI_STATUS_FLIT 0 0
  (List.range 16).foldl (fun s i => if s.on F.LNE_CTRL_EN (96 + i) then s.wr F.LNE_STAT_STATE (96 + i) 1 else s) (s.wr F.PCI_STATUS_LTSSM 0 0)

/-- PCIE_LINK_DOWN (R398). -/
def pcieLinkDown (s : State) : State :=
  if s.on F.PCI_STATUS_LINK_UP 0 then
    let s := ((pcieDrop s).wr F.PCI_STATUS_LINK_DOWN 0 1).owe 0x2D000001 4
    if s.on F.PCI_CTRL_LINK_EVT_EN 0 then s.signalMC F.PCI_STATUS_LINK_DOWN 0 else s
  else s

/-- A reset of the PCIe port alone (R427): its registers, link and configuration space. -/
def pciePortReset (s : State) : State :=
  let s := (functionReset s).resetFields F.PCI_CTRL_L1_EN F.PCI_WRAP_FLAGS (fun _ => true)
  pcieDrop s

/-- An entry that an admitted scheduled session's PINNED window uses is locked (R395). -/
def pinnedPage (s : State) (page : Nat) : Bool :=
  let lo := hostBase + page * 4096
  s.admitted.any (fun e => e.2.sched && e.2.wins.any (fun w => w.2.2 && decide (w.1 < lo + 4096 ∧ lo < w.1 + w.2.1)))

/-- The cache with one more entry: of 4,096, the oldest that is not locked makes room (R395). -/
def atcInsert (l : List AtcEntry) (e : AtcEntry) : List AtcEntry :=
  let l := l.filter (fun x => decide (x.page ≠ e.page))
  if l.length < 4096 then e :: l
  else match (l.reverse.find? (fun x => !(x.locked))) with
    | some old => e :: l.filter (fun x => decide (x.page ≠ old.page))
    | none => l

/-- TRANSLATION_COMPLETION (R395, R397): an invalidation of the same page in the same cycle wins, and the stream translates
again. -/
def translationCompletion (s : State) (page : Nat) (write invalidated : Bool) : State :=
  if !(s.pci.asked.contains page) then s
  else if invalidated then (s.bump C.PCI_ATS_REQ_CNT 0 1).emit (.atsRequest page)
  else
    let s := s.setPci { s.pci with asked := s.pci.asked.filter (fun x => decide (x ≠ page)), atc := atcInsert s.pci.atc ⟨page, write, pinnedPage s page⟩ }
    showAtc s

/-- A piece of a transfer lies in pages [page, page + n) of the host window. -/
def onHostPages (page n : Nat) (ga len : Nat) : Bool :=
  match regionOf (gaDA ga) with
  | .host => decide (hostPage (gaDA ga) < page + n ∧ page ≤ hostPage (gaDA ga + len - 1))
  | _ => false

/-- A stream transfer is still to complete that was translated with an entry of those pages (R397): it is being read, or its bytes are still
to be written there. -/
def usesHostPages (a : StmSet) (page n : Nat) (i : Issued) : Bool :=
  match i.st with
  | .reading => i.parts.any (fun x => onHostPages page n x.1 x.2.2 || onHostPages page n x.2.1 x.2.2)
  | .held => isWriting a i && i.parts.any (fun x => onHostPages page n x.2.1 x.2.2)
  | _ => false

/-- The stream transfers of the device that use pages of the host window. -/
def hostUsers (s : State) (page n : Nat) : List TransferKey :=
  s.streams.flatMap (fun e => [0, 1].flatMap (fun k =>
    let a := s.stmSet e.1 k
    (a.issued.filter (usesHostPages a page n)).map (fun i => ⟨e.1, k, i.desc, i.pos⟩)))

/-- Invalidations whose requests have all completed complete (R397). -/
def settleInvals (s : State) : State :=
  let now := s.pci.inval.map (fun v => { v with users := v.users.filter (fun u => (hostUsers s v.page v.pages).contains u) })
  let s := s.setPci { s.pci with inval := now.filter (fun v => !v.users.isEmpty) }
  (now.filter (fun v => v.users.isEmpty)).foldl (fun s v => s.emit (.invalidated v.page v.pages)) s

/-- ATS_INVALIDATE (R397): the entries go at once; the request completes after every request that was translated with them. -/
def atsInvalidate (s : State) (page n : Nat) : State :=
  let hit := fun (e : AtcEntry) => decide (page ≤ e.page ∧ e.page < page + n)
  let locked := s.pci.atc.any (fun e => hit e && e.locked)
  let s := showAtc (s.setPci { s.pci with atc := s.pci.atc.filter (fun e => !(hit e)), inval := s.pci.inval ++ [⟨page, n, hostUsers s page n⟩] })
  let s := if locked then s.flagMC F.PCI_STATUS_PIN_INVAL 0 else s
  settleInvals (s.bump C.PCI_INVAL_CNT 0 1)

/-- PAGE_REQUEST_GROUP_RESPONSE (R396, R162). -/
def pageResponse (s : State) (n : Nat) (success : Bool) : State :=
  match s.pci.groups.find? (fun e => decide (e.1 = n)) with
  | none => s.bump C.PCI_ERR_CNT 0 1
  | some e =>
    let s := setPciGroups s (s.pci.groups.filter (fun x => decide (x.1 ≠ n)))
    let s := match e.2 with | some g => groupAnswered s g success | none => s
    nextRequest s true

/-- L1 and L0p entry (R394): what the hardware treats L1_EN and L0P_EN as. -/
def linkPowerEn (s : State) (f : Fld) : Bool :=
  s.on f 0 && !(s.admitted.any (fun e => e.2.sched && e.2.wins.any (fun w => decide (w.2.1 ≠ 0 ∧ regionOf w.1 = .host))))

/-! ### CXL root ports (R399, R400) -/

/-- The target that CXL_CFG_ADDR names. -/
def cxlCfgTarget (s : State) (p : Nat) : Nat :=
  s.rd F.CXL_CFG_ADDR_REG p + s.rd F.CXL_CFG_ADDR_FUNC p * 2 ^ 12 + s.rd F.CXL_CFG_ADDR_DEV p * 2 ^ 15 + s.rd F.CXL_CFG_ADDR_BUS p * 2 ^ 20 +
  s.rd F.CXL_CFG_ADDR_TYPE1 p * 2 ^ 28

/-- A configuration request starts; ignored while BUSY. -/
def cxlCfgStart (s : State) (p : Nat) (data : Option Nat) : State :=
  if s.on F.CXL_CFG_ADDR_BUSY p then s
  else
    let s := match data with | some v => s.wr F.CXL_CFG_DATA_DATA p v | none => s
    ((s.wr F.CXL_CFG_ADDR_BUSY p 1).wr F.CXL_CFG_ADDR_DONE p 0).emit (.cxlConfig p (cxlCfgTarget s p) data)

/-- CXL_CFG_DONE: the completion, or 50 ms without one. -/
def cxlCfgDone (s : State) (p : Nat) (ok : Bool) (answer : Option Nat) : State :=
  if !(s.on F.CXL_CFG_ADDR_BUSY p) then s
  else
    let s := (s.wr F.CXL_CFG_ADDR_BUSY p 0).wr F.CXL_CFG_ADDR_DONE p 1
    if ok then (match answer with | some v => s.wr F.CXL_CFG_DATA_DATA p v | none => s)
    else (s.wr F.CXL_CFG_ADDR_ERR p 1).bump C.CXL_PORT_ERR_CNT p 1

/-- An enabled window names a target on the port (R400). -/
def portNamed (s : State) (p : Nat) : Bool :=
  (List.range 16).any (fun w => s.on F.CXL_WIN_CFG_EN w && !(s.on F.CXL_WIN_CFG_XLT w) &&
    (List.range (2 ^ s.rd F.CXL_WIN_CFG_WAYS w)).any (fun t => decide (bits (s.rd F.CXL_WIN_TGT_TARGETS w) (8 * t + 3) 1 = p)))

/-- REMOVE. -/
def cxlRemove (s : State) (p : Nat) : State :=
  if portNamed s p then s.wr F.CXL_PORT_STAT_REMOVE_REFUSED p 1
  else if s.lanes.removing.contains p then s
  else s.setLaneState { s.lanes with removing := s.lanes.removing ++ [p] }

/-- The link of a CXL port is in Detect. -/
def cxlDrop (s : State) (p : Nat) : State :=
  let s := s.setLaneState { s.lanes with removing := s.lanes.removing.filter (fun x => decide (x ≠ p)) }
  let s := (s.wr F.CXL_PORT_STAT_LINK_UP p 0).clearBit F.CXL_TIER_STATUS_LINK_UP 0 p
  let s := ((s.wr F.CXL_PORT_STAT_SPEED p 0).wr F.CXL_PORT_STAT_WIDTH p 0).wr F.CXL_PORT_STAT_LTSSM p 0
  (List.range 16).foldl (fun s i => if s.on F.LNE_CTRL_EN (112 + 16 * p + i) then s.wr F.LNE_STAT_STATE (112 + 16 * p + i) 1 else s) s

/-- REMOVED: the outstanding requests have completed. -/
def cxlRemoved (s : State) (p : Nat) : State :=
  if s.lanes.removing.contains p then (cxlDrop s p).wr F.CXL_PORT_STAT_REMOVED p 1 else s

/-- CXL_LINK_DOWN (R294, R400): a link that drops by itself is a surprise removal, also while a removal is under way. -/
def cxlLinkDown (s : State) (p : Nat) : State :=
  if s.on F.CXL_PORT_STAT_LINK_UP p then
    let s := ((cxlDrop s p).wr F.CXL_PORT_STAT_LINK_DOWN p 1).bump C.CXL_PORT_DOWN_CNT p 1
    markDown ((s.flagMC F.CXL_TIER_STATUS_SURPRISE 0).owe 0x2C000001 4) p
  else s

/-! ### The meanings -/

def execReceiverDetect (l : Fin 144) (found : Bool) (s : State) : Host.Outcome State Fault Refusal := .next (receiverDetect s l found)
def execLaneRetry (l : Fin 144) (s : State) : Host.Outcome State Fault Refusal := .next (laneRetry s l)
def execLaneSearchDone (l : Fin 144) (fom : Fin 256) (eq : Word) (offered : Bool) (s : State) : Host.Outcome State Fault Refusal :=
  .next (searchDone s l fom eq.toNat offered)
def execLockLoss (l : Fin 144) (fom : Fin 256) (s : State) : Host.Outcome State Fault Refusal := .next (lockLoss s l fom)
def execTxSleep (l : Fin 96) (s : State) : Host.Outcome State Fault Refusal := .next (txSleep s l)
def execTxWake (l : Fin 96) (s : State) : Host.Outcome State Fault Refusal := .next (txWake s l)
def execWakeTimeout (l : Fin 96) (s : State) : Host.Outcome State Fault Refusal := .next (wakeTimeout s l)
def execAtsInvalidate (page pages : Nat) (s : State) : Host.Outcome State Fault Refusal := .next (atsInvalidate s page pages)
def execPageRequestGroupResponse (group : Fin 512) (success : Bool) (s : State) : Host.Outcome State Fault Refusal := .next (pageResponse s group success)
def execFunctionLevelReset (s : State) : Host.Outcome State Fault Refusal := .next (functionLevelReset s)
def execPcieLinkDown (s : State) : Host.Outcome State Fault Refusal := .next (pcieLinkDown s)
def execPciMsixRaise (value : Word) (s : State) : Host.Outcome State Fault Refusal := .next (s.emit (.msix (bits value.toNat 0 8)))
def execRd (p : Fin 2) (s : State) : Host.Outcome State Fault Refusal := .next (cxlCfgStart s p none)
def execCxlCfgDataWrite (p : Fin 2) (value : Word) (s : State) : Host.Outcome State Fault Refusal := .next (cxlCfgStart s p (some (bits value.toNat 0 32)))
def execCxlCfgDone (p : Fin 2) (ok : Bool) (answer : Option Nat) (s : State) : Host.Outcome State Fault Refusal := .next (cxlCfgDone s p ok answer)
def execRemove (p : Fin 2) (s : State) : Host.Outcome State Fault Refusal := .next (cxlRemove s p)
def execRemoved (p : Fin 2) (s : State) : Host.Outcome State Fault Refusal := .next (cxlRemoved s p)
def execCxlLinkDown (p : Fin 2) (s : State) : Host.Outcome State Fault Refusal := .next (cxlLinkDown s p)
def execBlockLock (l : Fin 144) (s : State) : Host.Outcome State Fault Refusal := .next (blockLock s l)
def execIdleMarker (l : Fin 96) (s : State) : Host.Outcome State Fault Refusal := .next (idleMarker s l)
def execWakePattern (l : Fin 96) (s : State) : Host.Outcome State Fault Refusal := .next (wakePattern s l)
def execTranslationCompletion (page : Nat) (write invalidated : Bool) (s : State) : Host.Outcome State Fault Refusal :=
  .next (translationCompletion s page write invalidated)
def execConfigurationRequest (dw : Fin 1024) (write : Bool) (value : BitVec 32) (be : Fin 16) (s : State) : Host.Outcome State Fault Refusal :=
  .next (configRequest s dw write value.toNat be)
def execPcieLinkUp (speed : Fin 8) (width : Fin 32) (flit : Bool) (ltssm : Fin 64) (s : State) : Host.Outcome State Fault Refusal :=
  .next (pcieLinkUp s speed width flit ltssm)

end Sys2Proof.Machine
end

