-- ==== Sys2Proof/Machine/Nv.lean ====
section
/-!
DEFINITION. The non-volatile store and what images are checked with: CRC-32 (R361), CRC-64 (R373), SHAKE256 (R358, R451,
R456), headers (R358), signatures (R450-R452) and measurements (R456).
-/
namespace Sys2Proof.Machine

/-! ### Checksums and digests -/

/-- One bit of the reflected CRC-32 of IEEE 802.3 (R361). -/
def crc32Bit (c : BitVec 32) : BitVec 32 := if c.getLsbD 0 then (c >>> 1) ^^^ 0xEDB88320#32 else c >>> 1
def crc32Byte (c : BitVec 32) (b : Byte) : BitVec 32 :=
  (List.range 8).foldl (fun c _ => crc32Bit c) (c ^^^ b.zeroExtend 32)
/-- The CRC-32 of R361. -/
def crc32 (bs : List Byte) : Nat := (~~~ (bs.foldl crc32Byte 0xFFFFFFFF#32)).toNat

/-- One bit of the CRC-64 of R373. -/
def crc64Bit (c : BitVec 64) : BitVec 64 := if c.getLsbD 63 then (c <<< 1) ^^^ 0x42F0E1EBA9EA3693#64 else c <<< 1
def crc64Byte (c : BitVec 64) (b : Byte) : BitVec 64 :=
  (List.range 8).foldl (fun c _ => crc64Bit c) (c ^^^ (b.zeroExtend 64 <<< 56))
def crc64 (bs : List Byte) : Nat := (bs.foldl crc64Byte 0#64).toNat

/-- Lane `i` of a Keccak state, held as 25 lanes with lane x + 5y at place x + 5y. -/
def lane (a : List Word) (i : Nat) : Word := a.getD i 0

def keccakRot : List Nat := [0, 1, 62, 28, 27, 36, 44, 6, 55, 20, 3, 10, 43, 25, 39, 41, 45, 15, 21, 8, 18, 2, 61, 56, 14]

def keccakRC : List Word :=
  [0x0000000000000001, 0x0000000000008082, 0x800000000000808A, 0x8000000080008000, 0x000000000000808B, 0x0000000080000001,
   0x8000000080008081, 0x8000000000008009, 0x000000000000008A, 0x0000000000000088, 0x0000000080008009, 0x000000008000000A] ++
  [0x000000008000808B, 0x800000000000008B, 0x8000000000008089, 0x8000000000008003, 0x8000000000008002, 0x8000000000000080,
   0x000000000000800A, 0x800000008000000A, 0x8000000080008081, 0x8000000000008080, 0x0000000080000001, 0x8000000080008008]

/-- One round of Keccak-f[1600]. -/
def keccakRound (a : List Word) (rc : Word) : List Word :=
  let c := (List.range 5).map (fun x => lane a x ^^^ lane a (x + 5) ^^^ lane a (x + 10) ^^^ lane a (x + 15) ^^^ lane a (x + 20))
  let d := (List.range 5).map (fun x => lane c ((x + 4) % 5) ^^^ (lane c ((x + 1) % 5)).rotateLeft 1)
  let t := (List.range 25).map (fun i => lane a i ^^^ lane d (i % 5))
  let b := (List.range 25).map (fun i =>
    let j := (i % 5 + 3 * (i / 5)) % 5 + 5 * (i % 5)
    (lane t j).rotateLeft (keccakRot.getD j 0))
  (List.range 25).map (fun i =>
    let v := lane b i ^^^ (~~~ (lane b ((i % 5 + 1) % 5 + i / 5 * 5)) &&& lane b ((i % 5 + 2) % 5 + i / 5 * 5))
    if i = 0 then v ^^^ rc else v)

def keccak (a : List Word) : List Word := keccakRC.foldl keccakRound a

/-- A block of 136 bytes enters the state. -/
def absorb (a : List Word) (bs : List Byte) : List Word :=
  keccak ((List.range 25).map (fun i => lane a i ^^^ BitVec.ofNat 64 (ofBytesLE ((bs.drop (8 * i)).take 8))))

/-- The last block, padded as SHAKE256 pads it. -/
def shakePad (bs : List Byte) : List Byte :=
  if bs.length = 135 then bs ++ [0x9F#8] else bs ++ [0x1F#8] ++ List.replicate (134 - bs.length) 0#8 ++ [0x80#8]

def shakeBlocks : Nat → List Word → List Byte → List Word
  | 0, a, _ => a
  | n + 1, a, bs => if bs.length < 136 then absorb a (shakePad bs) else shakeBlocks n (absorb a (bs.take 136)) (bs.drop 136)

/-- SHAKE256 with 512 bits of output. -/
def shake256 (bs : List Byte) : List Byte :=
  let a := shakeBlocks (bs.length / 136 + 1) (List.replicate 25 0) bs
  (List.range 8).flatMap (fun i => bytesLE 8 (lane a i).toNat)

/-! ### NV (R355) -/

def State.setSec (s : State) (x : Sec) : State := { s with sec := x }
def State.setConf (s : State) (x : Conf) : State := { s with conf := x }

def nvSlot (k : Nat) : Nat := k * 0x01000000
def nvHub : Nat := 0x02000000
def nvTile : Nat := 0x02400000
def nvTrims : Nat := 0x02C00000
def nvBoot : Nat := 0x02DE0000
def nvLap : Nat := 0x02DE1000
def nvOchre : Nat := 0x03000000

/-- Bytes of NV; a byte nothing has written reads as 0. -/
def nvRead (s : State) (o n : Nat) : List Byte := readBytes s.sec.nv o n
def nvNat (s : State) (o n : Nat) : Nat := ofBytesLE (nvRead s o n)
def nvWrite (s : State) (o : Nat) (bs : List Byte) : State := s.setSec { s.sec with nv := writeBytes s.sec.nv o bs }

/-- The slot that the running firmware came from, when one runs. -/
def runningSlot (s : State) : Nat := s.rd F.SEC_BOOT_SLOT 0

/-- A write of NV (R458): the active slot refuses it; a write to the other slot undoes its verification. -/
def nvGuarded (s : State) (o : Nat) (bs : List Byte) : State :=
  let hits := fun (k : Nat) => decide (0 < overlapLen o bs.length (nvSlot k) 0x01000000)
  if hits (runningSlot s) then s.wr F.SEC_STATUS_SLOT_REFUSED 0 1
  else
    let s := nvWrite s o bs
    let k := 1 - runningSlot s
    if hits k then s.setSec { s.sec with passed := Tab.set false s.sec.passed k false } else s

/-! ### Images (R358) -/

def asciiMagic (a b : Nat) : Nat := a + b * 2 ^ 32
/-- "TGZCFG01", "TGZSIG01", "TGZATT01" as little-endian words. -/
def magicCFG : Nat := ofBytesLE [0x54#8, 0x47#8, 0x5A#8, 0x43#8, 0x46#8, 0x47#8, 0x30#8, 0x31#8]
def magicSIG : Nat := ofBytesLE [0x54#8, 0x47#8, 0x5A#8, 0x53#8, 0x49#8, 0x47#8, 0x30#8, 0x31#8]
def magicATT : Nat := ofBytesLE [0x54#8, 0x47#8, 0x5A#8, 0x41#8, 0x54#8, 0x54#8, 0x30#8, 0x31#8]


def headerOfBytes (bs : List Byte) : Header :=
  ⟨natAt bs 0x0C 1, decide (natAt bs 0x0D 1 % 2 = 1), natAt bs 0x10 8, natAt bs 0x18 8, natAt bs 0x20 8, natAt bs 0x28 4, natAt bs 0x2C 4,
   natAt bs 0x30 8, natAt bs 0x38 8, natAt bs 0x40 8⟩

/-- The identity of an image is wrong (R366, cause 0x1): IDCODE, or SERIAL under SERIAL_LOCK. -/
def identWrong (bs : List Byte) : Bool :=
  let h := headerOfBytes bs
  decide (natAt bs 0x0A 2 ≠ 0x9840) || (h.lock && decide (h.serial ≠ Config.deviceSerial % 2 ^ 64))

/-- MAGIC or FORMAT is wrong (R366, cause 0x2). -/
def formatWrong (bs : List Byte) : Bool := decide (natAt bs 0 8 ≠ magicCFG ∨ natAt bs 8 2 ≠ 1)

/-! ### Signatures (R449-R454) -/

def keyDigest (s : State) (k : Nat) : List Byte := Tab.get (List.replicate 64 0#8) s.sec.keys k
def keyRevoked (s : State) (k : Nat) : Bool := decide (bit s.sec.revoked k = 1)
/-- The rollback floor of a counter (R453): 0 FW, 1 CFG, 2 FAB. -/
def floorOf (s : State) (c : Nat) : Nat := Tab.get 0 s.sec.floors c

/-- The counter of a PART (R452). -/
def counterOf (part : Nat) : Nat := if part = 6 then 0 else if part = 4 then 2 else 1

/-- "TGZ-IMG", "TGZ-DBG", "TGZ-ATT". -/
def ctxImg : List Byte := [0x54#8, 0x47#8, 0x5A#8, 0x2D#8, 0x49#8, 0x4D#8, 0x47#8]
def ctxDbg : List Byte := [0x54#8, 0x47#8, 0x5A#8, 0x2D#8, 0x44#8, 0x42#8, 0x47#8]
def ctxAtt : List Byte := [0x54#8, 0x47#8, 0x5A#8, 0x2D#8, 0x41#8, 0x54#8, 0x54#8]

/-- The hybrid signature of a block over a digest, by a slot that `slots` allows (R451 steps 2-6): 0, or the step that fails. -/
def hybridStep (s : State) (sig dig ctx : List Byte) (slots : List Nat) : Nat :=
  let slot := natAt sig 8 1
  let edk := (sig.drop 0x10).take 57
  let mlk := (sig.drop 0xD0).take 2592
  if natAt sig 0 8 ≠ magicSIG ∨ natAt sig 9 1 ≠ 3 then 2
  else if shake256 (edk ++ mlk) ≠ keyDigest s slot ∨ keyRevoked s slot then 3
  else if !(slots.contains slot) then 4
  else if !(Config.ed448Verify edk ctx dig ((sig.drop 0x50).take 114)) then 5
  else if !(Config.mldsaVerify mlk ctx dig ((sig.drop 0xAF0).take 4627)) then 6
  else 0

/-- R451 for an image: the step that fails, or 0. An unsigned fabric image skips the signature steps (R452). -/
def imageStep (s : State) (head sig table : List Byte) (part version : Nat) : Nat :=
  let dimg := shake256 (head ++ table)
  let slots := if part = 4 then [2, 3] else [0, 1]
  let unsigned := decide (part = 4) && !(s.sec.owner) && decide (natAt sig 9 1 = 0)
  let k := if unsigned then 0 else hybridStep s sig dimg ctxImg slots
  if k ≠ 0 then k
  else if version < floorOf s (counterOf part) then 7
  else 0

/-- The whole of an image in NV is sound (R451, R365): 0, or the failing step; a chunk whose digest differs counts as step 1. -/
def nvImageStep (s : State) (base part : Nat) : Nat :=
  let head := nvRead s base 4096
  let h := headerOfBytes head
  let table := nvRead s (base + h.digOff) (64 * h.chunks)
  if formatWrong head || identWrong head || decide (h.part ≠ part) then 1
  else
    let k := imageStep s head (nvRead s (base + h.sigOff) 8192) table part h.version
    let endStream := h.length - h.strOff
    if k ≠ 0 then k
    else if (List.range h.chunks).all (fun i =>
      decide (shake256 (nvRead s (base + h.strOff + i * 65536) (Nat.min 65536 (endStream - i * 65536))) = (table.drop (64 * i)).take 64)) then 0 else 1

/-- The image digest of an image in NV. -/
def nvImageDigest (s : State) (base : Nat) : List Byte :=
  let head := nvRead s base 4096
  let h := headerOfBytes head
  shake256 (head ++ nvRead s (base + h.digOff) (64 * h.chunks))

/-! ### Measurements (R456) -/

def measure (s : State) (i : Nat) : List Byte := (List.range 8).flatMap (fun w => bytesLE 8 (s.rd F.SEC_M_DATA (8 * i + w)))

/-- M i is extended with a digest. -/
def extendM (s : State) (i : Nat) (d : List Byte) : State :=
  let m := shake256 (measure s i ++ d)
  (List.range 8).foldl (fun s w => s.wr F.SEC_M_DATA (8 * i + w) (natAt m (8 * w) 8)) s

def clearM (s : State) (i : Nat) : State := (List.range 8).foldl (fun s w => s.wr F.SEC_M_DATA (8 * i + w) 0) s

end Sys2Proof.Machine
end

