-- ==== Sys2Proof/Machine/Noc.lean ====
section
/-!
DEFINITION. The packet network on chip (chapter 12): the sleep of domains, requests served at their destination, cells and batons,
responses, trace records, probe registers.
-/
namespace Sys2Proof.Machine

/-! ### Sleep of domains (R308-R310): 0-7 clusters, 8-11 fabric port groups, 12-17 link directions of a quarter -/

/-- A cluster or port group is idle (R308); a link direction is idle when the event says so. -/
def domainIdle (s : State) (q d : Nat) : Bool :=
  if d < 8 then
    let c := q * 8 + d
    (List.range 128).all (fun i => decide (s.rd F.VEC_Q_STAT_STATE (c * 128 + i) = qIDLE ∨ s.rd F.VEC_Q_STAT_STATE (c * 128 + i) = qHALTED)) &&
    (List.range 32).all (fun g => !((s.stream (c * 32 + g)).set0.armed) && !((s.stream (c * 32 + g)).set1.armed)) &&
    !(s.sync.hurWait.any (fun w => decide (clusterOfHurdle w.hur = c))) &&
    (List.range 64).all (fun n => !(s.on F.TRK_FL_STAT_ARMED (c * 64 + n)) && (s.windowQueue (c * 64 + n)).isEmpty)
  else if d < 12 then
    let inGroup := fun (u : Nat) => match fportOfUnit u with | some n => decide (n / 32 = q ∧ n % 32 / 8 = d - 8) | none => false
    !(s.noc.opened.any (fun o => inGroup o.src || inGroup o.dst))
  else true

/-- The domain's enable (R308): a cluster of an admitted scheduled session may not sleep. -/
def sleepEn (s : State) (q d : Nat) : Bool :=
  if d < 8 then decide (bit (s.rd F.NOC_PWR_CTRL_CLUSTER_EN q) d = 1) && !(clusterSched s (q * 8 + d))
  else if d < 12 then decide (bit (s.rd F.NOC_PWR_CTRL_FPORT_EN q) (d - 8) = 1)
  else decide (bit (s.rd F.NOC_PWR_CTRL_LINK_EN q) ((d - 12) / 2) = 1)

/-- IDLE_TIMER cycles have passed since the domain last carried a packet or woke (R308, R310). -/
def idleLong (s : State) (q d : Nat) : Bool :=
  decide (s.rd F.NOC_PWR_CTRL_IDLE_TIMER q ≤ (s.trk.ts + 2 ^ 48 - Tab.get 0 s.noc.busyAt (q * 32 + d)) % 2 ^ 48)

/-- DOMAIN_SLEEP: the domain has been idle for IDLE_TIMER cycles. -/
def domainSleep (s : State) (q d : Nat) : State :=
  if sleepEn s q d && domainIdle s q d && idleLong s q d && !(s.quarterDown q) && !(s.noc.heldPkts.any (fun h => decide (h.1 = q * 32 + d))) then setAsleep s q d true
  else s

/-- The far end of a link direction: the hub, or a quarter. -/
def linkFar (q d : Nat) : Nat := match (d - 12) / 2 with | 0 => 4 | 1 => (q + 3) % 4 | _ => (q + 1) % 4

/-- A domain that cannot wake (R310): held in reset or fenced; a port group with both its regions; a link with the quarter at an end. -/
def cannotWake (s : State) (q d : Nat) : Bool :=
  let down := fun (q : Nat) => s.quarterDown q || quarterFenced s q
  if d < 8 then s.clusterDown (q * 8 + d) || clusterFenced s (q * 8 + d)
  else if d < 12 then down q || (s.inReset 4 (q * 8 + 2 * (d - 8)) && s.inReset 4 (q * 8 + 2 * (d - 8) + 1))
  else down q || (decide (linkFar q d < 4) && down (linkFar q d))

/-! ### Requests at their destination (R172, R276, R306) -/

/-- The lines of 128 bytes that bytes from `da` on touch: DA and bytes in each. -/
def lineCuts : Nat → Nat → List Byte → List (Nat × List Byte)
  | 0, _, _ => []
  | f + 1, da, bs => if bs.isEmpty then [] else
    let n := 128 - da % 128
    (da, bs.take n) :: lineCuts f (da + n) (bs.drop n)

/-- A READ is answered by one READ_DATA for each line it touches (R300), with its data or as an error. -/
def respondRead (s : State) (p : Packet) (data : Option (List Byte)) : State :=
  match data with
  | none => (lineCuts (8 * p.len + 1) p.da (List.replicate (8 * p.len) 0#8)).foldl (fun s l => respond s p 1 1 l.1 (l.2.length / 8) 1 []) s
  | some bs => (lineCuts (bs.length + 1) p.da bs).foldl (fun s l => respond s p 1 1 l.1 (l.2.length / 8) 0 l.2) s

/-- A packet waits at its memory. -/
def putWaiting (s : State) (p : Packet) : State :=
  s.setNoc { s.noc with waiting := s.noc.waiting.filter (fun x => !(decide (x.src = p.src ∧ x.txn = p.txn ∧ x.op = p.op))) ++ [p] }

/-- A packet's access to on-chip words in its full/empty mode (R172, R173): performed, or recorded as waiting. -/
def packetTry (s : State) (p : Packet) (store : Bool) (ws : List Nat) : State × Bool :=
  let who := Agent.packet p.src (p.txn + 8 * b2n store)
  if mayAccess s (waitersBefore who ws s.sync.waiters) p.fe store ws then
    let s := s.dropWaiter who ws
    (s.setNoc { s.noc with waiting := s.noc.waiting.filter (fun x => !(decide (x.src = p.src ∧ x.txn = p.txn ∧ x.op = p.op))) }, true)
  else if s.sync.waiters.any (fun w => decide (w.who = who) && decide (w.words = ws)) then (s, false)
  else (putWaiting (s.addWaiter ⟨who, p.fe, store, ws⟩) p, false)

/-- READ at its destination. -/
def serveRead (s : State) (p : Packet) : State :=
  let n := 8 * p.len
  if onChip p.da then
    let ws := wordsOf p.da n
    if memDown s ws || !(onChip (p.da + n - 1)) then respondRead s p none
    else if ws.any (fun w => padBusy s (w * 8)) then putWaiting s p
    else
      let r := packetTry s p false ws
      if r.2 then
        let bs := readBytes r.1.sram p.da n
        respondRead (feLeave r.1 p.fe false (wholeWords p.da n)) p (some bs)
      else r.1
  else
    let r := memRead s p.da n ⟨p.data, p.ecc, p.panicQueued⟩
    respondRead r.1 p r.2

/-- WRITE at its destination: committed and acknowledged. -/
def serveWrite (s : State) (p : Packet) : State :=
  let bs := p.data.take (8 * p.len)
  if onChip p.da then
    let ws := wordsOf p.da bs.length
    if memDown s ws || !(onChip (p.da + bs.length - 1)) then respond s p 1 2 p.da p.len 1 []
    else if ws.any (fun w => padBusy s (w * 8)) then putWaiting s p
    else
      let r := packetTry s p true ws
      if r.2 then respond ((r.1.commit p.da bs).fillWords (wholeWords p.da bs.length)) p 1 2 p.da p.len 0 [] else r.1
  else
    let r := memWrite s p.da bs ⟨[], p.ecc, p.panicQueued⟩
    respond r.1 p 1 2 p.da p.len (b2n (!r.2)) []

/-- A request marked as an error completes with an error response (R306). -/
def serveRequest (s : State) (p : Packet) (a : Arrival) : State :=
  match a with
  | .gone => s
  | .refused => s
  | .held => s
  | .marked => if p.op = 1 then respondRead s p none else respond s p 1 2 p.da p.len 1 []
  | .ok => if p.op = 1 then serveRead s p else serveWrite s p

/-- A packet that waits at its memory is tried again (WAITING_ACCESS_PERFORM). -/
def packetResume (s : State) (src txn : Nat) : State :=
  match s.noc.waiting.find? (fun p => decide (p.src = src ∧ p.txn = txn)) with
  | some p => if p.op = 1 then serveRead s p else serveWrite s p
  | none => s

/-! ### Cells, batons and arrivals (R244, R300, R302) -/

/-- The Kamrus port of a unit that is one. -/
def kportOfUnit (u : Nat) : Option Nat := if dieOf u < 4 ∧ 0x830 ≤ unitNo u ∧ unitNo u < 0x833 then some (dieOf u * 3 + (unitNo u - 0x830)) else none

/-- CELL: at the port of its route the cell enters its queue; one of another node is on its way through this device (R302). -/
def cellPacket (s : State) (p : Packet) : State :=
  let c := cellOf p.data p.sched
  sendCell s c (if c.src = s.node then none else some ((kportOfUnit p.src).getD 0))

/-- A CELL request ends with an error response (R306): that of the remote write transfer, or of the fabric port's write, that it belongs to. -/
def cellError (s : State) (p : Packet) : State :=
  let c := cellOf p.data p.sched
  let k := c.eng * 8 + c.xslot
  if c.src ≠ s.node then s
  else match remoteOf s k, portWrite s k with
    | some r, _ => endRemote s k r false
    | none, some n => completeError s (unitOfFport n) c.xslot true false
    | none, none => s.emit (.response p.src p.txn none)

/-- A baton record for another node travels in a SYNC cell (R244); its source's session says whether it is scheduled. -/
def batonPacket (s : State) (p : Packet) : State :=
  let b := batonOf ((List.range 4).map (fun k => ofBytesLE ((p.data.drop (8 * k)).take 8)))
  if gaFlags b.ga = 0 ∧ gaNode b.ga ≠ s.node then
    sendCell s { typ := 3, seq := 0, channel := 0, dst := gaNode b.ga, hops := 0, src := s.node, eng := 0, xslot := 0, num := 0, len := 0, dfe := 0,
                 last := false, da := 0, count := 1, sched := clusterSched s (b.srcCore / 16), payload := p.data.take 32 } none
  else batonArrives s b none

/-- An ARRIVE packet: the operand of R178, and the count in the next word. -/
def arrivePacket (s : State) (p : Packet) : State :=
  let w := ofBytesLE (p.data.take 8)
  let n := ofBytesLE ((p.data.drop 8).take 8)
  let c := if bit w 16 = 1 then (clusterOfUnit p.src).getD (bits w 11 5) else bits w 11 5
  if s.clusterDown c then s else arriveFrom s (c * 2048 + bits w 0 11) n

/-! ### Responses (R300, R305-R307, R331) -/

/-- A response at its source. -/
def takeResponse (s : State) (r : Packet) (bad : Bool) : State :=
  let write := decide (r.op = 2)
  match findOpen s r.dst r.txn write false with
  | none => misroute s (quarterOfDie (dieOf r.dst) (dieOf r.src))
  | some o =>
    let o' := { o with got := o.got ++ [(r.da, r.data)], left := if bad then 0 else o.left - r.len, bad := o.bad || bad }
    let s := mapOpen s r.dst r.txn write false (fun _ => some o')
    match fportOfUnit r.dst with
    | some n => deliverPort 17 s n write
    | none =>
      let s := if bad then s.emit (.response r.dst r.txn none) else s.emit (.response r.dst r.txn (some r.data))
      if write || decide (o'.left = 0) then mapOpen s r.dst r.txn write false (fun _ => none) else s

/-- A response to a register access at its source. -/
def takeRegResp (s : State) (r : Packet) : State :=
  match s.noc.opened.find? (fun o => decide (o.src = r.dst ∧ o.txn = r.txn ∧ o.ctl = true)) with
  | none => misroute s (quarterOfDie (dieOf r.dst) (dieOf r.src))
  | some o => (s.setNoc { s.noc with opened := s.noc.opened.erase o }).emit (.response r.dst r.txn (if r.status = 0 then some r.data else none))

/-- A request ends with an error response on its way. -/
def refuseRequest (s : State) (p : Packet) : State :=
  if p.cls = 0 ∧ p.op = 3 then cellError s p else completeError s p.src p.txn (decide (p.op = 2)) (decide (p.cls = 3))

/-- NOC_COMPLETION_TIMEOUT (R307): NOC_CPL_TO cycles of the source's quarter, for the hub that of quarter 0, have passed since the request
was issued; requests to the CXL tier follow R289 and those to other nodes R246. -/
def completionTimeout (s : State) (src txn : Nat) (write ctl : Bool) : State :=
  match findOpen s src txn write ctl with
  | none => s
  | some o =>
    if o.dst = 0x4002 ∨ o.dst = 0x4003 ∨ (kportOfUnit o.dst).isSome ∨ (s.trk.ts + 2 ^ 48 - o.since) % 2 ^ 48 < s.rd F.NOC_CPL_TO_CYCLES (quarterOfDie (dieOf src) 0) then s
    else completeError s src txn write ctl

/-- Packets that a domain which cannot wake held (R310): requests complete with error responses, others are discarded; each is counted. -/
def wakeFail (s : State) (q : Nat) (l : List Packet) : State :=
  (l.foldl (fun s p => if isRequest p then refuseRequest (misroute s q) p else misroute s q) s).wr F.NOC_STATUS_WAKE_FAIL q 1

/-! ### The trace ring (R304, R312) -/

/-- Where the next record of a quarter's ring goes. -/
def ringPlace (s : State) (q : Nat) : Nat :=
  let base := s.rd F.NOC_TRACE_BASE_DA q
  let wp := s.rd F.NOC_TRACE_WP_DA q
  if base ≤ wp ∧ wp < base + s.rd F.NOC_TRACE_LEN_PAGES q * 4096 then wp else base

/-- Records written to the ring of a quarter, one after the other. -/
def ringWrite (q : Nat) : State → List (List Nat) → State
  | s, [] => s
  | s, r :: rest =>
    let base := s.rd F.NOC_TRACE_BASE_DA q
    let size := s.rd F.NOC_TRACE_LEN_PAGES q * 4096
    let at0 := ringPlace s q
    let s := (memWrite s at0 (r.flatMap (fun w => bytesLE 8 w)) Around.quiet).1
    let nxt := at0 + 32
    let s := if nxt < base + size then s.wr F.NOC_TRACE_WP_DA q nxt else (s.wr F.NOC_TRACE_WP_DA q base).wr F.NOC_STATUS_TRACE_WRAP q 1
    ringWrite q s rest

/-- Probes that have lost a record mark their next one with GAP (R304, R312). -/
def markGaps (s : State) (ns : List Nat) : State := s.setNoc { s.noc with gap := ns.foldl (fun t n => Tab.set false t n true) s.noc.gap }

/-- A trace packet of up to four records, from a quarter's trace unit to the controller of its ring. -/
def tracePkt (s : State) (q : Nat) (l : List (Nat × List Nat)) (linkErr : List Nat) : Packet :=
  { cls := 4, op := 1, flits := 1, src := q * 4096 + 0x880, dst := unitOfDA s (ringPlace s q), da := 0, len := l.length, fe := 0, key := 0, sched := false,
    panic := false, txn := 0, issue := 0, width := 0, status := 0, data := l.flatMap (fun r => r.2.flatMap (fun w => bytesLE 8 w)), linkErr := linkErr,
    waits := [], ecc := [], panicQueued := false, probes := (l.map (fun r => r.1)).filter (fun n => decide (n < 272)) }

/-- A trace packet at its ring; without a ring its records are lost. -/
def traceArrives (s : State) (p : Packet) : State :=
  let q := dieOf p.src
  if !(s.on F.NOC_CTRL_TRACE_EN q) || decide (s.rd F.NOC_TRACE_LEN_PAGES q = 0) then markGaps s p.probes
  else ringWrite q s ((List.range p.len).map (fun i => (List.range 4).map (fun k => ofBytesLE ((p.data.drop (32 * i + 8 * k)).take 8))))

/-- The age of a trace packet, by the timestamp of its first record, exceeds TRACE_AGE. -/
def traceOld (s : State) (q : Nat) (stamp : Nat) : Bool := decide (s.rd F.NOC_CTRL_TRACE_AGE q < (s.trk.ts + 2 ^ 48 - stamp % 2 ^ 48) % 2 ^ 48)

/-- The timestamp of a record: word 3 of a probe's, that of an epoch record's words is of no use and counts as the present. -/
def stampOf (s : State) (r : Nat × List Nat) : Nat := if r.1 < 272 then r.2.getD 3 0 else s.trk.ts

/-- TRACE_PACKET_DISCARD (R304): a trace packet that waits for too long in the network, or that the unit gathers, is discarded. -/
def traceDiscard (s : State) (q : Nat) : State :=
  let count := fun (s : State) (ns : List Nat) => ((markGaps s ns).bump C.NOC_TRACE_DROP_CNT q 1).wr F.NOC_STATUS_TRACE_DROP q 1
  let mine := fun (p : Packet) => decide (p.cls = 4 ∧ p.src = q * 4096 + 0x880) && traceOld s q (ofBytesLE ((p.data.drop 24).take 8))
  match s.noc.heldPkts.find? (fun h => mine h.2), s.noc.stalled.find? (fun x => mine x.pkt) with
  | some h, _ => count (s.setNoc { s.noc with heldPkts := s.noc.heldPkts.erase h }) h.2.probes
  | none, some x => count (s.setNoc { s.noc with stalled := s.noc.stalled.erase x }) x.pkt.probes
  | none, none =>
    match Tab.get [] s.noc.recs q with
    | [] => s
    | r :: l =>
      if !(traceOld s q (stampOf s r)) then s
      else
        let p := (((r :: l).take 4).map (fun r => r.1)).filter (fun n => decide (n < 272))
        count (s.setNoc { s.noc with recs := Tab.set [] s.noc.recs q ((r :: l).drop 4) }) p

/-! ### Probe registers (R311, R313) -/

/-- The quarter whose status takes a refused probe write; the hub's probes have none. -/
def probeRefuse (s : State) (n : Nat) : State := if n < 256 then s.wr F.NOC_STATUS_PRB_REFUSED (n / 64) 1 else s

/-- A write of NOC_PRB_CTRL: while EN is 1 only EN is taken, and a change of another field is refused; EN written 1 clears
the count. -/
def probeCtrlWrite (s : State) (n v : Nat) : State :=
  let fs := [F.NOC_PRB_CTRL_ROUTER, F.NOC_PRB_CTRL_PORT, F.NOC_PRB_CTRL_DIR, F.NOC_PRB_CTRL_PLANES, F.NOC_PRB_CTRL_MODE, F.NOC_PRB_CTRL_TRACE,
    F.NOC_PRB_CTRL_SAMPLE]
  let s := if s.on F.NOC_PRB_CTRL_EN n then
      (if fs.any (fun f => decide (f.clamp (bits v f.lo f.width) ≠ s.rd f n)) then probeRefuse s n else s)
    else fs.foldl (fun s f => s.wrClamped f n (bits v f.lo f.width)) s
  let s := s.wr F.NOC_PRB_CTRL_EN n (bit v 0)
  if bit v 0 = 1 then s.wr F.NOC_PRB_CNT_COUNT n 0 else s

end Sys2Proof.Machine
end

