-- ==== Sys2Proof/Machine/Fabric.lean ====
section
/-!
DEFINITION. Programmable logic (chapter 13): product terms, macrocells and carries as a design sees them, fabric RAM,
PLLs, mark units, fabric ports and I/O banks.
-/
namespace Sys2Proof.Machine

def State.setFab (s : State) (f : Fabric) : State := { s with fab := f }

/-! ### Product-term blocks (R316-R322) -/

/-- A product term: which inputs it takes true and which complemented; a term that takes none is 1 (R316). -/
structure PTerm where
  pos : List Nat
  neg : List Nat
  deriving DecidableEq, Repr

/-- The value of a product term for the block's inputs. -/
def PTerm.value (t : PTerm) (ins : Nat → Bool) : Bool := t.pos.all ins && t.neg.all (fun i => !(ins i))

/-- A macrocell's configuration (R317-R319): the groups steered to it, XOR_EN and ARITH. -/
structure MCell where
  groups : List Nat
  xorEn : Bool
  arith : Bool
  deriving DecidableEq, Repr

/-- Steering is legal (R317): at most four groups of macrocells m - 3 to m + 3 at each macrocell, each group at one. -/
def steeringOK (cells : List MCell) : Bool :=
  (List.range cells.length).all (fun m => match cells[m]? with
    | some c => decide (c.groups.length ≤ 4) && c.groups.all (fun g => decide (g ≤ m + 3 ∧ m ≤ g + 3 ∧ g < 16))
    | none => true) &&
  decide ((cells.flatMap (fun c => c.groups)).eraseDups.length = (cells.flatMap (fun c => c.groups)).length)

/-- The terms of group `g` that enter an OR gate: P6g leaves it for the XOR term, P6g+1 and P6g+2 for the carry (R318). -/
def groupTerms (cells : List MCell) (g : Nat) : List Nat :=
  let c := cells.getD g ⟨[], false, false⟩
  (List.range 6).filterMap (fun k => if (k = 0 ∧ c.xorEn) ∨ ((k = 1 ∨ k = 2) ∧ c.arith) then none else some (6 * g + k))

/-- Carries into macrocells 0 to 16 of a block (R321): the carry out is G or (P and carry in), and 0 without
ARITH. -/
def blockCarries (terms : Nat → Bool) (cells : List MCell) (cin : Bool) : Nat → Bool
  | 0 => cin
  | m + 1 => (cells.getD m ⟨[], false, false⟩).arith && (terms (6 * m + 1) || (terms (6 * m + 2) && blockCarries terms cells cin m))

/-- The logic value of macrocell `m` (R317, R318): OR, xor the XOR term, xor the carry. -/
def logicValue (terms : Nat → Bool) (cells : List MCell) (cin : Bool) (m : Nat) : Bool :=
  let c := cells.getD m ⟨[], false, false⟩
  let v := (c.groups.flatMap (groupTerms cells)).any terms
  let v := if c.xorEn then Bool.xor v (terms (6 * m)) else v
  if c.arith then Bool.xor v (blockCarries terms cells cin m) else v

/-- The modes of a macrocell register (R319), and what an active clock edge makes of it. -/
inductive CellMode where
  | d | t | latch | comb
  deriving DecidableEq, Repr

/-- The register after an active edge (for a latch: while the clock is at its active level); asynchronous reset wins over
set, and both override clock and enable (R319, R320). -/
def cellNext (m : CellMode) (reg logic enable aset areset : Bool) : Bool :=
  if areset then false
  else if aset then true
  else if !enable then reg
  else match m with
    | .d => logic
    | .t => Bool.xor reg logic
    | .latch => logic
    | .comb => logic

/-- The key of a frame address (R360): DIE in [2:0], CTYPE in [5:3], COL in [13:6], MINOR in [26:14]. -/
def frameKey (die ctype col minor : Nat) : Nat := die + ctype * 2 ^ 3 + col * 2 ^ 6 + minor * 2 ^ 14
def zeroFrame : List Byte := List.replicate 256 0#8
def State.frame (s : State) (f : Nat) : List Byte := Tab.get zeroFrame s.conf.frames f

/-! A block is numbered quarter x 49152 + column x 512 + row over the device. -/

/-- The four frames of a product-term block (R360). -/
def blockFrame (b k : Nat) : Nat := frameKey (b / 49152) 0 (b % 49152 / 512) (4 * (b % 512) + k)
def blockFrames (s : State) (b : Nat) : List Byte := (List.range 4).flatMap (fun k => s.frame (blockFrame b k))

/-- Blocks 2i and 2i + 1 of a column form one pair, so a block joins with one partner at most (R322). -/
def partnerOf (b : Nat) : Nat := if b % 2 = 0 then b + 1 else b - 1
/-- A pair is joined when the frames of its even block say so. -/
def joined (s : State) (b : Nat) : Bool := decide (Config.blockItem (blockFrames s (b - b % 2)) 0 = 1)

/-- A product term (0-95) or control term (96-103) as configured (R316): of inputs 0-39, and in a joined pair of its partner's as 40-79. -/
def termCfg (fr : List Byte) (pair : Bool) (t : Nat) : PTerm :=
  let lits := fun (o : Nat) => (List.range 40).filter (fun i => Config.literal fr t (o + i)) ++
    (if pair then ((List.range 40).filter (fun i => Config.literal fr t (80 + o + i))).map (fun i => 40 + i) else [])
  ⟨lits 0, lits 40⟩

/-- The values of a block's terms for the inputs of all blocks. -/
def blockTerms (s : State) (ins : Nat → Nat → Bool) (b : Nat) : Nat → Bool := fun t =>
  (termCfg (blockFrames s b) (joined s b) t).value (fun i => if i < 40 then ins b i else ins (partnerOf b) (i - 40))

/-- A block's macrocells as configured (R317, R318). -/
def cellsOf (fr : List Byte) : List MCell :=
  (List.range 16).map (fun m => ⟨(List.range 16).filter (fun g => Config.steered fr g m), decide (Config.cellItem fr m 0 = 1), decide (Config.cellItem fr m 1 = 1)⟩)

/-- CIN_SEL (R321): 0, 1 or CT7. -/
def cinSel (s : State) (ins : Nat → Nat → Bool) (b : Nat) : Bool :=
  match Config.blockItem (blockFrames s b) 1 with
  | 0 => false
  | 1 => true
  | _ => blockTerms s ins b 103

/-- The carry into M0 of the block at a row of the column that begins at block `c` (R321): the carry out of the block in the row before, when
M0 has ARITH, else CIN_SEL. -/
def carryInto (s : State) (ins : Nat → Nat → Bool) (c : Nat) : Nat → Bool
  | 0 => cinSel s ins c
  | r + 1 =>
    if ((cellsOf (blockFrames s (c + r + 1))).getD 0 ⟨[], false, false⟩).arith then
      blockCarries (blockTerms s ins (c + r)) (cellsOf (blockFrames s (c + r))) (carryInto s ins c r) 16
    else cinSel s ins (c + r + 1)

/-- The logic value of macrocell `m` of block `b` under the configuration held (R316-R318, R321, R322). -/
def blockLogic (s : State) (ins : Nat → Nat → Bool) (b m : Nat) : Bool :=
  logicValue (blockTerms s ins b) (cellsOf (blockFrames s b)) (carryInto s ins (b - b % 512) (b % 512)) m

/-- The INIT value of a macrocell, by block x 16 + macrocell (R320). -/
def macroInit (s : State) (k : Nat) : Bool := decide (Config.cellItem (blockFrames s (k / 16)) (k % 16) 8 = 1)

/-- A macrocell register by global block and macrocell. -/
def State.cell (s : State) (k : Nat) : Bool := Tab.get (macroInit s k) s.fab.cells k

/-- The mode of a macrocell register (R319). -/
def cellMode (n : Nat) : CellMode := match n with | 0 => .d | 1 => .t | 2 => .latch | _ => .comb

/-- What an active edge of its clock makes of macrocell `m` of block `b` (R319, R320), its control terms as configured. -/
def macroNext (s : State) (ins : Nat → Nat → Bool) (b m : Nat) : Bool :=
  let it := Config.cellItem (blockFrames s b) m
  let ct := fun (n : Nat) => blockTerms s ins b (96 + n)
  let sel := fun (none' : Bool) (k v : Nat) => match v with | 0 => none' | 1 => ct k | _ => ct (k + 1)
  cellNext (cellMode (it 2)) (s.cell (16 * b + m)) (blockLogic s ins b m) (sel true 1 (it 5)) (sel false 3 (it 6)) (sel false 5 (it 7))

/-- The output of a macrocell: its register, or its logic value in combinational mode (R319). -/
def macroOut (s : State) (ins : Nat → Nat → Bool) (b m : Nat) : Bool :=
  match cellMode (Config.cellItem (blockFrames s b) m 2) with
  | .comb => blockLogic s ins b m
  | _ => s.cell (16 * b + m)

/-- An edge of block clock `clk` (0-3 BCLK, 4 CT0) of a polarity at a block: all its macrocells on that clock and edge take their next value
at once. -/
def blockEdge (s : State) (ins : Nat → Nat → Bool) (b clk polarity : Nat) : State :=
  let on := (List.range 16).filter (fun m => decide (Config.cellItem (blockFrames s b) m 3 = clk ∧ Config.cellItem (blockFrames s b) m 4 = polarity))
  s.setFab { s.fab with cells := on.foldl (fun t m => Tab.set (macroInit s (16 * b + m)) t (16 * b + m) (macroNext s ins b m)) s.fab.cells }

/-- The region of a product-term block: 512 rows of 96 columns in a quarter, 64 rows to a region (R315). -/
def regionOfBlock (b : Nat) : Nat := b / 49152 * 8 + b % 512 / 64

/-- Every macrocell register of a region takes its INIT value (R320). -/
def initCells (s : State) (r : Nat) : State :=
  s.setFab { s.fab with cells := Tab.drop s.fab.cells (fun k => decide (regionOfBlock (k / 16) = r)) }

/-! ### Fabric RAM (R323-R325) -/

def State.ramWord (s : State) (b w : Nat) : BitVec 72 := Tab.get 0 s.fab.ram (b * 1024 + w)

/-- The word a port reads in a shape of 9 x 2^k bits (R323). -/
def ramRead (s : State) (b k a : Nat) : Nat := bits (s.ramWord b (a / 2 ^ (3 - k))).toNat (9 * 2 ^ k * (a % 2 ^ (3 - k))) (9 * 2 ^ k)

/-- A port writes a word in a shape, lane by lane under its mask (R323). -/
def ramWrite (s : State) (b k a v mask : Nat) : State :=
  let w := a / 2 ^ (3 - k)
  let base := 9 * 2 ^ k * (a % 2 ^ (3 - k))
  let old := (s.ramWord b w).toNat
  let new := (List.range (2 ^ k)).foldl (fun n l => if bit mask l = 1 then setBits n (base + 9 * l) 9 (bits v (9 * l) 9) else n) old
  s.setFab { s.fab with ram := Tab.set 0 s.fab.ram (b * 1024 + w) (BitVec.ofNat 72 new) }

/-- What a writing port's read output shows (R324): 0 read-first, 1 write-first, 2 no-change. -/
def ramShows (mode old new held : Nat) : Nat := match mode with | 0 => old | 1 => new | _ => held

/-- An access of one port: shape, address, whether it writes, its data and lane mask, the write mode, and what its read output held. -/
structure RamAccess where
  shape : Nat
  addr : Nat
  write : Bool
  data : Nat
  mask : Nat
  mode : Nat
  held : Nat
  deriving DecidableEq, Repr

/-- What the access stores, and what its read output shows when block RAM before it is `s`. -/
def RamAccess.store (x : RamAccess) (s : State) (b : Nat) : State := if x.write then ramWrite s b x.shape x.addr x.data x.mask else s
def RamAccess.shows (x : RamAccess) (s : State) (b : Nat) : Nat :=
  let old := ramRead s b x.shape x.addr
  if x.write then ramShows x.mode old (ramRead (x.store s b) b x.shape x.addr) x.held else old

/-- The 9-bit lanes of two values, each from `x` where its bit of `c` is 1 and else from `y`. -/
def mixLanes (c x y : Nat) : Nat := (List.range 8).foldl (fun n l => setBits n (9 * l) 9 (bits (if bit c l = 1 then x else y) (9 * l) 9)) 0

/-- Ports A and B in one cycle of one clock (R324): A's data stand where both write, and a read beside a write returns the old word. -/
def ramSame (s : State) (b : Nat) (pa pb : RamAccess) : State × Nat × Nat := (pa.store (pb.store s b) b, pa.shows s b, pb.shows s b)

/-- Ports A and B at edges of two clocks within 1.0 ns (R324): each lane that both write holds A's or B's data, and each lane of a read
beside a write returns the old or the new data; which, is free. -/
def ramApart (s : State) (b : Nat) (pa pb : RamAccess) : State × Nat × Nat :=
  let fw := s.fresh
  let fr := fw.2.fresh
  let ab := pb.store (pa.store s b) b
  let ba := pa.store (pb.store s b) b
  let mixed := fun (t : State) (x : RamAccess) =>
    let w := x.addr / 2 ^ (3 - x.shape)
    t.setFab { t.fab with ram := Tab.set 0 t.fab.ram (b * 1024 + w) (BitVec.ofNat 72 (mixLanes fw.1 (ab.ramWord b w).toNat (ba.ramWord b w).toNat)) }
  let seen := fun (x other : RamAccess) => if x.write then x.shows s b else mixLanes fr.1 (x.shows (other.store s b) b) (x.shows s b)
  (mixed (mixed fr.2 pa) pb, seen pa pb, seen pb pa)

/-- RAM_READ: a read with ECC in the 1,024 x 72 shape (R325): 0 clean, 1 corrected, 2 uncorrectable. The design receives
the 64 data bits: correct ones, or those stored. -/
def ramEccRead (s : State) (b a outcome flip : Nat) : State :=
  let q := b / 1024
  let v := (s.ramWord b a).toNat % 2 ^ 64
  match outcome with
  | 0 => s.emit (.data v)
  | 1 => ((s.bump C.FAB_RAM_CE_CNT q 1).wr F.FAB_STATUS_RAM_CE q 1).emit (.data v)
  | _ =>
    let s := ((s.bump C.FAB_RAM_UE_CNT q 1).wr F.FAB_STATUS_RAM_UE q 1).emit (.data (v.xor (flip % 2 ^ 64)))
    if s.on F.FAB_CTRL_UE_EVT_EN q then s.signalMC F.FAB_STATUS_RAM_UE q else s

/-! ### PLLs (R327) -/

/-- The least M - 1 that keeps the base at 800 MHz or less: 1,750 N / M ≤ 800. -/
def pllMinM (nM1 : Nat) : Nat := ceilDiv (1750 * (nM1 + 1)) 800 - 1

/-- A write of FAB_PLL_CTRL: the other fields are taken only while EN is 0. -/
def pllWrite (s : State) (p v : Nat) : State :=
  let s := if s.on F.FAB_PLL_CTRL_EN p then s
    else ((s.wr F.FAB_PLL_CTRL_N_M1 p (bits v 1 4)).wr F.FAB_PLL_CTRL_M_M1 p (Nat.max (bits v 5 6) (pllMinM (bits v 1 4)))).wr F.FAB_PLL_CTRL_DIV p (bits v 16 8)
  let s := s.wr F.FAB_PLL_CTRL_EN p (bit v 0)
  if bit v 0 = 0 then s.wr F.FAB_PLL_STAT_LOCK p 0 else s

/-- ALIGNED (R327): locked, and the device in assured mode. -/
def pllAligned (s : State) (p : Nat) : Bool := s.on F.FAB_PLL_STAT_LOCK p && decide (s.rd F.SES_CLOCK_MODE 0 = 0)

def pllLock (s : State) (p : Nat) : State := if s.on F.FAB_PLL_CTRL_EN p then s.wr F.FAB_PLL_STAT_LOCK p 1 else s
def pllLockLoss (s : State) (p : Nat) : State :=
  if s.on F.FAB_PLL_STAT_LOCK p then (s.wr F.FAB_PLL_STAT_LOCK p 0).wr F.FAB_PLL_STAT_LOCK_LOST p 1 else s

/-! ### Mark units (R328, R329) -/

/-- A firing reaches the slices of the quarter that name the unit (R353). -/
def markSlices (s : State) (u : Nat) : State :=
  let q := u / 16
  (List.range 384).foldl (fun s i =>
    let n := q * 384 + i
    if s.rd F.SPS_CTRL_MSEL n = u % 16 then
      let x := Tab.get Slice.zero s.fab.slices n
      s.setFab { s.fab with slices := Tab.set Slice.zero s.fab.slices n { x with firings := x.firings + 1 } }
    else s) s

/-- MARK_FIRE: the cluster position is at or beyond the unit's position; the unit fires once and advances by STEP. -/
def markFire (s : State) (u : Nat) : State :=
  let t := s.rd F.FAB_MARK_CFG_TRK u
  let p := posOf (s.rd F.FAB_MARK_LAP_LAP u) (s.rd F.FAB_MARK_CFG_ANGLE u)
  let now := s.position t
  let st := s.rd F.FAB_MARK_STEP_STEP u
  if !(s.on F.FAB_MARK_CFG_EN u) || decide (now < p) || s.quarterDown (u / 16) then s
  else
    let s := markSlices ((s.wr F.FAB_MARK_STAT_FIRED u 1).emit (.mark u)) u
    if st = 0 then (s.wr F.FAB_MARK_CFG_EN u 0).wr F.FAB_MARK_STAT_SKIP u 0
    else
      let k := (now - p) / st
      let p' := p + (k + 1) * st
      let s := ((s.wr F.FAB_MARK_LAP_LAP u (p' / 2 ^ 32)).wr F.FAB_MARK_CFG_ANGLE u (p' % 2 ^ 32)).wr F.FAB_MARK_STAT_SKIP u (Nat.min k 255)
      if 0 < k then (s.bump C.FAB_MARK_SKIP_CNT (u / 16) k).wr F.FAB_STATUS_MARK_SKIP (u / 16) 1 else s

/-- Writes of FAB_MARK_CFG, FAB_MARK_LAP and FAB_MARK_STEP: while EN is 1 only EN is taken (R329). -/
def markCfgWrite (s : State) (u v : Nat) : State :=
  let s := if s.on F.FAB_MARK_CFG_EN u then s
    else ((s.wr F.FAB_MARK_CFG_TRK u (bits v 1 3)).wrClamped F.FAB_MARK_CFG_CLK u (bits v 4 5)).wr F.FAB_MARK_CFG_ANGLE u (bits v 32 32)
  s.wr F.FAB_MARK_CFG_EN u (bit v 0)

/-! ### Fabric ports (R331-R335) -/

/-- A scheduled session holds a cluster of quarter `q`. -/
def quarterSched (s : State) (q : Nat) : Bool := (List.range 8).any (fun c => clusterSched s (q * 8 + c))

/-- A real-time port (R282). -/
def realTimePort (s : State) (n : Nat) : Bool := decide (bit (s.rd F.HBM_RT_PORTS_PORTS (n / 32)) (n % 32) = 1) && quarterSched s (n / 32)

/-- The window check (R332): every byte lies in the window, and another node only with REMOTE_EN. -/
def windowOK (s : State) (n ga len : Nat) : Bool :=
  decide (s.rd F.FAB_PORT_WIN_LO_DA n ≤ gaDA ga ∧ gaDA ga + len ≤ s.rd F.FAB_PORT_WIN_HI_DA n + 1) && (gaLocal s ga || s.on F.FAB_PORT_CTRL_REMOTE_EN n)

/-- The lowest transaction slot that a port has free for reads or writes. -/
def freeTxn (s : State) (n : Nat) (write : Bool) : Option Nat :=
  (List.range 8).find? (fun t => (findOpen s (unitOfFport n) t write false).isNone)

/-- Lines of 128 bytes that a port's read buffer holds. -/
def portLines (s : State) (n : Nat) : Nat := ((s.noc.opened.filter (fun o => decide (o.src = unitOfFport n ∧ o.write = false))).map (fun o => o.got.length)).sum

/-- FABRIC_PORT_REQUEST: 0 READ of `words` words, 1 WRITE of the data, 2 ARRIVE, 3 BATON. A failed check completes to user
logic with an error response; a request that passes leaves as its packet. ARRIVE and BATON name a unit and address no byte (R300), so the
window lets them pass. -/
def portRequest (s : State) (n kind dst ga words fe : Nat) (data : List Byte) : State :=
  let u := unitOfFport n
  let len := match kind with | 0 => 8 * words | 1 => data.length | _ => 0
  if fportDown s n || !(s.on F.FAB_PORT_CTRL_EN n) || s.on F.FAB_PORT_CTRL_ISOLATE n then s
  else if kind < 2 && (!(windowOK s n ga len) || decide (2 ≤ gaFlags ga) || (kind = 0 && !(gaLocal s ga))) then
    ((s.wr F.FAB_PORT_STAT_WIN_ERR n 1).wr F.FAB_STATUS_PORT_ERR (n / 32) 1).bump C.FAB_PORT_ERR_CNT (n / 32) 1 |>.emit (.response u 0 none)
  else
    let far := regionOf (gaDA ga)
    let rt := realTimePort s n && (kind ≠ 1 || gaLocal s ga) && (match far with | .hbm => true | .cxl _ => true | _ => false)
    let panic := rt && decide (portLines s n < s.rd F.HBM_RT_PORTS_LOW (n / 32))
    let pkt := fun (cls op txn : Nat) (bs : List Byte) => (⟨cls, op, 1, u, dst, if kind < 2 then gaDA ga else 0, if kind = 1 then bs.length / 8 else words, fe,
      if rt then 0 else 0xFFFF, rt, panic, txn, s.trk.ts % 1024, 0, 0, bs, [], [], [], false, []⟩ : Packet)
    match kind with
    | 0 => if 64 < words then s else match freeTxn s n false with
      | none => s
      | some t => showPort ((openReq s (pkt 0 1 t []) false).emit (.packet (pkt 0 1 t []))) n
    | 1 =>
      if 128 < gaDA ga % 128 + data.length then s
      else if !(gaLocal s ga) then
        -- a cell of a fabric port: a scheduled source when its bit is set under R282 (R333), named by the port's number and its TXN
        match freeTxn s n true with
        | none => s
        | some t =>
          let p := cellPkt s u ⟨0, 1, 0, gaNode ga, 0, s.node, n, t, 0, data.length / 8 - 1, fe, true, gaDA ga, 0, realTimePort s n, data⟩
          (showPort ((openReq s { p with op := 2, txn := t } false).emit (.packet p)) n).bump C.FAB_WR_BYTES_CNT (n / 32) data.length
      else match freeTxn s n true with
      | none => s
      | some t => (showPort ((openReq s (pkt 0 2 t data) false).emit (.packet (pkt 0 2 t data))) n).bump C.FAB_WR_BYTES_CNT (n / 32) data.length
    | 2 => s.emit (.packet (pkt 2 2 0 data))
    | _ => s.emit (.packet (pkt 2 1 0 data))

/-- A target access whose request is open at its source (R334): delivered to user logic, which answers once, or an error response. -/
def targetDeliver (s : State) (p : Packet) : State :=
  match fportOfUnit p.dst with
  | none => completeError s p.src p.txn (decide (p.op = 2)) true
  | some n =>
    if s.on F.FAB_PORT_CTRL_TGT_EN n && !(s.on F.FAB_PORT_CTRL_ISOLATE n) && !(fportDown s n) then s.emit (.packet p)
    else (mapOpen s p.src p.txn (decide (p.op = 2)) true (fun _ => none)).emit (.response p.src p.txn none)

/-- TARGET_ACCESS: an access reaches its port. -/
def targetAccess (s : State) (p : Packet) : State :=
  if (fportOfUnit p.dst).isNone then s.emit .error else targetDeliver (openReq s p true) p

/-- ISOLATE (R335). -/
def isolatePort (s : State) (n : Nat) : State := showPort (s.wr F.FAB_PORT_CTRL_ISOLATE n 1) n

/-! ### I/O banks (R336-R338) -/

/-- The standards of a pin (R337), in the order of its table. -/
inductive IoStd where
  | lvcmos12 | lvcmos15 | lvcmos18 | lvcmos25 | lvcmos33
  | sstl12 | sstl135 | sstl15 | sstl18
  | hstl12 | hstl15 | hstl18
  | lvds | slvs400
  deriving DecidableEq, Repr

/-- The standard of a pin's frame by its code: 0 none, then the table's order. -/
def ioStd (n : Nat) : Option IoStd :=
  ([none, some .lvcmos12, some .lvcmos15, some .lvcmos18, some .lvcmos25, some .lvcmos33, some .sstl12, some .sstl135, some .sstl15, some .sstl18,
    some .hstl12, some .hstl15, some .hstl18, some .lvds, some .slvs400] : List (Option IoStd)).getD n none

/-- The standard may stand in a bank at a VCCIO in mV (R337): `wide` a wide-range bank, `out` a pin that drives an output. -/
def IoStd.allowed (x : IoStd) (wide : Bool) (mv : Nat) (out : Bool) : Bool :=
  let at' := fun (v : Nat) => decide (mv = v)
  let inOnly := decide (mv = 1000) && !wide && !out
  match x with
  | .lvcmos12 => at' 1200
  | .lvcmos15 => at' 1500
  | .lvcmos18 => at' 1800
  | .lvcmos25 => at' 2500 && wide
  | .lvcmos33 => at' 3300 && wide
  | .sstl12 => at' 1200 || inOnly
  | .sstl135 => at' 1350 || inOnly
  | .sstl15 => at' 1500 || inOnly
  | .sstl18 => at' 1800 || inOnly
  | .hstl12 => at' 1200 || inOnly
  | .hstl15 => at' 1500 || inOnly
  | .hstl18 => at' 1800 || inOnly
  | .lvds => wide && (at' 2500 || !out)
  | .slvs400 => wide && (at' 1200 || at' 1500 || at' 1800)

/-- VCCIO values of the bank types in mV (R336). -/
def bankMV (wide : Bool) : List Nat := if wide then [1200, 1350, 1500, 1800, 2500, 3300] else [1000, 1200, 1350, 1500, 1800]

/-- The declared VCCIO in mV (R339). -/
def vccioMV : Nat → Nat
  | 1 => 1000 | 2 => 1200 | 3 => 1350 | 4 => 1500 | 5 => 1800 | 6 => 2500 | 7 => 3300 | _ => 0

/-- A measured value lies within 5 % of the declared one. -/
def vccioNear (declared mv : Nat) : Bool := decide (declared * 95 ≤ mv * 100 ∧ mv * 100 ≤ declared * 105)

/-- A bank's measured voltage, as the fabric and the Pacer show it (monitor of device bank i, R439). -/
def setBankMV (s : State) (b mv : Nat) : State := (s.wr F.FAB_BANK_STAT_MV b mv).wr F.PAC_VMON_MV b mv

def vccioFault (s : State) (b mv : Nat) : State :=
  let s := setBankMV s b mv
  let d := vccioMV (s.rd F.FAB_BANK_CFG_VCCIO b)
  if d = 0 ∨ vccioNear d mv ∨ s.on F.FAB_BANK_STAT_HELD b then s
  else ((s.wr F.FAB_BANK_STAT_HELD b 1).bump C.FAB_VCCIO_FAULT_CNT (b / 5) 1).flagMC F.FAB_STATUS_VCCIO_BAD (b / 5)

def vccioResume (s : State) (b mv : Nat) : State :=
  let s := setBankMV s b mv
  if vccioNear (vccioMV (s.rd F.FAB_BANK_CFG_VCCIO b)) mv then s.wr F.FAB_BANK_STAT_HELD b 0 else s

/-- The frame of a pin is one that R336 forbids: its standard has no place in its bank, or not at the VCCIO that the bank declares. -/
def pinForbidden (s : State) (die bank : Nat) (data : List Byte) : Bool :=
  let wide := decide (3 ≤ bank)
  let out := decide (Config.pinItem data 1 = 1)
  match ioStd (Config.pinItem data 0), vccioMV (s.rd F.FAB_BANK_CFG_VCCIO (5 * die + bank)) with
  | none, _ => false
  | some x, 0 => !((bankMV wide).any (fun mv => x.allowed wide mv out))
  | some x, mv => !(x.allowed wide mv out)

/-! ### The meanings -/

def execRamRead (b : Fin 4096) (a : Fin 1024) (outcome : Fin 3) (flip : Word) (s : State) : Host.Outcome State Fault Refusal :=
  .next (ramEccRead s b a outcome flip.toNat)
def execPllLock (p : Fin 16) (s : State) : Host.Outcome State Fault Refusal := .next (pllLock s p)
def execPllLockLoss (p : Fin 16) (s : State) : Host.Outcome State Fault Refusal := .next (pllLockLoss s p)
def execMarkFire (u : Fin 64) (s : State) : Host.Outcome State Fault Refusal := .next (markFire s u)
/-- The destination unit, global address, words and full/empty mode of the request, and the data it writes. -/
def execFabricPortRequest (n : Fin 128) (kind : Fin 4) (dst ga words fe : Nat) (data : List Byte) (s : State) : Host.Outcome State Fault Refusal :=
  .next (portRequest s n kind dst ga words fe data)
def execTargetAccess (p : Packet) (s : State) : Host.Outcome State Fault Refusal := .next (targetAccess s p)
def execIsolate (n : Fin 128) (s : State) : Host.Outcome State Fault Refusal := .next (isolatePort s n)
def execPortIsolated (n : Fin 128) (s : State) : Host.Outcome State Fault Refusal := .next (showPort s n)
def execVccioFault (b : Fin 20) (mv : Fin 4096) (s : State) : Host.Outcome State Fault Refusal := .next (vccioFault s b mv)
def execVccioResume (b : Fin 20) (mv : Fin 4096) (s : State) : Host.Outcome State Fault Refusal := .next (vccioResume s b mv)

end Sys2Proof.Machine
end

