-- ==== Sys2Proof/Machine/Slices.lean ====
section
/-!
DEFINITION. Signal-processing slices (chapter 14): their registers, walkers and memories, the legality of a word, and the
one operation by which every slice instruction executes. A slice is numbered 384 x quarter + s.
-/
namespace Sys2Proof.Machine

def slIDLE : Nat := 0
def slRUN : Nat := 1
def slWAIT : Nat := 2
def slHALTED : Nat := 3
def slFAULT : Nat := 4

def State.slice (s : State) (n : Nat) : Slice := Tab.get Slice.zero s.fab.slices n
def State.setSlice (s : State) (n : Nat) (x : Slice) : State := s.setFab { s.fab with slices := Tab.set Slice.zero s.fab.slices n x }
def sliceState (s : State) (n : Nat) : Nat := s.rd F.SPS_STATUS_STATE n
def sliceWord (s : State) (n a : Nat) : Nat := (Tab.get 0 s.fab.imem (n * 4096 + a % 4096)).toNat
def dmWord (s : State) (n m a : Nat) : SWord := Tab.get 0 s.fab.dm ((n * 2 + m) * 2048 + a % 2048)
def setDm (s : State) (n m a : Nat) (v : SWord) : State := s.setFab { s.fab with dm := Tab.set 0 s.fab.dm ((n * 2 + m) * 2048 + a % 2048) v }

/-- The clock region of a slice, numbered over the device (R340). -/
def regionOfSlice (n : Nat) : Nat := n / 384 * 8 + n % 48 / 6
def sliceDown (s : State) (n : Nat) : Bool := s.inReset 4 (regionOfSlice n) || s.quarterDown (n / 384)

/-! ### Walkers (R346) -/

def Slice.w (x : Slice) (i : Nat) : Walker := Tab.get Walker.zero x.walk i
def Slice.setW (x : Slice) (i : Nat) (w : Walker) : Slice := { x with walk := Tab.set Walker.zero x.walk i w }
def Walker.addr (w : Walker) : Nat := (w.base + w.pos) % 2048
/-- POS moved by a number of words round the ring of LEN. -/
def Walker.moved (w : Walker) (by' : Int) : Walker := { w with pos := (((w.pos : Int) + by') % ((w.lenM1 + 1 : Nat) : Int)).toNat }

/-! ### Fields and legality of a word (R347, R349, R350) -/

def sOp (w : Nat) : Nat := bits w 26 6
def sAcc (w : Nat) : Nat := bits w 24 2
def sA (w : Nat) : Nat := bits w 19 5
def sB (w : Nat) : Nat := bits w 14 5
def sStEn (w : Nat) : Bool := decide (bit w 13 = 1)
def sStW (w : Nat) : Nat := bits w 11 2
def sStStep (w : Nat) : Nat := bits w 9 2
def sStD (w : Nat) : Nat := bits w 6 3

/-- Operand codes that an operation reads as 24-bit values. -/
def sReads (w : Nat) : List Nat :=
  match sOp w with
  | 0x01 => [sA w, sB w] | 0x02 => [sA w, sB w] | 0x03 => [sA w, sB w] | 0x0B => [sA w]
  | _ => []

def sArith (w : Nat) : Bool := decide (sOp w ≤ 0x0C)
def sControl (w : Nat) : Bool := decide (0x20 ≤ sOp w ∧ sOp w ≤ 0x28)
def sInOut (w : Nat) : Bool := decide (sOp w = 0x10 ∨ sOp w = 0x11)

/-- The data memories that a word's operands and store access, once per access. -/
def sMems (x : Slice) (w : Nat) : List Nat :=
  ((sReads w).filterMap (fun c => if 0x08 ≤ c ∧ c ≤ 0x13 then some (x.w (c % 4)).mem else none)) ++
  (if sArith w && sStEn w then [(x.w (sStW w)).mem] else [])

/-- A word may execute (R347, R349, R350); the word of a repeat is an arithmetic operation, in or out. -/
def sLegal (x : Slice) (pc w : Nat) : Bool :=
  let mems := sMems x w
  (sArith w || sInOut w || sControl w) &&
  (sReads w).all (fun c => decide (c ≤ 0x13)) &&
  (match sOp w with
   | 0x05 => decide (0x14 ≤ sB w ∧ sB w ≤ 0x17) | 0x06 => decide (0x14 ≤ sB w ∧ sB w ≤ 0x17)
   | 0x0C => decide (sA w ≤ 0x07)
   | 0x21 => decide (x.loops.length < 4) && decide (pc ≤ bits w 0 12)
   | _ => true) &&
  !(sStEn w && !(sArith w) && decide (sOp w ≠ 0x21)) && !(sArith w && sStEn w && decide (sStStep w = 3)) &&
  decide (mems.eraseDups.length = mems.length) && (decide (x.rep = 0) || sArith w || sInOut w)

/-! ### Arithmetic (R342, R343) -/

def accVal (x : Slice) (i : Nat) : Int := (Tab.get 0 x.acc i).toInt
def dVal (x : Slice) (i : Nat) : SWord := Tab.get 0 x.d i
def setD (x : Slice) (i : Nat) (v : SWord) : Slice := { x with d := Tab.set 0 x.d i v }

/-- An accumulator takes an exact result, limited to its range (R342). -/
def putAcc (s : State) (n i : Nat) (v : Int) : State :=
  let x := s.slice n
  let put := fun (s : State) (v : Int) => s.setSlice n { x with acc := Tab.set 0 x.acc i (BitVec.ofInt 56 v) }
  if v < -(2 ^ 55 : Int) then put ((s.wr F.SPS_STATUS_OVF n 1).bump C.SPS_OVF_CNT n 1) (-(2 ^ 55 : Int))
  else if (2 ^ 55 : Int) ≤ v then put ((s.wr F.SPS_STATUS_OVF n 1).bump C.SPS_OVF_CNT n 1) (2 ^ 55 - 1)
  else put s v

/-- The move of an accumulator value to a D register under a scaling mode: the integer before saturation (R343). -/
def movrRound (scale : Nat) (i : Int) : Int :=
  match scale with
  | 0 => (i + 2 ^ 23) / 2 ^ 24
  | 1 => (2 * i + 2 ^ 23) / 2 ^ 24
  | 2 => (i + 2 ^ 24) / 2 ^ 25
  | _ => (i + 2 ^ 25) / 2 ^ 26

/-- movr (R343). -/
def movr (s : State) (n i d : Nat) : State :=
  let x := s.slice n
  let q := movrRound (s.rd F.SPS_STATUS_SCALE n) (accVal x i)
  let put := fun (s : State) (q : Int) => s.setSlice n (setD (s.slice n) d (BitVec.ofInt 24 q))
  if (2 ^ 23 : Int) ≤ q then put ((s.wr F.SPS_STATUS_LIMIT n 1).bump C.SPS_SAT_CNT n 1) (2 ^ 23 - 1)
  else if q < -(2 ^ 23 : Int) then put ((s.wr F.SPS_STATUS_LIMIT n 1).bump C.SPS_SAT_CNT n 1) (-(2 ^ 23 : Int))
  else put s q

/-- The 24-bit value that an operand code names (R347). -/
def operandVal (s : State) (n : Nat) (x : Slice) (c : Nat) : Int :=
  if c < 8 then (dVal x c).toInt else (dmWord s n (x.w (c % 4)).mem (x.w (c % 4)).addr).toInt

/-- A walker steps as an operand or store asks: 0 no step, 1 forward, 2 reverse. -/
def stepWalker (s : State) (n i how : Nat) : State :=
  let x := s.slice n
  let w := x.w i
  match how with
  | 1 => s.setSlice n (x.setW i (w.moved w.step))
  | 2 => s.setSlice n (x.setW i (w.moved (-w.step)))
  | _ => s

/-- Walker steps of an operand code. -/
def stepOperand (s : State) (n c : Nat) : State :=
  if 0x0C ≤ c ∧ c ≤ 0x0F then stepWalker s n (c % 4) 1 else if 0x10 ≤ c ∧ c ≤ 0x13 then stepWalker s n (c % 4) 2 else s

/-! ### Sequence (R349, R350, R352) -/

def slicePC (s : State) (n : Nat) : Nat := s.rd F.SPS_PC_PC n
def setSlicePC (s : State) (n a : Nat) : State := s.wr F.SPS_PC_PC n (a % 4096)

/-- The word after `pc`, and the loop stack there: the last word of a body leads back to its first while passes are left. -/
def sliceAfter (pc : Nat) : List LoopLvl → Nat × List LoopLvl
  | [] => (pc + 1, [])
  | l :: r => if pc = l.last then (if 1 < l.left then (l.first, { l with left := l.left - 1, index := l.index + 1 } :: r) else sliceAfter pc r) else (pc + 1, l :: r)

/-- STOP is taken at the instruction boundary. -/
def takeStop (s : State) (n : Nat) : State :=
  if s.on F.SPS_CTRL_STOP n && decide ((s.slice n).rep = 0) then
    let s := (s.wr F.SPS_CTRL_STOP n 0).wr F.SPS_STATUS_WAIT_ON n 0
    if sliceState s n = slRUN ∨ sliceState s n = slWAIT then s.wr F.SPS_STATUS_STATE n slIDLE else s
  else s

/-- A word completes: its cycles count, the repetition or loop goes on, and a STOP that waits is taken. -/
def sliceNext (s : State) (n cycles : Nat) : State :=
  let s := s.bump C.SPS_CYCLE_CNT n cycles
  let x := s.slice n
  let s := if 1 < x.rep then s.setSlice n { x with rep := x.rep - 1 }
    else
      let a := sliceAfter (slicePC s n) x.loops
      setSlicePC (s.setSlice n { x with rep := 0, loops := a.2 }) n a.1
  takeStop (s.wr F.SPS_STATUS_IN_REP n (b2n (decide (0 < (s.slice n).rep)))) n

/-- A control transfer: PC moves to its target. -/
def sliceJump (s : State) (n target : Nat) : State := takeStop (setSlicePC (s.bump C.SPS_CYCLE_CNT n 2) n target) n

/-- A word of the named operation executes in a slice in RUN: `f` has the state and the word. Otherwise nothing happens. -/
def sliceIssue (s : State) (n op : Nat) (f : State → Nat → State) : State :=
  let w := sliceWord s n (slicePC s n)
  if sliceState s n = slRUN ∧ !(sliceDown s n) ∧ sOp w = op ∧ sLegal (s.slice n) (slicePC s n) w then f s w else s

/-- An arithmetic word (R348): operands and the stored D register are read first; the result, the store and the steps
follow. `g` gives the result from the state and the values of A and B. -/
def sliceArith (s : State) (n w : Nat) (g : State → Int → Int → State) : State :=
  let x := s.slice n
  let a := operandVal s n x (sA w)
  let b := operandVal s n x (sB w)
  let st := dVal x (sStD w)
  let sw := x.w (sStW w)
  let s := g s a b
  let s := (sReads w).foldl (fun s c => stepOperand s n c) s
  let s := if sStEn w then stepWalker (setDm s n sw.mem sw.addr st) n (sStW w) (sStStep w) else s
  sliceNext s n 1

/-- The slice waits at its word for a cause (R351, R353). -/
def sliceWait (s : State) (n on' : Nat) : State := (s.wr F.SPS_STATUS_STATE n slWAIT).wr F.SPS_STATUS_WAIT_ON n on'
def sliceGo (s : State) (n : Nat) : State := (s.wr F.SPS_STATUS_STATE n slRUN).wr F.SPS_STATUS_WAIT_ON n 0

/-- in and out with a FIFO that serves them (R351); `none` when they wait. -/
def sliceFifo (s : State) (n w : Nat) : Option State :=
  let x := s.slice n
  let d := sA w % 8
  let k := bit (sB w) 0
  if sOp w = 0x10 then
    match (if k = 0 then x.in0 else x.in1) with
    | [] => none
    | v :: r => some (s.setSlice n (setD (if k = 0 then { x with in0 := r } else { x with in1 := r }) d v))
  else
    let l := if k = 0 then x.out0 else x.out1
    if 16 ≤ l.length then none
    else some (s.setSlice n (if k = 0 then { x with out0 := l ++ [dVal x d] } else { x with out1 := l ++ [dVal x d] }))

def sliceInOut (s : State) (n w : Nat) : State :=
  match sliceFifo s n w with
  | some t => sliceNext t n 1
  | none => sliceWait s n (if sOp w = 0x10 then 2 else 3)

/-- SLICE_FIFO_RESUME: a waiting in or out whose FIFO now serves it. -/
def sliceResume (s : State) (n : Nat) : State :=
  let w := sliceWord s n (slicePC s n)
  if sliceState s n = slWAIT ∧ (s.rd F.SPS_STATUS_WAIT_ON n = 2 ∨ s.rd F.SPS_STATUS_WAIT_ON n = 3) ∧ !(sliceDown s n) then
    match sliceFifo s n w with
    | some t => sliceNext (sliceGo t n) n 1
    | none => s
  else s

/-- waitm (R353). -/
def sliceWaitm (s : State) (n : Nat) : State :=
  if s.on F.SPS_STATUS_PEND n then sliceNext (s.wr F.SPS_STATUS_PEND n 0) n 1 else sliceWait s n 1

/-- PEND_SET (R353): a firing sets PEND, completes a waitm that waits, or is lost. -/
def pendSet (s : State) (n : Nat) : State :=
  let x := s.slice n
  if x.firings = 0 ∨ sliceDown s n then s
  else
    let s := s.setSlice n { x with firings := x.firings - 1 }
    if sliceState s n = slWAIT ∧ s.rd F.SPS_STATUS_WAIT_ON n = 1 then sliceNext (sliceGo s n) n 1
    else if s.on F.SPS_STATUS_PEND n then (s.wr F.SPS_STATUS_MARK_OVR n 1).bump C.SPS_MARK_OVR_CNT n 1
    else s.wr F.SPS_STATUS_PEND n 1

/-- rep (R350). -/
def sliceRep (s : State) (n w : Nat) : State :=
  let s := sliceNext s n 1
  (s.setSlice n { s.slice n with rep := bits w 0 12 + 1 }).wr F.SPS_STATUS_IN_REP n 1

/-- loop (R349): the next word to the named one. -/
def sliceLoop (s : State) (n w : Nat) : State :=
  let x := s.slice n
  let pc := slicePC s n
  takeStop (setSlicePC ((s.bump C.SPS_CYCLE_CNT n 2).setSlice n { x with loops := ⟨pc + 1, bits w 0 12, bits w 12 12 + 1, 0⟩ :: x.loops }) n (pc + 1)) n

/-- br (R349); the spec names no condition for the codes 4 to 7, and whether they branch is free, one choice for each code and value (R25). -/
def sliceBr (s : State) (n w : Nat) : State :=
  let v := accVal (s.slice n) (sAcc w)
  let t := match bits w 21 3 with
    | 0 => decide (v = 0) | 1 => decide (v ≠ 0) | 2 => decide (v < 0) | 3 => decide (0 ≤ v) | c => Config.openBranch c v
  if t then sliceJump s n (bits w 0 12) else sliceNext s n 2

/-- wset (R346, R349). -/
def sliceWset (s : State) (n w : Nat) : State :=
  let x := s.slice n
  let k := x.w (sAcc w)
  let v := bits w 0 11
  let k := match bits w 22 2 with
    | 0 => { k with base := v }
    | 1 => { k with pos := v }
    | 2 => { k with lenM1 := v, pos := if k.pos ≤ v then k.pos else 0 }
    | _ => { k with step := sext 8 w, mem := bit w 8 }
  sliceNext (s.setSlice n (x.setW (sAcc w) k)) n 1

/-- wstep (R349). -/
def sliceWstep (s : State) (n w : Nat) : State :=
  let x := s.slice n
  sliceNext (s.setSlice n (x.setW (sAcc w) ((x.w (sAcc w)).moved (sext 8 w)))) n 1

/-- halt (R349): PC on the next word. -/
def sliceHalt (s : State) (n : Nat) : State := (sliceNext s n 1).wr F.SPS_STATUS_STATE n slHALTED

/-- SLICE_FAULT (R350, R352): an illegal word moves the slice to FAULT without executing. -/
def sliceFault (s : State) (n : Nat) : State :=
  if sliceState s n = slRUN ∧ !(sliceDown s n) ∧ !(sLegal (s.slice n) (slicePC s n) (sliceWord s n (slicePC s n))) then
    (s.wr F.SPS_STATUS_STATE n slFAULT).wr F.SPS_CTRL_STOP n 0
  else s

/-! ### Control (R351, R352) -/

def sliceStart (s : State) (n : Nat) : State :=
  if !(sliceDown s n) ∧ (sliceState s n = slIDLE ∨ sliceState s n = slHALTED) then s.wr F.SPS_STATUS_STATE n slRUN else s
def sliceStop (s : State) (n : Nat) : State := takeStop (s.wr F.SPS_CTRL_STOP n 1) n
def sliceClearFault (s : State) (n : Nat) : State := if sliceState s n = slFAULT then s.wr F.SPS_STATUS_STATE n slIDLE else s

/-- A reset of a slice (R352): its registers are zero, its FIFOs empty, IDLE; one with AUTOSTART then runs from PC 0. The
data memories stay. -/
def sliceReset (s : State) (n : Nat) : State :=
  let s := s.setSlice n Slice.zero
  let s := (((s.wr F.SPS_PC_PC n 0).wr F.SPS_STATUS_SCALE n 0).wr F.SPS_STATUS_PEND n 0).wr F.SPS_STATUS_IN_REP n 0
  let s := ((s.wr F.SPS_STATUS_WAIT_ON n 0).wr F.SPS_CTRL_STOP n 0).wr F.SPS_STATUS_STATE n slIDLE
  if Tab.get false s.fab.auto n then sliceStart s n else s

/-- Slices of a clock region (R340). -/
def slicesOf (r : Nat) : List Nat := (List.range 384).filterMap (fun i => let n := r / 8 * 384 + i; if regionOfSlice n = r then some n else none)

/-- What a reset of fabric region `r` does to its contents (R320, R352). -/
def clearRegion (s : State) (r : Nat) : State := (slicesOf r).foldl sliceReset (initCells s r)

/-! ### The memory port (R345) -/

/-- ADDR after an access: one more, modulo the memory's size, when INC is set. -/
def memPortNext (s : State) (n : Nat) : State :=
  if s.on F.SPS_MEM_ADDR_INC n then
    s.wr F.SPS_MEM_ADDR_ADDR n ((s.rd F.SPS_MEM_ADDR_ADDR n + 1) % (if s.rd F.SPS_MEM_ADDR_SPACE n = 0 then 4096 else 2048))
  else s

/-- A write of SPS_MEM_ADDR: the word number is clamped to the memory it names (R354). -/
def memAddrWrite (s : State) (n v : Nat) : State :=
  let sp := Nat.min (bits v 12 2) 2
  ((s.wr F.SPS_MEM_ADDR_SPACE n sp).wr F.SPS_MEM_ADDR_ADDR n (if sp = 0 then bits v 0 12 else Nat.min (bits v 0 12) 2047)).wr F.SPS_MEM_ADDR_INC n (bit v 16)

/-- The word that the port shows. -/
def memPortWord (s : State) (n : Nat) : Nat :=
  let a := s.rd F.SPS_MEM_ADDR_ADDR n
  match s.rd F.SPS_MEM_ADDR_SPACE n with
  | 0 => sliceWord s n a
  | k => (dmWord s n (k - 1) a).toNat

def memPortRead (s : State) (n : Nat) : State := (memPortNext s n).emit (.data (memPortWord s n))

def memPortWrite (s : State) (n v : Nat) : State :=
  match s.rd F.SPS_MEM_ADDR_SPACE n with
  | 0 => s.wr F.SPS_STATUS_IMEM_REFUSED n 1
  | k => memPortNext (setDm s n (k - 1) (s.rd F.SPS_MEM_ADDR_ADDR n) (BitVec.ofNat 24 v)) n

/-- FABRIC_FIFO_HANDSHAKE (R351): user logic pushes a word while there is room, or takes the head. -/
def fifoHandshake (s : State) (n : Nat) (output : Bool) (k : Nat) (v : SWord) : State :=
  let x := s.slice n
  if sliceDown s n then s
  else if output then
    match (if k = 0 then x.out0 else x.out1) with
    | [] => s
    | h :: r => (s.setSlice n (if k = 0 then { x with out0 := r } else { x with out1 := r })).emit (.data h.toNat)
  else
    let l := if k = 0 then x.in0 else x.in1
    if 16 ≤ l.length then s else s.setSlice n (if k = 0 then { x with in0 := l ++ [v] } else { x with in1 := l ++ [v] })

/-! ### The meanings -/

/-- An arithmetic operation of a slice whose result goes to its accumulator: `r` gives it from the accumulator and a, b. -/
def accOp (n op : Nat) (s : State) (r : Int → Int → Int → Int) : Host.Outcome State Fault Refusal :=
  .next (sliceIssue s n op (fun s w => sliceArith s n w (fun s a b => putAcc s n (sAcc w) (r (accVal (s.slice n) (sAcc w)) a b))))

def execSpsNop (n : Fin 1536) (s : State) : Host.Outcome State Fault Refusal := .next (sliceIssue s n 0x00 (fun s w => sliceArith s n w (fun s _ _ => s)))
def execMpy (n : Fin 1536) (s : State) : Host.Outcome State Fault Refusal := accOp n 0x01 s (fun _ a b => 2 * a * b)
def execMac (n : Fin 1536) (s : State) : Host.Outcome State Fault Refusal := accOp n 0x02 s (fun i a b => i + 2 * a * b)
def execMsu (n : Fin 1536) (s : State) : Host.Outcome State Fault Refusal := accOp n 0x03 s (fun i a b => i - 2 * a * b)
def execClr (n : Fin 1536) (s : State) : Host.Outcome State Fault Refusal := accOp n 0x04 s (fun _ _ _ => 0)
def execAdda (n : Fin 1536) (s : State) : Host.Outcome State Fault Refusal :=
  .next (sliceIssue s n 0x05 (fun s w => sliceArith s n w (fun s _ _ => putAcc s n (sAcc w) (accVal (s.slice n) (sAcc w) + accVal (s.slice n) (sB w % 4)))))
def execSuba (n : Fin 1536) (s : State) : Host.Outcome State Fault Refusal :=
  .next (sliceIssue s n 0x06 (fun s w => sliceArith s n w (fun s _ _ => putAcc s n (sAcc w) (accVal (s.slice n) (sAcc w) - accVal (s.slice n) (sB w % 4)))))
def execSpsAbs (n : Fin 1536) (s : State) : Host.Outcome State Fault Refusal := accOp n 0x07 s (fun i _ _ => if i < 0 then -i else i)
def execSpsNeg (n : Fin 1536) (s : State) : Host.Outcome State Fault Refusal := accOp n 0x08 s (fun i _ _ => -i)
def execSpsShl (n : Fin 1536) (s : State) : Host.Outcome State Fault Refusal := accOp n 0x09 s (fun i _ _ => 2 * i)
def execSpsShr (n : Fin 1536) (s : State) : Host.Outcome State Fault Refusal := accOp n 0x0A s (fun i _ _ => i / 2)
def execLdacc (n : Fin 1536) (s : State) : Host.Outcome State Fault Refusal := accOp n 0x0B s (fun _ a _ => a * 2 ^ 24)
def execMovr (n : Fin 1536) (s : State) : Host.Outcome State Fault Refusal :=
  .next (sliceIssue s n 0x0C (fun s w => sliceArith s n w (fun s _ _ => movr s n (sAcc w) (sA w % 8))))
def execInFifo (n : Fin 1536) (s : State) : Host.Outcome State Fault Refusal := .next (sliceIssue s n 0x10 (fun s w => sliceInOut s n w))
def execOutFifo (n : Fin 1536) (s : State) : Host.Outcome State Fault Refusal := .next (sliceIssue s n 0x11 (fun s w => sliceInOut s n w))
def execSliceFifoResume (n : Fin 1536) (s : State) : Host.Outcome State Fault Refusal := .next (sliceResume s n)
def execRep (n : Fin 1536) (s : State) : Host.Outcome State Fault Refusal := .next (sliceIssue s n 0x20 (fun s w => sliceRep s n w))
def execSpsLoop (n : Fin 1536) (s : State) : Host.Outcome State Fault Refusal := .next (sliceIssue s n 0x21 (fun s w => sliceLoop s n w))
def execJmp (n : Fin 1536) (s : State) : Host.Outcome State Fault Refusal := .next (sliceIssue s n 0x22 (fun s w => sliceJump s n (bits w 0 12)))
def execSpsBr (n : Fin 1536) (s : State) : Host.Outcome State Fault Refusal := .next (sliceIssue s n 0x23 (fun s w => sliceBr s n w))
def execWaitm (n : Fin 1536) (s : State) : Host.Outcome State Fault Refusal := .next (sliceIssue s n 0x24 (fun s _ => sliceWaitm s n))
def execPendSet (n : Fin 1536) (s : State) : Host.Outcome State Fault Refusal := .next (pendSet s n)
def execWset (n : Fin 1536) (s : State) : Host.Outcome State Fault Refusal := .next (sliceIssue s n 0x25 (fun s w => sliceWset s n w))
def execWstep (n : Fin 1536) (s : State) : Host.Outcome State Fault Refusal := .next (sliceIssue s n 0x26 (fun s w => sliceWstep s n w))
def execScale (n : Fin 1536) (s : State) : Host.Outcome State Fault Refusal :=
  .next (sliceIssue s n 0x27 (fun s w => sliceNext (s.wr F.SPS_STATUS_SCALE n (bits w 0 2)) n 1))
def execSpsHalt (n : Fin 1536) (s : State) : Host.Outcome State Fault Refusal := .next (sliceIssue s n 0x28 (fun s _ => sliceHalt s n))
def execSliceFault (n : Fin 1536) (s : State) : Host.Outcome State Fault Refusal := .next (sliceFault s n)
def execSpsStart (n : Fin 1536) (s : State) : Host.Outcome State Fault Refusal := .next (sliceStart s n)
def execSpsStop (n : Fin 1536) (s : State) : Host.Outcome State Fault Refusal := .next (sliceStop s n)
def execSpsClearFault (n : Fin 1536) (s : State) : Host.Outcome State Fault Refusal := .next (sliceClearFault s n)
def execSrst (n : Fin 1536) (s : State) : Host.Outcome State Fault Refusal := .next (sliceReset s n)
def execSpsMemRead (n : Fin 1536) (s : State) : Host.Outcome State Fault Refusal := .next (memPortRead s n)
def execSpsMemWrite (n : Fin 1536) (value : Word) (s : State) : Host.Outcome State Fault Refusal := .next (memPortWrite s n value.toNat)
def execFabricFifoHandshake (n : Fin 1536) (output : Bool) (k : Fin 2) (word : SWord) (s : State) : Host.Outcome State Fault Refusal :=
  .next (fifoHandshake s n output k word)

end Sys2Proof.Machine
end

