-- ==== Sys2Proof/Machine/Load.lean ====
section
/-!
DEFINITION. Configuration loads (chapter 15): refusal, isolation, header, signature, chunks and their records, END, failure,
the ochre image, and the slave ports (R484). A load's scope holds fabric regions in [31:0] and clusters in [63:32].
-/
namespace Sys2Proof.Machine

/-! ### Isolation (R434) -/

/-- Ends an open request with an error response at its source. -/
def errorOut (s : State) (o : OpenReq) : State :=
  match fportOfUnit o.src with
  | some n => deliverPort 17 (mapOpen s o.src o.txn o.write o.ctl (fun o => some { o with bad := true, left := 0, got := if o.write then [(0, [])] else o.got })) n o.write
  | none => (mapOpen s o.src o.txn o.write o.ctl (fun _ => none)).emit (.response o.src o.txn none)

/-- A packet that waits at its memory no longer does. -/
def dropPacket (s : State) (p : Packet) : State :=
  (s.setNoc { s.noc with waiting := s.noc.waiting.erase p }).dropWaiters (.packet p.src (p.txn + 8 * b2n (decide (p.op = 2))))

/-- The wrapper of a block closes: what its units asked for is forgotten, and requests into it end with error responses, those that wait at
their memory or at a sleeping domain (R310) among them. -/
def closeWrapper (s : State) (inside : Nat → Bool) : State :=
  let mine := s.noc.opened.filter (fun o => inside o.src)
  let s := s.setNoc { s.noc with opened := s.noc.opened.filter (fun o => !(inside o.src)),
                                 flight := s.noc.flight.filter (fun p => !(inside p.dst)),
                                 heldPkts := s.noc.heldPkts.filter (fun h => !(inside h.2.src)),
                                 stalled := s.noc.stalled.filter (fun x => !(inside x.pkt.src)) }
  let s := (mine.filterMap (fun o => fportOfUnit o.src)).foldl showPort s
  let s := (s.noc.opened.filter (fun o => inside o.dst)).foldl errorOut s
  let s := (s.noc.waiting.filter (fun p => inside p.src || inside p.dst)).foldl dropPacket s
  let held := s.noc.heldPkts.filter (fun h => inside h.2.dst)
  let s := s.setNoc { s.noc with heldPkts := s.noc.heldPkts.filter (fun h => !(inside h.2.dst)) }
  held.foldl (fun s h => wakeFail s (h.1 / 32) [h.2]) s

/-- The cores that a destination of `destsOf` belongs to, as an interval: first core and how many; a pseudo-channel has its quarter's. -/
def coresOfDest (d : Nat) : Nat × Nat :=
  if d < 256 then (d / 64 * 128, 128) else if d < 0x2000 then (512, 0) else if d < 0x3000 then (d - 0x2000, 1) else ((d - 0x3000) * 16, 16)

/-- Reads of stream engines on their way into a block, cores `lo` to `lo + n - 1`, end with error responses (R286, R434); engines of the
block itself are cleared with it. -/
def failReads (s : State) (lo n : Nat) : State :=
  let within := fun (d : Nat) => let c := coresOfDest d; decide (lo ≤ c.1 ∧ c.1 + c.2 ≤ lo + n ∧ 0 < c.2)
  let hit := (openReads s).filter (fun r => !(decide (lo ≤ r.eng / 2 ∧ r.eng / 2 < lo + n)) && (r.x.dests s).any within)
  hit.foldl (fun s r => transferError s r.eng r.set r.x.desc r.x.pos) s

def unitInQuarter (q u : Nat) : Bool := decide (dieOf u = q)
def unitInCluster (c u : Nat) : Bool := decide (clusterOfUnit u = some c)
def unitInCore (k u : Nat) : Bool := decide (dieOf u = k / 128 ∧ unitNo u < 0x800 ∧ unitNo u / 16 = k % 128)
def unitInRegion (r u : Nat) : Bool := match fportOfUnit u with | some n => decide (n / 4 = r) | none => false
def unitIsKport (p u : Nat) : Bool := decide (u = unitOfKport p)

/-! ### Frames (R359, R360) -/

def fDie (f : Nat) : Nat := f % 8
def fType (f : Nat) : Nat := f / 2 ^ 3 % 8
def fCol (f : Nat) : Nat := f / 2 ^ 6 % 256
def fMinor (f : Nat) : Nat := f / 2 ^ 14
def frameOfWord (w : Nat) : Nat := bits w 8 27

/-- The column exists and has that minor frame. -/
def frameExists (f : Nat) : Bool :=
  let d := fDie f
  let c := fCol f
  let m := fMinor f
  match fType f with
  | 0 => decide (d < 4 ∧ c < 96 ∧ m < 2048)
  | 1 => decide (d < 4 ∧ c < 16 ∧ m < 2368)
  | 2 => decide (d < 4 ∧ c < 8 ∧ m < 5424)
  | 3 => decide (d < 4 ∧ c < 5 ∧ m < 49)
  | 4 => decide (d < 4 ∧ c < 1 ∧ m < 64)
  | 5 => decide (d < 4 ∧ c < 8 ∧ m < 512)
  | 6 => decide (d = 4 ∧ c = 0 ∧ m < 8192)
  | _ => false

/-- The fabric region of a frame, for the column types that belong to regions. -/
def frameRegion (f : Nat) : Option Nat :=
  match fType f with
  | 0 => some (8 * fDie f + fMinor f / 4 / 64)
  | 1 => some (8 * fDie f + fMinor f / 37 / 8)
  | 2 => some (8 * fDie f + fMinor f / 113 / 6)
  | _ => none

/-- Mordant compares the frame. -/
def frameChecked (f : Nat) : Bool :=
  match fType f with
  | 1 => decide (fMinor f % 37 = 0)
  | 2 => decide (fMinor f % 113 < 65)
  | _ => true

def regionsOf (scope : Nat) : List Nat := (List.range 32).filter (fun r => decide (bit scope r = 1))
def clustersOf (scope : Nat) : List Nat := (List.range 32).filter (fun c => decide (bit scope (32 + c) = 1))
/-- Every region of a quarter lies in the scope. -/
def wholeQuarter (scope q : Nat) : Bool := decide (bits scope (8 * q) 8 = 255)

/-- A frame may be written under the partition and the scope of a load (R358-R367). -/
def frameInScope (part scope f : Nat) : Bool :=
  match fType f with
  | 5 => decide (part = 2) && decide (bit scope (32 + fDie f * 8 + fCol f) = 1)
  | 6 => decide (part = 1)
  | 3 => decide (part = 4) && wholeQuarter scope (fDie f)
  | 4 => decide (part = 4) && wholeQuarter scope (fDie f)
  | _ => decide (part = 4) && (match frameRegion f with | some r => decide (bit scope r = 1) | none => false)

/-! ### Writing frames -/

/-- Byte `i` of fabric RAM block `b` (R360: the frames after its configuration hold its contents). -/
def putRamByte (b i : Nat) (t : Tab (BitVec 72)) (v : Byte) : Tab (BitVec 72) :=
  let k := b * 1024 + i / 9
  Tab.set 0 t k (BitVec.ofNat 72 (setBits (Tab.get 0 t k).toNat (8 * (i % 9)) 8 v.toNat))
def putImemByte (n i : Nat) (t : Tab (BitVec 32)) (v : Byte) : Tab (BitVec 32) :=
  let k := n * 4096 + i / 4
  Tab.set 0 t k (BitVec.ofNat 32 (setBits (Tab.get 0 t k).toNat (8 * (i % 4)) 8 v.toNat))
def putDmByte (nm i : Nat) (t : Tab SWord) (v : Byte) : Tab SWord :=
  let k := nm * 2048 + i / 3
  Tab.set 0 t k (BitVec.ofNat 24 (setBits (Tab.get 0 t k).toNat (8 * (i % 3)) 8 v.toNat))

/-- What a frame's data sets beside the frame itself: RAM contents, instruction and data memories (R360). -/
def frameContents (s : State) (f : Nat) (data : List Byte) : State :=
  let pairs := fun (base : Nat) => data.zipIdx.map (fun e => (base + e.2, e.1))
  match fType f with
  | 1 =>
    let m := fMinor f % 37
    let b := fDie f * 1024 + fCol f * 64 + fMinor f / 37
    if m = 0 then s
    else s.setFab { s.fab with ram := (pairs ((m - 1) * 256)).foldl (fun t e => putRamByte b e.1 t e.2) s.fab.ram }
  | 2 =>
    let m := fMinor f % 113
    let n := fDie f * 384 + fCol f * 48 + fMinor f / 113
    if m = 0 then s
    else if m < 65 then s.setFab { s.fab with imem := (pairs ((m - 1) * 256)).foldl (fun t e => putImemByte n e.1 t e.2) s.fab.imem }
    else
      let k := (m - 65) / 24
      s.setFab { s.fab with dm := (pairs ((m - 65) % 24 * 256)).foldl (fun t e => putDmByte (n * 2 + k) e.1 t e.2) s.fab.dm }
  | _ => s

/-- One frame is written: the record's place is kept for Mordant (R375). -/
def writeFrame (s : State) (f : Nat) (data : List Byte) (place : Option (Nat × Nat × Nat)) : State :=
  frameContents (s.setConf { s.conf with frames := Tab.set zeroFrame s.conf.frames f data,
                                         recAt := Tab.set none s.conf.recAt f place }) f data

/-- A region's frames are written with zeros (R359). -/
def clearFrames (s : State) (r : Nat) : State :=
  let mine := fun (f : Nat) => decide (frameRegion f = some r)
  let q := r / 8
  let block := fun (b : Nat) => decide (b / 1024 = q ∧ b % 64 / 8 = r % 8)
  let slice' := fun (n : Nat) => decide (n / 384 = q ∧ regionOfSlice n = r)
  let s := s.setConf { s.conf with frames := Tab.drop s.conf.frames mine, recAt := Tab.drop s.conf.recAt mine,
                                   clr := if s.conf.clr.contains r then s.conf.clr else s.conf.clr ++ [r] }
  s.setFab { s.fab with ram := Tab.drop s.fab.ram (fun k => block (k / 1024)), imem := Tab.drop s.fab.imem (fun k => slice' (k / 4096)),
                        dm := Tab.drop s.fab.dm (fun k => slice' (k / 4096)), auto := Tab.drop s.fab.auto slice' }

/-! ### Records (R359-R363) -/

/-- WREG (R363): the state, or nothing when the register or the value fails the load. `inR` says that a region is in scope. -/
def wreg (s : State) (scope r v : Nat) : Option State :=
  match r with
  | 1 =>
    let i := bits v 0 3
    let q := bits v 3 2
    let b := 5 * q + i
    let mv := vccioMV (bits v 8 3)
    if i < 5 ∧ wholeQuarter scope q ∧ (bankMV (decide (3 ≤ i))).contains mv then some (s.wr F.FAB_BANK_CFG_VCCIO b (bits v 8 3)) else none
  | 2 =>
    let n := bits v 9 2 * 384 + bits v 0 9
    if bits v 0 9 < 384 ∧ bits v 17 5 < 24 ∧ bits v 22 5 < 24 ∧ bit scope (regionOfSlice n) = 1 then
      some (s.setFab { s.fab with auto := Tab.set false s.fab.auto n (decide (bit v 16 = 1)), sliceCfg := Tab.set 0 s.fab.sliceCfg n v })
    else none
  | 3 =>
    let b := bits v 10 2 * 1024 + bits v 0 10
    if bits v 12 2 < 3 ∧ bits v 14 2 < 3 ∧ bit scope (8 * bits v 10 2 + bits v 0 10 % 64 / 8) = 1 then
      some (s.setFab { s.fab with ramMode := Tab.set 0 s.fab.ramMode b v })
    else none
  | _ => none

/-- How a run of records ends: more bytes are needed, END, or a failure with its cause and frame. -/
inductive RunEnd where
  | more
  | done
  | fail (cause frame : Nat)
  deriving DecidableEq, Repr

/-- Where a record stands, for a source that stays readable (R375): NV, or HBM with KEEP. -/
def placeOf (l : Load) (len : Nat) : Option (Nat × Nat × Nat) :=
  if l.src = 0 then some (1, l.addr + l.pos, len)
  else if l.src = 3 ∧ l.keep ∧ regionOf l.addr = .hbm then some (2, l.addr + l.pos, len)
  else none

/-- Writes the data of a record to its frames, all of which have passed. -/
def putFrames (s : State) (l : Load) (fs : List Nat) (data : List Byte) (len : Nat) : State × Load :=
  fs.foldl (fun (a : State × Load) f =>
    let s := writeFrame a.1 f data (placeOf a.2 len)
    let s := s.wr F.CFG_PROGRESS_FRAMES 0 (s.rd F.CFG_PROGRESS_FRAMES 0 + 1)
    (s, if frameChecked f then { a.2 with written := Tab.set false a.2.written f true } else a.2)) (s, l)

/-- Frame content that R317 or R336 forbids: a block whose frames, as far as this load has brought them, steer groups otherwise than R317
allows, or a pin's standard. -/
def frameForbidden (s : State) (l : Load) (f : Nat) (data : List Byte) : Bool :=
  match fType f with
  | 0 =>
    let b := fDie f * 49152 + fCol f * 512 + fMinor f / 4
    !(steeringOK (cellsOf ((List.range 4).flatMap (fun k =>
      if blockFrame b k = f then data else if Tab.get false l.written (blockFrame b k) then s.frame (blockFrame b k) else zeroFrame))))
  | 3 => decide (fMinor f < 48) && pinForbidden s (fDie f) (fCol f) data
  | _ => false

/-- A frame record's checks (R361, R365): 0, or the cause of R368. In an ochre image's part a frame outside the scope is
passed over. -/
def frameCause (s : State) (l : Load) (fs : List Nat) (covered crc data : List Byte) : Nat × Nat :=
  if crc32 covered ≠ ofBytesLE crc then (5, fs.headD 0)
  else match fs.find? (fun f => !(frameExists f) || !(frameInScope l.part l.scope f) || frameForbidden s l f data) with
    | some f => (6, f)
    | none => (0, 0)

/-- A pin of an I/O bank of the load whose standard its bank's VCCIO, declared after its frame, does not allow (R336). -/
def lateForbidden (s : State) (l : Load) : Option Nat :=
  (l.written.filter (fun e => e.2)).findSome? (fun e => if fType e.1 = 3 ∧ frameForbidden s l e.1 (s.frame e.1) then some e.1 else none)

/-- One record at the head of `bs`: its length, and what it does; `ochre` marks the fallback of R369. -/
def oneRecord (s : State) (l : Load) (ochre : Bool) (bs : List Byte) : Nat × State × Load × RunEnd :=
  let w := natAt bs 0 8
  match bits w 0 8 with
  | 0x01 =>
    let f := frameOfWord w
    let data := (bs.drop 8).take 256
    if bs.length < 272 then (0, s, l, .more)
    else
      let c := frameCause s l [f] (bs.take 264) ((bs.drop 264).take 4) data
      if c.1 = 0 then (let r := putFrames s l [f] data 272; (272, r.1, r.2, .more))
      else if ochre && decide (c.1 = 6) then (272, s, l, .more)
      else (0, s, l, .fail c.1 c.2)
  | 0x02 =>
    let n := bits w 40 8
    let len := 8 * n + 264
    let fs := frameOfWord w :: (List.range (n - 1)).map (fun i => frameOfWord (natAt bs (8 + 8 * i) 8))
    let data := (bs.drop (8 * n)).take 256
    if n = 0 ∨ 32 < n ∨ l.part ≠ 2 ∨ fs.any (fun f => decide (fType f ≠ 5)) then (0, s, l, .fail 6 (frameOfWord w))
    else if bs.length < len then (0, s, l, .more)
    else
      let mine := if ochre then fs.filter (frameInScope l.part l.scope) else fs
      let c := frameCause s l mine (bs.take (8 * n + 256)) ((bs.drop (8 * n + 256)).take 4) data
      if c.1 = 0 then (let r := putFrames s l mine data len; (len, r.1, r.2, .more)) else (0, s, l, .fail c.1 c.2)
  | 0x03 =>
    if l.part ≠ 4 then (0, s, l, .fail 6 0)
    else match wreg s l.scope (bits w 8 8) (bits w 32 32) with
      | some t => (8, t, l, .more)
      | none => if ochre then (8, s, l, .more) else (0, s, l, .fail 6 0)
  | 0x04 =>
    let ochreImage := match l.hdr with | some h => decide (h.part = 5) | none => false
    if ochreImage && [1, 2, 4].contains (bits w 8 8) then (8, s, { l with part := bits w 8 8 }, .more) else (0, s, l, .fail 6 0)
  | 0x05 =>
    let f := frameOfWord w
    let r := 8 * fDie f + fCol f % 8
    if l.part = 4 ∧ fDie f < 4 ∧ bit l.scope r = 1 then
      let t := (clearFrames s r).wr F.CFG_PROGRESS_FRAMES 0 (s.rd F.CFG_PROGRESS_FRAMES 0 + 34736)
      (8, t, { l with cleared := if l.cleared.contains r then l.cleared else l.cleared ++ [r] }, .more)
    else if ochre then (8, s, l, .more)
    else (0, s, l, .fail 6 f)
  | 0x06 => (8, s, l, .more)
  | 0x0F => (match lateForbidden s l with | some f => (0, s, l, .fail 6 f) | none => (8, s, l, .done))
  | _ => (0, s, l, .fail 6 0)

/-- Records in order, at most `n` of them. -/
def runRecords (ochre : Bool) : Nat → State → Load → List Byte → State × Load × RunEnd
  | 0, s, l, bs => (s, { l with rest := bs }, .more)
  | n + 1, s, l, bs =>
    if bs.length < 8 then (s, { l with rest := bs }, .more)
    else
      let r := oneRecord s l ochre bs
      match r.2.2.2 with
      | .more =>
        if r.1 = 0 then (r.2.1, { r.2.2.1 with rest := bs }, .more)
        else runRecords ochre n r.2.1 { r.2.2.1 with pos := r.2.2.1.pos + r.1 } (bs.drop r.1)
      | e => (r.2.1, { r.2.2.1 with rest := [] }, e)

/-! ### Signatures of groups (R373) -/

/-- Checked frames of a column, and the minor of the i-th of them. -/
def checkedCount : Nat → Nat
  | 0 => 2048 | 1 => 64 | 2 => 3120 | 3 => 49 | 4 => 64 | 5 => 512 | _ => 8192
def checkedMinor (ctype i : Nat) : Nat :=
  match ctype with
  | 1 => 37 * i
  | 2 => 113 * (i / 65) + i % 65
  | _ => i
def groupsPerColumn (ctype : Nat) : Nat := ceilDiv (checkedCount ctype) 64
def columnsOf : Nat → Nat
  | 0 => 96 | 1 => 16 | 2 => 8 | 3 => 5 | _ => 1

/-- Column type, column and group within the column of a group of one quarter's fabric. -/
def quarterGroup (i : Nat) : Nat × Nat × Nat :=
  if i < 3072 then (0, i / 32, i % 32)
  else if i < 3088 then (1, i - 3072, 0)
  else if i < 3480 then (2, (i - 3088) / 49, (i - 3088) % 49)
  else if i < 3485 then (3, i - 3480, 0)
  else (4, 0, 0)

/-- The frames of a group (R373): the hub, the tile clusters, then the quarters. -/
def groupFrames (g : Nat) : List Nat :=
  let col := fun (die ctype col k : Nat) =>
    (List.range (Nat.min 64 (checkedCount ctype - 64 * k))).map (fun i => frameKey die ctype col (checkedMinor ctype (64 * k + i)))
  if g < 128 then col 4 6 0 g
  else if g < 384 then (let c := (g - 128) / 8; col (c / 8) 5 (c % 8) ((g - 128) % 8))
  else
    let i := (g - 384) % 3486
    let t := quarterGroup i
    col ((g - 384) / 3486) t.1 t.2.1 t.2.2

/-- The CRC-64 of a group's frames. -/
def groupCrc (s : State) (g : Nat) : Nat := crc64 ((groupFrames g).flatMap s.frame)

/-- The group shares frames with a scope; `boot` takes in the hub. -/
def groupInScope (scope : Nat) (boot : Bool) (g : Nat) : Bool :=
  (groupFrames g).any (fun f =>
    match fType f with
    | 6 => boot
    | 5 => decide (bit scope (32 + fDie f * 8 + fCol f) = 1)
    | 3 => wholeQuarter scope (fDie f)
    | 4 => wholeQuarter scope (fDie f)
    | _ => match frameRegion f with | some r => decide (bit scope r = 1) | none => false)

def showFailed (s : State) : State := s.wr F.MDT_STATUS_FAILED_GROUPS 0 s.conf.failed.length

/-- The signatures of a scope's groups are committed, and its groups are good again (R365, R374). -/
def commitSignatures (s : State) (scope : Nat) (boot : Bool) : State :=
  let s := ((List.range 14328).filter (groupInScope scope boot)).foldl (fun s g =>
    s.setConf { s.conf with sigs := Tab.set 0 s.conf.sigs g (groupCrc s g), failed := Tab.set 0 s.conf.failed g 0 }) s
  showFailed s

/-! ### Starting a load (R364, R365) -/

def portsOfRegion (r : Nat) : List Nat := (List.range 4).map (fun i => r / 8 * 32 + r % 8 * 4 + i)

def loadScope (s : State) : Nat :=
  bits (s.rd F.CFG_LOAD_SCOPE 0) 0 32 + bits (s.rd F.CFG_LOAD_SCOPE 0) 32 24 * 2 ^ 32 + s.rd F.CFG_SRC_SCOPE_HI 0 * 2 ^ 56

/-- The first refusal of R364 that holds. -/
def loadRefusal (s : State) : Option Nat :=
  let scope := loadScope s
  let src := s.rd F.CFG_LOAD_SRC 0
  if s.on F.CFG_STATUS_BUSY 0 then some 1
  else if (regionsOf scope).any (fun r => (portsOfRegion r).any (realTimePort s)) then some 2
  else if (clustersOf scope).any (clusterTaken s) then some 3
  else if (src = 1 ∧ s.rd F.CFG_CTRL_SSP_EN 0 = 0) ∨ (src = 2 ∧ s.rd F.CFG_CTRL_SPP_EN 0 = 0) then some 4
  else none

/-- The slices of a region enter IDLE as under STOP, and their FIFOs are emptied (R365). -/
def quietSlice (s : State) (n : Nat) : State :=
  let x := s.slice n
  let s := s.setSlice n { x with in0 := [], in1 := [], out0 := [], out1 := [], rep := 0 }
  if sliceState s n = slRUN ∨ sliceState s n = slWAIT then ((s.wr F.SPS_STATUS_STATE n slIDLE).wr F.SPS_STATUS_WAIT_ON n 0).wr F.SPS_STATUS_IN_REP n 0 else s

/-- Image digest of a region: zero when it is BLANK or FROZEN (R456). -/
def setRegion (s : State) (r st : Nat) (digest : List Byte) : State :=
  (s.wr F.CFG_REGION_STATE r st).setConf { s.conf with digests := Tab.set (List.replicate 64 0#8) s.conf.digests r digest }
def noDigest : List Byte := List.replicate 64 0#8

/-- A cluster is reset for a load: its wrapper closes, and its configuration is given up (R365, R372). -/
def loadResetCluster (s : State) (c : Nat) : State :=
  let s := (clearCluster (failReads (closeWrapper s (unitInCluster c)) (16 * c) 16) c).setRst 2 c true
  s.setConf { s.conf with clusters := Tab.set false s.conf.clusters c false }

/-- Step 1 once the ports read ISOLATED (R365): boundaries frozen, slices quiet, regions LOADING, clusters reset. -/
def freezeScope (s : State) (scope : Nat) : State :=
  let s := (regionsOf scope).foldl (fun s r =>
    let s := (slicesOf r).foldl quietSlice s
    (s.setConf { s.conf with frozen := Tab.set false s.conf.frozen r true }).wr F.CFG_REGION_STATE r 2) s
  (clustersOf scope).foldl loadResetCluster s

/-- The regions and clusters of a scope that hold a configuration. -/
def heldConfig (s : State) (scope : Nat) : Nat :=
  ((regionsOf scope).filter (fun r => decide (s.rd F.CFG_REGION_STATE r = 1))).foldl (fun a r => a + 2 ^ r) 0 +
  ((clustersOf scope).filter (fun c => Tab.get false s.conf.clusters c)).foldl (fun a c => a + 2 ^ (32 + c)) 0

/-- CFG_LOAD_START (R364). -/
def cfgStart (s : State) : State :=
  if s.inReset 0 0 then s
  else match loadRefusal s with
  | some c => (s.wr F.CFG_STATUS_REFUSED 0 1).wr F.CFG_STATUS_REFUSE_CAUSE 0 c
  | none =>
    let scope := loadScope s
    let src := s.rd F.CFG_LOAD_SRC 0
    let ports := ((regionsOf scope).flatMap portsOfRegion).filter (fun n => !(s.on F.FAB_PORT_CTRL_ISOLATE n) || s.conf.ports.contains n)
    let boot := !(s.conf.hubLoaded) && decide (src = 0 ∧ s.rd F.CFG_SRC_ADDR 0 = nvHub ∧ scope = 0)
    let l : Load := { src := src, addr := s.rd F.CFG_SRC_ADDR 0, scope := scope, keep := s.on F.CFG_LOAD_KEEP 0, boot := boot, isolating := true, recv := [],
                      nibble := none, hdr := none, verified := false, dimg := [], table := [], chunk := 0, part := 0, ports := ports, written := [],
                      cleared := [], had := heldConfig s scope, rest := [], pos := 0 }
    let s := ((regionsOf scope).flatMap portsOfRegion).foldl isolatePort s
    let s := s.setConf { s.conf with load := some l, ports := s.conf.ports.filter (fun n => !(ports.contains n)) }
    let s := ((s.bump C.CFG_LOAD_CNT 0 1).wr F.CFG_STATUS_BUSY 0 1).wr F.CFG_STATUS_PHASE 0 1
    (s.wr F.CFG_PROGRESS_BYTES 0 0).wr F.CFG_PROGRESS_FRAMES 0 0

/-! ### How a load ends (R365, R368-R370) -/

/-- Boundaries and ports of the scope are released as at END; the ISOLATE bits set by the load clear. -/
def releaseScope (s : State) (scope : Nat) (ports : List Nat) : State :=
  let s := (regionsOf scope).foldl (fun s r => s.setConf { s.conf with frozen := Tab.set false s.conf.frozen r false }) s
  ports.foldl (fun s n => showPort (s.wr F.FAB_PORT_CTRL_ISOLATE n 0) n) s

def endLoad (s : State) : State :=
  ((s.setConf { s.conf with load := none }).wr F.CFG_STATUS_BUSY 0 0).wr F.CFG_STATUS_PHASE 0 0

/-- The quarter that an event of a load concerns (R421): that of its scope, or the hub when it spans none or several. -/
def scopeQuarter (scope : Nat) : Nat :=
  match ((regionsOf scope ++ clustersOf scope).map (fun k => k / 8)).eraseDups with
  | [q] => q
  | _ => 4

/-- A load fails (R368, R369, R379). -/
def loadFail (s : State) (l : Load) (cause frame : Nat) : State :=
  let wrote := decide (0 < s.rd F.CFG_PROGRESS_FRAMES 0)
  let s := ((s.wr F.CFG_FAIL_CAUSE 0 cause).wr F.CFG_FAIL_WRITTEN 0 (b2n wrote)).wr F.CFG_FAIL_FRAME 0 frame
  let s := ((s.wr F.CFG_FAIL_OFFSET 0 (l.pos / 8)).wr F.CFG_STATUS_FAIL 0 1).bump C.CFG_FAIL_CNT 0 1
  let s := s.owe 0x23000001 (scopeQuarter l.scope)
  let s := if s.on F.CFG_CTRL_FAIL_EVT_EN 0 then s.signalMC F.CFG_STATUS_FAIL 0 else s
  if !wrote && decide (l.had ≠ 0) then
    let s := releaseScope s l.scope l.ports
    let s := (regionsOf l.scope).foldl (fun s r => s.wr F.CFG_REGION_STATE r (bit l.had r)) s
    let s := (clustersOf l.scope).foldl (fun s c =>
      if bit l.had (32 + c) = 1 ∧ l.isolating = false then releaseCluster (s.setConf { s.conf with clusters := Tab.set false s.conf.clusters c true }) c else s) s
    endLoad s
  else
    (s.setConf { s.conf with load := none, fallback := some (l.scope, l.boot, l.ports) }).wr F.CFG_STATUS_PHASE 0 4

/-- The checked frames that a scope still lacks (R365, R368 cause 0xB). -/
def scopeComplete (l : Load) : Bool :=
  let count := fun (p : Nat → Bool) => (l.written.filter (fun e => p e.1)).length
  (regionsOf l.scope).all (fun r => l.cleared.contains r || decide (count (fun f => decide (frameRegion f = some r)) = 27824)) &&
  (clustersOf l.scope).all (fun c => decide (count (fun f => decide (fType f = 5 ∧ fDie f * 8 + fCol f = c)) = 512)) &&
  (!(l.boot) || decide (count (fun f => decide (fType f = 6)) = 8192))

/-- The cool-down record is copied into TST_CDL_LAST with the hub configuration (R473); a record that is missing or fails
its CRC reads as RESULT NONE. -/
def copyLapRecord (s : State) : State :=
  let bs := nvRead s nvLap 64
  let ok := decide (crc32 (bs.take 56) = natAt bs 56 4)
  let s := if ok && decide (natAt bs 0 1 = 3) then s.owe 0x32000003 4 else if ok && decide (natAt bs 0 1 = 1) then s.owe 0x32000004 4 else s
  (List.range 8).foldl (fun s i => s.wr F.TST_CDL_LAST_DATA i (if ok then natAt bs (8 * i) 8 else 0)) s

/-- The groups of a region have a repair source (R375, R380). -/
def hasSource (l : Load) : Bool := decide (l.src = 0) || (decide (l.src = 3) && l.keep && decide (regionOf l.addr = .hbm))

/-- END (R365): every checked frame of the scope was written. -/
def loadEnd (s : State) (l : Load) : State :=
  if !(scopeComplete l) then loadFail s l 0xB 0
  else
    let h := (l.hdr.getD ⟨0, false, 0, 0, 0, 0, 0, 0, 0, 0⟩)
    let version := fun (s : State) (k : Nat) => s.setConf { s.conf with versions := Tab.set 0 s.conf.versions k h.version }
    let s := (regionsOf l.scope).foldl (fun s r =>
      let s := setRegion (version (clearRegion s r) r) r 1 l.dimg
      (s.wr F.CFG_REGION_SOURCE r (b2n (hasSource l && !(l.cleared.contains r)))).setConf
        { s.conf with clr := if l.cleared.contains r then s.conf.clr else s.conf.clr.filter (fun x => decide (x ≠ r)) }) s
    let s := releaseScope s l.scope l.ports
    let s := commitSignatures s l.scope l.boot
    let s := if (clustersOf l.scope).isEmpty then s else extendM (version s 33) 4 l.dimg
    let s := (clustersOf l.scope).foldl (fun s c => releaseCluster (s.setConf { s.conf with clusters := Tab.set false s.conf.clusters c true }) c) s
    let s := if h.part = 5 then extendM s 5 l.dimg else s
    let s := if l.boot then copyLapRecord (extendM ((version s 32).setConf { s.conf with hubLoaded := true, versions := Tab.set 0 s.conf.versions 32 h.version }) 2 l.dimg) else s
    (endLoad s).wr F.CFG_STATUS_DONE 0 1

/-! ### Reading the image (R356-R368) -/

/-- What reading bytes of the image gives. -/
inductive Got where
  | bytes (bs : List Byte)
  | wait
  | error
  deriving DecidableEq, Repr

/-- Bytes of the image: NV, the bytes a slave port has taken, or a DA. `bad` is an uncorrectable NV read. -/
def imageBytes (s : State) (l : Load) (o n : Nat) (ext : List Byte) (bad : Bool) : State × Got :=
  match l.src with
  | 0 => (s, if bad then .error else .bytes (nvRead s (l.addr + o) n))
  | 3 =>
    let r := memRead s (l.addr + o) n ⟨ext, if bad then [2] else [], false⟩
    (r.1, match r.2 with | some bs => .bytes bs | none => .error)
  | _ => (s, if o + n ≤ l.recv.length then .bytes ((l.recv.drop o).take n) else .wait)

def setLoad (s : State) (l : Load) : State := s.setConf { s.conf with load := some l }
def showBytes (s : State) (l : Load) (n : Nat) : State := if l.src = 0 ∨ l.src = 3 then s.wr F.CFG_PROGRESS_BYTES 0 (Nat.max (s.rd F.CFG_PROGRESS_BYTES 0) n) else s

/-- SCOPE_ISOLATED (R365): every port reads ISOLATED, or NOC_CPL_TO cycles have passed. -/
def scopeIsolated (s : State) (timeout : Bool) : State :=
  match s.conf.load with
  | some l =>
    if l.isolating && (timeout || l.ports.all (fun n => s.on F.FAB_PORT_STAT_ISOLATED n)) then
      freezeScope ((setLoad s { l with isolating := false }).wr F.CFG_STATUS_PHASE 0 2) l.scope
    else s
  | none => s

/-- The cause for which a header fails, or 0 (R366, R367). -/
def headerCause (l : Load) (bs : List Byte) : Nat :=
  let h := headerOfBytes bs
  let rs := regionsOf l.scope
  let quarters := (rs.map (fun r => r / 8)).eraseDups
  if identWrong bs then 1
  else if formatWrong bs then 2
  else if !([1, 2, 4, 5].contains h.part) then 2
  else if (h.part = 1 ∧ l.boot = false) ∨ (h.part ≠ 1 ∧ l.boot = true) then 2
  else if h.scope ≠ l.scope then 2
  else if 1 < quarters.length ∧ !(quarters.all (wholeQuarter l.scope)) then 2
  else 0

/-- HEADER. -/
def loadHeader (s : State) (ext : List Byte) (bad : Bool) : State :=
  match s.conf.load with
  | none => s
  | some l =>
    if l.isolating || l.hdr.isSome then s
    else
      let r := imageBytes s l 0 4096 ext bad
      match r.2 with
      | .wait => r.1
      | .error => loadFail r.1 l 8 0
      | .bytes bs =>
        let s := showBytes r.1 l 4096
        let c := headerCause l bs
        if c ≠ 0 then loadFail s l c 0
        else
          let h := headerOfBytes bs
          setLoad s { l with hdr := some h, part := if h.part = 5 then 0 else h.part, pos := h.strOff, dimg := bs }

/-- SIGNATURE_VERIFY (R365 step 2, R451). -/
def signatureVerify (s : State) (sigExt tableExt : List Byte) (bad : Bool) : State :=
  match s.conf.load with
  | none => s
  | some l => match l.hdr with
    | none => s
    | some h =>
      if l.verified then s
      else
        let r := imageBytes s l h.sigOff 8192 sigExt bad
        let t := imageBytes r.1 l h.digOff (64 * h.chunks) tableExt bad
        match r.2, t.2 with
        | .bytes sig, .bytes table =>
          let s := showBytes t.1 l (h.digOff + 64 * h.chunks)
          if imageStep s l.dimg sig table h.part h.version ≠ 0 then loadFail s l 3 0
          else (setLoad s { l with verified := true, table := table, dimg := shake256 (l.dimg ++ table) }).wr F.CFG_STATUS_PHASE 0 3
        | .error, _ => loadFail r.1 l 8 0
        | _, .error => loadFail t.1 l 8 0
        | _, _ => t.1

/-- CHUNK_VERIFIED (R365 step 3): the next chunk is read, and executed when its digest matches. -/
def chunkVerified (s : State) (ext : List Byte) (bad : Bool) : State :=
  match s.conf.load with
  | none => s
  | some l => match l.hdr with
    | none => s
    | some h =>
      if !(l.verified) then s
      else if h.chunks ≤ l.chunk then loadFail s l 7 0
      else
        let o := h.strOff + l.chunk * 65536
        let n := Nat.min 65536 (h.length - o)
        let r := imageBytes s l o n ext bad
        match r.2 with
        | .wait => r.1
        | .error => loadFail r.1 l 8 0
        | .bytes bs =>
          let s := showBytes r.1 l (o + n)
          if shake256 bs ≠ (l.table.drop (64 * l.chunk)).take 64 then loadFail s l 4 0
          else
            let x := runRecords false (65536 / 8 + 64) s { l with chunk := l.chunk + 1 } (l.rest ++ bs)
            match x.2.2 with
            | .done => loadEnd x.1 x.2.1
            | .fail c f => loadFail x.1 x.2.1 c f
            | .more => if x.2.1.chunk = h.chunks ∧ (l.src = 0 ∨ l.src = 3) then loadFail x.1 x.2.1 7 0 else setLoad x.1 x.2.1

/-- LOAD_TIMEOUT (R368): 2 s after the last word of a slave port. -/
def loadTimeout (s : State) : State :=
  match s.conf.load with
  | some l => if (l.src = 1 ∨ l.src = 2) ∧ l.isolating = false then loadFail s l 7 0 else s
  | none => s

/-- ABORT (R368). -/
def loadAbort (s : State) : State :=
  match s.conf.load with
  | some l => loadFail s l 9 0
  | none => s

/-- A reset of a quarter or cluster in the scope of a load (R368, cause 0xA). -/
def loadReset (s : State) (regions clusters : List Nat) : State :=
  match s.conf.load with
  | some l => if regions.any (fun r => decide (bit l.scope r = 1)) || clusters.any (fun c => decide (bit l.scope (32 + c) = 1)) then loadFail s l 0xA 0 else s
  | none => s

/-! ### The ochre image (R369, R370) -/

/-- The whole command stream of the ochre image. -/
def ochreStream (s : State) (h : Header) : List Byte := nvRead s (nvOchre + h.strOff) (h.length - h.strOff)

/-- Regions become BLANK: every frame zero, and so their signatures (R373). -/
def blankRegions (s : State) (rs : List Nat) : State :=
  let s := rs.foldl (fun s r => setRegion (clearFrames s r) r 0 noDigest) s
  let scope := rs.foldl (fun a r => a + 2 ^ r) 0
  showFailed (s.setConf { s.conf with sigs := Tab.drop s.conf.sigs (groupInScope scope false), failed := Tab.drop s.conf.failed (groupInScope scope false) })

/-- The scope is left blank, and the device is in FAULT (R370, R411). -/
def ochreFails (s : State) (scope : Nat) : State :=
  let s := blankRegions s (regionsOf scope)
  ({ endLoad (s.setConf { s.conf with fallback := none }) with dict := { s.dict with fault := true } } : State).wr F.CFG_STATUS_OCHRE_FAIL 0 1 |>.owe 0x23000003 (scopeQuarter scope)

/-- OCHRE_FALLBACK: the ochre part for the scope; after a failed boot load, at power-up, the whole image. -/
def ochreFallback (s : State) : State :=
  match s.conf.fallback with
  | none => s
  | some (scope0, boot, ports) =>
    let s := (s.wr F.CFG_STATUS_FALLBACK 0 1).bump C.CFG_FALLBACK_CNT 0 1
    let scope := if boot then 2 ^ 64 - 1 else scope0
    let h := headerOfBytes (nvRead s nvOchre 4096)
    if nvImageStep s nvOchre 5 ≠ 0 then ochreFails s scope
    else
      let dimg := nvImageDigest s nvOchre
      let l : Load := { src := 0, addr := nvOchre, scope := scope, keep := false, boot := boot, isolating := false, recv := [], nibble := none,
                        hdr := some h, verified := true, dimg := dimg, table := [], chunk := 0, part := 0, ports := ports, written := [], cleared := [],
                        had := 0, rest := [], pos := h.strOff }
      let x := runRecords true (h.length / 8) s l (ochreStream s h)
      match x.2.2 with
      | .done =>
        let s := (regionsOf scope).foldl (fun s r =>
          let s := clearRegion s r
          let s := s.setConf { s.conf with frozen := Tab.set false s.conf.frozen r true, versions := Tab.set 0 s.conf.versions r 0 }
          setRegion (s.wr F.CFG_REGION_SOURCE r 0) r 3 noDigest) x.1
        let s := commitSignatures s scope boot
        let s := (extendM s 5 dimg).owe 0x23000002 (scopeQuarter scope)
        let s := (clustersOf scope).foldl (fun s c => releaseCluster (s.setConf { s.conf with clusters := Tab.set false s.conf.clusters c true }) c) s
        let s := s.setConf { s.conf with ports := s.conf.ports ++ ports, fallback := none, versions := if boot then Tab.set 0 s.conf.versions 32 h.version else s.conf.versions,
                                         hubLoaded := s.conf.hubLoaded || boot }
        endLoad (if boot then copyLapRecord s else s)
      | _ => ochreFails x.1 scope

/-- RELEASE (R369): the boundary and the ports of a FROZEN region. -/
def regionRelease (s : State) (r : Nat) : State :=
  if s.rd F.CFG_REGION_STATE r = 3 then
    let mine := (portsOfRegion r).filter (fun n => s.conf.ports.contains n)
    let s := releaseScope s (2 ^ r) mine
    (s.setConf { s.conf with ports := s.conf.ports.filter (fun n => !(mine.contains n)) }).wr F.CFG_REGION_STATE r 0
  else s

/-! ### The slave ports (R357, R484) -/

/-- A load from slave port `p` (1 serial, 2 parallel) accepts data. -/
def slaveAccepts (s : State) (p : Nat) : Bool :=
  match s.conf.load with
  | some l => decide (l.src = p) && !(l.isolating) && s.on (if p = 1 then F.CFG_CTRL_SSP_EN else F.CFG_CTRL_SPP_EN) 0
  | none => false

def takeBytes (s : State) (l : Load) (bs : List Byte) : State :=
  (setLoad s { l with recv := l.recv ++ bs }).wr F.CFG_PROGRESS_BYTES 0 (l.recv.length + bs.length)

/-- SLAVE_PORT_WORD: a nibble or a word at a clock edge; offered while the port's RDY is low it is not taken. -/
def slaveWord (s : State) (parallel : Bool) (v : Nat) (rdy : Bool) : State :=
  let p := if parallel then 2 else 1
  if !rdy then s
  else if !(slaveAccepts s p) then s.bump C.CFG_PORT_DISCARD_CNT 0 1
  else match s.conf.load with
    | none => s
    | some l =>
      if parallel then takeBytes s l (bytesLE 4 v)
      else match l.nibble with
        | none => setLoad s { l with nibble := some (v % 16) }
        | some n => takeBytes s { l with nibble := none } [BitVec.ofNat 8 (n + v % 16 * 16)]

/-- SSP_CS_RISE. -/
def sspCsRise (s : State) : State :=
  match s.conf.load with
  | some l => if l.nibble.isSome then (setLoad s { l with nibble := none }).bump C.CFG_PORT_DISCARD_CNT 0 1 else s
  | none => s

/-! ### The meanings -/

def execCfgLoadStart (s : State) : Host.Outcome State Fault Refusal := .next (cfgStart s)
def execScopeIsolated (timeout : Bool) (s : State) : Host.Outcome State Fault Refusal := .next (scopeIsolated s timeout)
def execHeader (ext : List Byte) (bad : Bool) (s : State) : Host.Outcome State Fault Refusal := .next (loadHeader s ext bad)
def execSignatureVerify (sigExt tableExt : List Byte) (bad : Bool) (s : State) : Host.Outcome State Fault Refusal :=
  .next (signatureVerify s sigExt tableExt bad)
def execChunkVerified (ext : List Byte) (bad : Bool) (s : State) : Host.Outcome State Fault Refusal := .next (chunkVerified s ext bad)
def execLoadTimeout (s : State) : Host.Outcome State Fault Refusal := .next (loadTimeout s)
def execAbort (s : State) : Host.Outcome State Fault Refusal := .next (loadAbort s)
def execOchreFallback (s : State) : Host.Outcome State Fault Refusal := .next (ochreFallback s)
def execRelease (r : Fin 32) (s : State) : Host.Outcome State Fault Refusal := .next (regionRelease s r)
def execSlavePortWord (parallel : Bool) (value : BitVec 32) (rdy : Bool) (s : State) : Host.Outcome State Fault Refusal :=
  .next (slaveWord s parallel value.toNat rdy)
def execSspCsRise (s : State) : Host.Outcome State Fault Refusal := .next (sspCsRise s)

end Sys2Proof.Machine
end

