-- ==== Sys2Proof/Machine/Secure.lean ====
section
/-!
DEFINITION. Security and firmware (chapter 19): the boot record and the hub ROM's boot, the restart of the MC, rollback floors,
slot verification, trial boots, measurements by firmware, attestation, debug grants, and recovery.
-/
namespace Sys2Proof.Machine

/-- The hub answers: it is not held in a device-level reset. -/
def hubUp (s : State) : Bool := !(s.inReset 0 0)

/-! ### The boot record (R457) -/

/-- The contents of one copy of the boot record. -/
structure BootRec where
  seq : Nat
  primary : Nat
  trial : Bool
  tries : Nat
  deriving DecidableEq, Repr

/-- The places of the fields within a copy are a DESIGN CHOICE: SEQ [31:0], PRIMARY [32], TRIAL [33] and TRIES [47:40] of word 0,
and the CRC-32 of words 0-6 in bytes 56-59. -/
def BootRec.bytes (r : BootRec) : List Byte :=
  let body := bytesLE 8 (r.seq % 2 ^ 32 + r.primary % 2 * 2 ^ 32 + b2n r.trial * 2 ^ 33 + r.tries % 256 * 2 ^ 40) ++ List.replicate 48 0#8
  body ++ bytesLE 8 (crc32 body)

/-- Copy `i`, when it is valid. -/
def bootCopy (s : State) (i : Nat) : Option BootRec :=
  let bs := nvRead s (nvBoot + 64 * i) 64
  let w := natAt bs 0 8
  if crc32 (bs.take 56) = natAt bs 56 4 then some ⟨bits w 0 32, bit w 32, decide (bit w 33 = 1), bits w 40 8⟩ else none

/-- The copy that holds: the valid one with the higher SEQ in serial-number arithmetic. -/
def bootRecord (s : State) : Option (Nat × BootRec) :=
  match bootCopy s 0, bootCopy s 1 with
  | some a, some b => if genPassed b.seq a.seq then some (1, b) else some (0, a)
  | some a, none => some (0, a)
  | none, some b => some (1, b)
  | none, none => none

/-- The next record is written over the copy that does not hold. -/
def writeBoot (s : State) (primary : Nat) (trial : Bool) (tries : Nat) : State :=
  match bootRecord s with
  | some (i, r) => nvWrite s (nvBoot + 64 * (1 - i)) (BootRec.bytes ⟨r.seq + 1, primary, trial, tries⟩)
  | none => nvWrite s nvBoot (BootRec.bytes ⟨1, primary, trial, tries⟩)

/-! ### The hub ROM (R455) -/

/-- The trim copy in force, or zeros for the defaults. -/
def trimsInForce (s : State) : List Byte :=
  match s.rd F.RST_TRIM_STATE 0 with
  | 1 => padTo 4096 s.sec.trim
  | 2 => nvRead s nvTrims 4096
  | _ => List.replicate 4096 0#8

/-- Step 1: the watchdog and the measurements. -/
def romBegin (s : State) (mcOnly : Bool) : State :=
  let s := (s.wr F.PAC_WDOG_PERIOD_MS 0 10000).wr F.PAC_WDOG_LEFT_US 0 10000000
  if mcOnly then clearM (clearM s 1) 7
  else
    let s := (List.range 8).foldl clearM s
    extendM (extendM s 0 Config.romDigest) 3 (shake256 (trimsInForce s))

/-- Step 2: the slot, whether it starts as a trial, and TRIES (R457). -/
def romChoose (s : State) : State × Nat × Bool × Nat :=
  match bootRecord s with
  | none => (s, 0, false, 0)
  | some (_, r) =>
    if r.trial then
      let t := Nat.min 255 (r.tries + 1)
      if 3 < t then ((writeBoot s (1 - r.primary) false t).wr F.SEC_BOOT_REVERTED 0 1 |>.owe 0x31000002 4, 1 - r.primary, false, t)
      else (writeBoot s r.primary true t, r.primary, true, t)
    else (s, r.primary, false, r.tries)

/-- Step 4: the firmware of slot `k` starts. -/
def romStart (s : State) (k : Nat) (trial : Bool) (tries : Nat) : State :=
  let s := extendM s 1 (nvImageDigest s (nvSlot k))
  let s := ((s.wr F.SEC_BOOT_SLOT 0 k).wr F.SEC_BOOT_TRIAL 0 (b2n trial)).wr F.SEC_BOOT_TRIES 0 tries
  let s := s.wr F.SEC_BOOT_VERSION 0 (headerOfBytes (nvRead s (nvSlot k) 4096)).version
  { s with pwr := { s.pwr with mc := true } }

/-- HUB_ROM_BOOT: after a device-level reset, or with `mcOnly` after an MC restart. -/
def romBoot (s : State) (mcOnly : Bool) : State :=
  let c := romChoose (romBegin s mcOnly)
  let s := c.1
  let k := c.2.1
  if nvImageStep s (nvSlot k) 6 = 0 then romStart s k c.2.2.1 c.2.2.2
  else if nvImageStep s (nvSlot (1 - k)) 6 = 0 then (romStart s (1 - k) false c.2.2.2).wr F.SEC_BOOT_FALLBACK 0 1 |>.owe 0x31000001 4
  else (s.setSec { s.sec with rcv := ⟨[], none, [], 0⟩ }).wr F.SEC_STATUS_RECOVERY 0 1

/-- The MC is restarted (R427): what the firmware held in its private memory is lost. -/
def mcRestart (s : State) : State :=
  if s.inReset 0 0 then s
  else
    let s := { s with pwr := { s.pwr with mc := false },
                      dict := { s.dict with unlock := [], objs := [], log := [], raised := [], exec := none, asked := [], sums := [] } }
    let s := ((s.bump C.RST_MC_CNT 0 1).wr F.RST_CAUSE_MC_ONLY 0 1).wr F.SEC_STATUS_RECOVERY 0 0 |>.owe 0x22000020 4
    romBoot s true

/-! ### Rollback floors (R453, R454) -/

def fwVersion (s : State) : Nat := s.rd F.SEC_BOOT_VERSION 0
def confVersion (s : State) (k : Nat) : Nat := Tab.get 0 s.conf.versions k

/-- R454: a new floor that is refused. -/
def floorRefused (s : State) (c f : Nat) : Bool :=
  decide (f ≤ floorOf s c) || s.on F.CFG_STATUS_BUSY 0 ||
  (match c with
   | 0 => decide (fwVersion s < f)
   | 1 => decide (confVersion s 32 < f ∨ confVersion s 33 < f ∨ (headerOfBytes (nvRead s nvOchre 4096)).version < f)
   | _ => (List.range 32).any (fun r => decide (s.rd F.CFG_REGION_STATE r = 1 ∧ confVersion s r < f)))

/-- ROLLBACK_GO: with the counter and floor that SEC_ROLLBACK holds. A GO while bits are being blown is ignored. -/
def rollbackGo (s : State) : State :=
  if s.inReset 0 0 || s.sec.blowing.isSome then s
  else
    let c := s.rd F.SEC_ROLLBACK_CTR 0
    let f := s.rd F.SEC_ROLLBACK_FLOOR 0
    if floorRefused s c f then s.wr F.SEC_STATUS_RB_REFUSED 0 1
    else (s.setSec { s.sec with blowing := some (c, Nat.min f 128) }).wr F.SEC_ROLLBACK_GO 0 1

/-- FLOOR_BLOWN. -/
def floorBlown (s : State) : State :=
  match s.sec.blowing with
  | none => s
  | some (c, f) => ((s.setSec { s.sec with blowing := none, floors := Tab.set 0 s.sec.floors c f }).wr F.SEC_ROLLBACK_GO 0 0).owe 0x31000004 4

/-- A reset while bits are blown leaves the floor at the bits already blown: a value between the old floor and the new one that
the spec leaves to time. -/
def cutBlowing (s : State) : State :=
  match s.sec.blowing with
  | none => s
  | some (c, f) =>
    let v := s.fresh
    let old := floorOf s c
    v.2.setSec { v.2.sec with blowing := none, floors := Tab.set 0 v.2.sec.floors c (old + v.1 % (f - old + 1)) }

/-! ### Verification of a slot, trial boots (R458) -/

/-- SEC_VERIFY_GO: a GO while a verification runs is ignored. -/
def verifyGo (s : State) : State :=
  if s.inReset 0 0 || s.sec.checking.isSome then s else s.setSec { s.sec with checking := some (s.rd F.SEC_VERIFY_SLOT 0) }

/-- An event of the security block that EVT_EN lets signal. -/
def secEvent (s : State) (f : Fld) : State := if s.on F.SEC_CTRL_EVT_EN 0 then s.signalMC f 0 else s

/-- VERIFY_DONE. -/
def verifyDone (s : State) : State :=
  match s.sec.checking with
  | none => s
  | some k =>
    let n := nvImageStep s (nvSlot k) 6
    let ok := decide (n = 0)
    let s := s.setSec { s.sec with checking := none, passed := Tab.set false s.sec.passed k ok }
    let s := ((s.wr F.SEC_VERIFY_PASS 0 (b2n ok)).wr F.SEC_VERIFY_STEP 0 n).bump C.SEC_VERIFY_CNT 0 1
    secEvent (if ok then s else s.bump C.SEC_VERIFY_FAIL_CNT 0 1) F.SEC_VERIFY_PASS

/-- SWITCH. -/
def bootSwitch (s : State) : State :=
  let k := 1 - runningSlot s
  if s.inReset 0 0 then s
  else if Tab.get false s.sec.passed k then writeBoot s k true 0
  else s.wr F.SEC_STATUS_SLOT_REFUSED 0 1

/-- CONFIRM: only from a firmware that was started as a trial. -/
def bootConfirm (s : State) : State :=
  if !(s.inReset 0 0) && s.on F.SEC_BOOT_TRIAL 0 then writeBoot s (runningSlot s) false (s.rd F.SEC_BOOT_TRIES 0) else s

/-! ### Measurement by firmware (R456) -/

/-- SEC_EXTEND: eight writes form one digest. -/
def secExtend (s : State) (v : Nat) : State :=
  if s.inReset 0 0 then s
  else
    let ws := s.sec.extend ++ [v]
    if ws.length < 8 then s.setSec { s.sec with extend := ws }
    else extendM (s.setSec { s.sec with extend := [] }) 7 (ws.flatMap (fun w => bytesLE 8 w))

/-! ### Attestation (R461) -/

def revisionCode : Nat := Config.majorStepping % 256 * 2 ^ 16 + Config.minorStepping % 256

/-- SEC_STATUS bits [31:0]. -/
def secStatusWord (s : State) : Nat :=
  b2n s.sec.owner + s.sec.revoked % 16 * 2 + s.rd F.SEC_STATUS_DBG 0 * 2 ^ 5 + s.rd F.SEC_STATUS_RECOVERY 0 * 2 ^ 8 +
  s.rd F.SEC_STATUS_RB_REFUSED 0 * 2 ^ 16 + s.rd F.SEC_STATUS_SLOT_REFUSED 0 * 2 ^ 17 + s.rd F.SEC_STATUS_DBG_FAIL 0 * 2 ^ 18

def nonceBytes (s : State) (f : Fld) : List Byte := (List.range 4).flatMap (fun i => bytesLE 8 (s.rd f i))

/-- Bytes 0x000-0xA7F of a report. -/
def reportBody (s : State) : List Byte :=
  let head := bytesLE 8 magicATT ++ bytesLE 8 Config.deviceSerial ++ bytesLE 4 revisionCode ++ bytesLE 4 (secStatusWord s) ++
    nonceBytes s F.SEC_ATT_NONCE_DATA ++ bytesLE 8 s.trk.ts ++
    bytesLE 8 (floorOf s 0 % 256 + floorOf s 1 % 256 * 2 ^ 8 + floorOf s 2 % 256 * 2 ^ 16 + runningSlot s * 2 ^ 32) ++ bytesLE 8 (fwVersion s)
  padTo 0x80 head ++ (List.range 8).flatMap (measure s) ++ (List.range 32).flatMap (fun r => Tab.get noDigest s.conf.digests r)

/-- The 8 KiB report: the body and the device's two signatures over its digest in context "TGZ-ATT". -/
def attReport (s : State) : List Byte :=
  let body := reportBody s
  let msg := ctxAtt ++ shake256 body
  let ed := padTo 128 ((Config.deviceSign 0 msg).take 114)
  padTo 8192 (body ++ ed ++ (Config.deviceSign 1 msg).take 4627)

/-- SEC_ATT_GO: a GO while a report is being built is ignored. -/
def attGo (s : State) : State :=
  if s.inReset 0 0 || s.sec.report.isSome then s
  else s.setSec { s.sec with report := some (s.rd F.SEC_ATT_DA 0, attReport s) }

/-- REPORT_WRITTEN. -/
def reportWritten (s : State) (ecc : List Nat) : State :=
  match s.sec.report with
  | none => s
  | some (da, bs) =>
    let s := (memWrite (s.setSec { s.sec with report := none }) da bs ⟨[], ecc, false⟩).1
    secEvent (s.bump C.SEC_ATT_CNT 0 1) F.SEC_ATT_CNT_COUNT

/-! ### Debug grants (R462) -/

/-- CHAL: the random source draws four words. -/
def dbgChallenge (s : State) : State :=
  if s.inReset 0 0 then s
  else
    let s := (List.range 4).foldl (fun s i => let v := s.fresh; v.2.wr F.SEC_DBG_NONCE_DATA i v.1) s
    s.setSec { s.sec with nonce := true }

/-- The token's fields: serial in bytes 0-7, nonce in 8-39, scope in byte 40, and the signature block of R450 from byte 64 (their
places are a DESIGN CHOICE). Its signature covers the first 64 bytes. -/
def tokenGrants (s : State) (t : List Byte) : Bool :=
  let scope := natAt t 40 1
  let slots := if scope = 4 then [0, 1, 2, 3] else [0, 1]
  s.sec.nonce && decide (natAt t 0 8 = Config.deviceSerial % 2 ^ 64) && decide ((t.drop 8).take 32 = nonceBytes s F.SEC_DBG_NONCE_DATA) &&
  decide (0 < scope ∧ scope < 8) && decide (hybridStep s (t.drop 64) (shake256 (t.take 64)) ctxDbg slots = 0)

/-- SEC_DBG_GO: the token at DA; the nonce serves this one GO. -/
def dbgGo (s : State) (ecc : List Nat) : State :=
  if s.inReset 0 0 then s
  else
    let r := memRead s (s.rd F.SEC_DBG_DA 0 * 256) (64 + 8192) ⟨[], ecc, false⟩
    let good := match r.2 with | some t => tokenGrants r.1 t | none => false
    let s := r.1.setSec { r.1.sec with nonce := false }
    match r.2 with
    | some t =>
      if good then
        secEvent (extendM ((s.owe 0x31000003 4).wr F.SEC_STATUS_DBG 0 (s.rd F.SEC_STATUS_DBG 0 ||| natAt t 40 1)) 6 (shake256 (t.take 64))) F.SEC_STATUS_DBG
      else secEvent (s.wr F.SEC_STATUS_DBG_FAIL 0 1) F.SEC_STATUS_DBG_FAIL
    | none => secEvent (s.wr F.SEC_STATUS_DBG_FAIL 0 1) F.SEC_STATUS_DBG_FAIL

/-! ### Recovery (R459) -/

def recoveryBuffer (s : State) : List Byte := (List.range 8192).flatMap (fun i => bytesLE 8 (s.rd F.SEC_RCV_BUF_DATA i))

/-- The leading bytes of the image, up to its stream, once they are complete: checked as the ROM checks a slot. -/
def recoveryHead (s : State) (head : List Byte) : State :=
  let h := headerOfBytes head
  let again := s.setSec { s.sec with rcv := ⟨[], none, [], 0⟩ }
  if head.length < 4096 ∨ head.length < h.strOff then s.setSec { s.sec with rcv := ⟨head, none, [], 0⟩ }
  else
    let table := (head.drop h.digOff).take (64 * h.chunks)
    if formatWrong head || identWrong head || decide (h.part ≠ 6) then again
    else if imageStep s (head.take 4096) ((head.drop h.sigOff).take 8192) table 6 h.version ≠ 0 then again
    else
      let s := nvWrite s (nvSlot 0) (head.take h.strOff)
      s.setSec { s.sec with rcv := ⟨[], some h, table, 0⟩ }

/-- NEXT: a part that fails its check is not written, and may be handed over again. -/
def recoveryNext (s : State) : State :=
  if !(s.on F.SEC_STATUS_RECOVERY 0) || s.inReset 0 0 then s
  else
    let r := s.sec.rcv
    match r.hdr with
    | none => recoveryHead s (r.head ++ recoveryBuffer s)
    | some h =>
      let o := h.strOff + r.chunk * 65536
      let bs := (recoveryBuffer s).take (Nat.min 65536 (h.length - o))
      if shake256 bs ≠ (r.table.drop (64 * r.chunk)).take 64 then s
      else
        let s := nvWrite s (nvSlot 0 + o) bs
        let s := s.setSec { s.sec with rcv := { r with chunk := r.chunk + 1 } }
        if r.chunk + 1 < h.chunks then s else mcRestart (writeBoot s 0 true 0)

/-! ### The meanings -/

def execRollbackGo (s : State) : Host.Outcome State Fault Refusal := .next (rollbackGo s)
def execFloorBlown (s : State) : Host.Outcome State Fault Refusal := .next (floorBlown s)
def execSecVerifyGo (s : State) : Host.Outcome State Fault Refusal := .next (verifyGo s)
def execVerifyDone (s : State) : Host.Outcome State Fault Refusal := .next (verifyDone s)
def execSwitchSlot (s : State) : Host.Outcome State Fault Refusal := .next (bootSwitch s)
def execConfirm (s : State) : Host.Outcome State Fault Refusal := .next (bootConfirm s)
def execSecExtend (value : Word) (s : State) : Host.Outcome State Fault Refusal := .next (secExtend s value.toNat)
def execSecAttGo (s : State) : Host.Outcome State Fault Refusal := .next (attGo s)
def execReportWritten (ecc : List Nat) (s : State) : Host.Outcome State Fault Refusal := .next (reportWritten s ecc)
def execChal (s : State) : Host.Outcome State Fault Refusal := .next (dbgChallenge s)
def execSecDbgGo (ecc : List Nat) (s : State) : Host.Outcome State Fault Refusal := .next (dbgGo s ecc)
def execNextPart (s : State) : Host.Outcome State Fault Refusal := .next (recoveryNext s)

end Sys2Proof.Machine
end

