-- ==== Sys2Proof/Machine/Reset.lean ====
section
/-!
DEFINITION. Reset and power domains (chapter 18): what each scope clears and keeps, device-level resets and their release, block
resets, isolation, quarters without power, and the events of the 48 V input.
-/
namespace Sys2Proof.Machine

/-! ### Device-level resets (R426-R428, R433) -/

/-- The fields that a device-level reset keeps: those of the AON domain (R425); over a brown-out only the causes, over a power-on only
LAST_OFF; and live readings of the input. -/
def keptField (scope key : Nat) : Bool :=
  let within := fun (a b : Fld) => decide (a.key ≤ key ∧ key ≤ b.key)
  within F.PWR_STATUS_IN_RANGE F.PWR_STATUS_IN_RANGE || within F.PWR_INPUT_V F.PWR_AVG_MW || within F.PWR_CAUSE_LAST_OFF F.PWR_CAUSE_LAST_OFF ||
  (decide (scope ≤ 1) && within F.RST_CAUSE_SOURCES F.RST_CAUSE_MC_ONLY) ||
  (decide (scope = 0) && (decide (key = F.FAB_BANK_STAT_MV.key) || within F.RST_CTRL_REMOTE_EN F.RST_WRAP_FLAGS || within F.PAC_CTRL_PROG_EN F.PAC_HEAT_STAT_FILT))

/-- Through a reset that keeps their contents, the stacks stand in self-refresh until they are validated (R286). -/
def holdContents (s : State) (pcs : List Nat) : State := pcs.foldl (fun s p => s.wr F.HBM_PC_STATE_STATE p 2) s

/-- What a device-level reset leaves (R427): scope 0 device, 1 brown-out, 2 power-on. CXL devices stand outside the device. -/
def clearedState (s : State) (scope : Nat) : State :=
  let z := State.reset
  let device := decide (scope = 0)
  let t : State := { z with
    regs := Tab.ins (s.regs.filter (fun e => keptField scope (e.1 / 131072))) (F.PWR_STATUS_Q_ON.at 0) 15,
    mem := { z.mem with hbm := if device then s.mem.hbm else [], weak := if device then s.mem.weak else [], trainRec := s.mem.trainRec, cxl := s.mem.cxl },
    lanes := { z.lanes with recs := s.lanes.recs },
    pwr := if device then { s.pwr with held := [], asserted := [], powering := 0, mc := false } else { z.pwr with pinLow := s.pwr.pinLow },
    sec := { z.sec with nv := s.sec.nv, keys := s.sec.keys, floors := s.sec.floors, trim := s.sec.trim, owner := s.sec.owner, revoked := s.sec.revoked },
    pins := { z.pins with fuse := s.pins.fuse, programmed := s.pins.programmed, ref := s.pins.ref, tap := s.pins.tap, scan := s.pins.scan, alert := s.pins.alert },
    rst := [(0, true)], outbox := s.outbox, freeCtr := s.freeCtr, pending := s.pending }
  holdContents t (if device then List.range 256 else [])

/-- For each source whose bit of DRIVE is set the device drives nSYSRST low; bits 0 and 1 always read 1 (R433). -/
def drivesPin (s : State) (src : Nat) : Bool := decide (bit (s.rd F.RST_SRC_CFG_DRIVE 0 ||| 3) src = 1)

/-- A device-level reset begins; inside one already in progress a request of its scope is absorbed and recorded (R428). -/
def deviceReset (s : State) (src scope : Nat) : State :=
  if s.inReset 0 0 then
    let s := if scope = 0 then s else (clearedState s scope).owe (0x22000010 + s.rd F.RST_CAUSE_FIRST 0) 4
    let s := if scope = 1 then s.wr F.PWR_STATUS_BROWNOUT 0 1 else s
    s.setBit F.RST_CAUSE_SOURCES 0 src
  else
    let drive := drivesPin s src
    let s := clearedState (cutBlowing s) scope
    let s := (((s.wr F.RST_CAUSE_SOURCES 0 (2 ^ src)).wr F.RST_CAUSE_FIRST 0 src).wr F.RST_CAUSE_MC_ONLY 0 0).bump C.RST_DEVICE_CNT 0 1
    let s := if scope = 1 then (s.wr F.PWR_STATUS_BROWNOUT 0 1).bump C.PWR_BROWNOUT_CNT 0 1 else s
    let s := s.owe (0x22000010 + src) 4
    if drive then s.emit (.nsysrst src) else s

/-! ### BOOTSEL (R436) and release (R433, R438) -/

/-- Bin of a 12-bit reading: 75 mV each at 50 uA and 1.5 kOhm, 256 codes of 1.2 V full scale. -/
def binOf (code : Nat) : Nat := Nat.min 15 (code / 256)
def binRole (b : Nat) : Nat := if b < 4 then 2 else if b < 7 then 1 else 0
def binFabric (b : Nat) : Nat :=
  match b with
  | 0 => 1 | 1 => 1 | 2 => 4 | 3 => 4 | 4 => 1 | 5 => 1 | 6 => 5 | 7 => 1 | 8 => 1 | 9 => 5 | 10 => 4 | 11 => 2 | 12 => 2 | 13 => 3 | 14 => 3 | _ => 0
def binField (b : Nat) : Bool := [0, 2, 4, 7, 11, 13].contains b

/-- The eight readings choose the bin, the role, the fabric boot source and the field ports. -/
def bootSelect (s : State) (codes : List Nat) : State :=
  let b := binOf (codes.headD 0)
  let same := decide (codes.length = 8) && codes.all (fun c => decide (binOf c = b))
  let bin := if same then b else 15
  let s := ((s.wr F.RST_BOOT_BIN 0 bin).wr F.RST_BOOT_ROLE 0 (binRole bin)).wr F.RST_BOOT_FABRIC_SRC 0 (binFabric bin)
  let s := ((s.wr F.RST_BOOT_FIELD_EN 0 (b2n (binField bin))).wr F.RST_BOOT_AMBIG 0 (b2n !same)).wr F.RST_BOOT_CODE 0 (codes.getLastD 0)
  let s := if same then s else s.owe 0x22000003 4
  (s.wr F.FLD_CTRL_EN 0 (b2n (binField bin))).wr F.KMR_ROLE_ROLE 0 (binRole bin)

/-- TRIM_LOAD (R437): `bad` reads of the fuses fail before one passes; after three the NV copy, then the defaults, on which
firmware declares a fault (R411). -/
def trimLoad (s : State) (bad : Nat) (nvOK : Bool) : State :=
  if bad < 3 then (s.wr F.RST_TRIM_STATE 0 1).wr F.RST_TRIM_TRIES 0 (bad + 1)
  else
    let s := (s.wr F.RST_TRIM_TRIES 0 3).wr F.RST_STATUS_TRIM_FALLBACK 0 1
    if nvOK then (s.wr F.RST_TRIM_STATE 0 2).owe 0x22000001 4
    else ({ s.wr F.RST_TRIM_STATE 0 3 with dict := { s.dict with fault := true } } : State).owe 0x22000002 4

/-- RESET_RELEASE: the device leaves a device-level reset, every block with it, and the hub ROM runs. EXTEST and CLAMP act as BYPASS from
then on (R486). -/
def resetRelease (s : State) (codes : List Nat) (bad : Nat) (nvOK : Bool) : State :=
  if s.inReset 0 0 && s.pwr.aon && !s.pwr.railsOff && !s.pwr.pinLow && s.on F.PWR_STATUS_IN_RANGE 0 then
    let s := trimLoad (bootSelect s codes) bad nvOK
    let s := { s with rst := [], pins := { s.pins with tap := if 3 ≤ s.pins.tap then 0 else s.pins.tap } }
    showSpread (romBoot s false)
  else s

/-! ### Isolation (R434) -/

/-- What waits at the domains of a quarter in reset (R310). -/
def failHeld (s : State) (q : Nat) : State :=
  let l := (s.noc.heldPkts.filter (fun h => decide (h.1 / 32 = q))).map (fun h => h.2)
  if l.isEmpty then s else wakeFail (s.setNoc { s.noc with heldPkts := s.noc.heldPkts.filter (fun h => decide (h.1 / 32 ≠ q)) }) q l

/-! ### Block resets (R427, R429, R430) -/

/-- The quarter whose reset clears a stored field of unit `i`: the blocks of its window (R14) but for its cores and clusters, which
have resets of their own, what images declare (R363) and live readings. Kamrus' device registers and the bands stand in quarter 0. -/
def quarterOfField (key i : Nat) : Option Nat :=
  let within := fun (a b : Fld) => decide (a.key ≤ key ∧ key ≤ b.key)
  if within F.KMR_CTRL_EN F.KMR_WRAP_FLAGS then some (i / 3)
  else if key = F.KMR_SLOT_TABLE_DATA.key then some (i / 12288)
  else if within F.KMR_ROLE_STANDBY F.KMR_POS_TABLE_VALID then some 0
  else if within F.HBM_CTRL_SCRUB_EN F.HBM_WRAP_FLAGS then some i
  else if within F.HBM_PC_STATE_STATE F.HBM_PC_STATE_MARGIN then some (i / 64)
  else if within F.HBM_BAND_MODE F.HBM_BAND_GRAIN then some 0
  else if within F.NOC_CTRL_TRACE_EN F.NOC_PRB_WRAP_FLAGS then some i
  else if within F.NOC_PRB_CTRL_EN F.NOC_PRB_CNT_COUNT then (if i < 256 then some (i / 64) else none)
  else if within F.FAB_CTRL_UE_EVT_EN F.FAB_WRAP_FLAGS then some i
  else if within F.FAB_PLL_CTRL_EN F.FAB_PLL_STAT_LOCK_LOST then some (i / 4)
  else if key = F.FAB_BANK_STAT_HELD.key then some (i / 5)
  else if within F.FAB_PORT_CTRL_EN F.FAB_PORT_STAT_TGT_TO then some (i / 32)
  else if within F.FAB_MARK_CFG_EN F.FAB_MARK_STAT_SKIP then some (i / 16)
  else if within F.SPS_CTRL_START F.SPS_WRAP_FLAGS then some (i / 384)
  else if within F.LNE_CTRL_EN F.LNE_WRAP_FLAGS then (if i < 96 then some (i / 24) else none)
  else none

/-- A Kamrus port is reset (R243): its registers, and the port goes down and trains again. -/
def clearPort (s : State) (p : Nat) : State :=
  let s := s.resetFields F.KMR_CTRL_EN F.KMR_WRAP_FLAGS (fun i => decide (i = p))
  portGoesDown (s.resetFields F.KMR_SLOT_TABLE_DATA F.KMR_SLOT_TABLE_DATA (fun i => decide (i / 4096 = p))) p

def regionsIn (q : Nat) : List Nat := (List.range 8).map (fun r => 8 * q + r)
def clustersIn (q : Nat) : List Nat := (List.range 8).map (fun c => 8 * q + c)

/-- What a reset clears in quarter `q`; its stacks stand in self-refresh (R286). HBM contents, frames, fabric RAM and slice memories stay. -/
def clearQuarter (s : State) (q : Nat) : State :=
  let s := failHeld s q
  let s := (clustersIn q).foldl clearCluster s
  let s := ([3 * q, 3 * q + 1, 3 * q + 2].filter (portActive s)).foldl portGoesDown s
  let s := (regionsIn q).foldl clearRegion s
  let s := { s with regs := s.regs.filter (fun e => decide (quarterOfField (e.1 / 131072) (e.1 % 131072) ≠ some q)) }
  let s := holdContents s ((List.range 64).map (fun p => 64 * q + p))
  let s := s.setKmr { s.kmr with ports := Tab.drop s.kmr.ports (fun p => decide (p / 3 = q)), stalled := Tab.drop s.kmr.stalled (fun k => decide (k / 64 = q)) }
  let s := s.setMem { s.mem with wq := Tab.drop s.mem.wq (fun pc => decide (quarterOfPc pc = q)), postponed := Tab.drop s.mem.postponed (fun k => decide (quarterOfPc (k / 64) = q)),
                                      training := Tab.drop s.mem.training (fun k => decide (k / 2 = q)) }
  let s := s.setLaneState { s.lanes with full := Tab.drop s.lanes.full (fun l => decide (l < 96 ∧ l / 24 = q)),
                                         kept := Tab.drop s.lanes.kept (fun k => decide (k / 4 < 96 ∧ k / 96 = q)) }
  s.setNoc { s.noc with recs := Tab.drop s.noc.recs (fun i => decide (i = q)), gap := Tab.drop s.noc.gap (fun n => decide (quarterOfProbe n = q ∧ n < 256)),
                        sampled := Tab.drop s.noc.sampled (fun n => decide (n < 256 ∧ n / 64 = q)),
                        busyAt := Tab.drop s.noc.busyAt (fun k => decide (k / 32 = q)) }

/-- A block reset asserts: its wrapper closes and it is cleared. Kinds of R446: 1 quarter, 2 cluster, 3 core, 4 region, 5 port. -/
def assertBlock (s : State) (kind i : Nat) : State :=
  match kind with
  | 1 => loadReset ((clearQuarter (failReads (closeWrapper s (unitInQuarter i)) (128 * i) 128) i).setRst 1 i true) (regionsIn i) (clustersIn i)
  | 2 => (clearCluster (loadReset (failReads (closeWrapper s (unitInCluster i)) (16 * i) 16) [] [i]) i).setRst 2 i true
  | 3 => resetCore (failReads (closeWrapper s (unitInCore i)) i 1) i
  | 4 => (clearRegion (closeWrapper s (unitInRegion i)) i).setRst 4 i true
  | _ => (clearPort (closeWrapper s (unitIsKport i)) i).setRst 5 i true

/-- R429. -/
def blockRefused (s : State) (kind i : Nat) : Bool :=
  match kind with
  | 1 => quarterSched s i
  | 2 => clusterSched s i
  | 3 => clusterSched s (i / 16)
  | 4 => (portsOfRegion i).any (realTimePort s)
  | _ => s.on F.KMR_CTRL_SCHED_EN i

def blockCount (kind : Nat) : Nat := match kind with | 1 => 4 | 2 => 32 | 3 => 512 | 4 => 32 | 5 => 12 | _ => 0
def blockKey (kind i : Nat) : Nat := kind * 4096 + i

/-- Quarter `q` is powered off or fenced. -/
def quarterDark (s : State) (q : Nat) : Bool :=
  quarterFenced s q || decide (bit (s.rd F.PWR_QCTRL_OFF 0) q = 1) || decide (bit s.pwr.powering q = 1)

/-- HELD shows the block that KIND and INDEX name; IN_BLOCK that a block reset is asserted. -/
def showBlocks (s : State) : State :=
  let k := blockKey (s.rd F.RST_BLOCK_KIND 0) (s.rd F.RST_BLOCK_INDEX 0)
  (s.wr F.RST_BLOCK_HELD 0 (b2n (Tab.get false s.pwr.held k))).wr F.RST_STATUS_IN_BLOCK 0 (b2n !s.pwr.asserted.isEmpty)

/-- A block inside a block that is in reset: its request is absorbed (R428). -/
def insideReset (s : State) (kind i : Nat) : Bool :=
  match kind with
  | 1 => s.inReset 0 0
  | 2 => s.quarterDown (i / 8)
  | 3 => s.clusterDown (i / 16)
  | 4 => s.quarterDown (i / 8)
  | _ => s.quarterDown (quarterOfPort i)

/-- A request for a block reset (R429, R430). -/
def blockReset (s : State) (kind i : Nat) (hold : Bool) : State :=
  if blockCount kind ≤ i || s.inReset 0 0 || (decide (kind = 1) && quarterDark s i) then s
  else if blockRefused s kind i then (s.wr F.RST_STATUS_BLOCK_REFUSED 0 1).bump C.RST_BLOCK_REFUSED_CNT 0 1
  else if insideReset s kind i then s
  else
    let key := blockKey kind i
    let s := if s.pwr.asserted.contains key then s else (assertBlock s kind i).bump C.RST_BLOCK_CNT 0 1
    let asserted := if s.pwr.asserted.contains key then s.pwr.asserted else s.pwr.asserted ++ [key]
    showBlocks { s with pwr := { s.pwr with held := Tab.set false s.pwr.held key hold, asserted := asserted } }

/-- A configuration load holds the cluster in reset until its END (R365). -/
def loadHolds (s : State) (c : Nat) : Bool :=
  (match s.conf.load with | some l => decide (bit l.scope (32 + c) = 1) | none => false) ||
  (match s.conf.fallback with | some f => decide (bit f.1 (32 + c) = 1) | none => false)

/-- A quarter leaves reset, unless it is held, dark or fenced (R438): its clusters and cores after it, but for those in a reset of
their own. -/
def releaseQuarter (s : State) (q : Nat) : State :=
  if Tab.get false s.pwr.held (blockKey 1 q) || quarterDark s q then s
  else
    let s := s.setRst 1 q false
    (clustersIn q).foldl (fun s c => if s.inReset 2 c || loadHolds s c then s else releaseCluster s c) s

/-- BLOCK_RESET_RELEASE: 1,024 cycles after the assertion, unless the block is held. -/
def blockRelease (s : State) (kind i : Nat) : State :=
  let key := blockKey kind i
  if !(s.pwr.asserted.contains key) || Tab.get false s.pwr.held key || s.inReset 0 0 then s
  else
    let s := { s with pwr := { s.pwr with asserted := s.pwr.asserted.filter (fun k => decide (k ≠ key)) } }
    showBlocks (match kind with
      | 1 => releaseQuarter s i
      | 2 => if loadHolds s i then s else releaseCluster s i
      | 3 => releaseCore s i
      | _ => s.setRst kind i false)

/-! ### Quarters without power (R441, R466, R469) -/

/-- The rails of a quarter fall: it is held in quarter reset, its regions are BLANK and its configuration is lost; its stacks
stand in self-refresh. -/
def quarterFalls (s : State) (q : Nat) : State :=
  let s := assertBlock s 1 q
  let s := blankRegions s (regionsIn q)
  let die := fun (f : Nat) => decide (fDie f = q)
  let s := s.setConf { s.conf with frames := Tab.drop s.conf.frames die, recAt := Tab.drop s.conf.recAt die,
                                   clusters := Tab.drop s.conf.clusters (fun c => decide (c / 8 = q)) }
  s.wr F.PWR_STATUS_Q_ON 0 (setBits (s.rd F.PWR_STATUS_Q_ON 0) q 1 0)

/-- QUARTER_FENCE (R466, R437, R469): a fenced quarter 0 takes the device to FAULT; its bit of TST_FENCE is stored as zero. -/
def fenceQuarter (s : State) (q : Nat) : State :=
  let s := quarterFalls s q
  let s := (List.range 64).foldl (fun s p => s.wr F.HBM_PC_STATE_STATE (64 * q + p) 3) s
  let s := if q = 0 then { s with dict := { s.dict with fault := true } } else s.wr F.TST_FENCE_QUARTER 0 (setBits (s.rd F.TST_FENCE_QUARTER 0) q 1 1)
  let s := (s.bump C.TST_FENCE_CNT 0 1).owe (if q = 0 then 0x32000005 else 0x32000001) q
  if s.on F.TST_CTRL_EVT_EN 0 then s.signalMC F.TST_FENCE_QUARTER 0 else s

/-- R441: a session holds a cluster of the quarter, or a Kamrus port of it has SCHED_EN 1. -/
def quarterInUse (s : State) (q : Nat) : Bool :=
  (clustersIn q).any (fun c => clusterTaken s c || clusterSched s c) || [3 * q, 3 * q + 1, 3 * q + 2].any (s.on F.KMR_CTRL_SCHED_EN)

/-- PWR_QCTRL_WRITE: bits that rise power quarters off, bits that fall power them on; bit 0 is stored as zero. -/
def qctrlWrite (s : State) (v : Nat) : State :=
  if s.inReset 0 0 then s
  else
    let old := s.rd F.PWR_QCTRL_OFF 0
    let new := bits v 0 4 / 2 * 2
    let rise := [1, 2, 3].filter (fun q => decide (bit new q = 1 ∧ bit old q = 0))
    let fall := [1, 2, 3].filter (fun q => decide (bit new q = 0 ∧ bit old q = 1))
    if rise.any (fun q => !(quarterFenced s q) && quarterInUse s q) then s.wr F.PWR_STATUS_Q_REFUSED 0 1
    else
      let s := (rise.filter (fun q => !(quarterFenced s q))).foldl quarterFalls s
      let powering := fall.foldl (fun a q => setBits a q 1 1) (rise.foldl (fun a q => setBits a q 1 0) s.pwr.powering)
      { s.wr F.PWR_QCTRL_OFF 0 new with pwr := { s.pwr with powering := powering } }

/-- QUARTER_POWER_ON, about 0.5 ms later. -/
def quarterPowerOn (s : State) (q : Nat) : State :=
  if bit s.pwr.powering q = 1 ∧ s.inReset 0 0 = false then
    let s := { s with pwr := { s.pwr with powering := setBits s.pwr.powering q 1 0 } }
    if quarterDark s q then s
    else releaseQuarter (s.wr F.PWR_STATUS_Q_ON 0 (setBits (s.rd F.PWR_STATUS_Q_ON 0) q 1 1)) q
  else s

/-! ### The 48 V input (R424-R426) -/

/-- Rails other than AON fall: the device is OFF and holds nothing but the AON domain, with a cause. -/
def railsFall (s : State) (cause : Nat) : State :=
  let t := (clearedState (cutBlowing s) 0).wr F.PWR_CAUSE_LAST_OFF 0 cause
  { t.wr F.PWR_STATUS_Q_ON 0 0 with mem := { t.mem with hbm := [], weak := [] }, pwr := { t.pwr with railsOff := true } }

/-- INPUT_REMOVED: the input falls below 20 V. -/
def inputRemoved (s : State) : State :=
  if s.pwr.aon then
    let s := (clearedState (cutBlowing s) 2).wr F.PWR_CAUSE_LAST_OFF 0 1
    { (s.wr F.PWR_STATUS_Q_ON 0 0).wr F.PWR_STATUS_IN_RANGE 0 0 with pwr := { s.pwr with aon := false, railsOff := true } }
  else s

/-- The power-on sequence begins, with source 0. -/
def powerSequence (s : State) : State :=
  let s := (clearedState s 2).wr F.PWR_STATUS_IN_RANGE 0 1
  let s := (((s.wr F.RST_CAUSE_SOURCES 0 1).wr F.RST_CAUSE_FIRST 0 0).bump C.RST_DEVICE_CNT 0 1).owe 0x22000010 4
  s.emit (.nsysrst 0)

/-- POWER_ON: the input rises past 40 V from below 20 V. `recs` are the lane records that NV holds (lane x 4 + rate, setting). -/
def powerOn (s : State) (recs : List (Nat × Nat)) : State :=
  if s.pwr.aon then s
  else
    let s := powerSequence s
    s.setLaneState { s.lanes with recs := recs.foldl (fun t e => Tab.set none t e.1 (some e.2)) [] }

/-- INPUT_RETURN: after an overvoltage the input is back in the range. -/
def inputReturn (s : State) : State :=
  if s.pwr.aon && s.pwr.railsOff && decide (s.rd F.PWR_CAUSE_LAST_OFF 0 = 2) then powerSequence s else s

/-- NSYSRST: the pin has read low for 1 us, or high again for 1 us. A low also restarts a device that is off after a thermal
shutdown (R443); a low during a reset starts no new one (R433), and is recorded when the device itself does not drive the pin. -/
def nsysrst (s : State) (low : Bool) : State :=
  if !s.pwr.aon then s
  else if !low then { s with pwr := { s.pwr with pinLow := false } }
  else
    let s := { s with pwr := { s.pwr with pinLow := true } }
    if s.pwr.railsOff then
      if s.rd F.PWR_CAUSE_LAST_OFF 0 = 3 then
        let s := { s.wr F.PWR_STATUS_Q_ON 0 15 with pwr := { s.pwr with railsOff := false }, rst := [] }
        deviceReset s 2 0
      else s
    else if s.inReset 0 0 then
      let own := (List.range 9).any (fun k => decide (bit (s.rd F.RST_CAUSE_SOURCES 0) k = 1) && drivesPin s k)
      if own then s else s.setBit F.RST_CAUSE_SOURCES 0 2
    else deviceReset s 2 0

/-- PCIE_PERST_N asserted. -/
def perst (s : State) : State :=
  if !s.pwr.aon || s.pwr.railsOff then s
  else if s.on F.RST_SRC_CFG_PERST_SCOPE 0 then (if s.inReset 0 0 then s else pciePortReset s) else deviceReset s 3 0

/-- HOT_RESET: on a link that is up. -/
def hotReset (s : State) : State :=
  if s.inReset 0 0 || !(s.on F.PCI_STATUS_LINK_UP 0) then s
  else if s.on F.RST_SRC_CFG_HOT_SCOPE 0 then pciePortReset s else deviceReset s 4 0

/-! ### Resets that commands ask for (R431, R432) -/

/-- A reset by KIND of object 0x2201. -/
def resetOfKind (s : State) (kind i src : Nat) (hold : Bool) : State :=
  if kind = 0 then deviceReset s src 0 else if kind = 6 then mcRestart s else blockReset s kind i hold

/-- EXECUTE: the reset that object 0x2201 asked for, once the response is sent. -/
def executeReset (s : State) : State :=
  match s.dict.exec with
  | some (kind, i, hold) => resetOfKind { s with dict := { s.dict with exec := none } } kind i 5 hold
  | none => s

/-- R420: the group manager, the domain manager and node 0 are entitled. -/
def entitled (s : State) (node : Nat) : Bool :=
  decide (node = 0) || decide (s.kmr.manager = some node) || decide (node = s.rd F.KMR_ROLE_DOMAIN 0 ∧ node ≠ 0x3FFF)

/-- REMOTE_RESET (R431): a CONTROL cell of subtype 0x20. -/
def remoteReset (s : State) (p : Nat) (c : Cell) : State :=
  cellArrives s p 5 c (fun s =>
    let w := natAt c.payload 8 8
    let kind := bits w 0 4
    if s.on F.RST_CTRL_REMOTE_EN 0 && entitled s c.src && decide (natAt c.payload 0 1 = 0x20 ∧ kind ≤ 5) then
      resetOfKind s kind (bits w 4 12) 7 (decide (bit w 16 = 1))
    else s.wr F.RST_STATUS_REMOTE_DROP 0 1)

/-! ### The meanings -/

def execPowerOn (recs : List (Nat × Nat)) (s : State) : Host.Outcome State Fault Refusal := .next (powerOn s recs)
def execNsysrst (low : Bool) (s : State) : Host.Outcome State Fault Refusal := .next (nsysrst s low)
def execPciePerstN (s : State) : Host.Outcome State Fault Refusal := .next (perst s)
def execHotReset (s : State) : Host.Outcome State Fault Refusal := .next (hotReset s)
def execResetRelease (codes : List Nat) (bad : Fin 4) (nvOK : Bool) (s : State) : Host.Outcome State Fault Refusal :=
  .next (resetRelease s codes bad nvOK)
def execQuarterReset (q : Fin 4) (hold : Bool) (s : State) : Host.Outcome State Fault Refusal := .next (blockReset s 1 q hold)
def execClusterReset (c : Fin 32) (hold : Bool) (s : State) : Host.Outcome State Fault Refusal := .next (blockReset s 2 c hold)
def execCoreReset (core : Fin 512) (hold : Bool) (s : State) : Host.Outcome State Fault Refusal := .next (blockReset s 3 core hold)
def execFabricRegionReset (r : Fin 32) (hold : Bool) (s : State) : Host.Outcome State Fault Refusal := .next (blockReset s 4 r hold)
def execKamrusPortReset (p : Fin 12) (hold : Bool) (s : State) : Host.Outcome State Fault Refusal := .next (blockReset s 5 p hold)
def execBlockResetRelease (kind : Fin 6) (i : Fin 512) (s : State) : Host.Outcome State Fault Refusal := .next (blockRelease s kind i)
def execPwrQctrlWrite (value : Word) (s : State) : Host.Outcome State Fault Refusal := .next (qctrlWrite s value.toNat)
def execQuarterPowerOn (q : Fin 4) (s : State) : Host.Outcome State Fault Refusal := .next (quarterPowerOn s q)
def execInputReturn (s : State) : Host.Outcome State Fault Refusal := .next (inputReturn s)
def execInputRemoved (s : State) : Host.Outcome State Fault Refusal := .next (inputRemoved s)
def execExecute (s : State) : Host.Outcome State Fault Refusal := .next (executeReset s)
def execRemoteReset (p : Fin 12) (c : Cell) (s : State) : Host.Outcome State Fault Refusal := .next (remoteReset s p c)

end Sys2Proof.Machine
end

