-- ==== Sys2Proof/Machine/Mordant.lean ====
section
/-!
DEFINITION. Mordant (R373-R378): the scan of one group with its repairs, the cover's watchdog, the triplicated control register,
and the log of failed groups.
-/
namespace Sys2Proof.Machine

/-! ### Repair sources (R375) -/

/-- The data that the record at a place holds for a frame, when its CRC and address pass. -/
def recordData (s : State) (f : Nat) (place : Nat × Nat × Nat) : Option (List Byte) :=
  let bs := if place.1 = 1 then nvRead s place.2.1 place.2.2 else hbmBytes s place.2.1 place.2.2
  let w := natAt bs 0 8
  let n := bits w 40 8
  if bits w 0 8 = 1 then
    if crc32 (bs.take 264) = natAt bs 264 4 ∧ frameOfWord w = f then some ((bs.drop 8).take 256) else none
  else if bits w 0 8 = 2 then
    let fs := frameOfWord w :: (List.range (n - 1)).map (fun i => frameOfWord (natAt bs (8 + 8 * i) 8))
    if crc32 (bs.take (8 * n + 256)) = natAt bs (8 * n + 256) 4 ∧ fs.contains f then some ((bs.drop (8 * n)).take 256) else none
  else none

/-- Records one after the other, or the same record. -/
def consecutive : List (Nat × Nat × Nat) → Bool
  | a :: b :: r => (decide (b = a) || decide (b.1 = a.1 ∧ b.2.1 = a.2.1 + a.2.2)) && consecutive (b :: r)
  | _ => true

/-- A CLEAR wrote the frame's region: it is refetched as zeros. -/
def clearedFrame (s : State) (f : Nat) : Bool := match frameRegion f with | some r => s.conf.clr.contains r | none => false

/-- The records of a group, when it has a valid source. -/
def groupSource (s : State) (fs : List Nat) : Option (List (Nat × Nat × Nat)) :=
  let ps := fs.filterMap (fun f => (Tab.get none s.conf.recAt f : Option (Nat × Nat × Nat)))
  if ps.length = fs.length ∧ consecutive ps then some ps else none

/-- The frames of a group as its source gives them, when every record passes. -/
def refetched (s : State) (fs : List Nat) : Option (List (Nat × List Byte)) :=
  if fs.all (clearedFrame s) then some (fs.map (fun f => (f, zeroFrame)))
  else match groupSource s fs with
    | none => none
    | some ps =>
      let ds := (fs.zip ps).map (fun e => (e.1, recordData s e.1 e.2))
      if ds.all (fun e => e.2.isSome) then some (ds.map (fun e => (e.1, e.2.getD zeroFrame))) else none

def hasGroupSource (s : State) (fs : List Nat) : Bool := fs.all (clearedFrame s) || (groupSource s fs).isSome

/-- Frames rewritten with what a source gives. -/
def rewrite (s : State) (ds : List (Nat × List Byte)) : State :=
  ds.foldl (fun s e => frameContents (s.setConf { s.conf with frames := Tab.set zeroFrame s.conf.frames e.1 e.2 }) e.1 e.2) s

/-! ### The scan (R374, R376, R378) -/

/-- The group lies in the scope of a load or of the fallback. -/
def groupLoading (s : State) (g : Nat) : Bool :=
  (match s.conf.load with | some l => groupInScope l.scope l.boot g | none => false) ||
  (match s.conf.fallback with | some f => groupInScope f.1 f.2.1 g | none => false)

/-- The group is marked: it is logged and signalled when it first fails. -/
def markGroup (s : State) (g mark frame : Nat) (tried : Bool) : State :=
  let first := decide (Tab.get 0 s.conf.failed g = 0)
  let s := s.setConf { s.conf with failed := Tab.set 0 s.conf.failed g (if first then mark else Tab.get 0 s.conf.failed g),
                                   mdtLog := if first && decide (s.conf.mdtLog.length < 16) then s.conf.mdtLog ++ [(g, frame, tried)] else s.conf.mdtLog }
  let s := showFailed s
  let die := match groupFrames g with | f :: _ => fDie f | [] => 4
  let s := if first then s.owe 0x23000010 die else s
  if first && s.on F.MDT_CTRL_EVT_EN 0 then s.signalMC F.MDT_STATUS_UE 0 else s

def failGroup (s : State) (g frame : Nat) (tried : Bool) : State :=
  markGroup ((s.wr F.MDT_STATUS_UE 0 1).bump C.MDT_UE_CNT 0 1) g 1 frame tried

/-- What befalls one group: `faults` are frames of it (by place) with a word in error, 1 correctable, 2 not; `mismatch` that its CRC differs
from its signature for bits that no code shows; `sigEcc` that its signature entry cannot be corrected. -/
def checkGroup (s : State) (g : Nat) (faults : List (Nat × Nat)) (mismatch sigEcc : Bool) : State :=
  let fs := groupFrames g
  let single := ((faults.filter (fun e => decide (e.2 = 1 ∧ e.1 < fs.length))).map (fun e => e.1)).eraseDups
  let double := (faults.filter (fun e => decide (e.2 = 2 ∧ e.1 < fs.length))).map (fun e => e.1)
  let repair := s.on F.MDT_CTRL_REPAIR_EN 0
  let s := s.bump C.MDT_GROUP_CNT 0 1
  let s := if repair && !single.isEmpty then (s.bump C.MDT_CORR_CNT 0 single.length).wr F.MDT_STATUS_CORR 0 1 else s
  let badFrame := fs.getD (match double, single with | i :: _, _ => i | [], i :: _ => if repair then 0 else i | [], [] => 0) 0
  let refetch := s.on F.MDT_CTRL_REFETCH_EN 0 && hasGroupSource s fs
  if sigEcc then
    let s := s.wr F.MDT_STATUS_SIG_ECC 0 1
    match (if refetch then refetched s fs else none) with
    | some ds =>
      let s := (rewrite s ds).bump C.MDT_REFETCH_CNT 0 1
      s.setConf { s.conf with sigs := Tab.set 0 s.conf.sigs g (groupCrc s g) }
    | none => markGroup s g 2 badFrame refetch
  else if Tab.get 0 s.conf.failed g = 2 then s
  else if double.isEmpty && (repair || single.isEmpty) && !mismatch && decide (groupCrc s g = Tab.get 0 s.conf.sigs g) then s
  else if refetch then
    match refetched s fs with
    | some ds =>
      let s := (rewrite s ds).bump C.MDT_REFETCH_CNT 0 1
      if groupCrc s g = Tab.get 0 s.conf.sigs g then s else failGroup s g badFrame true
    | none => failGroup s g badFrame true
  else failGroup s g badFrame false

/-- GROUP_CHECK: the group at MDT_POS, and the scan goes on; `coverUs` is the time of a cover that ends here. -/
def groupCheck (s : State) (faults : List (Nat × Nat)) (mismatch sigEcc : Bool) (coverUs : Nat) : State :=
  if s.inReset 0 0 then s
  else if !(s.on F.MDT_CTRL_EN 0) then s.wr F.MDT_STATUS_RUNNING 0 0
  else
    let g := s.rd F.MDT_POS_GROUP 0
    let s := (if groupLoading s g then s else checkGroup s g faults mismatch sigEcc).wr F.MDT_STATUS_RUNNING 0 1
    if g + 1 < 14328 then s.wr F.MDT_POS_GROUP 0 (g + 1)
    else ((s.wr F.MDT_POS_GROUP 0 0).wr F.MDT_POS_COVER_US 0 coverUs).bump C.MDT_COVER_CNT 0 1

/-! ### The Mordant heat (R377) -/

/-- MORDANT_RESET: the scan restarts at group 0. -/
def mordantReset (s : State) : State := ((s.wr F.MDT_POS_GROUP 0 0).wr F.MDT_STATUS_RUNNING 0 0).bump C.MDT_RESET_CNT 0 1 |>.owe 0x23000011 4

/-- MORDANT_WATCHDOG: a cover has not ended within WDOG ms. -/
def mordantWatchdog (s : State) : State :=
  if s.inReset 0 0 || !(s.on F.MDT_CTRL_EN 0) then s else mordantReset (fireHeat (s.wr F.MDT_STATUS_WDOG 0 1) 14)

/-- The value on which two copies agree, or the Reset value. -/
def majority (a b c d : Nat) : Nat := if a = b ∨ a = c then a else if b = c then b else d

/-- TMR_MISMATCH: the three copies of MDT_CTRL as they read, not all alike. -/
def tmrMismatch (s : State) (a b c : Nat) : State :=
  if s.inReset 0 0 || decide (a = b ∧ b = c) then s
  else
    let put := fun (s : State) (f : Fld) => s.wr f 0 (majority (bits a f.lo f.width) (bits b f.lo f.width) (bits c f.lo f.width) f.reset)
    let s := [F.MDT_CTRL_EN, F.MDT_CTRL_REPAIR_EN, F.MDT_CTRL_REFETCH_EN, F.MDT_CTRL_EVT_EN, F.MDT_CTRL_WDOG].foldl put s
    mordantReset (fireHeat (s.wr F.MDT_STATUS_TMR_MISMATCH 0 1) 14)

/-- The oldest record of the log as MDT_LOG shows it; 0 when the log is empty. -/
def mdtLogWord (s : State) : Nat :=
  match s.conf.mdtLog with
  | (g, f, t) :: _ => g % 2 ^ 14 + f % 2 ^ 27 * 2 ^ 14 + b2n t * 2 ^ 41 + 2 ^ 42
  | [] => 0

/-- MDT_LOG_POP: a 64-bit read. -/
def mdtLogPop (s : State) : State :=
  (s.setConf { s.conf with mdtLog := s.conf.mdtLog.drop 1 }).emit (.data (mdtLogWord s))

/-! ### The meanings -/

def execGroupCheck (faults : List (Nat × Nat)) (mismatch sigEcc : Bool) (coverUs : Nat) (s : State) : Host.Outcome State Fault Refusal :=
  .next (groupCheck s faults mismatch sigEcc coverUs)
def execMordantWatchdog (s : State) : Host.Outcome State Fault Refusal := .next (mordantWatchdog s)
def execTmrMismatch (a b c : BitVec 16) (s : State) : Host.Outcome State Fault Refusal := .next (tmrMismatch s a.toNat b.toNat c.toNat)
def execMdtLogPop (s : State) : Host.Outcome State Fault Refusal := .next (mdtLogPop s)

end Sys2Proof.Machine
end

