-- ==== Sys2Proof/Machine/Pacer.lean ====
section
/-!
DEFINITION. The Pacer (R439-R446): samples, heats, ceilings, trips, the watchdog, and reads of its logs and peaks.
-/
namespace Sys2Proof.Machine

def State.setPwr (s : State) (p : Pwr) : State := { s with pwr := p }

/-! ### Samples (R439) -/

/-- One sample of input power: the latest 1,000 are kept, and the energy counted in mJ. -/
def takePower (s : State) (v i mw : Nat) : State :=
  let l := (mw :: s.pwr.samples).take 1000
  let avg := l.sum / l.length
  let e := s.pwr.energy + mw
  let s := s.setPwr { s.pwr with samples := l, energy := e % 1000000 }
  let s := ((s.wr F.PWR_INPUT_V 0 v).wr F.PWR_INPUT_I 0 i).wr F.PWR_INPUT_MW 0 mw
  let s := (s.wr F.PWR_AVG_MW 0 avg).bump C.PWR_ENERGY_CNT 0 (e / 1000000)
  s.wr F.PWR_AVG_PEAK 0 (Nat.max avg (s.rd F.PWR_AVG_PEAK 0))

/-- A sample of temperature sensor `i`; MAX is the highest since it was read. -/
def takeTemp (s : State) (i : Nat) (x : Int) : State :=
  let old := sext 16 (s.rd F.PAC_TEMP_MAX i)
  let top := if Tab.get false s.pwr.seen (512 + i) ∧ x < old then old else x
  ((s.wr F.PAC_TEMP_T i (wrapInt 16 x)).wr F.PAC_TEMP_MAX i (wrapInt 16 top)).setPwr { s.pwr with seen := Tab.set false s.pwr.seen (512 + i) true }

def takeVolt (s : State) (i mv : Nat) : State :=
  if i < 20 then setBankMV s i mv
  else
    let s := s.wr F.PAC_VMON_MV i mv
    if i = 44 then s.wr F.PWR_STATUS_IN_RANGE 0 (b2n (decide (40000 ≤ mv ∧ mv ≤ 60000))) else s

def takeAin (s : State) (i code : Nat) : State := if bit (s.rd F.PAC_CTRL_AIN_EN 0) i = 1 then s.wr F.PAC_AIN_CODE i code else s

/-- The sensors of a die: 14 to a quarter, eight in the hub. -/
def dieSensors (d : Nat) : List Nat := if d < 4 then (List.range 14).map (fun i => 14 * d + i) else (List.range 8).map (fun i => 56 + i)
def tempOf (s : State) (i : Nat) : Int := sext 16 (s.rd F.PAC_TEMP_T i)
def dieMax (s : State) (d : Nat) : Int := ((dieSensors d).map (tempOf s)).foldl max (-32768)

/-! ### Heats (R440, R443) -/

/-- Source, index, shift, operation (1 below), threshold, hysteresis, persistence. -/
structure HeatCfg where
  src : Nat
  index : Nat
  shift : Nat
  below : Bool
  th : Int
  hys : Int
  persist : Nat

/-- What the fixed heats compare (R443), in mW, 1/16 degree and mV; heats 10 and 13 are kept per sensor and per monitor, and heats 14
and 15 fire by events of their own. POWER_HARD releases below 1,600 W, as the chapter's example says. -/
def fixedHeat (h : Nat) : HeatCfg :=
  match h with
  | 0 => ⟨5, 0, 0, false, 1700000, 100000, 1⟩
  | 1 => ⟨5, 0, 0, false, 1745000, 145000, 1⟩
  | 10 => ⟨1, 0, 0, false, 2000, 0, 2⟩
  | 11 => ⟨2, 44, 0, true, 37999, 0, 3⟩
  | 12 => ⟨2, 44, 0, false, 62001, 0, 3⟩
  | 13 => ⟨2, 0, 0, false, 0, 0, 3⟩
  | n => if n < 6 then ⟨6, n - 2, 0, false, 1680, 80, 1⟩ else if n < 10 then ⟨6, n - 6, 0, false, 1760, 160, 1⟩ else ⟨0, 0, 0, false, 0, 0, 1⟩

/-- What PAC_HEAT_ACT of a fixed heat shows beside SIG (R443): the soft heats apply ceiling 4, to every cluster or to a quarter's; the
others have actions that no field names, and show the ceiling 16. -/
def fixedAct (h : Nat) : Nat :=
  let soft := fun (mask : Nat) => 2 + 4 * 2 ^ 4 + mask * 2 ^ 16
  if h = 0 then soft 0xFFFFFFFF else if 2 ≤ h ∧ h < 6 then soft (0xFF * 2 ^ (8 * (h - 2))) else 16 * 2 ^ 4

def heatCfg (s : State) (h : Nat) : HeatCfg :=
  if h < 16 then fixedHeat h
  else ⟨s.rd F.PAC_HEAT_CFG_SRC h, s.rd F.PAC_HEAT_CFG_INDEX h, s.rd F.PAC_HEAT_CFG_SHIFT h, s.on F.PAC_HEAT_CFG_OP h,
        sext 32 (s.rd F.PAC_HEAT_TH_TH h), (s.rd F.PAC_HEAT_TH_HYS h : Nat), s.rd F.PAC_HEAT_CFG_PERSIST h⟩

def heatEvaluated (s : State) (h : Nat) : Bool := decide (h < 16) || (s.on F.PAC_HEAT_CFG_EN h && s.on F.PAC_CTRL_PROG_EN 0)

/-- A heat fires with its place among the sensors or monitors: its actions are due. -/
def heatDue (s : State) (h idx : Nat) : State :=
  let s := fireHeat s h
  s.setPwr { s.pwr with due := s.pwr.due ++ [h + 256 * idx] }

/-- The filter and the condition of R440 at one new sample; `key` is the heat, or the sensor or monitor of heats 10 and 13. -/
def heatSample (s : State) (h key idx : Nat) (c : HeatCfg) (x : Int) : State :=
  let first := !(Tab.get false s.pwr.seen key)
  let f0 := if first then x else Tab.get 0 s.pwr.filt key
  let f := f0 + (x - f0) / 2 ^ c.shift
  let hit := if c.below then decide (f ≤ c.th) else decide (c.th ≤ f)
  let off := if c.below then decide (c.th + c.hys < f) else decide (f < c.th - c.hys)
  let active := Tab.get false s.pwr.seen (1024 + key)
  let n := if !active && hit then Tab.get 0 s.pwr.count key + 1 else 0
  let fire := decide (c.persist ≤ n)
  let now := (active || fire) && !off
  let seen := Tab.set false (Tab.set false s.pwr.seen key true) (1024 + key) now
  let s := s.setPwr { s.pwr with filt := Tab.set 0 s.pwr.filt key f, count := Tab.set 0 s.pwr.count key (if fire then 0 else n), seen := seen }
  let s := s.wr F.PAC_HEAT_STAT_FILT h (wrapInt 32 f)
  let s := if fire then heatDue s h idx else s
  if (active || fire) && off then pacLog s h 1 0 0 else s

/-- ACTIVE of a heat: of any of its sensors or monitors for heats 10 and 13. -/
def showActive (s : State) (h : Nat) : State :=
  let keys := if h = 10 then (List.range 64).map (fun i => 256 + i) else if h = 13 then (List.range 48).map (fun i => 320 + i) else [h]
  s.wr F.PAC_HEAT_STAT_ACTIVE h (b2n (keys.any (fun k => Tab.get false s.pwr.seen (1024 + k))))

/-- The rail of a monitor is up and has a trimmed value to keep (R437). -/
def railWatched (s : State) (i : Nat) : Bool :=
  !s.pwr.railsOff && ((decide (20 ≤ i ∧ i < 36) && decide (bit (s.rd F.PWR_STATUS_Q_ON 0) ((i - 20) / 4) = 1)) || decide (i = 46 ∨ i = 47))

/-- How far a rail lies outside 8 % of its trimmed value, in 1/100 mV, above 0 when it does. -/
def railExcess (i mv : Nat) : Int := max ((mv * 100 : Nat) - (Config.railMV i * 108 : Nat) : Int) ((Config.railMV i * 92 : Nat) - (mv * 100 : Nat) : Int)

/-- The new samples of a tick. -/
structure Tick where
  v : Nat
  i : Nat
  mw : Nat
  temps : List (Nat × Int)
  volts : List (Nat × Nat)
  ains : List (Nat × Nat)

/-- The new sample that a source gives in a tick, if any. -/
def sourceSample (s : State) (t : Tick) (src idx : Nat) : Option Int :=
  match src with
  | 1 => (t.temps.find? (fun e => decide (e.1 = idx))).map (fun e => e.2)
  | 2 => (t.volts.find? (fun e => decide (e.1 = idx))).map (fun e => (e.2 : Int))
  | 3 => if bit (s.rd F.PAC_CTRL_AIN_EN 0) idx = 1 then (t.ains.find? (fun e => decide (e.1 = idx))).map (fun e => (e.2 : Int)) else none
  | 4 => some t.mw
  | 5 => some (s.rd F.PWR_AVG_MW 0 : Nat)
  | 6 => if t.temps.any (fun e => (dieSensors idx).contains e.1) then some (dieMax s idx) else none
  | _ => none

/-- Heat `h` at one tick. -/
def heatTick (t : Tick) (s : State) (h : Nat) : State :=
  if !(heatEvaluated s h) then s
  else
    let s :=
      if h = 10 then t.temps.foldl (fun s e => if e.1 < 64 then heatSample s 10 (256 + e.1) e.1 (fixedHeat 10) e.2 else s) s
      else if h = 13 then
        t.volts.foldl (fun s e => if railWatched s e.1 then heatSample s 13 (320 + e.1) e.1 { fixedHeat 13 with th := 1 } (railExcess e.1 e.2) else s) s
      else if h = 14 ∨ h = 15 then s
      else
        let c := heatCfg s h
        match sourceSample s t c.src c.index with
        | some x => heatSample s h h 0 c x
        | none => s
    if h = 14 ∨ h = 15 then s else showActive s h

/-! ### Ceilings (R441-R443) -/

/-- A scheduled session that is admitted holds the cluster (a fenced cluster is no session's, R468). -/
def sessionSched (s : State) (c : Nat) : Bool := s.admitted.any (fun e => e.2.sched && decide (e.2.st ≠ 3) && decide (bit e.2.clusters c = 1))

def activeHeat (s : State) (h : Nat) : Bool := s.on F.PAC_HEAT_STAT_ACTIVE h

/-- The ceiling that a heat would apply to a cluster. -/
def heatCeil (s : State) (h c : Nat) : Option Nat :=
  if !(activeHeat s h) then none
  else if h = 0 then some 4
  else if 2 ≤ h ∧ h < 6 then (if h - 2 = c / 8 then some 4 else none)
  else if 16 ≤ h ∧ s.on F.PAC_CTRL_PROG_EN 0 ∧ s.on F.PAC_HEAT_ACT_THR h ∧ bit (s.rd F.PAC_HEAT_ACT_CLMASK h) c = 1 then some (s.rd F.PAC_HEAT_ACT_CEIL h)
  else none

/-- In assured mode a ceiling below 16 of a heat from 16 up does not reach a cluster of a scheduled session. -/
def ceilRefused (s : State) (h c : Nat) : Bool :=
  decide (16 ≤ h) && decide (s.rd F.SES_CLOCK_MODE 0 = 0) && sessionSched s c && (match heatCeil s h c with | some k => decide (k < 16) | none => false)

/-- The ceiling in force on a cluster: soft heats pass over clusters of scheduled sessions. -/
def ceilingOf (s : State) (hs : List Nat) (c : Nat) : Nat :=
  hs.foldl (fun a h => match heatCeil s h c with
    | some k => if (decide (h < 16) && sessionSched s c) || ceilRefused s h c then a else Nat.min a k
    | none => a) 16

def showTrip (s : State) : State :=
  let s := s.wr F.PAC_STATUS_TRIP 0 (b2n ((List.range 4).any (tripHolds s)))
  (List.range 32).foldl (fun s c => s.wr F.PAC_CEIL_TRIP c (b2n (tripHolds s (c / 8)))) s

/-- The ceilings of a tick; a refusal counts, is logged and signals when it begins (THROTTLE_REFUSED). -/
def applyCeilings (s : State) : State :=
  let hs := (List.range 256).filter (activeHeat s)
  let refused := hs.flatMap (fun h => ((List.range 32).filter (ceilRefused s h)).map (fun c => h * 32 + c))
  let fresh := refused.filter (fun k => !(s.pwr.refused.contains k))
  let ceils := (List.range 32).map (ceilingOf s hs)
  let s := fresh.foldl (fun s k => throttleRefused (s.wr F.PAC_HEAT_STAT_REFUSED (k / 32) 1) (k / 32) 2 (k % 32) 0) s
  let s := s.setPwr { s.pwr with refused := refused }
  let s := ceils.zipIdx.foldl (fun s e => (s.wr F.PAC_CEIL_CEIL e.2 e.1).wr F.PAC_CEIL_REFUSED e.2 (b2n (refused.any (fun k => decide (k % 32 = e.2))))) s
  showTrip (s.wr F.PAC_STATUS_THROTTLE 0 (b2n (ceils.any (fun k => decide (k < 16)))))

/-- PACER_TICK: the new samples, heats 0 to 255 in order, then the ceilings. What a heat that fires does comes with HEAT_FIRE. -/
def pacerTick (s : State) (t : Tick) : State :=
  if !s.pwr.aon then s
  else
    let s := takePower s t.v t.i t.mw
    let s := t.temps.foldl (fun s e => if e.1 < 64 then takeTemp s e.1 e.2 else s) s
    let s := t.volts.foldl (fun s e => if e.1 < 48 then takeVolt s e.1 e.2 else s) s
    let s := t.ains.foldl (fun s e => if e.1 < 16 then takeAin s e.1 e.2 else s) s
    let s := (List.range 256).foldl (heatTick t) s
    let s := s.wr F.PAC_WDOG_LEFT_US 0 (s.rd F.PAC_WDOG_LEFT_US 0 - 1)
    applyCeilings s

/-! ### What a heat does when it fires (R441, R443) -/

/-- A rail outside its window: of a quarter, which is fenced, or of the hub, which resets the device (R437). -/
def railFault (s : State) (i : Nat) : State :=
  let s := if 20 ≤ i ∧ i < 36 then (fenceQuarter s ((i - 20) / 4)).owe 0x21000003 ((i - 20) / 4) else deviceReset s 8 0
  let s := (s.wr F.PWR_STATUS_RAIL_FAULT 0 1).bump C.PWR_RAIL_FAULT_CNT 0 1
  if s.on F.PWR_CTRL_RAIL_EVT_EN 0 then s.signalMC F.PWR_STATUS_RAIL_FAULT 0 else s

/-- The actions of one firing, of the sensor or monitor `idx` for heats 10 and 13. -/
def heatAction (s : State) (h idx : Nat) : State :=
  if h = 1 then showTrip (s.wr F.PAC_TRIP_POWER 0 1)
  else if 6 ≤ h ∧ h < 10 then showTrip (s.wr F.PAC_TRIP_THERM 0 (setBits (s.rd F.PAC_TRIP_THERM 0) (h - 6) 1 1))
  else if h = 10 then railsFall s 3
  else if h = 11 then deviceReset s 1 1
  else if h = 12 then railsFall s 2
  else if h = 13 then railFault s idx
  else if h = 14 then mordantReset s
  else if 16 ≤ h ∧ s.on F.PAC_HEAT_ACT_RST h then blockReset s (s.rd F.PAC_HEAT_ACT_RKIND h) (s.rd F.PAC_HEAT_ACT_RINDEX h) false
  else s

/-- HEAT_FIRE: the actions of a heat that fired take effect. -/
def heatFire (s : State) (h : Nat) : State :=
  let mine := s.pwr.due.filter (fun k => decide (k % 256 = h))
  let s := s.setPwr { s.pwr with due := s.pwr.due.filter (fun k => decide (k % 256 ≠ h)) }
  mine.foldl (fun s k => heatAction s h (k / 256)) s

/-- PAC_TRIP_WRITE: a trip is released once its heat is not active. -/
def tripWrite (s : State) (v : Nat) : State :=
  let s := if bit v 0 = 1 ∧ activeHeat s 1 = false then s.wr F.PAC_TRIP_POWER 0 0 else s
  showTrip ((List.range 4).foldl (fun s q =>
    if bit v (1 + q) = 1 ∧ activeHeat s (6 + q) = false then s.wr F.PAC_TRIP_THERM 0 (setBits (s.rd F.PAC_TRIP_THERM 0) q 1 0) else s) s)

/-! ### The watchdog (R444) -/

/-- KICK: the period starts again. -/
def kick (s : State) : State := s.wr F.PAC_WDOG_LEFT_US 0 (s.rd F.PAC_WDOG_PERIOD_MS 0 * 1000)

/-- WATCHDOG_WARNING: half the period has passed. -/
def watchdogWarning (s : State) : State :=
  if s.inReset 0 0 then s else (s.wr F.PAC_WDOG_LEFT_US 0 (s.rd F.PAC_WDOG_PERIOD_MS 0 * 500)).flagMC F.PAC_STATUS_WDOG_WARN 0 |>.owe 0x21000004 4

/-- WATCHDOG_EXPIRY: heat 15 fires; the MC restarts, or the device is reset (source 6). -/
def watchdogExpiry (s : State) : State :=
  if s.inReset 0 0 then s
  else
    let s := fireHeat (s.wr F.PAC_WDOG_LEFT_US 0 0) 15
    if s.on F.RST_SRC_CFG_WDOG_SCOPE 0 then deviceReset s 6 0 else mcRestart s

/-! ### Reads (R446) -/

/-- The oldest record as PAC_LOG shows it. -/
def pacLogWord (s : State) : Nat :=
  match s.pwr.log with
  | r :: _ => r.heat % 256 + r.kind % 4 * 2 ^ 8 + r.cluster % 32 * 2 ^ 10 + r.engine % 64 * 2 ^ 15 + 2 ^ 23 + r.t % 2 ^ 40 * 2 ^ 24
  | [] => 0

/-- PAC_LOG_POP: a 64-bit read. -/
def pacLogPop (s : State) : State := (s.setPwr { s.pwr with log := s.pwr.log.drop 1 }).emit (.data (pacLogWord s))

/-- PWR_AVG_READ: the peak is cleared. -/
def pwrAvgRead (s : State) : State := (s.wr F.PWR_AVG_PEAK 0 0).emit (.data (s.rd F.PWR_AVG_MW 0 + s.rd F.PWR_AVG_PEAK 0 * 2 ^ 32))

def clearMax (s : State) (i : Nat) : State :=
  (s.wr F.PAC_TEMP_MAX i 0).setPwr { s.pwr with seen := Tab.set false s.pwr.seen (512 + i) false }

/-- PAC_TEMP_READ. -/
def pacTempRead (s : State) (i : Nat) : State := (clearMax s i).emit (.data (s.rd F.PAC_TEMP_T i + s.rd F.PAC_TEMP_MAX i * 2 ^ 16))

/-! ### The meanings -/

def execPacerTick (v i mw : Nat) (temps : List (Nat × Int)) (volts ains : List (Nat × Nat)) (s : State) : Host.Outcome State Fault Refusal :=
  .next (pacerTick s ⟨v, i, mw, temps, volts, ains⟩)
def execHeatFire (h : Fin 256) (s : State) : Host.Outcome State Fault Refusal := .next (heatFire s h)
def execPacTripWrite (value : Word) (s : State) : Host.Outcome State Fault Refusal := .next (tripWrite s value.toNat)
def execKick (s : State) : Host.Outcome State Fault Refusal := .next (kick s)
def execWatchdogWarning (s : State) : Host.Outcome State Fault Refusal := .next (watchdogWarning s)
def execWatchdogExpiry (s : State) : Host.Outcome State Fault Refusal := .next (watchdogExpiry s)
def execPacLogPop (s : State) : Host.Outcome State Fault Refusal := .next (pacLogPop s)
def execPwrAvgRead (s : State) : Host.Outcome State Fault Refusal := .next (pwrAvgRead s)
def execPacTempRead (i : Fin 64) (s : State) : Host.Outcome State Fault Refusal := .next (pacTempRead s i)

end Sys2Proof.Machine
end

