-- ==== Sys2Proof/Machine/Test.lean ====
section
/-!
DEFINITION. Fences (R466-R469), the cool-down lap (R470-R473) and the test access port (R486).
-/
namespace Sys2Proof.Machine

def State.setPins (s : State) (x : Pins) : State := { s with pins := x }

/-! ### Fences -/

/-- A cluster is fenced by its bit: reset and held so. -/
def fenceCluster (s : State) (c : Nat) : State :=
  let s := (assertBlock s 2 c).wr F.TST_FENCE_CLUSTER 0 (setBits (s.rd F.TST_FENCE_CLUSTER 0) c 1 1)
  let s := (s.bump C.TST_FENCE_CNT 0 1).owe 0x32000002 (c / 8)
  if s.on F.TST_CTRL_EVT_EN 0 then s.signalMC F.TST_FENCE_CLUSTER c else s

/-- A cluster's bit is cleared: it is released, and its configuration must load again (R372). -/
def unfenceCluster (s : State) (c : Nat) : State :=
  let s := (s.wr F.TST_FENCE_CLUSTER 0 (setBits (s.rd F.TST_FENCE_CLUSTER 0) c 1 0)).setConf { s.conf with clusters := Tab.set false s.conf.clusters c false }
  if s.pwr.asserted.contains (blockKey 2 c) || loadHolds s c then s else releaseCluster s c

/-- The bits that a write raises and lowers, among the first `n`. -/
def risen (n old new : Nat) : List Nat := (List.range n).filter (fun k => decide (bit new k = 1 ∧ bit old k = 0))

/-- TST_FENCE_CLUSTER (R468): `m` is the mask written; refused whole while an admitted session holds a cluster it would fence. -/
def fenceClusters (s : State) (m : Nat) : State :=
  let old := s.rd F.TST_FENCE_CLUSTER 0
  if s.inReset 0 0 then s
  else if (risen 32 old m).any (clusterTaken s) then s.wr F.TST_STATUS_FENCE_REFUSED 0 1
  else (risen 32 m old).foldl unfenceCluster ((risen 32 old m).foldl fenceCluster s)

/-- A quarter's bit is cleared: it is to be powered on, and its HBM record validated again. -/
def unfenceQuarter (s : State) (q : Nat) : State :=
  let s := s.wr F.TST_FENCE_QUARTER 0 (setBits (s.rd F.TST_FENCE_QUARTER 0) q 1 0)
  let s := s.resetFields F.HBM_PC_STATE_STATE F.HBM_PC_STATE_STATE (fun p => decide (quarterOfPc p = q))
  { s with pwr := { s.pwr with powering := setBits s.pwr.powering q 1 1 } }

/-- TST_FENCE_QUARTER (R469): bit 0 is stored as zero; refused whole under R441. -/
def fenceQuarters (s : State) (m : Nat) : State :=
  let old := s.rd F.TST_FENCE_QUARTER 0
  let new := bits m 0 4 / 2 * 2
  if s.inReset 0 0 then s
  else if (risen 4 old new).any (quarterInUse s) then s.wr F.TST_STATUS_FENCE_REFUSED 0 1
  else (risen 4 new old).foldl unfenceQuarter ((risen 4 old new).foldl fenceQuarter s)

/-! ### The cool-down lap -/

/-- The record of R473, in bytes: result, failed steps, SEQ, the time of step 1, the three counts of failed links and lanes, FOM and
margin, differing and skipped pins, firmware VERSION. -/
def lapBytes (s : State) (result failed seq ts links fom margin diff skip : Nat) : List Byte :=
  let ws := [result + failed % 256 * 2 ^ 8 + seq % 2 ^ 32 * 2 ^ 32, ts % 2 ^ 48, links, fom % 256 + margin % 256 * 2 ^ 8,
             diff % 1024 + skip % 1024 * 2 ^ 16, fwVersion s, 0]
  let bs := ws.flatMap (bytesLE 8)
  bs ++ bytesLE 8 (crc32 bs)

/-- The record in NV passes its CRC. -/
def lapRecordOK (s : State) : Bool := let bs := nvRead s nvLap 64; decide (crc32 (bs.take 56) = natAt bs 56 4)

/-- R470. -/
def lapRefused (s : State) : Bool :=
  decide (s.admitted ≠ []) || (List.range 12).any (s.on F.KMR_CTRL_SCHED_EN) || s.conf.load.isSome || s.conf.fallback.isSome || s.dict.fault

/-- TST_CDL_GO: the lap starts, and step 1 runs; a GO while one runs or the device is parked starts nothing. -/
def lapStart (s : State) : State :=
  if s.pins.lap || s.inReset 0 0 then s
  else if lapRefused s then s.wr F.TST_STATUS_CDL_REFUSED 0 1
  else
    let seq := if lapRecordOK s then natAt (nvRead s nvLap 64) 4 4 + 1 else 1
    let s := (((s.setPins { s.pins with lap := true }).wr F.TST_CDL_STEP 0 1).wr F.TST_CDL_FAILED 0 0).wr F.TST_CDL_PARKED 0 0
    let s := (List.range 32).foldl (fun s r => setRegion (s.setConf { s.conf with frozen := Tab.set false s.conf.frozen r true }) r 3 noDigest) s
    nvWrite s nvLap (lapBytes s 1 0 seq s.trk.ts 0 0 0 0 0)

/-- Pins whose code differs from its reference; the first lap has none (R472). -/
def pinsDiffer (s : State) (codes : List Nat) : Nat :=
  match s.pins.ref with
  | none => 0
  | some r => ((List.range 960).filter (fun i => decide (codes.getD i 3 ≠ r.getD i 3))).length

/-- What a lap finds: failed steps of 2 to 5 and 7, counts of failed die links, Kamrus and CXL lanes, lowest FOM and margin, and the
code of each user pin. -/
structure LapFound where
  failed : Nat
  links : Nat
  klanes : Nat
  clanes : Nat
  fom : Nat
  margin : Nat
  codes : List Nat
  deriving DecidableEq, Repr

/-- CDL_COMPLETE: the record is written, the device is parked. -/
def lapComplete (s : State) (f : LapFound) : State :=
  if !(s.pins.lap) || s.on F.TST_CDL_PARKED 0 || s.inReset 0 0 then s
  else
    let old := nvRead s nvLap 64
    let diff := pinsDiffer s f.codes
    let skipCxl := s.on F.CXL_TIER_CTRL_EN 0
    let steps := [2, 3, 5, 7].foldl (fun a k => a + bit f.failed k * 2 ^ k) 0 + (if skipCxl then 0 else bit f.failed 4 * 2 ^ 4) + (if 0 < diff then 2 ^ 6 else 0)
    let links := f.links % 256 + f.klanes % 256 * 2 ^ 16 + (if skipCxl then 0 else f.clanes % 256 * 2 ^ 24)
    let skip := ((List.range 960).filter (fun i => decide (f.codes.getD i 3 = 3))).length
    let s := if s.pins.ref.isNone && s.pins.programmed then s.setPins { s.pins with ref := some ((List.range 960).map (fun i => f.codes.getD i 3)) } else s
    let s := nvWrite s nvLap (lapBytes s (if steps = 0 then 2 else 3) steps (natAt old 4 4) (natAt old 8 6) links f.fom f.margin diff skip)
    let s := ((s.wr F.TST_CDL_STEP 0 0).wr F.TST_CDL_FAILED 0 steps).wr F.TST_CDL_PARKED 0 1
    let s := s.bump C.TST_CDL_CNT 0 1
    let s := if steps = 0 then s else s.bump C.TST_CDL_FAIL_CNT 0 1
    let s := [0, 1, 2, 3].foldl (fun s q =>
      let s := assertBlock s 1 q
      showBlocks { s with pwr := { s.pwr with held := Tab.set false s.pwr.held (blockKey 1 q) true } }) s
    if s.on F.TST_CTRL_EVT_EN 0 then s.signalMC F.TST_CDL_PARKED 0 else s

/-! ### User pins (R338, R435, R471) -/

/-- What the device does at a user pin. -/
inductive PinDrive where
  | highZ
  | pullUp
  | pullDown
  | low
  /-- What the design drives. -/
  | design
  deriving DecidableEq, Repr

/-- The reset state that a pin's fuse selects. -/
def fuseState (s : State) (i : Nat) : PinDrive :=
  match Tab.get 0 s.pins.fuse i % 4 with
  | 0 => .highZ
  | 1 => .pullUp
  | 2 => .pullDown
  | _ => .low

/-- The state of user pin `i`, of bank i / 48. Without VCCIO it drives nothing; before the AON domain has read the fuses it stands at high
impedance; in a device-level reset, and until the bank's frames load (a load of them declares its VCCIO, R363), as its fuse says, as the pins
of a fenced quarter do (R466); a held bank and the cool-down lap leave it at high impedance. -/
def pinState (s : State) (i : Nat) : PinDrive :=
  let b := i / 48
  if s.rd F.FAB_BANK_STAT_MV b = 0 ∨ s.pwr.aon = false then .highZ
  else if s.inReset 0 0 || s.pwr.railsOff || quarterDark s (b / 5) || decide (vccioMV (s.rd F.FAB_BANK_CFG_VCCIO b) = 0) then fuseState s i
  else if s.on F.FAB_BANK_STAT_HELD b || s.pins.lap then .highZ
  else .design

/-- What a sample of user pin `i` reads where the board gives the level `ext`: a pin that the device holds low is low, and every input of a
held bank reads 0 (R338). -/
def pinLevel (s : State) (i : Nat) (ext : Bool) : Bool :=
  if s.on F.FAB_BANK_STAT_HELD (i / 48) then false else if pinState s i = .low then false else ext

/-! ### The test access port -/

/-- EXTEST and CLAMP take effect in a device-level reset and in the park. -/
def tapDrives (s : State) : Bool := s.inReset 0 0 || s.on F.TST_CDL_PARKED 0

/-- The test access port takes instruction `n` and shows `out` on its output. -/
def tapTake (s : State) (n : Nat) (out : List Bool) : State := (s.setPins { s.pins with tap := n }).emit (.tdo out)

/-- IDCODE: 0xV984_0B67, the least significant bit first. -/
def idcode : Nat := Config.majorStepping % 16 * 2 ^ 28 + 0x9840B67

def tapIdcode (s : State) : State := tapTake s 1 ((List.range 32).map (fun k => decide (bit idcode k = 1)))
def tapBypass (s : State) : State := tapTake s 0 [false]
/-- The levels that a sample of the boundary scan takes, the user pins first in their order (the order is a DESIGN CHOICE). -/
def tapLevels (s : State) (levels : List Bool) : List Bool := levels.zipIdx.map (fun e => if e.2 < 960 then pinLevel s e.2 e.1 else e.1)

/-- SAMPLE/PRELOAD: the levels of the pins leave through TDO, and `load` becomes the boundary scan. -/
def tapSample (s : State) (levels load : List Bool) : State := tapTake (s.setPins { s.pins with scan := load }) 2 (tapLevels s levels)
def tapExtest (s : State) (levels : List Bool) : State := if tapDrives s then tapTake s 3 levels else tapBypass s
def tapClamp (s : State) : State := if tapDrives s then tapTake s 4 [false] else tapBypass s

/-! ### The meanings -/

def execTstFenceCluster (value : Word) (s : State) : Host.Outcome State Fault Refusal := .next (fenceClusters s (bits value.toNat 0 32))
def execTstFenceQuarter (value : Word) (s : State) : Host.Outcome State Fault Refusal := .next (fenceQuarters s (bits value.toNat 32 4))
def execTstCdlGo (s : State) : Host.Outcome State Fault Refusal := .next (lapStart s)
def execCdlComplete (failed links klanes clanes fom margin : Fin 256) (codes : List Nat) (s : State) : Host.Outcome State Fault Refusal :=
  .next (lapComplete s ⟨failed, links, klanes, clanes, fom, margin, codes⟩)
def execBypass (s : State) : Host.Outcome State Fault Refusal := .next (tapBypass s)
def execIdcode (s : State) : Host.Outcome State Fault Refusal := .next (tapIdcode s)
def execSamplePreload (levels load : List Bool) (s : State) : Host.Outcome State Fault Refusal := .next (tapSample s levels load)
def execExtest (levels : List Bool) (s : State) : Host.Outcome State Fault Refusal := .next (tapExtest s levels)
def execClamp (s : State) : Host.Outcome State Fault Refusal := .next (tapClamp s)

end Sys2Proof.Machine
end

