-- ==== Sys2Proof/Machine/Device.lean ====
section
/-!
DEFINITION. The device as a whole, as firmware reports it: device states (R411), the AL state machine (R412), the error register
and emergencies (R421, R422).
-/
namespace Sys2Proof.Machine

def State.setDict (s : State) (d : Dict) : State := { s with dict := d }

/-- Nothing in the hub answers: the device is in reset or without power. -/
def hubDown (s : State) : Bool := s.inReset 0 0 || !s.pwr.aon || s.pwr.railsOff

/-! ### Device states (R411) -/

/-- A stack, a quarter or a cluster is fenced. -/
def anyFence (s : State) : Bool :=
  (List.range 4).any (fun q => decide (s.rd F.HBM_STATUS_STACK_FAIL q ≠ 0) || quarterFenced s q) || (List.range 32).any (clusterFenced s)

/-- Every quarter that is not fenced reports READY and every cluster that is not fenced is loaded. -/
def deviceReady (s : State) : Bool :=
  (List.range 4).all (fun q => quarterFenced s q || s.on F.HBM_STATUS_READY q) &&
  (List.range 32).all (fun c => clusterFenced s c || Tab.get false s.conf.clusters c)

/-- The device state: 0 OFF, 1 STANDBY, 2 CONFIGURING, 3 READY, 4 RUNNING, 5 DEGRADED, 6 FAULT. -/
def deviceState (s : State) : Nat :=
  if hubDown s then 0
  else if s.dict.fault then 6
  else if !s.conf.hubLoaded then 1
  else if !(deviceReady s) then 2
  else if anyFence s then 5
  else if !(s.admitted.isEmpty) && s.on F.SES_CTRL_EN 0 then 4 else 3

/-! ### The AL state (R412): 1 INIT, 2 PREOP, 4 SAFEOP, 8 OP -/

/-- The highest AL state that a device state allows; 0 for none. -/
def alMax (d : Nat) : Nat := match d with | 0 => 0 | 1 => 1 | 2 => 2 | 6 => 2 | _ => 8

/-- The AL status code of a refusal in a device state. -/
def alCode (d : Nat) : Nat := match d with | 1 => 0x8001 | 2 => 0x8001 | 6 => 0x8002 | _ => 0x0011

/-- The AL state has dropped because the device state no longer allows it. -/
def alDropped (s : State) : Bool :=
  let m := alMax (deviceState s)
  decide (m ≠ 0 ∧ m < s.rd F.FLD_STATUS_AL_STATE 0)

/-- The present AL state. -/
def alState (s : State) : Nat := if alDropped s then alMax (deviceState s) else s.rd F.FLD_STATUS_AL_STATE 0

/-- The AL state becomes `v`; leaving PREOP releases the expert unlocks (R410). -/
def setAL (s : State) (v : Nat) : State :=
  let was := s.rd F.FLD_STATUS_AL_STATE 0
  let s := s.wr F.FLD_STATUS_AL_STATE 0 v
  if was = 2 ∧ v ≠ 2 then s.setDict { s.dict with unlock := [] } else s

/-- The error indication with its code. -/
def alError (s : State) (code : Nat) : State := (s.wr F.FLD_STATUS_AL_ERR 0 1).wr F.FLD_STATUS_AL_CODE 0 code

/-- A drop is stored with its error indication. -/
def settleAL (s : State) : State :=
  if alDropped s then alError (setAL s (alMax (deviceState s))) (alCode (deviceState s)) else s

/-- Why a request for AL state `v` is refused: its status code; none when it is applied. Upwards the states follow one another. -/
def alRefusal (s : State) (v : Nat) : Option Nat :=
  let d := deviceState s
  let a := alState s
  if v ≠ 1 ∧ v ≠ 2 ∧ v ≠ 4 ∧ v ≠ 8 then some 0x0011
  else if alMax d < v then some (alCode d)
  else if a * 2 < v then some 0x0011
  else none

/-- AL_STATE_REQUEST by the MainDevice: `ack` acknowledges an error indication, without which no higher state is entered. -/
def alRequest (s : State) (v : Nat) (ack : Bool) : State :=
  let s := settleAL s
  let s := if ack then (s.wr F.FLD_STATUS_AL_ERR 0 0).wr F.FLD_STATUS_AL_CODE 0 0 else s
  if s.on F.FLD_STATUS_AL_ERR 0 && decide (alState s < v) then s
  else match alRefusal s v with
    | some c => alError s c
    | none => setAL s v

/-! ### Emergencies (R421, R422) -/

/-- A link reports an error. -/
def linkBad (s : State) : Bool :=
  s.on F.PCI_STATUS_LINK_DOWN 0 || s.on F.PCI_STATUS_AER 0 || s.on F.FLD_STATUS_DC_LOST 0 ||
  (List.range 12).any (fun p => s.on F.KMR_STATUS_NO_MODE p || s.on F.KMR_STATUS_LOST p || s.on F.KMR_STATUS_DOWN_EVT p)

/-- The error register 0x1001. -/
def errorReg (s : State) : Nat :=
  b2n (decide (deviceState s = 5 ∨ deviceState s = 6)) + b2n (linkBad s) * 16 + b2n (!((Tab.get [] s.dict.emcy 1).isEmpty)) * 128

/-- ALERT_N is low while bit 0 or bit 7 of the error register is set; in a reset of the hub it stands at high impedance (R485). -/
def showAlert (s : State) : State :=
  let low := !(hubDown s) && (decide (errorReg s % 2 = 1) || decide (128 ≤ errorReg s))
  if low = s.pins.alert then s else ({ s with pins := { s.pins with alert := low } } : State).emit (.alert low)

/-- The 8 bytes of a message: emergency code, error register, event code, byte 7. -/
def emcyMsg (err event byte7 : Nat) : Nat :=
  0xFF00 + event / 2 ^ 24 % 256 + err % 256 * 2 ^ 16 + event % 2 ^ 32 * 2 ^ 24 + byte7 % 256 * 2 ^ 56

/-- A message enters the mailbox queue of 32, or is discarded there and counted; when room returns the discards are told first. -/
def mailboxEmcy (s : State) (m : Nat) : State :=
  let l := Tab.get [] s.dict.emcy 1
  let d := Tab.get 0 s.dict.dropped 1
  let lose := fun (s : State) (n : Nat) =>
    ((s.setDict { s.dict with dropped := Tab.set 0 s.dict.dropped 1 n }).bump C.FLD_EMCY_DROP_CNT 0 1).wr F.FLD_MBX_STAT_EMCY_OVF 0 1
  let put := fun (s : State) (l : List Nat) (n : Nat) =>
    s.setDict { s.dict with emcy := Tab.set [] s.dict.emcy 1 l, dropped := Tab.set 0 s.dict.dropped 1 n }
  if 32 ≤ l.length then lose s (d + 1)
  else if d = 0 then put s (l ++ [m]) 0
  else
    let l := l ++ [emcyMsg (errorReg s) 0x20000003 (Nat.min 255 d)]
    if 32 ≤ l.length then lose (put s l 0) 1 else put s (l ++ [m]) 0

/-- The node that takes this device's emergencies: a worker's manager, a manager's domain manager. -/
def emcyTo (s : State) : Option Nat :=
  if kmrRole s = 0 then s.kmr.manager
  else
    let d := s.rd F.KMR_ROLE_DOMAIN 0
    if d = 0x3FFF ∨ d = s.node then none else some d

/-- A message in a CONTROL cell of subtype 0x12, with its node of origin. -/
def kamrusEmcy (s : State) (m node : Nat) : State :=
  match emcyTo s with
  | some d => sendCell s (controlCell s d (bytesLE 8 0x12 ++ bytesLE 8 m ++ bytesLE 8 node)) none
  | none => s

/-- The log of 0x2010, the newest entry first. -/
def emcyLog (s : State) (m node : Nat) : State := s.setDict { s.dict with log := ((m, node, s.trk.ts % 2 ^ 48) :: s.dict.log).take 32 }

/-- An MSI-X vector of firmware's choice. -/
def raiseMsix (s : State) : State :=
  if s.on F.FLD_MBX_CTRL_IRQ_EN 0 then
    let f := s.fresh
    f.2.emit (.msix (f.1 % 256))
  else s

/-- Events of the blocks: their chapters say what calls for each (R215, R248, R280, R285, R289, R294, R379, R398, R421, R445, R463, R474).
Those of the device itself, block 0x2000, firmware declares. -/
def eventOwed (event : Nat) : Bool := decide (event / 2 ^ 16 ≠ 0x2000)

/-- Firmware may send the event: one of a block when it is owed; of the device's own, that it entered DEGRADED while it is so, and
that it entered FAULT (R411). The count of discards goes with the queue that had room again (R422). -/
def maySend (s : State) (event byte7 : Nat) : Bool :=
  if eventOwed event then s.dict.owed.contains (event, byte7)
  else decide (event = 0x20000002) || (decide (event = 0x20000001) && decide (deviceState s = 5))

/-- EMERGENCY: firmware sends event `event` of block `event / 2^16` on every path. A declared FAULT is the device's (R411). -/
def emergency (s : State) (event byte7 : Nat) : State :=
  if hubDown s || !s.pwr.mc || !(maySend s event byte7) then s
  else
    let s := if eventOwed event then s.setDict { s.dict with owed := s.dict.owed.erase (event, byte7) } else s
    let s := if event = 0x20000002 then s.setDict { s.dict with fault := true } else s
    let m := emcyMsg (errorReg s) event byte7
    let b := event / 2 ^ 16
    let s := emcyLog (s.bump C.FLD_EMCY_CNT 0 1) m s.node
    let s := s.setDict { s.dict with raised := Tab.set 0 s.dict.raised b (Tab.get 0 s.dict.raised b + 1) }
    let s := if s.on F.FLD_CTRL_EN 0 && decide (2 ≤ alState s) then s.emit (.emergency 0 m) else s
    raiseMsix (mailboxEmcy (kamrusEmcy s m s.node) m)

/-- EMERGENCY_CELL: a member's emergency reaches its group manager. -/
def emergencyCell (s : State) (p : Nat) (c : Cell) : State :=
  cellArrives s p 5 c (fun s =>
    let m := natAt c.payload 8 8
    let node := natAt c.payload 16 8 % 2 ^ 14
    if natAt c.payload 0 1 ≠ 0x12 ∨ kmrRole s = 0 ∨ !s.pwr.mc then s else kamrusEmcy (emcyLog s m node) m node)

/-! ### The meanings -/

def execEmergency (event : BitVec 32) (byte7 : Fin 256) (s : State) : Host.Outcome State Fault Refusal := .next (emergency s event.toNat byte7)
def execEmergencyCell (p : Fin 12) (c : Cell) (s : State) : Host.Outcome State Fault Refusal := .next (emergencyCell s p c)
def execAlStateRequest (value : Fin 16) (ack : Bool) (s : State) : Host.Outcome State Fault Refusal :=
  .next (if s.on F.FLD_CTRL_EN 0 && !(hubDown s) then alRequest (s.bump C.FLD_FRAME_CNT 0 1) value ack else s)

end Sys2Proof.Machine
end

