-- ==== Sys2Proof/Machine/Registers.lean ====
section
/-!
DEFINITION. Accesses to the control window (R5-R11, R14): which register an offset names, what a read returns and clears, what a
write stores or asks for, and the accesses of the host through BAR0 and BAR2 (R393).
-/
namespace Sys2Proof.Machine

/-! Every register, in parts. -/

def Reg.part0 : List Reg :=
  [.MXE_CTRL, .MXE_STATUS, .MXE_POS, .MXE_RESUME, .MXE_INSTR_CNT, .MXE_PASS_CNT, .MXE_PROD_CNT, .MXE_SWAP_STALL_CNT, 
   .MXE_FEED_STALL_CNT, .MXE_WRAP, .MXE_LAST_REC, .QNT_CTRL, .QNT_STATUS, .QNT_SLOT_RANGE, .QNT_SLOT_SEL, .QNT_SLOT_INFO, 
   .QNT_SLOT_AMAX, .QNT_CONV_CNT, .QNT_ESC_CNT, .QNT_DEGEN_CNT, .QNT_WARMUP_CNT, .QNT_TABLE_STALL_CNT, .QNT_WRAP, .VEC_CTRL, 
   .VEC_STATUS, .VEC_IMEM_ADDR, .VEC_IMEM_DATA_LO, .VEC_IMEM_DATA_HI, .VEC_CTX_CTRL, .VEC_CTX_DA, .VEC_CTX_STATUS, .VEC_ISSUE_CNT, 
   .VEC_VOP_CNT, .VEC_WRAP, .VEC_Q_CTRL, .VEC_Q_STAT, .VEC_Q_PC, .VEC_Q_RANGE, .VEC_Q_STALL_CNT, .STM_CTRL, .STM_STATUS, .STM_SET0, 
   .STM_SET1, .STM_URGENCY, .STM_CKPT0, .STM_CKPT1, .STM_CKPT2, .STM_CKPT3, .STM_CKPT4, .STM_CKPT5, .STM_CKPT6, .STM_CKPT7, 
   .STM_RD_BYTES_CNT, .STM_WR_BYTES_CNT, .STM_DESC_CNT, .STM_PANIC_CNT, .STM_FAULT_CNT, .STM_WRAP, .HUR_CTRL, .HUR_STATUS]

def Reg.part1 : List Reg :=
  [.HUR_FE_CTRL, .HUR_FE_DATA, .HUR_ARRIVE_CNT, .HUR_COMPLETE_CNT, .HUR_BATON_CNT, .HUR_BATON_DROP_CNT, .HUR_WRAP, .HUR_WIN_BASE, 
   .HUR_WIN_LEN, .HUR_WIN_CREDIT, .HUR_WIN_STAT, .HUR_CFG, .HUR_STATE, .HUR_VALUE, .HUR_OP, .TRK_CTRL, .TRK_CFG, .TRK_EPL, 
   .TRK_STALL_TO, .TRK_NOMINAL, .TRK_PRESET_LAP, .TRK_PRESET_ANGLE, .TRK_DC_START, .TRK_DC_CYCLE, .TRK_FWD_COMP, .TRK_LAP, .TRK_ANGLE, 
   .TRK_INC, .TRK_STATUS, .TRK_STEP, .TRK_DEFICIT, .TRK_EDGE_CNT, .TRK_STALL_CNT, .TRK_LATE_CNT, .TRK_LATE_MARK_CNT, .TRK_IDX_ERR_CNT, 
   .TRK_REV_CNT, .TRK_WRAP, .TRK_LATE_LOG0, .TRK_LATE_LOG1, .TRK_LATE_LOG2, .TRK_LATE_LOG3, .TRK_EPOCH, .TRK_FL_LAP, .TRK_FL_SET, 
   .TRK_FL_GEN, .TRK_FL_STAT, .SES_CTRL, .SES_STATUS, .SES_TABLE_DA, .SES_ADMIT, .SES_ADMIT_STAT, .SES_CLOCK, .SES_SLOTS_USED, 
   .SES_RING_PIN, .SES_SWITCH_CNT, .SES_DOORBELL_CNT, .SES_DB_DROP_CNT, .SES_RING_MISS_CNT, .SES_FL_DISARM_CNT]

def Reg.part2 : List Reg :=
  [.SES_WRAP, .SES_DOORBELL, .SES_RESIDENT, .KMR_CTRL, .KMR_STATUS, .KMR_MODE, .KMR_PARTNER, .KMR_PARTNER_SERIAL, .KMR_LAT, .KMR_FRAME, 
   .KMR_TX_CELL_CNT, .KMR_RX_CELL_CNT, .KMR_CW_CORR_CNT, .KMR_CW_UNCORR_CNT, .KMR_CELL_LOST_CNT, .KMR_CELL_DROP_CNT, .KMR_DOWN_CNT, 
   .KMR_WRAP, .KMR_SLOT_TABLE, .KMR_ROLE, .KMR_DEV_STATUS, .KMR_REF_CTRL, .KMR_TRK_FWD, .KMR_ACK_TO, .KMR_SHAPE, .KMR_SL_CTRL, 
   .KMR_RELAY_CNT, .KMR_HOPS_DROP_CNT, .KMR_ACK_LATE_CNT, .KMR_SL_REBUILD_CNT, .KMR_DEV_WRAP, .KMR_ROUTE_GRP, .KMR_ROUTE_MBR, 
   .KMR_START_LIST0, .KMR_START_LIST1, .KMR_START_LIST2, .KMR_START_LIST3, .KMR_POS_TABLE, .HBM_CTRL, .HBM_STATUS, .HBM_PD_CTRL, 
   .HBM_REF_CTRL, .HBM_WQ_CTRL, .HBM_RT_PORTS, .HBM_TRAIN, .HBM_ERR_LOG, .HBM_RD_BYTES_CNT, .HBM_WR_BYTES_CNT, .HBM_CE_CNT, 
   .HBM_UE_CNT, .HBM_FWD_CNT, .HBM_PANIC_CNT, .HBM_REF_FORCE_CNT, .HBM_PD_ENTRY_CNT, .HBM_SR_EXIT_CNT, .HBM_WRAP, .HBM_PC_STATE, 
   .HBM_BAND, .CXL_TIER_CTRL, .CXL_TIER_STATUS]

def Reg.part3 : List Reg :=
  [.CXL_XLT_INV, .CXL_PRQ_REC, .CXL_PRQ_RESP, .CXL_CPL_TO, .CXL_RD_BYTES_CNT, .CXL_WR_BYTES_CNT, .CXL_ERR_RSP_CNT, .CXL_XLT_MISS_CNT, 
   .CXL_WRAP, .CXL_WIN_CFG, .CXL_WIN_TGT, .CXL_WIN_XLT, .CXL_WIN_STAT, .NOC_CTRL, .NOC_STATUS, .NOC_PWR_CTRL, .NOC_PWR_STAT, 
   .NOC_TRACE_BASE, .NOC_TRACE_LEN, .NOC_TRACE_WP, .NOC_CPL_TO, .NOC_FLIT_CNT, .NOC_WAKE_CNT, .NOC_HOLD_CNT, .NOC_TRACE_DROP_CNT, 
   .NOC_LINK_CE_CNT, .NOC_LINK_UE_CNT, .NOC_MISROUTE_CNT, .NOC_WRAP, .NOC_PRB_WRAP, .NOC_PRB_CTRL, .NOC_PRB_FILT, .NOC_PRB_UNIT, 
   .NOC_PRB_DA_LO, .NOC_PRB_DA_HI, .NOC_PRB_CNT, .FAB_CTRL, .FAB_STATUS, .FAB_RD_BYTES_CNT, .FAB_WR_BYTES_CNT, .FAB_PORT_ERR_CNT, 
   .FAB_RAM_CE_CNT, .FAB_RAM_UE_CNT, .FAB_MARK_SKIP_CNT, .FAB_VCCIO_FAULT_CNT, .FAB_WRAP, .FAB_PLL_CTRL, .FAB_PLL_STAT, .FAB_BANK_CFG, 
   .FAB_BANK_STAT, .FAB_PORT_CTRL, .FAB_PORT_WIN_LO, .FAB_PORT_WIN_HI, .FAB_PORT_STAT, .FAB_MARK_CFG, .FAB_MARK_LAP, .FAB_MARK_STEP, 
   .FAB_MARK_STAT, .SPS_CTRL, .SPS_STATUS]

def Reg.part4 : List Reg :=
  [.SPS_PC, .SPS_MEM_ADDR, .SPS_MEM_DATA, .SPS_CYCLE_CNT, .SPS_SAT_CNT, .SPS_OVF_CNT, .SPS_MARK_OVR_CNT, .SPS_WRAP, .CFG_CTRL, 
   .CFG_STATUS, .CFG_LOAD, .CFG_SRC, .CFG_PROGRESS, .CFG_FAIL, .CFG_LOAD_CNT, .CFG_FAIL_CNT, .CFG_FALLBACK_CNT, .CFG_PORT_DISCARD_CNT, 
   .CFG_WRAP, .CFG_REGION, .MDT_CTRL, .MDT_STATUS, .MDT_POS, .MDT_LOG, .MDT_GROUP_CNT, .MDT_COVER_CNT, .MDT_CORR_CNT, .MDT_REFETCH_CNT, 
   .MDT_UE_CNT, .MDT_RESET_CNT, .MDT_WRAP, .LNE_CTRL, .LNE_STAT, .LNE_THRESH, .LNE_EQ, .LNE_RETRAIN_CNT, .LNE_WAKE_CNT, 
   .LNE_LOCK_LOSS_CNT, .LNE_WRAP, .PCI_CTRL, .PCI_STATUS, .PCI_BAR2_BASE, .PCI_BAR2_SIZE, .PCI_MSIX_RAISE, .PCI_ATC_STAT, 
   .PCI_RX_BYTES_CNT, .PCI_TX_BYTES_CNT, .PCI_ATS_REQ_CNT, .PCI_PRQ_CNT, .PCI_INVAL_CNT, .PCI_ERR_CNT, .PCI_WRAP, .CXL_PORT_CTRL, 
   .CXL_PORT_STAT, .CXL_CFG_ADDR, .CXL_CFG_DATA, .CXL_PORT_REPLAY_CNT, .CXL_PORT_DOWN_CNT, .CXL_PORT_ERR_CNT, .CXL_PORT_WRAP]

def Reg.part5 : List Reg :=
  [.FLD_MBX_CTRL, .FLD_MBX_STAT, .FLD_MBX_EMCY, .FLD_MBX_REQ_CNT, .FLD_MBX_ABORT_CNT, .FLD_EMCY_CNT, .FLD_EMCY_DROP_CNT, .FLD_MBX_WRAP, 
   .FLD_MBX_REQ_BUF, .FLD_MBX_RSP_BUF, .FLD_CTRL, .FLD_STATUS, .FLD_DC_CTRL, .FLD_DC_TIME, .FLD_PDO_OUT, .FLD_PDO_IN, .FLD_FRAME_CNT, 
   .FLD_FRAME_ERR_CNT, .FLD_PDO_OVR_CNT, .FLD_WDOG_CNT, .FLD_DC_LOSS_CNT, .FLD_WRAP, .RST_CTRL, .RST_STATUS, .RST_CAUSE, .RST_BOOT, 
   .RST_BLOCK, .RST_SRC_CFG, .RST_TRIM, .RST_DEVICE_CNT, .RST_MC_CNT, .RST_BLOCK_CNT, .RST_BLOCK_REFUSED_CNT, .RST_WRAP, .PWR_CTRL, 
   .PWR_STATUS, .PWR_INPUT, .PWR_AVG, .PWR_QCTRL, .PWR_CAUSE, .PWR_ENERGY_CNT, .PWR_BROWNOUT_CNT, .PWR_RAIL_FAULT_CNT, .PWR_WRAP, 
   .PAC_CTRL, .PAC_STATUS, .PAC_WDOG, .PAC_TRIP, .PAC_LOG, .PAC_FIRE_CNT, .PAC_REFUSED_CNT, .PAC_THROTTLE_CYC_CNT, .PAC_TRIP_CYC_CNT, 
   .PAC_WRAP, .PAC_CEIL, .PAC_TEMP, .PAC_VMON, .PAC_AIN, .PAC_HEAT_CFG, .PAC_HEAT_TH]

def Reg.part6 : List Reg :=
  [.PAC_HEAT_ACT, .PAC_HEAT_STAT, .SEC_CTRL, .SEC_STATUS, .SEC_BOOT, .SEC_ROLLBACK, .SEC_VERIFY, .SEC_EXTEND, .SEC_ATT, .SEC_DBG, 
   .SEC_RCV, .SEC_VERIFY_CNT, .SEC_VERIFY_FAIL_CNT, .SEC_ATT_CNT, .SEC_WRAP, .SEC_M, .SEC_ATT_NONCE, .SEC_DBG_NONCE, .SEC_RCV_BUF, 
   .TST_CTRL, .TST_STATUS, .TST_FENCE, .TST_CDL, .TST_CDL_CNT, .TST_CDL_FAIL_CNT, .TST_FENCE_CNT, .TST_WRAP, .TST_CDL_LAST]

/-- Every register. -/
def Reg.all : List Reg := List.flatten [Reg.part0, Reg.part1, Reg.part2, Reg.part3, Reg.part4, Reg.part5, Reg.part6]

/-! ### Addresses in the control window (R14) -/

/-- One candidate unit, when its range begins at or below the offset. -/
def unitIf (c : Bool) (b : Bank) (n : Nat) : List (Bank × Nat) := if c then [(b, n)] else []

/-- Units of a kind that may own offset `o`, by the kind's base and stride. -/
def unitAt (o : Nat) : List (Bank × Nat) :=
  let lane := fun (b : Bank) (base stride : Nat) => unitIf (decide (base ≤ o)) b ((o - base) / stride)
  if o < 0x1000000 then
    List.flatten [unitIf true .hub 0, lane .track 0x500000 0x100, unitIf (decide (0x510000 ≤ o)) .slot ((o - 0x510000) / 0x800 * 64 + (o - 0x510000) % 0x800 / 0x20),
    lane .resident 0x700100 8, lane .cxlwin 0x680100 0x20, unitIf (decide (0x801000 ≤ o)) .probe (256 + (o - 0x801000) / 0x40),
    lane .region 0x100100 8, unitIf (decide (0x6C0000 ≤ o)) .lane (96 + (o - 0x6C0000) / 0x40), lane .cxlport 0x640000 0x10000,
    lane .mbxreq 0x301000 8, lane .mbxrsp 0x302000 8, lane .pacceil 0x2100 8, lane .pactemp 0x2400 8, lane .pacvmon 0x2600 8,
    lane .pacain 0x2780 8, lane .heat 0x3000 0x20, lane .secm 0x200100 8, lane .secnonce 0x200300 8, lane .secdbgn 0x200400 8,
    lane .secrcv 0x208000 8, lane .cdllast 0x800040 8]
  else if o < 0x2000000 then
    let q := (o - 0x1000000) / 0x400000
    let r := (o - 0x1000000) % 0x400000
    let at0 := fun (b : Bank) (base stride per : Nat) => unitIf (decide (base ≤ r ∧ (r - base) / stride < per)) b (q * per + (r - base) / stride)
    if r < 0x200000 then
      List.flatten [unitIf true .quarter q, at0 .pchan 0x800 8 64, unitIf (decide (q = 0 ∧ 0x1000 ≤ r)) .band ((r - 0x1000) / 8),
      at0 .kport 0x80000 0x10000 3,
      unitIf (decide (0x80000 ≤ r ∧ r < 0xB0000 ∧ 0x8000 ≤ r % 0x10000)) .kslot ((q * 3 + (r - 0x80000) / 0x10000) * 4096 + (r % 0x10000 - 0x8000) / 8),
      unitIf (decide (q = 0 ∧ 0xB0400 ≤ r)) .kgrp ((r - 0xB0400) / 8), unitIf (decide (q = 0 ∧ 0xB0800 ≤ r)) .kmbr ((r - 0xB0800) / 8),
      unitIf (decide (q = 0 ∧ 0xB1000 ≤ r)) .kstart ((r - 0xB1000) / 0x20), unitIf (decide (q = 0 ∧ 0xB2000 ≤ r)) .kpos ((r - 0xB2000) / 8),
      at0 .probe 0xC1000 0x40 64, at0 .fabpll 0x100100 0x10 4, at0 .fabbank 0x100200 0x10 5, at0 .fabport 0x101000 0x20 32,
      at0 .fabmark 0x102000 0x20 16, at0 .slice 0x140000 0x80 384, at0 .lane 0x180000 0x40 24,
      unitIf (decide (q = 0)) .hub 0]
    else
      let c := q * 8 + (r - 0x200000) / 0x40000
      let x := (r - 0x200000) % 0x40000
      if x < 0x20000 then
        let k := c * 16 + x / 0x2000
        let y := x % 0x2000
        List.flatten [unitIf true .core k, unitIf (decide (0x800 ≤ y ∧ y < 0xC00)) .engine (k * 4 + (y - 0x800) / 0x100),
        unitIf (decide (0x100 ≤ y ∧ y < 0x200)) .queue (k * 8 + (y - 0x100) / 0x20),
        unitIf (decide (0x200 ≤ y ∧ y < 0x240)) .qstall (k * 8 + (y - 0x200) / 8),
        unitIf (decide (0x1000 ≤ y ∧ y < 0x1400)) .stream (k * 2 + (y - 0x1000) / 0x200)]
      else
        List.flatten [unitIf true .cluster c, unitIf (decide (0x20800 ≤ x ∧ x < 0x21000)) .window (c * 64 + (x - 0x20800) / 0x20),
        unitIf (decide (0x30000 ≤ x)) .hurdle (c * 2048 + (x - 0x30000) / 0x20)]
  else []

/-- The register, and its unit, whose eight bytes begin at offset `o`. -/
def regAt (o : Nat) : Option (Reg × Nat) :=
  (unitAt o).findSome? (fun u =>
    if u.2 < u.1.count ∧ u.1.base u.2 ≤ o then (Reg.all.find? (fun r => decide (r.place = (u.1, o - u.1.base u.2)))).map (fun r => (r, u.2)) else none)

/-- The fabric port whose target window holds offset `o` (R334). -/
def targetAt (o : Nat) : Option Nat :=
  let r := (o - 0x1000000) % 0x400000
  if 0x1000000 ≤ o ∧ o < 0x2000000 ∧ 0x110000 ≤ r ∧ r < 0x130000 then some ((o - 0x1000000) / 0x400000 * 32 + (r - 0x110000) / 0x1000) else none

/-- Offsets that complete with an error response: the places of the Kamrus device registers (R272) and of the band registers (R295) in
quarters 1-3, and what lies beyond the window. -/
def noSuchPlace (o : Nat) : Bool :=
  let r := (o - 0x1000000) % 0x400000
  decide (0x4000000 ≤ o) || (decide (0x1400000 ≤ o ∧ o < 0x2000000) && decide (0xB0000 ≤ r ∧ r < 0xC0000 ∨ 0x1000 ≤ r ∧ r < 0x1030))

/-- The block of a register is in reset or without power: an access completes with an error response (R434). -/
def regDown (s : State) (p : Bank × Nat) (n : Nat) : Bool :=
  s.inReset 0 0 || !s.pwr.aon || s.pwr.railsOff ||
  match p.1 with
  | .hub => decide (0x1000000 ≤ p.2) && s.quarterDown 0
  | .quarter => s.quarterDown n
  | .cluster => s.clusterDown n
  | .core => s.coreDown n
  | .engine => s.coreDown (n / 4)
  | .queue => s.coreDown (n / 8)
  | .qstall => s.coreDown (n / 8)
  | .stream => s.coreDown (n / 2)
  | .window => s.clusterDown (n / 64)
  | .hurdle => s.clusterDown (n / 2048)
  | .kport => portDownRst s n
  | .kslot => portDownRst s (n / 4096)
  | .kgrp | .kmbr | .kstart | .kpos | .band => s.quarterDown 0
  | .pchan => s.quarterDown (n / 64)
  | .probe => decide (n < 256) && s.quarterDown (n / 64)
  | .fabpll => s.quarterDown (n / 4)
  | .fabbank => s.quarterDown (n / 5)
  | .fabport => fportDown s n
  | .fabmark => s.quarterDown (n / 16)
  | .slice => sliceDown s n
  | .lane => decide (n < 96) && s.quarterDown (n / 24)
  | _ => false

/-! ### Reading (R5, R6) -/

/-- Words of the late record at the head (R214). -/
def lateWord (s : State) (k : Nat) : Nat :=
  match s.trk.lateLog with
  | [] => 0
  | r :: _ => match k with | 0 => r.1 | 1 => r.2.1 | 2 => r.2.2.1 | _ => r.2.2.2

/-- The page request at the head of the tier's queue (R290). -/
def prqWord (s : State) : Nat := match s.mem.prq with | [] => 0 | (da, g, w) :: _ => da + g * 2 ^ 48 + b2n w * 2 ^ 57

/-- The field of a word. -/
def Fld.of (f : Fld) (w : Nat) : Nat := bits w f.lo f.width

/-- The history slot that QNT_SLOT_SEL names (R107). -/
def shownSlot (s : State) (k : Nat) : HistSlot := s.slot k (s.rd F.QNT_SLOT_SEL_SLOT k)

/-- The oldest emergency that a path has queued (R422): its message. -/
def emcyHead (s : State) (path : Nat) : Nat := (Tab.get [] s.dict.emcy path).headD 0

/-- FLD_MBX_EMCY shows a message of R421: code, error register, byte 7, event code. -/
def emcyShown (m : Nat) : Nat := bits m 0 16 + bits m 16 8 * 2 ^ 16 + bits m 56 8 * 2 ^ 24 + bits m 24 32 * 2 ^ 32

/-- Fields that hold no stored copy: their value is what the unit holds at present (R6). -/
def liveField (s : State) (f : Fld) (n : Nat) : Option Nat :=
  match f.reg with
  | .QNT_STATUS =>
    -- an output path that converts the rows of D shows as a conversion in progress too (R82, R109)
    if f.key = F.QNT_STATUS_BUSY.key ∧ (List.range 4).any (fun e => (s.eng (n * 4 + e)).runs.any (fun r => r.begun && r.ins.mx.quantD && !r.spill)) then some 1
    else none
  | .VEC_CTX_STATUS => if f.key = F.VEC_CTX_STATUS_QUIESCE.key then some (b2n (decide (s.ctxOp n = some .save) && !(coreQuiet s n))) else none
  | .QNT_SLOT_INFO =>
    let h := shownSlot s n
    some (f.of (h.recent.length * 2 ^ F.QNT_SLOT_INFO_STEPS.lo + h.head * 2 ^ F.QNT_SLOT_INFO_HEAD.lo + (h.owner.getD 0) % 8 * 2 ^ F.QNT_SLOT_INFO_OWNER_Q.lo +
      b2n h.owner.isSome * 2 ^ F.QNT_SLOT_INFO_OWNED.lo + b2n h.warm * 2 ^ F.QNT_SLOT_INFO_WARM.lo + h.pending * 2 ^ F.QNT_SLOT_INFO_PENDING.lo))
  | .QNT_SLOT_AMAX => some ((shownSlot s n).recent.foldl Nat.max 0)
  | .HUR_FE_CTRL => if f.key = F.HUR_FE_CTRL_FULL.key then some (b2n (s.isFull (s.rd F.HUR_FE_CTRL_DA n / 8))) else none
  | .HUR_STATE => if f.key = F.HUR_STATE_WAITERS.key then some (b2n (hasWaiters s n)) else none
  | .TRK_LATE_LOG0 => some (lateWord s 0)
  | .TRK_LATE_LOG1 => some (lateWord s 1)
  | .TRK_LATE_LOG2 => some (lateWord s 2)
  | .TRK_LATE_LOG3 => some (lateWord s 3)
  | .CXL_PRQ_REC => some (f.of (prqWord s))
  | .FAB_STATUS => if f.key = F.FAB_STATUS_CONFIGURED.key then some (b2n ((regionsIn n).any (fun r => decide (s.rd F.CFG_REGION_STATE r = 1)))) else none
  | .FAB_PLL_STAT => if f.key = F.FAB_PLL_STAT_ALIGNED.key then some (b2n (pllAligned s n)) else none
  | .FAB_BANK_CFG => if f.key = F.FAB_BANK_CFG_WIDE.key then some (b2n (decide (3 ≤ n % 5))) else none
  | .SPS_STATUS => if f.key = F.SPS_STATUS_ALIGNED.key then some (b2n (decide (s.rd F.SES_CLOCK_MODE 0 = 0))) else none
  | .SPS_MEM_DATA => some (memPortWord s n)
  | .MDT_LOG => some (f.of (mdtLogWord s))
  | .PAC_LOG => some (f.of (pacLogWord s))
  | .PAC_HEAT_CFG => if 16 ≤ n then none else
    let c := fixedHeat n
    some (f.of (1 + c.src * 2 ^ 1 + c.index * 2 ^ 4 + c.shift * 2 ^ 10 + b2n c.below * 2 ^ 14 + c.persist * 2 ^ 16))
  | .PAC_HEAT_TH => if 16 ≤ n then none else some (f.of (((fixedHeat n).th % 2 ^ 32).toNat + ((fixedHeat n).hys % 2 ^ 32).toNat * 2 ^ 32))
  | .PAC_HEAT_ACT => if 16 ≤ n ∨ f.key = F.PAC_HEAT_ACT_SIG.key then none else some (f.of (fixedAct n))
  | .FLD_MBX_EMCY => some (emcyShown (emcyHead s 1))
  | .FLD_MBX_STAT => if f.key = F.FLD_MBX_STAT_EMCY_PEND.key then some (Tab.get [] s.dict.emcy 1).length else none
  | .FLD_STATUS =>
    if f.key = F.FLD_STATUS_AL_STATE.key then some (alState s)
    else if alDropped s then (if f.key = F.FLD_STATUS_AL_ERR.key then some 1 else if f.key = F.FLD_STATUS_AL_CODE.key then some (alCode (deviceState s)) else none)
    else none
  | .SEC_STATUS => some (f.of (secStatusWord s))
  | .SEC_ROLLBACK => if f.key = F.SEC_ROLLBACK_FLOORS.key then some (floorOf s 0 % 256 + floorOf s 1 % 256 * 2 ^ 8 + floorOf s 2 % 256 * 2 ^ 16) else none
  | .RST_SRC_CFG => if f.key = F.RST_SRC_CFG_DRIVE.key then some (s.rd F.RST_SRC_CFG_DRIVE 0 ||| 3) else none
  | _ => none

/-- What a read of a field returns (R5). -/
def fieldValue (s : State) (f : Fld) (n : Nat) : Nat :=
  if f.acc = .wo then 0 else match liveField s f n with | some v => v % 2 ^ f.width | none => s.rd f n

/-- The 64-bit value of a register; bits that no map lists read as zero (R9). -/
def regWord (s : State) (r : Reg) (n : Nat) : Nat := r.fields.foldl (fun a f => a + fieldValue s f n * 2 ^ f.lo) 0

/-- How an access to the control window ends: with data (0 for a write), with an error response, or it waits. -/
inductive RegAns where
  | ok (v : Nat)
  | error
  | wait
  deriving DecidableEq, Repr

/-- A state without the outputs that a step of its own made. -/
def State.quietOut (s t : State) : State := { t with outbox := s.outbox }

/-- What a read does beside returning the value (R10, R223, R214, R290): pops of logs and the clearing of RC fields. `full` is a
64-bit read, `low` and `high` say which halves a read covers. -/
def readEffect (s : State) (r : Reg) (n : Nat) (full low high : Bool) : State :=
  match r with
  | .TRK_LAP => s.wr F.TRK_ANGLE_ANGLE n (s.track n).angle
  | .TRK_LATE_LOG3 => if full then { s with trk := { s.trk with lateLog := s.trk.lateLog.drop 1 } } else s
  | .CXL_PRQ_REC => if full then s.quietOut (prqPop s) else s
  | .MDT_LOG => if full then s.quietOut (mdtLogPop s) else s
  | .PAC_LOG => if full then s.quietOut (pacLogPop s) else s
  | .FLD_MBX_EMCY => if full then { s with dict := { s.dict with emcy := Tab.set [] s.dict.emcy 1 ((Tab.get [] s.dict.emcy 1).drop 1) } } else s
  | .PWR_AVG => if high then s.wr F.PWR_AVG_PEAK 0 0 else s
  | .PAC_TEMP => if low then clearMax s n else s
  | .SPS_MEM_DATA => if low then s.quietOut (memPortRead s n) else s
  | _ => s

/-- A read of a register (R10): `half` is none for 64 bits, or the half that 32 bits cover. -/
def regRead (s : State) (r : Reg) (n : Nat) (half : Option Nat) : State × RegAns :=
  if r = .HUR_FE_DATA then
    if half.isSome || !(fePortPlace s n) || padDown s (s.rd F.HUR_FE_CTRL_DA n) then (s, .error)
    else if padBusy s (s.rd F.HUR_FE_CTRL_DA n) then (s, .wait)
    else
      let t := fePortLoad s n
      (s.quietOut t, .ok (match t.outbox.head? with | some (.data v) => v | _ => 0))
  else
    let v := regWord s r n
    (readEffect s r n half.isNone (half ≠ some 1) (half ≠ some 0), .ok (match half with | none => v | some h => bits v (32 * h) 32))

/-! ### Clamps that depend on more than their field (R7) -/

/-- The nearest DA of HBM that a field with that many zero bits can hold. -/
def hbmNearest (zeros v : Nat) : Nat := Nat.min (v / 2 ^ zeros * 2 ^ zeros) (0x6000000000 - 2 ^ zeros)

/-- The nearest of 0 and the words of scratchpads and staging buffers, the lower on a tie. -/
def onChipNearest (v : Nat) : Nat :=
  let w := v / 8 * 8
  let cands := [0, clampTo scratchBase (scratchBase + 512 * 0x100000 - 8) w, clampTo stagingBase (stagingBase + 32 * 0x200000 - 8) w]
  let dist := fun x => (x - w) + (w - x)
  cands.foldl (fun b x => if dist x < dist b then x else b) 0

/-- The multiple of `unit` nearest to a 48-bit value, the lower on a tie. -/
def nearestMultiple (unit v : Nat) : Nat := Nat.min ((v + (unit - 1) / 2) / unit * unit) (2 ^ 48 / unit * unit - unit)

/-- TRK_STALL_TO: 0, or 1,024 upward. -/
def stallNearest (v : Nat) : Nat := if v = 0 then 0 else Nat.max v 1024

/-- Largest INDEX of a heat's source (R440). -/
def heatIndexMax (src : Nat) : Nat := match src with | 2 => 47 | 3 => 15 | 6 => 4 | _ => 63

/-- The stored value of a RW field for a written one, given the rest of the write `w`. -/
def clampIn (s : State) (f : Fld) (n w : Nat) : Nat :=
  let v := f.of w
  if f.key = F.TRK_STALL_TO_CYCLES.key then stallNearest v
  else if f.key = F.HBM_WQ_CTRL_LOW.key then Nat.min v (F.HBM_WQ_CTRL_HIGH.clamp (F.HBM_WQ_CTRL_HIGH.of w) - 1)
  else if f.key = F.CXL_WIN_XLT_TABLE_DA.key ∨ f.key = F.NOC_TRACE_BASE_DA.key then hbmNearest 12 v
  else if f.key = F.SEC_ATT_DA.key then hbmNearest 13 v
  else if f.key = F.SEC_DBG_DA.key then hbmNearest 8 (v * 256) / 256
  else if f.key = F.LNE_THRESH_FOM_GOOD.key then Nat.max v (F.LNE_THRESH_FOM_MIN.clamp (F.LNE_THRESH_FOM_MIN.of w) + 1)
  else if f.key = F.PCI_BAR2_BASE_DA.key then nearestMultiple (2 ^ (30 + s.rd F.PCI_BAR2_SIZE_CODE 0)) v
  else if f.key = F.FLD_PDO_OUT_DA.key ∨ f.key = F.FLD_PDO_IN_DA.key then onChipNearest v
  else if f.key = F.RST_SRC_CFG_DRIVE.key then v ||| 3
  else if f.key = F.PAC_HEAT_CFG_INDEX.key then Nat.min v (heatIndexMax (F.PAC_HEAT_CFG_SRC.clamp (F.PAC_HEAT_CFG_SRC.of w)))
  else if (f.key = F.LNE_CTRL_TX_SLEEP_EN.key ∨ f.key = F.LNE_CTRL_RX_SLEEP_EN.key) ∧ 96 ≤ n then s.rd f n
  else f.clamp v

/-! ### Writing (R5, R10) -/

/-- One field of a register written as its access code says; what a W1S bit asks for is done by the register's own rule. -/
def writeField (n w : Nat) (s : State) (f : Fld) : State :=
  match f.acc with
  | .rw => s.wr f n (clampIn s f n w)
  | .w1c => s.wr f n (s.rd f n - (s.rd f n &&& f.of w))
  | _ => s

/-- Every field of a register. -/
def writeFields (s : State) (r : Reg) (n w : Nat) : State := r.fields.foldl (writeField n w) s

/-- The W1C fields alone: what remains writable of a register whose other fields are held. -/
def writeClears (s : State) (r : Reg) (n w : Nat) : State := (r.fields.filter (fun f => decide (f.acc = .w1c))).foldl (writeField n w) s

/-- The RW fields of a register would change. -/
def rwChanges (s : State) (r : Reg) (n w : Nat) (keep : Fld) : Bool :=
  r.fields.any (fun f => decide (f.acc = .rw ∧ f.key ≠ keep.key ∧ f.of w ≠ s.rd f n) && decide (clampIn s f n w ≠ s.rd f n))

/-- A W1S field is written 1. -/
def Fld.asks (f : Fld) (w : Nat) : Bool := decide (f.of w = 1)

/-- Applies `g` when a W1S field is written 1. -/
def State.whenAsked (s : State) (f : Fld) (w : Nat) (g : State → State) : State := if f.asks w then g s else s

/-- Writes of a heat's registers (the map of R446): ignored and flagged for a fixed or enabled heat, but for EN and the SIG of a fixed
heat (R443). A heat whose EN changes starts afresh. -/
def heatWrite (s : State) (r : Reg) (h w : Nat) : State :=
  let refuse := fun (s : State) => s.wr F.PAC_STATUS_CFG_REFUSED 0 1
  if h < 16 then (if r = .PAC_HEAT_ACT then (let t := writeField h w s F.PAC_HEAT_ACT_SIG; if rwChanges s r h w F.PAC_HEAT_ACT_SIG then refuse t else t) else refuse s)
  else if r = .PAC_HEAT_CFG then
    let was := s.on F.PAC_HEAT_CFG_EN h
    let s := if was then (if rwChanges s r h w F.PAC_HEAT_CFG_EN then refuse s else s) else writeFields s r h w
    let en := decide (F.PAC_HEAT_CFG_EN.of w = 1)
    if en = was then s.wr F.PAC_HEAT_CFG_EN h (b2n en)
    else
      let p := s.pwr
      ((s.wr F.PAC_HEAT_CFG_EN h (b2n en)).wr F.PAC_HEAT_STAT_ACTIVE h 0).setPwr
        { p with seen := Tab.set false (Tab.set false p.seen h false) (1024 + h) false, count := Tab.set 0 p.count h 0 }
  else if s.on F.PAC_HEAT_CFG_EN h then refuse s else writeFields s r h w

/-- FLD_MBX_CTRL.GO (R419): the request in the buffer is taken; ignored while one executes. -/
def mailboxGo (s : State) : State :=
  if s.on F.FLD_MBX_STAT_BUSY 0 then s else (s.wr F.FLD_MBX_STAT_BUSY 0 1).bump C.FLD_MBX_REQ_CNT 0 1

/-- A write of KMR_SLOT_TABLE: the active bank ignores it (R253). An entry holds CHANNEL [5:0] and KIND [7:6] of two slots (R252); its
other bits are reserved (R9). -/
def slotTableWrite (s : State) (n w : Nat) : State :=
  if s.rd F.KMR_FRAME_BANK (n / 4096) = n % 4096 / 2048 then s else s.wr F.KMR_SLOT_TABLE_DATA n (w &&& 0x000000FF000000FF)

/-- KMR_CTRL (R243): fields; a port that is disabled goes down and is DOWN, RENEG takes an ACTIVE port down. -/
def kmrCtrlWrite (s : State) (p w : Nat) : State :=
  let s := writeFields s .KMR_CTRL p w
  let s := if F.KMR_CTRL_RENEG.asks w || !(s.on F.KMR_CTRL_EN p) then portDown s p else s
  if s.on F.KMR_CTRL_EN p then s else s.wr F.KMR_STATUS_STATE p 0

/-- FAB_PORT_CTRL (R335). -/
def portCtrlWrite (s : State) (n w : Nat) : State := showPort (writeFields s .FAB_PORT_CTRL n w) n

/-- SAVE and RESTORE (R136, R141, R142): both at once are refused. -/
def ctxCtrlWrite (s : State) (k w : Nat) : State :=
  let s := writeFields s .VEC_CTX_CTRL k w
  match F.VEC_CTX_CTRL_SAVE.asks w, F.VEC_CTX_CTRL_RESTORE.asks w with
  | true, true => ctxFail s k 0x1
  | true, false => ctxSave s k
  | false, true => ctxRestore s k
  | false, false => s

/-- EN of a track (R197). -/
def trkCtrlWrite (s : State) (t w : Nat) : State := if F.TRK_CTRL_EN.of w = 1 then trkEnable s t else trkDisable s t

/-- EN of a hurdle table (R177): what waits there is applied when it returns to 1. -/
def hurCtrlWrite (s : State) (c w : Nat) : State :=
  let was := s.on F.HUR_CTRL_EN c
  let s := writeFields s .HUR_CTRL c w
  if !was && s.on F.HUR_CTRL_EN c then openTable s c else s

/-- A 64-bit value written to a register: the rule that its block gives it. -/
def regEffect (s : State) (r : Reg) (n w : Nat) (low : Bool) : State :=
  match r with
  | .MXE_CTRL =>
    let s := [F.MXE_CTRL_EN, F.MXE_CTRL_DRAIN, F.MXE_CTRL_FORCE_EXACT, F.MXE_CTRL_GATE_EN].foldl (writeField n w) s
    ((dutyWrite s n (F.MXE_CTRL_DUTY.of w)).whenAsked F.MXE_CTRL_PREEMPT w (preempt · n)).whenAsked F.MXE_CTRL_CONTINUE w (continueStopped · n)
  | .QNT_CTRL => ((writeFields s r n w).whenAsked F.QNT_CTRL_HIST_CLEAR w (histClear · n)).whenAsked F.QNT_CTRL_SLOT_CLEAR w (slotClear · n)
  | .VEC_IMEM_DATA_LO => imemLo s n w
  | .VEC_IMEM_DATA_HI => imemHi s n w
  | .VEC_CTX_CTRL => ctxCtrlWrite s n w
  | .VEC_Q_CTRL => ((s.whenAsked F.VEC_Q_CTRL_START w (queueStart · n)).whenAsked F.VEC_Q_CTRL_STOP w (queueStop · n)).whenAsked F.VEC_Q_CTRL_CLEAR_FAULT w (clearFault · n)
  | .VEC_Q_PC => if s.running n then s else writeFields s r n w
  | .VEC_Q_RANGE => rangeWrite s n w
  | .STM_CTRL =>
    let s := writeFields s r n w
    if F.STM_CTRL_ABANDON.asks w then abandonSet s n else if F.STM_CTRL_RESUME.asks w && !(s.on F.STM_STATUS_SCHED n) then resumeSet s n else s
  | .HUR_CTRL => hurCtrlWrite s n w
  | .HUR_CFG => hurCfgWrite s n (bits w 0 16) (bit w 16) (bits w 17 6)
  | .HUR_STATE => hurStateWrite s n (bits w 0 16) (bits w 16 32)
  | .HUR_OP => hurOp s n w
  | .HUR_WIN_BASE => winWrite s n false w
  | .HUR_WIN_LEN => winWrite s n true w
  | .TRK_CTRL => trkCtrlWrite s n w
  | .TRK_CFG | .TRK_EPL | .TRK_PRESET_LAP | .TRK_PRESET_ANGLE | .TRK_DC_START | .TRK_DC_CYCLE =>
    if s.on F.TRK_CTRL_EN n then s.wr F.TRK_STATUS_CFG_REFUSED n 1 else writeFields s r n w
  | .TRK_STEP => trkStep s n w
  | .TRK_FL_LAP | .TRK_FL_SET | .TRK_FL_GEN => if s.on F.TRK_FL_STAT_ARMED n then s else writeFields s r n w
  | .TRK_FL_STAT => (writeFields s r n w).whenAsked F.TRK_FL_STAT_ARM w (fun s => if s.on F.TRK_FL_STAT_ARMED n then s else armSlot s n)
  | .SES_CTRL => sliceAll (writeFields s r n w)
  | .SES_ADMIT => admitWrite s w
  | .SES_CLOCK => clockWrite s w
  | .SES_RING_PIN => ringPin s w
  | .SES_DOORBELL => doorbell s w
  | .KMR_CTRL => kmrCtrlWrite s n w
  | .KMR_FRAME => (writeFields s r n w).whenAsked F.KMR_FRAME_SWAP w (fun s => s.wr F.KMR_FRAME_SWAP n 1)
  | .KMR_SLOT_TABLE => slotTableWrite s n w
  | .KMR_REF_CTRL => refCtrlWrite s w
  | .HBM_BAND => hbmBandWrite s n w
  | .CXL_XLT_INV => xltInv s w
  | .CXL_PRQ_RESP => cxlPrqResp s (bits w 0 9) (decide (bit w 9 = 1))
  | .CXL_WIN_CFG => cxlWinCfgWrite s n w
  | .CXL_WIN_TGT | .CXL_WIN_XLT => if s.on F.CXL_WIN_CFG_EN n then s.wr F.CXL_WIN_STAT_CFG_REFUSED n 1 else writeFields s r n w
  | .NOC_PRB_CTRL => probeCtrlWrite s n w
  | .NOC_PRB_FILT | .NOC_PRB_UNIT | .NOC_PRB_DA_LO | .NOC_PRB_DA_HI => if s.on F.NOC_PRB_CTRL_EN n then probeRefuse s n else writeFields s r n w
  | .FAB_PLL_CTRL => pllWrite s n w
  | .FAB_PORT_CTRL => portCtrlWrite s n w
  | .FAB_MARK_CFG => markCfgWrite s n w
  | .FAB_MARK_LAP | .FAB_MARK_STEP => if s.on F.FAB_MARK_CFG_EN n then s else writeFields s r n w
  | .SPS_CTRL =>
    let s := writeFields s r n w
    (((s.whenAsked F.SPS_CTRL_START w (sliceStart · n)).whenAsked F.SPS_CTRL_STOP w (sliceStop · n)).whenAsked F.SPS_CTRL_CLEAR_FAULT w
      (sliceClearFault · n)).whenAsked F.SPS_CTRL_SRST w (sliceReset · n)
  | .SPS_PC => if s.rd F.SPS_STATUS_STATE n = 1 ∨ s.rd F.SPS_STATUS_STATE n = 2 then s else writeFields s r n w
  | .SPS_MEM_ADDR => memAddrWrite s n w
  | .SPS_MEM_DATA => if low then memPortWrite s n w else s
  | .CFG_LOAD => ((writeFields s r n w).whenAsked F.CFG_LOAD_START w cfgStart).whenAsked F.CFG_LOAD_ABORT w loadAbort
  | .CFG_REGION => s.whenAsked F.CFG_REGION_RELEASE w (regionRelease · n)
  | .LNE_CTRL => writeFields (laneEnable s n (decide (F.LNE_CTRL_EN.of w = 1))) r n w
  | .PCI_MSIX_RAISE => s.emit (.msix (bits w 0 8))
  | .CXL_PORT_CTRL => (writeFields s r n w).whenAsked F.CXL_PORT_CTRL_REMOVE w (cxlRemove · n)
  | .CXL_CFG_ADDR => (writeFields s r n w).whenAsked F.CXL_CFG_ADDR_RD w (cxlCfgStart · n none)
  | .CXL_CFG_DATA => if low then cxlCfgStart s n (some (bits w 0 32)) else s
  | .FLD_MBX_CTRL => (writeFields s r n w).whenAsked F.FLD_MBX_CTRL_GO w mailboxGo
  | .FLD_MBX_REQ_BUF => if s.on F.FLD_MBX_STAT_BUSY 0 then s.wr F.FLD_MBX_STAT_REQ_REFUSED 0 1 else writeFields s r n w
  | .RST_BLOCK =>
    (showBlocks (writeFields s r n w)).whenAsked F.RST_BLOCK_GO w
      (fun s => blockReset s (s.rd F.RST_BLOCK_KIND 0) (s.rd F.RST_BLOCK_INDEX 0) (s.on F.RST_BLOCK_HOLD 0))
  | .PWR_QCTRL => qctrlWrite s (bits w 0 4)
  | .PAC_WDOG => (writeFields s r n w).whenAsked F.PAC_WDOG_KICK w kick
  | .PAC_TRIP => tripWrite s w
  | .PAC_HEAT_CFG | .PAC_HEAT_TH | .PAC_HEAT_ACT => heatWrite s r n w
  | .SEC_BOOT => ((writeFields s r n w).whenAsked F.SEC_BOOT_SWITCH w bootSwitch).whenAsked F.SEC_BOOT_CONFIRM w bootConfirm
  | .SEC_ROLLBACK => (writeFields s r n w).whenAsked F.SEC_ROLLBACK_GO w rollbackGo
  | .SEC_VERIFY => (writeFields s r n w).whenAsked F.SEC_VERIFY_GO w verifyGo
  | .SEC_EXTEND => secExtend s w
  | .SEC_ATT => (writeFields s r n w).whenAsked F.SEC_ATT_GO w attGo
  | .SEC_DBG => ((writeFields s r n w).whenAsked F.SEC_DBG_CHAL w dbgChallenge).whenAsked F.SEC_DBG_GO w (dbgGo · [])
  | .SEC_RCV => s.whenAsked F.SEC_RCV_NEXT w recoveryNext
  | .TST_FENCE => fenceQuarters (fenceClusters s (bits w 0 32)) (bits w 32 4)
  | .TST_CDL => s.whenAsked F.TST_CDL_GO w lapStart
  | _ => writeFields s r n w

/-- A register with a WO field (R10). -/
def Reg.hasWO (r : Reg) : Bool := r.fields.any (fun f => decide (f.acc = .wo))

/-- The 64-bit value that a 32-bit write stands for: the other half keeps its RW bits and is zero in all others (R10). -/
def widen (s : State) (r : Reg) (n half v : Nat) : Nat :=
  let kept := r.fields.foldl (fun a f => if f.acc = .rw then a + s.rd f n * 2 ^ f.lo else a) 0
  if half = 0 then v % 2 ^ 32 + kept / 2 ^ 32 * 2 ^ 32 else kept % 2 ^ 32 + v % 2 ^ 32 * 2 ^ 32

def mcUnit : Nat := 0x4000
def pcieUnit : Nat := 0x4001

/-- Who may write the security registers (R448). -/
def secWritable (s : State) (src : Nat) (r : Reg) : Bool :=
  decide (src = mcUnit) || (decide (src = pcieUnit) && s.on F.SEC_STATUS_RECOVERY 0 && (decide (r = .SEC_RCV_BUF) || decide (r = .SEC_RCV)))

/-- A register of the security block. -/
def Reg.isSec (r : Reg) : Bool := let p := r.place; decide (p.1 = .secm ∨ p.1 = .secnonce ∨ p.1 = .secdbgn ∨ p.1 = .secrcv) ||
  (decide (p.1 = .hub) && decide (0x200000 ≤ p.2 ∧ p.2 < 0x300000))

/-- After a 32-bit write, the RW fields that lie wholly in the other half hold what they held, also where the clamp of a 64-bit write would
have moved it (R10). -/
def keepOther (s t : State) (r : Reg) (n half w : Nat) : State :=
  (r.fields.filter (fun f => decide (f.acc = .rw ∧ (if half = 0 then 32 ≤ f.lo else f.lo + f.width ≤ 32) ∧
    clampIn s f n w ≠ s.rd f n ∧ t.rd f n = clampIn s f n w))).foldl (fun t f => t.wr f n (s.rd f n)) t

/-- A write of a register by unit `src`. A field that lies in both halves is written with what a 32-bit write makes of it, and clamped
whole (MODEL'S CHOICE, log 99: R7 and R10 do not say which of its bits the clamp may move). -/
def regWrite (s : State) (src : Nat) (r : Reg) (n : Nat) (half : Option Nat) (v : Nat) : State × RegAns :=
  if r.isSec && !(secWritable s src r) then (s, .error)
  else if r = .SEC_RCV_BUF ∧ s.on F.SEC_STATUS_RECOVERY 0 = false then (s, .ok 0)
  else if half.isSome && (r.hasWO || decide (r = .HUR_FE_DATA)) then (s, .error)
  else if r = .HUR_FE_DATA then
    if !(fePortPlace s n) || padDown s (s.rd F.HUR_FE_CTRL_DA n) then (s, .error)
    else if padBusy s (s.rd F.HUR_FE_CTRL_DA n) then (s, .wait)
    else (fePortStore s n v, .ok 0)
  else
    match half with
    | none => (regEffect s r n v true, .ok 0)
    | some h => let w := widen s r n h v; (keepOther s (regEffect s r n w (decide (h = 0))) r n h w, .ok 0)

/-! ### Accesses by offset (R9-R11) -/

/-- The half that an access covers, when its width and alignment are allowed. -/
def accessHalf (off width : Nat) : Option (Option Nat) :=
  if width = 8 ∧ off % 8 = 0 then some none else if width = 4 ∧ off % 4 = 0 then some (some (off % 8 / 4)) else none

/-- A packet of the control class for an access to a fabric target window (R300, R334). -/
def ctlPacket (src off width : Nat) (write : Bool) (v n : Nat) : Packet :=
  ⟨3, if write then 2 else 1, 1, src, unitOfFport n, windowBase + off, 1, 0, 0, false, false, 0, 0, if width = 4 then 1 else 0, 0, if write then bytesLE width v else [], [], [], [], false, []⟩

/-- A read at an offset of the control window. -/
def windowRead (s : State) (src off width : Nat) : State × RegAns :=
  match accessHalf off width with
  | none => (s, .error)
  | some half =>
    if noSuchPlace off then (s, .error)
    else match targetAt off, regAt (off / 8 * 8) with
      | some n, _ =>
        if s.on F.FAB_PORT_CTRL_TGT_EN n && !(s.on F.FAB_PORT_CTRL_ISOLATE n) && !(fportDown s n) then (targetAccess s (ctlPacket src off width false 0 n), .wait) else (s, .error)
      | none, some (r, n) => if regDown s r.place n then (s, .error) else regRead s r n half
      | none, none => if s.inReset 0 0 || !s.pwr.aon || s.pwr.railsOff then (s, .error) else (s, .ok 0)

/-- A write at an offset of the control window. -/
def windowWrite (s : State) (src off width v : Nat) : State × RegAns :=
  match accessHalf off width with
  | none => (s, .error)
  | some half =>
    if noSuchPlace off then (s, .error)
    else match targetAt off, regAt (off / 8 * 8) with
      | some n, _ =>
        if s.on F.FAB_PORT_CTRL_TGT_EN n && !(s.on F.FAB_PORT_CTRL_ISOLATE n) && !(fportDown s n) then (targetAccess s (ctlPacket src off width true v n), .wait) else (s, .error)
      | none, some (r, n) => if regDown s r.place n then (s, .error) else regWrite s src r n half v
      | none, none => if s.inReset 0 0 || !s.pwr.aon || s.pwr.railsOff then (s, .error) else (s, .ok 0)

/-- What the answer shows outside: nothing for a write that completes. -/
def showAns (x : State × RegAns) (write : Bool) : State :=
  match x.2 with
  | .ok v => if write then x.1 else x.1.emit (.data v)
  | .error => x.1.emit .error
  | .wait => x.1

/-! ### BAR requests (R393) -/

/-- A request through a BAR fails (R393): a read gives an error completion, which is counted (R402); a posted write is
discarded and logged under AER. -/
def barError (s : State) (write : Bool) : State :=
  if write then s.wr F.PCI_STATUS_AER 0 1 else (s.bump C.PCI_ERR_CNT 0 1).emit .error

/-- The function decodes its BARs: the device is out of reset and powered, the function not in D3hot (R398). -/
def barOff (s : State) : Bool := s.inReset 0 0 || !s.pwr.aon || s.pwr.railsOff || s.on F.PCI_STATUS_D3 0

/-- BAR0: the control window; in recovery the hub answers the security block's registers alone (R459). -/
def bar0 (s : State) (write : Bool) (off width v : Nat) : State :=
  if barOff s then (if write then s else s.emit .error)
  else if s.on F.SEC_STATUS_RECOVERY 0 && !(decide (0x200000 ≤ off ∧ off < 0x300000)) then barError s write
  else
    let r := if write then windowWrite s pcieUnit off width v else windowRead s pcieUnit off width
    match r.2 with
    | .ok d => if write then r.1.bump C.PCI_RX_BYTES_CNT 0 width else (r.1.bump C.PCI_TX_BYTES_CNT 0 width).emit (.data d)
    | .error => barError r.1 write
    | .wait => r.1

/-- A BAR2 request to an address that BAR2 does not reach (R393). -/
def bar2Error (s : State) (write : Bool) : State := barError (s.wr F.PCI_STATUS_BAR2_ERR 0 1) write

/-- BAR2 at offset `o`: `len` bytes read, or the bytes written, at DA PCI_BAR2_BASE + o; on-chip words as plain accesses (R175). -/
def bar2 (s : State) (write : Bool) (o len : Nat) (data : List Byte) (ecc : List Nat) (panic : Bool) : State :=
  let da := s.rd F.PCI_BAR2_BASE_DA 0 + o
  let n := if write then data.length else len
  if barOff s then (if write then s else s.emit .error)
  else match regionOf da with
    | .window _ => bar2Error s write
    | .hole => bar2Error s write
    | _ =>
      if onChip da && (wordsOf da n).any (fun w => padBusy s (w * 8)) then s
      else if write then
        let r := memWrite s da data ⟨[], ecc, panic⟩
        if r.2 then r.1.bump C.PCI_RX_BYTES_CNT 0 n else barError r.1 true
      else
        let r := memRead s da n ⟨[], ecc, panic⟩
        match r.2 with
        | some bs => (r.1.bump C.PCI_TX_BYTES_CNT 0 n).emit (.response pcieUnit 0 (some bs))
        | none => barError r.1 false

/-! ### The meanings -/

/-- REGISTER_WRITE: a write of the control window by the management controller. -/
def execRegisterWrite (off width : Nat) (value : Word) (s : State) : Host.Outcome State Fault Refusal :=
  .next (showAns (windowWrite s mcUnit off width value.toNat) true)
def execBar0Request (write : Bool) (off width : Nat) (value : Word) (s : State) : Host.Outcome State Fault Refusal :=
  .next (bar0 s write off width value.toNat)
def execBar2Request (write : Bool) (off len : Nat) (data : List Byte) (ecc : List Nat) (panic : Bool) (s : State) : Host.Outcome State Fault Refusal :=
  .next (bar2 s write off len data ecc panic)

end Sys2Proof.Machine
end

