-- ==== Sys2Proof/Machine/Objects.lean ====
section
/-!
DEFINITION. The object dictionary's contents (chapter 17): which objects there are, their subindexes, types and access codes, the
function blocks' counters, flags and register ports, and what reading and writing one subindex does.
-/
namespace Sys2Proof.Machine

/-- The counters of a function block in the order of its maps: count, wrap flags, and the flag's bit (none: any). -/
def blockCounters : Nat → List (Fld × Fld × Option Nat)
  | 0x21 =>
    [(F.PWR_ENERGY_CNT_COUNT, F.PWR_WRAP_FLAGS, some 0), (F.PWR_BROWNOUT_CNT_COUNT, F.PWR_WRAP_FLAGS, some 1), 
     (F.PWR_RAIL_FAULT_CNT_COUNT, F.PWR_WRAP_FLAGS, some 2), (F.PAC_FIRE_CNT_COUNT, F.PAC_WRAP_FLAGS, some 0), 
     (F.PAC_REFUSED_CNT_COUNT, F.PAC_WRAP_FLAGS, some 1), (F.PAC_THROTTLE_CYC_CNT_COUNT, F.PAC_WRAP_FLAGS, some 2), 
     (F.PAC_TRIP_CYC_CNT_COUNT, F.PAC_WRAP_FLAGS, some 3)]
  | 0x22 =>
    [(F.RST_DEVICE_CNT_COUNT, F.RST_WRAP_FLAGS, some 0), (F.RST_MC_CNT_COUNT, F.RST_WRAP_FLAGS, some 1), 
     (F.RST_BLOCK_CNT_COUNT, F.RST_WRAP_FLAGS, some 2), (F.RST_BLOCK_REFUSED_CNT_COUNT, F.RST_WRAP_FLAGS, some 3)]
  | 0x23 =>
    [(F.CFG_LOAD_CNT_COUNT, F.CFG_WRAP_FLAGS, some 0), (F.CFG_FAIL_CNT_COUNT, F.CFG_WRAP_FLAGS, some 1), 
     (F.CFG_FALLBACK_CNT_COUNT, F.CFG_WRAP_FLAGS, some 2), (F.CFG_PORT_DISCARD_CNT_COUNT, F.CFG_WRAP_FLAGS, some 3), 
     (F.MDT_GROUP_CNT_COUNT, F.MDT_WRAP_FLAGS, some 0), (F.MDT_COVER_CNT_COUNT, F.MDT_WRAP_FLAGS, some 1), 
     (F.MDT_CORR_CNT_COUNT, F.MDT_WRAP_FLAGS, some 2), (F.MDT_REFETCH_CNT_COUNT, F.MDT_WRAP_FLAGS, some 3), 
     (F.MDT_UE_CNT_COUNT, F.MDT_WRAP_FLAGS, some 4), (F.MDT_RESET_CNT_COUNT, F.MDT_WRAP_FLAGS, some 5)]
  | 0x24 =>
    [(F.TRK_EDGE_CNT_COUNT, F.TRK_WRAP_FLAGS, some 0), (F.TRK_STALL_CNT_COUNT, F.TRK_WRAP_FLAGS, some 1), 
     (F.TRK_LATE_CNT_COUNT, F.TRK_WRAP_FLAGS, some 2), (F.TRK_LATE_MARK_CNT_COUNT, F.TRK_WRAP_FLAGS, some 3), 
     (F.TRK_IDX_ERR_CNT_COUNT, F.TRK_WRAP_FLAGS, some 4), (F.TRK_REV_CNT_COUNT, F.TRK_WRAP_FLAGS, some 5)]
  | 0x25 =>
    [(F.SES_SWITCH_CNT_COUNT, F.SES_WRAP_FLAGS, some 0), (F.SES_DOORBELL_CNT_COUNT, F.SES_WRAP_FLAGS, some 1), 
     (F.SES_DB_DROP_CNT_COUNT, F.SES_WRAP_FLAGS, some 2), (F.SES_RING_MISS_CNT_COUNT, F.SES_WRAP_FLAGS, some 3), 
     (F.SES_FL_DISARM_CNT_COUNT, F.SES_WRAP_FLAGS, some 4)]
  | 0x26 =>
    [(F.MXE_INSTR_CNT_COUNT, F.MXE_WRAP_INSTR, some 0), (F.MXE_PASS_CNT_COUNT, F.MXE_WRAP_PASS, some 0), 
     (F.MXE_PROD_CNT_COUNT, F.MXE_WRAP_PROD, some 0), (F.MXE_SWAP_STALL_CNT_COUNT, F.MXE_WRAP_SWAP_STALL, some 0), 
     (F.MXE_FEED_STALL_CNT_COUNT, F.MXE_WRAP_FEED_STALL, some 0), (F.VEC_ISSUE_CNT_COUNT, F.VEC_WRAP_ISSUE, some 0), 
     (F.VEC_VOP_CNT_COUNT, F.VEC_WRAP_VOP, some 0), (F.VEC_Q_STALL_CNT_COUNT, F.VEC_WRAP_QSTALL, none)]
  | 0x27 =>
    [(F.QNT_CONV_CNT_COUNT, F.QNT_WRAP_CONV, some 0), (F.QNT_ESC_CNT_COUNT, F.QNT_WRAP_ESC, some 0), 
     (F.QNT_DEGEN_CNT_COUNT, F.QNT_WRAP_DEGEN, some 0), (F.QNT_WARMUP_CNT_COUNT, F.QNT_WRAP_WARMUP, some 0), 
     (F.QNT_TABLE_STALL_CNT_COUNT, F.QNT_WRAP_TABLE_STALL, some 0)]
  | 0x28 =>
    [(F.STM_RD_BYTES_CNT_COUNT, F.STM_WRAP_RD_BYTES, some 0), (F.STM_WR_BYTES_CNT_COUNT, F.STM_WRAP_WR_BYTES, some 0), 
     (F.STM_DESC_CNT_COUNT, F.STM_WRAP_DESC, some 0), (F.STM_PANIC_CNT_COUNT, F.STM_WRAP_PANIC, some 0), 
     (F.STM_FAULT_CNT_COUNT, F.STM_WRAP_FAULT, some 0)]
  | 0x29 =>
    [(F.HUR_ARRIVE_CNT_COUNT, F.HUR_WRAP_ARRIVE, some 0), (F.HUR_COMPLETE_CNT_COUNT, F.HUR_WRAP_COMPLETE, some 0), 
     (F.HUR_BATON_CNT_COUNT, F.HUR_WRAP_BATON, some 0), (F.HUR_BATON_DROP_CNT_COUNT, F.HUR_WRAP_BATON_DROP, some 0)]
  | 0x2A =>
    [(F.KMR_TX_CELL_CNT_COUNT, F.KMR_WRAP_FLAGS, some 0), (F.KMR_RX_CELL_CNT_COUNT, F.KMR_WRAP_FLAGS, some 1), 
     (F.KMR_CW_CORR_CNT_COUNT, F.KMR_WRAP_FLAGS, some 2), (F.KMR_CW_UNCORR_CNT_COUNT, F.KMR_WRAP_FLAGS, some 3), 
     (F.KMR_CELL_LOST_CNT_COUNT, F.KMR_WRAP_FLAGS, some 4), (F.KMR_CELL_DROP_CNT_COUNT, F.KMR_WRAP_FLAGS, some 5), 
     (F.KMR_DOWN_CNT_COUNT, F.KMR_WRAP_FLAGS, some 6), (F.KMR_RELAY_CNT_COUNT, F.KMR_DEV_WRAP_FLAGS, some 0), 
     (F.KMR_HOPS_DROP_CNT_COUNT, F.KMR_DEV_WRAP_FLAGS, some 1), (F.KMR_ACK_LATE_CNT_COUNT, F.KMR_DEV_WRAP_FLAGS, some 2), 
     (F.KMR_SL_REBUILD_CNT_COUNT, F.KMR_DEV_WRAP_FLAGS, some 3)]
  | 0x2B =>
    [(F.HBM_RD_BYTES_CNT_COUNT, F.HBM_WRAP_FLAGS, some 0), (F.HBM_WR_BYTES_CNT_COUNT, F.HBM_WRAP_FLAGS, some 1), 
     (F.HBM_CE_CNT_COUNT, F.HBM_WRAP_FLAGS, some 2), (F.HBM_UE_CNT_COUNT, F.HBM_WRAP_FLAGS, some 3), 
     (F.HBM_FWD_CNT_COUNT, F.HBM_WRAP_FLAGS, some 4), (F.HBM_PANIC_CNT_COUNT, F.HBM_WRAP_FLAGS, some 5), 
     (F.HBM_REF_FORCE_CNT_COUNT, F.HBM_WRAP_FLAGS, some 6), (F.HBM_PD_ENTRY_CNT_COUNT, F.HBM_WRAP_FLAGS, some 7), 
     (F.HBM_SR_EXIT_CNT_COUNT, F.HBM_WRAP_FLAGS, some 8)]
  | 0x2C =>
    [(F.CXL_RD_BYTES_CNT_COUNT, F.CXL_WRAP_FLAGS, some 0), (F.CXL_WR_BYTES_CNT_COUNT, F.CXL_WRAP_FLAGS, some 1), 
     (F.CXL_ERR_RSP_CNT_COUNT, F.CXL_WRAP_FLAGS, some 2), (F.CXL_XLT_MISS_CNT_COUNT, F.CXL_WRAP_FLAGS, some 3), 
     (F.CXL_PORT_REPLAY_CNT_COUNT, F.CXL_PORT_WRAP_FLAGS, some 0), (F.CXL_PORT_DOWN_CNT_COUNT, F.CXL_PORT_WRAP_FLAGS, some 1), 
     (F.CXL_PORT_ERR_CNT_COUNT, F.CXL_PORT_WRAP_FLAGS, some 2)]
  | 0x2D =>
    [(F.PCI_RX_BYTES_CNT_COUNT, F.PCI_WRAP_FLAGS, some 0), (F.PCI_TX_BYTES_CNT_COUNT, F.PCI_WRAP_FLAGS, some 1), 
     (F.PCI_ATS_REQ_CNT_COUNT, F.PCI_WRAP_FLAGS, some 2), (F.PCI_PRQ_CNT_COUNT, F.PCI_WRAP_FLAGS, some 3), 
     (F.PCI_INVAL_CNT_COUNT, F.PCI_WRAP_FLAGS, some 4), (F.PCI_ERR_CNT_COUNT, F.PCI_WRAP_FLAGS, some 5)]
  | 0x2E =>
    [(F.NOC_FLIT_CNT_COUNT, F.NOC_WRAP_FLAGS, some 0), (F.NOC_WAKE_CNT_COUNT, F.NOC_WRAP_FLAGS, some 1), 
     (F.NOC_HOLD_CNT_COUNT, F.NOC_WRAP_FLAGS, some 2), (F.NOC_TRACE_DROP_CNT_COUNT, F.NOC_WRAP_FLAGS, some 3), 
     (F.NOC_LINK_CE_CNT_COUNT, F.NOC_WRAP_FLAGS, some 4), (F.NOC_LINK_UE_CNT_COUNT, F.NOC_WRAP_FLAGS, some 5), 
     (F.NOC_MISROUTE_CNT_COUNT, F.NOC_WRAP_FLAGS, some 6), (F.NOC_PRB_CNT_COUNT, F.NOC_PRB_WRAP_FLAGS, none)]
  | 0x2F =>
    [(F.FAB_RD_BYTES_CNT_COUNT, F.FAB_WRAP_FLAGS, some 0), (F.FAB_WR_BYTES_CNT_COUNT, F.FAB_WRAP_FLAGS, some 1), 
     (F.FAB_PORT_ERR_CNT_COUNT, F.FAB_WRAP_FLAGS, some 2), (F.FAB_RAM_CE_CNT_COUNT, F.FAB_WRAP_FLAGS, some 3), 
     (F.FAB_RAM_UE_CNT_COUNT, F.FAB_WRAP_FLAGS, some 4), (F.FAB_MARK_SKIP_CNT_COUNT, F.FAB_WRAP_FLAGS, some 5), 
     (F.FAB_VCCIO_FAULT_CNT_COUNT, F.FAB_WRAP_FLAGS, some 6), (F.SPS_CYCLE_CNT_COUNT, F.SPS_WRAP_FLAGS, some 0), 
     (F.SPS_SAT_CNT_COUNT, F.SPS_WRAP_FLAGS, some 1), (F.SPS_OVF_CNT_COUNT, F.SPS_WRAP_FLAGS, some 2), 
     (F.SPS_MARK_OVR_CNT_COUNT, F.SPS_WRAP_FLAGS, some 3)]
  | 0x30 =>
    [(F.LNE_RETRAIN_CNT_COUNT, F.LNE_WRAP_FLAGS, some 0), (F.LNE_WAKE_CNT_COUNT, F.LNE_WRAP_FLAGS, some 1), 
     (F.LNE_LOCK_LOSS_CNT_COUNT, F.LNE_WRAP_FLAGS, some 2)]
  | 0x31 =>
    [(F.SEC_VERIFY_CNT_COUNT, F.SEC_WRAP_FLAGS, some 0), (F.SEC_VERIFY_FAIL_CNT_COUNT, F.SEC_WRAP_FLAGS, some 1), 
     (F.SEC_ATT_CNT_COUNT, F.SEC_WRAP_FLAGS, some 2)]
  | 0x32 =>
    [(F.TST_CDL_CNT_COUNT, F.TST_WRAP_FLAGS, some 0), (F.TST_CDL_FAIL_CNT_COUNT, F.TST_WRAP_FLAGS, some 1), 
     (F.TST_FENCE_CNT_COUNT, F.TST_WRAP_FLAGS, some 2)]
  | 0x33 =>
    [(F.FLD_MBX_REQ_CNT_COUNT, F.FLD_MBX_WRAP_FLAGS, some 0), (F.FLD_MBX_ABORT_CNT_COUNT, F.FLD_MBX_WRAP_FLAGS, some 1), 
     (F.FLD_EMCY_CNT_COUNT, F.FLD_MBX_WRAP_FLAGS, some 2), (F.FLD_EMCY_DROP_CNT_COUNT, F.FLD_MBX_WRAP_FLAGS, some 3), 
     (F.FLD_FRAME_CNT_COUNT, F.FLD_WRAP_FLAGS, some 0), (F.FLD_FRAME_ERR_CNT_COUNT, F.FLD_WRAP_FLAGS, some 1), 
     (F.FLD_PDO_OVR_CNT_COUNT, F.FLD_WRAP_FLAGS, some 2), (F.FLD_WDOG_CNT_COUNT, F.FLD_WRAP_FLAGS, some 3), 
     (F.FLD_DC_LOSS_CNT_COUNT, F.FLD_WRAP_FLAGS, some 4)]
  | _ => []

/-- The W1C fields of a function block in the order of its maps. -/
def blockFlags : Nat → List Fld
  | 0x21 =>
    [F.PWR_STATUS_BROWNOUT, F.PWR_STATUS_RAIL_FAULT, F.PWR_STATUS_Q_REFUSED, F.PWR_WRAP_FLAGS, F.PAC_STATUS_THROTTLE_REFUSED, 
     F.PAC_STATUS_WDOG_WARN, F.PAC_STATUS_LOG_OVF, F.PAC_STATUS_CFG_REFUSED, F.PAC_TRIP_POWER, F.PAC_TRIP_THERM, F.PAC_WRAP_FLAGS, 
     F.PAC_HEAT_STAT_FIRED, F.PAC_HEAT_STAT_REFUSED]
  | 0x22 =>
    [F.RST_STATUS_BLOCK_REFUSED, F.RST_STATUS_REMOTE_DROP, F.RST_STATUS_TRIM_FALLBACK, F.RST_WRAP_FLAGS]
  | 0x23 =>
    [F.CFG_STATUS_DONE, F.CFG_STATUS_FAIL, F.CFG_STATUS_FALLBACK, F.CFG_STATUS_OCHRE_FAIL, F.CFG_STATUS_REFUSED, F.CFG_WRAP_FLAGS, 
     F.MDT_STATUS_CORR, F.MDT_STATUS_UE, F.MDT_STATUS_TMR_MISMATCH, F.MDT_STATUS_WDOG, F.MDT_STATUS_SIG_ECC, F.MDT_WRAP_FLAGS]
  | 0x24 =>
    [F.TRK_STATUS_STALL, F.TRK_STATUS_LATE, F.TRK_STATUS_INDEX_ERR, F.TRK_STATUS_REVERSE, F.TRK_STATUS_CFG_REFUSED, F.TRK_STATUS_LAP_WRAP, 
     F.TRK_STATUS_LATE_OVF, F.TRK_STATUS_LATE_MARK, F.TRK_WRAP_FLAGS, F.TRK_FL_STAT_MET, F.TRK_FL_STAT_LATE]
  | 0x25 =>
    [F.SES_STATUS_DB_DROP, F.SES_STATUS_ADMIT_REFUSED, F.SES_STATUS_CLOCK_REFUSED, F.SES_STATUS_FL_DISARMED, F.SES_WRAP_FLAGS]
  | 0x26 =>
    [F.MXE_STATUS_CONFIG_ERR, F.MXE_STATUS_DATA_ERR, F.MXE_STATUS_RECORD_ERR, F.MXE_STATUS_THROTTLE_REFUSED, F.MXE_WRAP_INSTR, F.MXE_WRAP_PASS, 
     F.MXE_WRAP_PROD, F.MXE_WRAP_SWAP_STALL, F.MXE_WRAP_FEED_STALL, F.VEC_STATUS_IMEM_REFUSED, F.VEC_STATUS_VMASK_CLIPPED, F.VEC_STATUS_REC_ERR, 
     F.VEC_STATUS_Q_FAULT, F.VEC_CTX_STATUS_DONE, F.VEC_CTX_STATUS_ERR, F.VEC_WRAP_ISSUE, F.VEC_WRAP_VOP, F.VEC_WRAP_QSTALL, F.VEC_Q_STAT_EVENT]
  | 0x27 =>
    [F.QNT_STATUS_DESC_ERR, F.QNT_STATUS_THRESHOLD, F.QNT_STATUS_WARMUP, F.QNT_STATUS_SIDE_FULL, F.QNT_STATUS_STATS_SAT, F.QNT_WRAP_CONV, 
     F.QNT_WRAP_ESC, F.QNT_WRAP_DEGEN, F.QNT_WRAP_WARMUP, F.QNT_WRAP_TABLE_STALL]
  | 0x28 =>
    [F.STM_STATUS_LATE, F.STM_STATUS_DESC_ERR, F.STM_STATUS_XLATE_ERR, F.STM_STATUS_DATA_ERR, F.STM_WRAP_RD_BYTES, F.STM_WRAP_WR_BYTES, 
     F.STM_WRAP_DESC, F.STM_WRAP_PANIC, F.STM_WRAP_FAULT]
  | 0x29 =>
    [F.HUR_STATUS_BATON_REJ, F.HUR_STATUS_BATON_FULL, F.HUR_STATUS_STATE_REFUSED, F.HUR_FE_CTRL_MISS, F.HUR_WRAP_ARRIVE, F.HUR_WRAP_COMPLETE, 
     F.HUR_WRAP_BATON, F.HUR_WRAP_BATON_DROP]
  | 0x2A =>
    [F.KMR_STATUS_NO_MODE, F.KMR_STATUS_LOST, F.KMR_STATUS_DOWN_EVT, F.KMR_WRAP_FLAGS, F.KMR_DEV_STATUS_SL_CHANGED, F.KMR_DEV_STATUS_REF_SWITCH, 
     F.KMR_DEV_STATUS_TAKEOVER, F.KMR_DEV_STATUS_REF_LOST, F.KMR_DEV_WRAP_FLAGS]
  | 0x2B =>
    [F.HBM_STATUS_CE, F.HBM_STATUS_UE, F.HBM_STATUS_MAP_REFUSED, F.HBM_STATUS_REF_FORCED, F.HBM_STATUS_TRAIN_FALLBACK, F.HBM_ERR_LOG_VALID, 
     F.HBM_WRAP_FLAGS]
  | 0x2C =>
    [F.CXL_TIER_STATUS_HOTADD, F.CXL_TIER_STATUS_SURPRISE, F.CXL_WRAP_FLAGS, F.CXL_WIN_STAT_DIS_REFUSED, F.CXL_WIN_STAT_CFG_REFUSED, 
     F.CXL_PORT_STAT_REMOVED, F.CXL_PORT_STAT_REMOVE_REFUSED, F.CXL_PORT_STAT_LINK_DOWN, F.CXL_CFG_ADDR_ERR, F.CXL_PORT_WRAP_FLAGS]
  | 0x2D =>
    [F.PCI_STATUS_LINK_DOWN, F.PCI_STATUS_FLR, F.PCI_STATUS_PIN_INVAL, F.PCI_STATUS_BAR2_ERR, F.PCI_STATUS_AER, F.PCI_WRAP_FLAGS]
  | 0x2E =>
    [F.NOC_STATUS_LINK_CE, F.NOC_STATUS_LINK_UE, F.NOC_STATUS_MISROUTE, F.NOC_STATUS_TRACE_DROP, F.NOC_STATUS_WAKE_FAIL, F.NOC_STATUS_TRACE_WRAP, 
     F.NOC_STATUS_PRB_REFUSED, F.NOC_WRAP_FLAGS, F.NOC_PRB_WRAP_FLAGS]
  | 0x2F =>
    [F.FAB_STATUS_PORT_ERR, F.FAB_STATUS_RAM_CE, F.FAB_STATUS_RAM_UE, F.FAB_STATUS_MARK_SKIP, F.FAB_STATUS_VCCIO_BAD, F.FAB_WRAP_FLAGS, 
     F.FAB_PLL_STAT_LOCK_LOST, F.FAB_PORT_STAT_WIN_ERR, F.FAB_PORT_STAT_TGT_TO, F.FAB_MARK_STAT_FIRED, F.SPS_STATUS_LIMIT, F.SPS_STATUS_OVF, 
     F.SPS_STATUS_MARK_OVR, F.SPS_STATUS_IMEM_REFUSED, F.SPS_WRAP_FLAGS]
  | 0x30 =>
    [F.LNE_STAT_HIST_NEW, F.LNE_WRAP_FLAGS]
  | 0x31 =>
    [F.SEC_STATUS_RB_REFUSED, F.SEC_STATUS_SLOT_REFUSED, F.SEC_STATUS_DBG_FAIL, F.SEC_BOOT_FALLBACK, F.SEC_BOOT_REVERTED, F.SEC_WRAP_FLAGS]
  | 0x32 =>
    [F.TST_STATUS_FENCE_REFUSED, F.TST_STATUS_CDL_REFUSED, F.TST_WRAP_FLAGS]
  | 0x33 =>
    [F.FLD_MBX_STAT_DONE, F.FLD_MBX_STAT_REQ_REFUSED, F.FLD_MBX_STAT_EMCY_OVF, F.FLD_MBX_WRAP_FLAGS, F.FLD_STATUS_WDOG, F.FLD_STATUS_DC_LOST, 
     F.FLD_STATUS_PDO_OVR, F.FLD_WRAP_FLAGS]
  | _ => []

/-! ### Objects, types and access (R404, R405, R408) -/

/-- A subindex: data type, access code (0 ro, 1 rw, 2 rwp, 3 ex, 4 const, 5 wo), P, and length in bits. -/
structure SubInfo where
  typ : Nat
  acc : Nat
  p : Bool
  bits : Nat
  deriving DecidableEq, Repr

def subBool (acc : Nat) (p : Bool) : SubInfo := ⟨0x01, acc, p, 1⟩
def subU8 (acc : Nat) (p : Bool) : SubInfo := ⟨0x05, acc, p, 8⟩
def subU16 (acc : Nat) (p : Bool) : SubInfo := ⟨0x06, acc, p, 16⟩
def subU32 (acc : Nat) (p : Bool) : SubInfo := ⟨0x07, acc, p, 32⟩
def subU64 (acc : Nat) (p : Bool) : SubInfo := ⟨0x1B, acc, p, 64⟩
def subBytes (acc n : Nat) : SubInfo := ⟨0x0A, acc, false, 8 * n⟩
def subDomain (acc : Nat) : SubInfo := ⟨0x0F, acc, false, 0⟩

/-- The object's function block number (B / 256) and its place in the block, for basic and expert objects. -/
def blockOf (i : Nat) : Nat := if 0x4000 ≤ i then i / 256 - 0x20 else i / 256

def isMapping (i : Nat) : Bool := decide ((0x1600 ≤ i ∧ i < 0x1604) ∨ (0x1A00 ≤ i ∧ i < 0x1A04))
def isAssignment (i : Nat) : Bool := decide (i = 0x1C12 ∨ i = 0x1C13)
def isSummary (i : Nat) : Bool := decide (0x2100 ≤ i ∧ i < 0x3400 ∧ i % 256 = 0)
def isCounter (i : Nat) : Bool := decide (0x2100 ≤ i ∧ i < 0x3400 ∧ 0x40 ≤ i % 256 ∧ i % 256 - 0x40 < (blockCounters (i / 256)).length) && decide (i ≠ 0x3380)
def isPort (i : Nat) : Bool := decide (0x4100 ≤ i ∧ i < 0x5400 ∧ i % 256 = 0)

/-- A stored value of firmware's own objects. -/
def objVal (s : State) (i k : Nat) : Nat := Tab.get 0 s.dict.objs (i * 256 + k)
def setObj (s : State) (i k v : Nat) : State := s.setDict { s.dict with objs := Tab.set 0 s.dict.objs (i * 256 + k) v }

/-- The highest subindex in use of a mapping or an assignment: its last entry that is not zero. -/
def lastUsed (s : State) (i : Nat) : Nat → Nat
  | 0 => 0
  | n + 1 => if objVal s i (n + 1) ≠ 0 then n + 1 else lastUsed s i n

/-- Objects that the principal table and the blocks' chapters name: object code (7 VAR, 8 ARRAY, 9 RECORD) and last subindex. -/
def namedHead (i : Nat) : Option (Nat × Nat) :=
  match i with
  | 0x1000 => some (7, 0) | 0x1001 => some (7, 0) | 0x1008 => some (7, 0) | 0x100A => some (7, 0) | 0x1018 => some (9, 4)
  | 0x1C00 => some (8, 4) | 0x1C32 => some (9, 12) | 0x1C33 => some (9, 12)
  | 0x2000 => some (9, 3) | 0x2001 => some (7, 0) | 0x2002 => some (7, 0) | 0x2010 => some (8, 32) | 0x2201 => some (9, 4)
  | 0x2401 => some (8, 16) | 0x2A10 => some (7, 0) | 0x3101 => some (7, 0) | 0x3102 => some (7, 0) | 0x3110 => some (7, 0)
  | 0x3111 => some (7, 0) | 0x3120 => some (7, 0) | 0x3201 => some (7, 0) | 0x3202 => some (7, 0)
  | 0x3203 => some (8, (Config.majorStepping - 1) % 256)
  | 0x3380 => some (8, 255) | 0x33C0 => some (8, 255) | 0x4201 => some (7, 0) | 0x5101 => some (8, 2)
  | _ => none

/-- An object's code and the last subindex it has. -/
def objHead (i : Nat) : Option (Nat × Nat) :=
  if isMapping i then some (9, 64)
  else if isAssignment i then some (8, 4)
  else match namedHead i with
    | some h => some h
    | none => if isSummary i then some (9, 3) else if isCounter i || isPort i then some (9, 2) else none

/-- A subindex above 0, or of a VAR. -/
def subBody (i k : Nat) : Option SubInfo :=
  if isMapping i then some (subU32 2 false)
  else if isAssignment i then some (subU16 2 false)
  else match i with
    | 0x1000 => some (subU32 4 false)
    | 0x1001 => some (subU8 0 true)
    | 0x1008 => some ⟨0x09, 4, false, 64⟩
    | 0x100A => some ⟨0x09, 0, false, 8 * Config.versionText.length % 4096⟩
    | 0x1018 => some (subU32 4 false)
    | 0x1C00 => some (subU8 4 false)
    | 0x1C32 => some (if k ∈ [1, 4, 8, 11, 12] then subU16 2 false else subU32 2 false)
    | 0x1C33 => some (if k ∈ [1, 4, 8, 11, 12] then subU16 2 false else subU32 2 false)
    | 0x2000 => some (if k = 3 then subU64 0 true else subU8 0 true)
    | 0x2001 => some (subU8 1 false)
    | 0x2002 => some (subU32 5 false)
    | 0x2010 => some (subBytes 0 16)
    | 0x2201 => some (match k with | 1 => subU8 2 false | 2 => subU16 2 false | 3 => subBool 2 false | _ => subU8 2 false)
    | 0x2401 => some (subU64 0 true)
    | 0x2A10 => some (subDomain 0)
    | 0x3101 => some (subDomain 0)
    | 0x3102 => some (subDomain 0)
    | 0x3110 => some (subDomain 0)
    | 0x3111 => some (subBytes 1 32)
    | 0x3120 => some (subDomain 5)
    | 0x3201 => some (subU8 5 false)
    | 0x3202 => some (subBytes 0 64)
    | 0x3203 => some (subU8 0 false)
    | 0x3380 => some (subU32 0 true)
    | 0x33C0 => some (subU32 1 true)
    | 0x4201 => some (subBytes 3 240)
    | 0x5101 => some (subBytes 3 64)
    | _ =>
      if isSummary i then some (match k with | 1 => subU8 0 true | 2 => subU64 0 true | _ => subU32 0 true)
      else if isCounter i then some (if k = 1 then subU64 0 false else subBool 0 false)
      else if isPort i then some (if k = 1 then subU32 3 false else subU64 3 false)
      else none

/-- The description of a subindex; none when it does not exist. -/
def subInfo (i k : Nat) : Option SubInfo :=
  match objHead i with
  | none => none
  | some (c, n) => if n < k then none else if c ≠ 7 ∧ k = 0 then some (subU8 0 false) else subBody i k

/-- Subindex 0 of an ARRAY or a RECORD: the highest subindex in use. -/
def highestSub (s : State) (i : Nat) : Nat :=
  match objHead i with
  | none => 0
  | some (_, n) => if isMapping i || isAssignment i then lastUsed s i n else n

/-- Bytes of a value outside process data. -/
def SubInfo.bytes (d : SubInfo) : Nat := (d.bits + 7) / 8

/-! ### Register ports (R409, R448) -/

/-- The offsets that a block's register port may reach. -/
def portReaches (b off : Nat) : Bool :=
  let q := (off - 0x1000000) % 0x400000
  let inQ := decide (0x1000000 ≤ off ∧ off < 0x2000000)
  let cl := (q - 0x200000) % 0x40000
  let inC := inQ && decide (0x200000 ≤ q)
  let span := fun (x lo hi : Nat) => decide (lo ≤ x ∧ x ≤ hi)
  match b with
  | 0x21 => span off 0 0x0FFFFF
  | 0x22 => span off 0 0x0FFFFF
  | 0x23 => span off 0x100000 0x1FFFFF
  | 0x24 => span off 0x500000 0x5FFFFF
  | 0x25 => span off 0x700000 0x7FFFFF
  | 0x26 => inC && decide (cl < 0x20000) && span (cl % 0x2000) 0 0xBFF
  | 0x27 => inC && decide (cl < 0x20000) && span (cl % 0x2000) 0xC00 0xFFF
  | 0x28 => inC && decide (cl < 0x20000) && span (cl % 0x2000) 0x1000 0x13FF
  | 0x29 => inC && decide (0x20000 ≤ cl)
  | 0x2A => inQ && span q 0x80000 0xBFFFF
  | 0x2B => inQ && span q 0 0x7FFFF
  | 0x2C => span off 0x640000 0x6BFFFF
  | 0x2D => span off 0x600000 0x63FFFF
  | 0x2E => (inQ && span q 0xC0000 0xFFFFF) || span off 0x801000 0x8013FF
  | 0x2F => inQ && span q 0x100000 0x17FFFF
  | 0x30 => (inQ && span q 0x180000 0x1FFFFF) || span off 0x6C0000 0x6C0BFF
  | 0x31 => span off 0x200000 0x2000FF
  | 0x32 => span off 0x800000 0x8FFFFF && !(span off 0x801000 0x8013FF)
  | 0x33 => span off 0x300000 0x4FFFFF
  | _ => false

/-- An access through a register port: an error response aborts with 0x0800_0000; so does an access that the register's block does
not answer at once. -/
def portAccess (s : State) (b off : Nat) (write : Option Nat) : State × Except Nat (List Byte) :=
  if !(portReaches b off) || (decide (b = 0x31) && write.isSome) then (s, .error 0x08000020)
  else
    let r := match write with | some v => windowWrite s mcUnit off 8 v | none => windowRead s mcUnit off 8
    match r.2 with
    | .ok v => (r.1, .ok (bytesLE 8 v))
    | _ => (s, .error 0x08000000)

/-! ### Summaries and counters (R408) -/

/-- Instances of a field that do not read 0, with their values. -/
def fieldInstances (s : State) (f : Fld) : List Nat := (s.regs.filter (fun e => decide (e.1 / 131072 = f.key))).map (fun e => e.2)

def flagsWord (s : State) (b : Nat) : Nat :=
  (blockFlags b).foldr (fun f a => b2n ((fieldInstances s f).any (fun v => decide (v ≠ 0))) + 2 * a) 0 % 2 ^ 64

def counterSum (s : State) (c : Fld × Fld × Option Nat) : Nat := (fieldInstances s c.1).sum

def counterWrapped (s : State) (c : Fld × Fld × Option Nat) : Bool :=
  (fieldInstances s c.2.1).any (fun v => match c.2.2 with | some b => decide (bit v b = 1) | none => decide (v ≠ 0))

/-! ### Reading a subindex -/

/-- A DOMAIN's bytes at an offset: as many as the path carries, and the total size. -/
structure Piece where
  data : List Byte
  total : Nat
  deriving DecidableEq, Repr

def pieceOf (all : List Byte) (off max : Nat) : Piece := ⟨(all.drop off).take max, all.length⟩

/-- The bytes of a DOMAIN object. -/
def domainRead (s : State) (i off max : Nat) : State × Except Nat Piece :=
  let mem := fun (s : State) (da n : Nat) =>
    let r := memRead s (da + off) (Nat.min max (n - off)) Around.quiet
    match r.2 with
    | some bs => (r.1, (.ok ⟨bs, n⟩ : Except Nat Piece))
    | none => (s, .error 0x08000000)
  match i with
  | 0x2A10 =>
    let da := s.rd F.KMR_SHAPE_DA 0
    let h := memRead s da 4 Around.quiet
    match h.2 with
    | some bs => mem h.1 da (64 + 32 * natAt bs 2 2)
    | none => (s, .error 0x08000000)
  | 0x3101 => (s, .ok (pieceOf (Config.publicKey 0 ++ Config.publicKey 1) off max))
  | 0x3102 => (s, .ok ⟨nvRead s (0x02DF0000 + off) (Nat.min max (0x10000 - off)), 0x10000⟩)
  | 0x3110 => mem s (s.rd F.SEC_ATT_DA 0) 0x2000
  | _ => (s, .error 0x06010000)

def vendorId : Nat := 0x0B73
def productCode : Nat := 0x9840
/-- "TGZ-9840". -/
def deviceName : List Byte := [0x54#8, 0x47#8, 0x5A#8, 0x2D#8, 0x39#8, 0x38#8, 0x34#8, 0x30#8]

/-- A word of the output or input image. -/
def imageWord (bs : List Byte) (k : Nat) : Nat := natAt bs (4 * (k - 1)) 4

/-- The images with a word replaced. -/
def setImageWord (bs : List Byte) (k v : Nat) : List Byte :=
  let full := bs ++ List.replicate (4 * k - bs.length) 0#8
  full.take (4 * (k - 1)) ++ bytesLE 4 v ++ full.drop (4 * k)

/-- Firmware's state of a block, which no rule gives. -/
def blockState (s : State) : State × Nat := (s.fresh.2, s.fresh.1 % 256)

/-- The value of a subindex that is neither a DOMAIN nor subindex 0 of an ARRAY or a RECORD. -/
def subValue (s : State) (i k : Nat) : State × Except Nat (List Byte) :=
  let num := fun (v : Nat) => (s, (.ok (bytesLE ((subInfo i k).elim 0 SubInfo.bytes) v) : Except Nat (List Byte)))
  match i with
  | 0x1000 => num 0
  | 0x1001 => num (errorReg s)
  | 0x1008 => (s, .ok deviceName)
  | 0x100A => (s, .ok Config.versionText)
  | 0x1018 => num (match k with | 1 => vendorId | 2 => productCode | 3 => revisionCode | _ => Config.deviceSerial % 2 ^ 32)
  | 0x1C00 => num k
  | 0x2000 => num (match k with | 1 => deviceState s | 2 => alState s | _ => Config.deviceSerial)
  | 0x2001 => num (alState s)
  | 0x2010 => (s, .ok (match s.dict.log[k - 1]? with
      | some (m, node, t) => bytesLE 8 m ++ bytesLE 2 node ++ bytesLE 6 t
      | none => List.replicate 16 0#8))
  | 0x2401 =>
    let t := (k - 1) / 2
    num (if k % 2 = 1 then s.lap t else (s.track t).angle + s.trkState t * 2 ^ 32)
  | 0x3111 => (s, .ok ((List.range 4).flatMap (fun j => bytesLE 8 (s.rd F.SEC_ATT_NONCE_DATA j))))
  | 0x3202 => (s, .ok ((List.range 8).flatMap (fun j => bytesLE 8 (s.rd F.TST_CDL_LAST_DATA j))))
  | 0x3203 => num 4
  | 0x3380 => num (imageWord s.dict.output k)
  | 0x33C0 => num (imageWord s.dict.input k)
  | 0x4201 => (s, .ok ((List.range 240).map (fun j =>
      BitVec.ofNat 8 ((List.range 4).foldr (fun x a => Tab.get 0 s.pins.fuse (4 * j + x) % 4 + 4 * a) 0))))
  | 0x5101 => (s, .ok (keyDigest s (k + 1)))
  | _ =>
    if isSummary i then
      match k with
      | 1 => let f := blockState s; (f.1, .ok (bytesLE 1 f.2))
      | 2 => num (flagsWord s (blockOf i))
      | _ => num (Tab.get 0 s.dict.raised (i % 2 ^ 16))
    else if isCounter i then
      match (blockCounters (blockOf i))[i % 256 - 0x40]? with
      | none => (s, .error 0x06020000)
      | some c =>
        let v := counterSum s c
        if k = 1 then (s.setDict { s.dict with sums := Tab.set 0 s.dict.sums i v }, .ok (bytesLE 8 v))
        else num (b2n (counterWrapped s c || decide (Tab.get 0 s.dict.sums i / 2 ^ 64 < v / 2 ^ 64)))
    else if isPort i then (if k = 1 then num (objVal s i 1) else portAccess s (blockOf i) (objVal s i 1) none)
    else num (objVal s i k)

/-- The read of one subindex under R405 and R406: what it returns and, of a DOMAIN, the total size. -/
def subRead (s : State) (i k off max : Nat) : State × Except Nat Piece :=
  match objHead i with
  | none => (s, .error 0x06020000)
  | some (c, _) =>
    match subInfo i k with
    | none => (s, .error 0x06090011)
    | some d =>
      if d.acc = 5 then (s, .error 0x06010001)
      else if d.typ = 0x0F then domainRead s i off max
      else if off ≠ 0 then (s, .error 0x06010000)
      else if c ≠ 7 ∧ k = 0 then (s, .ok ⟨[BitVec.ofNat 8 (highestSub s i)], 0⟩)
      else
        let r := subValue s i k
        match r.2 with
        | .ok bs => (r.1, .ok ⟨bs, 0⟩)
        | .error e => (s, .error e)

/-! ### Process data mapping (R415) -/

/-- An entry of a mapping: index, subindex and bit length; zero stands for none. -/
def mapIndex (e : Nat) : Nat := bits e 16 16
def mapSub (e : Nat) : Nat := bits e 8 8
def mapBits (e : Nat) : Nat := bits e 0 8

/-- The entry names a subindex marked P with its full length. -/
def entryOK (e : Nat) : Bool :=
  decide (e = 0) || match subInfo (mapIndex e) (mapSub e) with | some d => d.p && decide (d.bits = mapBits e) | none => false

/-- The mapping objects assigned to a direction (0x1C12 outputs, 0x1C13 inputs), and their entries in order. -/
def assigned (s : State) (i : Nat) : List Nat := ((List.range 4).map (fun k => objVal s i (k + 1))).filter (fun m => decide (m ≠ 0))
def entriesOf (s : State) (i : Nat) : List Nat :=
  (assigned s i).flatMap (fun m => ((List.range 64).map (fun k => objVal s m (k + 1))).filter (fun e => decide (e ≠ 0)))

def mappedBytes (s : State) (i : Nat) : Nat := ((entriesOf s i).map (fun e => mapBits e / 8)).sum

/-- Both directions keep their limit of 1,024 bytes. -/
def mappingFits (s : State) : Bool := decide (mappedBytes s 0x1C12 ≤ 1024) && decide (mappedBytes s 0x1C13 ≤ 1024)

/-- An assignment names a mapping object of its direction, or none. -/
def assignOK (i v : Nat) : Bool := decide (v = 0) || decide (v / 4 = (if i = 0x1C12 then 0x1600 else 0x1A00) / 4)

/-! ### Writing a subindex -/

/-- 0x2001 while the field ports are disabled (R413). -/
def alWrite (s : State) (v : Nat) : State × Nat :=
  if s.on F.FLD_CTRL_EN 0 then (s, 0x06010002)
  else match alRefusal s v with
    | some _ => (s, 0x08000022)
    | none => (((setAL (settleAL s) v).wr F.FLD_STATUS_AL_ERR 0 0).wr F.FLD_STATUS_AL_CODE 0 0, 0)

/-- 0x2002: the expert unlock of a path (R410). -/
def unlockWrite (s : State) (path v : Nat) : State :=
  let rest := s.dict.unlock.filter (fun p => decide (p ≠ path))
  s.setDict { s.dict with unlock := if v = 0x984055AA then path :: rest else rest }

/-- 0x2201 (R432): kind, index, HOLD, and EXECUTE, whose reset follows the response. -/
def resetObject (s : State) (k v : Nat) : State × Nat :=
  if k = 1 ∧ 6 < v then (s, 0x06090031)
  else if k = 4 then
    (if v = 1 then s.setDict { s.dict with exec := some (objVal s 0x2201 1, objVal s 0x2201 2, decide (objVal s 0x2201 3 ≠ 0)) } else s, 0)
  else (setObj s 0x2201 k v, 0)

/-- A segment of a firmware image for the other slot (R458). -/
def slotSegment (s : State) (off : Nat) (bs : List Byte) : State × Nat :=
  if 0x01000000 < off + bs.length then (s, 0x06090030) else (nvGuarded s (nvSlot (1 - runningSlot s) + off) bs, 0)

/-- 0x4201 and 0x5101: fuses, programmed once (R435, R449). -/
def fuseWrite (s : State) (bs : List Byte) : State × Nat :=
  if s.pins.programmed then (s, 0x06010002)
  else
    let v := ofBytesLE bs
    ({ s with pins := { s.pins with programmed := true, fuse := (List.range 960).foldl (fun t j => Tab.set 0 t j (bits v (2 * j) 2)) [] } }, 0)
def keyWrite (s : State) (slot : Nat) (bs : List Byte) : State × Nat :=
  if keyDigest s slot ≠ List.replicate 64 0#8 then (s, 0x06010002)
  else (s.setSec { s.sec with keys := Tab.set (List.replicate 64 0#8) s.sec.keys slot bs }, 0)

/-- The effect of a write that R405 allows: the state and the abort code. -/
def subStore (s : State) (path i k off : Nat) (bs : List Byte) : State × Nat :=
  let v := ofBytesLE bs
  if isMapping i then
    (let t := setObj s i k v
     if entryOK v && mappingFits t then (t, 0) else (s, 0x06090030))
  else if isAssignment i then
    (let t := setObj s i k v
     if assignOK i v && mappingFits t then (t, 0) else (s, 0x06090030))
  else if (i = 0x1C32 ∨ i = 0x1C33) ∧ k = 1 ∧ 2 < v then (s, 0x06090031)
  else match i with
    | 0x2001 => alWrite s v
    | 0x2002 => (unlockWrite s path v, 0)
    | 0x2201 => resetObject s k (if k = 3 then b2n (decide (v ≠ 0)) else v)
    | 0x3111 => (attGo ((List.range 4).foldl (fun s j => s.wr F.SEC_ATT_NONCE_DATA j (natAt bs (8 * j) 8)) s), 0)
    | 0x3120 => slotSegment s off bs
    | 0x3201 => (if v = 1 then lapStart s else s, 0)
    | 0x33C0 => (s.setDict { s.dict with input := setImageWord s.dict.input k v }, 0)
    | 0x4201 => fuseWrite s bs
    | 0x5101 => keyWrite s (k + 1) bs
    | _ =>
      if isPort i ∧ k = 2 then
        (match (portAccess s (blockOf i) (objVal s i 1) (some v)) with
         | (t, .ok _) => (t, 0)
         | (_, .error e) => (s, e))
      else (setObj s i k v, 0)

/-- The write of one subindex under R405, R406 and R410: the state and the abort code; a failed write changes nothing. -/
def subWrite (s : State) (path i k off : Nat) (bs : List Byte) : State × Nat :=
  match objHead i with
  | none => (s, 0x06020000)
  | some _ =>
    match subInfo i k with
    | none => (s, 0x06090011)
    | some d =>
      if d.acc = 0 ∨ d.acc = 4 then (s, 0x06010002)
      else if d.typ ≠ 0x0F ∧ off ≠ 0 then (s, 0x06010000)
      else if d.acc = 2 ∧ alState s ≠ 2 then (s, 0x08000022)
      else if d.acc = 3 ∧ (alState s ≠ 2 ∨ !(s.dict.unlock.contains path)) then (s, 0x08000022)
      else if d.typ ≠ 0x0F ∧ bs.length ≠ d.bytes then (s, 0x06070010)
      else subStore s path i k off bs

end Sys2Proof.Machine
end

