-- ==== Sys2Proof/Machine/Field.lean ====
section
/-!
DEFINITION. The field ports (R414-R417): process data, the SM2 watchdog, the distributed clock, links.
-/
namespace Sys2Proof.Machine

/-! ### The output image (R415) -/

/-- The output words that a buffer of process data brings: subindex of 0x3380 and value, by the mapping's entries. -/
def outputWords : List Nat → List Byte → List (Nat × Nat)
  | [], _ => []
  | e :: r, bs =>
    let n := mapBits e / 8
    let rest := outputWords r (bs.drop n)
    if mapIndex e = 0x3380 then (mapSub e, natAt bs 0 4) :: rest else rest

/-- Words of rising subindexes as runs of bytes: first subindex and bytes. -/
def wordRuns : List (Nat × Nat) → List (Nat × List Byte)
  | [] => []
  | (k, v) :: r =>
    match wordRuns r with
    | (j, bs) :: t => if j = k + 1 then (k, bytesLE 4 v ++ bs) :: t else (k, bytesLE 4 v) :: (j, bs) :: t
    | [] => [(k, bytesLE 4 v)]

/-- A completed buffer copied as the output image; while a scratchpad initialises, the copy goes on later. -/
def copyOutput (s : State) (bs : List Byte) : State :=
  let sorted := ((outputWords (entriesOf s 0x1C12) bs).foldl (fun t e => Tab.ins (Tab.erase t e.1) e.1 e.2) ([] : Tab Nat))
  let s := s.setDict { s.dict with output := sorted.foldl (fun b e => setImageWord b e.1 e.2) s.dict.output }
  let base := s.rd F.FLD_PDO_OUT_DA 0
  if base = 0 then s
  else
    let runs := (wordRuns sorted).map (fun r => (base + 4 * (r.1 - 1), r.2))
    let words := runs.flatMap (fun r => wordsOf r.1 r.2.length)
    if words.any (fun w => padBusy s (w * 8)) then s.setDict { s.dict with copying := some bs }
    else if words.any (fun w => !(onChip (w * 8)) || padDown s (w * 8)) then s
    else
      let s := runs.foldl (fun s r => s.storePlain r.1 r.2) s
      arriveFrom s (s.rd F.FLD_PDO_OUT_CLUSTER 0 * 2048 + s.rd F.FLD_PDO_OUT_HUR 0) 1

/-- SM2_BUFFER: the AL state is OP; a second buffer that comes while a copy is in progress replaces the one that waits. -/
def sm2Buffer (s : State) (bs : List Byte) : State :=
  if !(s.on F.FLD_CTRL_EN 0) || hubDown s || decide (alState s ≠ 8) then s
  else
    let s := s.bump C.FLD_FRAME_CNT 0 1
    match s.dict.copying, s.dict.waiting with
    | none, _ => copyOutput s bs
    | some _, none => s.setDict { s.dict with waiting := some bs }
    | some _, some _ => ((s.setDict { s.dict with waiting := some bs }).bump C.FLD_PDO_OVR_CNT 0 1).wr F.FLD_STATUS_PDO_OVR 0 1 |>.owe 0x33000003 4

/-- A copy that waited is tried again; then the buffer behind it is copied. -/
def resumeCopy (s : State) : State :=
  match s.dict.copying with
  | none => s
  | some bs =>
    let t := copyOutput (s.setDict { s.dict with copying := none }) bs
    match t.dict.copying, t.dict.waiting with
    | none, some nxt => copyOutput (t.setDict { t.dict with waiting := none }) nxt
    | _, _ => t

/-! ### The input image (R415) -/

/-- The bytes of an entry sampled now. -/
def sampleEntry (s : State) (e : Nat) : State × List Byte :=
  let r := subRead s (mapIndex e) (mapSub e) 0 4064
  match r.2 with
  | .ok p => (r.1, p.data)
  | .error _ => (s, List.replicate (mapBits e / 8) 0#8)

def sampleAll : List Nat → State → List Byte → State × List Byte
  | [], s, acc => (s, acc)
  | e :: r, s, acc => let x := sampleEntry s e; sampleAll r x.1 (acc ++ x.2)

/-- INPUT_IMAGE_READ: the mapped words of 0x33C0 are read at FLD_PDO_IN.DA, the other mapped objects are sampled. -/
def inputRead (s : State) : State :=
  if !(s.on F.FLD_CTRL_EN 0) || hubDown s || decide (alState s < 4) then s
  else
    let es := entriesOf s 0x1C13
    let base := s.rd F.FLD_PDO_IN_DA 0
    let at0 := fun (e : Nat) => base + 4 * (mapSub e - 1)
    let mine := es.filter (fun e => decide (mapIndex e = 0x33C0))
    if base ≠ 0 ∧ mine.any (fun e => padBusy s (at0 e)) then s
    else
      let s := if base = 0 then s else mine.foldl (fun s e =>
        if !(onChip (at0 e)) || padDown s (at0 e) then s
        else s.setDict { s.dict with input := setImageWord s.dict.input (mapSub e) (readNat s.sram (at0 e) 4) }) s
      let r := sampleAll es s []
      r.1.emit (.inputs r.2)

/-! ### Watchdog, distributed clock, links (R414, R416, R417) -/

/-- SM2_WATCHDOG. -/
def sm2Watchdog (s : State) : State :=
  if !(s.on F.FLD_CTRL_EN 0) || hubDown s || decide (alState s ≠ 8) then s
  else
    let s := alError (setAL s 4) 0x001B
    let s := s.setDict { s.dict with copying := none, waiting := none }
    let s := (s.bump C.FLD_WDOG_CNT 0 1).wr F.FLD_STATUS_WDOG 0 1 |>.owe 0x33000001 4
    if s.on F.FLD_CTRL_WDOG_EVT_EN 0 then s.signalMC F.FLD_STATUS_WDOG 0 else s

/-- The distributed clock leaves sync. -/
def dcLose (s : State) : State :=
  let s := s.setDict { s.dict with dcIn := 0, dcOut := 0 }
  let s := ((s.wr F.FLD_STATUS_DC_SYNC 0 0).bump C.FLD_DC_LOSS_CNT 0 1).flagMC F.FLD_STATUS_DC_LOST 0 |>.owe 0x33000002 4
  if (objVal s 0x1C32 1 ≠ 0 ∨ objVal s 0x1C33 1 ≠ 0) ∧ 4 ≤ alState s then alError (setAL s 4) 0x002C else s

/-- The tracks that follow the distributed clock do so at once (R201, R219). -/
def dcTracks (s : State) : State := (List.range 8).foldl dcFollow s

/-- DC_UPDATE: an update of the system time with a difference of magnitude `diff` ns. -/
def dcUpdate (s : State) (diff time : Nat) : State :=
  if !(s.on F.FLD_CTRL_EN 0) || hubDown s then s
  else
    let s := { s.wr F.FLD_DC_TIME_NS 0 time with trk := { s.trk with nsFrac := 0 } }
    let inside := decide (diff ≤ s.rd F.FLD_DC_CTRL_SYNC_WIN 0)
    let d := s.dict
    let s := s.setDict { d with dcIn := if inside then d.dcIn + 1 else 0, dcOut := if inside then 0 else d.dcOut + 1 }
    dcTracks (if s.on F.FLD_STATUS_DC_SYNC 0 then (if s.rd F.FLD_DC_CTRL_LOSS 0 ≤ s.dict.dcOut then dcLose s else s)
      else if s.rd F.FLD_DC_CTRL_ACQ 0 ≤ s.dict.dcIn then s.wr F.FLD_STATUS_DC_SYNC 0 1
      else s)

/-- DC_UPDATE_TIMEOUT: 100 ms without an update. -/
def dcTimeout (s : State) : State := if s.on F.FLD_STATUS_DC_SYNC 0 && !(hubDown s) then dcTracks (dcLose s) else s

/-- FIELD_PORT_LINK. -/
def fieldLink (s : State) (p : Nat) (up : Bool) : State :=
  if !(s.on F.FLD_CTRL_EN 0) || hubDown s then s
  else if up then s.setBit F.FLD_STATUS_LINK 0 p else s.clearBit F.FLD_STATUS_LINK 0 p

/-! ### The meanings -/

def execSm2Buffer (data : List Byte) (s : State) : Host.Outcome State Fault Refusal := .next (sm2Buffer s data)
def execInputImageRead (s : State) : Host.Outcome State Fault Refusal := .next (inputRead s)
def execSm2Watchdog (s : State) : Host.Outcome State Fault Refusal := .next (sm2Watchdog s)
def execDcUpdate (diff : Nat) (time : Word) (s : State) : Host.Outcome State Fault Refusal := .next (dcUpdate s diff time.toNat)
def execDcUpdateTimeout (s : State) : Host.Outcome State Fault Refusal := .next (dcTimeout s)
def execFieldPortLink (p : Fin 2) (up : Bool) (s : State) : Host.Outcome State Fault Refusal := .next (fieldLink s p up)

end Sys2Proof.Machine
end

