-- ==== Sys2Proof/Machine/Dictionary.lean ====
section
/-!
DEFINITION. Transactions of the object dictionary (R405-R407, R410, R418-R420): requests and responses in the header of R418, the
five operations, and the paths by which they come.
-/
namespace Sys2Proof.Machine

/-! ### Requests (R418) -/

/-- A request: operation, index, subindex, offset in a DOMAIN, tag, LENGTH, and the data it brings. -/
structure DReq where
  op : Nat
  idx : Nat
  sub : Nat
  off : Nat
  tag : Nat
  len : Nat
  data : List Byte
  deriving DecidableEq, Repr

def DReq.of (bs : List Byte) : DReq :=
  ⟨natAt bs 0 1, natAt bs 2 2, natAt bs 1 1, natAt bs 8 8, natAt bs 16 8, natAt bs 4 4, (bs.drop 32).take (natAt bs 4 4)⟩

/-- What a transaction returns: abort code, data, total size of a DOMAIN. -/
structure DRes where
  abort : Nat
  data : List Byte
  total : Nat
  deriving DecidableEq, Repr

def DRes.failed (e : Nat) : DRes := ⟨e, [], 0⟩

/-- The bytes of a response: header and data. -/
def DRes.bytes (r : DRes) (q : DReq) : List Byte :=
  bytesLE 1 q.op ++ bytesLE 1 q.sub ++ bytesLE 2 q.idx ++ bytesLE 4 r.data.length ++ bytesLE 8 r.abort ++ bytesLE 8 q.tag ++ bytesLE 8 r.total ++ r.data

/-! ### The operations -/

/-- UPLOAD. -/
def dUpload (s : State) (q : DReq) (max : Nat) : State × DRes :=
  let r := subRead s q.idx q.sub q.off max
  match r.2 with
  | .ok p => if max < p.data.length then (s, .failed 0x06010000) else (r.1, ⟨0, p.data, p.total⟩)
  | .error e => (s, .failed e)

/-- DOWNLOAD. -/
def dDownload (s : State) (path : Nat) (q : DReq) : State × DRes :=
  if q.data.length ≠ q.len then (s, .failed 0x06070010)
  else
    let r := subWrite s path q.idx q.sub q.off q.data
    if r.2 = 0 then (r.1, ⟨0, [], 0⟩) else (s, .failed r.2)

/-- The values of subindexes, one after the other. -/
def readSubs (i max : Nat) : List Nat → State → List Byte → State × Except Nat (List Byte)
  | [], s, acc => (s, .ok acc)
  | k :: r, s, acc =>
    let x := subRead s i k 0 max
    match x.2 with
    | .ok p => readSubs i max r x.1 (acc ++ p.data)
    | .error e => (s, .error e)

/-- UPLOAD_CA: the subindexes in use from the named one on. -/
def dUploadCA (s : State) (q : DReq) (max : Nat) : State × DRes :=
  match objHead q.idx with
  | none => (s, .failed 0x06020000)
  | some _ =>
    if (subInfo q.idx q.sub).isNone then (s, .failed 0x06090011)
    else
      let r := readSubs q.idx max ((List.range (highestSub s q.idx + 1 - q.sub)).map (fun k => q.sub + k)) s []
      match r.2 with
      | .ok bs => if max < bs.length then (s, .failed 0x06010000) else (r.1, ⟨0, bs, 0⟩)
      | .error e => (s, .failed e)

/-- Values written to subindexes from `k` on, until the data is used up. -/
def writeSubs (path i : Nat) : Nat → State → Nat → List Byte → State × Nat
  | 0, s, _, bs => (s, if bs.isEmpty then 0 else 0x06070010)
  | f + 1, s, k, bs =>
    if bs.isEmpty then (s, 0)
    else match subInfo i k with
      | none => (s, 0x06070010)
      | some d =>
        let n := if d.typ = 0x0F then bs.length else d.bytes
        let x := subWrite s path i k 0 (bs.take n)
        if x.2 = 0 then writeSubs path i f x.1 (k + 1) (bs.drop n) else (s, x.2)

/-- DOWNLOAD_CA: all of it, or nothing. -/
def dDownloadCA (s : State) (path : Nat) (q : DReq) : State × DRes :=
  match objHead q.idx with
  | none => (s, .failed 0x06020000)
  | some _ =>
    if (subInfo q.idx q.sub).isNone then (s, .failed 0x06090011)
    else if q.data.length ≠ q.len then (s, .failed 0x06070010)
    else
      let r := writeSubs path q.idx 256 s q.sub q.data
      if r.2 = 0 then (r.1, ⟨0, [], 0⟩) else (s, .failed r.2)

/-- OBJ_INFO. -/
def dInfo (s : State) (q : DReq) (max : Nat) : State × DRes :=
  match objHead q.idx with
  | none => (s, .failed 0x06020000)
  | some (c, n) =>
    let word := fun (k : Nat) => match subInfo q.idx k with | some d => d.typ + d.acc * 2 ^ 16 + b2n d.p * 2 ^ 19 + d.bits % 2 ^ 12 * 2 ^ 20 | none => 0
    let bs := bytesLE 1 c ++ bytesLE 1 (highestSub s q.idx) ++ (List.range (n + 1)).flatMap (fun k => bytesLE 4 (word k))
    if max < bs.length then (s, .failed 0x06010000) else (s, ⟨0, bs, 0⟩)

/-- A transaction (R407), atomic to every other: `max` bytes of data fit the path's response. -/
def dExec (s : State) (path : Nat) (q : DReq) (max : Nat) : State × DRes :=
  let s := settleAL s
  match q.op with
  | 1 => dUpload s q max
  | 2 => dDownload s path q
  | 3 => dUploadCA s q max
  | 4 => dDownloadCA s path q
  | 5 => dInfo s q max
  | _ => (s, .failed 0x06010000)

/-! ### Paths (R405, R419, R420) -/

/-- The command of operation `op` takes a request: its own, or, as UPLOAD, one of no known operation. -/
def takesOp (op : Nat) (q : DReq) : Bool := decide (q.op = op) || (decide (op = 1) && decide (q.op = 0 ∨ 5 < q.op))

/-- The field path serves the dictionary from PREOP upward. -/
def fieldTransaction (s : State) (op : Nat) (req : List Byte) : State :=
  let q := DReq.of req
  if !(takesOp op q) || !(s.on F.FLD_CTRL_EN 0) || decide (alState s < 2) then s
  else
    let r := dExec (s.bump C.FLD_FRAME_CNT 0 1) 0 q 4064
    r.1.emit (.answer 0 r.2.abort r.2.data)

/-- The request buffer, and a response written to the response buffer. -/
def mailboxRequest (s : State) : List Byte := (List.range 512).flatMap (fun i => bytesLE 8 (s.rd F.FLD_MBX_REQ_BUF_DATA i))
def writeResponse (s : State) (bs : List Byte) : State :=
  (List.range ((bs.length + 7) / 8)).foldl (fun s i => s.wr F.FLD_MBX_RSP_BUF_DATA i (natAt bs (8 * i) 8)) s

/-- The mailbox's request is executed and answered. -/
def mailboxTransaction (s : State) (op : Nat) : State :=
  let q := DReq.of (mailboxRequest s)
  if !(s.on F.FLD_MBX_STAT_BUSY 0) || !(takesOp op q) then s
  else
    let r := dExec s 1 q 4064
    let s := if r.2.abort = 0 then r.1 else r.1.bump C.FLD_MBX_ABORT_CNT 0 1
    raiseMsix (((writeResponse s (r.2.bytes q)).wr F.FLD_MBX_STAT_BUSY 0 0).wr F.FLD_MBX_STAT_DONE 0 1)

/-- A request in a CONTROL cell; its response goes back in one (R420). The cell is received, or relayed, also while no firmware runs. -/
def cellTransaction (s : State) (op p : Nat) (c : Cell) : State :=
  let q := DReq.of (c.payload.drop 32)
  if natAt c.payload 0 1 ≠ 0x10 ∨ !(takesOp op q) then s
  else cellArrives s p 5 c (fun s =>
    if hubDown s || !s.pwr.mc then s else
    let r := if entitled s c.src then dExec s (2 + c.src) q 448 else (s, .failed 0x08000021)
    sendCell r.1 (controlCell r.1 c.src (bytesLE 8 0x11 ++ List.replicate 24 0#8 ++ r.2.bytes q)) none)

/-- A request of this device's firmware to another node. -/
def sendRequest (s : State) (op dst : Nat) (req : List Byte) : State :=
  let q := DReq.of req
  if !(takesOp op q) then s
  else
    let s := s.setDict { s.dict with asked := s.dict.asked ++ [q.tag] }
    sendCell s (controlCell s dst (bytesLE 8 0x10 ++ List.replicate 24 0#8 ++ req.take 480)) none

/-- A transaction command of operation `op` on a path. -/
def transaction (s : State) (op : Nat) (path : DPath) : State :=
  let up := !(hubDown s) && s.pwr.mc
  match path with
  | .field req => if up then fieldTransaction s op req else s
  | .mailbox => if up then mailboxTransaction s op else s
  | .kamrus p c => cellTransaction s op p c
  | .sent dst req => if up then sendRequest s op dst req else s

/-- DICTIONARY_RESPONSE: it ends the transaction whose tag it carries; a late one is discarded. -/
def dictionaryResponse (s : State) (p : Nat) (c : Cell) : State :=
  cellArrives s p 5 c (fun s =>
    let h := c.payload.drop 32
    let tag := natAt h 16 8
    if natAt c.payload 0 1 ≠ 0x11 ∨ !(s.dict.asked.contains tag) then s
    else (s.setDict { s.dict with asked := s.dict.asked.erase tag }).emit (.answer (2 + c.src) (natAt h 8 4) ((h.drop 32).take (natAt h 4 4))))

/-- DICTIONARY_TIMEOUT. -/
def dictionaryTimeout (s : State) (tag : Nat) : State :=
  if s.dict.asked.contains tag then (s.setDict { s.dict with asked := s.dict.asked.erase tag }).emit (.answer 2 0x05040000 []) else s

/-- UNLOCK_TIMEOUT (R410): 600 s without an ex write on a path. -/
def unlockTimeout (s : State) (path : Nat) : State :=
  s.setDict { s.dict with unlock := s.dict.unlock.filter (fun p => decide (p ≠ path)) }

/-! ### The meanings -/

def execUpload (path : DPath) (s : State) : Host.Outcome State Fault Refusal := .next (transaction s 1 path)
def execDownload (path : DPath) (s : State) : Host.Outcome State Fault Refusal := .next (transaction s 2 path)
def execUploadCa (path : DPath) (s : State) : Host.Outcome State Fault Refusal := .next (transaction s 3 path)
def execDownloadCa (path : DPath) (s : State) : Host.Outcome State Fault Refusal := .next (transaction s 4 path)
def execObjInfo (path : DPath) (s : State) : Host.Outcome State Fault Refusal := .next (transaction s 5 path)
def execUnlockTimeout (path : Nat) (s : State) : Host.Outcome State Fault Refusal := .next (unlockTimeout s path)
def execDictionaryResponse (p : Fin 12) (c : Cell) (s : State) : Host.Outcome State Fault Refusal := .next (dictionaryResponse s p c)
def execDictionaryTimeout (tag : Nat) (s : State) : Host.Outcome State Fault Refusal := .next (dictionaryTimeout s tag)
/-- MBX_EMCY_POP: a 64-bit read of FLD_MBX_EMCY. -/
def execMbxEmcyPop (s : State) : Host.Outcome State Fault Refusal := .next (showAns (windowRead s pcieUnit 0x300010 8) false)

end Sys2Proof.Machine
end

