-- ==== Sys2Proof/Machine/Network.lean ====
section
/-!
DEFINITION. Packets at their destination (R276, R300, R302), the wake of sleeping domains (R309, R310), and the accesses that wait
at their memory (R173).
-/
namespace Sys2Proof.Machine

/-! ### Register accesses in packets (R300) -/

/-- A REG_READ or REG_WRITE at its block, or at the user logic of a fabric port. -/
def regPacket (s : State) (p : Packet) : State :=
  match regionOf p.da with
  | .window off =>
    let w := if p.width = 0 then 8 else 4
    if (targetAt off).isSome ∧ (accessHalf off w).isSome then targetDeliver s p
    else
      let r := if p.op = 1 then windowRead s p.src off w else windowWrite s p.src off w (ofBytesLE p.data)
      match r.2 with
      | .ok v => respond r.1 p 3 3 p.da 1 0 (if p.op = 1 then bytesLE w v else [])
      | .error => respond r.1 p 3 3 p.da 1 1 []
      | .wait => s
  | _ => respond s p 3 3 p.da 1 1 []

/-- An EVENT at the MC. -/
def eventPacket (s : State) (p : Packet) : State := if p.dst = mcUnit then s.emit (.event p.src p.data) else s

/-! ### A packet sent (R304-R310) -/

/-- A packet at its destination unit, by class and operation. -/
def arriveAt (s : State) (p : Packet) (a : Arrival) : State :=
  match p.cls, p.op with
  | 0, 1 => serveRequest s p a
  | 0, 2 => serveRequest s p a
  | 0, 3 => if a = .marked then cellError s p else cellPacket s p
  | 1, _ => takeResponse s p (decide (a = .marked) || decide (p.status ≠ 0))
  | 2, 1 => batonPacket s p
  | 2, 2 => arrivePacket s p
  | 3, 1 => regPacket s p
  | 3, 2 => regPacket s p
  | 3, 3 => takeRegResp s p
  | 3, 4 => eventPacket s p
  | 4, 1 => traceArrives s p
  | _, _ => s

/-- A packet is in the network: it is held, lost, refused, or arrives (R304-R310). -/
def enter (s : State) (p : Packet) : State :=
  let t := carry s p
  match t.2 with
  | .held => t.1
  | .gone => markGaps t.1 p.probes
  | .refused => refuseRequest t.1 p
  | a => arriveAt t.1 p a

/-- A packet leaves its source. A memory request or register access is open from its issue on (R307), and goes after those that its source
issued earlier to the same destination. -/
def launch (s : State) (p : Packet) : State :=
  let ctl := decide (p.cls = 3)
  if isRequest p && !(decide (p.cls = 0 ∧ p.op = 3)) then
    let s := openReq s p ctl
    if waitsBehind s p ctl then s else enter (markSent s p ctl) p
  else enter s p

/-- The packet of a command, with the command's class and operation; one flit but for a cell (R299), issued now (R300). -/
def launchAs (s : State) (cls op : Nat) (p : Packet) : State :=
  launch s { p with cls := cls, op := op, flits := if cls = 0 ∧ op = 3 then Nat.min 5 (Nat.max 1 ((p.data.length + 127) / 128)) else 1, issue := s.trk.ts % 1024,
                    probes := [] }

/-! ### REG_RESP -/

/-- A response to a register access comes from its block, or, with its data, from the user logic of a fabric port. -/
def regResp (s : State) (p : Packet) : State :=
  match s.noc.flight.find? (fun r => decide (r.cls = 3 ∧ r.op = 3 ∧ r.dst = p.dst ∧ r.txn = p.txn)) with
  | some r => enter (s.setNoc { s.noc with flight := s.noc.flight.erase r }) { r with linkErr := p.linkErr }
  | none => if (fportOfUnit p.src).isSome then enter s { p with cls := 3, op := 3, flits := 1, probes := [] } else s

/-! ### Responses and trace packets (R300, R304, R312) -/

/-- READ_DATA, WRITE_ACK: the oldest response of the kind on its way to a source and slot goes on. -/
def responseArrives (s : State) (op dst txn : Nat) (linkErr : List Nat) : State :=
  match s.noc.flight.find? (fun r => decide (r.cls = 1 ∧ r.op = op ∧ r.dst = dst ∧ r.txn = txn)) with
  | none => s
  | some r => enter (s.setNoc { s.noc with flight := s.noc.flight.erase r }) { r with linkErr := linkErr }

/-- RECORDS: a trace packet of up to four records leaves a quarter's trace unit for its ring. -/
def recordsArrive (s : State) (q : Nat) (linkErr : List Nat) : State :=
  let l := Tab.get [] s.noc.recs q
  if l.isEmpty then s
  else enter (s.setNoc { s.noc with recs := Tab.set [] s.noc.recs q (l.drop 4) }) (tracePkt s q (l.take 4) linkErr)

/-! ### Waking (R309, R310) -/

/-- DOMAIN_WAKE: what the domain held enters in order of arrival, and what waited in buffers goes on in the order of R303. -/
def domainWake (s : State) (q d : Nat) : State :=
  let k := q * 32 + d
  let mine := (s.noc.heldPkts.filter (fun h => decide (h.1 = k))).map (fun h => h.2)
  let more := servedOrder s.trk.ts (s.noc.stalled.map (fun x => x.pkt))
  let was := asleep s q d
  if !was && mine.isEmpty then s
  else
    let s := s.setNoc { s.noc with heldPkts := s.noc.heldPkts.filter (fun h => decide (h.1 ≠ k)), stalled := [] }
    let s := s.wr F.NOC_PWR_STAT_WAKING q (b2n (s.noc.heldPkts.any (fun h => decide (h.1 / 32 = q))))
    if cannotWake s q d then more.foldl enter (wakeFail s q mine)
    else
      let s := markBusy (if was then (setAsleep s q d false).bump C.NOC_WAKE_CNT q 1 else s) [(q, d)]
      (mine ++ more).foldl enter s

/-! ### WRITE cells for this device (R245, R302) -/

/-- The WRITE packets of a cell for this device, one for each line that it touches, pass the network. -/
def passLines (s : State) (p : Nat) (c : Cell) : State :=
  let bs := cellBytes c
  (lineCuts (bs.length + 1) c.da bs).foldl (fun s l => passBy s
    { cls := 0, op := 2, flits := 1, src := unitOfKport p, dst := unitOfDA s l.1, da := l.1, len := l.2.length / 8, fe := c.dfe, key := 0xFFFF, sched := c.sched,
      panic := false, txn := 0, issue := s.trk.ts % 1024, width := 0, status := 0, data := l.2, linkErr := [], waits := [], ecc := [], panicQueued := false,
      probes := [] }) s

/-! ### Errors of the CXL tier (R289) -/

/-- The request that an error or a missing completion ends with an error response: a stream transfer, whose set stops, or a request of
the network. -/
def cxlFail (s : State) (r : CxlReq) (late : Bool) : State :=
  match r with
  | .transfer e set desc pos => transferError (cxlError s) e set desc pos
  | .request src txn write =>
    if late then completeError (cxlError s) src txn write false
    else (cxlError s).setNoc { s.noc with flight := s.noc.flight.map (fun x =>
      if x.cls = 1 ∧ x.dst = src.val ∧ x.txn = txn.val ∧ x.op = (if write then 2 else 1) then { x with status := 1, data := [] } else x) }

/-! ### The meanings -/

def execRead (p : Packet) (s : State) : Host.Outcome State Fault Refusal := .next (launchAs s 0 1 p)
def execWrite (p : Packet) (s : State) : Host.Outcome State Fault Refusal := .next (launchAs s 0 2 p)
def execCell (p : Packet) (s : State) : Host.Outcome State Fault Refusal := .next (launchAs s 0 3 p)
def execNocBaton (p : Packet) (s : State) : Host.Outcome State Fault Refusal := .next (launchAs s 2 1 p)
def execNocArrive (p : Packet) (s : State) : Host.Outcome State Fault Refusal := .next (launchAs s 2 2 p)
def execRegRead (p : Packet) (s : State) : Host.Outcome State Fault Refusal := .next (launchAs s 3 1 p)
def execRegWrite (p : Packet) (s : State) : Host.Outcome State Fault Refusal := .next (launchAs s 3 2 p)
def execEvent (p : Packet) (s : State) : Host.Outcome State Fault Refusal := .next (launchAs s 3 4 p)
def execRegResp (p : Packet) (s : State) : Host.Outcome State Fault Refusal := .next (regResp s p)
/-- READ_DATA and WRITE_ACK: the oldest response on its way to the source and slot. -/
def execReadData (dst : Fin 32768) (txn : Fin 8) (linkErr : List Nat) (s : State) : Host.Outcome State Fault Refusal :=
  .next (responseArrives s 1 dst txn linkErr)
def execWriteAck (dst : Fin 32768) (txn : Fin 8) (linkErr : List Nat) (s : State) : Host.Outcome State Fault Refusal :=
  .next (responseArrives s 2 dst txn linkErr)
def execRecords (q : Fin 4) (linkErr : List Nat) (s : State) : Host.Outcome State Fault Refusal := .next (recordsArrive s q linkErr)
def execTracePacketDiscard (q : Fin 4) (s : State) : Host.Outcome State Fault Refusal := .next (traceDiscard s q)
def execNocCompletionTimeout (src : Fin 32768) (txn : Fin 8) (write ctl : Bool) (s : State) : Host.Outcome State Fault Refusal :=
  .next (completionTimeout s src txn write ctl)
def execCxlErrorResponse (r : CxlReq) (s : State) : Host.Outcome State Fault Refusal := .next (cxlFail s r false)
def execCxlCompletionTimeout (r : CxlReq) (s : State) : Host.Outcome State Fault Refusal := .next (cxlFail s r true)
def execWriteCell (p : Fin 12) (c : Cell) (ecc : List Nat) (s : State) : Host.Outcome State Fault Refusal :=
  .next (cellArrives s p 1 c (fun s => writeCell (passLines s p c) p c ecc))
def execDomainSleep (q : Fin 4) (d : Fin 18) (s : State) : Host.Outcome State Fault Refusal := .next (domainSleep s q d)
def execDomainWake (q : Fin 4) (d : Fin 18) (s : State) : Host.Outcome State Fault Refusal := .next (domainWake s q d)
def execNocPrbCtrlWrite (n : Fin 272) (value : Word) (s : State) : Host.Outcome State Fault Refusal := .next (probeCtrlWrite s n value.toNat)
/-- WAITING_ACCESS_PERFORM: of a convert unit, its `n`-th waiting access. -/
def execWaitingAccessPerform (a : Port) (n : Nat) (s : State) : Host.Outcome State Fault Refusal := .next (performWaiting s a n packetResume)

end Sys2Proof.Machine
end

