-- ==== Sys2Proof/Machine/Clock.lean ====
section
/-!
DEFINITION. One ACLK cycle in which no command is taken: the trace timestamp, the tracks, and what counts cycles (R118, R158, R204,
R222, R309, R352, R397, R446).
-/
namespace Sys2Proof.Machine

/-- The units of a field that hold value `v`. -/
def unitsWith (s : State) (f : Fld) (v : Nat) : List Nat :=
  (s.regs.filter (fun e => decide (e.1 / 131072 = f.key ∧ e.2 = v))).map (fun e => e.1 % 131072)

/-- Queues whose head waits (R118). -/
def stallCycle (s : State) : State :=
  (unitsWith s F.VEC_Q_STAT_STATE qWAIT).foldl (fun s q => s.bumpTo F.VEC_Q_STALL_CNT_COUNT q 1 F.VEC_WRAP_QSTALL (q / 8) (q % 8)) s

/-- Engines that raise panic (R158), quarters with a held packet (R309). -/
def panicCycle (s : State) : State := (unitsWith s F.STM_STATUS_PANIC 1).foldl (fun s g => s.bump C.STM_PANIC_CNT g 1) s
def holdCycle (s : State) : State :=
  (List.range 4).foldl (fun s q => if s.noc.heldPkts.any (fun h => decide (h.1 / 32 = q)) then s.bump C.NOC_HOLD_CNT q 1 else s) s

/-- Slices that wait, in `n` SCLK cycles (R340, R352); a slice in RUN counts its cycles as its words execute. -/
def sliceCycle (s : State) (n : Nat) : State :=
  if n = 0 then s else (unitsWith s F.SPS_STATUS_STATE slWAIT).foldl (fun s k => s.bump C.SPS_CYCLE_CNT k n) s

/-- The Pacer's cycle counters. -/
def pacerCycle (s : State) : State :=
  let s := if s.on F.PAC_STATUS_THROTTLE 0 then s.bump C.PAC_THROTTLE_CYC_CNT 0 1 else s
  if s.on F.PAC_STATUS_TRIP 0 then s.bump C.PAC_TRIP_CYC_CNT 0 1 else s

/-- An ACLK cycle of the device. -/
def idleCycle (s : State) : State :=
  if hubDown s then showAlert s
  else
    let t := timestampCycle ((List.range 8).foldl trackCycle (dcCycle s))
    -- SCLK runs at half the rate of the trace timestamp in every clock mode
    let s := sliceCycle t (t.trk.ts / 2 - s.trk.ts / 2)
    showAlert (resumeCopy (settleAL (settleInvals (sliceAll (pacerCycle (holdCycle (hbmCycle (panicCycle (stallCycle s)))))))))

end Sys2Proof.Machine
end

