-- ==== Sys2Proof/Machine/Dispatch.lean ====
section
/-!
DEFINITION. The meaning of every command, by name.
-/
namespace Sys2Proof.Machine

/-- The effect of a command on everything but the queue. -/
def exec (i : Instr) (s : State) : Host.Outcome State Fault Refusal :=
  match i with
  | .registerWrite off width value => Sys2Proof.Machine.execRegisterWrite off width value s
  | .bar0Request write off width value => Sys2Proof.Machine.execBar0Request write off width value s
  | .bar2Request write off len data ecc panic => Sys2Proof.Machine.execBar2Request write off len data ecc panic s
  | .matmul q => Sys2Proof.Machine.execMatmul q s
  | .feedResume e beats => Sys2Proof.Machine.execFeedResume e beats s
  | .outputPathResume e beats => Sys2Proof.Machine.execOutputPathResume e beats s
  | .dWordWrite e da => Sys2Proof.Machine.execDWordWrite e da s
  | .matmulComplete e => Sys2Proof.Machine.execMatmulComplete e s
  | .duty e value => Sys2Proof.Machine.execDuty e value s
  | .preempt e => Sys2Proof.Machine.execPreempt e s
  | .engineStop e => Sys2Proof.Machine.execEngineStop e s
  | .continueEngine e => Sys2Proof.Machine.execContinueEngine e s
  | .dataError e older => Sys2Proof.Machine.execDataError e older s
  | .convert q => Sys2Proof.Machine.execConvert q s
  | .table q => Sys2Proof.Machine.execTable q s
  | .spillConvert e => Sys2Proof.Machine.execSpillConvert e s
  | .slotClear k => Sys2Proof.Machine.execSlotClear k s
  | .slotClearEnd k slot => Sys2Proof.Machine.execSlotClearEnd k slot s
  | .histClear k => Sys2Proof.Machine.execHistClear k s
  | .histClearEnd k => Sys2Proof.Machine.execHistClearEnd k s
  | .vadd q => Sys2Proof.Machine.execVadd q s
  | .vsub q => Sys2Proof.Machine.execVsub q s
  | .vmul q => Sys2Proof.Machine.execVmul q s
  | .vfma q => Sys2Proof.Machine.execVfma q s
  | .vdiv q => Sys2Proof.Machine.execVdiv q s
  | .vsqrt q => Sys2Proof.Machine.execVsqrt q s
  | .vmin q => Sys2Proof.Machine.execVmin q s
  | .vmax q => Sys2Proof.Machine.execVmax q s
  | .vabs q => Sys2Proof.Machine.execVabs q s
  | .vneg q => Sys2Proof.Machine.execVneg q s
  | .vcmp q => Sys2Proof.Machine.execVcmp q s
  | .vsel q => Sys2Proof.Machine.execVsel q s
  | .vcvt q => Sys2Proof.Machine.execVcvt q s
  | .vred q => Sys2Proof.Machine.execVred q s
  | .vrmax q => Sys2Proof.Machine.execVrmax q s
  | .vld q => Sys2Proof.Machine.execVld q s
  | .vst q => Sys2Proof.Machine.execVst q s
  | .vmovs q => Sys2Proof.Machine.execVmovs q s
  | .vmovv q => Sys2Proof.Machine.execVmovv q s
  | .vand q => Sys2Proof.Machine.execVand q s
  | .vor q => Sys2Proof.Machine.execVor q s
  | .vxor q => Sys2Proof.Machine.execVxor q s
  | .vshl q => Sys2Proof.Machine.execVshl q s
  | .vshr q => Sys2Proof.Machine.execVshr q s
  | .vrec q => Sys2Proof.Machine.execVrec q s
  | .nop q => Sys2Proof.Machine.execNop q s
  | .loop q => Sys2Proof.Machine.execLoop q s
  | .lidx q => Sys2Proof.Machine.execLidx q s
  | .br q => Sys2Proof.Machine.execBr q s
  | .add q => Sys2Proof.Machine.execAdd q s
  | .sub q => Sys2Proof.Machine.execSub q s
  | .mul q => Sys2Proof.Machine.execMul q s
  | .and q => Sys2Proof.Machine.execAnd q s
  | .or q => Sys2Proof.Machine.execOr q s
  | .xor q => Sys2Proof.Machine.execXor q s
  | .shl q => Sys2Proof.Machine.execShl q s
  | .shr q => Sys2Proof.Machine.execShr q s
  | .sar q => Sys2Proof.Machine.execSar q s
  | .li q => Sys2Proof.Machine.execLi q s
  | .lih q => Sys2Proof.Machine.execLih q s
  | .sld q => Sys2Proof.Machine.execSld q s
  | .sst q => Sys2Proof.Machine.execSst q s
  | .fence q => Sys2Proof.Machine.execFence q s
  | .halt q => Sys2Proof.Machine.execHalt q s
  | .signal q => Sys2Proof.Machine.execSignal q s
  | .queueFault q => Sys2Proof.Machine.execQueueFault q s
  | .waitingAccessPerform a n => Sys2Proof.Machine.execWaitingAccessPerform a n s
  | .vecQStart q => Sys2Proof.Machine.execVecQStart q s
  | .vecQStop q => Sys2Proof.Machine.execVecQStop q s
  | .clearFault q => Sys2Proof.Machine.execClearFault q s
  | .vmaskWrite q value => Sys2Proof.Machine.execVmaskWrite q value s
  | .vecImemDataHi core value => Sys2Proof.Machine.execVecImemDataHi core value s
  | .save core => Sys2Proof.Machine.execSave core s
  | .saveDone core error cycles => Sys2Proof.Machine.execSaveDone core error cycles s
  | .restore core => Sys2Proof.Machine.execRestore core s
  | .restoreDone core error cycles => Sys2Proof.Machine.execRestoreDone core error cycles s
  | .spadInitEnd core staging => Sys2Proof.Machine.execSpadInitEnd core staging s
  | .stream q => Sys2Proof.Machine.execStream q s
  | .transferIssue e => Sys2Proof.Machine.execTransferIssue e s
  | .readTransferComplete e set desc pos ext ecc => Sys2Proof.Machine.execReadTransferComplete e set desc pos ext ecc s
  | .lineDelivery e set desc line ecc => Sys2Proof.Machine.execLineDelivery e set desc line ecc s
  | .writeTransferAck e set desc pos ecc => Sys2Proof.Machine.execWriteTransferAck e set desc pos ecc s
  | .descriptorComplete e set desc => Sys2Proof.Machine.execDescriptorComplete e set desc s
  | .urgencyUpdate e set desc => Sys2Proof.Machine.execUrgencyUpdate e set desc s
  | .streamLate e set desc => Sys2Proof.Machine.execStreamLate e set desc s
  | .translationFault e => Sys2Proof.Machine.execTranslationFault e s
  | .transferError e set desc pos => Sys2Proof.Machine.execTransferError e set desc pos s
  | .setStop e set => Sys2Proof.Machine.execSetStop e set s
  | .stmResume e => Sys2Proof.Machine.execStmResume e s
  | .stmAbandon e => Sys2Proof.Machine.execStmAbandon e s
  | .hinit q => Sys2Proof.Machine.execHinit q s
  | .harrive q => Sys2Proof.Machine.execHarrive q s
  | .hadd q => Sys2Proof.Machine.execHadd q s
  | .hwait q => Sys2Proof.Machine.execHwait q s
  | .hsync q => Sys2Proof.Machine.execHsync q s
  | .htest q => Sys2Proof.Machine.execHtest q s
  | .hread q => Sys2Proof.Machine.execHread q s
  | .hurOpHinit h value => Sys2Proof.Machine.execHurOpHinit h value s
  | .hurOpHarrive h value => Sys2Proof.Machine.execHurOpHarrive h value s
  | .hurOpHadd h value => Sys2Proof.Machine.execHurOpHadd h value s
  | .hurStateWrite h value => Sys2Proof.Machine.execHurStateWrite h value s
  | .hurCfgWrite h value => Sys2Proof.Machine.execHurCfgWrite h value s
  | .fePortLoad c => Sys2Proof.Machine.execFePortLoad c s
  | .fePortStore c value => Sys2Proof.Machine.execFePortStore c value s
  | .baton q => Sys2Proof.Machine.execBaton q s
  | .batonArrival w0 w1 w2 w3 port => Sys2Proof.Machine.execBatonArrival w0 w1 w2 w3 port s
  | .batonRelease w => Sys2Proof.Machine.execBatonRelease w s
  | .hurWinWrite w isLen value => Sys2Proof.Machine.execHurWinWrite w isLen value s
  | .wmark q => Sys2Proof.Machine.execWmark q s
  | .markReached q => Sys2Proof.Machine.execMarkReached q s
  | .rpos q => Sys2Proof.Machine.execRpos q s
  | .farm q => Sys2Proof.Machine.execFarm q s
  | .arm slot => Sys2Proof.Machine.execArm slot s
  | .finishLineCheck slot => Sys2Proof.Machine.execFinishLineCheck slot s
  | .trkEnable t => Sys2Proof.Machine.execTrkEnable t s
  | .trkDisable t => Sys2Proof.Machine.execTrkDisable t s
  | .trackEdge t fabric a b z held => Sys2Proof.Machine.execTrackEdge t fabric a b z held s
  | .indexPulse t fabric held => Sys2Proof.Machine.execIndexPulse t fabric held s
  | .trkStep t value => Sys2Proof.Machine.execTrkStep t value s
  | .trackStall t => Sys2Proof.Machine.execTrackStall t s
  | .trkLapRead t => Sys2Proof.Machine.execTrkLapRead t s
  | .lateLogPop => Sys2Proof.Machine.execLateLogPop s
  | .timestampWrap => Sys2Proof.Machine.execTimestampWrap s
  | .emergency event byte7 => Sys2Proof.Machine.execEmergency event byte7 s
  | .admitSession n => Sys2Proof.Machine.execAdmitSession n s
  | .endSession n => Sys2Proof.Machine.execEndSession n s
  | .suspend n => Sys2Proof.Machine.execSuspend n s
  | .resume n => Sys2Proof.Machine.execResume n s
  | .lapBoundarySuspend n => Sys2Proof.Machine.execLapBoundarySuspend n s
  | .quantumExpiry n => Sys2Proof.Machine.execQuantumExpiry n s
  | .sessionSwitchSaved n used => Sys2Proof.Machine.execSessionSwitchSaved n used s
  | .sessionSwitchRestored n => Sys2Proof.Machine.execSessionSwitchRestored n s
  | .doorbell value => Sys2Proof.Machine.execDoorbell value s
  | .ringContextLoad n r => Sys2Proof.Machine.execRingContextLoad n r s
  | .submissionRun n ext => Sys2Proof.Machine.execSubmissionRun n ext s
  | .submissionArrive n ext => Sys2Proof.Machine.execSubmissionArrive n ext s
  | .runComplete idx => Sys2Proof.Machine.execRunComplete idx s
  | .completionEntryWrite idx => Sys2Proof.Machine.execCompletionEntryWrite idx s
  | .sesClockWrite value => Sys2Proof.Machine.execSesClockWrite value s
  | .sesRingPinWrite value => Sys2Proof.Machine.execSesRingPinWrite value s
  | .capabilityExchange p m224 m112 m56 fec sleep => Sys2Proof.Machine.execCapabilityExchange p m224 m112 m56 fec sleep s
  | .noModeRetry p => Sys2Proof.Machine.execNoModeRetry p s
  | .portDown p => Sys2Proof.Machine.execPortDown p s
  | .reneg p => Sys2Proof.Machine.execReneg p s
  | .codewordReceive p outcome cells => Sys2Proof.Machine.execCodewordReceive p outcome cells s
  | .writeCell p c ecc => Sys2Proof.Machine.execWriteCell p c ecc s
  | .ackCell p c => Sys2Proof.Machine.execAckCell p c s
  | .syncCell p c foreign => Sys2Proof.Machine.execSyncCell p c foreign s
  | .trackCell p c => Sys2Proof.Machine.execTrackCell p c s
  | .hello p c => Sys2Proof.Machine.execHello p c s
  | .latencyCalibration p c => Sys2Proof.Machine.execLatencyCalibration p c s
  | .neighbourReport p c => Sys2Proof.Machine.execNeighbourReport p c s
  | .dictionaryResponse p c => Sys2Proof.Machine.execDictionaryResponse p c s
  | .dictionaryTimeout tag => Sys2Proof.Machine.execDictionaryTimeout tag s
  | .remoteReset p c => Sys2Proof.Machine.execRemoteReset p c s
  | .ackTimeout e slot => Sys2Proof.Machine.execAckTimeout e slot s
  | .swap p => Sys2Proof.Machine.execSwap p s
  | .bankSwapApply p => Sys2Proof.Machine.execBankSwapApply p s
  | .rebuild => Sys2Proof.Machine.execRebuild s
  | .rebuildEnd => Sys2Proof.Machine.execRebuildEnd s
  | .referenceLoss p => Sys2Proof.Machine.execReferenceLoss p s
  | .holdoverExpiry => Sys2Proof.Machine.execHoldoverExpiry s
  | .kmrRefCtrlWrite value => Sys2Proof.Machine.execKmrRefCtrlWrite value s
  | .trackSamplePeriod p => Sys2Proof.Machine.execTrackSamplePeriod p s
  | .standbyTakeover => Sys2Proof.Machine.execStandbyTakeover s
  | .shapeTable t => Sys2Proof.Machine.execShapeTable t s
  | .hbmBandWrite j value => Sys2Proof.Machine.execHbmBandWrite j value s
  | .read p => Sys2Proof.Machine.execRead p s
  | .write p => Sys2Proof.Machine.execWrite p s
  | .patrolScrub pc atom ecc panic => Sys2Proof.Machine.execPatrolScrub pc atom ecc panic s
  | .refresh pc bank panic => Sys2Proof.Machine.execRefresh pc bank panic s
  | .powerDownEntry pc panic => Sys2Proof.Machine.execPowerDownEntry pc panic s
  | .selfRefreshEntry stack => Sys2Proof.Machine.execSelfRefreshEntry stack s
  | .hbmTraining q bad => Sys2Proof.Machine.execHbmTraining q bad s
  | .trainingDone q margins dTemps failed => Sys2Proof.Machine.execTrainingDone q margins dTemps failed s
  | .cxlErrorResponse r => Sys2Proof.Machine.execCxlErrorResponse r s
  | .cxlCompletionTimeout r => Sys2Proof.Machine.execCxlCompletionTimeout r s
  | .cxlWinCfgWrite w value => Sys2Proof.Machine.execCxlWinCfgWrite w value s
  | .prqRecPop => Sys2Proof.Machine.execPrqRecPop s
  | .cxlPrqResp value => Sys2Proof.Machine.execCxlPrqResp value s
  | .xltInv value => Sys2Proof.Machine.execXltInv value s
  | .xltInvDone => Sys2Proof.Machine.execXltInvDone s
  | .cxlLinkUp p speed width ltssm => Sys2Proof.Machine.execCxlLinkUp p speed width ltssm s
  | .cxlLinkDown p => Sys2Proof.Machine.execCxlLinkDown p s
  | .cell p => Sys2Proof.Machine.execCell p s
  | .readData dst txn linkErr => Sys2Proof.Machine.execReadData dst txn linkErr s
  | .writeAck dst txn linkErr => Sys2Proof.Machine.execWriteAck dst txn linkErr s
  | .nocBaton p => Sys2Proof.Machine.execNocBaton p s
  | .nocArrive p => Sys2Proof.Machine.execNocArrive p s
  | .regRead p => Sys2Proof.Machine.execRegRead p s
  | .regWrite p => Sys2Proof.Machine.execRegWrite p s
  | .regResp p => Sys2Proof.Machine.execRegResp p s
  | .event p => Sys2Proof.Machine.execEvent p s
  | .records q linkErr => Sys2Proof.Machine.execRecords q linkErr s
  | .tracePacketDiscard q => Sys2Proof.Machine.execTracePacketDiscard q s
  | .nocCompletionTimeout src txn write ctl => Sys2Proof.Machine.execNocCompletionTimeout src txn write ctl s
  | .domainSleep q d => Sys2Proof.Machine.execDomainSleep q d s
  | .domainWake q d => Sys2Proof.Machine.execDomainWake q d s
  | .nocPrbCtrlWrite n value => Sys2Proof.Machine.execNocPrbCtrlWrite n value s
  | .ramRead b a outcome flip => Sys2Proof.Machine.execRamRead b a outcome flip s
  | .pllLock p => Sys2Proof.Machine.execPllLock p s
  | .markFire u => Sys2Proof.Machine.execMarkFire u s
  | .fabricPortRequest n kind dst ga words fe data => Sys2Proof.Machine.execFabricPortRequest n kind dst ga words fe data s
  | .targetAccess p => Sys2Proof.Machine.execTargetAccess p s
  | .isolate n => Sys2Proof.Machine.execIsolate n s
  | .portIsolated n => Sys2Proof.Machine.execPortIsolated n s
  | .vccioFault b mv => Sys2Proof.Machine.execVccioFault b mv s
  | .vccioResume b mv => Sys2Proof.Machine.execVccioResume b mv s
  | .spsNop n => Sys2Proof.Machine.execSpsNop n s
  | .mpy n => Sys2Proof.Machine.execMpy n s
  | .mac n => Sys2Proof.Machine.execMac n s
  | .msu n => Sys2Proof.Machine.execMsu n s
  | .clr n => Sys2Proof.Machine.execClr n s
  | .adda n => Sys2Proof.Machine.execAdda n s
  | .suba n => Sys2Proof.Machine.execSuba n s
  | .spsAbs n => Sys2Proof.Machine.execSpsAbs n s
  | .spsNeg n => Sys2Proof.Machine.execSpsNeg n s
  | .spsShl n => Sys2Proof.Machine.execSpsShl n s
  | .spsShr n => Sys2Proof.Machine.execSpsShr n s
  | .ldacc n => Sys2Proof.Machine.execLdacc n s
  | .movr n => Sys2Proof.Machine.execMovr n s
  | .inFifo n => Sys2Proof.Machine.execInFifo n s
  | .outFifo n => Sys2Proof.Machine.execOutFifo n s
  | .sliceFifoResume n => Sys2Proof.Machine.execSliceFifoResume n s
  | .rep n => Sys2Proof.Machine.execRep n s
  | .spsLoop n => Sys2Proof.Machine.execSpsLoop n s
  | .jmp n => Sys2Proof.Machine.execJmp n s
  | .spsBr n => Sys2Proof.Machine.execSpsBr n s
  | .waitm n => Sys2Proof.Machine.execWaitm n s
  | .pendSet n => Sys2Proof.Machine.execPendSet n s
  | .wset n => Sys2Proof.Machine.execWset n s
  | .wstep n => Sys2Proof.Machine.execWstep n s
  | .scale n => Sys2Proof.Machine.execScale n s
  | .spsHalt n => Sys2Proof.Machine.execSpsHalt n s
  | .sliceFault n => Sys2Proof.Machine.execSliceFault n s
  | .spsStart n => Sys2Proof.Machine.execSpsStart n s
  | .spsStop n => Sys2Proof.Machine.execSpsStop n s
  | .spsClearFault n => Sys2Proof.Machine.execSpsClearFault n s
  | .srst n => Sys2Proof.Machine.execSrst n s
  | .spsMemRead n => Sys2Proof.Machine.execSpsMemRead n s
  | .spsMemWrite n value => Sys2Proof.Machine.execSpsMemWrite n value s
  | .cfgLoadStart => Sys2Proof.Machine.execCfgLoadStart s
  | .scopeIsolated timeout => Sys2Proof.Machine.execScopeIsolated timeout s
  | .header ext bad => Sys2Proof.Machine.execHeader ext bad s
  | .signatureVerify sigExt tableExt bad => Sys2Proof.Machine.execSignatureVerify sigExt tableExt bad s
  | .chunkVerified ext bad => Sys2Proof.Machine.execChunkVerified ext bad s
  | .loadTimeout => Sys2Proof.Machine.execLoadTimeout s
  | .abort => Sys2Proof.Machine.execAbort s
  | .ochreFallback => Sys2Proof.Machine.execOchreFallback s
  | .release r => Sys2Proof.Machine.execRelease r s
  | .slavePortWord parallel value rdy => Sys2Proof.Machine.execSlavePortWord parallel value rdy s
  | .sspCsRise => Sys2Proof.Machine.execSspCsRise s
  | .groupCheck faults mismatch sigEcc coverUs => Sys2Proof.Machine.execGroupCheck faults mismatch sigEcc coverUs s
  | .mordantWatchdog => Sys2Proof.Machine.execMordantWatchdog s
  | .tmrMismatch a b c => Sys2Proof.Machine.execTmrMismatch a b c s
  | .mdtLogPop => Sys2Proof.Machine.execMdtLogPop s
  | .receiverDetect l found => Sys2Proof.Machine.execReceiverDetect l found s
  | .laneRetry l => Sys2Proof.Machine.execLaneRetry l s
  | .laneSearchDone l fom eq offered => Sys2Proof.Machine.execLaneSearchDone l fom eq offered s
  | .lockLoss l fom => Sys2Proof.Machine.execLockLoss l fom s
  | .txSleep l => Sys2Proof.Machine.execTxSleep l s
  | .txWake l => Sys2Proof.Machine.execTxWake l s
  | .wakeTimeout l => Sys2Proof.Machine.execWakeTimeout l s
  | .atsInvalidate page pages => Sys2Proof.Machine.execAtsInvalidate page pages s
  | .pageRequestGroupResponse group success => Sys2Proof.Machine.execPageRequestGroupResponse group success s
  | .functionLevelReset => Sys2Proof.Machine.execFunctionLevelReset s
  | .pcieLinkDown => Sys2Proof.Machine.execPcieLinkDown s
  | .hotReset => Sys2Proof.Machine.execHotReset s
  | .pciMsixRaise value => Sys2Proof.Machine.execPciMsixRaise value s
  | .rd p => Sys2Proof.Machine.execRd p s
  | .cxlCfgDataWrite p value => Sys2Proof.Machine.execCxlCfgDataWrite p value s
  | .cxlCfgDone p ok answer => Sys2Proof.Machine.execCxlCfgDone p ok answer s
  | .remove p => Sys2Proof.Machine.execRemove p s
  | .removed p => Sys2Proof.Machine.execRemoved p s
  | .upload path => Sys2Proof.Machine.execUpload path s
  | .download path => Sys2Proof.Machine.execDownload path s
  | .uploadCa path => Sys2Proof.Machine.execUploadCa path s
  | .downloadCa path => Sys2Proof.Machine.execDownloadCa path s
  | .objInfo path => Sys2Proof.Machine.execObjInfo path s
  | .execute => Sys2Proof.Machine.execExecute s
  | .unlockTimeout path => Sys2Proof.Machine.execUnlockTimeout path s
  | .alStateRequest value ack => Sys2Proof.Machine.execAlStateRequest value ack s
  | .sm2Buffer data => Sys2Proof.Machine.execSm2Buffer data s
  | .inputImageRead => Sys2Proof.Machine.execInputImageRead s
  | .sm2Watchdog => Sys2Proof.Machine.execSm2Watchdog s
  | .dcUpdate diff time => Sys2Proof.Machine.execDcUpdate diff time s
  | .dcUpdateTimeout => Sys2Proof.Machine.execDcUpdateTimeout s
  | .mbxEmcyPop => Sys2Proof.Machine.execMbxEmcyPop s
  | .powerOn recs => Sys2Proof.Machine.execPowerOn recs s
  | .nsysrst low => Sys2Proof.Machine.execNsysrst low s
  | .pciePerstN => Sys2Proof.Machine.execPciePerstN s
  | .resetRelease codes bad nvOK => Sys2Proof.Machine.execResetRelease codes bad nvOK s
  | .quarterReset q hold => Sys2Proof.Machine.execQuarterReset q hold s
  | .clusterReset c hold => Sys2Proof.Machine.execClusterReset c hold s
  | .coreReset core hold => Sys2Proof.Machine.execCoreReset core hold s
  | .fabricRegionReset r hold => Sys2Proof.Machine.execFabricRegionReset r hold s
  | .kamrusPortReset p hold => Sys2Proof.Machine.execKamrusPortReset p hold s
  | .blockResetRelease kind idx => Sys2Proof.Machine.execBlockResetRelease kind idx s
  | .pacerTick v idx mw temps volts ains => Sys2Proof.Machine.execPacerTick v idx mw temps volts ains s
  | .heatFire h => Sys2Proof.Machine.execHeatFire h s
  | .pacTripWrite value => Sys2Proof.Machine.execPacTripWrite value s
  | .kick => Sys2Proof.Machine.execKick s
  | .watchdogWarning => Sys2Proof.Machine.execWatchdogWarning s
  | .watchdogExpiry => Sys2Proof.Machine.execWatchdogExpiry s
  | .pwrQctrlWrite value => Sys2Proof.Machine.execPwrQctrlWrite value s
  | .quarterPowerOn q => Sys2Proof.Machine.execQuarterPowerOn q s
  | .pacLogPop => Sys2Proof.Machine.execPacLogPop s
  | .pwrAvgRead => Sys2Proof.Machine.execPwrAvgRead s
  | .pacTempRead idx => Sys2Proof.Machine.execPacTempRead idx s
  | .rollbackGo => Sys2Proof.Machine.execRollbackGo s
  | .floorBlown => Sys2Proof.Machine.execFloorBlown s
  | .secVerifyGo => Sys2Proof.Machine.execSecVerifyGo s
  | .verifyDone => Sys2Proof.Machine.execVerifyDone s
  | .switchSlot => Sys2Proof.Machine.execSwitchSlot s
  | .confirm => Sys2Proof.Machine.execConfirm s
  | .secExtend value => Sys2Proof.Machine.execSecExtend value s
  | .secAttGo => Sys2Proof.Machine.execSecAttGo s
  | .reportWritten ecc => Sys2Proof.Machine.execReportWritten ecc s
  | .chal => Sys2Proof.Machine.execChal s
  | .secDbgGo ecc => Sys2Proof.Machine.execSecDbgGo ecc s
  | .nextPart => Sys2Proof.Machine.execNextPart s
  | .tstFenceCluster value => Sys2Proof.Machine.execTstFenceCluster value s
  | .tstFenceQuarter value => Sys2Proof.Machine.execTstFenceQuarter value s
  | .tstCdlGo => Sys2Proof.Machine.execTstCdlGo s
  | .cdlComplete failed links klanes clanes fom margin codes => Sys2Proof.Machine.execCdlComplete failed links klanes clanes fom margin codes s
  | .bypass => Sys2Proof.Machine.execBypass s
  | .idcode => Sys2Proof.Machine.execIdcode s
  | .samplePreload levels load => Sys2Proof.Machine.execSamplePreload levels load s
  | .extest levels => Sys2Proof.Machine.execExtest levels s
  | .clamp => Sys2Proof.Machine.execClamp s
  | .slotTransmission p => Sys2Proof.Machine.execSlotTransmission p s
  | .trackInterpolation t => Sys2Proof.Machine.execTrackInterpolation t s
  | .emergencyCell p c => Sys2Proof.Machine.execEmergencyCell p c s
  | .bitLockTimeout p lane => Sys2Proof.Machine.execBitLockTimeout p lane s
  | .blockLock l => Sys2Proof.Machine.execBlockLock l s
  | .idleMarker l => Sys2Proof.Machine.execIdleMarker l s
  | .wakePattern l => Sys2Proof.Machine.execWakePattern l s
  | .pllLockLoss p => Sys2Proof.Machine.execPllLockLoss p s
  | .fabricFifoHandshake n output k word => Sys2Proof.Machine.execFabricFifoHandshake n output k word s
  | .translationCompletion page write invalidated => Sys2Proof.Machine.execTranslationCompletion page write invalidated s
  | .configurationRequest dw write value be => Sys2Proof.Machine.execConfigurationRequest dw write value be s
  | .pcieLinkUp speed width flit ltssm => Sys2Proof.Machine.execPcieLinkUp speed width flit ltssm s
  | .fieldPortLink p up => Sys2Proof.Machine.execFieldPortLink p up s
  | .inputReturn => Sys2Proof.Machine.execInputReturn s
  | .inputRemoved => Sys2Proof.Machine.execInputRemoved s

end Sys2Proof.Machine
end

