-- ==== Sys2Proof/Machine/Step.lean ====
section
/-!
DEFINITION. The step: the command at the front of the queue takes its effect; on an empty queue an ACLK cycle passes.
-/
namespace Sys2Proof.Machine

/-- The command at the front is taken with the queue's rest; without one the device idles for a cycle. -/
def step (s : State) : Host.Outcome State Fault Refusal :=
  match s.pending with
  | c :: rest => exec c { s with pending := rest }
  | [] => .next (idleCycle s)

/-- `s` with the command that a word spells put at the front of its queue; no row of the table has bits, so no word spells one. -/
def State.withFetchWord (s : State) (nbits w : Nat) : State :=
  match decodeTableWord nbits w with
  | some c => { s with pending := c :: s.pending }
  | none => s

end Sys2Proof.Machine
end

