-- ==== Sys2Proof/WellFormed.lean ====
section
/-!
DEFINITION. Which commands the surroundings can send: operands within the widths of the wires and fields that carry them. A meaning
is total: it gives a next state for the others too.
-/
namespace Sys2Proof

/-- Access sizes of the control window's requesters, in bytes. -/
def accessWidth (w : Nat) : Bool := [1, 2, 4, 8].contains w

/-- Outcomes of error correction: none, corrected, uncorrectable. -/
def outcomes (l : List Nat) : Bool := l.all (fun e => decide (e < 3))

/-- At most `n` values, each below `m`. -/
def valuesBelow (n m : Nat) (l : List Nat) : Bool := decide (l.length ≤ n) && l.all (fun v => decide (v < m))

/-- Pairs with both parts below their bounds. -/
def pairsBelow (a b : Nat) (l : List (Nat × Nat)) : Bool := l.all (fun e => decide (e.1 < a ∧ e.2 < b))

/-- The fields of a packet header (R299, R300). -/
def Packet.wf (p : Packet) : Bool :=
  decide (p.cls < 5 ∧ p.op < 32 ∧ 1 ≤ p.flits ∧ p.flits ≤ 8 ∧ p.src < 2 ^ 15 ∧ p.dst < 2 ^ 15 ∧ p.da < 2 ^ 48) &&
  decide (1 ≤ p.len ∧ p.len ≤ 64 ∧ p.fe < 4 ∧ p.key < 2 ^ 16 ∧ p.txn < 8 ∧ p.issue < 2 ^ 10 ∧ p.width < 2 ∧ p.status < 4) &&
  decide (p.data.length ≤ 640) && valuesBelow 4 4 p.linkErr && outcomes p.ecc && valuesBelow 4 272 p.probes

/-- The fields of a cell header (R244). -/
def Cell.wf (c : Cell) : Bool :=
  decide (c.seq < 2 ^ 32 ∧ c.typ < 16 ∧ c.channel < 64 ∧ c.dst < 2 ^ 14 ∧ c.hops < 16 ∧ c.src < 2 ^ 14 ∧ c.eng < 2 ^ 11 ∧ c.xslot < 8) &&
  decide (c.num < 8 ∧ c.len < 64 ∧ c.dfe < 4 ∧ c.da < 2 ^ 48 ∧ c.count < 128 ∧ c.payload.length ≤ 512)

/-- The fields of an entry of the shape table (R268). -/
def Claim.wf (c : Claim) : Bool :=
  decide (c.node < 2 ^ 14 ∧ c.clusters < 2 ^ 32 ∧ c.hbm < 2 ^ 16 ∧ c.ports < 2 ^ 12 ∧ c.raw < 2 ^ 36 ∧ c.serial < 2 ^ 64)

def ShapeSource.wf : ShapeSource → Bool
  | .received bytes => decide (bytes.length ≤ 2 ^ 24)
  | .built _ claims => decide (claims.length ≤ 1024) && claims.all Claim.wf

/-- A dictionary request fits its path (R418, R420). -/
def DPath.wf : DPath → Bool
  | .field req => decide (req.length ≤ 4096)
  | .mailbox => true
  | .kamrus _ c => c.wf
  | .sent dst req => decide (dst < 2 ^ 14 ∧ req.length ≤ 480)

/-- A request to the CXL tier names a position of a walk. -/
def CxlReq.wf : CxlReq → Bool
  | .transfer _ _ _ pos => decide (pos < 2 ^ 48)
  | .request _ _ _ => true

/-- A well-formed command. -/
def Instr.wf : Instr → Bool
  | .registerWrite off width _ => decide (off < 2 ^ 48) && accessWidth width
  | .bar0Request _ off width _ => decide (off < 2 ^ 48) && accessWidth width
  | .bar2Request _ off len data ecc _ => decide (off < 2 ^ 48) && decide (len ≤ 4096) && decide (data.length ≤ 2 ^ 24) && outcomes ecc
  | .matmul _ => true
  | .feedResume _ beats => decide (beats < 2 ^ 64)
  | .outputPathResume _ beats => decide (beats < 2 ^ 64)
  | .dWordWrite _ da => decide (da < 2 ^ 48)
  | .matmulComplete _ => true
  | .duty _ _ => true
  | .preempt _ => true
  | .engineStop _ => true
  | .continueEngine _ => true
  | .dataError _ _ => true
  | .convert _ => true
  | .table _ => true
  | .spillConvert _ => true
  | .slotClear _ => true
  | .slotClearEnd _ _ => true
  | .histClear _ => true
  | .histClearEnd _ => true
  | .vadd _ => true
  | .vsub _ => true
  | .vmul _ => true
  | .vfma _ => true
  | .vdiv _ => true
  | .vsqrt _ => true
  | .vmin _ => true
  | .vmax _ => true
  | .vabs _ => true
  | .vneg _ => true
  | .vcmp _ => true
  | .vsel _ => true
  | .vcvt _ => true
  | .vred _ => true
  | .vrmax _ => true
  | .vld _ => true
  | .vst _ => true
  | .vmovs _ => true
  | .vmovv _ => true
  | .vand _ => true
  | .vor _ => true
  | .vxor _ => true
  | .vshl _ => true
  | .vshr _ => true
  | .vrec _ => true
  | .nop _ => true
  | .loop _ => true
  | .lidx _ => true
  | .br _ => true
  | .add _ => true
  | .sub _ => true
  | .mul _ => true
  | .and _ => true
  | .or _ => true
  | .xor _ => true
  | .shl _ => true
  | .shr _ => true
  | .sar _ => true
  | .li _ => true
  | .lih _ => true
  | .sld _ => true
  | .sst _ => true
  | .fence _ => true
  | .halt _ => true
  | .signal _ => true
  | .queueFault _ => true
  | .waitingAccessPerform _ n => decide (n < 2 ^ 16)
  | .vecQStart _ => true
  | .vecQStop _ => true
  | .clearFault _ => true
  | .vmaskWrite _ _ => true
  | .vecImemDataHi _ _ => true
  | .save _ => true
  | .saveDone _ _ cycles => decide (cycles < 2 ^ 64)
  | .restore _ => true
  | .restoreDone _ _ cycles => decide (cycles < 2 ^ 64)
  | .spadInitEnd _ _ => true
  | .stream _ => true
  | .transferIssue _ => true
  | .readTransferComplete _ _ _ pos ext ecc => decide (pos < 2 ^ 48) && decide (ext.length ≤ 2 ^ 24) && outcomes ecc
  | .lineDelivery _ _ _ line ecc => decide (line < 2 ^ 41) && outcomes ecc
  | .writeTransferAck _ _ _ pos ecc => decide (pos < 2 ^ 48) && valuesBelow 4096 3 ecc
  | .descriptorComplete _ _ _ => true
  | .urgencyUpdate _ _ _ => true
  | .streamLate _ _ _ => true
  | .translationFault _ => true
  | .transferError _ _ _ pos => decide (pos < 2 ^ 48)
  | .setStop _ _ => true
  | .stmResume _ => true
  | .stmAbandon _ => true
  | .hinit _ => true
  | .harrive _ => true
  | .hadd _ => true
  | .hwait _ => true
  | .hsync _ => true
  | .htest _ => true
  | .hread _ => true
  | .hurOpHinit _ _ => true
  | .hurOpHarrive _ _ => true
  | .hurOpHadd _ _ => true
  | .hurStateWrite _ _ => true
  | .hurCfgWrite _ _ => true
  | .fePortLoad _ => true
  | .fePortStore _ _ => true
  | .baton _ => true
  | .batonArrival _ _ _ _ _ => true
  | .batonRelease _ => true
  | .hurWinWrite _ _ _ => true
  | .wmark _ => true
  | .markReached _ => true
  | .rpos _ => true
  | .farm _ => true
  | .arm _ => true
  | .finishLineCheck _ => true
  | .trkEnable _ => true
  | .trkDisable _ => true
  | .trackEdge _ _ _ _ _ held => decide (held < 2 ^ 16)
  | .indexPulse _ _ held => decide (held < 2 ^ 16)
  | .trkStep _ _ => true
  | .trackStall _ => true
  | .trkLapRead _ => true
  | .lateLogPop => true
  | .timestampWrap => true
  | .emergency _ _ => true
  | .admitSession _ => true
  | .endSession _ => true
  | .suspend _ => true
  | .resume _ => true
  | .lapBoundarySuspend _ => true
  | .quantumExpiry _ => true
  | .sessionSwitchSaved _ used => decide (used < 2 ^ 64)
  | .sessionSwitchRestored _ => true
  | .doorbell _ => true
  | .ringContextLoad _ _ => true
  | .submissionRun _ ext => decide (ext.length ≤ 2 ^ 24)
  | .submissionArrive _ ext => decide (ext.length ≤ 2 ^ 24)
  | .runComplete idx => decide (idx < 2 ^ 16)
  | .completionEntryWrite idx => decide (idx < 2 ^ 16)
  | .sesClockWrite _ => true
  | .sesRingPinWrite _ => true
  | .capabilityExchange _ _ _ _ _ _ => true
  | .noModeRetry _ => true
  | .portDown _ => true
  | .reneg _ => true
  | .codewordReceive _ _ _ => true
  | .writeCell _ c ecc => c.wf && outcomes ecc
  | .ackCell _ c => c.wf
  | .syncCell _ c _ => c.wf
  | .trackCell _ c => c.wf
  | .hello _ c => c.wf
  | .latencyCalibration _ c => c.wf
  | .neighbourReport _ c => c.wf
  | .dictionaryResponse _ c => c.wf
  | .dictionaryTimeout tag => decide (tag < 2 ^ 64)
  | .remoteReset _ c => c.wf
  | .ackTimeout _ _ => true
  | .swap _ => true
  | .bankSwapApply _ => true
  | .rebuild => true
  | .rebuildEnd => true
  | .referenceLoss _ => true
  | .holdoverExpiry => true
  | .kmrRefCtrlWrite _ => true
  | .trackSamplePeriod _ => true
  | .standbyTakeover => true
  | .shapeTable t => t.wf
  | .hbmBandWrite _ _ => true
  | .read p => p.wf
  | .write p => p.wf
  | .patrolScrub _ atom _ _ => decide (atom < 2 ^ 26)
  | .refresh _ _ _ => true
  | .powerDownEntry _ _ => true
  | .selfRefreshEntry _ => true
  | .hbmTraining _ _ => true
  | .trainingDone _ margins dTemps _ => valuesBelow 64 256 margins && valuesBelow 2 (2 ^ 16) dTemps
  | .cxlErrorResponse r => r.wf
  | .cxlCompletionTimeout r => r.wf
  | .cxlWinCfgWrite _ _ => true
  | .prqRecPop => true
  | .cxlPrqResp _ => true
  | .xltInv _ => true
  | .xltInvDone => true
  | .cxlLinkUp _ _ _ _ => true
  | .cxlLinkDown _ => true
  | .cell p => p.wf
  | .readData _ _ linkErr => valuesBelow 4 4 linkErr
  | .writeAck _ _ linkErr => valuesBelow 4 4 linkErr
  | .nocBaton p => p.wf
  | .nocArrive p => p.wf
  | .regRead p => p.wf
  | .regWrite p => p.wf
  | .regResp p => p.wf
  | .event p => p.wf
  | .records _ linkErr => valuesBelow 4 4 linkErr
  | .tracePacketDiscard _ => true
  | .nocCompletionTimeout _ _ _ _ => true
  | .domainSleep _ _ => true
  | .domainWake _ _ => true
  | .nocPrbCtrlWrite _ _ => true
  | .ramRead _ _ _ _ => true
  | .pllLock _ => true
  | .markFire _ => true
  | .fabricPortRequest _ _ dst ga words fe data => decide (dst < 2 ^ 15) && decide (ga < 2 ^ 64) && decide (1 ≤ words ∧ words ≤ 64) && decide (fe < 4) && decide (data.length ≤ 2 ^ 24)
  | .targetAccess p => p.wf
  | .isolate _ => true
  | .portIsolated _ => true
  | .vccioFault _ _ => true
  | .vccioResume _ _ => true
  | .spsNop _ => true
  | .mpy _ => true
  | .mac _ => true
  | .msu _ => true
  | .clr _ => true
  | .adda _ => true
  | .suba _ => true
  | .spsAbs _ => true
  | .spsNeg _ => true
  | .spsShl _ => true
  | .spsShr _ => true
  | .ldacc _ => true
  | .movr _ => true
  | .inFifo _ => true
  | .outFifo _ => true
  | .sliceFifoResume _ => true
  | .rep _ => true
  | .spsLoop _ => true
  | .jmp _ => true
  | .spsBr _ => true
  | .waitm _ => true
  | .pendSet _ => true
  | .wset _ => true
  | .wstep _ => true
  | .scale _ => true
  | .spsHalt _ => true
  | .sliceFault _ => true
  | .spsStart _ => true
  | .spsStop _ => true
  | .spsClearFault _ => true
  | .srst _ => true
  | .spsMemRead _ => true
  | .spsMemWrite _ _ => true
  | .cfgLoadStart => true
  | .scopeIsolated _ => true
  | .header ext _ => decide (ext.length ≤ 2 ^ 24)
  | .signatureVerify sigExt tableExt _ => decide (sigExt.length ≤ 2 ^ 24) && decide (tableExt.length ≤ 2 ^ 24)
  | .chunkVerified ext _ => decide (ext.length ≤ 2 ^ 24)
  | .loadTimeout => true
  | .abort => true
  | .ochreFallback => true
  | .release _ => true
  | .slavePortWord _ _ _ => true
  | .sspCsRise => true
  | .groupCheck faults _ _ coverUs => pairsBelow (2 ^ 24) 3 faults && decide (coverUs < 2 ^ 64)
  | .mordantWatchdog => true
  | .tmrMismatch _ _ _ => true
  | .mdtLogPop => true
  | .receiverDetect _ _ => true
  | .laneRetry _ => true
  | .laneSearchDone _ _ _ _ => true
  | .lockLoss _ _ => true
  | .txSleep _ => true
  | .txWake _ => true
  | .wakeTimeout _ => true
  | .atsInvalidate page pages => decide (page < 2 ^ 52) && decide (1 ≤ pages ∧ pages ≤ 2 ^ 52)
  | .pageRequestGroupResponse _ _ => true
  | .functionLevelReset => true
  | .pcieLinkDown => true
  | .hotReset => true
  | .pciMsixRaise _ => true
  | .rd _ => true
  | .cxlCfgDataWrite _ _ => true
  | .cxlCfgDone _ _ answer => answer.all (fun w => decide (w < 2 ^ 32))
  | .remove _ => true
  | .removed _ => true
  | .upload path => path.wf
  | .download path => path.wf
  | .uploadCa path => path.wf
  | .downloadCa path => path.wf
  | .objInfo path => path.wf
  | .execute => true
  | .unlockTimeout path => decide (path < 2 ^ 15)
  | .alStateRequest _ _ => true
  | .sm2Buffer data => decide (data.length ≤ 2 ^ 24)
  | .inputImageRead => true
  | .sm2Watchdog => true
  | .dcUpdate diff _ => decide (diff < 2 ^ 64)
  | .dcUpdateTimeout => true
  | .mbxEmcyPop => true
  | .powerOn recs => pairsBelow 576 (2 ^ 64) recs
  | .nsysrst _ => true
  | .pciePerstN => true
  | .resetRelease codes _ _ => valuesBelow 64 (2 ^ 16) codes
  | .quarterReset _ _ => true
  | .clusterReset _ _ => true
  | .coreReset _ _ => true
  | .fabricRegionReset _ _ => true
  | .kamrusPortReset _ _ => true
  | .blockResetRelease _ _ => true
  | .pacerTick v idx mw temps volts ains => decide (v < 2 ^ 17) && decide (idx < 2 ^ 20) && decide (mw < 2 ^ 32) && temps.all (fun e => decide (e.1 < 64 ∧ -1000 < e.2 ∧ e.2 < 2 ^ 15)) && pairsBelow 64 (2 ^ 16) volts && pairsBelow 64 (2 ^ 16) ains
  | .heatFire _ => true
  | .pacTripWrite _ => true
  | .kick => true
  | .watchdogWarning => true
  | .watchdogExpiry => true
  | .pwrQctrlWrite _ => true
  | .quarterPowerOn _ => true
  | .pacLogPop => true
  | .pwrAvgRead => true
  | .pacTempRead _ => true
  | .rollbackGo => true
  | .floorBlown => true
  | .secVerifyGo => true
  | .verifyDone => true
  | .switchSlot => true
  | .confirm => true
  | .secExtend _ => true
  | .secAttGo => true
  | .reportWritten ecc => outcomes ecc
  | .chal => true
  | .secDbgGo ecc => outcomes ecc
  | .nextPart => true
  | .tstFenceCluster _ => true
  | .tstFenceQuarter _ => true
  | .tstCdlGo => true
  | .cdlComplete _ _ _ _ _ _ codes => valuesBelow 960 4 codes
  | .bypass => true
  | .idcode => true
  | .samplePreload levels load => decide (levels.length ≤ 2 ^ 12) && decide (load.length ≤ 2 ^ 12)
  | .extest levels => decide (levels.length ≤ 2 ^ 12)
  | .clamp => true
  | .slotTransmission _ => true
  | .trackInterpolation _ => true
  | .emergencyCell _ c => c.wf
  | .bitLockTimeout _ _ => true
  | .blockLock _ => true
  | .idleMarker _ => true
  | .wakePattern _ => true
  | .pllLockLoss _ => true
  | .fabricFifoHandshake _ _ _ _ => true
  | .translationCompletion page _ _ => decide (page < 2 ^ 52)
  | .configurationRequest _ _ _ _ => true
  | .pcieLinkUp _ _ _ _ => true
  | .fieldPortLink _ _ => true
  | .inputReturn => true
  | .inputRemoved => true

end Sys2Proof
end

