-- ==== Sys2Proof/Safety.lean ====
section
/-!
DEFINITION. What claims about this machine are stated in: the canonical form of its memories, queues of well-formed commands, the
frame of a command (which register fields it may change), and when a command queue's head instruction issues and finishes.
-/
namespace Sys2Proof.Machine

/-- The memories are in their one canonical form: rising addresses, and no entry that reads as an unlisted one does (a byte that
nothing has written reads 0, a word's full/empty bit reads empty). -/
def Memory.wf (s : State) : Bool :=
  Tab.wf (fun _ => (0 : Byte)) s.sram && Tab.wf (fun _ => false) s.full && Tab.wf (fun _ => (0 : Byte)) s.mem.hbm &&
  Tab.wf (fun _ => (0 : Byte)) s.mem.cxl && Tab.wf (fun _ => (0 : Byte)) s.sec.nv

/-- Every command that waits is well formed. -/
def State.queueWf (s : State) : Bool := s.pending.all Instr.wf

/-- `s` with a command put at the front of its queue. -/
def State.push (s : State) (c : Instr) : State := { s with pending := c :: s.pending }

/-! ### Frames -/

/-- Every register field of every unit is unchanged, but for the fields of units that are listed. -/
def SameRegs (s t : State) (changed : List (Fld × Nat)) : Prop :=
  ∀ (f : Fld) (i : Nat), i < 131072 → (∀ e ∈ changed, e.1.key ≠ f.key ∨ e.2 ≠ i) → t.rd f i = s.rd f i

/-- Every bit of on-chip memory outside bytes [da, da + len) is as before. -/
def SameBytes (s t : State) (da len : Nat) : Prop :=
  ∀ a, ¬ (da ≤ a ∧ a < da + len) → byteAt t.sram a = byteAt s.sram a

/-! ### The head of a command queue (R112-R122, R130-R134) -/

/-- Queue `q` issues the instruction at its PC, which is the one of class `cls` and operation `op`: the queue runs and no event
holds its head, its core is enabled, out of reset and not in a context operation, the word is legal and meets no fault of
R134, and (outside the vector class, whose lanes are masked) its predicate holds. -/
structure Issues (s : State) (q cls op : Nat) : Prop where
  running : s.running q = true
  live : coreStopped s (coreOfQueue q) = false
  plain : s.headWait q = .plain
  enabled : s.on F.VEC_CTRL_EN (coreOfQueue q) = true
  faultless : headFault s q = none
  isClass : wClass (s.headWord q) = cls
  isOp : wOp (s.headWord q) = op
  predicated : cls ≠ 1 → predOn s q (s.headWord q) = true

/-- The register fields of queue `q` and of its core that the issue and the completion of an instruction may change. -/
def queueFields (q : Nat) : List (Fld × Nat) :=
  [(F.VEC_Q_STAT_STATE, q), (F.VEC_Q_STAT_WAIT_ON, q), (F.VEC_Q_STAT_LOOP_DEPTH, q), (F.VEC_Q_PC_PC, q),
   (F.VEC_ISSUE_CNT_COUNT, coreOfQueue q), (F.VEC_WRAP_ISSUE, coreOfQueue q)]

/-- From `s` to `t`, queue `q` has issued its head and finished with it: it runs at the word that its loop stack leads to (R131),
and the core's count of issued instructions has gone up by one. -/
structure Finished (s t : State) (q : Nat) : Prop where
  runs : t.qState q = qRUN
  noWait : t.rd F.VEC_Q_STAT_WAIT_ON q = 0
  pc : t.qPC q = (afterWord (s.qPC q) (s.loopStack q)).1 % 4096
  loops : t.loopStack q = (afterWord (s.qPC q) (s.loopStack q)).2
  counted : t.rd F.VEC_ISSUE_CNT_COUNT (coreOfQueue q) = (s.rd F.VEC_ISSUE_CNT_COUNT (coreOfQueue q) + 1) % 2 ^ 64

/-- S registers after an instruction of queue `q` that writes `v` to S register `d`: S0 stays 0 (R112), every other register of
every queue is as before. -/
def WroteS (s t : State) (q d v : Nat) : Prop :=
  ∀ p r, r < 32 → t.sreg p r = if p = q ∧ r = d ∧ r ≠ 0 then v % 2 ^ 64 else s.sreg p r

/-- From `s` to `t`, queue `q` has executed an instruction whose only effect besides its own progress is that S[SD] holds `v`. -/
structure ScalarDone (s t : State) (q v : Nat) : Prop where
  wrote : WroteS s t q (wR0 (s.headWord q)) v
  finished : Finished s t q
  fields : SameRegs s t (queueFields q)
  rest : t = { s with regs := t.regs, tile := t.tile }
  predicates : t.tile.pregs = s.tile.pregs
  vectors : t.tile.vregs = s.tile.vregs

/-! ### The vector class (R126-R129) -/

/-- The fields that a vector instruction of queue `q` may change: its queue's, and the core's count of vector instructions. -/
def vectorFields (q : Nat) : List (Fld × Nat) :=
  queueFields q ++ [(F.VEC_VOP_CNT_COUNT, coreOfQueue q), (F.VEC_WRAP_VOP, coreOfQueue q)]

/-- From `s` to `t`, queue `q` has executed a vector instruction: it is finished with, it counts in the open vector operation and in
VEC_VOP_CNT, and nothing outside the core's register files, its queue and its counters has changed. -/
structure VectorDone (s t : State) (q : Nat) : Prop where
  finished : Finished s t q
  counted : t.rd F.VEC_VOP_CNT_COUNT (coreOfQueue q) = (s.rd F.VEC_VOP_CNT_COUNT (coreOfQueue q) + 1) % 2 ^ 64
  opened : (t.vop q).instrs = (s.vop q).instrs + 1
  fields : SameRegs s t (vectorFields q)
  rest : t = { s with regs := t.regs, tile := t.tile }

/-- The executing lanes of VD hold `res` (in the element's width), its masked lanes and every other vector register of the device
are as before. -/
def LanesWritten (s t : State) (q width lanes : Nat) (res : Nat → Nat) : Prop :=
  (∀ i, i < lanes → elemOf (t.vreg q (wR0 (s.headWord q))) width i =
    if laneOn s q (s.headWord q) i then res i % 2 ^ width else elemOf (s.vreg q (wR0 (s.headWord q))) width i) ∧
  (∀ p v, v < 32 → ¬ (coreOfQueue p = coreOfQueue q ∧ v = wR0 (s.headWord q)) → t.vreg p v = s.vreg p v)

/-- A lane-wise vector instruction whose lane `i` computes `res i`; no S or predicate register changes. -/
structure LanewiseDone (s t : State) (q : Nat) (res : Nat → Nat) : Prop where
  done : VectorDone s t q
  lanes : LanesWritten s t q (typeWidth (wTYPE (s.headWord q))) (typeLanes (wTYPE (s.headWord q))) res
  scalars : t.tile.sregs = s.tile.sregs
  predicates : t.tile.pregs = s.tile.pregs

/-- The instruction that a matrix or convert word at the head of queue `q` hands to its unit: the word, the `n` parameter registers
from SB on, and the places of its record and descriptor, as read at issue (R115, R122-R124). -/
def headIns (s : State) (q n : Nat) : OpIns :=
  ⟨q, s.headWord q, (List.range n).map (fun j => s.sreg q (wSB (s.headWord q) + j)), s.sreg q (wSREC (s.headWord q)) % 2 ^ 48,
   s.sreg q (wSQD (s.headWord q)) % 2 ^ 48⟩

/-- A convert operation as a unit takes it up, not in warm-up and without delayed scales. -/
def ConvOp.taken (s : State) (kind : Nat) (i : OpIns) (desc : List Nat) : ConvOp :=
  { kind := kind, ins := i, desc := desc, engine := 0, formed := false, writes := [], warm := false, scales := [], chans := [],
    cnt := OpCounts.start s.trk.ts, stats := ConvStats.none }

/-- The source of a CONVERT, by rows (R82, R124). -/
def convSource (s : State) (i : OpIns) : List (List Val) :=
  (List.range i.cvRows).map (fun r => (List.range i.cvLen).map (fun j => fmtDecode i.cvFmt (elemCode s.sram (i.cvSrc + r * i.cvSrcS) i.cvFmt j)))

/-! ### Resets (R426-R430) -/

/-- From `s` to `t`, a device-level reset has begun with source `k` (R426-R428, R433): the device is held in reset, the register fields
of the AON domain and the causes keep their values and every other field has its Reset value, HBM (in self-refresh) and NV keep
theirs, and everything else is as after a reset, but for the emergency that firmware owes of it; nSYSRST is driven when the source's bit of DRIVE says so. -/
structure ResetBegun (s t : State) (k : Nat) : Prop where
  held : t.rst = [(0, true)]
  source : t.rd F.RST_CAUSE_SOURCES 0 = 2 ^ k ∧ t.rd F.RST_CAUSE_FIRST 0 = k ∧ t.rd F.RST_CAUSE_MC_ONLY 0 = 0
  counted : t.rd F.RST_DEVICE_CNT_COUNT 0 = (s.rd F.RST_DEVICE_CNT_COUNT 0 + 1) % 2 ^ 64
  cleared : ∀ (f : Fld) (i : Nat), i < 131072 → keptField 0 f.key = false → f.key ≠ F.PWR_STATUS_Q_ON.key → f.key ≠ F.HBM_PC_STATE_STATE.key → t.rd f i = f.resetAt i
  kept : ∀ (f : Fld) (i : Nat), i < 131072 → keptField 0 f.key = true → (∀ e ∈ [F.RST_CAUSE_SOURCES, F.RST_CAUSE_FIRST, F.RST_CAUSE_MC_ONLY,
    F.RST_DEVICE_CNT_COUNT, F.RST_WRAP_FLAGS], e.key ≠ f.key) → t.rd f i = s.rd f i
  units : t.tile = State.reset.tile ∧ t.sync = State.reset.sync ∧ t.trk = State.reset.trk ∧ t.streams = State.reset.streams ∧ t.noc = State.reset.noc ∧
    t.ses = State.reset.ses ∧ t.pci = State.reset.pci ∧ t.kmr = State.reset.kmr ∧ t.fab = State.reset.fab ∧ t.conf = State.reset.conf ∧ t.dict = { State.reset.dict with owed := [(0x22000010 + k, 4)] }
  selfRefresh : ∀ p, p < 256 → t.rd F.HBM_PC_STATE_STATE p = 2
  memories : t.sram = [] ∧ t.full = [] ∧ t.mem.hbm = s.mem.hbm ∧ t.mem.cxl = s.mem.cxl ∧ t.sec.nv = s.sec.nv
  mc : t.pwr.mc = false ∧ t.pwr.aon = s.pwr.aon ∧ t.pwr.log = s.pwr.log
  queue : t.pending = s.pending
  driven : t.outbox = if drivesPin s k then .nsysrst k :: s.outbox else s.outbox

/-- The command that asks for a reset of block `i` of a kind of R446, held or not. -/
def BlockCommand (c : Instr) (kind i : Nat) (hold : Bool) : Prop :=
  (∃ q : Fin 4, c = .quarterReset q hold ∧ kind = 1 ∧ i = q.val) ∨ (∃ k : Fin 32, c = .clusterReset k hold ∧ kind = 2 ∧ i = k.val) ∨
  (∃ k : Fin 512, c = .coreReset k hold ∧ kind = 3 ∧ i = k.val) ∨ (∃ r : Fin 32, c = .fabricRegionReset r hold ∧ kind = 4 ∧ i = r.val) ∨
  (∃ p : Fin 12, c = .kamrusPortReset p hold ∧ kind = 5 ∧ i = p.val)

/-! ### Signal slices (R345-R353) -/

/-- Slice `n` executes the word at its PC, which is of operation `op`: it runs, no STOP waits, its region is up, and the word is legal. -/
structure SliceIssues (s : State) (n op : Nat) : Prop where
  runs : sliceState s n = slRUN
  stops : s.on F.SPS_CTRL_STOP n = false
  live : sliceDown s n = false
  isOp : sOp (sliceWord s n (slicePC s n)) = op
  legal : sLegal (s.slice n) (slicePC s n) (sliceWord s n (slicePC s n)) = true

/-- The fields that the progress of slice `n` may change. -/
def sliceFields (n : Nat) : List (Fld × Nat) :=
  [(F.SPS_PC_PC, n), (F.SPS_STATUS_IN_REP, n), (F.SPS_CYCLE_CNT_COUNT, n), (F.SPS_WRAP_FLAGS, n)]

/-- From `s` to `t`, slice `n` has finished with its word: the cycles count, a repetition goes on at the same word, and else the slice
runs at the word that its loop stack leads to (R349, R350); beside its progress only the fields in `extra` may change. -/
structure SliceDone (s t : State) (n cycles : Nat) (extra : List (Fld × Nat)) : Prop where
  runs : sliceState t n = slRUN
  counted : t.rd F.SPS_CYCLE_CNT_COUNT n = (s.rd F.SPS_CYCLE_CNT_COUNT n + cycles) % 2 ^ 64
  repeats : 1 < (s.slice n).rep → (t.slice n).rep = (s.slice n).rep - 1 ∧ slicePC t n = slicePC s n ∧ (t.slice n).loops = (s.slice n).loops
  goesOn : (s.slice n).rep ≤ 1 → slicePC t n = (sliceAfter (slicePC s n) (s.slice n).loops).1 % 4096 ∧
    (t.slice n).loops = (sliceAfter (slicePC s n) (s.slice n).loops).2 ∧ (t.slice n).rep = 0
  others : ∀ m, m ≠ n → t.slice m = s.slice m
  fields : SameRegs s t (sliceFields n ++ extra)
  rest : t = { s with regs := t.regs, fab := t.fab }

/-- Walker `i` of a slice after an arithmetic word (R346, R348): each operand that steps it moves it, then the store does. -/
def walkerAfter (x : Slice) (w i : Nat) : Walker :=
  let step := fun (k : Walker) (j how : Nat) => if j ≠ i then k else if how = 1 then k.moved k.step else if how = 2 then k.moved (-k.step) else k
  let how := fun (c : Nat) => if 0x0C ≤ c ∧ c ≤ 0x0F then 1 else if 0x10 ≤ c ∧ c ≤ 0x13 then 2 else 0
  let k := (sReads w).foldl (fun k c => step k (c % 4) (how c)) (x.w i)
  if sStEn w then step k (sStW w) (sStStep w) else k

/-- Beside its result, an arithmetic word of slice `n` stores the named D register, as it was, at its walker's address, when it has a store
(R348), and moves the walkers that it steps; every other word of data memory, the instruction memories, the FIFOs and the firings are as before. -/
structure SliceStores (s t : State) (n w : Nat) : Prop where
  stored : sStEn w = true → dmWord t n ((s.slice n).w (sStW w)).mem ((s.slice n).w (sStW w)).addr = dVal (s.slice n) (sStD w)
  kept : ∀ k, sStEn w = false ∨ k ≠ (n * 2 + ((s.slice n).w (sStW w)).mem) * 2048 + ((s.slice n).w (sStW w)).addr % 2048 →
    Tab.get 0 t.fab.dm k = Tab.get 0 s.fab.dm k
  walkers : ∀ i, i < 4 → (t.slice n).w i = walkerAfter (s.slice n) w i
  fifos : (t.slice n).in0 = (s.slice n).in0 ∧ (t.slice n).in1 = (s.slice n).in1 ∧ (t.slice n).out0 = (s.slice n).out0 ∧ (t.slice n).out1 = (s.slice n).out1
  firings : (t.slice n).firings = (s.slice n).firings
  fabric : t.fab = { s.fab with slices := t.fab.slices, dm := t.fab.dm }

/-- An exact result limited to a range (R342, R343). -/
def limited (lo hi v : Int) : Int := if v < lo then lo else if hi < v then hi else v

end Sys2Proof.Machine
end

