-- ==== Sys2Proof/Certificates/Slice0/Obligations.lean ====
section
/-!
DEFINITION. The statements about this model, one per obligation, in the order of the spec's chapters.
-/
open Sys2Proof Sys2Proof.Machine

/-! ### The step, the queue and reset -/

/-- A step with a command at the front of the queue is that command's effect on the state with the queue's rest. -/
def Obligations.StepRunsTheFrontCommand : Prop :=
  ∀ (c : Instr) (s : State), step (s.push c) = exec c s

/-- On an empty queue the device idles for one ACLK cycle and answers a next state with the queue still empty, and, with no session admitted
and no copy of the output image in progress, with memory as it was: out of reset the trace timestamp counts the cycle at 1.75 GHz, so by 1, or by
what a slower mode of R21 makes of it, modulo 2^48 (R222); while the hub is in reset nothing changes but that ALERT_N is at high impedance (R485).
That an idle step is one cycle is the model's choice (log entry 2). -/
def Obligations.IdleStepPassesOneCycle : Prop :=
  ∀ s : State, s.pending = [] →
    ∃ t, step s = .next t ∧ t.pending = [] ∧
      (s.dict.copying = none → s.admitted = [] → t.sram = s.sram ∧ t.full = s.full ∧ t.mem.hbm = s.mem.hbm ∧ t.mem.cxl = s.mem.cxl) ∧
      (hubDown s = true → t = { s with pins := { s.pins with alert := false }, outbox := t.outbox }) ∧
      (hubDown s = false → s.trk.ts < 2 ^ 48 → s.trk.frac < 12 →
        t.trk.ts = (s.trk.ts + (s.trk.frac + cycleTime s) / 12) % 2 ^ 48 ∧ t.trk.frac < 12)

/-- Right after reset every register field outside the live ones that the model's log names reads its Reset column (R6), every
byte of every memory reads 0 and every word's full/empty bit empty, the memories are in canonical form, no block is in reset, and
no command waits. The moment after reset, the values of fields whose Reset column gives none, the live fields and the zero of memory are the
model's choices (log entries 4 to 8). -/
def Obligations.ResetLeavesResetValues : Prop :=
  (∀ (f : Fld) (i : Nat), i < 131072 →
    (f.key, i) ∉ [(F.RST_BOOT_BIN.key, 0), (F.RST_TRIM_STATE.key, 0), (F.RST_TRIM_TRIES.key, 0), (F.PWR_STATUS_IN_RANGE.key, 0),
      (F.PWR_STATUS_Q_ON.key, 0), (F.PAC_WDOG_LEFT_US.key, 0)] →
    State.reset.rd f i = f.resetAt i) ∧
  (∀ a, byteAt State.reset.sram a = 0 ∧ byteAt State.reset.mem.hbm a = 0) ∧ (∀ w, State.reset.isFull w = false) ∧
  (∀ kind i, State.reset.inReset kind i = false) ∧ Memory.wf State.reset = true ∧ State.reset.queueWf = true

/-- Whatever the command, a step keeps the queue: the commands behind the front stay, in order, and a queue of well-formed
commands stays one. -/
def Obligations.EveryStepKeepsTheQueueWellFormed : Prop :=
  ∀ s t : State, step s = .next t → t.pending = s.pending.tail ∧ (s.queueWf = true → t.queueWf = true)

/-- Whatever the command, a step keeps every memory in its canonical form: rising addresses and no entry that reads as an unlisted
one, in on-chip memory and its full/empty bits (R171), HBM (R273), the CXL tier (R288) and NV (R457). That what nothing has written reads 0
or empty is the model's choice (log entry 8). -/
def Obligations.EveryStepKeepsMemoriesCanonical : Prop :=
  ∀ s t : State, step s = .next t → Memory.wf s = true → Memory.wf t = true

/-! ### The loop class of tile instructions (R115, R130-R133) -/

/-- The scalar arithmetic of OP 0x08 to 0x10 (R130): S[SD] := S[SA] op b, b the sign-extended IMM32 or S[SB]; S0 discards the
result (R112), and the instruction changes nothing but S[SD] and the queue's own progress.

The immediates and moves of the loop class (R130): li, lih (the lower half stays), lidx of a level on the loop stack; and nop,
which writes nothing. -/
def Obligations.ScalarInstructionsWriteTheirRegister : Prop :=
  ((∀ (q : Fin 4096) (s : State), Issues s q 7 0x08 → ∃ t, exec (.add q) s = .next t ∧
     ScalarDone s t q ((s.sreg q (wR1 (s.headWord q)) + scalB s q (s.headWord q)) % 2 ^ 64)) ∧
   (∀ (q : Fin 4096) (s : State), Issues s q 7 0x09 → ∃ t, exec (.sub q) s = .next t ∧
     ScalarDone s t q (wrapInt 64 ((s.sreg q (wR1 (s.headWord q)) : Int) - (scalB s q (s.headWord q) : Int)))) ∧
   (∀ (q : Fin 4096) (s : State), Issues s q 7 0x0A → ∃ t, exec (.mul q) s = .next t ∧
     ScalarDone s t q (s.sreg q (wR1 (s.headWord q)) * scalB s q (s.headWord q) % 2 ^ 64)) ∧
   (∀ (q : Fin 4096) (s : State), Issues s q 7 0x0B → ∃ t, exec (.and q) s = .next t ∧
     ScalarDone s t q (s.sreg q (wR1 (s.headWord q)) &&& scalB s q (s.headWord q))) ∧
   (∀ (q : Fin 4096) (s : State), Issues s q 7 0x0C → ∃ t, exec (.or q) s = .next t ∧
     ScalarDone s t q (s.sreg q (wR1 (s.headWord q)) ||| scalB s q (s.headWord q))) ∧
   (∀ (q : Fin 4096) (s : State), Issues s q 7 0x0D → ∃ t, exec (.xor q) s = .next t ∧
     ScalarDone s t q (s.sreg q (wR1 (s.headWord q)) ^^^ scalB s q (s.headWord q))) ∧
   (∀ (q : Fin 4096) (s : State), Issues s q 7 0x0E → ∃ t, exec (.shl q) s = .next t ∧
     ScalarDone s t q ((s.sreg q (wR1 (s.headWord q)) <<< (scalB s q (s.headWord q) % 64)) % 2 ^ 64)) ∧
   (∀ (q : Fin 4096) (s : State), Issues s q 7 0x0F → ∃ t, exec (.shr q) s = .next t ∧
     ScalarDone s t q (s.sreg q (wR1 (s.headWord q)) >>> (scalB s q (s.headWord q) % 64))) ∧
   (∀ (q : Fin 4096) (s : State), Issues s q 7 0x10 → ∃ t, exec (.sar q) s = .next t ∧
     ScalarDone s t q (wrapInt 64 (sext 64 (s.sreg q (wR1 (s.headWord q))) / 2 ^ (scalB s q (s.headWord q) % 64))))) ∧
  ((∀ (q : Fin 4096) (s : State), Issues s q 7 0x11 → ∃ t, exec (.li q) s = .next t ∧
     ScalarDone s t q (wrapInt 64 (sext 32 (wIMM (s.headWord q))))) ∧
   (∀ (q : Fin 4096) (s : State), Issues s q 7 0x12 → ∃ t, exec (.lih q) s = .next t ∧
     ScalarDone s t q (setBits (s.sreg q (wR0 (s.headWord q))) 32 32 (wIMM (s.headWord q)))) ∧
   (∀ (q : Fin 4096) (s : State) (l : LoopLvl), Issues s q 7 0x02 →
     (s.loopStack q)[bits (s.headWord q) 64 2]? = some l → ∃ t, exec (.lidx q) s = .next t ∧ ScalarDone s t q l.index) ∧
   (∀ (q : Fin 4096) (s : State), Issues s q 7 0x00 → ∃ t, exec (.nop q) s = .next t ∧ Finished s t q ∧ SameRegs s t (queueFields q) ∧
     t = { s with regs := t.regs, tile := t.tile } ∧ t.tile.sregs = s.tile.sregs ∧ t.tile.pregs = s.tile.pregs ∧
     t.tile.vregs = s.tile.vregs))

/-- loop (R131) and br (R130, R132). A loop of count 0 goes on behind its body; one of count n pushes a level with n passes left and
begins its body. A branch that is not taken goes on; one that is taken sets PC to PC + IMM32 (HI
being within its 12 bits) and leaves of the loop stack the outermost levels whose bodies hold the target.

An access that its word does not admit waits at the load and store port, with WAIT_ON 0x3, and touches nothing (R118, R173); a
head that faults faults the queue with its cause, and PC stays on it (R134); fence waits with WAIT_ON 0x7 for the earlier writes
of its queue and else goes on; halt leaves HALTED with PC on the next word; signal sets EVENT and signals the MC (R130). -/
def Obligations.QueueFlowFollowsItsInstructions : Prop :=
  ((∀ (q : Fin 4096) (s : State), Issues s q 7 0x01 →
     let w := s.headWord q
     let n := if wIMMSEL w then wIMM w else s.sreg q (wR1 w)
     ∃ t, exec (.loop q) s = .next t ∧ t.qState q = qRUN ∧ SameRegs s t (queueFields q) ∧
       t = { s with regs := t.regs, tile := t.tile } ∧ t.tile.sregs = s.tile.sregs ∧
       (n = 0 → t.qPC q = (afterWord (s.qPC q + wLEN w) (s.loopStack q)).1 % 4096 ∧
         t.loopStack q = (afterWord (s.qPC q + wLEN w) (s.loopStack q)).2) ∧
       (0 < n → t.qPC q = (s.qPC q + 1) % 4096 ∧
         t.loopStack q = ⟨s.qPC q + 1, s.qPC q + wLEN w, n, 0⟩ :: s.loopStack q)) ∧
   (∀ (q : Fin 4096) (s : State), Issues s q 7 0x03 →
     let w := s.headWord q
     ∃ t, exec (.br q) s = .next t ∧ t.qState q = qRUN ∧ SameRegs s t (queueFields q) ∧
       t = { s with regs := t.regs, tile := t.tile } ∧ t.tile.sregs = s.tile.sregs ∧
       (brTaken s q w = false → Finished s t q) ∧
       (brTaken s q w = true → s.rd F.VEC_Q_RANGE_HI q < 2 ^ 12 → (t.qPC q : Int) = (s.qPC q : Int) + sext 32 (wIMM w) ∧
         (∀ l ∈ t.loopStack q, l.first ≤ t.qPC q ∧ t.qPC q ≤ l.last) ∧ t.loopStack q <:+ s.loopStack q))) ∧
  ((∀ (q : Fin 4096) (s : State), Issues s q 7 0x13 →
     let w := s.headWord q
     let a := scalAddr s q w
     padBusy s a = false → padDown s a = false → mayAccess s s.sync.waiters (wLFE w) false [a / 8] = false →
     ∃ t, exec (.sld q) s = .next t ∧ t.qState q = qWAIT ∧ t.rd F.VEC_Q_STAT_WAIT_ON q = 3 ∧ t.qPC q = s.qPC q ∧
       t.tile.sregs = s.tile.sregs ∧ t.full = s.full ∧ t.sram = s.sram) ∧
   (∀ (q : Fin 4096) (s : State) (c : Nat), s.running q = true → coreStopped s (coreOfQueue q) = false → s.headWait q = .plain →
     s.on F.VEC_CTRL_EN (coreOfQueue q) = true → headFault s q = some c →
     ∃ t, exec (.queueFault q) s = .next t ∧ t.qState q = qFAULT ∧ t.rd F.VEC_Q_STAT_FAULT_CAUSE q = c % 2 ^ 8 ∧
       t.qPC q = s.qPC q ∧ t.rd F.VEC_STATUS_Q_FAULT (coreOfQueue q) = 1 ∧
       t.outbox = .mc F.VEC_STATUS_Q_FAULT (coreOfQueue q) :: s.outbox ∧
       SameRegs s t [(F.VEC_Q_STAT_STATE, q.val), (F.VEC_Q_STAT_WAIT_ON, q.val), (F.VEC_Q_STAT_FAULT_CAUSE, q.val),
         (F.VEC_STATUS_Q_FAULT, coreOfQueue q)] ∧
       t = { s with regs := t.regs, tile := t.tile, outbox := t.outbox }) ∧
   (∀ (q : Fin 4096) (s : State), Issues s q 7 0x15 → ∃ t, exec (.fence q) s = .next t ∧
     ((writesPending s q || streamsPending s q) = true → t.qState q = qWAIT ∧ t.rd F.VEC_Q_STAT_WAIT_ON q = 7 ∧ t.qPC q = s.qPC q) ∧
     ((writesPending s q || streamsPending s q) = false → Finished s t q) ∧ SameRegs s t (queueFields q) ∧
     t = { s with regs := t.regs, tile := t.tile } ∧ t.tile.sregs = s.tile.sregs) ∧
   (∀ (q : Fin 4096) (s : State), Issues s q 7 0x16 → ∃ t, exec (.halt q) s = .next t ∧ t.qState q = qHALTED ∧
     t.qPC q = (afterWord (s.qPC q) (s.loopStack q)).1 % 4096 ∧ SameRegs s t (queueFields q) ∧
     t = { s with regs := t.regs, tile := t.tile } ∧ t.tile.sregs = s.tile.sregs) ∧
   (∀ (q : Fin 4096) (s : State), Issues s q 7 0x17 → ∃ t, exec (.signal q) s = .next t ∧ t.rd F.VEC_Q_STAT_EVENT q = 1 ∧
     t.outbox = .mc F.VEC_Q_STAT_EVENT q :: s.outbox ∧ Finished s t q ∧ SameRegs s t ((F.VEC_Q_STAT_EVENT, q.val) :: queueFields q) ∧
     t = { s with regs := t.regs, tile := t.tile, outbox := t.outbox } ∧ t.tile.sregs = s.tile.sregs))

/-- sld and sst at S[SA] + IMM32 (R130, R128, R172), of memory that answers and is not being initialised, and of a word that the
access may be performed on: the load gives S[SD] the word, the store writes S[SB] into its 8 bytes and no others; a consume
load leaves the word empty, other loads leave every bit, a store leaves the word full.

A waiting access (R173): the scalar load of a queue that waits at the load and store port is performed as soon as its word admits it,
counting only accesses that waited before it; while the word does not, nothing changes. -/
def Obligations.ScalarAccessesCompleteOrWait : Prop :=
  ((∀ (q : Fin 4096) (s : State), Issues s q 7 0x13 →
     let w := s.headWord q
     let a := scalAddr s q w
     padBusy s a = false → padDown s a = false → mayAccess s s.sync.waiters (wLFE w) false [a / 8] = true →
     ∃ t, exec (.sld q) s = .next t ∧ WroteS s t q (wR0 w) (readNat s.sram (a / 8 * 8) 8) ∧ Finished s t q ∧
       SameRegs s t (queueFields q) ∧ t = { s with regs := t.regs, tile := t.tile, full := t.full } ∧
       (∀ x, t.isFull x = if wLFE w = 2 ∧ x = a / 8 then false else s.isFull x)) ∧
   (∀ (q : Fin 4096) (s : State), Issues s q 7 0x14 →
     let w := s.headWord q
     let a := scalAddr s q w
     padBusy s a = false → padDown s a = false → mayAccess s s.sync.waiters (wLFE w) true [a / 8] = true →
     ∃ t, exec (.sst q) s = .next t ∧ readBytes t.sram a 8 = bytesLE 8 (s.sreg q (wR2 w)) ∧ SameBytes s t a 8 ∧
       (∀ x, t.isFull x = if x = a / 8 then true else s.isFull x) ∧ Finished s t q ∧
       SameRegs s t (queueFields q ++ (List.range 64).map (fun k => (F.HUR_WIN_CREDIT_CREDIT, clusterOfQueue q * 64 + k))) ∧
       t = { s with regs := t.regs, tile := t.tile, full := t.full, sram := t.sram } ∧ t.tile.sregs = s.tile.sregs)) ∧
  (∀ (q : Fin 4096) (n : Nat) (s : State), s.headWait q = .access → coreStopped s (coreOfQueue q) = false →
     wClass (s.headWord q) = 7 → wOp (s.headWord q) = 0x13 →
     let w := s.headWord q
     let a := scalAddr s q w
     padDown s (a / 8 * 8) = false → padDown s a = false →
     (mayAccess s (waitersBefore (.lsu q) [a / 8] s.sync.waiters) (wLFE w) false [a / 8] = true →
       ∃ t, exec (.waitingAccessPerform (.lsu q) n) s = .next t ∧ WroteS s t q (wR0 w) (readNat s.sram (a / 8 * 8) 8) ∧
         Finished s t q ∧
         (∀ x, t.isFull x = if wLFE w = 2 ∧ x = a / 8 then false else s.isFull x) ∧ t.sram = s.sram ∧
         t.sync.waiters = withoutWaiter (.lsu q) [a / 8] s.sync.waiters ∧ SameRegs s t (queueFields q)) ∧
     (mayAccess s (waitersBefore (.lsu q) [a / 8] s.sync.waiters) (wLFE w) false [a / 8] = false →
       exec (.waitingAccessPerform (.lsu q) n) s = .next s))

/-! ### The vector class (R126-R129) -/

/-- Lane arithmetic (R76, R126, R127): in each executing lane VD takes the IEEE 754 result of the lane's operands under RM (the
two's complement result for INT32), b being the broadcast S register with BCAST; masked lanes keep their elements.

The IEEE results that R57 and IEEE 754-2019 fix whatever the rounding (R76, R127): a NaN operand gives the canonical NaN, the sum
of opposite infinities, 0 x infinity, 0 / 0, infinity / infinity and the root of a negative number give it too and count as
invalid, a quotient by zero is an infinity, and min and max of two numbers are
the lower and the higher of them, and the canonical NaN when either is NaN. -/
def Obligations.VectorArithmeticFollowsIEEE : Prop :=
  ((∀ (q : Fin 4096) (s : State), Issues s q 1 0x00 → let w := s.headWord q; let f := typeFmt (wTYPE w)
     ∃ t, exec (.vadd q) s = .next t ∧ LanewiseDone s t q (fun i =>
       if wTYPE w = 2 then opA s q w i + opB s q w i
       else (ieeeAdd f (rmOf (wRM w)) (f.decode (opA s q w i)) (f.decode (opB s q w i))).val)) ∧
   (∀ (q : Fin 4096) (s : State), Issues s q 1 0x01 → let w := s.headWord q; let f := typeFmt (wTYPE w)
     ∃ t, exec (.vsub q) s = .next t ∧ LanewiseDone s t q (fun i =>
       if wTYPE w = 2 then wrapInt 32 ((opA s q w i : Int) - (opB s q w i : Int))
       else (ieeeAdd f (rmOf (wRM w)) (f.decode (opA s q w i)) (Val.negate (f.decode (opB s q w i)))).val)) ∧
   (∀ (q : Fin 4096) (s : State), Issues s q 1 0x02 → let w := s.headWord q; let f := typeFmt (wTYPE w)
     ∃ t, exec (.vmul q) s = .next t ∧ LanewiseDone s t q (fun i =>
       if wTYPE w = 2 then opA s q w i * opB s q w i
       else (ieeeMul f (rmOf (wRM w)) (f.decode (opA s q w i)) (f.decode (opB s q w i))).val)) ∧
   (∀ (q : Fin 4096) (s : State), Issues s q 1 0x03 → let w := s.headWord q; let f := typeFmt (wTYPE w)
     ∃ t, exec (.vfma q) s = .next t ∧ LanewiseDone s t q (fun i =>
       (ieeeFma f (rmOf (wRM w)) (f.decode (opA s q w i)) (f.decode (opB s q w i)) (f.decode (opC s q w i))).val)) ∧
   (∀ (q : Fin 4096) (s : State), Issues s q 1 0x04 → let w := s.headWord q; let f := typeFmt (wTYPE w)
     ∃ t, exec (.vdiv q) s = .next t ∧ LanewiseDone s t q (fun i =>
       (ieeeDiv f (rmOf (wRM w)) (f.decode (opA s q w i)) (f.decode (opB s q w i))).val)) ∧
   (∀ (q : Fin 4096) (s : State), Issues s q 1 0x05 → let w := s.headWord q; let f := typeFmt (wTYPE w)
     ∃ t, exec (.vsqrt q) s = .next t ∧ LanewiseDone s t q (fun i => (ieeeSqrt f (rmOf (wRM w)) (f.decode (opA s q w i))).val)) ∧
   (∀ (q : Fin 4096) (s : State), Issues s q 1 0x06 → let w := s.headWord q
     ∃ t, exec (.vmin q) s = .next t ∧ LanewiseDone s t q (fun i => (minMax (wTYPE w) false (opA s q w i) (opB s q w i)).val)) ∧
   (∀ (q : Fin 4096) (s : State), Issues s q 1 0x07 → let w := s.headWord q
     ∃ t, exec (.vmax q) s = .next t ∧ LanewiseDone s t q (fun i => (minMax (wTYPE w) true (opA s q w i) (opB s q w i)).val))) ∧
  ((∀ (t a b : Nat) (top : Bool),
     ((typeVal t a).isNaN || (typeVal t b).isNaN) = true → minMax t top a b = laneNaN (typeFmt t) false) ∧
   (∀ (t a b : Nat), (typeVal t a).isNaN = false → (typeVal t b).isNaN = false →
     (valBelow (typeVal t a) (typeVal t b) = true → minMax t false a b = Lane.plain a ∧ minMax t true a b = Lane.plain b) ∧
     (valBelow (typeVal t a) (typeVal t b) = false → minMax t false a b = Lane.plain b ∧ minMax t true a b = Lane.plain a)) ∧
   (∀ (f : FloatFmt) (rm : Rnd) (x : Val) (b c : Bool) (m : Frac),
     ieeeAdd f rm .nan x = laneNaN f false ∧ ieeeAdd f rm x .nan = laneNaN f false ∧
     ieeeMul f rm .nan x = laneNaN f false ∧ ieeeDiv f rm x .nan = laneNaN f false ∧ ieeeSqrt f rm .nan = laneNaN f false ∧
     ieeeAdd f rm (.inf b) (.inf (!b)) = laneNaN f true ∧ ieeeAdd f rm (.inf b) (.fin c m) = laneInf f b ∧
     (Frac.isZero m = true → ieeeMul f rm (.inf b) (.fin c m) = laneNaN f true ∧ ieeeDiv f rm (.fin b m) (.fin c m) = laneNaN f true ∧
       ieeeSqrt f rm (.fin b m) = Lane.plain (f.signBit b)) ∧
     (Frac.isZero m = false → ieeeMul f rm (.inf b) (.fin c m) = laneInf f (xor b c) ∧ ieeeSqrt f rm (.fin true m) = laneNaN f true ∧
       (∀ n : Frac, Frac.isZero n = true → ieeeDiv f rm (.fin b m) (.fin c n) = laneInf f (xor b c))) ∧
     ieeeDiv f rm (.inf b) (.inf c) = laneNaN f true ∧ ieeeSqrt f rm (.inf true) = laneNaN f true ∧
     (laneNaN f true).val = f.canonNaN ∧ (laneNaN f true).invalid = true ∧ (laneNaN f false).invalid = false))

/-- Signs, bits, selection and conversion, lane by lane (R127): vabs and vneg clear and invert the sign of a number; the bitwise
operations and shifts act on INT32 elements; vsel takes a where the predicate bit is 1 and b elsewhere; vcvt rounds to the
target format, as many lanes as both registers hold; vmovs writes the one lane it names.

What goes from vectors to predicates, S registers and records (R76, R127, R129): vcmp writes one predicate bit per executing lane
and keeps the others; vred sums the executing lanes in the fixed tree into S[SA]; vrmax takes their maximum, and neither writes
when no lane executes; vmovv copies one lane; vrec closes the open operation and writes its record, lets it wait for a memory that is
being initialised, or sets REC_ERR and completes with error when its place lies outside those of R47 or is in reset. -/
def Obligations.VectorMovesReductionsAndRecords : Prop :=
  ((∀ (q : Fin 4096) (s : State), Issues s q 1 0x08 → let w := s.headWord q
     ∃ t, exec (.vabs q) s = .next t ∧ LanewiseDone s t q (fun i => let f := typeFmt (wTYPE w)
       if Val.isNaN (f.decode (opA s q w i)) then f.canonNaN else bits (opA s q w i) 0 (f.ebits + f.fbits))) ∧
   (∀ (q : Fin 4096) (s : State), Issues s q 1 0x09 → let w := s.headWord q
     ∃ t, exec (.vneg q) s = .next t ∧ LanewiseDone s t q (fun i => let f := typeFmt (wTYPE w)
       if Val.isNaN (f.decode (opA s q w i)) then f.canonNaN
       else bits (opA s q w i) 0 (f.ebits + f.fbits) + (1 - bit (opA s q w i) (f.ebits + f.fbits)) * 2 ^ (f.ebits + f.fbits))) ∧
   (∀ (q : Fin 4096) (s : State), Issues s q 1 0x14 → let w := s.headWord q
     ∃ t, exec (.vand q) s = .next t ∧ LanewiseDone s t q (fun i => opA s q w i &&& opB s q w i)) ∧
   (∀ (q : Fin 4096) (s : State), Issues s q 1 0x15 → let w := s.headWord q
     ∃ t, exec (.vor q) s = .next t ∧ LanewiseDone s t q (fun i => opA s q w i ||| opB s q w i)) ∧
   (∀ (q : Fin 4096) (s : State), Issues s q 1 0x16 → let w := s.headWord q
     ∃ t, exec (.vxor q) s = .next t ∧ LanewiseDone s t q (fun i => opA s q w i ^^^ opB s q w i)) ∧
   (∀ (q : Fin 4096) (s : State), Issues s q 1 0x17 → let w := s.headWord q
     ∃ t, exec (.vshl q) s = .next t ∧ LanewiseDone s t q (fun i => opA s q w i <<< bits w 64 5)) ∧
   (∀ (q : Fin 4096) (s : State), Issues s q 1 0x18 → let w := s.headWord q
     ∃ t, exec (.vshr q) s = .next t ∧ LanewiseDone s t q (fun i => opA s q w i >>> bits w 64 5)) ∧
   (∀ (q : Fin 4096) (s : State), Issues s q 1 0x0B → let w := s.headWord q
     ∃ t, exec (.vsel q) s = .next t ∧
       LanewiseDone s t q (fun i => if bit (s.preg q (wPSEL w)) i = 1 then opA s q w i else opB s q w i)) ∧
   (∀ (q : Fin 4096) (s : State), Issues s q 1 0x0C → let w := s.headWord q
     let code := bits w 64 5
     ∃ t, exec (.vcvt q) s = .next t ∧ VectorDone s t q ∧ t.tile.sregs = s.tile.sregs ∧ t.tile.pregs = s.tile.pregs ∧
       LanesWritten s t q (if code = 0x03 then 64 else 32) (if wTYPE w = 1 ∨ code = 0x03 then 32 else 64)
         (fun i => (cvtLane code (rmOf (wRM w)) (decide (wTYPE w = 2)) (typeVal (wTYPE w) (opA s q w i))).val)) ∧
   (∀ (q : Fin 4096) (s : State), Issues s q 1 0x12 → let w := s.headWord q
     let n := bits w 64 6 % typeLanes (wTYPE w)
     ∃ t, exec (.vmovs q) s = .next t ∧ VectorDone s t q ∧ t.tile.sregs = s.tile.sregs ∧ t.tile.pregs = s.tile.pregs ∧
       ∀ i, i < typeLanes (wTYPE w) → elemOf (t.vreg q (wR0 w)) (typeWidth (wTYPE w)) i =
         if i = n ∧ laneOn s q w n = true then s.sreg q (wVSA w) % 2 ^ typeWidth (wTYPE w)
         else elemOf (s.vreg q (wR0 w)) (typeWidth (wTYPE w)) i)) ∧
  ((∀ (q : Fin 4096) (s : State), Issues s q 1 0x0A → let w := s.headWord q
     ∃ t, exec (.vcmp q) s = .next t ∧ VectorDone s t q ∧ t.tile.sregs = s.tile.sregs ∧ t.tile.vregs = s.tile.vregs ∧
       (∀ i, i < 64 → bit (t.preg q (bits (wR0 w) 0 3)) i =
         if i < typeLanes (wTYPE w) ∧ laneOn s q w i = true then
           b2n (cmpVal (bits w 64 3) (typeVal (wTYPE w) (opA s q w i)) (typeVal (wTYPE w) (opB s q w i)))
         else bit (s.preg q (bits (wR0 w) 0 3)) i) ∧
       (∀ p r, r < 8 → ¬ (p = q.val ∧ r = bits (wR0 w) 0 3) → t.preg p r = s.preg p r)) ∧
   (∀ (q : Fin 4096) (s : State), Issues s q 1 0x0D → let w := s.headWord q; let f := typeFmt (wTYPE w)
     ∃ t, exec (.vred q) s = .next t ∧ VectorDone s t q ∧ t.tile.vregs = s.tile.vregs ∧ t.tile.pregs = s.tile.pregs ∧
       match treeSum f (rmOf (wRM w)) 6 ((List.range (typeLanes (wTYPE w))).map (fun i => if laneOn s q w i then
           some (leaf f (opA s q w i)) else none)) with
       | some l => WroteS s t q (wVSA w) l.val
       | none => t.tile.sregs = s.tile.sregs) ∧
   (∀ (q : Fin 4096) (s : State), Issues s q 1 0x0E → let w := s.headWord q
     ∃ t, exec (.vrmax q) s = .next t ∧ VectorDone s t q ∧ t.tile.vregs = s.tile.vregs ∧ t.tile.pregs = s.tile.pregs ∧
       (lanesOn s q w (typeLanes (wTYPE w)) = [] → t.tile.sregs = s.tile.sregs) ∧
       (∀ i, lanesOn s q w (typeLanes (wTYPE w)) = [i] → Val.isNaN (typeVal (wTYPE w) (opA s q w i)) = false →
         WroteS s t q (wVSA w) (opA s q w i)) ∧
       (∀ i j, lanesOn s q w (typeLanes (wTYPE w)) = [i, j] → Val.isNaN (typeVal (wTYPE w) (opA s q w i)) = false →
         WroteS s t q (wVSA w) (minMax (wTYPE w) true (opA s q w i) (opA s q w j)).val)) ∧
   (∀ (q : Fin 4096) (s : State), Issues s q 1 0x13 → let w := s.headWord q
     let n := bits w 64 6 % typeLanes (wTYPE w)
     ∃ t, exec (.vmovv q) s = .next t ∧ VectorDone s t q ∧ t.tile.vregs = s.tile.vregs ∧ t.tile.pregs = s.tile.pregs ∧
       (laneOn s q w n = true → WroteS s t q (wVSA w) (opA s q w n)) ∧ (laneOn s q w n = false → t.tile.sregs = s.tile.sregs)) ∧
   (∀ (q : Fin 4096) (s : State), Issues s q 1 0x1F → let w := s.headWord q
     ∃ t, exec (.vrec q) s = .next t ∧ t.vop q = VOp.none ∧ Finished s t q ∧ t.tile.sregs = s.tile.sregs ∧ t.tile.vregs = s.tile.vregs ∧
       t.tile.pregs = s.tile.pregs ∧
       let da := s.sreg q (wVSREC w)
       (recordPlace (clusterOfQueue q) da = true → padDown s da = false → padBusy s da = false →
         bits (t.word (da / 8)) 0 16 = 0x0200 ∧ bits (t.word (da / 8)) 32 32 = recTag w q ∧
         SameBytes s t da 64 ∧ (∀ k, k < 8 → t.isFull (da / 8 + k) = true)) ∧
       (recordPlace (clusterOfQueue q) da = true → padDown s da = false → padBusy s da = true →
         t.sram = s.sram ∧ t.full = s.full ∧ ∃ ws, t.tile.recs = s.tile.recs ++ [⟨q, none, da, ws⟩]) ∧
       (recordPlace (clusterOfQueue q) da = false ∨ padDown s da = true →
         t.rd F.VEC_STATUS_REC_ERR (coreOfQueue q) = 1 ∧ .opError q ∈ t.outbox ∧ t.sram = s.sram ∧ t.full = s.full)))

/-- vld and vst at S[SA] + IMM32 (R126, R128, R172), of memory that answers and is not being initialised, and whose words the access
may be performed on: each executing lane takes or writes its element; no other byte of memory changes; a store leaves every word
whose every lane executes full, a consume load leaves it empty, and no other bit changes. -/
def Obligations.VectorLoadsAndStores : Prop :=
  (∀ (q : Fin 4096) (s : State), Issues s q 1 0x10 → let w := s.headWord q
    let a := vecAddr s q w
    let b := typeWidth (wTYPE w) / 8
    let ws := (vecWords s q w).map (fun k => a / 8 + k)
    let whole := (vecWhole s q w).map (fun k => a / 8 + k)
    ws.any (fun x => padBusy s (x * 8)) = false → ws.any (fun x => padDown s (x * 8)) = false →
    mayAccess s s.sync.waiters (wVFE w) false ws = true →
    ∃ t, exec (.vld q) s = .next t ∧ Finished s t q ∧ t.tile.sregs = s.tile.sregs ∧ t.tile.pregs = s.tile.pregs ∧
      LanesWritten s t q (8 * b) (typeLanes (wTYPE w)) (fun i => readNat s.sram (a + b * i) b) ∧
      SameRegs s t (vectorFields q) ∧ t = { s with regs := t.regs, tile := t.tile, full := t.full } ∧
      (∀ x, t.isFull x = if wVFE w = 2 ∧ x ∈ whole then false else s.isFull x)) ∧
  (∀ (q : Fin 4096) (s : State), Issues s q 1 0x11 → let w := s.headWord q
    let a := vecAddr s q w
    let b := typeWidth (wTYPE w) / 8
    let ws := (vecWords s q w).map (fun k => a / 8 + k)
    let whole := (vecWhole s q w).map (fun k => a / 8 + k)
    ws.any (fun x => padBusy s (x * 8)) = false → ws.any (fun x => padDown s (x * 8)) = false →
    mayAccess s s.sync.waiters (wVFE w) true ws = true →
    ∃ t, exec (.vst q) s = .next t ∧ Finished s t q ∧ t.tile.sregs = s.tile.sregs ∧ t.tile.pregs = s.tile.pregs ∧
      t.tile.vregs = s.tile.vregs ∧
      (∀ i, i < typeLanes (wTYPE w) → laneOn s q w i = true →
        readBytes t.sram (a + b * i) b = bytesLE b (elemOf (s.vreg q (wR0 w)) (typeWidth (wTYPE w)) i)) ∧
      (∀ x, (∀ i, i < typeLanes (wTYPE w) → laneOn s q w i = true → ¬ (a + b * i ≤ x ∧ x < a + b * i + b)) →
        byteAt t.sram x = byteAt s.sram x) ∧
      (∀ x, t.isFull x = if x ∈ whole then true else s.isFull x) ∧
      SameRegs s t (vectorFields q ++ (List.range 64).map (fun k => (F.HUR_WIN_CREDIT_CREDIT, clusterOfQueue q * 64 + k))))

/-! ### Queue control and the context of a core (R111, R113, R133-R142) -/

/-- START, STOP and CLEAR_FAULT (R133): START takes IDLE, HALTED or SAVED to RUN at the PC (and wakes
what a stop or a save left in engines and streams, of which this core has none) and is ignored in any other state; STOP takes
RUN or WAIT to IDLE and abandons a waiting head with PC on it, its access and its place as a waiter gone; CLEAR_FAULT takes
FAULT to IDLE; none of them moves the PC or touches a word of memory, and outside their states nothing changes. -/
def Obligations.QueueControlMovesTheState : Prop :=
  (∀ (q : Fin 4096) (s : State), s.coreDown (coreOfQueue q) = false →
    (s.qState q = qIDLE ∨ s.qState q = qHALTED ∨ s.qState q = qSAVED) →
    (∀ e, e < 4 → (s.eng (coreOfQueue q * 4 + e)).cur = none) →
    (∀ j, j < 2 → s.rd F.STM_STATUS_STATE (coreOfQueue q * 2 + j) ≠ 2) →
    ∃ t, exec (.vecQStart q) s = .next t ∧ t.qState q = qRUN ∧ SameRegs s t [(F.VEC_Q_STAT_STATE, q.val)] ∧
      t.sram = s.sram ∧ t.full = s.full ∧ t.tile = s.tile) ∧
  (∀ (q : Fin 4096) (s : State), ¬ (s.qState q = qIDLE ∨ s.qState q = qHALTED ∨ s.qState q = qSAVED) →
    exec (.vecQStart q) s = .next s) ∧
  (∀ (q : Fin 4096) (s : State), s.running q = true →
    ∃ t, exec (.vecQStop q) s = .next t ∧ t.qState q = qIDLE ∧ t.qPC q = s.qPC q ∧ t.headWait q = .plain ∧
      (∀ w ∈ t.sync.waiters, w.who ≠ .lsu q) ∧ (∀ w ∈ t.sync.hurWait, w.queue ≠ q) ∧
      SameRegs s t [(F.VEC_Q_STAT_STATE, q.val), (F.VEC_Q_STAT_WAIT_ON, q.val)] ∧
      t = { s with regs := t.regs, tile := t.tile, sync := t.sync } ∧ t.tile.sregs = s.tile.sregs ∧ t.tile.vregs = s.tile.vregs) ∧
  (∀ (q : Fin 4096) (s : State), s.running q = false → exec (.vecQStop q) s = .next s) ∧
  (∀ (q : Fin 4096) (s : State), s.qState q = qFAULT →
    ∃ t, exec (.clearFault q) s = .next t ∧ t.qState q = qIDLE ∧ SameRegs s t [(F.VEC_Q_STAT_STATE, q.val)] ∧
      t = { s with regs := t.regs }) ∧
  (∀ (q : Fin 4096) (s : State), s.qState q ≠ qFAULT → exec (.clearFault q) s = .next s)

/-- The instruction range and vector mask of a queue (R113), the instruction memory (R135), and the end of the initialisation of a
scratchpad or staging buffer (R111, R171), with the records that waited for it. A write of VEC_Q_RANGE to a queue that does not run stores LO and HI and, of VMASK, exactly the bits that no other queue
of the core holds, and sets VMASK_CLIPPED when it drops one; to a running queue it is ignored. A write of DATA_HI stores the
128-bit word at ADDR unless it lies in the range of a running queue of the core (then IMEM_REFUSED is set), and increments ADDR. -/
def Obligations.CoreMemoriesTakeTheirWrites : Prop :=
  (∀ (q : Fin 4096) (value : Word) (s : State), s.running q = false →
    ∃ t, exec (.vmaskWrite q value) s = .next t ∧ t.rd F.VEC_Q_RANGE_LO q = bits value.toNat 0 12 ∧
      t.rd F.VEC_Q_RANGE_HI q = bits value.toNat 16 12 ∧
      (∀ j, j < 32 → bit (t.rd F.VEC_Q_RANGE_VMASK q) j =
        if bit value.toNat (32 + j) = 1 ∧ (List.range 8).all (fun i => decide (coreOfQueue q * 8 + i = q.val ∨
          bit (s.rd F.VEC_Q_RANGE_VMASK (coreOfQueue q * 8 + i)) j = 0)) = true then 1 else 0) ∧
      (t.rd F.VEC_Q_RANGE_VMASK q ≠ bits value.toNat 32 32 → t.rd F.VEC_STATUS_VMASK_CLIPPED (coreOfQueue q) = 1) ∧
      SameRegs s t [(F.VEC_Q_RANGE_LO, q.val), (F.VEC_Q_RANGE_HI, q.val), (F.VEC_Q_RANGE_VMASK, q.val),
        (F.VEC_STATUS_VMASK_CLIPPED, coreOfQueue q)] ∧ t = { s with regs := t.regs }) ∧
  (∀ (q : Fin 4096) (value : Word) (s : State), s.running q = true → exec (.vmaskWrite q value) s = .next s) ∧
  (∀ (core : Fin 512) (value : Word) (s : State),
    let a := s.rd F.VEC_IMEM_ADDR_WORD core
    let refused := ∃ i, i < 8 ∧ s.running (core * 8 + i) = true ∧ s.rd F.VEC_Q_RANGE_LO (core * 8 + i) ≤ a ∧
      a ≤ s.rd F.VEC_Q_RANGE_HI (core * 8 + i)
    ∃ t, exec (.vecImemDataHi core value) s = .next t ∧ t.rd F.VEC_IMEM_ADDR_WORD core = (a + 1) % 4096 ∧
      (refused → t.rd F.VEC_STATUS_IMEM_REFUSED core = 1 ∧ t.tile = s.tile) ∧
      (¬ refused → t.imemWord core a = (Tab.get 0 s.tile.imemLo core).toNat + value.toNat * 2 ^ 64 ∧
        (∀ k w, w < 4096 → a < 4096 → ¬ (k = core.val ∧ w = a) → t.imemWord k w = s.imemWord k w)) ∧
      SameRegs s t [(F.VEC_IMEM_ADDR_WORD, core.val), (F.VEC_STATUS_IMEM_REFUSED, core.val)] ∧ t.sram = s.sram ∧
      t.tile.sregs = s.tile.sregs) ∧
  (∀ (core : Fin 512) (s : State), s.coreDown core = false → s.tile.recs = [] →
    ∃ t, exec (.spadInitEnd core false) s = .next t ∧ t.rd F.VEC_STATUS_SPAD_INIT core = 0 ∧
      SameRegs s t [(F.VEC_STATUS_SPAD_INIT, core.val)] ∧ t = { s with regs := t.regs }) ∧
  (∀ (core : Fin 512) (s : State), s.clusterDown (clusterOfCore core) = false → s.tile.recs = [] →
    ∃ t, exec (.spadInitEnd core true) s = .next t ∧ t = { s with sync := t.sync } ∧
      (∀ a, stagingBase + clusterOfCore core * 0x200000 ≤ a → a < stagingBase + (clusterOfCore core + 1) * 0x200000 → padBusy t a = false)) ∧
  (∀ (core : Fin 512) (staging : Bool) (s : State) (r : RecWait), s.tile.recs = [r] → padBusy s r.da = true → padDown s r.da = false →
    ∃ t, exec (.spadInitEnd core staging) s = .next t ∧
      (padBusy t r.da = true → t.tile.recs = [r] ∧ t.sram = s.sram) ∧
      (padBusy t r.da = false → t.tile.recs = [] ∧ SameBytes s t r.da 64 ∧
        (∀ k, k < 8 → t.word (r.da / 8 + k) = r.words.getD k 0 % 2 ^ 64 ∧ t.isFull (r.da / 8 + k) = true)))

/-- Requests for a context save or restore that are refused (R142) end with ERR and their cause, and change nothing else: 0x1 while
one is in progress, 0x2 for an area outside HBM, and, for a restore, 0x3 while a queue of the core runs.

A context save and restore run from request to end (R136, R138-R142). A save whose area takes the write that clears VALID becomes
busy, asks for quiescence and suspends both stream engines; when the core has come to rest its data phase ends with every queue
outside FAULT in SAVED, DONE when every write was answered and ERR with cause 5 otherwise. A restore of an area whose header
names this core and a valid save becomes busy, and ends with DONE once every part of the area has been read, or with ERR, cause 5
and every queue of the core in IDLE after an error response. -/
def Obligations.ContextRequestsEndOrAreRefused : Prop :=
  (∀ (core : Fin 512) (s : State) (cause : Nat), s.coreDown core = false →
     let busy := s.on F.VEC_CTX_STATUS_BUSY core
     let placed := ctxInHbm (s.rd F.VEC_CTX_DA_DA core) (ctxLen s core)
     let runs := (List.range 8).any (fun i => s.running (core * 8 + i))
     let refusedWith := fun (t : State) => t.rd F.VEC_CTX_STATUS_ERR core = 1 ∧ t.rd F.VEC_CTX_STATUS_CAUSE core = cause ∧
       SameRegs s t [(F.VEC_CTX_STATUS_ERR, core.val), (F.VEC_CTX_STATUS_CAUSE, core.val)] ∧ t = { s with regs := t.regs }
     ((busy = true ∧ cause = 1) ∨ (busy = false ∧ placed = false ∧ cause = 2) →
       ∃ t, exec (.save core) s = .next t ∧ refusedWith t) ∧
     ((busy = true ∧ cause = 1) ∨ (busy = false ∧ placed = false ∧ cause = 2) ∨
         (busy = false ∧ placed = true ∧ runs = true ∧ cause = 3) →
       ∃ t, exec (.restore core) s = .next t ∧ refusedWith t)) ∧
  ((∀ (core : Fin 512) (s : State) (v : Nat), s.coreDown core = false → s.on F.VEC_CTX_STATUS_BUSY core = false →
     ctxInHbm (s.rd F.VEC_CTX_DA_DA core) (ctxLen s core) = true →
     (memNat s (s.rd F.VEC_CTX_DA_DA core) 8).2 = some v →
     (memWrite (memNat s (s.rd F.VEC_CTX_DA_DA core) 8).1 (s.rd F.VEC_CTX_DA_DA core) (bytesLE 8 (setBits v 31 1 0)) Around.quiet).2 = true →
     ∃ t, exec (.save core) s = .next t ∧ t.rd F.VEC_CTX_STATUS_BUSY core = 1 ∧ t.rd F.VEC_CTX_STATUS_QUIESCE core = 1 ∧
       t.ctxOp core = some .save ∧ (t.stream (core * 2)).suspended = true ∧ (t.stream (core * 2 + 1)).suspended = true) ∧
   (∀ (core : Fin 512) (error : Bool) (cycles : Nat) (s : State), s.ctxOp core = some .save → coreQuiet s core = true →
     ∃ t, exec (.saveDone core error cycles) s = .next t ∧ t.rd F.VEC_CTX_STATUS_BUSY core = 0 ∧ t.ctxOp core = none ∧
       t.tile.sregs = s.tile.sregs ∧ t.tile.vregs = s.tile.vregs ∧
       (error = true → t.rd F.VEC_CTX_STATUS_ERR core = 1 ∧ t.rd F.VEC_CTX_STATUS_CAUSE core = 5 ∧ t.mem = s.mem ∧
         (∀ i, i < 8 → s.qState (core * 8 + i) ≠ qFAULT → t.qState (core * 8 + i) = qSAVED)) ∧
       (error = false → (writeImage s (s.rd F.VEC_CTX_DA_DA core) (ctxImage s core)).2 = true →
         t.rd F.VEC_CTX_STATUS_DONE core = 1)) ∧
   (∀ (core : Fin 512) (s : State) (v : Nat), s.coreDown core = false → s.on F.VEC_CTX_STATUS_BUSY core = false →
     ctxInHbm (s.rd F.VEC_CTX_DA_DA core) (ctxLen s core) = true → (∀ i, i < 8 → s.running (core * 8 + i) = false) →
     (memNat s (s.rd F.VEC_CTX_DA_DA core) 8).2 = some v →
     ∃ t, exec (.restore core) s = .next t ∧
       (ctxHeaderOK v core = true → t.rd F.VEC_CTX_STATUS_BUSY core = 1 ∧ t.ctxOp core = some .restore) ∧
       (ctxHeaderOK v core = false → t.rd F.VEC_CTX_STATUS_ERR core = 1 ∧ t.rd F.VEC_CTX_STATUS_CAUSE core = 4)) ∧
   (∀ (core : Fin 512) (cycles : Nat) (s : State), s.ctxOp core = some .restore →
     ∃ t, exec (.restoreDone core true cycles) s = .next t ∧ t.rd F.VEC_CTX_STATUS_BUSY core = 0 ∧ t.ctxOp core = none ∧
       t.rd F.VEC_CTX_STATUS_ERR core = 1 ∧ t.rd F.VEC_CTX_STATUS_CAUSE core = 5 ∧
       (∀ i, i < 8 → t.qState (core * 8 + i) = qIDLE) ∧ t.tile.sregs = s.tile.sregs ∧ t.sram = s.sram) ∧
   (∀ (core : Fin 512) (cycles : Nat) (s : State) (qb pb sb rb tb vb fb ib xb : List Byte), s.ctxOp core = some .restore →
     let da := s.rd F.VEC_CTX_DA_DA core
     let h := memNat s da 8
     let l := Nat.min 0x100000 (bits (h.2.getD 0) 32 32)
     h.2.isSome = true →
     (areaParts h.1 da [(0x100, 2048), (0x900, 512), (0xB00, 2048), (0x1300, 2048), (0x1B00, 4096), (0x2B00, 8192), (0x4B00, l / 64),
       (0x8B00, 65536), (0x18B00, l)]).2 = some [qb, pb, sb, rb, tb, vb, fb, ib, xb] →
     ∃ t, exec (.restoreDone core false cycles) s = .next t ∧ t.rd F.VEC_CTX_STATUS_DONE core = 1 ∧
       t.rd F.VEC_CTX_STATUS_BUSY core = 0 ∧ t.ctxOp core = none))

/-! ### The matrix engines (R33, R44-R54, R78, R81) -/

/-- MATMUL (R33, R44, R115, R118): an enabled engine without an instruction takes one that is not rejected, and is BUSY with it from
then on, the queue running on at its next word; an engine whose instruction is in its last pass stages it, and one whose last row is read
begins it while the current one's rows are still written; an engine that is disabled or has an instruction staged holds the head, with
WAIT_ON 0x8 or 0x2.

A MATMUL with a wrong dimension (R33) is not executed: MXE_STATUS.CONFIG_ERR and CAUSE 0x1 are set, a record of status CONFIG_ERR with
the instruction's tag goes to its place and is full, no other byte of memory changes, the engine stays without an instruction, and
the queue goes on. -/
def Obligations.MatmulIsTakenHeldOrRejected : Prop :=
  (∀ (q : Fin 4096) (s : State), Issues s q 0 0x00 →
     let e := coreOfQueue q * 4 + bits (s.headWord q) 32 2
     let i := headIns s q 8
     ∃ t, exec (.matmul q) s = .next t ∧
       (s.on F.MXE_CTRL_EN e = false → t.qState q = qWAIT ∧ t.rd F.VEC_Q_STAT_WAIT_ON q = 8 ∧ t.qPC q = s.qPC q ∧ t.tile.engines = s.tile.engines) ∧
       (s.on F.MXE_CTRL_EN e = true → (s.eng e).staged.isSome = true →
         t.qState q = qWAIT ∧ t.rd F.VEC_Q_STAT_WAIT_ON q = 2 ∧ t.qPC q = s.qPC q ∧ t.tile.engines = s.tile.engines) ∧
       (s.on F.MXE_CTRL_EN e = true → s.on F.MXE_CTRL_DRAIN e = false → (s.eng e).staged = none → i.mx.quantD = false →
         mxReject s (coreOfQueue q) i = none →
         ((s.eng e).cur = none → i.mx.book = false →
           t.rd F.MXE_STATUS_BUSY e = 1 ∧ (∃ r, (t.eng e).cur = some r ∧ r.ins = i) ∧ (t.eng e).ending = (s.eng e).ending ∧ Finished s t q) ∧
         (∀ r, (s.eng e).cur = some r → lastPassBegun r = true → s.on F.MXE_STATUS_STOPPED e = false →
           (r.fed = false → t.rd F.MXE_STATUS_STAGED e = 1 ∧ (t.eng e).staged = some i ∧ (t.eng e).cur = some r ∧ Finished s t q ∧ t.sram = s.sram) ∧
           (r.fed = true → i.mx.book = false → t.rd F.MXE_STATUS_STAGED e = 0 ∧ (t.eng e).staged = none ∧ Finished s t q ∧
             (∃ r', (t.eng e).cur = some r' ∧ r'.ins = i) ∧ (t.eng e).ending = (s.eng e).ending ++ [r])))) ∧
  (∀ (q : Fin 4096) (s : State), Issues s q 0 0x00 →
     let e := coreOfQueue q * 4 + bits (s.headWord q) 32 2
     let i := headIns s q 8
     s.on F.MXE_CTRL_EN e = true → s.on F.MXE_CTRL_DRAIN e = false → s.eng e = Engine.idle → i.mx.quantD = false →
     i.mx.dimsOK = false → recordPlace (clusterOfQueue q) i.recDA = true → padDown s i.recDA = false → padBusy s i.recDA = false →
     ∃ t, exec (.matmul q) s = .next t ∧ t.rd F.MXE_STATUS_CONFIG_ERR e = 1 ∧ t.rd F.MXE_STATUS_CAUSE e = 1 ∧
       bits (t.word (i.recDA / 8)) 0 16 = 0x0101 ∧ bits (t.word (i.recDA / 8)) 32 32 = recTag i.word q ∧
       (∀ k, k < 8 → t.isFull (i.recDA / 8 + k) = true) ∧ SameBytes s t i.recDA 64 ∧ (t.eng e).cur = none ∧ Finished s t q)

/-- The engine's events (R46, R49-R52, R81). A held feed or output path that resumes counts the beats it was held; a D word that waited
is written when it is found empty, and no byte outside it; MATMUL_COMPLETE of a finished instruction without a quantised D writes
a record of status 0 (a threshold fault apart) and leaves the engine idle, its count of instructions up by one; a DATA_ERROR
stops the instruction in progress, or the oldest one whose rows are still written, with a record of status 0x02.

Duty and stops (R50, R51). A write of DUTY stores the value under its clamp of 4 to 16, unless it would slow an engine that holds an
instruction of a scheduled session in assured mode: then it is refused, flagged and signalled. PREEMPT is pending for an
instruction in progress that may be stopped and lapses otherwise; at the boundary the engine shows STOPPED with NB_START; CONTINUE
of a stopped engine clears both, and nothing happens to an engine that is not stopped. -/
def Obligations.EnginesRunPauseAndComplete : Prop :=
  ((∀ (e : Fin 2048) (beats : Nat) (s : State) (r : MxRun), (s.eng e).cur = some r → (s.eng e).staged = none → r.begun = true →
     ((r.hold = .operand ∧ (foldStep s e r).2.2 = true) ∨ (r.hold = .outPath ∧ outRows s e r < 64)) →
     ∃ t, (if r.hold = .operand then exec (.feedResume e beats) s else exec (.outputPathResume e beats) s) = .next t ∧
       t.rd F.MXE_FEED_STALL_CNT_COUNT e = (s.rd F.MXE_FEED_STALL_CNT_COUNT e + beats) % 2 ^ 64 ∧
       (∃ r', (t.eng e).cur = some r' ∧ r'.ins = r.ins) ∧ t.tile.sregs = s.tile.sregs ∧ t.mem = s.mem) ∧
   (∀ (e : Fin 2048) (da : Nat) (s : State) (o : OutWrite) (dwait : Bool) (rs : List MxRun),
     takeWord (da / 8) s.trk.ts (s.eng e).runs = some (o, dwait, rs) → outReady s (.out e) dwait o = true →
     ∃ t, exec (.dWordWrite e da) s = .next t ∧ readBytes t.sram o.da o.bytes.length = o.bytes ∧ SameBytes s t o.da o.bytes.length ∧
       (∀ w ∈ wholeWords o.da o.bytes.length, t.isFull w = true) ∧ t.eng e = (s.eng e).putRuns rs ∧ t.tile.sregs = s.tile.sregs) ∧
   (∀ (e : Fin 2048) (s : State) (r : MxRun), (s.eng e).cur = some r → (s.eng e).staged = none → (s.eng e).ending = [] → r.fed = true → r.out = [] →
     r.scaleOut = [] → r.spill = false → r.ins.mx.quantD = false → recordPlace (clusterOfCore (e / 4)) r.ins.recDA = true →
     padDown s r.ins.recDA = false → padBusy s r.ins.recDA = false →
     ∃ t, exec (.matmulComplete e) s = .next t ∧ t.rd F.MXE_STATUS_BUSY e = 0 ∧ (t.eng e).cur = none ∧
       t.rd F.MXE_LAST_REC_DA e = r.ins.recDA % 2 ^ 48 ∧
       t.rd F.MXE_INSTR_CNT_COUNT e = (s.rd F.MXE_INSTR_CNT_COUNT e + 1) % 2 ^ 64 ∧
       bits (t.word (r.ins.recDA / 8)) 0 16 = 0x0100 ∧ bits (t.word (r.ins.recDA / 8)) 32 32 = recTag r.ins.word r.ins.queue ∧
       (∀ k, k < 8 → t.isFull (r.ins.recDA / 8 + k) = true) ∧ SameBytes s t r.ins.recDA 64) ∧
   (∀ (e : Fin 2048) (s : State) (r : MxRun), (s.eng e).cur = some r → (s.eng e).staged = none → (s.eng e).ending = [] →
     s.on F.MXE_STATUS_STOPPED e = false →
     recordPlace (clusterOfCore (e / 4)) r.ins.recDA = true → padDown s r.ins.recDA = false → padBusy s r.ins.recDA = false →
     ∃ t, exec (.dataError e false) s = .next t ∧ t.rd F.MXE_STATUS_DATA_ERR e = 1 ∧ t.rd F.MXE_STATUS_BUSY e = 0 ∧ (t.eng e).cur = none ∧
       bits (t.word (r.ins.recDA / 8)) 0 16 = 0x0102 ∧ SameBytes s t r.ins.recDA 64) ∧
   (∀ (e : Fin 2048) (s : State) (r : MxRun) (l : List MxRun), (s.eng e).ending = r :: l →
     recordPlace (clusterOfCore (e / 4)) r.ins.recDA = true → padDown s r.ins.recDA = false → padBusy s r.ins.recDA = false →
     ∃ t, exec (.dataError e true) s = .next t ∧ t.rd F.MXE_STATUS_DATA_ERR e = 1 ∧ (t.eng e).ending = l ∧ (t.eng e).cur = (s.eng e).cur ∧
       (t.eng e).staged = (s.eng e).staged ∧ bits (t.word (r.ins.recDA / 8)) 0 16 = 0x0102 ∧ SameBytes s t r.ins.recDA 64)) ∧
  ((∀ (e : Fin 2048) (value : Fin 32) (s : State),
     let n := clampTo 4 16 value
     let refused := n < s.rd F.MXE_CTRL_DUTY e ∧ s.on F.MXE_STATUS_BUSY e = true ∧ schedAssured s (e / 64) = true
     ∃ t, exec (.duty e value) s = .next t ∧
       (¬ refused → t.rd F.MXE_CTRL_DUTY e = n ∧ SameRegs s t [(F.MXE_CTRL_DUTY, e.val)] ∧ t = { s with regs := t.regs }) ∧
       (refused → t.rd F.MXE_CTRL_DUTY e = s.rd F.MXE_CTRL_DUTY e ∧ t.rd F.MXE_STATUS_THROTTLE_REFUSED e = 1 ∧
         t.rd F.PAC_REFUSED_CNT_COUNT 0 = (s.rd F.PAC_REFUSED_CNT_COUNT 0 + 1) % 2 ^ 64 ∧
         .mc F.MXE_STATUS_THROTTLE_REFUSED e ∈ t.outbox)) ∧
   (∀ (e : Fin 2048) (s : State) (r : MxRun), (s.eng e).cur = some r →
     ∃ t, exec (.preempt e) s = .next t ∧ SameRegs s t [(F.MXE_CTRL_PREEMPT, e.val)] ∧ t = { s with regs := t.regs } ∧
       (r.fed = false → preemptible r = true → s.on F.MXE_STATUS_STOPPED e = false → t.rd F.MXE_CTRL_PREEMPT e = 1)) ∧
   (∀ (e : Fin 2048) (s : State), (s.eng e).cur = none → exec (.preempt e) s = .next s) ∧
   (∀ (e : Fin 2048) (s : State) (r : MxRun), (s.eng e).cur = some r → r.hold = .stopPoint → s.on F.MXE_CTRL_PREEMPT e = true →
     ∃ t, exec (.engineStop e) s = .next t ∧ t.rd F.MXE_STATUS_STOPPED e = 1 ∧ t.rd F.MXE_RESUME_NB_START e = r.nb % 128 ∧
       t.rd F.MXE_RESUME_VALID e = 1 ∧ t.rd F.MXE_CTRL_PREEMPT e = 0 ∧ t = { s with regs := t.regs } ∧
       SameRegs s t [(F.MXE_STATUS_STOPPED, e.val), (F.MXE_RESUME_NB_START, e.val), (F.MXE_RESUME_VALID, e.val), (F.MXE_CTRL_PREEMPT, e.val)]) ∧
   (∀ (e : Fin 2048) (s : State) (r : MxRun), (s.eng e).cur = some r → (s.eng e).staged = none → s.on F.MXE_STATUS_STOPPED e = true → r.begun = true →
     ∃ t, exec (.continueEngine e) s = .next t ∧ t.rd F.MXE_STATUS_STOPPED e = 0 ∧ t.rd F.MXE_RESUME_VALID e = 0 ∧
       (∃ r', (t.eng e).cur = some r' ∧ r'.ins = r.ins ∧ r'.nbStart = s.rd F.MXE_RESUME_NB_START e)) ∧
   (∀ (e : Fin 2048) (s : State), s.on F.MXE_STATUS_STOPPED e = false → exec (.continueEngine e) s = .next s))

/-! ### The convert unit and the history slots (R82-R85, R91, R95) -/

/-- CONVERT and TABLE (R33, R82, R103, R118): a free unit takes an operation that is not rejected, holds it while a word it reads is not
readable, completes it with its record once every word can be read and written, and the queue goes on; a unit that is busy holds the head with WAIT_ON 0x2. A rejected operation gives a record of status
CONFIG_ERR and leaves the unit free. A spilled matrix instruction whose last row is out goes to a free unit of its core.

The history slots of a core (R92, R95): a clear of the slot in SLOT_SEL, or of all slots, is pending until its end and shows in
CLEARING; at its end the slot, or every slot of the core, reads as cleared and no slot of another core has changed; a clear that
is already in progress absorbs the request. -/
def Obligations.ConvertUnitAndItsHistory : Prop :=
  ((∀ (q : Fin 4096) (s : State), Issues s q 2 0x00 →
     let k := coreOfQueue q
     let i := headIns s q 3
     let o := ConvOp.taken s 0 i (readDesc s i.sqd)
     let d := qdesc o.desc
     let formed := cvForm d [] (convSource s i) i.cvLen i.cvDst i.cvDstS none o
     ∃ t, exec (.convert q) s = .next t ∧
       ((s.convOp k).isSome = true → t.qState q = qWAIT ∧ t.rd F.VEC_Q_STAT_WAIT_ON q = 2 ∧ t.qPC q = s.qPC q ∧ t.sram = s.sram) ∧
       (s.convOp k = none → (i.desc s).delayed = false → cvReject s k i = none → wordsReadable s (cvReads o) = false →
         (∃ o', t.convOp k = some o' ∧ o'.ins = i ∧ o'.kind = 0 ∧ o'.formed = false) ∧ t.rd F.QNT_STATUS_BUSY k = 1 ∧ Finished s t q ∧
           t.sram = s.sram ∧ t.full = s.full) ∧
       (s.convOp k = none → (i.desc s).delayed = false → cvReject s k i = none → wordsReadable s (cvReads o) = true →
         i.cvDwait = false → formed.writes.all (outReady s (.conv k) false) = true →
         recordPlace (clusterOfQueue q) i.recDA = true → padDown s i.recDA = false → padBusy s i.recDA = false →
         t.convOp k = none ∧ t.rd F.QNT_STATUS_BUSY k = 0 ∧ bits (t.word (i.recDA / 8)) 8 8 = 3 ∧
           (overLimit d formed.cnt = false → bits (t.word (i.recDA / 8)) 0 8 = 0) ∧
           bits (t.word (i.recDA / 8)) 32 32 = recTag i.word q ∧ Finished s t q) ∧
       (s.convOp k = none → (i.desc s).delayed = false → cvReject s k i ≠ none → recordPlace (clusterOfQueue q) i.recDA = true →
         padDown s i.recDA = false → padBusy s i.recDA = false → t.convOp k = none ∧ bits (t.word (i.recDA / 8)) 0 16 = 0x0301 ∧ Finished s t q ∧
           SameBytes s t i.recDA 64)) ∧
   (∀ (q : Fin 4096) (s : State), Issues s q 2 0x01 →
     let k := coreOfQueue q
     let i : OpIns := { headIns s q 3 with sqd := 0 }
     ∃ t, exec (.table q) s = .next t ∧
       ((s.convOp k).isSome = true → t.qState q = qWAIT ∧ t.rd F.VEC_Q_STAT_WAIT_ON q = 2 ∧ t.qPC q = s.qPC q ∧ t.sram = s.sram) ∧
       (s.convOp k = none → tableReject k i = none → wordsReadable s (wordsOf i.cvSrc (2 ^ (i.cvIdx + 2))) = false →
         (∃ o', t.convOp k = some o' ∧ o'.ins = i ∧ o'.kind = 1) ∧ t.rd F.QNT_STATUS_BUSY k = 1 ∧ Finished s t q ∧ t.sram = s.sram) ∧
       (s.convOp k = none → tableReject k i = none → wordsReadable s (wordsOf i.cvSrc (2 ^ (i.cvIdx + 2))) = true → i.cvDwait = false →
         (tableForm s (ConvOp.taken s 1 i [])).writes.all (outReady s (.conv k) false) = true →
         recordPlace (clusterOfQueue q) i.recDA = true → padDown s i.recDA = false → padBusy s i.recDA = false →
         t.convOp k = none ∧ t.rd F.QNT_STATUS_BUSY k = 0 ∧ bits (t.word (i.recDA / 8)) 0 16 = 0x0400 ∧ Finished s t q) ∧
       (s.convOp k = none → tableReject k i ≠ none → recordPlace (clusterOfQueue q) i.recDA = true → padDown s i.recDA = false → padBusy s i.recDA = false →
         t.convOp k = none ∧ bits (t.word (i.recDA / 8)) 0 16 = 0x0401 ∧ Finished s t q ∧ SameBytes s t i.recDA 64)) ∧
   (∀ (e : Fin 2048) (s : State) (r : MxRun), (s.eng e).runs.find? (fun r => r.spill && !r.spilled && r.fed && r.out.isEmpty) = some r →
     s.convOp (e / 4) = none →
     wordsReadable s ((List.range r.ins.mx.m).flatMap (fun m =>
       elemWords ((qdesc r.desc).spillDA + m * alignUp (4 * r.ins.mx.n) 8) 0 0 r.ins.mx.n)) = false →
     ∃ t, exec (.spillConvert e) s = .next t ∧ t.rd F.QNT_STATUS_BUSY (e / 4) = 1 ∧
       (∃ o, t.convOp (e / 4) = some o ∧ o.kind = 2 ∧ o.engine = e ∧ o.ins = r.ins) ∧ SameRegs s t [(F.QNT_STATUS_BUSY, e / 4)] ∧
       t.sram = s.sram ∧ t.full = s.full)) ∧
  ((∀ (k : Fin 512) (s : State), fullClear s k = false → s.rd F.QNT_SLOT_SEL_SLOT k ∉ s.clearingSlots k →
     ∃ t, exec (.slotClear k) s = .next t ∧ s.rd F.QNT_SLOT_SEL_SLOT k ∈ t.clearingSlots k ∧ t.rd F.QNT_CTRL_SLOT_CLEAR k = 1 ∧
       t.rd F.QNT_STATUS_CLEARING k = 1 ∧ SameRegs s t [(F.QNT_CTRL_SLOT_CLEAR, k.val), (F.QNT_STATUS_CLEARING, k.val)] ∧
       t.tile.hist = s.tile.hist) ∧
   (∀ (k : Fin 512) (slot : Fin 4096) (s : State), slot.val ∈ s.clearingSlots k →
     ∃ t, exec (.slotClearEnd k slot) s = .next t ∧ t.slot k slot = HistSlot.clear ∧ slot.val ∉ t.clearingSlots k ∧
       (∀ j i, i < 4096 → ¬ (j = k.val ∧ i = slot.val) → t.slot j i = s.slot j i) ∧
       (t.clearingSlots k = [] → t.rd F.QNT_CTRL_SLOT_CLEAR k = 0)) ∧
   (∀ (k : Fin 512) (s : State),
     ∃ t, exec (.histClear k) s = .next t ∧ t.tile = s.tile ∧ (fullClear s k = true → t = s) ∧
       (fullClear s k = false → t.rd F.QNT_CTRL_HIST_CLEAR k = 1 ∧ t.rd F.QNT_STATUS_CLEARING k = 1) ∧
       SameRegs s t [(F.QNT_CTRL_HIST_CLEAR, k.val), (F.QNT_STATUS_CLEARING, k.val)]) ∧
   (∀ (k : Fin 512) (s : State), fullClear s k = true →
     ∃ t, exec (.histClearEnd k) s = .next t ∧ t.rd F.QNT_CTRL_HIST_CLEAR k = 0 ∧ (∀ i, i < 4096 → t.slot k i = HistSlot.clear) ∧
       (∀ j i, i < 4096 → j ≠ k.val → t.slot j i = s.slot j i) ∧
       (s.clearingSlots k = [] → t.rd F.QNT_STATUS_CLEARING k = 0)))

/-! ### Stream engines (R144-R170) -/

/-- STREAM (R115, R145, R146): a set that is not armed is armed with the list, COUNT and queue of the instruction, its engine then is
BUSY, and the queue goes on; a set that is armed holds the head with WAIT_ON 0x2. No word of memory changes.

The transfers of a set (R144, R149-R151). An engine that may issue adds the next piece of the walk, read side first, to the
transfers of the set that runs, with its session's SCHED and the time; a read of on-chip memory whose words the mode admits puts the bytes of its source into the
engine's buffer and counts them; a transfer all of whose lines are delivered is acknowledged. -/
def Obligations.StreamsArmIssueAndRead : Prop :=
  (∀ (q : Fin 4096) (s : State), Issues s q 3 0x00 →
     let w := s.headWord q
     let g := coreOfQueue q * 2 + bit w 32
     let k := bit w 46
     ∃ t, exec (.stream q) s = .next t ∧ t.sram = s.sram ∧ t.full = s.full ∧ t.tile.sregs = s.tile.sregs ∧
       ((s.stmSet g k).armed = true → t.qState q = qWAIT ∧ t.rd F.VEC_Q_STAT_WAIT_ON q = 2 ∧ t.qPC q = s.qPC q ∧ t.streams = s.streams) ∧
       ((s.stmSet g k).armed = false → (t.stmSet g k).armed = true ∧ (t.stmSet g k).list = bits (s.sreg q (bits w 33 5)) 0 48 ∧
         (t.stmSet g k).count = bits w 38 8 ∧ (t.stmSet g k).queue = q ∧ (t.stmSet g k).next = 0 ∧ (t.stmSet g k).pos = 0 ∧
         t.stmSet g (1 - k) = s.stmSet g (1 - k) ∧ t.rd F.STM_STATUS_BUSY g = 1 ∧ Finished s t q)) ∧
  ((∀ (e : Fin 1024) (s : State) (k : Nat) (xl : List (Nat × Nat)), mayIssue s e = true → (s.stream e).order.head? = some k → k < 2 →
     let a := s.stmSet e k
     let d := a.dsc a.next
     a.doneDescs.contains a.next = false → listPlaced (coreOfStream e) a.list (a.count + 1) = true → a.next < a.descs.length → d.mode = 0 →
     a.pos ≠ 0 → a.issued.find? (fun i => decide (i.desc = a.next ∧ i.pos = a.pos)) = none →
     translateParts s (d.piece [] a.pos).1 = (s, .known xl) →
     ∃ t, exec (.transferIssue e) s = .next t ∧ t.sram = s.sram ∧ t.full = s.full ∧ t.mem = s.mem ∧
       ∃ x : Issued, (t.stmSet e k).issued = a.issued ++ [x] ∧ x.desc = a.next ∧ x.pos = a.pos ∧ x.after = (d.piece [] a.pos).2 ∧
         x.parts = (d.piece [] a.pos).1 ∧ x.xl = xl ∧ x.st = .reading ∧ x.bytes = [] ∧ x.sched = s.on F.STM_STATUS_SCHED e ∧ x.time = s.trk.ts) ∧
   (∀ (e : Fin 1024) (set : Fin 2) (desc : Fin 256) (pos : Nat) (ext : List Byte) (ecc : List Nat) (s : State) (i : Issued)
       (src dst n : Nat),
     let a := s.stmSet e set
     let ws := (wordsOf (gaDA src) n).eraseDups
     a.issued.find? (fun i => decide (i.desc = desc.val ∧ i.pos = pos ∧ i.st = .reading)) = some i → i.parts = [(src, dst, n)] → i.bytes = [] →
     onChip (gaDA src) = true → onChip (gaDA src + n - 1) = true → ws.any (fun w => padBusy s (w * 8)) = false → memDown s ws = false →
     mayAccess s (waitersBefore (.stream e set) ws s.sync.waiters) (a.dsc desc).sfe false ws = true →
     ∃ t, exec (.readTransferComplete e set desc pos ext ecc) s = .next t ∧ t.sram = s.sram ∧
       t.rd F.STM_RD_BYTES_CNT_COUNT e = (s.rd F.STM_RD_BYTES_CNT_COUNT e + n) % 2 ^ 64 ∧
       (∃ x ∈ (t.stmSet e set).issued, x.desc = desc.val ∧ x.pos = pos ∧ x.st = .held ∧ x.bytes = [readBytes s.sram (gaDA src) n])) ∧
   (∀ (e : Fin 1024) (set : Fin 2) (desc : Fin 256) (pos : Nat) (ecc : List Nat) (s : State) (i : Issued),
     let a := s.stmSet e set
     a.issued.find? (fun i => decide (i.desc = desc.val ∧ i.pos = pos ∧ i.st = .held)) = some i → a.armed = true →
     gaLocal s (a.dsc desc).dst = true → s.coreDown (coreOfStream e) = false → (∀ l ∈ linesOf i, delivered a desc l = true) →
     ∃ t, exec (.writeTransferAck e set desc pos ecc) s = .next t ∧ t.sram = s.sram ∧ t.full = s.full ∧ t.regs = s.regs ∧
       (∃ x ∈ (t.stmSet e set).issued, x.desc = desc.val ∧ x.pos = pos ∧ x.st = .acked)))

/-- LINE_DELIVERY to on-chip memory (R151, R172): a line of an armed set all of whose bytes have been read, and whose words the mode
admits, and whose transfer's places answer, is written, all its words become full together, it is recorded as delivered, and its bytes are counted.

DESCRIPTOR_COMPLETE (R145, R152): a descriptor all of whose bytes are delivered and acknowledged is counted; its arrival, if it has
one, waits at a hurdle table that is shut; the last descriptor of the set ends the set. -/
def Obligations.LinesAndDescriptorsComplete : Prop :=
  (∀ (e : Fin 1024) (set : Fin 2) (desc : Fin 256) (line : Nat) (ecc : List Nat) (s : State) (cells : Tab Byte) (n : Nat),
     let a := s.stmSet e set
     let d := a.dsc desc
     let ws := lineWords d line
     let xs := a.issued.filter (fun i => decide (i.desc = desc.val) && decide (i.st = .held) && (linesOf i).contains line)
     lineData a desc line = some (cells, n) → a.armed = true → delivered a desc line = false →
     (xs = [] ∨ ∃ i ∈ xs, writeKey set i ∈ writeSlots (s.stream e)) →
     (xs.any (isWriting a) = true ∨ ∀ i ∈ xs, ∀ l ∈ linesOf i, placeAnswers s (underXl i.xl (gaDA (l * 128))) = true) → s.coreDown (coreOfStream e) = false → gaLocal s d.dst = true →
     onChip (gaDA (line * 128)) = true → ws.any (fun w => padBusy s (w * 8)) = false → memDown s ws = false →
     mayAccess s (waitersBefore (.stream e set) ws s.sync.waiters) d.dfe true ws = true →
     ∃ t, exec (.lineDelivery e set desc line ecc) s = .next t ∧
       t.sram = (runsOf cells).foldl (fun m x => writeBytes m (gaDA x.1) x.2) s.sram ∧
       (∀ x, t.isFull x = if x ∈ ws then true else s.isFull x) ∧ delivered (t.stmSet e set) desc line = true ∧
       t.rd F.STM_WR_BYTES_CNT_COUNT e = (s.rd F.STM_WR_BYTES_CNT_COUNT e + n) % 2 ^ 64 ∧ t.tile = s.tile ∧ t.mem = s.mem) ∧
  (∀ (e : Fin 1024) (set : Fin 2) (desc : Fin 256) (s : State),
     let a := s.stmSet e set
     let d := a.dsc desc
     let h := clusterOfCore (coreOfStream e) * 2048 + d.hur
     dscFinished a desc = true → (d.hen = true → tableShut s h = true ∧ hurdleDown s h = false) →
     ∃ t, exec (.descriptorComplete e set desc) s = .next t ∧
       t.rd F.STM_DESC_CNT_COUNT e = (s.rd F.STM_DESC_CNT_COUNT e + 1) % 2 ^ 64 ∧
       (d.hen = true → t.sync.held = s.sync.held ++ [.arrive h 1 none]) ∧ (d.hen = false → t.sync.held = s.sync.held) ∧
       (a.doneDescs.length = a.count → t.stmSet e set = StmSet.idle) ∧
       (a.doneDescs.length ≠ a.count → (t.stmSet e set).armed = true ∧ desc.val ∈ (t.stmSet e set).doneDescs) ∧
       t.sram = s.sram ∧ t.full = s.full ∧ t.tile = s.tile)

/-- Urgency and lateness of a descriptor that runs (R156-R159, R213): the set's panic holds the descriptor exactly when its urgency or
its lateness raises it, STM_URGENCY shows the key of the next descriptor of the set that runs, and a descriptor whose finish line
the track has passed is reported late once: STM_STATUS.LATE and TRK_STATUS.LATE are set and a late record enters the log while
it has room. -/
def Obligations.UrgencyPanicAndLateness : Prop :=
  (∀ (e : Fin 1024) (set : Fin 2) (desc : Fin 256) (s : State),
    let a := s.stmSet e set
    let u := urgency s e a desc
    a.armed = true → desc.val ≤ a.count → desc.val < a.descs.length → a.doneDescs.contains desc.val = false →
    ∃ t, exec (.urgencyUpdate e set desc) s = .next t ∧
      (desc.val ∈ (t.stmSet e set).panics ↔ panicNow s e a desc u = true) ∧
      ((s.stream e).order.head? = some set.val → desc.val = a.next → t.rd F.STM_URGENCY_KEY e = urgencyKey s a desc u % 2 ^ 16) ∧
      t.sram = s.sram ∧ t.full = s.full ∧ t.tile = s.tile) ∧
  (∀ (e : Fin 1024) (set : Fin 2) (desc : Fin 256) (s : State),
    let a := s.stmSet e set
    let d := a.dsc desc
    let f := finishOf a d
    dscRunning a desc = true → desc.val ≤ a.count → d.dlEn = true → a.late.contains desc.val = false → s.trkState d.dlTrk ≠ trkSTALLED →
    posOf f.1 f.2 ≤ s.position d.dlTrk →
    ∃ t, exec (.streamLate e set desc) s = .next t ∧ desc.val ∈ (t.stmSet e set).late ∧ t.rd F.STM_STATUS_LATE e = 1 ∧
      t.rd F.TRK_STATUS_LATE d.dlTrk = 1 ∧ .mc F.STM_STATUS_LATE e ∈ t.outbox ∧ .mc F.TRK_STATUS_LATE d.dlTrk ∈ t.outbox ∧
      t.rd F.TRK_LATE_CNT_COUNT d.dlTrk = (s.rd F.TRK_LATE_CNT_COUNT d.dlTrk + 1) % 2 ^ 64 ∧
      (s.trk.lateLog.length < 32 → t.trk.lateLog.length = s.trk.lateLog.length + 1) ∧
      (32 ≤ s.trk.lateLog.length → t.trk.lateLog = s.trk.lateLog ∧ t.rd F.TRK_STATUS_LATE_OVF d.dlTrk = 1))

/-- Failures of a set (R160-R166). An error response to an outstanding read or write transfer fails it with cause 0x5 or 0x6, the
first failure of the walk standing; a set that has failed and has nothing on its way enters ERROR, with its flag, its cause and
a checkpoint; a failed translation is fatal in a scheduled session, with cause 0x4 and a session fault, and in a free one the set
waits in FAULT_WAIT, counted.

What ends a stop (R162, R165, R291): RESUME of a stopped set, refused while SCHED is 1, clears its failure and its checkpoint and lets
it issue from its position again; ABANDON reports the error to its queue and ends the set, which
issues nothing more, once nothing of it is on its way; a page request response takes its group
from those outstanding, and an index that none has is discarded. -/
def Obligations.FailingSetsStopAndResume : Prop :=
  ((∀ (e : Fin 1024) (set : Fin 2) (desc : Fin 256) (pos : Nat) (s : State) (i : Issued),
     let a := s.stmSet e set
     a.issued.find? (fun i => decide (i.desc = desc.val ∧ i.pos = pos)) = some i → a.fail = none → a.abandoned = false →
     (i.st = .reading ∨ (i.st = .held ∧ (gaLocal s (a.dsc desc).dst = false ∨ isWriting a i = false))) →
     ∃ t, exec (.transferError e set desc pos) s = .next t ∧ t.sram = s.sram ∧ t.regs = s.regs ∧
       ∃ f, (t.stmSet e set).fail = some f ∧ f.desc = desc.val ∧ f.pos = pos ∧
         f.cause = (if i.st = .reading then 5 else 6)) ∧
   (∀ (e : Fin 1024) (set : Fin 2) (s : State) (f : StmFail),
     let a := s.stmSet e set
     a.abandoned = false → a.fail = some f → setQuiet s a = true → (s.stream e).stopped = none →
     ∃ t, exec (.setStop e set) s = .next t ∧ (t.stream e).stopped = some set.val ∧ t.rd F.STM_STATUS_STATE e = 3 ∧
       t.rd F.STM_STATUS_CAUSE e = f.cause % 16 ∧ t.rd F.STM_CKPT5_DATA e % 2 ^ 16 = f.cause % 2 ^ 16 ∧
       (f.cause ≤ 2 → t.rd F.STM_STATUS_DESC_ERR e = 1) ∧ (3 ≤ f.cause → f.cause ≤ 4 → t.rd F.STM_STATUS_XLATE_ERR e = 1) ∧
       (5 ≤ f.cause → t.rd F.STM_STATUS_DATA_ERR e = 1) ∧ t.sram = s.sram ∧ t.full = s.full ∧ t.tile = s.tile) ∧
   (∀ (e : Fin 1024) (s : State) (k ga : Nat) (write : Bool), mayIssue s e = true → (s.stream e).order.head? = some k → k < 2 →
     let a := s.stmSet e k
     let d := a.dsc a.next
     a.abandoned = false → a.next < a.descs.length → entriesReady a a.next a.pos = true → d.fails s (coreOfStream e) = false →
     unknownAddr s (d.piece (a.ents a.next) a.pos).1 = some (ga, write) →
     (regionOf (gaDA ga) = .host → s.pci.asked.contains (hostPage (gaDA ga)) = true) →
     ∃ t, exec (.translationFault e) s = .next t ∧ t.sram = s.sram ∧ t.full = s.full ∧ t.tile = s.tile ∧
       (s.on F.STM_STATUS_SCHED e = true → .sessionFault (clusterOfCore (coreOfStream e)) ∈ t.outbox ∧
         ∃ f, (t.stmSet e k).fail = some f ∧ f.cause = 4) ∧
       (s.on F.STM_STATUS_SCHED e = false → t.rd F.STM_STATUS_STATE e = 2 ∧ (t.stream e).stopped = some k ∧
         t.rd F.STM_FAULT_CNT_COUNT e = (s.rd F.STM_FAULT_CNT_COUNT e + 1) % 2 ^ 64))) ∧
  ((∀ (e : Fin 1024) (s : State) (k : Nat), s.on F.STM_STATUS_SCHED e = false → (s.stream e).stopped = some k → k < 2 →
     ∃ t, exec (.stmResume e) s = .next t ∧ (t.stream e).stopped = none ∧ (t.stmSet e k).fail = none ∧ (t.stmSet e k).ckpt = [] ∧
       k ∈ (t.stream e).order ∧ (∀ i ∈ (t.stmSet e k).issued, ∀ c, i.st ≠ .failed c) ∧
       (∀ f, (s.stmSet e k).fail = some f → (t.stmSet e k).next = f.desc ∧ (t.stmSet e k).pos = f.pos) ∧
       t.sram = s.sram ∧ t.full = s.full ∧ t.tile = s.tile) ∧
   (∀ (e : Fin 1024) (s : State), s.on F.STM_STATUS_SCHED e = true → exec (.stmResume e) s = .next s) ∧
   (∀ (e : Fin 1024) (s : State) (k : Nat), (s.stream e).stopped = some k → k < 2 →
     let a := s.stmSet e k
     ∃ t, exec (.stmAbandon e) s = .next t ∧ (t.stream e).stopped = none ∧ k ∉ (t.stream e).order ∧
       (setQuiet s a = true → t.stmSet e k = StmSet.idle) ∧
       (setQuiet s a = false → t.stmSet e k = { a with abandoned := true, fail := none, ckpt := [] }) ∧
       t.outbox = .streamError (s.stmSet e k).queue :: s.outbox ∧ t.sram = s.sram ∧ t.full = s.full ∧ t.tile = s.tile) ∧
   (∀ (e : Fin 1024) (set : Fin 2) (s : State), (s.stmSet e set).abandoned = true →
     (setQuiet s (s.stmSet e set) = true → ∃ t, exec (.setStop e set) s = .next t ∧ t.stmSet e set = StmSet.idle ∧ t.outbox = s.outbox) ∧
     (setQuiet s (s.stmSet e set) = false → exec (.setStop e set) s = .next s)) ∧
   (∀ (value : Word) (s : State) (n : Nat) (g : Option Nat), n = bits value.toNat 0 9 → s.mem.groups = [(n, g)] →
     (∀ x, g = some x → (s.stream x).stopped = none) → (∀ x ∈ s.streams, x.2.wantsGroup = false) →
     ∃ t, exec (.cxlPrqResp value) s = .next t ∧ t.mem.groups = [] ∧ t.regs = s.regs ∧ t.sram = s.sram ∧ t.streams = s.streams) ∧
   (∀ (value : Word) (s : State), (∀ x ∈ s.mem.groups, x.1 ≠ bits value.toNat 0 9) → exec (.cxlPrqResp value) s = .next s))

/-! ### Hurdles (R176-R183) -/

/-- hinit, htest and hread at a hurdle (R178, R179): hinit sets TARGET under its clamp, COUNT, MODE and WIN and gives GEN; htest gives
GEN, COUNT and MODE; hread gives VALUE and the source node. The register that gets the result is the only one that changes. At a
hurdle in reset every instruction of the class completes and changes nothing (DEDUCED, log entry 102).

Register operations on hurdles (R182): HUR_OP's hinit, arrivals and counted arrivals act like the instructions, or wait at a table
that is shut; HUR_STATE sets COUNT under its clamp and GEN, and is refused and flagged while a waiter is recorded; HUR_CFG sets
TARGET under its clamp, MODE and WIN; one on a hurdle in reset gets an error response (R434). -/
def Obligations.HurdlesAreSetAndRead : Prop :=
  ((∀ (q : Fin 4096) (s : State), Issues s q 4 0x00 →
     let w := s.headWord q
     let v := s.sreg q (wR0 w)
     let h := hurdleNamed q v
     h < 65536 → hurdleDown s h = false →
     ∃ t, exec (.hinit q) s = .next t ∧ t.rd F.HUR_CFG_TARGET h = clampTo 1 65535 (bits v 32 16) ∧ t.rd F.HUR_STATE_COUNT h = 0 ∧
       t.rd F.HUR_CFG_MODE h = bit v 48 ∧ t.rd F.HUR_CFG_WIN h = bits v 49 6 ∧ t.gen h = s.gen h ∧ WroteS s t q (wR1 w) (s.gen h) ∧
       Finished s t q ∧
       SameRegs s t ([(F.HUR_CFG_TARGET, h), (F.HUR_STATE_COUNT, h), (F.HUR_CFG_MODE, h), (F.HUR_CFG_WIN, h)] ++ queueFields q) ∧
       t = { s with regs := t.regs, tile := t.tile }) ∧
   (∀ (q : Fin 4096) (s : State), Issues s q 4 0x05 →
     let h := hurdleNamed q (s.sreg q (wR0 (s.headWord q)))
     hurdleDown s h = false →
     ∃ t, exec (.htest q) s = .next t ∧
       WroteS s t q (wR1 (s.headWord q)) (s.gen h + s.rd F.HUR_STATE_COUNT h * 2 ^ 32 + s.rd F.HUR_CFG_MODE h * 2 ^ 48) ∧
       Finished s t q ∧ SameRegs s t (queueFields q) ∧ t = { s with regs := t.regs, tile := t.tile }) ∧
   (∀ (q : Fin 4096) (s : State), Issues s q 4 0x06 →
     let h := hurdleNamed q (s.sreg q (wR0 (s.headWord q)))
     hurdleDown s h = false →
     ∃ t, exec (.hread q) s = .next t ∧
       WroteS s t q (wR1 (s.headWord q)) (s.rd F.HUR_VALUE_VALUE h + s.rd F.HUR_VALUE_SRC_NODE h * 2 ^ 32) ∧
       Finished s t q ∧ SameRegs s t (queueFields q) ∧ t = { s with regs := t.regs, tile := t.tile }) ∧
   (∀ (q : Fin 4096) (s : State) (op : Nat) (c : Instr), (op = 0 ∧ c = .hinit q) ∨ (op = 1 ∧ c = .harrive q) ∨ (op = 2 ∧ c = .hadd q) ∨
     (op = 3 ∧ c = .hwait q) ∨ (op = 4 ∧ c = .hsync q) ∨ (op = 5 ∧ c = .htest q) ∨ (op = 6 ∧ c = .hread q) → Issues s q 4 op →
     hurdleDown s (hurdleNamed q (s.sreg q (wR0 (s.headWord q)))) = true → writesPending s q = false →
     ∃ t, exec c s = .next t ∧ Finished s t q ∧ t.tile.sregs = s.tile.sregs ∧ SameRegs s t (queueFields q) ∧
       t = { s with regs := t.regs, tile := t.tile })) ∧
  ((∀ (h : Fin 65536) (value : Word) (s : State) (c : Instr),
     c = .hurOpHinit h value ∨ c = .hurOpHarrive h value ∨ c = .hurOpHadd h value ∨ c = .hurStateWrite h value ∨ c = .hurCfgWrite h value →
     hurdleDown s h = true → exec c s = .next (s.emit .error)) ∧
   (∀ (h : Fin 65536) (value : Word) (s : State), hurdleDown s h = false →
     ∃ t, exec (.hurOpHinit h value) s = .next t ∧ t.rd F.HUR_CFG_TARGET h = clampTo 1 65535 (bits value.toNat 32 16) ∧
       t.rd F.HUR_STATE_COUNT h = 0 ∧ t.rd F.HUR_CFG_MODE h = bit value.toNat 48 ∧ t.rd F.HUR_CFG_WIN h = bits value.toNat 49 6 ∧
       SameRegs s t [(F.HUR_CFG_TARGET, h.val), (F.HUR_STATE_COUNT, h.val), (F.HUR_CFG_MODE, h.val), (F.HUR_CFG_WIN, h.val)] ∧
       t = { s with regs := t.regs }) ∧
   (∀ (h : Fin 65536) (value : Word) (s : State) (n : Nat) (c : Instr),
     (n = 1 ∧ c = .hurOpHarrive h value) ∨ (n = clampTo 1 65535 (bits value.toNat 32 16) ∧ c = .hurOpHadd h value) →
     hurdleDown s h = false →
     let target := s.rd F.HUR_CFG_TARGET h
     let sum := s.rd F.HUR_STATE_COUNT h + n
     ∃ t, exec c s = .next t ∧ t.tile.sregs = s.tile.sregs ∧ t.sram = s.sram ∧
       (tableShut s h = true → t = { s with sync := t.sync } ∧ t.sync.held = s.sync.held ++ [.arrive h n none]) ∧
       (tableShut s h = false → 0 < target → target < 2 ^ 16 → (∀ x ∈ s.sync.hurWait, x.hur ≠ h.val) →
         (∀ k, k < 64 → s.rd F.TRK_FL_STAT_ARMED (h / 2048 * 64 + k) = 0) →
         t.gen h = (s.gen h + sum / target) % 2 ^ 32 ∧ t.rd F.HUR_STATE_COUNT h = sum % target ∧ t.tile = s.tile)) ∧
   (∀ (h : Fin 65536) (value : Word) (s : State), hurdleDown s h = false →
     ∃ t, exec (.hurStateWrite h value) s = .next t ∧ t.sram = s.sram ∧
       (hasWaiters s h = true → t.rd F.HUR_STATUS_STATE_REFUSED (h / 2048) = 1 ∧
         SameRegs s t [(F.HUR_STATUS_STATE_REFUSED, h / 2048)] ∧ t = { s with regs := t.regs }) ∧
       (hasWaiters s h = false → bits value.toNat 0 16 < s.rd F.HUR_CFG_TARGET h →
         (∀ k, k < 64 → s.rd F.TRK_FL_STAT_ARMED (h / 2048 * 64 + k) = 0) →
         t.rd F.HUR_STATE_COUNT h = bits value.toNat 0 16 ∧ t.gen h = bits value.toNat 16 32 ∧ t.tile = s.tile)) ∧
   (∀ (h : Fin 65536) (value : Word) (s : State), hurdleDown s h = false →
     ∃ t, exec (.hurCfgWrite h value) s = .next t ∧ t.sram = s.sram ∧
       (s.rd F.HUR_STATE_COUNT h < clampTo 1 65535 (bits value.toNat 0 16) → s.gen h < 2 ^ 32 →
         t.rd F.HUR_CFG_TARGET h = clampTo 1 65535 (bits value.toNat 0 16) ∧ t.rd F.HUR_CFG_MODE h = bit value.toNat 16 ∧
         t.rd F.HUR_CFG_WIN h = bits value.toNat 17 6 ∧ t.gen h = s.gen h ∧
         t.rd F.HUR_STATE_COUNT h = s.rd F.HUR_STATE_COUNT h ∧ t.tile = s.tile ∧ t.sync = s.sync)))

/-- Arrivals (R177, R179-R181): at an open table with TARGET at least 1 and no waiter and no armed slot at the hurdle, harrive and hadd
give the generation of the arrival, and COUNT and GEN become what the sum of COUNT and the arrival gives, COUNT + n - g x TARGET
and GEN + g, g being the number of whole generations; at a table that is shut the arrival waits there, with WAIT_ON 0x4.

Waiting at a hurdle (R180, R183): hwait completes at once with GEN when GEN has passed its argument, and else is recorded as waiter,
with WAIT_ON 0x4; hsync arrives and waits for the generation of its arrival to complete, marked ARRIVED. -/
def Obligations.ArrivalsAndWaitsAtHurdles : Prop :=
  (∀ (q : Fin 4096) (s : State) (op : Nat) (c : Instr), (op = 1 ∧ c = .harrive q) ∨ (op = 2 ∧ c = .hadd q) → Issues s q 4 op →
     let w := s.headWord q
     let h := hurdleNamed q (s.sreg q (wR0 w))
     let n := if op = 1 then 1 else clampTo 1 65535 (bits (s.sreg q (wR0 w)) 32 16)
     let target := s.rd F.HUR_CFG_TARGET h
     let sum := s.rd F.HUR_STATE_COUNT h + n
     h < 65536 → hurdleDown s h = false → writesPending s q = false →
     ∃ t, exec c s = .next t ∧
       (tableShut s h = true → t.qState q = qWAIT ∧ t.rd F.VEC_Q_STAT_WAIT_ON q = 4 ∧ t.qPC q = s.qPC q ∧
         t.sync.held = s.sync.held ++ [.arrive h n (some (q.val, wR1 w, false))] ∧ t.gen h = s.gen h) ∧
       (tableShut s h = false → 0 < target → target < 2 ^ 16 → (∀ x ∈ s.sync.hurWait, x.hur ≠ h) →
         (∀ k, k < 64 → s.rd F.TRK_FL_STAT_ARMED (h / 2048 * 64 + k) = 0) →
         WroteS s t q (wR1 w) (s.gen h) ∧ t.gen h = (s.gen h + sum / target) % 2 ^ 32 ∧ t.rd F.HUR_STATE_COUNT h = sum % target ∧
         t.rd F.HUR_ARRIVE_CNT_COUNT (h / 2048) = (s.rd F.HUR_ARRIVE_CNT_COUNT (h / 2048) + n) % 2 ^ 64 ∧
         t.rd F.HUR_COMPLETE_CNT_COUNT (h / 2048) = (s.rd F.HUR_COMPLETE_CNT_COUNT (h / 2048) + sum / target) % 2 ^ 64 ∧
         Finished s t q)) ∧
  ((∀ (q : Fin 4096) (s : State), Issues s q 4 0x03 →
     let v := s.sreg q (wR0 (s.headWord q))
     let h := hurdleNamed q v
     let d := wR1 (s.headWord q)
     hurdleDown s h = false →
     ∃ t, exec (.hwait q) s = .next t ∧ SameRegs s t (queueFields q) ∧
       (genPassed (s.gen h) (bits v 32 32) = true → WroteS s t q d (s.gen h) ∧ Finished s t q ∧ t.sync = s.sync) ∧
       (genPassed (s.gen h) (bits v 32 32) = false → t.qState q = qWAIT ∧ t.rd F.VEC_Q_STAT_WAIT_ON q = 4 ∧ t.qPC q = s.qPC q ∧
         t.sync.hurWait = s.sync.hurWait ++ [⟨h, q, bits v 32 32, d, false⟩] ∧ t.tile.sregs = s.tile.sregs)) ∧
   (∀ (q : Fin 4096) (s : State), Issues s q 4 0x04 →
     let w := s.headWord q
     let h := hurdleNamed q (s.sreg q (wR0 w))
     let target := s.rd F.HUR_CFG_TARGET h
     let sum := s.rd F.HUR_STATE_COUNT h + 1
     h < 65536 → hurdleDown s h = false → writesPending s q = false → s.arrivedMark q = false → tableShut s h = false → 0 < target → target < 2 ^ 16 →
     s.gen h < 2 ^ 32 → (∀ x ∈ s.sync.hurWait, x.hur ≠ h) → (∀ k, k < 64 → s.rd F.TRK_FL_STAT_ARMED (h / 2048 * 64 + k) = 0) →
     ∃ t, exec (.hsync q) s = .next t ∧ WroteS s t q (wR1 w) (s.gen h) ∧
       (sum / target = 0 → t.qState q = qWAIT ∧ t.rd F.VEC_Q_STAT_WAIT_ON q = 4 ∧ t.qPC q = s.qPC q ∧ t.arrivedMark q = true ∧
         t.sync.hurWait = s.sync.hurWait ++ [⟨h, q, s.gen h, wR1 w, true⟩]) ∧
       (0 < sum / target → sum / target < 2 ^ 31 → Finished s t q)))

/-! ### The full/empty port and batons (R175, R184-R188) -/

/-- The full/empty port of a cluster (R172, R175), without waiting: on a word of the cluster that answers, a load in the state its mode
requires gives the word and a store writes its 8 bytes and no others; in the wrong state MISS is set and nothing else changes; a
DA outside the cluster gives an error response and changes nothing. -/
def Obligations.FullEmptyPortNeverWaits : Prop :=
  ∀ (c : Fin 32) (value : Word) (s : State),
    let da := s.rd F.HUR_FE_CTRL_DA c
    let m := s.rd F.HUR_FE_CTRL_MODE c
    (fePortPlace s c = true → padDown s da = false → padBusy s da = false →
      (∃ t, exec (.fePortLoad c) s = .next t ∧ t.sram = s.sram ∧
        (feReady s m false (da / 8) = true → t.outbox = .data (s.word (da / 8)) :: s.outbox ∧
          (∀ x, t.isFull x = if m = 2 ∧ x = da / 8 then false else s.isFull x) ∧ t.regs = s.regs) ∧
        (feReady s m false (da / 8) = false → t.rd F.HUR_FE_CTRL_MISS c = 1 ∧ t.full = s.full ∧ t.outbox = .data 0 :: s.outbox ∧
          SameRegs s t [(F.HUR_FE_CTRL_MISS, c.val)])) ∧
      (∃ t, exec (.fePortStore c value) s = .next t ∧ t.outbox = s.outbox ∧
        (feReady s m true (da / 8) = true → readBytes t.sram da 8 = bytesLE 8 value.toNat ∧ SameBytes s t da 8 ∧
          (∀ x, t.isFull x = if x = da / 8 then true else s.isFull x)) ∧
        (feReady s m true (da / 8) = false → t.rd F.HUR_FE_CTRL_MISS c = 1 ∧ t.full = s.full ∧ t.sram = s.sram ∧
          SameRegs s t [(F.HUR_FE_CTRL_MISS, c.val)]))) ∧
    (fePortPlace s c = false → exec (.fePortLoad c) s = .next (s.emit .error) ∧ exec (.fePortStore c value) s = .next (s.emit .error))

/-- Batons (R184-R188). The instruction sends a record with the target, the byte count, the value, the instruction's tag, the sender
and the time, and goes on. A baton that arrives at a hurdle of an open table in counting mode waits at the end of the window
that the hurdle names while the window has room, is dropped, counted and flagged when the window holds eight, and at a
control-window address that is no hurdle is dropped with BATON_REJ. A window releases its head when its credit covers the count.

A write of a window's BASE or LEN (R186): BASE goes to the nearest address of the cluster's ranges, LEN is cut to what its range
holds from BASE on, CREDIT becomes zero, and the window's queue stays. Bytes that are committed afterwards add to the credit of
the windows they lie in, exactly as many as lie there. -/
def Obligations.BatonsAndTheirWindows : Prop :=
  ((∀ (q : Fin 4096) (s : State), Issues s q 5 0x00 →
     let w := s.headWord q
     let ga := s.sreg q (wR0 w)
     ∃ t, exec (.baton q) s = .next t ∧ Finished s t q ∧ SameRegs s t (queueFields q) ∧ t.tile.sregs = s.tile.sregs ∧
       t.sram = s.sram ∧ t.full = s.full ∧
       ∃ ws, t.outbox = .baton ws :: s.outbox ∧ ws.length = 4 ∧
         ws.getD 0 0 = (if gaFlags ga = 1 then s.node * 2 ^ 48 + gaDA ga else ga) % 2 ^ 64 ∧
         bits (ws.getD 1 0) 0 40 = bits (s.sreg q (wR2 w)) 0 40 ∧ bits (ws.getD 1 0) 48 16 = wTAG w ∧
         bits (ws.getD 2 0) 0 32 = bits (s.sreg q (wR1 w)) 0 32 ∧ bits (ws.getD 2 0) 46 9 = coreOfQueue q ∧
         ws.getD 3 0 = s.trk.ts % 2 ^ 48) ∧
   (∀ (w0 w1 w2 w3 : Word) (port : Option (Fin 12)) (s : State) (h : Nat), bits w0.toNat 62 2 = 0 →
     hurdleOfDA (bits w0.toNat 0 48) = some h → h < 65536 → s.clusterDown (h / 2048) = false → tableShut s h = false →
     bits w1.toNat 0 40 ≠ 0 → s.rd F.HUR_CFG_MODE h ≠ 0 → s.rd F.HUR_CFG_WIN h < 64 →
     let win := h / 2048 * 64 + s.rd F.HUR_CFG_WIN h
     ∃ t, exec (.batonArrival w0 w1 w2 w3 port) s = .next t ∧ t.sram = s.sram ∧ t.tile = s.tile ∧
       ((s.windowQueue win).length < 8 → t.windowQueue win = s.windowQueue win ++ [batonOf [w0.toNat, w1.toNat, w2.toNat, w3.toNat]] ∧
         t.rd F.HUR_WIN_STAT_HELD win = (s.windowQueue win).length + 1 ∧ t.outbox = s.outbox) ∧
       (8 ≤ (s.windowQueue win).length → t.windowQueue win = s.windowQueue win ∧ t.rd F.HUR_STATUS_BATON_FULL (h / 2048) = 1 ∧
         t.rd F.HUR_BATON_DROP_CNT_COUNT (h / 2048) = (s.rd F.HUR_BATON_DROP_CNT_COUNT (h / 2048) + 1) % 2 ^ 64)) ∧
   (∀ (w0 w1 w2 w3 : Word) (port : Option (Fin 12)) (s : State) (c : Nat), hurdleOfDA (bits w0.toNat 0 48) = none →
     clusterOfWindowDA (bits w0.toNat 0 48) = some c → c < 32 →
     ∃ t, exec (.batonArrival w0 w1 w2 w3 port) s = .next t ∧ t.rd F.HUR_STATUS_BATON_REJ c = 1 ∧
       t.rd F.HUR_BATON_DROP_CNT_COUNT c = (s.rd F.HUR_BATON_DROP_CNT_COUNT c + 1) % 2 ^ 64 ∧ t.sync = s.sync ∧ t.sram = s.sram) ∧
   (∀ (w : Fin 2048) (s : State) (b : Baton) (r : List Baton) (h : Nat), s.windowQueue w = b :: r → hurdleOfDA (gaDA b.ga) = some h →
     h < 65536 →
     let credit := s.rd F.HUR_WIN_CREDIT_CREDIT w
     (credit < b.cnt → exec (.batonRelease w) s = .next s) ∧
     (b.cnt ≤ credit → credit < 2 ^ 40 → tableShut s h = false →
       ∃ t, exec (.batonRelease w) s = .next t ∧ t.windowQueue w = r ∧ t.rd F.HUR_WIN_CREDIT_CREDIT w = credit - b.cnt ∧
         t.rd F.HUR_VALUE_VALUE h = b.val % 2 ^ 32 ∧ t.rd F.HUR_VALUE_SRC_NODE h = b.srcNode % 2 ^ 14 ∧
         t.rd F.HUR_BATON_CNT_COUNT (h / 2048) = (s.rd F.HUR_BATON_CNT_COUNT (h / 2048) + 1) % 2 ^ 64 ∧ t.sram = s.sram))) ∧
  ((∀ (w : Fin 2048) (isLen : Bool) (value : Word) (s : State), s.clusterDown (w.val / 64) = true →
     exec (.hurWinWrite w isLen value) s = .next (s.emit .error)) ∧
   (∀ (w : Fin 2048) (isLen : Bool) (value : Word) (s : State), s.clusterDown (w.val / 64) = false →
     ∃ t, exec (.hurWinWrite w isLen value) s = .next t ∧ t.rd F.HUR_WIN_CREDIT_CREDIT w = 0 ∧
       (isLen = false → t.rd F.HUR_WIN_BASE_DA w = nearestBase (w / 64) (bits value.toNat 0 48)) ∧
       (isLen = true → t.rd F.HUR_WIN_BASE_DA w = s.rd F.HUR_WIN_BASE_DA w ∧
         t.rd F.HUR_WIN_LEN_LEN w = clampLen (w / 64) (s.rd F.HUR_WIN_BASE_DA w) (bits value.toNat 0 22)) ∧
       SameRegs s t [(F.HUR_WIN_CREDIT_CREDIT, w.val), (F.HUR_WIN_BASE_DA, w.val), (F.HUR_WIN_LEN_LEN, w.val)] ∧
       t = { s with regs := t.regs }) ∧
   (∀ (s : State) (da c w : Nat) (bs : List Byte), clusterOfDA da = some c → c < 32 → w < 64 →
     s.rd F.HUR_WIN_CREDIT_CREDIT (c * 64 + w) + bs.length < 2 ^ F.HUR_WIN_CREDIT_CREDIT.width →
     (s.commit da bs).rd F.HUR_WIN_CREDIT_CREDIT (c * 64 + w) = s.rd F.HUR_WIN_CREDIT_CREDIT (c * 64 + w) +
       overlapLen da bs.length (s.rd F.HUR_WIN_BASE_DA (c * 64 + w)) (s.rd F.HUR_WIN_LEN_LEN (c * 64 + w))))

/-! ### The Track (R195-R222) -/

/-- Position and marks (R207-R209): rpos gives the lap, and in the next register the angle with the track's state; wmark whose mark lies
ahead waits with WAIT_ON 0x5 and completes when the position reaches it; a mark already reached completes at once and is late.

Reads and the timestamp (R195, R214, R222): a read of TRK_LAP gives the lap and latches the angle for TRK_ANGLE; a read of
TRK_LATE_LOG3 takes the oldest late record off the log and gives its last word, and 0 of an empty log; at its wrap the trace
timestamp goes to 0, TRK_EPOCH counts, and the epoch record goes out. -/
def Obligations.PositionMarksAndTimestamp : Prop :=
  ((∀ (q : Fin 4096) (s : State), Issues s q 6 0x01 → bits (s.headWord q) 35 5 ≤ 30 →
     let w := s.headWord q
     let trk := markTrk w
     ∃ t, exec (.rpos q) s = .next t ∧ Finished s t q ∧ SameRegs s t (queueFields q) ∧ t = { s with regs := t.regs, tile := t.tile } ∧
       (∀ p r, r < 32 → t.sreg p r =
         if p = q.val ∧ r = markReg w + 1 then ((s.track trk).angle + s.trkState trk * 2 ^ 32) % 2 ^ 64
         else if p = q.val ∧ r = markReg w ∧ r ≠ 0 then s.lap trk % 2 ^ 64 else s.sreg p r)) ∧
   (∀ (q : Fin 4096) (s : State), Issues s q 6 0x00 →
     let w := s.headWord q
     let trk := markTrk w
     ∃ t, exec (.wmark q) s = .next t ∧ t.tile.sregs = s.tile.sregs ∧ t.trk = s.trk ∧
       (s.position trk < markPos s q w → t.qState q = qWAIT ∧ t.rd F.VEC_Q_STAT_WAIT_ON q = 5 ∧ t.headWait q = .mark ∧ t.qPC q = s.qPC q ∧
         SameRegs s t (queueFields q)) ∧
       (markPos s q w ≤ s.position trk → t.rd F.TRK_STATUS_LATE_MARK trk = 1 ∧
         t.rd F.TRK_LATE_MARK_CNT_COUNT trk = (s.rd F.TRK_LATE_MARK_CNT_COUNT trk + 1) % 2 ^ 64 ∧ Finished s t q)) ∧
   (∀ (q : Fin 4096) (s : State), s.headWait q = .mark →
     (markPos s q (s.headWord q) ≤ s.position (markTrk (s.headWord q)) →
       ∃ t, exec (.markReached q) s = .next t ∧ Finished s t q ∧ SameRegs s t (queueFields q) ∧ t.tile.sregs = s.tile.sregs ∧
         t = { s with regs := t.regs, tile := t.tile }) ∧
     (s.position (markTrk (s.headWord q)) < markPos s q (s.headWord q) → exec (.markReached q) s = .next s))) ∧
  ((∀ (trk : Fin 8) (s : State),
     ∃ t, exec (.trkLapRead trk) s = .next t ∧ t.outbox = .data (s.lap trk) :: s.outbox ∧
       t.rd F.TRK_ANGLE_ANGLE trk = (s.track trk).angle % 2 ^ 32 ∧ SameRegs s t [(F.TRK_ANGLE_ANGLE, trk.val)] ∧
       t = { s with regs := t.regs, outbox := t.outbox }) ∧
   (∀ s : State, s.trk.lateLog = [] → exec .lateLogPop s = .next (s.emit (.data 0))) ∧
   (∀ (s : State) (r : Nat × Nat × Nat × Nat) (rest : List (Nat × Nat × Nat × Nat)), s.trk.lateLog = r :: rest →
     ∃ t, exec .lateLogPop s = .next t ∧ t.trk.lateLog = rest ∧ t.trk.tracks = s.trk.tracks ∧ t.outbox = .data r.2.2.2 :: s.outbox ∧
       t = { s with trk := t.trk, outbox := t.outbox }) ∧
   (∀ s : State, s.trk.ts + 1 = 2 ^ 48 →
     ∃ t, exec .timestampWrap s = .next t ∧ t.trk.ts = 0 ∧ t.trk.tracks = s.trk.tracks ∧
       t.rd F.TRK_EPOCH_EPOCH 0 = (s.rd F.TRK_EPOCH_EPOCH 0 + 1) % 2 ^ F.TRK_EPOCH_EPOCH.width ∧
       (∃ ws, t.outbox = .epoch ws :: s.outbox ∧ ws.length = 16) ∧ SameRegs s t [(F.TRK_EPOCH_EPOCH, 0)]) ∧
   (∀ s : State, s.trk.ts + 1 ≠ 2 ^ 48 → exec .timestampWrap s = .next s))

/-- Finish lines (R210-R214). farm writes the slot of its cluster and arms it, or waits with WAIT_ON 0x5 while it is armed; a slot whose
finish line lies ahead stays armed; at the line an armed slot is disarmed, MET when its hurdle has passed the generation, and else
LATE with MARGIN 0, counted on its track. A track that is STALLED checks nothing. -/
def Obligations.FinishLinesAreMetOrLate : Prop :=
  (∀ (q : Fin 4096) (s : State), Issues s q 6 0x02 →
    let w := s.headWord q
    let slot := clusterOfQueue q * 64 + bits (s.sreg q (markReg w + 1)) 0 6
    ∃ t, exec (.farm q) s = .next t ∧ t.tile.sregs = s.tile.sregs ∧ t.sram = s.sram ∧
      (s.on F.TRK_FL_STAT_ARMED slot = true → t.qState q = qWAIT ∧ t.rd F.VEC_Q_STAT_WAIT_ON q = 5 ∧ t.qPC q = s.qPC q) ∧
      (s.on F.TRK_FL_STAT_ARMED slot = false → s.position (markTrk w) < markPos s q w → s.trkState (markTrk w) ≠ trkSTALLED →
        t.rd F.TRK_FL_STAT_ARMED slot = 1 ∧ t.rd F.TRK_FL_LAP_LAP slot = s.sreg q (markReg w) ∧ t.rd F.TRK_FL_SET_ANGLE slot = wIMM w ∧
        t.rd F.TRK_FL_SET_TRK slot = markTrk w ∧ t.rd F.TRK_FL_SET_HUR slot = bits (s.sreg q (markReg w + 1)) 6 11 ∧
        t.rd F.TRK_FL_GEN_G slot = bits (s.sreg q (markReg w + 1)) 32 32 ∧ Finished s t q)) ∧
  (∀ (slot : Fin 2048) (s : State), s.on F.TRK_FL_STAT_ARMED slot = false →
    s.position (s.rd F.TRK_FL_SET_TRK slot) < slotPos s slot →
    ∃ t, exec (.arm slot) s = .next t ∧ t.rd F.TRK_FL_STAT_ARMED slot = 1 ∧ (slotMet s slot = true →
        t.rd F.TRK_FL_STAT_MARGIN slot = slotMargin s slot % 2 ^ 32) ∧
      SameRegs s t [(F.TRK_FL_STAT_ARMED, slot.val), (F.TRK_FL_STAT_MARGIN, slot.val)] ∧ t = { s with regs := t.regs }) ∧
  (∀ (slot : Fin 2048) (s : State), s.on F.TRK_FL_STAT_ARMED slot = true → exec (.arm slot) s = .next s) ∧
  (∀ (slot : Fin 2048) (s : State), s.on F.TRK_FL_STAT_ARMED slot = true → s.trkState (s.rd F.TRK_FL_SET_TRK slot) ≠ trkSTALLED →
    slotPos s slot ≤ s.position (s.rd F.TRK_FL_SET_TRK slot) → s.rd F.TRK_FL_SET_TRK slot < 8 →
    ∃ t, exec (.finishLineCheck slot) s = .next t ∧ t.rd F.TRK_FL_STAT_ARMED slot = 0 ∧
      (slotMet s slot = true → t.rd F.TRK_FL_STAT_MET slot = 1 ∧ t.trk = s.trk ∧
        SameRegs s t [(F.TRK_FL_STAT_ARMED, slot.val), (F.TRK_FL_STAT_MET, slot.val)] ∧ t = { s with regs := t.regs }) ∧
      (slotMet s slot = false → s.on F.TRK_FL_GEN_ALT_EN slot = false → t.rd F.TRK_FL_STAT_LATE slot = 1 ∧ t.rd F.TRK_FL_STAT_MARGIN slot = 0 ∧
        t.rd F.TRK_STATUS_LATE (s.rd F.TRK_FL_SET_TRK slot) = 1 ∧
        t.rd F.TRK_LATE_CNT_COUNT (s.rd F.TRK_FL_SET_TRK slot) = (s.rd F.TRK_LATE_CNT_COUNT (s.rd F.TRK_FL_SET_TRK slot) + 1) % 2 ^ 64)) ∧
  (∀ (slot : Fin 2048) (s : State), s.trkState (s.rd F.TRK_FL_SET_TRK slot) = trkSTALLED → exec (.finishLineCheck slot) s = .next s)

/-- The states of a track (R197, R203, R205, R218). EN written 1 to a track that is not enabled puts it at the preset position in
ACQUIRING (LOCKED in mode 5) with INC 0; EN written 0 puts it OFF where it stands; a 64-bit write of TRK_STEP moves an enabled
track of mode 5 forward and no other; a track silent for its timeout becomes STALLED, counted, flagged and signalled, and its
emergency is owed (R215).

Edges and interpolation (R196, R198-R200, R204). A level of another source than SRC, or not yet stable for FLT cycles, does nothing. A
pulse of an enabled track in mode 1 outside HOLDOFF begins the next lap at angle 0 and is counted; a reverse edge in mode 0, which the
phase of A and B shows, is counted and flagged in every state and takes a LOCKED track to ACQUIRING; a Z pulse of an enabled track of
mode 0 with INDEX_EN begins the next lap, and is an index error when the edge count differs from EPL; an OFF track does not move; a
cycle of a LOCKED track never moves it backwards nor changes its lap, in modes 0 to 2. -/
def Obligations.TracksMoveForwardOrStall : Prop :=
  ((∀ (trk : Fin 8) (s : State), s.on F.TRK_CTRL_EN trk = false →
     ∃ t, exec (.trkEnable trk) s = .next t ∧ t.rd F.TRK_CTRL_EN trk = 1 ∧
       t.trkState trk = (if s.trkMode trk = 5 then trkLOCKED else trkACQ) ∧ t.lap trk = s.rd F.TRK_PRESET_LAP_LAP trk % 2 ^ 64 ∧
       (t.track trk).angle = s.rd F.TRK_PRESET_ANGLE_ANGLE trk ∧ t.rd F.TRK_INC_INC trk = 0 ∧ t.rd F.TRK_DEFICIT_EDGES trk = 0 ∧
       (∀ u, u ≠ trk.val → t.track u = s.track u) ∧
       SameRegs s t [(F.TRK_CTRL_EN, trk.val), (F.TRK_DEFICIT_EDGES, trk.val), (F.TRK_LAP_LAP, trk.val), (F.TRK_INC_INC, trk.val),
         (F.TRK_STATUS_STATE, trk.val)] ∧ t = { s with regs := t.regs, trk := t.trk }) ∧
   (∀ (trk : Fin 8) (s : State), s.on F.TRK_CTRL_EN trk = true → exec (.trkEnable trk) s = .next s) ∧
   (∀ (trk : Fin 8) (s : State),
     ∃ t, exec (.trkDisable trk) s = .next t ∧ t.rd F.TRK_CTRL_EN trk = 0 ∧ t.trkState trk = trkOFF ∧ t.position trk = s.position trk ∧
       SameRegs s t [(F.TRK_CTRL_EN, trk.val), (F.TRK_STATUS_STATE, trk.val), (F.TRK_INC_INC, trk.val)] ∧ t = { s with regs := t.regs }) ∧
   (∀ (trk : Fin 8) (value : Word) (s : State), s.trkState trk ≠ trkOFF → s.trkMode trk = 5 →
     let p := posOf (s.lap trk + bits value.toNat 32 32) (bits value.toNat 0 32)
     p < 2 ^ 96 →
     ∃ t, exec (.trkStep trk value) s = .next t ∧ t.position trk = Nat.max p (s.position trk) ∧ t.trkState trk = s.trkState trk ∧
       t.sram = s.sram ∧ t.tile = s.tile) ∧
   (∀ (trk : Fin 8) (value : Word) (s : State), s.trkMode trk ≠ 5 → exec (.trkStep trk value) s = .next s) ∧
   (∀ (trk : Fin 8) (s : State), (s.trkState trk = trkACQ ∨ s.trkState trk = trkLOCKED) → s.trkMode trk ≠ 5 →
     let lim := s.rd F.TRK_STALL_TO_CYCLES trk
     (lim ≠ 0 → lim ≤ (s.track trk).silent →
       ∃ t, exec (.trackStall trk) s = .next t ∧ t.trkState trk = trkSTALLED ∧ t.rd F.TRK_INC_INC trk = 0 ∧
         t.rd F.TRK_STATUS_STALL trk = 1 ∧ t.rd F.TRK_STALL_CNT_COUNT trk = (s.rd F.TRK_STALL_CNT_COUNT trk + 1) % 2 ^ 64 ∧
         t.outbox = .mc F.TRK_STATUS_STALL trk :: s.outbox ∧ t.position trk = s.position trk ∧
         t.dict = { s.dict with owed := s.dict.owed ++ [(0x24000003, 4)] } ∧ t = { s with regs := t.regs, outbox := t.outbox, dict := t.dict }) ∧
     (lim = 0 ∨ (s.track trk).silent < lim → exec (.trackStall trk) s = .next s))) ∧
  ((∀ (trk : Fin 8) (fabric a b z : Bool) (held : Nat) (s : State), passesFilter s trk fabric held = false →
     exec (.trackEdge trk fabric a b z held) s = .next s ∧ exec (.indexPulse trk fabric held) s = .next s) ∧
   (∀ (trk : Fin 8) (fabric b z : Bool) (held : Nat) (s : State), s.trkState trk = trkLOCKED → s.trkMode trk = 1 →
     passesFilter s trk fabric held = true → (s.track trk).inA = false →
     ((s.track trk).seen = false ∨ s.rd F.TRK_CFG_HOLDOFF trk < (s.track trk).sinceEdge) → s.lap trk + 1 < 2 ^ 64 →
     ∃ t, exec (.trackEdge trk fabric true b z held) s = .next t ∧ t.lap trk = s.lap trk + 1 ∧ (t.track trk).angle = 0 ∧
       t.rd F.TRK_EDGE_CNT_COUNT trk = (s.rd F.TRK_EDGE_CNT_COUNT trk + 1) % 2 ^ 64 ∧ t.sram = s.sram ∧ t.tile = s.tile) ∧
   (∀ (trk : Fin 8) (fabric a b z : Bool) (held : Nat) (s : State), s.trkMode trk = 0 → passesFilter s trk fabric held = true →
     quadPhase (s.track trk).inA (s.track trk).inB = (quadPhase a b + 1) % 4 →
     ∃ t, exec (.trackEdge trk fabric a b z held) s = .next t ∧ t.trkState trk = (if s.trkState trk = trkLOCKED then trkACQ else s.trkState trk) ∧
       t.rd F.TRK_STATUS_REVERSE trk = 1 ∧ t.rd F.TRK_REV_CNT_COUNT trk = (s.rd F.TRK_REV_CNT_COUNT trk + 1) % 2 ^ 64 ∧
       t.position trk = s.position trk ∧
       (s.rd F.TRK_DEFICIT_EDGES trk + 1 < 2 ^ 32 → t.rd F.TRK_DEFICIT_EDGES trk = s.rd F.TRK_DEFICIT_EDGES trk + 1)) ∧
   (∀ (trk : Fin 8) (fabric : Bool) (held : Nat) (s : State), s.trkState trk = trkLOCKED → s.trkMode trk = 0 →
     s.on F.TRK_CFG_INDEX_EN trk = true → passesFilter s trk fabric held = true → s.lap trk + 1 < 2 ^ 64 →
     ∃ t, exec (.indexPulse trk fabric held) s = .next t ∧ t.lap trk = s.lap trk + 1 ∧ (t.track trk).angle = 0 ∧ (t.track trk).edges = 0 ∧
       ((s.track trk).edges ≠ s.rd F.TRK_EPL_EPL trk → t.rd F.TRK_STATUS_INDEX_ERR trk = 1 ∧
         t.rd F.TRK_IDX_ERR_CNT_COUNT trk = (s.rd F.TRK_IDX_ERR_CNT_COUNT trk + 1) % 2 ^ 64) ∧
       ((s.track trk).edges = s.rd F.TRK_EPL_EPL trk → t.rd F.TRK_IDX_ERR_CNT_COUNT trk = s.rd F.TRK_IDX_ERR_CNT_COUNT trk)) ∧
   (∀ (trk : Fin 8) (fabric a b z : Bool) (held : Nat) (s : State), s.trkState trk = trkOFF →
     (∃ t, exec (.trackEdge trk fabric a b z held) s = .next t ∧ t.trkState trk = trkOFF ∧ t.position trk = s.position trk ∧
       t.rd F.TRK_EDGE_CNT_COUNT trk = s.rd F.TRK_EDGE_CNT_COUNT trk) ∧
     exec (.indexPulse trk fabric held) s = .next s ∧ exec (.trackInterpolation trk) s = .next s) ∧
   (∀ (trk : Fin 8) (s : State), s.trkState trk = trkLOCKED → s.trkMode trk < 3 →
     let k := s.track trk
     ∃ t, exec (.trackInterpolation trk) s = .next t ∧ t.lap trk = s.lap trk ∧ k.angle ≤ (t.track trk).angle ∧
       (t.track trk).angle = Nat.max k.angle (Nat.min (k.ea + (k.frac + s.rd F.TRK_INC_INC trk) / 65536)
         (edgeAngle (trkEpl s trk) (k.i + 1) - 1)) ∧
       t = { s with trk := t.trk }))

/-! ### The control window, the BARs and waiting accesses (R5-R14, R173, R393) -/

/-- The address map decodes back (R14 and the maps): every register of every unit of its block is the one that its own offset names, at
an offset that is a multiple of 8, inside the window, and in no fabric target window; so no two registers share an offset. -/
def Obligations.RegisterOffsetsDecodeBack : Prop :=
  (∀ r : Reg, r ∈ Reg.all) ∧
  ∀ (r : Reg) (n : Nat), n < r.place.1.count →
    regAt (r.place.1.base n + r.place.2) = some (r, n) ∧ noSuchPlace (r.place.1.base n + r.place.2) = false ∧
    targetAt (r.place.1.base n + r.place.2) = none ∧ (r.place.1.base n + r.place.2) % 8 = 0

/-- An access to the control window of another width than 4 or 8 bytes, or not aligned to its width, completes with an error response,
and a write of that kind changes nothing (R11), whichever unit makes it; the PCIe port logs a posted write that fails (R393). -/
def Obligations.OddAccessesAreErrors : Prop :=
  ∀ (off width : Nat) (s : State), ¬ ((width = 8 ∧ off % 8 = 0) ∨ (width = 4 ∧ off % 4 = 0)) →
    (∀ src v, windowWrite s src off width v = (s, .error)) ∧ (∀ src, windowRead s src off width = (s, .error)) ∧
    (∀ value, exec (.registerWrite off width value) s = .next (s.emit .error)) ∧
    (∀ write value, barOff s = false → exec (.bar0Request write off width value) s = .next (barError s write))

/-- Access codes, clamps and halves (R5, R7, R9, R10), and BAR0 (R393, R448, R459). A 64-bit write of a register that asks for nothing else
stores its RW fields under their clamps, clears of its W1C fields the bits written 1, and leaves every other field of the device; a
32-bit write stores the RW fields of its half and leaves those of the other half, and is an error, changing nothing, at a register with
a WO field; a read gives the register's fields and has the effect of a read on it; a clamp gives the nearest value that the map
allows. BAR0 reads and writes every register, but for the security block's, and counts its bytes; an offset that no map lists reads 0
and ignores writes; a request that the hub does not answer fails, and one to a port in reset or in D3hot is not decoded. -/
def Obligations.RegistersFollowTheirAccessCodes : Prop :=
  (∀ (r : Reg) (n off : Nat) (value : Word) (s : State), off % 8 = 0 → regAt off = some (r, n) → noSuchPlace off = false → targetAt off = none →
    regDown s r.place n = false → r.isSec = false → r ≠ .HUR_FE_DATA → n < 131072 →
    (∀ (s : State) (w : Nat) (low : Bool), regEffect s r n w low = writeFields s r n w) →
    (∃ t, exec (.registerWrite off 8 value) s = .next t ∧
      (∀ f ∈ r.fields, t.rd f n = match f.acc with
        | .rw => clampIn s f n value.toNat % 2 ^ f.width
        | .w1c => (s.rd f n - (s.rd f n &&& bits value.toNat f.lo f.width)) % 2 ^ f.width
        | _ => s.rd f n) ∧
      SameRegs s t (r.fields.map (fun f => (f, n))) ∧ t = { s with regs := t.regs }) ∧
    (exec (.bar0Request true off 8 value) s = .next (if barOff s then s else if s.on F.SEC_STATUS_RECOVERY 0 then barError s true
      else (writeFields s r n value.toNat).bump C.PCI_RX_BYTES_CNT 0 8)) ∧
    (∀ h : Fin 2, noSuchPlace (off + 4 * h) = false → targetAt (off + 4 * h) = none →
      ∃ t, exec (.registerWrite (off + 4 * h) 4 value) s = .next t ∧
      (r.hasWO = true → t = s.emit .error) ∧
      (r.hasWO = false → t = { s with regs := t.regs } ∧ SameRegs s t (r.fields.map (fun f => (f, n))) ∧
        ∀ f ∈ r.fields, s.rd f n < 2 ^ f.width →
          let mine := if h.val = 0 then f.lo + f.width ≤ 32 else 32 ≤ f.lo
          let others := if h.val = 0 then 32 ≤ f.lo else f.lo + f.width ≤ 32
          (others → t.rd f n = s.rd f n) ∧
          (mine → f.acc = .rw → t.rd f n = clampIn s f n (widen s r n h value.toNat) % 2 ^ f.width)))) ∧
  (∀ (r : Reg) (n off : Nat) (value : Word) (s : State), off % 8 = 0 → regAt off = some (r, n) → noSuchPlace off = false → targetAt off = none →
    regDown s r.place n = false → r ≠ .HUR_FE_DATA → s.on F.SEC_STATUS_RECOVERY 0 = false → barOff s = false →
    (exec (.bar0Request false off 8 value) s =
      .next (((readEffect s r n true true true).bump C.PCI_TX_BYTES_CNT 0 8).emit (.data (regWord s r n)))) ∧
    (exec (.bar0Request false off 4 value) s =
      .next (((readEffect s r n false true false).bump C.PCI_TX_BYTES_CNT 0 4).emit (.data (regWord s r n % 2 ^ 32)))) ∧
    (r.isSec = false → exec (.bar0Request true off 8 value) s = .next ((regEffect s r n value.toNat true).bump C.PCI_RX_BYTES_CNT 0 8)) ∧
    (r.isSec = true → exec (.bar0Request true off 8 value) s = .next (barError s true))) ∧
  (∀ (off width : Nat) (write : Bool) (value : Word) (s : State),
    (barOff s = true → exec (.bar0Request write off width value) s = .next (if write then s else s.emit .error)) ∧
    (barOff s = false → (s.on F.SEC_STATUS_RECOVERY 0 = true ∧ (off < 0x200000 ∨ 0x300000 ≤ off) ∨ noSuchPlace off = true) →
      exec (.bar0Request write off width value) s = .next (barError s write)) ∧
    (barOff s = false → s.on F.SEC_STATUS_RECOVERY 0 = false → noSuchPlace off = false → targetAt off = none → regAt (off / 8 * 8) = none →
      (width = 8 ∧ off % 8 = 0 ∨ width = 4 ∧ off % 4 = 0) →
      exec (.bar0Request write off width value) s =
        .next (if write then s.bump C.PCI_RX_BYTES_CNT 0 width else (s.bump C.PCI_TX_BYTES_CNT 0 width).emit (.data 0)))) ∧
  (∀ (r : Reg) (f : Fld) (v u : Nat), f ∈ r.fields → f.zeros = 0 → f.cmin ≤ u → u ≤ f.cmax →
    f.cmin ≤ f.clamp v ∧ f.clamp v ≤ f.cmax ∧ (f.clamp v - v) + (v - f.clamp v) ≤ (u - v) + (v - u))

/-- BAR2 (R393): the request addresses DA PCI_BAR2_BASE + o. In the control window or outside every range it fails with BAR2_ERR and
changes nothing else; a read of scratchpad or staging words gives their bytes and counts them; a write stores its bytes, makes the
words full that it covers wholly and no others, and counts them; a request to HBM, the CXL tier or the host ends as that memory answers
it, its bytes counted, and one that fails completes with an error or, posted, is logged. -/
def Obligations.Bar2ReachesMemory : Prop :=
  ∀ (o len : Nat) (data : List Byte) (ecc : List Nat) (panic write : Bool) (s : State),
    let da := s.rd F.PCI_BAR2_BASE_DA 0 + o
    let ws := wordsOf da data.length
    (barOff s = true → exec (.bar2Request write o len data ecc panic) s = .next (if write then s else s.emit .error)) ∧
    (barOff s = false → (regionOf da = .hole ∨ ∃ x, regionOf da = .window x) →
      ∃ t, exec (.bar2Request write o len data ecc panic) s = .next t ∧ t.rd F.PCI_STATUS_BAR2_ERR 0 = 1 ∧
        (write = false → t.outbox = .error :: s.outbox ∧ t.rd F.PCI_ERR_CNT_COUNT 0 = (s.rd F.PCI_ERR_CNT_COUNT 0 + 1) % 2 ^ 64) ∧
        (write = true → t.outbox = s.outbox ∧ t.rd F.PCI_STATUS_AER 0 = 1) ∧
        SameRegs s t [(F.PCI_STATUS_BAR2_ERR, 0), (F.PCI_STATUS_AER, 0), (F.PCI_ERR_CNT_COUNT, 0), (F.PCI_WRAP_FLAGS, 0)] ∧
        t = { s with regs := t.regs, outbox := t.outbox }) ∧
    (barOff s = false → onChip da = true → (clusterOfDA (da + len - 1)).isSome = true → (wordsOf da len).any (fun w => padBusy s (w * 8)) = false →
      memDown s (wordsOf da len) = false →
      ∃ t, exec (.bar2Request false o len data ecc panic) s = .next t ∧
        t.outbox = .response pcieUnit 0 (some (readBytes s.sram da len)) :: s.outbox ∧
        t.rd F.PCI_TX_BYTES_CNT_COUNT 0 = (s.rd F.PCI_TX_BYTES_CNT_COUNT 0 + len) % 2 ^ 64 ∧
        t = { s with regs := t.regs, outbox := t.outbox }) ∧
    (barOff s = false → onChip da = true → (clusterOfDA (da + data.length - 1)).isSome = true → ws.any (fun w => padBusy s (w * 8)) = false →
      memDown s ws = false →
      ∃ t, exec (.bar2Request true o len data ecc panic) s = .next t ∧ readBytes t.sram da data.length = data ∧
        SameBytes s t da data.length ∧ (∀ x, t.isFull x = if x ∈ wholeWords da data.length then true else s.isFull x) ∧
        t.rd F.PCI_RX_BYTES_CNT_COUNT 0 = (s.rd F.PCI_RX_BYTES_CNT_COUNT 0 + data.length) % 2 ^ 64 ∧ t.outbox = s.outbox ∧
        t.tile = s.tile ∧ t.mem = s.mem) ∧
    (barOff s = false → (regionOf da = .hbm ∨ regionOf da = .host ∨ ∃ x, regionOf da = .cxl x) →
      let r := memRead s da len ⟨[], ecc, panic⟩
      let w := memWrite s da data ⟨[], ecc, panic⟩
      exec (.bar2Request false o len data ecc panic) s = .next (match r.2 with
        | some bs => (r.1.bump C.PCI_TX_BYTES_CNT 0 len).emit (.response pcieUnit 0 (some bs))
        | none => barError r.1 false) ∧
      exec (.bar2Request true o len data ecc panic) s = .next (if w.2 then w.1.bump C.PCI_RX_BYTES_CNT 0 data.length else barError w.1 true))

/-! ### Sessions (R224-R238) -/

/-- ADMIT (R225-R227), with no cool-down lap in progress: the entry of the session is read; the first check that fails refuses it with its
cause and changes no session; else a free session is READY, and a scheduled one is RESIDENT, with SCHED at its stream engines and its clusters
shown as its own. Slicing is off (SES_CTRL.EN 0), so that no switch follows. -/
def Obligations.SessionsAreAdmittedOrRefused : Prop :=
  ∀ (n : Fin 65536) (s : State), s.on F.TST_CDL_PARKED 0 = false → s.rd F.TST_CDL_STEP 0 = 0 → s.on F.SES_CTRL_EN 0 = false →
    let s0 := s.wr F.SES_ADMIT_STAT_SESSION 0 n
    let e := readEntry s0 n
    let ws := e.2.getD []
    let x := { sessOf ws 0 with admitLap := e.1.lap (sessOf ws 0).trk }
    let rs := (List.range 32).map (fun r => (readRing e.1 x r false).2)
    let st := if (s.sess n).isSome then 2 else bits (ws.getD 0 0) 2 3
    ∃ t, exec (.admitSession n) s = .next t ∧ t.rd F.SES_ADMIT_STAT_SESSION 0 = n ∧ t.tile = s.tile ∧
      (∀ m, m ≠ n.val → t.sess m = s.sess m) ∧
      (∀ c, admitCause e.1 n x (bits (ws.getD 0 0) 0 2) st rs = some c →
        t.rd F.SES_STATUS_ADMIT_REFUSED 0 = 1 ∧ t.rd F.SES_ADMIT_STAT_CAUSE 0 = c % 16 ∧ t.ses = s.ses) ∧
      (admitCause e.1 n x (bits (ws.getD 0 0) 0 2) st rs = none →
        (x.sched = false → t.sess n = some x) ∧
        (x.sched = true → t.sess n = some { x with st := 2 } ∧
          (∀ k ∈ maskCores x.clusters, t.rd F.STM_STATUS_SCHED (2 * k) = 1 ∧ t.rd F.STM_STATUS_SCHED (2 * k + 1) = 1) ∧
          (∀ c ∈ maskClusters x.clusters, t.rd F.SES_RESIDENT_SESSION c = n ∧ t.rd F.SES_RESIDENT_VALID c = 1 ∧ t.rd F.SES_RESIDENT_SCHED c = 1)))

/-- END, SUSPEND and RESUME (R227, R228, R235). A session that is not admitted refuses each with cause 0x8, and one that is restored, or
that waits to be suspended refuses SUSPEND, with cause 0x9; RESUME and END of a session in another state are refused with cause 0x8; END of a READY or RESIDENT session removes it with its rings; SUSPEND of a READY
session suspends it, of a scheduled RESIDENT one waits for its lap boundary, and of a free one begins its save; RESUME of a session whose
clusters are taken is refused with cause 0x3, else a free session becomes READY and a scheduled one begins its restore once its cores are out of reset. Slicing is
off where another switch could follow. -/
def Obligations.SessionActionsFollowTheirTable : Prop :=
  (∀ (n : Fin 65536) (s : State) (c : Instr), c = .endSession n ∨ c = .suspend n ∨ c = .resume n →
    ∃ t, exec c s = .next t ∧
      (s.sess n = none → t.rd F.SES_ADMIT_STAT_CAUSE 0 = 8 ∧ t.rd F.SES_STATUS_ADMIT_REFUSED 0 = 1 ∧ t.rd F.SES_ADMIT_STAT_SESSION 0 = n ∧
        SameRegs s t [(F.SES_ADMIT_STAT_CAUSE, 0), (F.SES_STATUS_ADMIT_REFUSED, 0), (F.SES_ADMIT_STAT_SESSION, 0)] ∧ t = { s with regs := t.regs }) ∧
      (∀ x, s.sess n = some x → (x.restoring = true ∨ c = .suspend n ∧ (x.suspending.isSome = true ∨ x.saving = true)) →
        t.rd F.SES_ADMIT_STAT_CAUSE 0 = 9 ∧ t.rd F.SES_STATUS_ADMIT_REFUSED 0 = 1 ∧ t = { s with regs := t.regs }) ∧
      (∀ x, s.sess n = some x → x.restoring = false → (c = .resume n ∧ x.st ≠ 3 ∨ c = .endSession n ∧ x.st ≠ 1 ∧ x.st ≠ 2) →
        t.rd F.SES_ADMIT_STAT_CAUSE 0 = 8 ∧ t.rd F.SES_STATUS_ADMIT_REFUSED 0 = 1 ∧ t = { s with regs := t.regs })) ∧
  (∀ (n : Fin 65536) (s : State) (x : Sess), s.sess n = some x → (x.st = 1 ∨ x.st = 2) → x.restoring = false → s.on F.SES_CTRL_EN 0 = false →
    ∃ t, exec (.endSession n) s = .next t ∧ t.sess n = none ∧ (∀ r, r < 32 → t.ring n r = none) ∧ (∀ m, m ≠ n.val → t.sess m = s.sess m)) ∧
  (∀ (n : Fin 65536) (s : State) (x : Sess), s.sess n = some x → x.restoring = false → x.suspending = none → x.saving = false →
    (x.st = 1 → restoringNow s n x = false → s.on F.SES_CTRL_EN 0 = false → ∃ t, exec (.suspend n) s = .next t ∧ t.sess n = some { x with st := 3 }) ∧
    (x.st = 2 → x.sched = true → ∃ t, exec (.suspend n) s = .next t ∧ t.sess n = some { x with suspending := some (s.lap x.trk) } ∧
      t.rd F.SES_ADMIT_STAT_BUSY 0 = 1 ∧ t.tile = s.tile) ∧
    (x.st = 2 → x.sched = false → switchOf s x.clusters = none → ∃ t, exec (.suspend n) s = .next t ∧
      t.sess n = some { x with saving := true, hadWork := anyRunning s x.clusters } ∧
      switchOf t x.clusters = some ⟨x.clusters, some n, none, false⟩ ∧ t.rd F.SES_ADMIT_STAT_BUSY 0 = 1)) ∧
  (∀ (n : Fin 65536) (s : State) (x : Sess), s.sess n = some x → x.restoring = false → x.suspending = none → x.saving = false → x.st = 3 →
    (x.sched = false → (maskClusters x.clusters).any (clusterSched s) = true →
      ∃ t, exec (.resume n) s = .next t ∧ t.rd F.SES_ADMIT_STAT_CAUSE 0 = 3 ∧ t = { s with regs := t.regs }) ∧
    (x.sched = false → (maskClusters x.clusters).any (clusterSched s) = false → s.on F.SES_CTRL_EN 0 = false →
      (∀ e ∈ s.admitted, e.2.st = 3 ∨ e.2.clusters = x.clusters ∨ e.2.clusters &&& x.clusters = 0) →
      ∃ t, exec (.resume n) s = .next t ∧ t.sess n = some { x with st := 1 }) ∧
    (x.sched = true → (maskClusters x.clusters).any (fun c => clusterTaken s c || clusterSched s c) = false →
      ∃ t, exec (.resume n) s = .next t ∧ t.sess n = some { x with restoring := true } ∧ t.rd F.SES_ADMIT_STAT_BUSY 0 = 1 ∧
        (switchOf s x.clusters = none → coresRest s x.clusters = true → (maskCores x.clusters).any s.coreDown = false →
          ⟨x.clusters, none, some n.val, true⟩ ∈ t.ses.switches)))

/-- Switches (R233-R235). A quantum that expires marks a free resident session and no other; a scheduled session suspended at a lap
boundary has its remaining slots disarmed and begins its save, and before the boundary nothing happens; the end of the saves leaves the
session READY, or SUSPENDED when it was asked for, with its quantum time; the end of the restores makes it RESIDENT, counts the
switch and shows its clusters. Slicing is off where another switch could follow. -/
def Obligations.SwitchesSaveAndRestoreSessions : Prop :=
  (∀ (n : Fin 65536) (s : State) (x : Sess), s.sess n = some x →
    (x.sched = true → exec (.quantumExpiry n) s = .next s) ∧
    (x.sched = false → x.st = 2 → s.on F.SES_CTRL_SLICE_HOLD 0 = false → switchOf s x.clusters = none → s.on F.SES_CTRL_EN 0 = false →
      ∃ t, exec (.quantumExpiry n) s = .next t ∧ t.sess n = some { x with expired := true } ∧ t.regs = s.regs ∧ t.tile = s.tile)) ∧
  (∀ (n : Fin 65536) (s : State) (x : Sess) (lap : Nat), s.sess n = some x → x.suspending = some lap → x.sched = true →
    (s.lap x.trk ≤ lap → exec (.lapBoundarySuspend n) s = .next s) ∧
    (lap < s.lap x.trk → s.trkState x.trk ≠ trkOFF → s.trkState x.trk ≠ trkSTALLED →
      ∃ t, exec (.lapBoundarySuspend n) s = .next t ∧
        t.sess n = some { x with suspending := none, saving := true, hadWork := (match t.sess n with | some y => y.hadWork | none => false) } ∧
        (∀ c ∈ maskClusters x.clusters, ∀ i, i < 64 → t.rd F.TRK_FL_STAT_ARMED (c * 64 + i) = 0))) ∧
  (∀ (n : Fin 65536) (used : Nat) (s : State) (x : Sess) (w : Switch), s.sess n = some x → switchOf s x.clusters = some w →
    w.out = some n.val → w.saved = false → coresRest s x.clusters = true → w.inc = none → s.on F.SES_CTRL_EN 0 = false →
    ∃ t, exec (.sessionSwitchSaved n used) s = .next t ∧ switchOf t x.clusters = none ∧
      t.sess n = some { x with st := (if x.saving || x.suspending.isSome then 3 else 1), saving := false, suspending := none, saved := true,
                               expired := false, used := used }) ∧
  (∀ (n : Fin 65536) (s : State) (x : Sess) (w : Switch), s.sess n = some x → switchOf s x.clusters = some w →
    w.inc = some n.val → w.saved = true → coresRest s x.clusters = true → x.suspending = none → s.on F.SES_CTRL_EN 0 = false →
    ∃ t, exec (.sessionSwitchRestored n) s = .next t ∧ switchOf t x.clusters = none ∧
      t.sess n = some { x with st := 2, restoring := false, expired := false, hadWork := false, saving := false } ∧
      t.rd F.SES_SWITCH_CNT_COUNT 0 = (s.rd F.SES_SWITCH_CNT_COUNT 0 + 1) % 2 ^ 64 ∧
      (∀ c ∈ maskClusters x.clusters, t.rd F.SES_RESIDENT_SESSION c = n ∧ t.rd F.SES_RESIDENT_VALID c = 1 ∧ t.rd F.SES_RESIDENT_SWITCHING c = 0))

/-- Doorbells, the ring cache and the clock (R230, R231, R237). A doorbell at a cached submission ring stores its TAIL; one for a
session that is not admitted is dropped, counted and flagged; one whose context is missing waits while fewer than 256 do. A context
load counts a miss and applies the doorbells that waited for it. PIN pins a cached context below the limit of 15,360, and is refused
at it. SES_CLOCK refuses to leave assured mode under a scheduled session, and else sets MODE and STEP. -/
def Obligations.DoorbellsRingsAndClock : Prop :=
  (∀ (value : Word) (s : State), s.on F.SES_CTRL_EN 0 = false →
    let n := bits value.toNat 0 16
    let r := bits value.toNat 16 5
    let tail := bits value.toNat 32 16
    ∃ t, exec (.doorbell value) s = .next t ∧ t.rd F.SES_DOORBELL_CNT_COUNT 0 = (s.rd F.SES_DOORBELL_CNT_COUNT 0 + 1) % 2 ^ 64 ∧
      t.tile = s.tile ∧ t.sram = s.sram ∧ t.mem = s.mem ∧
      (s.sess n = none → t.rd F.SES_STATUS_DB_DROP 0 = 1 ∧ t.rd F.SES_DB_DROP_CNT_COUNT 0 = (s.rd F.SES_DB_DROP_CNT_COUNT 0 + 1) % 2 ^ 64 ∧ t.ses = s.ses) ∧
      (∀ x, s.sess n = some x → s.ring n r = none → s.ses.loads.length < 256 →
        t.ses.loads = s.ses.loads ++ [(n, r, tail)] ∧ t.ses.rings = s.ses.rings ∧ t.rd F.SES_STATUS_DB_DROP 0 = s.rd F.SES_STATUS_DB_DROP 0) ∧
      (∀ x c, s.sess n = some x → s.ring n r = some c →
        let held := if c.head ≤ tail then tail - c.head else tail + c.size - c.head
        (c.valid = true → c.completion = false → held ≤ c.size - 1 →
          t.ring n r = some { c with tail := tail % c.size } ∧ t.rd F.SES_DB_DROP_CNT_COUNT 0 = s.rd F.SES_DB_DROP_CNT_COUNT 0) ∧
        (c.valid = false ∨ c.completion = true ∨ c.size - 1 < held →
          t.rd F.SES_STATUS_DB_DROP 0 = 1 ∧ t.rd F.SES_DB_DROP_CNT_COUNT 0 = (s.rd F.SES_DB_DROP_CNT_COUNT 0 + 1) % 2 ^ 64 ∧ t.ses = s.ses))) ∧
  (∀ (n : Fin 65536) (r : Fin 32) (s : State) (x : Sess), s.sess n = some x → s.ring n r = none → s.on F.SES_CTRL_EN 0 = false →
    ∃ t, exec (.ringContextLoad n r) s = .next t ∧ (∀ l ∈ t.ses.loads, ¬ (l.1 = n.val ∧ l.2.1 = r.val)) ∧
      t.rd F.SES_RING_MISS_CNT_COUNT 0 = (s.rd F.SES_RING_MISS_CNT_COUNT 0 + 1) % 2 ^ 64 ∧ t.ses.sess = s.ses.sess ∧ t.tile = s.tile) ∧
  (∀ (value : Word) (s : State) (x : Sess) (c : Ring),
    let n := bits value.toNat 16 16
    let r := bits value.toNat 32 5
    s.sess n = some x → s.ring n r = some c →
    (bit value.toNat 40 = 1 → c.pin = true ∨ pinnedRings s < 15360 →
      ∃ t, exec (.sesRingPinWrite value) s = .next t ∧ t.ring n r = some { c with pin := true } ∧
        t.rd F.SES_RING_PIN_PINNED 0 = pinnedRings t % 2 ^ F.SES_RING_PIN_PINNED.width ∧ t.ses.sess = s.ses.sess) ∧
    (bit value.toNat 40 = 1 → c.pin = false → 15360 ≤ pinnedRings s →
      ∃ t, exec (.sesRingPinWrite value) s = .next t ∧ t.rd F.SES_STATUS_ADMIT_REFUSED 0 = 1 ∧ t = { s with regs := t.regs }) ∧
    (bit value.toNat 40 = 0 → x.sched = true → exec (.sesRingPinWrite value) s = .next s) ∧
    (bit value.toNat 40 = 0 → x.sched = false → ∃ t, exec (.sesRingPinWrite value) s = .next t ∧ t.ring n r = some { c with pin := false })) ∧
  (∀ (value : Word) (s : State),
    let mode := bit value.toNat 0
    let step := clampTo 0 2 (bits value.toNat 1 2)
    let refused := (s.rd F.SES_CLOCK_MODE 0 = 0 ∧ mode = 1 ∧ schedAdmitted s = true) ∨ (mode = 0 ∧ step ≠ 0) ∨
      (mode = 0 ∧ s.on F.KMR_DEV_STATUS_SPREAD_IN 0 = true)
    ∃ t, exec (.sesClockWrite value) s = .next t ∧ t.tile = s.tile ∧ t.sram = s.sram ∧
      (refused → t.rd F.SES_STATUS_CLOCK_REFUSED 0 = 1 ∧ SameRegs s t [(F.SES_STATUS_CLOCK_REFUSED, 0)] ∧ t = { s with regs := t.regs }) ∧
      (¬ refused → t.rd F.SES_CLOCK_MODE 0 = mode ∧ t.rd F.SES_CLOCK_STEP 0 = step ∧
        (step = s.rd F.SES_CLOCK_STEP 0 → SameRegs s t [(F.SES_CLOCK_MODE, 0), (F.SES_CLOCK_STEP, 0)] ∧ t = { s with regs := t.regs })))

/-- Submissions (R232). The next pending entry of a resident session's rings is taken, HEAD of its ring advancing: a RUN whose queues are
free opens a submission that holds a sample slot until they end, one of whose queues runs or is in FAULT completes BUSY, and an unknown OP ILLEGAL;
ARRIVE makes its arrival and completes; a RUN whose queues have all ended is complete; a completion entry is written at
its ring's TAIL while the ring has room, and then frees the slot. -/
def Obligations.SubmissionsRunAndComplete : Prop :=
  (∀ (n : Fin 65536) (ext : List Byte) (s s' : State) (x : Sess) (r : Nat) (c : Ring) (ws : List Nat), s.sess n = some x →
    dispatches s n x = true → nextPending s n x = some r → s.ring n r = some c → takeEntry s n r c x ext = (s', some ws) →
    (∀ e ∈ s.admitted, e.2.clusters = x.clusters → e.2.st ≠ 1) →
    let tag := bits (ws.getD 0 0) 32 32
    let qs := runQueues x (bits (ws.getD 1 0) 0 32) (ws.getD 2 0)
    (bits (ws.getD 0 0) 0 8 = 1 → qs ≠ [] → (∀ q ∈ qs, s.running q = false ∧ s.qState q ≠ qFAULT) →
      ∃ t, exec (.submissionRun n ext) s = .next t ∧
        t.ses.subs = s.ses.subs ++ [⟨n, c.cring, tag, s.trk.ts % 2 ^ 48, qs, none, 0, ringDA x c.cring⟩] ∧
        t.ring n r = some { c with head := (c.head + 1) % c.size } ∧
        (∀ q, q < 4096 → (∀ p ∈ qs, coreOfQueue p ≠ coreOfQueue q) → t.qPC q = s.qPC q ∧ t.qState q = s.qState q)) ∧
    (bits (ws.getD 0 0) 0 8 = 1 → (∃ q ∈ qs, s.running q = true ∨ s.qState q = qFAULT) →
      ∃ t, exec (.submissionRun n ext) s = .next t ∧ (∀ b ∈ t.ses.subs, b ∈ s.ses.subs ∨ b.status = some 4) ∧
        (∀ q, q < 4096 → t.qPC q = s.qPC q ∧ t.qState q = s.qState q)) ∧
    (bits (ws.getD 0 0) 0 8 ≠ 1 → bits (ws.getD 0 0) 0 8 ≠ 2 →
      ∃ t, exec (.submissionRun n ext) s = .next t ∧ (∀ b ∈ t.ses.subs, b ∈ s.ses.subs ∨ b.status = some 3) ∧
        (∀ q, q < 4096 → t.qPC q = s.qPC q ∧ t.qState q = s.qState q)) ∧
    (bits (ws.getD 0 0) 0 8 = 2 →
      let w := ws.getD 1 0
      let h := (if bit w 16 = 1 then (maskClusters x.clusters).headD 0 else bits w 11 5) * 2048 + bits w 0 11
      hurdleDown s h = false → ∃ t, exec (.submissionArrive n ext) s = .next t ∧ (∀ b ∈ t.ses.subs, b ∈ s.ses.subs ∨ b.status = some 0) ∧
        (tableShut s h = true → t.sync.held = s.sync.held ++ [.arrive h 1 none]) ∧
        (tableShut s h = false → t.rd F.HUR_ARRIVE_CNT_COUNT (h / 2048) = (s.rd F.HUR_ARRIVE_CNT_COUNT (h / 2048) + 1) % 2 ^ 64)) ∧
    (bits (ws.getD 0 0) 0 8 = 2 → exec (.submissionRun n ext) s = .next s) ∧
    (bits (ws.getD 0 0) 0 8 ≠ 2 → exec (.submissionArrive n ext) s = .next s)) ∧
  (∀ (i : Nat) (s : State) (b : Submission) (x : Sess), s.ses.subs[i]? = some b → s.sess b.session = some x → b.status = none → x.st = 2 →
    switchOf s x.clusters = none →
    let ended := fun q => s.qState q = qHALTED ∨ s.qState q = qFAULT ∨ s.qState q = qIDLE
    ((∃ q ∈ b.queues, ¬ ended q) → exec (.runComplete i) s = .next s) ∧
    ((∀ q ∈ b.queues, ended q) → s.on F.SES_CTRL_EN 0 = false → ∃ t, exec (.runComplete i) s = .next t ∧ t.tile = s.tile ∧
      (∀ b' ∈ t.ses.subs, b' ∈ s.ses.subs.eraseIdx i ∨
        b'.status = some (if b.queues.any (fun q => decide (s.qState q = qFAULT)) then 1 else 0)))) ∧
  (∀ (i : Nat) (s s' : State) (b : Submission) (x : Sess) (c : Ring) (st h : Nat), s.ses.subs[i]? = some b → b.status = some st →
    s.sess b.session = some x → s.ring b.session b.cring = some c → memNat s (b.ringDA + 8) 2 = (s', some h) →
    let c' := { c with head := h % c.size }
    (c'.count = c.size - 1 → exec (.completionEntryWrite i) s = .next s') ∧
    (c.valid = true → c.completion = true → c'.count ≠ c.size - 1 →
      ∃ t, exec (.completionEntryWrite i) s = .next t ∧ t.ses.subs = s.ses.subs.eraseIdx i ∧ t.tile = s.tile ∧
        t.ring b.session b.cring = some { c' with tail := (c.tail + 1) % c.size }))

/-! ### Kamrus (R239-R269) -/

/-- Negotiation and loss of a port (R241-R243, R247, R253, R266). An exchange stores the partner's masks and settles on the first mode of R241's order
that both ends allow, or on none, which is shown and tried again after 10 ms; a lane without bit lock leaves the mask of its rate; a port that
goes down, on RENEG, or with too many uncorrectable codewords, discards and counts its cells; a bank swap applies at slot 0; a
calibration request is answered, and of 64 round trips the least is kept. -/
def Obligations.PortsNegotiateAndGoDown : Prop :=
  (∀ (p : Fin 12) (m224 m112 m56 : Fin 256) (fec : Fin 4) (sleep : Fin 256) (s : State),
    let s1 := s.setKport p { s.kport p with theirs := (m224.val, m112.val, m56.val), theirFec := fec, theirSleep := sleep }
    (s.rd F.KMR_STATUS_STATE p = 3 → exec (.capabilityExchange p m224 m112 m56 fec sleep) s = .next s) ∧
    (portDownRst s p = false → s.on F.KMR_CTRL_EN p = true → s.rd F.KMR_STATUS_STATE p ≠ 3 → (s.kport p).own.2.2 % 256 ≠ 0 →
      ∃ t, exec (.capabilityExchange p m224 m112 m56 fec sleep) s = .next t ∧ t.rd F.KMR_STATUS_STATE p = 2 ∧
        t.rd F.KMR_MODE_PMASKS p = m224 + m112 * 2 ^ 8 + m56 * 2 ^ 16 ∧ t.tile = s.tile ∧ t.sram = s.sram ∧
        (chooseMode s1 p = none → t.rd F.KMR_STATUS_NO_MODE p = 1 ∧ (t.kport p).noMode = true ∧ (t.kport p).chosen = false) ∧
        (∀ l r f g, chooseMode s1 p = some (l, r, f, g) → t.rd F.KMR_MODE_LANES p = l ∧ t.rd F.KMR_MODE_RATE p = r ∧ t.rd F.KMR_MODE_FEC p = f ∧
          t.rd F.KMR_MODE_GROUP p = g ∧ (t.kport p).chosen = true ∧
          (t.rd F.KMR_STATUS_MODE_LOW p = 1 ↔ s.rd F.KMR_CTRL_MIN_RAW p < l + r)))) ∧
  (∀ (p : Fin 12) (s : State), ((s.kport p).noMode = false → exec (.noModeRetry p) s = .next s) ∧
    ((s.kport p).noMode = true → s.rd F.KMR_STATUS_STATE p = 2 →
      ∃ t, exec (.noModeRetry p) s = .next t ∧ t.rd F.KMR_STATUS_STATE p = 1 ∧ t.kport p = { s.kport p with noMode := false, own := (0, 0, 0) })) ∧
  (∀ (p : Fin 12) (lane : Fin 8) (s : State), ((s.kport p).chosen = false → exec (.bitLockTimeout p lane) s = .next s) ∧
    ((s.kport p).chosen = true → s.rd F.KMR_STATUS_STATE p = 2 → (groupLanes s p).contains lane = true → s.rd F.LNE_STAT_STATE (laneOf p lane) < 3 →
      let own := dropMaskBit (s.kport p).own (s.rd F.KMR_MODE_RATE p) lane
      ∃ t, exec (.bitLockTimeout p lane) s = .next t ∧ (t.kport p).own = own ∧ t.rd F.KMR_STATUS_STATE p = 2 ∧
        ∃ fec sleep, .exchange p own.1 own.2.1 own.2.2 fec sleep ∈ t.outbox)) ∧
  (∀ (p : Fin 12) (o : Fin 3) (cells : Fin 4) (s : State), portActive s p = false → exec (.portDown p) s = .next s ∧
    exec (.codewordReceive p o cells) s = .next s ∧ exec (.reneg p) s = .next (s.wr F.KMR_CTRL_RENEG p 0)) ∧
  (∀ (p : Fin 12) (cells : Fin 4) (s : State) (c : Instr), c = .portDown p ∨ c = .reneg p ∨
      (c = .codewordReceive p 2 cells ∧ s.rd F.KMR_CTRL_DOWN_TH p < ((s.kport p).bad.filter (fun t => decide ((s.trk.ts + 2 ^ 48 - t) % 2 ^ 48 < 1750000))).length + 1) →
    portActive s p = true →
    ∃ t, exec c s = .next t ∧ t.rd F.KMR_STATUS_STATE p = b2n (s.on F.KMR_CTRL_EN p) ∧ t.rd F.KMR_STATUS_DOWN_EVT p = 1 ∧
      .mc F.KMR_STATUS_DOWN_EVT p ∈ t.outbox ∧
      t.rd F.KMR_DOWN_CNT_COUNT p = (s.rd F.KMR_DOWN_CNT_COUNT p + 1) % 2 ^ 64 ∧
      t.rd F.KMR_CELL_DROP_CNT_COUNT p = (s.rd F.KMR_CELL_DROP_CNT_COUNT p + ((s.kport p).queues.map (fun q => q.2.length)).sum) % 2 ^ 64 ∧
      (t.kport p).queues = [] ∧ (kmrRole s = 0 → ∀ i, i ≠ p.val → t.kport i = s.kport i) ∧ t.tile = s.tile ∧ t.sram = s.sram) ∧
  (∀ (p : Fin 12) (cells : Fin 4) (s : State), exec (.codewordReceive p 0 cells) s = .next s ∧
    (portActive s p = true → ∃ t, exec (.codewordReceive p 1 cells) s = .next t ∧
      t.rd F.KMR_CW_CORR_CNT_COUNT p = (s.rd F.KMR_CW_CORR_CNT_COUNT p + 1) % 2 ^ 64 ∧ t = { s with regs := t.regs })) ∧
  (∀ (p : Fin 12) (s : State),
    (∃ t, exec (.swap p) s = .next t ∧ t.rd F.KMR_FRAME_SWAP p = 1 ∧ SameRegs s t [(F.KMR_FRAME_SWAP, p.val)] ∧ t = { s with regs := t.regs }) ∧
    (s.on F.KMR_FRAME_SWAP p = true → (s.kport p).slot = 0 → s.rd F.KMR_FRAME_BANK p ≤ 1 →
      ∃ t, exec (.bankSwapApply p) s = .next t ∧ t.rd F.KMR_FRAME_BANK p = 1 - s.rd F.KMR_FRAME_BANK p ∧ t.rd F.KMR_FRAME_SWAP p = 0 ∧
        SameRegs s t [(F.KMR_FRAME_BANK, p.val), (F.KMR_FRAME_SWAP, p.val)] ∧ t = { s with regs := t.regs }) ∧
    (s.on F.KMR_FRAME_SWAP p = false ∨ (s.kport p).slot ≠ 0 → exec (.bankSwapApply p) s = .next s)) ∧
  (∀ (p : Fin 12) (c : Cell) (s u : State), receiveCell s p c = (u, true) → c.typ = 5 → natAt c.payload 0 1 = 2 →
    let x := u.kport p
    let rtt := Nat.min 0xFFFF ((u.trk.ts + 2 ^ 48 - natAt c.payload 8 8 % 2 ^ 48) % 2 ^ 48)
    let m := if x.cal = 0 then rtt else Nat.min (u.rd F.KMR_LAT_RTT_MIN p) rtt
    (natAt c.payload 1 1 = 0 → ∃ t, exec (.latencyCalibration p c) s = .next t ∧ t.regs = u.regs ∧
      Tab.get [] (t.kport p).queues 65 = Tab.get [] x.queues 65 ++ [(calCell u p 1 (natAt c.payload 8 8), false)]) ∧
    (natAt c.payload 1 1 ≠ 0 → 64 ≤ x.cal → exec (.latencyCalibration p c) s = .next u) ∧
    (natAt c.payload 1 1 ≠ 0 → x.cal < 64 → ∃ t, exec (.latencyCalibration p c) s = .next t ∧ (t.kport p).cal = x.cal + 1 ∧
      t.rd F.KMR_LAT_RTT_MIN p = m % 2 ^ F.KMR_LAT_RTT_MIN.width ∧
      (x.cal < 63 → Tab.get [] (t.kport p).queues 65 = Tab.get [] x.queues 65 ++ [(calCell u p 0 0, false)]) ∧
      (x.cal = 63 → t.rd F.KMR_LAT_ONE_WAY p = (m + 1) / 2 % 2 ^ F.KMR_LAT_ONE_WAY.width)))

/-- Cells (R244-R250, R254). A port that is not ACTIVE takes none, nor one with bytes in an uncorrectable codeword; an IDLE cell does nothing; a repeated cell is dropped and counted with LOST; a cell for another
node whose HOPS are used up is dropped and counted, as is a baton in a relayed SYNC cell. A WRITE cell for this device commits its bytes and its words become full, or waits
in its channel queue; an acknowledgement ends its transfer when all its cells have one, or is late; a counted baton from a foreign
domain is rejected; a TRACK cell sets the frames; a timeout of the acknowledgements ends the transfer; a slot transmits the head of its
queue with the next SEQ. -/
def Obligations.CellsArriveOnceAndAreAcknowledged : Prop :=
  (∀ (p : Fin 12) (c : Cell) (ecc : List Nat) (foreign : Bool) (s : State) (i : Instr),
    i = .writeCell p c ecc ∨ i = .ackCell p c ∨ i = .trackCell p c ∨ i = .syncCell p c foreign →
    (portActive s p = false → exec i s = .next s) ∧
    (portActive s p = true → 0 < (s.kport p).spoiled →
      exec i s = .next (s.setKport p { s.kport p with spoiled := (s.kport p).spoiled - 1 })) ∧
    (portActive s p = true → (s.kport p).spoiled = 0 → c.typ = 0 → exec i s = .next s) ∧
    (∀ l, portActive s p = true → (s.kport p).spoiled = 0 → c.typ ≠ 0 → (s.kport p).rxSeq = some l → c.seq < 2 ^ 32 → l < 2 ^ 32 → c.seq = l →
      ∃ t, exec i s = .next t ∧ t.rd F.KMR_CELL_DROP_CNT_COUNT p = (s.rd F.KMR_CELL_DROP_CNT_COUNT p + 1) % 2 ^ 64 ∧
        t.rd F.KMR_STATUS_LOST p = 1 ∧ t.dict = { s.dict with owed := s.dict.owed ++ [(0x2A000001, p.val / 3)] } ∧
        t = { s with regs := t.regs, outbox := t.outbox, dict := t.dict }) ∧
    (portActive s p = true → (s.kport p).spoiled = 0 → (s.kport p).rxSeq = none → c.dst ≠ s.node → 15 ≤ c.hops →
      (i = .writeCell p c ecc → c.typ = 1) → (i = .ackCell p c → c.typ = 2) → (i = .trackCell p c → c.typ = 4) →
      (i = .syncCell p c foreign → c.typ = 3 ∧ c.count = 0) →
      ∃ t, exec i s = .next t ∧ t.rd F.KMR_HOPS_DROP_CNT_COUNT 0 = (s.rd F.KMR_HOPS_DROP_CNT_COUNT 0 + 1) % 2 ^ 64 ∧
        t.sram = s.sram ∧ t.full = s.full ∧ t.tile = s.tile ∧ (t.kport p).queues = (s.kport p).queues)) ∧
  (∀ (p : Fin 12) (c : Cell) (foreign : Bool) (s : State), portActive s p = true → (s.kport p).spoiled = 0 → (s.kport p).rxSeq = none →
    c.typ = 3 → c.dst ≠ s.node → c.count = 1 → bits (natAt (c.payload.take 32) 8 8) 40 4 = 15 →
    ∃ t, exec (.syncCell p c foreign) s = .next t ∧ t.rd F.KMR_HOPS_DROP_CNT_COUNT 0 = (s.rd F.KMR_HOPS_DROP_CNT_COUNT 0 + 1) % 2 ^ 64 ∧
      (t.kport p).queues = (s.kport p).queues ∧ t.tile = s.tile ∧ t.sync = s.sync) ∧
  (∀ (p : Fin 12) (c : Cell) (ecc : List Nat) (s : State), portActive s p = true → (s.kport p).spoiled = 0 → (s.kport p).rxSeq = none →
    c.typ = 1 → c.dst = s.node →
    let bs := cellBytes c
    let ws := wordsOf c.da bs.length
    let k := quarterOfPort p * 64 + c.channel % 64
    let may := mayAccess s (waitersBefore (.cells k) ws s.sync.waiters) c.dfe true ws
    onChip c.da = true → onChip (c.da + bs.length - 1) = true → memDown s ws = false →
    (stalledCells s k = [] → ws.any (fun w => padBusy s (w * 8)) = false → may = true →
      ∃ t, exec (.writeCell p c ecc) s = .next t ∧ readBytes t.sram c.da bs.length = bs ∧ SameBytes s t c.da bs.length ∧
        (∀ x, t.isFull x = if x ∈ wholeWords c.da bs.length then true else s.isFull x) ∧ t.tile = s.tile ∧ t.mem = s.mem) ∧
    (stalledCells s k ≠ [] ∨ ws.any (fun w => padBusy s (w * 8)) = true ∨ may = false →
      ∃ t, exec (.writeCell p c ecc) s = .next t ∧ stalledCells t k = stalledCells s k ++ [c] ∧ t.sram = s.sram ∧ t.full = s.full)) ∧
  (∀ (p : Fin 12) (c : Cell) (s : State) (e : Nat), portActive s p = true → (s.kport p).spoiled = 0 → (s.kport p).rxSeq = none → c.typ = 2 → c.dst = s.node → c.count = 1 →
    e = ofBytesLE (c.payload.take 8) →
    let k := e % 1024 * 8 + bits e 10 3
    (remoteOf s k = none → portWrite s k = none → ∃ t, exec (.ackCell p c) s = .next t ∧
      t.rd F.KMR_ACK_LATE_CNT_COUNT 0 = (s.rd F.KMR_ACK_LATE_CNT_COUNT 0 + 1) % 2 ^ 64 ∧ t.streams = s.streams) ∧
    (∀ r l, remoteOf s k = some r → r.lastCell = some l → r.acked.contains (bits e 13 3) = false → r.acked.length = l →
      ∃ t, exec (.ackCell p c) s = .next t ∧ remoteOf t k = none) ∧
    (∀ r, remoteOf s k = some r → r.lastCell = none → r.acked.contains (bits e 13 3) = false →
      ∃ t, exec (.ackCell p c) s = .next t ∧
        remoteOf t k = some { r with acked := r.acked ++ [bits e 13 3], err := r.err || decide (bit e 16 = 1) } ∧ t.streams = s.streams)) ∧
  (∀ (p : Fin 12) (c : Cell) (s : State) (h : Nat), portActive s p = true → (s.kport p).spoiled = 0 →
    (s.kport p).rxSeq = none → c.typ = 3 → c.dst = s.node → c.count = 1 →
    let b := batonOf ((List.range 4).map (fun k => ofBytesLE ((c.payload.drop (8 * k)).take 8)))
    0 < b.cnt → hurdleOfDA (gaDA b.ga) = some h →
    ∃ t, exec (.syncCell p c true) s = .next t ∧ t.rd F.HUR_STATUS_BATON_REJ (h / 2048) = 1 ∧
      t.rd F.HUR_BATON_DROP_CNT_COUNT (h / 2048) = (s.rd F.HUR_BATON_DROP_CNT_COUNT (h / 2048) + 1) % 2 ^ 64 ∧ t.sync = s.sync ∧ t.tile = s.tile) ∧
  (∀ (p : Fin 12) (c : Cell) (s : State), portActive s p = true → (s.kport p).spoiled = 0 → (s.kport p).rxSeq = none → c.typ = 4 → c.dst = s.node →
    let num := fun o n => ofBytesLE ((c.payload.drop o).take n)
    let slot := num 260 4 + cycleSlots s p (s.rd F.KMR_LAT_ONE_WAY p)
    ∃ t, exec (.trackCell p c) s = .next t ∧ t.sram = s.sram ∧ t.mem = s.mem ∧
      ∀ i, i < 12 → (t.kport i).slot = slot % s.rd F.KMR_FRAME_LEN i ∧
        t.rd F.KMR_FRAME_FRAME_NO i = (num 256 4 + slot / s.rd F.KMR_FRAME_LEN i) % 2 ^ F.KMR_FRAME_FRAME_NO.width) ∧
  (∀ (e : Fin 1024) (slot : Fin 8) (s : State),
    (remoteOf s (e * 8 + slot) = none → portWrite s (e * 8 + slot) = none → exec (.ackTimeout e slot) s = .next s) ∧
    (∀ r, remoteOf s (e * 8 + slot) = some r → (r.lastCell = none ∨ (s.trk.ts + 2 ^ 48 - r.sentAt) % 2 ^ 48 < s.rd F.KMR_ACK_TO_CYCLES 0) →
      exec (.ackTimeout e slot) s = .next s) ∧
    (∀ r, remoteOf s (e * 8 + slot) = some r → r.lastCell.isSome = true → s.rd F.KMR_ACK_TO_CYCLES 0 ≤ (s.trk.ts + 2 ^ 48 - r.sentAt) % 2 ^ 48 →
      ∃ t, exec (.ackTimeout e slot) s = .next t ∧ remoteOf t (e * 8 + slot) = none ∧ t.sram = s.sram ∧ t.tile = s.tile)) ∧
  (∀ (p : Fin 12) (s : State), portActive s p = false → exec (.slotTransmission p) s = .next s) ∧
  (∀ (p : Fin 12) (s : State) (q : Nat) (c : Cell) (r : Bool) (rest : List (Cell × Bool)), portActive s p = true → s.on F.KMR_FRAME_SWAP p = false →
    (groupLanes s p).any (fun i => s.on F.LNE_STAT_TX_ASLEEP (laneOf p i)) = false →
    (slotQueues s p).find? (fun q => !((Tab.get [] (s.kport p).queues q).isEmpty)) = some q → Tab.get [] (s.kport p).queues q = (c, r) :: rest →
    (c.typ ≠ 4 ∧ c.typ ≠ 5 ∨ r = true) →
    ∃ t, exec (.slotTransmission p) s = .next t ∧ t.outbox = .cell p { c with seq := ((s.kport p).txSeq + 1) % 2 ^ 32 } :: s.outbox ∧
      Tab.get [] (t.kport p).queues q = rest ∧ (t.kport p).txSeq = ((s.kport p).txSeq + 1) % 2 ^ 32 ∧
      t.rd F.KMR_TX_CELL_CNT_COUNT p = (s.rd F.KMR_TX_CELL_CNT_COUNT p + 1) % 2 ^ 64 ∧ t.tile = s.tile ∧ t.sram = s.sram ∧
      (t.kport p).slot = (if (s.kport p).slot + 1 < s.rd F.KMR_FRAME_LEN p then (s.kport p).slot + 1 else 0))

/-- The system of devices (R257-R268). A HELLO shows its sender, makes a worker follow its first manager and gives it its node ID; a report belongs to the
rebuild in progress, or starts one when it shows a change; the end of a rebuild counts GEN, and is flagged; the loss of
the primary reference switches to the secondary, of both begins holdover, whose end takes every port down; a write that changes SRC while a
scheduled session is admitted does nothing; a standby takes over once; a manager queues a TRACK cell in each sample period; a shape table that
arrives is written in HBM and its generation shown, and a domain manager's is sent to every other device of its domain. -/
def Obligations.ManagersReferencesAndStartList : Prop :=
  (∀ (p : Fin 12) (c : Cell) (s u : State), receiveCell s p c = (u, true) → c.typ = 5 → natAt c.payload 0 1 = 1 →
    let h := helloOf c.payload
    ∃ t, exec (.hello p c) s = .next t ∧ t.tile = s.tile ∧ t.sram = s.sram ∧
      t.rd F.KMR_PARTNER_PORT p = h.port % 2 ^ F.KMR_PARTNER_PORT.width ∧ t.rd F.KMR_PARTNER_ROLE p = h.role % 2 ^ F.KMR_PARTNER_ROLE.width ∧
      t.rd F.KMR_PARTNER_SERIAL_SERIAL p = h.serial % 2 ^ 64 ∧
      (u.kmr.manager = none → u.kmr.mgrPorts = [] → kmrRole u < h.role → h.assign = none → t.kmr.manager = some h.node ∧ t.kmr.mgrPorts = [p.val] ∧
        t.rd F.KMR_ROLE_DOMAIN 0 = h.domain % 2 ^ F.KMR_ROLE_DOMAIN.width) ∧
      (h.role ≤ kmrRole u → t.kmr.manager = u.kmr.manager ∧ t.kmr.mgrPorts = u.kmr.mgrPorts) ∧
      (∀ n, h.assign = some (0xFF, n) → n < 2 ^ 14 → u.kmr.mgrPorts.contains p.val = true → t.node = n)) ∧
  (∀ (p : Fin 12) (c : Cell) (s u : State), receiveCell s p c = (u, true) → c.typ = 5 → c.dst = s.node → natAt c.payload 0 1 = 3 →
    let r := reportOf c.payload
    (kmrRole u = 0 → exec (.neighbourReport p c) s = .next u) ∧
    (kmrRole u ≠ 0 → u.kmr.rebuild = true → (∀ x ∈ u.kmr.reports, x.key = r.key → x = r) →
      ∃ t, exec (.neighbourReport p c) s = .next t ∧ t.kmr.reports = u.kmr.reports.filter (fun x => decide (x.key ≠ r.key)) ++ [r] ∧ t.regs = u.regs) ∧
    (kmrRole u ≠ 0 → (u.kmr.rebuild = false → reportChange u r = true) → (u.kmr.rebuild = true → ∃ x ∈ u.kmr.reports, x.key = r.key ∧ x ≠ r) →
      ∃ t, exec (.neighbourReport p c) s = .next t ∧ t.kmr.rebuild = true ∧ t.kmr.reports = [r] ∧ t.regs = u.regs) ∧
    (kmrRole u ≠ 0 → u.kmr.rebuild = false → reportChange u r = false → exec (.neighbourReport p c) s = .next u)) ∧
  (∀ s : State, (kmrRole s = 0 → exec .rebuild s = .next s) ∧
    (kmrRole s ≠ 0 → ∃ t, exec .rebuild s = .next t ∧ t.kmr.rebuild = true ∧ t.kmr.reports = [] ∧ t.regs = s.regs) ∧
    (s.kmr.rebuild = false → exec .rebuildEnd s = .next s) ∧
    (s.kmr.rebuild = true → ∃ t, exec .rebuildEnd s = .next t ∧ t.kmr.rebuild = false ∧ t.kmr.reports = [] ∧
      t.rd F.KMR_SL_CTRL_GEN 0 = (s.rd F.KMR_SL_CTRL_GEN 0 + 1) % 2 ^ F.KMR_SL_CTRL_GEN.width ∧
      t.rd F.KMR_SL_REBUILD_CNT_COUNT 0 = (s.rd F.KMR_SL_REBUILD_CNT_COUNT 0 + 1) % 2 ^ 64 ∧ t.rd F.KMR_DEV_STATUS_SL_CHANGED 0 = 1)) ∧
  (∀ (p : Fin 12) (s : State), s.kmr.holdover = false →
    let pri := s.rd F.KMR_REF_CTRL_PRIMARY 0
    let sec := s.rd F.KMR_REF_CTRL_SECONDARY 0
    ∃ t, exec (.referenceLoss p) s = .next t ∧ p.val ∈ t.kmr.refLost ∧ t.tile = s.tile ∧ t.sram = s.sram ∧
      (s.rd F.KMR_REF_CTRL_SRC 0 ≠ 1 → t.regs = s.regs ∧ t.kmr.holdover = false) ∧
      (s.rd F.KMR_REF_CTRL_SRC 0 = 1 → p.val = pri → (sec = 15 ∨ sec ∈ s.kmr.refLost ∨ sec = p.val) →
        t.kmr.holdover = true ∧ t.rd F.KMR_DEV_STATUS_REF_LOST 0 = 1) ∧
      (s.rd F.KMR_REF_CTRL_SRC 0 = 1 → p.val = pri → sec ≠ 15 → sec ∉ s.kmr.refLost → sec ≠ p.val →
        t.kmr.onSecondary = true ∧ t.kmr.holdover = false ∧ t.rd F.KMR_DEV_STATUS_REF_SWITCH 0 = 1)) ∧
  (∀ s : State, (s.kmr.holdover = false → exec .holdoverExpiry s = .next s) ∧
    (s.kmr.holdover = true → ∃ t, exec .holdoverExpiry s = .next t ∧ t.kmr.holdover = false ∧ (∀ p, p < 12 → portActive t p = false))) ∧
  (∀ (value : Word) (s : State),
    let src := Nat.min (bits value.toNat 0 2) 1
    (src ≠ s.rd F.KMR_REF_CTRL_SRC 0 → schedAdmitted s = true → exec (.kmrRefCtrlWrite value) s = .next s) ∧
    (src = s.rd F.KMR_REF_CTRL_SRC 0 ∨ schedAdmitted s = false →
      ∃ t, exec (.kmrRefCtrlWrite value) s = .next t ∧ t.tile = s.tile ∧ t.sram = s.sram ∧ t.rd F.KMR_REF_CTRL_SRC 0 = src ∧
      t.rd F.KMR_REF_CTRL_PRIMARY 0 = refPort (bits value.toNat 4 4) ∧ t.rd F.KMR_REF_CTRL_SECONDARY 0 = refPort (bits value.toNat 8 4) ∧
      (s.rd F.SES_CLOCK_MODE 0 = 0 → s.rd F.KMR_REF_CTRL_SSC 0 ≤ 1 → t.rd F.KMR_REF_CTRL_SSC 0 = s.rd F.KMR_REF_CTRL_SSC 0))) ∧
  (∀ (p : Fin 12) (s : State),
    (bit (s.rd F.KMR_TRK_FWD_PORTS 0) p = 0 → exec (.trackSamplePeriod p) s = .next s) ∧
    (bit (s.rd F.KMR_TRK_FWD_PORTS 0) p = 1 → (1 ≤ kmrRole s ∨ s.kmr.tookOver = true) → portActive s p = true →
      ∃ t c, exec (.trackSamplePeriod p) s = .next t ∧ c.typ = 4 ∧ c.dst = s.rd F.KMR_PARTNER_NODE p ∧ c.src = s.node ∧
        Tab.get [] (t.kport p).queues 65 = Tab.get [] (s.kport p).queues 65 ++ [(c, false)] ∧ t.regs = s.regs)) ∧
  (∀ s : State, (s.on F.KMR_ROLE_STANDBY 0 = false ∨ s.kmr.tookOver = true → exec .standbyTakeover s = .next s) ∧
    (s.on F.KMR_ROLE_STANDBY 0 = true → s.kmr.tookOver = false → ∃ t, exec .standbyTakeover s = .next t ∧ t.kmr.tookOver = true ∧
      t.rd F.KMR_DEV_STATUS_TAKEOVER 0 = 1 ∧ SameRegs s t [(F.KMR_DEV_STATUS_TAKEOVER, 0)])) ∧
  (∀ (bs : List Byte) (s : State),
    let da := s.rd F.KMR_SHAPE_DA 0
    let r := memWrite s da bs Around.quiet
    (regionOf da ≠ .hbm → exec (.shapeTable (.received bs)) s = .next s) ∧
    (regionOf da = .hbm → regionOf (da + bs.length) = .hbm → r.2 = false → exec (.shapeTable (.received bs)) s = .next r.1) ∧
    (regionOf da = .hbm → regionOf (da + bs.length) = .hbm → r.2 = true → ∃ t, exec (.shapeTable (.received bs)) s = .next t ∧
      t.rd F.KMR_SHAPE_GEN 0 = natAt bs 4 4 % 2 ^ 16 ∧ t.mem = r.1.mem ∧ t.sram = r.1.sram ∧ t.outbox = .mc F.KMR_SHAPE_GEN 0 :: r.1.outbox)) ∧
  (∀ (track : Fin 8) (claims : List Claim) (s : State),
    (kmrRole s ≠ 2 → exec (.shapeTable (.built track claims)) s = .next s) ∧
    (kmrRole s = 2 → ∃ t, exec (.shapeTable (.built track claims)) s = .next t ∧ t.tile = s.tile ∧
      ∀ d ∈ shapeDevices s claims, d.node ≠ s.node → .shape d.node (shapeBytes s track (shapeDevices s claims)) ∈ t.outbox))

/-! ### Memory tiers (R273-R296) -/

/-- HBM (R275, R276, R279-R286). Bytes written to one atom are read back, whole; the band map holds while a scheduled session is
admitted; a patrol scrub counts and flags what it corrects and what it cannot; a refresh is postponed up to the limit under a panic
request, and then forced; an idle pseudo-channel powers down and an idle stack enters self-refresh; training begins with
READY 0, stack by stack full or a validation, and ends with READY 1 and the margins found, or falls back to full training. -/
def Obligations.HbmKeepsScrubsAndTrains : Prop :=
  (∀ (s s' : State) (da : Nat) (bs : List Byte), da % 32 + bs.length ≤ 32 → bs ≠ [] → hbmWrite s da bs [] false = (s', true) →
    hbmBytes s' da bs.length = bs ∧ s'.sram = s.sram ∧ s'.tile = s.tile ∧
    (∀ k, ¬ (hbmKey s da ≤ k ∧ k < hbmKey s da + bs.length) → byteAt s'.mem.hbm k = byteAt s.mem.hbm k)) ∧
  (∀ (j : Fin 6) (value : Word) (s : State),
    ∃ t, exec (.hbmBandWrite j value) s = .next t ∧ t = { s with regs := t.regs } ∧
      (schedAdmitted s = true → t.rd F.HBM_STATUS_MAP_REFUSED 0 = 1 ∧ SameRegs s t [(F.HBM_STATUS_MAP_REFUSED, 0)]) ∧
      (schedAdmitted s = false → t.rd F.HBM_BAND_MODE j = bit value.toNat 0 ∧ t.rd F.HBM_BAND_GRAIN j = F.HBM_BAND_GRAIN.clamp (bits value.toNat 8 4) ∧
        SameRegs s t [(F.HBM_BAND_MODE, j.val), (F.HBM_BAND_GRAIN, j.val)])) ∧
  (∀ (pc : Fin 256) (atom : Nat) (ecc : Fin 3) (panic : Bool) (s : State),
    let k := pc.val * 2 ^ 26 + atom
    let o := Nat.min 2 (Nat.max ecc (Tab.get 0 s.mem.weak k))
    (s.on F.HBM_CTRL_SCRUB_EN (pc / 64) = false ∨ panic = true ∨ panicAt s pc = true ∨ o = 0 → exec (.patrolScrub pc atom ecc panic) s = .next s) ∧
    (s.on F.HBM_CTRL_SCRUB_EN (pc / 64) = true → pcServes s pc = true → panic = false → panicAt s pc = false →
      ∃ t, exec (.patrolScrub pc atom ecc panic) s = .next t ∧ t.mem = { s.mem with weak := t.mem.weak } ∧
        (o = 1 → t.rd F.HBM_CE_CNT_COUNT (pc / 64) = (s.rd F.HBM_CE_CNT_COUNT (pc / 64) + 1) % 2 ^ 64 ∧ t.rd F.HBM_STATUS_CE (pc / 64) = 1 ∧
          Tab.get 0 t.mem.weak k = 0 ∧ t.dict = s.dict) ∧
        (o = 2 → t.rd F.HBM_UE_CNT_COUNT (pc / 64) = (s.rd F.HBM_UE_CNT_COUNT (pc / 64) + 1) % 2 ^ 64 ∧ t.rd F.HBM_STATUS_UE (pc / 64) = 1 ∧
          Tab.get 0 t.mem.weak k = 2 ∧
          (s.on F.HBM_ERR_LOG_VALID (pc / 64) = false → t.rd F.HBM_ERR_LOG_VALID (pc / 64) = 1 ∧ t.rd F.HBM_ERR_LOG_PC (pc / 64) = pc % 2 ^ F.HBM_ERR_LOG_PC.width) ∧
          (s.on F.HBM_CTRL_UE_EVT_EN (pc / 64) = true → t.outbox = .mc F.HBM_STATUS_UE (pc / 64) :: s.outbox ∧
            t.dict = { s.dict with owed := s.dict.owed ++ [(0x2B000001, pc.val / 64)] })))) ∧
  (∀ (pc : Fin 256) (bank : Fin 64) (panic : Bool) (s : State),
    let k := pc.val * 64 + bank
    (panic = false → panicAt s pc = false → ∃ t, exec (.refresh pc bank panic) s = .next t ∧ Tab.get 0 t.mem.postponed k = 0 ∧ t.regs = s.regs) ∧
    (panic = true ∨ panicAt s pc = true → ∃ t, exec (.refresh pc bank panic) s = .next t ∧
      (Tab.get 0 s.mem.postponed k < s.rd F.HBM_REF_CTRL_POSTPONE (pc / 64) → Tab.get 0 t.mem.postponed k = Tab.get 0 s.mem.postponed k + 1 ∧ t.regs = s.regs) ∧
      (s.rd F.HBM_REF_CTRL_POSTPONE (pc / 64) ≤ Tab.get 0 s.mem.postponed k → t.rd F.HBM_STATUS_REF_FORCED (pc / 64) = 1 ∧
        t.rd F.HBM_REF_FORCE_CNT_COUNT (pc / 64) = (s.rd F.HBM_REF_FORCE_CNT_COUNT (pc / 64) + 1) % 2 ^ 64 ∧ t = { s with regs := t.regs }))) ∧
  (∀ (pc : Fin 256) (panic : Bool) (s : State),
    (s.rd F.HBM_PC_STATE_STATE pc ≠ 0 ∨ pcIdle s pc = false ∨ panic = true → exec (.powerDownEntry pc panic) s = .next s) ∧
    (s.rd F.HBM_PC_STATE_STATE pc = 0 → pcIdle s pc = true → panic = false → pcServes s pc = true →
      ∃ t, exec (.powerDownEntry pc panic) s = .next t ∧ t.rd F.HBM_PC_STATE_STATE pc = 1 ∧
        t.rd F.HBM_PD_ENTRY_CNT_COUNT (pc / 64) = (s.rd F.HBM_PD_ENTRY_CNT_COUNT (pc / 64) + 1) % 2 ^ 64 ∧ t = { s with regs := t.regs })) ∧
  (∀ (k : Fin 8) (s : State),
    (s.on F.HBM_CTRL_SR_EN (k / 2) = false ∨ schedAdmitted s = true → exec (.selfRefreshEntry k) s = .next s) ∧
    (s.on F.HBM_CTRL_SR_EN (k / 2) = true → schedAdmitted s = false → (∀ i, i < 32 → pcServes s (k * 32 + i) = true ∧ pcIdle s (k * 32 + i) = true) →
      ∃ t, exec (.selfRefreshEntry k) s = .next t ∧ (∀ i, i < 32 → t.rd F.HBM_PC_STATE_STATE (k * 32 + i) = 2) ∧
        SameRegs s t ((List.range 32).map (fun i => (F.HBM_PC_STATE_STATE, k * 32 + i))) ∧ t = { s with regs := t.regs })) ∧
  (∀ (q bad : Fin 4) (s : State),
    (s.rd F.HBM_STATUS_TRAIN_STATE q = 1 ∨ s.rd F.HBM_STATUS_TRAIN_STATE q = 2 → exec (.hbmTraining q bad) s = .next s) ∧
    (s.rd F.HBM_STATUS_TRAIN_STATE q ≠ 1 → s.rd F.HBM_STATUS_TRAIN_STATE q ≠ 2 →
      ∃ t, exec (.hbmTraining q bad) s = .next t ∧ t.rd F.HBM_STATUS_READY q = 0 ∧ t = { s with regs := t.regs, mem := { s.mem with training := t.mem.training } } ∧
        (∀ k : Fin 2, Tab.get 0 t.mem.training (2 * q + k) =
          if s.on F.HBM_TRAIN_FORCE_FULL q || !(Tab.get false s.mem.trainRec (2 * q + k)) || decide (bit bad k = 1) then 1 else 2) ∧
        t.rd F.HBM_STATUS_TRAIN_STATE q = (if Tab.get 0 t.mem.training (2 * q) = 1 ∨ Tab.get 0 t.mem.training (2 * q + 1) = 1 then 1 else 2))) ∧
  (∀ (q : Fin 4) (margins dTemps : List Nat) (failed : Fin 4) (s : State),
    (s.rd F.HBM_STATUS_TRAIN_STATE q ≠ 1 → s.rd F.HBM_STATUS_TRAIN_STATE q ≠ 2 → exec (.trainingDone q margins dTemps failed) s = .next s) ∧
    (s.rd F.HBM_STATUS_TRAIN_STATE q = 1 → (∀ k : Fin 2, Tab.get 0 s.mem.training (2 * q + k) = 1) →
      ∃ t, exec (.trainingDone q margins dTemps failed) s = .next t ∧ t.rd F.HBM_STATUS_READY q = 1 ∧ t.rd F.HBM_STATUS_TRAIN_STATE q = 3 ∧
        t.rd F.HBM_TRAIN_FORCE_FULL q = 0 ∧
        (∀ k : Fin 2, bit (t.rd F.HBM_STATUS_STACK_FAIL q) k = bit failed k ∧ Tab.get false t.mem.trainRec (2 * q + k) = decide (bit failed k = 0)) ∧
        (∀ p, p < 64 → t.rd F.HBM_PC_STATE_MARGIN (64 * q + p) = margins.getD p 0 % 2 ^ F.HBM_PC_STATE_MARGIN.width ∧
          t.rd F.HBM_PC_STATE_STATE (64 * q + p) = if bit failed.val (p / 32) = 1 then 3 else 0)) ∧
    (∀ k : Fin 2, Tab.get 0 s.mem.training (2 * q + k) = 2 → s.rd F.HBM_STATUS_TRAIN_STATE q = 1 ∨ s.rd F.HBM_STATUS_TRAIN_STATE q = 2 →
      s.rd F.HBM_TRAIN_TEMP_DELTA q < dTemps.getD k 0 →
      ∃ t, exec (.trainingDone q margins dTemps failed) s = .next t ∧ t.rd F.HBM_STATUS_TRAIN_FALLBACK q = 1 ∧
        Tab.get 0 t.mem.training (2 * q + k) = 1 ∧ t.rd F.HBM_STATUS_TRAIN_STATE q = 1 ∧ t.rd F.HBM_STATUS_READY q = s.rd F.HBM_STATUS_READY q))

/-- The CXL tier (R288-R296). An error response or a completion timeout of the tier is counted and completes its request with an error;
a window's configuration is taken while it is disabled, and while it is enabled only EN, which a scheduled session's use holds; reads of
the page request queue take its oldest record; an invalidation drops the entries it names, and ends when no transfer in progress uses
one; a link that comes up is shown and flagged.

The CXL root ports (R399, R400, R294). A configuration request starts unless one is under way and ends with its answer or an error;
a removal is refused while an enabled window names the port, and completes; a link that drops by itself is a surprise removal. -/
def Obligations.CxlTierAndItsPorts : Prop :=
  ((∀ (s : State) (r : CxlReq) (c : Instr), c = .cxlErrorResponse r ∨ c = .cxlCompletionTimeout r →
     ∃ s1 t, s1.rd F.CXL_ERR_RSP_CNT_COUNT 0 = (s.rd F.CXL_ERR_RSP_CNT_COUNT 0 + 1) % 2 ^ 64 ∧
       s1 = { s with regs := s1.regs, dict := { s.dict with owed := s.dict.owed ++ [(0x2C000002, 4)] } } ∧ exec c s = .next t ∧
       (∀ e set desc pos, r = .transfer e set desc pos → exec (.transferError e set desc pos) s1 = .next t) ∧
       (∀ src txn write, r = .request src txn write →
         (c = .cxlErrorResponse r → t = { s1 with noc := { s1.noc with flight := t.noc.flight } } ∧ t.noc.flight.length = s1.noc.flight.length ∧
           ∀ (i : Nat) (x : Packet), s1.noc.flight[i]? = some x → t.noc.flight[i]? = some (
             if x.cls = 1 ∧ x.dst = src.val ∧ x.txn = txn.val ∧ x.op = (if write = true then 2 else 1) then { x with status := 1, data := [] } else x)) ∧
         (c = .cxlCompletionTimeout r → fportOfUnit src = none →
           (findOpen s src txn write false = none → t = s1) ∧
           (∀ o, findOpen s src txn write false = some o → findOpen t src txn write false = none ∧ t.outbox = .response src txn none :: s.outbox ∧ t.regs = s1.regs)))) ∧
   (∀ (w : Fin 16) (value : Word) (s : State),
     let v := value.toNat
     ∃ t, exec (.cxlWinCfgWrite w value) s = .next t ∧ t = { s with regs := t.regs } ∧
       (s.on F.CXL_WIN_CFG_EN w = false → t.rd F.CXL_WIN_CFG_EN w = bit v 0 ∧ t.rd F.CXL_WIN_CFG_XLT w = bit v 1 ∧ t.rd F.CXL_WIN_CFG_BASE w = bits v 4 15 ∧
         t.rd F.CXL_WIN_CFG_SIZE_M1 w = Nat.min (bits v 20 15) (32767 - bits v 4 15) ∧ t.rd F.CXL_WIN_CFG_WAYS w = bits v 36 2 ∧
         t.rd F.CXL_WIN_CFG_GRAN w = F.CXL_WIN_CFG_GRAN.clamp (bits v 40 3)) ∧
       (s.on F.CXL_WIN_CFG_EN w = true → t.rd F.CXL_WIN_CFG_BASE w = s.rd F.CXL_WIN_CFG_BASE w ∧ t.rd F.CXL_WIN_CFG_SIZE_M1 w = s.rd F.CXL_WIN_CFG_SIZE_M1 w ∧
         (bits v 4 15 ≠ s.rd F.CXL_WIN_CFG_BASE w → t.rd F.CXL_WIN_STAT_CFG_REFUSED w = 1) ∧
         (bit v 0 = 1 → t.rd F.CXL_WIN_STAT_TGT_DOWN w = 0 ∧ t.rd F.CXL_WIN_CFG_EN w = s.rd F.CXL_WIN_CFG_EN w) ∧
         (bit v 0 = 0 → winUsed s w = true → t.rd F.CXL_WIN_STAT_DIS_REFUSED w = 1 ∧ t.rd F.CXL_WIN_CFG_EN w = s.rd F.CXL_WIN_CFG_EN w) ∧
         (bit v 0 = 0 → winUsed s w = false → t.rd F.CXL_WIN_CFG_EN w = 0))) ∧
   (∀ s : State, s.mem.prq = [] → exec .prqRecPop s = .next (s.emit (.data 0))) ∧
   (∀ (s : State) (da g : Nat) (w : Bool) (r : List (Nat × Nat × Bool)), s.mem.prq = (da, g, w) :: r →
     ∃ t, exec .prqRecPop s = .next t ∧ t.mem.prq = r ∧ t.rd F.CXL_TIER_STATUS_PRQ_PENDING 0 = (if r = [] then 0 else 1) ∧
       t.outbox = .data (da + g * 2 ^ 48 + b2n w * 2 ^ 57) :: s.outbox ∧ SameRegs s t [(F.CXL_TIER_STATUS_PRQ_PENDING, 0)]) ∧
   (∀ (value : Word) (s : State),
     let first := bits value.toNat 21 27
     let n := bits value.toNat 48 15
     ∃ t, exec (.xltInv value) s = .next t ∧ t.rd F.CXL_XLT_INV_BUSY 0 = 1 ∧ SameRegs s t [(F.CXL_XLT_INV_BUSY, 0)] ∧
       (∀ e, e ∈ t.mem.xlt ↔ e ∈ s.mem.xlt ∧ n ≠ 0 ∧ ¬ (first ≤ e.1 ∧ e.1 < first + n))) ∧
   (∀ s : State, (s.mem.xltGone.any (fun e => xltInUse s e.1) = true → exec .xltInvDone s = .next s) ∧
     (s.mem.xltGone.any (fun e => xltInUse s e.1) = false → ∃ t, exec .xltInvDone s = .next t ∧ t.rd F.CXL_XLT_INV_BUSY 0 = 0 ∧ t.mem.xltGone = [] ∧
       SameRegs s t [(F.CXL_XLT_INV_BUSY, 0)])) ∧
   (∀ (p : Fin 2) (speed : Fin 8) (width : Fin 32) (ltssm : Fin 64) (s : State),
     (bit (s.rd F.CXL_TIER_STATUS_LINK_UP 0) p = 1 → exec (.cxlLinkUp p speed width ltssm) s = .next s) ∧
     (bit (s.rd F.CXL_TIER_STATUS_LINK_UP 0) p = 0 → s.on F.CXL_PORT_CTRL_EN p = true → s.rd F.CXL_TIER_STATUS_LINK_UP 0 < 4 →
       ∃ t, exec (.cxlLinkUp p speed width ltssm) s = .next t ∧ bit (t.rd F.CXL_TIER_STATUS_LINK_UP 0) p = 1 ∧ t.rd F.CXL_PORT_STAT_LINK_UP p = 1 ∧
         t.rd F.CXL_PORT_STAT_SPEED p = speed % 2 ^ F.CXL_PORT_STAT_SPEED.width ∧ t.rd F.CXL_PORT_STAT_WIDTH p = width % 2 ^ F.CXL_PORT_STAT_WIDTH.width ∧
         t.rd F.CXL_TIER_STATUS_HOTADD 0 = 1 ∧ t.outbox = .mc F.CXL_TIER_STATUS_HOTADD 0 :: s.outbox))) ∧
  ((∀ (p : Fin 2) (v : Word) (s : State),
     (s.on F.CXL_CFG_ADDR_BUSY p = true → exec (.rd p) s = .next s ∧ exec (.cxlCfgDataWrite p v) s = .next s) ∧
     (s.on F.CXL_CFG_ADDR_BUSY p = false →
       (∃ t, exec (.rd p) s = .next t ∧ t.rd F.CXL_CFG_ADDR_BUSY p = 1 ∧ t.rd F.CXL_CFG_ADDR_DONE p = 0 ∧ t.outbox = .cxlConfig p (cxlCfgTarget s p) none :: s.outbox ∧
         SameRegs s t [(F.CXL_CFG_ADDR_BUSY, p.val), (F.CXL_CFG_ADDR_DONE, p.val)] ∧ t = { s with regs := t.regs, outbox := t.outbox }) ∧
       (∃ t, exec (.cxlCfgDataWrite p v) s = .next t ∧ t.rd F.CXL_CFG_ADDR_BUSY p = 1 ∧ t.rd F.CXL_CFG_ADDR_DONE p = 0 ∧ t.rd F.CXL_CFG_DATA_DATA p = v.toNat % 2 ^ 32 ∧
         t.outbox = .cxlConfig p (cxlCfgTarget s p) (some (v.toNat % 2 ^ 32)) :: s.outbox ∧
         SameRegs s t [(F.CXL_CFG_ADDR_BUSY, p.val), (F.CXL_CFG_ADDR_DONE, p.val), (F.CXL_CFG_DATA_DATA, p.val)] ∧ t = { s with regs := t.regs, outbox := t.outbox }))) ∧
   (∀ (p : Fin 2) (ok : Bool) (answer : Option Nat) (s : State), (s.on F.CXL_CFG_ADDR_BUSY p = false → exec (.cxlCfgDone p ok answer) s = .next s) ∧
     (s.on F.CXL_CFG_ADDR_BUSY p = true → ∃ t, exec (.cxlCfgDone p ok answer) s = .next t ∧ t.rd F.CXL_CFG_ADDR_BUSY p = 0 ∧ t.rd F.CXL_CFG_ADDR_DONE p = 1 ∧
       (∀ v, ok = true → answer = some v → t.rd F.CXL_CFG_DATA_DATA p = v % 2 ^ 32) ∧
       (ok = false → t.rd F.CXL_CFG_ADDR_ERR p = 1 ∧ t.rd F.CXL_CFG_DATA_DATA p = s.rd F.CXL_CFG_DATA_DATA p ∧
         t.rd F.CXL_PORT_ERR_CNT_COUNT p = (s.rd F.CXL_PORT_ERR_CNT_COUNT p + 1) % 2 ^ 64) ∧ t = { s with regs := t.regs })) ∧
   (∀ (p : Fin 2) (s : State), ∃ t, exec (.remove p) s = .next t ∧
     (portNamed s p = true → t.rd F.CXL_PORT_STAT_REMOVE_REFUSED p = 1 ∧ SameRegs s t [(F.CXL_PORT_STAT_REMOVE_REFUSED, p.val)] ∧ t = { s with regs := t.regs }) ∧
     (portNamed s p = false → t.lanes.removing.contains p.val = true ∧ t = { s with lanes := t.lanes })) ∧
   (∀ (p : Fin 2) (s : State), (s.lanes.removing.contains p.val = false → exec (.removed p) s = .next s) ∧
     (s.lanes.removing.contains p.val = true → ∃ t, exec (.removed p) s = .next t ∧ t.rd F.CXL_PORT_STAT_REMOVED p = 1 ∧ t.rd F.CXL_PORT_STAT_LINK_UP p = 0 ∧
       t.rd F.CXL_PORT_STAT_LINK_DOWN p = s.rd F.CXL_PORT_STAT_LINK_DOWN p ∧ t.lanes.removing.contains p.val = false ∧ t = { s with regs := t.regs, lanes := t.lanes })) ∧
   (∀ (p : Fin 2) (s : State), (s.on F.CXL_PORT_STAT_LINK_UP p = false → exec (.cxlLinkDown p) s = .next s) ∧
     (s.on F.CXL_PORT_STAT_LINK_UP p = true → ∃ t, exec (.cxlLinkDown p) s = .next t ∧ t.rd F.CXL_PORT_STAT_LINK_UP p = 0 ∧ t.rd F.CXL_PORT_STAT_LINK_DOWN p = 1 ∧
       t.rd F.CXL_PORT_DOWN_CNT_COUNT p = (s.rd F.CXL_PORT_DOWN_CNT_COUNT p + 1) % 2 ^ 64 ∧ t.rd F.CXL_TIER_STATUS_SURPRISE 0 = 1 ∧
       t.outbox = .mc F.CXL_TIER_STATUS_SURPRISE 0 :: s.outbox ∧ t.lanes.removing.contains p.val = false ∧
       t = { s with regs := t.regs, lanes := t.lanes, outbox := t.outbox, dict := { s.dict with owed := s.dict.owed ++ [(0x2C000001, 4)] } })))

/-! ### The network on chip (R297-R313) -/

/-- Requests that reach their unit (R172, R276, R300). A READ of on-chip words in the state its mode asks for is answered with
their bytes, line by line; a WRITE stores its bytes, its whole words become full, and it is acknowledged; in the other state both wait
there. A request behind an earlier one of its source to the same unit is open, and goes after it.

The other packets (R300-R302, R309). A CELL enters its port's queue on its route; a baton packet is the arrival of its baton; an ARRIVE
adds to its hurdle, or waits at a table that is shut; a register access is answered with the register's data or an error; an EVENT
reaches the MC; and a packet that meets a sleeping domain is held there, waking it. -/
def Obligations.PacketsAreServed : Prop :=
  ((∀ (p : Packet) (s s1 : State),
     let r := { p with cls := 0, op := 1, flits := 1, issue := s.trk.ts % 1024, probes := [] }
     let s0 := openReq s r false
     let ws := wordsOf p.da (8 * p.len)
     let who := Agent.packet p.src p.txn
     waitsBehind s0 r false = false → carry (markSent s0 r false) r = (s1, .ok) → onChip p.da = true → onChip (p.da + 8 * p.len - 1) = true →
     memDown s1 ws = false → ws.any (fun w => padBusy s1 (w * 8)) = false →
     ∃ t, exec (.read p) s = .next t ∧ t.sram = s.sram ∧ t.tile = s.tile ∧
       (mayAccess s1 (waitersBefore who ws s1.sync.waiters) p.fe false ws = true →
         (∀ x, t.isFull x = if p.fe = 2 ∧ x ∈ wholeWords p.da (8 * p.len) then false else s.isFull x) ∧
         ∃ rs, t.noc.flight = s1.noc.flight ++ rs ∧ rs.flatMap (fun x => x.data) = readBytes s.sram p.da (8 * p.len) ∧
           (∀ x ∈ rs, x.cls = 1 ∧ x.op = 1 ∧ x.src = p.dst ∧ x.dst = p.src ∧ x.txn = p.txn ∧ x.status = 0)) ∧
       (mayAccess s1 (waitersBefore who ws s1.sync.waiters) p.fe false ws = false →
         s1.sync.waiters.any (fun w => decide (w.who = who) && decide (w.words = ws)) = false →
         t.full = s.full ∧ t.noc.waiting = s1.noc.waiting.filter (fun x => !(decide (x.src = r.src ∧ x.txn = r.txn ∧ x.op = r.op))) ++ [r] ∧ t.sync.waiters = s1.sync.waiters ++ [⟨who, p.fe, false, ws⟩])) ∧
   (∀ (p : Packet) (s s1 : State),
     let r := { p with cls := 0, op := 2, flits := 1, issue := s.trk.ts % 1024, probes := [] }
     let s0 := openReq s r false
     let bs := p.data.take (8 * p.len)
     let ws := wordsOf p.da bs.length
     let who := Agent.packet p.src (p.txn + 8)
     waitsBehind s0 r false = false → carry (markSent s0 r false) r = (s1, .ok) → onChip p.da = true → onChip (p.da + bs.length - 1) = true →
     memDown s1 ws = false → ws.any (fun w => padBusy s1 (w * 8)) = false →
     ∃ t, exec (.write p) s = .next t ∧ t.tile = s.tile ∧
       (mayAccess s1 (waitersBefore who ws s1.sync.waiters) p.fe true ws = true →
         readBytes t.sram p.da bs.length = bs ∧ SameBytes s t p.da bs.length ∧
         (∀ x, t.isFull x = if x ∈ wholeWords p.da bs.length then true else s.isFull x) ∧
         ∃ x, t.noc.flight = s1.noc.flight ++ [x] ∧ x.cls = 1 ∧ x.op = 2 ∧ x.src = p.dst ∧ x.dst = p.src ∧ x.txn = p.txn ∧ x.status = 0) ∧
       (mayAccess s1 (waitersBefore who ws s1.sync.waiters) p.fe true ws = false →
         s1.sync.waiters.any (fun w => decide (w.who = who) && decide (w.words = ws)) = false →
         t.sram = s.sram ∧ t.full = s.full ∧
         t.noc.waiting = s1.noc.waiting.filter (fun x => !(decide (x.src = r.src ∧ x.txn = r.txn ∧ x.op = r.op))) ++ [r])) ∧
   (∀ (p : Packet) (s : State) (c : Instr) (op : Nat), (op = 1 ∧ c = .read p) ∨ (op = 2 ∧ c = .write p) →
     let r := { p with cls := 0, op := op, flits := 1, issue := s.trk.ts % 1024, probes := [] }
     waitsBehind (openReq s r false) r false = true →
     ∃ t, exec c s = .next t ∧ (findOpen t p.src p.txn (decide (op = 2)) false).isSome = true ∧ t = { s with noc := { s.noc with opened := t.noc.opened } })) ∧
  ((∀ (p : Packet) (s : State) (c : Instr) (cls op : Nat),
     (c, cls, op) ∈ [(.read p, 0, 1), (.write p, 0, 2), (.cell p, 0, 3), (.nocBaton p, 2, 1), (.nocArrive p, 2, 2), (.regRead p, 3, 1), (.regWrite p, 3, 2), (.event p, 3, 4)] →
     let cell := decide (cls = 0 ∧ op = 3)
     let r := { p with cls := cls, op := op, flits := if cell then Nat.min 5 (Nat.max 1 ((p.data.length + 127) / 128)) else 1, issue := s.trk.ts % 1024, probes := [] }
     let ctl := decide (cls = 3)
     let s0 := if isRequest r && !cell then markSent (openReq s r ctl) r ctl else s
     ((isRequest r && !cell) = true → waitsBehind (openReq s r ctl) r ctl = false) → unitExists p.dst = true →
     (∀ q d, wayOf s0 r (exitsOf r (routeOfPkt s0 r).1) = .hold q d →
       ∃ t, exec c s = .next t ∧ t.noc.heldPkts = s.noc.heldPkts ++ [(q * 32 + d, r)] ∧ t.rd F.NOC_PWR_STAT_WAKING q = 1 ∧
         SameRegs s t [(F.NOC_PWR_STAT_WAKING, q)] ∧ t = { s with regs := t.regs, noc := t.noc }) ∧
     (∀ h, wayOf s0 r (exitsOf r (routeOfPkt s0 r).1) = .stall h →
       ∃ t, exec c s = .next t ∧ t.noc.stalled = s.noc.stalled ++ [⟨h.die, h.router, h.inp, inTransit r h, r⟩] ∧ t = { s with noc := t.noc })) ∧
   (∀ (p : Packet) (s s1 : State),
     let r := { p with cls := 0, op := 3, flits := Nat.min 5 (Nat.max 1 ((p.data.length + 127) / 128)), issue := s.trk.ts % 1024, probes := [] }
     let c := cellOf p.data p.sched
     let route := routeOf s1 c.dst (cellClass c)
     let k := cellQueue { c with channel := route.2.1 }
     let relayed := decide (c.src ≠ s1.node)
     let port := if relayed then (kportOfUnit p.src).getD 0 else route.1
     carry s r = (s1, .ok) →
     (route.2.2 = true → portActive s1 route.1 = true → s1.on F.KMR_STATUS_MODE_LOW route.1 = false →
       (relayed = true → ((Tab.get [] (s1.kport route.1).queues k).filter (fun e => e.2)).length < 64) →
       ∃ t, exec (.cell p) s = .next t ∧ t.sram = s.sram ∧ (relayed = false → t.regs = s1.regs) ∧
         Tab.get [] (t.kport route.1).queues k = Tab.get [] (s1.kport route.1).queues k ++ [({ c with channel := route.2.1 }, relayed)]) ∧
     (route.2.2 = false → ∃ t, exec (.cell p) s = .next t ∧
       t.rd F.KMR_CELL_DROP_CNT_COUNT port = (s1.rd F.KMR_CELL_DROP_CNT_COUNT port + 1) % 2 ^ 64)) ∧
   (∀ (p : Packet) (s s1 : State) (w0 w1 w2 w3 : Word),
     let r := { p with cls := 2, op := 1, flits := 1, issue := s.trk.ts % 1024, probes := [] }
     let w := fun k => ofBytesLE ((p.data.drop (8 * k)).take 8)
     carry s r = (s1, .ok) → w0.toNat = w 0 → w1.toNat = w 1 → w2.toNat = w 2 → w3.toNat = w 3 →
     (gaFlags (w 0) ≠ 0 ∨ gaNode (w 0) = s1.node) →
     ∃ t, exec (.nocBaton p) s = .next t ∧ exec (.batonArrival w0 w1 w2 w3 none) s1 = .next t) ∧
   (∀ (p : Packet) (s s1 : State),
     let r := { p with cls := 2, op := 2, flits := 1, issue := s.trk.ts % 1024, probes := [] }
     let w := ofBytesLE (p.data.take 8)
     let n := ofBytesLE ((p.data.drop 8).take 8)
     let c := if bit w 16 = 1 then (clusterOfUnit p.src).getD (bits w 11 5) else bits w 11 5
     let h := c * 2048 + bits w 0 11
     carry s r = (s1, .ok) → s1.clusterDown c = false → c < 32 →
     ∃ t, exec (.nocArrive p) s = .next t ∧
       (tableShut s1 h = true → t.sync.held = s1.sync.held ++ [.arrive h n none]) ∧
       (tableShut s1 h = false → t.rd F.HUR_ARRIVE_CNT_COUNT c = (s1.rd F.HUR_ARRIVE_CNT_COUNT c + n) % 2 ^ 64)) ∧
   (∀ (p : Packet) (s s1 s2 : State) (off v : Nat),
     let r := { p with cls := 3, op := 1, flits := 1, issue := s.trk.ts % 1024, probes := [] }
     let w := if p.width = 0 then 8 else 4
     waitsBehind (openReq s r true) r true = false → carry (markSent (openReq s r true) r true) r = (s1, .ok) → regionOf p.da = .window off → targetAt off = none →
     windowRead s1 p.src off w = (s2, .ok v) →
     ∃ t x, exec (.regRead p) s = .next t ∧ t.regs = s2.regs ∧ t.noc.flight = s2.noc.flight ++ [x] ∧ x.cls = 3 ∧ x.op = 3 ∧ x.dst = p.src ∧
       x.txn = p.txn ∧ x.status = 0 ∧ x.data = bytesLE w v) ∧
   (∀ (p : Packet) (s s1 s2 : State) (off : Nat),
     let r := { p with cls := 3, op := 2, flits := 1, issue := s.trk.ts % 1024, probes := [] }
     let w := if p.width = 0 then 8 else 4
     waitsBehind (openReq s r true) r true = false → carry (markSent (openReq s r true) r true) r = (s1, .ok) → regionOf p.da = .window off → targetAt off = none →
     windowWrite s1 p.src off w (ofBytesLE p.data) = (s2, .ok 0) →
     ∃ t x, exec (.regWrite p) s = .next t ∧ t.regs = s2.regs ∧ t.noc.flight = s2.noc.flight ++ [x] ∧ x.cls = 3 ∧ x.op = 3 ∧ x.dst = p.src ∧
       x.txn = p.txn ∧ x.status = 0 ∧ x.data = []) ∧
   (∀ (p : Packet) (s s1 : State),
     let r := { p with cls := 3, op := 4, flits := 1, issue := s.trk.ts % 1024, probes := [] }
     carry s r = (s1, .ok) → p.dst = mcUnit →
     ∃ t, exec (.event p) s = .next t ∧ t.outbox = .event p.src p.data :: s1.outbox ∧ t = { s1 with outbox := t.outbox }))

/-- Responses, records, timeouts and sleeping domains (R304-R313). A response on its way completes the open request of its source and
slot; without one on its way nothing happens; a completion timeout ends its request with an error; trace records that reach the
ring advance its write pointer, and discarded ones are counted and mark their probes; an idle domain sleeps and a woken one is
counted; a probe's fields are taken while it is disabled. -/
def Obligations.ResponsesRecordsAndDomains : Prop :=
  (∀ (dst : Fin 32768) (txn : Fin 8) (e : List Nat) (s s1 : State) (r : Packet) (o : OpenReq) (c : Instr) (op : Nat),
    (op = 1 ∧ c = .readData dst txn e) ∨ (op = 2 ∧ c = .writeAck dst txn e) →
    let f := s.noc.flight.find? (fun r => decide (r.cls = 1 ∧ r.op = op ∧ r.dst = dst.val ∧ r.txn = txn.val))
    (f = none → exec c s = .next s) ∧
    (f = some r → carry (s.setNoc { s.noc with flight := s.noc.flight.erase r }) { r with linkErr := e } = (s1, .ok) → fportOfUnit dst = none →
      findOpen s1 dst txn (decide (op = 2)) false = some o → r.status = 0 →
      ∃ t, exec c s = .next t ∧ t.outbox = .response dst txn (some r.data) :: s1.outbox ∧ t.regs = s1.regs ∧ t.sram = s.sram ∧
        (op = 2 ∨ o.left ≤ r.len → findOpen t dst txn (decide (op = 2)) false = none) ∧
        (op = 1 → r.len < o.left → ∃ o', findOpen t dst txn false false = some o' ∧ o'.left = o.left - r.len))) ∧
  (∀ (p : Packet) (s s1 : State) (r : Packet) (o : OpenReq),
    s.noc.flight.find? (fun r => decide (r.cls = 3 ∧ r.op = 3 ∧ r.dst = p.dst ∧ r.txn = p.txn)) = some r →
    carry (s.setNoc { s.noc with flight := s.noc.flight.erase r }) { r with linkErr := p.linkErr } = (s1, .ok) →
    s1.noc.opened.find? (fun o => decide (o.src = r.dst ∧ o.txn = r.txn ∧ o.ctl = true)) = some o →
    ∃ t, exec (.regResp p) s = .next t ∧ t.outbox = .response r.dst r.txn (if r.status = 0 then some r.data else none) :: s1.outbox ∧
      t.noc.opened = s1.noc.opened.erase o ∧ t.regs = s1.regs) ∧
  (∀ (src : Fin 32768) (txn : Fin 8) (write ctl : Bool) (s : State),
    (findOpen s src txn write ctl = none → exec (.nocCompletionTimeout src txn write ctl) s = .next s) ∧
    (∀ o, findOpen s src txn write ctl = some o →
      let due := decide (s.rd F.NOC_CPL_TO_CYCLES (quarterOfDie (dieOf src) 0) ≤ (s.trk.ts + 2 ^ 48 - o.since) % 2 ^ 48)
      (due = false → exec (.nocCompletionTimeout src txn write ctl) s = .next s) ∧
      (due = true → o.dst ≠ 0x4002 → o.dst ≠ 0x4003 → kportOfUnit o.dst = none → fportOfUnit src = none → ctl = false →
        ∃ t, exec (.nocCompletionTimeout src txn write ctl) s = .next t ∧ findOpen t src txn write ctl = none ∧
          t.outbox = .response src txn none :: s.outbox ∧ t.regs = s.regs))) ∧
  (∀ (q : Fin 4) (e : List Nat) (s : State), Tab.get [] s.noc.recs q = [] →
    exec (.records q e) s = .next s ∧ (s.noc.heldPkts = [] → s.noc.stalled = [] → exec (.tracePacketDiscard q) s = .next s)) ∧
  (∀ (q : Fin 4) (e : List Nat) (s s1 : State) (x : Nat × List Nat), Tab.get [] s.noc.recs q = [x] →
    carry (s.setNoc { s.noc with recs := Tab.set [] s.noc.recs q [] }) (tracePkt s q [x] e) = (s1, .ok) → s1.on F.NOC_CTRL_TRACE_EN q = true →
    let base := s1.rd F.NOC_TRACE_BASE_DA q
    let size := s1.rd F.NOC_TRACE_LEN_PAGES q * 4096
    let wp := s1.rd F.NOC_TRACE_WP_DA q
    base ≤ wp → wp + 32 < base + size → wp + 32 < 2 ^ F.NOC_TRACE_WP_DA.width →
    ∃ t, exec (.records q e) s = .next t ∧ Tab.get [] t.noc.recs q = Tab.get [] s1.noc.recs q ∧ t.rd F.NOC_TRACE_WP_DA q = wp + 32 ∧ t.tile = s.tile) ∧
  (∀ (q : Fin 4) (s : State) (n : Nat) (r : List Nat) (l : List (Nat × List Nat)), s.noc.heldPkts = [] → s.noc.stalled = [] → n < 272 →
    Tab.get [] s.noc.recs q = (n, r) :: l →
    let old := decide (s.rd F.NOC_CTRL_TRACE_AGE q < (s.trk.ts + 2 ^ 48 - r.getD 3 0 % 2 ^ 48) % 2 ^ 48)
    (old = false → exec (.tracePacketDiscard q) s = .next s) ∧
    (old = true → ∃ t, exec (.tracePacketDiscard q) s = .next t ∧ Tab.get [] t.noc.recs q = ((n, r) :: l).drop 4 ∧ t.rd F.NOC_STATUS_TRACE_DROP q = 1 ∧
      t.rd F.NOC_TRACE_DROP_CNT_COUNT q = (s.rd F.NOC_TRACE_DROP_CNT_COUNT q + 1) % 2 ^ 64 ∧
      (∀ x ∈ ((n, r) :: l).take 4, x.1 < 272 → Tab.get false t.noc.gap x.1 = true))) ∧
  (∀ (q : Fin 4) (d : Fin 18) (s : State),
    let k := q.val * 32 + d.val
    let free := s.noc.heldPkts.all (fun h => decide (h.1 ≠ k))
    (sleepEn s q d = false ∨ idleLong s q d = false → exec (.domainSleep q d) s = .next s) ∧
    (sleepEn s q d = true → domainIdle s q d = true → idleLong s q d = true → s.quarterDown q = false → free = true →
      ∃ t, exec (.domainSleep q d) s = .next t ∧ asleep t q d = true ∧ t = { s with regs := t.regs }) ∧
    (asleep s q d = false → free = true → exec (.domainWake q d) s = .next s) ∧
    (asleep s q d = true → cannotWake s q d = false → free = true → s.noc.stalled = [] →
      ∃ t, exec (.domainWake q d) s = .next t ∧ asleep t q d = false ∧ t.rd F.NOC_WAKE_CNT_COUNT q = (s.rd F.NOC_WAKE_CNT_COUNT q + 1) % 2 ^ 64 ∧
        Tab.get 0 t.noc.busyAt k = s.trk.ts ∧ t = { s with regs := t.regs, noc := { s.noc with busyAt := t.noc.busyAt } }) ∧
    (asleep s q d = true → cannotWake s q d = true → s.noc.stalled = [] →
      ∃ t, exec (.domainWake q d) s = .next t ∧ t.rd F.NOC_STATUS_WAKE_FAIL q = 1 ∧ (∀ h ∈ t.noc.heldPkts, h.1 ≠ k))) ∧
  (∀ (n : Fin 272) (value : Word) (s : State),
    ∃ t, exec (.nocPrbCtrlWrite n value) s = .next t ∧ t = { s with regs := t.regs } ∧ t.rd F.NOC_PRB_CTRL_EN n = bit value.toNat 0 ∧
      (bit value.toNat 0 = 1 → t.rd F.NOC_PRB_CNT_COUNT n = 0) ∧
      (s.on F.NOC_PRB_CTRL_EN n = true → t.rd F.NOC_PRB_CTRL_ROUTER n = s.rd F.NOC_PRB_CTRL_ROUTER n ∧ t.rd F.NOC_PRB_CTRL_MODE n = s.rd F.NOC_PRB_CTRL_MODE n ∧
        (n.val < 256 → F.NOC_PRB_CTRL_MODE.clamp (bits value.toNat F.NOC_PRB_CTRL_MODE.lo F.NOC_PRB_CTRL_MODE.width) ≠ s.rd F.NOC_PRB_CTRL_MODE n →
          t.rd F.NOC_STATUS_PRB_REFUSED (n / 64) = 1)) ∧
      (s.on F.NOC_PRB_CTRL_EN n = false →
        t.rd F.NOC_PRB_CTRL_ROUTER n = F.NOC_PRB_CTRL_ROUTER.clamp (bits value.toNat F.NOC_PRB_CTRL_ROUTER.lo F.NOC_PRB_CTRL_ROUTER.width) ∧
        t.rd F.NOC_PRB_CTRL_MODE n = F.NOC_PRB_CTRL_MODE.clamp (bits value.toNat F.NOC_PRB_CTRL_MODE.lo F.NOC_PRB_CTRL_MODE.width)))

/-! ### Programmable logic (R315-R339) -/

/-- RAM with error correction, PLLs, mark units and I/O banks (R325, R327-R329, R338). A read of a correctable word is counted and gives the
word, of an uncorrectable one flagged; an enabled PLL locks, and the loss of its lock is held; an enabled mark unit whose
position is reached fires once, and moves by whole steps beyond the present position or is disabled; a bank whose voltage
leaves its declared range is held until it returns.

Fabric ports (R331-R335). A request of an enabled port whose bytes lie in the port's window leaves as its packet, a write for another node as a CELL; outside the window,
or for a node that the port may not reach, it completes with an error, counted and flagged; an access to a port's target window is delivered to user logic, or has an error response;
ISOLATE stops new requests, and the port is isolated when none is open. -/
def Obligations.FabricUnitsAndPorts : Prop :=
  ((∀ (b : Fin 4096) (a : Fin 1024) (outcome : Fin 3) (flip : Word) (s : State),
     let q := b.val / 1024
     let v := (s.ramWord b a).toNat % 2 ^ 64
     ∃ t, exec (.ramRead b a outcome flip) s = .next t ∧ t.fab = s.fab ∧ t = { s with regs := t.regs, outbox := t.outbox } ∧
       (outcome.val = 0 → t.outbox = .data v :: s.outbox ∧ t.regs = s.regs) ∧
       (outcome.val = 1 → t.outbox = .data v :: s.outbox ∧ t.rd F.FAB_STATUS_RAM_CE q = 1 ∧ t.rd F.FAB_RAM_CE_CNT_COUNT q = (s.rd F.FAB_RAM_CE_CNT_COUNT q + 1) % 2 ^ 64) ∧
       (outcome.val = 2 → t.rd F.FAB_STATUS_RAM_UE q = 1 ∧ t.rd F.FAB_RAM_UE_CNT_COUNT q = (s.rd F.FAB_RAM_UE_CNT_COUNT q + 1) % 2 ^ 64 ∧
         (.mc F.FAB_STATUS_RAM_UE q ∈ t.outbox ↔ s.on F.FAB_CTRL_UE_EVT_EN q = true ∨ .mc F.FAB_STATUS_RAM_UE q ∈ s.outbox))) ∧
   (∀ (p : Fin 16) (s : State),
     (s.on F.FAB_PLL_CTRL_EN p = false → exec (.pllLock p) s = .next s) ∧
     (s.on F.FAB_PLL_CTRL_EN p = true → ∃ t, exec (.pllLock p) s = .next t ∧ t.rd F.FAB_PLL_STAT_LOCK p = 1 ∧
       SameRegs s t [(F.FAB_PLL_STAT_LOCK, p.val)] ∧ t = { s with regs := t.regs }) ∧
     (s.on F.FAB_PLL_STAT_LOCK p = false → exec (.pllLockLoss p) s = .next s) ∧
     (s.on F.FAB_PLL_STAT_LOCK p = true → ∃ t, exec (.pllLockLoss p) s = .next t ∧ t.rd F.FAB_PLL_STAT_LOCK p = 0 ∧ t.rd F.FAB_PLL_STAT_LOCK_LOST p = 1 ∧
       SameRegs s t [(F.FAB_PLL_STAT_LOCK, p.val), (F.FAB_PLL_STAT_LOCK_LOST, p.val)] ∧ t = { s with regs := t.regs })) ∧
   (∀ (u : Fin 64) (s : State),
     let p := posOf (s.rd F.FAB_MARK_LAP_LAP u) (s.rd F.FAB_MARK_CFG_ANGLE u)
     let now := s.position (s.rd F.FAB_MARK_CFG_TRK u)
     let st := s.rd F.FAB_MARK_STEP_STEP u
     (s.on F.FAB_MARK_CFG_EN u = false ∨ now < p → exec (.markFire u) s = .next s) ∧
     (s.on F.FAB_MARK_CFG_EN u = true → p ≤ now → s.quarterDown (u / 16) = false →
       ∃ t, exec (.markFire u) s = .next t ∧ t.rd F.FAB_MARK_STAT_FIRED u = 1 ∧ t.outbox = .mark u :: s.outbox ∧
         (∀ i, i < 384 → (t.slice (u / 16 * 384 + i)).firings = (s.slice (u / 16 * 384 + i)).firings +
           if s.rd F.SPS_CTRL_MSEL (u / 16 * 384 + i) = u % 16 then 1 else 0) ∧
         (st = 0 → t.rd F.FAB_MARK_CFG_EN u = 0 ∧ t.rd F.FAB_MARK_STAT_SKIP u = 0) ∧
         (0 < st → p + ((now - p) / st + 1) * st < 2 ^ 96 → t.rd F.FAB_MARK_STAT_SKIP u = Nat.min ((now - p) / st) 255 ∧ t.on F.FAB_MARK_CFG_EN u = true ∧
           posOf (t.rd F.FAB_MARK_LAP_LAP u) (t.rd F.FAB_MARK_CFG_ANGLE u) = p + ((now - p) / st + 1) * st))) ∧
   (∀ (b : Fin 20) (mv : Fin 4096) (s : State),
     let d := vccioMV (s.rd F.FAB_BANK_CFG_VCCIO b)
     (∃ t, exec (.vccioFault b mv) s = .next t ∧ t.rd F.FAB_BANK_STAT_MV b = mv ∧ t.rd F.PAC_VMON_MV b = mv ∧
       (d = 0 ∨ vccioNear d mv = true → t.rd F.FAB_BANK_STAT_HELD b = s.rd F.FAB_BANK_STAT_HELD b ∧ t.outbox = s.outbox) ∧
       (d ≠ 0 → vccioNear d mv = false → s.on F.FAB_BANK_STAT_HELD b = false →
         t.rd F.FAB_BANK_STAT_HELD b = 1 ∧ t.rd F.FAB_STATUS_VCCIO_BAD (b / 5) = 1 ∧ t.outbox = .mc F.FAB_STATUS_VCCIO_BAD (b / 5) :: s.outbox ∧
         t.rd F.FAB_VCCIO_FAULT_CNT_COUNT (b / 5) = (s.rd F.FAB_VCCIO_FAULT_CNT_COUNT (b / 5) + 1) % 2 ^ 64)) ∧
     (∃ t, exec (.vccioResume b mv) s = .next t ∧ t.rd F.FAB_BANK_STAT_MV b = mv ∧
       t.rd F.FAB_BANK_STAT_HELD b = (if vccioNear d mv then 0 else s.rd F.FAB_BANK_STAT_HELD b)))) ∧
  ((∀ (n : Fin 128) (kind : Fin 4) (dst ga words fe : Nat) (data : List Byte) (s : State),
     let u := unitOfFport n
     let len := if kind.val = 0 then 8 * words else if kind.val = 1 then data.length else 0
     (s.on F.FAB_PORT_CTRL_EN n = false ∨ s.on F.FAB_PORT_CTRL_ISOLATE n = true → exec (.fabricPortRequest n kind dst ga words fe data) s = .next s) ∧
     (fportDown s n = false → s.on F.FAB_PORT_CTRL_EN n = true → s.on F.FAB_PORT_CTRL_ISOLATE n = false →
       (kind.val < 2 → windowOK s n ga len = false ∨ 2 ≤ gaFlags ga ∨ (kind.val = 0 ∧ gaLocal s ga = false) → ∃ t, exec (.fabricPortRequest n kind dst ga words fe data) s = .next t ∧
         t.rd F.FAB_PORT_STAT_WIN_ERR n = 1 ∧ t.rd F.FAB_STATUS_PORT_ERR (n / 32) = 1 ∧
         t.rd F.FAB_PORT_ERR_CNT_COUNT (n / 32) = (s.rd F.FAB_PORT_ERR_CNT_COUNT (n / 32) + 1) % 2 ^ 64 ∧
         t.outbox = .response u 0 none :: s.outbox ∧ t = { s with regs := t.regs, outbox := t.outbox }) ∧
       (windowOK s n ga len = true → kind.val = 0 → gaLocal s ga = true → words ≤ 64 → ∀ x, freeTxn s n false = some x →
         ∃ t p, exec (.fabricPortRequest n kind dst ga words fe data) s = .next t ∧ t.outbox = .packet p :: s.outbox ∧
           p.cls = 0 ∧ p.op = 1 ∧ p.src = u ∧ p.dst = dst ∧ p.da = gaDA ga ∧ p.len = words ∧ p.txn = x ∧ (findOpen t u x false false).isSome = true) ∧
       (windowOK s n ga len = true → kind.val = 1 → gaLocal s ga = true → gaDA ga % 128 + data.length ≤ 128 → ∀ x, freeTxn s n true = some x →
         ∃ t p, exec (.fabricPortRequest n kind dst ga words fe data) s = .next t ∧ t.outbox = .packet p :: s.outbox ∧
           p.cls = 0 ∧ p.op = 2 ∧ p.src = u ∧ p.dst = dst ∧ p.da = gaDA ga ∧ p.data = data ∧ p.txn = x ∧ (findOpen t u x true false).isSome = true ∧
           t.rd F.FAB_WR_BYTES_CNT_COUNT (n / 32) = (s.rd F.FAB_WR_BYTES_CNT_COUNT (n / 32) + data.length) % 2 ^ 64) ∧
       (windowOK s n ga len = true → kind.val = 1 → gaLocal s ga = false → gaFlags ga < 2 → gaDA ga % 128 + data.length ≤ 128 → ∀ x, freeTxn s n true = some x →
         ∃ t p c, exec (.fabricPortRequest n kind dst ga words fe data) s = .next t ∧ t.outbox = .packet p :: s.outbox ∧
           p.cls = 0 ∧ p.op = 3 ∧ p.src = u ∧ p.dst = unitOfKport (routeOf s (gaNode ga) 0).1 ∧ p.data = cellWire c ∧ c.typ = 1 ∧ c.dst = gaNode ga ∧
           c.src = s.node ∧ c.eng = n ∧ c.xslot = x ∧ c.da = gaDA ga ∧ c.last = true ∧ c.payload = data ∧ (findOpen t u x true false).isSome = true) ∧
       (2 ≤ kind.val →
         ∃ t p, exec (.fabricPortRequest n kind dst ga words fe data) s = .next t ∧ t.outbox = .packet p :: s.outbox ∧
           p.cls = 2 ∧ p.op = (if kind.val = 2 then 2 else 1) ∧ p.src = u ∧ p.dst = dst ∧ p.da = 0 ∧ p.data = data ∧ t = { s with outbox := t.outbox }))) ∧
   (∀ (p : Packet) (s : State) (n : Nat), fportOfUnit p.dst = some n →
     (s.on F.FAB_PORT_CTRL_TGT_EN n = true → s.on F.FAB_PORT_CTRL_ISOLATE n = false → fportDown s n = false →
       ∃ t, exec (.targetAccess p) s = .next t ∧ t.outbox = .packet p :: s.outbox ∧ t.regs = s.regs ∧
         t.noc.opened.any (fun o => decide (o.src = p.src ∧ o.txn = p.txn ∧ o.ctl = true)) = true) ∧
     (s.on F.FAB_PORT_CTRL_TGT_EN n = false ∨ s.on F.FAB_PORT_CTRL_ISOLATE n = true ∨ fportDown s n = true →
       ∃ t, exec (.targetAccess p) s = .next t ∧ t.outbox = .response p.src p.txn none :: s.outbox ∧ findOpen t p.src p.txn (decide (p.op = 2)) true = none ∧
         t = { s with outbox := t.outbox, noc := { s.noc with opened := t.noc.opened } })) ∧
   (∀ (p : Packet) (s : State), fportOfUnit p.dst = none → exec (.targetAccess p) s = .next (s.emit .error)) ∧
   (∀ (n : Fin 128) (s : State),
     let mine := s.noc.opened.filter (fun o => decide (o.src = unitOfFport n ∧ o.ctl = false))
     (∃ t, exec (.isolate n) s = .next t ∧ t.rd F.FAB_PORT_CTRL_ISOLATE n = 1 ∧ t.rd F.FAB_PORT_STAT_ISOLATED n = (if mine = [] then 1 else 0) ∧
       SameRegs s t [(F.FAB_PORT_CTRL_ISOLATE, n.val), (F.FAB_PORT_STAT_ISOLATED, n.val), (F.FAB_PORT_STAT_RD_OUT, n.val), (F.FAB_PORT_STAT_WR_OUT, n.val)] ∧
       t = { s with regs := t.regs }) ∧
     (∃ t, exec (.portIsolated n) s = .next t ∧
       t.rd F.FAB_PORT_STAT_ISOLATED n = (if s.on F.FAB_PORT_CTRL_ISOLATE n = true ∧ mine = [] then 1 else 0) ∧
       SameRegs s t [(F.FAB_PORT_STAT_ISOLATED, n.val), (F.FAB_PORT_STAT_RD_OUT, n.val), (F.FAB_PORT_STAT_WR_OUT, n.val)] ∧
       t = { s with regs := t.regs })))

/-! ### Signal-processing slices (R340-R354) -/

/-- Slice arithmetic (R342, R343, R346-R348). The accumulator that the word names takes the operation's exact result, limited to its 56 bits
and flagged when it is; movr moves a rounded and limited accumulator to a D register; nop changes neither. Each of them stores, when its word has a store, the
named D register, as it was, at its walker's address, and moves the walkers that its operands and its store step. -/
def Obligations.SliceArithmeticWritesItsAccumulator : Prop :=
  (∀ (n : Fin 1536) (s : State) (c : Instr) (op : Nat) (r : Int → Int → Int → Int → Int),
    (c, op) ∈ [(.mpy n, 1), (.mac n, 2), (.msu n, 3), (.clr n, 4), (.adda n, 5), (.suba n, 6), (.spsAbs n, 7), (.spsNeg n, 8), (.spsShl n, 9), (.spsShr n, 10), (.ldacc n, 11)] →
    (op = 1 → r = fun _ a b _ => 2 * a * b) → (op = 2 → r = fun i a b _ => i + 2 * a * b) → (op = 3 → r = fun i a b _ => i - 2 * a * b) →
    (op = 4 → r = fun _ _ _ _ => 0) → (op = 5 → r = fun i _ _ j => i + j) → (op = 6 → r = fun i _ _ j => i - j) →
    (op = 7 → r = fun i _ _ _ => if i < 0 then -i else i) → (op = 8 → r = fun i _ _ _ => -i) → (op = 9 → r = fun i _ _ _ => 2 * i) →
    (op = 10 → r = fun i _ _ _ => i / 2) → (op = 11 → r = fun _ a _ _ => a * 2 ^ 24) → SliceIssues s n op →
    let x := s.slice n
    let w := sliceWord s n (slicePC s n)
    let v := r (accVal x (sAcc w)) (operandVal s n x (sA w)) (operandVal s n x (sB w)) (accVal x (sB w % 4))
    ∃ t, exec c s = .next t ∧ SliceDone s t n 1 [(F.SPS_STATUS_OVF, n.val), (F.SPS_OVF_CNT_COUNT, n.val)] ∧
      accVal (t.slice n) (sAcc w) = limited (-(2 ^ 55)) (2 ^ 55 - 1) v ∧ (∀ i, i ≠ sAcc w → accVal (t.slice n) i = accVal x i) ∧
      (t.slice n).d = x.d ∧ (v < -(2 ^ 55) ∨ 2 ^ 55 ≤ v → t.rd F.SPS_STATUS_OVF n = 1) ∧
      (-(2 ^ 55) ≤ v → v < 2 ^ 55 → t.rd F.SPS_STATUS_OVF n = s.rd F.SPS_STATUS_OVF n) ∧
      SliceStores s t n w) ∧
  (∀ (n : Fin 1536) (s : State), SliceIssues s n 12 →
    let x := s.slice n
    let w := sliceWord s n (slicePC s n)
    let v := movrRound (s.rd F.SPS_STATUS_SCALE n) (accVal x (sAcc w))
    ∃ t, exec (.movr n) s = .next t ∧ SliceDone s t n 1 [(F.SPS_STATUS_LIMIT, n.val), (F.SPS_SAT_CNT_COUNT, n.val)] ∧
      (dVal (t.slice n) (sA w % 8)).toInt = limited (-(2 ^ 23)) (2 ^ 23 - 1) v ∧ (∀ i, i ≠ sA w % 8 → dVal (t.slice n) i = dVal x i) ∧
      (t.slice n).acc = x.acc ∧ (v < -(2 ^ 23) ∨ 2 ^ 23 ≤ v → t.rd F.SPS_STATUS_LIMIT n = 1) ∧
      (-(2 ^ 23) ≤ v → v < 2 ^ 23 → t.rd F.SPS_STATUS_LIMIT n = s.rd F.SPS_STATUS_LIMIT n) ∧ SliceStores s t n w) ∧
  (∀ (n : Fin 1536) (s : State), SliceIssues s n 0 →
    ∃ t, exec (.spsNop n) s = .next t ∧ SliceDone s t n 1 [] ∧ (t.slice n).acc = (s.slice n).acc ∧ (t.slice n).d = (s.slice n).d ∧
      SliceStores s t n (sliceWord s n (slicePC s n)))

/-- The sequence of a slice (R346, R349-R353). rep repeats the next word, loop opens a body, jmp and br move PC, br on its condition; waitm takes
a pending firing or waits for one; wset and wstep set and move a walker, scale sets the scaling mode, halt halts; in and out pass a
word through their FIFO, or wait for it, and go on when it serves them.

The control of a slice (R345, R351-R354). A firing sets PEND, completes a waitm that waits, or is lost and counted; an illegal word faults
its slice; START runs an IDLE or HALTED slice, STOP is taken at the instruction boundary, CLEAR_FAULT clears FAULT; a reset clears
the slice's registers and FIFOs; the memory port reads and writes the word it names; a FIFO takes and gives words in order. -/
def Obligations.SlicesRunTheirSequence : Prop :=
  ((∀ (n : Fin 1536) (s : State), SliceIssues s n 0x20 →
     ∃ t, exec (.rep n) s = .next t ∧ (t.slice n).rep = bits (sliceWord s n (slicePC s n)) 0 12 + 1 ∧ t.rd F.SPS_STATUS_IN_REP n = 1 ∧
       slicePC t n = (sliceAfter (slicePC s n) (s.slice n).loops).1 % 4096 ∧ SameRegs s t (sliceFields n) ∧ t = { s with regs := t.regs, fab := t.fab }) ∧
   (∀ (n : Fin 1536) (s : State), SliceIssues s n 0x21 →
     let w := sliceWord s n (slicePC s n)
     ∃ t, exec (.spsLoop n) s = .next t ∧ (t.slice n).loops = ⟨slicePC s n + 1, bits w 0 12, bits w 12 12 + 1, 0⟩ :: (s.slice n).loops ∧
       slicePC t n = (slicePC s n + 1) % 4096 ∧ SameRegs s t (sliceFields n) ∧ t = { s with regs := t.regs, fab := t.fab }) ∧
   (∀ (n : Fin 1536) (s : State), SliceIssues s n 0x22 →
     ∃ t, exec (.jmp n) s = .next t ∧ slicePC t n = bits (sliceWord s n (slicePC s n)) 0 12 ∧ (t.slice n).loops = (s.slice n).loops ∧
       SameRegs s t (sliceFields n) ∧ t = { s with regs := t.regs }) ∧
   (∀ (n : Fin 1536) (s : State), SliceIssues s n 0x23 →
     let w := sliceWord s n (slicePC s n)
     let v := accVal (s.slice n) (sAcc w)
     ∃ t, exec (.spsBr n) s = .next t ∧ (t.slice n).acc = (s.slice n).acc ∧
       ((bits w 21 3 = 0 ∧ v = 0) ∨ (bits w 21 3 = 1 ∧ v ≠ 0) ∨ (bits w 21 3 = 2 ∧ v < 0) ∨ (bits w 21 3 = 3 ∧ 0 ≤ v) → slicePC t n = bits w 0 12) ∧
       ((bits w 21 3 = 0 ∧ v ≠ 0) ∨ (bits w 21 3 = 1 ∧ v = 0) ∨ (bits w 21 3 = 2 ∧ 0 ≤ v) ∨ (bits w 21 3 = 3 ∧ v < 0) → SliceDone s t n 2 []) ∧
       (4 ≤ bits w 21 3 → slicePC t n = bits w 0 12 ∨ SliceDone s t n 2 [])) ∧
   (∀ (n : Fin 1536) (s : State), SliceIssues s n 0x24 →
     ∃ t, exec (.waitm n) s = .next t ∧
       (s.on F.SPS_STATUS_PEND n = true → t.rd F.SPS_STATUS_PEND n = 0 ∧ SliceDone s t n 1 [(F.SPS_STATUS_PEND, n.val)]) ∧
       (s.on F.SPS_STATUS_PEND n = false → sliceState t n = slWAIT ∧ t.rd F.SPS_STATUS_WAIT_ON n = 1 ∧ slicePC t n = slicePC s n ∧ t.fab = s.fab)) ∧
   (∀ (n : Fin 1536) (s : State), SliceIssues s n 0x25 →
     let w := sliceWord s n (slicePC s n)
     let k := (s.slice n).w (sAcc w)
     let v := bits w 0 11
     ∃ t, exec (.wset n) s = .next t ∧ SliceDone s t n 1 [] ∧ (∀ i, i ≠ sAcc w → (t.slice n).w i = (s.slice n).w i) ∧
       (t.slice n).w (sAcc w) = (if bits w 22 2 = 0 then { k with base := v } else if bits w 22 2 = 1 then { k with pos := v }
         else if bits w 22 2 = 2 then { k with lenM1 := v, pos := if k.pos ≤ v then k.pos else 0 } else { k with step := sext 8 w, mem := bit w 8 })) ∧
   (∀ (n : Fin 1536) (s : State), SliceIssues s n 0x26 →
     let w := sliceWord s n (slicePC s n)
     ∃ t, exec (.wstep n) s = .next t ∧ SliceDone s t n 1 [] ∧ (t.slice n).w (sAcc w) = ((s.slice n).w (sAcc w)).moved (sext 8 w) ∧
       (∀ i, i ≠ sAcc w → (t.slice n).w i = (s.slice n).w i)) ∧
   (∀ (n : Fin 1536) (s : State), SliceIssues s n 0x27 →
     ∃ t, exec (.scale n) s = .next t ∧ SliceDone s t n 1 [(F.SPS_STATUS_SCALE, n.val)] ∧ t.rd F.SPS_STATUS_SCALE n = bits (sliceWord s n (slicePC s n)) 0 2) ∧
   (∀ (n : Fin 1536) (s : State), SliceIssues s n 0x28 →
     ∃ t, exec (.spsHalt n) s = .next t ∧ sliceState t n = slHALTED ∧ slicePC t n = (sliceAfter (slicePC s n) (s.slice n).loops).1 % 4096 ∧
       SameRegs s t ((F.SPS_STATUS_STATE, n.val) :: sliceFields n)) ∧
   (∀ (n : Fin 1536) (s : State), SliceIssues s n 0x10 →
     let w := sliceWord s n (slicePC s n)
     let l := if bit (sB w) 0 = 0 then (s.slice n).in0 else (s.slice n).in1
     ∃ t, exec (.inFifo n) s = .next t ∧
       (l = [] → sliceState t n = slWAIT ∧ t.rd F.SPS_STATUS_WAIT_ON n = 2 ∧ slicePC t n = slicePC s n ∧ t.fab = s.fab) ∧
       (∀ v r, l = v :: r → SliceDone s t n 1 [] ∧ dVal (t.slice n) (sA w % 8) = v ∧
         (if bit (sB w) 0 = 0 then (t.slice n).in0 else (t.slice n).in1) = r)) ∧
   (∀ (n : Fin 1536) (s : State), SliceIssues s n 0x11 →
     let w := sliceWord s n (slicePC s n)
     let l := if bit (sB w) 0 = 0 then (s.slice n).out0 else (s.slice n).out1
     ∃ t, exec (.outFifo n) s = .next t ∧
       (16 ≤ l.length → sliceState t n = slWAIT ∧ t.rd F.SPS_STATUS_WAIT_ON n = 3 ∧ slicePC t n = slicePC s n ∧ t.fab = s.fab) ∧
       (l.length < 16 → SliceDone s t n 1 [] ∧ (if bit (sB w) 0 = 0 then (t.slice n).out0 else (t.slice n).out1) = l ++ [dVal (s.slice n) (sA w % 8)])) ∧
   (∀ (n : Fin 1536) (s t0 : State), sliceState s n = slWAIT → (s.rd F.SPS_STATUS_WAIT_ON n = 2 ∨ s.rd F.SPS_STATUS_WAIT_ON n = 3) → sliceDown s n = false →
     (sliceFifo s n (sliceWord s n (slicePC s n)) = none → exec (.sliceFifoResume n) s = .next s) ∧
     (sliceFifo s n (sliceWord s n (slicePC s n)) = some t0 → s.on F.SPS_CTRL_STOP n = false →
       ∃ t, exec (.sliceFifoResume n) s = .next t ∧ t.rd F.SPS_STATUS_WAIT_ON n = 0 ∧ SliceDone s t n 1 [(F.SPS_STATUS_STATE, n.val), (F.SPS_STATUS_WAIT_ON, n.val)] ∧
         (t.slice n).in0 = (t0.slice n).in0 ∧ (t.slice n).out0 = (t0.slice n).out0 ∧ (t.slice n).d = (t0.slice n).d))) ∧
  ((∀ (n : Fin 1536) (s : State),
     ((s.slice n).firings = 0 ∨ sliceDown s n = true → exec (.pendSet n) s = .next s) ∧
     (0 < (s.slice n).firings → sliceDown s n = false →
       ∃ t, exec (.pendSet n) s = .next t ∧ (t.slice n).firings = (s.slice n).firings - 1 ∧
         (sliceState s n = slWAIT → s.rd F.SPS_STATUS_WAIT_ON n = 1 → s.on F.SPS_CTRL_STOP n = false →
           SliceDone s t n 1 [(F.SPS_STATUS_STATE, n.val), (F.SPS_STATUS_WAIT_ON, n.val)] ∧ t.rd F.SPS_STATUS_WAIT_ON n = 0) ∧
         (sliceState s n ≠ slWAIT → s.on F.SPS_STATUS_PEND n = false → t.rd F.SPS_STATUS_PEND n = 1 ∧ SameRegs s t [(F.SPS_STATUS_PEND, n.val)]) ∧
         (sliceState s n ≠ slWAIT → s.on F.SPS_STATUS_PEND n = true → t.rd F.SPS_STATUS_MARK_OVR n = 1 ∧
           t.rd F.SPS_MARK_OVR_CNT_COUNT n = (s.rd F.SPS_MARK_OVR_CNT_COUNT n + 1) % 2 ^ 64))) ∧
   (∀ (n : Fin 1536) (s : State),
     (sLegal (s.slice n) (slicePC s n) (sliceWord s n (slicePC s n)) = true → exec (.sliceFault n) s = .next s) ∧
     (sliceState s n = slRUN → sliceDown s n = false → sLegal (s.slice n) (slicePC s n) (sliceWord s n (slicePC s n)) = false →
       ∃ t, exec (.sliceFault n) s = .next t ∧ sliceState t n = slFAULT ∧ SameRegs s t [(F.SPS_STATUS_STATE, n.val), (F.SPS_CTRL_STOP, n.val)] ∧
         t = { s with regs := t.regs })) ∧
   (∀ (n : Fin 1536) (s : State),
     (sliceState s n ≠ slIDLE → sliceState s n ≠ slHALTED → exec (.spsStart n) s = .next s) ∧
     (sliceDown s n = false → sliceState s n = slIDLE ∨ sliceState s n = slHALTED → ∃ t, exec (.spsStart n) s = .next t ∧ sliceState t n = slRUN ∧
       SameRegs s t [(F.SPS_STATUS_STATE, n.val)] ∧ t = { s with regs := t.regs }) ∧
     (∃ t, exec (.spsStop n) s = .next t ∧ t = { s with regs := t.regs } ∧
       ((s.slice n).rep = 0 → t.rd F.SPS_CTRL_STOP n = 0 ∧
         sliceState t n = (if sliceState s n = slRUN ∨ sliceState s n = slWAIT then slIDLE else sliceState s n)) ∧
       (0 < (s.slice n).rep → t.rd F.SPS_CTRL_STOP n = 1 ∧ sliceState t n = sliceState s n)) ∧
     (sliceState s n ≠ slFAULT → exec (.spsClearFault n) s = .next s) ∧
     (sliceState s n = slFAULT → ∃ t, exec (.spsClearFault n) s = .next t ∧ sliceState t n = slIDLE ∧ SameRegs s t [(F.SPS_STATUS_STATE, n.val)] ∧
       t = { s with regs := t.regs }) ∧
     (∃ t, exec (.srst n) s = .next t ∧ t.slice n = Slice.zero ∧ slicePC t n = 0 ∧ t.fab.dm = s.fab.dm ∧ t.fab.imem = s.fab.imem ∧
       (∀ m, m ≠ n.val → t.slice m = s.slice m) ∧
       sliceState t n = (if Tab.get false s.fab.auto n = true ∧ sliceDown s n = false then slRUN else slIDLE))) ∧
   (∀ (n : Fin 1536) (value : Word) (s : State),
     (∃ t, exec (.spsMemRead n) s = .next t ∧ t.outbox = .data (memPortWord s n) :: s.outbox ∧ t.fab = s.fab ∧ SameRegs s t [(F.SPS_MEM_ADDR_ADDR, n.val)]) ∧
     (s.rd F.SPS_MEM_ADDR_SPACE n = 0 → ∃ t, exec (.spsMemWrite n value) s = .next t ∧ t.rd F.SPS_STATUS_IMEM_REFUSED n = 1 ∧ t = { s with regs := t.regs } ∧
       SameRegs s t [(F.SPS_STATUS_IMEM_REFUSED, n.val)]) ∧
     (0 < s.rd F.SPS_MEM_ADDR_SPACE n → ∃ t, exec (.spsMemWrite n value) s = .next t ∧
       dmWord t n (s.rd F.SPS_MEM_ADDR_SPACE n - 1) (s.rd F.SPS_MEM_ADDR_ADDR n) = BitVec.ofNat 24 value.toNat ∧ SameRegs s t [(F.SPS_MEM_ADDR_ADDR, n.val)])) ∧
   (∀ (n : Fin 1536) (k : Fin 2) (v : SWord) (s : State), sliceDown s n = false →
     let i := if k.val = 0 then (s.slice n).in0 else (s.slice n).in1
     let o := if k.val = 0 then (s.slice n).out0 else (s.slice n).out1
     (16 ≤ i.length → exec (.fabricFifoHandshake n false k v) s = .next s) ∧
     (i.length < 16 → ∃ t, exec (.fabricFifoHandshake n false k v) s = .next t ∧ (if k.val = 0 then (t.slice n).in0 else (t.slice n).in1) = i ++ [v] ∧
       t.regs = s.regs ∧ t.outbox = s.outbox) ∧
     (o = [] → exec (.fabricFifoHandshake n true k v) s = .next s) ∧
     (∀ h r, o = h :: r → ∃ t, exec (.fabricFifoHandshake n true k v) s = .next t ∧ (if k.val = 0 then (t.slice n).out0 else (t.slice n).out1) = r ∧
       t.outbox = .data h.toNat :: s.outbox ∧ t.regs = s.regs)))

/-! ### Configuration and Mordant (R355-R380, R484) -/

/-- A configuration load (R364-R369, R484). CFG_LOAD_START is refused with the first cause that holds, or begins the load: the ports of its scope isolated,
BUSY 1. When every port is isolated, or too long a time has passed, the scope's boundaries freeze, its regions are LOADING and its clusters reset; then the
header is checked, then the signature, then each chunk; END of a
complete scope sets DONE and its regions' state. A check that fails, ABORT and a slave port's timeout end the load with their cause, and leave either the
scope as it was or the ochre image to come, whose own failure leaves the scope blank; RELEASE frees a frozen region; a slave port takes its words in order. -/
def Obligations.ConfigurationLoadsVerifyAndEnd : Prop :=
  (∀ s : State, s.inReset 0 0 = false →
    ∃ t, exec .cfgLoadStart s = .next t ∧
      (∀ c, loadRefusal s = some c → t.rd F.CFG_STATUS_REFUSED 0 = 1 ∧ t.rd F.CFG_STATUS_REFUSE_CAUSE 0 = c % 2 ^ F.CFG_STATUS_REFUSE_CAUSE.width ∧
        SameRegs s t [(F.CFG_STATUS_REFUSED, 0), (F.CFG_STATUS_REFUSE_CAUSE, 0)] ∧ t = { s with regs := t.regs }) ∧
      (loadRefusal s = none → t.rd F.CFG_STATUS_BUSY 0 = 1 ∧ t.rd F.CFG_STATUS_PHASE 0 = 1 ∧ t.rd F.CFG_PROGRESS_FRAMES 0 = 0 ∧
        t.rd F.CFG_LOAD_CNT_COUNT 0 = (s.rd F.CFG_LOAD_CNT_COUNT 0 + 1) % 2 ^ 64 ∧ (∀ r ∈ regionsOf (loadScope s), t.rd F.CFG_REGION_STATE r = s.rd F.CFG_REGION_STATE r ∧
          ∀ n ∈ portsOfRegion r, t.on F.FAB_PORT_CTRL_ISOLATE n = true) ∧
        ∃ l, t.conf.load = some l ∧ l.scope = loadScope s ∧ l.src = s.rd F.CFG_LOAD_SRC 0 ∧ l.isolating = true ∧ l.hdr = none)) ∧
  (∀ (timeout : Bool) (s : State),
    (s.conf.load = none → exec (.scopeIsolated timeout) s = .next s) ∧
    (∀ l, s.conf.load = some l → l.isolating = true → (timeout = true ∨ l.ports.all (fun n => s.on F.FAB_PORT_STAT_ISOLATED n) = true) →
      ∃ t, exec (.scopeIsolated timeout) s = .next t ∧ t.conf.load = some { l with isolating := false } ∧ t.rd F.CFG_STATUS_PHASE 0 = 2 ∧
        (∀ r ∈ regionsOf l.scope, t.rd F.CFG_REGION_STATE r = 2 ∧ Tab.get false t.conf.frozen r = true) ∧
        (∀ c ∈ clustersOf l.scope, t.inReset 2 c = true ∧ Tab.get false t.conf.clusters c = false) ∧
        (clustersOf l.scope = [] → t.conf.frames = s.conf.frames ∧ t.outbox = s.outbox ∧ t = { s with regs := t.regs, conf := t.conf, fab := t.fab })) ∧
    (∀ l, s.conf.load = some l → l.isolating = true → timeout = false → l.ports.all (fun n => s.on F.FAB_PORT_STAT_ISOLATED n) = false →
      exec (.scopeIsolated timeout) s = .next s)) ∧
  (∀ (ext : List Byte) (bad : Bool) (s s' : State) (l : Load) (bs : List Byte), s.conf.load = some l → l.isolating = false → l.hdr = none →
    imageBytes s l 0 4096 ext bad = (s', .bytes bs) →
    let h := headerOfBytes bs
    ∃ t, exec (.header ext bad) s = .next t ∧
      (headerCause l bs = 0 → t.conf.load = some { l with hdr := some h, part := (if h.part = 5 then 0 else h.part), pos := h.strOff, dimg := bs }) ∧
      (headerCause l bs ≠ 0 → t.conf.load = none ∧ t.rd F.CFG_STATUS_FAIL 0 = 1 ∧ t.rd F.CFG_FAIL_CAUSE 0 = headerCause l bs)) ∧
  (∀ (sigExt tableExt : List Byte) (bad : Bool) (s s1 s2 : State) (l : Load) (h : Header) (sig table : List Byte),
    s.conf.load = some l → l.hdr = some h → l.verified = false → imageBytes s l h.sigOff 8192 sigExt bad = (s1, .bytes sig) →
    imageBytes s1 l h.digOff (64 * h.chunks) tableExt bad = (s2, .bytes table) →
    let k := imageStep (showBytes s2 l (h.digOff + 64 * h.chunks)) l.dimg sig table h.part h.version
    ∃ t, exec (.signatureVerify sigExt tableExt bad) s = .next t ∧
      (k = 0 → t.conf.load = some { l with verified := true, table := table, dimg := shake256 (l.dimg ++ table) } ∧ t.rd F.CFG_STATUS_PHASE 0 = 3) ∧
      (k ≠ 0 → t.conf.load = none ∧ t.rd F.CFG_STATUS_FAIL 0 = 1 ∧ t.rd F.CFG_FAIL_CAUSE 0 = 3)) ∧
  (∀ (ext : List Byte) (bad : Bool) (s s1 : State) (l : Load) (h : Header) (bs : List Byte),
    let o := h.strOff + l.chunk * 65536
    let n := Nat.min 65536 (h.length - o)
    let s2 := showBytes s1 l (o + n)
    let x := runRecords false (65536 / 8 + 64) s2 { l with chunk := l.chunk + 1 } (l.rest ++ bs)
    s.conf.load = some l → l.hdr = some h → l.verified = true → l.chunk < h.chunks → imageBytes s l o n ext bad = (s1, .bytes bs) →
    (shake256 bs ≠ (l.table.drop (64 * l.chunk)).take 64 →
      ∃ t, exec (.chunkVerified ext bad) s = .next t ∧ t.conf.load = none ∧ t.rd F.CFG_STATUS_FAIL 0 = 1 ∧ t.rd F.CFG_FAIL_CAUSE 0 = 4 ∧ t.conf.frames = s1.conf.frames) ∧
    (shake256 bs = (l.table.drop (64 * l.chunk)).take 64 →
      (x.2.2 = .done → scopeComplete x.2.1 = true →
        ∃ t, exec (.chunkVerified ext bad) s = .next t ∧ t.conf.load = none ∧ t.rd F.CFG_STATUS_DONE 0 = 1 ∧ t.rd F.CFG_STATUS_BUSY 0 = 0 ∧
          (∀ r ∈ regionsOf x.2.1.scope, t.rd F.CFG_REGION_STATE r = 1)) ∧
      (x.2.2 = .more → x.2.1.chunk ≠ h.chunks → exec (.chunkVerified ext bad) s = .next (setLoad x.1 x.2.1)))) ∧
  (∀ (s : State) (c : Instr) (cause : Nat), (c = .loadTimeout ∧ cause = 7) ∨ (c = .abort ∧ cause = 9) →
    (s.conf.load = none → exec c s = .next s) ∧
    (∀ l, s.conf.load = some l → (c = .loadTimeout → (l.src = 1 ∨ l.src = 2) ∧ l.isolating = false) →
      ∃ t, exec c s = .next t ∧ t.conf.load = none ∧ t.rd F.CFG_STATUS_FAIL 0 = 1 ∧ t.rd F.CFG_FAIL_CAUSE 0 = cause ∧
        t.rd F.CFG_FAIL_CNT_COUNT 0 = (s.rd F.CFG_FAIL_CNT_COUNT 0 + 1) % 2 ^ 64 ∧ t.conf.frames = s.conf.frames ∧
        (0x23000001, scopeQuarter l.scope) ∈ t.dict.owed ∧
        (s.rd F.CFG_PROGRESS_FRAMES 0 = 0 → l.had ≠ 0 → t.rd F.CFG_STATUS_BUSY 0 = 0 ∧ t.rd F.CFG_STATUS_PHASE 0 = 0 ∧
          (∀ r ∈ regionsOf l.scope, t.rd F.CFG_REGION_STATE r = bit l.had r)) ∧
        (0 < s.rd F.CFG_PROGRESS_FRAMES 0 ∨ l.had = 0 → t.rd F.CFG_STATUS_PHASE 0 = 4 ∧ t.conf.fallback = some (l.scope, l.boot, l.ports)))) ∧
  (∀ s : State, s.conf.fallback = none → exec .ochreFallback s = .next s) ∧
  (∀ (s : State) (scope : Nat) (boot : Bool) (ports : List Nat), s.conf.fallback = some (scope, boot, ports) →
    let s1 := (s.wr F.CFG_STATUS_FALLBACK 0 1).bump C.CFG_FALLBACK_CNT 0 1
    let sc := if boot then 2 ^ 64 - 1 else scope
    let h := headerOfBytes (nvRead s1 nvOchre 4096)
    ∃ t, exec .ochreFallback s = .next t ∧ t.rd F.CFG_STATUS_FALLBACK 0 = 1 ∧ t.conf.fallback = none ∧ t.rd F.CFG_STATUS_PHASE 0 = 0 ∧
      t.rd F.CFG_FALLBACK_CNT_COUNT 0 = (s.rd F.CFG_FALLBACK_CNT_COUNT 0 + 1) % 2 ^ 64 ∧
      (nvImageStep s1 nvOchre 5 ≠ 0 → t.rd F.CFG_STATUS_OCHRE_FAIL 0 = 1 ∧ t.dict.fault = true ∧ (∀ r ∈ regionsOf sc, t.rd F.CFG_REGION_STATE r = 0)) ∧
      (nvImageStep s1 nvOchre 5 = 0 → ∀ x1 x2,
        runRecords true (h.length / 8) s1 { src := 0, addr := nvOchre, scope := sc, keep := false, boot := boot, isolating := false, recv := [], nibble := none, hdr := some h, verified := true, dimg := nvImageDigest s1 nvOchre, table := [], chunk := 0, part := 0, ports := ports, written := [], cleared := [], had := 0, rest := [], pos := h.strOff } (ochreStream s1 h) = (x1, x2, .done) →
        ∀ r ∈ regionsOf sc, t.rd F.CFG_REGION_STATE r = 3 ∧ Tab.get false t.conf.frozen r = true)) ∧
  (∀ (r : Fin 32) (s : State),
    (s.rd F.CFG_REGION_STATE r ≠ 3 → exec (.release r) s = .next s) ∧
    (s.rd F.CFG_REGION_STATE r = 3 → ∃ t, exec (.release r) s = .next t ∧ t.rd F.CFG_REGION_STATE r = 0 ∧ Tab.get false t.conf.frozen r = false)) ∧
  (∀ (parallel rdy : Bool) (value : BitVec 32) (s : State),
    let p := if parallel then 2 else 1
    (rdy = false → exec (.slavePortWord parallel value rdy) s = .next s) ∧
    (rdy = true → slaveAccepts s p = false → ∃ t, exec (.slavePortWord parallel value rdy) s = .next t ∧ t = { s with regs := t.regs } ∧
      t.rd F.CFG_PORT_DISCARD_CNT_COUNT 0 = (s.rd F.CFG_PORT_DISCARD_CNT_COUNT 0 + 1) % 2 ^ 64) ∧
    (∀ l, rdy = true → slaveAccepts s p = true → s.conf.load = some l → ∃ t, exec (.slavePortWord parallel value rdy) s = .next t ∧
      (parallel = true → t.conf.load = some { l with recv := l.recv ++ bytesLE 4 value.toNat } ∧
        t.rd F.CFG_PROGRESS_BYTES 0 = (l.recv.length + 4) % 2 ^ F.CFG_PROGRESS_BYTES.width) ∧
      (parallel = false → l.nibble = none → t.conf.load = some { l with nibble := some (value.toNat % 16) }) ∧
      (∀ x, parallel = false → l.nibble = some x →
        t.conf.load = some { l with nibble := none, recv := l.recv ++ [BitVec.ofNat 8 (x + value.toNat % 16 * 16)] }))) ∧
  (∀ s : State, (s.conf.load = none → exec .sspCsRise s = .next s) ∧
    (∀ l, s.conf.load = some l → l.nibble = none → exec .sspCsRise s = .next s) ∧
    (∀ l x, s.conf.load = some l → l.nibble = some x → ∃ t, exec .sspCsRise s = .next t ∧ t.conf.load = some { l with nibble := none } ∧
      t.rd F.CFG_PORT_DISCARD_CNT_COUNT 0 = (s.rd F.CFG_PORT_DISCARD_CNT_COUNT 0 + 1) % 2 ^ 64))

/-- Mordant (R374-R378). A check counts its group and the scan goes on, group 0 following the last with its cover counted; a group that
agrees with its signature stays as it is; one that differs, without refetch, is counted, flagged and marked failed; the watchdog and
a mismatch of the control register's copies restart the scan and fire the Mordant heat, the copies' majority standing; a read of the log
takes its oldest record. -/
def Obligations.MordantChecksGroupsInOrder : Prop :=
  (∀ (faults : List (Nat × Nat)) (mismatch sigEcc : Bool) (coverUs : Nat) (s : State),
    let g := s.rd F.MDT_POS_GROUP 0
    (s.inReset 0 0 = true → exec (.groupCheck faults mismatch sigEcc coverUs) s = .next s) ∧
    (s.inReset 0 0 = false → ∃ t, exec (.groupCheck faults mismatch sigEcc coverUs) s = .next t ∧
      (s.on F.MDT_CTRL_EN 0 = false → t.rd F.MDT_STATUS_RUNNING 0 = 0 ∧ SameRegs s t [(F.MDT_STATUS_RUNNING, 0)] ∧ t = { s with regs := t.regs }) ∧
      (s.on F.MDT_CTRL_EN 0 = true → t.rd F.MDT_STATUS_RUNNING 0 = 1 ∧
        (g + 1 < 14328 → t.rd F.MDT_POS_GROUP 0 = g + 1 ∧ t.rd F.MDT_COVER_CNT_COUNT 0 = s.rd F.MDT_COVER_CNT_COUNT 0) ∧
        (14328 ≤ g + 1 → t.rd F.MDT_POS_GROUP 0 = 0 ∧ t.rd F.MDT_POS_COVER_US 0 = coverUs % 2 ^ F.MDT_POS_COVER_US.width ∧
          t.rd F.MDT_COVER_CNT_COUNT 0 = (s.rd F.MDT_COVER_CNT_COUNT 0 + 1) % 2 ^ 64) ∧
        (groupLoading s g = true → t.conf = s.conf ∧ t.rd F.MDT_GROUP_CNT_COUNT 0 = s.rd F.MDT_GROUP_CNT_COUNT 0) ∧
        (groupLoading s g = false → t.rd F.MDT_GROUP_CNT_COUNT 0 = (s.rd F.MDT_GROUP_CNT_COUNT 0 + 1) % 2 ^ 64) ∧
        (groupLoading s g = false → faults = [] → mismatch = false → sigEcc = false → groupCrc s g = Tab.get 0 s.conf.sigs g →
          t.conf = s.conf ∧ t.rd F.MDT_STATUS_UE 0 = s.rd F.MDT_STATUS_UE 0) ∧
        (groupLoading s g = false → mismatch = true → sigEcc = false → Tab.get 0 s.conf.failed g ≠ 2 → s.on F.MDT_CTRL_REFETCH_EN 0 = false →
          t.rd F.MDT_STATUS_UE 0 = 1 ∧ t.rd F.MDT_UE_CNT_COUNT 0 = (s.rd F.MDT_UE_CNT_COUNT 0 + 1) % 2 ^ 64 ∧ Tab.get 0 t.conf.failed g ≠ 0)))) ∧
  (∀ s : State, (s.on F.MDT_CTRL_EN 0 = false → exec .mordantWatchdog s = .next s) ∧
    (s.inReset 0 0 = false → s.on F.MDT_CTRL_EN 0 = true → ∃ t, exec .mordantWatchdog s = .next t ∧ t.rd F.MDT_STATUS_WDOG 0 = 1 ∧
      t.rd F.MDT_POS_GROUP 0 = 0 ∧ t.rd F.MDT_RESET_CNT_COUNT 0 = (s.rd F.MDT_RESET_CNT_COUNT 0 + 1) % 2 ^ 64 ∧ t.rd F.PAC_HEAT_STAT_FIRED 14 = 1 ∧
      t.conf = s.conf)) ∧
  (∀ (a b c : BitVec 16) (s : State), (a = b → b = c → exec (.tmrMismatch a b c) s = .next s) ∧
    (¬ (a = b ∧ b = c) → s.inReset 0 0 = false → ∃ t, exec (.tmrMismatch a b c) s = .next t ∧ t.rd F.MDT_STATUS_TMR_MISMATCH 0 = 1 ∧ t.rd F.MDT_POS_GROUP 0 = 0 ∧
      t.rd F.PAC_HEAT_STAT_FIRED 14 = 1 ∧
      (a = b ∨ a = c → t.rd F.MDT_CTRL_EN 0 = bits a.toNat F.MDT_CTRL_EN.lo 1 ∧
        t.rd F.MDT_CTRL_WDOG 0 = bits a.toNat F.MDT_CTRL_WDOG.lo F.MDT_CTRL_WDOG.width) ∧
      (b = c → t.rd F.MDT_CTRL_EN 0 = bits b.toNat F.MDT_CTRL_EN.lo 1))) ∧
  (∀ s : State, ∃ t, exec .mdtLogPop s = .next t ∧ t.conf.mdtLog = s.conf.mdtLog.drop 1 ∧ t.outbox = .data (mdtLogWord s) :: s.outbox ∧ t.regs = s.regs ∧
    (s.conf.mdtLog = [] → t.outbox = .data 0 :: s.outbox))

/-! ### Lanes, the PCIe endpoint and the CXL ports (R381-R403) -/

/-- Lanes (R382-R391). A lane that may train searches when a receiver is found, at the first rate its port offers, from the settings NV holds or in full;
a search stores its settings and figure of merit, which decide whether the lane awaits lock, searches in full or passes to the next rate; lock completes a rate,
and the last lane of the chosen group makes the port ACTIVE; loss of lock is counted and takes a Kamrus port down; a lane sleeps and wakes per direction, with an idle marker and a wake pattern. -/
def Obligations.LanesTrainSleepAndWake : Prop :=
  (∀ (l : Fin 144) (s : State),
    (laneEn s l = false ∨ 1 < s.rd F.LNE_STAT_STATE l → ∀ found, exec (.receiverDetect l found) s = .next s) ∧
    (laneEn s l = true → s.rd F.LNE_STAT_STATE l ≤ 1 →
      (∃ t, exec (.receiverDetect l false) s = .next t ∧ t.rd F.LNE_STAT_STATE l = 1 ∧ SameRegs s t [(F.LNE_STAT_STATE, l.val)] ∧ t = { s with regs := t.regs }) ∧
      (∃ t, exec (.receiverDetect l true) s = .next t ∧ t.rd F.LNE_STAT_STATE l = 2 ∧
        t.rd F.LNE_STAT_RATE l = (if l.val < 96 then firstRate s (portOfLane l) else 0) ∧
        t.rd F.LNE_STAT_HIST_USED l =
          b2n (!(s.on F.LNE_CTRL_FORCE_FULL l) && (Tab.get none s.lanes.recs (l * 4 + (if l.val < 96 then firstRate s (portOfLane l) else 0))).isSome) ∧
        (l.val < 96 → t.rd F.KMR_STATUS_STATE (portOfLane l) = if s.rd F.KMR_STATUS_STATE (portOfLane l) = 0 then 1 else s.rd F.KMR_STATUS_STATE (portOfLane l)) ∧
        SameRegs s t ([(F.LNE_STAT_STATE, l.val), (F.LNE_STAT_RATE, l.val), (F.LNE_STAT_HIST_USED, l.val), (F.LNE_EQ_CTLE, l.val), (F.LNE_EQ_PRESET, l.val),
          (F.LNE_EQ_DFE, l.val)] ++ if l.val < 96 then [(F.KMR_STATUS_STATE, portOfLane l)] else []) ∧ t = { s with regs := t.regs, lanes := t.lanes }))) ∧
  (∀ (l : Fin 144) (s : State), (s.rd F.LNE_STAT_STATE l ≠ 7 → exec (.laneRetry l) s = .next s) ∧
    (laneEn s l = true → s.rd F.LNE_STAT_STATE l = 7 → ∃ t, exec (.laneRetry l) s = .next t ∧
      t.rd F.LNE_RETRAIN_CNT_COUNT l = (s.rd F.LNE_RETRAIN_CNT_COUNT l + 1) % 2 ^ 64 ∧ t.rd F.LNE_STAT_STATE l = (if l.val < 96 then 2 else 1) ∧
      (l.val < 96 → t.rd F.LNE_STAT_RATE l = firstRate s (portOfLane l)))) ∧
  (∀ (l : Fin 144) (fom : Fin 256) (eq : Word) (offered : Bool) (s : State),
    let full := Tab.get false s.lanes.full l
    let r := s.rd F.LNE_STAT_RATE l
    (s.rd F.LNE_STAT_STATE l ≠ 2 → exec (.laneSearchDone l fom eq offered) s = .next s) ∧
    (laneEn s l = true → s.rd F.LNE_STAT_STATE l = 2 → ∃ t, exec (.laneSearchDone l fom eq offered) s = .next t ∧
      (offered = true → t.rd F.LNE_STAT_FOM l = fom) ∧
      (offered = true → full = false → inChosen s l = false → fom < s.rd F.LNE_THRESH_FOM_GOOD l →
        t.rd F.LNE_STAT_STATE l = 2 ∧ Tab.get false t.lanes.full l = true ∧ t.lanes.kept = s.lanes.kept) ∧
      (offered = true → full = true ∨ inChosen s l = true ∨ s.rd F.LNE_THRESH_FOM_GOOD l ≤ fom →
        Tab.get 0 t.lanes.kept (l * 4 + r) = eq.toNat ∧ (s.rd F.LNE_THRESH_FOM_MIN l ≤ fom → t.rd F.LNE_STAT_STATE l = 3 ∧ t.rd F.LNE_STAT_RATE l = r)) ∧
      (offered = false ∨ (inChosen s l = false ∧ full = true ∧ fom < s.rd F.LNE_THRESH_FOM_MIN l) →
        (96 ≤ l.val → r < 3 → t.rd F.LNE_STAT_STATE l = 2 ∧ t.rd F.LNE_STAT_RATE l = r + 1) ∧
        (96 ≤ l.val → 3 ≤ r → t.rd F.LNE_STAT_STATE l = 7) ∧
        (∀ n, l.val < 96 → nextRate s (portOfLane l) r = some n → t.rd F.LNE_STAT_STATE l = 2 ∧ t.rd F.LNE_STAT_RATE l = n) ∧
        (l.val < 96 → nextRate s (portOfLane l) r = none → lockedSome s l = false → t.rd F.LNE_STAT_STATE l = 7)))) ∧
  (∀ (l : Fin 144) (s : State),
    let p := portOfLane l
    let r := s.rd F.LNE_STAT_RATE l
    (s.rd F.LNE_STAT_STATE l ≠ 3 → exec (.blockLock l) s = .next s) ∧
    (laneEn s l = true → s.rd F.LNE_STAT_STATE l = 3 → ∃ t, exec (.blockLock l) s = .next t ∧
      t.rd F.LNE_STAT_POL_INV l = b2n (Config.laneInverted l) ∧
      (96 ≤ l.val → t.rd F.LNE_STAT_STATE l = 4 ∧ SameRegs s t [(F.LNE_STAT_STATE, l.val), (F.LNE_STAT_POL_INV, l.val)] ∧ t = { s with regs := t.regs }) ∧
      (l.val < 96 → inChosen s l = false → (t.kport p).own = addMaskBit (s.kport p).own r (l % 8) ∧
        (nextRate s p r = none → t.rd F.LNE_STAT_STATE l = 4 ∨ (t.rd F.LNE_STAT_STATE l = 5 ∧ searchOver t p = true)) ∧
        (∀ n, nextRate s p r = some n → t.rd F.LNE_STAT_STATE l = 2 ∧ t.rd F.LNE_STAT_RATE l = n)) ∧
      (l.val < 96 → inChosen s l = true → s.rd F.KMR_STATUS_STATE p = 2 →
        (∀ i ∈ groupLanes s p, laneOf p i ≠ l → s.rd F.LNE_STAT_STATE (laneOf p i) = 4) → t.rd F.KMR_STATUS_STATE p = 3))) ∧
  (∀ (l : Fin 144) (fom : Fin 256) (s : State), (s.rd F.LNE_STAT_STATE l ≠ 6 ∨ s.on F.LNE_STAT_RX_ASLEEP l = true → exec (.lockLoss l fom) s = .next s) ∧
    (s.rd F.LNE_STAT_STATE l = 6 → s.on F.LNE_STAT_RX_ASLEEP l = false → laneDown s l = false → ∃ t, exec (.lockLoss l fom) s = .next t ∧
      t.rd F.LNE_LOCK_LOSS_CNT_COUNT l = (s.rd F.LNE_LOCK_LOSS_CNT_COUNT l + 1) % 2 ^ 64 ∧
      (96 ≤ l.val → t.rd F.LNE_STAT_FOM l = fom ∧ t.rd F.LNE_STAT_STATE l = 2 ∧ t.rd F.LNE_RETRAIN_CNT_COUNT l = (s.rd F.LNE_RETRAIN_CNT_COUNT l + 1) % 2 ^ 64) ∧
      (l.val < 96 → portActive s (portOfLane l) = true → t.rd F.KMR_STATUS_STATE (portOfLane l) = b2n (s.on F.KMR_CTRL_EN (portOfLane l)) ∧ t.rd F.KMR_STATUS_DOWN_EVT (portOfLane l) = 1))) ∧
  (∀ (l : Fin 96) (s : State),
    let may := groupRx s l && s.on F.LNE_CTRL_TX_SLEEP_EN l && !(s.on F.KMR_CTRL_SCHED_EN (portOfLane l)) &&
      decide (bit (s.kport (portOfLane l)).theirSleep (l % 8) = 1) && portIdle s (portOfLane l)
    (may = false → exec (.txSleep l) s = .next s) ∧
    (may = true → ∃ t, exec (.txSleep l) s = .next t ∧ t.rd F.LNE_STAT_TX_ASLEEP l = 1 ∧ SameRegs s t [(F.LNE_STAT_TX_ASLEEP, l.val)] ∧
      t.outbox = .lanePattern l false :: s.outbox ∧ t = { s with regs := t.regs, outbox := t.outbox })) ∧
  (∀ (l : Fin 96) (s : State),
    let may := groupRx s l && s.on F.LNE_STAT_TX_ASLEEP l && (s.on F.KMR_CTRL_SCHED_EN (portOfLane l) || !(portIdle s (portOfLane l)))
    (may = false → exec (.txWake l) s = .next s) ∧
    (may = true → ∃ t, exec (.txWake l) s = .next t ∧ t.rd F.LNE_STAT_TX_ASLEEP l = 0 ∧ t.rd F.LNE_WAKE_CNT_COUNT l = (s.rd F.LNE_WAKE_CNT_COUNT l + 1) % 2 ^ 64 ∧
      t.outbox = .lanePattern l true :: s.outbox ∧ t = { s with regs := t.regs, outbox := t.outbox })) ∧
  (∀ (l : Fin 96) (s : State), (groupRx s l = false → exec (.idleMarker l) s = .next s ∧ exec (.wakePattern l) s = .next s ∧ exec (.wakeTimeout l) s = .next s) ∧
    (groupRx s l = true → s.on F.LNE_CTRL_RX_SLEEP_EN l = true →
      ∃ t, exec (.idleMarker l) s = .next t ∧ t.rd F.LNE_STAT_RX_ASLEEP l = 1 ∧ SameRegs s t [(F.LNE_STAT_RX_ASLEEP, l.val)] ∧ t = { s with regs := t.regs }) ∧
    (groupRx s l = true → ∃ t, exec (.wakePattern l) s = .next t ∧ t.rd F.LNE_STAT_RX_ASLEEP l = 0 ∧ SameRegs s t [(F.LNE_STAT_RX_ASLEEP, l.val)] ∧
      t = { s with regs := t.regs }) ∧
    (groupRx s l = true → s.on F.LNE_STAT_RX_ASLEEP l = true →
      ∃ t, exec (.wakeTimeout l) s = .next t ∧ t.rd F.KMR_STATUS_STATE (portOfLane l) = b2n (s.on F.KMR_CTRL_EN (portOfLane l)) ∧ t.rd F.KMR_STATUS_DOWN_EVT (portOfLane l) = 1))

/-- The PCIe port (R392-R398). Configuration requests read and write the function's space, a retry before the hub is loaded; a function-level reset
empties the translation cache and the space; the link comes up and goes down with its lanes; translations enter the cache, invalidations take them out at once and complete when no transfer uses them;
a page request group's response frees the group. -/
def Obligations.PciePortFollowsTheHost : Prop :=
  (∀ (dw : Fin 1024) (write : Bool) (v : BitVec 32) (be : Fin 16) (s : State),
    let bytes := bit be 0 * 0xFF + bit be 1 * 0xFF00 + bit be 2 * 0xFF0000 + bit be 3 * 0xFF000000
    let m := cfgMask s dw &&& bytes
    (s.inReset 0 0 = true → exec (.configurationRequest dw write v be) s = .next (s.emit .error)) ∧
    (s.inReset 0 0 = false → s.conf.hubLoaded = false → exec (.configurationRequest dw write v be) s = .next (s.emit .configRetry)) ∧
    (s.inReset 0 0 = false → s.conf.hubLoaded = true →
      (write = false → exec (.configurationRequest dw write v be) s = .next (s.emit (.data (cfgRead s dw)))) ∧
      (write = true → dw.val = 0x1E → bit (v.toNat &&& bytes) 15 = 1 → exec (.configurationRequest dw write v be) s = exec .functionLevelReset s) ∧
      (write = true → dw.val ≠ 0x1E → dw.val ≠ 0x11 → dw.val ≠ 0x91 → ∃ t, exec (.configurationRequest dw write v be) s = .next t ∧
        cfgRead t dw = (cfgRead s dw &&& (2 ^ 32 - 1 - m)) ||| (v.toNat &&& m) ∧ (∀ d, d ≠ dw.val → cfgRead t d = cfgRead s d) ∧
        t.rd F.PCI_STATUS_BME 0 = bit (cfgRead t 1) 2 ∧ t.rd F.PCI_STATUS_ATS_EN 0 = bit (cfgRead t 0xA1) 31 ∧ t.rd F.PCI_STATUS_PRI_EN 0 = bit (cfgRead t 0xB1) 0 ∧
        SameRegs s t [(F.PCI_STATUS_BME, 0), (F.PCI_STATUS_D3, 0), (F.PCI_STATUS_ATS_EN, 0), (F.PCI_STATUS_PRI_EN, 0)] ∧ t = { s with regs := t.regs, pci := t.pci }))) ∧
  (∀ s : State, ∃ t, exec .functionLevelReset s = .next t ∧ t.pci.atc = [] ∧ t.pci.asked = [] ∧ t.pci.groups = [] ∧ t.pci.cfg = [] ∧ t.pci.inval = [] ∧
    t.rd F.PCI_STATUS_FLR 0 = 1 ∧ t.rd F.PCI_STATUS_BME 0 = 0 ∧ t.rd F.PCI_ATC_STAT_ENTRIES 0 = 0 ∧ t.rd F.PCI_ATC_STAT_PRQ_OUT 0 = 0) ∧
  (∀ (speed : Fin 8) (width : Fin 32) (flit : Bool) (ltssm : Fin 64) (s : State),
    (s.inReset 0 0 = true → exec (.pcieLinkUp speed width flit ltssm) s = .next s) ∧
    (s.inReset 0 0 = false → ∃ t, exec (.pcieLinkUp speed width flit ltssm) s = .next t ∧ t.rd F.PCI_STATUS_LINK_UP 0 = 1 ∧ t.rd F.PCI_STATUS_SPEED 0 = speed ∧
      t.rd F.PCI_STATUS_WIDTH 0 = width ∧ t.rd F.PCI_STATUS_FLIT 0 = b2n flit ∧ t.rd F.PCI_STATUS_LTSSM 0 = ltssm ∧
      (∀ i, i < 16 → i < width.val → s.on F.LNE_CTRL_EN (96 + i) = true → t.rd F.LNE_STAT_STATE (96 + i) = 6) ∧ t = { s with regs := t.regs })) ∧
  (∀ s : State, (s.on F.PCI_STATUS_LINK_UP 0 = false → exec .pcieLinkDown s = .next s) ∧
    (s.on F.PCI_STATUS_LINK_UP 0 = true → ∃ t, exec .pcieLinkDown s = .next t ∧ t.rd F.PCI_STATUS_LINK_UP 0 = 0 ∧ t.rd F.PCI_STATUS_LINK_DOWN 0 = 1 ∧
      t.rd F.PCI_STATUS_SPEED 0 = 0 ∧ t.rd F.PCI_STATUS_WIDTH 0 = 0 ∧ (∀ i, i < 16 → s.on F.LNE_CTRL_EN (96 + i) = true → t.rd F.LNE_STAT_STATE (96 + i) = 1) ∧
      (s.on F.PCI_CTRL_LINK_EVT_EN 0 = true → t.outbox = .mc F.PCI_STATUS_LINK_DOWN 0 :: s.outbox) ∧
      t = { s with regs := t.regs, outbox := t.outbox, dict := { s.dict with owed := s.dict.owed ++ [(0x2D000001, 4)] } })) ∧
  (∀ (v : Word) (s : State), exec (.pciMsixRaise v) s = .next (s.emit (.msix (v.toNat % 256)))) ∧
  (∀ (page : Nat) (write invalidated : Bool) (s : State),
    (s.pci.asked.contains page = false → exec (.translationCompletion page write invalidated) s = .next s) ∧
    (s.pci.asked.contains page = true → ∃ t, exec (.translationCompletion page write invalidated) s = .next t ∧
      (invalidated = true → t.pci = s.pci ∧ t.outbox = .atsRequest page :: s.outbox ∧ t.rd F.PCI_ATS_REQ_CNT_COUNT 0 = (s.rd F.PCI_ATS_REQ_CNT_COUNT 0 + 1) % 2 ^ 64) ∧
      (invalidated = false → t.pci.asked = s.pci.asked.filter (fun x => decide (x ≠ page)) ∧ t.pci.atc = atcInsert s.pci.atc ⟨page, write, pinnedPage s page⟩ ∧
        (s.pci.atc.length < 4096 → ⟨page, write, pinnedPage s page⟩ ∈ t.pci.atc) ∧ t.rd F.PCI_ATC_STAT_ENTRIES 0 = t.pci.atc.length % 2 ^ 13 ∧
        t.outbox = s.outbox))) ∧
  (∀ (page pages : Nat) (s : State), ∃ t, exec (.atsInvalidate page pages) s = .next t ∧
    (∀ e, e ∈ t.pci.atc ↔ e ∈ s.pci.atc ∧ ¬ (page ≤ e.page ∧ e.page < page + pages)) ∧ t.rd F.PCI_ATC_STAT_ENTRIES 0 = t.pci.atc.length % 2 ^ 13 ∧
    t.rd F.PCI_INVAL_CNT_COUNT 0 = (s.rd F.PCI_INVAL_CNT_COUNT 0 + 1) % 2 ^ 64 ∧ (hostUsers s page pages = [] → .invalidated page pages ∈ t.outbox) ∧
    (hostUsers s page pages ≠ [] → ⟨page, pages, hostUsers s page pages⟩ ∈ t.pci.inval) ∧
    ((∃ e ∈ s.pci.atc, e.locked = true ∧ page ≤ e.page ∧ e.page < page + pages) → t.rd F.PCI_STATUS_PIN_INVAL 0 = 1 ∧ .mc F.PCI_STATUS_PIN_INVAL 0 ∈ t.outbox)) ∧
  (∀ (group : Fin 512) (success : Bool) (s : State),
    ((∀ e ∈ s.pci.groups, e.1 ≠ group.val) → ∃ t, exec (.pageRequestGroupResponse group success) s = .next t ∧
      t.rd F.PCI_ERR_CNT_COUNT 0 = (s.rd F.PCI_ERR_CNT_COUNT 0 + 1) % 2 ^ 64 ∧ t = { s with regs := t.regs }) ∧
    (∀ e, s.pci.groups.find? (fun x => decide (x.1 = group.val)) = some e → e.2 = none → s.streams.all (fun x => !x.2.wantsGroup) = true →
      ∃ t, exec (.pageRequestGroupResponse group success) s = .next t ∧ t.pci.groups = s.pci.groups.filter (fun x => decide (x.1 ≠ group.val)) ∧
        t.rd F.PCI_ATC_STAT_PRQ_OUT 0 = t.pci.groups.length % 2 ^ F.PCI_ATC_STAT_PRQ_OUT.width ∧ t = { s with regs := t.regs, pci := t.pci }))

/-! ### The object dictionary and the field ports (R405-R422) -/

/-- Transactions (R405-R407, R410, R418-R420). One that fails answers its abort code and changes nothing; unknown operations, objects and subindexes, writes
of what is read-only and reads of what is write-only fail with the codes of R407; an upload answers the object's value. Each path answers in
its own way: the field ports from PREOP on, the mailbox by its response buffer, a Kamrus node by a cell, to which only an entitled node has a right. -/
def Obligations.DictionaryServesItsPaths : Prop :=
  (∀ (s : State) (path max : Nat) (q : DReq),
    let r := dExec s path q max
    let u := settleAL s
    (r.2.abort ≠ 0 → r.1 = u) ∧ r.2.data.length ≤ max ∧
    (q.op = 0 ∨ 5 < q.op → r.2.abort = 0x06010000) ∧
    (objHead q.idx = none → q.op = 1 ∨ (q.op = 2 ∧ q.data.length = q.len) ∨ q.op = 3 ∨ q.op = 4 ∨ q.op = 5 → r.2.abort = 0x06020000) ∧
    ((objHead q.idx).isSome = true → subInfo q.idx q.sub = none → q.op = 1 ∨ (q.op = 2 ∧ q.data.length = q.len) ∨ q.op = 3 ∨ q.op = 4 → r.2.abort = 0x06090011) ∧
    (∀ d, (objHead q.idx).isSome = true → subInfo q.idx q.sub = some d →
      (q.op = 2 → q.data.length = q.len → d.acc = 0 ∨ d.acc = 4 → r.2.abort = 0x06010002) ∧ (q.op = 1 → d.acc = 5 → r.2.abort = 0x06010001)) ∧
    (∀ p, q.op = 1 → (subRead u q.idx q.sub q.off max).2 = .ok p → p.data.length ≤ max → r.2.abort = 0 ∧ r.2.data = p.data ∧ r.2.total = p.total)) ∧
  (∀ (c : Instr) (op : Nat) (path : DPath) (s : State),
    (c = .upload path ∧ op = 1) ∨ (c = .download path ∧ op = 2) ∨ (c = .uploadCa path ∧ op = 3) ∨ (c = .downloadCa path ∧ op = 4) ∨ (c = .objInfo path ∧ op = 5) →
    (hubDown s = true ∨ s.pwr.mc = false → (∀ p k, path ≠ .kamrus p k) → exec c s = .next s) ∧
    (hubDown s = false → s.pwr.mc = true →
      (∀ req, path = .field req →
        (s.on F.FLD_CTRL_EN 0 = false ∨ alState s < 2 ∨ takesOp op (DReq.of req) = false → exec c s = .next s) ∧
        (s.on F.FLD_CTRL_EN 0 = true → 2 ≤ alState s → takesOp op (DReq.of req) = true →
          let r := dExec (s.bump C.FLD_FRAME_CNT 0 1) 0 (DReq.of req) 4064
          exec c s = .next (r.1.emit (.answer 0 r.2.abort r.2.data)))) ∧
      (path = .mailbox →
        (s.on F.FLD_MBX_STAT_BUSY 0 = false → exec c s = .next s) ∧
        (s.on F.FLD_MBX_STAT_BUSY 0 = true → takesOp op (DReq.of (mailboxRequest s)) = true →
          let q := DReq.of (mailboxRequest s)
          let r := dExec s 1 q 4064
          ∃ t, exec c s = .next t ∧ t.rd F.FLD_MBX_STAT_BUSY 0 = 0 ∧ t.rd F.FLD_MBX_STAT_DONE 0 = 1 ∧
            (∀ i, i < 512 → 8 * i < (r.2.bytes q).length → t.rd F.FLD_MBX_RSP_BUF_DATA i = natAt (r.2.bytes q) (8 * i) 8) ∧
            (r.2.abort ≠ 0 → t.rd F.FLD_MBX_ABORT_CNT_COUNT 0 = (s.rd F.FLD_MBX_ABORT_CNT_COUNT 0 + 1) % 2 ^ 64))) ∧
      (∀ dst req, path = .sent dst req → takesOp op (DReq.of req) = true → ∃ t, exec c s = .next t ∧ t.dict.asked = s.dict.asked ++ [(DReq.of req).tag])) ∧
    (∀ p k, path = .kamrus p k →
      (natAt k.payload 0 1 ≠ 0x10 → exec c s = .next s) ∧
      (∀ u, natAt k.payload 0 1 = 0x10 → takesOp op (DReq.of (k.payload.drop 32)) = true → receiveCell s p k = (u, true) → k.typ = 5 → k.dst = s.node →
        let q := DReq.of (k.payload.drop 32)
        (hubDown u = true ∨ u.pwr.mc = false → exec c s = .next u) ∧
        (hubDown u = false → u.pwr.mc = true →
          (entitled u k.src = false → exec c s =
            .next (sendCell u (controlCell u k.src (bytesLE 8 0x11 ++ List.replicate 24 0#8 ++ (DRes.failed 0x08000021).bytes q)) none)) ∧
          (entitled u k.src = true → let r := dExec u (2 + k.src) q 448
            exec c s = .next (sendCell r.1 (controlCell r.1 k.src (bytesLE 8 0x11 ++ List.replicate 24 0#8 ++ r.2.bytes q)) none)))))) ∧
  (∀ (p : Fin 12) (k : Cell) (s u : State), receiveCell s p k = (u, true) → k.typ = 5 → k.dst = s.node →
    let h := k.payload.drop 32
    (natAt k.payload 0 1 ≠ 0x11 ∨ u.dict.asked.contains (natAt h 16 8) = false → exec (.dictionaryResponse p k) s = .next u) ∧
    (natAt k.payload 0 1 = 0x11 → u.dict.asked.contains (natAt h 16 8) = true → ∃ t, exec (.dictionaryResponse p k) s = .next t ∧
      t.dict.asked = u.dict.asked.erase (natAt h 16 8) ∧ t.outbox = .answer (2 + k.src) (natAt h 8 4) ((h.drop 32).take (natAt h 4 4)) :: u.outbox)) ∧
  (∀ (tag : Nat) (s : State), (s.dict.asked.contains tag = false → exec (.dictionaryTimeout tag) s = .next s) ∧
    (s.dict.asked.contains tag = true → ∃ t, exec (.dictionaryTimeout tag) s = .next t ∧ t.dict.asked = s.dict.asked.erase tag ∧
      t.outbox = .answer 2 0x05040000 [] :: s.outbox ∧ t.regs = s.regs)) ∧
  (∀ (path : Nat) (s : State), ∃ t, exec (.unlockTimeout path) s = .next t ∧ t.dict.unlock.contains path = false ∧
    (∀ p, p ≠ path → t.dict.unlock.contains p = s.dict.unlock.contains p) ∧ t = { s with dict := { s.dict with unlock := t.dict.unlock } }) ∧
  (∀ s : State, (hubDown s = true → exec .mbxEmcyPop s = .next (s.emit .error)) ∧
    (hubDown s = false → ∃ t, exec .mbxEmcyPop s = .next t ∧ t.outbox = .data (emcyShown (emcyHead s 1)) :: s.outbox ∧ t.regs = s.regs ∧
      Tab.get [] t.dict.emcy 1 = (Tab.get [] s.dict.emcy 1).drop 1))

/-- Device states, emergencies and the field ports (R411-R417, R421, R422). A state request is applied, or refused with its code; an emergency that an
event calls for is counted, logged and queued on each path, once; process data passes to memory and from it in the states that allow it; the SM2 watchdog
takes OP to SAFEOP; the distributed clock acquires and loses sync. -/
def Obligations.FieldPortsFollowTheirStates : Prop :=
  (∀ (v : Fin 16) (ack : Bool) (s : State),
    (s.on F.FLD_CTRL_EN 0 = false ∨ hubDown s = true → exec (.alStateRequest v ack) s = .next s) ∧
    (s.on F.FLD_CTRL_EN 0 = true → hubDown s = false → alDropped s = false → ∃ t, exec (.alStateRequest v ack) s = .next t ∧
      t.rd F.FLD_FRAME_CNT_COUNT 0 = (s.rd F.FLD_FRAME_CNT_COUNT 0 + 1) % 2 ^ 64 ∧
      (ack = false → s.on F.FLD_STATUS_AL_ERR 0 = true → s.rd F.FLD_STATUS_AL_STATE 0 < v.val → t.rd F.FLD_STATUS_AL_STATE 0 = s.rd F.FLD_STATUS_AL_STATE 0) ∧
      (ack = true ∨ s.on F.FLD_STATUS_AL_ERR 0 = false ∨ v.val ≤ s.rd F.FLD_STATUS_AL_STATE 0 →
        (∀ c, alRefusal s v = some c → t.rd F.FLD_STATUS_AL_ERR 0 = 1 ∧ t.rd F.FLD_STATUS_AL_CODE 0 = c ∧ t.rd F.FLD_STATUS_AL_STATE 0 = s.rd F.FLD_STATUS_AL_STATE 0) ∧
        (alRefusal s v = none → t.rd F.FLD_STATUS_AL_STATE 0 = v ∧ (ack = true → t.rd F.FLD_STATUS_AL_ERR 0 = 0) ∧
          (s.rd F.FLD_STATUS_AL_STATE 0 = 2 → v.val ≠ 2 → t.dict.unlock = []))) ∧
      (v.val ≠ 1 → v.val ≠ 2 → v.val ≠ 4 → v.val ≠ 8 → alRefusal s v = some 0x0011))) ∧
  (∀ (event : BitVec 32) (byte7 : Fin 256) (s : State),
    let u := if event.toNat = 0x20000002 then s.setDict { s.dict with fault := true } else s
    let m := emcyMsg (errorReg u) event.toNat byte7
    (hubDown s = true ∨ s.pwr.mc = false ∨ maySend s event.toNat byte7 = false → exec (.emergency event byte7) s = .next s) ∧
    (hubDown s = false → s.pwr.mc = true → maySend s event.toNat byte7 = true → ∃ t, exec (.emergency event byte7) s = .next t ∧
      t.rd F.FLD_EMCY_CNT_COUNT 0 = (s.rd F.FLD_EMCY_CNT_COUNT 0 + 1) % 2 ^ 64 ∧ t.dict.log.head? = some (m, s.node, s.trk.ts % 2 ^ 48) ∧
      (event.toNat = 0x20000002 → t.dict.fault = true) ∧
      t.dict.owed = (if event.toNat / 2 ^ 16 = 0x2000 then s.dict.owed else s.dict.owed.erase (event.toNat, byte7.val)) ∧
      (s.on F.FLD_CTRL_EN 0 = true → 2 ≤ alState u → .emergency 0 m ∈ t.outbox) ∧
      ((Tab.get [] s.dict.emcy 1).length < 32 → Tab.get 0 s.dict.dropped 1 = 0 → Tab.get [] t.dict.emcy 1 = Tab.get [] s.dict.emcy 1 ++ [m]) ∧
      (32 ≤ (Tab.get [] s.dict.emcy 1).length → Tab.get [] t.dict.emcy 1 = Tab.get [] s.dict.emcy 1 ∧ t.rd F.FLD_MBX_STAT_EMCY_OVF 0 = 1 ∧
        Tab.get 0 t.dict.dropped 1 = Tab.get 0 s.dict.dropped 1 + 1 ∧ t.rd F.FLD_EMCY_DROP_CNT_COUNT 0 = (s.rd F.FLD_EMCY_DROP_CNT_COUNT 0 + 1) % 2 ^ 64))) ∧
  (∀ (p : Fin 12) (k : Cell) (s u : State), receiveCell s p k = (u, true) → k.typ = 5 → k.dst = s.node →
    (natAt k.payload 0 1 ≠ 0x12 ∨ kmrRole u = 0 ∨ u.pwr.mc = false → exec (.emergencyCell p k) s = .next u) ∧
    (natAt k.payload 0 1 = 0x12 → kmrRole u ≠ 0 → u.pwr.mc = true → ∃ t, exec (.emergencyCell p k) s = .next t ∧
      t.dict.log.head? = some (natAt k.payload 8 8, natAt k.payload 16 8 % 2 ^ 14, u.trk.ts % 2 ^ 48))) ∧
  (∀ (data : List Byte) (s : State),
    (s.on F.FLD_CTRL_EN 0 = false ∨ hubDown s = true ∨ alState s ≠ 8 → exec (.sm2Buffer data) s = .next s) ∧
    (s.on F.FLD_CTRL_EN 0 = true → hubDown s = false → alState s = 8 → ∃ t, exec (.sm2Buffer data) s = .next t ∧
      t.rd F.FLD_FRAME_CNT_COUNT 0 = (s.rd F.FLD_FRAME_CNT_COUNT 0 + 1) % 2 ^ 64 ∧
      (s.dict.copying.isSome = true → t.dict.waiting = some data ∧ t.dict.copying = s.dict.copying ∧ t.sram = s.sram) ∧
      (s.dict.copying.isSome = true → s.dict.waiting.isSome = true →
        t.rd F.FLD_STATUS_PDO_OVR 0 = 1 ∧ t.rd F.FLD_PDO_OVR_CNT_COUNT 0 = (s.rd F.FLD_PDO_OVR_CNT_COUNT 0 + 1) % 2 ^ 64) ∧
      (∀ e, s.dict.copying = none → entriesOf s 0x1C12 = [e] → mapIndex e = 0x3380 →
        let da := s.rd F.FLD_PDO_OUT_DA 0 + 4 * (mapSub e - 1)
        t.dict.output = setImageWord s.dict.output (mapSub e) (natAt data 0 4) ∧
        (s.rd F.FLD_PDO_OUT_DA 0 = 0 → t.sram = s.sram) ∧
        (s.rd F.FLD_PDO_OUT_DA 0 ≠ 0 → (∀ w ∈ wordsOf da 4, onChip (w * 8) = true ∧ padBusy s (w * 8) = false ∧ padDown s (w * 8) = false) →
          readNat t.sram da 4 = natAt data 0 4 ∧ SameBytes s t da 4)))) ∧
  (∀ s : State,
    (s.on F.FLD_CTRL_EN 0 = false ∨ hubDown s = true ∨ alState s < 4 → exec .inputImageRead s = .next s) ∧
    (s.on F.FLD_CTRL_EN 0 = true → hubDown s = false → 4 ≤ alState s →
      (entriesOf s 0x1C13 = [] → exec .inputImageRead s = .next (s.emit (.inputs []))) ∧
      (∀ e, entriesOf s 0x1C13 = [e] → s.rd F.FLD_PDO_IN_DA 0 = 0 ∨ mapIndex e ≠ 0x33C0 ∨ padBusy s (s.rd F.FLD_PDO_IN_DA 0 + 4 * (mapSub e - 1)) = false →
        ∃ t bs, exec .inputImageRead s = .next t ∧ t.outbox.head? = some (.inputs bs)))) ∧
  (∀ s : State,
    (s.on F.FLD_CTRL_EN 0 = false ∨ hubDown s = true ∨ alState s ≠ 8 → exec .sm2Watchdog s = .next s) ∧
    (s.on F.FLD_CTRL_EN 0 = true → hubDown s = false → alState s = 8 → ∃ t, exec .sm2Watchdog s = .next t ∧ t.rd F.FLD_STATUS_AL_STATE 0 = 4 ∧
      t.rd F.FLD_STATUS_AL_ERR 0 = 1 ∧ t.rd F.FLD_STATUS_AL_CODE 0 = 0x001B ∧ t.rd F.FLD_STATUS_WDOG 0 = 1 ∧
      t.rd F.FLD_WDOG_CNT_COUNT 0 = (s.rd F.FLD_WDOG_CNT_COUNT 0 + 1) % 2 ^ 64 ∧ t.dict.copying = none ∧ t.dict.waiting = none ∧
      t.dict.owed = s.dict.owed ++ [(0x33000001, 4)] ∧
      (s.on F.FLD_CTRL_WDOG_EVT_EN 0 = true → t.outbox = .mc F.FLD_STATUS_WDOG 0 :: s.outbox))) ∧
  (∀ (diff : Nat) (time : Word) (s : State),
    let w := s.rd F.FLD_DC_CTRL_SYNC_WIN 0
    (s.on F.FLD_CTRL_EN 0 = false ∨ hubDown s = true → exec (.dcUpdate diff time) s = .next s) ∧
    (s.on F.FLD_CTRL_EN 0 = true → hubDown s = false → ∃ t, exec (.dcUpdate diff time) s = .next t ∧ t.rd F.FLD_DC_TIME_NS 0 = time.toNat ∧
      (diff ≤ w → s.on F.FLD_STATUS_DC_SYNC 0 = false → s.rd F.FLD_DC_CTRL_ACQ 0 ≤ s.dict.dcIn + 1 → t.rd F.FLD_STATUS_DC_SYNC 0 = 1) ∧
      (diff ≤ w → s.on F.FLD_STATUS_DC_SYNC 0 = false → s.dict.dcIn + 1 < s.rd F.FLD_DC_CTRL_ACQ 0 → t.rd F.FLD_STATUS_DC_SYNC 0 = s.rd F.FLD_STATUS_DC_SYNC 0 ∧
        t.dict.dcIn = s.dict.dcIn + 1 ∧ t.dict.dcOut = 0) ∧
      (w < diff → s.on F.FLD_STATUS_DC_SYNC 0 = true → s.rd F.FLD_DC_CTRL_LOSS 0 ≤ s.dict.dcOut + 1 → t.rd F.FLD_STATUS_DC_SYNC 0 = 0 ∧ t.rd F.FLD_STATUS_DC_LOST 0 = 1 ∧
        t.rd F.FLD_DC_LOSS_CNT_COUNT 0 = (s.rd F.FLD_DC_LOSS_CNT_COUNT 0 + 1) % 2 ^ 64 ∧ .mc F.FLD_STATUS_DC_LOST 0 ∈ t.outbox) ∧
      (w < diff → s.on F.FLD_STATUS_DC_SYNC 0 = true → s.dict.dcOut + 1 < s.rd F.FLD_DC_CTRL_LOSS 0 → t.rd F.FLD_STATUS_DC_SYNC 0 = s.rd F.FLD_STATUS_DC_SYNC 0 ∧
        t.dict.dcOut = s.dict.dcOut + 1 ∧ t.dict.dcIn = 0))) ∧
  (∀ s : State, (s.on F.FLD_STATUS_DC_SYNC 0 = false ∨ hubDown s = true → exec .dcUpdateTimeout s = .next s) ∧
    (s.on F.FLD_STATUS_DC_SYNC 0 = true → hubDown s = false → ∃ t, exec .dcUpdateTimeout s = .next t ∧ t.rd F.FLD_STATUS_DC_SYNC 0 = 0 ∧
      t.rd F.FLD_STATUS_DC_LOST 0 = 1 ∧ t.rd F.FLD_DC_LOSS_CNT_COUNT 0 = (s.rd F.FLD_DC_LOSS_CNT_COUNT 0 + 1) % 2 ^ 64)) ∧
  (∀ (p : Fin 2) (up : Bool) (s : State), (s.on F.FLD_CTRL_EN 0 = false ∨ hubDown s = true → exec (.fieldPortLink p up) s = .next s) ∧
    (s.on F.FLD_CTRL_EN 0 = true → hubDown s = false → s.rd F.FLD_STATUS_LINK 0 < 4 → ∃ t, exec (.fieldPortLink p up) s = .next t ∧
      bit (t.rd F.FLD_STATUS_LINK 0) p = b2n up ∧ bit (t.rd F.FLD_STATUS_LINK 0) (1 - p.val) = bit (s.rd F.FLD_STATUS_LINK 0) (1 - p.val) ∧
      SameRegs s t [(F.FLD_STATUS_LINK, 0)] ∧ t = { s with regs := t.regs }))

/-! ### Reset and power domains (R424-R438, R441) -/

/-- Device-level resets (R424-R433, R436-R438). The pin, PERST, hot reset, object 0x2201 and a remote cell each begin one with their source; the input's coming and going
power the device on and off; the release reads BOOTSEL and the trims and ends every block's reset. A pin held in a reset under way is recorded; a scope bit
confines PERST and hot reset to the port. -/
def Obligations.DeviceResetsBeginAndRelease : Prop :=
  (∀ s : State, (s.pwr.aon = false → ∀ low, exec (.nsysrst low) s = .next s) ∧
    (s.pwr.aon = true →
      exec (.nsysrst false) s = .next { s with pwr := { s.pwr with pinLow := false } } ∧
      (s.pwr.railsOff = false → s.inReset 0 0 = false → ∃ t, exec (.nsysrst true) s = .next t ∧ t.pwr.pinLow = true ∧ ResetBegun s t 2) ∧
      (s.pwr.railsOff = false → s.inReset 0 0 = true → ∃ t, exec (.nsysrst true) s = .next t ∧ t = { s with regs := t.regs, pwr := { s.pwr with pinLow := true } } ∧
        (s.rd F.RST_CAUSE_SOURCES 0 % 512 = 0 → t.rd F.RST_CAUSE_SOURCES 0 = 4)) ∧
      (s.pwr.railsOff = true → s.rd F.PWR_CAUSE_LAST_OFF 0 ≠ 3 → exec (.nsysrst true) s = .next { s with pwr := { s.pwr with pinLow := true } }) ∧
      (s.pwr.railsOff = true → s.rd F.PWR_CAUSE_LAST_OFF 0 = 3 → ∃ t, exec (.nsysrst true) s = .next t ∧ t.pwr.railsOff = false ∧ t.rst = [(0, true)] ∧
        t.rd F.RST_CAUSE_FIRST 0 = 2 ∧ t.rd F.PWR_STATUS_Q_ON 0 = 15))) ∧
  (∀ s : State, (s.pwr.aon = false ∨ s.pwr.railsOff = true → exec .pciePerstN s = .next s) ∧
    (s.inReset 0 0 = true ∨ s.on F.PCI_STATUS_LINK_UP 0 = false → exec .hotReset s = .next s) ∧
    (s.inReset 0 0 = false → s.pwr.aon = true → s.pwr.railsOff = false →
      (s.on F.RST_SRC_CFG_PERST_SCOPE 0 = false → ∃ t, exec .pciePerstN s = .next t ∧ ResetBegun s t 3) ∧
      (s.on F.RST_SRC_CFG_PERST_SCOPE 0 = true → ∃ t, exec .pciePerstN s = .next t ∧ t.rst = s.rst ∧ t.rd F.PCI_STATUS_LINK_UP 0 = 0 ∧ t.pci.cfg = [] ∧ t.pci.atc = [])) ∧
    (s.inReset 0 0 = false → s.on F.PCI_STATUS_LINK_UP 0 = true →
      (s.on F.RST_SRC_CFG_HOT_SCOPE 0 = false → ∃ t, exec .hotReset s = .next t ∧ ResetBegun s t 4) ∧
      (s.on F.RST_SRC_CFG_HOT_SCOPE 0 = true → ∃ t, exec .hotReset s = .next t ∧ t.rst = s.rst ∧ t.rd F.PCI_STATUS_LINK_UP 0 = 0 ∧ t.pci.cfg = [] ∧ t.pci.atc = []))) ∧
  (∀ s : State, (s.dict.exec = none → exec .execute s = .next s) ∧
    (∀ i hold, s.dict.exec = some (0, i, hold) → s.inReset 0 0 = false → ∃ t, exec .execute s = .next t ∧ ResetBegun s t 5) ∧
    (∀ c kind i hold, s.dict.exec = some (kind, i, hold) → BlockCommand c kind i hold → exec .execute s = exec c { s with dict := { s.dict with exec := none } }) ∧
    (∀ i hold, s.dict.exec = some (6, i, hold) → s.inReset 0 0 = false → ∃ t, exec .execute s = .next t ∧ t.rst = s.rst ∧ t.rd F.RST_CAUSE_MC_ONLY 0 = 1 ∧
      t.rd F.RST_MC_CNT_COUNT 0 = (s.rd F.RST_MC_CNT_COUNT 0 + 1) % 2 ^ 64 ∧ t.tile = s.tile ∧ t.sram = s.sram)) ∧
  (∀ (p : Fin 12) (k : Cell) (s u : State), receiveCell s p k = (u, true) → k.typ = 5 → k.dst = s.node →
    let w := natAt k.payload 8 8
    let may := u.on F.RST_CTRL_REMOTE_EN 0 && entitled u k.src && decide (natAt k.payload 0 1 = 0x20 ∧ bits w 0 4 ≤ 5)
    (may = false → ∃ t, exec (.remoteReset p k) s = .next t ∧ t.rd F.RST_STATUS_REMOTE_DROP 0 = 1 ∧ SameRegs u t [(F.RST_STATUS_REMOTE_DROP, 0)] ∧ t = { u with regs := t.regs }) ∧
    (may = true → bits w 0 4 = 0 → u.inReset 0 0 = false → ∃ t, exec (.remoteReset p k) s = .next t ∧ ResetBegun u t 7) ∧
    (∀ c, may = true → BlockCommand c (bits w 0 4) (bits w 4 12) (decide (bit w 16 = 1)) → exec (.remoteReset p k) s = exec c u)) ∧
  (∀ (recs : List (Nat × Nat)) (s : State), (s.pwr.aon = true → exec (.powerOn recs) s = .next s) ∧
    (s.pwr.aon = false → ∃ t, exec (.powerOn recs) s = .next t ∧ t.rst = [(0, true)] ∧ t.pwr.aon = true ∧ t.pwr.railsOff = false ∧ t.rd F.RST_CAUSE_SOURCES 0 = 1 ∧
      t.rd F.RST_CAUSE_FIRST 0 = 0 ∧ t.rd F.PWR_STATUS_IN_RANGE 0 = 1 ∧ t.rd F.PWR_STATUS_Q_ON 0 = 15 ∧ t.rd F.PWR_CAUSE_LAST_OFF 0 = s.rd F.PWR_CAUSE_LAST_OFF 0 ∧
      t.mem.hbm = [] ∧ t.sec.nv = s.sec.nv ∧ t.outbox = .nsysrst 0 :: s.outbox ∧ t.dict.owed = [(0x22000010, 4)] ∧ (recs = [] → t.lanes.recs = []) ∧
      (∀ l v, recs = [(l, v)] → Tab.get none t.lanes.recs l = some v))) ∧
  (∀ s : State, (s.pwr.aon = false → exec .inputRemoved s = .next s) ∧
    (s.pwr.aon = true → ∃ t, exec .inputRemoved s = .next t ∧ t.pwr.aon = false ∧ t.pwr.railsOff = true ∧ t.rd F.PWR_CAUSE_LAST_OFF 0 = 1 ∧
      t.rd F.PWR_STATUS_IN_RANGE 0 = 0 ∧ t.rd F.PWR_STATUS_Q_ON 0 = 0 ∧ t.mem.hbm = [] ∧ t.sec.nv = s.sec.nv) ∧
    (s.pwr.aon = false ∨ s.pwr.railsOff = false ∨ s.rd F.PWR_CAUSE_LAST_OFF 0 ≠ 2 → exec .inputReturn s = .next s) ∧
    (s.pwr.aon = true → s.pwr.railsOff = true → s.rd F.PWR_CAUSE_LAST_OFF 0 = 2 → ∃ t, exec .inputReturn s = .next t ∧ t.rst = [(0, true)] ∧ t.pwr.railsOff = false ∧
      t.rd F.RST_CAUSE_SOURCES 0 = 1 ∧ t.rd F.PWR_STATUS_IN_RANGE 0 = 1 ∧ t.outbox = .nsysrst 0 :: s.outbox)) ∧
  (∀ (codes : List Nat) (bad : Fin 4) (nvOK : Bool) (s : State),
    let may := s.inReset 0 0 && s.pwr.aon && !s.pwr.railsOff && !s.pwr.pinLow && s.on F.PWR_STATUS_IN_RANGE 0
    let bin := if codes.length = 8 ∧ ∀ c ∈ codes, binOf c = binOf (codes.headD 0) then binOf (codes.headD 0) else 15
    (may = false → exec (.resetRelease codes bad nvOK) s = .next s) ∧
    (may = true → ∃ t, exec (.resetRelease codes bad nvOK) s = .next t ∧ t.rst = [] ∧ t.rd F.RST_BOOT_BIN 0 = bin ∧ t.rd F.RST_BOOT_ROLE 0 = binRole bin ∧
      t.rd F.KMR_ROLE_ROLE 0 = binRole bin ∧ t.rd F.RST_BOOT_FABRIC_SRC 0 = binFabric bin ∧ t.rd F.FLD_CTRL_EN 0 = b2n (binField bin) ∧
      (bad.val < 3 → t.rd F.RST_TRIM_STATE 0 = 1 ∧ t.rd F.RST_TRIM_TRIES 0 = bad + 1) ∧
      (bad.val = 3 → t.rd F.RST_STATUS_TRIM_FALLBACK 0 = 1 ∧ t.rd F.RST_TRIM_STATE 0 = (if nvOK then 2 else 3) ∧ (nvOK = false → t.dict.fault = true) ∧
        ((if nvOK then 0x22000001 else 0x22000002), 4) ∈ t.dict.owed) ∧
      t.pins.tap < 3 ∧ t.pending = s.pending))

/-- Block resets and quarters without power (R427-R430, R441, R438). A request is refused while scheduled work uses the block, absorbed inside a reset
that encloses it, and else the block is reset, counted and held as asked; a core's queues, registers and scratchpad are cleared
while HBM and NV keep theirs; it is released unless it is held. A quarter is powered off unless it is in use, and on again. -/
def Obligations.BlockResetsHoldAndRelease : Prop :=
  (∀ (c : Instr) (kind i : Nat) (hold : Bool) (s : State), BlockCommand c kind i hold →
    let key := kind * 4096 + i
    (s.inReset 0 0 = true ∨ (kind = 1 ∧ quarterDark s i = true) → exec c s = .next s) ∧
    (s.inReset 0 0 = false → (kind = 1 → quarterDark s i = false) →
      (blockRefused s kind i = true → ∃ t, exec c s = .next t ∧ t.rd F.RST_STATUS_BLOCK_REFUSED 0 = 1 ∧
        t.rd F.RST_BLOCK_REFUSED_CNT_COUNT 0 = (s.rd F.RST_BLOCK_REFUSED_CNT_COUNT 0 + 1) % 2 ^ 64 ∧ t = { s with regs := t.regs }) ∧
      (blockRefused s kind i = false → insideReset s kind i = true → exec c s = .next s) ∧
      (blockRefused s kind i = false → insideReset s kind i = false → ∃ t, exec c s = .next t ∧ Tab.get false t.pwr.held key = hold ∧ t.pwr.asserted.contains key = true ∧
        t.rd F.RST_STATUS_IN_BLOCK 0 = 1 ∧ t.mem.hbm = s.mem.hbm ∧ t.sec.nv = s.sec.nv ∧
        (s.pwr.asserted.contains key = true → t.rst = s.rst ∧ t.tile = s.tile ∧ t.sram = s.sram) ∧
        (s.pwr.asserted.contains key = false → t.inReset kind i = true ∧ t.rd F.RST_BLOCK_CNT_COUNT 0 = (s.rd F.RST_BLOCK_CNT_COUNT 0 + 1) % 2 ^ 64 ∧
          (kind = 2 ∨ kind = 3 → ∀ q r, (if kind = 2 then q / 128 else q / 8) = i → r < 32 → t.sreg q r = 0) ∧
          (kind = 2 ∨ kind = 3 → ∀ q r, (if kind = 2 then q / 128 else q / 8) ≠ i → r < 32 → t.sreg q r = s.sreg q r) ∧
          (kind = 3 → ∀ q, q < 4096 → q / 8 = i → t.rd F.VEC_Q_STAT_STATE q = 0) ∧
          (kind = 3 → ∀ a, byteAt t.sram a = if scratchBase + i * 0x100000 ≤ a ∧ a < scratchBase + (i + 1) * 0x100000 then 0 else byteAt s.sram a) ∧
          (kind = 5 → t.rd F.KMR_STATUS_STATE i = 1 ∧ (t.kport i).queues = []))))) ∧
  (∀ (kind : Fin 6) (i : Fin 512) (s : State),
    let key := kind.val * 4096 + i.val
    (s.pwr.asserted.contains key = false ∨ Tab.get false s.pwr.held key = true ∨ s.inReset 0 0 = true → exec (.blockResetRelease kind i) s = .next s) ∧
    (s.pwr.asserted.contains key = true → Tab.get false s.pwr.held key = false → s.inReset 0 0 = false →
      ∃ t, exec (.blockResetRelease kind i) s = .next t ∧ t.pwr.asserted = s.pwr.asserted.filter (fun k => decide (k ≠ key)) ∧
        (3 ≤ kind.val → t.inReset kind i = false) ∧
        (kind.val = 3 → s.clusterDown (i / 16) = false → t.rd F.VEC_STATUS_SPAD_INIT i = 1 ∧ t.rd F.QNT_STATUS_CLEARING i = 1) ∧
        (kind.val = 2 → loadHolds s i = false → bit (s.rd F.TST_FENCE_CLUSTER 0) i = 0 → t.inReset 2 i = false) ∧
        (kind.val = 1 → i.val < 4 → quarterDark s i = false → t.inReset 1 i = false) ∧
        (t.pwr.asserted = [] → t.rd F.RST_STATUS_IN_BLOCK 0 = 0))) ∧
  (∀ (v : Word) (s : State),
    let old := s.rd F.PWR_QCTRL_OFF 0
    let new := v.toNat % 16 / 2 * 2
    (s.inReset 0 0 = true → exec (.pwrQctrlWrite v) s = .next s) ∧
    (∀ q, s.inReset 0 0 = false → 1 ≤ q → q ≤ 3 → bit new q = 1 → bit old q = 0 → quarterFenced s q = false → quarterInUse s q = true →
      ∃ t, exec (.pwrQctrlWrite v) s = .next t ∧ t.rd F.PWR_STATUS_Q_REFUSED 0 = 1 ∧ SameRegs s t [(F.PWR_STATUS_Q_REFUSED, 0)] ∧ t = { s with regs := t.regs }) ∧
    (s.inReset 0 0 = false → (∀ q, 1 ≤ q → q ≤ 3 → bit new q = 1 → bit old q = 0 → quarterFenced s q = true ∨ quarterInUse s q = false) →
      ∃ t, exec (.pwrQctrlWrite v) s = .next t ∧ t.rd F.PWR_QCTRL_OFF 0 = new ∧ t.mem.hbm = s.mem.hbm ∧ (∀ q, 1 ≤ q → q ≤ 3 →
        (bit new q = 1 → bit old q = 0 → quarterFenced s q = false → t.inReset 1 q = true ∧ bit (t.rd F.PWR_STATUS_Q_ON 0) q = 0 ∧ bit t.pwr.powering q = 0 ∧
          ∀ r ∈ regionsIn q, t.rd F.CFG_REGION_STATE r = 0) ∧
        (bit new q = 0 → bit old q = 1 → bit t.pwr.powering q = 1) ∧ (bit new q = bit old q → t.inReset 1 q = s.inReset 1 q)))) ∧
  (∀ (q : Fin 4) (s : State), (bit s.pwr.powering q = 0 ∨ s.inReset 0 0 = true → exec (.quarterPowerOn q) s = .next s) ∧
    (bit s.pwr.powering q = 1 → s.inReset 0 0 = false → ∃ t, exec (.quarterPowerOn q) s = .next t ∧ bit t.pwr.powering q = 0 ∧
      (quarterFenced s q = true ∨ bit (s.rd F.PWR_QCTRL_OFF 0) q = 1 → t.rst = s.rst ∧ t.regs = s.regs) ∧
      (quarterFenced s q = false → bit (s.rd F.PWR_QCTRL_OFF 0) q = 0 → bit (t.rd F.PWR_STATUS_Q_ON 0) q = 1 ∧
        (Tab.get false s.pwr.held (4096 + q) = false → t.inReset 1 q = false))))

/-! ### The Pacer (R439-R446) -/

/-- The Pacer (R439-R446). A tick takes its samples, averages the power and counts the energy, fires the heats whose conditions hold, and limits clusters
that no scheduled session holds; a heat that fired then acts: trips, the input's and rails' shutdowns, resets; a trip is released once its
heat is not active; the watchdog warns and expires; its log, peaks and maxima clear as they are read. -/
def Obligations.PacerSamplesFiresAndActs : Prop :=
  (∀ (v i mw : Nat) (temps : List (Nat × Int)) (volts ains : List (Nat × Nat)) (s : State),
    let c := Instr.pacerTick v i mw temps volts ains
    let l := (mw :: s.pwr.samples).take 1000
    (s.pwr.aon = false → exec c s = .next s) ∧
    (s.pwr.aon = true → ∃ t, exec c s = .next t ∧ t.rd F.PWR_INPUT_V 0 = v % 2 ^ 16 ∧ t.rd F.PWR_INPUT_I 0 = i % 2 ^ 16 ∧ t.rd F.PWR_INPUT_MW 0 = mw % 2 ^ 32 ∧
      t.pwr.samples = l ∧ t.rd F.PWR_AVG_MW 0 = l.sum / l.length % 2 ^ 32 ∧ t.rd F.PWR_AVG_PEAK 0 = Nat.max (l.sum / l.length) (s.rd F.PWR_AVG_PEAK 0) % 2 ^ 32 ∧
      t.pwr.energy = (s.pwr.energy + mw) % 1000000 ∧ t.rd F.PWR_ENERGY_CNT_COUNT 0 = (s.rd F.PWR_ENERGY_CNT_COUNT 0 + (s.pwr.energy + mw) / 1000000) % 2 ^ 64 ∧
      (∀ k x, temps = [(k, x)] → k < 64 → t.rd F.PAC_TEMP_T k = (x % 2 ^ 16).toNat) ∧
      (1700000 ≤ t.rd F.PWR_AVG_MW 0 → Tab.get false s.pwr.seen 1024 = false → t.rd F.PAC_HEAT_STAT_FIRED 0 = 1 ∧ t.rd F.PAC_HEAT_STAT_ACTIVE 0 = 1 ∧ 0 ∈ t.pwr.due) ∧
      (1745000 ≤ t.rd F.PWR_AVG_MW 0 → Tab.get false s.pwr.seen 1025 = false → t.rd F.PAC_HEAT_STAT_FIRED 1 = 1 ∧ t.rd F.PAC_HEAT_STAT_ACTIVE 1 = 1 ∧ 1 ∈ t.pwr.due) ∧
      (1700000 ≤ t.rd F.PWR_AVG_MW 0 → ∀ k, k < 32 → sessionSched s k = false → t.rd F.PAC_CEIL_CEIL k ≤ 4))) ∧
  (∀ (h : Fin 256) (s : State), ((∀ k ∈ s.pwr.due, k % 256 ≠ h.val) → exec (.heatFire h) s = .next s) ∧
    (∀ idx, let u := s.setPwr { s.pwr with due := s.pwr.due.filter (fun k => decide (k % 256 ≠ h.val)) }
      s.pwr.due.filter (fun k => decide (k % 256 = h.val)) = [h.val + 256 * idx] → ∃ t, exec (.heatFire h) s = .next t ∧ (∀ k ∈ t.pwr.due, k % 256 ≠ h.val) ∧
        (h.val = 0 ∨ (2 ≤ h.val ∧ h.val ≤ 5) ∨ h.val = 15 ∨ (16 ≤ h.val ∧ s.on F.PAC_HEAT_ACT_RST h = false) → t = u) ∧
        (h.val = 1 → t.rd F.PAC_TRIP_POWER 0 = 1 ∧ t.rd F.PAC_STATUS_TRIP 0 = 1) ∧
        (6 ≤ h.val → h.val ≤ 9 → bit (t.rd F.PAC_TRIP_THERM 0) (h.val - 6) = 1 ∧ t.rd F.PAC_STATUS_TRIP 0 = 1) ∧
        (h.val = 10 → t.pwr.railsOff = true ∧ t.rd F.PWR_CAUSE_LAST_OFF 0 = 3) ∧
        (h.val = 11 → s.inReset 0 0 = false → t.rst = [(0, true)] ∧ t.rd F.RST_CAUSE_FIRST 0 = 1 ∧ t.rd F.PWR_STATUS_BROWNOUT 0 = 1 ∧ t.mem.hbm = []) ∧
        (h.val = 12 → t.pwr.railsOff = true ∧ t.rd F.PWR_CAUSE_LAST_OFF 0 = 2) ∧
        (h.val = 13 → t.rd F.PWR_STATUS_RAIL_FAULT 0 = 1 ∧ (24 ≤ idx → idx < 36 → bit (t.rd F.TST_FENCE_QUARTER 0) ((idx - 20) / 4) = 1) ∧
          (36 ≤ idx → s.inReset 0 0 = false → t.rst = [(0, true)] ∧ t.rd F.RST_CAUSE_FIRST 0 = 8)) ∧
        (h.val = 14 → t.rd F.MDT_POS_GROUP 0 = 0 ∧ t.rd F.MDT_RESET_CNT_COUNT 0 = (s.rd F.MDT_RESET_CNT_COUNT 0 + 1) % 2 ^ 64) ∧
        (∀ c, 16 ≤ h.val → s.on F.PAC_HEAT_ACT_RST h = true → BlockCommand c (s.rd F.PAC_HEAT_ACT_RKIND h) (s.rd F.PAC_HEAT_ACT_RINDEX h) false → exec c u = .next t))) ∧
  (∀ (v : Word) (s : State), ∃ t, exec (.pacTripWrite v) s = .next t ∧ t = { s with regs := t.regs } ∧
    t.rd F.PAC_TRIP_POWER 0 = (if bit v.toNat 0 = 1 ∧ s.on F.PAC_HEAT_STAT_ACTIVE 1 = false then 0 else s.rd F.PAC_TRIP_POWER 0) ∧
    (∀ q, q < 4 → bit (t.rd F.PAC_TRIP_THERM 0) q = if bit v.toNat (1 + q) = 1 ∧ s.on F.PAC_HEAT_STAT_ACTIVE (6 + q) = false then 0 else bit (s.rd F.PAC_TRIP_THERM 0) q) ∧
    t.rd F.PAC_STATUS_TRIP 0 = b2n (tripHolds t 0 || tripHolds t 1 || tripHolds t 2 || tripHolds t 3)) ∧
  (∀ s : State,
    (∃ t, exec .kick s = .next t ∧ t.rd F.PAC_WDOG_LEFT_US 0 = s.rd F.PAC_WDOG_PERIOD_MS 0 * 1000 % 2 ^ 32 ∧ SameRegs s t [(F.PAC_WDOG_LEFT_US, 0)] ∧ t = { s with regs := t.regs }) ∧
    (s.inReset 0 0 = true → exec .watchdogWarning s = .next s ∧ exec .watchdogExpiry s = .next s) ∧
    (s.inReset 0 0 = false →
      (∃ t, exec .watchdogWarning s = .next t ∧ t.rd F.PAC_STATUS_WDOG_WARN 0 = 1 ∧ t.outbox = .mc F.PAC_STATUS_WDOG_WARN 0 :: s.outbox ∧
        SameRegs s t [(F.PAC_STATUS_WDOG_WARN, 0), (F.PAC_WDOG_LEFT_US, 0)] ∧
        t = { s with regs := t.regs, outbox := t.outbox, dict := { s.dict with owed := s.dict.owed ++ [(0x21000004, 4)] } }) ∧
      (s.on F.RST_SRC_CFG_WDOG_SCOPE 0 = true → ∃ t, exec .watchdogExpiry s = .next t ∧ ResetBegun (fireHeat (s.wr F.PAC_WDOG_LEFT_US 0 0) 15) t 6 ∧
        t.rd F.PAC_HEAT_STAT_FIRED 15 = 1) ∧
      (s.on F.RST_SRC_CFG_WDOG_SCOPE 0 = false → ∃ t, exec .watchdogExpiry s = .next t ∧ t.rst = s.rst ∧ t.rd F.PAC_HEAT_STAT_FIRED 15 = 1 ∧
        t.rd F.RST_CAUSE_MC_ONLY 0 = 1 ∧ t.rd F.RST_MC_CNT_COUNT 0 = (s.rd F.RST_MC_CNT_COUNT 0 + 1) % 2 ^ 64 ∧ t.tile = s.tile ∧ t.sram = s.sram)) ∧
    (∃ t, exec .pacLogPop s = .next t ∧ t.outbox = .data (pacLogWord s) :: s.outbox ∧ t.pwr.log = s.pwr.log.drop 1 ∧ t.regs = s.regs ∧
      (s.pwr.log = [] → t.outbox = .data 0 :: s.outbox)) ∧
    (∃ t, exec .pwrAvgRead s = .next t ∧ t.outbox = .data (s.rd F.PWR_AVG_MW 0 + s.rd F.PWR_AVG_PEAK 0 * 2 ^ 32) :: s.outbox ∧ t.rd F.PWR_AVG_PEAK 0 = 0 ∧
      SameRegs s t [(F.PWR_AVG_PEAK, 0)] ∧ t = { s with regs := t.regs, outbox := t.outbox }) ∧
    (∀ k : Fin 64, ∃ t, exec (.pacTempRead k) s = .next t ∧ t.outbox = .data (s.rd F.PAC_TEMP_T k + s.rd F.PAC_TEMP_MAX k * 2 ^ 16) :: s.outbox ∧
      t.rd F.PAC_TEMP_MAX k = 0 ∧ SameRegs s t [(F.PAC_TEMP_MAX, k.val)]))

/-! ### Security and firmware (R447-R462) -/

/-- Floors, slots and measurements (R453-R458, R461, R462). A floor moves only up and only when every running version allows it; a slot is switched to
only after it was verified, and the boot record then names it as a trial until firmware confirms; eight words extend register 7; a report is built once and written; a debug grant needs a fresh
nonce; recovery takes its parts in order. The places within the boot record are the model's own choice (R457). -/
def Obligations.SecurityCommandsFollowTheirRules : Prop :=
  (∀ s : State,
    let c := s.rd F.SEC_ROLLBACK_CTR 0
    let f := s.rd F.SEC_ROLLBACK_FLOOR 0
    (s.inReset 0 0 = true ∨ s.sec.blowing.isSome = true → exec .rollbackGo s = .next s) ∧
    (s.inReset 0 0 = false → s.sec.blowing = none →
      (f ≤ floorOf s c ∨ s.on F.CFG_STATUS_BUSY 0 = true ∨ (c = 0 ∧ s.rd F.SEC_BOOT_VERSION 0 < f) →
        ∃ t, exec .rollbackGo s = .next t ∧ t.rd F.SEC_STATUS_RB_REFUSED 0 = 1 ∧ SameRegs s t [(F.SEC_STATUS_RB_REFUSED, 0)] ∧ t = { s with regs := t.regs }) ∧
      (floorOf s c < f → s.on F.CFG_STATUS_BUSY 0 = false → (c = 0 ∧ f ≤ s.rd F.SEC_BOOT_VERSION 0) ∨ floorRefused s c f = false →
        ∃ t, exec .rollbackGo s = .next t ∧ t.sec.blowing = some (c, Nat.min f 128) ∧ t.rd F.SEC_ROLLBACK_GO 0 = 1 ∧ t.sec.floors = s.sec.floors ∧
          SameRegs s t [(F.SEC_ROLLBACK_GO, 0)])) ∧
    (s.sec.blowing = none → exec .floorBlown s = .next s) ∧
    (∀ k n, s.sec.blowing = some (k, n) → ∃ t, exec .floorBlown s = .next t ∧ t.sec.blowing = none ∧ t.rd F.SEC_ROLLBACK_GO 0 = 0 ∧
      (∀ j, Tab.get 0 t.sec.floors j = if j = k then n else Tab.get 0 s.sec.floors j))) ∧
  (∀ s : State,
    (s.inReset 0 0 = true ∨ s.sec.checking.isSome = true → exec .secVerifyGo s = .next s) ∧
    (s.inReset 0 0 = false → s.sec.checking = none → ∃ t, exec .secVerifyGo s = .next t ∧ t = { s with sec := { s.sec with checking := some (s.rd F.SEC_VERIFY_SLOT 0) } }) ∧
    (s.sec.checking = none → exec .verifyDone s = .next s) ∧
    (∀ k, s.sec.checking = some k → let n := nvImageStep s (nvSlot k) 6
      ∃ t, exec .verifyDone s = .next t ∧ t.sec.checking = none ∧ t.rd F.SEC_VERIFY_PASS 0 = b2n (decide (n = 0)) ∧ t.rd F.SEC_VERIFY_STEP 0 = n % 16 ∧
        Tab.get false t.sec.passed k = decide (n = 0) ∧ t.rd F.SEC_VERIFY_CNT_COUNT 0 = (s.rd F.SEC_VERIFY_CNT_COUNT 0 + 1) % 2 ^ 64 ∧
        (n = 0 → t.rd F.SEC_VERIFY_FAIL_CNT_COUNT 0 = s.rd F.SEC_VERIFY_FAIL_CNT_COUNT 0) ∧
        (n ≠ 0 → t.rd F.SEC_VERIFY_FAIL_CNT_COUNT 0 = (s.rd F.SEC_VERIFY_FAIL_CNT_COUNT 0 + 1) % 2 ^ 64)) ∧
    (s.inReset 0 0 = true → exec .switchSlot s = .next s ∧ exec .confirm s = .next s) ∧
    (s.inReset 0 0 = false →
      (Tab.get false s.sec.passed (1 - runningSlot s) = false → ∃ t, exec .switchSlot s = .next t ∧ t.rd F.SEC_STATUS_SLOT_REFUSED 0 = 1 ∧
        SameRegs s t [(F.SEC_STATUS_SLOT_REFUSED, 0)] ∧ t = { s with regs := t.regs }) ∧
      (Tab.get false s.sec.passed (1 - runningSlot s) = true → ∃ t i r, exec .switchSlot s = .next t ∧ bootRecord t = some (i, r) ∧ r.primary = 1 - runningSlot s ∧
        r.trial = true ∧ r.tries = 0 ∧ t = { s with sec := { s.sec with nv := t.sec.nv } }) ∧
      (s.on F.SEC_BOOT_TRIAL 0 = false → exec .confirm s = .next s) ∧
      (s.on F.SEC_BOOT_TRIAL 0 = true → ∃ t i r, exec .confirm s = .next t ∧ bootRecord t = some (i, r) ∧ r.primary = runningSlot s % 2 ∧ r.trial = false ∧
        r.tries = s.rd F.SEC_BOOT_TRIES 0 % 256 ∧ t = { s with sec := { s.sec with nv := t.sec.nv } }))) ∧
  (∀ (v : Word) (s : State),
    let ws := s.sec.extend ++ [v.toNat]
    (s.inReset 0 0 = true → exec (.secExtend v) s = .next s) ∧
    (s.inReset 0 0 = false → ws.length < 8 → exec (.secExtend v) s = .next { s with sec := { s.sec with extend := ws } }) ∧
    (s.inReset 0 0 = false → 8 ≤ ws.length → ∃ t, exec (.secExtend v) s = .next t ∧ t.sec.extend = [] ∧
      (∀ w, w < 8 → t.rd F.SEC_M_DATA (56 + w) = natAt (shake256 (measure s 7 ++ ws.flatMap (bytesLE 8))) (8 * w) 8) ∧
      (∀ w, w < 56 → t.rd F.SEC_M_DATA w = s.rd F.SEC_M_DATA w))) ∧
  (∀ (ecc : List Nat) (s : State),
    (s.inReset 0 0 = true ∨ s.sec.report.isSome = true → exec .secAttGo s = .next s) ∧
    (s.inReset 0 0 = false → s.sec.report = none → exec .secAttGo s = .next { s with sec := { s.sec with report := some (s.rd F.SEC_ATT_DA 0, attReport s) } }) ∧
    (s.sec.report = none → exec (.reportWritten ecc) s = .next s) ∧
    (∀ da bs, s.sec.report = some (da, bs) → ∃ t, exec (.reportWritten ecc) s = .next t ∧ t.sec.report = none ∧
      t.mem = (memWrite (s.setSec { s.sec with report := none }) da bs ⟨[], ecc, false⟩).1.mem ∧
      t.rd F.SEC_ATT_CNT_COUNT 0 = (s.rd F.SEC_ATT_CNT_COUNT 0 + 1) % 2 ^ 64)) ∧
  (∀ (ecc : List Nat) (s : State),
    (s.inReset 0 0 = true → exec .chal s = .next s ∧ exec (.secDbgGo ecc) s = .next s) ∧
    (s.inReset 0 0 = false →
      (∃ t, exec .chal s = .next t ∧ t.sec.nonce = true ∧ t.freeCtr = s.freeCtr + 4 ∧
        (∀ i, i < 4 → t.rd F.SEC_DBG_NONCE_DATA i = Config.freeValue (s.freeCtr + i) % 2 ^ 64)) ∧
      (∃ t, exec (.secDbgGo ecc) s = .next t ∧
        let r := memRead s (s.rd F.SEC_DBG_DA 0 * 256) (64 + 8192) ⟨[], ecc, false⟩
        t.sec.nonce = false ∧
        (∀ k, r.2 = some k → tokenGrants r.1 k = true → t.rd F.SEC_STATUS_DBG 0 = (r.1.rd F.SEC_STATUS_DBG 0 ||| natAt k 40 1) % 8) ∧
        (r.2 = none ∨ s.sec.nonce = false ∨ (∃ k, r.2 = some k ∧ tokenGrants r.1 k = false) → t.rd F.SEC_STATUS_DBG_FAIL 0 = 1 ∧
          t.rd F.SEC_STATUS_DBG 0 = r.1.rd F.SEC_STATUS_DBG 0)))) ∧
  (∀ s : State,
    let r := s.sec.rcv
    let head := r.head ++ recoveryBuffer s
    (s.on F.SEC_STATUS_RECOVERY 0 = false ∨ s.inReset 0 0 = true → exec .nextPart s = .next s) ∧
    (s.on F.SEC_STATUS_RECOVERY 0 = true → s.inReset 0 0 = false →
      (r.hdr = none → head.length < (headerOfBytes head).strOff → exec .nextPart s = .next { s with sec := { s.sec with rcv := ⟨head, none, [], 0⟩ } }) ∧
      (r.hdr = none → (headerOfBytes head).strOff ≤ head.length → formatWrong head = true ∨ identWrong head = true →
        exec .nextPart s = .next { s with sec := { s.sec with rcv := ⟨[], none, [], 0⟩ } }) ∧
      (∀ h, r.hdr = some h → let o := h.strOff + r.chunk * 65536
        let bs := (recoveryBuffer s).take (Nat.min 65536 (h.length - o))
        (shake256 bs ≠ (r.table.drop (64 * r.chunk)).take 64 → exec .nextPart s = .next s) ∧
        (shake256 bs = (r.table.drop (64 * r.chunk)).take 64 → r.chunk + 1 < h.chunks → ∃ t, exec .nextPart s = .next t ∧ nvRead t (nvSlot 0 + o) bs.length = bs ∧
          t.sec.rcv = { r with chunk := r.chunk + 1 } ∧ t.regs = s.regs) ∧
        (shake256 bs = (r.table.drop (64 * r.chunk)).take 64 → h.chunks ≤ r.chunk + 1 → ∃ t, exec .nextPart s = .next t ∧
          t.rd F.RST_MC_CNT_COUNT 0 = (s.rd F.RST_MC_CNT_COUNT 0 + 1) % 2 ^ 64 ∧ t.rst = s.rst))))

/-! ### Fences, the cool-down lap and the test access port (R466-R473, R486) -/

/-- Fences (R466-R469). A write is refused whole while an admitted session holds a cluster, or a quarter is in use, that it would fence; else each bit that rises
fences its cluster, which is held in reset, or its quarter, whose channels read FENCED and whose power falls; each bit that falls gives it back.

The cool-down lap and the test access port (R470-R473, R486). A lap is refused while work or a load is under way, and else freezes every region and writes its
record to NV; when it completes the device is parked with its steps' result, every quarter held in reset. The port takes each
instruction and shows its register, a sample with the pins of held banks and those held low at 0; EXTEST and CLAMP act as BYPASS outside a reset and the park. -/
def Obligations.FencesLapAndTestPort : Prop :=
  ((∀ (v : Word) (s : State),
     let old := s.rd F.TST_FENCE_CLUSTER 0
     let m := v.toNat % 2 ^ 32
     (s.inReset 0 0 = true → exec (.tstFenceCluster v) s = .next s) ∧
     (s.inReset 0 0 = false → (risen 32 old m).any (clusterTaken s) = true → ∃ t, exec (.tstFenceCluster v) s = .next t ∧ t.rd F.TST_STATUS_FENCE_REFUSED 0 = 1 ∧
       SameRegs s t [(F.TST_STATUS_FENCE_REFUSED, 0)] ∧ t = { s with regs := t.regs }) ∧
     (s.inReset 0 0 = false → (risen 32 old m).any (clusterTaken s) = false → ∃ t, exec (.tstFenceCluster v) s = .next t ∧
       (risen 32 old m ≠ [] → t.rd F.TST_FENCE_CNT_COUNT 0 = (s.rd F.TST_FENCE_CNT_COUNT 0 + (risen 32 old m).length) % 2 ^ 64) ∧ ∀ c, c < 32 →
       bit (t.rd F.TST_FENCE_CLUSTER 0) c = bit m c ∧ (bit m c = 1 → bit old c = 0 → t.inReset 2 c = true) ∧
       (bit m c = 0 → bit old c = 1 → Tab.get false t.conf.clusters c = false))) ∧
   (∀ (v : Word) (s : State),
     let old := s.rd F.TST_FENCE_QUARTER 0
     let m := v.toNat / 2 ^ 32 % 16 / 2 * 2
     (s.inReset 0 0 = true → exec (.tstFenceQuarter v) s = .next s) ∧
     (s.inReset 0 0 = false → (risen 4 old m).any (quarterInUse s) = true → ∃ t, exec (.tstFenceQuarter v) s = .next t ∧ t.rd F.TST_STATUS_FENCE_REFUSED 0 = 1 ∧
       SameRegs s t [(F.TST_STATUS_FENCE_REFUSED, 0)] ∧ t = { s with regs := t.regs }) ∧
     (s.inReset 0 0 = false → (risen 4 old m).any (quarterInUse s) = false → ∃ t, exec (.tstFenceQuarter v) s = .next t ∧ ∀ q, 1 ≤ q → q < 4 →
       bit (t.rd F.TST_FENCE_QUARTER 0) q = bit m q ∧
       (bit m q = 1 → bit old q = 0 → t.inReset 1 q = true ∧ bit (t.rd F.PWR_STATUS_Q_ON 0) q = 0 ∧ ∀ p, p < 64 → t.rd F.HBM_PC_STATE_STATE (64 * q + p) = 3) ∧
       (bit m q = 0 → bit old q = 1 → bit t.pwr.powering q = 1)))) ∧
  ((∀ s : State,
     (s.pins.lap = true ∨ s.inReset 0 0 = true → exec .tstCdlGo s = .next s) ∧
     (s.pins.lap = false → s.inReset 0 0 = false → s.admitted ≠ [] ∨ s.conf.load.isSome = true ∨ s.dict.fault = true →
       ∃ t, exec .tstCdlGo s = .next t ∧ t.rd F.TST_STATUS_CDL_REFUSED 0 = 1 ∧ SameRegs s t [(F.TST_STATUS_CDL_REFUSED, 0)] ∧ t = { s with regs := t.regs }) ∧
     (s.pins.lap = false → s.inReset 0 0 = false → lapRefused s = false → ∃ t, exec .tstCdlGo s = .next t ∧ t.pins.lap = true ∧ t.rd F.TST_CDL_STEP 0 = 1 ∧
       t.rd F.TST_CDL_PARKED 0 = 0 ∧ t.rd F.TST_CDL_FAILED 0 = 0 ∧ (∀ r, r < 32 → t.rd F.CFG_REGION_STATE r = 3 ∧ Tab.get false t.conf.frozen r = true) ∧
       lapRecordOK t = true ∧ natAt (nvRead t nvLap 64) 0 1 = 1 ∧
       natAt (nvRead t nvLap 64) 4 4 = (if lapRecordOK s then (natAt (nvRead s nvLap 64) 4 4 + 1) % 2 ^ 32 else 1) ∧ natAt (nvRead t nvLap 64) 8 6 = s.trk.ts % 2 ^ 48)) ∧
   (∀ (failed links klanes clanes fom margin : Fin 256) (codes : List Nat) (s : State),
     let c := Instr.cdlComplete failed links klanes clanes fom margin codes
     (s.pins.lap = false ∨ s.on F.TST_CDL_PARKED 0 = true ∨ s.inReset 0 0 = true → exec c s = .next s) ∧
     (s.pins.lap = true → s.on F.TST_CDL_PARKED 0 = false → s.inReset 0 0 = false → ∃ t, exec c s = .next t ∧ t.rd F.TST_CDL_PARKED 0 = 1 ∧ t.rd F.TST_CDL_STEP 0 = 0 ∧
       t.rd F.TST_CDL_CNT_COUNT 0 = (s.rd F.TST_CDL_CNT_COUNT 0 + 1) % 2 ^ 64 ∧ (∀ q, q < 4 → t.inReset 1 q = true ∧ Tab.get false t.pwr.held (4096 + q) = true) ∧
       (∀ k, k = 2 ∨ k = 3 ∨ k = 5 ∨ k = 7 → bit (t.rd F.TST_CDL_FAILED 0) k = bit failed k) ∧
       bit (t.rd F.TST_CDL_FAILED 0) 4 = (if s.on F.CXL_TIER_CTRL_EN 0 then 0 else bit failed 4) ∧
       bit (t.rd F.TST_CDL_FAILED 0) 6 = b2n (decide (0 < pinsDiffer s codes)) ∧
       natAt (nvRead t nvLap 64) 0 1 = (if t.rd F.TST_CDL_FAILED 0 = 0 then 2 else 3) ∧ lapRecordOK t = true ∧
       (s.pins.ref = none → pinsDiffer s codes = 0 ∧ (s.pins.programmed = true → t.pins.ref = some ((List.range 960).map (fun i => codes.getD i 3)))))) ∧
   (∀ (levels load : List Bool) (s : State),
     exec .bypass s = .next { s with pins := { s.pins with tap := 0 }, outbox := .tdo [false] :: s.outbox } ∧
     exec .idcode s = .next { s with pins := { s.pins with tap := 1 }, outbox := .tdo ((List.range 32).map (fun k => decide (bit (Config.majorStepping % 16 * 2 ^ 28 + 0x9840B67) k = 1))) :: s.outbox } ∧
     exec (.samplePreload levels load) s = .next { s with pins := { s.pins with tap := 2, scan := load }, outbox := .tdo (tapLevels s levels) :: s.outbox } ∧
     (tapLevels s levels).length = levels.length ∧
     (∀ i l, levels[i]? = some l → (tapLevels s levels)[i]? = some
       (if i < 960 ∧ (s.on F.FAB_BANK_STAT_HELD (i / 48) = true ∨ pinState s i = .low) then false else l)) ∧
     (s.inReset 0 0 = true ∨ s.on F.TST_CDL_PARKED 0 = true →
       exec (.extest levels) s = .next { s with pins := { s.pins with tap := 3 }, outbox := .tdo levels :: s.outbox } ∧
       exec .clamp s = .next { s with pins := { s.pins with tap := 4 }, outbox := .tdo [false] :: s.outbox }) ∧
     (s.inReset 0 0 = false → s.on F.TST_CDL_PARKED 0 = false → exec (.extest levels) s = exec .bypass s ∧ exec .clamp s = exec .bypass s)))

/-! ### Single rules in the spec's words -/

/-- The slot table's banks (R253): SWAP makes the other bank active at slot 0, then SWAP clears and BANK has changed; a write of the table reaches the
inactive bank at once, and the active bank ignores it. -/
def Obligations.SlotTableBankSwapsAtSlotZero : Prop :=
  (∀ (p : Fin 12) (s : State),
    (∃ t, exec (.swap p) s = .next t ∧ t.rd F.KMR_FRAME_SWAP p = 1 ∧ SameRegs s t [(F.KMR_FRAME_SWAP, p.val)] ∧ t = { s with regs := t.regs }) ∧
    (s.on F.KMR_FRAME_SWAP p = true → (s.kport p).slot = 0 → s.rd F.KMR_FRAME_BANK p ≤ 1 → ∃ t, exec (.bankSwapApply p) s = .next t ∧
      t.rd F.KMR_FRAME_BANK p = 1 - s.rd F.KMR_FRAME_BANK p ∧ t.rd F.KMR_FRAME_SWAP p = 0 ∧
      SameRegs s t [(F.KMR_FRAME_BANK, p.val), (F.KMR_FRAME_SWAP, p.val)] ∧ t = { s with regs := t.regs }) ∧
    (s.on F.KMR_FRAME_SWAP p = false ∨ (s.kport p).slot ≠ 0 → exec (.bankSwapApply p) s = .next s)) ∧
  (∀ (p : Fin 12) (b : Fin 2) (i : Fin 2048) (off : Nat) (v : Word) (s : State),
    let n := p.val * 4096 + b.val * 2048 + i.val
    off % 8 = 0 → regAt off = some (.KMR_SLOT_TABLE, n) → noSuchPlace off = false → targetAt off = none → regDown s Reg.KMR_SLOT_TABLE.place n = false →
    (s.rd F.KMR_FRAME_BANK p = b → exec (.registerWrite off 8 v) s = .next s) ∧
    (s.rd F.KMR_FRAME_BANK p ≠ b → ∃ t, exec (.registerWrite off 8 v) s = .next t ∧ t.rd F.KMR_SLOT_TABLE_DATA n = v.toNat &&& 0x000000FF000000FF ∧
      SameRegs s t [(F.KMR_SLOT_TABLE_DATA, n)] ∧ t = { s with regs := t.regs }))

/-- The slave ports (R357): a word on a port while no load from it is in progress, or while CFG_CTRL does not enable it, is discarded and counted and
changes nothing else, so that data is accepted only while both hold. -/
def Obligations.SlavePortsAcceptOnlyTheirLoads : Prop :=
  ∀ (parallel : Bool) (value : BitVec 32) (s : State),
    (∀ l, s.conf.load = some l → l.src ≠ (if parallel then 2 else 1)) ∨ s.on (if parallel then F.CFG_CTRL_SPP_EN else F.CFG_CTRL_SSP_EN) 0 = false →
    ∃ t, exec (.slavePortWord parallel value true) s = .next t ∧
      t.rd F.CFG_PORT_DISCARD_CNT_COUNT 0 = (s.rd F.CFG_PORT_DISCARD_CNT_COUNT 0 + 1) % 2 ^ 64 ∧
      SameRegs s t [(F.CFG_PORT_DISCARD_CNT_COUNT, 0), (F.CFG_WRAP_FLAGS, 0)] ∧ t = { s with regs := t.regs }
end

