-- ==== Sys2Proof/Laws/Order.lean ====
section
/-!
SUPPORT. The order of service (R157, R303) loses and invents no packet: what `placePacket` and `servedOrder` answer is what they were
given, in another order.
-/
namespace Sys2Proof.Machine

/-- A packet that takes its place joins the others, and each of them stays. -/
theorem placePacket_perm (now : Nat) (p : Packet) (l : List Packet) : (placePacket now p l).Perm (p :: l) := by
  induction l with
  | nil => exact .refl _
  | cons r l ih =>
    simp only [placePacket]
    split
    · exact .refl _
    · exact (ih.cons r).trans (.swap p r l)

/-- Every packet that waits is served once. -/
theorem servedOrder_perm (now : Nat) (l : List Packet) : (servedOrder now l).Perm l := by
  suffices h : ∀ a : List Packet, (l.foldl (fun a p => placePacket now p a) a).Perm (a ++ l) by simpa [servedOrder] using h []
  induction l with
  | nil => intro a; simp
  | cons p l ih =>
    intro a
    refine (ih _).trans (((placePacket_perm now p a).append_right l).trans ?_)
    simpa using (List.perm_middle (l₁ := a) (a := p) (l₂ := l)).symm

@[simp] theorem mem_servedOrder (now : Nat) (l : List Packet) (p : Packet) : p ∈ servedOrder now l ↔ p ∈ l :=
  (servedOrder_perm now l).mem_iff

end Sys2Proof.Machine
end

