-- ==== Sys2Proof/Laws/Tab.lean ====
section
/-!
SUPPORT. The laws of sparse tables: what a read gives after a write or a drop, and that writes and drops keep the canonical form.
-/
namespace Sys2Proof.Machine

@[simp] theorem Tab.get_nil {α : Type} (d : α) (k : Nat) : Tab.get d ([] : Tab α) k = d := rfl

theorem Tab.find?_erase_same {α : Type} (t : Tab α) (k : Nat) : Tab.find? (Tab.erase t k) k = none := by
  induction t with
  | nil => rfl
  | cons e r ih =>
    obtain ⟨j, v⟩ := e
    by_cases h : j = k <;> simp [Tab.erase, Tab.find?, h, ih]

theorem Tab.find?_erase_other {α : Type} (t : Tab α) {j k : Nat} (h : j ≠ k) : Tab.find? (Tab.erase t k) j = Tab.find? t j := by
  induction t with
  | nil => rfl
  | cons e r ih =>
    obtain ⟨i, v⟩ := e
    by_cases hk : i = k
    · subst hk
      have : i ≠ j := fun e => h e.symm
      simp [Tab.erase, Tab.find?, this, ih]
    · by_cases hj : i = j <;> simp [Tab.erase, Tab.find?, hk, hj, ih]
      · subst hj; simp [Tab.find?, hk]

theorem Tab.find?_ins_same {α : Type} (t : Tab α) (k : Nat) (v : α) (h : Tab.find? t k = none) :
    Tab.find? (Tab.ins t k v) k = some v := by
  induction t with
  | nil => simp [Tab.ins, Tab.find?]
  | cons e r ih =>
    obtain ⟨i, w⟩ := e
    by_cases hi : i = k
    · simp [Tab.find?, hi] at h
    · have hr : Tab.find? r k = none := by simpa [Tab.find?, hi] using h
      by_cases hk : k < i <;> simp [Tab.ins, Tab.find?, hk, hi, ih hr]

theorem Tab.find?_ins_other {α : Type} (t : Tab α) {j k : Nat} (v : α) (h : j ≠ k) :
    Tab.find? (Tab.ins t k v) j = Tab.find? t j := by
  have hk : k ≠ j := fun e => h e.symm
  induction t with
  | nil => simp [Tab.ins, Tab.find?, hk]
  | cons e r ih =>
    obtain ⟨i, w⟩ := e
    by_cases hki : k < i
    · simp [Tab.ins, hki, Tab.find?, hk]
    · rw [Tab.ins, if_neg hki, Tab.find?, Tab.find?, ih]

/-- A read of the key just written gives what was written. -/
@[simp] theorem Tab.get_set_same {α : Type} [DecidableEq α] (d : α) (t : Tab α) (k : Nat) (v : α) :
    Tab.get d (Tab.set d t k v) k = v := by
  by_cases h : v = d
  · simp [Tab.get, Tab.set, h, Tab.find?_erase_same]
  · simp [Tab.get, Tab.set, h, Tab.find?_ins_same _ _ _ (Tab.find?_erase_same t k)]

/-- A write leaves every other key alone, whatever it is read with as the default. -/
theorem Tab.get_set_other {α : Type} [DecidableEq α] (d d' : α) (t : Tab α) {j k : Nat} (v : α) (h : j ≠ k) :
    Tab.get d' (Tab.set d t k v) j = Tab.get d' t j := by
  by_cases hv : v = d
  · simp [Tab.get, Tab.set, hv, Tab.find?_erase_other t h]
  · simp [Tab.get, Tab.set, hv, Tab.find?_ins_other _ v h, Tab.find?_erase_other t h]

theorem Tab.get_set {α : Type} [DecidableEq α] (d : α) (t : Tab α) (j k : Nat) (v : α) :
    Tab.get d (Tab.set d t k v) j = if j = k then v else Tab.get d t j := by
  by_cases h : j = k
  · subst h; simp
  · simp [h, Tab.get_set_other d d t v h]

theorem Tab.find?_drop {α : Type} (t : Tab α) (p : Nat → Bool) (k : Nat) :
    Tab.find? (Tab.drop t p) k = if p k then none else Tab.find? t k := by
  induction t with
  | nil => simp [Tab.drop, Tab.find?]
  | cons e r ih =>
    obtain ⟨i, v⟩ := e
    have ih' : Tab.find? (List.filter (fun e : Nat × α => !p e.1) r) k = if p k then none else Tab.find? r k := ih
    by_cases hi : i = k
    · subst hi
      by_cases hp : p i = true
      · simp [Tab.drop, hp, ih']
      · simp [Tab.drop, hp, Tab.find?]
    · by_cases hp : p i = true <;> simp [Tab.drop, hp, Tab.find?, hi, ih']

/-- After a drop, the dropped keys read as the default and the others as before. -/
theorem Tab.get_drop {α : Type} (d : α) (t : Tab α) (p : Nat → Bool) (k : Nat) :
    Tab.get d (Tab.drop t p) k = if p k then d else Tab.get d t k := by
  by_cases h : p k = true <;> simp [Tab.get, Tab.find?_drop, h]

/-! ### The canonical form -/

theorem Tab.risingFrom_le {α : Type} {a b : Nat} (t : Tab α) (h : b ≤ a) (ht : Tab.risingFrom (some a) t = true) :
    Tab.risingFrom (some b) t = true := by
  cases t with
  | nil => rfl
  | cons e r =>
    simp only [Tab.risingFrom, Bool.and_eq_true, decide_eq_true_eq] at ht ⊢
    exact ⟨by omega, ht.2⟩

theorem Tab.risingFrom_erase {α : Type} (t : Tab α) (k : Nat) : ∀ lo, Tab.risingFrom (some lo) t = true →
    Tab.risingFrom (some lo) (Tab.erase t k) = true := by
  induction t with
  | nil => exact fun _ h => h
  | cons e r ih =>
    obtain ⟨j, v⟩ := e
    intro lo h
    simp only [Tab.risingFrom, Bool.and_eq_true, decide_eq_true_eq] at h
    by_cases hj : j = k
    · simp only [Tab.erase, hj, if_true]
      exact Tab.risingFrom_le _ (by omega) (hj ▸ ih _ h.2)
    · simp only [Tab.erase, hj, if_false, Tab.risingFrom, Bool.and_eq_true, decide_eq_true_eq]
      exact ⟨h.1, ih _ h.2⟩

theorem Tab.risingFrom_ins {α : Type} (t : Tab α) (k : Nat) (v : α) : ∀ lo, lo < k → Tab.risingFrom (some lo) t = true →
    Tab.find? t k = none → Tab.risingFrom (some lo) (Tab.ins t k v) = true := by
  induction t with
  | nil => intro lo h _ _; simp [Tab.ins, Tab.risingFrom, h]
  | cons e r ih =>
    obtain ⟨j, w⟩ := e
    intro lo hlo h hf
    simp only [Tab.risingFrom, Bool.and_eq_true, decide_eq_true_eq] at h
    by_cases hk : k < j
    · simp [Tab.ins, hk, Tab.risingFrom, hlo, h.2]
    · by_cases hj : j = k
      · simp [Tab.find?, hj] at hf
      · have hf' : Tab.find? r k = none := by simpa [Tab.find?, hj] using hf
        have hjk : j < k := by omega
        simp [Tab.ins, hk, Tab.risingFrom, h.1, ih j hjk h.2 hf']

theorem Tab.risingFrom_none {α : Type} (t : Tab α) (h : ∀ e, t.head? = some e → Tab.risingFrom (some e.1) t.tail = true) :
    Tab.risingFrom none t = true := by
  cases t with
  | nil => rfl
  | cons e r => exact h e rfl

theorem Tab.risingFrom_ins_none {α : Type} (t : Tab α) (k : Nat) (v : α) (h : Tab.risingFrom none t = true)
    (hf : Tab.find? t k = none) : Tab.risingFrom none (Tab.ins t k v) = true := by
  cases t with
  | nil => simp [Tab.ins, Tab.risingFrom]
  | cons e r =>
    obtain ⟨j, w⟩ := e
    simp only [Tab.risingFrom] at h
    by_cases hk : k < j
    · simp [Tab.ins, hk, Tab.risingFrom, h]
    · by_cases hj : j = k
      · simp [Tab.find?, hj] at hf
      · have hf' : Tab.find? r k = none := by simpa [Tab.find?, hj] using hf
        simp only [Tab.ins, hk, if_false, Tab.risingFrom]
        exact Tab.risingFrom_ins r k v j (by omega) h hf'

theorem Tab.risingFrom_weaken {α : Type} (t : Tab α) (lo : Nat) (h : Tab.risingFrom (some lo) t = true) :
    Tab.risingFrom none t = true := by
  cases t with
  | nil => rfl
  | cons e r =>
    simp only [Tab.risingFrom, Bool.and_eq_true] at h ⊢
    exact h.2

theorem Tab.risingFrom_erase_none {α : Type} (t : Tab α) (k : Nat) (h : Tab.risingFrom none t = true) :
    Tab.risingFrom none (Tab.erase t k) = true := by
  cases t with
  | nil => rfl
  | cons e r =>
    obtain ⟨j, v⟩ := e
    simp only [Tab.risingFrom] at h
    by_cases hj : j = k
    · simp only [Tab.erase, hj, if_true]
      exact Tab.risingFrom_weaken _ j (Tab.risingFrom_erase r k j h)
    · simp only [Tab.erase, hj, if_false, Tab.risingFrom]
      exact Tab.risingFrom_erase r k j h

theorem Tab.mem_erase {α : Type} (t : Tab α) (k : Nat) {e : Nat × α} (h : e ∈ Tab.erase t k) : e ∈ t := by
  induction t with
  | nil => exact h
  | cons x r ih =>
    obtain ⟨j, v⟩ := x
    by_cases hj : j = k
    · simp only [Tab.erase, hj, if_true] at h
      exact List.mem_cons_of_mem _ (ih h)
    · simp only [Tab.erase, hj, if_false, List.mem_cons] at h
      rcases h with h | h
      · exact h ▸ List.mem_cons_self
      · exact List.mem_cons_of_mem _ (ih h)

theorem Tab.mem_ins {α : Type} (t : Tab α) (k : Nat) (v : α) {e : Nat × α} (h : e ∈ Tab.ins t k v) : e = (k, v) ∨ e ∈ t := by
  induction t with
  | nil => simpa [Tab.ins] using h
  | cons x r ih =>
    obtain ⟨j, w⟩ := x
    by_cases hk : k < j
    · simpa [Tab.ins, hk] using h
    · simp only [Tab.ins, hk, if_false, List.mem_cons] at h
      rcases h with h | h
      · exact .inr (by simp [h])
      · rcases ih h with h | h
        · exact .inl h
        · exact .inr (List.mem_cons_of_mem _ h)

theorem Tab.wf_iff {α : Type} [DecidableEq α] (d : Nat → α) (t : Tab α) :
    Tab.wf d t = true ↔ Tab.risingFrom none t = true ∧ ∀ e ∈ t, e.2 ≠ d e.1 := by
  simp [Tab.wf]

theorem Tab.wf_erase {α : Type} [DecidableEq α] (d : Nat → α) (t : Tab α) (k : Nat) (h : Tab.wf d t = true) :
    Tab.wf d (Tab.erase t k) = true := by
  rw [Tab.wf_iff] at h ⊢
  exact ⟨Tab.risingFrom_erase_none t k h.1, fun e he => h.2 e (Tab.mem_erase t k he)⟩

/-- A write keeps the canonical form. -/
theorem Tab.wf_set {α : Type} [DecidableEq α] (d : Nat → α) (t : Tab α) (k : Nat) (v : α) (h : Tab.wf d t = true) :
    Tab.wf d (Tab.set (d k) t k v) = true := by
  by_cases hv : v = d k
  · simpa [Tab.set, hv] using Tab.wf_erase d t k h
  · have he := Tab.wf_erase d t k h
    rw [Tab.wf_iff] at he
    simp only [Tab.set, hv, if_false]
    rw [Tab.wf_iff]
    refine ⟨Tab.risingFrom_ins_none _ _ _ he.1 (Tab.find?_erase_same t k), fun e hm => ?_⟩
    rcases Tab.mem_ins _ _ _ hm with rfl | hm
    · exact hv
    · exact he.2 e hm

theorem Tab.risingFrom_filter {α : Type} (p : Nat × α → Bool) (t : Tab α) : ∀ lo, Tab.risingFrom (some lo) t = true →
    Tab.risingFrom (some lo) (List.filter p t) = true := by
  induction t with
  | nil => exact fun _ h => h
  | cons e r ih =>
    intro lo h
    simp only [Tab.risingFrom, Bool.and_eq_true, decide_eq_true_eq] at h
    by_cases hp : p e = true
    · rw [List.filter_cons_of_pos hp]
      simp [Tab.risingFrom, h.1, ih _ h.2]
    · rw [List.filter_cons_of_neg (by simpa using hp)]
      exact Tab.risingFrom_le _ (by omega) (ih _ h.2)

/-- A drop keeps the canonical form. -/
theorem Tab.wf_drop {α : Type} [DecidableEq α] (d : Nat → α) (t : Tab α) (p : Nat → Bool) (h : Tab.wf d t = true) :
    Tab.wf d (Tab.drop t p) = true := by
  rw [Tab.wf_iff] at h ⊢
  refine ⟨?_, fun e he => h.2 e (List.mem_of_mem_filter he)⟩
  cases t with
  | nil => rfl
  | cons e r =>
    have hr : Tab.risingFrom (some e.1) r = true := h.1
    by_cases hp : p e.1 = true
    · have : Tab.drop (e :: r) p = Tab.drop r p := by simp [Tab.drop, hp]
      rw [this]
      exact Tab.risingFrom_weaken _ e.1 (Tab.risingFrom_filter _ r _ hr)
    · have : Tab.drop (e :: r) p = e :: Tab.drop r p := by simp [Tab.drop, hp]
      rw [this]
      exact Tab.risingFrom_filter _ r _ hr

end Sys2Proof.Machine
end

