-- ==== Sys2Proof/Laws/State.lean ====
section
/-!
SUPPORT. What each update of the state leaves alone: one lemma per field and update, all true by unfolding; and the laws of the
register fields: a read after a write, of the same field or another one, and a read after any update that is not a write.
-/
namespace Sys2Proof.Machine

variable (s : State)

/-! ### `wr` -/

@[simp] theorem State.wr_sram (f : Fld) (i v : Nat) : (s.wr f i v).sram = s.sram := rfl
@[simp] theorem State.wr_full (f : Fld) (i v : Nat) : (s.wr f i v).full = s.full := rfl
@[simp] theorem State.wr_tile (f : Fld) (i v : Nat) : (s.wr f i v).tile = s.tile := rfl
@[simp] theorem State.wr_sync (f : Fld) (i v : Nat) : (s.wr f i v).sync = s.sync := rfl
@[simp] theorem State.wr_trk (f : Fld) (i v : Nat) : (s.wr f i v).trk = s.trk := rfl
@[simp] theorem State.wr_mem (f : Fld) (i v : Nat) : (s.wr f i v).mem = s.mem := rfl
@[simp] theorem State.wr_streams (f : Fld) (i v : Nat) : (s.wr f i v).streams = s.streams := rfl
@[simp] theorem State.wr_noc (f : Fld) (i v : Nat) : (s.wr f i v).noc = s.noc := rfl
@[simp] theorem State.wr_ses (f : Fld) (i v : Nat) : (s.wr f i v).ses = s.ses := rfl
@[simp] theorem State.wr_pci (f : Fld) (i v : Nat) : (s.wr f i v).pci = s.pci := rfl
@[simp] theorem State.wr_kmr (f : Fld) (i v : Nat) : (s.wr f i v).kmr = s.kmr := rfl
@[simp] theorem State.wr_fab (f : Fld) (i v : Nat) : (s.wr f i v).fab = s.fab := rfl
@[simp] theorem State.wr_lanes (f : Fld) (i v : Nat) : (s.wr f i v).lanes = s.lanes := rfl
@[simp] theorem State.wr_conf (f : Fld) (i v : Nat) : (s.wr f i v).conf = s.conf := rfl
@[simp] theorem State.wr_dict (f : Fld) (i v : Nat) : (s.wr f i v).dict = s.dict := rfl
@[simp] theorem State.wr_pwr (f : Fld) (i v : Nat) : (s.wr f i v).pwr = s.pwr := rfl
@[simp] theorem State.wr_sec (f : Fld) (i v : Nat) : (s.wr f i v).sec = s.sec := rfl
@[simp] theorem State.wr_pins (f : Fld) (i v : Nat) : (s.wr f i v).pins = s.pins := rfl
@[simp] theorem State.wr_rst (f : Fld) (i v : Nat) : (s.wr f i v).rst = s.rst := rfl
@[simp] theorem State.wr_outbox (f : Fld) (i v : Nat) : (s.wr f i v).outbox = s.outbox := rfl
@[simp] theorem State.wr_freeCtr (f : Fld) (i v : Nat) : (s.wr f i v).freeCtr = s.freeCtr := rfl
@[simp] theorem State.wr_pending (f : Fld) (i v : Nat) : (s.wr f i v).pending = s.pending := rfl

/-! ### `emit` -/

@[simp] theorem State.emit_regs (o : Out) : (s.emit o).regs = s.regs := rfl
@[simp] theorem State.emit_sram (o : Out) : (s.emit o).sram = s.sram := rfl
@[simp] theorem State.emit_full (o : Out) : (s.emit o).full = s.full := rfl
@[simp] theorem State.emit_tile (o : Out) : (s.emit o).tile = s.tile := rfl
@[simp] theorem State.emit_sync (o : Out) : (s.emit o).sync = s.sync := rfl
@[simp] theorem State.emit_trk (o : Out) : (s.emit o).trk = s.trk := rfl
@[simp] theorem State.emit_mem (o : Out) : (s.emit o).mem = s.mem := rfl
@[simp] theorem State.emit_streams (o : Out) : (s.emit o).streams = s.streams := rfl
@[simp] theorem State.emit_noc (o : Out) : (s.emit o).noc = s.noc := rfl
@[simp] theorem State.emit_ses (o : Out) : (s.emit o).ses = s.ses := rfl
@[simp] theorem State.emit_pci (o : Out) : (s.emit o).pci = s.pci := rfl
@[simp] theorem State.emit_kmr (o : Out) : (s.emit o).kmr = s.kmr := rfl
@[simp] theorem State.emit_fab (o : Out) : (s.emit o).fab = s.fab := rfl
@[simp] theorem State.emit_lanes (o : Out) : (s.emit o).lanes = s.lanes := rfl
@[simp] theorem State.emit_conf (o : Out) : (s.emit o).conf = s.conf := rfl
@[simp] theorem State.emit_dict (o : Out) : (s.emit o).dict = s.dict := rfl
@[simp] theorem State.emit_pwr (o : Out) : (s.emit o).pwr = s.pwr := rfl
@[simp] theorem State.emit_sec (o : Out) : (s.emit o).sec = s.sec := rfl
@[simp] theorem State.emit_pins (o : Out) : (s.emit o).pins = s.pins := rfl
@[simp] theorem State.emit_rst (o : Out) : (s.emit o).rst = s.rst := rfl
@[simp] theorem State.emit_freeCtr (o : Out) : (s.emit o).freeCtr = s.freeCtr := rfl
@[simp] theorem State.emit_pending (o : Out) : (s.emit o).pending = s.pending := rfl
@[simp] theorem State.emit_rd (o : Out) (g : Fld) (j : Nat) : (s.emit o).rd g j = s.rd g j := rfl

/-! ### `setFull` -/

@[simp] theorem State.setFull_regs (w : Nat) (v : Bool) : (s.setFull w v).regs = s.regs := rfl
@[simp] theorem State.setFull_sram (w : Nat) (v : Bool) : (s.setFull w v).sram = s.sram := rfl
@[simp] theorem State.setFull_tile (w : Nat) (v : Bool) : (s.setFull w v).tile = s.tile := rfl
@[simp] theorem State.setFull_sync (w : Nat) (v : Bool) : (s.setFull w v).sync = s.sync := rfl
@[simp] theorem State.setFull_trk (w : Nat) (v : Bool) : (s.setFull w v).trk = s.trk := rfl
@[simp] theorem State.setFull_mem (w : Nat) (v : Bool) : (s.setFull w v).mem = s.mem := rfl
@[simp] theorem State.setFull_streams (w : Nat) (v : Bool) : (s.setFull w v).streams = s.streams := rfl
@[simp] theorem State.setFull_noc (w : Nat) (v : Bool) : (s.setFull w v).noc = s.noc := rfl
@[simp] theorem State.setFull_ses (w : Nat) (v : Bool) : (s.setFull w v).ses = s.ses := rfl
@[simp] theorem State.setFull_pci (w : Nat) (v : Bool) : (s.setFull w v).pci = s.pci := rfl
@[simp] theorem State.setFull_kmr (w : Nat) (v : Bool) : (s.setFull w v).kmr = s.kmr := rfl
@[simp] theorem State.setFull_fab (w : Nat) (v : Bool) : (s.setFull w v).fab = s.fab := rfl
@[simp] theorem State.setFull_lanes (w : Nat) (v : Bool) : (s.setFull w v).lanes = s.lanes := rfl
@[simp] theorem State.setFull_conf (w : Nat) (v : Bool) : (s.setFull w v).conf = s.conf := rfl
@[simp] theorem State.setFull_dict (w : Nat) (v : Bool) : (s.setFull w v).dict = s.dict := rfl
@[simp] theorem State.setFull_pwr (w : Nat) (v : Bool) : (s.setFull w v).pwr = s.pwr := rfl
@[simp] theorem State.setFull_sec (w : Nat) (v : Bool) : (s.setFull w v).sec = s.sec := rfl
@[simp] theorem State.setFull_pins (w : Nat) (v : Bool) : (s.setFull w v).pins = s.pins := rfl
@[simp] theorem State.setFull_rst (w : Nat) (v : Bool) : (s.setFull w v).rst = s.rst := rfl
@[simp] theorem State.setFull_outbox (w : Nat) (v : Bool) : (s.setFull w v).outbox = s.outbox := rfl
@[simp] theorem State.setFull_freeCtr (w : Nat) (v : Bool) : (s.setFull w v).freeCtr = s.freeCtr := rfl
@[simp] theorem State.setFull_pending (w : Nat) (v : Bool) : (s.setFull w v).pending = s.pending := rfl
@[simp] theorem State.setFull_rd (w : Nat) (v : Bool) (g : Fld) (j : Nat) : (s.setFull w v).rd g j = s.rd g j := rfl

/-! ### `setP` -/

@[simp] theorem State.setP_regs (q p v : Nat) : (s.setP q p v).regs = s.regs := rfl
@[simp] theorem State.setP_sram (q p v : Nat) : (s.setP q p v).sram = s.sram := rfl
@[simp] theorem State.setP_full (q p v : Nat) : (s.setP q p v).full = s.full := rfl
@[simp] theorem State.setP_sync (q p v : Nat) : (s.setP q p v).sync = s.sync := rfl
@[simp] theorem State.setP_trk (q p v : Nat) : (s.setP q p v).trk = s.trk := rfl
@[simp] theorem State.setP_mem (q p v : Nat) : (s.setP q p v).mem = s.mem := rfl
@[simp] theorem State.setP_streams (q p v : Nat) : (s.setP q p v).streams = s.streams := rfl
@[simp] theorem State.setP_noc (q p v : Nat) : (s.setP q p v).noc = s.noc := rfl
@[simp] theorem State.setP_ses (q p v : Nat) : (s.setP q p v).ses = s.ses := rfl
@[simp] theorem State.setP_pci (q p v : Nat) : (s.setP q p v).pci = s.pci := rfl
@[simp] theorem State.setP_kmr (q p v : Nat) : (s.setP q p v).kmr = s.kmr := rfl
@[simp] theorem State.setP_fab (q p v : Nat) : (s.setP q p v).fab = s.fab := rfl
@[simp] theorem State.setP_lanes (q p v : Nat) : (s.setP q p v).lanes = s.lanes := rfl
@[simp] theorem State.setP_conf (q p v : Nat) : (s.setP q p v).conf = s.conf := rfl
@[simp] theorem State.setP_dict (q p v : Nat) : (s.setP q p v).dict = s.dict := rfl
@[simp] theorem State.setP_pwr (q p v : Nat) : (s.setP q p v).pwr = s.pwr := rfl
@[simp] theorem State.setP_sec (q p v : Nat) : (s.setP q p v).sec = s.sec := rfl
@[simp] theorem State.setP_pins (q p v : Nat) : (s.setP q p v).pins = s.pins := rfl
@[simp] theorem State.setP_rst (q p v : Nat) : (s.setP q p v).rst = s.rst := rfl
@[simp] theorem State.setP_outbox (q p v : Nat) : (s.setP q p v).outbox = s.outbox := rfl
@[simp] theorem State.setP_freeCtr (q p v : Nat) : (s.setP q p v).freeCtr = s.freeCtr := rfl
@[simp] theorem State.setP_pending (q p v : Nat) : (s.setP q p v).pending = s.pending := rfl
@[simp] theorem State.setP_rd (q p v : Nat) (g : Fld) (j : Nat) : (s.setP q p v).rd g j = s.rd g j := rfl

/-! ### `setV` -/

@[simp] theorem State.setV_regs (q v x : Nat) : (s.setV q v x).regs = s.regs := rfl
@[simp] theorem State.setV_sram (q v x : Nat) : (s.setV q v x).sram = s.sram := rfl
@[simp] theorem State.setV_full (q v x : Nat) : (s.setV q v x).full = s.full := rfl
@[simp] theorem State.setV_sync (q v x : Nat) : (s.setV q v x).sync = s.sync := rfl
@[simp] theorem State.setV_trk (q v x : Nat) : (s.setV q v x).trk = s.trk := rfl
@[simp] theorem State.setV_mem (q v x : Nat) : (s.setV q v x).mem = s.mem := rfl
@[simp] theorem State.setV_streams (q v x : Nat) : (s.setV q v x).streams = s.streams := rfl
@[simp] theorem State.setV_noc (q v x : Nat) : (s.setV q v x).noc = s.noc := rfl
@[simp] theorem State.setV_ses (q v x : Nat) : (s.setV q v x).ses = s.ses := rfl
@[simp] theorem State.setV_pci (q v x : Nat) : (s.setV q v x).pci = s.pci := rfl
@[simp] theorem State.setV_kmr (q v x : Nat) : (s.setV q v x).kmr = s.kmr := rfl
@[simp] theorem State.setV_fab (q v x : Nat) : (s.setV q v x).fab = s.fab := rfl
@[simp] theorem State.setV_lanes (q v x : Nat) : (s.setV q v x).lanes = s.lanes := rfl
@[simp] theorem State.setV_conf (q v x : Nat) : (s.setV q v x).conf = s.conf := rfl
@[simp] theorem State.setV_dict (q v x : Nat) : (s.setV q v x).dict = s.dict := rfl
@[simp] theorem State.setV_pwr (q v x : Nat) : (s.setV q v x).pwr = s.pwr := rfl
@[simp] theorem State.setV_sec (q v x : Nat) : (s.setV q v x).sec = s.sec := rfl
@[simp] theorem State.setV_pins (q v x : Nat) : (s.setV q v x).pins = s.pins := rfl
@[simp] theorem State.setV_rst (q v x : Nat) : (s.setV q v x).rst = s.rst := rfl
@[simp] theorem State.setV_outbox (q v x : Nat) : (s.setV q v x).outbox = s.outbox := rfl
@[simp] theorem State.setV_freeCtr (q v x : Nat) : (s.setV q v x).freeCtr = s.freeCtr := rfl
@[simp] theorem State.setV_pending (q v x : Nat) : (s.setV q v x).pending = s.pending := rfl
@[simp] theorem State.setV_rd (q v x : Nat) (g : Fld) (j : Nat) : (s.setV q v x).rd g j = s.rd g j := rfl

/-! ### `setHead` -/

@[simp] theorem State.setHead_regs (q : Nat) (h : HeadWait) : (s.setHead q h).regs = s.regs := rfl
@[simp] theorem State.setHead_sram (q : Nat) (h : HeadWait) : (s.setHead q h).sram = s.sram := rfl
@[simp] theorem State.setHead_full (q : Nat) (h : HeadWait) : (s.setHead q h).full = s.full := rfl
@[simp] theorem State.setHead_sync (q : Nat) (h : HeadWait) : (s.setHead q h).sync = s.sync := rfl
@[simp] theorem State.setHead_trk (q : Nat) (h : HeadWait) : (s.setHead q h).trk = s.trk := rfl
@[simp] theorem State.setHead_mem (q : Nat) (h : HeadWait) : (s.setHead q h).mem = s.mem := rfl
@[simp] theorem State.setHead_streams (q : Nat) (h : HeadWait) : (s.setHead q h).streams = s.streams := rfl
@[simp] theorem State.setHead_noc (q : Nat) (h : HeadWait) : (s.setHead q h).noc = s.noc := rfl
@[simp] theorem State.setHead_ses (q : Nat) (h : HeadWait) : (s.setHead q h).ses = s.ses := rfl
@[simp] theorem State.setHead_pci (q : Nat) (h : HeadWait) : (s.setHead q h).pci = s.pci := rfl
@[simp] theorem State.setHead_kmr (q : Nat) (h : HeadWait) : (s.setHead q h).kmr = s.kmr := rfl
@[simp] theorem State.setHead_fab (q : Nat) (h : HeadWait) : (s.setHead q h).fab = s.fab := rfl
@[simp] theorem State.setHead_lanes (q : Nat) (h : HeadWait) : (s.setHead q h).lanes = s.lanes := rfl
@[simp] theorem State.setHead_conf (q : Nat) (h : HeadWait) : (s.setHead q h).conf = s.conf := rfl
@[simp] theorem State.setHead_dict (q : Nat) (h : HeadWait) : (s.setHead q h).dict = s.dict := rfl
@[simp] theorem State.setHead_pwr (q : Nat) (h : HeadWait) : (s.setHead q h).pwr = s.pwr := rfl
@[simp] theorem State.setHead_sec (q : Nat) (h : HeadWait) : (s.setHead q h).sec = s.sec := rfl
@[simp] theorem State.setHead_pins (q : Nat) (h : HeadWait) : (s.setHead q h).pins = s.pins := rfl
@[simp] theorem State.setHead_rst (q : Nat) (h : HeadWait) : (s.setHead q h).rst = s.rst := rfl
@[simp] theorem State.setHead_outbox (q : Nat) (h : HeadWait) : (s.setHead q h).outbox = s.outbox := rfl
@[simp] theorem State.setHead_freeCtr (q : Nat) (h : HeadWait) : (s.setHead q h).freeCtr = s.freeCtr := rfl
@[simp] theorem State.setHead_pending (q : Nat) (h : HeadWait) : (s.setHead q h).pending = s.pending := rfl
@[simp] theorem State.setHead_rd (q : Nat) (h : HeadWait) (g : Fld) (j : Nat) : (s.setHead q h).rd g j = s.rd g j := rfl

/-! ### `setArrived` -/

@[simp] theorem State.setArrived_regs (q : Nat) (v : Bool) : (s.setArrived q v).regs = s.regs := rfl
@[simp] theorem State.setArrived_sram (q : Nat) (v : Bool) : (s.setArrived q v).sram = s.sram := rfl
@[simp] theorem State.setArrived_full (q : Nat) (v : Bool) : (s.setArrived q v).full = s.full := rfl
@[simp] theorem State.setArrived_sync (q : Nat) (v : Bool) : (s.setArrived q v).sync = s.sync := rfl
@[simp] theorem State.setArrived_trk (q : Nat) (v : Bool) : (s.setArrived q v).trk = s.trk := rfl
@[simp] theorem State.setArrived_mem (q : Nat) (v : Bool) : (s.setArrived q v).mem = s.mem := rfl
@[simp] theorem State.setArrived_streams (q : Nat) (v : Bool) : (s.setArrived q v).streams = s.streams := rfl
@[simp] theorem State.setArrived_noc (q : Nat) (v : Bool) : (s.setArrived q v).noc = s.noc := rfl
@[simp] theorem State.setArrived_ses (q : Nat) (v : Bool) : (s.setArrived q v).ses = s.ses := rfl
@[simp] theorem State.setArrived_pci (q : Nat) (v : Bool) : (s.setArrived q v).pci = s.pci := rfl
@[simp] theorem State.setArrived_kmr (q : Nat) (v : Bool) : (s.setArrived q v).kmr = s.kmr := rfl
@[simp] theorem State.setArrived_fab (q : Nat) (v : Bool) : (s.setArrived q v).fab = s.fab := rfl
@[simp] theorem State.setArrived_lanes (q : Nat) (v : Bool) : (s.setArrived q v).lanes = s.lanes := rfl
@[simp] theorem State.setArrived_conf (q : Nat) (v : Bool) : (s.setArrived q v).conf = s.conf := rfl
@[simp] theorem State.setArrived_dict (q : Nat) (v : Bool) : (s.setArrived q v).dict = s.dict := rfl
@[simp] theorem State.setArrived_pwr (q : Nat) (v : Bool) : (s.setArrived q v).pwr = s.pwr := rfl
@[simp] theorem State.setArrived_sec (q : Nat) (v : Bool) : (s.setArrived q v).sec = s.sec := rfl
@[simp] theorem State.setArrived_pins (q : Nat) (v : Bool) : (s.setArrived q v).pins = s.pins := rfl
@[simp] theorem State.setArrived_rst (q : Nat) (v : Bool) : (s.setArrived q v).rst = s.rst := rfl
@[simp] theorem State.setArrived_outbox (q : Nat) (v : Bool) : (s.setArrived q v).outbox = s.outbox := rfl
@[simp] theorem State.setArrived_freeCtr (q : Nat) (v : Bool) : (s.setArrived q v).freeCtr = s.freeCtr := rfl
@[simp] theorem State.setArrived_pending (q : Nat) (v : Bool) : (s.setArrived q v).pending = s.pending := rfl
@[simp] theorem State.setArrived_rd (q : Nat) (v : Bool) (g : Fld) (j : Nat) : (s.setArrived q v).rd g j = s.rd g j := rfl

/-! ### `setTrack` -/

@[simp] theorem State.setTrack_regs (t : Nat) (k : Track) : (s.setTrack t k).regs = s.regs := rfl
@[simp] theorem State.setTrack_sram (t : Nat) (k : Track) : (s.setTrack t k).sram = s.sram := rfl
@[simp] theorem State.setTrack_full (t : Nat) (k : Track) : (s.setTrack t k).full = s.full := rfl
@[simp] theorem State.setTrack_tile (t : Nat) (k : Track) : (s.setTrack t k).tile = s.tile := rfl
@[simp] theorem State.setTrack_sync (t : Nat) (k : Track) : (s.setTrack t k).sync = s.sync := rfl
@[simp] theorem State.setTrack_mem (t : Nat) (k : Track) : (s.setTrack t k).mem = s.mem := rfl
@[simp] theorem State.setTrack_streams (t : Nat) (k : Track) : (s.setTrack t k).streams = s.streams := rfl
@[simp] theorem State.setTrack_noc (t : Nat) (k : Track) : (s.setTrack t k).noc = s.noc := rfl
@[simp] theorem State.setTrack_ses (t : Nat) (k : Track) : (s.setTrack t k).ses = s.ses := rfl
@[simp] theorem State.setTrack_pci (t : Nat) (k : Track) : (s.setTrack t k).pci = s.pci := rfl
@[simp] theorem State.setTrack_kmr (t : Nat) (k : Track) : (s.setTrack t k).kmr = s.kmr := rfl
@[simp] theorem State.setTrack_fab (t : Nat) (k : Track) : (s.setTrack t k).fab = s.fab := rfl
@[simp] theorem State.setTrack_lanes (t : Nat) (k : Track) : (s.setTrack t k).lanes = s.lanes := rfl
@[simp] theorem State.setTrack_conf (t : Nat) (k : Track) : (s.setTrack t k).conf = s.conf := rfl
@[simp] theorem State.setTrack_dict (t : Nat) (k : Track) : (s.setTrack t k).dict = s.dict := rfl
@[simp] theorem State.setTrack_pwr (t : Nat) (k : Track) : (s.setTrack t k).pwr = s.pwr := rfl
@[simp] theorem State.setTrack_sec (t : Nat) (k : Track) : (s.setTrack t k).sec = s.sec := rfl
@[simp] theorem State.setTrack_pins (t : Nat) (k : Track) : (s.setTrack t k).pins = s.pins := rfl
@[simp] theorem State.setTrack_rst (t : Nat) (k : Track) : (s.setTrack t k).rst = s.rst := rfl
@[simp] theorem State.setTrack_outbox (t : Nat) (k : Track) : (s.setTrack t k).outbox = s.outbox := rfl
@[simp] theorem State.setTrack_freeCtr (t : Nat) (k : Track) : (s.setTrack t k).freeCtr = s.freeCtr := rfl
@[simp] theorem State.setTrack_pending (t : Nat) (k : Track) : (s.setTrack t k).pending = s.pending := rfl
@[simp] theorem State.setTrack_rd (t : Nat) (k : Track) (g : Fld) (j : Nat) : (s.setTrack t k).rd g j = s.rd g j := rfl

/-! ### `addWaiter` -/

@[simp] theorem State.addWaiter_regs (w : Waiter) : (s.addWaiter w).regs = s.regs := rfl
@[simp] theorem State.addWaiter_sram (w : Waiter) : (s.addWaiter w).sram = s.sram := rfl
@[simp] theorem State.addWaiter_full (w : Waiter) : (s.addWaiter w).full = s.full := rfl
@[simp] theorem State.addWaiter_tile (w : Waiter) : (s.addWaiter w).tile = s.tile := rfl
@[simp] theorem State.addWaiter_trk (w : Waiter) : (s.addWaiter w).trk = s.trk := rfl
@[simp] theorem State.addWaiter_mem (w : Waiter) : (s.addWaiter w).mem = s.mem := rfl
@[simp] theorem State.addWaiter_streams (w : Waiter) : (s.addWaiter w).streams = s.streams := rfl
@[simp] theorem State.addWaiter_noc (w : Waiter) : (s.addWaiter w).noc = s.noc := rfl
@[simp] theorem State.addWaiter_ses (w : Waiter) : (s.addWaiter w).ses = s.ses := rfl
@[simp] theorem State.addWaiter_pci (w : Waiter) : (s.addWaiter w).pci = s.pci := rfl
@[simp] theorem State.addWaiter_kmr (w : Waiter) : (s.addWaiter w).kmr = s.kmr := rfl
@[simp] theorem State.addWaiter_fab (w : Waiter) : (s.addWaiter w).fab = s.fab := rfl
@[simp] theorem State.addWaiter_lanes (w : Waiter) : (s.addWaiter w).lanes = s.lanes := rfl
@[simp] theorem State.addWaiter_conf (w : Waiter) : (s.addWaiter w).conf = s.conf := rfl
@[simp] theorem State.addWaiter_dict (w : Waiter) : (s.addWaiter w).dict = s.dict := rfl
@[simp] theorem State.addWaiter_pwr (w : Waiter) : (s.addWaiter w).pwr = s.pwr := rfl
@[simp] theorem State.addWaiter_sec (w : Waiter) : (s.addWaiter w).sec = s.sec := rfl
@[simp] theorem State.addWaiter_pins (w : Waiter) : (s.addWaiter w).pins = s.pins := rfl
@[simp] theorem State.addWaiter_rst (w : Waiter) : (s.addWaiter w).rst = s.rst := rfl
@[simp] theorem State.addWaiter_outbox (w : Waiter) : (s.addWaiter w).outbox = s.outbox := rfl
@[simp] theorem State.addWaiter_freeCtr (w : Waiter) : (s.addWaiter w).freeCtr = s.freeCtr := rfl
@[simp] theorem State.addWaiter_pending (w : Waiter) : (s.addWaiter w).pending = s.pending := rfl
@[simp] theorem State.addWaiter_rd (w : Waiter) (g : Fld) (j : Nat) : (s.addWaiter w).rd g j = s.rd g j := rfl

/-! ### `resetFields` -/

@[simp] theorem State.resetFields_sram (lo hi : Fld) (p : Nat → Bool) : (s.resetFields lo hi p).sram = s.sram := rfl
@[simp] theorem State.resetFields_full (lo hi : Fld) (p : Nat → Bool) : (s.resetFields lo hi p).full = s.full := rfl
@[simp] theorem State.resetFields_tile (lo hi : Fld) (p : Nat → Bool) : (s.resetFields lo hi p).tile = s.tile := rfl
@[simp] theorem State.resetFields_sync (lo hi : Fld) (p : Nat → Bool) : (s.resetFields lo hi p).sync = s.sync := rfl
@[simp] theorem State.resetFields_trk (lo hi : Fld) (p : Nat → Bool) : (s.resetFields lo hi p).trk = s.trk := rfl
@[simp] theorem State.resetFields_mem (lo hi : Fld) (p : Nat → Bool) : (s.resetFields lo hi p).mem = s.mem := rfl
@[simp] theorem State.resetFields_streams (lo hi : Fld) (p : Nat → Bool) : (s.resetFields lo hi p).streams = s.streams := rfl
@[simp] theorem State.resetFields_noc (lo hi : Fld) (p : Nat → Bool) : (s.resetFields lo hi p).noc = s.noc := rfl
@[simp] theorem State.resetFields_ses (lo hi : Fld) (p : Nat → Bool) : (s.resetFields lo hi p).ses = s.ses := rfl
@[simp] theorem State.resetFields_pci (lo hi : Fld) (p : Nat → Bool) : (s.resetFields lo hi p).pci = s.pci := rfl
@[simp] theorem State.resetFields_kmr (lo hi : Fld) (p : Nat → Bool) : (s.resetFields lo hi p).kmr = s.kmr := rfl
@[simp] theorem State.resetFields_fab (lo hi : Fld) (p : Nat → Bool) : (s.resetFields lo hi p).fab = s.fab := rfl
@[simp] theorem State.resetFields_lanes (lo hi : Fld) (p : Nat → Bool) : (s.resetFields lo hi p).lanes = s.lanes := rfl
@[simp] theorem State.resetFields_conf (lo hi : Fld) (p : Nat → Bool) : (s.resetFields lo hi p).conf = s.conf := rfl
@[simp] theorem State.resetFields_dict (lo hi : Fld) (p : Nat → Bool) : (s.resetFields lo hi p).dict = s.dict := rfl
@[simp] theorem State.resetFields_pwr (lo hi : Fld) (p : Nat → Bool) : (s.resetFields lo hi p).pwr = s.pwr := rfl
@[simp] theorem State.resetFields_sec (lo hi : Fld) (p : Nat → Bool) : (s.resetFields lo hi p).sec = s.sec := rfl
@[simp] theorem State.resetFields_pins (lo hi : Fld) (p : Nat → Bool) : (s.resetFields lo hi p).pins = s.pins := rfl
@[simp] theorem State.resetFields_rst (lo hi : Fld) (p : Nat → Bool) : (s.resetFields lo hi p).rst = s.rst := rfl
@[simp] theorem State.resetFields_outbox (lo hi : Fld) (p : Nat → Bool) : (s.resetFields lo hi p).outbox = s.outbox := rfl
@[simp] theorem State.resetFields_freeCtr (lo hi : Fld) (p : Nat → Bool) : (s.resetFields lo hi p).freeCtr = s.freeCtr := rfl
@[simp] theorem State.resetFields_pending (lo hi : Fld) (p : Nat → Bool) : (s.resetFields lo hi p).pending = s.pending := rfl

/-! ### `setS` -/

@[simp] theorem State.setS_regs (q r v : Nat) : (s.setS q r v).regs = s.regs := by unfold State.setS; split <;> rfl
@[simp] theorem State.setS_sram (q r v : Nat) : (s.setS q r v).sram = s.sram := by unfold State.setS; split <;> rfl
@[simp] theorem State.setS_full (q r v : Nat) : (s.setS q r v).full = s.full := by unfold State.setS; split <;> rfl
@[simp] theorem State.setS_sync (q r v : Nat) : (s.setS q r v).sync = s.sync := by unfold State.setS; split <;> rfl
@[simp] theorem State.setS_trk (q r v : Nat) : (s.setS q r v).trk = s.trk := by unfold State.setS; split <;> rfl
@[simp] theorem State.setS_mem (q r v : Nat) : (s.setS q r v).mem = s.mem := by unfold State.setS; split <;> rfl
@[simp] theorem State.setS_streams (q r v : Nat) : (s.setS q r v).streams = s.streams := by unfold State.setS; split <;> rfl
@[simp] theorem State.setS_noc (q r v : Nat) : (s.setS q r v).noc = s.noc := by unfold State.setS; split <;> rfl
@[simp] theorem State.setS_ses (q r v : Nat) : (s.setS q r v).ses = s.ses := by unfold State.setS; split <;> rfl
@[simp] theorem State.setS_pci (q r v : Nat) : (s.setS q r v).pci = s.pci := by unfold State.setS; split <;> rfl
@[simp] theorem State.setS_kmr (q r v : Nat) : (s.setS q r v).kmr = s.kmr := by unfold State.setS; split <;> rfl
@[simp] theorem State.setS_fab (q r v : Nat) : (s.setS q r v).fab = s.fab := by unfold State.setS; split <;> rfl
@[simp] theorem State.setS_lanes (q r v : Nat) : (s.setS q r v).lanes = s.lanes := by unfold State.setS; split <;> rfl
@[simp] theorem State.setS_conf (q r v : Nat) : (s.setS q r v).conf = s.conf := by unfold State.setS; split <;> rfl
@[simp] theorem State.setS_dict (q r v : Nat) : (s.setS q r v).dict = s.dict := by unfold State.setS; split <;> rfl
@[simp] theorem State.setS_pwr (q r v : Nat) : (s.setS q r v).pwr = s.pwr := by unfold State.setS; split <;> rfl
@[simp] theorem State.setS_sec (q r v : Nat) : (s.setS q r v).sec = s.sec := by unfold State.setS; split <;> rfl
@[simp] theorem State.setS_pins (q r v : Nat) : (s.setS q r v).pins = s.pins := by unfold State.setS; split <;> rfl
@[simp] theorem State.setS_rst (q r v : Nat) : (s.setS q r v).rst = s.rst := by unfold State.setS; split <;> rfl
@[simp] theorem State.setS_outbox (q r v : Nat) : (s.setS q r v).outbox = s.outbox := by unfold State.setS; split <;> rfl
@[simp] theorem State.setS_freeCtr (q r v : Nat) : (s.setS q r v).freeCtr = s.freeCtr := by unfold State.setS; split <;> rfl
@[simp] theorem State.setS_pending (q r v : Nat) : (s.setS q r v).pending = s.pending := by unfold State.setS; split <;> rfl
@[simp] theorem State.setS_rd (q r v : Nat) (g : Fld) (j : Nat) : (s.setS q r v).rd g j = s.rd g j := by
  unfold State.setS; split <;> rfl

/-! ### `bump` -/

@[simp] theorem State.bump_sram (c : Cnt) (i n : Nat) : (s.bump c i n).sram = s.sram := by
  simp only [State.bump]; split <;> rfl
@[simp] theorem State.bump_full (c : Cnt) (i n : Nat) : (s.bump c i n).full = s.full := by
  simp only [State.bump]; split <;> rfl
@[simp] theorem State.bump_tile (c : Cnt) (i n : Nat) : (s.bump c i n).tile = s.tile := by
  simp only [State.bump]; split <;> rfl
@[simp] theorem State.bump_sync (c : Cnt) (i n : Nat) : (s.bump c i n).sync = s.sync := by
  simp only [State.bump]; split <;> rfl
@[simp] theorem State.bump_trk (c : Cnt) (i n : Nat) : (s.bump c i n).trk = s.trk := by
  simp only [State.bump]; split <;> rfl
@[simp] theorem State.bump_mem (c : Cnt) (i n : Nat) : (s.bump c i n).mem = s.mem := by
  simp only [State.bump]; split <;> rfl
@[simp] theorem State.bump_streams (c : Cnt) (i n : Nat) : (s.bump c i n).streams = s.streams := by
  simp only [State.bump]; split <;> rfl
@[simp] theorem State.bump_noc (c : Cnt) (i n : Nat) : (s.bump c i n).noc = s.noc := by
  simp only [State.bump]; split <;> rfl
@[simp] theorem State.bump_ses (c : Cnt) (i n : Nat) : (s.bump c i n).ses = s.ses := by
  simp only [State.bump]; split <;> rfl
@[simp] theorem State.bump_pci (c : Cnt) (i n : Nat) : (s.bump c i n).pci = s.pci := by
  simp only [State.bump]; split <;> rfl
@[simp] theorem State.bump_kmr (c : Cnt) (i n : Nat) : (s.bump c i n).kmr = s.kmr := by
  simp only [State.bump]; split <;> rfl
@[simp] theorem State.bump_fab (c : Cnt) (i n : Nat) : (s.bump c i n).fab = s.fab := by
  simp only [State.bump]; split <;> rfl
@[simp] theorem State.bump_lanes (c : Cnt) (i n : Nat) : (s.bump c i n).lanes = s.lanes := by
  simp only [State.bump]; split <;> rfl
@[simp] theorem State.bump_conf (c : Cnt) (i n : Nat) : (s.bump c i n).conf = s.conf := by
  simp only [State.bump]; split <;> rfl
@[simp] theorem State.bump_dict (c : Cnt) (i n : Nat) : (s.bump c i n).dict = s.dict := by
  simp only [State.bump]; split <;> rfl
@[simp] theorem State.bump_pwr (c : Cnt) (i n : Nat) : (s.bump c i n).pwr = s.pwr := by
  simp only [State.bump]; split <;> rfl
@[simp] theorem State.bump_sec (c : Cnt) (i n : Nat) : (s.bump c i n).sec = s.sec := by
  simp only [State.bump]; split <;> rfl
@[simp] theorem State.bump_pins (c : Cnt) (i n : Nat) : (s.bump c i n).pins = s.pins := by
  simp only [State.bump]; split <;> rfl
@[simp] theorem State.bump_rst (c : Cnt) (i n : Nat) : (s.bump c i n).rst = s.rst := by
  simp only [State.bump]; split <;> rfl
@[simp] theorem State.bump_outbox (c : Cnt) (i n : Nat) : (s.bump c i n).outbox = s.outbox := by
  simp only [State.bump]; split <;> rfl
@[simp] theorem State.bump_freeCtr (c : Cnt) (i n : Nat) : (s.bump c i n).freeCtr = s.freeCtr := by
  simp only [State.bump]; split <;> rfl
@[simp] theorem State.bump_pending (c : Cnt) (i n : Nat) : (s.bump c i n).pending = s.pending := by
  simp only [State.bump]; split <;> rfl

/-! ### Register fields -/

/-- A field reads as what was last written, in its width. -/
@[simp] theorem State.rd_wr_same (f : Fld) (i v : Nat) : (s.wr f i v).rd f i = v % 2 ^ f.width := by
  simp [State.rd, State.wr]

theorem Fld.at_ne {f g : Fld} {i j : Nat} (hi : i < 131072) (hj : j < 131072) (h : f.key ≠ g.key ∨ i ≠ j) : f.at i ≠ g.at j := by
  unfold Fld.at; omega

/-- A write leaves every other field, and the field of every other unit, alone. -/
theorem State.rd_wr_other {f g : Fld} {i j : Nat} (v : Nat) (hi : i < 131072) (hj : j < 131072)
    (h : f.key ≠ g.key ∨ i ≠ j) : (s.wr g j v).rd f i = s.rd f i := by
  simp only [State.rd, State.wr]
  exact Tab.get_set_other _ _ _ _ (Fld.at_ne hi hj h)

theorem State.rd_wr_key {f g : Fld} {i j : Nat} (v : Nat) (h : f.key ≠ g.key) (hi : i < 131072) (hj : j < 131072) :
    (s.wr g j v).rd f i = s.rd f i := s.rd_wr_other v hi hj (.inl h)

theorem State.rd_wr_unit {f g : Fld} {i j : Nat} (v : Nat) (h : i ≠ j) (hi : i < 131072) (hj : j < 131072) :
    (s.wr g j v).rd f i = s.rd f i := s.rd_wr_other v hi hj (.inr h)

theorem State.rd_of_regs {s t : State} (h : t.regs = s.regs) (f : Fld) (i : Nat) : t.rd f i = s.rd f i := by
  simp [State.rd, h]

/-- A field after a reset of the units that `p` names: back at its reset value when its block is reset, else as before. -/
theorem State.rd_resetFields {lo hi f : Fld} (p : Nat → Bool) {i : Nat} (h : i < 131072) :
    (s.resetFields lo hi p).rd f i =
      if lo.key ≤ f.key ∧ f.key ≤ hi.key ∧ p i = true then f.resetAt i else s.rd f i := by
  have hk : f.at i / 131072 = f.key := by unfold Fld.at; omega
  have hm : f.at i % 131072 = i := by unfold Fld.at; omega
  simp only [State.rd, State.resetFields, Tab.get_drop, hk, hm]
  by_cases h1 : lo.key ≤ f.key <;> by_cases h2 : f.key ≤ hi.key <;> cases hp : p i <;> simp [h1, h2]

end Sys2Proof.Machine
end

