-- ==== Sys2Proof/Laws/Seq.lean ====
section
/-!
SUPPORT. The sequencer's operations: what an issue does when its conditions hold, what finishing a head changes, and S registers after
a write.
-/
namespace Sys2Proof.Machine

/-- An instruction that issues has its own effect. -/
theorem issue_eq {s : State} {q cls op : Nat} (h : Issues s q cls op) (eff : State → Nat → State) :
    issue s q cls op eff = eff s (s.headWord q) := by
  simp only [issue, h.running, h.live, h.plain, h.enabled, h.faultless, h.isClass, h.isOp]
  simp only [Bool.not_true, Bool.or_self, Bool.false_eq_true, if_false, ne_eq, not_true, or_self]
  by_cases hc : cls = 1
  · simp [hc]
  · simp [hc, h.predicated hc]

/-! ### Reads of what no update touches -/

variable (s : State)

theorem State.sreg_of_tile {s t : State} (h : t.tile.sregs = s.tile.sregs) (q r : Nat) : t.sreg q r = s.sreg q r := by
  simp [State.sreg, h]

@[simp] theorem State.wr_sreg (f : Fld) (i v q r : Nat) : (s.wr f i v).sreg q r = s.sreg q r := rfl
@[simp] theorem State.bump_sreg (c : Cnt) (i n q r : Nat) : (s.bump c i n).sreg q r = s.sreg q r := by
  simp [State.sreg]
@[simp] theorem State.setHead_sreg (p : Nat) (h : HeadWait) (q r : Nat) : (s.setHead p h).sreg q r = s.sreg q r := rfl
@[simp] theorem State.setArrived_sreg (p : Nat) (v : Bool) (q r : Nat) : (s.setArrived p v).sreg q r = s.sreg q r := rfl
@[simp] theorem State.emit_sreg (o : Out) (q r : Nat) : (s.emit o).sreg q r = s.sreg q r := rfl
@[simp] theorem State.setFull_sreg (w : Nat) (v : Bool) (q r : Nat) : (s.setFull w v).sreg q r = s.sreg q r := rfl

/-- S registers after a write: S0 stays zero, and no other register of any queue changes (R112). -/
theorem State.sreg_setS (q d v p r : Nat) (hr : r < 32) (hd : d < 32) :
    (s.setS q d v).sreg p r = if p = q ∧ r = d ∧ r ≠ 0 then v % 2 ^ 64 else s.sreg p r := by
  by_cases h0 : r = 0
  · simp [State.sreg, h0]
  · by_cases hd0 : d = 0
    · have : r ≠ d := by omega
      simp [State.setS, hd0, h0]
    · simp only [State.setS, hd0, if_false, State.sreg, h0, Tab.get_set]
      by_cases hk : p * 32 + r = q * 32 + d
      · have h1 : p = q := by omega
        have h2 : r = d := by omega
        simp [h1, h2, hd0]
      · have : ¬ (p = q ∧ r = d) := fun ⟨a, b⟩ => hk (by rw [a, b])
        have h3 : ¬ (p = q ∧ r = d ∧ r ≠ 0) := fun ⟨a, b, _⟩ => this ⟨a, b⟩
        simp [hk, h3]

/-! ### Counting an issue and finishing the head -/

/-- What `bump` leaves in its counter. -/
theorem State.rd_bump_same (c : Cnt) (i n : Nat) (hk : c.fld.key ≠ c.wrapFld.key) (hi : i < 131072) :
    (s.bump c i n).rd c.fld i = (s.rd c.fld i + n) % 2 ^ c.fld.width := by
  simp only [State.bump]
  split
  · simp only [State.setBit]
    rw [State.rd_wr_key _ _ hk hi hi, State.rd_wr_same]
  · rw [State.rd_wr_same]

/-- `bump` touches no field but its counter and its flag. -/
theorem State.rd_bump_other (c : Cnt) (i n : Nat) (f : Fld) (j : Nat) (hi : i < 131072) (hj : j < 131072)
    (h1 : f.key ≠ c.fld.key ∨ j ≠ i) (h2 : f.key ≠ c.wrapFld.key ∨ j ≠ i) : (s.bump c i n).rd f j = s.rd f j := by
  simp only [State.bump]
  split
  · simp only [State.setBit]
    rw [State.rd_wr_other _ _ hj hi h2, State.rd_wr_other _ _ hj hi h1]
  · rw [State.rd_wr_other _ _ hj hi h1]

theorem SameRegs.refl (l : List (Fld × Nat)) : SameRegs s s l := fun _ _ _ _ => rfl

theorem SameRegs.trans {s t u : State} {l : List (Fld × Nat)} (h : SameRegs s t l) (h' : SameRegs t u l) : SameRegs s u l :=
  fun f i hi hn => (h' f i hi hn).trans (h f i hi hn)

theorem SameRegs.mono {s t : State} {l m : List (Fld × Nat)} (h : SameRegs s t l) (hm : ∀ e ∈ l, e ∈ m) : SameRegs s t m :=
  fun f i hi hn => h f i hi (fun e he => hn e (hm e he))

theorem SameRegs.of_regs {s t : State} (h : t.regs = s.regs) (l : List (Fld × Nat)) : SameRegs s t l :=
  fun f i _ _ => State.rd_of_regs h f i

/-- A write changes the field it writes. -/
theorem SameRegs.wr (f : Fld) (i v : Nat) (hi : i < 131072) {l : List (Fld × Nat)} (hl : (f, i) ∈ l) : SameRegs s (s.wr f i v) l :=
  fun g j hj hn => State.rd_wr_other _ _ hj hi (by
    rcases hn _ hl with h | h
    · exact .inl (fun e => h e.symm)
    · exact .inr (fun e => h e.symm))

theorem SameRegs.wr' {s t : State} (f : Fld) (i v : Nat) {l : List (Fld × Nat)} (h : SameRegs s t l) (hi : i < 131072)
    (hl : (f, i) ∈ l) : SameRegs s (t.wr f i v) l := h.trans (SameRegs.wr t f i v hi hl)

theorem SameRegs.bump' {s t : State} (c : Cnt) (i n : Nat) {l : List (Fld × Nat)} (h : SameRegs s t l) (hi : i < 131072)
    (h1 : (c.fld, i) ∈ l) (h2 : (c.wrapFld, i) ∈ l) : SameRegs s (t.bump c i n) l := by
  unfold State.bump
  simp only
  split
  · exact SameRegs.wr' _ _ _ (SameRegs.wr' _ _ _ h hi h1) hi h2
  · exact SameRegs.wr' _ _ _ h hi h1

theorem SameRegs.regs' {s t u : State} {l : List (Fld × Nat)} (h : SameRegs s t l) (hr : u.regs = t.regs) : SameRegs s u l :=
  h.trans (SameRegs.of_regs hr l)

/-- Finishing the head of queue `q`: what it does to the queue's fields and to the loop stack. -/
theorem doneHead_fields (q : Nat) (hq : q < 131072) :
    (s.doneHead q).qState q = qRUN ∧ (s.doneHead q).rd F.VEC_Q_STAT_WAIT_ON q = 0 ∧
      (s.doneHead q).qPC q = (afterWord (s.qPC q) (s.loopStack q)).1 % 4096 ∧
      (s.doneHead q).loopStack q = (afterWord (s.qPC q) (s.loopStack q)).2 := by
  have hl : ((s.unhold q).setArrived q false).loopStack q = s.loopStack q := rfl
  refine ⟨?_, ?_, ?_, ?_⟩
  · simp only [State.doneHead, State.advanceFrom, State.qState, State.setLoops]
    rw [State.rd_wr_key _ _ (by decide) hq hq, State.rd_wr_key _ _ (by decide) hq hq]
    show (((s.wr F.VEC_Q_STAT_STATE q qRUN).wr F.VEC_Q_STAT_WAIT_ON q 0)).rd F.VEC_Q_STAT_STATE q = qRUN
    rw [State.rd_wr_key _ _ (by decide) hq hq, State.rd_wr_same]
    rfl
  · simp only [State.doneHead, State.advanceFrom, State.setLoops]
    rw [State.rd_wr_key _ _ (by decide) hq hq, State.rd_wr_key _ _ (by decide) hq hq]
    show (((s.wr F.VEC_Q_STAT_STATE q qRUN).wr F.VEC_Q_STAT_WAIT_ON q 0)).rd F.VEC_Q_STAT_WAIT_ON q = 0
    rw [State.rd_wr_same]
    rfl
  · simp only [State.doneHead, State.advanceFrom, State.qPC, hl]
    rw [State.rd_wr_same]
    rfl
  · simp only [State.doneHead, State.advanceFrom, hl]
    simp [State.loopStack, State.setLoops]

theorem doneHead_sameRegs (q : Nat) (hq : q < 131072) : SameRegs s (s.doneHead q) (queueFields q) := by
  unfold State.doneHead State.advanceFrom
  simp only
  refine SameRegs.wr' _ _ _ (SameRegs.wr' _ _ _ ?_ hq ?_) hq ?_
  · refine SameRegs.regs' (t := (s.wr F.VEC_Q_STAT_STATE q qRUN).wr F.VEC_Q_STAT_WAIT_ON q 0) ?_ rfl
    exact SameRegs.wr' _ _ _ (SameRegs.wr _ _ _ _ hq (by simp [queueFields])) hq (by simp [queueFields])
  · simp [queueFields]
  · simp [queueFields]

/-- Finishing a head leaves alone every field but the state, the wait, the loop depth and the PC of its queue. -/
theorem doneHead_sameRegs' (q : Nat) (hq : q < 131072) (f : Fld) (i : Nat) (hi : i < 131072) (h1 : f.key ≠ F.VEC_Q_STAT_STATE.key)
    (h2 : f.key ≠ F.VEC_Q_STAT_WAIT_ON.key) (h3 : f.key ≠ F.VEC_Q_STAT_LOOP_DEPTH.key) (h4 : f.key ≠ F.VEC_Q_PC_PC.key) :
    (s.doneHead q).rd f i = s.rd f i := by
  simp only [State.doneHead, State.advanceFrom, State.setLoops]
  rw [State.rd_wr_key _ _ h4 hi hq, State.rd_wr_key _ _ h3 hi hq]
  show (((s.wr F.VEC_Q_STAT_STATE q qRUN).wr F.VEC_Q_STAT_WAIT_ON q 0)).rd f i = s.rd f i
  rw [State.rd_wr_key _ _ h2 hi hq, State.rd_wr_key _ _ h1 hi hq]

@[simp] theorem doneHead_sreg (p q r : Nat) : (s.doneHead p).sreg q r = s.sreg q r := rfl
@[simp] theorem doneHead_outbox (p : Nat) : (s.doneHead p).outbox = s.outbox := rfl
@[simp] theorem doneHead_pregs (p : Nat) : (s.doneHead p).tile.pregs = s.tile.pregs := rfl
@[simp] theorem doneHead_vregs (p : Nat) : (s.doneHead p).tile.vregs = s.tile.vregs := rfl
@[simp] theorem doneHead_full (p : Nat) : (s.doneHead p).full = s.full := rfl
@[simp] theorem doneHead_sram (p : Nat) : (s.doneHead p).sram = s.sram := rfl
theorem doneHead_rest (p : Nat) : s.doneHead p = { s with regs := (s.doneHead p).regs, tile := (s.doneHead p).tile } := rfl

/-- The count of issued instructions. -/
theorem countIssue_rd (q : Nat) (hq : q < 4096) :
    (s.countIssue q).rd F.VEC_ISSUE_CNT_COUNT (coreOfQueue q) = (s.rd F.VEC_ISSUE_CNT_COUNT (coreOfQueue q) + 1) % 2 ^ 64 :=
  State.rd_bump_same s C.VEC_ISSUE_CNT (coreOfQueue q) 1 (by decide) (by unfold coreOfQueue; omega)

theorem countIssue_sameRegs (q : Nat) (hq : q < 4096) : SameRegs s (s.countIssue q) (queueFields q) :=
  SameRegs.bump' _ _ _ (SameRegs.refl s _) (by unfold coreOfQueue; omega) (by simp [queueFields, C.VEC_ISSUE_CNT])
    (by simp [queueFields, C.VEC_ISSUE_CNT])

/-- A head is finished with after an effect `u` that left the queue's place and the issue count alone. -/
theorem Finished.of_doneHead {s u : State} {q : Nat} (hq : q < 4096) (hpc : u.qPC q = s.qPC q)
    (hl : u.tile.loops = s.tile.loops)
    (hc : u.rd F.VEC_ISSUE_CNT_COUNT (coreOfQueue q) = (s.rd F.VEC_ISSUE_CNT_COUNT (coreOfQueue q) + 1) % 2 ^ 64) :
    Finished s (u.doneHead q) q := by
  have hq' : q < 131072 := by omega
  have hcore : coreOfQueue q < 131072 := by unfold coreOfQueue; omega
  have hls : u.loopStack q = s.loopStack q := by simp [State.loopStack, hl]
  obtain ⟨h1, h2, h3, h4⟩ := doneHead_fields u q hq'
  refine ⟨h1, h2, by rw [h3, hpc, hls], by rw [h4, hpc, hls], ?_⟩
  rw [doneHead_sameRegs' u q hq' _ _ hcore (by decide) (by decide) (by decide) (by decide), hc]

end Sys2Proof.Machine
end

