-- ==== Sys2Proof/Laws/Update.lean ====
section
/-!
SUPPORT. What each update of one component of the state leaves alone, all true by unfolding, and what the component then is: one lemma for
each update, whose parts simp takes as rewrite rules. Laws/State has the updates of registers and outputs, Laws/Seq those of the queues.
-/
namespace Sys2Proof.Machine

variable (s : State)

/-! ### Components -/

@[simp] theorem State.setNoc_frame (n : Noc) :
    (s.setNoc n).noc = n ∧ (s.setNoc n).regs = s.regs ∧ (s.setNoc n).sram = s.sram ∧ (s.setNoc n).full = s.full ∧
    (s.setNoc n).tile = s.tile ∧ (s.setNoc n).sync = s.sync ∧ (s.setNoc n).trk = s.trk ∧ (s.setNoc n).mem = s.mem ∧
    (s.setNoc n).streams = s.streams ∧ (s.setNoc n).ses = s.ses ∧ (s.setNoc n).pci = s.pci ∧ (s.setNoc n).kmr = s.kmr ∧
    (s.setNoc n).fab = s.fab ∧ (s.setNoc n).lanes = s.lanes ∧ (s.setNoc n).conf = s.conf ∧ (s.setNoc n).dict = s.dict ∧
    (s.setNoc n).pwr = s.pwr ∧ (s.setNoc n).sec = s.sec ∧ (s.setNoc n).pins = s.pins ∧ (s.setNoc n).rst = s.rst ∧
    (s.setNoc n).outbox = s.outbox ∧ (s.setNoc n).freeCtr = s.freeCtr ∧ (s.setNoc n).pending = s.pending ∧
    ∀ f u, (s.setNoc n).rd f u = s.rd f u := by
  and_intros <;> intros <;> rfl

@[simp] theorem State.setKmr_frame (k : Kamrus) :
    (s.setKmr k).kmr = k ∧ (s.setKmr k).regs = s.regs ∧ (s.setKmr k).sram = s.sram ∧ (s.setKmr k).full = s.full ∧
    (s.setKmr k).tile = s.tile ∧ (s.setKmr k).sync = s.sync ∧ (s.setKmr k).trk = s.trk ∧ (s.setKmr k).mem = s.mem ∧
    (s.setKmr k).streams = s.streams ∧ (s.setKmr k).noc = s.noc ∧ (s.setKmr k).ses = s.ses ∧ (s.setKmr k).pci = s.pci ∧
    (s.setKmr k).fab = s.fab ∧ (s.setKmr k).lanes = s.lanes ∧ (s.setKmr k).conf = s.conf ∧ (s.setKmr k).dict = s.dict ∧
    (s.setKmr k).pwr = s.pwr ∧ (s.setKmr k).sec = s.sec ∧ (s.setKmr k).pins = s.pins ∧ (s.setKmr k).rst = s.rst ∧
    (s.setKmr k).outbox = s.outbox ∧ (s.setKmr k).freeCtr = s.freeCtr ∧ (s.setKmr k).pending = s.pending ∧
    ∀ f u, (s.setKmr k).rd f u = s.rd f u := by
  and_intros <;> intros <;> rfl

@[simp] theorem State.setFab_frame (f : Fabric) :
    (s.setFab f).fab = f ∧ (s.setFab f).regs = s.regs ∧ (s.setFab f).sram = s.sram ∧ (s.setFab f).full = s.full ∧
    (s.setFab f).tile = s.tile ∧ (s.setFab f).sync = s.sync ∧ (s.setFab f).trk = s.trk ∧ (s.setFab f).mem = s.mem ∧
    (s.setFab f).streams = s.streams ∧ (s.setFab f).noc = s.noc ∧ (s.setFab f).ses = s.ses ∧ (s.setFab f).pci = s.pci ∧
    (s.setFab f).kmr = s.kmr ∧ (s.setFab f).lanes = s.lanes ∧ (s.setFab f).conf = s.conf ∧ (s.setFab f).dict = s.dict ∧
    (s.setFab f).pwr = s.pwr ∧ (s.setFab f).sec = s.sec ∧ (s.setFab f).pins = s.pins ∧ (s.setFab f).rst = s.rst ∧
    (s.setFab f).outbox = s.outbox ∧ (s.setFab f).freeCtr = s.freeCtr ∧ (s.setFab f).pending = s.pending ∧
    ∀ g u, (s.setFab f).rd g u = s.rd g u := by
  and_intros <;> intros <;> rfl

@[simp] theorem State.setPci_frame (x : Pci) :
    (s.setPci x).pci = x ∧ (s.setPci x).regs = s.regs ∧ (s.setPci x).sram = s.sram ∧ (s.setPci x).full = s.full ∧
    (s.setPci x).tile = s.tile ∧ (s.setPci x).sync = s.sync ∧ (s.setPci x).trk = s.trk ∧ (s.setPci x).mem = s.mem ∧
    (s.setPci x).streams = s.streams ∧ (s.setPci x).noc = s.noc ∧ (s.setPci x).ses = s.ses ∧ (s.setPci x).kmr = s.kmr ∧
    (s.setPci x).fab = s.fab ∧ (s.setPci x).lanes = s.lanes ∧ (s.setPci x).conf = s.conf ∧ (s.setPci x).dict = s.dict ∧
    (s.setPci x).pwr = s.pwr ∧ (s.setPci x).sec = s.sec ∧ (s.setPci x).pins = s.pins ∧ (s.setPci x).rst = s.rst ∧
    (s.setPci x).outbox = s.outbox ∧ (s.setPci x).freeCtr = s.freeCtr ∧ (s.setPci x).pending = s.pending ∧
    ∀ f u, (s.setPci x).rd f u = s.rd f u := by
  and_intros <;> intros <;> rfl

@[simp] theorem State.setDict_frame (d : Dict) :
    (s.setDict d).dict = d ∧ (s.setDict d).regs = s.regs ∧ (s.setDict d).sram = s.sram ∧ (s.setDict d).full = s.full ∧
    (s.setDict d).tile = s.tile ∧ (s.setDict d).sync = s.sync ∧ (s.setDict d).trk = s.trk ∧ (s.setDict d).mem = s.mem ∧
    (s.setDict d).streams = s.streams ∧ (s.setDict d).noc = s.noc ∧ (s.setDict d).ses = s.ses ∧ (s.setDict d).pci = s.pci ∧
    (s.setDict d).kmr = s.kmr ∧ (s.setDict d).fab = s.fab ∧ (s.setDict d).lanes = s.lanes ∧ (s.setDict d).conf = s.conf ∧
    (s.setDict d).pwr = s.pwr ∧ (s.setDict d).sec = s.sec ∧ (s.setDict d).pins = s.pins ∧ (s.setDict d).rst = s.rst ∧
    (s.setDict d).outbox = s.outbox ∧ (s.setDict d).freeCtr = s.freeCtr ∧ (s.setDict d).pending = s.pending ∧
    ∀ f u, (s.setDict d).rd f u = s.rd f u := by
  and_intros <;> intros <;> rfl

@[simp] theorem State.setMem_frame (m : Mem) :
    (s.setMem m).mem = m ∧ (s.setMem m).regs = s.regs ∧ (s.setMem m).sram = s.sram ∧ (s.setMem m).full = s.full ∧
    (s.setMem m).tile = s.tile ∧ (s.setMem m).sync = s.sync ∧ (s.setMem m).trk = s.trk ∧ (s.setMem m).streams = s.streams ∧
    (s.setMem m).noc = s.noc ∧ (s.setMem m).ses = s.ses ∧ (s.setMem m).pci = s.pci ∧ (s.setMem m).kmr = s.kmr ∧ (s.setMem m).fab = s.fab ∧
    (s.setMem m).lanes = s.lanes ∧ (s.setMem m).conf = s.conf ∧ (s.setMem m).dict = s.dict ∧ (s.setMem m).pwr = s.pwr ∧
    (s.setMem m).sec = s.sec ∧ (s.setMem m).pins = s.pins ∧ (s.setMem m).rst = s.rst ∧ (s.setMem m).outbox = s.outbox ∧
    (s.setMem m).freeCtr = s.freeCtr ∧ (s.setMem m).pending = s.pending ∧ ∀ f u, (s.setMem m).rd f u = s.rd f u := by
  and_intros <;> intros <;> rfl

@[simp] theorem State.setSec_frame (x : Sec) :
    (s.setSec x).sec = x ∧ (s.setSec x).regs = s.regs ∧ (s.setSec x).sram = s.sram ∧ (s.setSec x).full = s.full ∧
    (s.setSec x).tile = s.tile ∧ (s.setSec x).sync = s.sync ∧ (s.setSec x).trk = s.trk ∧ (s.setSec x).mem = s.mem ∧
    (s.setSec x).streams = s.streams ∧ (s.setSec x).noc = s.noc ∧ (s.setSec x).ses = s.ses ∧ (s.setSec x).pci = s.pci ∧
    (s.setSec x).kmr = s.kmr ∧ (s.setSec x).fab = s.fab ∧ (s.setSec x).lanes = s.lanes ∧ (s.setSec x).conf = s.conf ∧
    (s.setSec x).dict = s.dict ∧ (s.setSec x).pwr = s.pwr ∧ (s.setSec x).pins = s.pins ∧ (s.setSec x).rst = s.rst ∧
    (s.setSec x).outbox = s.outbox ∧ (s.setSec x).freeCtr = s.freeCtr ∧ (s.setSec x).pending = s.pending ∧
    ∀ f u, (s.setSec x).rd f u = s.rd f u := by
  and_intros <;> intros <;> rfl

@[simp] theorem State.setConf_frame (x : Conf) :
    (s.setConf x).conf = x ∧ (s.setConf x).regs = s.regs ∧ (s.setConf x).sram = s.sram ∧ (s.setConf x).full = s.full ∧
    (s.setConf x).tile = s.tile ∧ (s.setConf x).sync = s.sync ∧ (s.setConf x).trk = s.trk ∧ (s.setConf x).mem = s.mem ∧
    (s.setConf x).streams = s.streams ∧ (s.setConf x).noc = s.noc ∧ (s.setConf x).ses = s.ses ∧ (s.setConf x).pci = s.pci ∧
    (s.setConf x).kmr = s.kmr ∧ (s.setConf x).fab = s.fab ∧ (s.setConf x).lanes = s.lanes ∧ (s.setConf x).dict = s.dict ∧
    (s.setConf x).pwr = s.pwr ∧ (s.setConf x).sec = s.sec ∧ (s.setConf x).pins = s.pins ∧ (s.setConf x).rst = s.rst ∧
    (s.setConf x).outbox = s.outbox ∧ (s.setConf x).freeCtr = s.freeCtr ∧ (s.setConf x).pending = s.pending ∧
    ∀ f u, (s.setConf x).rd f u = s.rd f u := by
  and_intros <;> intros <;> rfl

@[simp] theorem State.setSes_frame (x : Sessions) :
    (s.setSes x).ses = x ∧ (s.setSes x).regs = s.regs ∧ (s.setSes x).sram = s.sram ∧ (s.setSes x).full = s.full ∧
    (s.setSes x).tile = s.tile ∧ (s.setSes x).sync = s.sync ∧ (s.setSes x).trk = s.trk ∧ (s.setSes x).mem = s.mem ∧
    (s.setSes x).streams = s.streams ∧ (s.setSes x).noc = s.noc ∧ (s.setSes x).pci = s.pci ∧ (s.setSes x).kmr = s.kmr ∧
    (s.setSes x).fab = s.fab ∧ (s.setSes x).lanes = s.lanes ∧ (s.setSes x).conf = s.conf ∧ (s.setSes x).dict = s.dict ∧
    (s.setSes x).pwr = s.pwr ∧ (s.setSes x).sec = s.sec ∧ (s.setSes x).pins = s.pins ∧ (s.setSes x).rst = s.rst ∧
    (s.setSes x).outbox = s.outbox ∧ (s.setSes x).freeCtr = s.freeCtr ∧ (s.setSes x).pending = s.pending ∧
    ∀ f u, (s.setSes x).rd f u = s.rd f u := by
  and_intros <;> intros <;> rfl

@[simp] theorem State.setPwr_frame (p : Pwr) :
    (s.setPwr p).pwr = p ∧ (s.setPwr p).regs = s.regs ∧ (s.setPwr p).sram = s.sram ∧ (s.setPwr p).full = s.full ∧
    (s.setPwr p).tile = s.tile ∧ (s.setPwr p).sync = s.sync ∧ (s.setPwr p).trk = s.trk ∧ (s.setPwr p).mem = s.mem ∧
    (s.setPwr p).streams = s.streams ∧ (s.setPwr p).noc = s.noc ∧ (s.setPwr p).ses = s.ses ∧ (s.setPwr p).pci = s.pci ∧
    (s.setPwr p).kmr = s.kmr ∧ (s.setPwr p).fab = s.fab ∧ (s.setPwr p).lanes = s.lanes ∧ (s.setPwr p).conf = s.conf ∧
    (s.setPwr p).dict = s.dict ∧ (s.setPwr p).sec = s.sec ∧ (s.setPwr p).pins = s.pins ∧ (s.setPwr p).rst = s.rst ∧
    (s.setPwr p).outbox = s.outbox ∧ (s.setPwr p).freeCtr = s.freeCtr ∧ (s.setPwr p).pending = s.pending ∧
    ∀ f u, (s.setPwr p).rd f u = s.rd f u := by
  and_intros <;> intros <;> rfl

@[simp] theorem State.setPins_frame (x : Pins) :
    (s.setPins x).pins = x ∧ (s.setPins x).regs = s.regs ∧ (s.setPins x).sram = s.sram ∧ (s.setPins x).full = s.full ∧
    (s.setPins x).tile = s.tile ∧ (s.setPins x).sync = s.sync ∧ (s.setPins x).trk = s.trk ∧ (s.setPins x).mem = s.mem ∧
    (s.setPins x).streams = s.streams ∧ (s.setPins x).noc = s.noc ∧ (s.setPins x).ses = s.ses ∧ (s.setPins x).pci = s.pci ∧
    (s.setPins x).kmr = s.kmr ∧ (s.setPins x).fab = s.fab ∧ (s.setPins x).lanes = s.lanes ∧ (s.setPins x).conf = s.conf ∧
    (s.setPins x).dict = s.dict ∧ (s.setPins x).pwr = s.pwr ∧ (s.setPins x).sec = s.sec ∧ (s.setPins x).rst = s.rst ∧
    (s.setPins x).outbox = s.outbox ∧ (s.setPins x).freeCtr = s.freeCtr ∧ (s.setPins x).pending = s.pending ∧
    ∀ f u, (s.setPins x).rd f u = s.rd f u := by
  and_intros <;> intros <;> rfl

@[simp] theorem State.setLaneState_frame (l : Lanes) :
    (s.setLaneState l).lanes = l ∧ (s.setLaneState l).regs = s.regs ∧ (s.setLaneState l).sram = s.sram ∧
    (s.setLaneState l).full = s.full ∧ (s.setLaneState l).tile = s.tile ∧ (s.setLaneState l).sync = s.sync ∧
    (s.setLaneState l).trk = s.trk ∧ (s.setLaneState l).mem = s.mem ∧ (s.setLaneState l).streams = s.streams ∧
    (s.setLaneState l).noc = s.noc ∧ (s.setLaneState l).ses = s.ses ∧ (s.setLaneState l).pci = s.pci ∧ (s.setLaneState l).kmr = s.kmr ∧
    (s.setLaneState l).fab = s.fab ∧ (s.setLaneState l).conf = s.conf ∧ (s.setLaneState l).dict = s.dict ∧
    (s.setLaneState l).pwr = s.pwr ∧ (s.setLaneState l).sec = s.sec ∧ (s.setLaneState l).pins = s.pins ∧ (s.setLaneState l).rst = s.rst ∧
    (s.setLaneState l).outbox = s.outbox ∧ (s.setLaneState l).freeCtr = s.freeCtr ∧ (s.setLaneState l).pending = s.pending ∧
    ∀ f u, (s.setLaneState l).rd f u = s.rd f u := by
  and_intros <;> intros <;> rfl

/-! ### Parts of a component -/

@[simp] theorem State.setRst_frame (k i : Nat) (v : Bool) :
    (s.setRst k i v).regs = s.regs ∧ (s.setRst k i v).sram = s.sram ∧ (s.setRst k i v).full = s.full ∧ (s.setRst k i v).tile = s.tile ∧
    (s.setRst k i v).sync = s.sync ∧ (s.setRst k i v).trk = s.trk ∧ (s.setRst k i v).mem = s.mem ∧ (s.setRst k i v).streams = s.streams ∧
    (s.setRst k i v).noc = s.noc ∧ (s.setRst k i v).ses = s.ses ∧ (s.setRst k i v).pci = s.pci ∧ (s.setRst k i v).kmr = s.kmr ∧
    (s.setRst k i v).fab = s.fab ∧ (s.setRst k i v).lanes = s.lanes ∧ (s.setRst k i v).conf = s.conf ∧ (s.setRst k i v).dict = s.dict ∧
    (s.setRst k i v).pwr = s.pwr ∧ (s.setRst k i v).sec = s.sec ∧ (s.setRst k i v).pins = s.pins ∧ (s.setRst k i v).outbox = s.outbox ∧
    (s.setRst k i v).freeCtr = s.freeCtr ∧ (s.setRst k i v).pending = s.pending ∧ ∀ f u, (s.setRst k i v).rd f u = s.rd f u := by
  and_intros <;> intros <;> rfl

@[simp] theorem State.setKport_frame (p : Nat) (x : KPort) :
    (s.setKport p x).regs = s.regs ∧ (s.setKport p x).sram = s.sram ∧ (s.setKport p x).full = s.full ∧ (s.setKport p x).tile = s.tile ∧
    (s.setKport p x).sync = s.sync ∧ (s.setKport p x).trk = s.trk ∧ (s.setKport p x).mem = s.mem ∧ (s.setKport p x).streams = s.streams ∧
    (s.setKport p x).noc = s.noc ∧ (s.setKport p x).ses = s.ses ∧ (s.setKport p x).pci = s.pci ∧ (s.setKport p x).fab = s.fab ∧
    (s.setKport p x).lanes = s.lanes ∧ (s.setKport p x).conf = s.conf ∧ (s.setKport p x).dict = s.dict ∧ (s.setKport p x).pwr = s.pwr ∧
    (s.setKport p x).sec = s.sec ∧ (s.setKport p x).pins = s.pins ∧ (s.setKport p x).rst = s.rst ∧ (s.setKport p x).outbox = s.outbox ∧
    (s.setKport p x).freeCtr = s.freeCtr ∧ (s.setKport p x).pending = s.pending ∧ ∀ f u, (s.setKport p x).rd f u = s.rd f u := by
  and_intros <;> intros <;> rfl

@[simp] theorem State.setEng_frame (e : Nat) (g : Engine) :
    (s.setEng e g).regs = s.regs ∧ (s.setEng e g).sram = s.sram ∧ (s.setEng e g).full = s.full ∧ (s.setEng e g).sync = s.sync ∧
    (s.setEng e g).trk = s.trk ∧ (s.setEng e g).mem = s.mem ∧ (s.setEng e g).streams = s.streams ∧ (s.setEng e g).noc = s.noc ∧
    (s.setEng e g).ses = s.ses ∧ (s.setEng e g).pci = s.pci ∧ (s.setEng e g).kmr = s.kmr ∧ (s.setEng e g).fab = s.fab ∧
    (s.setEng e g).lanes = s.lanes ∧ (s.setEng e g).conf = s.conf ∧ (s.setEng e g).dict = s.dict ∧ (s.setEng e g).pwr = s.pwr ∧
    (s.setEng e g).sec = s.sec ∧ (s.setEng e g).pins = s.pins ∧ (s.setEng e g).rst = s.rst ∧ (s.setEng e g).outbox = s.outbox ∧
    (s.setEng e g).freeCtr = s.freeCtr ∧ (s.setEng e g).pending = s.pending ∧ ∀ f u, (s.setEng e g).rd f u = s.rd f u := by
  and_intros <;> intros <;> rfl

@[simp] theorem State.setConv_frame (k : Nat) (o : Option ConvOp) :
    (s.setConv k o).regs = s.regs ∧ (s.setConv k o).sram = s.sram ∧ (s.setConv k o).full = s.full ∧ (s.setConv k o).sync = s.sync ∧
    (s.setConv k o).trk = s.trk ∧ (s.setConv k o).mem = s.mem ∧ (s.setConv k o).streams = s.streams ∧ (s.setConv k o).noc = s.noc ∧
    (s.setConv k o).ses = s.ses ∧ (s.setConv k o).pci = s.pci ∧ (s.setConv k o).kmr = s.kmr ∧ (s.setConv k o).fab = s.fab ∧
    (s.setConv k o).lanes = s.lanes ∧ (s.setConv k o).conf = s.conf ∧ (s.setConv k o).dict = s.dict ∧ (s.setConv k o).pwr = s.pwr ∧
    (s.setConv k o).sec = s.sec ∧ (s.setConv k o).pins = s.pins ∧ (s.setConv k o).rst = s.rst ∧ (s.setConv k o).outbox = s.outbox ∧
    (s.setConv k o).freeCtr = s.freeCtr ∧ (s.setConv k o).pending = s.pending ∧ ∀ f u, (s.setConv k o).rd f u = s.rd f u := by
  and_intros <;> intros <;> rfl

@[simp] theorem State.setRun_frame (e : Nat) (r : MxRun) :
    (s.setRun e r).regs = s.regs ∧ (s.setRun e r).sram = s.sram ∧ (s.setRun e r).full = s.full ∧ (s.setRun e r).sync = s.sync ∧
    (s.setRun e r).trk = s.trk ∧ (s.setRun e r).mem = s.mem ∧ (s.setRun e r).streams = s.streams ∧ (s.setRun e r).noc = s.noc ∧
    (s.setRun e r).ses = s.ses ∧ (s.setRun e r).pci = s.pci ∧ (s.setRun e r).kmr = s.kmr ∧ (s.setRun e r).fab = s.fab ∧
    (s.setRun e r).lanes = s.lanes ∧ (s.setRun e r).conf = s.conf ∧ (s.setRun e r).dict = s.dict ∧ (s.setRun e r).pwr = s.pwr ∧
    (s.setRun e r).sec = s.sec ∧ (s.setRun e r).pins = s.pins ∧ (s.setRun e r).rst = s.rst ∧ (s.setRun e r).outbox = s.outbox ∧
    (s.setRun e r).freeCtr = s.freeCtr ∧ (s.setRun e r).pending = s.pending ∧ ∀ f u, (s.setRun e r).rd f u = s.rd f u := by
  and_intros <;> intros <;> rfl

@[simp] theorem State.setCtx_frame (k : Nat) (o : Option CtxOp) :
    (s.setCtx k o).regs = s.regs ∧ (s.setCtx k o).sram = s.sram ∧ (s.setCtx k o).full = s.full ∧ (s.setCtx k o).sync = s.sync ∧
    (s.setCtx k o).trk = s.trk ∧ (s.setCtx k o).mem = s.mem ∧ (s.setCtx k o).streams = s.streams ∧ (s.setCtx k o).noc = s.noc ∧
    (s.setCtx k o).ses = s.ses ∧ (s.setCtx k o).pci = s.pci ∧ (s.setCtx k o).kmr = s.kmr ∧ (s.setCtx k o).fab = s.fab ∧
    (s.setCtx k o).lanes = s.lanes ∧ (s.setCtx k o).conf = s.conf ∧ (s.setCtx k o).dict = s.dict ∧ (s.setCtx k o).pwr = s.pwr ∧
    (s.setCtx k o).sec = s.sec ∧ (s.setCtx k o).pins = s.pins ∧ (s.setCtx k o).rst = s.rst ∧ (s.setCtx k o).outbox = s.outbox ∧
    (s.setCtx k o).freeCtr = s.freeCtr ∧ (s.setCtx k o).pending = s.pending ∧ ∀ f u, (s.setCtx k o).rd f u = s.rd f u := by
  and_intros <;> intros <;> rfl

@[simp] theorem State.setVop_frame (q : Nat) (v : VOp) :
    (s.setVop q v).regs = s.regs ∧ (s.setVop q v).sram = s.sram ∧ (s.setVop q v).full = s.full ∧ (s.setVop q v).sync = s.sync ∧
    (s.setVop q v).trk = s.trk ∧ (s.setVop q v).mem = s.mem ∧ (s.setVop q v).streams = s.streams ∧ (s.setVop q v).noc = s.noc ∧
    (s.setVop q v).ses = s.ses ∧ (s.setVop q v).pci = s.pci ∧ (s.setVop q v).kmr = s.kmr ∧ (s.setVop q v).fab = s.fab ∧
    (s.setVop q v).lanes = s.lanes ∧ (s.setVop q v).conf = s.conf ∧ (s.setVop q v).dict = s.dict ∧ (s.setVop q v).pwr = s.pwr ∧
    (s.setVop q v).sec = s.sec ∧ (s.setVop q v).pins = s.pins ∧ (s.setVop q v).rst = s.rst ∧ (s.setVop q v).outbox = s.outbox ∧
    (s.setVop q v).freeCtr = s.freeCtr ∧ (s.setVop q v).pending = s.pending ∧ ∀ f u, (s.setVop q v).rd f u = s.rd f u := by
  and_intros <;> intros <;> rfl

@[simp] theorem State.setClearing_frame (k : Nat) (l : List Nat) :
    (s.setClearing k l).regs = s.regs ∧ (s.setClearing k l).sram = s.sram ∧ (s.setClearing k l).full = s.full ∧
    (s.setClearing k l).sync = s.sync ∧ (s.setClearing k l).trk = s.trk ∧ (s.setClearing k l).mem = s.mem ∧
    (s.setClearing k l).streams = s.streams ∧ (s.setClearing k l).noc = s.noc ∧ (s.setClearing k l).ses = s.ses ∧
    (s.setClearing k l).pci = s.pci ∧ (s.setClearing k l).kmr = s.kmr ∧ (s.setClearing k l).fab = s.fab ∧
    (s.setClearing k l).lanes = s.lanes ∧ (s.setClearing k l).conf = s.conf ∧ (s.setClearing k l).dict = s.dict ∧
    (s.setClearing k l).pwr = s.pwr ∧ (s.setClearing k l).sec = s.sec ∧ (s.setClearing k l).pins = s.pins ∧
    (s.setClearing k l).rst = s.rst ∧ (s.setClearing k l).outbox = s.outbox ∧ (s.setClearing k l).freeCtr = s.freeCtr ∧
    (s.setClearing k l).pending = s.pending ∧ ∀ f u, (s.setClearing k l).rd f u = s.rd f u := by
  and_intros <;> intros <;> rfl

@[simp] theorem State.setSlot_frame (k i : Nat) (h : HistSlot) :
    (s.setSlot k i h).regs = s.regs ∧ (s.setSlot k i h).sram = s.sram ∧ (s.setSlot k i h).full = s.full ∧
    (s.setSlot k i h).sync = s.sync ∧ (s.setSlot k i h).trk = s.trk ∧ (s.setSlot k i h).mem = s.mem ∧
    (s.setSlot k i h).streams = s.streams ∧ (s.setSlot k i h).noc = s.noc ∧ (s.setSlot k i h).ses = s.ses ∧
    (s.setSlot k i h).pci = s.pci ∧ (s.setSlot k i h).kmr = s.kmr ∧ (s.setSlot k i h).fab = s.fab ∧ (s.setSlot k i h).lanes = s.lanes ∧
    (s.setSlot k i h).conf = s.conf ∧ (s.setSlot k i h).dict = s.dict ∧ (s.setSlot k i h).pwr = s.pwr ∧ (s.setSlot k i h).sec = s.sec ∧
    (s.setSlot k i h).pins = s.pins ∧ (s.setSlot k i h).rst = s.rst ∧ (s.setSlot k i h).outbox = s.outbox ∧
    (s.setSlot k i h).freeCtr = s.freeCtr ∧ (s.setSlot k i h).pending = s.pending ∧ ∀ f u, (s.setSlot k i h).rd f u = s.rd f u := by
  and_intros <;> intros <;> rfl

@[simp] theorem State.setQueue_frame (pc : Nat) (l : List Nat) :
    (s.setQueue pc l).regs = s.regs ∧ (s.setQueue pc l).sram = s.sram ∧ (s.setQueue pc l).full = s.full ∧
    (s.setQueue pc l).tile = s.tile ∧ (s.setQueue pc l).sync = s.sync ∧ (s.setQueue pc l).trk = s.trk ∧
    (s.setQueue pc l).streams = s.streams ∧ (s.setQueue pc l).noc = s.noc ∧ (s.setQueue pc l).ses = s.ses ∧
    (s.setQueue pc l).pci = s.pci ∧ (s.setQueue pc l).kmr = s.kmr ∧ (s.setQueue pc l).fab = s.fab ∧ (s.setQueue pc l).lanes = s.lanes ∧
    (s.setQueue pc l).conf = s.conf ∧ (s.setQueue pc l).dict = s.dict ∧ (s.setQueue pc l).pwr = s.pwr ∧ (s.setQueue pc l).sec = s.sec ∧
    (s.setQueue pc l).pins = s.pins ∧ (s.setQueue pc l).rst = s.rst ∧ (s.setQueue pc l).outbox = s.outbox ∧
    (s.setQueue pc l).freeCtr = s.freeCtr ∧ (s.setQueue pc l).pending = s.pending ∧ ∀ f u, (s.setQueue pc l).rd f u = s.rd f u := by
  and_intros <;> intros <;> rfl

@[simp] theorem State.setWeak_frame (k v : Nat) :
    (s.setWeak k v).regs = s.regs ∧ (s.setWeak k v).sram = s.sram ∧ (s.setWeak k v).full = s.full ∧ (s.setWeak k v).tile = s.tile ∧
    (s.setWeak k v).sync = s.sync ∧ (s.setWeak k v).trk = s.trk ∧ (s.setWeak k v).streams = s.streams ∧ (s.setWeak k v).noc = s.noc ∧
    (s.setWeak k v).ses = s.ses ∧ (s.setWeak k v).pci = s.pci ∧ (s.setWeak k v).kmr = s.kmr ∧ (s.setWeak k v).fab = s.fab ∧
    (s.setWeak k v).lanes = s.lanes ∧ (s.setWeak k v).conf = s.conf ∧ (s.setWeak k v).dict = s.dict ∧ (s.setWeak k v).pwr = s.pwr ∧
    (s.setWeak k v).sec = s.sec ∧ (s.setWeak k v).pins = s.pins ∧ (s.setWeak k v).rst = s.rst ∧ (s.setWeak k v).outbox = s.outbox ∧
    (s.setWeak k v).freeCtr = s.freeCtr ∧ (s.setWeak k v).pending = s.pending ∧ ∀ f u, (s.setWeak k v).rd f u = s.rd f u := by
  and_intros <;> intros <;> rfl

@[simp] theorem State.setTraining_frame (k v : Nat) :
    (s.setTraining k v).regs = s.regs ∧ (s.setTraining k v).sram = s.sram ∧ (s.setTraining k v).full = s.full ∧
    (s.setTraining k v).tile = s.tile ∧ (s.setTraining k v).sync = s.sync ∧ (s.setTraining k v).trk = s.trk ∧
    (s.setTraining k v).streams = s.streams ∧ (s.setTraining k v).noc = s.noc ∧ (s.setTraining k v).ses = s.ses ∧
    (s.setTraining k v).pci = s.pci ∧ (s.setTraining k v).kmr = s.kmr ∧ (s.setTraining k v).fab = s.fab ∧
    (s.setTraining k v).lanes = s.lanes ∧ (s.setTraining k v).conf = s.conf ∧ (s.setTraining k v).dict = s.dict ∧
    (s.setTraining k v).pwr = s.pwr ∧ (s.setTraining k v).sec = s.sec ∧ (s.setTraining k v).pins = s.pins ∧
    (s.setTraining k v).rst = s.rst ∧ (s.setTraining k v).outbox = s.outbox ∧ (s.setTraining k v).freeCtr = s.freeCtr ∧
    (s.setTraining k v).pending = s.pending ∧ ∀ f u, (s.setTraining k v).rd f u = s.rd f u := by
  and_intros <;> intros <;> rfl

@[simp] theorem State.setSess_frame (n : Nat) (x : Option Sess) :
    (s.setSess n x).regs = s.regs ∧ (s.setSess n x).sram = s.sram ∧ (s.setSess n x).full = s.full ∧ (s.setSess n x).tile = s.tile ∧
    (s.setSess n x).sync = s.sync ∧ (s.setSess n x).trk = s.trk ∧ (s.setSess n x).mem = s.mem ∧ (s.setSess n x).streams = s.streams ∧
    (s.setSess n x).noc = s.noc ∧ (s.setSess n x).pci = s.pci ∧ (s.setSess n x).kmr = s.kmr ∧ (s.setSess n x).fab = s.fab ∧
    (s.setSess n x).lanes = s.lanes ∧ (s.setSess n x).conf = s.conf ∧ (s.setSess n x).dict = s.dict ∧ (s.setSess n x).pwr = s.pwr ∧
    (s.setSess n x).sec = s.sec ∧ (s.setSess n x).pins = s.pins ∧ (s.setSess n x).rst = s.rst ∧ (s.setSess n x).outbox = s.outbox ∧
    (s.setSess n x).freeCtr = s.freeCtr ∧ (s.setSess n x).pending = s.pending ∧ ∀ f u, (s.setSess n x).rd f u = s.rd f u := by
  and_intros <;> intros <;> rfl

@[simp] theorem State.setSlice_frame (n : Nat) (x : Slice) :
    (s.setSlice n x).regs = s.regs ∧ (s.setSlice n x).sram = s.sram ∧ (s.setSlice n x).full = s.full ∧ (s.setSlice n x).tile = s.tile ∧
    (s.setSlice n x).sync = s.sync ∧ (s.setSlice n x).trk = s.trk ∧ (s.setSlice n x).mem = s.mem ∧ (s.setSlice n x).streams = s.streams ∧
    (s.setSlice n x).noc = s.noc ∧ (s.setSlice n x).ses = s.ses ∧ (s.setSlice n x).pci = s.pci ∧ (s.setSlice n x).kmr = s.kmr ∧
    (s.setSlice n x).lanes = s.lanes ∧ (s.setSlice n x).conf = s.conf ∧ (s.setSlice n x).dict = s.dict ∧ (s.setSlice n x).pwr = s.pwr ∧
    (s.setSlice n x).sec = s.sec ∧ (s.setSlice n x).pins = s.pins ∧ (s.setSlice n x).rst = s.rst ∧ (s.setSlice n x).outbox = s.outbox ∧
    (s.setSlice n x).freeCtr = s.freeCtr ∧ (s.setSlice n x).pending = s.pending ∧ ∀ f u, (s.setSlice n x).rd f u = s.rd f u := by
  and_intros <;> intros <;> rfl

@[simp] theorem State.setStream_frame (g : Nat) (x : Stream) :
    (s.setStream g x).regs = s.regs ∧ (s.setStream g x).sram = s.sram ∧ (s.setStream g x).full = s.full ∧
    (s.setStream g x).tile = s.tile ∧ (s.setStream g x).sync = s.sync ∧ (s.setStream g x).trk = s.trk ∧ (s.setStream g x).mem = s.mem ∧
    (s.setStream g x).noc = s.noc ∧ (s.setStream g x).ses = s.ses ∧ (s.setStream g x).pci = s.pci ∧ (s.setStream g x).kmr = s.kmr ∧
    (s.setStream g x).fab = s.fab ∧ (s.setStream g x).lanes = s.lanes ∧ (s.setStream g x).conf = s.conf ∧
    (s.setStream g x).dict = s.dict ∧ (s.setStream g x).pwr = s.pwr ∧ (s.setStream g x).sec = s.sec ∧ (s.setStream g x).pins = s.pins ∧
    (s.setStream g x).rst = s.rst ∧ (s.setStream g x).outbox = s.outbox ∧ (s.setStream g x).freeCtr = s.freeCtr ∧
    (s.setStream g x).pending = s.pending ∧ ∀ f u, (s.setStream g x).rd f u = s.rd f u := by
  and_intros <;> intros <;> rfl

@[simp] theorem State.setStmSet_frame (g k : Nat) (a : StmSet) :
    (s.setStmSet g k a).regs = s.regs ∧ (s.setStmSet g k a).sram = s.sram ∧ (s.setStmSet g k a).full = s.full ∧
    (s.setStmSet g k a).tile = s.tile ∧ (s.setStmSet g k a).sync = s.sync ∧ (s.setStmSet g k a).trk = s.trk ∧
    (s.setStmSet g k a).mem = s.mem ∧ (s.setStmSet g k a).noc = s.noc ∧ (s.setStmSet g k a).ses = s.ses ∧
    (s.setStmSet g k a).pci = s.pci ∧ (s.setStmSet g k a).kmr = s.kmr ∧ (s.setStmSet g k a).fab = s.fab ∧
    (s.setStmSet g k a).lanes = s.lanes ∧ (s.setStmSet g k a).conf = s.conf ∧ (s.setStmSet g k a).dict = s.dict ∧
    (s.setStmSet g k a).pwr = s.pwr ∧ (s.setStmSet g k a).sec = s.sec ∧ (s.setStmSet g k a).pins = s.pins ∧
    (s.setStmSet g k a).rst = s.rst ∧ (s.setStmSet g k a).outbox = s.outbox ∧ (s.setStmSet g k a).freeCtr = s.freeCtr ∧
    (s.setStmSet g k a).pending = s.pending ∧ ∀ f u, (s.setStmSet g k a).rd f u = s.rd f u := by
  and_intros <;> intros <;> rfl

@[simp] theorem State.owe_frame (event byte7 : Nat) :
    (s.owe event byte7).regs = s.regs ∧ (s.owe event byte7).sram = s.sram ∧ (s.owe event byte7).full = s.full ∧
    (s.owe event byte7).tile = s.tile ∧ (s.owe event byte7).sync = s.sync ∧ (s.owe event byte7).trk = s.trk ∧
    (s.owe event byte7).mem = s.mem ∧ (s.owe event byte7).streams = s.streams ∧ (s.owe event byte7).noc = s.noc ∧
    (s.owe event byte7).ses = s.ses ∧ (s.owe event byte7).pci = s.pci ∧ (s.owe event byte7).kmr = s.kmr ∧
    (s.owe event byte7).fab = s.fab ∧ (s.owe event byte7).lanes = s.lanes ∧ (s.owe event byte7).conf = s.conf ∧
    (s.owe event byte7).pwr = s.pwr ∧ (s.owe event byte7).sec = s.sec ∧ (s.owe event byte7).pins = s.pins ∧
    (s.owe event byte7).rst = s.rst ∧ (s.owe event byte7).outbox = s.outbox ∧ (s.owe event byte7).freeCtr = s.freeCtr ∧
    (s.owe event byte7).pending = s.pending ∧ ∀ f u, (s.owe event byte7).rd f u = s.rd f u := by
  and_intros <;> intros <;> rfl

end Sys2Proof.Machine
end

