-- ==== Sys2Proof/Tests/Slice0.lean ====
section
/-!
SUPPORT. Tests: what WellFormed refuses; one step of commands of several families, with the result worked out by hand from the rule; and, for each
statement of Certificates/Slice0/Obligations.lean, states and operands that meet its hypotheses
(but for clauses whose premise is a passed signature check, which Config leaves open).
-/
namespace Sys2Proof.Tests
open Sys2Proof Sys2Proof.Machine
set_option Elab.async false

/-! ### Helpers -/

/-- A state with some register fields written. -/
def wrs (l : List (Fld × Nat × Nat)) (s : State) : State := l.foldl (fun s e => s.wr e.1 e.2.1 e.2.2) s

/-- The state after reset with some register fields written. -/
def base (l : List (Fld × Nat × Nat)) : State := wrs l State.reset

/-- A word of fields at their places. -/
def word (l : List (Nat × Nat)) : Nat := (l.map (fun e => e.2 * 2 ^ e.1)).sum

/-- What a command answers, when it is a next state. -/
def after (o : Host.Outcome State Fault Refusal) : State := match o with | .next t => t | _ => State.reset

/-- Queue 0 of core 0 runs at the word `w` of its instruction memory, with the S registers of `r`. -/
def prog (w : Nat) (r : List (Nat × Nat)) : State :=
  let s := base [(F.VEC_CTRL_EN, 0, 1), (F.VEC_Q_STAT_STATE, 0, 1), (F.VEC_Q_RANGE_HI, 0, 4095), (F.VEC_Q_RANGE_VMASK, 0, 2 ^ 32 - 1),
    (F.HUR_CTRL_EN, 0, 1), (F.MXE_CTRL_EN, 0, 1), (F.VEC_STATUS_SPAD_INIT, 0, 0)]
  let s := { s with tile := { s.tile with imem := [(0, BitVec.ofNat 128 w)] } }
  r.foldl (fun s e => s.setS 0 e.1 e.2) s

/-- The conditions of `Issues`, computed. -/
def issuesB (s : State) (q cls op : Nat) : Bool :=
  s.running q && !(coreStopped s (coreOfQueue q)) && decide (s.headWait q = .plain) && s.on F.VEC_CTRL_EN (coreOfQueue q) &&
  decide (headFault s q = none) && decide (wClass (s.headWord q) = cls) && decide (wOp (s.headWord q) = op) &&
  (decide (cls = 1) || predOn s q (s.headWord q))

theorem issues_of {s : State} {q cls op : Nat} (h : issuesB s q cls op = true) : Issues s q cls op := by
  simp only [issuesB, Bool.and_eq_true, Bool.not_eq_true', decide_eq_true_eq, Bool.or_eq_true] at h
  obtain ⟨⟨⟨⟨⟨⟨⟨h1, h2⟩, h3⟩, h4⟩, h5⟩, h6⟩, h7⟩, h8⟩ := h
  exact ⟨h1, h2, h3, h4, h5, h6, h7, fun hc => h8.resolve_left hc⟩

/-- The scratchpad of core 0. -/
def pad : Nat := 0x010000000000

/-- A word of the loop class: OP, SD, SA, SB, immediate, whether it is operand b, and the bits above. -/
def scal (op d a b imm sel hi : Nat) : Nat := word [(0, 7), (3, op), (32, d), (37, a), (42, b), (47, sel), (64, imm), (96, hi)]

/-- A word of the vector class: OP, VD, VA, VB, VC, TYPE, SA or SD, mode, and the immediate. -/
def vec (op d a b c ty sa fe imm : Nat) : Nat :=
  word [(0, 1), (3, op), (32, d), (37, a), (42, b), (47, c), (52, ty), (56, sa), (61, fe), (64, imm)]

/-! ### Well-formedness: a term for each check, which it refuses -/

def pkt : Packet := { cls := 0, op := 1, flits := 1, src := 1, dst := 2, da := pad, len := 1, fe := 0, key := 0, sched := false, panic := false, txn := 0,
                      issue := 0, width := 0, status := 0, data := [], linkErr := [], waits := [], ecc := [], panicQueued := false, probes := [] }
def cel : Cell := { seq := 1, typ := 1, channel := 0, sched := false, dst := 0, hops := 0, src := 1, eng := 0, xslot := 0, num := 0, last := true, len := 1, dfe := 0,
                    da := pad, count := 0, payload := [] }

theorem test_wf_accepts : Instr.wf (.registerWrite 8 8 0) = true ∧ Instr.wf (.read pkt) = true ∧ Instr.wf (.ackCell 0 cel) = true := by decide +kernel
theorem test_wf_access_width : Instr.wf (.registerWrite 8 3 0) = false ∧ Instr.wf (.bar0Request true 8 16 0) = false := by decide +kernel
theorem test_wf_offset : Instr.wf (.registerWrite (2 ^ 48) 8 0) = false ∧ Instr.wf (.bar2Request false (2 ^ 48) 8 [] [] false) = false := by decide +kernel
theorem test_wf_ecc : Instr.wf (.bar2Request false 0 8 [] [3] false) = false ∧ Instr.wf (.reportWritten [1, 3]) = false := by decide +kernel
theorem test_wf_counts : Instr.wf (.feedResume 0 (2 ^ 64)) = false ∧ Instr.wf (.dWordWrite 0 (2 ^ 48)) = false ∧
    Instr.wf (.waitingAccessPerform (.lsu 0) (2 ^ 16)) = false ∧ Instr.wf (.lineDelivery 0 0 0 (2 ^ 41) []) = false := by decide +kernel
theorem test_wf_packet : Instr.wf (.read { pkt with flits := 0 }) = false ∧ Instr.wf (.write { pkt with len := 65 }) = false ∧
    Instr.wf (.event { pkt with linkErr := [4] }) = false ∧ Instr.wf (.cell { pkt with ecc := [3] }) = false := by decide +kernel
theorem test_wf_cell : Instr.wf (.writeCell 0 { cel with hops := 16 } []) = false ∧ Instr.wf (.ackCell 0 { cel with count := 128 }) = false := by decide +kernel
theorem test_wf_hello : Instr.wf (.hello 0 { cel with payload := List.replicate 513 0 }) = false ∧ Instr.wf (.neighbourReport 0 { cel with xslot := 8 }) = false := by decide +kernel
theorem test_wf_shape : Instr.wf (.shapeTable (.built 0 [⟨2 ^ 14, 0, 0, 0, 0, 0⟩])) = false ∧
    Instr.wf (.cxlErrorResponse (.transfer 0 0 0 (2 ^ 48))) = false := by decide +kernel
theorem test_wf_path : Instr.wf (.upload (.sent (2 ^ 14) [])) = false ∧ Instr.wf (.objInfo (.kamrus 0 { cel with typ := 16 })) = false := by decide +kernel
theorem test_wf_lists : Instr.wf (.latencyCalibration 0 { cel with typ := 16 }) = false ∧ Instr.wf (.powerOn [(576, 0)]) = false ∧
    Instr.wf (.trainingDone 0 [256] [] 0) = false ∧ Instr.wf (.pacerTick 48000 10 480 [(64, 0)] [] []) = false ∧
    Instr.wf (.groupCheck [(0, 3)] false false 0) = false := by decide +kernel

/-! ### Witnesses: the step, reset, the cores -/

theorem witness_IdleStep : State.reset.pending = [] ∧ State.reset.dict.copying = none ∧ hubDown State.reset = false ∧ State.reset.trk.ts < 2 ^ 48 ∧
    hubDown { State.reset with rst := [(0, true)] } = true := by decide +kernel

theorem witness_Reset : (F.VEC_CTRL_EN.key, 3) ∉ [(F.RST_BOOT_BIN.key, 0), (F.RST_TRIM_STATE.key, 0), (F.RST_TRIM_TRIES.key, 0), (F.PWR_STATUS_IN_RANGE.key, 0),
    (F.PWR_STATUS_Q_ON.key, 0), (F.PAC_WDOG_LEFT_US.key, 0)] := by decide +kernel

theorem witness_EveryStep : (∃ t, step (State.reset.push (.clearFault 0)) = .next t) ∧ (State.reset.push (.clearFault 0)).queueWf = true ∧
    Memory.wf (State.reset.push (.clearFault 0)) = true := by
  refine ⟨⟨_, rfl⟩, ?_, ?_⟩ <;> decide +kernel

/-- Every scalar OP issues, with an S register or the immediate as operand b, and with S0 and S31 as the destination. -/
theorem witness_Scalar : (∀ op ∈ [0x00, 0x08, 0x09, 0x0A, 0x0B, 0x0C, 0x0D, 0x0E, 0x0F, 0x10, 0x11, 0x12],
      issuesB (prog (scal op 0 1 2 5 0 0) [(1, 7), (2, 3)]) 0 7 op = true ∧ issuesB (prog (scal op 31 1 2 (2 ^ 32 - 1) 1 0) [(1, 7)]) 0 7 op = true) ∧
    (let s := (prog (scal 0x02 5 0 0 0 0 0) []).setLoops 0 [⟨0, 3, 2, 4⟩]
     issuesB s 0 7 0x02 = true ∧ (s.loopStack 0)[bits (s.headWord 0) 64 2]? = some ⟨0, 3, 2, 4⟩) := by decide +kernel

/-- loop with count 0 and 3; a branch taken forwards and one that is not; fence with and without a pending write; halt; signal; a fault. -/
theorem witness_QueueFlow : issuesB (prog (scal 0x01 0 0 0 3 1 2) []) 0 7 0x01 = true ∧ issuesB (prog (scal 0x01 0 1 0 0 0 2) []) 0 7 0x01 = true ∧
    (let s := prog (word [(0, 7), (3, 3), (48, 6), (64, 4)]) []
     issuesB s 0 7 0x03 = true ∧ brTaken s 0 (s.headWord 0) = true ∧ s.rd F.VEC_Q_RANGE_HI 0 < 2 ^ 12) ∧
    (let s := prog (word [(0, 7), (3, 3), (37, 1), (48, 0), (64, 4)]) [(1, 9)]
     issuesB s 0 7 0x03 = true ∧ brTaken s 0 (s.headWord 0) = false) ∧
    issuesB (prog (scal 0x15 0 0 0 0 0 0) []) 0 7 0x15 = true ∧ issuesB (prog (scal 0x16 0 0 0 0 0 0) []) 0 7 0x16 = true ∧
    issuesB (prog (scal 0x17 0 0 0 0 0 0) []) 0 7 0x17 = true ∧
    (let s := prog (scal 0x18 0 0 0 0 0 0) []
     s.running 0 = true ∧ coreStopped s 0 = false ∧ s.headWait 0 = .plain ∧ s.on F.VEC_CTRL_EN 0 = true ∧ headFault s 0 = some 0x01) ∧
    (let s := prog (word [(0, 7), (3, 0x13), (32, 4), (37, 1), (51, 2)]) [(1, pad + 64)]
     issuesB s 0 7 0x13 = true ∧ padBusy s (pad + 64) = false ∧ padDown s (pad + 64) = false ∧
     mayAccess s s.sync.waiters 2 false [(pad + 64) / 8] = false) := by decide +kernel

/-- sld and sst in plain mode at the last word of the scratchpad; a consume load that waited and whose word is full now, and one that is not. -/
theorem witness_ScalarAccesses :
    (let s := prog (scal 0x13 4 1 0 0 0 0) [(1, pad + 0xFFFF8)]
     issuesB s 0 7 0x13 = true ∧ padBusy s (pad + 0xFFFF8) = false ∧ padDown s (pad + 0xFFFF8) = false ∧
     mayAccess s s.sync.waiters 0 false [(pad + 0xFFFF8) / 8] = true) ∧
    (let s := prog (scal 0x14 0 1 2 8 0 0) [(1, pad), (2, 77)]
     issuesB s 0 7 0x14 = true ∧ padBusy s (pad + 8) = false ∧ padDown s (pad + 8) = false ∧ mayAccess s s.sync.waiters 0 true [(pad + 8) / 8] = true) ∧
    (let s0 := prog (word [(0, 7), (3, 0x13), (32, 4), (37, 1), (51, 2)]) [(1, pad)]
     let s := { (s0.holdHead 0 3 .access) with sync := { s0.sync with waiters := [⟨.lsu 0, 2, false, [pad / 8]⟩] } }
     s.headWait 0 = .access ∧ coreStopped s 0 = false ∧ wClass (s.headWord 0) = 7 ∧ wOp (s.headWord 0) = 0x13 ∧
     mayAccess s (waitersBefore (.lsu 0) [pad / 8] s.sync.waiters) 2 false [pad / 8] = false ∧
     (let u := s.setFull (pad / 8) true
      mayAccess u (waitersBefore (.lsu 0) [pad / 8] u.sync.waiters) 2 false [pad / 8] = true)) := by decide +kernel

/-- Every vector OP issues with a TYPE that its row admits. -/
theorem witness_Vector : (∀ op ∈ [0x00, 0x01, 0x02, 0x03, 0x04, 0x05, 0x06, 0x07, 0x08, 0x09, 0x0A, 0x0B, 0x0C, 0x0D, 0x0E, 0x12, 0x13, 0x1F],
      issuesB (prog (vec op 1 2 3 4 0 1 0 0) [(1, pad)]) 0 1 op = true) ∧
    (∀ op ∈ [0x00, 0x01, 0x02, 0x06, 0x07, 0x14, 0x15, 0x16, 0x17, 0x18], issuesB (prog (vec op 1 2 3 4 2 1 0 0) []) 0 1 op = true) ∧
    Frac.isZero (Frac.ofInt 0) = true ∧ Frac.isZero (Frac.ofInt 1) = false := by decide +kernel

/-- A reduction over all lanes, over lane 3 alone and over none; vrec inside and outside the record places. -/
theorem witness_VectorReductions :
    (let w := vec 0x0E 0 2 0 0 0 1 0 0 + 2 ^ 8
     let s := fun p => (prog w []).setP 0 0 p
     lanesOn (s 0) 0 w 64 = [] ∧ lanesOn (s 8) 0 w 64 = [3] ∧ lanesOn (s 10) 0 w 64 = [1, 3] ∧ issuesB (s 8) 0 1 0x0E = true ∧
     Val.isNaN (typeVal 0 (opA (s 8) 0 w 3)) = false) ∧
    (let s := prog (word [(0, 1), (3, 0x1F), (96, 1)]) [(1, pad)]
     issuesB s 0 1 0x1F = true ∧ recordPlace 0 (s.sreg 0 (wVSREC (s.headWord 0))) = true) ∧
    (let s := prog (word [(0, 1), (3, 0x1F), (96, 1)]) [(1, 8)]
     recordPlace 0 (s.sreg 0 (wVSREC (s.headWord 0))) = false) ∧
    (let s := prog (vec 0x13 0 2 0 0 0 1 0 63) []
     issuesB s 0 1 0x13 = true ∧ laneOn s 0 (s.headWord 0) 63 = true) := by decide +kernel

theorem witness_VectorLoads : ∀ op ∈ [0x10, 0x11], let s := prog (vec op 1 0 0 0 0 1 0 0) [(1, pad)]
    let ws := (vecWords s 0 (s.headWord 0)).map (fun k => pad / 8 + k)
    issuesB s 0 1 op = true ∧ ws.any (fun x => padBusy s (x * 8)) = false ∧ ws.any (fun x => padDown s (x * 8)) = false ∧
    mayAccess s s.sync.waiters 0 (decide (op = 0x11)) ws = true := by decide +kernel

theorem witness_QueueControl : State.reset.coreDown 0 = false ∧ State.reset.qState 0 = qIDLE ∧ (∀ e, e < 4 → (State.reset.eng e).cur = none) ∧
    (prog 0 []).running 0 = true ∧ (base [(F.VEC_Q_STAT_STATE, 4095, 4)]).qState 4095 = qFAULT := by decide +kernel

theorem witness_CoreMemories : State.reset.running 0 = false ∧ (prog 0 []).running 0 = true ∧
    (base [(F.VEC_Q_RANGE_VMASK, 1, 3)]).running 0 = false ∧ State.reset.coreDown 511 = false ∧
    (∃ i, i < 8 ∧ (prog 0 []).running (0 * 8 + i) = true ∧ (prog 0 []).rd F.VEC_Q_RANGE_LO (0 * 8 + i) ≤ (prog 0 []).rd F.VEC_IMEM_ADDR_WORD 0 ∧
      (prog 0 []).rd F.VEC_IMEM_ADDR_WORD 0 ≤ (prog 0 []).rd F.VEC_Q_RANGE_HI (0 * 8 + i)) := by
  refine ⟨?_, ?_, ?_, ?_, 0, ?_⟩ <;> decide +kernel

/-- A fence behind a convert operation of its queue, and behind a stream of its; a branch out of a loop and within one; a stop with an access and a
hurdle wait; a record that waits for the scratchpad or for the staging buffer. -/
def fenceSt : State := prog (scal 0x15 0 0 0 0 0 0) []
def brSt (loops : List LoopLvl) : State := (prog (word [(0, 7), (3, 3), (48, 6), (64, 4)]) []).setLoops 0 loops
def recAt (da : Nat) : State := { State.reset with tile := { State.reset.tile with recs := [⟨0, none, da, [1, 2, 3, 4, 5, 6, 7, 8]⟩] } }
theorem witness_CoreCases : (let s := fenceSt.setConv 0 (some { ConvOp.taken fenceSt 0 (headIns fenceSt 0 3) [] with formed := true })
     issuesB s 0 7 0x15 = true ∧ writesPending s 0 = true) ∧
    (let s := fenceSt.setStream 1 { Stream.idle with set1 := { StmSet.idle with armed := true } }
     issuesB s 0 7 0x15 = true ∧ streamsPending s 0 = true) ∧
    (let s := brSt [⟨0, 2, 3, 1⟩, ⟨0, 6, 3, 1⟩]
     issuesB s 0 7 3 = true ∧ brTaken s 0 (s.headWord 0) = true) ∧
    (let s := { ((prog 0 []).holdHead 0 3 .access) with sync := { State.reset.sync with waiters := [⟨.lsu 0, 2, false, [5]⟩, ⟨.lsu 1, 2, false, [6]⟩], hurWait := [⟨3, 0, 0, 2, false⟩, ⟨3, 1, 0, 2, false⟩] } }
     s.running 0 = true) ∧
    (let s := recAt pad
     padBusy s pad = true ∧ padDown s pad = false) ∧
    (let s := recAt stagingBase
     padBusy s stagingBase = true ∧ padDown s stagingBase = false) := by decide +kernel

/-- vcmp, vred over two lanes, vmovv of a lane that is masked off, and vrec to a scratchpad that is busy or does not exist. -/
theorem witness_VectorCases : (let s := ((prog (vec 0x0D 0 2 0 0 0 1 0 0 + 2 ^ 8) []).setP 0 0 10).setV 0 2 (0x3F800000 * 2 ^ 32 + 0x40000000 * 2 ^ 96)
     issuesB s 0 1 0x0D = true ∧ lanesOn s 0 (s.headWord 0) 64 = [1, 3]) ∧
    issuesB (prog (vec 0x0A 1 2 3 0 0 0 0 1) []) 0 1 0x0A = true ∧
    (let s := (prog (vec 0x13 0 2 0 0 0 1 0 63 + 2 ^ 8) []).setP 0 0 10
     issuesB s 0 1 0x13 = true ∧ laneOn s 0 (s.headWord 0) 63 = false) ∧
    (let s := wrs [(F.VEC_STATUS_SPAD_INIT, 0, 1)] (prog (word [(0, 1), (3, 0x1F), (96, 1)]) [(1, pad)])
     issuesB s 0 1 0x1F = true ∧ padBusy s pad = true ∧ padDown s pad = false) := by decide +kernel

/-! ### Witnesses: context save, engines, convert unit -/

/-- Core 0 with a save area of HBM at `0x001000000000`. -/
def ctxSt (l : List (Fld × Nat × Nat)) : State :=
  base ([(F.VEC_CTX_DA_DA, 0, 0x001000000000), (F.HBM_STATUS_READY, 0, 1), (F.HBM_STATUS_READY, 1, 1), (F.HBM_STATUS_READY, 2, 1), (F.HBM_STATUS_READY, 3, 1)] ++ l)

theorem witness_ContextRequests : ctxInHbm 0x001000000000 (ctxLen (ctxSt []) 0) = true ∧ (ctxSt []).rd F.VEC_CTX_DA_DA 0 = 0x001000000000 ∧
    (ctxSt [(F.VEC_CTX_STATUS_BUSY, 0, 1)]).on F.VEC_CTX_STATUS_BUSY 0 = true ∧
    ctxInHbm ((base [(F.VEC_CTX_DA_DA, 0, pad)]).rd F.VEC_CTX_DA_DA 0) 0 = false ∧
    (List.range 8).any (fun i => (wrs [(F.VEC_CTX_DA_DA, 0, 0x001000000000)] (prog 0 [])).running i) = true ∧
    (memNat (ctxSt []) 0x001000000000 8).2 = some 0 ∧
    (memWrite (memNat (ctxSt []) 0x001000000000 8).1 0x001000000000 (bytesLE 8 (setBits 0 31 1 0)) Around.quiet).2 = true ∧
    (let s := after (exec (.save 0) (ctxSt []))
     s.ctxOp 0 = some .save ∧ coreQuiet s 0 = true) ∧
    (let s := ctxSt [(F.VEC_CTX_CTRL_SPAD_LEN, 0, 1)]
     (memWrite s 0x001000000000 (bytesLE 8 (2 ^ 31 + 1)) Around.quiet).2 = true) ∧
    ctxHeaderOK (2 ^ 31 + 1) 0 = true ∧ ctxHeaderOK (2 ^ 31 + 1) 1 = false := by decide +kernel

/-- A restore whose area can be read, of length 0. -/
def restoreSt : State := after (exec (.restore 0) (memWrite (ctxSt []) 0x001000000000 (bytesLE 8 (2 ^ 31 + 1)) Around.quiet).1)

theorem witness_ContextRestore : restoreSt.ctxOp 0 = some .restore ∧
    (let da := restoreSt.rd F.VEC_CTX_DA_DA 0
     let h := memNat restoreSt da 8
     h.2.isSome = true ∧ ((areaParts h.1 da [(0x100, 16), (0x900, 8)]).2.map (fun l => l.map List.length)) = some [16, 8]) := by decide +kernel

/-- A matrix instruction of M, N and K 1 over BF16 operands. -/
def mxWord (more : Nat) : Nat := word [(34, 1), (39, 9), (49, 1), (56, 1), (69, 1)] + more
def mxRegs : List (Nat × Nat) := [(1, pad), (2, pad + 0x100), (4, pad + 0x200), (8, 1 + 2 ^ 16 + 2 ^ 32), (9, pad + 0x400)]
def mxSt : State := prog (mxWord 0) mxRegs
/-- An engine with a run and what is staged behind it. -/
def engOf (r : MxRun) (st : Option OpIns) : Engine := { Engine.idle with cur := some r, staged := st }
/-- Its run on engine 0, which has begun. -/
def mxRun : MxRun := { newRun mxSt 0 (headIns mxSt 0 8) none with begun := true, kb := 0 }
def mxOn (g : Engine) : State := wrs [(F.MXE_STATUS_BUSY, 0, 1)] (mxSt.setEng 0 g)

theorem witness_Matmul : issuesB mxSt 0 0 0 = true ∧ mxSt.on F.MXE_CTRL_EN 0 = true ∧ mxSt.on F.MXE_CTRL_DRAIN 0 = false ∧ mxSt.eng 0 = Engine.idle ∧
    (headIns mxSt 0 8).mx.quantD = false ∧ (headIns mxSt 0 8).mx.book = false ∧ mxReject mxSt 0 (headIns mxSt 0 8) = none ∧
    lastPassBegun { mxRun with fed := true } = true ∧ issuesB (mxOn (engOf { mxRun with fed := true } none)) 0 0 0 = true ∧
    lastPassBegun { mxRun with mr := 1 } = true ∧
    issuesB (mxOn (engOf mxRun (some (headIns mxSt 0 8)))) 0 0 0 = true ∧
    (let s := prog (mxWord 0) [(1, pad), (9, pad + 0x400)]
     issuesB s 0 0 0 = true ∧ (headIns s 0 8).mx.dimsOK = false ∧ (headIns s 0 8).mx.quantD = false ∧
     recordPlace 0 (headIns s 0 8).recDA = true ∧ padDown s (headIns s 0 8).recDA = false ∧ padBusy s (headIns s 0 8).recDA = false) := by decide +kernel

theorem witness_Engines :
    (let s := ((mxOn (engOf { mxRun with hold := .operand } none)).setFull (pad / 8) true).setFull (pad / 8 + 32) true
     (foldStep s 0 { mxRun with hold := .operand }).2.2 = true) ∧
    (let o : OutWrite := ⟨pad + 0x200, bytesLE 8 5, true⟩
     (takeWord ((pad + 0x200) / 8) 0 [{ mxRun with out := [(0, [o])] }]).map (fun x => x.1) = some o ∧ outReady mxSt (.out 0) true o = true ∧
     outReady (mxSt.setFull ((pad + 0x200) / 8) true) (.out 0) true o = false) ∧
    recordPlace 0 mxRun.ins.recDA = true ∧ padDown (mxOn (engOf { mxRun with fed := true } none)) mxRun.ins.recDA = false ∧
    padBusy (mxOn (engOf mxRun none)) mxRun.ins.recDA = false ∧ mxRun.scaleOut = [] ∧
    mxRun.spill = false ∧ (engOf mxRun none).ending = [] ∧ mxRun.out = [] ∧ mxRun.ins.mx.quantD = false ∧ preemptible mxRun = true ∧
    (let s := base [(F.MXE_STATUS_BUSY, 0, 1), (F.SES_CLOCK_MODE, 0, 0), (F.SES_RESIDENT_VALID, 0, 1), (F.SES_RESIDENT_SCHED, 0, 1)]
     clampTo 4 16 4 < s.rd F.MXE_CTRL_DUTY 0 ∧ s.on F.MXE_STATUS_BUSY 0 = true ∧ schedAssured s 0 = true) ∧
    (wrs [(F.MXE_CTRL_PREEMPT, 0, 1)] (mxOn (engOf { mxRun with hold := .stopPoint } none))).on F.MXE_CTRL_PREEMPT 0 = true ∧
    (wrs [(F.MXE_STATUS_STOPPED, 0, 1)] (mxOn (engOf mxRun none))).on F.MXE_STATUS_STOPPED 0 = true := by decide +kernel

/-- CONVERT of one element of FP32 to BF16 without a scale; its words are empty or full. -/
def cvSt (w : Nat) : State :=
  { prog w [(1, pad), (2, pad + 0x100), (3, 1 + 2 ^ 32), (9, pad + 0x400), (10, pad + 0x800)] with
    sram := [(pad + 0x800, 1)], full := (List.range 8).map (fun k => ((pad + 0x800) / 8 + k, true)) }
def cvWord : Nat := word [(0, 2), (34, 1), (39, 9), (44, 10)]
def cvFull : State := (cvSt cvWord).setFull (pad / 8) true

theorem witness_Convert : issuesB (cvSt cvWord) 0 2 0 = true ∧ (cvSt cvWord).convOp 0 = none ∧ ((headIns (cvSt cvWord) 0 3).desc (cvSt cvWord)).delayed = false ∧
    cvReject (cvSt cvWord) 0 (headIns (cvSt cvWord) 0 3) = none ∧
    (let i := headIns (cvSt cvWord) 0 3
     wordsReadable (cvSt cvWord) (cvReads (ConvOp.taken (cvSt cvWord) 0 i (readDesc (cvSt cvWord) i.sqd))) = false) ∧
    (let s := cvFull
     let i := headIns s 0 3
     let o := ConvOp.taken s 0 i (readDesc s i.sqd)
     let f := cvForm (qdesc o.desc) [] (convSource s i) i.cvLen i.cvDst i.cvDstS none o
     issuesB s 0 2 0 = true ∧ wordsReadable s (cvReads o) = true ∧ i.cvDwait = false ∧ f.writes.all (outReady s (.conv 0) false) = true ∧
     recordPlace 0 i.recDA = true ∧ padDown s i.recDA = false ∧ padBusy s i.recDA = false ∧ overLimit (qdesc o.desc) f.cnt = false) ∧
    (let s := prog cvWord [(9, pad + 0x400)]
     issuesB s 0 2 0 = true ∧ cvReject s 0 (headIns s 0 3) ≠ none) ∧
    (let o := ConvOp.taken cvFull 0 (headIns cvFull 0 3) []
     issuesB (cvFull.setConv 0 (some o)) 0 2 0 = true ∧ ((cvFull.setConv 0 (some o)).convOp 0).isSome = true) := by decide +kernel

/-- TABLE of a codebook of four E4M3 values. -/
def tbWord : Nat := word [(0, 2), (3, 1), (34, 1), (39, 9), (49, 4)]
theorem witness_Table :
    (let s := cvSt tbWord
     let i : OpIns := { headIns s 0 3 with sqd := 0 }
     issuesB s 0 2 1 = true ∧ tableReject 0 i = none ∧ wordsReadable s (wordsOf i.cvSrc (2 ^ (i.cvIdx + 2))) = false ∧
     (let s := s.setFull (pad / 8) true
      issuesB s 0 2 1 = true ∧ wordsReadable s (wordsOf i.cvSrc (2 ^ (i.cvIdx + 2))) = true ∧ i.cvDwait = false ∧
      (tableForm s (ConvOp.taken s 1 i [])).writes.all (outReady s (.conv 0) false) = true)) ∧
    (let s := prog (word [(0, 2), (3, 1), (34, 1), (39, 9), (49, 1)]) [(9, pad + 0x400)]
     issuesB s 0 2 1 = true ∧ tableReject 0 { headIns s 0 3 with sqd := 0 } ≠ none) ∧
    (let r : MxRun := { mxRun with spill := true, fed := true, desc := [1, 0, 0, 0, 0, 0, 0, pad + 0x1000] }
     (mxOn (engOf r none)).convOp 0 = none ∧ (((mxOn (engOf r none)).eng 0).runs.find? (fun r => r.spill && !r.spilled && r.fed && r.out.isEmpty)) = some r ∧
     wordsReadable (mxOn (engOf r none)) ((List.range r.ins.mx.m).flatMap (fun m =>
       elemWords ((qdesc r.desc).spillDA + m * alignUp (4 * r.ins.mx.n) 8) 0 0 r.ins.mx.n)) = false) := by decide +kernel

def histSt : State := base [(F.QNT_STATUS_CLEARING, 0, 0), (F.QNT_STATUS_CLEARING, 511, 0)]
theorem witness_History : fullClear histSt 0 = false ∧ histSt.rd F.QNT_SLOT_SEL_SLOT 0 ∉ histSt.clearingSlots 0 ∧
    0 ∈ (after (exec (.slotClear 0) histSt)).clearingSlots 0 ∧ fullClear histSt 511 = false ∧ fullClear (after (exec (.histClear 511) histSt)) 511 = true ∧
    (after (exec (.histClear 511) histSt)).clearingSlots 511 = [] := by decide +kernel

/-- A matrix instruction for an engine that is not enabled, that has one staged, and that still has rows of its last pass to read; a D word of a
run that waits; a run that ends; CONVERT and TABLE on a busy convert unit. -/
theorem witness_EngineCases : (let s := wrs [(F.MXE_CTRL_EN, 0, 0)] mxSt
     issuesB s 0 0 0 = true ∧ s.on F.MXE_CTRL_EN 0 = false) ∧
    (let s := mxOn (engOf { mxRun with mr := 1 } none)
     issuesB s 0 0 0 = true ∧ lastPassBegun { mxRun with mr := 1 } = true ∧ (s.eng 0).cur = some { mxRun with mr := 1 } ∧ { mxRun with mr := 1 }.fed = false) ∧
    (let s := mxOn (engOf { mxRun with fed := true } none)
     issuesB s 0 0 0 = true ∧ (s.eng 0).cur = some { mxRun with fed := true } ∧ s.on F.MXE_STATUS_STOPPED 0 = false) ∧
    (let s := mxOn (engOf { mxRun with fed := true, out := [(0, [⟨pad + 0x200, bytesLE 8 5, true⟩])] } none)
     (takeWord ((pad + 0x200) / 8) s.trk.ts (s.eng 0).runs).isSome = true) ∧
    (let s := mxOn { engOf mxRun none with ending := [{ mxRun with fed := true }] }
     (s.eng 0).ending = [{ mxRun with fed := true }] ∧ recordPlace 0 mxRun.ins.recDA = true ∧ padDown s mxRun.ins.recDA = false) ∧
    (let o := ConvOp.taken (cvSt tbWord) 0 (headIns (cvSt tbWord) 0 3) []
     issuesB ((cvSt tbWord).setConv 0 (some o)) 0 2 1 = true) := by decide +kernel

/-! ### Witnesses: stream engines -/

/-- A descriptor that copies `n` bytes of the scratchpad; word 12 is `dl`, word 3 gets `more`. -/
def cpyDsc (src dst n dl more : Nat) : List Nat :=
  [2 ^ 62 + src, 2 ^ 62 + dst, n + 2 ^ 32 + 2 ^ 48, 1 + 2 ^ 16 + more, 0, 0, 0, 0, 0, 0, 0, 0, dl, 0, 0, 0]
def smSet (d : List Nat) : StmSet := { StmSet.idle with armed := true, list := pad + 0x8000, descs := [d], queue := 0, laps := [0, 0, 0, 0, 0, 0, 0, 0] }
/-- Stream engine 0 with a set that runs. -/
def smSt (a : StmSet) (l : List (Fld × Nat × Nat)) : State :=
  (wrs ([(F.STM_CTRL_EN, 0, 1), (F.VEC_STATUS_SPAD_INIT, 0, 0), (F.STM_STATUS_SCHED, 0, 0)] ++ l) State.reset).setStream 0 { Stream.idle with set0 := a, order := [0] }
def smPart : Nat × Nat × Nat := (2 ^ 62 + pad, 2 ^ 62 + pad + 0x4000, 16)
/-- The transfer of a copy of 16 bytes. -/
def smIs (st : XState) (bs : List (List Byte)) : Issued := ⟨0, 0, 2 ^ 24, [smPart], [], st, bs, 0, false, false, 0⟩
def smCpy : StmSet := smSet (cpyDsc pad (pad + 0x4000) 16 0 0)
def smLine : Nat := (2 ^ 62 + pad + 0x4000) / 128
def smHeld : StmSet := { smCpy with next := 1, issued := [smIs .held [List.replicate 16 7]] }

theorem witness_Streams :
    (let s := prog (word [(0, 3), (33, 1)]) [(1, pad + 0x8000)]
     issuesB s 0 3 0 = true ∧ (s.stmSet 0 0).armed = false ∧ ((s.setStmSet 0 0 smCpy).stmSet 0 0).armed = true ∧
     issuesB (s.setStmSet 0 0 smCpy) 0 3 0 = true) ∧
    (let a := { smSet (cpyDsc pad (pad + 0x4000) 0x2000 0 0) with pos := 4096 }
     let s := smSt a []
     mayIssue s 0 = true ∧ (s.stream 0).order.head? = some 0 ∧ a.doneDescs.contains a.next = false ∧ a.issued = [] ∧ listPlaced 0 a.list (a.count + 1) = true ∧ (a.dsc 0).mode = 0 ∧
     (translateParts s ((a.dsc 0).piece [] a.pos).1).2 = .known [] ∧ (translateParts s ((a.dsc 0).piece [] a.pos).1).1 = s) ∧
    (let s := smSt { smCpy with next := 1, issued := [smIs .reading []] } []
     let ws := (wordsOf (gaDA smPart.1) 16).eraseDups
     onChip (gaDA smPart.1) = true ∧ onChip (gaDA smPart.1 + 15) = true ∧ ws.any (fun w => padBusy s (w * 8)) = false ∧ memDown s ws = false ∧
     mayAccess s (waitersBefore (.stream 0 0) ws s.sync.waiters) (smCpy.dsc 0).sfe false ws = true) ∧
    (let a := { smHeld with lines := [(0, smLine)] }
     a.issued.find? (fun i => decide (i.desc = 0 ∧ i.pos = 0 ∧ i.st = .held)) = some (smIs .held [List.replicate 16 7]) ∧
     gaLocal (smSt a []) (a.dsc 0).dst = true ∧ (linesOf (smIs .held [])).all (fun l => delivered a 0 l) = true) := by decide +kernel

theorem witness_Lines :
    (let s := smSt smHeld []
     let d := smHeld.dsc 0
     let ws := lineWords d smLine
     (lineData smHeld 0 smLine).map (fun x => (x.1.length, x.2)) = some (16, 16) ∧ delivered smHeld 0 smLine = false ∧ smHeld.issued.any (isWriting smHeld) = false ∧
     (∀ i ∈ smHeld.issued, ∀ l ∈ linesOf i, placeAnswers s (underXl i.xl (gaDA (l * 128))) = true) ∧
     writeKey 0 (smIs .held [List.replicate 16 7]) ∈ writeSlots (s.stream 0) ∧ s.coreDown 0 = false ∧ gaLocal s d.dst = true ∧
     onChip (gaDA (smLine * 128)) = true ∧ ws.any (fun w => padBusy s (w * 8)) = false ∧ memDown s ws = false ∧
     mayAccess s (waitersBefore (.stream 0 0) ws s.sync.waiters) d.dfe true ws = true) ∧
    (let a := { smCpy with next := 1, issued := [smIs .acked []], lines := [(0, smLine)] }
     dscFinished a 0 = true ∧ (a.dsc 0).hen = false ∧ a.doneDescs.length = a.count ∧
     dscFinished { a with descs := [cpyDsc pad (pad + 0x4000) 16 0 (2 ^ 38)], count := 1 } 0 = true ∧
     tableShut (wrs [(F.HUR_CTRL_EN, 0, 0)] (smSt a [])) 0 = true) := by decide +kernel

theorem witness_Urgency :
    (let a := { smSet (cpyDsc pad (pad + 0x4000) 16 (2 ^ 35) 0) with next := 1 }
     let s := smSt a [(F.STM_STATUS_SCHED, 0, 1), (F.STM_CTRL_PANIC_EN, 0, 1), (F.TRK_CTRL_EN, 0, 1), (F.TRK_STATUS_STATE, 0, 2)]
     panicNow s 0 a 0 (urgency s 0 a 0) = true ∧ dscRunning a 0 = true ∧ (a.dsc 0).dlEn = true ∧ s.trkState 0 ≠ trkSTALLED ∧
     (let f := finishOf a (a.dsc 0)
      posOf f.1 f.2 ≤ s.position 0)) ∧
    panicNow (smSt smCpy []) 0 smCpy 0 (urgency (smSt smCpy []) 0 smCpy 0) = false ∧ smCpy.next = 0 := by decide +kernel

theorem witness_Failures :
    (let a := { smCpy with issued := [⟨0, 0, 0, [smPart], [], .failed 5, [], 0, false, false, 0⟩], fail := some ⟨5, 0, 0, 0, 0⟩ }
     a.abandoned = false ∧ setQuiet (smSt a []) a = true ∧
     setQuiet (smSt { smHeld with abandoned := true } []) { smHeld with abandoned := true } = false ∧ ((smSt a []).stream 0).stopped = none) ∧
    (let a := smSet (cpyDsc (hostBase + 4096) pad 16 0 0)
     let s := smSt a [(F.PCI_STATUS_ATS_EN, 0, 1)]
     let u := { s with pci := { s.pci with asked := [hostPage (hostBase + 4096)] } }
     mayIssue u 0 = true ∧ entriesReady a 0 0 = true ∧ (a.dsc 0).fails u 0 = false ∧ unknownAddr u ((a.dsc 0).piece [] 0).1 = some (2 ^ 62 + hostBase + 4096, false) ∧
     u.pci.asked.contains (hostPage (gaDA (2 ^ 62 + hostBase + 4096))) = true ∧ u.on F.STM_STATUS_SCHED 0 = false ∧
     (wrs [(F.STM_STATUS_SCHED, 0, 1)] u).on F.STM_STATUS_SCHED 0 = true) ∧
    (let s := (smSt smCpy []).setStream 0 { Stream.idle with set0 := { smCpy with fail := some ⟨5, 0, 0, 0, 0⟩ }, stopped := some 0 }
     s.on F.STM_STATUS_SCHED 0 = false ∧ (s.stream 0).stopped = some 0) ∧
    bits (3#64).toNat 0 9 = 3 ∧ ∀ x ∈ State.reset.mem.groups, x.1 ≠ 3 := by decide +kernel

/-- A descriptor with an arrival at hurdle 5, the last of its set and not; causes 2 and 3 of a stop; a stopped set with a page group. -/
theorem witness_StreamCases :
    (let a := { smCpy with next := 1, issued := [smIs .acked []], lines := [(0, smLine)], descs := [cpyDsc pad (pad + 0x4000) 16 0 (2 ^ 60 + 5 * 2 ^ 42)], count := 1 }
     let s := wrs [(F.HUR_CTRL_EN, 0, 0)] (smSt a [])
     dscFinished a 0 = true ∧ tableShut s 5 = true ∧ hurdleDown s 5 = false ∧ a.doneDescs.length ≠ a.count) ∧
    (∀ c ∈ [2, 3, 5], let a := { smCpy with fail := some ⟨c, 0, 0, 0, 0⟩ }
     setQuiet (smSt a []) a = true) ∧
    (let a := { smSet (cpyDsc pad (pad + 0x4000) 16 (2 ^ 35) 0) with next := 1 }
     let s := smSt a [(F.STM_STATUS_SCHED, 0, 1), (F.TRK_CTRL_EN, 0, 1), (F.TRK_STATUS_STATE, 0, 2)]
     let u := { s with trk := { s.trk with lateLog := List.replicate 32 (0, 0, 0, 0) } }
     32 ≤ u.trk.lateLog.length) ∧
    (let s := (smSt { smHeld with abandoned := true } []).setStream 0 { Stream.idle with set0 := { smHeld with abandoned := true }, stopped := some 0 }
     (s.stmSet 0 0).abandoned = true ∧ setQuiet s (s.stmSet 0 0) = false) ∧
    (let s := smSt { smCpy with abandoned := true } []
     (s.stmSet 0 0).abandoned = true ∧ setQuiet s (s.stmSet 0 0) = true) ∧
    (let s : State := { State.reset with mem := { State.reset.mem with groups := [(3, none)] } }
     s.mem.groups = [(3, none)]) ∧
    (let s : State := { State.reset with mem := { State.reset.mem with groups := [(3, some 0)] } }
     s.mem.groups = [(3, some 0)] ∧ (s.stream 0).stopped = none) := by decide +kernel

/-! ### Witnesses: hurdles, batons, the Track -/

/-- A word of a hurdle instruction: OP, register 1 names the hurdle, register 2 takes the result. -/
def hw (op : Nat) : Nat := word [(0, 4), (3, op), (32, 1), (37, 2)]
/-- Hurdle 3 of the queue's own cluster, with a target. -/
def hurSt (op v : Nat) (l : List (Fld × Nat × Nat)) : State := wrs ((F.HUR_CFG_TARGET, 3, 2) :: l) (prog (hw op) [(1, 2 ^ 16 + 3 + v)])
/-- No queue waits at hurdle 3 and no slot of its cluster is armed. -/
def lonely (s : State) : Bool := s.sync.hurWait.all (fun x => x.hur != 3) && (List.range 64).all (fun k => decide (s.rd F.TRK_FL_STAT_ARMED k = 0))

theorem witness_Hurdles : issuesB (hurSt 0 (65535 * 2 ^ 32) []) 0 4 0 = true ∧ issuesB (hurSt 5 0 []) 0 4 5 = true ∧ issuesB (hurSt 6 0 []) 0 4 6 = true ∧
    hurdleNamed 0 ((hurSt 5 0 []).sreg 0 1) = 3 ∧
    tableShut State.reset 0 = false ∧ tableShut (base [(F.HUR_CTRL_EN, 0, 0)]) 3 = true ∧ tableShut (hurSt 0 0 []) 3 = false ∧ lonely (hurSt 0 0 []) = true ∧
    0 < (hurSt 0 0 []).rd F.HUR_CFG_TARGET 3 ∧ (hurSt 0 0 []).rd F.HUR_CFG_TARGET 3 < 2 ^ 16 ∧
    hasWaiters (hurSt 0 0 []) 3 = false ∧ bits (1#64).toNat 0 16 < (hurSt 0 0 []).rd F.HUR_CFG_TARGET 3 ∧
    (let s := hurSt 0 0 []
     hasWaiters { s with sync := { s.sync with hurWait := [⟨3, 0, 0, 2, false⟩] } } 3 = true) ∧
    (hurSt 0 0 []).rd F.HUR_STATE_COUNT 3 < clampTo 1 65535 (bits (4#64).toNat 0 16) := by decide +kernel

theorem witness_Arrivals : issuesB (hurSt 1 0 []) 0 4 1 = true ∧ issuesB (hurSt 2 (7 * 2 ^ 32) []) 0 4 2 = true ∧ writesPending (hurSt 1 0 []) 0 = false ∧
    tableShut (hurSt 1 0 []) 3 = false ∧ lonely (hurSt 1 0 []) = true ∧ tableShut (hurSt 1 0 [(F.HUR_CTRL_EN, 0, 0)]) 3 = true ∧
    issuesB (hurSt 3 (5 * 2 ^ 32) []) 0 4 3 = true ∧ genPassed ((hurSt 3 (5 * 2 ^ 32) []).gen 3) 5 = false ∧
    genPassed ((hurSt 3 (5 * 2 ^ 32) [(F.HUR_STATE_GEN, 3, 6)]).gen 3) 5 = true ∧ genPassed ((hurSt 3 (5 * 2 ^ 32) [(F.HUR_STATE_GEN, 3, 5)]).gen 3) 5 = false ∧
    issuesB (hurSt 4 0 []) 0 4 4 = true ∧ (hurSt 4 0 []).arrivedMark 0 = false ∧ ((hurSt 4 0 []).rd F.HUR_STATE_COUNT 3 + 1) / 2 = 0 ∧
    ((hurSt 4 0 [(F.HUR_STATE_COUNT, 3, 1)]).rd F.HUR_STATE_COUNT 3 + 1) / 2 = 1 := by decide +kernel

theorem witness_FullEmptyPort : (let s := base [(F.HUR_FE_CTRL_DA, 31, stagingBase + 31 * 0x200000), (F.HUR_FE_CTRL_MODE, 31, 2)]
     let s := { s with sync := { s.sync with staged := [(31, true)] } }
     let da := s.rd F.HUR_FE_CTRL_DA 31
     fePortPlace s 31 = true ∧ padDown s da = false ∧ padBusy s da = false ∧ feReady s 2 false (da / 8) = false ∧ feReady s 1 true (da / 8) = true ∧
     feReady (s.setFull (da / 8) true) 2 false (da / 8) = true ∧ feReady (s.setFull (da / 8) true) 1 true (da / 8) = false) ∧
    fePortPlace (base [(F.HUR_FE_CTRL_DA, 31, stagingBase)]) 31 = false := by decide +kernel

/-- Words 0 and 1 of a baton to hurdle 3 of cluster 0, of 16 bytes. -/
def hurDA : Nat := windowBase + 0x1000000 + 0x200000 + 0x30000 + 3 * 0x20
def batSt : State := base [(F.HUR_CTRL_EN, 0, 1), (F.HUR_CFG_MODE, 3, 1), (F.HUR_CFG_WIN, 3, 63)]
def bat : Baton := ⟨hurDA, 16, 0, 0, 9, 1, 0, 0⟩
theorem witness_Batons : issuesB (prog (word [(0, 5), (32, 1), (37, 2), (42, 3)]) [(1, hurDA)]) 0 5 0 = true ∧ hurdleOfDA hurDA = some 3 ∧ batSt.clusterDown 0 = false ∧
    tableShut batSt 3 = false ∧ bits (16#64).toNat 0 40 ≠ 0 ∧ batSt.rd F.HUR_CFG_MODE 3 ≠ 0 ∧ batSt.rd F.HUR_CFG_WIN 3 = 63 ∧
    (batSt.windowQueue 63).length = 0 ∧ (({ batSt with sync := { batSt.sync with batons := [(63, List.replicate 8 bat)] } } : State).windowQueue 63).length = 8 ∧
    hurdleOfDA (hurDA + 8) = none ∧ clusterOfWindowDA (hurDA + 8) = some 0 ∧
    (({ batSt with sync := { batSt.sync with batons := [(63, [bat])] } } : State).windowQueue 63) = [bat] ∧ hurdleOfDA (gaDA bat.ga) = some 3 ∧
    batSt.rd F.HUR_WIN_CREDIT_CREDIT 63 < bat.cnt ∧ bat.cnt ≤ (wrs [(F.HUR_WIN_CREDIT_CREDIT, 63, 16)] batSt).rd F.HUR_WIN_CREDIT_CREDIT 63 ∧
    clusterOfDA pad = some 0 ∧ batSt.rd F.HUR_WIN_CREDIT_CREDIT 63 + 8 < 2 ^ F.HUR_WIN_CREDIT_CREDIT.width := by decide +kernel

/-- A word of a mark instruction on track 1 with registers 4 and 5, and angle 100. -/
def tw (op : Nat) : Nat := word [(0, 6), (3, op), (32, 1), (35, 4), (64, 100)]
def trkSt (st mode : Nat) (k : Track) (l : List (Fld × Nat × Nat)) (s : State) : State :=
  let s := wrs ([(F.TRK_CTRL_EN, 1, b2n (st != 0)), (F.TRK_STATUS_STATE, 1, st), (F.TRK_CFG_MODE, 1, mode)] ++ l) s
  { s with trk := { s.trk with tracks := [(1, k)] } }

theorem witness_Positions : issuesB (prog (tw 1) []) 0 6 1 = true ∧ bits ((prog (tw 1) []).headWord 0) 35 5 ≤ 30 ∧
    issuesB (prog (tw 0) [(4, 2)]) 0 6 0 = true ∧ (prog (tw 0) [(4, 2)]).position 1 < markPos (prog (tw 0) [(4, 2)]) 0 (tw 0) ∧
    (let s := trkSt 2 0 { Track.off with angle := 100 } [] (prog (tw 0) [])
     issuesB s 0 6 0 = true ∧ markPos s 0 (tw 0) ≤ s.position 1) ∧
    (let s := (prog (tw 0) [(4, 2)]).holdHead 0 5 .mark
     s.headWait 0 = .mark ∧ s.position 1 < markPos s 0 (s.headWord 0) ∧
     (let u := trkSt 2 0 { Track.off with angle := 100 } [(F.TRK_LAP_LAP, 1, 2)] s
      u.headWait 0 = .mark ∧ markPos u 0 (u.headWord 0) ≤ u.position 1)) ∧
    State.reset.trk.lateLog = [] ∧ 2 ^ 48 - 1 + 1 = 2 ^ 48 ∧ State.reset.trk.ts + 1 ≠ 2 ^ 48 := by decide +kernel

theorem witness_FinishLines : issuesB (prog (tw 2) [(4, 2), (5, 63)]) 0 6 2 = true ∧
    (let s := prog (tw 2) [(4, 2), (5, 63)]
     s.on F.TRK_FL_STAT_ARMED 63 = false ∧ s.position 1 < markPos s 0 (tw 2) ∧ s.trkState 1 ≠ trkSTALLED ∧
     (wrs [(F.TRK_FL_STAT_ARMED, 63, 1)] s).on F.TRK_FL_STAT_ARMED 63 = true) ∧
    (let s := base [(F.TRK_FL_SET_TRK, 63, 1), (F.TRK_FL_LAP_LAP, 63, 2)]
     s.on F.TRK_FL_STAT_ARMED 63 = false ∧ s.position (s.rd F.TRK_FL_SET_TRK 63) < slotPos s 63 ∧ slotMet s 63 = false ∧
     (let u := wrs [(F.HUR_STATE_GEN, 0, 1)] s
      slotMet u 63 = true)) ∧
    (let s := base [(F.TRK_FL_SET_TRK, 63, 7), (F.TRK_FL_STAT_ARMED, 63, 1)]
     s.trkState (s.rd F.TRK_FL_SET_TRK 63) ≠ trkSTALLED ∧ slotPos s 63 ≤ s.position (s.rd F.TRK_FL_SET_TRK 63) ∧ s.rd F.TRK_FL_SET_TRK 63 < 8 ∧
     s.on F.TRK_FL_GEN_ALT_EN 63 = false ∧ (wrs [(F.TRK_STATUS_STATE, 7, trkSTALLED)] s).trkState (s.rd F.TRK_FL_SET_TRK 63) = trkSTALLED) := by decide +kernel

theorem witness_Tracks : State.reset.on F.TRK_CTRL_EN 7 = false ∧ (trkSt 1 0 Track.off [] State.reset).on F.TRK_CTRL_EN 1 = true ∧
    (let s := trkSt trkLOCKED 5 Track.off [] State.reset
     s.trkState 1 ≠ trkOFF ∧ s.trkMode 1 = 5 ∧ posOf (s.lap 1 + bits (2 ^ 32 + 7 : BitVec 64).toNat 32 32) (bits (2 ^ 32 + 7 : BitVec 64).toNat 0 32) < 2 ^ 96) ∧
    (let s := trkSt trkLOCKED 1 { Track.off with silent := 1000 } [(F.TRK_STALL_TO_CYCLES, 1, 1000), (F.TRK_CFG_HOLDOFF, 1, 0)] State.reset
     s.trkState 1 = trkLOCKED ∧ s.trkMode 1 = 1 ∧ s.rd F.TRK_STALL_TO_CYCLES 1 ≠ 0 ∧ s.rd F.TRK_STALL_TO_CYCLES 1 ≤ (s.track 1).silent ∧
     (s.track 1).seen = false ∧ s.lap 1 + 1 < 2 ^ 64) ∧
    (let s := trkSt trkACQ 1 { Track.off with seen := true, sinceEdge := 9 } [(F.TRK_CFG_HOLDOFF, 1, 8)] State.reset
     s.trkState 1 = trkACQ ∧ s.rd F.TRK_CFG_HOLDOFF 1 < (s.track 1).sinceEdge) ∧
    (let s := trkSt trkLOCKED 0 Track.off [(F.TRK_CFG_INDEX_EN, 1, 1), (F.TRK_EPL_EPL, 1, 4)] State.reset
     s.trkState 1 = trkLOCKED ∧ s.trkMode 1 = 0 ∧ s.on F.TRK_CFG_INDEX_EN 1 = true ∧ s.rd F.TRK_DEFICIT_EDGES 1 + 1 < 2 ^ 32 ∧
     (s.track 1).edges ≠ s.rd F.TRK_EPL_EPL 1) ∧
    State.reset.trkState 0 = trkOFF ∧ State.reset.trkMode 0 ≠ 5 := by decide +kernel

/-- A hurdle of a cluster in reset, named by an instruction of another and by a register write; a window of a cluster in reset. -/
def hurFar (op : Nat) : State := { prog (hw op) [(1, 2048 + 3)] with rst := [(2 * 4096 + 1, true)] }
theorem witness_HurdlesInReset : (∀ op ∈ [0, 1, 2, 3, 4, 5, 6], issuesB (hurFar op) 0 4 op = true ∧ hurdleNamed 0 ((hurFar op).sreg 0 (wR0 ((hurFar op).headWord 0))) = 2051 ∧
      hurdleDown (hurFar op) 2051 = true ∧ writesPending (hurFar op) 0 = false) ∧
    (hurFar 0).clusterDown (64 / 64) = true ∧ clusterOfDA pad = some 0 ∧
    (let s := wrs [(F.HUR_WIN_BASE_DA, 3, pad), (F.HUR_WIN_LEN_LEN, 3, 100), (F.HUR_WIN_CREDIT_CREDIT, 3, 5)] State.reset
     s.rd F.HUR_WIN_CREDIT_CREDIT 3 + 8 < 2 ^ F.HUR_WIN_CREDIT_CREDIT.width) ∧
    ((hurSt 1 0 []).wr F.HUR_CTRL_EN 0 0).clusterDown 0 = false ∧ issuesB ((hurSt 1 0 []).wr F.HUR_CTRL_EN 0 0) 0 4 1 = true ∧
    tableShut ((hurSt 1 0 []).wr F.HUR_CTRL_EN 0 0) 3 = true := by decide +kernel

/-- Windows 63 of cluster 0 with batons that the credit covers, and one that is full. -/
theorem witness_WindowQueues : (let s := wrs [(F.HUR_WIN_CREDIT_CREDIT, 63, 16)] { batSt with sync := { batSt.sync with batons := [(63, [bat])] } }
     s.windowQueue 63 = [bat] ∧ bat.cnt ≤ s.rd F.HUR_WIN_CREDIT_CREDIT 63 ∧ tableShut s 3 = false) ∧
    (let s : State := { batSt with sync := { batSt.sync with batons := [(63, List.replicate 8 bat)] } }
     8 ≤ (s.windowQueue 63).length ∧ bat.cnt > s.rd F.HUR_WIN_CREDIT_CREDIT 63) := by decide +kernel

/-- A finish line slot in use at farm; one whose alternative is not enabled; an index pulse with the count that EPL asks; the timestamp before its wrap; a late record. -/
theorem witness_TrackCases : (let s := prog (tw 2) [(4, 2), (5, 63)]
     issuesB s 0 6 2 = true ∧ (wrs [(F.TRK_FL_STAT_ARMED, 63, 1)] s).on F.TRK_FL_STAT_ARMED 63 = true) ∧
    (let s := base [(F.TRK_FL_SET_TRK, 63, 7), (F.TRK_FL_STAT_ARMED, 63, 1), (F.TRK_FL_GEN_G, 63, 5)]
     slotMet s 63 = false ∧ s.on F.TRK_FL_GEN_ALT_EN 63 = false) ∧
    (let s := base [(F.TRK_FL_SET_TRK, 63, 7), (F.TRK_FL_STAT_ARMED, 63, 1), (F.HUR_STATE_GEN, 0, 1)]
     slotMet s 63 = true ∧ slotPos s 63 ≤ s.position 7) ∧
    (let s := trkSt trkLOCKED 0 { Track.off with edges := 4 } [(F.TRK_CFG_INDEX_EN, 1, 1), (F.TRK_EPL_EPL, 1, 4)] State.reset
     (s.track 1).edges = s.rd F.TRK_EPL_EPL 1 ∧ passesFilter s 1 false 4096 = true) ∧
    (let s : State := { State.reset with trk := { State.reset.trk with ts := 281474976710655, lateLog := [(1, 2, 3, 4)] } }
     s.trk.ts + 1 = 2 ^ 48 ∧ s.trk.lateLog = [(1, 2, 3, 4)]) := by decide +kernel

/-! ### Witnesses: the registers, BAR2, sessions -/

theorem witness_Registers : regAt ((Reg.HUR_WIN_BASE).place.1.base 0 + (Reg.HUR_WIN_BASE).place.2) = some (Reg.HUR_WIN_BASE, 0) ∧
    (let off := (Reg.MXE_CTRL).place.1.base 2047 + (Reg.MXE_CTRL).place.2
     off % 8 = 0 ∧ regAt off = some (Reg.MXE_CTRL, 2047) ∧ noSuchPlace off = false ∧ targetAt off = none) ∧
    (let off := (Reg.HBM_WQ_CTRL).place.1.base 0 + (Reg.HBM_WQ_CTRL).place.2
     off % 8 = 0 ∧ regAt off = some (Reg.HBM_WQ_CTRL, 0) ∧ noSuchPlace off = false ∧ targetAt off = none ∧
     regDown State.reset (Reg.HBM_WQ_CTRL).place 0 = false ∧ (Reg.HBM_WQ_CTRL).isSec = false ∧ State.reset.on F.SEC_STATUS_RECOVERY 0 = false) ∧
    (Reg.MXE_CTRL).hasWO = false ∧ F.MXE_CTRL_DUTY ∈ (Reg.MXE_CTRL).fields ∧ F.MXE_CTRL_DUTY.zeros = 0 ∧ F.MXE_CTRL_DUTY.cmin ≤ 4 ∧ 4 ≤ F.MXE_CTRL_DUTY.cmax ∧
    ¬ ((8 = 8 ∧ 12 % 8 = 0) ∨ (8 = 4 ∧ 12 % 4 = 0)) := by decide +kernel

theorem witness_RegisterEffect : ∀ (s : State) (w : Nat) (low : Bool), regEffect s Reg.HBM_WQ_CTRL 0 w low = writeFields s Reg.HBM_WQ_CTRL 0 w := fun _ _ _ => rfl

theorem witness_Bar2 : (State.reset.inReset 0 0 || !State.reset.pwr.aon || State.reset.pwr.railsOff) = false ∧
    regionOf ((base [(F.PCI_BAR2_BASE_DA, 0, windowBase)]).rd F.PCI_BAR2_BASE_DA 0 + 0) = .window 0 ∧
    regionOf ((base [(F.PCI_BAR2_BASE_DA, 0, 0x030000000000)]).rd F.PCI_BAR2_BASE_DA 0 + 0) = .hole ∧
    (let s := base [(F.PCI_BAR2_BASE_DA, 0, pad), (F.VEC_STATUS_SPAD_INIT, 0, 0)]
     let da := s.rd F.PCI_BAR2_BASE_DA 0 + 4
     da = pad + 4 ∧ onChip da = true ∧ (clusterOfDA (da + 16 - 1)).isSome = true ∧ (wordsOf da 16).any (fun w => padBusy s (w * 8)) = false ∧
     memDown s (wordsOf da 16) = false) := by decide +kernel

/-- Session 1 as admitted, of cluster 0. -/
def ses (sched : Bool) (st : Nat) : Sess := { sessOf [0, 1, 0, 0, 0, 0] 0 with sched := sched, st := st }
def hbmOn : List (Fld × Nat × Nat) := [(F.HBM_STATUS_READY, 0, 1), (F.HBM_STATUS_READY, 1, 1), (F.HBM_STATUS_READY, 2, 1), (F.HBM_STATUS_READY, 3, 1)]
def sesSt (x : Sess) (l : List (Fld × Nat × Nat)) : State :=
  let s := base (hbmOn ++ l)
  { s with ses := { s.ses with sess := [(1, some x)] } }

/-- The table entry of session 1, of a class, for cluster 0. -/
def tableSt (cls : Nat) : State := (memWrite (base (hbmOn ++ [(F.SES_TABLE_DA_DA, 0, 0x001000000000)])) (0x001000000000 + 0x80) [BitVec.ofNat 8 cls, 0, 0, 0, 0, 0, 0, 0, 1] Around.quiet).1

theorem witness_Admission : ∀ cls ∈ [0, 1, 2], let s := tableSt cls
    let s0 := s.wr F.SES_ADMIT_STAT_SESSION 0 1
    let e := readEntry s0 1
    let ws := e.2.getD []
    let x := { sessOf ws 0 with admitLap := e.1.lap (sessOf ws 0).trk }
    let rs := (List.range 32).map (fun r => (readRing e.1 x r false).2)
    let st := if (s.sess 1).isSome then 2 else bits (ws.getD 0 0) 2 3
    s.on F.TST_CDL_PARKED 0 = false ∧ s.rd F.TST_CDL_STEP 0 = 0 ∧ s.on F.SES_CTRL_EN 0 = false ∧ x.sched = decide (cls = 2) ∧ x.clusters = 1 ∧
    admitCause e.1 1 x (bits (ws.getD 0 0) 0 2) st rs = if cls = 0 then some 7 else none := by decide +kernel

theorem witness_SessionActions : State.reset.sess 65535 = none ∧ (sesSt (ses false 1) []).sess 1 = some (ses false 1) ∧ (ses false 1).restoring = false ∧
    (ses false 1).suspending = none ∧ (ses false 1).saving = false ∧ (sesSt (ses true 2) []).on F.SES_CTRL_EN 0 = false ∧
    switchOf (sesSt (ses false 2) []) 1 = none ∧ (maskClusters (ses false 3).clusters).any (clusterSched (sesSt (ses false 3) [])) = false ∧
    (maskClusters (ses false 3).clusters).any (clusterSched (sesSt (ses false 3) [(F.TST_FENCE_CLUSTER, 0, 1)])) = true ∧
    (sesSt (ses false 3) []).admitted.all (fun e => decide (e.2.st = 3)) = true ∧
    (maskClusters (ses true 3).clusters).any (fun c => clusterTaken (sesSt (ses true 3) []) c || clusterSched (sesSt (ses true 3) []) c) = false := by decide +kernel

theorem witness_Switches : (sesSt (ses false 2) []).on F.SES_CTRL_SLICE_HOLD 0 = false ∧
    (let x := { ses true 2 with suspending := some 0 }
     let s := sesSt x [(F.TRK_LAP_LAP, 0, 1), (F.TRK_STATUS_STATE, 0, 2)]
     s.sess 1 = some x ∧ 0 < s.lap x.trk ∧ s.trkState x.trk ≠ trkOFF ∧ s.trkState x.trk ≠ trkSTALLED ∧ (sesSt x []).lap x.trk ≤ 0) ∧
    (let s := addSwitch (sesSt (ses false 2) []) ⟨1, some 1, none, false⟩
     switchOf s 1 = some ⟨1, some 1, none, false⟩ ∧ coresRest s 1 = true ∧ s.sess 1 = some (ses false 2)) ∧
    (let s := addSwitch (sesSt (ses false 1) []) ⟨1, none, some 1, true⟩
     switchOf s 1 = some ⟨1, none, some 1, true⟩ ∧ coresRest s 1 = true) := by decide +kernel

def ringA : Ring := ⟨0x001000010000, 4, false, true, 0, 0, 1, false⟩
def ringSt (c : Ring) (x : Sess) (l : List (Fld × Nat × Nat)) : State := putRing (sesSt x l) 1 3 c
/-- SESSION 1, RING 3, TAIL 5. -/
def dbWord : Word := BitVec.ofNat 64 (1 + 3 * 2 ^ 16 + 5 * 2 ^ 32)

theorem witness_Doorbells : State.reset.sess (bits dbWord.toNat 0 16) = none ∧ (sesSt (ses false 1) []).ring 1 3 = none ∧
    (sesSt (ses false 1) []).ses.loads.length < 256 ∧ (ringSt ringA (ses false 1) []).ring 1 3 = some ringA ∧ 5 - ringA.head ≤ ringA.size - 1 ∧
    bits dbWord.toNat 32 16 = 5 ∧ (ringSt { ringA with valid := false } (ses false 1) []).ring 1 3 = some { ringA with valid := false } ∧
    (let v : Word := BitVec.ofNat 64 (1 * 2 ^ 16 + 3 * 2 ^ 32 + 2 ^ 40)
     bits v.toNat 16 16 = 1 ∧ bits v.toNat 32 5 = 3 ∧ bit v.toNat 40 = 1 ∧ pinnedRings (ringSt ringA (ses false 1) []) < 15360) ∧
    (let v : Word := BitVec.ofNat 64 (1 * 2 ^ 16 + 3 * 2 ^ 32)
     bits v.toNat 16 16 = 1 ∧ bits v.toNat 32 5 = 3 ∧ bit v.toNat 40 = 0) ∧
    (let s := sesSt (ses true 2) []
     s.rd F.SES_CLOCK_MODE 0 = 0 ∧ schedAdmitted s = true ∧ bit (1#64).toNat 0 = 1) ∧
    schedAdmitted State.reset = false ∧ clampTo 0 2 (bits (3#64).toNat 1 2) = 1 := by decide +kernel

/-- A cache of 15,360 pinned contexts is full of pins. -/
theorem witness_PinLimit : (let s : State := { State.reset with ses := { State.reset.ses with rings := (List.range 15360).map (fun k => (k, some { ringA with pin := true })) } }
    decide (15360 ≤ pinnedRings s)) = true := by decide +kernel

/-- Ring 3 of session 1 with one entry of an OP in memory. -/
def subSt (op w1 : Nat) : State :=
  (memWrite (ringSt ringA { ses false 2 with ringTable := 0x001000020000 } [(F.SES_CTRL_EN, 0, 1)]) ringA.base
    [BitVec.ofNat 8 op, 0, 0, 0, 0, 0, 0, 0, BitVec.ofNat 8 w1, 0, 0, 0, 0, 0, 0, 0, 1] Around.quiet).1

theorem witness_Submissions : (∀ op ∈ [1, 2, 9], let s := subSt op 1
    let x := { ses false 2 with ringTable := 0x001000020000 }
    s.sess 1 = some x ∧ dispatches s 1 x = true ∧ nextPending s 1 x = some 3 ∧ s.ring 1 3 = some ringA ∧
    (takeEntry s 1 3 ringA x []).2.map (fun ws => (bits (ws.getD 0 0) 0 8, runQueues x (bits (ws.getD 1 0) 0 32) (ws.getD 2 0))) = some (op, [0]) ∧
    s.running 0 = false ∧ s.qState 0 ≠ qFAULT ∧ (wrs [(F.VEC_Q_STAT_STATE, 0, qFAULT)] s).qState 0 = qFAULT) ∧
    (let b : Submission := ⟨1, 3, 0, 0, [0], none, 0, 0⟩
     let s := sesSt (ses false 2) []
     let u := s.setSes { s.ses with subs := [b] }
     u.ses.subs[0]? = some b ∧ u.sess b.session = some (ses false 2) ∧ switchOf u 1 = none ∧ u.qState 0 = qIDLE ∧
     (wrs [(F.VEC_Q_STAT_STATE, 0, qRUN)] u).qState 0 = qRUN) ∧
    (let b : Submission := ⟨1, 3, 0, 0, [], some 0, 0, 0⟩
     let c := { ringA with completion := true }
     let s := ringSt c (ses false 2) []
     let u := s.setSes { s.ses with subs := [b] }
     (memNat u (ringDA (ses false 2) 3 + 8) 2).2 = some 0 ∧ ({ c with head := 0 % c.size } : Ring).count ≠ c.size - 1 ∧
     ({ c with tail := 15, head := 0 % c.size } : Ring).count = c.size - 1 ∧ c.valid = true) := by decide +kernel

/-! ### Witnesses: Kamrus -/

/-- Port 11 ACTIVE, and its state beyond the registers. -/
def kmrSt (st : Nat) (x : KPort) (l : List (Fld × Nat × Nat)) : State :=
  let s := base ([(F.KMR_STATUS_STATE, 11, st), (F.KMR_CTRL_EN, 11, 1), (F.KMR_ROLE_NODE, 0, 5), (F.VEC_STATUS_SPAD_INIT, 0, 0)] ++ l)
  s.setKport 11 x
def own8 : KPort := { KPort.idle with own := (0, 0, 255) }

theorem witness_Ports : portDownRst State.reset 11 = false ∧ (kmrSt 2 own8 []).on F.KMR_CTRL_EN 11 = true ∧ (kmrSt 2 own8 []).rd F.KMR_STATUS_STATE 11 = 2 ∧
    ((kmrSt 2 own8 []).kport 11).own.2.2 % 256 ≠ 0 ∧
    chooseMode ((kmrSt 2 own8 []).setKport 11 { own8 with theirs := (0, 0, 0), theirFec := 3 }) 11 = none ∧
    (chooseMode ((kmrSt 2 own8 []).setKport 11 { own8 with theirs := (0, 0, 255), theirFec := 3 }) 11).map (fun x => (x.1, x.2.1)) = some (0, 2) ∧
    ((kmrSt 2 { own8 with noMode := true } []).kport 11).noMode = true ∧
    (let s := kmrSt 2 { own8 with chosen := true } []
     (s.kport 11).chosen = true ∧ (groupLanes s 11).contains 7 = true ∧ s.rd F.LNE_STAT_STATE (laneOf 11 7) < 3) ∧
    portActive State.reset 11 = false ∧ portActive (kmrSt 3 own8 []) 11 = true ∧
    (let s := kmrSt 3 { own8 with bad := List.replicate 300 0 } []
     s.rd F.KMR_CTRL_DOWN_TH 11 < ((s.kport 11).bad.filter (fun t => decide ((s.trk.ts + 2 ^ 48 - t) % 2 ^ 48 < 1750000))).length + 1) ∧
    (let s := kmrSt 3 own8 [(F.KMR_FRAME_SWAP, 11, 1)]
     s.on F.KMR_FRAME_SWAP 11 = true ∧ (s.kport 11).slot = 0 ∧ s.rd F.KMR_FRAME_BANK 11 ≤ 1) := by decide +kernel

/-- A cell for this device (node 5) that writes 16 bytes. -/
def cel5 : Cell := { cel with dst := 5, payload := List.replicate 16 7 }
def seqSt (l : Option Nat) : State := kmrSt 3 { own8 with rxSeq := l } []

theorem witness_Cells : portActive (seqSt none) 11 = true ∧ ((seqSt (some 1)).kport 11).rxSeq = some 1 ∧ cel5.seq = 1 ∧ ((seqSt none).kport 11).rxSeq = none ∧
    cel.dst ≠ (seqSt none).node ∧ cel5.dst = (seqSt none).node ∧ cel5.typ = 1 ∧
    (let s := seqSt none
     let ws := wordsOf cel5.da (cellBytes cel5).length
     onChip cel5.da = true ∧ onChip (cel5.da + (cellBytes cel5).length - 1) = true ∧ memDown s ws = false ∧ stalledCells s (quarterOfPort 11 * 64) = [] ∧
     ws.any (fun w => padBusy s (w * 8)) = false ∧ mayAccess s (waitersBefore (.cells (quarterOfPort 11 * 64)) ws s.sync.waiters) cel5.dfe true ws = true ∧
     mayAccess s (waitersBefore (.cells (quarterOfPort 11 * 64)) ws s.sync.waiters) 2 false ws = false) ∧
    (let c : Cell := { cel5 with typ := 2, count := 1, payload := bytesLE 8 (1023 + 7 * 2 ^ 10 + 2 ^ 13 + 2 ^ 16) }
     let e := ofBytesLE (c.payload.take 8)
     let k := e % 1024 * 8 + bits e 10 3
     k = 8191 ∧ remoteOf (seqSt none) k = none ∧ remoteOf (setRemote (seqSt none) k (some ⟨0, 0, [], some 0, [], false, 0⟩)) k = some ⟨0, 0, [], some 0, [], false, 0⟩ ∧
     portWrite (seqSt none) k = none ∧ (kmrSt 3 own8 [(F.KMR_ACK_TO_CYCLES, 0, 0)]).rd F.KMR_ACK_TO_CYCLES 0 ≤ (0 + 2 ^ 48 - 0) % 2 ^ 48 ∧
     remoteOf (setRemote (seqSt none) k (some ⟨0, 0, [], none, [], false, 0⟩)) k = some ⟨0, 0, [], none, [], false, 0⟩) ∧
    (let c : Cell := { cel5 with typ := 3, count := 1, payload := bytesLE 8 hurDA ++ bytesLE 8 16 ++ bytesLE 16 0 }
     let b := batonOf ((List.range 4).map (fun k => ofBytesLE ((c.payload.drop (8 * k)).take 8)))
     0 < b.cnt ∧ hurdleOfDA (gaDA b.ga) = some 3) ∧
    (let s := kmrSt 3 { own8 with queues := [(64, [(cel, false)])] } []
     portActive s 11 = true ∧ s.on F.KMR_FRAME_SWAP 11 = false ∧ (groupLanes s 11).any (fun i => s.on F.LNE_STAT_TX_ASLEEP (laneOf 11 i)) = false ∧
     (slotQueues s 11).find? (fun q => !((Tab.get [] (s.kport 11).queues q).isEmpty)) = some 64 ∧ Tab.get [] (s.kport 11).queues 64 = [(cel, false)] ∧ cel.typ ≠ 4) := by
  decide +kernel

/-- A link-local CONTROL cell with the payload `bs`. -/
def ctlCel (bs : List Byte) : Cell := { cel5 with typ := 5, payload := bs }
theorem witness_Hellos : (∀ k ∈ [1, 2, 3], let c := ctlCel (k :: List.replicate 63 0)
     (receiveCell (seqSt none) 11 c).2 = true ∧ natAt c.payload 0 1 = k.toNat) ∧
    (let c := ctlCel ((⟨2, 9, 77, 9, 9, 3, [], false, false, none⟩ : Hello).bytes)
     (helloOf c.payload).role = 2 ∧ (helloOf c.payload).assign = none ∧ kmrRole (receiveCell (seqSt none) 11 c).1 < 2 ∧
     (receiveCell (seqSt none) 11 c).1.kmr.manager = none ∧ (receiveCell (seqSt none) 11 c).1.kmr.mgrPorts = []) ∧
    (helloOf ((⟨2, 9, 77, 9, 9, 3, [], false, false, some (0xFF, 4)⟩ : Hello).bytes)).assign = some (0xFF, 4) ∧
    ((seqSt none).kport 11).cal < 63 ∧ ({ own8 with cal := 63 } : KPort).cal = 63 ∧ ({ own8 with spoiled := 1 } : KPort).spoiled = 1 ∧
    bits (natAt ((bytesLE 8 hurDA ++ bytesLE 8 (16 + 15 * 2 ^ 40) ++ bytesLE 16 0).take 32) 8 8) 40 4 = 15 ∧
    kmrRole (base [(F.KMR_ROLE_ROLE, 0, 2)]) = 2 ∧ (base [(F.KMR_ROLE_ROLE, 0, 1)]).kmr.rebuild = false := by decide +kernel

theorem witness_Managers : kmrRole State.reset = 0 ∧ State.reset.kmr.manager = none ∧ kmrRole (base [(F.KMR_ROLE_ROLE, 0, 1)]) = 1 ∧
    reportChange State.reset ⟨0, 0, 0, false, 0⟩ = true ∧
    reportChange ({ base [(F.KMR_START_LIST0_DATA, 127, 2 ^ 16), (F.KMR_START_LIST1_DATA, 127, 9)] with pending := [] }) ⟨0, 9, 0, false, 0⟩ = false ∧
    State.reset.kmr.rebuild = false ∧ State.reset.kmr.holdover = false ∧
    (let s := base [(F.KMR_REF_CTRL_SRC, 0, 1), (F.KMR_REF_CTRL_PRIMARY, 0, 11), (F.KMR_REF_CTRL_SECONDARY, 0, 15)]
     s.rd F.KMR_REF_CTRL_SRC 0 = 1 ∧ s.rd F.KMR_REF_CTRL_PRIMARY 0 = 11 ∧ s.rd F.KMR_REF_CTRL_SECONDARY 0 = 15) ∧
    (let s := base [(F.KMR_REF_CTRL_SRC, 0, 1), (F.KMR_REF_CTRL_PRIMARY, 0, 11), (F.KMR_REF_CTRL_SECONDARY, 0, 0)]
     s.rd F.KMR_REF_CTRL_SECONDARY 0 ≠ 15 ∧ s.rd F.KMR_REF_CTRL_SECONDARY 0 ∉ s.kmr.refLost ∧ s.rd F.KMR_REF_CTRL_SECONDARY 0 ≠ 11) ∧
    schedAdmitted State.reset = false ∧ State.reset.rd F.SES_CLOCK_MODE 0 = 0 ∧
    (let s := kmrSt 3 own8 [(F.KMR_TRK_FWD_PORTS, 0, 2048), (F.KMR_ROLE_ROLE, 0, 1)]
     bit (s.rd F.KMR_TRK_FWD_PORTS 0) 11 = 1 ∧ 1 ≤ kmrRole s ∧ portActive s 11 = true) ∧
    (base [(F.KMR_ROLE_STANDBY, 0, 1)]).on F.KMR_ROLE_STANDBY 0 = true ∧ State.reset.kmr.tookOver = false ∧
    (memWrite (base ((F.KMR_SHAPE_DA, 0, 0x001000000000) :: hbmOn)) ((base ((F.KMR_SHAPE_DA, 0, 0x001000000000) :: hbmOn)).rd F.KMR_SHAPE_DA 0) (bytesLE 8 (7 * 2 ^ 32)) Around.quiet).2 = true ∧
    regionOf 0x001000000008 = .hbm ∧ regionOf pad ≠ .hbm ∧
    (memWrite (base [(F.KMR_SHAPE_DA, 0, 0x001000000000)]) 0x001000000000 (bytesLE 8 (7 * 2 ^ 32)) Around.quiet).2 = false := by decide +kernel

/-- Cells of each TYPE, for this device and for another, with hops left and used up; a port with a spoiled cell, and one that has had SEQ 1; a state
with an uncorrectable codeword; a SYNC cell with one baton whose hops are used up. -/
def cellOfType (typ dst hops count : Nat) (bs : List Byte) : Cell := { cel5 with typ := typ, dst := dst, hops := hops, count := count, payload := bs }
def batBytes (hops : Nat) : List Byte := bytesLE 8 hurDA ++ bytesLE 8 (16 + hops * 2 ^ 40) ++ bytesLE 16 0
theorem witness_CellCases : (let s := kmrSt 3 { own8 with spoiled := 1 } []
     portActive s 11 = true ∧ 0 < (s.kport 11).spoiled) ∧
    (∀ typ ∈ [0, 1, 2, 3, 4], (cellOfType typ 5 0 1 (batBytes 0)).dst = (seqSt none).node ∧ (cellOfType typ 9 15 0 []).dst ≠ (seqSt none).node) ∧
    (let c := cellOfType 3 9 0 1 (batBytes 15)
     c.typ = 3 ∧ c.count = 1 ∧ c.dst ≠ (seqSt none).node ∧ bits (natAt (c.payload.take 32) 8 8) 40 4 = 15) ∧
    (let s := seqSt (some 1)
     (s.kport 11).rxSeq = some 1 ∧ (cellOfType 1 5 0 0 []).seq = 1) ∧
    (let s := wrs [(F.KMR_ACK_TO_CYCLES, 0, 4096)] (setRemote (seqSt none) 8191 (some ⟨0, 0, [], some 0, [], false, 0⟩))
     let u := { s with trk := { s.trk with ts := 8192 } }
     (remoteOf u 8191).isSome = true ∧ u.rd F.KMR_ACK_TO_CYCLES 0 ≤ (u.trk.ts + 2 ^ 48 - 0) % 2 ^ 48 ∧ (s.trk.ts + 2 ^ 48 - 0) % 2 ^ 48 < s.rd F.KMR_ACK_TO_CYCLES 0) ∧
    (let s := { (seqSt none) with sync := { State.reset.sync with waiters := [⟨.cells (quarterOfPort 11 * 64), 1, true, [pad / 8]⟩] } }
     s.sync.waiters.length = 1) ∧
    (let s := setStalled (seqSt none) (quarterOfPort 11 * 64) [cel5]
     stalledCells s (quarterOfPort 11 * 64) ≠ []) := by decide +kernel

/-- Reports at a manager while it rebuilds and while it does not; a calibration at its 64th pair; a manager that shows its start list; a holdover; a
domain manager with a claim of another device. -/
def mgrSt (k : Kamrus → Kamrus) (l : List (Fld × Nat × Nat)) : State := let s := kmrSt 3 own8 ((F.KMR_ROLE_ROLE, 0, 2) :: l); { s with kmr := k s.kmr }
def repCel (r : Report) : Cell := ctlCel (reportBytes r [])
theorem witness_ManagerCases : (let s := mgrSt (fun k => { k with rebuild := true }) []
     kmrRole s ≠ 0 ∧ s.kmr.rebuild = true ∧ (receiveCell s 11 (repCel ⟨3, 9, 0, false, 0⟩)).2 = true ∧ reportOf (repCel ⟨3, 9, 0, false, 0⟩).payload = ⟨3, 9, 0, false, 0⟩) ∧
    (let s := mgrSt (fun k => { k with rebuild := true, reports := [⟨3, 8, 0, false, 0⟩] }) []
     ∃ x ∈ s.kmr.reports, x.key = 3 ∧ x ≠ ⟨3, 9, 0, false, 0⟩) ∧
    (let s := mgrSt id [(F.KMR_START_LIST0_DATA, 127, 2 ^ 16), (F.KMR_START_LIST1_DATA, 127, 9)]
     s.kmr.rebuild = false ∧ reportChange (receiveCell s 11 (repCel ⟨0, 9, 0, false, 0⟩)).1 ⟨0, 9, 0, false, 0⟩ = false) ∧
    (mgrSt (fun k => { k with holdover := true }) []).kmr.holdover = true ∧
    (let s := kmrSt 3 { own8 with cal := 63 } []
     (s.kport 11).cal = 63 ∧ natAt (ctlCel [2, 1, 0, 0, 0, 0, 0, 0]).payload 1 1 ≠ 0 ∧ natAt (ctlCel [2, 0, 0, 0, 0, 0, 0, 0]).payload 1 1 = 0) ∧
    (kmrSt 3 { own8 with cal := 64 } []).kmr.holdover = false ∧
    (let s := wrs [(F.KMR_SHAPE_DA, 0, 0x001000000000)] (mgrSt id hbmOn)
     kmrRole s = 2 ∧ (shapeDevices s [⟨300, 4, 8, 3, 0, 7⟩]).any (fun d => decide (d.node ≠ s.node)) = true) ∧
    (let s := wrs [(F.KMR_REF_CTRL_SRC, 0, 1), (F.SES_CTRL_EN, 0, 1)] (sesSt (ses true 2) [])
     schedAdmitted s = true) := by decide +kernel

/-! ### Witnesses: memory tiers -/

theorem witness_Hbm : (hbmWrite (base hbmOn) 0x1F [5] [] false).2 = true ∧ schedAdmitted (sesSt (ses true 2) []) = true ∧
    (let s := base (hbmOn ++ [(F.HBM_CTRL_SCRUB_EN, 3, 1), (F.HBM_CTRL_UE_EVT_EN, 3, 1), (F.HBM_CTRL_SR_EN, 3, 1)])
     s.on F.HBM_CTRL_SCRUB_EN (255 / 64) = true ∧ pcServes s 255 = true ∧ s.on F.HBM_ERR_LOG_VALID 3 = false ∧ s.on F.HBM_CTRL_UE_EVT_EN 3 = true ∧
     s.rd F.HBM_PC_STATE_STATE 255 = 0 ∧ hbmQueue s 255 = [] ∧ s.on F.HBM_CTRL_SR_EN (7 / 2) = true ∧
     (List.range 32).all (fun i => pcServes s (7 * 32 + i) && decide (hbmQueue s (7 * 32 + i) = [])) = true) ∧
    (let s := { State.reset with mem := { State.reset.mem with postponed := [(0, 8)] } }
     Tab.get 0 State.reset.mem.postponed 0 < (base [(F.HBM_REF_CTRL_POSTPONE, 0, 8)]).rd F.HBM_REF_CTRL_POSTPONE 0 ∧
     s.rd F.HBM_REF_CTRL_POSTPONE 0 ≤ Tab.get 0 s.mem.postponed 0) ∧
    State.reset.rd F.HBM_STATUS_TRAIN_STATE 0 ≠ 1 ∧ State.reset.rd F.HBM_STATUS_TRAIN_STATE 0 ≠ 2 ∧
    (base [(F.HBM_STATUS_TRAIN_STATE, 0, 1)]).rd F.HBM_STATUS_TRAIN_STATE 0 = 1 ∧
    (let s := base [(F.HBM_STATUS_TRAIN_STATE, 0, 2), (F.HBM_TRAIN_TEMP_DELTA, 0, 1)]
     s.rd F.HBM_STATUS_TRAIN_STATE 0 = 2 ∧ s.rd F.HBM_TRAIN_TEMP_DELTA 0 < 2) := by decide +kernel

theorem witness_Cxl : State.reset.on F.CXL_WIN_CFG_EN 15 = false ∧
    (let x := { ses true 2 with wins := [(cxlBase, 8, true)] }
     let s := sesSt x [(F.CXL_WIN_CFG_EN, 0, 1)]
     s.on F.CXL_WIN_CFG_EN 0 = true ∧ winUsed s 0 = true ∧ winUsed (base [(F.CXL_WIN_CFG_EN, 0, 1)]) 0 = false) ∧
    State.reset.mem.prq = [] ∧ State.reset.mem.xltGone.any (fun e => xltInUse State.reset e.1) = false ∧
    (let s := smSt { smCpy with next := 1, issued := [{ smIs .reading [] with xl := [(3, 4)] }] } []
     let u := { s with mem := { s.mem with xltGone := [(3, 4)] } }
     u.mem.xltGone.any (fun e => xltInUse u e.1) = true) ∧
    (let s := base [(F.CXL_PORT_CTRL_EN, 1, 1), (F.CXL_TIER_STATUS_LINK_UP, 0, 1)]
     bit (s.rd F.CXL_TIER_STATUS_LINK_UP 0) 1 = 0 ∧ bit (s.rd F.CXL_TIER_STATUS_LINK_UP 0) 0 = 1 ∧ s.on F.CXL_PORT_CTRL_EN 1 = true ∧ s.rd F.CXL_TIER_STATUS_LINK_UP 0 < 4) ∧
    State.reset.on F.CXL_CFG_ADDR_BUSY 1 = false ∧ (base [(F.CXL_CFG_ADDR_BUSY, 1, 1)]).on F.CXL_CFG_ADDR_BUSY 1 = true ∧
    portNamed State.reset 1 = false ∧ portNamed (base [(F.CXL_WIN_CFG_EN, 0, 1), (F.CXL_WIN_TGT_TARGETS, 0, 8)]) 1 = true ∧
    (base [(F.CXL_PORT_STAT_LINK_UP, 1, 1)]).on F.CXL_PORT_STAT_LINK_UP 1 = true := by decide +kernel

/-! ### Witnesses: the network and the fabric -/

/-- A request of a stream engine of cluster 0 for two words of its scratchpad, to an engine of cluster 1. -/
def rq (op fe : Nat) : Packet := { pkt with op := op, src := 1, dst := 0x102, len := 2, fe := fe, data := List.replicate 16 7 }
def nocSt : State := base [(F.VEC_STATUS_SPAD_INIT, 0, 0), (F.KMR_ROLE_NODE, 0, 5), (F.HUR_CTRL_EN, 0, 1)]
def arrived (x : State × Arrival) : Bool := match x.2 with | .ok => true | _ => false
def asleepSt : State := wrs [(F.NOC_PWR_STAT_CLUSTER, 0, 2)] nocSt

/-- A packet meets a sleeping domain on its way, or a buffer before one. -/
def meets (s : State) (r : Packet) : Option (Nat × Nat) := match wayOf s r (exitsOf r (routeOfPkt s r).1) with | .hold q d => some (q, d) | _ => none
def stalls (s : State) (r : Packet) : Bool := match wayOf s r (exitsOf r (routeOfPkt s r).1) with | .stall _ => true | _ => false

theorem witness_Requests : (∀ op ∈ [1, 2], let r := rq op 0
    let s := openReq nocSt r false
    let x := carry (markSent s r false) r
    let ws := wordsOf r.da 16
    waitsBehind s r false = false ∧ arrived x = true ∧ onChip r.da = true ∧ onChip (r.da + 15) = true ∧ memDown x.1 ws = false ∧
    ws.any (fun w => padBusy x.1 (w * 8)) = false ∧ mayAccess x.1 (waitersBefore (.packet 1 0) ws x.1.sync.waiters) 0 (decide (op = 2)) ws = true ∧
    x.1.sync.waiters = [] ∧ mayAccess x.1 (waitersBefore (.packet 1 0) ws x.1.sync.waiters) 2 (decide (op = 2)) ws = false) ∧
    (let r := { rq 1 0 with txn := 1 }
     let s := nocSt.setNoc { nocSt.noc with opened := [⟨1, 0, false, 0x102, false, 2, [], false, 0, false⟩] }
     waitsBehind (openReq s r false) r false = true) ∧
    (∀ x ∈ [(0, 1), (0, 2), (0, 3), (2, 1), (2, 2), (3, 1), (3, 2), (3, 4)], let r := { rq 1 0 with cls := x.1, op := x.2 }
     unitExists r.dst = true ∧ meets asleepSt r = some (0, 1) ∧ meets nocSt r = none ∧
     stalls (asleepSt.setNoc { asleepSt.noc with heldPkts := List.replicate 4 (1, r) }) r = true) := by decide +kernel

/-- The offset of a register that anyone may read and write. -/
def offW : Nat := (Reg.HBM_WQ_CTRL).place.1.base 0 + (Reg.HBM_WQ_CTRL).place.2

theorem witness_OtherPackets : (∀ x ∈ [(0, 3), (2, 1), (2, 2), (3, 1), (3, 2)], arrived (carry nocSt { rq 1 0 with cls := x.1, op := x.2 }) = true) ∧
    (let r := { rq 1 0 with cls := 3, op := 4, src := pcieUnit, dst := mcUnit }
     arrived (carry nocSt r) = true) ∧
    (let s := kmrSt 3 own8 [(F.KMR_ROUTE_MBR_VALID, 0, 1), (F.KMR_ROUTE_MBR_REQ_PORT, 0, 11)]
     (routeOf s 0 0).2.2 = true ∧ (routeOf s 0 0).1 = 11 ∧ portActive s 11 = true ∧ s.on F.KMR_STATUS_MODE_LOW 11 = false ∧ (routeOf s 1 0).2.2 = false) ∧
    gaFlags (2 ^ 62 + hurDA) ≠ 0 ∧ (carry nocSt (rq 1 0)).1.clusterDown 1 = false ∧ tableShut (carry nocSt (rq 1 0)).1 0 = false ∧
    tableShut (wrs [(F.HUR_CTRL_EN, 1, 0)] nocSt) 2048 = true ∧
    regionOf (windowBase + offW) = .window offW ∧ targetAt offW = none ∧
    (match (windowRead nocSt 1 offW 8).2 with | .ok _ => true | _ => false) = true ∧ (match (windowWrite nocSt 1 offW 4 0).2 with | .ok v => v == 0 | _ => false) = true := by decide +kernel

/-- A response on its way to unit 1, slot 0, and the request it answers. -/
def rsSt (cls op : Nat) (ctl : Bool) : State :=
  let r := { rq 1 0 with cls := cls, op := op, src := 0x102, dst := 1, data := bytesLE 8 7, len := 1 }
  nocSt.setNoc { nocSt.noc with flight := [r], opened := [⟨1, 0, decide (op = 2), 0x102, ctl, 1, [], false, 0, true⟩] }

theorem witness_Responses : (∀ op ∈ [1, 2], let s := rsSt 1 op false
      (s.noc.flight.find? (fun r => decide (r.cls = 1 ∧ r.op = op ∧ r.dst = 1 ∧ r.txn = 0))).isSome = true ∧ arrived (carry (s.setNoc { s.noc with flight := [] }) (s.noc.flight.getD 0 pkt)) = true ∧
      fportOfUnit 1 = none ∧ (findOpen s 1 0 (decide (op = 2)) false).isSome = true ∧ (s.noc.flight.getD 0 pkt).status = 0 ∧ (s.noc.flight.getD 0 pkt).len = 1) ∧
    (let s := rsSt 3 3 true
     (s.noc.flight.find? (fun r => decide (r.cls = 3 ∧ r.op = 3 ∧ r.dst = 1 ∧ r.txn = 0))).isSome = true ∧ arrived (carry (s.setNoc { s.noc with flight := [] }) (s.noc.flight.getD 0 pkt)) = true ∧
     (s.noc.opened.find? (fun o => decide (o.src = 1 ∧ o.txn = 0 ∧ o.ctl = true))).isSome = true) ∧
    nocSt.noc.flight = [] ∧ findOpen nocSt 1 0 false false = none ∧ Tab.get [] nocSt.noc.recs 3 = [] ∧
    (let s := wrs [(F.NOC_CTRL_TRACE_EN, 0, 1), (F.NOC_TRACE_BASE_DA, 0, 4096), (F.NOC_TRACE_WP_DA, 0, 4096), (F.NOC_TRACE_LEN_PAGES, 0, 1)] nocSt
     let u := s.setNoc { s.noc with recs := [(0, [(0, [0x10, 0, 0, 0])])] }
     Tab.get [] u.noc.recs 0 = [(0, [0x10, 0, 0, 0])] ∧
     (let r := { pkt with cls := 4, src := 0x0880, dst := unitOfDA u 4096, da := 0, data := bytesLE 32 0x10, probes := [0] }
      tracePkt u 0 [(0, [0x10, 0, 0, 0])] [] = r ∧ arrived (carry (u.setNoc { u.noc with recs := [] }) { r with dst := 0x0841 }) = true ∧ r.dst = 0x0841) ∧ u.on F.NOC_CTRL_TRACE_EN 0 = true ∧ u.rd F.NOC_TRACE_BASE_DA 0 ≤ u.rd F.NOC_TRACE_WP_DA 0 ∧
     u.rd F.NOC_TRACE_WP_DA 0 + 32 < u.rd F.NOC_TRACE_BASE_DA 0 + u.rd F.NOC_TRACE_LEN_PAGES 0 * 4096 ∧
     u.rd F.NOC_TRACE_WP_DA 0 + 32 < 2 ^ F.NOC_TRACE_WP_DA.width) ∧
    sleepEn State.reset 0 0 = false ∧
    (let s := base [(F.NOC_PWR_CTRL_CLUSTER_EN, 0, 1)]
     sleepEn s 0 0 = true ∧ domainIdle s 0 0 = true ∧ idleLong { s with trk := { s.trk with ts := 0x10000000000 } } 0 0 = true ∧ idleLong s 0 0 = false ∧ s.quarterDown 0 = false ∧ s.noc.heldPkts = []) ∧
    asleep State.reset 3 17 = false ∧ asleep asleepSt 0 1 = true ∧ cannotWake asleepSt 0 1 = false ∧ cannotWake { asleepSt with rst := [(2 * 4096 + 1, true)] } 0 1 = true ∧
    (base [(F.NOC_PRB_CTRL_EN, 0, 1)]).on F.NOC_PRB_CTRL_EN 0 = true ∧ State.reset.on F.NOC_PRB_CTRL_EN 271 = false := by decide +kernel

theorem witness_Fabric : State.reset.on F.FAB_PLL_CTRL_EN 15 = false ∧ (base [(F.FAB_PLL_CTRL_EN, 15, 1)]).on F.FAB_PLL_CTRL_EN 15 = true ∧
    (base [(F.FAB_PLL_STAT_LOCK, 15, 1)]).on F.FAB_PLL_STAT_LOCK 15 = true ∧
    (let s := base [(F.FAB_MARK_CFG_EN, 63, 1), (F.TRK_LAP_LAP, 0, 2), (F.FAB_MARK_STEP_STEP, 63, 7)]
     let p := posOf (s.rd F.FAB_MARK_LAP_LAP 63) (s.rd F.FAB_MARK_CFG_ANGLE 63)
     let now := s.position (s.rd F.FAB_MARK_CFG_TRK 63)
     s.on F.FAB_MARK_CFG_EN 63 = true ∧ p ≤ now ∧ s.quarterDown (63 / 16) = false ∧ 0 < s.rd F.FAB_MARK_STEP_STEP 63 ∧ p + ((now - p) / 7 + 1) * 7 < 2 ^ 96) ∧
    vccioMV 0 = 0 ∧ vccioNear (vccioMV 1) 950 = true ∧ vccioNear (vccioMV 1) 949 = false ∧ (base [(F.FAB_BANK_CFG_VCCIO, 19, 1)]).on F.FAB_BANK_STAT_HELD 19 = false ∧
    (let s := base [(F.FAB_PORT_CTRL_EN, 127, 1), (F.FAB_PORT_WIN_LO_DA, 127, 4096), (F.FAB_PORT_WIN_HI_DA, 127, 8191), (F.FAB_PORT_CTRL_TGT_EN, 127, 1), (F.FAB_PORT_CTRL_ISOLATE, 127, 0)]
     let ga := 2 ^ 62 + 4096
     fportDown s 127 = false ∧ s.on F.FAB_PORT_CTRL_EN 127 = true ∧ s.on F.FAB_PORT_CTRL_ISOLATE 127 = false ∧ windowOK s 127 ga 64 = true ∧ windowOK s 127 ga 4097 = false ∧
     gaLocal s ga = true ∧ freeTxn s 127 false = some 0 ∧ freeTxn s 127 true = some 0 ∧ gaDA ga % 128 + 64 ≤ 128 ∧
     fportOfUnit (unitOfFport 127) = some 127 ∧ s.on F.FAB_PORT_CTRL_TGT_EN 127 = true) ∧
    State.reset.on F.FAB_PORT_CTRL_TGT_EN 127 = false := by decide +kernel

/-! ### Witnesses: the slices -/

/-- Slice 1535 at a word of its instruction memory. -/
def slSt (w : Nat) (x : Slice) (l : List (Fld × Nat × Nat)) : State :=
  let s := base ((F.SPS_STATUS_STATE, 1535, 1) :: l)
  s.setFab { s.fab with imem := [(1535 * 4096, BitVec.ofNat 32 w)], slices := [(1535, x)] }
/-- A word of a slice: OP, accumulator, A, B, and the bits below. -/
def sw (op acc a b low : Nat) : Nat := word [(26, op), (24, acc), (19, a), (14, b)] + low
def slIssues (s : State) (n op : Nat) : Bool :=
  decide (sliceState s n = slRUN) && !(s.on F.SPS_CTRL_STOP n) && !(sliceDown s n) && decide (sOp (sliceWord s n (slicePC s n)) = op) &&
  sLegal (s.slice n) (slicePC s n) (sliceWord s n (slicePC s n))

theorem slIssues_of {s : State} {n op : Nat} (h : slIssues s n op = true) : SliceIssues s n op := by
  simp only [slIssues, Bool.and_eq_true, Bool.not_eq_true', decide_eq_true_eq] at h
  obtain ⟨⟨⟨⟨h1, h2⟩, h3⟩, h4⟩, h5⟩ := h
  exact ⟨h1, h2, h3, h4, h5⟩

/-- Every operation issues; a store by the walker of the word; a word under repeat. -/
theorem witness_SliceArithmetic : (∀ op ∈ [0, 1, 2, 3, 4, 7, 8, 9, 10, 11, 12], slIssues (slSt (sw op 3 7 1 0) Slice.zero []) 1535 op = true) ∧
    (∀ op ∈ [5, 6], slIssues (slSt (sw op 3 0 0x17 0) Slice.zero []) 1535 op = true) ∧
    slIssues (slSt (sw 1 0 0x13 1 (2 ^ 13 + 3 * 2 ^ 11)) { Slice.zero with walk := [(3, { Walker.zero with mem := 1 })] } []) 1535 1 = false ∧
    slIssues (slSt (sw 1 0 0x13 1 (2 ^ 13)) { Slice.zero with walk := [(3, { Walker.zero with mem := 1 })], rep := 2 } []) 1535 1 = true := by decide +kernel

theorem witness_SliceSequence : (∀ op ∈ [0x20, 0x21, 0x22, 0x24, 0x25, 0x26, 0x27, 0x28, 0x10, 0x11], slIssues (slSt (sw op 0 0 0 5) Slice.zero []) 1535 op = true) ∧
    (∀ c ∈ [0, 1, 2, 3], slIssues (slSt (sw 0x23 0 0 0 (c * 2 ^ 21)) Slice.zero []) 1535 0x23 = true) ∧
    (slSt 0 Slice.zero [(F.SPS_STATUS_PEND, 1535, 1)]).on F.SPS_STATUS_PEND 1535 = true ∧
    slIssues (slSt (sw 0x10 0 0 0 0) { Slice.zero with in0 := [5] } []) 1535 0x10 = true ∧
    slIssues (slSt (sw 0x11 0 0 0 0) { Slice.zero with out0 := List.replicate 16 5 } []) 1535 0x11 = true ∧
    (let s := slSt (sw 0x10 0 0 0 0) Slice.zero [(F.SPS_STATUS_STATE, 1535, 2), (F.SPS_STATUS_WAIT_ON, 1535, 2)]
     sliceState s 1535 = slWAIT ∧ s.rd F.SPS_STATUS_WAIT_ON 1535 = 2 ∧ sliceDown s 1535 = false ∧ (sliceFifo s 1535 (sliceWord s 1535 0)).isSome = false) ∧
    (let s := slSt (sw 0x10 0 0 0 0) { Slice.zero with in0 := [5] } [(F.SPS_STATUS_STATE, 1535, 2), (F.SPS_STATUS_WAIT_ON, 1535, 2)]
     (sliceFifo s 1535 (sliceWord s 1535 0)).isSome = true ∧ s.on F.SPS_CTRL_STOP 1535 = false) := by decide +kernel

theorem witness_SliceControl : (State.reset.slice 0).firings = 0 ∧ ((slSt 0 { Slice.zero with firings := 1 } []).slice 1535).firings = 1 ∧
    sliceState (slSt 0 { Slice.zero with firings := 1 } [(F.SPS_STATUS_STATE, 1535, 2), (F.SPS_STATUS_WAIT_ON, 1535, 1)]) 1535 = slWAIT ∧
    (let s := slSt (sw 0x3F 0 0 0 0) Slice.zero []
     sliceState s 1535 = slRUN ∧ sliceDown s 1535 = false ∧ sLegal (s.slice 1535) (slicePC s 1535) (sliceWord s 1535 (slicePC s 1535)) = false) ∧
    sliceState State.reset 0 = slIDLE ∧ sliceState (base [(F.SPS_STATUS_STATE, 0, slFAULT)]) 0 = slFAULT ∧
    State.reset.rd F.SPS_MEM_ADDR_SPACE 0 = 0 ∧ 0 < (base [(F.SPS_MEM_ADDR_SPACE, 0, 2)]).rd F.SPS_MEM_ADDR_SPACE 0 := by decide +kernel

/-! ### Witnesses: configuration and Mordant -/

/-- A load of `scope` from `src`. -/
def ldOf (src scope : Nat) : Load :=
  { src := src, addr := nvTile, scope := scope, keep := false, boot := false, isolating := false, recv := [], nibble := none, hdr := none, verified := false,
    dimg := [], table := [], chunk := 0, part := 0, ports := [], written := [], cleared := [], had := 0, rest := [], pos := 0 }
def ldSt (l : Load) (fs : List (Fld × Nat × Nat)) : State :=
  let s := base ([(F.CFG_CTRL_SSP_EN, 0, 1), (F.CFG_CTRL_SPP_EN, 0, 1)] ++ fs)
  { s with conf := { s.conf with load := some l } }
/-- The first bytes of an image of part `p`: magic, format 1, the identity and a scope. -/
def imgHead (p scope : Nat) : List Byte :=
  [0x54, 0x47, 0x5A, 0x43, 0x46, 0x47, 0x30, 0x31] ++ [1, 0, 0x40, 0x98, BitVec.ofNat 8 p, 0, 0, 0] ++ bytesLE 8 scope
/-- The state with `bytes` in NV at `o`, and nothing else there. -/
def nvSt (o : Nat) (bytes : List Byte) (s : State) : State :=
  { s with sec := { s.sec with nv := (List.range bytes.length).filterMap (fun i => if bytes.getD i 0 = 0 then none else some (o + i, bytes.getD i 0)) } }
def hdr4 : Header := { headerOfBytes (imgHead 4 0) with chunks := 2, length := 8 }
def held : State := { State.reset with rst := [(0, true)] }

theorem witness_Loads : State.reset.inReset 0 0 = false ∧ loadRefusal State.reset = none ∧ loadRefusal (base [(F.CFG_STATUS_BUSY, 0, 1)]) = some 1 ∧
    loadRefusal (base [(F.CFG_LOAD_SRC, 0, 1), (F.CFG_CTRL_SSP_EN, 0, 0)]) = some 4 ∧ State.reset.conf.load = none ∧ held.inReset 0 0 = true ∧
    (let l := { ldOf 0 1 with isolating := true, ports := [3] }
     (ldSt l []).conf.load = some l ∧ l.isolating = true ∧ l.ports.all (fun n => (ldSt l [(F.FAB_PORT_STAT_ISOLATED, 3, 1)]).on F.FAB_PORT_STAT_ISOLATED n) = true) ∧
    (let l := ldOf 1 1
     (ldSt l []).conf.load = some l ∧ l.isolating = false ∧ l.hdr = none ∧ l.src = 1 ∧ headerCause l (imgHead 4 1) = 0 ∧ headerCause l (imgHead 4 2) = 2 ∧ headerCause l [] = 1) ∧
    (ldOf 0 1).had = 0 ∧ { ldOf 0 1 with had := 2 }.had ≠ 0 ∧ (ldSt (ldOf 0 1) []).rd F.CFG_PROGRESS_FRAMES 0 = 0 ∧
    0 < (ldSt (ldOf 0 1) [(F.CFG_PROGRESS_FRAMES, 0, 9)]).rd F.CFG_PROGRESS_FRAMES 0 := by decide +kernel

/-- A read of the image from NV answers the bytes that stand there. -/
theorem witness_ImageBytes : ∃ bs, imageBytes (ldSt (ldOf 0 1) []) (ldOf 0 1) 0 4096 [] false = (ldSt (ldOf 0 1) [], .bytes bs) := ⟨_, rfl⟩

theorem witness_Signature : (let l := { ldOf 1 0 with hdr := some hdr4, recv := List.replicate 10 0 }
     (ldSt l []).conf.load = some l ∧ l.hdr = some hdr4 ∧ l.verified = false) ∧
    imageStep { State.reset with sec := { State.reset.sec with owner := false } } [] [] [] 4 0 = 0 ∧
    imageStep { State.reset with sec := { State.reset.sec with owner := false, floors := [(2, 3)] } } [] [] [] 4 2 = 7 := by decide +kernel

theorem witness_Chunks : (let l := { ldOf 0 0 with hdr := some hdr4, verified := true }
     (ldSt l []).conf.load = some l ∧ l.hdr = some hdr4 ∧ l.verified = true ∧ l.chunk < hdr4.chunks ∧ scopeComplete l = true ∧ scopeComplete { l with scope := 1 } = false ∧
     shake256 [1] ≠ (l.table.drop (64 * l.chunk)).take 64 ∧
     shake256 [1] = ((shake256 [1]).drop (64 * l.chunk)).take 64 ∧
     (runRecords false 100 (ldSt l []) { l with chunk := l.chunk + 1 } []).2.2 = .more ∧
     (runRecords false 100 (ldSt l []) { l with chunk := l.chunk + 1 } ([] ++ [0x0F, 0, 0, 0, 0, 0, 0, 0])).2.2 = .done ∧
     (runRecords false 100 (ldSt l []) { l with chunk := l.chunk + 1 } []).2.1.chunk ≠ hdr4.chunks) := by decide +kernel

theorem witness_Fallback : State.reset.conf.fallback = none ∧
    (let s := { State.reset with conf := { State.reset.conf with fallback := some (1, false, [3]) } }
     s.conf.fallback = some (1, false, [3]) ∧ nvImageStep ((s.wr F.CFG_STATUS_FALLBACK 0 1).bump C.CFG_FALLBACK_CNT 0 1) nvOchre 5 ≠ 0) ∧
    State.reset.rd F.CFG_REGION_STATE 31 ≠ 3 ∧ (base [(F.CFG_REGION_STATE, 31, 3)]).rd F.CFG_REGION_STATE 31 = 3 := by decide +kernel

theorem witness_SlavePorts : slaveAccepts State.reset 2 = false ∧ slaveAccepts (ldSt (ldOf 1 1) []) 1 = true ∧ slaveAccepts (ldSt (ldOf 2 1) []) 2 = true ∧
    (ldOf 1 1).nibble = none ∧ { ldOf 1 1 with nibble := some 5 }.nibble = some 5 ∧ slaveAccepts (ldSt { ldOf 1 1 with nibble := some 5 } []) 1 = true ∧
    (ldOf 1 1).src ≠ 2 ∧ (base [(F.CFG_CTRL_SPP_EN, 0, 0)]).on F.CFG_CTRL_SPP_EN 0 = false := by decide +kernel

theorem witness_MordantScan : (let s := base [(F.MDT_CTRL_EN, 0, 1), (F.MDT_CTRL_REFETCH_EN, 0, 0)]
     s.on F.MDT_CTRL_EN 0 = true ∧ s.rd F.MDT_POS_GROUP 0 + 1 < 14328 ∧ groupLoading s 0 = false ∧ Tab.get 0 s.conf.failed 0 ≠ 2 ∧ s.on F.MDT_CTRL_REFETCH_EN 0 = false) ∧
    (base [(F.MDT_CTRL_EN, 0, 0)]).on F.MDT_CTRL_EN 0 = false ∧
    14328 ≤ (base [(F.MDT_CTRL_EN, 0, 1), (F.MDT_POS_GROUP, 0, 14327)]).rd F.MDT_POS_GROUP 0 + 1 ∧
    groupLoading (ldSt { ldOf 0 (2 ^ 64 - 1) with boot := true } []) 0 = true ∧ State.reset.conf.mdtLog = [] ∧
    ¬ ((1 : BitVec 16) = 2 ∧ (2 : BitVec 16) = 2) := by decide +kernel

/-- The state whose signature of group `g` was made of its frames. -/
def signed (s : State) (g : Nat) : State := { s with conf := { s.conf with sigs := [(g, groupCrc s g)] } }
theorem witness_Signed (s : State) (g : Nat) : groupCrc (signed s g) g = Tab.get 0 (signed s g).conf.sigs g := by
  have h : ∀ x : Nat, Tab.get 0 [(g, x)] g = x := fun x => by simp [Tab.get, Tab.find?]
  show groupCrc s g = Tab.get 0 [(g, groupCrc s g)] g
  rw [h]

/-- A load with the regions and clusters of a scope; one that has written no frame and had regions; a chunk and a signature of bytes that are there. -/
theorem witness_LoadCases : (∀ iso ∈ [true, false], let l := { ldOf 0 (2 ^ 32 + 3) with isolating := iso, had := 3, ports := [3] }
     (ldSt l []).conf.load = some l ∧ regionsOf l.scope ≠ [] ∧ clustersOf l.scope ≠ []) ∧
    (∀ src ∈ [0, 1, 2], let l := { ldOf src 1 with had := 0 }
     (ldSt l []).conf.load = some l) ∧
    (let s := base [(F.CFG_LOAD_SRC, 0, 0), (F.CFG_LOAD_SCOPE, 0, 3)]
     loadRefusal s = none) ∧
    (let l := { ldOf 1 0 with hdr := some { hdr4 with chunks := 2, length := 8, strOff := 0 }, recv := List.replicate 16 1, verified := true, table := List.replicate 128 0 }
     (ldSt l []).conf.load = some l ∧ l.chunk < 2) ∧
    (let l := { ldOf 1 0 with hdr := some { hdr4 with chunks := 2, length := 0, strOff := 0 }, recv := List.replicate 16 1, verified := true, table := shake256 [] ++ shake256 [] }
     (ldSt l []).conf.load = some l) ∧
    (let l := { ldOf 1 0 with hdr := some { hdr4 with chunks := 2, length := 8, strOff := 0 }, recv := [0x0F, 0, 0, 0, 0, 0, 0, 0, 0, 0], verified := true, table := shake256 [0x0F, 0, 0, 0, 0, 0, 0, 0] ++ shake256 [] }
     (ldSt l []).conf.load = some l) ∧
    (let s : State := { State.reset with conf := { State.reset.conf with fallback := some (1, true, []) } }
     s.conf.fallback = some (1, true, [])) := by decide +kernel

/-- Loads that hold the whole prologue and a whole digest table meet the hypotheses of the receiving clauses. -/
theorem witness_LoadBytes :
    (∃ l, (ldSt l []).conf.load = some l ∧ l.recv.length = 24 + 4080) ∧
    (∃ l, (ldSt l []).conf.load = some l ∧ l.verified = false ∧ l.recv.length = 8192) := by
  refine ⟨⟨{ ldOf 1 1 with recv := imgHead 4 1 ++ List.replicate 4080 0 }, rfl, ?_⟩,
    ⟨{ ldOf 1 0 with recv := List.replicate 8192 0 }, rfl, rfl, ?_⟩⟩
  · rw [List.length_append, List.length_replicate]; decide
  · exact List.length_replicate

/-! ### Witnesses: lanes, PCIe, the dictionary and the field ports -/

/-- Lane 95 of port 11 and lane 143 of a CXL port, enabled. -/
def laneSt (x : KPort) (l : List (Fld × Nat × Nat)) : State :=
  kmrSt 3 x ([(F.LNE_CTRL_EN, 95, 1), (F.LNE_CTRL_EN, 143, 1), (F.CXL_PORT_CTRL_EN, 1, 1), (F.KMR_CTRL_CAP_RATE, 11, 7)] ++ l)

theorem witness_Lanes : laneEn (base [(F.LNE_CTRL_EN, 95, 0)]) 95 = false ∧ laneEn (laneSt own8 []) 95 = true ∧ laneEn (laneSt own8 []) 143 = true ∧
    (laneSt own8 []).rd F.LNE_STAT_STATE 95 ≤ 1 ∧ (laneSt own8 [(F.LNE_STAT_STATE, 95, 7)]).rd F.LNE_STAT_STATE 95 = 7 ∧
    (let s := laneSt own8 [(F.LNE_STAT_STATE, 95, 2), (F.LNE_THRESH_FOM_GOOD, 95, 100), (F.LNE_THRESH_FOM_MIN, 95, 50)]
     s.rd F.LNE_STAT_STATE 95 = 2 ∧ Tab.get false s.lanes.full 95 = false ∧ inChosen s 95 = false ∧ 99 < s.rd F.LNE_THRESH_FOM_GOOD 95 ∧
     s.rd F.LNE_THRESH_FOM_GOOD 95 ≤ 100 ∧ s.rd F.LNE_THRESH_FOM_MIN 95 ≤ 100 ∧ nextRate s 11 (s.rd F.LNE_STAT_RATE 95) = some 1 ∧ nextRate s 11 2 = none ∧
     lockedSome (laneSt KPort.idle []) 95 = false) ∧
    inChosen (laneSt { own8 with chosen := true } []) 95 = true ∧
    (laneSt own8 [(F.LNE_STAT_STATE, 143, 2), (F.LNE_STAT_RATE, 143, 3)]).rd F.LNE_STAT_RATE 143 = 3 ∧ (laneSt own8 []).rd F.LNE_STAT_RATE 143 < 3 ∧
    (let s := kmrSt 2 { own8 with chosen := true } ([(F.LNE_CTRL_EN, 95, 1)] ++ (List.range 8).map (fun i => (F.LNE_STAT_STATE, 88 + i, if i = 7 then 3 else 4)))
     laneEn s 95 = true ∧ s.rd F.LNE_STAT_STATE 95 = 3 ∧ inChosen s 95 = true ∧ s.rd F.KMR_STATUS_STATE 11 = 2 ∧
     (groupLanes s 11).all (fun i => decide (laneOf 11 i = 95 ∨ s.rd F.LNE_STAT_STATE (laneOf 11 i) = 4)) = true) ∧
    (let s := laneSt own8 [(F.LNE_STAT_STATE, 95, 6)]
     s.rd F.LNE_STAT_STATE 95 = 6 ∧ s.on F.LNE_STAT_RX_ASLEEP 95 = false ∧ laneDown s 95 = false ∧ portActive s (portOfLane 95) = true) ∧
    (let s := laneSt { own8 with theirSleep := 255 } [(F.LNE_CTRL_TX_SLEEP_EN, 95, 1)]
     groupRx s 95 = true ∧ s.on F.LNE_CTRL_TX_SLEEP_EN 95 = true ∧ s.on F.KMR_CTRL_SCHED_EN 11 = false ∧ bit (s.kport 11).theirSleep (95 % 8) = 1 ∧ portIdle s 11 = true) ∧
    (let s := laneSt { own8 with queues := [(64, [(cel, false)])] } [(F.LNE_STAT_TX_ASLEEP, 95, 1), (F.LNE_CTRL_RX_SLEEP_EN, 95, 1), (F.LNE_STAT_RX_ASLEEP, 95, 1)]
     groupRx s 95 = true ∧ s.on F.LNE_STAT_TX_ASLEEP 95 = true ∧ portIdle s 11 = false ∧ s.on F.LNE_CTRL_RX_SLEEP_EN 95 = true ∧ s.on F.LNE_STAT_RX_ASLEEP 95 = true) ∧
    groupRx State.reset 95 = false := by decide +kernel

/-- The hub is loaded; pages asked for, page groups and cached translations. -/
def pciSt (x : Pci) (l : List (Fld × Nat × Nat)) : State := let s := base l; { s with conf := { s.conf with hubLoaded := true }, pci := x }

theorem witness_Pcie : held.inReset 0 0 = true ∧ State.reset.inReset 0 0 = false ∧ { State.reset with conf := { State.reset.conf with hubLoaded := false } }.conf.hubLoaded = false ∧
    (pciSt ⟨[], [], [], [], []⟩ []).conf.hubLoaded = true ∧ bit ((2 ^ 15 : Nat) &&& (bit 15 0 * 0xFF + bit 15 1 * 0xFF00 + bit 15 2 * 0xFF0000 + bit 15 3 * 0xFF000000)) 15 = 1 ∧
    (base [(F.PCI_STATUS_LINK_UP, 0, 1)]).on F.PCI_STATUS_LINK_UP 0 = true ∧ State.reset.on F.PCI_STATUS_LINK_UP 0 = false ∧
    (base [(F.LNE_CTRL_EN, 111, 1)]).on F.LNE_CTRL_EN (96 + 15) = true ∧ (base [(F.PCI_CTRL_LINK_EVT_EN, 0, 1)]).on F.PCI_CTRL_LINK_EVT_EN 0 = true ∧
    (pciSt ⟨[], [9], [], [], []⟩ []).pci.asked.contains 9 = true ∧ (pciSt ⟨[], [9], [], [], []⟩ []).pci.asked.contains 8 = false ∧
    (pciSt ⟨[], [9], [], [], []⟩ []).pci.atc.length < 4096 ∧
    (pciSt ⟨[⟨7, true, true⟩], [], [], [], []⟩ []).pci.atc.any (fun e => e.locked && decide (7 ≤ e.page ∧ e.page < 7 + 1)) = true ∧
    (pciSt ⟨[], [], [(3, none)], [], []⟩ []).pci.groups.find? (fun x => decide (x.1 = 3)) = some (3, none) ∧
    (pciSt ⟨[], [], [(3, none)], [], []⟩ []).pci.groups.all (fun e => decide (e.1 ≠ 511)) = true ∧
    (pciSt ⟨[], [], [(3, none)], [], []⟩ []).streams.all (fun x => !x.2.wantsGroup) = true := by decide +kernel

/-- A PCIe or CXL lane, and a Kamrus lane of a port that has not chosen, in each state of training; a removal in progress. -/
theorem witness_LaneCases : (∀ st ∈ [2, 3, 6], laneEn (laneSt own8 [(F.LNE_STAT_STATE, 143, st)]) 143 = true ∧ laneEn (laneSt own8 [(F.LNE_STAT_STATE, 95, st)]) 95 = true ∧
      (laneSt own8 [(F.LNE_STAT_STATE, 143, st)]).rd F.LNE_STAT_STATE 143 = st ∧ laneDown (laneSt own8 [(F.LNE_STAT_STATE, 143, st)]) 143 = false) ∧
    (∀ r ∈ [0, 2], let s := laneSt own8 [(F.LNE_STAT_STATE, 95, 3), (F.LNE_STAT_RATE, 95, r)]
     inChosen s 95 = false ∧ (nextRate s 11 (s.rd F.LNE_STAT_RATE 95)).isSome = decide (r = 0)) ∧
    (∀ fom ∈ [10, 100], let s := { laneSt own8 [(F.LNE_STAT_STATE, 95, 2), (F.LNE_STAT_RATE, 95, 2), (F.LNE_THRESH_FOM_MIN, 95, fom)] with lanes := { State.reset.lanes with full := [(95, true)] } }
     Tab.get false s.lanes.full 95 = true ∧ inChosen s 95 = false) ∧
    (let s := laneSt KPort.idle [(F.LNE_STAT_STATE, 95, 2), (F.LNE_STAT_RATE, 95, 2)]
     nextRate s 11 2 = none ∧ lockedSome s 95 = false) ∧
    (let s : State := { State.reset with lanes := { State.reset.lanes with removing := [1] } }
     s.lanes.removing.contains 1 = true) ∧
    (let s := base [(F.CXL_CFG_ADDR_BUSY, 0, 1), (F.CXL_CFG_ADDR_BUSY, 1, 1)]
     s.on F.CXL_CFG_ADDR_BUSY 0 = true) := by decide +kernel

/-- The host's port with a locked translation, one asked for, a full page group and a stream that uses a page. -/
theorem witness_PcieCases : (let s := pciSt ⟨[⟨7, true, true⟩, ⟨20, true, false⟩], [9], [(3, none)], [(1, 4)], []⟩ [(F.PCI_STATUS_LINK_UP, 0, 1)]
     s.conf.hubLoaded = true ∧ s.inReset 0 0 = false ∧ s.pci.asked.contains 9 = true ∧ s.pci.groups.find? (fun x => decide (x.1 = 3)) = some (3, none)) ∧
    (let a := { smSet (cpyDsc (hostBase + 9 * 4096) pad 16 0 0) with next := 1, issued := [{ smIs .reading [] with parts := [(2 ^ 62 + hostBase + 9 * 4096, 2 ^ 62 + pad, 16)], xl := [((hostBase + 9 * 4096) / 2 ^ 21, 5)] }] }
     hostUsers (smSt a []) 9 1 ≠ []) ∧
    { State.reset with conf := { State.reset.conf with hubLoaded := false } }.conf.hubLoaded = false := by decide +kernel

/-- A request: its operation, object, subindex, and the length of its data. -/
def dq (op idx sub len : Nat) (data : List Byte) : DReq := { DReq.of [] with op := op, idx := idx, sub := sub, len := len, data := data }
/-- The field ports are enabled, in the AL state `al`. -/
def fldSt (al : Nat) (l : List (Fld × Nat × Nat)) : State := base ([(F.FLD_CTRL_EN, 0, 1), (F.FLD_STATUS_AL_STATE, 0, al)] ++ l)

/-- The device READY: HBM and every cluster are loaded, the MC runs. -/
def readySt (al : Nat) (l : List (Fld × Nat × Nat)) : State :=
  let s := fldSt al (hbmOn ++ l)
  { s with conf := { s.conf with hubLoaded := true, clusters := (List.range 32).map (fun c => (c, true)) }, pwr := { s.pwr with mc := true } }

theorem witness_Transactions : (dExec State.reset 0 (dq 0 0 0 0 []) 448).2.abort ≠ 0 ∧ objHead 0xFFFF = none ∧ (objHead 0x1018).isSome = true ∧ subInfo 0x1018 5 = none ∧
    (dq 2 0x1018 1 4 [1, 2, 3, 4]).data.length = (dq 2 0x1018 1 4 [1, 2, 3, 4]).len ∧
    (subInfo 0x1018 4).map (fun d => d.acc) = some 4 ∧ (subInfo 0x3201 0).map (fun d => d.acc) = some 5 ∧ (objHead 0x3201).isSome = true ∧
    (match (subRead State.reset 0x1018 0 0 448).2 with | .ok p => decide (p.data.length ≤ 448) | .error _ => false) = true := by decide +kernel

/-- A CONTROL cell for this device (node 5), from node 0, of subtype `t`; words 1 on. -/
def ctl (t : Nat) (ws : List Nat) : Cell := { cel5 with typ := 5, src := 0, payload := bytesLE 8 t ++ ws.flatMap (bytesLE 8) }
def portSt (l : List (Fld × Nat × Nat)) : State := let s := kmrSt 3 own8 l; { s with pwr := { s.pwr with mc := true } }
def reqB (op idx : Nat) : List Byte := bytesLE 2 op ++ bytesLE 2 idx ++ List.replicate 28 0

theorem witness_Paths : hubDown held = true ∧ hubDown State.reset = false ∧ (readySt 2 []).pwr.mc = true ∧
    (readySt 2 []).on F.FLD_CTRL_EN 0 = true ∧ alState (readySt 2 []) = 2 ∧ alState (readySt 8 []) = 8 ∧ alState (readySt 1 []) < 2 ∧
    takesOp 1 (DReq.of (reqB 1 0x1000)) = true ∧ takesOp 3 (DReq.of (reqB 1 0x1000)) = false ∧ takesOp 1 (DReq.of (reqB 7 0x1000)) = true ∧
    (let s := readySt 2 [(F.FLD_MBX_STAT_BUSY, 0, 1), (F.FLD_MBX_REQ_BUF_DATA, 0, 2)]
     s.on F.FLD_MBX_STAT_BUSY 0 = true ∧ takesOp 2 (DReq.of (mailboxRequest s)) = true) ∧
    (readySt 2 []).on F.FLD_MBX_STAT_BUSY 0 = false ∧
    (let s := portSt []
     let k := { ctl 0x10 [0, 0, 0] with payload := (ctl 0x10 [0, 0, 0]).payload ++ reqB 1 0x1000 }
     natAt k.payload 0 1 = 0x10 ∧ takesOp 1 (DReq.of (k.payload.drop 32)) = true ∧ (receiveCell s 11 k).2 = true ∧ k.typ = 5 ∧ k.dst = s.node ∧
     entitled (receiveCell s 11 k).1 k.src = true ∧ entitled (receiveCell s 11 k).1 77 = false) ∧
    (let s := { portSt [] with dict := { (portSt []).dict with asked := [9] } }
     let k := { ctl 0x11 [0, 0, 0] with payload := (ctl 0x11 [0, 0, 0]).payload ++ bytesLE 8 0 ++ bytesLE 8 0 ++ bytesLE 8 9 }
     natAt k.payload 0 1 = 0x11 ∧ (receiveCell s 11 k).2 = true ∧ (receiveCell s 11 k).1.dict.asked.contains (natAt (k.payload.drop 32) 16 8) = true ∧
     s.dict.asked.contains 9 = true ∧ s.dict.asked.contains 8 = false) := by decide +kernel

theorem witness_FieldStates : (readySt 2 []).on F.FLD_CTRL_EN 0 = true ∧ alDropped (readySt 2 []) = false ∧ alRefusal (readySt 2 []) 4 = none ∧
    alRefusal (readySt 2 []) 8 = some 0x0011 ∧ alRefusal (readySt 2 []) 15 = some 0x0011 ∧ (readySt 2 []).on F.FLD_STATUS_AL_ERR 0 = false ∧
    (readySt 2 [(F.FLD_STATUS_AL_ERR, 0, 1)]).on F.FLD_STATUS_AL_ERR 0 = true ∧
    (Tab.get [] (readySt 2 []).dict.emcy 1).length < 32 ∧ Tab.get 0 (readySt 2 []).dict.dropped 1 = 0 ∧
    (let s := { readySt 2 [] with dict := { (readySt 2 []).dict with emcy := [(1, List.replicate 32 5)] } }
     32 ≤ (Tab.get [] s.dict.emcy 1).length) ∧
    (let s := portSt [(F.KMR_ROLE_ROLE, 0, 1)]
     let k := ctl 0x12 [1, 2]
     (receiveCell s 11 k).2 = true ∧ k.dst = s.node ∧ natAt k.payload 0 1 = 0x12 ∧ kmrRole (receiveCell s 11 k).1 ≠ 0 ∧ (receiveCell s 11 k).1.pwr.mc = true ∧
     natAt (ctl 0x11 []).payload 0 1 ≠ 0x12 ∧ (receiveCell s 11 (ctl 0x11 [])).2 = true) := by decide +kernel

theorem witness_ProcessData : (let s := { readySt 8 [] with dict := { (readySt 8 []).dict with copying := some [1], waiting := some [2] } }
     alState s = 8 ∧ s.dict.copying.isSome = true ∧ s.dict.waiting.isSome = true) ∧
    (let e := 0x33800120
     let d := { (readySt 8 []).dict with objs := [(0x1600 * 256 + 1, e), (0x1C12 * 256 + 1, 0x1600)] }
     let s := { readySt 8 [(F.FLD_PDO_OUT_DA, 0, pad), (F.VEC_STATUS_SPAD_INIT, 0, 0)] with dict := d }
     s.dict.copying = none ∧ entriesOf s 0x1C12 = [e] ∧ mapIndex e = 0x3380 ∧ mapSub e = 1 ∧ s.rd F.FLD_PDO_OUT_DA 0 ≠ 0 ∧
     (wordsOf pad 4).all (fun w => onChip (w * 8) && !(padBusy s (w * 8)) && !(padDown s (w * 8))) = true ∧ entriesOf s 0x1C13 = [] ∧ (readySt 8 []).rd F.FLD_PDO_OUT_DA 0 = 0) ∧
    (let e := 0x33C00120
     let s := { readySt 4 [(F.FLD_PDO_IN_DA, 0, pad), (F.VEC_STATUS_SPAD_INIT, 0, 0)] with dict := { (readySt 4 []).dict with objs := [(0x1A00 * 256 + 1, e), (0x1C13 * 256 + 1, 0x1A00)] } }
     4 ≤ alState s ∧ entriesOf s 0x1C13 = [e] ∧ mapIndex e = 0x33C0 ∧ padBusy s (pad + 4 * (mapSub e - 1)) = false) ∧
    (readySt 8 [(F.FLD_CTRL_WDOG_EVT_EN, 0, 1)]).on F.FLD_CTRL_WDOG_EVT_EN 0 = true ∧
    (let s := readySt 8 [(F.FLD_DC_CTRL_SYNC_WIN, 0, 10), (F.FLD_DC_CTRL_ACQ, 0, 1), (F.FLD_DC_CTRL_LOSS, 0, 1)]
     10 ≤ s.rd F.FLD_DC_CTRL_SYNC_WIN 0 ∧ s.rd F.FLD_DC_CTRL_SYNC_WIN 0 < 11 ∧ s.on F.FLD_STATUS_DC_SYNC 0 = false ∧ s.rd F.FLD_DC_CTRL_ACQ 0 ≤ s.dict.dcIn + 1 ∧
     s.rd F.FLD_DC_CTRL_LOSS 0 ≤ s.dict.dcOut + 1) ∧
    (let s := readySt 8 [(F.FLD_DC_CTRL_SYNC_WIN, 0, 10), (F.FLD_DC_CTRL_ACQ, 0, 2), (F.FLD_DC_CTRL_LOSS, 0, 2), (F.FLD_STATUS_DC_SYNC, 0, 1)]
     s.on F.FLD_STATUS_DC_SYNC 0 = true ∧ s.dict.dcOut + 1 < s.rd F.FLD_DC_CTRL_LOSS 0 ∧ s.dict.dcIn + 1 < s.rd F.FLD_DC_CTRL_ACQ 0) ∧
    (readySt 8 []).rd F.FLD_STATUS_LINK 0 < 4 := by decide +kernel

/-! ### Witnesses: reset and power, the Pacer, security, self-test, single rules -/

def pwrSt (f : Pwr → Pwr) (l : List (Fld × Nat × Nat)) : State := let s := base l; { s with pwr := f s.pwr }

theorem witness_DeviceResets : State.reset.pwr.aon = true ∧ State.reset.pwr.railsOff = false ∧ State.reset.inReset 0 0 = false ∧ held.inReset 0 0 = true ∧
    held.pwr.aon = true ∧ held.pwr.railsOff = false ∧ ({ held with regs := (wrs [(F.RST_CAUSE_SOURCES, 0, 0)] held).regs }).rd F.RST_CAUSE_SOURCES 0 % 512 = 0 ∧
    (let s := pwrSt (fun p => { p with railsOff := true }) [(F.PWR_CAUSE_LAST_OFF, 0, 3)]
     s.pwr.aon = true ∧ s.pwr.railsOff = true ∧ s.rd F.PWR_CAUSE_LAST_OFF 0 = 3) ∧
    (let s := pwrSt (fun p => { p with railsOff := true }) [(F.PWR_CAUSE_LAST_OFF, 0, 2)]
     s.pwr.aon = true ∧ s.pwr.railsOff = true ∧ s.rd F.PWR_CAUSE_LAST_OFF 0 = 2) ∧
    (base [(F.PCI_STATUS_LINK_UP, 0, 1)]).on F.PCI_STATUS_LINK_UP 0 = true ∧ (base [(F.RST_SRC_CFG_PERST_SCOPE, 0, 1)]).on F.RST_SRC_CFG_PERST_SCOPE 0 = true ∧
    State.reset.on F.RST_SRC_CFG_PERST_SCOPE 0 = false ∧ (base [(F.RST_SRC_CFG_HOT_SCOPE, 0, 1)]).on F.RST_SRC_CFG_HOT_SCOPE 0 = true ∧
    (base [(F.RST_SRC_CFG_HOT_SCOPE, 0, 0)]).on F.RST_SRC_CFG_HOT_SCOPE 0 = false ∧ State.reset.dict.exec = none ∧
    { State.reset.dict with exec := some (0, 0, false) }.exec = some (0, 0, false) ∧ { State.reset.dict with exec := some (6, 0, false) }.exec = some (6, 0, false) ∧
    (pwrSt (fun p => { p with aon := false }) []).pwr.aon = false ∧
    (let s := wrs [(F.PWR_STATUS_IN_RANGE, 0, 1)] held
     (s.inReset 0 0 && s.pwr.aon && !s.pwr.railsOff && !s.pwr.pinLow && s.on F.PWR_STATUS_IN_RANGE 0) = true) ∧
    (let s := portSt [(F.RST_CTRL_REMOTE_EN, 0, 1)]
     let k := ctl 0x20 [3 + 511 * 16]
     let u := (receiveCell s 11 k).1
     (receiveCell s 11 k).2 = true ∧ k.typ = 5 ∧ k.dst = s.node ∧ u.inReset 0 0 = false ∧ bits (natAt k.payload 8 8) 0 4 = 3 ∧ bits (natAt k.payload 8 8) 4 12 = 511 ∧
     (u.on F.RST_CTRL_REMOTE_EN 0 && entitled u k.src && decide (natAt k.payload 0 1 = 0x20 ∧ bits (natAt k.payload 8 8) 0 4 ≤ 5)) = true ∧
     (let x := ctl 0x20 [0]
      bits (natAt x.payload 8 8) 0 4 = 0)) ∧
    (receiveCell (portSt [(F.RST_CTRL_REMOTE_EN, 0, 0)]) 11 (ctl 0x20 [0])).1.on F.RST_CTRL_REMOTE_EN 0 = false := by decide +kernel

/-- A command of each kind of block, the last of its kind. -/
theorem witness_BlockCommands : BlockCommand (.quarterReset 3 true) 1 3 true ∧ BlockCommand (.clusterReset 31 false) 2 31 false ∧ BlockCommand (.coreReset 511 true) 3 511 true ∧
    BlockCommand (.fabricRegionReset 31 false) 4 31 false ∧ BlockCommand (.kamrusPortReset 11 false) 5 11 false :=
  ⟨.inl ⟨3, rfl, rfl, rfl⟩, .inr (.inl ⟨31, rfl, rfl, rfl⟩), .inr (.inr (.inl ⟨511, rfl, rfl, rfl⟩)), .inr (.inr (.inr (.inl ⟨31, rfl, rfl, rfl⟩))),
    .inr (.inr (.inr (.inr ⟨11, rfl, rfl, rfl⟩)))⟩

theorem witness_BlockResets : quarterDark State.reset 3 = false ∧ blockRefused State.reset 3 511 = false ∧ insideReset State.reset 3 511 = false ∧
    blockRefused State.reset 5 11 = false ∧ insideReset State.reset 5 11 = false ∧ blockRefused (base [(F.KMR_CTRL_SCHED_EN, 11, 1)]) 5 11 = true ∧
    insideReset { State.reset with rst := [(4096 + 3, true)] } 2 31 = true ∧ State.reset.pwr.asserted.contains (3 * 4096 + 511) = false ∧
    (let s := pwrSt (fun p => { p with asserted := [3 * 4096 + 511] }) []
     s.pwr.asserted.contains (3 * 4096 + 511) = true ∧ Tab.get false s.pwr.held (3 * 4096 + 511) = false ∧ s.inReset 0 0 = false ∧ s.clusterDown (511 / 16) = false ∧
     s.pwr.asserted.filter (fun k => decide (k ≠ 3 * 4096 + 511)) = [] ∧ loadHolds s 31 = false ∧ bit (s.rd F.TST_FENCE_CLUSTER 0) 31 = 0) ∧
    bit ((14 : Nat) % 16 / 2 * 2) 3 = 1 ∧ bit (State.reset.rd F.PWR_QCTRL_OFF 0) 3 = 0 ∧ quarterFenced State.reset 3 = false ∧ quarterInUse State.reset 3 = false ∧
    quarterInUse (base [(F.KMR_CTRL_SCHED_EN, 11, 1)]) 3 = true ∧ bit ((base [(F.PWR_QCTRL_OFF, 0, 8)]).rd F.PWR_QCTRL_OFF 0) 3 = 1 ∧
    quarterFenced (base [(F.TST_FENCE_QUARTER, 0, 8)]) 3 = true ∧
    (let s := pwrSt (fun p => { p with powering := 8 }) []
     bit s.pwr.powering 3 = 1 ∧ quarterFenced s 3 = false ∧ bit (s.rd F.PWR_QCTRL_OFF 0) 3 = 0 ∧ Tab.get false s.pwr.held (4096 + 3) = false) := by decide +kernel

theorem witness_Pacer : State.reset.pwr.aon = true ∧
    1745000 ≤ (after (exec (.pacerTick 48000 36000 1745000 [] [] []) State.reset)).rd F.PWR_AVG_MW 0 ∧ Tab.get false State.reset.pwr.seen 1024 = false ∧
    Tab.get false State.reset.pwr.seen 1025 = false ∧ sessionSched State.reset 31 = false ∧
    [(63, (-5 : Int))] = [(63, -5)] ∧ State.reset.pwr.due = [] ∧
    (pwrSt (fun p => { p with due := [13 + 256 * 35, 16] }) []).pwr.due.filter (fun k => decide (k % 256 = 13)) = [13 + 256 * 35] ∧
    (pwrSt (fun p => { p with due := [13 + 256 * 36] }) []).pwr.due.filter (fun k => decide (k % 256 = 13)) = [13 + 256 * 36] ∧
    (base [(F.PAC_HEAT_ACT_RST, 255, 1), (F.PAC_HEAT_ACT_RKIND, 255, 3), (F.PAC_HEAT_ACT_RINDEX, 255, 511)]).on F.PAC_HEAT_ACT_RST 255 = true ∧
    (base [(F.PAC_HEAT_ACT_RST, 255, 1), (F.PAC_HEAT_ACT_RKIND, 255, 3), (F.PAC_HEAT_ACT_RINDEX, 255, 511)]).rd F.PAC_HEAT_ACT_RKIND 255 = 3 ∧
    (base [(F.PAC_HEAT_ACT_RST, 255, 1), (F.PAC_HEAT_ACT_RKIND, 255, 3), (F.PAC_HEAT_ACT_RINDEX, 255, 511)]).rd F.PAC_HEAT_ACT_RINDEX 255 = 511 ∧
    (base [(F.PAC_HEAT_ACT_RST, 255, 0)]).on F.PAC_HEAT_ACT_RST 255 = false ∧
    (base [(F.RST_SRC_CFG_WDOG_SCOPE, 0, 1)]).on F.RST_SRC_CFG_WDOG_SCOPE 0 = true ∧ (base [(F.RST_SRC_CFG_WDOG_SCOPE, 0, 0)]).on F.RST_SRC_CFG_WDOG_SCOPE 0 = false ∧
    State.reset.pwr.log = [] := by decide +kernel

/-- The security block with one of its operations under way, or a slot that has passed. -/
def secSt (f : Sec → Sec) (l : List (Fld × Nat × Nat)) : State := let s := base l; { s with sec := f s.sec }

theorem witness_Floors : State.reset.sec.blowing = none ∧ State.reset.rd F.SEC_ROLLBACK_FLOOR 0 ≤ floorOf State.reset (State.reset.rd F.SEC_ROLLBACK_CTR 0) ∧
    (let s := base [(F.SEC_ROLLBACK_FLOOR, 0, 4), (F.SEC_BOOT_VERSION, 0, 4), (F.CFG_STATUS_BUSY, 0, 0)]
     s.rd F.SEC_ROLLBACK_CTR 0 = 0 ∧ floorOf s 0 < s.rd F.SEC_ROLLBACK_FLOOR 0 ∧ s.on F.CFG_STATUS_BUSY 0 = false ∧ s.rd F.SEC_ROLLBACK_FLOOR 0 ≤ s.rd F.SEC_BOOT_VERSION 0) ∧
    (let s := base [(F.SEC_ROLLBACK_FLOOR, 0, 4), (F.SEC_ROLLBACK_CTR, 0, 2), (F.CFG_STATUS_BUSY, 0, 0)]
     floorRefused s 2 4 = false ∧ s.rd F.SEC_ROLLBACK_CTR 0 = 2 ∧ s.rd F.SEC_ROLLBACK_FLOOR 0 = 4) ∧
    (let s := base [(F.SEC_ROLLBACK_FLOOR, 0, 4), (F.SEC_BOOT_VERSION, 0, 3)]
     s.rd F.SEC_ROLLBACK_CTR 0 = 0 ∧ s.rd F.SEC_BOOT_VERSION 0 < s.rd F.SEC_ROLLBACK_FLOOR 0) ∧
    (secSt (fun x => { x with blowing := some (2, 5) }) []).sec.blowing = some (2, 5) := by decide +kernel

theorem witness_Slots : State.reset.sec.checking = none ∧ (secSt (fun x => { x with checking := some 1 }) []).sec.checking = some 1 ∧
    nvImageStep (secSt (fun x => { x with checking := some 1 }) []) (nvSlot 1) 6 ≠ 0 ∧ Tab.get false State.reset.sec.passed (1 - runningSlot State.reset) = false ∧
    (let s := secSt (fun x => { x with passed := [(0, true), (1, true)] }) []
     Tab.get false s.sec.passed (1 - runningSlot s) = true) ∧
    (base [(F.SEC_BOOT_TRIAL, 0, 1)]).on F.SEC_BOOT_TRIAL 0 = true ∧ (base [(F.SEC_BOOT_TRIAL, 0, 0)]).on F.SEC_BOOT_TRIAL 0 = false ∧
    (State.reset.sec.extend ++ [5]).length < 8 ∧ 8 ≤ ((secSt (fun x => { x with extend := List.replicate 7 5 }) []).sec.extend ++ [5]).length ∧
    State.reset.sec.report = none ∧ (secSt (fun x => { x with report := some (pad, [1]) }) []).sec.report = some (pad, [1]) ∧ State.reset.sec.nonce = false := by decide +kernel

theorem witness_DebugToken : (memRead State.reset (State.reset.rd F.SEC_DBG_DA 0 * 256) (64 + 8192) ⟨[], [], false⟩).2 = none ∨
    State.reset.sec.nonce = false := .inr rfl

theorem witness_Recovery : State.reset.on F.SEC_STATUS_RECOVERY 0 = false ∧ (base [(F.SEC_STATUS_RECOVERY, 0, 1)]).on F.SEC_STATUS_RECOVERY 0 = true ∧
    State.reset.sec.rcv.hdr = none ∧
    (let s := secSt (fun x => { x with rcv := ⟨[], some { hdr4 with length := 0 }, shake256 [] ++ shake256 [], 0⟩ }) [(F.SEC_STATUS_RECOVERY, 0, 1)]
     let r := s.sec.rcv
     r.hdr = some { hdr4 with length := 0 } ∧ (recoveryBuffer s).take (Nat.min 65536 (0 - (hdr4.strOff + r.chunk * 65536))) = [] ∧ shake256 [] = (r.table.drop (64 * r.chunk)).take 64 ∧ r.chunk + 1 < hdr4.chunks) ∧
    { hdr4 with chunks := 1 }.chunks ≤ 0 + 1 ∧ formatWrong [] = true ∧ identWrong [] = true := by decide +kernel

theorem witness_Fences : risen 32 0 0x80000000 = [31] ∧ (risen 32 0 0x80000000).any (clusterTaken State.reset) = false ∧
    (risen 32 0 1).any (clusterTaken (sesSt { ses true 2 with clusters := 1 } [])) = true ∧ risen 4 0 8 = [3] ∧ (risen 4 0 8).any (quarterInUse State.reset) = false ∧
    (risen 4 0 8).any (quarterInUse (base [(F.KMR_CTRL_SCHED_EN, 11, 1)])) = true := by decide +kernel

theorem witness_Lap : State.reset.pins.lap = false ∧ lapRefused (base ((List.range 12).map (fun p => (F.KMR_CTRL_SCHED_EN, p, 0)))) = false ∧
    { State.reset.dict with fault := true }.fault = true ∧
    (let s := { State.reset with pins := { State.reset.pins with lap := true, ref := none, programmed := true } }
     s.pins.lap = true ∧ s.on F.TST_CDL_PARKED 0 = false ∧ s.inReset 0 0 = false ∧ s.pins.ref = none ∧ s.pins.programmed = true) ∧
    (base [(F.TST_CDL_PARKED, 0, 1)]).on F.TST_CDL_PARKED 0 = true ∧ (base [(F.CXL_TIER_CTRL_EN, 0, 1)]).on F.CXL_TIER_CTRL_EN 0 = true := by decide +kernel

theorem witness_SlotTable : (let n := 11 * 4096 + 1 * 2048 + 2047
    let off := (Reg.KMR_SLOT_TABLE).place.1.base n + (Reg.KMR_SLOT_TABLE).place.2
    off % 8 = 0 ∧ regAt off = some (.KMR_SLOT_TABLE, n) ∧ noSuchPlace off = false ∧ targetAt off = none ∧ regDown State.reset (Reg.KMR_SLOT_TABLE).place n = false ∧
    State.reset.rd F.KMR_FRAME_BANK 11 ≠ 1 ∧ (base [(F.KMR_FRAME_BANK, 11, 1)]).rd F.KMR_FRAME_BANK 11 = 1) := by decide +kernel

theorem witness_Training : (let m := { State.reset.mem with training := [(0, 1), (1, 1)] }
     let s := { base [(F.HBM_STATUS_TRAIN_STATE, 0, 1)] with mem := m }
     s.rd F.HBM_STATUS_TRAIN_STATE 0 = 1 ∧ Tab.get 0 s.mem.training 0 = 1 ∧ Tab.get 0 s.mem.training 1 = 1) ∧
    (let m := { State.reset.mem with training := [(0, 2), (1, 2)] }
     let s := { base [(F.HBM_STATUS_TRAIN_STATE, 0, 2), (F.HBM_TRAIN_TEMP_DELTA, 0, 1)] with mem := m }
     Tab.get 0 s.mem.training 0 = 2 ∧ s.rd F.HBM_STATUS_TRAIN_STATE 0 = 2 ∧ s.rd F.HBM_TRAIN_TEMP_DELTA 0 < 2) ∧
    (let s := { State.reset with mem := { State.reset.mem with prq := [(0x3000, 1, true)] } }
     s.mem.prq = (0x3000, 1, true) :: []) := by decide +kernel

theorem witness_OpenRequests : (let s := wrs [(F.NOC_CPL_TO_CYCLES, 0, 1000)] nocSt
     let o : OpenReq := ⟨1, 0, true, 0x102, false, 1, [], false, 0, true⟩
     let u := s.setNoc { s.noc with opened := [o] }
     let v := { u with trk := { u.trk with ts := 1000 } }
     findOpen u 1 0 true false = some o ∧ quarterOfDie (dieOf 1) 0 = 0 ∧ u.rd F.NOC_CPL_TO_CYCLES 0 = 1000 ∧ u.trk.ts = 0 ∧ v.trk.ts = 1000 ∧
     kportOfUnit o.dst = none ∧ fportOfUnit 1 = none) ∧
    (let s := wrs [(F.NOC_CTRL_TRACE_AGE, 0, 10)] nocSt
     let u := s.setNoc { s.noc with recs := [(0, [(0, [0x10, 0, 0, 0])])] }
     let v := { u with trk := { u.trk with ts := 11 } }
     u.noc.heldPkts = [] ∧ u.noc.stalled = [] ∧ Tab.get [] u.noc.recs 0 = (0, [0x10, 0, 0, 0]) :: [] ∧ u.rd F.NOC_CTRL_TRACE_AGE 0 = 10 ∧
     u.trk.ts = 0 ∧ v.trk.ts = 11) := by decide +kernel

theorem witness_Emergencies : (let s := readySt 2 []
     let u := { s with dict := { s.dict with owed := [(0x24000001, 3)] } }
     maySend s 0x20000002 0 = true ∧ maySend u 0x24000001 3 = true ∧ maySend s 0x24000001 3 = false ∧ hubDown u = false ∧ u.pwr.mc = true) := by decide +kernel

/-! ### One step of a command, worked by hand from its rule -/

/-- R130: 2^64 - 1 plus 2 wraps to 1. -/
theorem test_add_wraps : (after (exec (.add 0) (prog (scal 0x08 3 1 2 0 0 0) [(1, 2 ^ 64 - 1), (2, 2)]))).sreg 0 3 = 1 := by decide +kernel
/-- R130: 3 minus 5 is -2; the first operand is SA. -/
theorem test_sub_order : (after (exec (.sub 0) (prog (scal 0x09 1 1 2 0 0 0) [(1, 3), (2, 5)]))).sreg 0 1 = 2 ^ 64 - 2 := by decide +kernel
/-- R130: (2^32 + 1) squared is 2^64 + 2^33 + 1, of which 64 bits stay. -/
theorem test_mul_low : (after (exec (.mul 0) (prog (scal 0x0A 3 1 1 0 0 0) [(1, 2 ^ 32 + 1)]))).sreg 0 3 = 2 ^ 33 + 1 := by decide +kernel
/-- R130: a shift uses six bits of b, so 65 shifts by 1. -/
theorem test_shl_count : (after (exec (.shl 0) (prog (scal 0x0E 3 1 2 0 0 0) [(1, 5), (2, 65)]))).sreg 0 3 = 10 := by decide +kernel
theorem test_sar_sign : (after (exec (.sar 0) (prog (scal 0x10 3 1 2 0 0 0) [(1, 2 ^ 63), (2, 63)]))).sreg 0 3 = 2 ^ 64 - 1 := by decide +kernel
/-- R130: li extends the sign of its immediate; S0 reads zero whatever is written. -/
theorem test_li_sign : (after (exec (.li 0) (prog (scal 0x11 31 0 0 (2 ^ 31) 0 0) []))).sreg 0 31 = 2 ^ 64 - 2 ^ 31 := by decide +kernel
theorem test_s0_reads_zero : (after (exec (.li 0) (prog (scal 0x11 0 0 0 7 0 0) []))).sreg 0 0 = 0 := by decide +kernel
theorem test_lih_keeps_low : (after (exec (.lih 0) (prog (scal 0x12 3 0 0 9 0 0) [(3, 5)]))).sreg 0 3 = 9 * 2 ^ 32 + 5 := by decide +kernel
/-- R130: a 64-bit store at S[SA] + IMM32, the low byte first. -/
theorem test_sst_bytes : readBytes (after (exec (.sst 0) (prog (scal 0x14 0 1 2 8 0 0) [(1, pad), (2, 0x0102030405060708)]))).sram (pad + 8) 3 = [8, 7, 6] := by
  decide +kernel
/-- R127: INT32 lanes wrap on their own. -/
theorem test_vadd_lanes : (after (exec (.vadd 0) (((prog (vec 0x00 1 2 3 0 2 0 0 0) []).setV 0 2 (2 ^ 32 - 1 + 4 * 2 ^ 32)).setV 0 3 (1 + 3 * 2 ^ 32)))).vreg 0 1 = 7 * 2 ^ 32 := by
  decide +kernel
/-- R127: 1.0 + 1.0 is 2.0 in FP32. -/
theorem test_vadd_fp32 : (after (exec (.vadd 0) ((prog (vec 0x00 1 2 2 0 0 0 0 0) []).setV 0 2 0x3F800000))).vreg 0 1 % 2 ^ 32 = 0x40000000 := by decide +kernel
/-- R177: the second arrival completes a generation of target 2 and clears COUNT. -/
theorem test_arrival_completes : (let t := after (exec (.hurOpHarrive 3 1) (hurSt 0 0 [(F.HUR_STATE_COUNT, 3, 1)]))
    (t.gen 3, t.rd F.HUR_STATE_COUNT 3)) = (1, 0) := by decide +kernel
/-- R349: mac adds twice the product. -/
theorem test_slice_mac : (((after (exec (.mac 1535) (slSt (sw 2 3 0 1 0) { Slice.zero with d := [(0, 3), (1, 5)], acc := [(3, 7)] } []))).slice 1535).acc) = [(3, 37)] := by
  decide +kernel
/-- R349: msu takes it away. -/
theorem test_slice_msu : (((after (exec (.msu 1535) (slSt (sw 3 3 0 1 0) { Slice.zero with d := [(0, 3), (1, 5)], acc := [(3, 37)] } []))).slice 1535).acc) = [(3, 7)] := by
  decide +kernel
/-- R349: jmp takes bits [11:0]. -/
theorem test_slice_jmp : slicePC (after (exec (.jmp 1535) (slSt (sw 0x22 0 0 0 0xABC) Slice.zero []))) 1535 = 0xABC := by decide +kernel
/-- R186: a base below the cluster's memories is stored as their nearest address, the first byte of the scratchpads. -/
theorem test_window_base : (after (exec (.registerWrite ((Reg.HUR_WIN_BASE).place.1.base 0 + (Reg.HUR_WIN_BASE).place.2) 8 0) State.reset)).rd F.HUR_WIN_BASE_DA 0 = pad := by
  decide +kernel
/-- R133: a fault is cleared to IDLE. -/
theorem test_clear_fault : (after (exec (.clearFault 4095) (base [(F.VEC_Q_STAT_STATE, 4095, 4)]))).rd F.VEC_Q_STAT_STATE 4095 = 0 := by decide +kernel
/-- R486: BYPASS puts one zero bit between TDI and TDO. -/
theorem test_bypass : (after (exec .bypass State.reset)).outbox = [.tdo [false]] := by decide +kernel
/-- SHAKE256 of no bytes: 46 B9 DD 2B 0B A8 8D 13 (FIPS 202). -/
theorem test_shake256_empty : (shake256 []).take 8 = [0x46, 0xB9, 0xDD, 0x2B, 0x0B, 0xA8, 0x8D, 0x13] := by decide +kernel

end Sys2Proof.Tests
end

section
/-!
PROOFS. The address map of the control window, the state after reset, accesses of a refused width, and a 32-bit write that reaches the
other half of its register.
-/
namespace Sys2Proof.Machine

/-! ### Every register and its place -/

theorem Reg.mem_all (r : Reg) : r ∈ Reg.all := by
  have h : Reg.all[r.ctorIdx]? = some r := by cases r <;> rfl
  exact List.mem_of_getElem? h

/-- The list of registers finds each register by its own place, so no two registers share one. -/
theorem Reg.find_place (r : Reg) : Reg.all.find? (fun x => decide (x.place = r.place)) = some r := by
  have h : ∀ r ∈ Reg.all, Reg.all.find? (fun x => decide (x.place = r.place)) = some r := by decide +kernel
  exact h r (Reg.mem_all r)

/-- The bytes that the registers of one unit may take, before the next unit of the kind begins. -/
def Bank.size : Bank → Nat
  | .hub => 0x1200000
  | .quarter => 0x200000
  | .cluster => 0x40000
  | .core => 0x2000
  | .engine | .track => 0x100
  | .stream => 0x200
  | .kport => 0x8000
  | .cxlport => 0x10000
  | .slice => 0x80
  | .probe | .lane => 0x40
  | .fabpll | .fabbank => 0x10
  | .queue | .window | .hurdle | .slot | .kstart | .cxlwin | .fabport | .fabmark | .heat => 0x20
  | _ => 8

theorem Reg.place_bounds (r : Reg) :
    r.place.2 < r.place.1.size ∧ r.place.2 % 8 = 0 ∧ (r.place.1 = .cluster → 0x20000 ≤ r.place.2) := by
  have h : ∀ r ∈ Reg.all, r.place.2 < r.place.1.size ∧ r.place.2 % 8 = 0 ∧ (r.place.1 = .cluster → 0x20000 ≤ r.place.2) := by
    decide +kernel
  exact h r (Reg.mem_all r)

/-- Units of one kind do not overlap. -/
theorem Bank.base_inj (b : Bank) {n m p q : Nat} (hn : n < b.count) (hm : m < b.count) (hp : p < b.size) (hq : q < b.size)
    (h : b.base n + p = b.base m + q) : n = m := by
  cases b with
  | probe | lane =>
    simp only [Bank.base, Bank.count, Bank.size, quarterBase] at hn hm hp hq h
    split at h <;> split at h <;> omega
  | _ => simp only [Bank.base, Bank.count, Bank.size, coreBase, clusterBase, quarterBase] at hn hm hp hq h; omega

theorem Bank.base_mod_eight (b : Bank) (n : Nat) : b.base n % 8 = 0 := by
  cases b with
  | probe | lane => simp only [Bank.base, quarterBase]; split <;> omega
  | hub => rfl
  | _ => simp only [Bank.base, coreBase, clusterBase, quarterBase]; omega

/-! ### Folding the repeated units together -/

/-- The offset that stands in the first quarter, its first cluster and that cluster's first core where `o` stands in its own. -/
def homeOffset (o : Nat) : Nat :=
  if o < 0x1000000 then o
  else
    let r := (o - 0x1000000) % 0x400000
    if r < 0x200000 then 0x1000000 + r
    else
      let x := (r - 0x200000) % 0x40000
      if x < 0x20000 then 0x1200000 + x % 0x2000 else 0x1200000 + x

theorem homeOffset_low {o : Nat} (h : o < 0x1200000) : homeOffset o = o := by
  unfold homeOffset
  split
  · rfl
  · rw [if_pos (by omega)]; omega

theorem homeOffset_quarter (q : Nat) {r : Nat} (h : r < 0x200000) : homeOffset (quarterBase q + r) = 0x1000000 + r := by
  unfold homeOffset quarterBase
  rw [if_neg (by omega), if_pos (by omega)]
  omega

theorem homeOffset_cluster (c : Nat) {x : Nat} (h : 0x20000 ≤ x) (h' : x < 0x40000) :
    homeOffset (clusterBase c + x) = 0x1200000 + x := by
  unfold homeOffset clusterBase quarterBase
  rw [if_neg (by omega), if_neg (by omega), if_neg (by omega)]
  omega

theorem homeOffset_core (k : Nat) {y : Nat} (h : y < 0x2000) : homeOffset (coreBase k + y) = 0x1200000 + y := by
  unfold homeOffset coreBase clusterBase quarterBase
  rw [if_neg (by omega), if_neg (by omega), if_pos (by omega)]
  omega

theorem homeOffset_of_quarter {o : Nat} (h : 0x1000000 ≤ o) (hr : (o - 0x1000000) % 0x400000 < 0x200000) :
    homeOffset o = 0x1000000 + (o - 0x1000000) % 0x400000 := by
  rw [homeOffset, if_neg (by omega), if_pos hr]

/-- Where the registers of each kind stand, folded together, in rising order: the kind, and the first offset in and after an area. Only
the registers of the hub, the quarter, the core and the cluster stand among those of other kinds. -/
def homeAreas : List (Bank × Nat × Nat) :=
  [(.hub, 0x0, 0x2058), (.pacceil, 0x2100, 0x2200), (.pactemp, 0x2400, 0x2600), (.pacvmon, 0x2600, 0x2780), (.pacain, 0x2780, 0x2800),
   (.heat, 0x3000, 0x5000), (.hub, 0x100000, 0x100058), (.region, 0x100100, 0x100200), (.hub, 0x108000, 0x200068),
   (.secm, 0x200100, 0x200300), (.secnonce, 0x200300, 0x200320), (.secdbgn, 0x200400, 0x200420), (.secrcv, 0x208000, 0x218000),
   (.hub, 0x300000, 0x300040), (.mbxreq, 0x301000, 0x302000), (.mbxrsp, 0x302000, 0x303000), (.hub, 0x400000, 0x400060),
   (.track, 0x500000, 0x500800), (.hub, 0x500800, 0x500828), (.slot, 0x510000, 0x520000), (.hub, 0x600000, 0x600068),
   (.cxlport, 0x640000, 0x660000), (.hub, 0x680000, 0x680058), (.cxlwin, 0x680100, 0x680300), (.lane, 0x6C0000, 0x6C0C00),
   (.hub, 0x700000, 0x700070), (.resident, 0x700100, 0x700200), (.hub, 0x710000, 0x800020), (.cdllast, 0x800040, 0x800080),
   (.hub, 0x800080, 0x8000A0), (.probe, 0x801000, 0x801400),
   (.quarter, 0x1000000, 0x1000090), (.pchan, 0x1000800, 0x1000A00), (.band, 0x1001000, 0x1001030),
   (.kport, 0x1080000, 0x1088000), (.kslot, 0x1088000, 0x1090000), (.kport, 0x1090000, 0x1098000), (.kslot, 0x1098000, 0x10A0000),
   (.kport, 0x10A0000, 0x10A8000), (.kslot, 0x10A8000, 0x10B0000), (.hub, 0x10B0000, 0x10B0060), (.kgrp, 0x10B0400, 0x10B0800),
   (.kmbr, 0x10B0800, 0x10B0C00), (.kstart, 0x10B1000, 0x10B2000), (.kpos, 0x10B2000, 0x10B2400), (.quarter, 0x10C0000, 0x10C0088),
   (.probe, 0x10C1000, 0x10C2000), (.quarter, 0x1100000, 0x1100050), (.fabpll, 0x1100100, 0x1100140), (.fabbank, 0x1100200, 0x1100250),
   (.fabport, 0x1101000, 0x1101400), (.fabmark, 0x1102000, 0x1102200), (.slice, 0x1140000, 0x114C000), (.lane, 0x1180000, 0x1180600),
   (.core, 0x1200000, 0x1200058), (.queue, 0x1200100, 0x1200200), (.qstall, 0x1200200, 0x1200240), (.engine, 0x1200800, 0x1200C00),
   (.core, 0x1200C00, 0x1200C60), (.stream, 0x1201000, 0x1201400), (.cluster, 0x1220000, 0x1220048), (.window, 0x1220800, 0x1221000),
   (.hurdle, 0x1230000, 0x1240000)]

/-- A folded offset lies in an area of a kind. -/
def InArea (b : Bank) (o : Nat) : Prop := ∃ a ∈ homeAreas, a.1 = b ∧ a.2.1 ≤ o ∧ o < a.2.2

/-- Areas of two kinds do not meet. -/
theorem InArea.unique {b b' : Bank} {o : Nat} (h : InArea b o) (h' : InArea b' o) : b = b' := by
  have hapart : ∀ a ∈ homeAreas, ∀ c ∈ homeAreas, a.1 = c.1 ∨ a.2.2 ≤ c.2.1 ∨ c.2.2 ≤ a.2.1 := by decide +kernel
  obtain ⟨a, ha, rfl, hlo, hhi⟩ := h
  obtain ⟨c, hc, rfl, hlo', hhi'⟩ := h'
  exact (hapart a ha c hc).resolve_right (by omega)

/-- The kinds whose registers stand among those of other kinds. -/
def Bank.isBlock (b : Bank) : Bool := decide (b = .hub ∨ b = .quarter ∨ b = .cluster ∨ b = .core)

/-- Units that stand side by side lie in their kind's area. -/
theorem Bank.inArea_of_units (b : Bank) (hb : b.isBlock = false) {n p : Nat} (hn : n < b.count) (hp : p < b.size) :
    InArea b (homeOffset (b.base n + p)) := by
  cases b with
  | hub | quarter | cluster | core => simp [Bank.isBlock] at hb
  | engine | queue | qstall | stream =>
    simp only [Bank.base, Bank.count, Bank.size, Nat.add_assoc] at hn hp ⊢
    rw [homeOffset_core _ (by omega)]
    simp only [InArea, homeAreas, List.exists_mem_cons_iff, reduceCtorEq, false_and, false_or, true_and]; omega
  | window | hurdle =>
    simp only [Bank.base, Bank.count, Bank.size, Nat.add_assoc] at hn hp ⊢
    rw [homeOffset_cluster _ (by omega) (by omega)]
    simp only [InArea, homeAreas, List.exists_mem_cons_iff, reduceCtorEq, false_and, false_or, true_and]; omega
  | kport | kslot | pchan | fabpll | fabbank | fabport | fabmark | slice =>
    simp only [Bank.base, Bank.count, Bank.size, Nat.add_assoc] at hn hp ⊢
    rw [homeOffset_quarter _ (by omega)]
    simp only [InArea, homeAreas, List.exists_mem_cons_iff, reduceCtorEq, false_and, false_or, true_and]; omega
  | probe | lane =>
    simp only [Bank.base, Bank.count, Bank.size] at hn hp ⊢
    split
    · simp only [Nat.add_assoc]
      rw [homeOffset_quarter _ (by omega)]
      simp only [InArea, homeAreas, List.exists_mem_cons_iff, reduceCtorEq, false_and, false_or, true_and]; omega
    · rw [homeOffset_low (by omega)]
      simp only [InArea, homeAreas, List.exists_mem_cons_iff, reduceCtorEq, false_and, false_or, true_and]; omega
  | _ =>
    simp only [Bank.base, Bank.count, Bank.size] at hn hp ⊢
    rw [homeOffset_low (by omega)]
    simp only [InArea, homeAreas, List.exists_mem_cons_iff, reduceCtorEq, false_and, false_or, true_and]; omega

/-- A block's register stands in the first block of its kind where it stands in its own. -/
theorem homeOffset_block (r : Reg) (hb : r.place.1.isBlock = true) {n : Nat} (hn : n < r.place.1.count) :
    homeOffset (r.place.1.base n + r.place.2) = homeOffset (r.place.1.base 0 + r.place.2) := by
  obtain ⟨hp, -, hc⟩ := r.place_bounds
  revert hb hn hp hc
  generalize r.place.1 = b, r.place.2 = p
  intro hb hn hp hc
  cases b <;> simp only [Bank.isBlock, reduceCtorEq, or_self, decide_false, Bool.false_eq_true] at hb
  case hub => rfl
  case quarter => exact (homeOffset_quarter n hp).trans (homeOffset_quarter 0 hp).symm
  case cluster => exact (homeOffset_cluster n (hc rfl) hp).trans (homeOffset_cluster 0 (hc rfl) hp).symm
  case core => exact (homeOffset_core n hp).trans (homeOffset_core 0 hp).symm

/-- A block's register stands in an area of its kind. -/
theorem Reg.inArea_of_block (r : Reg) (hb : r.place.1.isBlock = true) {n : Nat} (hn : n < r.place.1.count) :
    InArea r.place.1 (homeOffset (r.place.1.base n + r.place.2)) := by
  have h : ∀ r ∈ Reg.all, r.place.1.isBlock = true → ∃ a ∈ homeAreas, a.1 = r.place.1 ∧
      a.2.1 ≤ homeOffset (r.place.1.base 0 + r.place.2) ∧ homeOffset (r.place.1.base 0 + r.place.2) < a.2.2 := by decide +kernel
  rw [homeOffset_block r hb hn]
  exact h r r.mem_all hb

/-- Every register of every unit stands in an area of its kind. -/
theorem Reg.inArea (r : Reg) {n : Nat} (hn : n < r.place.1.count) :
    InArea r.place.1 (homeOffset (r.place.1.base n + r.place.2)) := by
  cases hb : r.place.1.isBlock with
  | false => exact r.place.1.inArea_of_units hb hn r.place_bounds.1
  | true => exact r.inArea_of_block hb hn

/-! ### The unit that owns an offset -/

theorem mem_unitIf {c : Bool} {b b' : Bank} {n n' : Nat} : (b, n) ∈ unitIf c b' n' ↔ c = true ∧ b = b' ∧ n = n' := by
  cases c <;> simp [unitIf]

theorem quarterBase_div {q r : Nat} (hr : r < 0x400000) : (quarterBase q + r - 0x1000000) / 0x400000 = q := by
  unfold quarterBase; omega

theorem quarterBase_mod {q r : Nat} (hr : r < 0x400000) : (quarterBase q + r - 0x1000000) % 0x400000 = r := by
  unfold quarterBase; omega

theorem quarterBase_range {q r : Nat} (hq : q < 4) (hr : r < 0x400000) :
    ¬ quarterBase q + r < 0x1000000 ∧ quarterBase q + r < 0x2000000 := by
  unfold quarterBase; omega

theorem unitAt_cluster {c x : Nat} (hc : c < 32) (h : 0x20000 ≤ x) (h' : x < 0x40000) :
    unitAt (clusterBase c + x) = List.flatten [unitIf true .cluster c,
      unitIf (decide (0x20800 ≤ x ∧ x < 0x21000)) .window (c * 64 + (x - 0x20800) / 0x20),
      unitIf (decide (0x30000 ≤ x)) .hurdle (c * 2048 + (x - 0x30000) / 0x20)] := by
  have hr : 0x200000 + (c % 8 * 0x40000 + x) < 0x400000 := by omega
  obtain ⟨hlow, hhigh⟩ := quarterBase_range (q := c / 8) (by omega) hr
  have hdiv : c / 8 * 8 + (0x200000 + (c % 8 * 0x40000 + x) - 0x200000) / 0x40000 = c := by omega
  have hmod : (0x200000 + (c % 8 * 0x40000 + x) - 0x200000) % 0x40000 = x := by omega
  simp only [clusterBase, Nat.add_assoc]
  rw [unitAt, if_neg hlow, if_pos hhigh, quarterBase_div hr, quarterBase_mod hr, if_neg (by omega)]
  simp only [hdiv, hmod]
  rw [if_neg (by omega)]

theorem unitAt_core {k y : Nat} (hk : k < 512) (hy : y < 0x2000) :
    unitAt (coreBase k + y) = List.flatten [unitIf true .core k,
      unitIf (decide (0x800 ≤ y ∧ y < 0xC00)) .engine (k * 4 + (y - 0x800) / 0x100),
      unitIf (decide (0x100 ≤ y ∧ y < 0x200)) .queue (k * 8 + (y - 0x100) / 0x20),
      unitIf (decide (0x200 ≤ y ∧ y < 0x240)) .qstall (k * 8 + (y - 0x200) / 8),
      unitIf (decide (0x1000 ≤ y ∧ y < 0x1400)) .stream (k * 2 + (y - 0x1000) / 0x200)] := by
  have hr : 0x200000 + (k / 16 % 8 * 0x40000 + (k % 16 * 0x2000 + y)) < 0x400000 := by omega
  obtain ⟨hlow, hhigh⟩ := quarterBase_range (q := k / 16 / 8) (by omega) hr
  have hdiv : k / 16 / 8 * 8 + (0x200000 + (k / 16 % 8 * 0x40000 + (k % 16 * 0x2000 + y)) - 0x200000) / 0x40000 = k / 16 := by omega
  have hmod : (0x200000 + (k / 16 % 8 * 0x40000 + (k % 16 * 0x2000 + y)) - 0x200000) % 0x40000 = k % 16 * 0x2000 + y := by omega
  have hk' : k / 16 * 16 + (k % 16 * 0x2000 + y) / 0x2000 = k := by omega
  have hy' : (k % 16 * 0x2000 + y) % 0x2000 = y := by omega
  simp only [coreBase, clusterBase, Nat.add_assoc]
  rw [unitAt, if_neg hlow, if_pos hhigh, quarterBase_div hr, quarterBase_mod hr, if_neg (by omega)]
  simp only [hdiv, hmod, hk', hy']
  rw [if_pos (by omega)]

theorem mem_units_cons {c : Bool} {b b' : Bank} {n n' : Nat} {l : List (List (Bank × Nat))} :
    (b, n) ∈ List.flatten (unitIf c b' n' :: l) ↔ (c = true ∧ b = b' ∧ n = n') ∨ (b, n) ∈ List.flatten l := by
  simp [mem_unitIf]

/-- The unit that owns a register is among those that its offset may belong to. -/
theorem mem_unitAt (b : Bank) {n p : Nat} (hn : n < b.count) (hp : p < b.size) (hc : b = .cluster → 0x20000 ≤ p) :
    (b, n) ∈ unitAt (b.base n + p) := by
  cases b with
  | core | engine | queue | qstall | stream =>
    simp only [Bank.base, Bank.count, Bank.size, Nat.add_assoc] at hn hp ⊢
    rw [unitAt_core (by omega) (by omega)]
    simp [mem_unitIf] <;> omega
  | cluster | window | hurdle =>
    simp only [Bank.base, Bank.count, Bank.size, Nat.add_assoc, forall_const] at hn hp hc ⊢
    rw [unitAt_cluster (by omega) (by omega) (by omega)]
    simp [mem_unitIf] <;> omega
  | quarter | kport | kslot | pchan | fabpll | fabbank | fabport | fabmark | slice =>
    simp only [Bank.base, Bank.count, Bank.size, Nat.add_assoc] at hn hp ⊢
    rw [unitAt, if_neg (quarterBase_range (by omega) (by omega)).1, if_pos (quarterBase_range (by omega) (by omega)).2,
      quarterBase_div (by omega), quarterBase_mod (by omega), if_pos (by omega)]
    simp only [mem_units_cons, reduceCtorEq, false_and, and_false, false_or, true_and, decide_eq_true_eq, true_or] <;> omega
  | probe | lane =>
    simp only [Bank.base, Bank.count, Bank.size] at hn hp ⊢
    split
    · simp only [Nat.add_assoc]
      rw [unitAt, if_neg (quarterBase_range (by omega) (by omega)).1, if_pos (quarterBase_range (by omega) (by omega)).2,
        quarterBase_div (by omega), quarterBase_mod (by omega), if_pos (by omega)]
      simp only [mem_units_cons, reduceCtorEq, false_and, and_false, false_or, true_and, decide_eq_true_eq]
      omega
    · rw [unitAt, if_pos (by omega)]
      simp only [mem_units_cons, reduceCtorEq, false_and, and_false, false_or, true_and, decide_eq_true_eq]
      omega
  | kgrp | kmbr | kstart | kpos | band =>
    simp only [Bank.base, Bank.count, Bank.size] at hn hp ⊢
    rw [unitAt, if_neg (by omega), if_pos (by omega), if_pos (by omega)]
    simp only [mem_units_cons, reduceCtorEq, false_and, and_false, false_or, true_and, decide_eq_true_eq]
    omega
  | hub =>
    simp only [Bank.base, Bank.count, Bank.size] at hn hp ⊢
    by_cases h : p < 0x1000000
    · rw [unitAt, if_pos (by omega)]
      simp only [mem_units_cons, true_and]
      omega
    · rw [unitAt, if_neg (by omega), if_pos (by omega), if_pos (by omega)]
      simp only [mem_units_cons, reduceCtorEq, false_and, and_false, false_or, true_and, decide_eq_true_eq]
      omega
  | _ =>
    simp only [Bank.base, Bank.count, Bank.size] at hn hp ⊢
    rw [unitAt, if_pos (by omega)]
    simp only [mem_units_cons, reduceCtorEq, false_and, and_false, false_or, true_and, decide_eq_true_eq]
    omega

/-- No two registers share an offset. -/
theorem Reg.offset_inj {r r' : Reg} {n n' : Nat} (hn : n < r.place.1.count) (hn' : n' < r'.place.1.count)
    (h : r.place.1.base n + r.place.2 = r'.place.1.base n' + r'.place.2) : r = r' ∧ n = n' := by
  have hbank : r.place.1 = r'.place.1 := (r.inArea hn).unique (h ▸ r'.inArea hn')
  have hunit : n = n' := by
    rw [← hbank] at h hn'
    exact r.place.1.base_inj hn hn' r.place_bounds.1 (hbank ▸ r'.place_bounds.1) h
  have hplace : r.place = r'.place := by
    refine Prod.ext hbank ?_
    rw [hbank, hunit] at h
    exact Nat.add_left_cancel h
  have hfind := r.find_place
  rw [hplace, r'.find_place] at hfind
  exact ⟨(Option.some.inj hfind).symm, hunit⟩

/-- An offset names a register of a unit exactly when that register stands there. -/
theorem regAt_eq_some_iff {o n : Nat} {r : Reg} :
    regAt o = some (r, n) ↔ n < r.place.1.count ∧ o = r.place.1.base n + r.place.2 := by
  have hsound : ∀ r n, regAt o = some (r, n) → n < r.place.1.count ∧ o = r.place.1.base n + r.place.2 := by
    intro r n h
    obtain ⟨⟨b, m⟩, -, h⟩ := List.exists_of_findSome?_eq_some h
    split at h
    case isFalse => cases h
    case isTrue hc =>
      obtain ⟨x, hx, hxr⟩ := Option.map_eq_some_iff.1 h
      cases hxr
      have hplace : r.place = (b, o - b.base m) := by simpa using List.find?_some hx
      rw [hplace]
      exact ⟨hc.1, (Nat.add_sub_cancel' hc.2).symm⟩
  refine ⟨hsound r n, fun ⟨hn, ho⟩ => ?_⟩
  obtain ⟨hp, -, hc⟩ := r.place_bounds
  have hsome : (regAt o).isSome := by
    rw [regAt, List.findSome?_isSome_iff]
    refine ⟨(r.place.1, n), ho ▸ mem_unitAt _ hn hp hc, ?_⟩
    rw [if_pos ⟨hn, ho ▸ Nat.le_add_right _ _⟩, ho, Nat.add_sub_cancel_left, r.find_place]
    rfl
  obtain ⟨⟨r', n'⟩, h⟩ := Option.isSome_iff_exists.1 hsome
  obtain ⟨hn', ho'⟩ := hsound r' n' h
  obtain ⟨rfl, rfl⟩ := Reg.offset_inj hn hn' (ho.symm.trans ho')
  exact h

/-- The kinds that only quarter 0 has, with the hub, whose registers in quarter 0 are the Kamrus device registers. -/
def Bank.firstQuarterOnly (b : Bank) : Bool :=
  decide (b = .hub ∨ b = .kgrp ∨ b = .kmbr ∨ b = .kstart ∨ b = .kpos ∨ b = .band)

/-- No area meets a fabric target window, and only kinds of quarter 0 alone stand where the other quarters answer an error (R272, R295). -/
theorem homeAreas_clear : ∀ a ∈ homeAreas, (a.2.2 ≤ 0x1110000 ∨ 0x1130000 ≤ a.2.1) ∧ (a.1.firstQuarterOnly = true ∨
    (a.2.2 ≤ 0x10B0000 ∨ 0x10C0000 ≤ a.2.1) ∧ (a.2.2 ≤ 0x1001000 ∨ 0x1001030 ≤ a.2.1)) := by decide +kernel

theorem Bank.base_lt (b : Bank) {n p : Nat} (hn : n < b.count) (hp : p < b.size) :
    b.base n + p < 0x2000000 ∧ (b.firstQuarterOnly = true → b.base n + p < 0x1400000) := by
  cases b with
  | hub | kgrp | kmbr | kstart | kpos | band => simp only [Bank.base, Bank.count, Bank.size] at hn hp ⊢; omega
  | probe | lane =>
    simp only [Bank.base, Bank.count, Bank.size, quarterBase, Bank.firstQuarterOnly] at hn hp ⊢
    split <;> simp <;> omega
  | _ =>
    simp only [Bank.base, Bank.count, Bank.size, coreBase, clusterBase, quarterBase, Bank.firstQuarterOnly] at hn hp ⊢
    simp; omega

theorem targetAt_eq_none {o : Nat} (h : homeOffset o < 0x1110000 ∨ 0x1130000 ≤ homeOffset o) : targetAt o = none := by
  refine if_neg fun ⟨ho, _, hlo, hhi⟩ => ?_
  rw [homeOffset_of_quarter ho (by omega)] at h
  omega

theorem noSuchPlace_eq_false {o : Nat} (ho : o < 0x2000000) (h : o < 0x1400000 ∨
    (homeOffset o < 0x10B0000 ∨ 0x10C0000 ≤ homeOffset o) ∧ (homeOffset o < 0x1001000 ∨ 0x1001030 ≤ homeOffset o)) :
    noSuchPlace o = false := by
  simp only [noSuchPlace, Bool.or_eq_false_iff, Bool.and_eq_false_iff, decide_eq_false_iff_not]
  refine ⟨by omega, or_iff_not_imp_left.2 fun hq hr => ?_⟩
  rw [homeOffset_of_quarter (by omega) (by omega)] at h
  omega

/-- Settles O29: the areas of the kinds lie apart in the first quarter, cluster and core, so an offset has one owner; and the owner is
among the units that `unitAt` proposes. -/
theorem registerOffsetsDecodeBack : Obligations.RegisterOffsetsDecodeBack := by
  unfold Obligations.RegisterOffsetsDecodeBack
  refine ⟨Reg.mem_all, fun r n hn => ?_⟩
  obtain ⟨a, ha, hak, hlo, hhi⟩ := r.inArea hn
  obtain ⟨hp, hp8, -⟩ := r.place_bounds
  obtain ⟨htarget, hplace⟩ := homeAreas_clear a ha
  obtain ⟨hend, hfirst⟩ := r.place.1.base_lt hn hp
  have hb8 := r.place.1.base_mod_eight n
  refine ⟨regAt_eq_some_iff.2 ⟨hn, rfl⟩, noSuchPlace_eq_false hend ?_, targetAt_eq_none (by omega), by omega⟩
  rw [hak] at hplace
  rcases hplace with hq | hplace
  · exact .inl (hfirst hq)
  · exact .inr (by omega)

/-! ### The state after reset -/

theorem Tab.get_eq_default {α : Type} (d : α) (t : Tab α) {k : Nat} (h : ∀ e ∈ t, e.1 ≠ k) : Tab.get d t k = d := by
  induction t with
  | nil => rfl
  | cons e t ih =>
    obtain ⟨j, v⟩ := e
    rw [Tab.get, Tab.find?, if_neg (h (j, v) List.mem_cons_self)]
    exact ih fun e he => h e (List.mem_cons_of_mem _ he)

/-- Settles O3: the register file of `State.reset` lists the live fields alone, and its memories and queue list nothing. -/
theorem resetLeavesResetValues : Obligations.ResetLeavesResetValues := by
  unfold Obligations.ResetLeavesResetValues
  refine ⟨fun f i hi hlive => ?_, fun a => ⟨rfl, rfl⟩, fun w => rfl, fun kind i => rfl, rfl, rfl⟩
  refine Tab.get_eq_default _ _ fun e he => ?_
  have hlisted : ∃ g : Fld, e.1 = g.at 0 ∧ (g.key, 0) ∈ [(F.RST_BOOT_BIN.key, 0), (F.RST_TRIM_STATE.key, 0),
      (F.RST_TRIM_TRIES.key, 0), (F.PWR_STATUS_IN_RANGE.key, 0), (F.PWR_STATUS_Q_ON.key, 0), (F.PAC_WDOG_LEFT_US.key, 0)] := by
    simp only [State.reset, List.mem_cons, List.not_mem_nil, or_false] at he
    rcases he with rfl | rfl | rfl | rfl | rfl | rfl
    exacts [⟨F.RST_BOOT_BIN, rfl, by simp⟩, ⟨F.RST_TRIM_STATE, rfl, by simp⟩, ⟨F.RST_TRIM_TRIES, rfl, by simp⟩,
      ⟨F.PWR_STATUS_IN_RANGE, rfl, by simp⟩, ⟨F.PWR_STATUS_Q_ON, rfl, by simp⟩, ⟨F.PAC_WDOG_LEFT_US, rfl, by simp⟩]
  obtain ⟨g, hg, hmem⟩ := hlisted
  rw [hg]
  refine Fld.at_ne (by decide) hi ?_
  by_contra hsame
  obtain ⟨hkey, hunit⟩ := not_or.1 hsame
  exact hlive (not_not.1 hkey ▸ not_not.1 hunit ▸ hmem)

/-! ### Accesses to the control window -/

theorem exec_registerWrite (off width : Nat) (value : Word) (s : State) :
    exec (.registerWrite off width value) s = .next (showAns (windowWrite s mcUnit off width value.toNat) true) := rfl

theorem exec_bar0Request (write : Bool) (off width : Nat) (value : Word) (s : State) :
    exec (.bar0Request write off width value) s = .next (bar0 s write off width value.toNat) := rfl

theorem accessHalf_eq_none {off width : Nat} (h : ¬ ((width = 8 ∧ off % 8 = 0) ∨ (width = 4 ∧ off % 4 = 0))) :
    accessHalf off width = none := by
  obtain ⟨h8, h4⟩ := not_or.1 h
  rw [accessHalf, if_neg h8, if_neg h4]

theorem windowWrite_of_odd {off width : Nat} (h : accessHalf off width = none) (s : State) (src v : Nat) :
    windowWrite s src off width v = (s, .error) := by
  rw [windowWrite, h]

theorem windowRead_of_odd {off width : Nat} (h : accessHalf off width = none) (s : State) (src : Nat) :
    windowRead s src off width = (s, .error) := by
  rw [windowRead, h]

/-- A BAR0 request whose access to the control window fails, or that the hub does not answer in recovery, fails. -/
theorem bar0_of_error {s : State} {write : Bool} {off width v : Nat} (hoff : barOff s = false)
    (h : (if write then windowWrite s pcieUnit off width v else windowRead s pcieUnit off width) = (s, .error)) :
    bar0 s write off width v = barError s write := by
  rw [bar0, if_neg (by simp [hoff]), h, ite_self]

/-- Settles O30: no access of another width or alignment covers a half or a whole register. -/
theorem oddAccessesAreErrors : Obligations.OddAccessesAreErrors := by
  unfold Obligations.OddAccessesAreErrors
  intro off width s hodd
  have hnone := accessHalf_eq_none hodd
  have hwrite := windowWrite_of_odd hnone s
  have hread := windowRead_of_odd hnone s
  refine ⟨hwrite, hread, fun value => ?_, fun write value hoff => ?_⟩
  · rw [exec_registerWrite, hwrite, showAns]
  · rw [exec_bar0Request, bar0_of_error hoff]
    cases write
    · exact hread _
    · exact hwrite _ _

/-! ### Halves of a register -/

/-- The state after reset with HUR_FE_CTRL of cluster 0 holding MISS set and, in the two bits of MODE, the value 2^8. Placed at MODE's
lowest bit, 48, that value reaches bit 56, which is MISS. -/
def wideModeState : State := { State.reset with regs := [F.HUR_FE_CTRL_MODE.entry 256, F.HUR_FE_CTRL_MISS.entry 1] }

/-- A 32-bit write of zero to the low half of HUR_FE_CTRL keeps MODE by writing it back, and its overflow into bit 56 clears MISS. -/
theorem wideModeState_lowWrite_clears_miss :
    wideModeState.rd F.HUR_FE_CTRL_MISS 0 = 1 ∧
      (showAns (windowWrite wideModeState mcUnit 0x1220010 4 0) true).rd F.HUR_FE_CTRL_MISS 0 = 0 := by decide +kernel

/-- Refutes O31: of a 32-bit write it says that a field wholly in the other half keeps its value, for every state in which that field,
but not its neighbours, lies within its width. In `wideModeState` MISS does and MODE does not. No `State.wr` stores such a value of MODE; the
statement asks for none of the state's other fields to be in range. -/
theorem not_registersFollowTheirAccessCodes : ¬ Obligations.RegistersFollowTheirAccessCodes := by
  unfold Obligations.RegistersFollowTheirAccessCodes
  rintro ⟨hwrites, -⟩
  obtain ⟨-, -, hhalf⟩ := hwrites .HUR_FE_CTRL 0 0x1220010 0 wideModeState rfl (regAt_eq_some_iff.2 ⟨by decide, rfl⟩) rfl rfl rfl rfl
    (by decide) (by decide) fun _ _ _ => rfl
  obtain ⟨t, ht, -, hkeeps⟩ := hhalf 0 rfl rfl
  obtain ⟨-, -, hfields⟩ := hkeeps rfl
  obtain ⟨hother, -⟩ := hfields F.HUR_FE_CTRL_MISS (by decide) (by decide +kernel)
  obtain ⟨hset, hcleared⟩ := wideModeState_lowWrite_clears_miss
  rw [exec_registerWrite] at ht
  obtain rfl := Host.Outcome.next.inj ht
  have hkept : (1 : Nat) = 0 := (hset.symm.trans (hother (by decide)).symm).trans hcleared
  exact absurd hkept (by decide)

end Sys2Proof.Machine
end

section
/-!
PROOFS. On-chip memory and completion records: what a write of bytes leaves of memory, of the full/empty bits and of everything else, and
what stands at the place of a record.
-/
namespace Sys2Proof.Machine

/-! ### Bytes and words -/

theorem byteAt_set (m : Tab Byte) (a x : Nat) (b : Byte) : byteAt (Tab.set 0 m a b) x = if x = a then b else byteAt m x :=
  Tab.get_set _ _ _ _ _

/-- A write of bytes is read back in its range; outside it the table is as before. -/
theorem byteAt_writeBytes (bs : List Byte) (m : Tab Byte) (a x : Nat) :
    byteAt (writeBytes m a bs) x = if a ≤ x ∧ x < a + bs.length then bs.getD (x - a) 0 else byteAt m x := by
  induction bs generalizing m a with
  | nil => rw [writeBytes, if_neg (by simp)]
  | cons b bs ih =>
    rw [writeBytes, ih, byteAt_set, List.length_cons]
    rcases Nat.lt_trichotomy x a with h | rfl | h
    · rw [if_neg (by omega), if_neg (by omega), if_neg (by omega)]
    · rw [if_neg (by omega), if_pos rfl, if_pos (by omega), Nat.sub_self, List.getD_cons_zero]
    · rw [if_neg (by omega : ¬ x = a)]
      obtain ⟨n, rfl⟩ : ∃ n, x = a + 1 + n := ⟨x - (a + 1), by omega⟩
      rw [show a + 1 + n - a = n + 1 by omega, List.getD_cons_succ, Nat.add_sub_cancel_left]
      exact if_congr (by omega) rfl rfl

theorem byteAt_writeBytes_outside {bs : List Byte} {m : Tab Byte} {a x : Nat} (h : ¬ (a ≤ x ∧ x < a + bs.length)) :
    byteAt (writeBytes m a bs) x = byteAt m x := by
  rw [byteAt_writeBytes, if_neg h]

theorem readBytes_writeBytes (bs : List Byte) (m : Tab Byte) (a : Nat) : readBytes (writeBytes m a bs) a bs.length = bs := by
  induction bs generalizing m a with
  | nil => rfl
  | cons b bs ih =>
    rw [List.length_cons, readBytes, byteAt_writeBytes, if_pos (by simp), Nat.sub_self, List.getD_cons_zero, writeBytes, ih]

theorem bytesLE_length (n v : Nat) : (bytesLE n v).length = n := by
  induction n generalizing v with
  | zero => rfl
  | succ n ih => rw [bytesLE, List.length_cons, ih]

theorem ofBytesLE_bytesLE (n v : Nat) : ofBytesLE (bytesLE n v) = v % 256 ^ n := by
  induction n generalizing v with
  | zero => simp [bytesLE, ofBytesLE, Nat.mod_one]
  | succ n ih =>
    have hsplit : v % 256 ^ (n + 1) = v % 256 + 256 * (v / 256 % 256 ^ n) := by rw [Nat.pow_succ', Nat.mod_mul]
    rw [hsplit, bytesLE, ofBytesLE, ih, BitVec.toNat_ofNat]

theorem mem_wordsOf {w da len : Nat} : w ∈ wordsOf da len ↔ len ≠ 0 ∧ da / 8 ≤ w ∧ w ≤ (da + len - 1) / 8 := by
  unfold wordsOf
  split
  · simp [*]
  · rename_i hlen
    simp only [List.mem_map, List.mem_range]
    refine ⟨fun ⟨k, hk, hw⟩ => by omega, fun ⟨_, hlo, hhi⟩ => ⟨w - da / 8, by omega, by omega⟩⟩

theorem mem_wholeWords {w da len : Nat} : w ∈ wholeWords da len ↔ da ≤ w * 8 ∧ w * 8 + 8 ≤ da + len := by
  simp only [wholeWords, List.mem_filter, mem_wordsOf, Bool.and_eq_true, decide_eq_true_eq]
  omega

/-! ### What a store of bytes leaves alone -/

/-- From `s` to `t`, nothing has changed but bytes and full/empty bits of on-chip memory and the credits of baton windows (R186). -/
structure StoreFrame (s t : State) : Prop where
  fields : ∀ (f : Fld) (i : Nat), i < 131072 → f.key ≠ F.HUR_WIN_CREDIT_CREDIT.key → t.rd f i = s.rd f i
  rest : t = { s with regs := t.regs, sram := t.sram, full := t.full }

theorem StoreFrame.refl (s : State) : StoreFrame s s := ⟨fun _ _ _ _ => rfl, rfl⟩

theorem StoreFrame.trans {s t u : State} (h : StoreFrame s t) (h' : StoreFrame t u) : StoreFrame s u where
  fields f i hi hf := (h'.fields f i hi hf).trans (h.fields f i hi hf)
  rest := h'.rest.trans (by rw [h.rest])

theorem StoreFrame.of_memory (s : State) (m : Tab Byte) (f : Tab Bool) : StoreFrame s { s with sram := m, full := f } :=
  ⟨fun _ _ _ _ => rfl, rfl⟩

theorem StoreFrame.foldl {α : Type} {f : State → α → State} {l : List α} (s : State)
    (h : ∀ t, ∀ a ∈ l, StoreFrame t (f t a)) : StoreFrame s (l.foldl f s) :=
  List.foldlRecOn l f (motive := StoreFrame s) (.refl s) fun t ht a ha => ht.trans (h t a ha)

section
variable {s t : State} (h : StoreFrame s t)
include h

theorem StoreFrame.tile : t.tile = s.tile := by rw [h.rest]
theorem StoreFrame.sync : t.sync = s.sync := by rw [h.rest]
theorem StoreFrame.mem : t.mem = s.mem := by rw [h.rest]
theorem StoreFrame.rst : t.rst = s.rst := by rw [h.rest]

end

theorem clusterOfDA_lt {da c : Nat} (h : clusterOfDA da = some c) : c < 32 := by
  unfold clusterOfDA regionOf at h
  split at h
  case h_3 => cases h
  all_goals
    rename_i hr
    cases h
    unfold scratchBase stagingBase at hr
    split_ifs at hr
    cases hr
    omega

theorem creditWindow_frame (s : State) (da len : Nat) {w : Nat} (hw : w < 131072) : StoreFrame s (creditWindow da len s w) := by
  unfold creditWindow
  simp only
  split
  · exact .refl s
  · exact ⟨fun f i hi hf => State.rd_wr_key _ _ hf hi hw, rfl⟩

theorem creditWindow_memory (s : State) (da len w : Nat) :
    (creditWindow da len s w).sram = s.sram ∧ (creditWindow da len s w).full = s.full := by
  unfold creditWindow
  simp only
  split <;> exact ⟨rfl, rfl⟩

theorem creditWindows_memory (s : State) (c da len : Nat) :
    (creditWindows s c da len).sram = s.sram ∧ (creditWindows s c da len).full = s.full :=
  List.foldlRecOn (List.range 64) _ (motive := fun t => t.sram = s.sram ∧ t.full = s.full) ⟨rfl, rfl⟩ fun t ht _ _ =>
    ⟨(creditWindow_memory t da len _).1.trans ht.1, (creditWindow_memory t da len _).2.trans ht.2⟩

section
variable (s : State) (da : Nat) (bs : List Byte)

theorem State.commit_frame : StoreFrame s (s.commit da bs) := by
  unfold State.commit
  simp only
  refine (StoreFrame.of_memory s (writeBytes s.sram da bs) s.full).trans ?_
  split
  · rename_i c hc
    have hlt := clusterOfDA_lt hc
    exact .foldl _ fun t w hw => creditWindow_frame t _ _ (by have := List.mem_range.1 hw; omega)
  · exact .refl _

@[simp] theorem State.commit_memory : (s.commit da bs).sram = writeBytes s.sram da bs ∧ (s.commit da bs).full = s.full := by
  unfold State.commit
  simp only
  split
  · exact creditWindows_memory _ _ _ _
  · exact ⟨rfl, rfl⟩

theorem State.fillWords_frame (ws : List Nat) : StoreFrame s (s.fillWords ws) :=
  StoreFrame.foldl s fun t w _ => StoreFrame.of_memory t t.sram (t.setFull w true).full

@[simp] theorem State.fillWords_sram (ws : List Nat) : (s.fillWords ws).sram = s.sram :=
  List.foldlRecOn ws _ (motive := fun t : State => t.sram = s.sram) rfl fun _ ht _ _ => ht

theorem State.isFull_setFull (w x : Nat) (v : Bool) : (s.setFull w v).isFull x = if x = w then v else s.isFull x :=
  Tab.get_set _ _ _ _ _

theorem State.isFull_fillWords (ws : List Nat) (x : Nat) : (s.fillWords ws).isFull x = true ↔ x ∈ ws ∨ s.isFull x = true := by
  unfold State.fillWords
  induction ws generalizing s with
  | nil => simp
  | cons w ws ih =>
    rw [List.foldl_cons, ih, State.isFull_setFull, List.mem_cons]
    by_cases hx : x = w <;> simp [hx]

theorem State.storePlain_frame : StoreFrame s (s.storePlain da bs) := (s.commit_frame da bs).trans (State.fillWords_frame _ _)

@[simp] theorem State.storePlain_sram : (s.storePlain da bs).sram = writeBytes s.sram da bs := by simp [State.storePlain]

theorem State.isFull_of_full {s t : State} (h : t.full = s.full) (x : Nat) : t.isFull x = s.isFull x := by rw [State.isFull, h, State.isFull]

theorem State.isFull_storePlain (x : Nat) :
    (s.storePlain da bs).isFull x = true ↔ (da ≤ x * 8 ∧ x * 8 + 8 ≤ da + bs.length) ∨ s.isFull x = true := by
  rw [State.storePlain, State.isFull_fillWords, mem_wholeWords, State.isFull_of_full (s.commit_memory da bs).2]

variable (o : OutWrite)

theorem State.storeOut_frame : StoreFrame s (s.storeOut o) := by
  unfold State.storeOut
  simp only
  split
  · exact (s.storePlain_frame _ _).trans (State.fillWords_frame _ _)
  · exact s.storePlain_frame _ _

@[simp] theorem State.storeOut_sram : (s.storeOut o).sram = writeBytes s.sram o.da o.bytes := by
  unfold State.storeOut
  simp only
  split <;> simp

/-- An output write sets full the words that it covers. -/
theorem State.isFull_storeOut {x : Nat} (hx : x ∈ wholeWords o.da o.bytes.length) : (s.storeOut o).isFull x = true := by
  have hplain : (s.storePlain o.da o.bytes).isFull x = true := (s.isFull_storePlain _ _ x).2 (.inl (mem_wholeWords.1 hx))
  unfold State.storeOut
  simp only
  split
  · exact (State.isFull_fillWords _ _ _).2 (.inr hplain)
  · exact hplain

end

/-! ### Completion records (R78, R81) -/

/-- From `s` to `t`, a record whose first word is `first` has come to stand at `da`: its eight words are full, and no byte outside them
has changed. -/
structure Recorded (s t : State) (da first : Nat) : Prop where
  word : t.word (da / 8) = first % 2 ^ 64
  full : ∀ k, k < 8 → t.isFull (da / 8 + k) = true
  bytes : SameBytes s t da 64

theorem Recorded.congr {s s' t t' : State} {da first : Nat} (h : Recorded s t da first) (hs : s'.sram = s.sram)
    (hsram : t'.sram = t.sram) (hfull : t'.full = t.full) : Recorded s' t' da first where
  word := by simpa [State.word, hsram] using h.word
  full k hk := (State.isFull_of_full hfull _).trans (h.full k hk)
  bytes a ha := by rw [hsram, hs]; exact h.bytes a ha

section
variable (s : State) (da v : Nat)

theorem State.storeWord_frame : StoreFrame s (s.storeWord da v) := s.storePlain_frame da _

theorem State.isFull_storeWord (x : Nat) : (s.storeWord da v).isFull x = true ↔ x * 8 = da ∨ s.isFull x = true := by
  rw [State.storeWord, State.isFull_storePlain, bytesLE_length]
  exact or_congr (by omega) Iff.rfl

theorem byteAt_storeWord_outside {x : Nat} (hx : ¬ (da ≤ x ∧ x < da + 8)) : byteAt (s.storeWord da v).sram x = byteAt s.sram x := by
  rw [State.storeWord, State.storePlain_sram, byteAt_writeBytes_outside (by rwa [bytesLE_length])]

theorem State.word_storeWord (h : da % 8 = 0) : (s.storeWord da v).word (da / 8) = v % 2 ^ 64 := by
  have hread : readBytes (s.storeWord da v).sram da 8 = bytesLE 8 v := by
    have := readBytes_writeBytes (bytesLE 8 v) s.sram da
    rwa [bytesLE_length, ← State.storePlain_sram] at this
  rw [State.word, Nat.div_mul_cancel (Nat.dvd_of_mod_eq_zero h), readNat, hread, ofBytesLE_bytesLE]
  rfl

/-- The words of a record behind its first one. -/
def writeTail (s : State) (da : Nat) (ws : List Nat) (l : List Nat) : State :=
  l.foldl (fun s k => s.storeWord (da + (k + 1) * 8) (ws.getD (k + 1) 0)) s

variable (ws : List Nat)

theorem writeRecord_eq : writeRecord s da ws = (writeTail s da ws (List.range 7)).storeWord da (ws.getD 0 0) := rfl

theorem writeTail_frame (l : List Nat) : StoreFrame s (writeTail s da ws l) := .foldl s fun t _ _ => t.storeWord_frame _ _

theorem writeTail_bytes {l : List Nat} (hl : ∀ k ∈ l, k < 7) : SameBytes s (writeTail s da ws l) da 64 :=
  List.foldlRecOn l _ (motive := fun t => SameBytes s t da 64) (fun _ _ => rfl) fun t ht k hk a ha =>
    (byteAt_storeWord_outside t _ _ (by have := hl k hk; omega)).trans (ht a ha)

theorem isFull_writeTail (l : List Nat) (x : Nat) (h : s.isFull x = true ∨ ∃ k ∈ l, x * 8 = da + (k + 1) * 8) :
    (writeTail s da ws l).isFull x = true := by
  unfold writeTail
  induction l generalizing s with
  | nil => simpa using h
  | cons k l ih =>
    rw [List.foldl_cons]
    refine ih _ ?_
    rw [State.isFull_storeWord]
    simp only [List.mem_cons, exists_eq_or_imp] at h
    tauto

theorem writeRecord_frame : StoreFrame s (writeRecord s da ws) := (writeTail_frame s da ws _).trans (State.storeWord_frame _ _ _)

theorem writeRecord_recorded (h : da % 8 = 0) : Recorded s (writeRecord s da ws) da (ws.getD 0 0) where
  word := State.word_storeWord _ _ _ h
  full k hk := by
    rw [writeRecord_eq, State.isFull_storeWord]
    rcases Nat.eq_zero_or_pos k with rfl | hpos
    · exact .inl (by omega)
    · refine .inr (isFull_writeTail _ _ _ _ _ (.inr ⟨k - 1, List.mem_range.2 (by omega), by omega⟩))
  bytes a ha := by
    rw [writeRecord_eq, byteAt_storeWord_outside _ _ _ (by omega)]
    exact writeTail_bytes s da ws (fun k hk => List.mem_range.1 hk) a ha

end

/-- The first word of a record: status and operation in its low half-word, the TAG field in its upper half. -/
theorem recordWords_first (h : RecHead) (c : OpCounts) (nb kind w5 : Nat) (hs : h.status < 2 ^ 8) (ho : h.op < 2 ^ 8) :
    let w := (recordWords h c nb kind w5).getD 0 0 % 2 ^ 64
    bits w 0 16 = h.status + h.op * 2 ^ 8 ∧ bits w 0 8 = h.status ∧ bits w 8 8 = h.op ∧ bits w 32 32 = h.tag % 2 ^ 32 := by
  have hb : ∀ b, b2n b < 2 := by decide
  have hexact := hb h.exact
  have hsr := hb h.sr
  have hstop := hb ([c.sat, c.flushed, c.invalid, c.winLoss, c.zeroBlk, c.esc, c.nanOut].any cntStopped)
  simp only [recordWords, List.getD_cons_zero, bits]
  generalize b2n h.exact = x at *
  generalize b2n h.sr = y at *
  generalize b2n _ = z at *
  omega

theorem recTag_lt (word queue : Nat) : recTag word queue < 2 ^ 32 := by unfold recTag wTAG bits; omega

end Sys2Proof.Machine
end

section
/-!
PROOFS. The work of a unit on its registers, its memory and its queue of waiters: what it leaves alone, and the beats of a matrix
engine's fold, which go on with the same instruction.
-/
namespace Sys2Proof.Machine

/-! ### The frame of a unit's work -/

/-- From `s` to `t`, a unit has worked: of the register fields only those in `l` have changed, in whatever unit, and no loop stack, S
register, block reset or memory off the chip. -/
structure UnitFrame (l : List Fld) (s t : State) : Prop where
  fields : ∀ (f : Fld) (i : Nat), i < 131072 → (∀ g ∈ l, g.key ≠ f.key) → t.rd f i = s.rd f i
  loops : t.tile.loops = s.tile.loops
  sregs : t.tile.sregs = s.tile.sregs
  rst : t.rst = s.rst
  staged : t.sync.staged = s.sync.staged
  mem : t.mem = s.mem

namespace UnitFrame

variable {l m : List Fld} {s t u : State}

theorem refl (l : List Fld) (s : State) : UnitFrame l s s := ⟨fun _ _ _ _ => rfl, rfl, rfl, rfl, rfl, rfl⟩

theorem trans (h : UnitFrame l s t) (h' : UnitFrame l t u) : UnitFrame l s u where
  fields f i hi hf := (h'.fields f i hi hf).trans (h.fields f i hi hf)
  loops := h'.loops.trans h.loops
  sregs := h'.sregs.trans h.sregs
  rst := h'.rst.trans h.rst
  staged := h'.staged.trans h.staged
  mem := h'.mem.trans h.mem

theorem mono (h : UnitFrame l s t) (hm : l ⊆ m) : UnitFrame m s t :=
  { h with fields := fun f i hi hf => h.fields f i hi fun g hg => hf g (hm hg) }

theorem of_store (h : StoreFrame s t) (hl : F.HUR_WIN_CREDIT_CREDIT ∈ l) : UnitFrame l s t where
  fields f i hi hf := h.fields f i hi (hf _ hl).symm
  loops := by rw [h.tile]
  sregs := by rw [h.tile]
  rst := h.rst
  staged := by rw [h.sync]
  mem := h.mem

theorem wr (s : State) {f : Fld} {i : Nat} (v : Nat) (hi : i < 131072) (hf : f ∈ l) : UnitFrame l s (s.wr f i v) :=
  ⟨fun _ _ hj hg => State.rd_wr_key _ _ (hg _ hf).symm hj hi, rfl, rfl, rfl, rfl, rfl⟩

theorem wrIf (s : State) (c : Bool) {f : Fld} {i : Nat} (v : Nat) (hi : i < 131072) (hf : f ∈ l) : UnitFrame l s (s.wrIf c f i v) := by
  unfold State.wrIf
  split
  · exact wr s v hi hf
  · exact refl l s

theorem bump (s : State) {c : Cnt} {i : Nat} (n : Nat) (hi : i < 131072) (hc : c.fld ∈ l) (hw : c.wrapFld ∈ l) :
    UnitFrame l s (s.bump c i n) where
  fields f j hj hf := State.rd_bump_other _ _ _ _ _ _ hi hj (.inl (hf _ hc).symm) (.inl (hf _ hw).symm)
  loops := by simp
  sregs := by simp
  rst := by simp
  staged := by simp
  mem := by simp

theorem foldl {α : Type} {f : State → α → State} {as : List α} (s : State) (h : ∀ t, ∀ a ∈ as, UnitFrame l t (f t a)) :
    UnitFrame l s (as.foldl f s) :=
  List.foldlRecOn as f (motive := UnitFrame l s) (refl l s) fun t ht a ha => ht.trans (h t a ha)

theorem setEng (s : State) (e : Nat) (g : Engine) : UnitFrame l s (s.setEng e g) := ⟨fun _ _ _ _ => rfl, rfl, rfl, rfl, rfl, rfl⟩
theorem setRun (s : State) (e : Nat) (r : MxRun) : UnitFrame l s (s.setRun e r) := ⟨fun _ _ _ _ => rfl, rfl, rfl, rfl, rfl, rfl⟩
theorem setConv (s : State) (k : Nat) (o : Option ConvOp) : UnitFrame l s (s.setConv k o) :=
  ⟨fun _ _ _ _ => rfl, rfl, rfl, rfl, rfl, rfl⟩
theorem setSlot (s : State) (k i : Nat) (h : HistSlot) : UnitFrame l s (s.setSlot k i h) :=
  ⟨fun _ _ _ _ => rfl, rfl, rfl, rfl, rfl, rfl⟩
theorem addWaiter (s : State) (w : Waiter) : UnitFrame l s (s.addWaiter w) := ⟨fun _ _ _ _ => rfl, rfl, rfl, rfl, rfl, rfl⟩
theorem dropWaiter (s : State) (who : Agent) (ws : List Nat) : UnitFrame l s (s.dropWaiter who ws) :=
  ⟨fun _ _ _ _ => rfl, rfl, rfl, rfl, rfl, rfl⟩
theorem dropWaiters (s : State) (who : Agent) : UnitFrame l s (s.dropWaiters who) := ⟨fun _ _ _ _ => rfl, rfl, rfl, rfl, rfl, rfl⟩
theorem emit (s : State) (o : Out) : UnitFrame l s (s.emit o) := ⟨fun _ _ _ _ => rfl, rfl, rfl, rfl, rfl, rfl⟩
theorem fresh (s : State) : UnitFrame l s s.fresh.2 := ⟨fun _ _ _ _ => rfl, rfl, rfl, rfl, rfl, rfl⟩

theorem on (h : UnitFrame l s t) {f : Fld} {i : Nat} (hi : i < 131072) (hf : ∀ g ∈ l, g.key ≠ f.key) : t.on f i = s.on f i := by
  rw [State.on, h.fields f i hi hf, State.on]

end UnitFrame

/-! ### Memory that answers -/

theorem padDown_congr {s t : State} (h : t.rst = s.rst) (da : Nat) : padDown t da = padDown s da := by
  have hin : ∀ kind i, t.inReset kind i = s.inReset kind i := fun _ _ => by rw [State.inReset, h, State.inReset]
  simp only [padDown, State.coreDown, State.clusterDown, State.quarterDown, hin]

theorem regionOf_scratch_lt {da k : Nat} (h : regionOf da = .scratch k) : k < 512 := by
  unfold regionOf scratchBase at h
  split_ifs at h
  cases h
  omega

theorem UnitFrame.padBusy {l : List Fld} {s t : State} (h : UnitFrame l s t) (hl : ∀ g ∈ l, g.key ≠ F.VEC_STATUS_SPAD_INIT.key)
    (da : Nat) : padBusy t da = padBusy s da := by
  unfold Machine.padBusy
  split
  · rename_i k hk
    exact h.on (by have := regionOf_scratch_lt hk; omega) hl
  · rw [h.staged]
  · rfl

theorem UnitFrame.wordsReadable {l : List Fld} {s t : State} (h : UnitFrame l s t) (hl : ∀ g ∈ l, g.key ≠ F.VEC_STATUS_SPAD_INIT.key)
    (hfull : t.full = s.full) (ws : List Nat) : wordsReadable t ws = wordsReadable s ws := by
  simp only [Machine.wordsReadable, State.isFull_of_full hfull, h.padBusy hl, padDown_congr h.rst]

/-- A write that needs no empty word may be made whatever the unit has done. -/
theorem UnitFrame.outReady {l : List Fld} {s t : State} (h : UnitFrame l s t) (hl : ∀ g ∈ l, g.key ≠ F.VEC_STATUS_SPAD_INIT.key)
    (who : Agent) (o : OutWrite) : outReady t who false o = outReady s who false o := by
  simp only [Machine.outReady, Bool.not_false, Bool.true_or, Bool.and_true, h.padBusy hl, padDown_congr h.rst]

/-! ### The queue after a unit's work -/

/-- The issuing queue is finished with a head whose work has touched neither its PC nor the count of issued instructions. -/
theorem UnitFrame.finished {l : List Fld} {s u : State} {q : Nat} (hq : q < 4096) (h : UnitFrame l (s.countIssue q) u)
    (hpc : ∀ g ∈ l, g.key ≠ F.VEC_Q_PC_PC.key) (hcnt : ∀ g ∈ l, g.key ≠ F.VEC_ISSUE_CNT_COUNT.key) : Finished s (u.doneHead q) q := by
  have hcore : coreOfQueue q < 131072 := by unfold coreOfQueue; omega
  refine Finished.of_doneHead hq ?_ ?_ ?_
  · refine (h.fields _ _ (by omega) hpc).trans ?_
    exact State.rd_bump_other _ _ _ _ _ _ hcore (by omega) (.inl (by decide)) (.inl (by decide))
  · exact h.loops.trans (by simp [State.countIssue])
  · exact (h.fields _ _ hcore hcnt).trans (countIssue_rd s q hq)

theorem countIssue_frame (s : State) {q : Nat} (hq : q < 4096) :
    UnitFrame [F.VEC_ISSUE_CNT_COUNT, F.VEC_WRAP_ISSUE] s (s.countIssue q) :=
  .bump s (c := C.VEC_ISSUE_CNT) (i := coreOfQueue q) 1 (by unfold coreOfQueue; omega) (by decide) (by decide)

theorem countIssue_memory (s : State) (q : Nat) : (s.countIssue q).sram = s.sram ∧ (s.countIssue q).full = s.full := by
  simp [State.countIssue]

theorem countIssue_tile (s : State) (q : Nat) : (s.countIssue q).tile = s.tile := State.bump_tile _ _ _ _

/-- What a queue whose head is held shows: WAIT and its reason, at the same PC. -/
theorem holdHead_shows (s : State) {q c : Nat} (h : HeadWait) (hq : q < 4096) (hc : c < 16) :
    (s.holdHead q c h).qState q = qWAIT ∧ (s.holdHead q c h).rd F.VEC_Q_STAT_WAIT_ON q = c ∧ (s.holdHead q c h).qPC q = s.qPC q := by
  have hq' : q < 131072 := by omega
  simp only [State.holdHead, State.qState, State.qPC, State.setHead_rd, State.rd_wr_same]
  refine ⟨?_, Nat.mod_eq_of_lt hc, ?_⟩
  · rw [State.rd_wr_key _ _ (by decide) hq' hq', State.rd_wr_same]; rfl
  · rw [State.rd_wr_key _ _ (by decide) hq' hq', State.rd_wr_key _ _ (by decide) hq' hq']

/-! ### Engines -/

theorem State.eng_setEng (s : State) (e j : Nat) (g : Engine) : (s.setEng e g).eng j = if j = e then g else s.eng j := Tab.get_set _ _ _ _ _

@[simp] theorem State.eng_setEng_same (s : State) (e : Nat) (g : Engine) : (s.setEng e g).eng e = g := Tab.get_set_same _ _ _ _

@[simp] theorem State.wr_eng (s : State) (f : Fld) (i v e : Nat) : (s.wr f i v).eng e = s.eng e := rfl

theorem State.eng_of_tile {s t : State} (h : t.tile.engines = s.tile.engines) (e : Nat) : t.eng e = s.eng e := by
  rw [State.eng, h, State.eng]

@[simp] theorem State.bump_eng (s : State) (c : Cnt) (i n e : Nat) : (s.bump c i n).eng e = s.eng e := State.eng_of_tile (by simp) e

@[simp] theorem Engine.putSet_cur (g : Engine) (i : Nat) (w : WSet) : (g.putSet i w).cur = g.cur := by unfold Engine.putSet; split <;> rfl
@[simp] theorem Engine.putSet_staged (g : Engine) (i : Nat) (w : WSet) : (g.putSet i w).staged = g.staged := by
  unfold Engine.putSet; split <;> rfl
@[simp] theorem Engine.putSet_ending (g : Engine) (i : Nat) (w : WSet) : (g.putSet i w).ending = g.ending := by
  unfold Engine.putSet; split <;> rfl

/-- Every engine holds the same instructions in `t` as in `s`. -/
def SameInstrs (s t : State) : Prop :=
  ∀ e, (t.eng e).cur = (s.eng e).cur ∧ (t.eng e).staged = (s.eng e).staged ∧ (t.eng e).ending = (s.eng e).ending

theorem SameInstrs.trans {s t u : State} (h : SameInstrs s t) (h' : SameInstrs t u) : SameInstrs s u := fun e =>
  ⟨(h' e).1.trans (h e).1, (h' e).2.1.trans (h e).2.1, (h' e).2.2.trans (h e).2.2⟩

theorem SameInstrs.of_engines {s t : State} (h : t.tile.engines = s.tile.engines) : SameInstrs s t := fun e => by
  simp only [State.eng_of_tile h, and_self]

theorem SameInstrs.setEng {s : State} {e : Nat} {g : Engine} (hc : g.cur = (s.eng e).cur) (hs : g.staged = (s.eng e).staged)
    (he : g.ending = (s.eng e).ending) : SameInstrs s (s.setEng e g) := fun j => by
  rw [State.eng_setEng]
  split
  · rename_i h; subst h; exact ⟨hc, hs, he⟩
  · exact ⟨rfl, rfl, rfl⟩

theorem SameInstrs.putSet (s : State) (e i : Nat) (w : WSet) : SameInstrs s (s.setEng e ((s.eng e).putSet i w)) :=
  .setEng (by simp) (by simp) (by simp)

/-! ### The output path -/

/-- Writes of a row leave the tile's own state alone, and of the register fields change only the credits of windows. -/
theorem putWords_frame (s : State) (who : Agent) (dwait : Bool) (ws : List OutWrite) :
    UnitFrame [F.HUR_WIN_CREDIT_CREDIT] s (putWords s who dwait ws).1 ∧ (putWords s who dwait ws).1.tile = s.tile := by
  induction ws generalizing s with
  | nil => exact ⟨.refl _ s, rfl⟩
  | cons o ws ih =>
    rw [putWords]
    split
    · have hstore := s.storeOut_frame o
      obtain ⟨hframe, htile⟩ := ih (s.storeOut o)
      exact ⟨(UnitFrame.of_store hstore (by simp)).trans hframe, htile.trans hstore.tile⟩
    · dsimp only
      split
      · obtain ⟨hframe, htile⟩ := ih (s.addWaiter ⟨who, 1, true, wordsOf o.da o.bytes.length⟩)
        exact ⟨(UnitFrame.addWaiter s _).trans hframe, htile⟩
      · exact ih s

/-- Without sync mode every write that memory admits is made. -/
theorem putWords_all {s : State} {who : Agent} {ws : List OutWrite} (h : ws.all (outReady s who false) = true) :
    (putWords s who false ws).2 = [] := by
  induction ws generalizing s with
  | nil => rfl
  | cons o ws ih =>
    obtain ⟨ho, hws⟩ := Bool.and_eq_true_iff.1 (List.all_cons.symm.trans h)
    have hframe : UnitFrame [F.HUR_WIN_CREDIT_CREDIT] s (s.storeOut o) := .of_store (s.storeOut_frame o) (by simp)
    rw [putWords, if_pos ho]
    have hsame : outReady (s.storeOut o) who false = outReady s who false := funext (hframe.outReady (by decide) who)
    exact ih (hsame ▸ hws)

/-! ### The fold -/

/-- The register fields that the beats of a fold change. -/
def foldFields : List Fld :=
  [F.MXE_PASS_CNT_COUNT, F.MXE_WRAP_PASS, F.MXE_PROD_CNT_COUNT, F.MXE_WRAP_PROD, F.MXE_SWAP_STALL_CNT_COUNT, F.MXE_WRAP_SWAP_STALL,
   F.QNT_TABLE_STALL_CNT_COUNT, F.QNT_WRAP_TABLE_STALL, F.MXE_STATUS_ACTIVE_SET, F.MXE_POS_KB, F.MXE_POS_NB, F.MXE_POS_M_ROW,
   F.MXE_CTRL_PREEMPT, F.HUR_WIN_CREDIT_CREDIT]

/-- A part of a fold has taken the state and the run of an instruction from `s` and `r` to `t` and `r'`: it is the same instruction from the
same start, and every engine still holds what it held. -/
structure FoldFrame (s : State) (r : MxRun) (t : State) (r' : MxRun) : Prop where
  frame : UnitFrame foldFields s t
  held : SameInstrs s t
  ins : r'.ins = r.ins
  start : r'.nbStart = r.nbStart

namespace FoldFrame

variable {s t u : State} {r r' r'' : MxRun}

theorem refl (s : State) (r : MxRun) : FoldFrame s r s r := ⟨.refl _ s, .of_engines rfl, rfl, rfl⟩

theorem trans (h : FoldFrame s r t r') (h' : FoldFrame t r' u r'') : FoldFrame s r u r'' :=
  ⟨h.frame.trans h'.frame, h.held.trans h'.held, h'.ins.trans h.ins, h'.start.trans h.start⟩

/-- The run goes on with other progress. -/
theorem run (h : FoldFrame s r t r') (hi : r''.ins = r'.ins) (hs : r''.nbStart = r'.nbStart) : FoldFrame s r t r'' :=
  { h with ins := hi.trans h.ins, start := hs.trans h.start }

/-- A part of a fold that began with other progress of the same instruction. -/
theorem of_run (h : FoldFrame s r' t r'') (hi : r'.ins = r.ins) (hs : r'.nbStart = r.nbStart) : FoldFrame s r t r'' :=
  { h with ins := h.ins.trans hi, start := h.start.trans hs }

/-- The state goes on without an engine being touched. -/
theorem state (h : FoldFrame s r t r') (hf : UnitFrame foldFields t u) (ht : u.tile = t.tile) : FoldFrame s r u r' :=
  { h with frame := h.frame.trans hf, held := h.held.trans (.of_engines (by rw [ht])) }

end FoldFrame

theorem putWords_fold (s : State) (who : Agent) (dwait : Bool) (ws : List OutWrite) (r : MxRun) :
    FoldFrame s r (putWords s who dwait ws).1 r :=
  (FoldFrame.refl s r).state ((putWords_frame s who dwait ws).1.mono (by decide)) (putWords_frame s who dwait ws).2

theorem handRow_fold (s : State) (e : Nat) (r : MxRun) (dwait : Bool) (ws : List OutWrite) :
    FoldFrame s r (handRow s e r dwait ws).1 (handRow s e r dwait ws).2 :=
  (putWords_fold s _ _ _ r).run rfl rfl

theorem finishRow_fold (s : State) (e : Nat) (r : MxRun) (m : Nat) (els : List Elem) :
    FoldFrame s r (finishRow s e r m els).1 (finishRow s e r m els).2 := by
  unfold finishRow
  extract_lets p losses inv f oc r₁ d xs last bs r₂ x used z evs used2
  split
  · exact .of_run (handRow_fold _ _ _ _ _) rfl rfl
  · split
    · refine (putWords_fold s _ _ _ r).run ?_ ?_ <;> split <;> rfl
    · exact .of_run (handRow_fold _ _ _ _ _) rfl rfl

theorem MxRun.putBank_ins (r : MxRun) (nb : Nat) (t : Tab Elem) : (r.putBank nb t).ins = r.ins ∧ (r.putBank nb t).nbStart = r.nbStart := by
  unfold MxRun.putBank; split <;> exact ⟨rfl, rfl⟩

theorem takeChunk_ins (m : Tab Byte) (r : MxRun) : (takeChunk m r).ins = r.ins ∧ (takeChunk m r).nbStart = r.nbStart := by
  unfold takeChunk; split <;> exact ⟨rfl, rfl⟩

section
variable {e : Nat} (he : e < 2048)
include he

theorem feedRow_fold (s : State) (r : MxRun) : FoldFrame s r (feedRow s e r).1 (feedRow s e r).2 := by
  unfold feedRow
  extract_lets p k0 as escs lanes weight bank one res first blks zeroA zeroB src cnt s₁ last bank' src₁ r₁ x src₂ r₂
  have hcount : UnitFrame foldFields s s₁ :=
    (UnitFrame.bump s (c := C.MXE_PROD_CNT) (i := e) _ (by omega) (by decide) (by decide)).trans (.wr _ _ (by omega) (by decide))
  obtain ⟨hins, hstart⟩ : r₁.ins = r.ins ∧ r₁.nbStart = r.nbStart := MxRun.putBank_ins r _ _
  have hrow : FoldFrame s r s₁ r₁ := ((FoldFrame.refl s r).state hcount (by simp [s₁])).run hins hstart
  have hx : FoldFrame s r x.1 x.2 := by
    simp only [x]
    split
    · exact hrow.trans (finishRow_fold _ _ _ _ _)
    · exact hrow
  have hnext : FoldFrame s r x.1 r₂ := hx.run rfl rfl
  split
  · exact hnext
  split
  · exact hnext.run rfl rfl
  split
  · exact hnext.run rfl rfl
  · exact (hnext.state (.wr _ _ (by omega) (by decide)) rfl).run rfl rfl

theorem swapIn_fold (s : State) (r : MxRun) : FoldFrame s r (swapIn s e r).1 (swapIn s e r).2 := by
  have hset : FoldFrame s r (s.setEng e ((s.eng e).putSet (activeSet s e) { (s.eng e).wset (activeSet s e) with rows := 0 })) r :=
    ⟨.setEng _ _ _, .putSet s e _ _, rfl, rfl⟩
  have hpass := hset.state (.bump _ (c := C.MXE_PASS_CNT) (i := e) 1 (by omega) (by decide) (by decide)) (by simp)
  have hregs := ((hpass.state (.wr _ (f := F.MXE_STATUS_ACTIVE_SET) (i := e) (1 - activeSet s e) (by omega) (by decide)) rfl).state
    (.wr _ (f := F.MXE_POS_KB) (i := e) r.kb (by omega) (by decide)) rfl).state
    (.wr _ (f := F.MXE_POS_NB) (i := e) r.nb (by omega) (by decide)) rfl
  refine hregs.run ?_ ?_ <;> unfold swapIn <;> dsimp only <;> split <;> rfl

theorem stallBeat_frame (s : State) (r : MxRun) : UnitFrame foldFields s (stallBeat s e r) ∧ (stallBeat s e r).tile = s.tile := by
  unfold stallBeat
  split
  · extract_lets s₁
    have hswap : UnitFrame foldFields s s₁ ∧ s₁.tile = s.tile := by
      simp only [s₁]
      split
      · exact ⟨.bump s 1 (by omega) (by decide) (by decide), by simp⟩
      · exact ⟨.refl _ s, rfl⟩
    split
    · exact ⟨hswap.1.trans (.bump _ 1 (by omega) (by decide) (by decide)), by simpa using hswap.2⟩
    · exact hswap
  · exact ⟨.refl _ s, rfl⟩

theorem beat_fold (s : State) (r : MxRun) : FoldFrame s r (beat s e r).1 (beat s e r).2 := by
  unfold beat
  extract_lets feed stalled sh loaded y src x src'
  obtain ⟨hstall, htile⟩ := stallBeat_frame he s r
  obtain ⟨hins, hstart⟩ := takeChunk_ins s.sram r
  have hidle : FoldFrame s r stalled (takeChunk s.sram r) := ((FoldFrame.refl s r).state hstall htile).run hins hstart
  have hloaded : FoldFrame s r loaded.1 loaded.2 := by
    simp only [loaded]
    split
    · refine hidle.trans ⟨.setEng _ _ _, ?_, rfl, rfl⟩
      rw [← State.eng_of_tile (s := s) (t := stalled) (by rw [htile]) e]
      exact .putSet _ _ _ _
    · exact hidle
  have hx : FoldFrame s r x.1 x.2 := by
    simp only [x]
    split
    · refine .trans ?_ (feedRow_fold he _ _)
      simp only [y]
      split
      · exact hloaded.trans (swapIn_fold he _ _)
      · exact hloaded
    · exact hloaded.run rfl rfl
  exact hx.run rfl rfl

theorem foldStep_fold (s : State) (r : MxRun) : FoldFrame s r (foldStep s e r).1 (foldStep s e r).2.1 := by
  have hheld : ∀ h, FoldFrame s r s { r with hold := h } := fun h => (FoldFrame.refl s r).run rfl rfl
  unfold foldStep
  extract_lets p held x
  split
  · exact .refl s r
  split
  · exact hheld _
  split
  · exact hheld _
  split
  · exact hheld _
  split
  · exact hheld _
  · exact .of_run (beat_fold he s _) rfl rfl

/-- However many beats a fold takes, it goes on with the same instruction. -/
theorem foldRun_fold (n : Nat) (s : State) (r : MxRun) : FoldFrame s r (foldRun n s e r).1 (foldRun n s e r).2 := by
  induction n generalizing s r with
  | zero => exact .refl s r
  | succ n ih =>
    rw [foldRun]
    split
    · exact (foldStep_fold he s r).trans (ih _ _)
    · exact foldStep_fold he s r

end

end Sys2Proof.Machine
end

section
/-!
PROOFS. The matrix engines: records, an instruction that ends, one that begins or goes on, and what MATMUL at the head of a queue does.
-/
namespace Sys2Proof.Machine

/-! ### The record of an engine's instruction (R52, R78, R81) -/

/-- The register fields that the writing of an engine's record changes. -/
def recordFields : List Fld := [F.MXE_INSTR_CNT_COUNT, F.MXE_WRAP_INSTR, F.MXE_LAST_REC_DA, F.HUR_WIN_CREDIT_CREDIT]

theorem putRecord_engine {s : State} {c q e da : Nat} {ws : List Nat} (hp : recordPlace c da = true) (hd : padDown s da = false)
    (hb : padBusy s da = false) :
    putRecord s c q (some e) da ws = ((writeRecord s da ws).wr F.MXE_LAST_REC_DA e da, false) := by
  simp [putRecord, hp, hd, hb]

theorem putRecord_core {s : State} {c q da : Nat} {ws : List Nat} (hp : recordPlace c da = true) (hd : padDown s da = false)
    (hb : padBusy s da = false) : putRecord s c q none da ws = (writeRecord s da ws, false) := by
  simp [putRecord, hp, hd, hb]

theorem recordPlace_aligned {c da : Nat} (h : recordPlace c da = true) : da % 8 = 0 := by
  simp only [recordPlace, Bool.and_eq_true, decide_eq_true_eq] at h
  exact h.2

/-- From `s` to `t`, engine `e` has written the record of instruction `i`, with status `status`. -/
structure EngineRecorded (s t : State) (e : Nat) (i : OpIns) (status : Nat) : Prop where
  frame : UnitFrame recordFields s t
  tile : t.tile = s.tile
  place : t.rd F.MXE_LAST_REC_DA e = i.recDA % 2 ^ 48
  counted : t.rd F.MXE_INSTR_CNT_COUNT e = (s.rd F.MXE_INSTR_CNT_COUNT e + 1) % 2 ^ 64
  status : bits (t.word (i.recDA / 8)) 0 16 = 0x100 + status
  tag : bits (t.word (i.recDA / 8)) 32 32 = recTag i.word i.queue
  full : ∀ k, k < 8 → t.isFull (i.recDA / 8 + k) = true
  bytes : SameBytes s t i.recDA 64

/-- The low half-word and the TAG field of an engine's record. -/
theorem mxHead_first (i : OpIns) {status : Nat} (exact : Bool) (desc : List Nat) (c : OpCounts) (nb kind w5 : Nat) (hs : status < 2 ^ 8) :
    let w := (recordWords (mxHead i status exact desc) c nb kind w5).getD 0 0 % 2 ^ 64
    bits w 0 16 = 0x100 + status ∧ bits w 32 32 = recTag i.word i.queue := by
  have hop : (mxHead i status exact desc).op = 1 := rfl
  have hstatus : (mxHead i status exact desc).status = status := rfl
  have htag : (mxHead i status exact desc).tag = recTag i.word i.queue := rfl
  obtain ⟨hlow, -, -, hhigh⟩ := recordWords_first (mxHead i status exact desc) c nb kind w5 (by rwa [hstatus]) (by rw [hop]; decide)
  rw [hop, hstatus] at hlow
  rw [htag, Nat.mod_eq_of_lt (recTag_lt _ _)] at hhigh
  exact ⟨hlow.trans (by omega), hhigh⟩

theorem mxRecord_recorded {s : State} {e : Nat} {i : OpIns} {status : Nat} (exact : Bool) (desc : List Nat) (c : OpCounts) (nb kind w5 : Nat)
    (hs : status < 2 ^ 8) (he : e < 2048) (hp : recordPlace (clusterOfCore (e / 4)) i.recDA = true) (hd : padDown s i.recDA = false)
    (hb : padBusy s i.recDA = false) :
    EngineRecorded s (mxRecord s e i (recordWords (mxHead i status exact desc) c nb kind w5)) e i status := by
  obtain ⟨hstatus, htag⟩ := mxHead_first i exact desc c nb kind w5 hs
  generalize recordWords (mxHead i status exact desc) c nb kind w5 = ws at *
  have he' : e < 131072 := by omega
  have hcount : UnitFrame recordFields s (s.bump C.MXE_INSTR_CNT e 1) := .bump s 1 he' (by decide) (by decide)
  have hstore := writeRecord_frame (s.bump C.MXE_INSTR_CNT e 1) i.recDA ws
  have hrec := (writeRecord_recorded (s.bump C.MXE_INSTR_CNT e 1) i.recDA ws (recordPlace_aligned hp)).congr (s' := s) (by simp) rfl rfl
  have heq : mxRecord s e i ws = (writeRecord (s.bump C.MXE_INSTR_CNT e 1) i.recDA ws).wr F.MXE_LAST_REC_DA e i.recDA := by
    rw [mxRecord, putRecord_engine hp ((padDown_congr hcount.rst _).trans hd) ((hcount.padBusy (by decide) _).trans hb)]
    rfl
  rw [heq]
  exact
    { frame := (hcount.trans (.of_store hstore (by decide))).trans (.wr _ _ he' (by decide))
      tile := hstore.tile.trans (by simp)
      place := State.rd_wr_same _ _ _ _
      counted := by
        rw [State.rd_wr_key _ _ (by decide) he' he', hstore.fields _ _ he' (by decide)]
        exact State.rd_bump_same s C.MXE_INSTR_CNT e 1 (by decide) he'
      status := by rw [← hstatus, ← hrec.word]; rfl
      tag := by rw [← htag, ← hrec.word]; rfl
      full := hrec.full
      bytes := hrec.bytes }

theorem State.word_of_sram {s t : State} (h : t.sram = s.sram) (w : Nat) : t.word w = s.word w := by rw [State.word, h, State.word]

theorem SameBytes.of_sram {s s' t t' : State} {da len : Nat} (h : SameBytes s t da len) (hs : s'.sram = s.sram) (ht : t'.sram = t.sram) :
    SameBytes s' t' da len := fun a ha => by rw [ht, hs]; exact h a ha

/-- The record in memory, when before and after it only other parts of the device have changed. -/
theorem EngineRecorded.inMemory {s s' t t' : State} {e : Nat} {i : OpIns} {status : Nat} (h : EngineRecorded s' t e i status)
    (hs : s'.sram = s.sram) (ht : t'.sram = t.sram) (hf : t'.full = t.full) :
    bits (t'.word (i.recDA / 8)) 0 16 = 0x100 + status ∧ bits (t'.word (i.recDA / 8)) 32 32 = recTag i.word i.queue ∧
      (∀ k, k < 8 → t'.isFull (i.recDA / 8 + k) = true) ∧ SameBytes s t' i.recDA 64 := by
  rw [State.word_of_sram ht]
  exact ⟨h.status, h.tag, fun k hk => (State.isFull_of_full hf _).trans (h.full k hk), h.bytes.of_sram hs.symm ht⟩

/-! ### An instruction that ends -/

theorem takeStaged_of_none {s : State} {e : Nat} (h : (s.eng e).staged = none) : takeStaged s e = s := by simp [takeStaged, h]

theorem clearCur_eng (s : State) (e : Nat) : (clearCur s e).eng e = { s.eng e with cur := none } := by
  simp [clearCur, settleBusy]

theorem clearCur_memory (s : State) (e : Nat) : (clearCur s e).sram = s.sram ∧ (clearCur s e).full = s.full := ⟨rfl, rfl⟩

theorem settleBusy_rest (s : State) (e : Nat) :
    (settleBusy s e).tile = s.tile ∧ (settleBusy s e).sram = s.sram ∧ (settleBusy s e).full = s.full :=
  ⟨rfl, rfl, rfl⟩

theorem clearCur_frame (s : State) {e : Nat} (he : e < 2048) :
    UnitFrame [F.MXE_STATUS_BUSY, F.MXE_STATUS_STOPPED, F.MXE_CTRL_PREEMPT] s (clearCur s e) :=
  (((UnitFrame.setEng s e _).trans (.wr _ (f := F.MXE_STATUS_BUSY) (i := e) _ (by omega) (by decide))).trans
    (.wr _ (f := F.MXE_STATUS_STOPPED) (i := e) _ (by omega) (by decide))).trans (.wr _ (f := F.MXE_CTRL_PREEMPT) (i := e) _ (by omega) (by decide))

/-- The engine shows BUSY while other instructions of it are still written. -/
theorem clearCur_busy (s : State) {e : Nat} (he : e < 2048) : (clearCur s e).rd F.MXE_STATUS_BUSY e = b2n (!(s.eng e).ending.isEmpty) := by
  have he' : e < 131072 := by omega
  rw [clearCur, State.rd_wr_key _ _ (by decide) he' he', State.rd_wr_key _ _ (by decide) he' he', settleBusy, State.rd_wr_same]
  simp only [State.eng_setEng_same, Engine.runs, Option.toList_none, List.append_nil]
  cases (s.eng e).ending.isEmpty <;> rfl

/-- An instruction without a quantised D ends with its record alone. -/
theorem endRun_of_plain (s : State) (e : Nat) {r : MxRun} (h : r.ins.mx.quantD = false) :
    endRun s e r = mxRecord s e r.ins (recordWords (mxHead r.ins 0 r.exact r.desc) r.cnt 0 (fiMatrix r.cnt).1 (fiMatrix r.cnt).2) := by
  simp [endRun, h]

theorem mxRefuse_of_none (s : State) (e : Nat) (i : OpIns) (cause : Nat) :
    mxRefuse s e i ⟨cause, none⟩ =
      mxRecord ((s.wr F.MXE_STATUS_CONFIG_ERR e 1).wr F.MXE_STATUS_CAUSE e cause) e i
        (recordWords (mxHead i 0x01 false []) (OpCounts.start s.trk.ts) 0 0 0) := rfl

/-- The register fields that a refusal changes besides those of its record. -/
def refuseFields : List Fld := [F.MXE_STATUS_CONFIG_ERR, F.MXE_STATUS_CAUSE]

/-- A refusal without a descriptor's cause: the flag and the cause are shown, the record stands, and the engines are as they were. -/
theorem mxRefuse_recorded {s : State} {e : Nat} {i : OpIns} {cause : Nat} (hc : cause < 16) (he : e < 2048)
    (hp : recordPlace (clusterOfCore (e / 4)) i.recDA = true) (hd : padDown s i.recDA = false) (hb : padBusy s i.recDA = false) :
    ∃ s', UnitFrame refuseFields s s' ∧ s'.sram = s.sram ∧ EngineRecorded s' (mxRefuse s e i ⟨cause, none⟩) e i 0x01 ∧
      (mxRefuse s e i ⟨cause, none⟩).tile = s.tile ∧ (mxRefuse s e i ⟨cause, none⟩).rd F.MXE_STATUS_CONFIG_ERR e = 1 ∧
      (mxRefuse s e i ⟨cause, none⟩).rd F.MXE_STATUS_CAUSE e = cause := by
  have he' : e < 131072 := by omega
  rw [mxRefuse_of_none]
  generalize hs' : (s.wr F.MXE_STATUS_CONFIG_ERR e 1).wr F.MXE_STATUS_CAUSE e cause = s'
  have hframe : UnitFrame refuseFields s s' := hs' ▸ (UnitFrame.wr _ _ he' (by decide)).trans (.wr _ _ he' (by decide))
  have hrec := mxRecord_recorded (status := 0x01) false [] (OpCounts.start s.trk.ts) 0 0 0 (by decide) he hp
    ((padDown_congr hframe.rst _).trans hd) ((hframe.padBusy (by decide) _).trans hb)
  refine ⟨s', hframe, by rw [← hs']; rfl, hrec, hrec.tile.trans (by rw [← hs']; rfl), ?_, ?_⟩
  · rw [hrec.frame.fields _ _ he' (by decide), ← hs', State.rd_wr_key _ _ (by decide) he' he', State.rd_wr_same]; rfl
  · rw [hrec.frame.fields _ _ he' (by decide), ← hs', State.rd_wr_same]; exact Nat.mod_eq_of_lt hc

theorem dropOut_frame (l : List Fld) (s : State) (e : Nat) (r : MxRun) : UnitFrame l s (dropOut s e r) :=
  .foldl s fun _ _ _ => .dropWaiter _ _ _

theorem dropOut_rest (s : State) (e : Nat) (r : MxRun) : (dropOut s e r).regs = s.regs ∧ (dropOut s e r).tile = s.tile ∧
    (dropOut s e r).sram = s.sram :=
  List.foldlRecOn _ _ (motive := fun t : State => t.regs = s.regs ∧ t.tile = s.tile ∧ t.sram = s.sram) ⟨rfl, rfl, rfl⟩ fun _ ht _ _ => ht

/-- What DATA_ERROR leaves of an instruction before its record: the flag, no waiting write, and no second phase of it in the convert unit. -/
def failClear (s : State) (e : Nat) (r : MxRun) : State :=
  let s := dropOut (s.wr F.MXE_STATUS_DATA_ERR e 1) e r
  match s.convOp (e / 4) with
  | some o => if o.kind = 2 ∧ o.engine = e ∧ o.ins = r.ins then (s.setConv (e / 4) none).dropWaiters (.conv (e / 4)) else s
  | none => s

theorem failRun_eq (s : State) (e : Nat) (r : MxRun) : ∃ nb, failRun s e r =
    mxRecord (failClear s e r) e r.ins (recordWords (mxHead r.ins 0x02 r.exact r.desc) r.cnt nb (fiMatrix r.cnt).1 (fiMatrix r.cnt).2) :=
  ⟨_, rfl⟩

theorem failClear_cases {P : State → Prop} (s : State) (e : Nat) (r : MxRun) (h : P (dropOut (s.wr F.MXE_STATUS_DATA_ERR e 1) e r))
    (hclear : P (((dropOut (s.wr F.MXE_STATUS_DATA_ERR e 1) e r).setConv (e / 4) none).dropWaiters (.conv (e / 4)))) :
    P (failClear s e r) := by
  unfold failClear
  dsimp only
  split
  · split
    · exact hclear
    · exact h
  · exact h

theorem failClear_frame (s : State) {e : Nat} (he : e < 2048) (r : MxRun) : UnitFrame [F.MXE_STATUS_DATA_ERR] s (failClear s e r) := by
  have hflag : UnitFrame [F.MXE_STATUS_DATA_ERR] s (s.wr F.MXE_STATUS_DATA_ERR e 1) := .wr s 1 (by omega) (by decide)
  have hout := hflag.trans (dropOut_frame _ _ e r)
  exact failClear_cases s e r hout ((hout.trans (.setConv _ _ _)).trans (.dropWaiters _ _))

theorem failClear_rest (s : State) (e : Nat) (r : MxRun) :
    (failClear s e r).tile.engines = s.tile.engines ∧ (failClear s e r).sram = s.sram ∧
      (failClear s e r).rd F.MXE_STATUS_DATA_ERR e = 1 := by
  obtain ⟨hregs, htile, hsram⟩ := dropOut_rest (s.wr F.MXE_STATUS_DATA_ERR e 1) e r
  have hflag : (dropOut (s.wr F.MXE_STATUS_DATA_ERR e 1) e r).rd F.MXE_STATUS_DATA_ERR e = 1 := by
    rw [State.rd_of_regs hregs, State.rd_wr_same]
    rfl
  exact failClear_cases (P := fun t => t.tile.engines = s.tile.engines ∧ t.sram = s.sram ∧ t.rd F.MXE_STATUS_DATA_ERR e = 1) s e r
    ⟨by rw [htile]; rfl, hsram, hflag⟩ ⟨by show (dropOut _ e r).tile.engines = _; rw [htile]; rfl, hsram, hflag⟩

/-- An instruction that ends with DATA_ERROR: its record of status 0x02 is written, and the engine otherwise holds what it held. -/
theorem failRun_recorded {s : State} {e : Nat} {r : MxRun} (he : e < 2048) (hp : recordPlace (clusterOfCore (e / 4)) r.ins.recDA = true)
    (hd : padDown s r.ins.recDA = false) (hb : padBusy s r.ins.recDA = false) :
    EngineRecorded (failClear s e r) (failRun s e r) e r.ins 0x02 ∧ (failRun s e r).eng e = s.eng e ∧
      (failRun s e r).rd F.MXE_STATUS_DATA_ERR e = 1 := by
  obtain ⟨nb, heq⟩ := failRun_eq s e r
  have hclear := failClear_frame s he r
  obtain ⟨heng, -, hflag⟩ := failClear_rest s e r
  have hrec : EngineRecorded (failClear s e r) (failRun s e r) e r.ins 0x02 := by
    rw [heq]
    exact mxRecord_recorded _ _ _ _ _ _ (by decide) he hp ((padDown_congr hclear.rst _).trans hd) ((hclear.padBusy (by decide) _).trans hb)
  exact ⟨hrec, State.eng_of_tile (by rw [hrec.tile, heng]) e, (hrec.frame.fields _ _ (by omega) (by decide)).trans hflag⟩

/-! ### An instruction that begins or goes on -/

/-- From `s` to `t`, engine `e` has gone on with instruction `i` from N-block `start`, as far as it could. -/
structure Driven (s t : State) (e : Nat) (i : OpIns) (start : Nat) : Prop where
  frame : UnitFrame foldFields s t
  cur : ∃ r, (t.eng e).cur = some r ∧ r.ins = i ∧ r.nbStart = start
  staged : (t.eng e).staged = (s.eng e).staged
  ending : (t.eng e).ending = (s.eng e).ending

theorem FoldFrame.driven {s t : State} {r r' : MxRun} (h : FoldFrame s r t r') (e : Nat) :
    Driven s (t.setRun e r') e r.ins r.nbStart := by
  obtain ⟨-, hstaged, hending⟩ := h.held e
  exact
    { frame := h.frame.trans (.setRun t e r')
      cur := ⟨r', by simp [State.setRun], h.ins, h.start⟩
      staged := by simpa [State.setRun] using hstaged
      ending := by simpa [State.setRun] using hending }

theorem beginReject_of_plain (s : State) (e : Nat) {r : MxRun} (hwarm : r.warm = false) (hbook : r.ins.mx.book = false) :
    beginReject s e r = none := by
  simp [beginReject, hwarm, hbook]

/-- The instruction in progress is not lost: it goes on, or waits for its first words. -/
theorem driveCur_driven {s : State} {e : Nat} {r : MxRun} (he : e < 2048) (hcur : (s.eng e).cur = some r)
    (h : r.begun = true ∨ (r.warm = false ∧ r.ins.mx.quantD = false ∧ r.ins.mx.book = false)) :
    Driven s (driveCur s e) e r.ins r.nbStart := by
  simp only [driveCur, hcur]
  by_cases hbegun : r.begun = true
  · rw [if_pos hbegun]
    exact (foldRun_fold he _ s r).driven e
  · obtain ⟨hwarm, hquant, hbook⟩ := h.resolve_left hbegun
    rw [if_neg hbegun]
    split
    · have hheld : FoldFrame s r s { r with hold := .operand } := (FoldFrame.refl s r).run rfl rfl
      exact hheld.driven e
    · simp only [beginReject_of_plain s e hwarm hbook, hwarm, hquant, Bool.false_eq_true, if_false, false_and, putWords]
      exact (FoldFrame.of_run (foldRun_fold he _ s _) rfl rfl).driven e

theorem newRun_of_plain (s : State) (e : Nat) {i : OpIns} (behind : Option MxRun) (h : i.mx.quantD = false) :
    (newRun s e i behind).ins = i ∧ (newRun s e i behind).warm = false := by
  simp [newRun, h, inWarmup]

theorem emptyShadow_held (s : State) (e : Nat) : SameInstrs s (emptyShadow s e) := .putSet s e _ _

/-- From `s` to `t`, engine `e` has taken up instruction `i`, and is BUSY with it. -/
structure Begun (s t : State) (e : Nat) (i : OpIns) : Prop where
  frame : UnitFrame (F.MXE_STATUS_BUSY :: foldFields) s t
  busy : t.rd F.MXE_STATUS_BUSY e = 1
  cur : ∃ r, (t.eng e).cur = some r ∧ r.ins = i
  staged : (t.eng e).staged = (s.eng e).staged
  ending : (t.eng e).ending = (s.eng e).ending

theorem beginIns_begun {e : Nat} {i : OpIns} (s : State) (behind : Option MxRun) (he : e < 2048) (hquant : i.mx.quantD = false)
    (hbook : i.mx.book = false) : Begun s (beginIns s e i behind) e i := by
  unfold beginIns
  extract_lets r s₁
  obtain ⟨hins, hwarm⟩ := newRun_of_plain s e behind hquant
  have hs₁ : UnitFrame (F.MXE_STATUS_BUSY :: foldFields) s s₁ ∧ SameInstrs s s₁ := by
    simp only [s₁]
    split
    · exact ⟨.setEng _ _ _, emptyShadow_held s e⟩
    · exact ⟨.refl _ s, .of_engines rfl⟩
  obtain ⟨-, hstaged, hending⟩ := hs₁.2 e
  have hdriven : Driven ((s₁.setRun e r).wr F.MXE_STATUS_BUSY e 1) (driveCur ((s₁.setRun e r).wr F.MXE_STATUS_BUSY e 1) e) e r.ins r.nbStart :=
    driveCur_driven he (by simp [State.setRun]) (.inr ⟨hwarm, by rw [hins, hquant], by rw [hins, hbook]⟩)
  obtain ⟨r', hcur, hr', -⟩ := hdriven.cur
  exact
    { frame := ((hs₁.1.trans (.setRun _ _ _)).trans (.wr _ _ (by omega) (by decide))).trans (hdriven.frame.mono (by decide))
      busy := (hdriven.frame.fields _ _ (by omega) (by decide)).trans (State.rd_wr_same _ _ _ _)
      cur := ⟨r', hcur, hr'.trans hins⟩
      staged := hdriven.staged.trans (by simpa [State.setRun] using hstaged)
      ending := hdriven.ending.trans (by simpa [State.setRun] using hending) }

end Sys2Proof.Machine
end

section
/-!
PROOFS. MATMUL at the head of a queue (R33, R44, R115, R118): held, rejected, staged or begun.
-/
namespace Sys2Proof.Machine

/-! ### What the judgement of an instruction rests on -/

theorem OpIns.desc_of_sram {s t : State} (h : t.sram = s.sram) (i : OpIns) : i.desc t = i.desc s := by
  simp [OpIns.desc, readDesc, h]

theorem mxReject_of_sram {s t : State} (k : Nat) {i : OpIns} (h : t.sram = s.sram) (hquant : i.mx.quantD = false) :
    mxReject t k i = mxReject s k i := by
  simp [mxReject, OpIns.desc_of_sram h, hquant]

/-- A wrong dimension is named before every other reason (log entry 99). -/
theorem mxReject_of_dims (s : State) (k : Nat) {i : OpIns} (h : i.mx.dimsOK = false) : mxReject s k i = some ⟨0x1, none⟩ := by
  simp [mxReject, h]

theorem slotsBusy_nil (s : State) (k : Nat) : slotsBusy s k [] = false := by simp [slotsBusy, slotsClearing]

/-! ### The head -/

/-- The engine that a MATMUL at the head of queue `q` names. -/
def headEngine (s : State) (q : Nat) : Nat := coreOfQueue q * 4 + bits (s.headWord q) 32 2

theorem headEngine_core (s : State) (q : Nat) : headEngine s q / 4 = coreOfQueue q := by unfold headEngine bits; omega

theorem headEngine_lt (s : State) {q : Nat} (hq : q < 4096) : headEngine s q < 2048 := by unfold headEngine coreOfQueue bits; omega

/-- The state in which an engine judges and takes the instruction at the head of queue `q`. -/
def matmulIssued (s : State) (q : Nat) : State := (s.countIssue q).wr F.MXE_RESUME_VALID (headEngine s q) 0

/-- The state in which the engine holds the head's instruction staged. -/
def matmulStaged (s : State) (q : Nat) : State :=
  ((matmulIssued s q).setEng (headEngine s q) { s.eng (headEngine s q) with staged := some (headIns s q 8) }).wr F.MXE_STATUS_STAGED
    (headEngine s q) 1

theorem exec_matmul {s : State} {q : Fin 4096} (h : Issues s q 0 0x00) :
    exec (.matmul q) s = .next (matmulEff s q (s.headWord q)) :=
  congrArg _ (issue_eq h _)

section
variable {s : State} {q : Nat}

theorem matmulEff_of_disabled (h : s.on F.MXE_CTRL_EN (headEngine s q) = false) :
    matmulEff s q (s.headWord q) = s.holdHead q 0x8 .plain := by
  unfold headEngine at h
  simp [matmulEff, h]

theorem matmulEff_of_staged (h : s.on F.MXE_CTRL_EN (headEngine s q) = true) (hs : (s.eng (headEngine s q)).staged.isSome = true) :
    matmulEff s q (s.headWord q) = s.holdHead q 0x2 .plain := by
  unfold headEngine at h hs
  simp [matmulEff, h, hs]

/-- An engine that is enabled and holds no staged instruction judges a MATMUL without a quantised D at once, when it holds no other
instruction or one in its last pass that is not stopped; then it refuses it, stages it, or begins it. -/
theorem matmulEff_of_judged (hen : s.on F.MXE_CTRL_EN (headEngine s q) = true) (hdrain : s.on F.MXE_CTRL_DRAIN (headEngine s q) = false)
    (hstaged : (s.eng (headEngine s q)).staged = none) (hquant : (headIns s q 8).mx.quantD = false)
    (hlast : ∀ r, (s.eng (headEngine s q)).cur = some r → lastPassBegun r = true ∧ s.on F.MXE_STATUS_STOPPED (headEngine s q) = false) :
    ∃ u, matmulEff s q (s.headWord q) = u.doneHead q ∧
      (∀ r, mxReject s (coreOfQueue q) (headIns s q 8) = some r → u = mxRefuse (matmulIssued s q) (headEngine s q) (headIns s q 8) r) ∧
      (mxReject s (coreOfQueue q) (headIns s q 8) = none →
        ((s.eng (headEngine s q)).cur = none → u = beginIns (matmulIssued s q) (headEngine s q) (headIns s q 8) none) ∧
        (∀ r, (s.eng (headEngine s q)).cur = some r → u = takeStaged (matmulStaged s q) (headEngine s q))) := by
  have hreject : mxReject (matmulIssued s q) (coreOfQueue q) (headIns s q 8) = mxReject s (coreOfQueue q) (headIns s q 8) :=
    mxReject_of_sram _ (by simp [matmulIssued, State.countIssue]) hquant
  unfold matmulEff
  extract_lets k e par i g d sl s₁ s₂ u
  have hsl : sl = [] := by simp only [sl, show i.mx.quantD = false from hquant, Bool.false_and, Bool.false_eq_true, if_false]
  have hs₂ : s₂ = matmulIssued s q := by simp only [s₂, hsl]; rfl
  have hjudged : ∀ x, mxReject s (coreOfQueue q) (headIns s q 8) = x → mxReject s₁ k i = x := fun x hx => hreject.trans hx
  rw [hsl, slotsBusy_nil, show s.on F.MXE_CTRL_EN e = true from hen, show s.on F.MXE_CTRL_DRAIN e = false from hdrain,
    show g.staged = none from hstaged]
  refine ⟨u, ?_, fun r hr => ?_, fun hr => ⟨fun hcur => ?_, fun r hcur => ?_⟩⟩
  · cases hcur : g.cur with
    | none => rfl
    | some r =>
      obtain ⟨hbegun, hstopped⟩ := hlast r hcur
      simp only [hbegun, show s.on F.MXE_STATUS_STOPPED e = false from hstopped, Bool.not_true, Bool.or_false, Option.isSome_none,
        Bool.false_eq_true, if_false]
  · simp only [u, hjudged _ hr]
    rfl
  · simp only [u, hjudged _ hr, show g.cur = none from hcur, hs₂, Option.isSome_none, Bool.false_eq_true, if_false]
    rfl
  · simp only [u, hjudged _ hr, show g.cur.isSome = true by rw [show g.cur = some r from hcur]; rfl, hs₂, if_true]
    rfl

end

/-! ### After the head -/

@[simp] theorem doneHead_eng (s : State) (q e : Nat) : (s.doneHead q).eng e = s.eng e := rfl

/-- Finishing a head leaves alone the fields of every unit but the sequencer. -/
theorem doneHead_keeps (s : State) {q : Nat} (hq : q < 4096) {f : Fld} {i : Nat} (hi : i < 131072)
    (hf : ∀ g ∈ [F.VEC_Q_STAT_STATE, F.VEC_Q_STAT_WAIT_ON, F.VEC_Q_STAT_LOOP_DEPTH, F.VEC_Q_PC_PC], f.key ≠ g.key) :
    (s.doneHead q).rd f i = s.rd f i :=
  doneHead_sameRegs' s q (by omega) f i hi (hf _ (by decide)) (hf _ (by decide)) (hf _ (by decide)) (hf _ (by decide))

/-- The register fields that an engine may change when it takes or refuses a MATMUL. -/
def matmulFields : List Fld :=
  [F.MXE_STATUS_BUSY, F.MXE_STATUS_STAGED, F.MXE_RESUME_VALID, F.MXE_STATUS_CONFIG_ERR, F.MXE_STATUS_CAUSE] ++ recordFields ++ foldFields

theorem matmulIssued_frame (s : State) {q : Nat} (hq : q < 4096) : UnitFrame matmulFields (s.countIssue q) (matmulIssued s q) :=
  .wr _ _ (by have := headEngine_lt s hq; omega) (by decide)

theorem matmulIssued_eng (s : State) (q e : Nat) : (matmulIssued s q).eng e = s.eng e := by simp [matmulIssued, State.countIssue]

theorem matmulIssued_memory (s : State) (q : Nat) : (matmulIssued s q).sram = s.sram ∧ (matmulIssued s q).full = s.full := by
  simp [matmulIssued, State.countIssue]

theorem finished_of_matmul {s u : State} {q : Nat} (hq : q < 4096) (h : UnitFrame matmulFields (matmulIssued s q) u) :
    Finished s (u.doneHead q) q :=
  ((matmulIssued_frame s hq).trans h).finished hq (by decide) (by decide)

section
variable {s : State} {q : Nat} (hq : q < 4096)
include hq

theorem beginMatmul {u : State} (hquant : (headIns s q 8).mx.quantD = false) (hbook : (headIns s q 8).mx.book = false)
    (hu : u = beginIns (matmulIssued s q) (headEngine s q) (headIns s q 8) none) :
    (u.doneHead q).rd F.MXE_STATUS_BUSY (headEngine s q) = 1 ∧
      (∃ r, ((u.doneHead q).eng (headEngine s q)).cur = some r ∧ r.ins = headIns s q 8) ∧
      ((u.doneHead q).eng (headEngine s q)).ending = (s.eng (headEngine s q)).ending ∧ Finished s (u.doneHead q) q := by
  have he := headEngine_lt s hq
  have hbegun := beginIns_begun (matmulIssued s q) none he hquant hbook
  rw [← hu] at hbegun
  refine ⟨?_, hbegun.cur, ?_, finished_of_matmul hq (hbegun.frame.mono (by decide))⟩
  · rw [doneHead_keeps u hq (by omega) (by decide), hbegun.busy]
  · rw [doneHead_eng, hbegun.ending, matmulIssued_eng]

theorem stageMatmul {r : MxRun} (hcur : (s.eng (headEngine s q)).cur = some r) (hfed : r.fed = false) :
    let t := (takeStaged (matmulStaged s q) (headEngine s q)).doneHead q
    t.rd F.MXE_STATUS_STAGED (headEngine s q) = 1 ∧ (t.eng (headEngine s q)).staged = some (headIns s q 8) ∧
      (t.eng (headEngine s q)).cur = some r ∧ Finished s t q ∧ t.sram = s.sram := by
  have he := headEngine_lt s hq
  have heng : (matmulStaged s q).eng (headEngine s q) = { s.eng (headEngine s q) with staged := some (headIns s q 8) } := by
    simp [matmulStaged]
  have hstay : takeStaged (matmulStaged s q) (headEngine s q) = matmulStaged s q := by simp [takeStaged, heng, hcur, hfed]
  rw [hstay]
  refine ⟨?_, by rw [doneHead_eng, heng], by rw [doneHead_eng, heng, hcur], finished_of_matmul hq ?_, (matmulIssued_memory s q).1⟩
  · rw [doneHead_keeps _ hq (by omega) (by decide)]
    exact State.rd_wr_same _ _ _ _
  · exact (UnitFrame.setEng _ _ _).trans (.wr _ _ (by omega) (by decide))

/-- The engine begins the head's instruction while rows of the one in progress are still written. -/
theorem followMatmul {r : MxRun} (hcur : (s.eng (headEngine s q)).cur = some r) (hfed : r.fed = true)
    (hquant : (headIns s q 8).mx.quantD = false) (hbook : (headIns s q 8).mx.book = false) :
    let t := (takeStaged (matmulStaged s q) (headEngine s q)).doneHead q
    t.rd F.MXE_STATUS_STAGED (headEngine s q) = 0 ∧ (t.eng (headEngine s q)).staged = none ∧ Finished s t q ∧
      (∃ r', (t.eng (headEngine s q)).cur = some r' ∧ r'.ins = headIns s q 8) ∧
      (t.eng (headEngine s q)).ending = (s.eng (headEngine s q)).ending ++ [r] := by
  have he := headEngine_lt s hq
  have heng : (matmulStaged s q).eng (headEngine s q) = { s.eng (headEngine s q) with staged := some (headIns s q 8) } := by
    simp [matmulStaged]
  have htake : takeStaged (matmulStaged s q) (headEngine s q) =
      beginIns (((matmulStaged s q).setEng (headEngine s q) { s.eng (headEngine s q) with
        staged := none, cur := none, ending := (s.eng (headEngine s q)).ending ++ [r] }).wr F.MXE_STATUS_STAGED (headEngine s q) 0)
        (headEngine s q) (headIns s q 8) (some r) := by
    simp [takeStaged, heng, hcur, hfed]
  rw [htake]
  generalize hs' : ((matmulStaged s q).setEng (headEngine s q) _).wr F.MXE_STATUS_STAGED (headEngine s q) 0 = s'
  have hbegun := beginIns_begun s' (some r) he hquant hbook
  have hframe : UnitFrame matmulFields (matmulIssued s q) s' := by
    rw [← hs']
    exact (((UnitFrame.setEng _ _ _).trans (.wr _ _ (by omega) (by decide))).trans (.setEng _ _ _)).trans (.wr _ _ (by omega) (by decide))
  dsimp only
  rw [doneHead_keeps _ hq (by omega) (by decide), hbegun.frame.fields _ _ (by omega) (by decide), doneHead_eng, hbegun.staged, hbegun.ending]
  exact ⟨by rw [← hs', State.rd_wr_same]; rfl, by simp [← hs'], finished_of_matmul hq (hframe.trans (hbegun.frame.mono (by decide))),
    hbegun.cur, by simp [← hs']⟩

/-- A MATMUL refused for its dimensions: the engine shows the cause, the record stands, and the engine is without an instruction. -/
theorem refuseMatmul (hp : recordPlace (clusterOfQueue q) (headIns s q 8).recDA = true) (hd : padDown s (headIns s q 8).recDA = false)
    (hb : padBusy s (headIns s q 8).recDA = false) :
    let i := headIns s q 8
    let t := (mxRefuse (matmulIssued s q) (headEngine s q) i ⟨0x1, none⟩).doneHead q
    t.rd F.MXE_STATUS_CONFIG_ERR (headEngine s q) = 1 ∧ t.rd F.MXE_STATUS_CAUSE (headEngine s q) = 1 ∧
      bits (t.word (i.recDA / 8)) 0 16 = 0x0101 ∧ bits (t.word (i.recDA / 8)) 32 32 = recTag i.word q ∧
      (∀ k, k < 8 → t.isFull (i.recDA / 8 + k) = true) ∧ SameBytes s t i.recDA 64 ∧
      t.eng (headEngine s q) = s.eng (headEngine s q) ∧ Finished s t q := by
  have he := headEngine_lt s hq
  have hissued : UnitFrame ([F.VEC_ISSUE_CNT_COUNT, F.VEC_WRAP_ISSUE] ++ matmulFields) s (matmulIssued s q) :=
    ((countIssue_frame s hq).mono (by decide)).trans ((matmulIssued_frame s hq).mono (by decide))
  have hcluster : clusterOfCore (headEngine s q / 4) = clusterOfQueue q := by
    rw [headEngine_core]; exact Nat.div_div_eq_div_mul _ _ _
  obtain ⟨s', hframe, hsram, hrec, htile, herr, hcause⟩ := mxRefuse_recorded (cause := 0x1) (by decide) he (hcluster ▸ hp)
    ((padDown_congr hissued.rst _).trans hd) ((hissued.padBusy (by decide) _).trans hb)
  dsimp only
  obtain ⟨hstatus, htag, hfull, hbytes⟩ :=
    hrec.inMemory (hsram.trans (matmulIssued_memory s q).1) (doneHead_sram _ q) (doneHead_full _ q)
  rw [doneHead_keeps _ hq (by omega) (by decide), doneHead_keeps _ hq (by omega) (by decide)]
  refine ⟨herr, hcause, hstatus, htag, hfull, hbytes, ?_,
    finished_of_matmul hq ((hframe.mono (by decide)).trans (hrec.frame.mono (by decide)))⟩
  rw [doneHead_eng, State.eng_of_tile (congrArg Tile.engines htile), matmulIssued_eng]

end

/-- Settles O15: the engine judges the head only when it is enabled, holds nothing staged and stands in its last pass; what it then does is
`beginIns`, `takeStaged` or `mxRefuse`, none of which touches the queue. -/
theorem matmulIsTakenHeldOrRejected : Obligations.MatmulIsTakenHeldOrRejected := by
  unfold Obligations.MatmulIsTakenHeldOrRejected
  refine ⟨fun q s h => ⟨_, exec_matmul h, fun hen => ?_, fun hen hstaged => ?_, fun hen hdrain hstaged hquant hnone => ⟨fun hcur hbook => ?_,
    fun r hcur hlast hstopped => ?_⟩⟩, fun q s h hen hdrain hidle hquant hdims hp hd hb => ⟨_, exec_matmul h, ?_⟩⟩
  · rw [matmulEff_of_disabled hen]
    obtain ⟨hstate, hwait, hpc⟩ := holdHead_shows s (c := 0x8) .plain q.isLt (by decide)
    exact ⟨hstate, hwait, hpc, rfl⟩
  · rw [matmulEff_of_staged hen hstaged]
    obtain ⟨hstate, hwait, hpc⟩ := holdHead_shows s (c := 0x2) .plain q.isLt (by decide)
    exact ⟨hstate, hwait, hpc, rfl⟩
  · obtain ⟨u, heq, -, htaken⟩ := matmulEff_of_judged hen hdrain hstaged hquant fun r hr => nomatch hcur.symm.trans hr
    rw [heq]
    exact beginMatmul q.isLt hquant hbook ((htaken hnone).1 hcur)
  · obtain ⟨u, heq, -, htaken⟩ := matmulEff_of_judged hen hdrain hstaged hquant fun r' hr' => by
      cases hcur.symm.trans hr'
      exact ⟨hlast, hstopped⟩
    obtain rfl : u = takeStaged (matmulStaged s q) (headEngine s q) := (htaken hnone).2 r hcur
    rw [heq]
    exact ⟨fun hfed => stageMatmul q.isLt hcur hfed, fun hfed hbook => followMatmul q.isLt hcur hfed hquant hbook⟩
  · have hcur : (s.eng (headEngine s q)).cur = none := by rw [show s.eng (headEngine s q) = Engine.idle from hidle]; rfl
    obtain ⟨u, heq, hrefused, -⟩ := matmulEff_of_judged hen hdrain (by rw [show s.eng (headEngine s q) = Engine.idle from hidle]; rfl)
      hquant fun r hr => nomatch hcur.symm.trans hr
    obtain rfl := hrefused _ (mxReject_of_dims s _ hdims)
    obtain ⟨herr, hcause, hstatus, htag, hfull, hbytes, heng, hdone⟩ := refuseMatmul q.isLt hp hd hb
    rw [heq]
    exact ⟨herr, hcause, hstatus, htag, hfull, hbytes, (congrArg Engine.cur heng).trans hcur, hdone⟩

end Sys2Proof.Machine
end

section
/-!
PROOFS. The engines' events, DUTY and stops (R46, R49-R52, R81).
-/
namespace Sys2Proof.Machine

/-! ### A hold that ends (R46, R49) -/

theorem chunksHeld_ins (s : State) (n : Nat) (r : MxRun) :
    (chunksHeld s n r).ins = r.ins ∧ (chunksHeld s n r).nbStart = r.nbStart ∧ (chunksHeld s n r).begun = r.begun := by
  induction n generalizing r with
  | zero => exact ⟨rfl, rfl, rfl⟩
  | succ n ih =>
    have htake : (takeChunk s.sram r).begun = r.begun := by unfold takeChunk; split <;> rfl
    rw [chunksHeld]
    split
    · split
      · obtain ⟨hins, hstart, hbegun⟩ := ih (takeChunk s.sram r)
        obtain ⟨hi, hs⟩ := takeChunk_ins s.sram r
        exact ⟨hins.trans hi, hstart.trans hs, hbegun.trans htake⟩
      · exact ⟨rfl, rfl, rfl⟩
    · exact ⟨rfl, rfl, rfl⟩

/-- On an engine without a staged instruction, driving is driving the instruction in progress. -/
theorem drive_driven {s : State} {e : Nat} {r : MxRun} (he : e < 2048) (hstaged : (s.eng e).staged = none) (hbegun : r.begun = true) :
    Driven (s.setRun e r) (drive (s.setRun e r) e) e r.ins r.nbStart := by
  have hdriven := driveCur_driven (s := s.setRun e r) he (by simp [State.setRun]) (.inl hbegun)
  rw [drive, takeStaged_of_none (hdriven.staged.trans (by simpa [State.setRun] using hstaged))]
  exact hdriven

theorem resumeFold_resumes {s : State} {e : Nat} {r : MxRun} (beats : Nat) (he : e < 2048) (hstaged : (s.eng e).staged = none)
    (hbegun : r.begun = true) :
    let t := resumeFold s e beats r
    t.rd F.MXE_FEED_STALL_CNT_COUNT e = (s.rd F.MXE_FEED_STALL_CNT_COUNT e + beats) % 2 ^ 64 ∧
      (∃ r', (t.eng e).cur = some r' ∧ r'.ins = r.ins) ∧ t.tile.sregs = s.tile.sregs ∧ t.mem = s.mem := by
  have he' : e < 131072 := by omega
  rw [resumeFold, if_pos hbegun]
  obtain ⟨hins, -, hheld⟩ := chunksHeld_ins s (Nat.min beats 128) r
  generalize chunksHeld s (Nat.min beats 128) r = r₁ at *
  have hdriven : Driven ((s.bump C.MXE_FEED_STALL_CNT e beats).setRun e r₁) (drive ((s.bump C.MXE_FEED_STALL_CNT e beats).setRun e r₁) e) e
      r₁.ins r₁.nbStart :=
    drive_driven he (by simpa using hstaged) (hheld.trans hbegun)
  obtain ⟨r', hcur, hr', -⟩ := hdriven.cur
  refine ⟨?_, ⟨r', hcur, hr'.trans hins⟩, hdriven.frame.sregs.trans (by simp [State.setRun, State.setEng]), hdriven.frame.mem.trans (by simp)⟩
  rw [hdriven.frame.fields _ _ he' (by decide)]
  exact State.rd_bump_same s C.MXE_FEED_STALL_CNT e beats (by decide) he'

theorem feedResume_resumes {s : State} {e : Nat} {r : MxRun} (beats : Nat) (hcur : (s.eng e).cur = some r) (hhold : r.hold = .operand)
    (hbegun : r.begun = true) (hgoes : (foldStep s e r).2.2 = true) : feedResume s e beats = resumeFold s e beats r := by
  simp [feedResume, hcur, hhold, hbegun, hgoes]

theorem outputPathResume_resumes {s : State} {e : Nat} {r : MxRun} (beats : Nat) (hcur : (s.eng e).cur = some r) (hhold : r.hold = .outPath)
    (hrows : outRows s e r < 64) : outputPathResume s e beats = resumeFold s e beats r := by
  simp [outputPathResume, hcur, hhold, hrows]

/-! ### A D word that waited (R46) -/

theorem dWordWrite_writes {s : State} {e da : Nat} {o : OutWrite} {dwait : Bool} {rs : List MxRun}
    (htake : takeWord (da / 8) s.trk.ts (s.eng e).runs = some (o, dwait, rs)) (hready : outReady s (.out e) dwait o = true) :
    let t := dWordWrite s e da
    readBytes t.sram o.da o.bytes.length = o.bytes ∧ SameBytes s t o.da o.bytes.length ∧
      (∀ w ∈ wholeWords o.da o.bytes.length, t.isFull w = true) ∧ t.eng e = (s.eng e).putRuns rs ∧ t.tile.sregs = s.tile.sregs := by
  simp only [dWordWrite, htake, hready, if_true]
  generalize hs' : s.dropWaiter (.out e) (wordsOf o.da o.bytes.length) = s'
  have hsram : (s'.storeOut o).sram = writeBytes s.sram o.da o.bytes := by rw [State.storeOut_sram, ← hs']; rfl
  refine ⟨?_, fun a ha => ?_, fun w hw => s'.isFull_storeOut o hw, State.eng_setEng_same _ _ _, ?_⟩
  · exact (congrArg (readBytes · _ _) hsram).trans (readBytes_writeBytes _ _ _)
  · exact (congrArg (byteAt · a) hsram).trans (byteAt_writeBytes_outside ha)
  · exact (congrArg Tile.sregs (s'.storeOut_frame o).tile).trans (by rw [← hs']; rfl)

/-! ### MATMUL_COMPLETE and DATA_ERROR (R52, R81) -/

theorem dataError_of_current {s : State} {e : Nat} {r : MxRun} (hcur : (s.eng e).cur = some r)
    (hstopped : s.on F.MXE_STATUS_STOPPED e = false) : dataError s e false = takeStaged (clearCur (failRun s e r) e) e := by
  unfold dataError
  dsimp only
  rw [hcur]
  dsimp only
  rw [hstopped, Bool.false_and, Bool.false_and, if_neg Bool.false_ne_true]

theorem dataError_of_older {s : State} {e : Nat} {r : MxRun} {l : List MxRun} (hending : (s.eng e).ending = r :: l) :
    dataError s e true = settleBusy (failRun (s.setEng e { s.eng e with ending := l }) e r) e := by
  unfold dataError
  dsimp only
  rw [hending]

section
variable {s : State} {e : Nat} {r : MxRun} (he : e < 2048) (hp : recordPlace (clusterOfCore (e / 4)) r.ins.recDA = true)
  (hd : padDown s r.ins.recDA = false) (hb : padBusy s r.ins.recDA = false)
include he hp hd hb

theorem matmulComplete_completes (hcur : (s.eng e).cur = some r) (hstaged : (s.eng e).staged = none) (hending : (s.eng e).ending = [])
    (hwhole : r.whole = true) (hquant : r.ins.mx.quantD = false) :
    let t := matmulComplete s e
    t.rd F.MXE_STATUS_BUSY e = 0 ∧ (t.eng e).cur = none ∧ t.rd F.MXE_LAST_REC_DA e = r.ins.recDA % 2 ^ 48 ∧
      t.rd F.MXE_INSTR_CNT_COUNT e = (s.rd F.MXE_INSTR_CNT_COUNT e + 1) % 2 ^ 64 ∧
      bits (t.word (r.ins.recDA / 8)) 0 16 = 0x0100 ∧ bits (t.word (r.ins.recDA / 8)) 32 32 = recTag r.ins.word r.ins.queue ∧
      (∀ k, k < 8 → t.isFull (r.ins.recDA / 8 + k) = true) ∧ SameBytes s t r.ins.recDA 64 := by
  have hrec : EngineRecorded s (endRun s e r) e r.ins 0 := by
    rw [endRun_of_plain s e hquant]
    exact mxRecord_recorded _ _ _ _ _ _ (by decide) he hp hd hb
  have heng : (endRun s e r).eng e = s.eng e := State.eng_of_tile (congrArg Tile.engines hrec.tile) e
  have heq : matmulComplete s e = clearCur (endRun s e r) e := by
    simp only [matmulComplete, hending, takeRun, hcur, hwhole, if_true]
    exact takeStaged_of_none (by rw [clearCur_eng, heng]; exact hstaged)
  have hclear := clearCur_frame (endRun s e r) he
  obtain ⟨hstatus, htag, hfull, hbytes⟩ := hrec.inMemory rfl (clearCur_memory _ e).1 (clearCur_memory _ e).2
  rw [heq]
  refine ⟨?_, by rw [clearCur_eng], ?_, ?_, hstatus, htag, hfull, hbytes⟩
  · rw [clearCur_busy _ he, heng, hending]; rfl
  · rw [hclear.fields _ _ (by omega) (by decide), hrec.place]
  · rw [hclear.fields _ _ (by omega) (by decide), hrec.counted]

theorem dataError_current (hcur : (s.eng e).cur = some r) (hstaged : (s.eng e).staged = none) (hending : (s.eng e).ending = [])
    (hstopped : s.on F.MXE_STATUS_STOPPED e = false) :
    let t := dataError s e false
    t.rd F.MXE_STATUS_DATA_ERR e = 1 ∧ t.rd F.MXE_STATUS_BUSY e = 0 ∧ (t.eng e).cur = none ∧
      bits (t.word (r.ins.recDA / 8)) 0 16 = 0x0102 ∧ SameBytes s t r.ins.recDA 64 := by
  obtain ⟨hrec, heng, hflag⟩ := failRun_recorded he hp hd hb
  obtain ⟨hstatus, -, -, hbytes⟩ := hrec.inMemory (failClear_rest s e r).2.1 (clearCur_memory _ e).1 (clearCur_memory _ e).2
  have heq : dataError s e false = clearCur (failRun s e r) e := by
    rw [dataError_of_current hcur hstopped]
    exact takeStaged_of_none (by rw [clearCur_eng, heng]; exact hstaged)
  rw [heq]
  refine ⟨?_, ?_, by rw [clearCur_eng], hstatus, hbytes⟩
  · rw [(clearCur_frame _ he).fields _ _ (by omega) (by decide), hflag]
  · rw [clearCur_busy _ he, heng, hending]; rfl

theorem dataError_older {l : List MxRun} (hending : (s.eng e).ending = r :: l) :
    let t := dataError s e true
    t.rd F.MXE_STATUS_DATA_ERR e = 1 ∧ (t.eng e).ending = l ∧ (t.eng e).cur = (s.eng e).cur ∧ (t.eng e).staged = (s.eng e).staged ∧
      bits (t.word (r.ins.recDA / 8)) 0 16 = 0x0102 ∧ SameBytes s t r.ins.recDA 64 := by
  generalize hs' : s.setEng e { s.eng e with ending := l } = s'
  have hframe : UnitFrame [] s s' := hs' ▸ .setEng s e _
  obtain ⟨hrec, heng, hflag⟩ := failRun_recorded (s := s') he hp ((padDown_congr hframe.rst _).trans hd)
    ((hframe.padBusy (by decide) _).trans hb)
  obtain ⟨hstatus, -, -, hbytes⟩ := hrec.inMemory (s := s) ((failClear_rest s' e r).2.1.trans (by rw [← hs']; rfl))
    (settleBusy_rest _ e).2.1 (settleBusy_rest _ e).2.2
  have heng' : (failRun s' e r).eng e = { s.eng e with ending := l } := by rw [heng, ← hs', State.eng_setEng_same]
  have heq : dataError s e true = settleBusy (failRun s' e r) e := by
    rw [dataError_of_older hending, hs']
  rw [heq]
  generalize failRun s' e r = u at *
  refine ⟨?_, ?_, ?_, ?_, hstatus, hbytes⟩
  · rw [settleBusy, State.rd_wr_key _ _ (by decide) (by omega) (by omega), hflag]
  all_goals rw [settleBusy, State.wr_eng, heng']

end

/-! ### Duty and stops (R50, R51) -/

theorem duty_clamp (v : Nat) : F.MXE_CTRL_DUTY.clamp v = clampTo 4 16 v := by
  simp [Fld.clamp, F.MXE_CTRL_DUTY]

theorem clampTo_le {lo hi v : Nat} (h : lo ≤ hi) : clampTo lo hi v ≤ hi := by unfold clampTo; split_ifs <;> omega

theorem pacLog_frame (s : State) (heat kind cluster engine : Nat) :
    UnitFrame [F.PAC_STATUS_LOG_OVF] s (pacLog s heat kind cluster engine) ∧ (pacLog s heat kind cluster engine).outbox = s.outbox := by
  unfold pacLog
  split
  · exact ⟨.wr s 1 (by omega) (by decide), rfl⟩
  · exact ⟨⟨fun _ _ _ _ => rfl, rfl, rfl, rfl, rfl, rfl⟩, rfl⟩

/-- A throttle that is refused counts once, and takes nothing out of the record of outputs. -/
theorem throttleRefused_counts (s : State) (heat kind cluster engine : Nat) :
    let t := throttleRefused s heat kind cluster engine
    UnitFrame [F.PAC_REFUSED_CNT_COUNT, F.PAC_WRAP_FLAGS, F.PAC_STATUS_THROTTLE_REFUSED, F.PAC_STATUS_LOG_OVF] s t ∧
      t.rd F.PAC_REFUSED_CNT_COUNT 0 = (s.rd F.PAC_REFUSED_CNT_COUNT 0 + 1) % 2 ^ 64 ∧ s.outbox ⊆ t.outbox := by
  unfold throttleRefused
  generalize hu : ((s.bump C.PAC_REFUSED_CNT 0 1).flagMC F.PAC_STATUS_THROTTLE_REFUSED 0).owe 0x21000005 (cluster / 8) = u
  obtain ⟨hlog, hout⟩ := pacLog_frame u heat kind cluster engine
  have hflag : ∀ (l : List Fld) (t : State), F.PAC_STATUS_THROTTLE_REFUSED ∈ l →
      UnitFrame l t ((t.flagMC F.PAC_STATUS_THROTTLE_REFUSED 0).owe 0x21000005 (cluster / 8)) := fun l t hl =>
    (UnitFrame.wr t (f := F.PAC_STATUS_THROTTLE_REFUSED) (i := 0) 1 (by omega) hl).trans ⟨fun _ _ _ _ => rfl, rfl, rfl, rfl, rfl, rfl⟩
  refine ⟨?_, ?_, ?_⟩
  · refine UnitFrame.trans ?_ (hlog.mono (by decide))
    rw [← hu]
    exact (UnitFrame.bump s (c := C.PAC_REFUSED_CNT) (i := 0) 1 (by omega) (by decide) (by decide)).trans (hflag _ _ (by decide))
  · rw [hlog.fields _ _ (by omega) (by decide), ← hu, (hflag [F.PAC_STATUS_THROTTLE_REFUSED] _ (by decide)).fields _ _ (by omega) (by decide)]
    exact State.rd_bump_same s C.PAC_REFUSED_CNT 0 1 (by decide) (by omega)
  · rw [hout, ← hu]
    intro o ho
    exact List.mem_cons_of_mem _ (by simpa using ho)

theorem duty_refused {s : State} {e : Nat} {v : Nat} (he : e < 2048)
    (h : clampTo 4 16 v < s.rd F.MXE_CTRL_DUTY e ∧ s.on F.MXE_STATUS_BUSY e = true ∧ schedAssured s (e / 64) = true) :
    let t := dutyWrite s e v
    t.rd F.MXE_CTRL_DUTY e = s.rd F.MXE_CTRL_DUTY e ∧ t.rd F.MXE_STATUS_THROTTLE_REFUSED e = 1 ∧
      t.rd F.PAC_REFUSED_CNT_COUNT 0 = (s.rd F.PAC_REFUSED_CNT_COUNT 0 + 1) % 2 ^ 64 ∧ .mc F.MXE_STATUS_THROTTLE_REFUSED e ∈ t.outbox := by
  have he' : e < 131072 := by omega
  have hcluster : clusterOfCore (e / 4) = e / 64 := Nat.div_div_eq_div_mul _ _ _
  rw [dutyWrite, duty_clamp, hcluster, if_pos h]
  obtain ⟨hframe, hcount, hout⟩ := throttleRefused_counts (s.flagMC F.MXE_STATUS_THROTTLE_REFUSED e) 0 3 (e / 64) (e % 64)
  refine ⟨?_, ?_, ?_, hout List.mem_cons_self⟩
  · rw [hframe.fields _ _ he' (by decide)]
    exact State.rd_wr_key (f := F.MXE_CTRL_DUTY) (g := F.MXE_STATUS_THROTTLE_REFUSED) s 1 (by decide) he' he'
  · rw [hframe.fields _ _ he' (by decide)]
    exact State.rd_wr_same s F.MXE_STATUS_THROTTLE_REFUSED e 1
  · rw [hcount, State.flagMC, State.signalMC, State.emit_rd, State.rd_wr_key _ _ (by decide) (by omega) he']

theorem duty_stored {s : State} {e : Nat} {v : Nat} (he : e < 2048)
    (h : ¬ (clampTo 4 16 v < s.rd F.MXE_CTRL_DUTY e ∧ s.on F.MXE_STATUS_BUSY e = true ∧ schedAssured s (e / 64) = true)) :
    let t := dutyWrite s e v
    t.rd F.MXE_CTRL_DUTY e = clampTo 4 16 v ∧ SameRegs s t [(F.MXE_CTRL_DUTY, e)] ∧ t = { s with regs := t.regs } := by
  have hcluster : clusterOfCore (e / 4) = e / 64 := Nat.div_div_eq_div_mul _ _ _
  have hle : clampTo 4 16 v ≤ 16 := clampTo_le (by decide)
  rw [dutyWrite, duty_clamp, hcluster, if_neg h]
  exact ⟨(State.rd_wr_same _ _ _ _).trans (Nat.mod_eq_of_lt (Nat.lt_of_le_of_lt hle (by decide))), .wr s _ _ _ (by omega) (by simp), rfl⟩

theorem preempt_requests {s : State} {e : Nat} {r : MxRun} (he : e < 2048) (hcur : (s.eng e).cur = some r) :
    let t := preempt s e
    SameRegs s t [(F.MXE_CTRL_PREEMPT, e)] ∧ t = { s with regs := t.regs } ∧
      (r.fed = false → preemptible r = true → s.on F.MXE_STATUS_STOPPED e = false → t.rd F.MXE_CTRL_PREEMPT e = 1) := by
  simp only [preempt, hcur]
  split
  · exact ⟨.wr s _ _ _ (by omega) (by simp), rfl, fun _ _ _ => State.rd_wr_same _ _ _ _⟩
  · rename_i hlapse
    exact ⟨.refl s _, rfl, fun hfed hmay hstopped => absurd (by simp [hfed, hmay, hstopped]) hlapse⟩

theorem engineStop_stops {s : State} {e : Nat} {r : MxRun} (he : e < 2048) (hcur : (s.eng e).cur = some r) (hhold : r.hold = .stopPoint)
    (hpreempt : s.on F.MXE_CTRL_PREEMPT e = true) :
    let t := engineStop s e
    t.rd F.MXE_STATUS_STOPPED e = 1 ∧ t.rd F.MXE_RESUME_NB_START e = r.nb % 128 ∧ t.rd F.MXE_RESUME_VALID e = 1 ∧
      t.rd F.MXE_CTRL_PREEMPT e = 0 ∧ t = { s with regs := t.regs } ∧
      SameRegs s t [(F.MXE_STATUS_STOPPED, e), (F.MXE_RESUME_NB_START, e), (F.MXE_RESUME_VALID, e), (F.MXE_CTRL_PREEMPT, e)] := by
  have he' : e < 131072 := by omega
  simp only [engineStop, hcur, hhold, hpreempt, and_self, if_true]
  refine ⟨?_, ?_, ?_, State.rd_wr_same _ _ _ _, rfl, ?_⟩
  · rw [State.rd_wr_key _ _ (by decide) he' he', State.rd_wr_key _ _ (by decide) he' he', State.rd_wr_key _ _ (by decide) he' he',
      State.rd_wr_same]
    rfl
  · rw [State.rd_wr_key _ _ (by decide) he' he', State.rd_wr_key _ _ (by decide) he' he', State.rd_wr_same]
    rfl
  · rw [State.rd_wr_key _ _ (by decide) he' he', State.rd_wr_same]
    rfl
  · exact SameRegs.wr' _ _ _ (.wr' _ _ _ (.wr' _ _ _ (.wr s _ _ _ he' (by simp)) he' (by simp)) he' (by simp)) he' (by simp)

theorem continueStopped_goesOn {s : State} {e : Nat} {r : MxRun} (he : e < 2048) (hcur : (s.eng e).cur = some r)
    (hstaged : (s.eng e).staged = none) (hstopped : s.on F.MXE_STATUS_STOPPED e = true) (hbegun : r.begun = true) :
    let t := continueStopped s e
    t.rd F.MXE_STATUS_STOPPED e = 0 ∧ t.rd F.MXE_RESUME_VALID e = 0 ∧
      (∃ r', (t.eng e).cur = some r' ∧ r'.ins = r.ins ∧ r'.nbStart = s.rd F.MXE_RESUME_NB_START e) := by
  have he' : e < 131072 := by omega
  generalize hs' : emptyShadow ((s.wr F.MXE_RESUME_VALID e 0).wr F.MXE_STATUS_STOPPED e 0) e = s'
  have hrd : ∀ f i, s'.rd f i = ((s.wr F.MXE_RESUME_VALID e 0).wr F.MXE_STATUS_STOPPED e 0).rd f i := by rw [← hs']; exact fun _ _ => rfl
  have hstaged' : (s'.eng e).staged = none := by rw [← hs']; exact ((emptyShadow_held _ e) e).2.1.trans hstaged
  have hgoes : ∀ r₁ : MxRun, r₁.begun = true →
      let t := drive (s'.setRun e r₁) e
      t.rd F.MXE_STATUS_STOPPED e = 0 ∧ t.rd F.MXE_RESUME_VALID e = 0 ∧
        (∃ r', (t.eng e).cur = some r' ∧ r'.ins = r₁.ins ∧ r'.nbStart = r₁.nbStart) := by
    intro r₁ hbegun₁
    have hdriven := drive_driven (s := s') he hstaged' hbegun₁
    refine ⟨(hdriven.frame.fields _ _ he' (by decide)).trans ((hrd _ _).trans ?_),
      (hdriven.frame.fields _ _ he' (by decide)).trans ((hrd _ _).trans ?_), hdriven.cur⟩
    · rw [State.rd_wr_same]; rfl
    · rw [State.rd_wr_key _ _ (by decide) he' he', State.rd_wr_same]; rfl
  have hcontinue := hgoes { r with
    nb := s.rd F.MXE_RESUME_NB_START e, nbStart := s.rd F.MXE_RESUME_NB_START e, kb := 0, mr := 0, since := 31, phase := 0, extra := 0,
    chained := false, nextTable := [], hold := .none, fed := decide (r.ins.mx.nbs ≤ s.rd F.MXE_RESUME_NB_START e) } hbegun
  simpa only [continueStopped, hcur, hstopped, if_true, hs'] using hcontinue

theorem continueStopped_idle {s : State} {e : Nat} (hstopped : s.on F.MXE_STATUS_STOPPED e = false) : continueStopped s e = s := by
  simp only [continueStopped, hstopped, Bool.false_eq_true, if_false]
  split <;> rfl

theorem preempt_idle {s : State} {e : Nat} (hcur : (s.eng e).cur = none) : preempt s e = s := by
  unfold preempt
  rw [hcur]

/-- Settles O16: a fold that goes on keeps its instruction, and an instruction that ends does so with the record of its engine. -/
theorem enginesRunPauseAndComplete : Obligations.EnginesRunPauseAndComplete := by
  unfold Obligations.EnginesRunPauseAndComplete
  refine ⟨⟨fun e beats s r hcur hstaged hbegun hends => ?_, fun e da s o dwait rs htake hready => ⟨_, rfl, dWordWrite_writes htake hready⟩,
      fun e s r hcur hstaged hending hfed hout hscale hspill hquant hp hd hb => ⟨_, rfl, ?_⟩,
      fun e s r hcur hstaged hending hstopped hp hd hb => ⟨_, rfl, dataError_current e.isLt hp hd hb hcur hstaged hending hstopped⟩,
      fun e s r l hending hp hd hb => ⟨_, rfl, dataError_older e.isLt hp hd hb hending⟩⟩,
    fun e value s => ⟨_, rfl, duty_stored e.isLt, duty_refused e.isLt⟩,
    fun e s r hcur => ⟨_, rfl, preempt_requests e.isLt hcur⟩, fun e s hcur => ?_,
    fun e s r hcur hhold hpreempt => ⟨_, rfl, engineStop_stops e.isLt hcur hhold hpreempt⟩,
    fun e s r hcur hstaged hstopped hbegun => ⟨_, rfl, continueStopped_goesOn e.isLt hcur hstaged hstopped hbegun⟩,
    fun e s hstopped => congrArg _ (continueStopped_idle hstopped)⟩
  · refine ⟨_, ?_, resumeFold_resumes beats e.isLt hstaged hbegun⟩
    rcases hends with ⟨hhold, hgoes⟩ | ⟨hhold, hrows⟩
    · rw [if_pos hhold]
      exact congrArg _ (feedResume_resumes beats hcur hhold hbegun hgoes)
    · rw [if_neg (by rw [hhold]; decide)]
      exact congrArg _ (outputPathResume_resumes beats hcur hhold hrows)
  · exact matmulComplete_completes e.isLt hp hd hb hcur hstaged hending (by simp [MxRun.whole, hfed, hout, hscale, hspill]) hquant
  · exact congrArg _ (preempt_idle hcur)

end Sys2Proof.Machine
end

section
/-!
PROOFS. The convert unit and the history slots (R33, R82, R92, R95, R103, R118): an operation that is taken up, one that waits, one that
completes, and one that is refused.
-/
namespace Sys2Proof.Machine

/-! ### The unit's place in the tile -/

theorem State.convOp_setConv (s : State) (k : Nat) (o : Option ConvOp) : (s.setConv k o).convOp k = o := Tab.get_set_same _ _ _ _

theorem State.convOp_of_conv {s t : State} (h : t.tile.conv = s.tile.conv) (k : Nat) : t.convOp k = s.convOp k := by
  rw [State.convOp, h, State.convOp]

theorem State.convOp_countIssue (s : State) (q k : Nat) : (s.countIssue q).convOp k = s.convOp k :=
  State.convOp_of_conv (congrArg Tile.conv (countIssue_tile s q)) k

@[simp] theorem doneHead_convOp (s : State) (q k : Nat) : (s.doneHead q).convOp k = s.convOp k := rfl

theorem countIssue_trk (s : State) (q : Nat) : (s.countIssue q).trk = s.trk := by simp [State.countIssue]

theorem coreOfQueue_lt {q : Nat} (hq : q < 4096) : coreOfQueue q < 512 := by unfold coreOfQueue; omega

/-! ### The end of an operation -/

/-- The register fields that an operation changes when it ends, besides BUSY. -/
def closeFields : List Fld :=
  [F.QNT_CONV_CNT_COUNT, F.QNT_WRAP_CONV, F.QNT_ESC_CNT_COUNT, F.QNT_WRAP_ESC, F.QNT_DEGEN_CNT_COUNT, F.QNT_WRAP_DEGEN,
   F.QNT_STATUS_SIDE_FULL, F.QNT_STATUS_STATS_SAT, F.QNT_STATUS_THRESHOLD, F.QNT_STATUS_DESC_ERR, F.QNT_STATUS_DESC_CAUSE,
   F.HUR_WIN_CREDIT_CREDIT]

/-- From `s` to `t`, an operation has closed: no convert unit has taken up or given up an operation. -/
structure ClosingFrame (s t : State) : Prop where
  frame : UnitFrame closeFields s t
  conv : t.tile.conv = s.tile.conv

theorem ClosingFrame.refl (s : State) : ClosingFrame s s := ⟨.refl _ s, rfl⟩

theorem ClosingFrame.trans {s t u : State} (h : ClosingFrame s t) (h' : ClosingFrame t u) : ClosingFrame s u :=
  ⟨h.frame.trans h'.frame, h'.conv.trans h.conv⟩

theorem ClosingFrame.of_store {s t : State} (h : StoreFrame s t) : ClosingFrame s t := ⟨.of_store h (by decide), by rw [h.tile]⟩

theorem ClosingFrame.wrIf (s : State) (c : Bool) {f : Fld} {i : Nat} (v : Nat) (hi : i < 131072) (hf : f ∈ closeFields) :
    ClosingFrame s (s.wrIf c f i v) :=
  ⟨.wrIf s c v hi hf, by unfold State.wrIf; split <;> rfl⟩

theorem ClosingFrame.bump (s : State) {c : Cnt} {i : Nat} (n : Nat) (hi : i < 131072) (hc : c.fld ∈ closeFields)
    (hw : c.wrapFld ∈ closeFields) : ClosingFrame s (s.bump c i n) :=
  ⟨.bump s n hi hc hw, by simp⟩

section
variable (s : State) {k : Nat} (hk : k < 512)
include hk

theorem updateStats_closing (da : Nat) (t : ConvStats) : ClosingFrame s (updateStats s k da t) := by
  unfold updateStats
  dsimp only
  exact (ClosingFrame.of_store (.foldl s fun u _ _ => u.storeWord_frame _ _)).trans (.wrIf _ _ _ (by omega) (by decide))

theorem closeConversion_closing (d : QDesc) (sl : List Nat) (ch : List ChanTrk) (t : ConvStats) (elems : Nat) :
    ClosingFrame s (closeConversion s k d sl ch t elems) := by
  unfold closeConversion
  extract_lets merged counted flagged
  have hk' : k < 131072 := by omega
  have hmerged : ClosingFrame s merged :=
    List.foldlRecOn sl.zipIdx _ (motive := ClosingFrame s) (.refl s) fun u hu _ _ => hu.trans ⟨.setSlot u _ _ _, rfl⟩
  have hcounted : ClosingFrame s counted :=
    ((hmerged.trans (.bump _ (c := C.QNT_CONV_CNT) _ hk' (by decide) (by decide))).trans
      (.bump _ (c := C.QNT_ESC_CNT) _ hk' (by decide) (by decide))).trans (.bump _ (c := C.QNT_DEGEN_CNT) _ hk' (by decide) (by decide))
  have hflagged : ClosingFrame s flagged := hcounted.trans (.wrIf _ _ _ hk' (by decide))
  split
  · exact hflagged.trans (updateStats_closing _ hk _ _)
  · exact hflagged

theorem thresholdFault_closing : ClosingFrame s (thresholdFault s k) := by
  have hflag : ClosingFrame s (s.wr F.QNT_STATUS_THRESHOLD k 1) := ⟨.wr s 1 (by omega) (by decide), rfl⟩
  unfold thresholdFault
  dsimp only
  split
  · exact hflag.trans ⟨.emit _ _, rfl⟩
  · exact hflag

end

/-! ### The record of a convert operation (R125) -/

/-- From `s` to `t`, the record of instruction `i` has been written, for operation `op` with status `status`. -/
structure ConvRecorded (s t : State) (i : OpIns) (op status : Nat) : Prop where
  store : StoreFrame s t
  low : bits (t.word (i.recDA / 8)) 0 16 = status + op * 2 ^ 8
  status : bits (t.word (i.recDA / 8)) 0 8 = status
  op : bits (t.word (i.recDA / 8)) 8 8 = op
  tag : bits (t.word (i.recDA / 8)) 32 32 = recTag i.word i.queue
  bytes : SameBytes s t i.recDA 64

theorem cvRecord_recorded {s : State} {k : Nat} {i : OpIns} {status : Nat} (kind fmt blk : Nat) (sr : Bool) (c : OpCounts) (nb fi w5 : Nat)
    (hs : status < 2 ^ 8) (hp : recordPlace (clusterOfCore k) i.recDA = true) (hd : padDown s i.recDA = false)
    (hb : padBusy s i.recDA = false) :
    ConvRecorded s (cvRecord s k i (recordWords (cvHead i kind status fmt blk sr) c nb fi w5)) i (if kind = 1 then 4 else 3) status := by
  have hop : (cvHead i kind status fmt blk sr).op = if kind = 1 then 4 else 3 := rfl
  have hstatus : (cvHead i kind status fmt blk sr).status = status := rfl
  have htag : (cvHead i kind status fmt blk sr).tag = recTag i.word i.queue := rfl
  obtain ⟨hlow, hst, hopr, hhigh⟩ := recordWords_first (cvHead i kind status fmt blk sr) c nb fi w5 hs (by rw [hop]; split <;> decide)
  rw [htag, Nat.mod_eq_of_lt (recTag_lt _ _)] at hhigh
  rw [hop] at hlow hopr
  rw [hstatus] at hlow hst
  generalize recordWords (cvHead i kind status fmt blk sr) c nb fi w5 = ws at *
  have heq : cvRecord s k i ws = writeRecord s i.recDA ws := by simp [cvRecord, putRecord_core hp hd hb, State.wrIf]
  have hrec := writeRecord_recorded s i.recDA ws (recordPlace_aligned hp)
  rw [heq]
  exact ⟨writeRecord_frame s _ ws, by rw [hrec.word, hlow], by rw [hrec.word, hst], by rw [hrec.word, hopr], by rw [hrec.word, hhigh], hrec.bytes⟩

/-- A refusal: the record stands with CONFIG_ERR, and no byte outside it has changed. -/
theorem cvRefuse_recorded {s : State} {k kind : Nat} {i : OpIns} {r : Reject} (hk : k < 512)
    (hp : recordPlace (clusterOfCore k) i.recDA = true) (hd : padDown s i.recDA = false) (hb : padBusy s i.recDA = false) :
    ClosingFrame s (cvRefuse s k kind i r) ∧
      ∃ s', s'.sram = s.sram ∧ ConvRecorded s' (cvRefuse s k kind i r) i (if kind = 1 then 4 else 3) 0x01 := by
  unfold cvRefuse
  extract_lets d s'
  have hs' : ClosingFrame s s' ∧ s'.sram = s.sram := by
    simp only [s']
    split
    · have hflag : UnitFrame closeFields s (s.wr F.QNT_STATUS_DESC_ERR k 1) := .wr s 1 (by omega) (by decide)
      exact ⟨⟨hflag.trans (.wr _ _ (by omega) (by decide)), rfl⟩, rfl⟩
    · exact ⟨.refl s, rfl⟩
  have hrec := cvRecord_recorded (status := 0x01) kind d.tfmt d.tblk false (OpCounts.start s'.trk.ts) 0 0 0 (by decide) hp
    ((padDown_congr hs'.1.frame.rst _).trans hd) ((hs'.1.frame.padBusy (by decide) _).trans hb)
  exact ⟨hs'.1.trans (.of_store hrec.store), s', hs'.2, hrec⟩

/-- The record in memory, when before and after it only other parts of the device have changed. -/
theorem ConvRecorded.inMemory {s s' t t' : State} {i : OpIns} {op status : Nat} (h : ConvRecorded s' t i op status)
    (hs : s'.sram = s.sram) (ht : t'.sram = t.sram) :
    bits (t'.word (i.recDA / 8)) 0 16 = status + op * 2 ^ 8 ∧ SameBytes s t' i.recDA 64 := by
  rw [State.word_of_sram ht]
  exact ⟨h.low, h.bytes.of_sram hs.symm ht⟩

/-- From `s` to `t`, the unit of core `k` has ended instruction `i`: it is free, and the record of operation `op` stands. -/
structure ConvEnded (s t : State) (k : Nat) (i : OpIns) (op status : Nat) : Prop where
  frame : UnitFrame (F.QNT_STATUS_BUSY :: closeFields) s t
  free : t.convOp k = none
  idle : t.rd F.QNT_STATUS_BUSY k = 0
  low : bits (t.word (i.recDA / 8)) 0 16 = status + op * 2 ^ 8
  status : bits (t.word (i.recDA / 8)) 0 8 = status
  op : bits (t.word (i.recDA / 8)) 8 8 = op
  tag : bits (t.word (i.recDA / 8)) 32 32 = recTag i.word i.queue

/-- A unit that has given its operation up, closed it and recorded it has ended it. -/
theorem ConvRecorded.ended {s u t : State} {k : Nat} {i : OpIns} {op status : Nat} (hk : k < 512) (h : ConvRecorded u t i op status)
    (hu : ClosingFrame ((s.setConv k none).wr F.QNT_STATUS_BUSY k 0) u) : ConvEnded s t k i op status := by
  have hall := hu.trans (.of_store h.store)
  have hfreed : UnitFrame (F.QNT_STATUS_BUSY :: closeFields) s ((s.setConv k none).wr F.QNT_STATUS_BUSY k 0) :=
    (UnitFrame.setConv s k none).trans (.wr _ _ (by omega) (by decide))
  exact
    { h with
      frame := hfreed.trans (hall.frame.mono (by decide))
      free := (State.convOp_of_conv hall.conv k).trans (State.convOp_setConv s k none)
      idle := (hall.frame.fields _ _ (by omega) (by decide)).trans (State.rd_wr_same _ _ _ _) }

section
variable {s : State} {k : Nat} {o : ConvOp} (hk : k < 512) (hp : recordPlace (clusterOfCore k) o.ins.recDA = true)
  (hd : padDown s o.ins.recDA = false) (hb : padBusy s o.ins.recDA = false)
include hk hp hd hb

theorem cvFinish_convert (hkind : o.kind = 0) :
    ∃ status, ConvEnded s (cvFinish s k o) k o.ins 3 status ∧ (overLimit (qdesc o.desc) o.cnt = false → status = 0) := by
  unfold cvFinish
  extract_lets freed d _ _ closed past faulted
  simp only [hkind]
  have hclosed : ClosingFrame freed closed := closeConversion_closing _ hk _ _ _ _ _
  have hfaulted : ClosingFrame freed faulted := by
    simp only [faulted]
    split
    · exact hclosed.trans (thresholdFault_closing _ hk)
    · exact hclosed
  have hfreed : UnitFrame [F.QNT_STATUS_BUSY] s freed := (UnitFrame.setConv s k none).trans (.wr _ _ (by omega) (by decide))
  have hrec := cvRecord_recorded (status := if past then 0x03 else 0x00) 0 d.tfmt d.tblk d.rnd o.cnt 0 0
    (fiIndex (o.cnt.firstConv.map (·.k))) (by split <;> decide) hp
    ((padDown_congr (hfaulted.frame.rst.trans hfreed.rst) _).trans hd)
    ((hfaulted.frame.padBusy (by decide) _).trans ((hfreed.padBusy (by decide) _).trans hb))
  exact ⟨_, hrec.ended hk hfaulted, fun h => by simp only [past, d, h, Bool.false_eq_true, if_false]⟩

theorem cvFinish_table (hkind : o.kind = 1) : ConvEnded s (cvFinish s k o) k o.ins 4 0 := by
  unfold cvFinish
  extract_lets freed
  simp only [hkind]
  have hfreed : UnitFrame [F.QNT_STATUS_BUSY] s freed := (UnitFrame.setConv s k none).trans (.wr _ _ (by omega) (by decide))
  have hopen : ClosingFrame freed freed.fresh.2 := ⟨.fresh freed, rfl⟩
  have hrec := cvRecord_recorded (status := 0x00) 1 (freed.fresh.1 % 32) 0 false o.cnt 0 0
    (fiIndex (o.cnt.firstConv.map (·.k))) (by decide) hp
    ((padDown_congr (hopen.frame.rst.trans hfreed.rst) _).trans hd)
    ((hopen.frame.padBusy (by decide) _).trans ((hfreed.padBusy (by decide) _).trans hb))
  exact hrec.ended hk hopen

end

end Sys2Proof.Machine
end

section
/-!
PROOFS. CONVERT and TABLE at the head of a queue, the second phase of a spilled instruction, and the clears of history slots
(R33, R82, R91, R92, R95, R103, R118).
-/
namespace Sys2Proof.Machine

/-! ### An operation that is taken up (R82) -/

/-- The state in which a free unit of core `k` first looks at operation `o`. -/
def convTaken (s : State) (k : Nat) (o : ConvOp) : State := (s.setConv k (some o)).wr F.QNT_STATUS_BUSY k 1

theorem convTaken_convOp (s : State) (k : Nat) (o : ConvOp) : (convTaken s k o).convOp k = some o := State.convOp_setConv s k (some o)

theorem convTaken_frame (s : State) {k : Nat} (hk : k < 512) (o : ConvOp) : UnitFrame [F.QNT_STATUS_BUSY] s (convTaken s k o) :=
  (UnitFrame.setConv s k (some o)).trans (.wr _ _ (by omega) (by decide))

theorem convTaken_busy (s : State) (k : Nat) (o : ConvOp) : (convTaken s k o).rd F.QNT_STATUS_BUSY k = 1 := State.rd_wr_same _ _ _ _

theorem convTaken_regs (s : State) {k : Nat} (hk : k < 512) (o : ConvOp) : SameRegs s (convTaken s k o) [(F.QNT_STATUS_BUSY, k)] :=
  SameRegs.wr' F.QNT_STATUS_BUSY k 1 (.of_regs (s := s) (t := s.setConv k (some o)) rfl _) (by omega) List.mem_cons_self

theorem cvDrive_unreadable {s : State} {k : Nat} {o : ConvOp} (hop : s.convOp k = some o) (h : wordsReadable s (cvReads o) = false) :
    cvDrive s k = s := by
  simp [cvDrive, hop, h]

theorem cvDrive_convert {s : State} {k : Nat} {o f : ConvOp} (hop : s.convOp k = some o) (hkind : o.kind = 0) (hformed : o.formed = false)
    (hread : wordsReadable s (cvReads o) = true) (hwait : o.ins.cvDwait = false)
    (hf : cvForm (qdesc o.desc) o.scales (convSource s o.ins) o.ins.cvLen o.ins.cvDst o.ins.cvDstS none o = f)
    (hready : f.writes.all (outReady s (.conv k) false) = true) :
    cvDrive s k = cvFinish (putWords s (.conv k) false f.writes).1 k { f with writes := [], cnt := f.cnt.wrote f.writes [] s.trk.ts } := by
  have hkind' : f.kind = 0 := hf ▸ hkind
  rw [convSource] at hf
  simp only [cvDrive, hop, hkind, hformed, hread, hwait, Bool.not_true, Bool.or_self, Bool.false_eq_true, if_false, hf, hkind',
    OfNat.zero_ne_ofNat, putWords_all hready, List.isEmpty_nil, if_true]

theorem cvDrive_table {s : State} {k : Nat} {o : ConvOp} (hop : s.convOp k = some o) (hkind : o.kind = 1) (hformed : o.formed = false)
    (hread : wordsReadable s (cvReads o) = true) (hwait : o.ins.cvDwait = false)
    (hready : (tableForm s o).writes.all (outReady s (.conv k) false) = true) :
    cvDrive s k = cvFinish (putWords s (.conv k) false (tableForm s o).writes).1 k
      { tableForm s o with writes := [], cnt := (tableForm s o).cnt.wrote (tableForm s o).writes [] s.trk.ts } := by
  have hkind' : (tableForm s o).kind = 1 := hkind
  simp only [cvDrive, hop, hkind, hformed, hread, hwait, Bool.not_true, Bool.or_self, Bool.false_eq_true, if_false, hkind',
    Nat.reduceEqDiff, putWords_all hready, List.isEmpty_nil, if_true]

theorem cvBegin_waits {s : State} {k : Nat} {o : ConvOp} (hk : k < 512) (h : wordsReadable s (cvReads o) = false) :
    cvBegin s k o = convTaken s k o :=
  cvDrive_unreadable (convTaken_convOp s k o) (((convTaken_frame s hk o).wordsReadable (by decide) rfl _).trans h)

theorem ConvEnded.after {s u t : State} {k : Nat} {i : OpIns} {op status : Nat} (h : ConvEnded u t k i op status)
    (hu : UnitFrame (F.QNT_STATUS_BUSY :: closeFields) s u) : ConvEnded s t k i op status :=
  { h with frame := hu.trans h.frame }

/-- The time of an operation's last word is no count with a limit. -/
theorem overLimit_wrote (d : QDesc) (c : OpCounts) (before left : List OutWrite) (ts : Nat) :
    overLimit d (c.wrote before left ts) = overLimit d c := by
  unfold OpCounts.wrote; split <;> rfl

/-- The results of an operation that a free unit has taken up are on their way, as far as the operation's end is concerned. -/
theorem convTaken_written (s : State) {k : Nat} (hk : k < 512) (o : ConvOp) (ws : List OutWrite) :
    UnitFrame (F.QNT_STATUS_BUSY :: closeFields) s (putWords (convTaken s k o) (.conv k) false ws).1 :=
  ((convTaken_frame s hk o).mono (by decide)).trans ((putWords_frame _ _ _ _).1.mono (by decide))

section
variable {s : State} {k : Nat} {o : ConvOp} (hk : k < 512) (hformed : o.formed = false) (hread : wordsReadable s (cvReads o) = true)
  (hwait : o.ins.cvDwait = false) (hp : recordPlace (clusterOfCore k) o.ins.recDA = true) (hd : padDown s o.ins.recDA = false)
  (hb : padBusy s o.ins.recDA = false)
include hk hformed hread hwait hp hd hb

theorem cvBegin_convert {f : ConvOp} (hkind : o.kind = 0)
    (hf : cvForm (qdesc o.desc) o.scales (convSource s o.ins) o.ins.cvLen o.ins.cvDst o.ins.cvDstS none o = f)
    (hready : f.writes.all (outReady s (.conv k) false) = true) :
    ∃ status, ConvEnded s (cvBegin s k o) k o.ins 3 status ∧ (overLimit (qdesc o.desc) f.cnt = false → status = 0) := by
  have htaken := convTaken_frame s hk o
  have hsame : outReady (convTaken s k o) (.conv k) false = outReady s (.conv k) false := funext (htaken.outReady (by decide) _)
  have hdrive := cvDrive_convert (convTaken_convOp s k o) hkind hformed ((htaken.wordsReadable (by decide) rfl _).trans hread) hwait hf
    (hsame ▸ hready)
  have hwritten := convTaken_written s hk o f.writes
  obtain ⟨hins, hdesc, hkind'⟩ : f.ins = o.ins ∧ f.desc = o.desc ∧ f.kind = 0 := by rw [← hf]; exact ⟨rfl, rfl, hkind⟩
  generalize hg : ({ f with writes := [], cnt := f.cnt.wrote f.writes [] (convTaken s k o).trk.ts } : ConvOp) = g at hdrive
  have hgins : g.ins = o.ins := by rw [← hg, hins]
  obtain ⟨status, hended, hstatus⟩ := cvFinish_convert (o := g) hk (by rw [hgins]; exact hp)
    (by rw [hgins, padDown_congr hwritten.rst]; exact hd) (by rw [hgins, hwritten.padBusy (by decide)]; exact hb) (by rw [← hg, hkind'])
  have hlimit : overLimit (qdesc g.desc) g.cnt = overLimit (qdesc o.desc) f.cnt := by rw [← hg, ← hdesc]; exact overLimit_wrote _ _ _ _ _
  rw [hgins] at hended
  rw [hlimit] at hstatus
  exact ⟨status, (show cvBegin s k o = _ from hdrive) ▸ hended.after hwritten, hstatus⟩

theorem cvBegin_table (hkind : o.kind = 1) (hready : (tableForm s o).writes.all (outReady s (.conv k) false) = true) :
    ConvEnded s (cvBegin s k o) k o.ins 4 0 := by
  have htaken := convTaken_frame s hk o
  have hsame : outReady (convTaken s k o) (.conv k) false = outReady s (.conv k) false := funext (htaken.outReady (by decide) _)
  have hdrive := cvDrive_table (convTaken_convOp s k o) hkind hformed ((htaken.wordsReadable (by decide) rfl _).trans hread) hwait
    (hsame ▸ hready)
  have hwritten := convTaken_written s hk o (tableForm (convTaken s k o) o).writes
  have hended := cvFinish_table (o := { tableForm (convTaken s k o) o with
      writes := [], cnt := (tableForm (convTaken s k o) o).cnt.wrote (tableForm (convTaken s k o) o).writes [] (convTaken s k o).trk.ts })
    hk hp ((padDown_congr hwritten.rst _).trans hd) ((hwritten.padBusy (by decide) _).trans hb) hkind
  exact (show cvBegin s k o = _ from hdrive) ▸ hended.after hwritten

end

/-! ### CONVERT and TABLE at the head (R33, R118) -/

theorem convSource_of_sram {s t : State} (h : t.sram = s.sram) (i : OpIns) : convSource t i = convSource s i := by
  simp only [convSource, h]

theorem tableForm_of_sram {s t : State} (h : t.sram = s.sram) (o : ConvOp) : tableForm t o = tableForm s o := by
  unfold tableForm
  rw [h]

theorem ConvOp.taken_countIssue (s : State) (q kind : Nat) (i : OpIns) (desc : List Nat) :
    ConvOp.taken (s.countIssue q) kind i desc = ConvOp.taken s kind i desc := by
  simp only [ConvOp.taken, countIssue_trk]

/-- Without delayed scaling an instruction names no history slot, and its judgement rests on on-chip memory alone. -/
theorem QDesc.slots_of_current {d : QDesc} (h : d.delayed = false) (rows cols : Nat) : d.slots rows cols = [] := by
  simp [QDesc.slots, h]

theorem slotCause_nil (s : State) (k queue : Nat) : slotCause s k queue [] = none := by simp [slotCause]

theorem cvReject_of_sram {s t : State} (k : Nat) {i : OpIns} (h : t.sram = s.sram) (hdelayed : (i.desc s).delayed = false) :
    cvReject t k i = cvReject s k i := by
  simp [cvReject, OpIns.desc_of_sram h, QDesc.slots_of_current hdelayed, slotCause_nil]

theorem exec_convert {s : State} {q : Fin 4096} (h : Issues s q 2 0x00) : exec (.convert q) s = .next (convertEff s q (s.headWord q)) :=
  congrArg _ (issue_eq h _)

theorem exec_table {s : State} {q : Fin 4096} (h : Issues s q 2 0x01) : exec (.table q) s = .next (tableEff s q (s.headWord q)) :=
  congrArg _ (issue_eq h _)

section
variable {s : State} {q : Nat}

theorem convertEff_of_busy (w : Nat) (h : (s.convOp (coreOfQueue q)).isSome = true) : convertEff s q w = s.holdHead q 0x2 .plain := by
  simp [convertEff, h]

theorem tableEff_of_busy (w : Nat) (h : (s.convOp (coreOfQueue q)).isSome = true) : tableEff s q w = s.holdHead q 0x2 .plain := by
  simp [tableEff, h]

/-- A free unit judges a CONVERT without delayed scaling at once. -/
theorem convertEff_of_free (hfree : s.convOp (coreOfQueue q) = none) (hdelayed : ((headIns s q 3).desc s).delayed = false) :
    (∀ r, cvReject s (coreOfQueue q) (headIns s q 3) = some r →
      convertEff s q (s.headWord q) = (cvRefuse (s.countIssue q) (coreOfQueue q) 0 (headIns s q 3) r).doneHead q) ∧
    (cvReject s (coreOfQueue q) (headIns s q 3) = none →
      convertEff s q (s.headWord q) =
        (cvBegin (s.countIssue q) (coreOfQueue q) (ConvOp.taken s 0 (headIns s q 3) (readDesc s (headIns s q 3).sqd))).doneHead q) := by
  have hjudged := cvReject_of_sram (t := s.countIssue q) (coreOfQueue q) (countIssue_memory s q).1 hdelayed
  unfold convertEff
  extract_lets k i dw d sl issued owned warm noted _ u
  have hsl : sl = [] := by
    simp only [sl]
    split
    · exact QDesc.slots_of_current hdelayed _ _
    · rfl
  have hwarm : warm = false := by simp only [warm, hsl]; rfl
  have hnoted : noted = s.countIssue q := by simp only [noted, hwarm, owned, hsl]; rfl
  have hjudge : ∀ x, cvReject s (coreOfQueue q) (headIns s q 3) = x → cvReject issued k i = x := fun x hx => hjudged.trans hx
  rw [show s.convOp k = none from hfree, hsl, slotsBusy_nil]
  refine ⟨fun r hr => ?_, fun hr => ?_⟩
  · simp only [u, hjudge _ hr]
    rfl
  · rw [← ConvOp.taken_countIssue s q]
    simp only [u, hjudge _ hr, hnoted, hwarm, hsl]
    rfl

/-- A free unit judges a TABLE at once. -/
theorem tableEff_of_free (hfree : s.convOp (coreOfQueue q) = none) :
    (∀ r, tableReject (coreOfQueue q) { headIns s q 3 with sqd := 0 } = some r →
      tableEff s q (s.headWord q) = (cvRefuse (s.countIssue q) (coreOfQueue q) 1 { headIns s q 3 with sqd := 0 } r).doneHead q) ∧
    (tableReject (coreOfQueue q) { headIns s q 3 with sqd := 0 } = none →
      tableEff s q (s.headWord q) =
        (cvBegin (s.countIssue q) (coreOfQueue q) (ConvOp.taken s 1 { headIns s q 3 with sqd := 0 } [])).doneHead q) := by
  unfold tableEff
  extract_lets head k i issued u
  have hjudge : ∀ x, tableReject (coreOfQueue q) { headIns s q 3 with sqd := 0 } = x → tableReject k i = x := fun _ hx => hx
  rw [show s.convOp k = none from hfree]
  refine ⟨fun r hr => ?_, fun hr => ?_⟩
  · simp only [u, hjudge _ hr]
    rfl
  · rw [← ConvOp.taken_countIssue s q]
    simp only [u, hjudge _ hr]
    rfl

/-! #### After the head -/

variable (hq : q < 4096)
include hq

theorem waitingHead {o : ConvOp} (h : wordsReadable s (cvReads o) = false) :
    let t := (cvBegin (s.countIssue q) (coreOfQueue q) o).doneHead q
    t.convOp (coreOfQueue q) = some o ∧ t.rd F.QNT_STATUS_BUSY (coreOfQueue q) = 1 ∧ Finished s t q ∧ t.sram = s.sram ∧ t.full = s.full := by
  have hk := coreOfQueue_lt hq
  have hread := (countIssue_frame s hq).wordsReadable (by decide) (countIssue_memory s q).2 (cvReads o)
  rw [cvBegin_waits hk (hread.trans h)]
  exact ⟨convTaken_convOp _ _ o, (doneHead_keeps _ hq (by omega) (by decide)).trans (convTaken_busy _ _ o),
    (convTaken_frame _ hk o).finished hq (by decide) (by decide), countIssue_memory s q⟩

theorem endedHead {u : State} {i : OpIns} {op status : Nat} (h : ConvEnded (s.countIssue q) u (coreOfQueue q) i op status) :
    (u.doneHead q).convOp (coreOfQueue q) = none ∧ (u.doneHead q).rd F.QNT_STATUS_BUSY (coreOfQueue q) = 0 ∧
      (u.doneHead q).word (i.recDA / 8) = u.word (i.recDA / 8) ∧ Finished s (u.doneHead q) q := by
  have hk := coreOfQueue_lt hq
  exact ⟨h.free, (doneHead_keeps u hq (by omega) (by decide)).trans h.idle, rfl, h.frame.finished hq (by decide) (by decide)⟩

section
variable {i : OpIns} (hp : recordPlace (clusterOfQueue q) i.recDA = true) (hd : padDown s i.recDA = false) (hb : padBusy s i.recDA = false)
include hp hd hb

/-- The place of a record is as good for the unit, after the issue, as it was for the queue before. -/
theorem recordReady :
    recordPlace (clusterOfCore (coreOfQueue q)) i.recDA = true ∧ padDown (s.countIssue q) i.recDA = false ∧
      padBusy (s.countIssue q) i.recDA = false := by
  have hcluster : clusterOfCore (coreOfQueue q) = clusterOfQueue q := Nat.div_div_eq_div_mul _ _ _
  exact ⟨hcluster ▸ hp, (padDown_congr (countIssue_frame s hq).rst _).trans hd, ((countIssue_frame s hq).padBusy (by decide) _).trans hb⟩

theorem refusedHead (hfree : s.convOp (coreOfQueue q) = none) (kind : Nat) (r : Reject) :
    let t := (cvRefuse (s.countIssue q) (coreOfQueue q) kind i r).doneHead q
    t.convOp (coreOfQueue q) = none ∧ bits (t.word (i.recDA / 8)) 0 16 = 0x01 + (if kind = 1 then 4 else 3) * 2 ^ 8 ∧ Finished s t q ∧
      SameBytes s t i.recDA 64 := by
  obtain ⟨hp', hd', hb'⟩ := recordReady hq hp hd hb
  obtain ⟨hclosed, s', hsram, hrec⟩ := cvRefuse_recorded (kind := kind) (r := r) (coreOfQueue_lt hq) hp' hd' hb'
  obtain ⟨hlow, hbytes⟩ := hrec.inMemory (s := s) (hsram.trans (countIssue_memory s q).1) (doneHead_sram _ q)
  refine ⟨?_, hlow, hclosed.frame.finished hq (by decide) (by decide), hbytes⟩
  exact (doneHead_convOp _ _ _).trans <| (State.convOp_of_conv hclosed.conv _).trans ((State.convOp_countIssue s q _).trans hfree)

variable {o : ConvOp} (hins : o.ins = i) (hformed : o.formed = false) (hread : wordsReadable s (cvReads o) = true) (hwait : i.cvDwait = false)
include hins hformed hread hwait

theorem convertHead {f : ConvOp} (hkind : o.kind = 0)
    (hf : cvForm (qdesc o.desc) o.scales (convSource s i) i.cvLen i.cvDst i.cvDstS none o = f)
    (hready : f.writes.all (outReady s (.conv (coreOfQueue q)) false) = true) :
    let t := (cvBegin (s.countIssue q) (coreOfQueue q) o).doneHead q
    t.convOp (coreOfQueue q) = none ∧ t.rd F.QNT_STATUS_BUSY (coreOfQueue q) = 0 ∧ bits (t.word (i.recDA / 8)) 8 8 = 3 ∧
      (overLimit (qdesc o.desc) f.cnt = false → bits (t.word (i.recDA / 8)) 0 8 = 0) ∧
      bits (t.word (i.recDA / 8)) 32 32 = recTag i.word i.queue ∧ Finished s t q := by
  subst hins
  obtain ⟨hp', hd', hb'⟩ := recordReady hq hp hd hb
  have hissued := countIssue_frame s hq
  have hsame : outReady (s.countIssue q) (.conv (coreOfQueue q)) false = outReady s (.conv (coreOfQueue q)) false :=
    funext (hissued.outReady (by decide) _)
  obtain ⟨status, hended, hstatus⟩ := cvBegin_convert (coreOfQueue_lt hq) hformed
    ((hissued.wordsReadable (by decide) (countIssue_memory s q).2 _).trans hread) hwait hp' hd' hb' hkind
    (by rwa [convSource_of_sram (countIssue_memory s q).1]) (hsame ▸ hready)
  obtain ⟨hfree, hidle, hword, hdone⟩ := endedHead hq hended
  dsimp only
  rw [hword]
  exact ⟨hfree, hidle, hended.op, fun h => hended.status.trans (hstatus h), hended.tag, hdone⟩

theorem tableHead (hkind : o.kind = 1) (hready : (tableForm s o).writes.all (outReady s (.conv (coreOfQueue q)) false) = true) :
    let t := (cvBegin (s.countIssue q) (coreOfQueue q) o).doneHead q
    t.convOp (coreOfQueue q) = none ∧ t.rd F.QNT_STATUS_BUSY (coreOfQueue q) = 0 ∧ bits (t.word (i.recDA / 8)) 0 16 = 0x0400 ∧
      Finished s t q := by
  subst hins
  obtain ⟨hp', hd', hb'⟩ := recordReady hq hp hd hb
  have hissued := countIssue_frame s hq
  have hsame : outReady (s.countIssue q) (.conv (coreOfQueue q)) false = outReady s (.conv (coreOfQueue q)) false :=
    funext (hissued.outReady (by decide) _)
  have hended := cvBegin_table (coreOfQueue_lt hq) hformed
    ((hissued.wordsReadable (by decide) (countIssue_memory s q).2 _).trans hread) hwait hp' hd' hb' hkind
    (by rw [tableForm_of_sram (countIssue_memory s q).1, hsame]; exact hready)
  obtain ⟨hfree, hidle, hword, hdone⟩ := endedHead hq hended
  dsimp only
  rw [hword]
  exact ⟨hfree, hidle, hended.low, hdone⟩

end

end

end Sys2Proof.Machine
end

section
/-!
PROOFS. The second phase of a spilled instruction (R91), the clears of history slots (R92, R95), and what CONVERT, TABLE and these do.
-/
namespace Sys2Proof.Machine

/-! ### The second phase of a spilled instruction (R91) -/

theorem spillConvert_waits {s : State} {e : Nat} {r : MxRun} (he : e < 2048)
    (hrun : (s.eng e).runs.find? (fun r => r.spill && !r.spilled && r.fed && r.out.isEmpty) = some r) (hfree : s.convOp (e / 4) = none)
    (hread : wordsReadable s ((List.range r.ins.mx.m).flatMap (fun m =>
      elemWords ((qdesc r.desc).spillDA + m * alignUp (4 * r.ins.mx.n) 8) 0 0 r.ins.mx.n)) = false) :
    ∃ o, spillConvert s e = convTaken s (e / 4) o ∧ o.kind = 2 ∧ o.engine = e ∧ o.ins = r.ins := by
  simp only [spillConvert, hrun, hfree, Option.isNone_none, if_true]
  refine ⟨_, cvBegin_waits (by omega) ?_, rfl, rfl, rfl⟩
  exact hread

/-! ### Clears of history slots (R92, R95) -/

theorem State.slot_setSlot (s : State) {k i : Nat} (h : HistSlot) (hi : i < 4096) {j n : Nat} (hn : n < 4096) :
    (s.setSlot k i h).slot j n = if j = k ∧ n = i then h else s.slot j n :=
  (Tab.get_set _ _ _ _ _).trans (if_congr (by omega) rfl rfl)

theorem State.clearingSlots_setClearing (s : State) (k : Nat) (l : List Nat) : (s.setClearing k l).clearingSlots k = l :=
  Tab.get_set_same _ _ _ _

theorem slot_clearAllSlots (s : State) (k j : Nat) {i : Nat} (hi : i < 4096) :
    (clearAllSlots s k).slot j i = if j = k then HistSlot.clear else s.slot j i := by
  have hdrop := Tab.get_drop HistSlot.clear s.tile.hist (fun n => decide (n / 4096 = k)) (j * 4096 + i)
  simp only [decide_eq_true_eq] at hdrop
  exact hdrop.trans (if_congr (by omega) rfl rfl)

theorem State.wrIf_tile (s : State) (c : Bool) (f : Fld) (i v : Nat) : (s.wrIf c f i v).tile = s.tile := by
  unfold State.wrIf; split <;> rfl

theorem State.rd_wrIf_key (s : State) (c : Bool) {f g : Fld} {i j : Nat} (v : Nat) (h : f.key ≠ g.key) (hi : i < 131072) (hj : j < 131072) :
    (s.wrIf c g j v).rd f i = s.rd f i := by
  unfold State.wrIf
  split
  · exact State.rd_wr_key _ _ h hi hj
  · rfl

theorem State.slot_of_hist {s t : State} (h : t.tile.hist = s.tile.hist) (k i : Nat) : t.slot k i = s.slot k i := by
  rw [State.slot, h, State.slot]

theorem State.clearingSlots_of_tile {s t : State} (h : t.tile = s.tile) (k : Nat) : t.clearingSlots k = s.clearingSlots k := by
  rw [State.clearingSlots, h, State.clearingSlots]

section
variable {s : State} {k : Nat} (hk : k < 512)
include hk

theorem slotClear_begins (hfull : fullClear s k = false) (hslot : s.rd F.QNT_SLOT_SEL_SLOT k ∉ s.clearingSlots k) :
    let t := slotClear s k
    s.rd F.QNT_SLOT_SEL_SLOT k ∈ t.clearingSlots k ∧ t.rd F.QNT_CTRL_SLOT_CLEAR k = 1 ∧ t.rd F.QNT_STATUS_CLEARING k = 1 ∧
      SameRegs s t [(F.QNT_CTRL_SLOT_CLEAR, k), (F.QNT_STATUS_CLEARING, k)] ∧ t.tile.hist = s.tile.hist := by
  have hk' : k < 131072 := by omega
  have heq : slotClear s k = ((s.setClearing k (s.clearingSlots k ++ [s.rd F.QNT_SLOT_SEL_SLOT k])).wr F.QNT_CTRL_SLOT_CLEAR k 1).wr
      F.QNT_STATUS_CLEARING k 1 := by
    simp [slotClear, hfull, hslot]
  have hpending : SameRegs s (s.setClearing k (s.clearingSlots k ++ [s.rd F.QNT_SLOT_SEL_SLOT k]))
      [(F.QNT_CTRL_SLOT_CLEAR, k), (F.QNT_STATUS_CLEARING, k)] := .of_regs rfl _
  rw [heq]
  refine ⟨?_, ?_, State.rd_wr_same _ _ _ _, .wr' _ _ _ (.wr' _ _ _ hpending hk' (by simp)) hk' (by simp), rfl⟩
  · refine (State.clearingSlots_setClearing s k (s.clearingSlots k ++ [s.rd F.QNT_SLOT_SEL_SLOT k])).symm ▸ ?_
    exact List.mem_append_right _ List.mem_cons_self
  · rw [State.rd_wr_key _ _ (by decide) hk' hk', State.rd_wr_same]
    rfl

theorem slotClearEnd_clears {j : Nat} (hj : j < 4096) (hslot : j ∈ s.clearingSlots k) :
    let t := slotClearEnd s k j
    t.slot k j = HistSlot.clear ∧ j ∉ t.clearingSlots k ∧ (∀ c i, i < 4096 → ¬ (c = k ∧ i = j) → t.slot c i = s.slot c i) ∧
      (t.clearingSlots k = [] → t.rd F.QNT_CTRL_SLOT_CLEAR k = 0) := by
  have hk' : k < 131072 := by omega
  unfold slotClearEnd
  rw [if_pos (by simpa using hslot)]
  extract_lets l cleared t
  have hslots : t.tile = cleared.tile →
      t.slot k j = HistSlot.clear ∧ t.clearingSlots k = l ∧ (∀ c i, i < 4096 → ¬ (c = k ∧ i = j) → t.slot c i = s.slot c i) := by
    intro ht
    have hread : ∀ c i, i < 4096 → t.slot c i = if c = k ∧ i = j then HistSlot.clear else s.slot c i := fun c i hi =>
      (State.slot_of_hist (s := s.setSlot k j HistSlot.clear) (by rw [ht]; rfl) c i).trans (s.slot_setSlot _ hj hi)
    refine ⟨?_, ?_, fun c i hi hother => ?_⟩
    · rw [hread k j hj, if_pos ⟨rfl, rfl⟩]
    · exact (State.clearingSlots_of_tile ht k).trans (State.clearingSlots_setClearing _ k l)
    · rw [hread c i hi, if_neg hother]
  have hout : j ∉ l := by simp [l]
  by_cases hlast : l.isEmpty = true
  · have ht : t = (cleared.wr F.QNT_CTRL_SLOT_CLEAR k 0).wrIf (!(cleared.on F.QNT_CTRL_HIST_CLEAR k)) F.QNT_STATUS_CLEARING k 0 :=
      if_pos hlast
    obtain ⟨hclear, hleft, hothers⟩ := hslots (by rw [ht]; exact State.wrIf_tile _ _ _ _ _)
    refine ⟨hclear, hleft ▸ hout, hothers, fun _ => ?_⟩
    rw [ht, State.rd_wrIf_key _ _ _ (by decide) hk' hk', State.rd_wr_same]
    rfl
  · have ht : t = cleared := if_neg hlast
    obtain ⟨hclear, hleft, hothers⟩ := hslots (by rw [ht])
    exact ⟨hclear, hleft ▸ hout, hothers, fun hnone => absurd (List.isEmpty_iff.2 (hleft.symm.trans hnone)) hlast⟩

theorem histClear_begins :
    let t := histClear s k
    t.tile = s.tile ∧ (fullClear s k = true → t = s) ∧
      (fullClear s k = false → t.rd F.QNT_CTRL_HIST_CLEAR k = 1 ∧ t.rd F.QNT_STATUS_CLEARING k = 1) ∧
      SameRegs s t [(F.QNT_CTRL_HIST_CLEAR, k), (F.QNT_STATUS_CLEARING, k)] := by
  have hk' : k < 131072 := by omega
  unfold histClear
  cases hfull : fullClear s k
  · simp only [Bool.false_eq_true, if_false]
    refine ⟨rfl, nofun, fun _ => ⟨?_, State.rd_wr_same _ _ _ _⟩, .wr' _ _ _ (.wr s _ _ _ hk' (by simp)) hk' (by simp)⟩
    rw [State.rd_wr_key _ _ (by decide) hk' hk', State.rd_wr_same]
    rfl
  · exact ⟨rfl, fun _ => rfl, nofun, .refl s _⟩

theorem histClearEnd_clears (hfull : fullClear s k = true) :
    let t := histClearEnd s k
    t.rd F.QNT_CTRL_HIST_CLEAR k = 0 ∧ (∀ i, i < 4096 → t.slot k i = HistSlot.clear) ∧
      (∀ j i, i < 4096 → j ≠ k → t.slot j i = s.slot j i) ∧ (s.clearingSlots k = [] → t.rd F.QNT_STATUS_CLEARING k = 0) := by
  have hk' : k < 131072 := by omega
  rw [histClearEnd, if_pos hfull]
  have hread : ∀ (c : Bool) (j i : Nat), i < 4096 →
      (((clearAllSlots s k).wr F.QNT_CTRL_HIST_CLEAR k 0).wrIf c F.QNT_STATUS_CLEARING k 0).slot j i =
        if j = k then HistSlot.clear else s.slot j i := fun c j i hi =>
    (State.slot_of_hist (congrArg Tile.hist (State.wrIf_tile _ _ _ _ _)) j i).trans (slot_clearAllSlots s k j hi)
  refine ⟨?_, fun i hi => ?_, fun j i hi hj => ?_, fun hnone => ?_⟩
  · rw [State.rd_wrIf_key _ _ _ (by decide) hk' hk', State.rd_wr_same]
    rfl
  · rw [hread _ k i hi, if_pos rfl]
  · rw [hread _ j i hi, if_neg hj]
  · have hempty : (((clearAllSlots s k).wr F.QNT_CTRL_HIST_CLEAR k 0).clearingSlots k).isEmpty = true := List.isEmpty_iff.2 hnone
    rw [State.wrIf, if_pos hempty, State.rd_wr_same]
    rfl

end

/-- Settles O17: what a free unit takes up either waits as `convTaken` or ends as `ConvEnded`; a refusal leaves the unit free; and a clear of
slots touches the history of its own core alone. -/
theorem convertUnitAndItsHistory : Obligations.ConvertUnitAndItsHistory := by
  unfold Obligations.ConvertUnitAndItsHistory
  refine ⟨⟨fun q s h => ⟨_, exec_convert h, fun hbusy => ?_, fun hfree hdelayed hnone hread => ?_,
      fun hfree hdelayed hnone hread hwait hready hp hd hb => ?_, fun hfree hdelayed hsome hp hd hb => ?_⟩,
    fun q s h => ⟨_, exec_table h, fun hbusy => ?_, fun hfree hnone hread => ?_, fun hfree hnone hread hwait hready hp hd hb => ?_,
      fun hfree hsome hp hd hb => ?_⟩,
    fun e s r hrun hfree hread => ⟨_, rfl, ?_⟩⟩,
    fun k s hfull hslot => ⟨_, rfl, slotClear_begins k.isLt hfull hslot⟩,
    fun k slot s hslot => ⟨_, rfl, slotClearEnd_clears k.isLt slot.isLt hslot⟩,
    fun k s => ⟨_, rfl, histClear_begins k.isLt⟩,
    fun k s hfull => ⟨_, rfl, histClearEnd_clears k.isLt hfull⟩⟩
  · rw [convertEff_of_busy _ hbusy]
    obtain ⟨hstate, hon, hpc⟩ := holdHead_shows s (c := 0x2) .plain q.isLt (by decide)
    exact ⟨hstate, hon, hpc, rfl⟩
  · rw [(convertEff_of_free hfree hdelayed).2 hnone]
    obtain ⟨hop, hbusy, hdone, hsram, hfull⟩ := waitingHead q.isLt hread
    exact ⟨⟨_, hop, rfl, rfl, rfl⟩, hbusy, hdone, hsram, hfull⟩
  · rw [(convertEff_of_free hfree hdelayed).2 hnone]
    exact convertHead q.isLt hp hd hb rfl rfl hread hwait rfl rfl hready
  · obtain ⟨r, hr⟩ := Option.ne_none_iff_exists'.1 hsome
    rw [(convertEff_of_free hfree hdelayed).1 r hr]
    exact refusedHead q.isLt hp hd hb hfree 0 r
  · rw [tableEff_of_busy _ hbusy]
    obtain ⟨hstate, hon, hpc⟩ := holdHead_shows s (c := 0x2) .plain q.isLt (by decide)
    exact ⟨hstate, hon, hpc, rfl⟩
  · rw [(tableEff_of_free hfree).2 hnone]
    obtain ⟨hop, hbusy, hdone, hsram, -⟩ := waitingHead (o := ConvOp.taken s 1 { headIns s q 3 with sqd := 0 } []) q.isLt hread
    exact ⟨⟨_, hop, rfl, rfl⟩, hbusy, hdone, hsram⟩
  · rw [(tableEff_of_free hfree).2 hnone]
    exact tableHead q.isLt hp hd hb rfl rfl hread hwait rfl hready
  · obtain ⟨r, hr⟩ := Option.ne_none_iff_exists'.1 hsome
    rw [(tableEff_of_free hfree).1 r hr]
    exact refusedHead q.isLt hp hd hb hfree 1 r
  · obtain ⟨o, heq, hkind, hengine, hins⟩ := spillConvert_waits e.isLt hrun hfree hread
    rw [heq]
    exact ⟨convTaken_busy _ _ o, ⟨o, convTaken_convOp _ _ o, hkind, hengine, hins⟩, convTaken_regs s (by omega) o, rfl, rfl⟩

end Sys2Proof.Machine
end

section
/-!
PROOFS. The vector unit's reasoning rules (R112, R126, R129): an element of a register after another one is written, V registers after a
write, the lanes that an instruction writes, and what every vector instruction does to the open operation, the counters and its queue.
-/
namespace Sys2Proof.Machine

/-! ### Bits of a number after some are replaced -/

/-- The bits below, the replaced bits and the bits above, put together. -/
theorem setBits_eq (n lo w v : Nat) : setBits n lo w v = n % 2 ^ lo + 2 ^ lo * (v % 2 ^ w + 2 ^ w * (n / 2 ^ (lo + w))) := by
  have hlow : n % 2 ^ lo + 2 ^ lo * (n / 2 ^ lo) = n := Nat.mod_add_div _ _
  have hhigh : n / 2 ^ lo % 2 ^ w + 2 ^ w * (n / 2 ^ (lo + w)) = n / 2 ^ lo := by
    rw [Nat.pow_add, ← Nat.div_div_eq_div_mul]
    exact Nat.mod_add_div _ _
  have hsplit : n % 2 ^ lo + (n / 2 ^ lo % 2 ^ w * 2 ^ lo + 2 ^ lo * (2 ^ w * (n / 2 ^ (lo + w)))) = n := by
    rw [Nat.mul_comm _ (2 ^ lo), ← Nat.mul_add, hhigh, hlow]
  rw [setBits, bits, Nat.mul_add, Nat.mul_comm (v % 2 ^ w)]
  omega

theorem setBits_mod (n lo w v : Nat) : setBits n lo w v % 2 ^ lo = n % 2 ^ lo := by
  rw [setBits_eq, Nat.add_mul_mod_self_left, Nat.mod_mod]

theorem setBits_div (n lo w v : Nat) : setBits n lo w v / 2 ^ lo = v % 2 ^ w + 2 ^ w * (n / 2 ^ (lo + w)) := by
  rw [setBits_eq, Nat.add_mul_div_left _ _ (Nat.two_pow_pos lo), Nat.div_eq_of_lt (Nat.mod_lt _ (Nat.two_pow_pos lo)), Nat.zero_add]

theorem setBits_div_above (n lo w v : Nat) : setBits n lo w v / 2 ^ (lo + w) = n / 2 ^ (lo + w) := by
  rw [Nat.pow_add, ← Nat.div_div_eq_div_mul, setBits_div, Nat.add_mul_div_left _ _ (Nat.two_pow_pos w),
    Nat.div_eq_of_lt (Nat.mod_lt _ (Nat.two_pow_pos w)), Nat.zero_add, Nat.pow_add]

theorem bits_setBits_same (n lo w v : Nat) : bits (setBits n lo w v) lo w = v % 2 ^ w := by
  rw [bits, setBits_div, Nat.add_mul_mod_self_left, Nat.mod_mod]

/-- Bits below `k` are those of the remainder modulo `2 ^ k`. -/
theorem bits_mod (n : Nat) {lo w k : Nat} (h : lo + w ≤ k) : bits (n % 2 ^ k) lo w = bits n lo w := by
  obtain ⟨d, rfl⟩ := Nat.exists_eq_add_of_le h
  rw [bits, bits, Nat.add_assoc, Nat.pow_add 2 lo, Nat.mod_mul_right_div_self, Nat.mod_mod_of_dvd _ (Nat.pow_dvd_pow 2 (Nat.le_add_right w d))]

/-- Bits from `k` on are those of the quotient by `2 ^ k`. -/
theorem bits_div (n k lo w : Nat) : bits n (k + lo) w = bits (n / 2 ^ k) lo w := by
  rw [bits, bits, Nat.pow_add, Nat.div_div_eq_div_mul]

theorem bits_setBits_below (n v : Nat) {lo w lo' w' : Nat} (h : lo' + w' ≤ lo) : bits (setBits n lo w v) lo' w' = bits n lo' w' := by
  rw [← bits_mod _ h, setBits_mod, bits_mod _ h]

theorem bits_setBits_above (n v w' : Nat) {lo w lo' : Nat} (h : lo + w ≤ lo') : bits (setBits n lo w v) lo' w' = bits n lo' w' := by
  obtain ⟨d, rfl⟩ := Nat.exists_eq_add_of_le h
  rw [bits_div, bits_div, setBits_div_above]

/-! ### Elements of a vector register (R112) -/

theorem elemOf_setElem (v w i j x : Nat) : elemOf (setElem v w i x) w j = if j = i then x % 2 ^ w else elemOf v w j := by
  unfold elemOf setElem
  rcases Nat.lt_trichotomy j i with h | rfl | h
  · rw [if_neg (by omega)]
    exact bits_setBits_below _ _ (Nat.mul_succ w j ▸ Nat.mul_le_mul_left w h)
  · rw [if_pos rfl, bits_setBits_same]
  · rw [if_neg (by omega)]
    exact bits_setBits_above _ _ _ (Nat.mul_succ w i ▸ Nat.mul_le_mul_left w h)

/-- An element that lies within the register is kept when the register is stored. -/
theorem elemOf_ofNat (x : Nat) {w i n : Nat} (h : w * i + w ≤ n) : elemOf (BitVec.ofNat n x).toNat w i = elemOf x w i := by
  rw [elemOf, BitVec.toNat_ofNat]
  exact bits_mod x h

/-- The elements of a TYPE fill a register. -/
theorem typeWidth_mul_add_le {t i : Nat} (h : i < typeLanes t) : typeWidth t * i + typeWidth t ≤ 2048 := by
  unfold typeLanes at h
  unfold typeWidth
  split_ifs at h ⊢ <;> omega

/-- A register after the lanes of a list are written one after another. -/
theorem elemOf_writeLanes (w : Nat) (f : Nat → Lane) (on : List Nat) (v i : Nat) :
    elemOf ((on.map (fun i => (i, f i))).foldl (fun v x => setElem v w x.1 x.2.val) v) w i =
      if i ∈ on then (f i).val % 2 ^ w else elemOf v w i := by
  induction on generalizing v with
  | nil => simp
  | cons j on ih =>
    rw [List.map_cons, List.foldl_cons, ih, elemOf_setElem]
    by_cases hmem : i ∈ on
    · simp [hmem]
    · by_cases hij : i = j <;> simp [hmem, hij]

theorem mem_lanesOn {s : State} {q w n i : Nat} : i ∈ lanesOn s q w n ↔ i < n ∧ laneOn s q w i = true := by
  rw [lanesOn, List.mem_filter, List.mem_range]

/-! ### V registers after a write (R112) -/

theorem State.vreg_of_tile {s t : State} (h : t.tile.vregs = s.tile.vregs) (q v : Nat) : t.vreg q v = s.vreg q v := by
  rw [State.vreg, State.vreg, h]

theorem State.vreg_setV (s : State) (q x p : Nat) {d v : Nat} (hd : d < 32) (hv : v < 32) :
    (s.setV q d x).vreg p v = if coreOfQueue p = coreOfQueue q ∧ v = d then (BitVec.ofNat 2048 x).toNat else s.vreg p v := by
  have hkey : coreOfQueue p * 32 + v = coreOfQueue q * 32 + d ↔ coreOfQueue p = coreOfQueue q ∧ v = d := by omega
  rw [State.vreg, State.setV, Tab.get_set, apply_ite BitVec.toNat]
  exact if_congr hkey rfl rfl

/-! ### What every vector instruction does (R118, R129) -/

/-- Counting an instruction's lanes adds the instruction to the open operation and to VEC_VOP_CNT. -/
theorem countLanes_eq (s : State) (q : Nat) (ls : List (Nat × Lane)) (writes : Bool) :
    ∃ v : VOp, v.instrs = (s.vop q).instrs + 1 ∧ countLanes s q ls writes = (s.setVop q v).bump C.VEC_VOP_CNT (coreOfQueue q) 1 :=
  ⟨_, rfl, rfl⟩

/-- Counting lanes changes no field but the count of vector instructions and its wrap flag. -/
theorem countLanes_frame (s : State) {q : Nat} (hq : q < 4096) (ls : List (Nat × Lane)) (writes : Bool) :
    UnitFrame [F.VEC_VOP_CNT_COUNT, F.VEC_WRAP_VOP] s (countLanes s q ls writes) := by
  obtain ⟨v, -, heq⟩ := countLanes_eq s q ls writes
  have hcore := coreOfQueue_lt hq
  rw [heq]
  exact UnitFrame.trans (t := s.setVop q v) ⟨fun _ _ _ _ => rfl, rfl, rfl, rfl, rfl, rfl⟩
    (.bump _ 1 (by omega) (by simp [C.VEC_VOP_CNT]) (by simp [C.VEC_VOP_CNT]))

theorem countLanes_registers (s : State) (q : Nat) (ls : List (Nat × Lane)) (writes : Bool) :
    (countLanes s q ls writes).tile.sregs = s.tile.sregs ∧ (countLanes s q ls writes).tile.pregs = s.tile.pregs ∧
      (countLanes s q ls writes).tile.vregs = s.tile.vregs := by
  obtain ⟨v, -, heq⟩ := countLanes_eq s q ls writes
  rw [heq, State.bump_tile]
  exact ⟨rfl, rfl, rfl⟩

theorem countLanes_vop (s : State) (q : Nat) (ls : List (Nat × Lane)) (writes : Bool) :
    ((countLanes s q ls writes).vop q).instrs = (s.vop q).instrs + 1 := by
  obtain ⟨v, hinstrs, heq⟩ := countLanes_eq s q ls writes
  simp [heq, State.vop, State.setVop, hinstrs]

theorem countLanes_rd_count (s : State) {q : Nat} (hq : q < 4096) (ls : List (Nat × Lane)) (writes : Bool) :
    (countLanes s q ls writes).rd F.VEC_VOP_CNT_COUNT (coreOfQueue q) = (s.rd F.VEC_VOP_CNT_COUNT (coreOfQueue q) + 1) % 2 ^ 64 := by
  obtain ⟨v, -, heq⟩ := countLanes_eq s q ls writes
  rw [heq]
  exact State.rd_bump_same (s.setVop q v) C.VEC_VOP_CNT (coreOfQueue q) 1 (by decide) (by have := coreOfQueue_lt hq; omega)

theorem countLanes_sameRegs (s : State) {q : Nat} (hq : q < 4096) (ls : List (Nat × Lane)) (writes : Bool) :
    SameRegs s (countLanes s q ls writes) [(F.VEC_VOP_CNT_COUNT, coreOfQueue q), (F.VEC_WRAP_VOP, coreOfQueue q)] := by
  obtain ⟨v, -, heq⟩ := countLanes_eq s q ls writes
  rw [heq]
  exact SameRegs.bump' C.VEC_VOP_CNT _ 1 (SameRegs.of_regs rfl _) (by have := coreOfQueue_lt hq; omega) (by simp [C.VEC_VOP_CNT])
    (by simp [C.VEC_VOP_CNT])

theorem State.bump_rest (s : State) (c : Cnt) (i n : Nat) : s.bump c i n = { s with regs := (s.bump c i n).regs } := by
  unfold State.bump
  simp only
  split <;> rfl

theorem countLanes_rest (s : State) (q : Nat) (ls : List (Nat × Lane)) (writes : Bool) :
    countLanes s q ls writes = { s with regs := (countLanes s q ls writes).regs, tile := (countLanes s q ls writes).tile } := by
  obtain ⟨v, -, heq⟩ := countLanes_eq s q ls writes
  rw [heq, State.bump_rest]
  rfl

theorem doneHead_sregs (s : State) (q : Nat) : (s.doneHead q).tile.sregs = s.tile.sregs := rfl

theorem doneHead_vop (s : State) (p q : Nat) : (s.doneHead p).vop q = s.vop q := rfl

/-- Ending a vector instruction changes none of the core's register files. -/
theorem vecDone_registers (s : State) (q : Nat) (ls : List (Nat × Lane)) :
    (vecDone s q ls).tile.sregs = s.tile.sregs ∧ (vecDone s q ls).tile.pregs = s.tile.pregs ∧
      (vecDone s q ls).tile.vregs = s.tile.vregs := by
  obtain ⟨hsregs, hpregs, hvregs⟩ := countLanes_registers (s.countIssue q) q ls true
  have htile : (s.countIssue q).tile = s.tile := State.bump_tile s _ _ _
  rw [htile] at hsregs hpregs hvregs
  rw [vecDone, doneHead_sregs, doneHead_pregs, doneHead_vregs]
  exact ⟨hsregs, hpregs, hvregs⟩

/-- A vector instruction that ends is finished with and counted, and leaves everything outside its core's register files alone. -/
theorem vecDone_vectorDone (s : State) {q : Nat} (hq : q < 4096) (ls : List (Nat × Lane)) : VectorDone s (vecDone s q ls) q := by
  have hcore := coreOfQueue_lt hq
  have hlanes := countLanes_sameRegs (s.countIssue q) hq ls true
  refine ⟨(countLanes_frame (s.countIssue q) hq ls true).finished hq (by decide) (by decide), ?_, ?_, ?_, ?_⟩
  · have hissue : (s.countIssue q).rd F.VEC_VOP_CNT_COUNT (coreOfQueue q) = s.rd F.VEC_VOP_CNT_COUNT (coreOfQueue q) :=
      (countIssue_frame s hq).fields _ _ (by omega) (by decide)
    rw [vecDone, doneHead_keeps _ hq (by omega) (by decide), countLanes_rd_count _ hq, hissue]
  · have hvop : (s.countIssue q).vop q = s.vop q := by rw [State.vop, State.countIssue, State.bump_tile, State.vop]
    rw [vecDone, doneHead_vop, countLanes_vop, hvop]
  · have hqueue : ∀ e ∈ queueFields q, e ∈ vectorFields q := fun _ he => List.mem_append_left _ he
    exact ((countIssue_sameRegs s q hq).mono hqueue).trans
      ((hlanes.mono fun _ he => List.mem_append_right _ he).trans ((doneHead_sameRegs _ q (by omega)).mono hqueue))
  · rw [vecDone, doneHead_rest, countLanes_rest, State.countIssue, State.bump_rest]

/-- An instruction that has written register files of its core before it ends has done to `s` what it did to the state with these. -/
theorem VectorDone.of_registers {s u t : State} {q : Nat} (h : VectorDone u t q) (hrest : u = { s with tile := u.tile })
    (hloops : u.tile.loops = s.tile.loops) (hvops : u.tile.vops = s.tile.vops) : VectorDone s t q := by
  have hregs : u.regs = s.regs := by rw [hrest]
  have hrd (f : Fld) (i : Nat) : u.rd f i = s.rd f i := State.rd_of_regs hregs f i
  have hpc : u.qPC q = s.qPC q := hrd _ _
  have hstack : u.loopStack q = s.loopStack q := by rw [State.loopStack, hloops, State.loopStack]
  have hvop : u.vop q = s.vop q := by rw [State.vop, hvops, State.vop]
  obtain ⟨⟨hruns, hwait, hat, hleft, hissued⟩, hcounted, hopened, hfields, hkept⟩ := h
  rw [hpc, hstack] at hat hleft
  rw [hrd] at hissued hcounted
  rw [hvop] at hopened
  refine ⟨⟨hruns, hwait, hat, hleft, hissued⟩, hcounted, hopened, (SameRegs.of_regs hregs _).trans hfields, ?_⟩
  rw [hrest] at hkept
  exact hkept

/-! ### Lane-wise instructions (R126) -/

/-- An instruction that computes `f` lane by lane writes the executing lanes of VD and nothing else. -/
theorem vecMap_lanewiseDone (s : State) {q : Nat} (hq : q < 4096) (f : Nat → Lane) {res : Nat → Nat}
    (hres : ∀ i, (f i).val % 2 ^ typeWidth (wTYPE (s.headWord q)) = res i % 2 ^ typeWidth (wTYPE (s.headWord q))) :
    LanewiseDone s (vecMap s q (s.headWord q) f) q res := by
  have hvd : wR0 (s.headWord q) < 32 := Nat.mod_lt _ (by decide)
  unfold vecMap
  obtain ⟨hsregs, hpregs, hvregs⟩ := vecDone_registers (s.setV q (wR0 (s.headWord q)) _) q _
  refine ⟨(vecDone_vectorDone _ hq _).of_registers rfl rfl rfl, ⟨fun i hi => ?_, fun p v hv hother => ?_⟩, hsregs, hpregs⟩
  · rw [State.vreg_of_tile hvregs, State.vreg_setV _ _ _ _ hvd hvd, if_pos ⟨rfl, rfl⟩, elemOf_ofNat _ (typeWidth_mul_add_le hi)]
    refine (elemOf_writeLanes _ f _ _ i).trans ?_
    simp [mem_lanesOn, hi, hres]
  · rw [State.vreg_of_tile hvregs, State.vreg_setV _ _ _ _ hvd hv, if_neg hother]

/-- An instruction of the vector class whose effect is lane-wise, at the head of its queue. -/
theorem issue_lanewiseDone {s : State} {q op : Nat} (hq : q < 4096) (h : Issues s q 1 op) {eff : State → Nat → State} (f : Nat → Lane)
    {res : Nat → Nat} (heff : eff s (s.headWord q) = vecMap s q (s.headWord q) f)
    (hres : ∀ i, (f i).val % 2 ^ typeWidth (wTYPE (s.headWord q)) = res i % 2 ^ typeWidth (wTYPE (s.headWord q))) :
    LanewiseDone s (issue s q 1 op eff) q res := by
  rw [issue_eq h, heff]
  exact vecMap_lanewiseDone s hq f hres

end Sys2Proof.Machine
end

section
/-!
PROOFS. Lane arithmetic (R76, R126, R127): the INT32 results, and what IEEE 754-2019 fixes of a result whatever the rounding.
-/
namespace Sys2Proof.Machine

/-! ### INT32 lanes -/

/-- Adding the complement of b modulo 2^32 is the two's complement difference. -/
theorem add_complement_mod (a b : Nat) : (a + (2 ^ 32 - b % 2 ^ 32)) % 2 ^ 32 = wrapInt 32 ((a : Int) - (b : Int)) := by
  unfold wrapInt
  omega

theorem vecArith_add (t rm a b : Nat) : (vecArith 0 t rm a b).val % 2 ^ typeWidth t =
    (if t = 2 then a + b else (ieeeAdd (typeFmt t) (rmOf rm) ((typeFmt t).decode a) ((typeFmt t).decode b)).val) % 2 ^ typeWidth t := by
  by_cases ht : t = 2
  · subst ht
    exact Nat.mod_mod _ _
  · simp only [vecArith, if_neg ht]

theorem vecArith_sub (t rm a b : Nat) : (vecArith 1 t rm a b).val % 2 ^ typeWidth t =
    (if t = 2 then wrapInt 32 ((a : Int) - (b : Int))
      else (ieeeAdd (typeFmt t) (rmOf rm) ((typeFmt t).decode a) (Val.negate ((typeFmt t).decode b))).val) % 2 ^ typeWidth t := by
  by_cases ht : t = 2
  · subst ht
    exact congrArg (· % 2 ^ 32) (add_complement_mod a b)
  · simp only [vecArith, if_neg ht]

theorem vecArith_mul (t rm a b : Nat) : (vecArith 2 t rm a b).val % 2 ^ typeWidth t =
    (if t = 2 then a * b else (ieeeMul (typeFmt t) (rmOf rm) ((typeFmt t).decode a) ((typeFmt t).decode b)).val) % 2 ^ typeWidth t := by
  by_cases ht : t = 2
  · subst ht
    exact Nat.mod_mod _ _
  · simp only [vecArith, if_neg ht]

/-! ### vmin and vmax -/

theorem minMax_of_nan {t a b : Nat} (top : Bool) (h : ((typeVal t a).isNaN || (typeVal t b).isNaN) = true) :
    minMax t top a b = laneNaN (typeFmt t) false := by
  rw [minMax]
  exact if_pos h

/-- Of two numbers vmin takes the first when it lies below the second, and vmax does when it does not. -/
theorem minMax_of_numbers {t a b : Nat} (top : Bool) (ha : (typeVal t a).isNaN = false) (hb : (typeVal t b).isNaN = false) :
    minMax t top a b = Lane.plain (if valBelow (typeVal t a) (typeVal t b) = top then b else a) := by
  simp only [minMax, ha, hb, Bool.or_self, Bool.false_eq_true, if_false]
  cases top <;> cases valBelow (typeVal t a) (typeVal t b) <;> rfl

/-! ### NaN, infinity and zero -/

section
variable (f : FloatFmt) (rm : Rnd)

theorem ieeeAdd_nan_right (x : Val) : ieeeAdd f rm x .nan = laneNaN f false := by cases x <;> rfl

theorem ieeeDiv_nan_right (x : Val) : ieeeDiv f rm x .nan = laneNaN f false := by cases x <;> rfl

theorem ieeeAdd_opposite_infinities (b : Bool) : ieeeAdd f rm (.inf b) (.inf (!b)) = laneNaN f true := by cases b <;> rfl

variable {m : Frac}

theorem ieeeMul_inf_zero (b c : Bool) (h : Frac.isZero m = true) : ieeeMul f rm (.inf b) (.fin c m) = laneNaN f true := by
  simp [ieeeMul, valMul, h, ieeeOf]

theorem ieeeMul_inf_number (b c : Bool) (h : Frac.isZero m = false) : ieeeMul f rm (.inf b) (.fin c m) = laneInf f (xor b c) := by
  simp [ieeeMul, valMul, h, ieeeOf]

theorem ieeeDiv_zero_zero (b c : Bool) (h : Frac.isZero m = true) : ieeeDiv f rm (.fin b m) (.fin c m) = laneNaN f true := by
  simp [ieeeDiv, h]

theorem ieeeDiv_number_zero (b c : Bool) {n : Frac} (hm : Frac.isZero m = false) (hn : Frac.isZero n = true) :
    ieeeDiv f rm (.fin b m) (.fin c n) = laneInf f (xor b c) := by
  simp [ieeeDiv, hm, hn]

theorem ieeeSqrt_zero (b : Bool) (h : Frac.isZero m = true) : ieeeSqrt f rm (.fin b m) = Lane.plain (f.signBit b) := by
  simp [ieeeSqrt, h]

theorem ieeeSqrt_negative (h : Frac.isZero m = false) : ieeeSqrt f rm (.fin true m) = laneNaN f true := by
  simp [ieeeSqrt, h]

end

/-- Settles O9: each instruction is `vecMap` of its lane function, whose INT32 results are those of two's complement; and the results that no
rounding touches are read off the cases of the lane functions. -/
theorem vectorArithmeticFollowsIEEE : Obligations.VectorArithmeticFollowsIEEE := by
  unfold Obligations.VectorArithmeticFollowsIEEE
  refine ⟨⟨fun q _ h => ⟨_, rfl, issue_lanewiseDone q.isLt h _ rfl fun _ => vecArith_add _ _ _ _⟩,
      fun q _ h => ⟨_, rfl, issue_lanewiseDone q.isLt h _ rfl fun _ => vecArith_sub _ _ _ _⟩,
      fun q _ h => ⟨_, rfl, issue_lanewiseDone q.isLt h _ rfl fun _ => vecArith_mul _ _ _ _⟩,
      fun q _ h => ⟨_, rfl, issue_lanewiseDone q.isLt h _ rfl fun _ => rfl⟩,
      fun q _ h => ⟨_, rfl, issue_lanewiseDone q.isLt h _ rfl fun _ => rfl⟩,
      fun q _ h => ⟨_, rfl, issue_lanewiseDone q.isLt h _ rfl fun _ => rfl⟩,
      fun q _ h => ⟨_, rfl, issue_lanewiseDone q.isLt h _ rfl fun _ => rfl⟩,
      fun q _ h => ⟨_, rfl, issue_lanewiseDone q.isLt h _ rfl fun _ => rfl⟩⟩,
    fun t a b top => minMax_of_nan top,
    fun t a b ha hb =>
      ⟨fun hlt => by simp [minMax_of_numbers _ ha hb, hlt], fun hlt => by simp [minMax_of_numbers _ ha hb, hlt]⟩,
    fun f rm x b c m => ?_⟩
  refine ⟨rfl, ieeeAdd_nan_right f rm x, rfl, ieeeDiv_nan_right f rm x, rfl, ieeeAdd_opposite_infinities f rm b, rfl,
    fun hm => ?_, fun hm => ?_, rfl, rfl, rfl, rfl, rfl⟩
  · exact ⟨ieeeMul_inf_zero f rm b c hm, ieeeDiv_zero_zero f rm b c hm, ieeeSqrt_zero f rm b hm⟩
  · exact ⟨ieeeMul_inf_number f rm b c hm, ieeeSqrt_negative f rm hm, fun n hn => ieeeDiv_number_zero f rm b c hm hn⟩

end Sys2Proof.Machine
end

section
/-!
PROOFS. The scalar unit's arithmetic, immediates and moves (R112, R130): an instruction that writes one S register and does nothing else.
-/
namespace Sys2Proof.Machine

/-! ### Instructions of the scalar unit that only write an S register (R112, R130) -/

theorem countIssue_rest (s : State) (q : Nat) : s.countIssue q = { s with regs := (s.countIssue q).regs } := State.bump_rest s _ _ _

/-- A write of an S register leaves the rest of the tile alone. -/
theorem State.setS_tile (s : State) (q r v : Nat) : (s.setS q r v).tile = { s.tile with sregs := (s.setS q r v).tile.sregs } := by
  unfold State.setS
  split <;> rfl

theorem State.setS_rest (s : State) (q r v : Nat) : s.setS q r v = { s with tile := (s.setS q r v).tile } := by
  unfold State.setS
  split <;> rfl

section
variable {s u : State} {q : Nat} (hq : q < 4096) (hregs : u.regs = (s.countIssue q).regs)
include hq hregs

/-- The head is finished with after an effect that has touched no register field and no loop stack. -/
theorem Finished.of_effect (hloops : u.tile.loops = s.tile.loops) : Finished s (u.doneHead q) q := by
  have hcore := coreOfQueue_lt hq
  refine Finished.of_doneHead hq ?_ hloops ?_
  · exact (State.rd_of_regs hregs _ _).trans ((countIssue_frame s hq).fields _ _ (by omega) (by decide))
  · exact (State.rd_of_regs hregs _ _).trans (countIssue_rd s q hq)

theorem SameRegs.of_effect : SameRegs s (u.doneHead q) (queueFields q) :=
  ((countIssue_sameRegs s q hq).regs' hregs).trans (doneHead_sameRegs u q (by omega))

end

/-- An instruction that writes S[SD] and ends does nothing else. -/
theorem scalWrite_scalarDone (s : State) {q v res : Nat} (hq : q < 4096) (hres : v % 2 ^ 64 = res % 2 ^ 64) :
    ScalarDone s (scalWrite s q (s.headWord q) v) q res := by
  have hsd : wR0 (s.headWord q) < 32 := Nat.mod_lt _ (by decide)
  have hregs : ((s.countIssue q).setS q (wR0 (s.headWord q)) v).regs = (s.countIssue q).regs := State.setS_regs _ _ _ _
  have htile := State.setS_tile (s.countIssue q) q (wR0 (s.headWord q)) v
  rw [countIssue_tile] at htile
  unfold scalWrite
  refine ⟨fun p r hr => ?_, .of_effect hq hregs (by rw [htile]), .of_effect hq hregs, ?_, ?_, ?_⟩
  · rw [doneHead_sreg, State.sreg_setS _ _ _ _ _ _ hr hsd, State.countIssue, State.bump_sreg, hres]
  · rw [doneHead_rest, State.setS_rest, countIssue_rest]
  · rw [doneHead_pregs, htile]
  · rw [doneHead_vregs, htile]

theorem issue_scalarDone {s : State} {q op res : Nat} (hq : q < 4096) (h : Issues s q 7 op) {eff : State → Nat → State} (v : Nat)
    (heff : eff s (s.headWord q) = scalWrite s q (s.headWord q) v) (hres : v % 2 ^ 64 = res % 2 ^ 64) :
    ScalarDone s (issue s q 7 op eff) q res := by
  rw [issue_eq h, heff]
  exact scalWrite_scalarDone s hq hres

theorem scalOp_sub (a b : Nat) : scalOp 0x09 a b = wrapInt 64 ((a : Int) - (b : Int)) := by
  show (a + (2 ^ 64 - b % 2 ^ 64)) % 2 ^ 64 = _
  unfold wrapInt
  omega

theorem scalOp_shl (a b : Nat) : scalOp 0x0E a b = (a <<< (b % 64)) % 2 ^ 64 := by rw [Nat.shiftLeft_eq]; rfl

theorem scalOp_shr (a b : Nat) : scalOp 0x0F a b = a >>> (b % 64) := by rw [Nat.shiftRight_eq_div_pow]; rfl

theorem scalOp_sar (a b : Nat) : scalOp 0x10 a b = wrapInt 64 (sext 64 a / 2 ^ (b % 64)) := by
  show wrapInt 64 (sext 64 a / ((2 ^ (b % 64) : Nat) : Int)) = _
  rw [Nat.cast_pow]
  rfl

/-- The upper half replaced, the lower half kept. -/
theorem setBits_upperHalf {n : Nat} (v : Nat) (hn : n < 2 ^ 64) : setBits n 32 32 v = n % 2 ^ 32 + v % 2 ^ 32 * 2 ^ 32 := by
  rw [setBits_eq, Nat.div_eq_of_lt hn, Nat.mul_zero, Nat.add_zero, Nat.mul_comm]

theorem State.sreg_lt (s : State) (q r : Nat) : s.sreg q r < 2 ^ 64 := by
  unfold State.sreg
  split
  · decide
  · exact BitVec.isLt _

/-- The low bits of IMM32, as they stand in the instruction word. -/
theorem bits_wIMM (w : Nat) {lo n : Nat} (h : lo + n ≤ 32) : bits (wIMM w) lo n = bits w (64 + lo) n := by
  rw [bits_div, wIMM]
  exact bits_mod _ h

theorem lidxEff_of_level {s : State} {q w : Nat} {l : LoopLvl} (h : (s.loopStack q)[bits w 64 2]? = some l) :
    lidxEff s q w = scalWrite s q w l.index := by
  unfold lidxEff
  rw [bits_wIMM w (by decide), h]

/-- Settles O6: each instruction is `scalWrite` of its result, and `scalWrite` changes S[SD] and the queue's progress alone. -/
theorem scalarInstructionsWriteTheirRegister : Obligations.ScalarInstructionsWriteTheirRegister := by
  unfold Obligations.ScalarInstructionsWriteTheirRegister
  refine ⟨⟨fun q _ h => ⟨_, rfl, issue_scalarDone q.isLt h _ rfl rfl⟩,
      fun q _ h => ⟨_, rfl, issue_scalarDone q.isLt h _ rfl (congrArg (· % 2 ^ 64) (scalOp_sub _ _))⟩,
      fun q _ h => ⟨_, rfl, issue_scalarDone q.isLt h _ rfl rfl⟩,
      fun q _ h => ⟨_, rfl, issue_scalarDone q.isLt h _ rfl rfl⟩,
      fun q _ h => ⟨_, rfl, issue_scalarDone q.isLt h _ rfl rfl⟩,
      fun q _ h => ⟨_, rfl, issue_scalarDone q.isLt h _ rfl rfl⟩,
      fun q _ h => ⟨_, rfl, issue_scalarDone q.isLt h _ rfl (congrArg (· % 2 ^ 64) (scalOp_shl _ _))⟩,
      fun q _ h => ⟨_, rfl, issue_scalarDone q.isLt h _ rfl (congrArg (· % 2 ^ 64) (scalOp_shr _ _))⟩,
      fun q _ h => ⟨_, rfl, issue_scalarDone q.isLt h _ rfl (congrArg (· % 2 ^ 64) (scalOp_sar _ _))⟩⟩,
    fun q _ h => ⟨_, rfl, issue_scalarDone q.isLt h _ rfl rfl⟩,
    fun q s h => ⟨_, rfl, issue_scalarDone q.isLt h _ rfl ?_⟩,
    fun q _ _ h hlevel => ⟨_, rfl, issue_scalarDone q.isLt h _ (lidxEff_of_level hlevel) rfl⟩,
    fun q s h => ⟨_, rfl, ?_⟩⟩
  · rw [setBits_upperHalf _ (s.sreg_lt _ _)]
    have himm : wIMM (s.headWord q) < 2 ^ 32 := Nat.mod_lt _ (by decide)
    rw [Nat.mod_eq_of_lt himm]
  · rw [issue_eq h]
    have htile := countIssue_tile s q
    refine ⟨.of_effect q.isLt rfl (by rw [htile]), .of_effect q.isLt rfl, ?_, ?_, ?_, ?_⟩
    · rw [doneHead_rest, countIssue_rest]
    · rw [doneHead_sregs, htile]
    · rw [doneHead_pregs, htile]
    · rw [doneHead_vregs, htile]

end Sys2Proof.Machine
end

section
/-!
PROOFS. The sequencer's rules (R130-R134): what a head that meets no fault satisfies, where a queue goes on, and loop, br, fence, halt, signal,
queue faults and accesses that wait.
-/
namespace Sys2Proof.Machine

/-! ### What a head that meets no fault satisfies (R131, R132, R134) -/

/-- The checks that the head of a queue has passed when it meets no fault: its word is legal, a branch it takes stays in the queue's range,
and a load or store lies in the places of R47. -/
theorem headFault_eq_none {s : State} {q : Nat} (h : headFault s q = none) :
    let w := s.headWord q
    wordLegal w = true ∧
      (wClass w = 1 → wOp w = 0x10 ∨ wOp w = 0x11 → vecAddr s q w % 8 = 0 ∧ inPlaces (clusterOfQueue q) (vecAddr s q w) 256 = true) ∧
      (wClass w = 7 → predOn s q w = true →
        (wOp w = 0x03 → brTaken s q w = true →
          (s.rd F.VEC_Q_RANGE_LO q : Int) ≤ brTarget s q w ∧ brTarget s q w ≤ (s.rd F.VEC_Q_RANGE_HI q : Int)) ∧
        (wOp w = 0x13 ∨ wOp w = 0x14 → scalAddr s q w % 8 = 0 ∧ inPlaces (clusterOfQueue q) (scalAddr s q w) 8 = true)) := by
  simp only [headFault] at h
  dsimp only
  split at h
  · cases h
  split at h
  · cases h
  rename_i hlegal
  refine ⟨by simpa using hlegal, fun hclass hop => ?_, fun hclass hpred => ⟨fun hop htaken => ?_, fun hop => ?_⟩⟩
  · simp only [hclass, if_pos hop] at h
    split at h
    · cases h
    · by_contra hout
      rw [if_neg hout] at h
      cases h
  · simp only [hclass, hpred, hop, htaken] at h
    by_contra hout
    rw [if_neg (by simp), if_pos ⟨trivial, by omega⟩] at h
    cases h
  · by_contra hout
    rcases hop with hop | hop
    all_goals
      simp only [hclass, hpred, hop, if_neg hout] at h
      cases h

theorem Issues.branch_inRange {s : State} {q : Nat} (h : Issues s q 7 0x03) (htaken : brTaken s q (s.headWord q) = true) :
    (s.rd F.VEC_Q_RANGE_LO q : Int) ≤ brTarget s q (s.headWord q) ∧
      brTarget s q (s.headWord q) ≤ (s.rd F.VEC_Q_RANGE_HI q : Int) := by
  obtain ⟨-, -, hscalar⟩ := headFault_eq_none h.faultless
  obtain ⟨hbranch, -⟩ := hscalar h.isClass (h.predicated (by decide))
  exact hbranch h.isOp htaken

/-! ### Where a queue goes on (R131, R133) -/

section
variable (s : State) {q : Nat} (hq : q < 4096)
include hq

/-- A queue that issues its head and goes on at word `pc` with loop stack `l`. -/
theorem goOn_fields (l : List LoopLvl) (pc : Nat) :
    let t := (((s.countIssue q).unhold q).setLoops q l).wr F.VEC_Q_PC_PC q pc
    t.qState q = qRUN ∧ SameRegs s t (queueFields q) ∧ t = { s with regs := t.regs, tile := t.tile } ∧ t.tile.sregs = s.tile.sregs ∧
      t.qPC q = pc % 4096 ∧ t.loopStack q = l := by
  have hq' : q < 131072 := by omega
  refine ⟨?_, ?_, ?_, ?_, State.rd_wr_same _ _ _ _, Tab.get_set_same _ _ _ _⟩
  · rw [State.qState, State.rd_wr_key _ _ (by decide) hq' hq', State.setLoops, State.rd_wr_key _ _ (by decide) hq' hq']
    change (((s.countIssue q).wr F.VEC_Q_STAT_STATE q qRUN).wr F.VEC_Q_STAT_WAIT_ON q 0).rd F.VEC_Q_STAT_STATE q = qRUN
    rw [State.rd_wr_key _ _ (by decide) hq' hq', State.rd_wr_same]
    rfl
  · have hrun : SameRegs s ((s.countIssue q).unhold q) (queueFields q) :=
      (((countIssue_sameRegs s q hq).wr' F.VEC_Q_STAT_STATE q qRUN hq' (by simp [queueFields])).wr' F.VEC_Q_STAT_WAIT_ON q 0 hq'
        (by simp [queueFields])).regs' rfl
    exact ((hrun.regs' rfl).wr' F.VEC_Q_STAT_LOOP_DEPTH q l.length hq' (by simp [queueFields])).wr' F.VEC_Q_PC_PC q pc hq'
      (by simp [queueFields])
  · rw [countIssue_rest]
    rfl
  · change (s.countIssue q).tile.sregs = _
    rw [countIssue_tile]

/-- A head that is counted and finished with, and has no other effect. -/
theorem finishedHead :
    let t := (s.countIssue q).doneHead q
    Finished s t q ∧ SameRegs s t (queueFields q) ∧ t = { s with regs := t.regs, tile := t.tile } ∧ t.tile.sregs = s.tile.sregs :=
  ⟨.of_effect hq rfl (by rw [countIssue_tile]), .of_effect hq rfl, by rw [doneHead_rest, countIssue_rest],
    by rw [doneHead_sregs, countIssue_tile]⟩

/-- Holding a head changes the queue's state and what it waits on. -/
theorem holdHead_sameRegs (c : Nat) (w : HeadWait) : SameRegs s (s.holdHead q c w) (queueFields q) :=
  ((SameRegs.wr s F.VEC_Q_STAT_STATE q qWAIT (by omega) (by simp [queueFields])).wr' F.VEC_Q_STAT_WAIT_ON q c (by omega)
    (by simp [queueFields])).regs' rfl

end

/-! ### loop, br, halt, signal, fence and faults (R130-R134) -/

theorem loopEff_eq (s : State) (q w : Nat) :
    let n := if wIMMSEL w then wIMM w else s.sreg q (wR1 w)
    (n = 0 → loopEff s q w =
      (((s.countIssue q).unhold q).setLoops q (afterWord (s.qPC q + wLEN w) (s.loopStack q)).2).wr F.VEC_Q_PC_PC q
        (afterWord (s.qPC q + wLEN w) (s.loopStack q)).1) ∧
    (0 < n → loopEff s q w =
      (((s.countIssue q).unhold q).setLoops q (⟨s.qPC q + 1, s.qPC q + wLEN w, n, 0⟩ :: s.loopStack q)).wr F.VEC_Q_PC_PC q (s.qPC q + 1)) := by
  have hstack : ((s.countIssue q).unhold q).loopStack q = s.loopStack q := by
    change Tab.get [] (s.countIssue q).tile.loops q = _
    rw [countIssue_tile]
    rfl
  refine ⟨fun hn => ?_, fun hn => ?_⟩
  · simp only [loopEff, if_pos hn, State.advanceFrom, hstack]
  · simp only [loopEff, if_neg (Nat.ne_of_gt hn), hstack]

/-- The levels of a loop stack whose bodies hold a word, as far as those outside them do. -/
theorem levelsHolding (stack : List LoopLvl) (t : Nat) :
    let keep := (stack.reverse.takeWhile (fun l => decide (l.first ≤ t ∧ t ≤ l.last))).reverse
    keep <:+ stack ∧ ∀ l ∈ keep, l.first ≤ t ∧ t ≤ l.last := by
  refine ⟨?_, fun l hl => ?_⟩
  · rw [← List.reverse_prefix, List.reverse_reverse]
    exact List.takeWhile_prefix _
  · simpa using List.mem_takeWhile_imp (List.mem_reverse.1 hl)

theorem brEff_of_taken {s : State} {q w : Nat} (h : brTaken s q w = true) :
    brEff s q w = (((s.countIssue q).unhold q).setLoops q
      ((s.loopStack q).reverse.takeWhile (fun l => decide (l.first ≤ (brTarget s q w).toNat ∧ (brTarget s q w).toNat ≤ l.last))).reverse).wr
      F.VEC_Q_PC_PC q (brTarget s q w).toNat := if_pos h

theorem brEff_of_not_taken {s : State} {q w : Nat} (h : brTaken s q w = false) : brEff s q w = (s.countIssue q).doneHead q := by
  rw [brEff, h, if_neg Bool.false_ne_true]

theorem haltEff_halts (s : State) {q : Nat} (hq : q < 4096) :
    let t := haltEff s q
    t.qState q = qHALTED ∧ t.qPC q = (afterWord (s.qPC q) (s.loopStack q)).1 % 4096 ∧ SameRegs s t (queueFields q) ∧
      t = { s with regs := t.regs, tile := t.tile } ∧ t.tile.sregs = s.tile.sregs := by
  have hq' : q < 131072 := by omega
  obtain ⟨hdone, hfields, hrest, hsregs⟩ := finishedHead s hq
  refine ⟨(State.rd_wr_same _ _ _ _), ?_, hfields.wr' F.VEC_Q_STAT_STATE q qHALTED hq' (by simp [queueFields]), ?_, hsregs⟩
  · rw [haltEff, State.qPC, State.rd_wr_key _ _ (by decide) hq' hq']
    exact hdone.pc
  · unfold haltEff
    rw [hrest]
    rfl

theorem signalEff_signals (s : State) {q : Nat} (hq : q < 4096) :
    let t := signalEff s q
    t.rd F.VEC_Q_STAT_EVENT q = 1 ∧ t.outbox = .mc F.VEC_Q_STAT_EVENT q :: s.outbox ∧ Finished s t q ∧
      SameRegs s t ((F.VEC_Q_STAT_EVENT, q) :: queueFields q) ∧
      t = { s with regs := t.regs, tile := t.tile, outbox := t.outbox } ∧ t.tile.sregs = s.tile.sregs := by
  have hq' : q < 131072 := by omega
  have hframe : UnitFrame [F.VEC_Q_STAT_EVENT] (s.countIssue q) ((s.countIssue q).flagMC F.VEC_Q_STAT_EVENT q) :=
    (UnitFrame.wr (s.countIssue q) 1 hq' (by simp)).trans (.emit _ _)
  have hqueue : ∀ e ∈ queueFields q, e ∈ (F.VEC_Q_STAT_EVENT, q) :: queueFields q := fun _ he => List.mem_cons_of_mem _ he
  refine ⟨?_, ?_, hframe.finished hq (by decide) (by decide), ?_, ?_, ?_⟩
  · rw [signalEff, doneHead_keeps _ hq hq' (by decide)]
    exact State.rd_wr_same (s.countIssue q) F.VEC_Q_STAT_EVENT q 1
  · change Out.mc F.VEC_Q_STAT_EVENT q :: (s.countIssue q).outbox = _
    rw [State.countIssue, State.bump_outbox]
  · exact ((((countIssue_sameRegs s q hq).mono hqueue).wr' F.VEC_Q_STAT_EVENT q 1 hq' List.mem_cons_self).regs' rfl).trans
      ((doneHead_sameRegs _ q hq').mono hqueue)
  · rw [signalEff, doneHead_rest, State.flagMC, countIssue_rest]
    rfl
  · exact hframe.sregs.trans (congrArg Tile.sregs (countIssue_tile s q))

/-- The head of a running queue that meets a fault faults it. -/
theorem queueFault_faults {s : State} {q c : Nat} (hrun : s.running q = true) (hlive : coreStopped s (coreOfQueue q) = false)
    (hplain : s.headWait q = .plain) (hen : s.on F.VEC_CTRL_EN (coreOfQueue q) = true) (hfault : headFault s q = some c) :
    queueFault s q = s.faultQueue q c := by
  simp only [queueFault, hrun, hlive, hplain, hen, hfault]
  rfl

theorem faultQueue_fields (s : State) {q : Nat} (c : Nat) (hq : q < 4096) :
    let t := s.faultQueue q c
    t.qState q = qFAULT ∧ t.rd F.VEC_Q_STAT_FAULT_CAUSE q = c % 2 ^ 8 ∧ t.qPC q = s.qPC q ∧ t.rd F.VEC_STATUS_Q_FAULT (coreOfQueue q) = 1 ∧
      SameRegs s t [(F.VEC_Q_STAT_STATE, q), (F.VEC_Q_STAT_WAIT_ON, q), (F.VEC_Q_STAT_FAULT_CAUSE, q), (F.VEC_STATUS_Q_FAULT, coreOfQueue q)] := by
  have hq' : q < 131072 := by omega
  have hcore : coreOfQueue q < 131072 := by have := coreOfQueue_lt hq; omega
  have hrd (f : Fld) (i : Nat) : (s.faultQueue q c).rd f i =
      ((((s.wr F.VEC_Q_STAT_STATE q qFAULT).wr F.VEC_Q_STAT_WAIT_ON q 0).wr F.VEC_Q_STAT_FAULT_CAUSE q c).wr F.VEC_STATUS_Q_FAULT
        (coreOfQueue q) 1).rd f i := rfl
  dsimp only
  simp only [State.qState, State.qPC, hrd]
  refine ⟨?_, ?_, ?_, State.rd_wr_same _ _ _ _, ?_⟩
  · rw [State.rd_wr_key _ _ (by decide) hq' hcore, State.rd_wr_key _ _ (by decide) hq' hq', State.rd_wr_key _ _ (by decide) hq' hq',
      State.rd_wr_same]
    rfl
  · rw [State.rd_wr_key _ _ (by decide) hq' hcore, State.rd_wr_same]
    rfl
  · rw [State.rd_wr_key _ _ (by decide) hq' hcore, State.rd_wr_key _ _ (by decide) hq' hq', State.rd_wr_key _ _ (by decide) hq' hq',
      State.rd_wr_key _ _ (by decide) hq' hq']
  · exact ((((SameRegs.wr s F.VEC_Q_STAT_STATE q qFAULT hq' (by simp)).wr' F.VEC_Q_STAT_WAIT_ON q 0 hq' (by simp)).wr'
      F.VEC_Q_STAT_FAULT_CAUSE q c hq' (by simp)).wr' F.VEC_STATUS_Q_FAULT (coreOfQueue q) 1 hcore (by simp)).regs' rfl

/-- A scalar access whose word does not admit it waits at the load and store port (R118, R173). -/
theorem scalMem_waits {s : State} {q w : Nat} (hbusy : padBusy s (scalAddr s q w) = false) (hdown : padDown s (scalAddr s q w) = false)
    (hwait : mayAccess s s.sync.waiters (wLFE w) (decide (wOp w = 0x14)) [scalAddr s q w / 8] = false) :
    scalMem s q w = (s.addWaiter ⟨.lsu q, wLFE w, decide (wOp w = 0x14), [scalAddr s q w / 8]⟩).holdHead q 0x3 .access := by
  simp only [scalMem, hbusy, hdown, hwait, Bool.false_eq_true, Bool.or_self, if_false]

/-- Settles O7: a queue that goes on does so by `goOn_fields` or with its head finished with; one that does not holds its head or faults. -/
theorem queueFlowFollowsItsInstructions : Obligations.QueueFlowFollowsItsInstructions := by
  unfold Obligations.QueueFlowFollowsItsInstructions
  refine ⟨⟨fun q s h => ⟨_, rfl, ?_⟩, fun q s h => ⟨_, rfl, ?_⟩⟩, fun q s h hbusy hdown hwait => ⟨_, rfl, ?_⟩,
    fun q s c hrun hlive hplain hen hfault => ⟨_, rfl, ?_⟩, fun q s h => ⟨_, rfl, ?_⟩, fun q s h => ⟨_, rfl, ?_⟩, fun q s h => ⟨_, rfl, ?_⟩⟩
  · rw [issue_eq h]
    obtain ⟨hskip, henter⟩ := loopEff_eq s q (s.headWord q)
    rcases Nat.eq_zero_or_pos (if wIMMSEL (s.headWord q) then wIMM (s.headWord q) else s.sreg q (wR1 (s.headWord q))) with hn | hn
    · rw [hskip hn]
      obtain ⟨hruns, hfields, hrest, hsregs, hpc, hstack⟩ := goOn_fields s q.isLt
        (afterWord (s.qPC q + wLEN (s.headWord q)) (s.loopStack q)).2 (afterWord (s.qPC q + wLEN (s.headWord q)) (s.loopStack q)).1
      exact ⟨hruns, hfields, hrest, hsregs, fun _ => ⟨hpc, hstack⟩, fun hpos => absurd hn (Nat.ne_of_gt hpos)⟩
    · rw [henter hn]
      obtain ⟨hruns, hfields, hrest, hsregs, hpc, hstack⟩ := goOn_fields s q.isLt _ (s.qPC q + 1)
      exact ⟨hruns, hfields, hrest, hsregs, fun hzero => absurd hzero (Nat.ne_of_gt hn), fun _ => ⟨hpc, hstack⟩⟩
  · rw [issue_eq h]
    cases htaken : brTaken s q (s.headWord q) with
    | false =>
      rw [brEff_of_not_taken htaken]
      obtain ⟨hdone, hfields, hrest, hsregs⟩ := finishedHead s q.isLt
      exact ⟨hdone.runs, hfields, hrest, hsregs, fun _ => hdone, fun hno => absurd hno Bool.false_ne_true⟩
    | true =>
      rw [brEff_of_taken htaken]
      obtain ⟨hlo, hhi⟩ := h.branch_inRange htaken
      obtain ⟨hruns, hfields, hrest, hsregs, hpc, hstack⟩ := goOn_fields s q.isLt _ (brTarget s q (s.headWord q)).toNat
      obtain ⟨hsuffix, hholds⟩ := levelsHolding (s.loopStack q) (brTarget s q (s.headWord q)).toNat
      refine ⟨hruns, hfields, hrest, hsregs, fun hno => absurd hno.symm Bool.false_ne_true, fun _ hrange => ?_⟩
      have hbound : (brTarget s q (s.headWord q)).toNat < 4096 := by omega
      rw [Nat.mod_eq_of_lt hbound] at hpc
      rw [hpc, hstack]
      exact ⟨Int.toNat_of_nonneg (by omega), hholds, hsuffix⟩
  · rw [issue_eq h, scalMem_waits hbusy hdown (by simpa [h.isOp] using hwait)]
    obtain ⟨hstate, hon, hpc⟩ := holdHead_shows (s.addWaiter ⟨.lsu q, wLFE (s.headWord q), decide (wOp (s.headWord q) = 0x14), 
      [scalAddr s q (s.headWord q) / 8]⟩) (c := 0x3) .access q.isLt (by decide)
    exact ⟨hstate, hon, hpc, rfl, rfl, rfl⟩
  · rw [queueFault_faults hrun hlive hplain hen hfault]
    obtain ⟨hstate, hcause, hpc, hflag, hfields⟩ := faultQueue_fields s c q.isLt
    exact ⟨hstate, hcause, hpc, hflag, rfl, hfields, rfl⟩
  · rw [issue_eq h, fenceEff]
    cases hpending : writesPending s q || streamsPending s q with
    | false =>
      rw [if_neg Bool.false_ne_true]
      obtain ⟨hdone, hfields, hrest, hsregs⟩ := finishedHead s q.isLt
      exact ⟨fun hno => absurd hno Bool.false_ne_true, fun _ => hdone, hfields, hrest, hsregs⟩
    | true =>
      rw [if_pos rfl]
      exact ⟨fun _ => holdHead_shows s (c := 0x7) .plain q.isLt (by decide), fun hno => absurd hno.symm Bool.false_ne_true,
        holdHead_sameRegs s q.isLt _ _, rfl, rfl⟩
  · rw [issue_eq h]
    exact haltEff_halts s q.isLt
  · rw [issue_eq h]
    exact signalEff_signals s q.isLt

end Sys2Proof.Machine
end

section
/-!
PROOFS. Loads and stores of a core (R128, R172-R174): the full/empty bits an access leaves, the credits of the windows of its cluster, and
scalar accesses, at once or after a wait.
-/
namespace Sys2Proof.Machine

/-! ### Full/empty bits after an access (R172) -/

theorem isFull_setWords (s : State) (v : Bool) (ws : List Nat) (x : Nat) :
    (ws.foldl (fun s w => s.setFull w v) s).isFull x = if x ∈ ws then v else s.isFull x := by
  induction ws generalizing s with
  | nil => simp
  | cons w ws ih =>
    rw [List.foldl_cons, ih, State.isFull_setFull]
    by_cases hmem : x ∈ ws <;> by_cases hw : x = w <;> simp [hmem, hw]

theorem setWords_rest (s : State) (v : Bool) (ws : List Nat) :
    let t := ws.foldl (fun s w => s.setFull w v) s
    t = { s with full := t.full } :=
  List.foldlRecOn ws _ (motive := fun t : State => t = { s with full := t.full }) rfl fun t ht w _ => by rw [ht]; rfl

/-- What an access leaves of the full/empty bits: a store fills its words, a consume load empties them. -/
theorem isFull_feLeave (s : State) (m : Nat) (store : Bool) (ws : List Nat) (x : Nat) :
    (feLeave s m store ws).isFull x = if (store = true ∨ m = 2) ∧ x ∈ ws then store else s.isFull x := by
  unfold feLeave
  cases store with
  | true => simpa [State.fillWords] using isFull_setWords s true ws x
  | false =>
    by_cases hm : m = 2
    · simpa [hm, State.emptyWords] using isFull_setWords s false ws x
    · simp [hm]

theorem feLeave_rest (s : State) (m : Nat) (store : Bool) (ws : List Nat) :
    feLeave s m store ws = { s with full := (feLeave s m store ws).full } := by
  unfold feLeave
  split
  · exact setWords_rest s true ws
  split
  · exact setWords_rest s false ws
  · rfl

section
variable (s : State) (m : Nat) (store : Bool) (ws : List Nat)

@[simp] theorem feLeave_regs : (feLeave s m store ws).regs = s.regs := by rw [feLeave_rest]
@[simp] theorem feLeave_tile : (feLeave s m store ws).tile = s.tile := by rw [feLeave_rest]
@[simp] theorem feLeave_sram : (feLeave s m store ws).sram = s.sram := by rw [feLeave_rest]
@[simp] theorem feLeave_sync : (feLeave s m store ws).sync = s.sync := by rw [feLeave_rest]

theorem feLeave_frame : StoreFrame s (feLeave s m store ws) := by
  rw [feLeave_rest]
  exact .of_memory s s.sram _

end

/-! ### The credits of a cluster's windows (R186) -/

/-- The credits of the baton windows of a cluster. -/
def windowCredits (c : Nat) : List (Fld × Nat) := (List.range 64).map (fun k => (F.HUR_WIN_CREDIT_CREDIT, c * 64 + k))

/-- The bytes of a place of R47 lie in its cluster. -/
theorem clusterOfDA_of_inPlaces {c da len x : Nat} (hc : c < 32) (h : inPlaces c da len = true) (hlo : da ≤ x) (hhi : x < da + len) :
    clusterOfDA x = some c := by
  simp only [inPlaces, Bool.or_eq_true, Bool.and_eq_true, decide_eq_true_eq] at h
  unfold scratchBase stagingBase at h
  rcases h with h | h
  · have hreg : regionOf x = .scratch ((x - scratchBase) / 0x100000) := by
      unfold regionOf scratchBase
      rw [if_neg (by omega), if_pos (by omega)]
    rw [clusterOfDA, hreg]
    exact congrArg some (by unfold scratchBase; omega)
  · have hreg : regionOf x = .staging ((x - stagingBase) / 0x200000) := by
      unfold regionOf scratchBase stagingBase
      rw [if_neg (by omega), if_neg (by omega), if_pos (by omega)]
    rw [clusterOfDA, hreg]
    exact congrArg some (by unfold stagingBase; omega)

theorem creditWindow_sameRegs (s : State) (da len : Nat) {w : Nat} (hw : w < 131072) {l : List (Fld × Nat)}
    (hl : (F.HUR_WIN_CREDIT_CREDIT, w) ∈ l) : SameRegs s (creditWindow da len s w) l := by
  unfold creditWindow
  dsimp only
  split
  · exact .refl s l
  · exact .wr s _ _ _ hw hl

/-- Bytes committed to on-chip memory change, of the register fields, the credits of their cluster's windows. -/
theorem State.commit_sameRegs (s : State) {da c : Nat} (bs : List Byte) (h : clusterOfDA da = some c) :
    SameRegs s (s.commit da bs) (windowCredits c) := by
  have hc := clusterOfDA_lt h
  unfold State.commit
  rw [h]
  refine List.foldlRecOn (List.range 64) _ (motive := fun t => SameRegs s t (windowCredits c)) (.of_regs rfl _) fun t ht w hw => ?_
  have hlt := List.mem_range.1 hw
  exact ht.trans (creditWindow_sameRegs t da bs.length (by omega) (List.mem_map.2 ⟨w, hw, rfl⟩))

/-! ### Scalar accesses (R128, R130, R172) -/

section
variable {s : State} {q : Nat} (hq : q < 4096)
include hq

/-- What an access of the head finds of its memory is what the queue found before it counted the issue. -/
theorem countIssue_padDown (da : Nat) : padDown (s.countIssue q) da = padDown s da := padDown_congr (countIssue_frame s hq).rst da

/-- A scalar load that is performed. -/
theorem scalAccess_loads (hop : wOp (s.headWord q) = 0x13) (hdown : padDown s (scalAddr s q (s.headWord q)) = false) :
    let w := s.headWord q
    let a := scalAddr s q w
    let t := scalAccess s q w
    WroteS s t q (wR0 w) (readNat s.sram (a / 8 * 8) 8) ∧ Finished s t q ∧ SameRegs s t (queueFields q) ∧
      t = { s with regs := t.regs, tile := t.tile, full := t.full } ∧
      (∀ x, t.isFull x = if wLFE w = 2 ∧ x = a / 8 then false else s.isFull x) := by
  intro w a t
  have hsd : wR0 w < 32 := Nat.mod_lt _ (by decide)
  have hword : (s.countIssue q).word (a / 8) = readNat s.sram (a / 8 * 8) 8 := by rw [State.word, (countIssue_memory s q).1]
  have ht : t = (feLeave ((s.countIssue q).setS q (wR0 w) (readNat s.sram (a / 8 * 8) 8)) (wLFE w) false [a / 8]).doneHead q := by
    simp only [t, scalAccess, countIssue_padDown hq]
    rw [if_neg (by rw [hdown]; exact Bool.false_ne_true), hop, ← hword]
    rfl
  have htile := State.setS_tile (s.countIssue q) q (wR0 w) (readNat s.sram (a / 8 * 8) 8)
  rw [countIssue_tile] at htile
  rw [ht]
  refine ⟨fun p r hr => ?_, .of_effect hq ?_ ?_, .of_effect hq ?_, ?_, fun x => ?_⟩
  · rw [doneHead_sreg, State.sreg_of_tile (congrArg Tile.sregs (feLeave_tile _ _ _ _)), State.sreg_setS _ _ _ _ _ _ hr hsd,
      State.countIssue, State.bump_sreg]
  · rw [feLeave_regs, State.setS_regs]
  · rw [feLeave_tile, htile]
  · rw [feLeave_regs, State.setS_regs]
  · rw [doneHead_rest, feLeave_rest, State.setS_rest, countIssue_rest]
  · rw [State.isFull_of_full (doneHead_full _ q), isFull_feLeave, State.isFull_of_full (State.setS_full _ _ _ _),
      State.isFull_of_full (countIssue_memory s q).2]
    simp

/-- A scalar store that is performed. -/
theorem scalAccess_stores (hop : wOp (s.headWord q) = 0x14) (hdown : padDown s (scalAddr s q (s.headWord q)) = false)
    (hplace : inPlaces (clusterOfQueue q) (scalAddr s q (s.headWord q)) 8 = true) :
    let w := s.headWord q
    let a := scalAddr s q w
    let t := scalAccess s q w
    readBytes t.sram a 8 = bytesLE 8 (s.sreg q (wR2 w)) ∧ SameBytes s t a 8 ∧
      (∀ x, t.isFull x = if x = a / 8 then true else s.isFull x) ∧ Finished s t q ∧
      SameRegs s t (queueFields q ++ windowCredits (clusterOfQueue q)) ∧
      t = { s with regs := t.regs, tile := t.tile, full := t.full, sram := t.sram } ∧ t.tile.sregs = s.tile.sregs := by
  intro w a t
  have hcluster : clusterOfDA a = some (clusterOfQueue q) :=
    clusterOfDA_of_inPlaces (by unfold clusterOfQueue; omega) hplace (Nat.le_refl a) (Nat.lt_add_of_pos_right (by decide))
  have hlen := bytesLE_length 8 (s.sreg q (wR2 w))
  generalize hbs : bytesLE 8 (s.sreg q (wR2 w)) = bs at hlen
  have hcommit := (s.countIssue q).commit_frame a bs
  have hleave := feLeave_frame ((s.countIssue q).commit a bs) (wLFE w) true [a / 8]
  have ht : t = (feLeave ((s.countIssue q).commit a bs) (wLFE w) true [a / 8]).doneHead q := by
    have hsreg : (s.countIssue q).sreg q (wR2 w) = s.sreg q (wR2 w) := State.sreg_of_tile (by rw [countIssue_tile]) _ _
    simp only [t, scalAccess, countIssue_padDown hq]
    rw [if_neg (by rw [hdown]; exact Bool.false_ne_true), hop, hsreg, hbs]
    rfl
  have hsram : t.sram = writeBytes s.sram a bs := by
    rw [ht, doneHead_sram, feLeave_sram, (State.commit_memory _ a bs).1, (countIssue_memory s q).1]
  refine ⟨?_, fun x hx => ?_, fun x => ?_, ?_, ?_, ?_, ?_⟩
  · have hread := readBytes_writeBytes bs s.sram a
    rwa [hlen, ← hsram] at hread
  · rw [hsram]
    exact byteAt_writeBytes_outside (by rwa [hlen])
  · rw [ht, State.isFull_of_full (doneHead_full _ q), isFull_feLeave, State.isFull_of_full (State.commit_memory _ a bs).2,
      State.isFull_of_full (countIssue_memory s q).2]
    simp
  · rw [ht]
    exact (UnitFrame.of_store (l := [F.HUR_WIN_CREDIT_CREDIT]) (hcommit.trans hleave) (by simp)).finished hq (by decide) (by decide)
  · rw [ht]
    have hqueue : ∀ e ∈ queueFields q, e ∈ queueFields q ++ windowCredits (clusterOfQueue q) := fun _ => List.mem_append_left _
    have hstore : SameRegs (s.countIssue q) ((s.countIssue q).commit a bs) (queueFields q ++ windowCredits (clusterOfQueue q)) :=
      ((s.countIssue q).commit_sameRegs bs hcluster).mono fun _ => List.mem_append_right _
    exact ((((countIssue_sameRegs s q hq).mono hqueue).trans hstore).regs' (feLeave_regs _ _ _ _)).trans
      ((doneHead_sameRegs _ q (by omega)).mono hqueue)
  · rw [ht, doneHead_rest, feLeave_rest, hcommit.rest, countIssue_rest]
  · rw [ht, doneHead_sregs, feLeave_tile, hcommit.tile, countIssue_tile]

end

theorem scalMem_performs {s : State} {q w : Nat} (hbusy : padBusy s (scalAddr s q w) = false)
    (hmay : mayAccess s s.sync.waiters (wLFE w) (decide (wOp w = 0x14)) [scalAddr s q w / 8] = true) :
    scalMem s q w = scalAccess s q w := by
  simp only [scalMem, hbusy, hmay, Bool.false_eq_true, Bool.or_true, if_true, if_false]

/-- The store at the head lies in the places of R47. -/
theorem Issues.store_inPlaces {s : State} {q : Nat} (h : Issues s q 7 0x14) :
    inPlaces (clusterOfQueue q) (scalAddr s q (s.headWord q)) 8 = true := by
  obtain ⟨-, -, hscalar⟩ := headFault_eq_none h.faultless
  obtain ⟨-, hplace⟩ := hscalar h.isClass (h.predicated (by decide))
  exact (hplace (.inr h.isOp)).2

/-- The scalar load that a queue waits with, when it is tried again (R173). -/
theorem lsuResume_load {s : State} {q : Nat} (hwait : s.headWait q = .access) (hlive : coreStopped s (coreOfQueue q) = false)
    (hclass : wClass (s.headWord q) = 7) (hop : wOp (s.headWord q) = 0x13)
    (hdown : padDown s (scalAddr s q (s.headWord q) / 8 * 8) = false) :
    lsuResume s q =
      if mayAccess s (waitersBefore (.lsu q) [scalAddr s q (s.headWord q) / 8] s.sync.waiters) (wLFE (s.headWord q)) false
        [scalAddr s q (s.headWord q) / 8] = true
      then scalAccess (s.dropWaiter (.lsu q) [scalAddr s q (s.headWord q) / 8]) q (s.headWord q) else s := by
  simp [lsuResume, hwait, hlive, hclass, hop, memDown, hdown]

/-- Settles O8: an access that may be performed is `scalAccess`, at once or, for the load of a waiting queue, without its place as a waiter. -/
theorem scalarAccessesCompleteOrWait : Obligations.ScalarAccessesCompleteOrWait := by
  unfold Obligations.ScalarAccessesCompleteOrWait
  refine ⟨⟨fun q s h hbusy hdown hmay => ⟨_, rfl, ?_⟩, fun q s h hbusy hdown hmay => ⟨_, rfl, ?_⟩⟩,
    fun q n s hwait hlive hclass hop hword hdown => ⟨fun hmay => ⟨_, rfl, ?_⟩, fun hno => congrArg Host.Outcome.next ?_⟩⟩
  · rw [issue_eq h, scalMem_performs hbusy (by simpa [h.isOp] using hmay)]
    exact scalAccess_loads q.isLt h.isOp hdown
  · rw [issue_eq h, scalMem_performs hbusy (by simpa [h.isOp] using hmay)]
    exact scalAccess_stores q.isLt h.isOp hdown h.store_inPlaces
  · have hresume : performWaiting s (.lsu q) n packetResume = _ := (lsuResume_load hwait hlive hclass hop hword).trans (if_pos hmay)
    rw [hresume]
    obtain ⟨hwrote, hdone, hfields, hrest, hfull⟩ := scalAccess_loads q.isLt
      (s := s.dropWaiter (.lsu q) [scalAddr s q (s.headWord q) / 8]) hop hdown
    refine ⟨hwrote, ⟨hdone.runs, hdone.noWait, hdone.pc, hdone.loops, hdone.counted⟩, hfull, ?_, ?_, hfields⟩
    · exact (congrArg State.sram hrest :)
    · exact (congrArg (fun t : State => t.sync.waiters) hrest :)
  · exact (lsuResume_load hwait hlive hclass hop hword).trans (if_neg (by rw [hno]; exact Bool.false_ne_true))

end Sys2Proof.Machine
end

section
/-!
PROOFS. Vector loads and stores (R126, R128, R172): the bytes that the executing lanes of a store write, and what both accesses leave alone.
-/
namespace Sys2Proof.Machine

/-! ### The bytes of a vector store -/

theorem readBytes_eq {m : Tab Byte} {a : Nat} {bs : List Byte} (h : ∀ k, k < bs.length → byteAt m (a + k) = bs.getD k 0) :
    readBytes m a bs.length = bs := by
  induction bs generalizing a with
  | nil => rfl
  | cons b bs ih =>
    have hhead : byteAt m a = b := h 0 (by simp)
    rw [List.length_cons, readBytes, hhead,
      ih fun k hk => by rw [Nat.add_assoc, Nat.add_comm 1 k, h (k + 1) (by simpa using hk), List.getD_cons_succ]]

/-- Lane `i` of a vector store of elements `g` of `b` bytes at `a`. -/
def storeLane (a b : Nat) (g : Nat → Nat) (s : State) (i : Nat) : State := s.commit (a + b * i) (bytesLE b (g i))

section
variable (a b : Nat) (g : Nat → Nat)

/-- Every byte after the lanes of a list are stored: a lane's bytes are its element's, and no lane touches another's. -/
theorem byteAt_storeLanes (l : List Nat) (s : State) (x : Nat) :
    byteAt (l.foldl (storeLane a b g) s).sram x =
      if ∃ i ∈ l, a + b * i ≤ x ∧ x < a + b * i + b then (bytesLE b (g ((x - a) / b))).getD (x - (a + b * ((x - a) / b))) 0
      else byteAt s.sram x := by
  induction l generalizing s with
  | nil => simp
  | cons j l ih =>
    rw [List.foldl_cons, ih, storeLane, (State.commit_memory s _ _).1, byteAt_writeBytes, bytesLE_length]
    by_cases hl : ∃ i ∈ l, a + b * i ≤ x ∧ x < a + b * i + b
    · obtain ⟨i, hi, hin⟩ := hl
      rw [if_pos ⟨i, hi, hin⟩, if_pos ⟨i, List.mem_cons_of_mem _ hi, hin⟩]
    · rw [if_neg hl]
      by_cases hj : a + b * j ≤ x ∧ x < a + b * j + b
      · have hlane : (x - a) / b = j := by
          rw [Nat.div_eq_iff (by omega)]
          rw [Nat.mul_comm j b]
          omega
        rw [if_pos hj, if_pos ⟨j, List.mem_cons_self, hj⟩, hlane]
      · rw [if_neg hj, if_neg]
        rintro ⟨i, hi, hin⟩
        rcases List.mem_cons.1 hi with rfl | hi
        · exact hj hin
        · exact hl ⟨i, hi, hin⟩

theorem readBytes_storeLanes {l : List Nat} {i : Nat} (hi : i ∈ l) (s : State) :
    readBytes (l.foldl (storeLane a b g) s).sram (a + b * i) b = bytesLE b (g i) := by
  have hlen := bytesLE_length b (g i)
  have hread := readBytes_eq (m := (l.foldl (storeLane a b g) s).sram) (a := a + b * i) (bs := bytesLE b (g i)) fun k hk => by
    rw [hlen] at hk
    have hlane : (a + b * i + k - a) / b = i := by
      rw [Nat.add_assoc, Nat.add_sub_cancel_left, Nat.mul_add_div (by omega), Nat.div_eq_of_lt hk, Nat.add_zero]
    rw [byteAt_storeLanes, if_pos ⟨i, hi, by omega, by omega⟩, hlane, Nat.add_sub_cancel_left]
  rwa [hlen] at hread

theorem storeLanes_frame (l : List Nat) (s : State) : StoreFrame s (l.foldl (storeLane a b g) s) :=
  .foldl s fun t _ _ => t.commit_frame _ _

theorem storeLanes_full (l : List Nat) (s : State) : (l.foldl (storeLane a b g) s).full = s.full :=
  List.foldlRecOn l _ (motive := fun t : State => t.full = s.full) rfl fun t ht _ _ => (State.commit_memory t _ _).2.trans ht

theorem storeLanes_sameRegs {l : List Nat} {c n : Nat} (hc : c < 32) (hplace : inPlaces c a n = true) (hl : ∀ i ∈ l, b * i < n)
    (s : State) : SameRegs s (l.foldl (storeLane a b g) s) (windowCredits c) :=
  List.foldlRecOn l _ (motive := fun t => SameRegs s t (windowCredits c)) (.refl s _) fun t ht i hi =>
    ht.trans (t.commit_sameRegs _ (clusterOfDA_of_inPlaces hc hplace (Nat.le_add_right a _) (Nat.add_lt_add_left (hl i hi) a)))

end

/-- The lanes of a store take their elements from the register as it is before the store. -/
theorem storeLanes_eq (q r tw a b : Nat) (l : List Nat) (s : State) :
    l.foldl (fun s i => s.commit (a + b * i) (bytesLE b (elemOf (s.vreg q r) tw i))) s =
      l.foldl (storeLane a b (elemOf (s.vreg q r) tw)) s := by
  suffices h : ∀ t : State, t.vreg q r = s.vreg q r →
      l.foldl (fun s i => s.commit (a + b * i) (bytesLE b (elemOf (s.vreg q r) tw i))) t =
        l.foldl (storeLane a b (elemOf (s.vreg q r) tw)) t from h s rfl
  induction l with
  | nil => exact fun _ _ => rfl
  | cons i l ih =>
    intro t ht
    rw [List.foldl_cons, List.foldl_cons, ht]
    exact ih _ ((State.vreg_of_tile (by rw [(t.commit_frame _ _).tile]) q r).trans ht)

/-! ### The elements of a TYPE -/

/-- An element of a TYPE is of whole bytes. -/
theorem typeWidth_div_eight (t : Nat) : 8 * (typeWidth t / 8) = typeWidth t := by
  unfold typeWidth
  split <;> rfl

theorem lane_lt_of_typeLanes {t i : Nat} (h : i < typeLanes t) : typeWidth t / 8 * i < 256 := by
  have := typeWidth_mul_add_le h
  have := typeWidth_div_eight t
  generalize typeWidth t / 8 = b at *
  have hb : typeWidth t * i = 8 * (b * i) := by rw [← this, Nat.mul_assoc]
  have hpos : 0 < typeWidth t := by unfold typeWidth; split <;> decide
  omega

/-! ### Accesses that are performed (R128, R172) -/

section
variable {s : State} {q : Nat} (hq : q < 4096)
include hq

/-- A vector access ends counted and finished with, after an effect `u` on register files and on-chip memory. -/
theorem countedAccess_finished {u : State} {l : List Fld} (h : UnitFrame l (s.countIssue q) u) (ls : List (Nat × Lane))
    (hl : ∀ g ∈ l, g.key ≠ F.VEC_Q_PC_PC.key ∧ g.key ≠ F.VEC_ISSUE_CNT_COUNT.key) :
    Finished s ((countLanes u q ls true).doneHead q) q := by
  have hcount := (countLanes_frame u hq ls true).mono (List.subset_append_right l _)
  refine ((h.mono (List.subset_append_left l _)).trans hcount).finished hq (fun g hg => ?_) (fun g hg => ?_) <;>
    rcases List.mem_append.1 hg with hg | hg
  · exact (hl g hg).1
  · exact (by decide : ∀ g ∈ [F.VEC_VOP_CNT_COUNT, F.VEC_WRAP_VOP], g.key ≠ F.VEC_Q_PC_PC.key) g hg
  · exact (hl g hg).2
  · exact (by decide : ∀ g ∈ [F.VEC_VOP_CNT_COUNT, F.VEC_WRAP_VOP], g.key ≠ F.VEC_ISSUE_CNT_COUNT.key) g hg

/-- The register fields that a vector access changes beside those of its effect. -/
theorem countedAccess_sameRegs {u : State} {l : List (Fld × Nat)} (h : SameRegs (s.countIssue q) u l) (ls : List (Nat × Lane)) :
    SameRegs s ((countLanes u q ls true).doneHead q) (vectorFields q ++ l) := by
  have hqueue : ∀ e ∈ queueFields q, e ∈ vectorFields q ++ l := fun _ he => List.mem_append_left _ (List.mem_append_left _ he)
  have hlanes := (countLanes_sameRegs u hq ls true).mono (m := vectorFields q ++ l) fun _ he =>
    List.mem_append_left _ (List.mem_append_right _ he)
  exact ((((countIssue_sameRegs s q hq).mono hqueue).trans (h.mono fun _ => List.mem_append_right _)).trans hlanes).trans
    ((doneHead_sameRegs _ q (by omega)).mono hqueue)

end

/-- The executing lanes of the vector load at the head, with the elements they take. -/
def loadLanes (s : State) (q w : Nat) : List (Nat × Lane) :=
  (lanesOn s q w (typeLanes (wTYPE w))).map (fun i =>
    (i, Lane.copy (wTYPE w) (readNat s.sram (vecAddr s q w + typeWidth (wTYPE w) / 8 * i) (typeWidth (wTYPE w) / 8))))

/-- The state when the lanes of the vector load have their elements and the words are left as its mode has it. -/
def loadedState (s : State) (q w : Nat) : State :=
  feLeave ((s.countIssue q).setV q (wR0 w)
      ((loadLanes s q w).foldl (fun v x => setElem v (typeWidth (wTYPE w)) x.1 x.2.val) (s.vreg q (wR0 w))))
    (wVFE w) false ((vecWhole s q w).map (fun k => vecAddr s q w / 8 + k))

/-- The state when the lanes of the vector store have written their elements and the words are left full. -/
def storedState (s : State) (q w : Nat) : State :=
  feLeave ((lanesOn s q w (typeLanes (wTYPE w))).foldl
      (storeLane (vecAddr s q w) (typeWidth (wTYPE w) / 8) (elemOf (s.vreg q (wR0 w)) (typeWidth (wTYPE w)))) (s.countIssue q))
    (wVFE w) true ((vecWhole s q w).map (fun k => vecAddr s q w / 8 + k))

section
variable {s : State} {q : Nat} (hq : q < 4096)
  (hdown : ((vecWords s q (s.headWord q)).map (fun k => vecAddr s q (s.headWord q) / 8 + k)).any (fun x => padDown s (x * 8)) = false)
include hq hdown

theorem vldAccess_eq : vldAccess s q (s.headWord q) =
    (countLanes (loadedState s q (s.headWord q)) q (loadLanes s q (s.headWord q)) true).doneHead q := by
  simp only [vldAccess, countIssue_padDown hq]
  rw [if_neg (by rw [hdown]; exact Bool.false_ne_true), loadedState]
  obtain ⟨R, hR⟩ : ∃ R, s.countIssue q = { s with regs := R } := ⟨_, countIssue_rest s q⟩
  rw [hR]
  rfl

theorem vstAccess_eq : vstAccess s q (s.headWord q) =
    (countLanes (storedState s q (s.headWord q)) q [] true).doneHead q := by
  simp only [vstAccess, countIssue_padDown hq]
  rw [if_neg (by rw [hdown]; exact Bool.false_ne_true), storeLanes_eq, storedState]
  obtain ⟨R, hR⟩ : ∃ R, s.countIssue q = { s with regs := R } := ⟨_, countIssue_rest s q⟩
  rw [hR]
  rfl

/-- A vector load that is performed. -/
theorem vldAccess_loads :
    let w := s.headWord q
    let a := vecAddr s q w
    let b := typeWidth (wTYPE w) / 8
    let t := vldAccess s q w
    Finished s t q ∧ t.tile.sregs = s.tile.sregs ∧ t.tile.pregs = s.tile.pregs ∧
      LanesWritten s t q (8 * b) (typeLanes (wTYPE w)) (fun i => readNat s.sram (a + b * i) b) ∧
      SameRegs s t (vectorFields q) ∧ t = { s with regs := t.regs, tile := t.tile, full := t.full } ∧
      (∀ x, t.isFull x = if wVFE w = 2 ∧ x ∈ (vecWhole s q w).map (fun k => a / 8 + k) then false else s.isFull x) := by
  dsimp only
  rw [vldAccess_eq hq hdown]
  generalize hv : (loadLanes s q (s.headWord q)).foldl
    (fun v x => setElem v (typeWidth (wTYPE (s.headWord q))) x.1 x.2.val) (s.vreg q (wR0 (s.headWord q))) = v
  generalize hu : loadedState s q (s.headWord q) = u
  have hleft : u = feLeave ((s.countIssue q).setV q (wR0 (s.headWord q)) v) (wVFE (s.headWord q)) false
      ((vecWhole s q (s.headWord q)).map (fun k => vecAddr s q (s.headWord q) / 8 + k)) := by rw [← hu, loadedState, hv]
  have hvd : wR0 (s.headWord q) < 32 := Nat.mod_lt _ (by decide)
  have hrest : u = { s with regs := (s.countIssue q).regs, tile := (s.setV q (wR0 (s.headWord q)) v).tile, full := u.full } := by
    rw [hleft, feLeave_rest, countIssue_rest]
    rfl
  have hframe : UnitFrame [] (s.countIssue q) u := by
    rw [hrest, countIssue_rest]
    exact ⟨fun _ _ _ _ => rfl, rfl, rfl, rfl, rfl, rfl⟩
  obtain ⟨hsregs, hpregs, hvregs⟩ := countLanes_registers u q (loadLanes s q (s.headWord q)) true
  have hread (p r : Nat) (hr : r < 32) : ((countLanes u q (loadLanes s q (s.headWord q)) true).doneHead q).vreg p r =
      if coreOfQueue p = coreOfQueue q ∧ r = wR0 (s.headWord q) then (BitVec.ofNat 2048 v).toNat else s.vreg p r := by
    rw [State.vreg_of_tile (doneHead_vregs _ q), State.vreg_of_tile hvregs, ← s.vreg_setV q v p hvd hr]
    exact State.vreg_of_tile (by rw [hrest]) p r
  refine ⟨countedAccess_finished hq hframe _ (by simp), ?_, ?_, ⟨fun i hi => ?_, fun p r hr hother => ?_⟩, ?_, ?_, fun x => ?_⟩
  · rw [doneHead_sregs, hsregs, hrest]
    rfl
  · rw [doneHead_pregs, hpregs, hrest]
    rfl
  · rw [hread q _ hvd, if_pos ⟨rfl, rfl⟩, typeWidth_div_eight, elemOf_ofNat _ (typeWidth_mul_add_le hi), ← hv, loadLanes, elemOf_writeLanes]
    simp [mem_lanesOn, hi, Lane.copy, Lane.plain]
  · rw [hread p r hr, if_neg hother]
  · have hregs : u.regs = (s.countIssue q).regs := by rw [hrest]
    simpa using countedAccess_sameRegs hq (SameRegs.of_regs hregs []) (loadLanes s q (s.headWord q))
  · rw [doneHead_rest, countLanes_rest, hrest]
  · rw [State.isFull_of_full (doneHead_full _ q), State.isFull_of_full (t := countLanes u q _ true) (s := u) (by rw [countLanes_rest]), hleft,
      isFull_feLeave, State.isFull_of_full (t := (s.countIssue q).setV q _ v) (countIssue_memory s q).2]
    simp

/-- A vector store that is performed. -/
theorem vstAccess_stores (hplace : inPlaces (clusterOfQueue q) (vecAddr s q (s.headWord q)) 256 = true) :
    let w := s.headWord q
    let a := vecAddr s q w
    let b := typeWidth (wTYPE w) / 8
    let t := vstAccess s q w
    Finished s t q ∧ t.tile.sregs = s.tile.sregs ∧ t.tile.pregs = s.tile.pregs ∧ t.tile.vregs = s.tile.vregs ∧
      (∀ i, i < typeLanes (wTYPE w) → laneOn s q w i = true →
        readBytes t.sram (a + b * i) b = bytesLE b (elemOf (s.vreg q (wR0 w)) (typeWidth (wTYPE w)) i)) ∧
      (∀ x, (∀ i, i < typeLanes (wTYPE w) → laneOn s q w i = true → ¬ (a + b * i ≤ x ∧ x < a + b * i + b)) →
        byteAt t.sram x = byteAt s.sram x) ∧
      (∀ x, t.isFull x = if x ∈ (vecWhole s q w).map (fun k => a / 8 + k) then true else s.isFull x) ∧
      SameRegs s t (vectorFields q ++ windowCredits (clusterOfQueue q)) := by
  dsimp only
  rw [vstAccess_eq hq hdown]
  have hlanes := storeLanes_frame (vecAddr s q (s.headWord q)) (typeWidth (wTYPE (s.headWord q)) / 8)
    (elemOf (s.vreg q (wR0 (s.headWord q))) (typeWidth (wTYPE (s.headWord q)))) (lanesOn s q (s.headWord q) (typeLanes (wTYPE (s.headWord q))))
    (s.countIssue q)
  have hstore : StoreFrame (s.countIssue q) (storedState s q (s.headWord q)) := hlanes.trans (feLeave_frame _ _ _ _)
  have hframe : UnitFrame [F.HUR_WIN_CREDIT_CREDIT] (s.countIssue q) (storedState s q (s.headWord q)) := .of_store hstore (by simp)
  have htile : (storedState s q (s.headWord q)).tile = s.tile := hstore.tile.trans (countIssue_tile s q)
  have hcount := countLanes_rest (storedState s q (s.headWord q)) q [] true
  obtain ⟨hsregs, hpregs, hvregs⟩ := countLanes_registers (storedState s q (s.headWord q)) q [] true
  have hsram : ((countLanes (storedState s q (s.headWord q)) q [] true).doneHead q).sram = (storedState s q (s.headWord q)).sram := by
    rw [doneHead_sram, hcount]
  refine ⟨countedAccess_finished hq hframe _ (by decide), ?_, ?_, ?_, fun i hi hon => ?_, fun x hout => ?_, fun x => ?_, ?_⟩
  · rw [doneHead_sregs, hsregs, htile]
  · rw [doneHead_pregs, hpregs, htile]
  · rw [doneHead_vregs, hvregs, htile]
  · rw [hsram, storedState, feLeave_sram]
    exact readBytes_storeLanes _ _ _ (mem_lanesOn.2 ⟨hi, hon⟩) _
  · rw [hsram, storedState, feLeave_sram, byteAt_storeLanes, if_neg, (countIssue_memory s q).1]
    rintro ⟨i, hi, hin⟩
    exact hout i (mem_lanesOn.1 hi).1 (mem_lanesOn.1 hi).2 hin
  · rw [State.isFull_of_full (doneHead_full _ q), State.isFull_of_full (s := storedState s q (s.headWord q)) (by rw [hcount]), storedState,
      isFull_feLeave, State.isFull_of_full (storeLanes_full _ _ _ _ _), State.isFull_of_full (countIssue_memory s q).2]
    simp
  · refine countedAccess_sameRegs hq ?_ []
    exact (storeLanes_sameRegs _ _ _ (by unfold clusterOfQueue; omega) hplace
      (fun i hi => lane_lt_of_typeLanes (mem_lanesOn.1 hi).1) _).regs' (feLeave_regs _ _ _ _)

end

theorem vecMem_performs {s : State} {q w : Nat}
    (hbusy : ((vecWords s q w).map (fun k => vecAddr s q w / 8 + k)).any (fun x => padBusy s (x * 8)) = false)
    (hmay : mayAccess s s.sync.waiters (wVFE w) (decide (wOp w = 0x11)) ((vecWords s q w).map (fun k => vecAddr s q w / 8 + k)) = true) :
    vecMem s q w = vecAccess s q w := by
  simp only [vecMem, hbusy, hmay, Bool.false_eq_true, Bool.or_true, if_true, if_false]

/-- Settles O11: an access that may be performed is `vldAccess` or `vstAccess`; a store's lanes are `storeLane` each, at places of their own. -/
theorem vectorLoadsAndStores : Obligations.VectorLoadsAndStores := by
  unfold Obligations.VectorLoadsAndStores
  refine ⟨fun q s h hbusy hdown hmay => ⟨_, rfl, ?_⟩, fun q s h hbusy hdown hmay => ⟨_, rfl, ?_⟩⟩
  · have hop := h.isOp
    rw [issue_eq h, vecMem_performs hbusy (by simpa [hop] using hmay), vecAccess, if_neg (by rw [hop]; decide)]
    exact vldAccess_loads q.isLt hdown
  · have hop := h.isOp
    obtain ⟨-, hvector, -⟩ := headFault_eq_none h.faultless
    rw [issue_eq h, vecMem_performs hbusy (by simpa [hop] using hmay), vecAccess, if_pos hop]
    exact vstAccess_stores q.isLt hdown (hvector h.isClass (.inr hop)).2

end Sys2Proof.Machine
end

section
/-!
PROOFS. The vector class beside arithmetic (R76, R126, R127, R129): signs, bits, selection and conversion lane by lane, moves of one lane,
and what goes from vectors to predicates, S registers and records.
-/
namespace Sys2Proof.Machine

/-! ### Lane functions -/

theorem vecSign_false_val (t a : Nat) : (vecSign false t a).val =
    if Val.isNaN ((typeFmt t).decode a) then (typeFmt t).canonNaN else bits a 0 ((typeFmt t).ebits + (typeFmt t).fbits) := by
  unfold vecSign
  dsimp only
  split <;> rfl

theorem vecSign_true_val (t a : Nat) : (vecSign true t a).val =
    if Val.isNaN ((typeFmt t).decode a) then (typeFmt t).canonNaN
    else bits a 0 ((typeFmt t).ebits + (typeFmt t).fbits) +
      (1 - bit a ((typeFmt t).ebits + (typeFmt t).fbits)) * 2 ^ ((typeFmt t).ebits + (typeFmt t).fbits) := by
  unfold vecSign
  dsimp only
  split
  · rfl
  · rcases Nat.mod_two_eq_zero_or_one (a / 2 ^ ((typeFmt t).ebits + (typeFmt t).fbits)) with hsign | hsign <;>
      simp [Lane.plain, bit, hsign]

/-- The shifts are of INT32 elements: their words are legal with TYPE 2 alone. -/
theorem Issues.shift_type {s : State} {q op : Nat} (h : Issues s q 1 op) (hop : op = 0x17 ∨ op = 0x18) : wTYPE (s.headWord q) = 2 := by
  obtain ⟨hlegal, -⟩ := headFault_eq_none h.faultless
  have hisOp := h.isOp
  simp only [wordLegal, h.isClass, Bool.and_eq_true, vecOpLegal] at hlegal
  obtain ⟨-, -, hvec⟩ := hlegal
  rcases hop with rfl | rfl <;> simpa [hisOp] using hvec

theorem vecBits_shl (a b sh : Nat) : (vecBits 0x17 a b sh).val % 2 ^ 32 = a <<< sh % 2 ^ 32 := by
  rw [Nat.shiftLeft_eq]
  exact Nat.mod_mod _ _

theorem vecBits_shr (a b sh : Nat) : (vecBits 0x18 a b sh).val = a >>> sh := by
  rw [Nat.shiftRight_eq_div_pow]
  rfl

/-! ### V registers written (R126) -/

section
variable (s : State) {q : Nat} (hq : q < 4096)
include hq

/-- An instruction that writes VD and ends changes neither an S nor a predicate register. -/
theorem vecDone_setV (v : Nat) (ls : List (Nat × Lane)) :
    let t := vecDone (s.setV q (wR0 (s.headWord q)) v) q ls
    VectorDone s t q ∧ t.tile.sregs = s.tile.sregs ∧ t.tile.pregs = s.tile.pregs ∧
      ∀ p r, r < 32 → t.vreg p r =
        if coreOfQueue p = coreOfQueue q ∧ r = wR0 (s.headWord q) then (BitVec.ofNat 2048 v).toNat else s.vreg p r := by
  have hvd : wR0 (s.headWord q) < 32 := Nat.mod_lt _ (by decide)
  obtain ⟨hsregs, hpregs, hvregs⟩ := vecDone_registers (s.setV q (wR0 (s.headWord q)) v) q ls
  exact ⟨(vecDone_vectorDone _ hq _).of_registers rfl rfl rfl, hsregs, hpregs, fun p r hr =>
    (State.vreg_of_tile hvregs p r).trans (s.vreg_setV q v p hvd hr)⟩

/-- Lanes written one after another to elements of `dw` bits. -/
theorem vecDone_writeLanes {dw n : Nat} (hfit : ∀ i, i < n → dw * i + dw ≤ 2048) (f : Nat → Lane) :
    let ls := (lanesOn s q (s.headWord q) n).map (fun i => (i, f i))
    let t := vecDone (s.setV q (wR0 (s.headWord q)) (ls.foldl (fun v x => setElem v dw x.1 x.2.val) (s.vreg q (wR0 (s.headWord q))))) q ls
    VectorDone s t q ∧ t.tile.sregs = s.tile.sregs ∧ t.tile.pregs = s.tile.pregs ∧ LanesWritten s t q dw n (fun i => (f i).val) := by
  intro ls
  obtain ⟨hdone, hsregs, hpregs, hvregs⟩ := vecDone_setV s hq (ls.foldl (fun v x => setElem v dw x.1 x.2.val) (s.vreg q (wR0 (s.headWord q)))) ls
  refine ⟨hdone, hsregs, hpregs, fun i hi => ?_, fun p r hr hother => ?_⟩
  · have hvd : wR0 (s.headWord q) < 32 := Nat.mod_lt _ (by decide)
    rw [hvregs q _ hvd, if_pos ⟨rfl, rfl⟩, elemOf_ofNat _ (hfit i hi)]
    refine (elemOf_writeLanes dw f _ _ i).trans ?_
    simp [mem_lanesOn, hi]
  · rw [hvregs p r hr, if_neg hother]

/-- An instruction without a result. -/
theorem vecDone_nothing :
    let t := vecDone s q []
    VectorDone s t q ∧ t.tile.sregs = s.tile.sregs ∧ t.tile.pregs = s.tile.pregs ∧ t.tile.vregs = s.tile.vregs :=
  ⟨vecDone_vectorDone s hq [], vecDone_registers s q []⟩

theorem vmovsEff_writes :
    let w := s.headWord q
    let n := bits w 64 6 % typeLanes (wTYPE w)
    let t := vmovsEff s q w
    VectorDone s t q ∧ t.tile.sregs = s.tile.sregs ∧ t.tile.pregs = s.tile.pregs ∧
      ∀ i, i < typeLanes (wTYPE w) → elemOf (t.vreg q (wR0 w)) (typeWidth (wTYPE w)) i =
        if i = n ∧ laneOn s q w n = true then s.sreg q (wVSA w) % 2 ^ typeWidth (wTYPE w)
        else elemOf (s.vreg q (wR0 w)) (typeWidth (wTYPE w)) i := by
  dsimp only
  simp only [vmovsEff, bits_wIMM (s.headWord q) (show 0 + 6 ≤ 32 by decide), Nat.add_zero]
  generalize bits (s.headWord q) 64 6 % typeLanes (wTYPE (s.headWord q)) = n
  have hvd : wR0 (s.headWord q) < 32 := Nat.mod_lt _ (by decide)
  split
  · rename_i hon
    obtain ⟨hdone, hsregs, hpregs, hvregs⟩ := vecDone_setV s hq (setElem (s.vreg q (wR0 (s.headWord q))) (typeWidth (wTYPE (s.headWord q))) n
      (bits (s.sreg q (wVSA (s.headWord q))) 0 (typeWidth (wTYPE (s.headWord q)))))
      [(n, Lane.copy (wTYPE (s.headWord q)) (bits (s.sreg q (wVSA (s.headWord q))) 0 (typeWidth (wTYPE (s.headWord q)))))]
    refine ⟨hdone, hsregs, hpregs, fun i hi => ?_⟩
    rw [hvregs q _ hvd, if_pos ⟨rfl, rfl⟩, elemOf_ofNat _ (typeWidth_mul_add_le hi), elemOf_setElem]
    simp [hon, bits]
  · rename_i hoff
    obtain ⟨hdone, hsregs, hpregs, hvregs⟩ := vecDone_nothing s hq
    refine ⟨hdone, hsregs, hpregs, fun i _ => ?_⟩
    rw [State.vreg_of_tile hvregs, if_neg fun h => hoff h.2]

end

/-! ### Predicates written (R127) -/

theorem State.preg_setP (s : State) (q x p : Nat) {d r : Nat} (hd : d < 8) (hr : r < 8) :
    (s.setP q d x).preg p r = if p = q ∧ r = d then (BitVec.ofNat 64 x).toNat else s.preg p r := by
  have hkey : p * 8 + r = q * 8 + d ↔ p = q ∧ r = d := by omega
  rw [State.preg, State.setP, Tab.get_set, apply_ite BitVec.toNat]
  exact if_congr hkey rfl rfl

theorem State.preg_of_tile {s t : State} (h : t.tile.pregs = s.tile.pregs) (q p : Nat) : t.preg q p = s.preg q p := by
  rw [State.preg, State.preg, h]

/-- A predicate register after the bits of a list of lanes are written. -/
theorem bit_writeLanes (c : Nat → Bool) (on : List Nat) (v i : Nat) :
    bit (on.foldl (fun v i => setBits v i 1 (b2n (c i))) v) i = if i ∈ on then b2n (c i) else bit v i := by
  induction on generalizing v with
  | nil => simp
  | cons j on ih =>
    have hset : bit (setBits v j 1 (b2n (c j))) i = if i = j then b2n (c j) else bit v i := by
      change bits _ i 1 = if i = j then _ else bits v i 1
      rcases Nat.lt_trichotomy i j with h | rfl | h
      · rw [if_neg (by omega), bits_setBits_below _ _ h]
      · rw [if_pos rfl, bits_setBits_same]
        exact Nat.mod_eq_of_lt (by cases c i <;> decide)
      · rw [if_neg (by omega), bits_setBits_above _ _ _ h]
    rw [List.foldl_cons, ih, hset]
    by_cases hmem : i ∈ on
    · simp [hmem]
    · by_cases hij : i = j <;> simp [hmem, hij]

theorem vcmpEff_compares (s : State) {q : Nat} (hq : q < 4096) :
    let w := s.headWord q
    let t := vcmpEff s q w
    VectorDone s t q ∧ t.tile.sregs = s.tile.sregs ∧ t.tile.vregs = s.tile.vregs ∧
      (∀ i, i < 64 → bit (t.preg q (bits (wR0 w) 0 3)) i =
        if i < typeLanes (wTYPE w) ∧ laneOn s q w i = true then
          b2n (cmpVal (bits w 64 3) (typeVal (wTYPE w) (opA s q w i)) (typeVal (wTYPE w) (opB s q w i)))
        else bit (s.preg q (bits (wR0 w) 0 3)) i) ∧
      (∀ p r, r < 8 → ¬ (p = q ∧ r = bits (wR0 w) 0 3) → t.preg p r = s.preg p r) := by
  dsimp only
  have hpd : bits (wR0 (s.headWord q)) 0 3 < 8 := Nat.mod_lt _ (by decide)
  unfold vcmpEff
  dsimp only
  rw [bits_wIMM (s.headWord q) (show 0 + 3 ≤ 32 by decide)]
  generalize hv : List.foldl _ (s.preg q (bits (wR0 (s.headWord q)) 0 3)) (lanesOn s q (s.headWord q) (typeLanes (wTYPE (s.headWord q)))) = v
  obtain ⟨hsregs, hpregs, hvregs⟩ := vecDone_registers (s.setP q (bits (wR0 (s.headWord q)) 0 3) v) q
    ((lanesOn s q (s.headWord q) (typeLanes (wTYPE (s.headWord q)))).map (fun i => (i, Lane.plain 0)))
  refine ⟨(vecDone_vectorDone _ hq _).of_registers rfl rfl rfl, hsregs, hvregs, fun i hi => ?_, fun p r hr hother => ?_⟩
  · rw [State.preg_of_tile hpregs, State.preg_setP _ _ _ _ hpd hpd, if_pos ⟨rfl, rfl⟩, BitVec.toNat_ofNat]
    refine (bits_mod v (w := 1) hi).trans ?_
    rw [← hv]
    refine (bit_writeLanes _ _ _ i).trans ?_
    simp only [mem_lanesOn]
  · rw [State.preg_of_tile hpregs, State.preg_setP _ _ _ _ hpd hr, if_neg hother]

/-! ### S registers written (R76, R127) -/

section
variable (s : State) {q : Nat} (hq : q < 4096)
include hq

/-- A vector instruction that writes an S register and ends changes no other register. -/
theorem vecDone_setS {d : Nat} (hd : d < 32) (v : Nat) (ls : List (Nat × Lane)) :
    let t := vecDone (s.setS q d v) q ls
    VectorDone s t q ∧ t.tile.vregs = s.tile.vregs ∧ t.tile.pregs = s.tile.pregs ∧ WroteS s t q d v := by
  have htile := s.setS_tile q d v
  obtain ⟨hsregs, hpregs, hvregs⟩ := vecDone_registers (s.setS q d v) q ls
  refine ⟨(vecDone_vectorDone _ hq _).of_registers (s.setS_rest q d v) (by rw [htile]) (by rw [htile]), ?_, ?_, fun p r hr => ?_⟩
  · rw [hvregs, htile]
  · rw [hpregs, htile]
  · rw [State.sreg_of_tile hsregs, State.sreg_setS _ _ _ _ _ _ hr hd]

theorem vredEff_sums :
    let w := s.headWord q
    let f := typeFmt (wTYPE w)
    let t := vredEff s q w
    VectorDone s t q ∧ t.tile.vregs = s.tile.vregs ∧ t.tile.pregs = s.tile.pregs ∧
      match treeSum f (rmOf (wRM w)) 6 ((List.range (typeLanes (wTYPE w))).map (fun i => if laneOn s q w i then
          some (leaf f (opA s q w i)) else none)) with
      | some l => WroteS s t q (wVSA w) l.val
      | none => t.tile.sregs = s.tile.sregs := by
  have hsa : wVSA (s.headWord q) < 32 := Nat.mod_lt _ (by decide)
  dsimp only
  unfold vredEff
  dsimp only
  cases treeSum (typeFmt (wTYPE (s.headWord q))) (rmOf (wRM (s.headWord q))) 6 _ with
  | some l => exact vecDone_setS s hq hsa l.val [(0, l)]
  | none =>
    obtain ⟨hdone, hsregs, hpregs, hvregs⟩ := vecDone_nothing s hq
    exact ⟨hdone, hvregs, hpregs, hsregs⟩

theorem vrmaxEff_takesMaximum :
    let w := s.headWord q
    let t := vrmaxEff s q w
    VectorDone s t q ∧ t.tile.vregs = s.tile.vregs ∧ t.tile.pregs = s.tile.pregs ∧
      (lanesOn s q w (typeLanes (wTYPE w)) = [] → t.tile.sregs = s.tile.sregs) ∧
      (∀ i, lanesOn s q w (typeLanes (wTYPE w)) = [i] → Val.isNaN (typeVal (wTYPE w) (opA s q w i)) = false →
        WroteS s t q (wVSA w) (opA s q w i)) ∧
      (∀ i j, lanesOn s q w (typeLanes (wTYPE w)) = [i, j] → Val.isNaN (typeVal (wTYPE w) (opA s q w i)) = false →
        WroteS s t q (wVSA w) (minMax (wTYPE w) true (opA s q w i) (opA s q w j)).val) := by
  have hsa : wVSA (s.headWord q) < 32 := Nat.mod_lt _ (by decide)
  dsimp only
  unfold vrmaxEff
  dsimp only
  cases lanesOn s q (s.headWord q) (typeLanes (wTYPE (s.headWord q))) with
  | nil =>
    obtain ⟨hdone, hsregs, hpregs, hvregs⟩ := vecDone_nothing s hq
    exact ⟨hdone, hvregs, hpregs, fun _ => hsregs, by simp, by simp⟩
  | cons k on =>
    obtain ⟨hdone, hvregs, hpregs, hwrote⟩ := vecDone_setS s hq hsa (List.foldl (fun l y => minMax (wTYPE (s.headWord q)) true l.val y)
      (if Val.isNaN (typeVal (wTYPE (s.headWord q)) (opA s q (s.headWord q) k)) then laneNaN (typeFmt (wTYPE (s.headWord q))) false
        else Lane.plain (opA s q (s.headWord q) k)) (on.map (opA s q (s.headWord q)))).val [(0, _)]
    refine ⟨hdone, hvregs, hpregs, by simp, fun i hone hnum => ?_, fun i j htwo hnum => ?_⟩
    · obtain ⟨rfl, rfl⟩ := List.cons.inj hone
      simpa [hnum, Lane.plain] using hwrote
    · obtain ⟨rfl, rfl⟩ := List.cons.inj htwo
      simpa [hnum, Lane.plain] using hwrote

theorem vmovvEff_copies :
    let w := s.headWord q
    let n := bits w 64 6 % typeLanes (wTYPE w)
    let t := vmovvEff s q w
    VectorDone s t q ∧ t.tile.vregs = s.tile.vregs ∧ t.tile.pregs = s.tile.pregs ∧
      (laneOn s q w n = true → WroteS s t q (wVSA w) (opA s q w n)) ∧ (laneOn s q w n = false → t.tile.sregs = s.tile.sregs) := by
  have hsa : wVSA (s.headWord q) < 32 := Nat.mod_lt _ (by decide)
  dsimp only
  simp only [vmovvEff, bits_wIMM (s.headWord q) (show 0 + 6 ≤ 32 by decide), Nat.add_zero]
  generalize bits (s.headWord q) 64 6 % typeLanes (wTYPE (s.headWord q)) = n
  split
  · rename_i hon
    obtain ⟨hdone, hvregs, hpregs, hwrote⟩ := vecDone_setS s hq hsa (opA s q (s.headWord q) n) [(n, Lane.copy _ (opA s q (s.headWord q) n))]
    exact ⟨hdone, hvregs, hpregs, fun _ => hwrote, fun hoff => absurd hon (by simp [hoff])⟩
  · rename_i hoff
    obtain ⟨hdone, hsregs, hpregs, hvregs⟩ := vecDone_nothing s hq
    exact ⟨hdone, hvregs, hpregs, fun hon => absurd hon hoff, fun _ => hsregs⟩

end

/-! ### The record of a vector operation (R111, R125, R129) -/

/-- The record of an operation of the vector class is put: a record that cannot be written shows in REC_ERR of the core. -/
def putCoreRecord (s : State) (q da : Nat) (ws : List Nat) : State :=
  let x := putRecord s (clusterOfQueue q) q none da ws
  x.1.wrIf x.2 F.VEC_STATUS_REC_ERR (coreOfQueue q) 1

section
variable {s : State} {q da : Nat} (ws : List Nat)

theorem putCoreRecord_written (hp : recordPlace (clusterOfQueue q) da = true) (hd : padDown s da = false) (hb : padBusy s da = false) :
    putCoreRecord s q da ws = writeRecord s da ws := by
  simp [putCoreRecord, putRecord_core hp hd hb, State.wrIf]

theorem putCoreRecord_waits (hp : recordPlace (clusterOfQueue q) da = true) (hd : padDown s da = false) (hb : padBusy s da = true) :
    putCoreRecord s q da ws = s.waitRecord ⟨q, none, da, ws⟩ := by
  simp [putCoreRecord, putRecord, hp, hd, hb, State.wrIf]

theorem putCoreRecord_refused (h : recordPlace (clusterOfQueue q) da = false ∨ padDown s da = true) :
    putCoreRecord s q da ws = (s.emit (.opError q)).wr F.VEC_STATUS_REC_ERR (coreOfQueue q) 1 := by
  have hbad : (!(recordPlace (clusterOfQueue q) da) || padDown s da) = true := by simpa using h
  simp [putCoreRecord, putRecord, hbad, State.wrIf]

/-- A record is put in one of three ways, none of which touches a register file of a core. -/
theorem putCoreRecord_frame (hq : q < 4096) :
    UnitFrame [F.HUR_WIN_CREDIT_CREDIT, F.VEC_STATUS_REC_ERR] s (putCoreRecord s q da ws) ∧
      (putCoreRecord s q da ws).tile = { s.tile with recs := (putCoreRecord s q da ws).tile.recs } := by
  have hcore := coreOfQueue_lt hq
  by_cases hbad : recordPlace (clusterOfQueue q) da = false ∨ padDown s da = true
  · rw [putCoreRecord_refused ws hbad]
    exact ⟨(UnitFrame.emit s _).trans (.wr _ (f := F.VEC_STATUS_REC_ERR) 1 (by omega) (by decide)), rfl⟩
  · obtain ⟨hp, hd⟩ : recordPlace (clusterOfQueue q) da = true ∧ padDown s da = false := by simpa using hbad
    cases hb : padBusy s da with
    | true =>
      rw [putCoreRecord_waits ws hp hd hb]
      exact ⟨⟨fun _ _ _ _ => rfl, rfl, rfl, rfl, rfl, rfl⟩, rfl⟩
    | false =>
      rw [putCoreRecord_written ws hp hd hb]
      have hstore : StoreFrame s (writeRecord s da ws) := writeRecord_frame s da ws
      exact ⟨.of_store hstore (by decide), by rw [hstore.tile]⟩

end

/-- The instruction counted and the open vector operation closed: the state in which vrec puts its record. -/
def vopClosed (s : State) (q : Nat) : State := (countLanes (s.countIssue q) q [] false).setVop q VOp.none

theorem vopClosed_frame (s : State) {q : Nat} (hq : q < 4096) :
    UnitFrame [F.VEC_VOP_CNT_COUNT, F.VEC_WRAP_VOP] (s.countIssue q) (vopClosed s q) :=
  (countLanes_frame (s.countIssue q) hq [] false).trans ⟨fun _ _ _ _ => rfl, rfl, rfl, rfl, rfl, rfl⟩

theorem vopClosed_rest (s : State) (q : Nat) :
    vopClosed s q = { s with regs := (vopClosed s q).regs, tile := { s.tile with vops := (vopClosed s q).tile.vops } } := by
  obtain ⟨v, -, hcounted⟩ := countLanes_eq (s.countIssue q) q [] false
  obtain ⟨R, hissue⟩ : ∃ R, s.countIssue q = { s with regs := R } := ⟨_, countIssue_rest s q⟩
  obtain ⟨R', hbump⟩ : ∃ R', ((s.countIssue q).setVop q v).bump C.VEC_VOP_CNT (coreOfQueue q) 1 =
      { (s.countIssue q).setVop q v with regs := R' } := ⟨_, State.bump_rest _ _ _ _⟩
  rw [vopClosed, hcounted, hbump, hissue]
  rfl

theorem vopClosed_vop (s : State) (q : Nat) : (vopClosed s q).vop q = VOp.none := by simp [vopClosed, State.vop, State.setVop]

/-- The counts that the record of queue `q`'s open vector operation holds. -/
def vopCounts (s : State) (q : Nat) : OpCounts :=
  ⟨(s.vop q).sat, (s.vop q).flushed, (s.vop q).invalid, 0, 0, 0, (s.vop q).nanOut, none, none, (s.vop q).tStart.getD s.trk.ts, (s.vop q).tEnd⟩

/-- vrec puts a record of operation 0x02 with status 0 and the TAG of its word, and its queue goes on. -/
theorem vrecEff_putsRecord (s : State) (q : Nat) :
    ∃ ws : List Nat, bits (ws.getD 0 0 % 2 ^ 64) 0 16 = 0x0200 ∧ bits (ws.getD 0 0 % 2 ^ 64) 32 32 = recTag (s.headWord q) q ∧
      vrecEff s q (s.headWord q) = (putCoreRecord (vopClosed s q) q (s.sreg q (wVSREC (s.headWord q))) ws).doneHead q := by
  have hsreg : (countLanes (s.countIssue q) q [] false).sreg q (wVSREC (s.headWord q)) = s.sreg q (wVSREC (s.headWord q)) := by
    obtain ⟨hsregs, -, -⟩ := countLanes_registers (s.countIssue q) q [] false
    exact State.sreg_of_tile (hsregs.trans (by rw [countIssue_tile])) _ _
  have hfirst := recordWords_first ⟨0, 0x02, typeCode (wTYPE (s.headWord q)), 0, false, false, recTag (s.headWord q) q⟩
    (vopCounts (countLanes (s.countIssue q) q [] false) q) 0 0 (fiIndex ((countLanes (s.countIssue q) q [] false).vop q).firstInv)
    (show 0 < 2 ^ 8 by decide) (show 2 < 2 ^ 8 by decide)
  have heff : vrecEff s q (s.headWord q) = (putCoreRecord (vopClosed s q) q (s.sreg q (wVSREC (s.headWord q)))
      (recordWords ⟨0, 0x02, typeCode (wTYPE (s.headWord q)), 0, false, false, recTag (s.headWord q) q⟩
        (vopCounts (countLanes (s.countIssue q) q [] false) q) 0 0
        (fiIndex ((countLanes (s.countIssue q) q [] false).vop q).firstInv))).doneHead q := by
    rw [vrecEff, hsreg]
    rfl
  generalize recordWords _ _ _ _ _ = ws at hfirst heff
  obtain ⟨hlow, -, -, htag⟩ := hfirst
  exact ⟨ws, hlow.trans (show 0 + 2 * 2 ^ 8 = 0x0200 by decide), htag.trans (Nat.mod_eq_of_lt (recTag_lt _ _)), heff⟩

theorem vrecEff_records (s : State) {q : Nat} (hq : q < 4096) :
    let w := s.headWord q
    let da := s.sreg q (wVSREC w)
    let t := vrecEff s q w
    t.vop q = VOp.none ∧ Finished s t q ∧ t.tile.sregs = s.tile.sregs ∧ t.tile.vregs = s.tile.vregs ∧ t.tile.pregs = s.tile.pregs ∧
      (recordPlace (clusterOfQueue q) da = true → padDown s da = false → padBusy s da = false →
        bits (t.word (da / 8)) 0 16 = 0x0200 ∧ bits (t.word (da / 8)) 32 32 = recTag w q ∧
        SameBytes s t da 64 ∧ (∀ k, k < 8 → t.isFull (da / 8 + k) = true)) ∧
      (recordPlace (clusterOfQueue q) da = true → padDown s da = false → padBusy s da = true →
        t.sram = s.sram ∧ t.full = s.full ∧ ∃ ws, t.tile.recs = s.tile.recs ++ [⟨q, none, da, ws⟩]) ∧
      (recordPlace (clusterOfQueue q) da = false ∨ padDown s da = true →
        t.rd F.VEC_STATUS_REC_ERR (coreOfQueue q) = 1 ∧ .opError q ∈ t.outbox ∧ t.sram = s.sram ∧ t.full = s.full) := by
  dsimp only
  have hcore := coreOfQueue_lt hq
  obtain ⟨ws, hlow, htag, heff⟩ := vrecEff_putsRecord s q
  rw [heff]
  generalize s.sreg q (wVSREC (s.headWord q)) = da
  have hclosed := vopClosed_frame s hq
  have hrest := vopClosed_rest s q
  have hvop := vopClosed_vop s q
  have hdown : padDown (vopClosed s q) da = padDown s da := padDown_congr (by rw [hrest]) da
  have hbusy : padBusy (vopClosed s q) da = padBusy s da := ((countIssue_frame s hq).padBusy (by decide) da ▸ hclosed.padBusy (by decide) da)
  have hsram : (vopClosed s q).sram = s.sram := by rw [hrest]
  have hfull : (vopClosed s q).full = s.full := by rw [hrest]
  have htile : (vopClosed s q).tile = { s.tile with vops := (vopClosed s q).tile.vops } := by rw [hrest]
  generalize vopClosed s q = u at *
  obtain ⟨hput, htiles⟩ := putCoreRecord_frame (s := u) (da := da) ws hq
  refine ⟨?_, ?_, ?_, ?_, ?_, fun hp hd hb => ?_, fun hp hd hb => ?_, fun hbad => ?_⟩
  · rw [doneHead_vop, State.vop, htiles]
    exact hvop
  · exact (UnitFrame.trans (hclosed.mono (List.subset_append_left _ _)) (hput.mono (List.subset_append_right _ _))).finished hq
      (by decide) (by decide)
  · rw [doneHead_sregs, htiles, htile]
  · rw [doneHead_vregs, htiles, htile]
  · rw [doneHead_pregs, htiles, htile]
  · rw [putCoreRecord_written ws hp (hdown.trans hd) (hbusy.trans hb)]
    obtain ⟨hword, hwords, hbytes⟩ := (writeRecord_recorded u da ws (recordPlace_aligned hp)).congr hsram.symm rfl rfl
    have hfirst : ((writeRecord u da ws).doneHead q).word (da / 8) = ws.getD 0 0 % 2 ^ 64 := hword
    exact ⟨by rw [hfirst, hlow], by rw [hfirst, htag], hbytes, hwords⟩
  · rw [putCoreRecord_waits ws hp (hdown.trans hd) (hbusy.trans hb)]
    refine ⟨hsram, hfull, ws, ?_⟩
    change u.tile.recs ++ _ = _
    rw [htile]
  · rw [putCoreRecord_refused ws (hbad.imp_right hdown.trans)]
    refine ⟨?_, List.mem_cons_self, hsram, hfull⟩
    rw [doneHead_keeps _ hq (by omega) (by decide), State.rd_wr_same]
    rfl

/-! ### The obligation -/

/-- Settles O10, instruction by instruction: lane-wise results by `issue_lanewiseDone`, the others by what their effect does. -/
theorem vectorMovesReductionsAndRecords : Obligations.VectorMovesReductionsAndRecords := by
  unfold Obligations.VectorMovesReductionsAndRecords
  have hshift (w : Nat) : bits (wIMM w) 0 5 = bits w 64 5 := bits_wIMM w (by decide)
  refine ⟨⟨?vabs, ?vneg, ?vand, ?vor, ?vxor, ?vshl, ?vshr, ?vsel, ?vcvt, ?vmovs⟩, ?vcmp, ?vred, ?vrmax, ?vmovv, ?vrec⟩
  case vabs => exact fun q s h => ⟨_, rfl, issue_lanewiseDone q.isLt h _ rfl fun i => congrArg (· % _) (vecSign_false_val _ _)⟩
  case vneg => exact fun q s h => ⟨_, rfl, issue_lanewiseDone q.isLt h _ rfl fun i => congrArg (· % _) (vecSign_true_val _ _)⟩
  case vand => exact fun q s h => ⟨_, rfl, issue_lanewiseDone q.isLt h _ rfl fun _ => rfl⟩
  case vor => exact fun q s h => ⟨_, rfl, issue_lanewiseDone q.isLt h _ rfl fun _ => rfl⟩
  case vxor => exact fun q s h => ⟨_, rfl, issue_lanewiseDone q.isLt h _ rfl fun _ => rfl⟩
  case vshl =>
    refine fun q s h => ⟨_, rfl, issue_lanewiseDone q.isLt h _ rfl fun i => ?_⟩
    rw [h.shift_type (.inl rfl), hshift]
    exact vecBits_shl _ _ _
  case vshr =>
    refine fun q s h => ⟨_, rfl, issue_lanewiseDone q.isLt h _ rfl fun i => ?_⟩
    rw [hshift, vecBits_shr]
  case vsel => exact fun q s h => ⟨_, rfl, issue_lanewiseDone q.isLt h _ rfl fun _ => rfl⟩
  case vcvt =>
    intro q s h w code
    have hcode : bits (wIMM (s.headWord q)) 0 5 = code := hshift _
    refine ⟨_, congrArg Host.Outcome.next (issue_eq h _), ?_⟩
    rw [vcvtEff, hcode]
    refine vecDone_writeLanes s q.isLt (fun i hi => ?_) _
    split_ifs at hi ⊢ <;> omega
  case vmovs => exact fun q s h => ⟨_, congrArg Host.Outcome.next (issue_eq h _), vmovsEff_writes s q.isLt⟩
  case vcmp => exact fun q s h => ⟨_, congrArg Host.Outcome.next (issue_eq h _), vcmpEff_compares s q.isLt⟩
  case vred => exact fun q s h => ⟨_, congrArg Host.Outcome.next (issue_eq h _), vredEff_sums s q.isLt⟩
  case vrmax => exact fun q s h => ⟨_, congrArg Host.Outcome.next (issue_eq h _), vrmaxEff_takesMaximum s q.isLt⟩
  case vmovv => exact fun q s h => ⟨_, congrArg Host.Outcome.next (issue_eq h _), vmovvEff_copies s q.isLt⟩
  case vrec => exact fun q s h => ⟨_, congrArg Host.Outcome.next (issue_eq h _), vrecEff_records s q.isLt⟩

end Sys2Proof.Machine
end

section
/-!
PROOFS. START, STOP and CLEAR_FAULT (R133): the state of a queue, its place, and what a waiting head leaves behind.
-/
namespace Sys2Proof.Machine

theorem State.coreStream_lt {q j : Nat} (hq : q < 4096) (hj : j < 2) : coreOfQueue q * 2 + j < 131072 := by
  have := coreOfQueue_lt hq
  omega

/-! ### START (R133) -/

/-- An engine without an instruction has none that could go on. -/
theorem continueStopped_of_none {s : State} {e : Nat} (h : (s.eng e).cur = none) : continueStopped s e = s := by
  rw [continueStopped, h]

theorem continueStopped_idles {s : State} {k : Nat} (h : ∀ e, e < 4 → (s.eng (k * 4 + e)).cur = none) :
    (List.range 4).foldl (fun s e => continueStopped s (k * 4 + e)) s = s :=
  List.foldlRecOn _ _ (motive := fun t => t = s) rfl fun t ht e he => by
    rw [ht, continueStopped_of_none (h e (List.mem_range.1 he))]

/-- A stream engine that is not in FAULT_WAIT asks for no page again. -/
theorem retranslate_of_state {s : State} {g : Nat} (h : s.rd F.STM_STATUS_STATE g ≠ 2) : retranslate s g = s := by
  rw [retranslate, decide_eq_false h]
  simp

/-- The stream engines of a core go on: when neither is in FAULT_WAIT, only the engines' own state changes. -/
theorem setSuspended_off {s : State} {k : Nat} (h : ∀ j, j < 2 → s.rd F.STM_STATUS_STATE (k * 2 + j) ≠ 2) :
    ∃ x : Tab Stream, setSuspended s k false = { s with streams := x } := by
  refine List.foldlRecOn [0, 1] _ (motive := fun t => ∃ x : Tab Stream, t = { s with streams := x }) ⟨s.streams, rfl⟩ fun t ht e he => ?_
  obtain ⟨x, rfl⟩ := ht
  have he2 : e < 2 := by simp only [List.mem_cons, List.not_mem_nil, or_false] at he; omega
  exact ⟨_, retranslate_of_state (s := State.setStream { s with streams := x } _ _) (h e he2)⟩

theorem queueStart_starts {s : State} {q : Nat} (hq : q < 4096) (hup : s.coreDown (coreOfQueue q) = false)
    (hstate : s.qState q = qIDLE ∨ s.qState q = qHALTED ∨ s.qState q = qSAVED)
    (hidle : ∀ e, e < 4 → (s.eng (coreOfQueue q * 4 + e)).cur = none)
    (hstream : ∀ j, j < 2 → s.rd F.STM_STATUS_STATE (coreOfQueue q * 2 + j) ≠ 2) :
    ∃ x : Tab Stream, queueStart s q = { s.wr F.VEC_Q_STAT_STATE q qRUN with streams := x } := by
  have hq' : q < 131072 := by omega
  rw [queueStart]
  dsimp only
  rw [if_neg (by simp [hup, hstate]), continueStopped_idles (s := s.wr F.VEC_Q_STAT_STATE q qRUN) hidle]
  split
  · exact ⟨s.streams, rfl⟩
  · refine setSuspended_off fun j hj => ?_
    rw [State.rd_wr_key _ _ (by decide) (State.coreStream_lt hq hj) hq']
    exact hstream j hj

/-! ### STOP (R133) -/

/-- What the waiting head of a queue left is gone from the queues of waiters. -/
theorem dropWaits_waiters (s : State) (q : Nat) :
    (∀ w ∈ (dropWaits s q).sync.waiters, w.who ≠ .lsu q) ∧ (∀ w ∈ (dropWaits s q).sync.hurWait, w.queue ≠ q) :=
  ⟨fun _ hw => of_decide_eq_true (List.mem_filter.1 hw).2, fun _ hw => of_decide_eq_true (List.mem_filter.1 hw).2⟩

theorem queueStop_stops {s : State} {q : Nat} (hq : q < 4096) (hruns : s.running q = true) :
    let t := queueStop s q
    t.qState q = qIDLE ∧ t.qPC q = s.qPC q ∧ t.headWait q = .plain ∧ (∀ w ∈ t.sync.waiters, w.who ≠ .lsu q) ∧
      (∀ w ∈ t.sync.hurWait, w.queue ≠ q) ∧ SameRegs s t [(F.VEC_Q_STAT_STATE, q), (F.VEC_Q_STAT_WAIT_ON, q)] ∧
      t = { s with regs := t.regs, tile := t.tile, sync := t.sync } ∧ t.tile.sregs = s.tile.sregs ∧ t.tile.vregs = s.tile.vregs := by
  have hq' : q < 131072 := by omega
  have hsame : SameRegs s (queueStop s q) [(F.VEC_Q_STAT_STATE, q), (F.VEC_Q_STAT_WAIT_ON, q)] := by
    rw [queueStop, if_pos hruns]
    refine .wr' _ _ _ (.regs' (t := ((dropWaits s q).wr F.VEC_Q_STAT_STATE q qRUN).wr F.VEC_Q_STAT_WAIT_ON q 0) ?_ rfl) hq' (by simp)
    exact .wr' _ _ _ (.wr' _ _ _ (.of_regs rfl _) hq' (by simp)) hq' (by simp)
  have hpc : (queueStop s q).qPC q = s.qPC q := hsame F.VEC_Q_PC_PC q hq' (by simp +decide)
  obtain ⟨hwaiters, hhur⟩ := dropWaits_waiters s q
  rw [queueStop, if_pos hruns] at hsame hpc ⊢
  have hhead : ((dropWaits s q).unhold q).headWait q = .plain := by
    simp [State.headWait, State.unhold, State.setHead]
  exact ⟨State.rd_wr_same _ _ _ _, hpc, hhead, hwaiters, hhur, hsame, rfl, rfl, rfl⟩

/-! ### The obligation -/

/-- Settles O12: START, STOP and CLEAR_FAULT, in the states in which each acts and outside them. -/
theorem queueControlMovesTheState : Obligations.QueueControlMovesTheState := by
  unfold Obligations.QueueControlMovesTheState
  refine ⟨?starts, ?startIgnored, ?stops, ?stopIgnored, ?clears, ?clearIgnored⟩
  case starts =>
    intro q s hup hstate hidle hstream
    have hq := q.isLt
    obtain ⟨x, heq⟩ := queueStart_starts hq hup hstate hidle hstream
    have hruns : (s.wr F.VEC_Q_STAT_STATE q qRUN).qState q = qRUN := State.rd_wr_same _ _ _ _
    have hsame : SameRegs s (s.wr F.VEC_Q_STAT_STATE q qRUN) [(F.VEC_Q_STAT_STATE, q.val)] := .wr s _ _ _ (by omega) (by simp)
    exact ⟨_, congrArg Host.Outcome.next heq, hruns, hsame, rfl, rfl, rfl⟩
  case startIgnored =>
    intro q s hstate
    exact congrArg Host.Outcome.next (if_pos (.inr hstate))
  case stops => exact fun q s hruns => ⟨_, rfl, queueStop_stops q.isLt hruns⟩
  case stopIgnored =>
    intro q s hruns
    exact congrArg Host.Outcome.next (if_neg (by simp [hruns]))
  case clears =>
    intro q s hfault
    have hq := q.isLt
    exact ⟨_, congrArg Host.Outcome.next (if_pos hfault), State.rd_wr_same _ _ _ _, .wr _ _ _ _ (by omega) (by simp), rfl⟩
  case clearIgnored => exact fun q s hfault => congrArg Host.Outcome.next (if_neg hfault)

end Sys2Proof.Machine
end

section
/-!
PROOFS. The end of a scratchpad's initialisation (R111) with a record that waits at an address off an 8-byte boundary.
-/
namespace Sys2Proof.Machine

/-- The stores of a record off an 8-byte boundary cover no word whole: no word becomes full. -/
theorem isFull_writeRecord_unaligned (s : State) {da : Nat} (ws : List Nat) (h : da % 8 ≠ 0) (x : Nat) :
    (writeRecord s da ws).isFull x = s.isFull x := by
  have hstore (t : State) (k v : Nat) : (t.storeWord (da + k * 8) v).isFull x = t.isFull x := by
    have hoff : ¬ x * 8 = da + k * 8 := by omega
    exact Bool.eq_iff_iff.2 ((State.isFull_storeWord t _ v x).trans (or_iff_right hoff))
  have htail : (writeTail s da ws (List.range 7)).isFull x = s.isFull x :=
    List.foldlRecOn _ _ (motive := fun t => t.isFull x = s.isFull x) rfl fun t ht k _ => (hstore t (k + 1) _).trans ht
  exact (hstore _ 0 _).trans htail

/-- The one record of a vector operation that waits for a memory is written when the memory is initialised. -/
theorem flushRecords_single {s : State} {w : RecWait} (hrecs : s.tile.recs = [w]) (hengine : w.engine = none)
    (hbusy : padBusy s w.da = false) (hdown : padDown s w.da = false) :
    flushRecords s = writeRecord { s with tile := { s.tile with recs := [] } } w.da w.words := by
  have hkept : padDown { s with tile := { s.tile with recs := [] } } w.da = false := hdown
  simp [flushRecords, hrecs, hbusy, hkept, hengine]

theorem cleared_writeRecord_frame (s : State) (da : Nat) (ws : List Nat) :
    UnitFrame [F.HUR_WIN_CREDIT_CREDIT] s (writeRecord { s with tile := { s.tile with recs := [] } } da ws) :=
  UnitFrame.trans (t := { s with tile := { s.tile with recs := [] } }) ⟨fun _ _ _ _ => rfl, rfl, rfl, rfl, rfl, rfl⟩
    (.of_store (writeRecord_frame _ _ _) (List.mem_singleton.2 rfl))

/-- A record of queue 0 that waits for the scratchpad of core 0 at an address off an 8-byte boundary. `putRecord` lets no such record wait
(`recordPlace`), but O13 says nothing of where the waiting record lies. -/
def unalignedRecord : RecWait := ⟨0, none, scratchBase + 4, []⟩

/-- The state after reset, in which every scratchpad is being initialised, with that record waiting. -/
def unalignedRecordWaits : State := { State.reset with tile := { State.reset.tile with recs := [unalignedRecord] } }

/-- The record waits for a memory that answers and is being initialised. -/
theorem unalignedRecordWaits_waits :
    padBusy unalignedRecordWaits unalignedRecord.da = true ∧ padDown unalignedRecordWaits unalignedRecord.da = false := by decide +kernel

/-- The core is out of reset, and its scratchpad answers and is initialised once SPAD_INIT is 0. -/
theorem unalignedRecordWaits_initialised :
    unalignedRecordWaits.coreDown 0 = false ∧ padDown (unalignedRecordWaits.wr F.VEC_STATUS_SPAD_INIT 0 0) unalignedRecord.da = false ∧
      padBusy (unalignedRecordWaits.wr F.VEC_STATUS_SPAD_INIT 0 0) unalignedRecord.da = false := by
  decide +kernel

/-- When the initialisation ends the record is written, and fills no word. -/
theorem unalignedRecord_written :
    let t := initEnd unalignedRecordWaits 0 false
    padBusy t unalignedRecord.da = false ∧ ∀ x, t.isFull x = false := by
  obtain ⟨hcore, hup, hready⟩ := unalignedRecordWaits_initialised
  have hoff : unalignedRecord.da % 8 ≠ 0 := by norm_num [unalignedRecord, scratchBase]
  have hrecs : (unalignedRecordWaits.wr F.VEC_STATUS_SPAD_INIT 0 0).tile.recs = [unalignedRecord] := rfl
  dsimp only
  rw [initEnd, if_neg (by decide), if_neg (by simp [hcore]), flushRecords_single hrecs rfl hready hup]
  refine ⟨?_, fun x => ?_⟩
  · exact ((cleared_writeRecord_frame _ _ _).padBusy (by decide) _).trans hready
  · exact (isFull_writeRecord_unaligned _ _ hoff x).trans rfl

/-- Refutes O13: its last clause holds of records on an 8-byte boundary alone, which it does not ask for. With a record that waits at a
scratchpad address 4 bytes off one, the end of the initialisation leaves the first word empty. -/
theorem not_coreMemoriesTakeTheirWrites : ¬ Obligations.CoreMemoriesTakeTheirWrites := by
  unfold Obligations.CoreMemoriesTakeTheirWrites
  intro h
  obtain ⟨-, -, -, -, -, hrecord⟩ := h
  obtain ⟨hbusy, hdown⟩ := unalignedRecordWaits_waits
  obtain ⟨hready, hempty⟩ := unalignedRecord_written
  obtain ⟨t, hstep, -, hwritten⟩ := hrecord 0 false unalignedRecordWaits unalignedRecord rfl hbusy hdown
  have ht : initEnd unalignedRecordWaits 0 false = t := Host.Outcome.next.inj hstep
  rw [← ht] at hwritten
  obtain ⟨-, -, hwords⟩ := hwritten hready
  obtain ⟨-, hfull⟩ := hwords 0 (by decide)
  exact absurd ((hempty _).symm.trans hfull) (by decide)

end Sys2Proof.Machine
end

section
/-!
PROOFS. The reads of a stream engine (R150, R157): a set that holds two transfers of one position.
-/
namespace Sys2Proof.Machine

/-- A read of `n` bytes at the start of the scratchpad of core 0, at the first position of descriptor 0, which waits to be served. -/
def waitingRead (n : Nat) (panic : Bool) : Issued := ⟨0, 0, 0, [(scratchBase, 0, n)], [], .reading, [], 0, false, panic, 0⟩

/-- A read of 8 bytes issued, and behind it at the same position a panic read of 16 bytes. No engine issues a position twice, but O18 does
not ask that positions differ. -/
def doubledRead : State :=
  let set : StmSet := { StmSet.idle with issued := [waitingRead 8 false, waitingRead 16 true] }
  (State.reset.wr F.VEC_STATUS_SPAD_INIT 0 0).setStream 0 { Stream.idle with set0 := set }

/-- The first read is the one of the position that is still reading, and its words are of memory that is initialised and answers. -/
theorem doubledRead_readable :
    let ws := (wordsOf (gaDA scratchBase) 8).eraseDups
    (doubledRead.stmSet 0 0).issued.find? (fun i => decide (i.desc = 0 ∧ i.pos = 0 ∧ i.st = .reading)) = some (waitingRead 8 false) ∧
      onChip (gaDA scratchBase) = true ∧ onChip (gaDA scratchBase + 8 - 1) = true ∧
      ws.any (fun w => padBusy doubledRead (w * 8)) = false ∧ memDown doubledRead ws = false ∧
      mayAccess doubledRead (waitersBefore (.stream 0 0) ws doubledRead.sync.waiters) ((doubledRead.stmSet 0 0).dsc 0).sfe false ws = true := by
  decide +kernel

/-- The panic read is served first, and its 16 bytes stand at both transfers of the position. -/
theorem doubledRead_served :
    ((readComplete doubledRead 0 0 0 0 [] []).stmSet 0 0).issued.map Issued.bytes = [[List.replicate 16 0], [List.replicate 16 0]] := by
  decide +kernel

/-- Refutes O18: the clause of READ_TRANSFER_COMPLETE holds of a set whose transfers have different positions, which it does not ask
for. A panic read of 16 bytes at the position of a read of 8 is served before it (R157), and the read of 8 ends with 16 bytes. -/
theorem not_streamsArmIssueAndRead : ¬ Obligations.StreamsArmIssueAndRead := by
  unfold Obligations.StreamsArmIssueAndRead
  intro h
  obtain ⟨-, -, hread, -⟩ := h
  obtain ⟨hfound, hfirst, hlast, hready, hup, hadmitted⟩ := doubledRead_readable
  obtain ⟨t, hstep, -, -, x, hx, -, -, -, hbytes⟩ :=
    hread 0 0 0 0 [] [] doubledRead (waitingRead 8 false) scratchBase 0 8 hfound rfl rfl hfirst hlast hready hup hadmitted
  have ht : readComplete doubledRead 0 0 0 0 [] [] = t := Host.Outcome.next.inj hstep
  rw [← ht] at hx
  have hserved : x.bytes ∈ [[List.replicate 16 (0 : Byte)], [List.replicate 16 0]] := doubledRead_served ▸ List.mem_map_of_mem hx
  have hlength : (x.bytes.map List.length) = [16] := by
    simp only [List.mem_cons, List.not_mem_nil, or_false, or_self] at hserved
    rw [hserved]
    rfl
  rw [hbytes] at hlength
  simp [readBytes] at hlength

end Sys2Proof.Machine
end

section
/-!
PROOFS. Memory by DA (R11, R276-R291): an access of memory off the chip leaves the cores, the scratchpads and the staging buffers alone,
and no access changes a core's own state.
-/
namespace Sys2Proof.Machine

/-- From `s` to `t` neither a core's own state nor a byte of memory on the chip has changed. -/
structure OffChip (s t : State) : Prop where
  tile : t.tile = s.tile
  sram : t.sram = s.sram

namespace OffChip

variable {s t u : State}

theorem refl (s : State) : OffChip s s := ⟨rfl, rfl⟩

theorem trans (h : OffChip s t) (h' : OffChip t u) : OffChip s u := ⟨h'.tile.trans h.tile, h'.sram.trans h.sram⟩

theorem wr (h : OffChip s t) (f : Fld) (i v : Nat) : OffChip s (t.wr f i v) := ⟨h.tile, h.sram⟩

theorem bump (h : OffChip s t) (c : Cnt) (i n : Nat) : OffChip s (t.bump c i n) := by
  refine h.trans ⟨?_, ?_⟩ <;> simp

theorem setMem (h : OffChip s t) (m : Mem) : OffChip s (t.setMem m) := ⟨h.tile, h.sram⟩

theorem emit (h : OffChip s t) (o : Out) : OffChip s (t.emit o) := ⟨h.tile, h.sram⟩

theorem owe (h : OffChip s t) (event byte : Nat) : OffChip s (t.owe event byte) := ⟨h.tile, h.sram⟩

theorem ite {c : Prop} [Decidable c] (ht : OffChip s t) (hu : OffChip s u) : OffChip s (if c then t else u) := by
  split
  · exact ht
  · exact hu

theorem foldl {α : Type} {f : State → α → State} (as : List α) (s : State) (h : ∀ t a, OffChip t (f t a)) : OffChip s (as.foldl f s) :=
  List.foldlRecOn as f (motive := OffChip s) (refl s) fun t ht a _ => ht.trans (h t a)

end OffChip

/-! ### HBM (R276-R283) -/

theorem wakePc_offChip (s : State) (pc : Nat) : OffChip s (wakePc s pc) := by
  unfold wakePc
  split
  · exact (OffChip.refl s).wr _ _ _
  · exact (OffChip.foldl _ s fun t _ => .ite ((OffChip.refl t).wr _ _ _) (.refl t)).bump _ _ _
  · exact .refl s

theorem hbmUncorrectable_offChip (s : State) (pc da : Nat) (write : Bool) : OffChip s (hbmUncorrectable s pc da write) := by
  have hcounted : OffChip s ((s.bump C.HBM_UE_CNT (quarterOfPc pc) 1).wr F.HBM_STATUS_UE (quarterOfPc pc) 1) :=
    ((OffChip.refl s).bump _ _ _).wr _ _ _
  unfold hbmUncorrectable
  exact .ite (.owe (.emit (.ite hcounted (.wr (.wr (.wr (.wr hcounted _ _ _) _ _ _) _ _ _) _ _ _)) _) _ _)
    (.ite hcounted (.wr (.wr (.wr (.wr hcounted _ _ _) _ _ _) _ _ _) _ _ _))

theorem hbmCorrected_offChip (s : State) (pc : Nat) : OffChip s (hbmCorrected s pc) := ((OffChip.refl s).bump _ _ _).wr _ _ _

theorem hbmAtomRead_offChip (s : State) (atom ecc : Nat) : OffChip s (hbmAtomRead s atom ecc).1 := by
  have hwoken := wakePc_offChip s (hbmLoc s (atom * 32)).1
  unfold hbmAtomRead
  dsimp only
  split
  · exact hwoken.bump _ _ _
  · split
    · exact hwoken
    · exact .setMem (hwoken.trans (hbmCorrected_offChip _ _)) _
    · exact .setMem (hwoken.trans (hbmUncorrectable_offChip _ _ _ _)) _

theorem hbmReadAtoms_offChip (atoms ecc : List Nat) (s : State) : OffChip s (hbmReadAtoms s atoms ecc).1 := by
  induction atoms generalizing s ecc with
  | nil => exact .refl s
  | cons a atoms ih => exact (hbmAtomRead_offChip s a _).trans (ih _ _)

theorem countBytes_offChip (s : State) (c : Cnt) (da n : Nat) : OffChip s (countBytes s c da n) :=
  .foldl _ s fun t _ => .ite (.refl t) ((OffChip.refl t).bump _ _ _)

theorem hbmRead_offChip (s : State) (da n : Nat) (ecc : List Nat) : OffChip s (hbmRead s da n ecc).1 := by
  unfold hbmRead
  dsimp only
  split
  · exact .refl s
  · exact (hbmReadAtoms_offChip _ _ s).trans (countBytes_offChip _ _ _ _)

theorem hbmDrain_offChip (s : State) (pc : Nat) (panic : Bool) : OffChip s (hbmDrain s pc panic) :=
  .ite (.ite ((OffChip.refl s).setMem _) (.refl s)) (.ite ((OffChip.refl s).setMem _) (.refl s))

theorem hbmAtomWrite_offChip (s : State) (da : Nat) (bs : List Byte) (ecc : Nat) (panic : Bool) :
    OffChip s (hbmAtomWrite s da bs ecc panic).1 := by
  have hwoken := wakePc_offChip s (hbmLoc s da).1
  unfold hbmAtomWrite
  dsimp only
  rw [apply_ite Prod.fst]
  refine .ite ?_ ?_
  · exact .setMem (hwoken.trans (hbmUncorrectable_offChip _ _ _ _)) _
  · exact .trans (.setMem (.setMem (.setMem (hwoken.trans (.ite (hbmCorrected_offChip _ _) (.refl _))) _) _) _) (hbmDrain_offChip _ _ _)

theorem hbmWriteAtoms_offChip (panic : Bool) (pieces : List (Nat × List Byte)) (ecc : List Nat) (s : State) :
    OffChip s (hbmWriteAtoms s panic pieces ecc).1 := by
  induction pieces generalizing s ecc with
  | nil => exact .refl s
  | cons p pieces ih => exact (hbmAtomWrite_offChip s p.1 p.2 _ panic).trans (ih _ _)

theorem hbmWrite_offChip (s : State) (da : Nat) (bs : List Byte) (ecc : List Nat) (panic : Bool) :
    OffChip s (hbmWrite s da bs ecc panic).1 := by
  unfold hbmWrite
  dsimp only
  split
  · exact .refl s
  · exact (hbmWriteAtoms_offChip _ _ _ s).trans (countBytes_offChip _ _ _ _)

/-! ### The CXL tier and the host (R287-R291, R398) -/

theorem xltEntry_offChip (s : State) (page da : Nat) : OffChip s (xltEntry s page da).1 := by
  have hread := hbmRead_offChip s da 8 []
  unfold xltEntry
  split
  · exact .refl s
  · dsimp only
    split
    · exact hread
    · exact .ite (hread.setMem _) hread

theorem cxlTranslate_offChip (s : State) (off : Nat) (write : Bool) : OffChip s (cxlTranslate s off write).1 := by
  unfold cxlTranslate
  split
  · exact .refl s
  split
  · split
    · exact .refl s
    · dsimp only
      have hentry := xltEntry_offChip s
      split
      · exact hentry _ _
      · split_ifs <;> exact hentry _ _
  · exact .refl s

theorem cxlResolve_offChip (s : State) (off : Nat) (write : Bool) : OffChip s (cxlResolve s off write).1 := by
  have htranslated := cxlTranslate_offChip s off write
  unfold cxlResolve
  dsimp only
  split <;> exact htranslated

theorem cxlError_offChip (s : State) : OffChip s (cxlError s) := ((OffChip.refl s).bump _ _ _).owe _ _

theorem cxlKeys_offChip (n : Nat) (s : State) (off : Nat) (write : Bool) : OffChip s (cxlKeys s off write n).1 := by
  induction n generalizing s off with
  | zero => exact .refl s
  | succ n ih =>
    have hresolved := cxlResolve_offChip s off write
    unfold cxlKeys
    dsimp only
    split
    · exact hresolved
    · exact hresolved.bump _ _ _
    · exact hresolved.trans (cxlError_offChip _)
    · split <;> exact hresolved.trans (ih _ _)

theorem cxlRead_offChip (s : State) (off n : Nat) (ecc : List Nat) : OffChip s (cxlRead s off n ecc).1 := by
  have hkeys := cxlKeys_offChip n s off false
  unfold cxlRead
  dsimp only
  split
  · exact hkeys
  · split
    · exact hkeys.trans (cxlError_offChip _)
    · exact hkeys.bump _ _ _

theorem cxlWrite_offChip (s : State) (off : Nat) (bs : List Byte) (ecc : List Nat) : OffChip s (cxlWrite s off bs ecc).1 := by
  have hkeys := cxlKeys_offChip bs.length s off true
  unfold cxlWrite
  dsimp only
  split
  · exact hkeys
  · split
    · exact hkeys.trans (cxlError_offChip _)
    · exact (hkeys.setMem _).bump _ _ _

theorem hostRead_offChip (s : State) (n : Nat) (ext : List Byte) : OffChip s (hostRead s n ext).1 := by
  unfold hostRead
  split_ifs
  · exact (OffChip.refl s).bump _ _ _
  · exact (OffChip.refl s).bump _ _ _
  · exact .refl s

theorem hostWrite_offChip (s : State) (da : Nat) (bs : List Byte) : OffChip s (hostWrite s da bs).1 := by
  unfold hostWrite
  split
  · exact (OffChip.refl s).bump _ _ _
  · exact ((OffChip.refl s).bump _ _ _).emit _

/-! ### Memory by DA -/

/-- A read of memory changes neither a core's own state nor memory on the chip. -/
theorem memRead_offChip (s : State) (da n : Nat) (a : Around) : OffChip s (memRead s da n a).1 := by
  unfold memRead
  split
  · split
    · exact hbmRead_offChip _ _ _ _
    · exact .refl s
  · split <;> exact .refl s
  · split <;> exact .refl s
  · exact cxlRead_offChip _ _ _ _
  · exact hostRead_offChip _ _ _
  · exact .refl s
  · exact .refl s

theorem memNat_offChip (s : State) (da n : Nat) : OffChip s (memNat s da n).1 := memRead_offChip s da n _

/-- A write of memory changes no core's own state. -/
theorem memWrite_tile (s : State) (da : Nat) (bs : List Byte) (a : Around) : (memWrite s da bs a).1.tile = s.tile := by
  unfold memWrite
  split
  · split
    · exact (hbmWrite_offChip _ _ _ _ _).tile
    · rfl
  · split
    · rfl
    · exact (s.storePlain_frame da bs).tile
  · split
    · rfl
    · exact (s.storePlain_frame da bs).tile
  · exact (cxlWrite_offChip _ _ _ _).tile
  · exact (hostWrite_offChip _ _ _).tile
  · rfl
  · rfl

theorem writeImage_tile (da : Nat) (pieces : List (Nat × List Byte)) (s : State) : (writeImage s da pieces).1.tile = s.tile := by
  induction pieces generalizing s with
  | nil => rfl
  | cons p pieces ih =>
    have hwrite := memWrite_tile s (da + p.1) p.2 Around.quiet
    unfold writeImage
    dsimp only
    split
    · exact ih s
    · split
      · exact (ih _).trans hwrite
      · exact hwrite

end Sys2Proof.Machine
end

section
/-!
PROOFS. Context saves and restores (R136, R138-R142): requests that are refused, and those that run from their request to their end.
-/
namespace Sys2Proof.Machine

/-! ### The queues of a core (R140, R142) -/

def queuesOfCore (k : Nat) : List Nat := (List.range 8).map (k * 8 + ·)

theorem mem_queuesOfCore {k i : Nat} (hi : i < 8) : k * 8 + i ∈ queuesOfCore k := List.mem_map.2 ⟨i, List.mem_range.2 hi, rfl⟩

theorem lt_of_mem_queuesOfCore {k q : Nat} (hk : k < 512) (h : q ∈ queuesOfCore k) : q < 4096 := by
  obtain ⟨i, hi, rfl⟩ := List.mem_map.1 h
  have := List.mem_range.1 hi
  omega

/-- An operation on one queue after another brings each into state `v`, if it does so from every state that is `good`. -/
theorem qState_foldl_queues {f : State → Nat → State} {good : Nat → Prop} {p v : Nat} {qs : List Nat}
    (hself : ∀ t : State, good (t.qState p) → (f t p).qState p = v) (hother : ∀ t : State, ∀ q ∈ qs, q ≠ p → (f t q).qState p = t.qState p)
    (hgood : good v) (hp : p ∈ qs) {s : State} (hs : good (s.qState p)) : (qs.foldl f s).qState p = v := by
  have hkept (l : List Nat) (hl : l ⊆ qs) (t : State) (ht : t.qState p = v) : (l.foldl f t).qState p = v :=
    List.foldlRecOn l f (motive := fun u : State => u.qState p = v) ht fun u hu q hq => by
      by_cases hqp : q = p
      · rw [hqp]
        exact hself u (hu.symm ▸ hgood)
      · exact (hother u q (hl hq) hqp).trans hu
  induction qs generalizing s with
  | nil => exact absurd hp List.not_mem_nil
  | cons q qs ih =>
    have htail : qs ⊆ q :: qs := List.subset_cons_self q qs
    by_cases hqp : q = p
    · exact hkept qs htail _ (hqp ▸ hself s hs)
    · refine ih (fun t r hr => hother t r (htail hr)) ((List.mem_cons.1 hp).resolve_left (Ne.symm hqp)) ?_
        fun l hl => hkept l (List.Subset.trans hl htail)
      rwa [hother s q List.mem_cons_self hqp]

/-- Queue `q` at the end of a save (R140). -/
def saveQueue (s : State) (q : Nat) : State :=
  if s.qState q = qFAULT then s else (s.wr F.VEC_Q_STAT_STATE q qSAVED).wr F.VEC_Q_STAT_WAIT_ON q 0

theorem allSaved_eq (s : State) (k : Nat) : allSaved s k = (queuesOfCore k).foldl saveQueue s := by
  rw [queuesOfCore, List.foldl_map]
  rfl

theorem allSaved_saves {s : State} {k i : Nat} (hk : k < 512) (hi : i < 8) (h : s.qState (k * 8 + i) ≠ qFAULT) :
    (allSaved s k).qState (k * 8 + i) = qSAVED := by
  have hp : k * 8 + i < 131072 := by omega
  rw [allSaved_eq]
  refine qState_foldl_queues (good := (· ≠ qFAULT)) (fun t ht => ?_) (fun t q hq hne => ?_) (by decide) (mem_queuesOfCore hi) h
  · rw [saveQueue, if_neg ht, State.qState, State.rd_wr_key _ _ (by decide) hp hp, State.rd_wr_same]
    rfl
  · have hq' : q < 131072 := by have := lt_of_mem_queuesOfCore hk hq; omega
    unfold saveQueue
    split
    · rfl
    · exact (State.rd_wr_key _ _ (by decide) hp hq').trans (State.rd_wr_unit _ _ (Ne.symm hne) hp hq')

theorem allSaved_keeps (s : State) (k : Nat) : (allSaved s k).tile = s.tile ∧ (allSaved s k).mem = s.mem := by
  refine List.foldlRecOn _ _ (motive := fun t : State => t.tile = s.tile ∧ t.mem = s.mem) ⟨rfl, rfl⟩ fun t ht i _ => ?_
  split
  · exact ht
  · exact ht

/-- Queue `q` after a restore that failed (R142). -/
def idleQueue (s : State) (q : Nat) : State := ((dropWaits s q).unhold q).wr F.VEC_Q_STAT_STATE q qIDLE

theorem idleQueue_rd (s : State) (q : Nat) (f : Fld) (i : Nat) :
    (idleQueue s q).rd f i = (((s.wr F.VEC_Q_STAT_STATE q qRUN).wr F.VEC_Q_STAT_WAIT_ON q 0).wr F.VEC_Q_STAT_STATE q qIDLE).rd f i := rfl

theorem allIdle_eq (s : State) (k : Nat) : allIdle s k = (queuesOfCore k).foldl idleQueue s := by
  rw [queuesOfCore, List.foldl_map]
  rfl

theorem allIdle_idles (s : State) {k i : Nat} (hk : k < 512) (hi : i < 8) : (allIdle s k).qState (k * 8 + i) = qIDLE := by
  have hp : k * 8 + i < 131072 := by omega
  rw [allIdle_eq]
  refine qState_foldl_queues (good := fun _ => True) (fun t _ => ?_) (fun t q hq hne => ?_) trivial (mem_queuesOfCore hi) trivial
  · rw [State.qState, idleQueue_rd, State.rd_wr_same]
    rfl
  · have hq' : q < 131072 := by have := lt_of_mem_queuesOfCore hk hq; omega
    rw [State.qState, idleQueue_rd, State.rd_wr_unit _ _ (Ne.symm hne) hp hq', State.rd_wr_key _ _ (by decide) hp hq',
      State.rd_wr_unit _ _ (Ne.symm hne) hp hq', State.qState]

theorem allIdle_keeps (s : State) (k : Nat) : (allIdle s k).tile.sregs = s.tile.sregs ∧ (allIdle s k).sram = s.sram :=
  List.foldlRecOn _ _ (motive := fun t : State => t.tile.sregs = s.tile.sregs ∧ t.sram = s.sram) ⟨rfl, rfl⟩ fun _ ht _ _ => ht

/-! ### Ends of requests (R142) -/

section
variable (s : State) {k : Nat} (hk : k < 512)
include hk

theorem ctxFail_sameRegs (cause : Nat) : SameRegs s (ctxFail s k cause) [(F.VEC_CTX_STATUS_ERR, k), (F.VEC_CTX_STATUS_CAUSE, k)] :=
  .wr' _ _ _ (.wr _ _ _ _ (by omega) (by simp)) (by omega) (by simp)

theorem ctxFail_shows {cause : Nat} (hcause : cause < 16) :
    (ctxFail s k cause).rd F.VEC_CTX_STATUS_ERR k = 1 ∧ (ctxFail s k cause).rd F.VEC_CTX_STATUS_CAUSE k = cause := by
  have hk' : k < 131072 := by omega
  refine ⟨?_, (State.rd_wr_same _ _ _ _).trans (Nat.mod_eq_of_lt hcause)⟩
  rw [ctxFail, State.rd_wr_key _ _ (by decide) hk' hk', State.rd_wr_same]
  rfl

/-- The register fields that the end of a save or restore writes. -/
def ctxEndFields : List Fld :=
  [F.VEC_CTX_CTRL_SAVE, F.VEC_CTX_CTRL_RESTORE, F.VEC_CTX_STATUS_BUSY, F.VEC_CTX_STATUS_QUIESCE, F.VEC_CTX_STATUS_CYCLES]

theorem ctxEnd_frame (cycles : Nat) : UnitFrame ctxEndFields s (ctxEnd s k cycles) := by
  have hwr (t : State) (f : Fld) (v : Nat) (hf : f ∈ ctxEndFields) : UnitFrame ctxEndFields t (t.wr f k v) := .wr t v (by omega) hf
  have hctx (t : State) : UnitFrame ctxEndFields t (t.setCtx k none) := ⟨fun _ _ _ _ => rfl, rfl, rfl, rfl, rfl, rfl⟩
  exact ((((hwr _ _ _ (by decide)).trans (hwr _ _ _ (by decide))).trans (hwr _ _ _ (by decide))).trans (hwr _ _ _ (by decide))).trans
    ((hwr _ _ _ (by decide)).trans (hctx _))

theorem ctxEnd_ends (cycles : Nat) : (ctxEnd s k cycles).rd F.VEC_CTX_STATUS_BUSY k = 0 ∧ (ctxEnd s k cycles).ctxOp k = none := by
  have hk' : k < 131072 := by omega
  refine ⟨?_, by simp [ctxEnd, State.ctxOp, State.setCtx]⟩
  have hrd (t : State) : (t.setCtx k none).rd F.VEC_CTX_STATUS_BUSY k = t.rd F.VEC_CTX_STATUS_BUSY k := rfl
  rw [ctxEnd, hrd, State.rd_wr_key _ _ (by decide) hk' hk', State.rd_wr_key _ _ (by decide) hk' hk', State.rd_wr_same]
  rfl

end

theorem ctxEnd_tile (s : State) (k cycles : Nat) : (ctxEnd s k cycles).tile = { s.tile with ctx := (ctxEnd s k cycles).tile.ctx } := rfl

/-! ### Engines that stop and stream engines that suspend (R136, R167, R168) -/

theorem preempt_frame (s : State) {e : Nat} (he : e < 2048) :
    UnitFrame [F.MXE_CTRL_PREEMPT] s (preempt s e) ∧ (preempt s e).tile = s.tile := by
  unfold preempt
  split
  · split
    · exact ⟨.wr _ _ (by omega) (by simp), rfl⟩
    · exact ⟨.refl _ s, rfl⟩
  · exact ⟨.refl _ s, rfl⟩

/-- The register fields that show a stream engine's sets. -/
def shownFields : List Fld :=
  [F.STM_STATUS_ARMED, F.STM_STATUS_BUSY, F.STM_STATUS_RUN_SET, F.STM_SET0_LIST_DA, F.STM_SET0_COUNT, F.STM_SET0_NEXT, F.STM_SET1_LIST_DA,
    F.STM_SET1_COUNT, F.STM_SET1_NEXT, F.STM_STATUS_PANIC, F.STM_STATUS_STATE]

/-- From `s` to `t`, of the register fields only those that show the sets of a stream engine have changed, and nothing of a core's own. -/
structure ShownFrame (s t : State) : Prop where
  fields : ∀ (f : Fld) (i : Nat), i < 131072 → (∀ g ∈ shownFields, f.key ≠ g.key) → t.rd f i = s.rd f i
  tile : t.tile = s.tile

namespace ShownFrame

variable {s t u : State}

theorem refl (s : State) : ShownFrame s s := ⟨fun _ _ _ _ => rfl, rfl⟩

theorem trans (h : ShownFrame s t) (h' : ShownFrame t u) : ShownFrame s u :=
  ⟨fun f i hi hf => (h'.fields f i hi hf).trans (h.fields f i hi hf), h'.tile.trans h.tile⟩

theorem wr (h : ShownFrame s t) {g : Fld} {i : Nat} (v : Nat) (hi : i < 131072) (hg : g ∈ shownFields) : ShownFrame s (t.wr g i v) :=
  h.trans ⟨fun _ _ hj hf => State.rd_wr_key _ _ (hf g hg) hj hi, rfl⟩

/-- A further step that is made under a condition. -/
theorem thenIf {c : Prop} [Decidable c] (h : ShownFrame s t) (h' : ShownFrame t u) : ShownFrame s (if c then u else t) := by
  split
  · exact h.trans h'
  · exact h

end ShownFrame

theorem stmShow_frame (s : State) {g : Nat} (hg : g < 1024) : ShownFrame s (stmShow s g) := by
  have hi : g < 131072 := by omega
  have hstatus (n b r : Nat) : ShownFrame s (((s.wr F.STM_STATUS_ARMED g n).wr F.STM_STATUS_BUSY g b).wr F.STM_STATUS_RUN_SET g r) :=
    .wr (.wr (.wr (.refl s) _ hi (by decide)) _ hi (by decide)) _ hi (by decide)
  have hset0 (t : State) (d c n : Nat) : ShownFrame t (((t.wr F.STM_SET0_LIST_DA g d).wr F.STM_SET0_COUNT g c).wr F.STM_SET0_NEXT g n) :=
    .wr (.wr (.wr (.refl t) _ hi (by decide)) _ hi (by decide)) _ hi (by decide)
  have hset1 (t : State) (d c n : Nat) : ShownFrame t (((t.wr F.STM_SET1_LIST_DA g d).wr F.STM_SET1_COUNT g c).wr F.STM_SET1_NEXT g n) :=
    .wr (.wr (.wr (.refl t) _ hi (by decide)) _ hi (by decide)) _ hi (by decide)
  unfold stmShow
  dsimp only
  split
  · exact .wr (.thenIf (.thenIf (hstatus _ _ _) (hset0 _ _ _ _)) (hset1 _ _ _ _)) _ hi (by decide)
  · exact .wr (.wr (.thenIf (.thenIf (hstatus _ _ _) (hset0 _ _ _ _)) (hset1 _ _ _ _)) _ hi (by decide)) _ hi (by decide)

theorem setStream_dropGroups_frame (s : State) (g : Nat) (x : Stream) :
    ShownFrame s (s.setStream g x) ∧ ShownFrame s (dropGroups (s.setStream g x) g) := ⟨⟨fun _ _ _ _ => rfl, rfl⟩, ⟨fun _ _ _ _ => rfl, rfl⟩⟩

theorem retranslate_frame (s : State) {g : Nat} (hg : g < 1024) : ShownFrame s (retranslate s g) := by
  refine .thenIf (.refl s) ?_
  unfold resumeSet
  dsimp only
  split
  · exact .refl s
  · exact (setStream_dropGroups_frame s g _).2.trans (stmShow_frame _ hg)

theorem setSuspended_frame (s : State) {k : Nat} (hk : k < 512) (v : Bool) : ShownFrame s (setSuspended s k v) := by
  refine List.foldlRecOn [0, 1] _ (motive := ShownFrame s) (.refl s) fun t ht e he => ht.trans ?_
  have hg : k * 2 + e < 1024 := by simp only [List.mem_cons, List.not_mem_nil, or_false] at he; omega
  obtain ⟨hset, hdropped⟩ := setStream_dropGroups_frame t (k * 2 + e)
    { t.stream (k * 2 + e) with suspended := v, wantsGroup := if v then false else (t.stream (k * 2 + e)).wantsGroup }
  cases v with
  | true => exact hdropped
  | false => exact hset.trans (retranslate_frame _ hg)

theorem setSuspended_on (s : State) (k : Nat) :
    ((setSuspended s k true).stream (k * 2)).suspended = true ∧ ((setSuspended s k true).stream (k * 2 + 1)).suspended = true := by
  simp [setSuspended, dropGroups, State.stream, State.setStream, Tab.get_set]

end Sys2Proof.Machine
end

section
/-!
PROOFS. Context saves and restores (R136, R138-R142): the requests that are refused, the saves and restores that begin, and their ends.
-/
namespace Sys2Proof.Machine

theorem State.ctxOp_setCtx (s : State) (k : Nat) (o : Option CtxOp) : (s.setCtx k o).ctxOp k = o := by simp [State.ctxOp, State.setCtx]

theorem State.rd_setCtx (s : State) (k : Nat) (o : Option CtxOp) (f : Fld) (i : Nat) : (s.setCtx k o).rd f i = s.rd f i := rfl

theorem State.stream_setCtx (s : State) (k : Nat) (o : Option CtxOp) (g : Nat) : (s.setCtx k o).stream g = s.stream g := rfl

/-! ### Ends of requests (R140, R142) -/

theorem ctxFail_keeps (s : State) {k : Nat} (hk : k < 512) (cause : Nat) {f : Fld} {i : Nat} (hi : i < 131072)
    (hf : f.key ≠ F.VEC_CTX_STATUS_ERR.key ∧ f.key ≠ F.VEC_CTX_STATUS_CAUSE.key) : (ctxFail s k cause).rd f i = s.rd f i := by
  have hk' : k < 131072 := by omega
  rw [ctxFail, State.rd_wr_key _ _ hf.2 hi hk', State.rd_wr_key _ _ hf.1 hi hk']

/-- The end with ERR and CAUSE 0x5 of a request that has left the state `w`. -/
def failedEnd (w : State) (k cycles : Nat) : State := ctxFail (ctxEnd w k cycles) k 0x5

/-- The end with DONE of a request that has left the state `w`. -/
def doneEnd (w : State) (k cycles : Nat) : State := (ctxEnd w k cycles).wr F.VEC_CTX_STATUS_DONE k 1

section
variable (w : State) {k : Nat} (hk : k < 512) (cycles : Nat)
include hk

theorem failedEnd_shows :
    let t := failedEnd w k cycles
    t.rd F.VEC_CTX_STATUS_BUSY k = 0 ∧ t.rd F.VEC_CTX_STATUS_ERR k = 1 ∧ t.rd F.VEC_CTX_STATUS_CAUSE k = 5 ∧
      ∀ q, q < 4096 → t.qState q = w.qState q := by
  have hk' : k < 131072 := by omega
  obtain ⟨hbusy, -⟩ := ctxEnd_ends w hk cycles
  obtain ⟨herr, hcause⟩ := ctxFail_shows (ctxEnd w k cycles) hk (cause := 5) (by decide)
  have hkept := fun f i hi => ctxFail_keeps (ctxEnd w k cycles) hk 5 (f := f) (i := i) hi
  refine ⟨(hkept _ _ hk' (by decide)).trans hbusy, herr, hcause, fun q hq => ?_⟩
  exact (hkept _ _ (by omega) (by decide)).trans ((ctxEnd_frame w hk cycles).fields _ _ (by omega) (by decide))

theorem doneEnd_shows : (doneEnd w k cycles).rd F.VEC_CTX_STATUS_DONE k = 1 ∧ (doneEnd w k cycles).rd F.VEC_CTX_STATUS_BUSY k = 0 := by
  have hk' : k < 131072 := by omega
  obtain ⟨hbusy, -⟩ := ctxEnd_ends w hk cycles
  exact ⟨State.rd_wr_same _ _ _ _, (State.rd_wr_key _ _ (by decide) hk' hk').trans hbusy⟩

end

theorem failedEnd_rest (w : State) (k cycles : Nat) :
    let t := failedEnd w k cycles
    t.ctxOp k = none ∧ t.tile.sregs = w.tile.sregs ∧ t.tile.vregs = w.tile.vregs ∧ t.sram = w.sram ∧ t.mem = w.mem :=
  ⟨State.ctxOp_setCtx _ _ _, rfl, rfl, rfl, rfl⟩

theorem doneEnd_rest (w : State) (k cycles : Nat) :
    let t := doneEnd w k cycles
    t.ctxOp k = none ∧ t.tile.sregs = w.tile.sregs ∧ t.tile.vregs = w.tile.vregs :=
  ⟨State.ctxOp_setCtx _ _ _, rfl, rfl⟩

/-! ### Refused requests (R142) -/

theorem ctxSave_refused {s : State} {k cause : Nat} (hup : s.coreDown k = false)
    (h : (s.on F.VEC_CTX_STATUS_BUSY k = true ∧ cause = 1) ∨
      (s.on F.VEC_CTX_STATUS_BUSY k = false ∧ ctxInHbm (s.rd F.VEC_CTX_DA_DA k) (ctxLen s k) = false ∧ cause = 2)) :
    ctxSave s k = ctxFail s k cause := by
  rcases h with ⟨hbusy, rfl⟩ | ⟨hidle, hplace, rfl⟩
  · simp [ctxSave, hup, hbusy]
  · simp [ctxSave, hup, hidle, hplace]

theorem ctxRestore_refused {s : State} {k cause : Nat} (hup : s.coreDown k = false)
    (h : (s.on F.VEC_CTX_STATUS_BUSY k = true ∧ cause = 1) ∨
      (s.on F.VEC_CTX_STATUS_BUSY k = false ∧ ctxInHbm (s.rd F.VEC_CTX_DA_DA k) (ctxLen s k) = false ∧ cause = 2) ∨
      (s.on F.VEC_CTX_STATUS_BUSY k = false ∧ ctxInHbm (s.rd F.VEC_CTX_DA_DA k) (ctxLen s k) = true ∧
        (List.range 8).any (fun i => s.running (k * 8 + i)) = true ∧ cause = 3)) :
    ctxRestore s k = ctxFail s k cause := by
  unfold ctxRestore
  dsimp only
  rcases h with ⟨hbusy, rfl⟩ | ⟨hidle, hplace, rfl⟩ | ⟨hidle, hplace, hruns, rfl⟩
  · rw [if_neg (by simp [hup]), if_pos hbusy]
  · rw [if_neg (by simp [hup]), if_neg (by simp [hidle]), if_pos (by simp [hplace])]
  · rw [if_neg (by simp [hup]), if_neg (by simp [hidle]), if_neg (by simp [hplace]), if_pos hruns]

/-! ### Save (R136, R140) -/

/-- The units of a core are asked to come to rest (R136): the engines to stop, the stream engines to suspend. -/
def askQuiescence (s : State) (k : Nat) : State := setSuspended ((List.range 4).foldl (fun s e => preempt s (k * 4 + e)) s) k true

theorem askQuiescence_keeps (s : State) {k : Nat} (hk : k < 512) {f : Fld} (hpreempt : f.key ≠ F.MXE_CTRL_PREEMPT.key)
    (hshown : ∀ g ∈ shownFields, f.key ≠ g.key) : (askQuiescence s k).rd f k = s.rd f k := by
  have hk' : k < 131072 := by omega
  have hasked : UnitFrame [F.MXE_CTRL_PREEMPT] s ((List.range 4).foldl (fun s e => preempt s (k * 4 + e)) s) :=
    .foldl s fun t e he => (preempt_frame t (by have := List.mem_range.1 he; omega)).1
  exact ((setSuspended_frame _ hk true).fields f k hk' hshown).trans (hasked.fields f k hk' (by simpa using hpreempt.symm))

theorem ctxSave_begins {s : State} {k v : Nat} (hk : k < 512) (hup : s.coreDown k = false) (hidle : s.on F.VEC_CTX_STATUS_BUSY k = false)
    (hplace : ctxInHbm (s.rd F.VEC_CTX_DA_DA k) (ctxLen s k) = true) (hread : (memNat s (s.rd F.VEC_CTX_DA_DA k) 8).2 = some v)
    (hwritten : (memWrite (memNat s (s.rd F.VEC_CTX_DA_DA k) 8).1 (s.rd F.VEC_CTX_DA_DA k) (bytesLE 8 (setBits v 31 1 0)) Around.quiet).2 = true) :
    let t := ctxSave s k
    t.rd F.VEC_CTX_STATUS_BUSY k = 1 ∧ t.rd F.VEC_CTX_STATUS_QUIESCE k = 1 ∧ t.ctxOp k = some .save ∧
      (t.stream (k * 2)).suspended = true ∧ (t.stream (k * 2 + 1)).suspended = true := by
  have hk' : k < 131072 := by omega
  obtain ⟨u, hbegun⟩ : ∃ u : State, ctxSave s k = (askQuiescence
      (((u.wr F.VEC_CTX_CTRL_SAVE k 1).wr F.VEC_CTX_STATUS_BUSY k 1).wr F.VEC_CTX_STATUS_QUIESCE k 1) k).setCtx k (some .save) := by
    unfold ctxSave askQuiescence
    dsimp only
    rw [if_neg (by simp [hup]), if_neg (by simp [hidle]), if_neg (by simp [hplace]), hread]
    dsimp only
    rw [if_neg (by simp [hwritten])]
    exact ⟨_, rfl⟩
  dsimp only
  rw [hbegun, State.rd_setCtx, State.rd_setCtx, State.stream_setCtx, State.stream_setCtx, askQuiescence_keeps _ hk (by decide) (by decide),
    askQuiescence_keeps _ hk (by decide) (by decide), State.rd_wr_same, State.rd_wr_key _ _ (by decide) hk' hk', State.rd_wr_same]
  exact ⟨rfl, rfl, State.ctxOp_setCtx _ _ _, setSuspended_on _ _⟩

theorem saveDone_error {s : State} {k : Nat} (hop : s.ctxOp k = some .save) (hquiet : coreQuiet s k = true) (cycles : Nat) :
    saveDone s k true cycles = failedEnd (allSaved s k) k cycles := by
  unfold saveDone
  rw [if_neg (by simp [hop, hquiet]), if_pos rfl]
  exact if_neg Bool.false_ne_true

theorem saveDone_written {s : State} {k : Nat} (hop : s.ctxOp k = some .save) (hquiet : coreQuiet s k = true) (cycles : Nat) :
    let x := writeImage s (s.rd F.VEC_CTX_DA_DA k) (ctxImage s k)
    saveDone s k false cycles =
      if x.2 then doneEnd (allSaved x.1 k) k cycles else failedEnd (allSaved x.1 k) k cycles := by
  unfold saveDone
  rw [if_neg (by simp [hop, hquiet]), if_neg (c := false = true) Bool.false_ne_true]
  rfl

theorem saveDone_error_ends {s : State} {k : Nat} (hk : k < 512) (hop : s.ctxOp k = some .save) (hquiet : coreQuiet s k = true)
    (cycles : Nat) :
    let t := saveDone s k true cycles
    t.rd F.VEC_CTX_STATUS_BUSY k = 0 ∧ t.ctxOp k = none ∧ t.tile.sregs = s.tile.sregs ∧ t.tile.vregs = s.tile.vregs ∧
      t.rd F.VEC_CTX_STATUS_ERR k = 1 ∧ t.rd F.VEC_CTX_STATUS_CAUSE k = 5 ∧ t.mem = s.mem ∧
      (∀ i, i < 8 → s.qState (k * 8 + i) ≠ qFAULT → t.qState (k * 8 + i) = qSAVED) := by
  obtain ⟨htile, hmem⟩ := allSaved_keeps s k
  have hsaved := fun i hi hq => allSaved_saves (s := s) (i := i) hk hi hq
  rw [saveDone_error hop hquiet]
  generalize allSaved s k = w at *
  obtain ⟨hbusy, herr, hcause, hstates⟩ := failedEnd_shows w hk cycles
  obtain ⟨hctx, hsregs, hvregs, -, hmemory⟩ := failedEnd_rest w k cycles
  rw [htile] at hsregs hvregs
  exact ⟨hbusy, hctx, hsregs, hvregs, herr, hcause, hmemory.trans hmem, fun i hi hq => (hstates _ (by omega)).trans (hsaved i hi hq)⟩

theorem saveDone_written_ends {s : State} {k : Nat} (hk : k < 512) (hop : s.ctxOp k = some .save) (hquiet : coreQuiet s k = true)
    (cycles : Nat) :
    let t := saveDone s k false cycles
    t.rd F.VEC_CTX_STATUS_BUSY k = 0 ∧ t.ctxOp k = none ∧ t.tile.sregs = s.tile.sregs ∧ t.tile.vregs = s.tile.vregs ∧
      ((writeImage s (s.rd F.VEC_CTX_DA_DA k) (ctxImage s k)).2 = true → t.rd F.VEC_CTX_STATUS_DONE k = 1) := by
  have htile := (allSaved_keeps (writeImage s (s.rd F.VEC_CTX_DA_DA k) (ctxImage s k)).1 k).1.trans (writeImage_tile _ _ s)
  rw [saveDone_written hop hquiet]
  generalize allSaved _ k = w at *
  split
  · obtain ⟨hdone, hbusy⟩ := doneEnd_shows w hk cycles
    obtain ⟨hctx, hsregs, hvregs⟩ := doneEnd_rest w k cycles
    rw [htile] at hsregs hvregs
    exact ⟨hbusy, hctx, hsregs, hvregs, fun _ => hdone⟩
  · rename_i hfailed
    obtain ⟨hbusy, -⟩ := failedEnd_shows w hk cycles
    obtain ⟨hctx, hsregs, hvregs, -⟩ := failedEnd_rest w k cycles
    rw [htile] at hsregs hvregs
    exact ⟨hbusy, hctx, hsregs, hvregs, fun h => absurd h hfailed⟩

/-! ### Restore (R141, R142) -/

theorem ctxRestore_begins {s : State} {k v : Nat} (hup : s.coreDown k = false) (hidle : s.on F.VEC_CTX_STATUS_BUSY k = false)
    (hplace : ctxInHbm (s.rd F.VEC_CTX_DA_DA k) (ctxLen s k) = true) (hstill : ∀ i, i < 8 → s.running (k * 8 + i) = false)
    (hread : (memNat s (s.rd F.VEC_CTX_DA_DA k) 8).2 = some v) :
    ctxRestore s k =
      let u := (memNat s (s.rd F.VEC_CTX_DA_DA k) 8).1
      if ctxHeaderOK v k then ((u.wr F.VEC_CTX_CTRL_RESTORE k 1).wr F.VEC_CTX_STATUS_BUSY k 1).setCtx k (some .restore)
      else ctxFail u k 0x4 := by
  have hqueues : (List.range 8).any (fun i => s.running (k * 8 + i)) = false := by simpa using hstill
  unfold ctxRestore
  dsimp only
  rw [if_neg (by simp [hup]), if_neg (by simp [hidle]), if_neg (by simp [hplace]), if_neg (by simp [hqueues]), hread]
  dsimp only
  cases ctxHeaderOK v k <;> rfl

theorem restoreDone_error {s : State} {k : Nat} (hop : s.ctxOp k = some .restore) (cycles : Nat) :
    restoreDone s k true cycles = failedEnd (allIdle (memNat s (s.rd F.VEC_CTX_DA_DA k) 8).1 k) k cycles := by
  unfold restoreDone
  rw [if_neg (by simp [hop])]
  rfl

theorem restoreDone_error_ends {s : State} {k : Nat} (hk : k < 512) (hop : s.ctxOp k = some .restore) (cycles : Nat) :
    let t := restoreDone s k true cycles
    t.rd F.VEC_CTX_STATUS_BUSY k = 0 ∧ t.ctxOp k = none ∧ t.rd F.VEC_CTX_STATUS_ERR k = 1 ∧ t.rd F.VEC_CTX_STATUS_CAUSE k = 5 ∧
      (∀ i, i < 8 → t.qState (k * 8 + i) = qIDLE) ∧ t.tile.sregs = s.tile.sregs ∧ t.sram = s.sram := by
  have hread := memNat_offChip s (s.rd F.VEC_CTX_DA_DA k) 8
  rw [restoreDone_error hop]
  generalize (memNat s (s.rd F.VEC_CTX_DA_DA k) 8).1 = u at *
  obtain ⟨hidleRegs, hidleSram⟩ := allIdle_keeps u k
  have hidle := fun i hi => allIdle_idles u (i := i) hk hi
  generalize allIdle u k = w at *
  obtain ⟨hbusy, herr, hcause, hstates⟩ := failedEnd_shows w hk cycles
  obtain ⟨hctx, hsregs, -, hsram, -⟩ := failedEnd_rest w k cycles
  rw [hidleRegs, hread.tile] at hsregs
  rw [hidleSram, hread.sram] at hsram
  exact ⟨hbusy, hctx, herr, hcause, fun i hi => (hstates _ (by omega)).trans (hidle i hi), hsregs, hsram⟩

/-- A restore whose every part has been read ends with DONE, and the stream engines go on. -/
theorem restoreDone_read {s : State} {k : Nat} (hop : s.ctxOp k = some .restore) (cycles : Nat)
    {qb pb sb rb tb vb fb ib xb : List Byte} (hheader : (memNat s (s.rd F.VEC_CTX_DA_DA k) 8).2.isSome = true)
    (hparts : (areaParts (memNat s (s.rd F.VEC_CTX_DA_DA k) 8).1 (s.rd F.VEC_CTX_DA_DA k)
      [(0x100, 2048), (0x900, 512), (0xB00, 2048), (0x1300, 2048), (0x1B00, 4096), (0x2B00, 8192),
        (0x4B00, Nat.min 0x100000 (bits ((memNat s (s.rd F.VEC_CTX_DA_DA k) 8).2.getD 0) 32 32) / 64), (0x8B00, 65536),
        (ctxPad, Nat.min 0x100000 (bits ((memNat s (s.rd F.VEC_CTX_DA_DA k) 8).2.getD 0) 32 32))]).2 =
      some [qb, pb, sb, rb, tb, vb, fb, ib, xb]) :
    ∃ u : State, restoreDone s k false cycles = setSuspended (doneEnd u k cycles) k false := by
  have hsome : (false || (memNat s (s.rd F.VEC_CTX_DA_DA k) 8).2.isNone) = false := by
    cases h : (memNat s (s.rd F.VEC_CTX_DA_DA k) 8).2 with
    | none => simp [h] at hheader
    | some v => rfl
  unfold restoreDone
  rw [if_neg (by simp [hop])]
  dsimp only
  rw [if_neg (by rw [hsome]; decide), hparts]
  exact ⟨_, rfl⟩

theorem restoredEnd_ends (u : State) {k : Nat} (hk : k < 512) (cycles : Nat) :
    let t := setSuspended (doneEnd u k cycles) k false
    t.rd F.VEC_CTX_STATUS_DONE k = 1 ∧ t.rd F.VEC_CTX_STATUS_BUSY k = 0 ∧ t.ctxOp k = none := by
  obtain ⟨hdone, hbusy⟩ := doneEnd_shows u hk cycles
  obtain ⟨hctx, -⟩ := doneEnd_rest u k cycles
  obtain ⟨hfields, htile⟩ := setSuspended_frame (doneEnd u k cycles) hk false
  have hkept := fun f => hfields f k (by omega)
  refine ⟨(hkept _ (by decide)).trans hdone, (hkept _ (by decide)).trans hbusy, ?_⟩
  rw [State.ctxOp, htile]
  exact hctx

/-! ### The obligation -/

/-- Settles O14: refused requests, saves and restores that begin, and the ends of both. -/
theorem contextRequestsEndOrAreRefused : Obligations.ContextRequestsEndOrAreRefused := by
  unfold Obligations.ContextRequestsEndOrAreRefused
  refine ⟨?refused, ?saveBegins, ?saveEnds, ?restoreBegins, ?restoreFails, ?restoreEnds⟩
  case refused =>
    intro core s cause hup
    have hfailed (hcause : cause < 16) := ctxFail_shows s core.isLt hcause
    have hsame := ctxFail_sameRegs s core.isLt cause
    refine ⟨fun h => ⟨_, congrArg Host.Outcome.next (ctxSave_refused hup h), ?_⟩,
      fun h => ⟨_, congrArg Host.Outcome.next (ctxRestore_refused hup h), ?_⟩⟩
    · obtain ⟨herr, hcause⟩ := hfailed (by omega)
      exact ⟨herr, hcause, hsame, rfl⟩
    · obtain ⟨herr, hcause⟩ := hfailed (by omega)
      exact ⟨herr, hcause, hsame, rfl⟩
  case saveBegins =>
    exact fun core s v hup hidle hplace hread hwritten => ⟨_, rfl, ctxSave_begins core.isLt hup hidle hplace hread hwritten⟩
  case saveEnds =>
    intro core error cycles s hop hquiet
    cases error with
    | true =>
      obtain ⟨hbusy, hctx, hsregs, hvregs, hfailed⟩ := saveDone_error_ends core.isLt hop hquiet cycles
      exact ⟨_, rfl, hbusy, hctx, hsregs, hvregs, fun _ => hfailed, fun h => absurd h (by decide)⟩
    | false =>
      obtain ⟨hbusy, hctx, hsregs, hvregs, hdone⟩ := saveDone_written_ends core.isLt hop hquiet cycles
      exact ⟨_, rfl, hbusy, hctx, hsregs, hvregs, fun h => absurd h (by decide), fun _ => hdone⟩
  case restoreBegins =>
    intro core s v hup hidle hplace hstill hread
    refine ⟨_, congrArg Host.Outcome.next (ctxRestore_begins hup hidle hplace hstill hread), fun hheader => ?_, fun hheader => ?_⟩
    · dsimp only
      rw [if_pos hheader, State.rd_setCtx, State.rd_wr_same, State.ctxOp_setCtx]
      exact ⟨rfl, rfl⟩
    · dsimp only
      rw [if_neg (by simp [hheader])]
      exact ctxFail_shows _ core.isLt (by decide)
  case restoreFails => exact fun core cycles s hop => ⟨_, rfl, restoreDone_error_ends core.isLt hop cycles⟩
  case restoreEnds =>
    intro core cycles s qb pb sb rb tb vb fb ib xb hop da h l hheader hparts
    obtain ⟨u, hdone⟩ := restoreDone_read hop cycles hheader hparts
    exact ⟨_, congrArg Host.Outcome.next hdone, restoredEnd_ends u core.isLt cycles⟩

end Sys2Proof.Machine
end

section
/-!
PROOFS. Stream engines (chapter 06): the sets of an engine, the register fields that show them, and what the shared operations on a set
change: a failure recorded, a read served, a set ended, a stop shown, a request for a page.
-/
namespace Sys2Proof.Machine

/-! ### The sets of an engine -/

theorem Stream.get_put (x : Stream) (k j : Nat) (a : StmSet) : (x.put k a).get j = if j = 0 ↔ k = 0 then a else x.get j := by
  unfold Stream.get Stream.put
  by_cases hj : j = 0 <;> by_cases hk : k = 0 <;> simp [hj, hk]

@[simp] theorem Stream.get_put_same (x : Stream) (k : Nat) (a : StmSet) : (x.put k a).get k = a := by simp [Stream.get_put]

@[simp] theorem Stream.put_stopped (x : Stream) (k : Nat) (a : StmSet) : (x.put k a).stopped = x.stopped := by
  unfold Stream.put; split <;> rfl

theorem State.stream_setStream (s : State) (g e : Nat) (x : Stream) : (s.setStream g x).stream e = if e = g then x else s.stream e :=
  Tab.get_set _ _ _ _ _

@[simp] theorem State.stream_setStream_same (s : State) (g : Nat) (x : Stream) : (s.setStream g x).stream g = x := Tab.get_set_same _ _ _ _

theorem State.stmSet_setStmSet (s : State) (g k e j : Nat) (a : StmSet) :
    (s.setStmSet g k a).stmSet e j = if e = g ∧ (j = 0 ↔ k = 0) then a else s.stmSet e j := by
  rw [State.stmSet, State.setStmSet, State.stream_setStream]
  by_cases he : e = g
  · subst he
    simp only [if_pos, true_and, Stream.get_put, State.stmSet]
  · rw [if_neg he, if_neg (fun h => he h.1), State.stmSet]

@[simp] theorem State.stmSet_setStmSet_same (s : State) (g k : Nat) (a : StmSet) : (s.setStmSet g k a).stmSet g k = a := by
  simp [State.stmSet_setStmSet]

theorem State.stream_of_streams {s t : State} (h : t.streams = s.streams) (g : Nat) : t.stream g = s.stream g := by
  rw [State.stream, h, State.stream]

theorem State.stmSet_of_streams {s t : State} (h : t.streams = s.streams) (g k : Nat) : t.stmSet g k = s.stmSet g k := by
  rw [State.stmSet, State.stream_of_streams h, State.stmSet]

/-! ### Changes of one set -/

/-- From `s` to `t` nothing has changed but the stream engines' own state, and set `k` of engine `g` has become `a`. -/
structure SetBecomes (g k : Nat) (a : StmSet) (s t : State) : Prop where
  set : t.stmSet g k = a
  rest : t = { s with streams := t.streams }

namespace SetBecomes

variable {g k : Nat} {a b : StmSet} {s t u : State}

theorem trans (h : SetBecomes g k a s t) (h' : SetBecomes g k b t u) : SetBecomes g k b s u := ⟨h'.set, h'.rest.trans (by rw [h.rest])⟩

theorem unchanged (s : State) (g k : Nat) : SetBecomes g k (s.stmSet g k) s s := ⟨rfl, rfl⟩

theorem setStmSet (s : State) (g k : Nat) (a : StmSet) : SetBecomes g k a s (s.setStmSet g k a) := ⟨by simp, rfl⟩

theorem regs (h : SetBecomes g k a s t) : t.regs = s.regs := by rw [h.rest]
theorem sram (h : SetBecomes g k a s t) : t.sram = s.sram := by rw [h.rest]
theorem full (h : SetBecomes g k a s t) : t.full = s.full := by rw [h.rest]
theorem tile (h : SetBecomes g k a s t) : t.tile = s.tile := by rw [h.rest]
theorem mem (h : SetBecomes g k a s t) : t.mem = s.mem := by rw [h.rest]

end SetBecomes

/-- The first failure of a set stands (R164). -/
theorem setFail_first {s : State} {g k : Nat} (f : StmFail) (hkept : (s.stmSet g k).abandoned = false) (hnone : (s.stmSet g k).fail = none) :
    SetBecomes g k { s.stmSet g k with fail := some f } s (setFail s g k f) := by
  rw [setFail]
  dsimp only
  rw [if_neg (by simp [hkept]), hnone]
  exact .setStmSet s g k _

theorem withdrawLines_becomes (s : State) (g k : Nat) (i : Issued) :
    ∃ ls, SetBecomes g k { s.stmSet g k with lines := ls } s (withdrawLines s g k i) := by
  unfold withdrawLines
  dsimp only
  split
  · exact ⟨_, .unchanged s g k⟩
  · exact ⟨_, .setStmSet s g k _⟩

/-- A change of issued transfers, of whatever set, leaves every set but for its issued transfers. -/
theorem setIssued_becomes (s : State) (e m g k j p : Nat) (f : Issued → Issued) :
    ∃ l, SetBecomes e m { s.stmSet e m with issued := l } s (setIssued s g k j p f) := by
  unfold setIssued
  dsimp only
  by_cases hset : e = g ∧ (m = 0 ↔ k = 0)
  · have hsame : s.stmSet g k = s.stmSet e m := by
      obtain ⟨rfl, hset⟩ := hset
      simp only [State.stmSet, Stream.get, hset]
    exact ⟨_, by rw [State.stmSet_setStmSet, if_pos hset, hsame], rfl⟩
  · exact ⟨(s.stmSet e m).issued, by rw [State.stmSet_setStmSet, if_neg hset], rfl⟩

theorem serveOpen_becomes (s : State) (e m : Nat) (r : OpenRead) :
    ∃ l, SetBecomes e m { s.stmSet e m with issued := l } s (serveOpen s r) := by
  unfold serveOpen
  split
  · exact setIssued_becomes s e m _ _ _ _ _
  · exact ⟨_, .unchanged s e m⟩

/-- Reads that are served keep their bytes in their transfers, and nothing else changes. -/
theorem serveBefore_becomes (s : State) (e m : Nat) (ds : List Nat) (q : QReq) (earlier : OpenRead → Bool) :
    ∃ l, SetBecomes e m { s.stmSet e m with issued := l } s (serveBefore s ds q earlier) := by
  refine List.foldlRecOn _ serveOpen (motive := fun t => ∃ l, SetBecomes e m { s.stmSet e m with issued := l } s t)
    ⟨_, .unchanged s e m⟩ fun t ⟨l, ht⟩ r _ => ?_
  obtain ⟨l', hserved⟩ := serveOpen_becomes t e m r
  rw [ht.set] at hserved
  exact ⟨l', ht.trans hserved⟩

/-- A transfer that fails is the first failure of its set. -/
theorem failTransfer_fails {s : State} {g k : Nat} (cause : Nat) (i : Issued) (hkept : (s.stmSet g k).abandoned = false)
    (hnone : (s.stmSet g k).fail = none) :
    ∃ a f, SetBecomes g k a s (failTransfer s g k cause i) ∧ a.fail = some f ∧ f.desc = i.desc ∧ f.pos = i.pos ∧ f.cause = cause := by
  obtain ⟨ls, hlines⟩ := withdrawLines_becomes s g k i
  obtain ⟨is, hissued⟩ := setIssued_becomes (withdrawLines s g k i) g k g k i.desc i.pos (fun i => { i with st := .failed cause, bytes := [] })
  refine ⟨_, _, (hlines.trans hissued).trans (setFail_first _ ?_ ?_), rfl, rfl, rfl, rfl⟩ <;> rw [hissued.set, hlines.set] <;> assumption

/-! ### The frame of a stream engine's work -/

/-- From `s` to `t` a stream engine has worked: of the register fields only those in `l` have changed, in whatever unit, no word of on-chip
memory, and nothing of a core's own. -/
structure StreamFrame (l : List Fld) (s t : State) : Prop where
  fields : ∀ (f : Fld) (i : Nat), i < 131072 → (∀ g ∈ l, f.key ≠ g.key) → t.rd f i = s.rd f i
  sram : t.sram = s.sram
  full : t.full = s.full
  tile : t.tile = s.tile

namespace StreamFrame

variable {l m : List Fld} {s t u : State}

theorem refl (s : State) : StreamFrame l s s := ⟨fun _ _ _ _ => rfl, rfl, rfl, rfl⟩

theorem trans (h : StreamFrame l s t) (h' : StreamFrame l t u) : StreamFrame l s u where
  fields f i hi hf := (h'.fields f i hi hf).trans (h.fields f i hi hf)
  sram := h'.sram.trans h.sram
  full := h'.full.trans h.full
  tile := h'.tile.trans h.tile

theorem mono (h : StreamFrame l s t) (hm : l ⊆ m) : StreamFrame m s t :=
  { h with fields := fun f i hi hf => h.fields f i hi fun g hg => hf g (hm hg) }

theorem of_regs (hregs : t.regs = s.regs) (hsram : t.sram = s.sram) (hfull : t.full = s.full) (htile : t.tile = s.tile) :
    StreamFrame l s t := ⟨fun f i _ _ => State.rd_of_regs hregs f i, hsram, hfull, htile⟩

theorem of_set {g k : Nat} {a : StmSet} (h : SetBecomes g k a s t) : StreamFrame l s t := of_regs h.regs h.sram h.full h.tile

theorem wr (h : StreamFrame l s t) {f : Fld} {i : Nat} (v : Nat) (hi : i < 131072) (hf : f ∈ l) : StreamFrame l s (t.wr f i v) :=
  h.trans ⟨fun _ _ hj hg => State.rd_wr_key _ _ (hg f hf) hj hi, rfl, rfl, rfl⟩

theorem bump (h : StreamFrame l s t) {c : Cnt} {i : Nat} (n : Nat) (hi : i < 131072) (hc : c.fld ∈ l) (hw : c.wrapFld ∈ l) :
    StreamFrame l s (t.bump c i n) :=
  h.trans ⟨fun _ _ hj hf => State.rd_bump_other _ _ _ _ _ _ hi hj (.inl (hf _ hc)) (.inl (hf _ hw)), by simp, by simp, by simp⟩

theorem on (h : StreamFrame l s t) {f : Fld} {i : Nat} (hi : i < 131072) (hf : ∀ g ∈ l, f.key ≠ g.key) : t.on f i = s.on f i := by
  rw [State.on, h.fields f i hi hf, State.on]

end StreamFrame

/-! ### What a stream engine shows of its sets (R170) -/

theorem stmShow_rest (s : State) (g : Nat) : stmShow s g = { s with regs := (stmShow s g).regs } := by
  unfold stmShow
  dsimp only
  split_ifs <;> rfl

@[simp] theorem stmShow_stream (s : State) (g e : Nat) : (stmShow s g).stream e = s.stream e := State.stream_of_streams (by rw [stmShow_rest]) e

@[simp] theorem stmShow_stmSet (s : State) (g e k : Nat) : (stmShow s g).stmSet e k = s.stmSet e k :=
  State.stmSet_of_streams (by rw [stmShow_rest]) e k

@[simp] theorem stmShow_outbox (s : State) (g : Nat) : (stmShow s g).outbox = s.outbox := by rw [stmShow_rest]

@[simp] theorem stmShow_sync (s : State) (g : Nat) : (stmShow s g).sync = s.sync := by rw [stmShow_rest]

theorem stmShow_shows (s : State) {g : Nat} (hg : g < 1024) : StreamFrame shownFields s (stmShow s g) :=
  ⟨(stmShow_frame s hg).fields, by rw [stmShow_rest], by rw [stmShow_rest], (stmShow_frame s hg).tile⟩

/-- A stopped engine goes on to show the state it stopped in. -/
theorem stmShow_state_of_stopped {s : State} {g : Nat} (hg : g < 1024) (h : (s.stream g).stopped.isSome = true) :
    (stmShow s g).rd F.STM_STATUS_STATE g = s.rd F.STM_STATUS_STATE g := by
  have hi : g < 131072 := by omega
  have hkeep (t : State) (f : Fld) (v : Nat) (hf : F.STM_STATUS_STATE.key ≠ f.key) :
      (t.wr f g v).rd F.STM_STATUS_STATE g = t.rd F.STM_STATUS_STATE g := State.rd_wr_key t v hf hi hi
  unfold stmShow
  dsimp only
  rw [if_pos h]
  split_ifs <;> simp (disch := decide) only [hkeep]

/-! ### A set that ends (R145) -/

/-- An engine after its set `k` has ended. -/
def Stream.ended (x : Stream) (k : Nat) : Stream :=
  let y := x.put k StmSet.idle
  { y with order := y.order.filter (fun i => decide (i ≠ k)), older := 1 - k }

theorem Stream.ended_get (x : Stream) (k : Nat) : (x.ended k).get k = StmSet.idle := by
  have h := x.get_put_same k StmSet.idle
  rwa [Stream.get] at h ⊢

theorem Stream.not_mem_ended_order (x : Stream) (k : Nat) : k ∉ (x.ended k).order := by simp [Stream.ended]

theorem Stream.ended_stopped (x : Stream) (k : Nat) : (x.ended k).stopped = x.stopped := x.put_stopped k _

theorem endSet_eq (s : State) (g k : Nat) :
    endSet s g k = stmShow ((s.setStream g ((s.stream g).ended k)).dropWaiters (.stream g k)) g := rfl

theorem endSet_stream (s : State) (g k : Nat) : (endSet s g k).stream g = (s.stream g).ended k := by
  rw [endSet_eq, stmShow_stream]
  exact State.stream_setStream_same s g _

theorem endSet_stmSet (s : State) (g k : Nat) : (endSet s g k).stmSet g k = StmSet.idle := by
  rw [State.stmSet, endSet_stream, Stream.ended_get]

theorem endSet_outbox (s : State) (g k : Nat) : (endSet s g k).outbox = s.outbox := by
  rw [endSet_eq, stmShow_outbox]
  rfl

theorem endSet_held (s : State) (g k : Nat) : (endSet s g k).sync.held = s.sync.held := by
  rw [endSet_eq, stmShow_sync]
  rfl

theorem endSet_frame (s : State) {g : Nat} (hg : g < 1024) (k : Nat) : StreamFrame shownFields s (endSet s g k) := by
  have hended : StreamFrame shownFields s ((s.setStream g ((s.stream g).ended k)).dropWaiters (.stream g k)) := .of_regs rfl rfl rfl rfl
  rw [endSet_eq]
  exact hended.trans (stmShow_shows _ hg)

/-! ### A stop and its checkpoint (R164, R166) -/

/-- The registers of a checkpoint record. -/
def checkpointFields : List Fld :=
  [F.STM_CKPT0_DATA, F.STM_CKPT1_DATA, F.STM_CKPT2_DATA, F.STM_CKPT3_DATA, F.STM_CKPT4_DATA, F.STM_CKPT5_DATA, F.STM_CKPT6_DATA,
    F.STM_CKPT7_DATA]

theorem showCkpt_frame (s : State) {g : Nat} (hg : g < 1024) (ws : List Nat) : StreamFrame checkpointFields s (showCkpt s g ws) := by
  have hi : g < 131072 := by omega
  have hword {t : State} {f : Fld} (v : Nat) (h : StreamFrame checkpointFields s t) (hf : f ∈ checkpointFields) :
      StreamFrame checkpointFields s (t.wr f g v) := h.wr v hi hf
  exact hword _ (hword _ (hword _ (hword _ (hword _ (hword _ (hword _ (hword _ (.refl s) (by decide)) (by decide)) (by decide)) (by decide))
    (by decide)) (by decide)) (by decide)) (by decide)

theorem showCkpt_word5 (s : State) {g : Nat} (hg : g < 1024) (ws : List Nat) :
    (showCkpt s g ws).rd F.STM_CKPT5_DATA g = ws.getD 5 0 % 2 ^ 64 := by
  have hi : g < 131072 := by omega
  unfold showCkpt
  dsimp only
  rw [State.rd_wr_key _ _ (by decide) hi hi, State.rd_wr_key _ _ (by decide) hi hi, State.rd_wr_same]
  rfl

/-- A set that has been stopped, before the registers show it. -/
def halted (s : State) (g k : Nat) (ws : List Nat) : State :=
  let u := s.setStmSet g k { s.stmSet g k with ckpt := ws }
  u.setStream g { u.stream g with stopped := some k }

theorem halted_stopped (s : State) (g k : Nat) (ws : List Nat) : ((halted s g k ws).stream g).stopped = some k := by
  rw [halted, State.stream_setStream_same]

theorem halted_frame (l : List Fld) (s : State) (g k : Nat) (ws : List Nat) : StreamFrame l s (halted s g k ws) := .of_regs rfl rfl rfl rfl

/-- The registers that show a stop: the checkpoint and the state. -/
def showStop (s : State) (g state : Nat) (ws : List Nat) : State := (showCkpt s g ws).wr F.STM_STATUS_STATE g state

theorem showStop_stream (s : State) (g state e : Nat) (ws : List Nat) : (showStop s g state ws).stream e = s.stream e := rfl

theorem showStop_frame (s : State) {g : Nat} (hg : g < 1024) (state : Nat) (ws : List Nat) :
    StreamFrame (checkpointFields ++ shownFields) s (showStop s g state ws) :=
  ((showCkpt_frame s hg ws).mono (by simp)).wr state (by omega) (by decide)

theorem stopWith_eq (s : State) (g k state : Nat) (ws : List Nat) :
    stopWith s g k state ws = stmShow (showStop (halted s g k ws) g state ws) g := rfl

theorem stopWith_stopped (s : State) (g k state : Nat) (ws : List Nat) : ((stopWith s g k state ws).stream g).stopped = some k := by
  rw [stopWith_eq, stmShow_stream, showStop_stream, halted_stopped]

theorem stopWith_frame (s : State) {g : Nat} (hg : g < 1024) (k state : Nat) (ws : List Nat) :
    StreamFrame (checkpointFields ++ shownFields) s (stopWith s g k state ws) := by
  rw [stopWith_eq]
  exact ((halted_frame _ s g k ws).trans (showStop_frame _ hg state ws)).trans ((stmShow_shows _ hg).mono (by simp))

theorem stopWith_shows (s : State) {g : Nat} (hg : g < 1024) (k state : Nat) (ws : List Nat) :
    (stopWith s g k state ws).rd F.STM_STATUS_STATE g = state % 4 ∧ (stopWith s g k state ws).rd F.STM_CKPT5_DATA g = ws.getD 5 0 % 2 ^ 64 := by
  have hi : g < 131072 := by omega
  rw [stopWith_eq]
  constructor
  · rw [stmShow_state_of_stopped hg (by rw [showStop_stream, halted_stopped]; rfl), showStop, State.rd_wr_same]
    rfl
  · rw [(stmShow_shows _ hg).fields _ _ hi (by decide), showStop, State.rd_wr_key _ _ (by decide) hi hi, showCkpt_word5 _ hg]

/-- The word of a checkpoint that holds the cause begins with it (R166). -/
theorem ckptWords_cause (a : StmSet) (k state j p cause addr ts : Nat) :
    (ckptWords a k state j p cause addr 0 ts).getD 5 0 % 2 ^ 64 % 2 ^ 16 = cause % 2 ^ 16 := by
  simp only [ckptWords, List.getD_cons_succ, List.getD_cons_zero]
  omega

/-! ### The cause of a stop (R170) -/

theorem State.flagMC_frame (s : State) (l : List Fld) {f : Fld} {i : Nat} (hi : i < 131072) (hf : f ∈ l) : StreamFrame l s (s.flagMC f i) :=
  .trans ((StreamFrame.refl s).wr 1 hi hf) (.of_regs rfl rfl rfl rfl)

@[simp] theorem State.flagMC_rd_same (s : State) (f : Fld) (i : Nat) : (s.flagMC f i).rd f i = 1 % 2 ^ f.width := State.rd_wr_same _ _ _ _

/-- The flag that a cause raises. -/
def causeFlag (cause : Nat) : Fld :=
  if cause ≤ 2 then F.STM_STATUS_DESC_ERR else if cause ≤ 4 then F.STM_STATUS_XLATE_ERR else F.STM_STATUS_DATA_ERR

theorem stopFlag_eq (s : State) (g cause : Nat) : stopFlag s g cause = (s.wr F.STM_STATUS_CAUSE g cause).flagMC (causeFlag cause) g := by
  unfold stopFlag causeFlag
  split_ifs <;> rfl

/-- The fields of STM_STATUS that say why a set stopped. -/
def causeFields : List Fld := [F.STM_STATUS_CAUSE, F.STM_STATUS_DESC_ERR, F.STM_STATUS_XLATE_ERR, F.STM_STATUS_DATA_ERR]

theorem causeFlag_mem (cause : Nat) : causeFlag cause ∈ causeFields := by
  unfold causeFlag
  split_ifs <;> decide

theorem stopFlag_frame (s : State) {g : Nat} (hg : g < 1024) (cause : Nat) : StreamFrame causeFields s (stopFlag s g cause) := by
  rw [stopFlag_eq]
  exact ((StreamFrame.refl s).wr cause (by omega) (by decide)).trans (State.flagMC_frame _ _ (by omega) (causeFlag_mem cause))

theorem stopFlag_streams (s : State) (g cause : Nat) : (stopFlag s g cause).streams = s.streams := by
  rw [stopFlag_eq]
  rfl

theorem stopFlag_shows (s : State) {g : Nat} (hg : g < 1024) (cause : Nat) :
    (stopFlag s g cause).rd F.STM_STATUS_CAUSE g = cause % 16 ∧ (stopFlag s g cause).rd (causeFlag cause) g = 1 := by
  have hi : g < 131072 := by omega
  have hkey : F.STM_STATUS_CAUSE.key ≠ (causeFlag cause).key := by unfold causeFlag; split_ifs <;> decide
  have hwidth : (causeFlag cause).width = 1 := by unfold causeFlag; split_ifs <;> rfl
  rw [stopFlag_eq]
  constructor
  · exact (State.rd_wr_key _ 1 hkey hi hi).trans (State.rd_wr_same _ _ _ _)
  · rw [State.flagMC_rd_same, hwidth]
    rfl

end Sys2Proof.Machine
end

section
/-!
PROOFS. Lines and descriptors of a stream engine (R145, R151, R152, R172): a line written and counted, and a descriptor that is complete.
-/
namespace Sys2Proof.Machine

/-! ### Bytes counted as delivered (R151, R166) -/

theorem State.wr_stmSet (s : State) (f : Fld) (i v g k : Nat) : (s.wr f i v).stmSet g k = s.stmSet g k := rfl

theorem State.bump_stmSet (s : State) (c : Cnt) (i n g k : Nat) : (s.bump c i n).stmSet g k = s.stmSet g k :=
  State.stmSet_of_streams (by simp) g k

theorem refreshCkpt_rest (s : State) (g k j : Nat) :
    refreshCkpt s g k j = { s with regs := (refreshCkpt s g k j).regs, streams := (refreshCkpt s g k j).streams } := by
  unfold refreshCkpt
  dsimp only
  split <;> rfl

theorem refreshCkpt_lines (s : State) (g k j : Nat) : ((refreshCkpt s g k j).stmSet g k).lines = (s.stmSet g k).lines := by
  unfold refreshCkpt
  dsimp only
  split
  · rw [State.wr_stmSet, State.stmSet_setStmSet_same]
  · rfl

theorem refreshCkpt_rd (s : State) {g : Nat} (hg : g < 1024) (k j : Nat) {f : Fld} (hf : f.key ≠ F.STM_CKPT4_DATA.key) {i : Nat}
    (hi : i < 131072) : (refreshCkpt s g k j).rd f i = s.rd f i := by
  unfold refreshCkpt
  dsimp only
  split
  · exact State.rd_wr_key _ _ hf hi (by omega)
  · rfl

/-- A set whose descriptor `j` has delivered `n` more bytes. -/
def StmSet.moreDone (a : StmSet) (j n : Nat) : StmSet := { a with bytesDone := Tab.set 0 a.bytesDone j (Tab.get 0 a.bytesDone j + n) }

theorem countDelivered_eq (s : State) (g k j n : Nat) :
    countDelivered s g k j n = refreshCkpt ((s.setStmSet g k ((s.stmSet g k).moreDone j n)).bump C.STM_WR_BYTES_CNT g n) g k j := rfl

theorem countDelivered_rest (s : State) (g k j n : Nat) :
    countDelivered s g k j n = { s with regs := (countDelivered s g k j n).regs, streams := (countDelivered s g k j n).streams } := by
  rw [countDelivered_eq, refreshCkpt_rest, State.bump_rest]
  rfl

theorem countDelivered_lines (s : State) (g k j n : Nat) : ((countDelivered s g k j n).stmSet g k).lines = (s.stmSet g k).lines := by
  rw [countDelivered_eq, refreshCkpt_lines, State.bump_stmSet, State.stmSet_setStmSet_same]
  rfl

theorem countDelivered_count (s : State) {g : Nat} (hg : g < 1024) (k j n : Nat) :
    (countDelivered s g k j n).rd F.STM_WR_BYTES_CNT_COUNT g = (s.rd F.STM_WR_BYTES_CNT_COUNT g + n) % 2 ^ 64 := by
  have hi : g < 131072 := by omega
  rw [countDelivered_eq, refreshCkpt_rd _ hg k j (by decide) hi]
  exact State.rd_bump_same _ C.STM_WR_BYTES_CNT g n (by decide) hi

/-- A set with one line more delivered. -/
def StmSet.withLine (a : StmSet) (j line : Nat) : StmSet := { a with lines := a.lines ++ [(j, line)] }

/-- A line of a transfer to this device is recorded as delivered, and its bytes counted. -/
theorem markDelivered_marks {s : State} {g k j line n : Nat} (hg : g < 1024) (hhere : gaLocal s ((s.stmSet g k).dsc j).dst = true) :
    let t := markDelivered s g k j line n
    t = { s with regs := t.regs, streams := t.streams } ∧ delivered (t.stmSet g k) j line = true ∧
      t.rd F.STM_WR_BYTES_CNT_COUNT g = (s.rd F.STM_WR_BYTES_CNT_COUNT g + n) % 2 ^ 64 := by
  have heq : markDelivered s g k j line n = countDelivered (s.setStmSet g k ((s.stmSet g k).withLine j line)) g k j n := if_pos hhere
  rw [heq]
  refine ⟨countDelivered_rest _ g k j n, ?_, countDelivered_count _ hg k j n⟩
  rw [delivered, countDelivered_lines, State.stmSet_setStmSet_same]
  simp [StmSet.withLine]

/-! ### A line written to on-chip memory (R151, R172) -/

/-- Runs of bytes committed to on-chip memory. -/
def commitRuns (s : State) (runs : List (Nat × List Byte)) : State := runs.foldl (fun s x => s.commit (gaDA x.1) x.2) s

theorem commitRuns_frame (s : State) (runs : List (Nat × List Byte)) : StoreFrame s (commitRuns s runs) :=
  .foldl s fun t _ _ => t.commit_frame _ _

theorem commitRuns_memory (s : State) (runs : List (Nat × List Byte)) :
    (commitRuns s runs).sram = runs.foldl (fun m x => writeBytes m (gaDA x.1) x.2) s.sram ∧ (commitRuns s runs).full = s.full := by
  unfold commitRuns
  induction runs generalizing s with
  | nil => exact ⟨rfl, rfl⟩
  | cons x runs ih =>
    obtain ⟨hsram, hfull⟩ := ih (s.commit (gaDA x.1) x.2)
    exact ⟨by rw [List.foldl_cons, hsram, (s.commit_memory _ _).1]; rfl, by rw [List.foldl_cons, hfull, (s.commit_memory _ _).2]⟩

/-- A line's bytes written and its words made full. -/
def lineWritten (s : State) (runs : List (Nat × List Byte)) (ws : List Nat) : State := (commitRuns s runs).fillWords ws

theorem lineWritten_frame (s : State) (runs : List (Nat × List Byte)) (ws : List Nat) : StoreFrame s (lineWritten s runs ws) :=
  (commitRuns_frame s runs).trans (State.fillWords_frame _ ws)

theorem lineWritten_sram (s : State) (runs : List (Nat × List Byte)) (ws : List Nat) :
    (lineWritten s runs ws).sram = runs.foldl (fun m x => writeBytes m (gaDA x.1) x.2) s.sram := by
  rw [lineWritten, State.fillWords_sram, (commitRuns_memory s runs).1]

theorem isFull_lineWritten (s : State) (runs : List (Nat × List Byte)) (ws : List Nat) (x : Nat) :
    (lineWritten s runs ws).isFull x = if x ∈ ws then true else s.isFull x := by
  rw [lineWritten, State.fillWords, isFull_setWords, State.isFull_of_full (commitRuns_memory s runs).2]

theorem StoreFrame.stmSet {s t : State} (h : StoreFrame s t) (g k : Nat) : t.stmSet g k = s.stmSet g k :=
  State.stmSet_of_streams (by rw [h.rest]) g k

theorem streamTry_admitted {s : State} {g k mode : Nat} {store : Bool} {ws : List Nat}
    (h : mayAccess s (waitersBefore (.stream g k) ws s.sync.waiters) mode store ws = true) :
    streamTry s g k mode store ws = (s.dropWaiter (.stream g k) ws, true) := if_pos h

/-- The transfers whose bytes a line takes. -/
def lineTransfers (a : StmSet) (j line : Nat) : List Issued :=
  a.issued.filter (fun i => decide (i.desc = j) && decide (i.st = .held) && (linesOf i).contains line)

/-- A line of descriptor `j` of the set `a`, which writes the words `ws` of on-chip memory, may be written: its bytes have been read, the
places of its transfers answer, and nothing holds it back (R151, R172). -/
structure LineReady (s : State) (g k j line : Nat) (a : StmSet) (ws : List Nat) : Prop where
  set : s.stmSet g k = a
  words : lineWords (a.dsc j) line = ws
  armed : a.armed = true
  undelivered : delivered a j line = false
  slot : lineTransfers a j line = [] ∨ ∃ i ∈ lineTransfers a j line, writeKey k i ∈ writeSlots (s.stream g)
  answers : (lineTransfers a j line).any (isWriting a) = true ∨
    ∀ i ∈ lineTransfers a j line, ∀ l ∈ linesOf i, placeAnswers s (underXl i.xl (gaDA (l * 128))) = true
  up : s.coreDown (coreOfStream g) = false
  here : gaLocal s (a.dsc j).dst = true
  chip : onChip (gaDA (line * 128)) = true
  initialised : ws.any (fun w => padBusy s (w * 8)) = false
  live : memDown s ws = false
  admitted : mayAccess s (waitersBefore (.stream g k) ws s.sync.waiters) (a.dsc j).dfe true ws = true

namespace LineReady

variable {s : State} {g k j line : Nat} {a : StmSet} {ws : List Nat} (h : LineReady s g k j line a ws)
include h

theorem hasSlot : ((lineTransfers a j line).isEmpty ||
    (lineTransfers a j line).any (fun i => (writeSlots (s.stream g)).contains (writeKey k i))) = true := by
  rcases h.slot with hnone | ⟨i, hi, hkey⟩
  · rw [hnone]
    rfl
  · exact Bool.or_eq_true_iff.2 (.inr (List.any_eq_true.2 ⟨i, hi, List.contains_iff_mem.2 hkey⟩))

theorem placesAnswer : (!((lineTransfers a j line).any (isWriting a)) && (lineTransfers a j line).any
    (fun i => (linesOf i).any (fun l => !(placeAnswers s (underXl i.xl (gaDA (l * 128))))))) = false := by
  rcases h.answers with hbegun | hall
  · rw [hbegun]
    rfl
  · refine Bool.and_eq_false_iff.2 (.inr (List.any_eq_false.2 fun i hi => ?_))
    rw [Bool.not_eq_true, List.any_eq_false]
    intro l hl
    simp [hall i hi l hl]

/-- The line is written after the reads that stand before it, and recorded. -/
theorem lineDelivery_eq {cells : Tab Byte} {n : Nat} (ecc : List Nat) (hdata : lineData a j line = some (cells, n)) :
    ∃ u is, SetBecomes g k { a with issued := is } (s.dropWaiter (.stream g k) ws) u ∧
      lineDelivery s g k j line ecc = markDelivered (lineWritten u (runsOf cells) ws) g k j line n := by
  have hserved := serveBefore_becomes (s.dropWaiter (.stream g k) ws) g k
  rw [show (s.dropWaiter (.stream g k) ws).stmSet g k = a from h.set] at hserved
  obtain ⟨is, hset⟩ := hserved (destsOf s (gaDA (line * 128)) 128)
    ((tagOf (s.dropWaiter (.stream g k) ws) g k j ⟨j, 0, 0, [], [], .held, [], 0, false, false, 0⟩).req g a) (fun x => decide (x.eng = g))
  refine ⟨_, is, hset, ?_⟩
  rw [lineDelivery, h.set]
  dsimp only
  rw [hdata]
  dsimp only
  rw [← lineTransfers, if_neg (by rw [h.armed, h.undelivered, h.hasSlot, h.up]; decide), if_neg (by rw [h.here]; decide),
    if_neg (by rw [h.placesAnswer]; decide), if_pos h.chip, h.words, if_neg (by rw [h.initialised]; decide), if_neg (by rw [h.live]; decide),
    streamTry_admitted h.admitted, if_neg (by simp)]
  rfl

theorem lineDelivery_delivers {cells : Tab Byte} {n : Nat} (hg : g < 1024) (ecc : List Nat) (hdata : lineData a j line = some (cells, n)) :
    let t := lineDelivery s g k j line ecc
    t.sram = (runsOf cells).foldl (fun m x => writeBytes m (gaDA x.1) x.2) s.sram ∧
      (∀ x, t.isFull x = if x ∈ ws then true else s.isFull x) ∧ delivered (t.stmSet g k) j line = true ∧
      t.rd F.STM_WR_BYTES_CNT_COUNT g = (s.rd F.STM_WR_BYTES_CNT_COUNT g + n) % 2 ^ 64 ∧ t.tile = s.tile ∧ t.mem = s.mem := by
  obtain ⟨u, is, hserved, heq⟩ := h.lineDelivery_eq ecc hdata
  have hwritten := lineWritten_frame u (runsOf cells) ws
  have hkept {f : Fld} {i : Nat} (hf : f.key ≠ F.HUR_WIN_CREDIT_CREDIT.key) (hi : i < 131072) :
      (lineWritten u (runsOf cells) ws).rd f i = s.rd f i := (hwritten.fields f i hi hf).trans (State.rd_of_regs hserved.regs f i)
  have hset : (lineWritten u (runsOf cells) ws).stmSet g k = { a with issued := is } := (hwritten.stmSet g k).trans hserved.set
  have hhere : gaLocal (lineWritten u (runsOf cells) ws) (((lineWritten u (runsOf cells) ws).stmSet g k).dsc j).dst = true := by
    rw [hset, gaLocal, State.node, hkept (by decide) (by decide)]
    exact h.here
  obtain ⟨hrest, hmarked, hcount⟩ := markDelivered_marks (line := line) (n := n) hg hhere
  rw [heq]
  refine ⟨?_, fun x => ?_, hmarked, hcount.trans ?_, ?_, ?_⟩
  · exact (congrArg State.sram hrest).trans ((lineWritten_sram u (runsOf cells) ws).trans (by rw [hserved.sram]; rfl))
  · have hfull : (markDelivered (lineWritten u (runsOf cells) ws) g k j line n).full = (lineWritten u (runsOf cells) ws).full := by
      rw [hrest]
    rw [State.isFull_of_full hfull, isFull_lineWritten, State.isFull_of_full hserved.full]
    rfl
  · rw [hkept (by decide) (by omega)]
  · exact (congrArg State.tile hrest).trans (hwritten.tile.trans hserved.tile)
  · exact (congrArg State.mem hrest).trans (hwritten.mem.trans hserved.mem)

end LineReady

/-! ### A descriptor that is complete (R145, R152) -/

theorem Dsc.hur_lt (d : Dsc) : d.hur < 2048 := Nat.mod_lt _ (by decide)

theorem arriveFrom_of_shut {s : State} {h : Nat} (n : Nat) (hup : hurdleDown s h = false) (hshut : tableShut s h = true) :
    arriveFrom s h n = s.holdOp (.arrive h n none) := by
  rw [arriveFrom, if_neg (by simp [hup]), if_pos hshut]

/-- A set with one descriptor more complete. -/
def StmSet.completed (a : StmSet) (j : Nat) : StmSet :=
  { a with doneDescs := a.doneDescs ++ [j], issued := a.issued.filter (fun i => decide (i.desc ≠ j)),
           lines := a.lines.filter (fun l => decide (l.1 ≠ j)), panics := a.panics.filter (fun i => decide (i ≠ j)),
           entries := Tab.erase a.entries j }

/-- The descriptor is counted. -/
def completionCounted (s : State) (g k j : Nat) : State :=
  (s.setStmSet g k ((s.stmSet g k).completed j)).bump C.STM_DESC_CNT g 1

/-- The hurdle of a descriptor's arrival. -/
def arrivalHurdle (g : Nat) (d : Dsc) : Nat := clusterOfCore (coreOfStream g) * 2048 + d.hur

theorem clusterOfHurdle_arrivalHurdle {g : Nat} (hg : g < 1024) (d : Dsc) : clusterOfHurdle (arrivalHurdle g d) < 131072 := by
  have := d.hur_lt
  unfold clusterOfHurdle arrivalHurdle clusterOfCore coreOfStream
  omega

/-- The arrival that a descriptor makes when it is complete. -/
def completionArrival (s : State) (g : Nat) (d : Dsc) : State := if d.hen then arriveFrom s (arrivalHurdle g d) 1 else s

theorem descriptorComplete_eq {s : State} {g k j : Nat} (hfinished : dscFinished (s.stmSet g k) j = true) :
    descriptorComplete s g k j =
      let u := completionArrival (completionCounted s g k j) g ((s.stmSet g k).dsc j)
      if (s.stmSet g k).doneDescs.length = (s.stmSet g k).count then endSet u g k else stmShow u g := by
  rw [descriptorComplete]
  dsimp only
  rw [if_neg (by simp [hfinished]), List.length_append, List.length_singleton]
  simp only [Nat.add_right_cancel_iff]
  rfl

theorem completionCounted_frame (s : State) {g : Nat} (hg : g < 1024) (k j : Nat) :
    StreamFrame [F.STM_DESC_CNT_COUNT, F.STM_WRAP_DESC] s (completionCounted s g k j) := by
  have hset : StreamFrame [F.STM_DESC_CNT_COUNT, F.STM_WRAP_DESC] s (s.setStmSet g k ((s.stmSet g k).completed j)) :=
    .of_set (.setStmSet s g k _)
  exact hset.bump (c := C.STM_DESC_CNT) 1 (by omega) (by decide) (by decide)

theorem completionCounted_stmSet (s : State) (g k j : Nat) : (completionCounted s g k j).stmSet g k = (s.stmSet g k).completed j := by
  rw [completionCounted, State.bump_stmSet, State.stmSet_setStmSet_same]

/-- The arrivals that wait for a descriptor's hurdle. -/
def heldArrivals (g : Nat) (d : Dsc) : List HeldOp := if d.hen then [.arrive (arrivalHurdle g d) 1 none] else []

/-- At a table that is shut, a descriptor's arrival waits. -/
theorem completionArrival_waits {s : State} {g : Nat} {d : Dsc}
    (h : d.hen = true → tableShut s (arrivalHurdle g d) = true ∧ hurdleDown s (arrivalHurdle g d) = false) :
    completionArrival s g d = { s with sync := { s.sync with held := s.sync.held ++ heldArrivals g d } } := by
  unfold completionArrival heldArrivals
  split
  · rename_i harrives
    obtain ⟨hshut, hup⟩ := h harrives
    exact arriveFrom_of_shut 1 hup hshut
  · rw [List.append_nil]

theorem descriptorComplete_completes {s : State} {g k j : Nat} {d : Dsc} (hg : g < 1024) (hd : (s.stmSet g k).dsc j = d)
    (hfinished : dscFinished (s.stmSet g k) j = true)
    (hshut : d.hen = true → tableShut s (arrivalHurdle g d) = true ∧ hurdleDown s (arrivalHurdle g d) = false) :
    let t := descriptorComplete s g k j
    StreamFrame (shownFields ++ [F.STM_DESC_CNT_COUNT, F.STM_WRAP_DESC]) s t ∧
      t.rd F.STM_DESC_CNT_COUNT g = (s.rd F.STM_DESC_CNT_COUNT g + 1) % 2 ^ 64 ∧ t.sync.held = s.sync.held ++ heldArrivals g d ∧
      t.stmSet g k = if (s.stmSet g k).doneDescs.length = (s.stmSet g k).count then StmSet.idle else (s.stmSet g k).completed j := by
  have hi : g < 131072 := by omega
  have hcounted := completionCounted_frame s hg k j
  have hsync : (completionCounted s g k j).sync = s.sync := by simp [completionCounted]
  have hrst : (completionCounted s g k j).rst = s.rst := by simp [completionCounted]
  have hwaits := completionArrival_waits (s := completionCounted s g k j) (g := g) (d := d) fun harrives => by
    obtain ⟨htable, hup⟩ := hshut harrives
    refine ⟨?_, Eq.trans ?_ hup⟩
    · rwa [tableShut, hcounted.on (clusterOfHurdle_arrivalHurdle hg d) (by decide)]
    · simp only [hurdleDown, State.clusterDown, State.quarterDown, State.inReset, hrst]
  rw [descriptorComplete_eq hfinished, hd, hwaits, hsync]
  set u : State := { completionCounted s g k j with sync := { s.sync with held := s.sync.held ++ heldArrivals g d } } with hu
  have hset : u.stmSet g k = (s.stmSet g k).completed j := (State.stmSet_of_streams (by rw [hu]) g k).trans (completionCounted_stmSet s g k j)
  have hframe : StreamFrame (shownFields ++ [F.STM_DESC_CNT_COUNT, F.STM_WRAP_DESC]) s u :=
    (hcounted.mono (by simp)).trans (.of_regs rfl rfl rfl rfl)
  have hcount : u.rd F.STM_DESC_CNT_COUNT g = (s.rd F.STM_DESC_CNT_COUNT g + 1) % 2 ^ 64 := State.rd_bump_same _ C.STM_DESC_CNT g 1 (by decide) hi
  by_cases hlast : (s.stmSet g k).doneDescs.length = (s.stmSet g k).count
  · have hends := endSet_frame u hg k
    simp only [if_pos hlast]
    exact ⟨hframe.trans (hends.mono (by simp)), (hends.fields _ _ hi (by decide)).trans hcount, endSet_held u g k, endSet_stmSet u g k⟩
  · have hshows := stmShow_shows u hg
    simp only [if_neg hlast]
    exact ⟨hframe.trans (hshows.mono (by simp)), (hshows.fields _ _ hi (by decide)).trans hcount, by rw [stmShow_sync],
      (stmShow_stmSet u g g k).trans hset⟩

theorem dscFinished_armed {a : StmSet} {j : Nat} (h : dscFinished a j = true) : a.armed = true := by
  simp only [dscFinished, Bool.and_eq_true] at h
  obtain ⟨⟨⟨⟨⟨harmed, -⟩, -⟩, -⟩, -⟩, -⟩ := h
  exact harmed

/-! ### The obligation -/

/-- Settles O19: a line that is ready is written and counted, and a descriptor that is finished is counted and makes its arrival. -/
theorem linesAndDescriptorsComplete : Obligations.LinesAndDescriptorsComplete := by
  unfold Obligations.LinesAndDescriptorsComplete
  refine ⟨?line, ?descriptor⟩
  case line =>
    intro e set desc line ecc s cells n a d ws xs hdata harmed hnew hslot hanswers hup hhere hchip hidle hlive hadmitted
    have hready : LineReady s e set desc line a ws := ⟨rfl, rfl, harmed, hnew, hslot, hanswers, hup, hhere, hchip, hidle, hlive, hadmitted⟩
    exact ⟨_, rfl, hready.lineDelivery_delivers e.isLt ecc hdata⟩
  case descriptor =>
    intro e set desc s a d h hfinished hshut
    obtain ⟨hframe, hcount, hheld, hset⟩ := descriptorComplete_completes (k := set) (d := d) e.isLt rfl hfinished hshut
    refine ⟨_, rfl, hcount, fun harrives => ?_, fun hquiet => ?_, fun hlast => ?_, fun hmore => ?_, hframe.sram, hframe.full, hframe.tile⟩
    · rwa [heldArrivals, if_pos harrives] at hheld
    · rwa [heldArrivals, if_neg (by simp [hquiet]), List.append_nil] at hheld
    · exact hset.trans (if_pos hlast)
    · have harmed : (s.stmSet e set).armed = true := dscFinished_armed hfinished
      rw [hset, if_neg hmore]
      exact ⟨harmed, List.mem_append_right _ List.mem_cons_self⟩

end Sys2Proof.Machine
end

section
/-!
PROOFS. Late stream descriptors (R159, R213-R215): the flag of a full log in a state that holds it beyond its width.
-/
namespace Sys2Proof.Machine

/-- A descriptor with a finish line at lap 0, angle 0 of track 0, which has issued and not completed. -/
def lateSet : StmSet := { StmSet.idle with armed := true, next := 1, descs := [[0, 0, 0, 0, 0, 0, 0, 0, 0, 0, 0, 0, 2 ^ 35]] }

/-- The set runs on engine 0, the late log is full, and the one bit of LATE_OVF of track 0 holds 2. No `State.wr` stores such a value, but
O20 does not ask that fields lie within their widths. -/
def wideOverflowState : State :=
  let s : State := { State.reset with regs := [F.TRK_STATUS_LATE_OVF.entry 2] }
  { s.setStream 0 { Stream.idle with set0 := lateSet } with trk := { s.trk with lateLog := List.replicate 32 (0, 0, 0, 0) } }

/-- The descriptor runs, and its finish line is reached and has not been reported. -/
theorem wideOverflowState_late :
    let a := wideOverflowState.stmSet 0 0
    let d := a.dsc 0
    let f := finishOf a d
    dscRunning a 0 = true ∧ 0 ≤ a.count ∧ d.dlEn = true ∧ a.late.contains 0 = false ∧
      wideOverflowState.trkState d.dlTrk ≠ trkSTALLED ∧ posOf f.1 f.2 ≤ wideOverflowState.position d.dlTrk := by
  decide +kernel

/-- A late record that the full log discards leaves a flag that is not zero as it stands. -/
theorem wideOverflowState_keeps_flag : (streamLate wideOverflowState 0 0 0).rd F.TRK_STATUS_LATE_OVF 0 = 2 := by decide +kernel

/-- Refutes O20: of a full log it says that LATE_OVF then reads 1, for every state. In `wideOverflowState` the flag holds 2, which counts as
set (R214), and the late record leaves it. -/
theorem not_urgencyPanicAndLateness : ¬ Obligations.UrgencyPanicAndLateness := by
  unfold Obligations.UrgencyPanicAndLateness
  rintro ⟨-, hlate⟩
  obtain ⟨hrun, hcount, hline, hnew, hmoving, hreached⟩ := wideOverflowState_late
  obtain ⟨t, hstep, -, -, -, -, -, -, -, hfull⟩ := hlate 0 0 0 wideOverflowState hrun hcount hline hnew hmoving hreached
  obtain rfl : streamLate wideOverflowState 0 0 0 = t := Host.Outcome.next.inj hstep
  obtain ⟨-, hset⟩ := hfull (by decide)
  exact absurd (wideOverflowState_keeps_flag.symm.trans hset) (by decide)

end Sys2Proof.Machine
end

section
/-!
PROOFS. Stream engines that fail, stop and go on (R160-R166, R290, R291, R396): failed translations and page requests, checkpoints, RESUME
and ABANDON, and the answers of page request groups.
-/
namespace Sys2Proof.Machine

/-! ### Transfers that fail (R164) -/

/-- The cause that an error response to a transfer gives its set. -/
def responseCause (i : Issued) : Nat := if i.st = .reading then 5 else 6

/-- An error response fails a transfer that is still to be read, or that has written nothing. -/
theorem transferError_fails {s : State} {g k j p : Nat} {i : Issued}
    (hfound : (s.stmSet g k).issued.find? (fun i => decide (i.desc = j ∧ i.pos = p)) = some i)
    (hopen : i.st = .reading ∨ (i.st = .held ∧ (gaLocal s ((s.stmSet g k).dsc j).dst = false ∨ isWriting (s.stmSet g k) i = false))) :
    transferError s g k j p = failTransfer s g k (responseCause i) i := by
  rw [transferError, hfound]
  dsimp only
  unfold responseCause
  rcases hopen with hread | ⟨hheld, hunwritten⟩
  · rw [if_pos hread, if_pos hread]
  · have hnot : ¬ i.st = .reading := by simp [hheld]
    rw [if_neg hnot, if_neg hnot, if_pos ⟨hheld, by rcases hunwritten with h | h <;> simp [h]⟩]

/-! ### Sets that stop in ERROR (R164) -/

theorem setStop_stops {s : State} {g k : Nat} {f : StmFail} (hkept : (s.stmSet g k).abandoned = false) (hfail : (s.stmSet g k).fail = some f)
    (hquiet : setQuiet s (s.stmSet g k) = true) (hruns : (s.stream g).stopped = none) :
    setStop s g k = stopFlag (stopWith s g k 3 (ckptWords (s.stmSet g k) k 3 f.desc f.pos f.cause f.addr 0 f.ts)) g f.cause := by
  rw [setStop]
  dsimp only
  rw [if_neg (by simp [hkept]), hfail]
  dsimp only
  rw [if_neg (by simp [hquiet, hruns])]

theorem setStop_of_abandoned {s : State} {g k : Nat} (h : (s.stmSet g k).abandoned = true) :
    setStop s g k = if setQuiet s (s.stmSet g k) then endSet s g k else s := by
  rw [setStop]
  dsimp only
  rw [if_pos h]

/-! ### Failed translations (R160-R163, R290, R396) -/

/-- An address in the host window. -/
def hostAddr (ga : Nat) : Bool := decide (regionOf (gaDA ga) = .host)

/-- The host's answer is taken, or the miss of the tier counted. -/
def missNoted (s : State) (ga : Nat) : State :=
  if hostAddr ga then { s with pci := { s.pci with asked := s.pci.asked.filter (fun x => decide (x ≠ hostPage (gaDA ga))) } } else cxlMiss s

/-- A page request for a failed address, to the host or to the tier. -/
def pageAsked (s : State) (g ga : Nat) (write : Bool) : State × Nat := if hostAddr ga then askPage s g ga write else askTier s g ga write

/-- The set waits in FAULT_WAIT with its checkpoint, its fault counted (R161, R162). -/
def faultWait (s : State) (g k ga : Nat) (write : Bool) : State :=
  let u := s.bump C.STM_FAULT_CNT g 1
  let r := pageAsked u g ga write
  stopWith r.1 g k 2 (ckptWords (s.stmSet g k) k 2 (s.stmSet g k).next (s.stmSet g k).pos 0 ga r.2 u.trk.ts)

/-- The set fails, and the fault of its session is signalled (R163). -/
def faultFatal (s : State) (g k ga : Nat) : State :=
  (setFail s g k ⟨0x4, (s.stmSet g k).next, (s.stmSet g k).pos, ga, s.trk.ts⟩).emit (.sessionFault (clusterOfCore (coreOfStream g)))

theorem missNoted_keeps (s : State) (ga : Nat) :
    StreamFrame [F.CXL_XLT_MISS_CNT_COUNT, F.CXL_WRAP_FLAGS] s (missNoted s ga) ∧ (missNoted s ga).streams = s.streams := by
  unfold missNoted
  split
  · exact ⟨.of_regs rfl rfl rfl rfl, rfl⟩
  · exact ⟨(StreamFrame.refl s).bump 1 (by decide) (by decide) (by decide), by simp [cxlMiss]⟩

theorem translationFault_eq {s : State} {g k ga : Nat} {write : Bool} {a : StmSet} (hg : g < 131072) (hset : s.stmSet g k = a)
    (hissue : mayIssue s g = true) (hhead : (s.stream g).order.head? = some k) (hread : a.next < a.descs.length)
    (hready : entriesReady a a.next a.pos = true) (hchecked : (a.dsc a.next).fails s (coreOfStream g) = false)
    (hunknown : unknownAddr s ((a.dsc a.next).piece (a.ents a.next) a.pos).1 = some (ga, write))
    (hasked : regionOf (gaDA ga) = .host → s.pci.asked.contains (hostPage (gaDA ga)) = true) :
    translationFault s g = if s.on F.STM_STATUS_SCHED g then faultFatal (missNoted s ga) g k ga else faultWait (missNoted s ga) g k ga write := by
  have hanswered : (hostAddr ga && !(s.pci.asked.contains (hostPage (gaDA ga)))) = false := by
    rw [hostAddr, Bool.and_eq_false_iff, decide_eq_false_iff_not]
    by_cases h : regionOf (gaDA ga) = .host
    · exact .inr (by rw [hasked h]; rfl)
    · exact .inl h
  obtain ⟨hframe, hstreams⟩ := missNoted_keeps s ga
  have hmissed : (missNoted s ga).stmSet g k = a := (State.stmSet_of_streams hstreams g k).trans hset
  rw [translationFault, if_neg (by simp [hissue]), hhead]
  dsimp only
  rw [hset, if_neg (by simp [hready, hchecked, Nat.not_le.2 hread]), hunknown]
  dsimp only
  rw [← hostAddr, if_neg (by rw [hanswered]; decide), ← missNoted, ← hframe.on hg (by decide), faultFatal, faultWait, hmissed]
  rfl

/-- An engine that may issue has no failed set. -/
theorem mayIssue_fail_none {s : State} {g : Nat} (h : mayIssue s g = true) (k : Nat) : (s.stmSet g k).fail = none := by
  simp only [mayIssue, Bool.and_eq_true, Option.isNone_iff_eq_none] at h
  obtain ⟨⟨⟨-, hset0⟩, hset1⟩, -⟩ := h
  unfold State.stmSet Stream.get
  split <;> assumption

theorem faultFatal_fails {s : State} {g k : Nat} (ga : Nat) (hkept : (s.stmSet g k).abandoned = false) (hnone : (s.stmSet g k).fail = none) :
    StreamFrame [] s (faultFatal s g k ga) ∧ .sessionFault (clusterOfCore (coreOfStream g)) ∈ (faultFatal s g k ga).outbox ∧
      ∃ f, ((faultFatal s g k ga).stmSet g k).fail = some f ∧ f.cause = 4 := by
  have hfailed := setFail_first ⟨0x4, (s.stmSet g k).next, (s.stmSet g k).pos, ga, s.trk.ts⟩ hkept hnone
  exact ⟨.trans (.of_set hfailed) (.of_regs rfl rfl rfl rfl), List.mem_cons_self, _, congrArg StmSet.fail hfailed.set, rfl⟩

/-- The register fields that a page request changes. -/
def pageFields : List Fld := [F.PCI_ATC_STAT_PRQ_OUT, F.PCI_PRQ_CNT_COUNT, F.PCI_WRAP_FLAGS, F.CXL_TIER_STATUS_PRQ_PENDING]

theorem setPciGroups_frame (s : State) (l : List (Nat × Option Nat)) : StreamFrame pageFields s (setPciGroups s l) := by
  have hlisted : StreamFrame pageFields s { s with pci := { s.pci with groups := l } } := .of_regs rfl rfl rfl rfl
  exact hlisted.wr l.length (by decide) (by decide)

theorem askPage_frame (s : State) (g ga : Nat) (write : Bool) : StreamFrame pageFields s (askPage s g ga write).1 := by
  have hsent (u : State) (x : Stream) (o : Out) : StreamFrame pageFields u ((u.setStream g x).emit o) := .of_regs rfl rfl rfl rfl
  unfold askPage
  split
  · rename_i n _
    have hcounted := (setPciGroups_frame s (s.pci.groups ++ [(n, some g)])).bump (c := C.PCI_PRQ_CNT) (i := 0) 1 (by decide) (by decide)
      (by decide)
    exact hcounted.trans (hsent _ _ _)
  · exact .of_regs rfl rfl rfl rfl

theorem askTier_frame (s : State) (g ga : Nat) (write : Bool) : StreamFrame pageFields s (askTier s g ga write).1 := by
  have hset (m : Mem) : StreamFrame pageFields s (s.setMem m) := .of_regs rfl rfl rfl rfl
  have hflagged (m : Mem) : StreamFrame pageFields s ((s.setMem m).flagMC F.CXL_TIER_STATUS_PRQ_PENDING 0) :=
    (hset m).trans (State.flagMC_frame _ _ (by decide) (by decide))
  unfold askTier
  split
  · exact hflagged _
  · exact .of_regs rfl rfl rfl rfl

theorem pageAsked_frame (s : State) (g ga : Nat) (write : Bool) : StreamFrame pageFields s (pageAsked s g ga write).1 := by
  unfold pageAsked
  split
  · exact askPage_frame s g ga write
  · exact askTier_frame s g ga write

/-- The register fields that a set's fault changes. -/
def faultFields : List Fld := [F.STM_FAULT_CNT_COUNT, F.STM_WRAP_FAULT] ++ pageFields ++ (checkpointFields ++ shownFields)

theorem faultWait_waits (s : State) {g : Nat} (hg : g < 1024) (k ga : Nat) (write : Bool) :
    let t := faultWait s g k ga write
    StreamFrame faultFields s t ∧ t.rd F.STM_STATUS_STATE g = 2 ∧ (t.stream g).stopped = some k ∧
      t.rd F.STM_FAULT_CNT_COUNT g = (s.rd F.STM_FAULT_CNT_COUNT g + 1) % 2 ^ 64 := by
  have hi : g < 131072 := by omega
  let u := s.bump C.STM_FAULT_CNT g 1
  have hcounted : StreamFrame [F.STM_FAULT_CNT_COUNT, F.STM_WRAP_FAULT] s u := (StreamFrame.refl s).bump 1 hi (by decide) (by decide)
  have hasked := pageAsked_frame u g ga write
  have hstopped := stopWith_frame (pageAsked u g ga write).1 hg k 2
  refine ⟨((hcounted.mono (by decide)).trans (hasked.mono (by decide))).trans ((hstopped _).mono (by decide)), ?_, stopWith_stopped _ _ _ _ _, ?_⟩
  · exact (stopWith_shows _ hg k 2 _).1
  · calc (faultWait s g k ga write).rd F.STM_FAULT_CNT_COUNT g
      _ = (pageAsked u g ga write).1.rd F.STM_FAULT_CNT_COUNT g := (hstopped _).fields _ _ hi (by decide)
      _ = u.rd F.STM_FAULT_CNT_COUNT g := hasked.fields _ _ hi (by decide)
      _ = (s.rd F.STM_FAULT_CNT_COUNT g + 1) % 2 ^ 64 := State.rd_bump_same s C.STM_FAULT_CNT g 1 (by decide) hi

/-! ### RESUME and ABANDON (R162, R165) -/

/-- A set that goes on from its failure: the transfers that failed issue again. -/
def StmSet.resumed (a : StmSet) : StmSet :=
  let b := match a.fail with
    | some f => { a with next := f.desc, pos := f.pos }
    | none => a
  { b with fail := none, ckpt := [], issued := b.issued.filter (fun i => match i.st with | .failed _ => false | _ => true) }

/-- An engine whose stopped set `k` goes on. -/
def Stream.resumed (x : Stream) (k : Nat) : Stream :=
  let y := x.put k (x.get k).resumed
  { y with stopped := none, wantsGroup := false, order := if y.order.contains k then y.order else k :: y.order }

theorem Stream.resumed_get (x : Stream) (k : Nat) : (x.resumed k).get k = (x.get k).resumed := by
  have h := x.get_put_same k (x.get k).resumed
  rwa [Stream.get] at h ⊢

theorem Stream.mem_resumed_order (x : Stream) (k : Nat) : k ∈ (x.resumed k).order := by
  unfold Stream.resumed
  dsimp only
  split
  · rename_i h
    exact List.contains_iff_mem.1 h
  · exact List.mem_cons_self

theorem StmSet.resumed_issued (a : StmSet) : ∀ i ∈ a.resumed.issued, ∀ c, i.st ≠ .failed c := by
  intro i hi c hc
  have hkept := (List.mem_filter.1 hi).2
  simp [hc] at hkept

theorem StmSet.resumed_position {a : StmSet} {f : StmFail} (h : a.fail = some f) : a.resumed.next = f.desc ∧ a.resumed.pos = f.pos := by
  rw [StmSet.resumed, h]
  exact ⟨rfl, rfl⟩

theorem resumeSet_eq {s : State} {g k : Nat} (h : (s.stream g).stopped = some k) :
    resumeSet s g = stmShow (dropGroups (s.setStream g ((s.stream g).resumed k)) g) g := by
  rw [resumeSet, h]
  rfl

theorem dropGroups_stream (s : State) (g e : Nat) : (dropGroups s g).stream e = s.stream e := rfl

theorem resumeSet_stream {s : State} {g k : Nat} (h : (s.stream g).stopped = some k) :
    (resumeSet s g).stream g = (s.stream g).resumed k := by
  rw [resumeSet_eq h, stmShow_stream, dropGroups_stream, State.stream_setStream_same]

theorem resumeSet_frame {s : State} {g k : Nat} (hg : g < 1024) (h : (s.stream g).stopped = some k) :
    StreamFrame shownFields s (resumeSet s g) := by
  have hresumed : StreamFrame shownFields s (dropGroups (s.setStream g ((s.stream g).resumed k)) g) := .of_regs rfl rfl rfl rfl
  rw [resumeSet_eq h]
  exact hresumed.trans (stmShow_shows _ hg)

theorem gaLocal_of_regs {s t : State} (h : t.regs = s.regs) (ga : Nat) : gaLocal t ga = gaLocal s ga := by
  rw [gaLocal, State.node, State.rd_of_regs h, gaLocal, State.node]

theorem setQuiet_of_regs {s t : State} (h : t.regs = s.regs) (a : StmSet) : setQuiet t a = setQuiet s a := by
  simp only [setQuiet, gaLocal_of_regs h]

/-- The stopped set has been released: the engine is no longer stopped, and its page requests have nobody waiting on them. -/
def released (s : State) (g : Nat) : State := dropGroups (s.setStream g { s.stream g with stopped := none, wantsGroup := false }) g

theorem released_stream (s : State) (g : Nat) : (released s g).stream g = { s.stream g with stopped := none, wantsGroup := false } := by
  rw [released, dropGroups_stream, State.stream_setStream_same]

theorem released_frame (l : List Fld) (s : State) (g : Nat) : StreamFrame l s (released s g) := .of_regs rfl rfl rfl rfl

/-- A set that is abandoned with transfers on their way. -/
def StmSet.dropped (a : StmSet) : StmSet := { a with abandoned := true, fail := none, ckpt := [] }

/-- An engine whose set `k` issues nothing more. -/
def Stream.dropped (x : Stream) (k : Nat) : Stream :=
  let y := x.put k (x.get k).dropped
  { y with order := y.order.filter (fun i => decide (i ≠ k)) }

theorem Stream.dropped_get (x : Stream) (k : Nat) : (x.dropped k).get k = (x.get k).dropped := by
  have h := x.get_put_same k (x.get k).dropped
  rwa [Stream.get] at h ⊢

theorem Stream.not_mem_dropped_order (x : Stream) (k : Nat) : k ∉ (x.dropped k).order := by simp [Stream.dropped]

theorem Stream.dropped_stopped (x : Stream) (k : Nat) : (x.dropped k).stopped = x.stopped := x.put_stopped k _

/-- The engine has let go of its stopped set, which has ended or, with transfers on their way, issues nothing more. -/
def abandoned (s : State) (g k : Nat) : State :=
  if setQuiet s (s.stmSet g k) then endSet (released s g) g k
  else stmShow ((released s g).setStream g (((released s g).stream g).dropped k)) g

theorem abandonSet_eq {s : State} {g k : Nat} (h : (s.stream g).stopped = some k) :
    abandonSet s g = (abandoned s g k).emit (.streamError (s.stmSet g k).queue) := by
  have hset : ((released s g).stream g).get k = s.stmSet g k := by rw [released_stream]; rfl
  rw [abandonSet, h]
  dsimp only
  rw [← released, setQuiet_of_regs (s := s) (t := released s g) rfl, abandoned, Stream.dropped, hset]
  exact (apply_ite (State.emit · _) _ _ _).symm

theorem abandoned_stream (s : State) (g k : Nat) : (abandoned s g k).stream g =
    if setQuiet s (s.stmSet g k) then ((released s g).stream g).ended k else ((released s g).stream g).dropped k := by
  unfold abandoned
  split
  · exact endSet_stream _ g k
  · rw [stmShow_stream, State.stream_setStream_same]

theorem abandoned_outbox (s : State) (g k : Nat) : (abandoned s g k).outbox = s.outbox := by
  unfold abandoned
  split
  · rw [endSet_outbox]; rfl
  · rw [stmShow_outbox]; rfl

theorem abandoned_frame (s : State) {g : Nat} (hg : g < 1024) (k : Nat) : StreamFrame shownFields s (abandoned s g k) := by
  have hreleased (x : Stream) : StreamFrame shownFields s ((released s g).setStream g x) := .of_regs rfl rfl rfl rfl
  unfold abandoned
  split
  · exact (released_frame _ s g).trans (endSet_frame _ hg k)
  · exact (hreleased _).trans (stmShow_shows _ hg)

theorem abandonSet_ends {s : State} {g k : Nat} (h : (s.stream g).stopped = some k) :
    let t := abandonSet s g
    (t.stream g).stopped = none ∧ k ∉ (t.stream g).order ∧ (setQuiet s (s.stmSet g k) = true → t.stmSet g k = StmSet.idle) ∧
      (setQuiet s (s.stmSet g k) = false → t.stmSet g k = (s.stmSet g k).dropped) := by
  have hset : ((released s g).stream g).get k = s.stmSet g k := by rw [released_stream]; rfl
  have hreleased : ((released s g).stream g).stopped = none := by rw [released_stream]
  have hstream : (abandonSet s g).stream g = (abandoned s g k).stream g := by rw [abandonSet_eq h]; rfl
  rw [abandoned_stream] at hstream
  cases hq : setQuiet s (s.stmSet g k) with
  | true =>
    rw [hq, if_pos rfl] at hstream
    refine ⟨?_, ?_, fun _ => ?_, fun hbusy => absurd hbusy (by decide)⟩
    · rw [hstream, Stream.ended_stopped, hreleased]
    · rw [hstream]; exact Stream.not_mem_ended_order _ k
    · rw [State.stmSet, hstream, Stream.ended_get]
  | false =>
    rw [hq, if_neg (by decide)] at hstream
    refine ⟨?_, ?_, fun hquiet => absurd hquiet (by decide), fun _ => ?_⟩
    · rw [hstream, Stream.dropped_stopped, hreleased]
    · rw [hstream]; exact Stream.not_mem_dropped_order _ k
    · rw [State.stmSet, hstream, Stream.dropped_get, hset]

/-! ### Answers of page request groups (R291) -/

theorem groupAnswered_of_running {s : State} {g : Nat} (h : (s.stream g).stopped = none) (success : Bool) : groupAnswered s g success = s := by
  rw [groupAnswered, h]

theorem nextRequest_of_none {s : State} (h : ∀ x ∈ s.streams, x.2.wantsGroup = false) (host : Bool) : nextRequest s host = s := by
  unfold nextRequest
  split
  · rfl
  · rename_i hfound
    have hwaits := List.find?_some hfound
    obtain ⟨hwants, -⟩ := Bool.and_eq_true_iff.1 hwaits
    exact absurd (hwants.symm.trans (h _ (List.mem_of_find?_eq_some hfound))) (by decide)

theorem cxlPrqResp_single {s : State} {n : Nat} {g : Option Nat} (success : Bool) (hgroups : s.mem.groups = [(n, g)])
    (hruns : ∀ x, g = some x → (s.stream x).stopped = none) (hidle : ∀ x ∈ s.streams, x.2.wantsGroup = false) :
    cxlPrqResp s n success = s.setMem { s.mem with groups := [] } := by
  have hleft : (s.mem.groups.filter (fun x => decide (x.1 ≠ n))) = [] := by simp [hgroups]
  let u := s.setMem { s.mem with groups := [] }
  have hnext : nextRequest u false = u := nextRequest_of_none (s := u) hidle false
  rw [cxlPrqResp, hleft, hgroups, List.find?_cons_of_pos (by simp)]
  cases g with
  | none => exact hnext
  | some x =>
    have hruns' : groupAnswered u x success = u := groupAnswered_of_running (s := u) (hruns x rfl) success
    exact (congrArg (nextRequest · false) hruns').trans hnext

theorem cxlPrqResp_unknown {s : State} {n : Nat} (success : Bool) (h : ∀ x ∈ s.mem.groups, x.1 ≠ n) : cxlPrqResp s n success = s := by
  have hnone : s.mem.groups.find? (fun e => decide (e.1 = n)) = none := List.find?_eq_none.2 fun x hx => by simp [h x hx]
  rw [cxlPrqResp, hnone]

/-! ### The obligation -/

theorem setStop_shows {s : State} {g k : Nat} {f : StmFail} (hg : g < 1024) (hkept : (s.stmSet g k).abandoned = false)
    (hfail : (s.stmSet g k).fail = some f) (hquiet : setQuiet s (s.stmSet g k) = true) (hruns : (s.stream g).stopped = none) :
    let t := setStop s g k
    (t.stream g).stopped = some k ∧ t.rd F.STM_STATUS_STATE g = 3 ∧ t.rd F.STM_STATUS_CAUSE g = f.cause % 16 ∧
      t.rd F.STM_CKPT5_DATA g % 2 ^ 16 = f.cause % 2 ^ 16 ∧ t.rd (causeFlag f.cause) g = 1 ∧
      StreamFrame (checkpointFields ++ shownFields ++ causeFields) s t := by
  have hi : g < 131072 := by omega
  have heq := setStop_stops hkept hfail hquiet hruns
  set ws := ckptWords (s.stmSet g k) k 3 f.desc f.pos f.cause f.addr 0 f.ts with hws
  obtain ⟨hstate, hword⟩ := stopWith_shows s hg k 3 ws
  have hflags := stopFlag_frame (stopWith s g k 3 ws) hg f.cause
  obtain ⟨hcause, hflag⟩ := stopFlag_shows (stopWith s g k 3 ws) hg f.cause
  rw [heq]
  refine ⟨?_, (hflags.fields _ _ hi (by decide)).trans hstate, hcause, ?_, hflag,
    ((stopWith_frame s hg k 3 ws).mono (by simp)).trans (hflags.mono (by simp))⟩
  · rw [State.stream_of_streams (stopFlag_streams _ _ _), stopWith_stopped]
  · rw [hflags.fields _ _ hi (by decide), hword, hws, ckptWords_cause]

/-- Settles O21: failures and their stops, failed translations, RESUME, ABANDON, and the answers of page request groups. -/
theorem failingSetsStopAndResume : Obligations.FailingSetsStopAndResume := by
  unfold Obligations.FailingSetsStopAndResume
  refine ⟨⟨?fails, ?stops, ?faults⟩, ?resumes, ?refused, ?abandons, ?ends, ?answers, ?discards⟩
  case fails =>
    intro e set desc pos s i a hfound hnone hkept hopen
    obtain ⟨b, f, hset, hfail, hdesc, hpos, hcause⟩ := failTransfer_fails (responseCause i) i hkept hnone
    have hplace := List.find?_some hfound
    obtain ⟨hidesc, hipos⟩ := of_decide_eq_true hplace
    exact ⟨_, congrArg Host.Outcome.next (transferError_fails hfound hopen), hset.sram, hset.regs, f, hset.set ▸ hfail,
      hdesc.trans hidesc, hpos.trans hipos, hcause⟩
  case stops =>
    intro e set s f a hkept hfail hquiet hruns
    obtain ⟨hstopped, hstate, hcause, hword, hflag, hframe⟩ := setStop_shows e.isLt hkept hfail hquiet hruns
    refine ⟨_, rfl, hstopped, hstate, hcause, hword, fun h => ?_, fun h h' => ?_, fun h => ?_, hframe.sram, hframe.full, hframe.tile⟩
    · rwa [causeFlag, if_pos h] at hflag
    · rwa [causeFlag, if_neg (by omega), if_pos h'] at hflag
    · rwa [causeFlag, if_neg (by omega), if_neg (by omega)] at hflag
  case faults =>
    intro e s k ga write hissue hhead hk a d hkept hread hready hchecked hunknown hasked
    have he := e.isLt
    have hi : e.val < 131072 := by omega
    have heq := translationFault_eq hi rfl hissue hhead hread hready hchecked hunknown hasked
    obtain ⟨hnoted, hstreams⟩ := missNoted_keeps s ga
    have hset : (missNoted s ga).stmSet e k = a := State.stmSet_of_streams hstreams e k
    refine ⟨_, congrArg Host.Outcome.next heq, ?_⟩
    cases hsched : s.on F.STM_STATUS_SCHED e with
    | true =>
      obtain ⟨hframe, hfault, hfailed⟩ := faultFatal_fails (s := missNoted s ga) (g := e) (k := k) ga (hset ▸ hkept)
        (hset ▸ mayIssue_fail_none hissue k)
      have hkeeps := hnoted.trans (hframe.mono (List.nil_subset _))
      exact ⟨hkeeps.sram, hkeeps.full, hkeeps.tile, fun _ => ⟨hfault, hfailed⟩, fun h => absurd h (by decide)⟩
    | false =>
      obtain ⟨hframe, hstate, hstopped, hcount⟩ := faultWait_waits (missNoted s ga) he k ga write
      refine ⟨hframe.sram.trans hnoted.sram, hframe.full.trans hnoted.full, hframe.tile.trans hnoted.tile, fun h => absurd h (by decide),
        fun _ => ⟨hstate, hstopped, hcount.trans ?_⟩⟩
      rw [hnoted.fields _ _ hi (by decide)]
  case resumes =>
    intro e s k hsched hstopped hk
    have hstream := resumeSet_stream hstopped
    have hset : (resumeSet s e).stmSet e k = (s.stmSet e k).resumed := by rw [State.stmSet, hstream, Stream.resumed_get]; rfl
    have hframe := resumeSet_frame e.isLt hstopped
    refine ⟨resumeSet s e, congrArg Host.Outcome.next (if_neg (by simp [hsched])), ?_, ?_, ?_, ?_, ?_, fun f hf => ?_, hframe.sram, hframe.full,
      hframe.tile⟩
    · rw [hstream]; rfl
    · rw [hset]; rfl
    · rw [hset]; rfl
    · rw [hstream]; exact Stream.mem_resumed_order _ k
    · rw [hset]; exact StmSet.resumed_issued _
    · rw [hset]; exact StmSet.resumed_position hf
  case refused => exact fun e s hsched => congrArg Host.Outcome.next (if_pos hsched)
  case abandons =>
    intro e s k hstopped hk a
    obtain ⟨hreleased, horder, hquiet, hbusy⟩ := abandonSet_ends hstopped
    have hframe := abandoned_frame s e.isLt k
    refine ⟨_, rfl, hreleased, horder, hquiet, hbusy, ?_⟩
    rw [abandonSet_eq hstopped]
    exact ⟨congrArg (List.cons _) (abandoned_outbox s e k), hframe.sram, hframe.full, hframe.tile⟩
  case ends =>
    intro e set s habandoned
    have heq := setStop_of_abandoned habandoned
    refine ⟨fun hquiet => ⟨_, congrArg Host.Outcome.next (heq.trans (if_pos hquiet)), endSet_stmSet s e set, endSet_outbox s e set⟩,
      fun hbusy => congrArg Host.Outcome.next (heq.trans (if_neg (by simp [hbusy])))⟩
  case answers =>
    intro value s n g hn hgroups hruns hidle
    subst hn
    exact ⟨_, congrArg Host.Outcome.next (cxlPrqResp_single _ hgroups hruns hidle), rfl, rfl, rfl, rfl⟩
  case discards => exact fun value s h => congrArg Host.Outcome.next (cxlPrqResp_unknown _ h)

end Sys2Proof.Machine
end

section
/-!
PROOFS. Hurdles at which nothing waits (R177-R183): what an arrival makes of COUNT and GEN, and the ends of the instructions that arrive and
wait.
-/
namespace Sys2Proof.Machine

/-! ### Hurdles at which nothing waits -/

/-- No queue waits at hurdle `h`, and no slot of its cluster is armed (R180, R211). -/
structure Unwatched (s : State) (h : Nat) : Prop where
  waiters : ∀ x ∈ s.sync.hurWait, x.hur ≠ h
  slots : ∀ k, k < 64 → s.rd F.TRK_FL_STAT_ARMED (clusterOfHurdle h * 64 + k) = 0

theorem recordMargin_of_unarmed {s : State} {slot : Nat} (h old : Nat) (harmed : s.rd F.TRK_FL_STAT_ARMED slot = 0) :
    recordMargin h old s slot = s :=
  if_neg (by simp [State.on, harmed])

theorem wakeWaiters_of_none {s : State} {h : Nat} (hnone : ∀ x ∈ s.sync.hurWait, x.hur ≠ h) : wakeWaiters s h = s := by
  have hwoken : s.sync.hurWait.filter (fun w => decide (w.hur = h) && genPassed (s.gen h) w.arg) = [] :=
    List.filter_eq_nil_iff.2 fun x hx => by simp [hnone x hx]
  have hrest : s.sync.hurWait.filter (fun w => !(decide (w.hur = h) && genPassed (s.gen h) w.arg)) = s.sync.hurWait :=
    List.filter_eq_self.2 fun x hx => by simp [hnone x hx]
  simp only [wakeWaiters, hwoken, hrest, List.foldl_nil]

/-- A change of GEN brings about nothing at a hurdle at which nothing waits. -/
theorem Unwatched.genChanged {s : State} {h : Nat} (hun : Unwatched s h) (old : Nat) : genChanged s h old = s := by
  have hslots : (List.range 64).foldl (fun s n => recordMargin h old s (clusterOfHurdle h * 64 + n)) s = s :=
    List.foldlRecOn (List.range 64) _ (motive := fun t => t = s) rfl fun t ht n hn => by
      rw [ht]
      exact recordMargin_of_unarmed h old (hun.slots n (List.mem_range.1 hn))
  unfold Machine.genChanged
  split
  · rfl
  · rw [hslots]
    exact wakeWaiters_of_none hun.waiters

/-! ### Arrivals (R177) -/

/-- The fields that an arrival at hurdle `h` may change. -/
def arrivalFields (h : Nat) : List (Fld × Nat) :=
  [(F.HUR_STATE_COUNT, h), (F.HUR_STATE_GEN, h), (F.HUR_ARRIVE_CNT_COUNT, clusterOfHurdle h), (F.HUR_WRAP_ARRIVE, clusterOfHurdle h),
   (F.HUR_COMPLETE_CNT_COUNT, clusterOfHurdle h), (F.HUR_WRAP_COMPLETE, clusterOfHurdle h)]

/-- From `s` to `t`, an arrival of `n` at hurdle `h` has been counted, and the generations that it completes. -/
structure Arrived (s t : State) (h n : Nat) : Prop where
  gen : t.gen h = (s.gen h + (s.rd F.HUR_STATE_COUNT h + n) / s.rd F.HUR_CFG_TARGET h) % 2 ^ 32
  count : t.rd F.HUR_STATE_COUNT h = (s.rd F.HUR_STATE_COUNT h + n) % s.rd F.HUR_CFG_TARGET h
  arrivals : t.rd F.HUR_ARRIVE_CNT_COUNT (clusterOfHurdle h) = (s.rd F.HUR_ARRIVE_CNT_COUNT (clusterOfHurdle h) + n) % 2 ^ 64
  completions : t.rd F.HUR_COMPLETE_CNT_COUNT (clusterOfHurdle h) =
    (s.rd F.HUR_COMPLETE_CNT_COUNT (clusterOfHurdle h) + (s.rd F.HUR_STATE_COUNT h + n) / s.rd F.HUR_CFG_TARGET h) % 2 ^ 64
  fields : SameRegs s t (arrivalFields h)
  rest : t = { s with regs := t.regs }

theorem SameRegs.rd_of_key {s t : State} {l : List (Fld × Nat)} (hregs : SameRegs s t l) (keys : List Nat) (hl : l.map (fun e => e.1.key) = keys)
    {f : Fld} {i : Nat} (hi : i < 131072) (hf : f.key ∉ keys) : t.rd f i = s.rd f i :=
  hregs f i hi fun e he => .inl fun hk => hf (by rw [← hl, ← hk]; exact List.mem_map.2 ⟨e, he, rfl⟩)

/-- The keys of the fields that an arrival may change, and of those that the issue and the end of an instruction may. -/
def arrivalKeys : List Nat := (arrivalFields 0).map fun e => e.1.key
def queueKeys : List Nat := (queueFields 0).map fun e => e.1.key

theorem Unwatched.of_arrival {s t : State} {h : Nat} (hun : Unwatched s h) (hh : h < 65536) (hregs : SameRegs s t (arrivalFields h))
    (hsync : t.sync = s.sync) : Unwatched t h where
  waiters := by rw [hsync]; exact hun.waiters
  slots k hk := (hregs.rd_of_key arrivalKeys rfl (by unfold clusterOfHurdle; omega) (by decide)).trans (hun.slots k hk)

theorem Unwatched.settle {s : State} {h : Nat} (hun : Unwatched s h) (hh : h < 65536) (count : Nat) (hpos : 0 < s.rd F.HUR_CFG_TARGET h)
    (hlt : s.rd F.HUR_CFG_TARGET h < 2 ^ 16) :
    let t := Machine.settle s h count
    t.gen h = (s.gen h + count / s.rd F.HUR_CFG_TARGET h) % 2 ^ 32 ∧ t.rd F.HUR_STATE_COUNT h = count % s.rd F.HUR_CFG_TARGET h ∧
      t.rd F.HUR_COMPLETE_CNT_COUNT (clusterOfHurdle h) =
        (s.rd F.HUR_COMPLETE_CNT_COUNT (clusterOfHurdle h) + count / s.rd F.HUR_CFG_TARGET h) % 2 ^ 64 ∧
      t.rd F.HUR_ARRIVE_CNT_COUNT (clusterOfHurdle h) = s.rd F.HUR_ARRIVE_CNT_COUNT (clusterOfHurdle h) ∧
      SameRegs s t (arrivalFields h) ∧ t = { s with regs := t.regs } := by
  have hi : h < 131072 := by omega
  have hc : clusterOfHurdle h < 131072 := by unfold clusterOfHurdle; omega
  generalize htarget : s.rd F.HUR_CFG_TARGET h = target at hpos hlt ⊢
  set k := count / target with hk
  set u := (s.wr F.HUR_STATE_COUNT h (count - k * target)).wr F.HUR_STATE_GEN h (s.gen h + k) with hu
  set t := u.bump C.HUR_COMPLETE_CNT (clusterOfHurdle h) k with ht
  have hcount : count - k * target = count % target := by rw [hk, Nat.mod_def, Nat.mul_comm]
  have hother : ∀ f : Fld, f.key ∉ [F.HUR_COMPLETE_CNT_COUNT.key, F.HUR_WRAP_COMPLETE.key] → ∀ i, i < 131072 → t.rd f i = u.rd f i := by
    intro f hf i hi
    simp only [List.mem_cons, List.not_mem_nil, or_false, not_or] at hf
    exact State.rd_bump_other u C.HUR_COMPLETE_CNT _ k f i hc hi (.inl hf.1) (.inl hf.2)
  have hregs : SameRegs s t (arrivalFields h) := by
    refine SameRegs.bump' C.HUR_COMPLETE_CNT _ k ?_ hc (by simp [arrivalFields, C.HUR_COMPLETE_CNT]) (by simp [arrivalFields, C.HUR_COMPLETE_CNT])
    exact (SameRegs.wr s F.HUR_STATE_COUNT h _ hi (by simp [arrivalFields])).wr' F.HUR_STATE_GEN h _ hi (by simp [arrivalFields])
  have hsettle : Machine.settle s h count = t := by
    have hquiet := (hun.of_arrival hh hregs (by rw [ht, State.bump_sync]; rfl)).genChanged (s.gen h)
    simp only [Machine.settle, htarget, if_neg (Nat.ne_of_gt hpos)]
    exact hquiet
  rw [hsettle]
  refine ⟨?_, ?_, ?_, ?_, hregs, ?_⟩
  · rw [State.gen, hother _ (by decide) _ hi, hu, State.rd_wr_same]
    rfl
  · rw [hother _ (by decide) _ hi, hu, State.rd_wr_key _ _ (by decide) hi hi, State.rd_wr_same, hcount]
    exact Nat.mod_eq_of_lt ((Nat.mod_lt _ hpos).trans hlt)
  · have hsame := State.rd_bump_same u C.HUR_COMPLETE_CNT (clusterOfHurdle h) k (by decide) hc
    have hold : u.rd F.HUR_COMPLETE_CNT_COUNT (clusterOfHurdle h) = s.rd F.HUR_COMPLETE_CNT_COUNT (clusterOfHurdle h) := by
      rw [hu, State.rd_wr_key _ _ (by decide) hc hi, State.rd_wr_key _ _ (by decide) hc hi]
    exact hsame.trans (by rw [← hold]; rfl)
  · rw [hother _ (by decide) _ hc, hu, State.rd_wr_key _ _ (by decide) hc hi, State.rd_wr_key _ _ (by decide) hc hi]
  · rw [ht, State.bump_rest]
    rfl

theorem State.regsOnly_trans {s t u : State} (h : t = { s with regs := t.regs }) (h' : u = { t with regs := u.regs }) :
    u = { s with regs := u.regs } := h'.trans (by rw [h])

theorem Unwatched.arrive {s : State} {h : Nat} (hun : Unwatched s h) (hh : h < 65536) (n : Nat) (hpos : 0 < s.rd F.HUR_CFG_TARGET h)
    (hlt : s.rd F.HUR_CFG_TARGET h < 2 ^ 16) : Arrived s (Machine.arrive s h n) h n := by
  have hi : h < 131072 := by omega
  have hc : clusterOfHurdle h < 131072 := by unfold clusterOfHurdle; omega
  set a := s.bump C.HUR_ARRIVE_CNT (clusterOfHurdle h) n with ha
  have hother : ∀ f : Fld, f.key ∉ [F.HUR_ARRIVE_CNT_COUNT.key, F.HUR_WRAP_ARRIVE.key] → ∀ i, i < 131072 → a.rd f i = s.rd f i := by
    intro f hf i hi
    simp only [List.mem_cons, List.not_mem_nil, or_false, not_or] at hf
    exact State.rd_bump_other s C.HUR_ARRIVE_CNT _ n f i hc hi (.inl hf.1) (.inl hf.2)
  have hregs : SameRegs s a (arrivalFields h) :=
    SameRegs.bump' C.HUR_ARRIVE_CNT _ n (.refl s _) hc (by simp [arrivalFields, C.HUR_ARRIVE_CNT]) (by simp [arrivalFields, C.HUR_ARRIVE_CNT])
  have htarget : a.rd F.HUR_CFG_TARGET h = s.rd F.HUR_CFG_TARGET h := hother _ (by decide) _ hi
  have hgen : a.gen h = s.gen h := hother _ (by decide) _ hi
  obtain ⟨hg, hcount, hcompl, harr, hfields, hrest⟩ :=
    (hun.of_arrival hh hregs (State.bump_sync _ _ _ _)).settle hh (s.rd F.HUR_STATE_COUNT h + n) (htarget ▸ hpos) (htarget ▸ hlt)
  have hcounted := State.rd_bump_same s C.HUR_ARRIVE_CNT (clusterOfHurdle h) n (by decide) hc
  rw [htarget, hgen] at hg
  rw [htarget] at hcount
  rw [htarget, hother _ (by decide) _ hc] at hcompl
  exact ⟨hg, hcount, harr.trans hcounted, hcompl, hregs.trans hfields, State.regsOnly_trans (State.bump_rest _ _ _ _) hrest⟩

/-! ### The instructions that arrive and wait (R178-R183) -/

section
variable {s : State} {q w : Nat}

theorem wR1_lt (w : Nat) : wR1 w < 32 := Nat.mod_lt _ (by decide)

/-- The count of hadd stands in the upper half of its operand. -/
theorem haddCount_upper (v : Nat) : haddCount (bits v 32 32) = clampTo 1 65535 (bits v 32 16) := by
  have hupper : bits (bits v 32 32) 0 16 = bits v 32 16 := (bits_mod _ (by decide)).trans (bits_div v 32 0 16).symm
  rw [haddCount, hupper]

variable {h : Nat} (hh : hurdleNamed q (s.sreg q (wR0 w)) = h) (hpend : writesPending s q = false) (hup : hurdleDown s h = false)
include hh hpend hup

/-- An arrival at a table that is shut waits there. -/
theorem arriveInstr_of_shut (n : Nat) (hshut : tableShut s h = true) :
    arriveInstr s q w n false = (s.holdOp (.arrive h n (some (q, wR1 w, false)))).holdHead q 0x4 .held := by
  simp [arriveInstr, hh, hpend, hup, hshut]

/-- An arrival at an open table is made at once. -/
theorem arriveInstr_of_open (n : Nat) (sync : Bool) (hopen : tableShut s h = false) (hmark : sync = true → s.arrivedMark q = false) :
    arriveInstr s q w n sync = arriveFor s h n q (wR1 w) sync := by
  cases sync <;> simp_all [arriveInstr]

end

section
variable {s : State} {q : Nat}

/-- The generation of an arrival has passed when the arrival has completed one (R180). -/
theorem genPassed_add {g : Nat} (hg : g < 2 ^ 32) {k : Nat} (hk : k < 2 ^ 31) : genPassed ((g + k) % 2 ^ 32) g = decide (0 < k) := by
  have hsub : ((g + k) % 2 ^ 32 % 2 ^ 32 + 2 ^ 32 - g % 2 ^ 32) % 2 ^ 32 = k := by omega
  rw [genPassed, hsub, decide_eq_true hk, Bool.and_true]
  exact decide_eq_decide.2 Nat.succ_le_iff

/-- A hurdle instruction that arrived has its result: the state in which it is finished with, or waits (R179). -/
def arrivedWith (s : State) (h n q d : Nat) : State := (arrive s h n).setS q d (s.gen h)

theorem arriveFor_eq (s : State) (h n q d : Nat) : arriveFor s h n q d false = ((arrivedWith s h n q d).countIssue q).doneHead q := by
  simp only [arriveFor, arrivedWith, Bool.false_eq_true, if_false]

theorem arriveFor_sync (s : State) (h n q d : Nat) :
    arriveFor s h n q d true = hurdleWait ((arrivedWith s h n q d).setArrived q true) ⟨h, q, s.gen h, d, true⟩ := by
  simp only [arriveFor, arrivedWith, if_true]

theorem hurdleWait_passed {w : HurWaiter} (h : genPassed (s.gen w.hur) w.arg = true) : hurdleWait s w = wakeWaiter s w := if_pos h

theorem hurdleWait_recorded {w : HurWaiter} (h : genPassed (s.gen w.hur) w.arg = false) : hurdleWait s w = recordWaiter s w :=
  if_neg (by simp [h])

/-- What a queue that is recorded as waiter shows (R118, R180). -/
theorem recordWaiter_waits (x : HurWaiter) (hq : x.queue < 4096) :
    let t := recordWaiter s x
    t.qState x.queue = qWAIT ∧ t.rd F.VEC_Q_STAT_WAIT_ON x.queue = 4 ∧ t.qPC x.queue = s.qPC x.queue ∧
      t.sync.hurWait = s.sync.hurWait ++ [x] ∧ t.tile.sregs = s.tile.sregs ∧ t.tile.arrived = s.tile.arrived ∧
      SameRegs s t (queueFields x.queue) := by
  obtain ⟨hstate, hon, hpc⟩ := holdHead_shows { s with sync := { s.sync with hurWait := s.sync.hurWait ++ [x] } } .hurdle hq (c := 4) (by decide)
  exact ⟨hstate, hon, hpc, rfl, rfl, rfl, holdHead_sameRegs _ hq 4 .hurdle⟩

theorem State.loops_setS (s : State) (q d v : Nat) : (s.setS q d v).tile.loops = s.tile.loops := by rw [State.setS_tile]

theorem State.arrivedMark_setArrived (s : State) (q : Nat) (v : Bool) : (s.setArrived q v).arrivedMark q = v := Tab.get_set_same _ _ _ _

theorem Arrived.wroteS {h n d : Nat} (ha : Arrived s (arrive s h n) h n) (hd : d < 32) :
    WroteS s (arrivedWith s h n q d) q d (s.gen h) := fun p r hr => by
  rw [arrivedWith, State.sreg_setS _ _ _ _ _ _ hr hd, State.sreg_of_tile (s := s) (t := arrive s h n) (by rw [ha.rest])]

variable {u : State} {h n d : Nat} (hq : q < 4096)
include hq

/-- A head that is finished with after work on a hurdle's fields. -/
theorem Finished.of_arrival (hregs : SameRegs s u (arrivalFields h)) (hloops : u.tile.loops = s.tile.loops) :
    Finished s ((u.countIssue q).doneHead q) q := by
  have hcore := coreOfQueue_lt hq
  refine .of_doneHead hq ?_ (by rw [countIssue_tile, hloops]) ?_
  · exact ((countIssue_frame u hq).fields _ _ (by omega) (by decide)).trans (hregs.rd_of_key arrivalKeys rfl (by omega) (by decide))
  · rw [countIssue_rd u q hq, hregs.rd_of_key arrivalKeys rfl (by omega) (by decide)]

theorem Arrived.finished (ha : Arrived s (arrive s h n) h n) (hd : d < 32) :
    let t := ((arrivedWith s h n q d).countIssue q).doneHead q
    WroteS s t q d (s.gen h) ∧ Finished s t q ∧
      ∀ f i, i < 131072 → f.key ∉ queueKeys → t.rd f i = (arrive s h n).rd f i := by
  intro t
  obtain ⟨-, hregs, -, hsregs⟩ := finishedHead (arrivedWith s h n q d) hq
  refine ⟨fun p r hr => ?_, .of_arrival hq (ha.fields.regs' (State.setS_regs _ _ _ _)) ?_, fun f i hi hf => ?_⟩
  · exact (State.sreg_of_tile hsregs p r).trans (ha.wroteS hd p r hr)
  · rw [arrivedWith, State.loops_setS, ha.rest]
  · exact (hregs.rd_of_key queueKeys rfl hi hf).trans (State.setS_rd _ _ _ _ _ _)

end

/-- A queue whose wait is over takes its result and goes on (R180). -/
theorem wakeWaiter_finishes (s : State) {x : HurWaiter} (hq : x.queue < 4096) (hx : x.sync = false) (hd : x.dest < 32) :
    let t := wakeWaiter s x
    SameRegs s t (queueFields x.queue) ∧ WroteS s t x.queue x.dest (s.gen x.hur) ∧ Finished s t x.queue ∧ t.sync = s.sync := by
  have ht : wakeWaiter s x = ((s.setS x.queue x.dest (s.gen x.hur)).countIssue x.queue).doneHead x.queue := by
    simp only [wakeWaiter, hx]
    rfl
  obtain ⟨hdone, hregs, hrest, hsregs⟩ := finishedHead (s.setS x.queue x.dest (s.gen x.hur)) hq
  rw [ht]
  refine ⟨(SameRegs.of_regs (State.setS_regs _ _ _ _) _).trans hregs, fun p r hr => ?_, ?_, by rw [hrest]; exact State.setS_sync _ _ _ _⟩
  · rw [State.sreg_of_tile hsregs, State.sreg_setS _ _ _ _ _ _ hr hd]
  · exact .of_arrival (h := 0) hq (.of_regs (State.setS_regs _ _ _ _) _) (State.loops_setS _ _ _ _)

/-- The wait of an hwait ends at once, or its queue is recorded (R180). -/
theorem hurdleWait_ends (s : State) {x : HurWaiter} (hq : x.queue < 4096) (hx : x.sync = false) (hd : x.dest < 32) :
    let t := hurdleWait s x
    SameRegs s t (queueFields x.queue) ∧
      (genPassed (s.gen x.hur) x.arg = true → WroteS s t x.queue x.dest (s.gen x.hur) ∧ Finished s t x.queue ∧ t.sync = s.sync) ∧
      (genPassed (s.gen x.hur) x.arg = false → t.qState x.queue = qWAIT ∧ t.rd F.VEC_Q_STAT_WAIT_ON x.queue = 4 ∧
        t.qPC x.queue = s.qPC x.queue ∧ t.sync.hurWait = s.sync.hurWait ++ [x] ∧ t.tile.sregs = s.tile.sregs) := by
  cases hpassed : genPassed (s.gen x.hur) x.arg with
  | true =>
    rw [hurdleWait_passed hpassed]
    obtain ⟨hregs, hends⟩ := wakeWaiter_finishes s hq hx hd
    exact ⟨hregs, fun _ => hends, fun h => absurd h (by simp)⟩
  | false =>
    rw [hurdleWait_recorded hpassed]
    obtain ⟨hstate, hon, hpc, hwaiter, hsregs, -, hregs⟩ := recordWaiter_waits (s := s) x hq
    exact ⟨hregs, fun h => absurd h (by simp), fun _ => ⟨hstate, hon, hpc, hwaiter, hsregs⟩⟩

theorem hurdleWait_sync_sregs {s : State} {x : HurWaiter} (hx : x.sync = true) : (hurdleWait s x).tile.sregs = s.tile.sregs := by
  unfold hurdleWait
  split
  · simp only [wakeWaiter, hx, if_true, doneHead_sregs, countIssue_tile]
  · rfl

/-- hsync at an open table (R180, R183): its queue waits for the generation of its arrival, or goes on when the arrival completes it. -/
theorem Arrived.sync {s : State} {h n q d : Nat} (ha : Arrived s (arrive s h n) h n) (hq : q < 4096) (hd : d < 32) (hgen : s.gen h < 2 ^ 32) :
    let t := arriveFor s h n q d true
    let k := (s.rd F.HUR_STATE_COUNT h + n) / s.rd F.HUR_CFG_TARGET h
    WroteS s t q d (s.gen h) ∧
      (k = 0 → t.qState q = qWAIT ∧ t.rd F.VEC_Q_STAT_WAIT_ON q = 4 ∧ t.qPC q = s.qPC q ∧ t.arrivedMark q = true ∧
        t.sync.hurWait = s.sync.hurWait ++ [⟨h, q, s.gen h, d, true⟩]) ∧
      (0 < k → k < 2 ^ 31 → Finished s t q) := by
  have hwrote := ha.wroteS (q := q) hd
  have hregs : SameRegs s (arrivedWith s h n q d) (arrivalFields h) := ha.fields.regs' (State.setS_regs _ _ _ _)
  have hloops : (arrivedWith s h n q d).tile.loops = s.tile.loops := (State.loops_setS _ _ _ _).trans (by rw [ha.rest])
  have hsync : (arrivedWith s h n q d).sync = s.sync := (State.setS_sync _ _ _ _).trans (by rw [ha.rest])
  have hnext : (arrivedWith s h n q d).gen h = (s.gen h + (s.rd F.HUR_STATE_COUNT h + n) / s.rd F.HUR_CFG_TARGET h) % 2 ^ 32 :=
    (State.setS_rd _ _ _ _ _ _).trans ha.gen
  rw [arriveFor_sync]
  generalize arrivedWith s h n q d = u at hwrote hregs hloops hsync hnext
  generalize (s.rd F.HUR_STATE_COUNT h + n) / s.rd F.HUR_CFG_TARGET h = k at hnext
  have hpassed : k < 2 ^ 31 → genPassed ((u.setArrived q true).gen h) (s.gen h) = decide (0 < k) := fun hk =>
    (congrArg (genPassed · (s.gen h)) hnext).trans (genPassed_add hgen hk)
  refine ⟨fun p r hr => ?_, fun hzero => ?_, fun hpos hlt => ?_⟩
  · exact (State.sreg_of_tile (hurdleWait_sync_sregs rfl) p r).trans (hwrote p r hr)
  · rw [hurdleWait_recorded (w := ⟨h, q, s.gen h, d, true⟩) ((hpassed (by omega)).trans (by simp [hzero]))]
    obtain ⟨hstate, hon, hpc, hwaiter, -, hmarks, -⟩ := recordWaiter_waits (s := u.setArrived q true) ⟨h, q, s.gen h, d, true⟩ hq
    refine ⟨hstate, hon, hpc.trans (hregs.rd_of_key arrivalKeys rfl (show q < 131072 by omega) (by decide)), ?_, hwaiter.trans (by rw [← hsync]; rfl)⟩
    exact (congrArg (Tab.get false · q) hmarks).trans (State.arrivedMark_setArrived u q true)
  · rw [hurdleWait_passed (w := ⟨h, q, s.gen h, d, true⟩) ((hpassed hlt).trans (decide_eq_true hpos))]
    exact .of_arrival hq (hregs.regs' rfl) hloops

/-- harrive and hadd at a table that is shut. -/
theorem arriveInstr_waits {s : State} {q w h : Nat} (hq : q < 4096) (hh : hurdleNamed q (s.sreg q (wR0 w)) = h)
    (hpend : writesPending s q = false) (hup : hurdleDown s h = false) (n : Nat) (hshut : tableShut s h = true) :
    let t := arriveInstr s q w n false
    t.qState q = qWAIT ∧ t.rd F.VEC_Q_STAT_WAIT_ON q = 4 ∧ t.qPC q = s.qPC q ∧
      t.sync.held = s.sync.held ++ [.arrive h n (some (q, wR1 w, false))] ∧ ∀ i, i < 131072 → t.gen i = s.gen i := by
  rw [arriveInstr_of_shut hh hpend hup n hshut]
  obtain ⟨hstate, hon, hpc⟩ := holdHead_shows (s.holdOp (.arrive h n (some (q, wR1 w, false)))) .held hq (c := 4) (by decide)
  exact ⟨hstate, hon, hpc, rfl, fun i hi => (holdHead_sameRegs _ hq 4 .held).rd_of_key queueKeys rfl hi (by decide)⟩

/-- Settles O23: an arrival is counted and finished with or waits at its table; a wait ends at once or records its queue. -/
theorem arrivalsAndWaitsAtHurdles : Obligations.ArrivalsAndWaitsAtHurdles := by
  unfold Obligations.ArrivalsAndWaitsAtHurdles
  refine ⟨?arrivals, ?hwait, ?hsync⟩
  case arrivals =>
    intro q s op c hc hissue w h n target sum hh hup hpend
    have hq := q.isLt
    have hexec : exec c s = .next (arriveInstr s q w n false) := by
      rcases hc with ⟨rfl, rfl⟩ | ⟨rfl, rfl⟩
      · exact congrArg Host.Outcome.next (issue_eq hissue _)
      · refine congrArg Host.Outcome.next ((issue_eq hissue _).trans ?_)
        simp only [haddCount_upper]
        rfl
    have hi : h < 131072 := by omega
    have hc : clusterOfHurdle h < 131072 := by unfold clusterOfHurdle; omega
    clear_value n
    refine ⟨_, hexec, fun hshut => ?_, fun hopen hpos hlt hwait harmed => ?_⟩
    · obtain ⟨hstate, hon, hpc, hheld, hgen⟩ := arriveInstr_waits hq rfl hpend hup n hshut
      exact ⟨hstate, hon, hpc, hheld, hgen h hi⟩
    · have ha := Unwatched.arrive ⟨hwait, harmed⟩ hh n hpos hlt
      obtain ⟨hwrote, hdone, hkeeps⟩ := ha.finished hq (wR1_lt w)
      rw [← arriveFor_eq, ← arriveInstr_of_open rfl hpend hup n false hopen (by simp)] at hwrote hdone hkeeps
      exact ⟨hwrote, (hkeeps _ _ hi (by decide)).trans ha.gen, (hkeeps _ _ hi (by decide)).trans ha.count,
        (hkeeps _ _ hc (by decide)).trans ha.arrivals, (hkeeps _ _ hc (by decide)).trans ha.completions, hdone⟩
  case hwait =>
    intro q s hissue v h d hup
    have hq := q.isLt
    have hexec : exec (.hwait q) s = .next (hurdleWait s ⟨h, q, bits v 32 32, d, false⟩) :=
      congrArg Host.Outcome.next ((issue_eq hissue _).trans (if_neg (Bool.eq_false_iff.1 hup)))
    exact ⟨_, hexec, hurdleWait_ends s (x := ⟨h, q, bits v 32 32, d, false⟩) hq rfl (wR1_lt _)⟩
  case hsync =>
    intro q s hissue w h target sum hh hup hpend hmark hopen hpos hlt hgen hwait harmed
    have hq := q.isLt
    have ha := Unwatched.arrive ⟨hwait, harmed⟩ hh 1 hpos hlt
    have hexec : exec (.hsync q) s = .next (arriveFor s h 1 q (wR1 w) true) :=
      congrArg Host.Outcome.next ((issue_eq hissue _).trans (arriveInstr_of_open rfl hpend hup 1 true hopen fun _ => hmark))
    exact ⟨_, hexec, ha.sync hq (wR1_lt w) hgen⟩

end Sys2Proof.Machine
end

section
/-!
PROOFS. Register operations on hurdles (R182): an arrival that ends the wait of a queue.
-/
namespace Sys2Proof.Machine

theorem hurReach_of_up {s : State} {h : Nat} (hup : hurdleDown s h = false) (t : State) : hurReach s h t = t :=
  if_neg (by simp [hup])

theorem exec_hurOpHarrive {s : State} {h : Fin 65536} (value : Word) (hup : hurdleDown s h = false) :
    exec (.hurOpHarrive h value) s = .next (arriveFrom s h 1) :=
  congrArg Host.Outcome.next (hurReach_of_up hup _)

/-- Queue 0 waits in an hwait at hurdle 0, whose TARGET is 1, for the generation after 0; its result goes to S1. -/
def waitedHurdle : State := { State.reset with sync := { State.reset.sync with hurWait := [⟨0, 0, 0, 1, false⟩] } }

/-- The arrival completes the generation, and the wake of the waiter writes S1 of queue 0 (R180). -/
theorem waitedHurdle_arrival_writes_result : (arriveFrom waitedHurdle 0 1).tile.sregs = [(1, 1)] := by decide +kernel

/-- Refutes O22: of an arrival by HUR_OP it says that no S register changes, whatever waits at the hurdle. In `waitedHurdle` the arrival ends
the wait of an hwait, which takes its result (R180). -/
theorem not_hurdlesAreSetAndRead : ¬ Obligations.HurdlesAreSetAndRead := by
  unfold Obligations.HurdlesAreSetAndRead
  rintro ⟨-, -, -, harrive, -⟩
  have hup : hurdleDown waitedHurdle (0 : Fin 65536) = false := by decide
  obtain ⟨t, hstep, hsregs, -⟩ := harrive 0 0 waitedHurdle 1 (.hurOpHarrive 0 0) (.inl ⟨rfl, rfl⟩) hup
  obtain rfl : arriveFrom waitedHurdle 0 1 = t := Host.Outcome.next.inj ((exec_hurOpHarrive 0 hup).symm.trans hstep)
  exact absurd (waitedHurdle_arrival_writes_result.symm.trans hsregs) (by decide)


end Sys2Proof.Machine
end

section
/-!
PROOFS. The full/empty port of a cluster (R175): loads and stores that never wait.
-/
namespace Sys2Proof.Machine

/-! ### The full/empty port (R172, R175) -/

section
variable {s : State} {c : Nat}

theorem fePortLoad_elsewhere (h : fePortPlace s c = false) : fePortLoad s c = s.emit .error := if_pos (by simp [h])

theorem fePortStore_elsewhere (h : fePortPlace s c = false) (v : Nat) : fePortStore s c v = s.emit .error := if_pos (by simp [h])

variable (hplace : fePortPlace s c = true) (hup : padDown s (s.rd F.HUR_FE_CTRL_DA c) = false)
  (hidle : padBusy s (s.rd F.HUR_FE_CTRL_DA c) = false)
include hplace hup hidle

/-- A load of a word that answers is performed or misses. -/
theorem fePortLoad_answers : fePortLoad s c =
    if feReady s (s.rd F.HUR_FE_CTRL_MODE c) false (s.rd F.HUR_FE_CTRL_DA c / 8) then
      (feLeave s (s.rd F.HUR_FE_CTRL_MODE c) false [s.rd F.HUR_FE_CTRL_DA c / 8]).emit (.data (s.word (s.rd F.HUR_FE_CTRL_DA c / 8)))
    else (s.wr F.HUR_FE_CTRL_MISS c 1).emit (.data 0) :=
  (if_neg (by simp [hplace, hup])).trans (if_neg (by simp [hidle]))

/-- A store to a word that answers is performed or misses. -/
theorem fePortStore_answers (v : Nat) : fePortStore s c v =
    if feReady s (s.rd F.HUR_FE_CTRL_MODE c) true (s.rd F.HUR_FE_CTRL_DA c / 8) then
      feLeave (s.commit (s.rd F.HUR_FE_CTRL_DA c) (bytesLE 8 v)) (s.rd F.HUR_FE_CTRL_MODE c) true [s.rd F.HUR_FE_CTRL_DA c / 8]
    else s.wr F.HUR_FE_CTRL_MISS c 1 :=
  (if_neg (by simp [hplace, hup])).trans (if_neg (by simp [hidle]))

end

/-- What a store of the port leaves of memory. -/
theorem fePort_stored (s : State) (da m : Nat) {bs : List Byte} (hlen : bs.length = 8) :
    let t := feLeave (s.commit da bs) m true [da / 8]
    readBytes t.sram da 8 = bs ∧ SameBytes s t da 8 ∧ (∀ x, t.isFull x = if x = da / 8 then true else s.isFull x) ∧ t.outbox = s.outbox := by
  intro t
  have hsram : t.sram = writeBytes s.sram da bs := (feLeave_sram _ _ _ _).trans (State.commit_memory s da bs).1
  refine ⟨?_, fun x hx => ?_, fun x => ?_, ?_⟩
  · have hread := readBytes_writeBytes bs s.sram da
    rwa [hlen, ← hsram] at hread
  · rw [hsram]
    exact byteAt_writeBytes_outside (by rwa [hlen])
  · rw [isFull_feLeave, State.isFull_of_full (State.commit_memory s da bs).2]
    simp
  · have hcommit : (s.commit da bs).outbox = s.outbox := by rw [(s.commit_frame da bs).rest]
    exact (congrArg State.outbox (feLeave_rest _ _ _ _)).trans hcommit

/-- Settles O24: on a word that answers, the port performs its access or shows a miss; anywhere else it gives an error response. -/
theorem fullEmptyPortNeverWaits : Obligations.FullEmptyPortNeverWaits := by
  unfold Obligations.FullEmptyPortNeverWaits
  intro c value s da m
  have hc : (c : Nat) < 131072 := by omega
  have hmiss : SameRegs s (s.wr F.HUR_FE_CTRL_MISS c 1) [(F.HUR_FE_CTRL_MISS, c.val)] := .wr s _ _ _ hc (by simp)
  have hflag : (s.wr F.HUR_FE_CTRL_MISS c 1).rd F.HUR_FE_CTRL_MISS c = 1 := State.rd_wr_same _ _ _ _
  refine ⟨fun hplace hup hidle => ⟨?load, ?store⟩, fun hplace => ⟨?_, ?_⟩⟩
  case load =>
    have heq := fePortLoad_answers hplace hup hidle
    refine ⟨_, rfl, ?_⟩
    rw [heq]
    by_cases hready : feReady s m false (da / 8) = true
    · rw [if_pos hready]
      refine ⟨feLeave_sram _ _ _ _, fun _ => ⟨?_, fun x => ?_, feLeave_regs _ _ _ _⟩, fun h => by simp [hready] at h⟩
      · rw [feLeave_rest]; rfl
      · exact (isFull_feLeave s m false [da / 8] x).trans (by simp)
    · rw [if_neg hready]
      exact ⟨rfl, fun h => absurd h hready, fun _ => ⟨hflag, rfl, rfl, hmiss.regs' rfl⟩⟩
  case store =>
    have heq := fePortStore_answers hplace hup hidle value.toNat
    refine ⟨_, rfl, ?_⟩
    rw [heq]
    by_cases hready : feReady s m true (da / 8) = true
    · rw [if_pos hready]
      obtain ⟨hbytes, hothers, hfull, hout⟩ := fePort_stored s da m (bytesLE_length 8 value.toNat)
      exact ⟨hout, fun _ => ⟨hbytes, hothers, hfull⟩, fun h => by simp [hready] at h⟩
    · rw [if_neg hready]
      exact ⟨rfl, fun h => absurd h hready, fun _ => ⟨hflag, rfl, rfl, hmiss⟩⟩
  · exact congrArg Host.Outcome.next (fePortLoad_elsewhere hplace)
  · exact congrArg Host.Outcome.next (fePortStore_elsewhere hplace _)

end Sys2Proof.Machine
end

section
/-!
PROOFS. Arrivals by a baton and by a packet (R187, R300) at a hurdle whose recorded waiter names no queue of the device.
-/
namespace Sys2Proof.Machine

/-- The state after reset, with a waiter recorded at hurdle 0 for queue `n * 131072`. The device's queues are numbered below 4096, and no
instruction records another one (R180); of a state of the model the statements do not ask it. In the register file, the fields of that number
are those of unit 0 of other registers: it has its STATE, WAIT_ON and PC in the fields `n` keys further on. -/
def strayWaiter (n : Nat) : State :=
  { State.reset with sync := { State.reset.sync with hurWait := [⟨0, n * 131072, 0, 0, true⟩] } }

/-- A baton for hurdle 0 that needs no bytes, with VALUE 5. -/
def freeBaton : Baton := ⟨hurdleDA 0, 0, 0, 0, 5, 0, 0, 0⟩

/-- `freeBaton` heads window 0, and the waiter's STATE is VALUE of hurdle 0. -/
def strayBaton : State :=
  { strayWaiter 83 with sync := { (strayWaiter 83).sync with batons := [(0, [freeBaton])] } }

/-- The wake of the waiter writes RUN where the baton's value stood. -/
theorem strayBaton_release_loses_value : (batonRelease strayBaton 0).rd F.HUR_VALUE_VALUE 0 = 1 := by decide +kernel

/-- Refutes O25: of a window that releases its head it says that VALUE is the baton's, whatever queue waits at the hurdle. In `strayBaton`
the release ends the wait of a queue number that the device does not have, and its RUN stands in VALUE. -/
theorem not_batonsAndTheirWindows : ¬ Obligations.BatonsAndTheirWindows := by
  unfold Obligations.BatonsAndTheirWindows
  rintro ⟨⟨-, -, -, hrelease⟩, -⟩
  obtain ⟨t, hstep, -, -, hvalue, -⟩ := (hrelease 0 strayBaton freeBaton [] 0 rfl (by decide) (by decide)).2 (by decide) (by decide) (by decide)
  obtain rfl : batonRelease strayBaton 0 = t := Host.Outcome.next.inj hstep
  exact absurd (strayBaton_release_loses_value.symm.trans hvalue) (by decide)

/-- An arrival of 2 at hurdle 0, from an engine of cluster 0 to its own unit. -/
def arrivalOfTwo : Packet :=
  { cls := 2, op := 2, flits := 1, src := 1, dst := 1, da := 0, len := 1, fe := 0, key := 0, sched := false, panic := false, txn := 0, issue := 0, width := 0,
    status := 0, data := bytesLE 8 0 ++ bytesLE 8 2, linkErr := [], waits := [], ecc := [], panicQueued := false, probes := [] }

/-- The packet of an ARRIVE command as it enters the network (R300). -/
def arriveSent (s : State) (p : Packet) : Packet := { p with cls := 2, op := 2, flits := 1, issue := s.trk.ts % 1024, probes := [] }

theorem enter_of_carried {s s1 : State} {p : Packet} (h : carry s p = (s1, .ok)) : enter s p = arriveAt s1 p .ok := by
  simp only [enter, h]

/-- An ARRIVE that comes to its unit is the arrival it carries. -/
theorem exec_nocArrive {p : Packet} {s s1 : State} (hcarry : carry s (arriveSent s p) = (s1, .ok)) :
    exec (.nocArrive p) s = .next (arrivePacket s1 (arriveSent s p)) :=
  congrArg Host.Outcome.next (enter_of_carried hcarry)

/-- Traffic inside a cluster does not enter the mesh (R298): the packet arrives and nothing else happens. -/
theorem carry_arrivalOfTwo : carry (strayWaiter 63) (arriveSent (strayWaiter 63) arrivalOfTwo) = (strayWaiter 63, .ok) := by decide +kernel

/-- The wake of the waiter writes RUN where the count of arrivals stood. -/
theorem strayWaiter_arrival_loses_count :
    (arrivePacket (strayWaiter 63) (arriveSent (strayWaiter 63) arrivalOfTwo)).rd F.HUR_ARRIVE_CNT_COUNT 0 = 1 := by decide +kernel

/-- Refutes O43: of an ARRIVE at an open table it says that the count of arrivals advances by its n, whatever queue waits at the hurdle. In
`strayWaiter 63` the arrival ends the wait of a queue number that the device does not have, and its RUN stands in the count. -/
theorem not_packetsAreServed : ¬ Obligations.PacketsAreServed := by
  unfold Obligations.PacketsAreServed
  rintro ⟨-, -, -, -, harrive, -⟩
  obtain ⟨t, hstep, -, hopen⟩ := harrive arrivalOfTwo (strayWaiter 63) (strayWaiter 63) carry_arrivalOfTwo (by decide) (by decide)
  obtain rfl : arrivePacket (strayWaiter 63) (arriveSent (strayWaiter 63) arrivalOfTwo) = t :=
    Host.Outcome.next.inj ((exec_nocArrive carry_arrivalOfTwo).symm.trans hstep)
  exact absurd (strayWaiter_arrival_loses_count.symm.trans (hopen (by decide))) (by decide)

end Sys2Proof.Machine
end

section
/-!
PROOFS. Every memory in its canonical form: what keeps it so, and the shapes in which the model's functions are put together (a change
of other fields, a choice, a loop). In the sections after this one the lemma `f_canonical` says that the model's function `f` keeps
them canonical, and cites those of the functions that `f` calls.
-/
namespace Sys2Proof.Machine

/-! ### Memories in canonical form (R171, R273, R288, R457) -/

/-- A table of bytes is in canonical form. -/
abbrev CanonicalBytes (m : Tab Byte) : Prop := Tab.wf (fun _ => (0 : Byte)) m = true

/-- The state's five memories are each in canonical form. -/
structure Canonical (s : State) : Prop where
  sram : CanonicalBytes s.sram
  full : Tab.wf (fun _ => false) s.full = true
  hbm : CanonicalBytes s.mem.hbm
  cxl : CanonicalBytes s.mem.cxl
  nv : CanonicalBytes s.sec.nv

theorem canonical_iff {s} : Canonical s ↔ Memory.wf s = true := by
  simp only [Memory.wf, Bool.and_eq_true]
  exact ⟨fun ⟨sram, full, hbm, cxl, nv⟩ => ⟨⟨⟨⟨sram, full⟩, hbm⟩, cxl⟩, nv⟩,
    fun ⟨⟨⟨⟨sram, full⟩, hbm⟩, cxl⟩, nv⟩ => ⟨sram, full, hbm, cxl, nv⟩⟩

/-- Bytes written keep a table canonical. -/
theorem canonicalBytes_writeBytes (bs : List Byte) : ∀ {m a}, CanonicalBytes m → CanonicalBytes (writeBytes m a bs) := by
  induction bs with
  | nil => exact fun h => h
  | cons b r ih => exact fun h => ih (Tab.wf_set _ _ _ _ h)

/-- Bytes set one by one keep a table canonical. -/
theorem canonicalBytes_foldl_set (l : List (Nat × Byte)) : ∀ {m}, CanonicalBytes m →
    CanonicalBytes (l.foldl (fun m p => Tab.set 0 m p.1 p.2) m) := by
  induction l with
  | nil => exact fun h => h
  | cons p r ih => exact fun h => ih (Tab.wf_set _ _ _ _ h)

/-! ### Changes of what is no memory -/

section
variable {s : State} {regs tile sync trk streams noc ses pci kmr fab lanes conf dict pwr sec pins rst outbox freeCtr pending}

/-- A change of fields that hold no memory. -/
theorem update_canonical (h : Canonical s) : Canonical ⟨regs, s.sram, s.full, tile, sync, trk, s.mem, streams, noc, ses, pci, kmr, fab,
    lanes, conf, dict, pwr, s.sec, pins, rst, outbox, freeCtr, pending⟩ := ⟨h.sram, h.full, h.hbm, h.cxl, h.nv⟩

/-- A change that leaves the bytes of HBM and of the CXL tier as they are. -/
theorem updateMem_canonical {wq postponed trainRec training weak xlt xltGone prq groups} (h : Canonical s) :
    Canonical ⟨regs, s.sram, s.full, tile, sync, trk,
      ⟨s.mem.hbm, wq, postponed, trainRec, training, weak, s.mem.cxl, xlt, xltGone, prq, groups⟩, streams,
      noc, ses, pci, kmr, fab, lanes, conf, dict, pwr, s.sec, pins, rst, outbox, freeCtr, pending⟩ :=
  ⟨h.sram, h.full, h.hbm, h.cxl, h.nv⟩

end

/-- HBM and the CXL tier set to contents in canonical form. -/
theorem setMem_of_canonicalBytes {s m} (h : Canonical s) (hh : CanonicalBytes m.hbm) (hc : CanonicalBytes m.cxl) : Canonical (s.setMem m) :=
  ⟨h.sram, h.full, hh, hc, h.nv⟩

section
variable {s : State} {wq postponed trainRec training weak xlt xltGone prq groups}

/-- What the memory controllers keep beside the bytes of HBM and of the CXL tier. -/
theorem setMem_canonical (h : Canonical s) :
    Canonical (s.setMem ⟨s.mem.hbm, wq, postponed, trainRec, training, weak, s.mem.cxl, xlt, xltGone, prq, groups⟩) :=
  setMem_of_canonicalBytes h h.hbm h.cxl

end

section
variable {s : State} {keys floors trim owner revoked extend passed checking blowing report nonce rcv}

/-- What the security unit keeps beside NV. -/
theorem setSec_canonical (h : Canonical s) :
    Canonical (s.setSec ⟨s.sec.nv, keys, floors, trim, owner, revoked, extend, passed, checking, blowing, report, nonce, rcv⟩) :=
  ⟨h.sram, h.full, h.hbm, h.cxl, h.nv⟩

end

/-! ### Choices and loops -/

theorem ite_canonical {c : Prop} [Decidable c] {s t} (hs : Canonical s) (ht : Canonical t) : Canonical (if c then s else t) := by
  split <;> assumption

theorem ite_fst_canonical {α} {c : Prop} [Decidable c] {x y : State × α} (hx : Canonical x.1) (hy : Canonical y.1) :
    Canonical (if c then x else y).1 := by
  split <;> assumption

/-- The state of a pair that is known by its parts. -/
theorem fst_canonical {α} {x : State × α} {s a} (e : x = (s, a)) (h : Canonical x.1) : Canonical s := by
  subst e; exact h

theorem foldl_canonical {α} {f : State → α → State} {l : List α} : ∀ {s}, Canonical s →
    (∀ {s x}, Canonical s → Canonical (f s x)) → Canonical (l.foldl f s) := by
  induction l with
  | nil => exact fun h _ => h
  | cons x r ih => exact fun h hf => ih (hf h) hf

theorem foldl_fst_canonical {α β} {f : State × β → α → State × β} {l : List α} : ∀ {p}, Canonical p.1 →
    (∀ {p x}, Canonical p.1 → Canonical (f p x).1) → Canonical (l.foldl f p).1 := by
  induction l with
  | nil => exact fun h _ => h
  | cons x r ih => exact fun h hf => ih (hf h) hf

end Sys2Proof.Machine
end

section
/-!
PROOFS. Memories stay canonical: what the state's operations, the queues, the hurdles and the track unit do.
-/
namespace Sys2Proof.Machine

/-! ### Register fields and on-chip memory -/

theorem wr_canonical {s f i v} (h : Canonical s) : Canonical (State.wr s f i v) := update_canonical h

theorem setBit_canonical {s f i b} (h : Canonical s) : Canonical (State.setBit s f i b) := wr_canonical h

theorem clearBit_canonical {s f i b} (h : Canonical s) : Canonical (State.clearBit s f i b) := wr_canonical h

theorem wrClamped_canonical {s f i v} (h : Canonical s) : Canonical (State.wrClamped s f i v) := wr_canonical h

theorem wrIf_canonical {s c f i v} (h : Canonical s) : Canonical (State.wrIf s c f i v) := ite_canonical (wr_canonical h) h

theorem bump_canonical {s c i n} (h : Canonical s) : Canonical (State.bump s c i n) :=
  ite_canonical (setBit_canonical (wr_canonical h)) (wr_canonical h)

theorem bumpTo_canonical {s f i n w wi b} (h : Canonical s) : Canonical (State.bumpTo s f i n w wi b) :=
  ite_canonical (setBit_canonical (wr_canonical h)) (wr_canonical h)

theorem resetFields_canonical {s lo hi p} (h : Canonical s) : Canonical (State.resetFields s lo hi p) := update_canonical h

theorem emit_canonical {s o} (h : Canonical s) : Canonical (State.emit s o) := update_canonical h

theorem signalMC_canonical {s f i} (h : Canonical s) : Canonical (State.signalMC s f i) := emit_canonical h

theorem flagMC_canonical {s f i} (h : Canonical s) : Canonical (State.flagMC s f i) := signalMC_canonical (wr_canonical h)

theorem owe_canonical {s event byte7} (h : Canonical s) : Canonical (State.owe s event byte7) := update_canonical h

theorem fresh_canonical {s} (h : Canonical s) : Canonical (State.fresh s).2 := update_canonical h

theorem pacLog_canonical {s heat kind cluster engine} (h : Canonical s) : Canonical (pacLog s heat kind cluster engine) :=
  ite_canonical (wr_canonical h) (update_canonical h)

theorem fireHeat_canonical {s x1} (h : Canonical s) : Canonical (fireHeat s x1) := by
  unfold fireHeat
  extract_lets s₁ s₂
  have hs₁ : Canonical s₁ := by
    unfold s₁
    split
    · exact owe_canonical h
    · exact h
  have hs₂ : Canonical s₂ := pacLog_canonical (bump_canonical (wr_canonical hs₁))
  exact ite_canonical (signalMC_canonical hs₂) hs₂

theorem throttleRefused_canonical {s heat kind cluster engine} (h : Canonical s) : Canonical (throttleRefused s heat kind cluster engine) :=
  pacLog_canonical (owe_canonical (flagMC_canonical (bump_canonical h)))

theorem setFull_canonical {s w v} (h : Canonical s) : Canonical (State.setFull s w v) := ⟨h.sram, Tab.wf_set _ _ _ _ h.full, h.hbm, h.cxl, h.nv⟩

theorem creditWindow_canonical {da len s w} (h : Canonical s) : Canonical (creditWindow da len s w) := ite_canonical h (wr_canonical h)

theorem creditWindows_canonical {s c da len} (h : Canonical s) : Canonical (creditWindows s c da len) := foldl_canonical h creditWindow_canonical

theorem commit_canonical {s da bs} (h : Canonical s) : Canonical (State.commit s da bs) := by
  have hs : Canonical { s with sram := writeBytes s.sram da bs } := ⟨canonicalBytes_writeBytes bs h.sram, h.full, h.hbm, h.cxl, h.nv⟩
  unfold State.commit
  extract_lets
  split
  · exact creditWindows_canonical hs
  · exact hs

theorem fillWords_canonical {s ws} (h : Canonical s) : Canonical (State.fillWords s ws) := foldl_canonical h setFull_canonical

theorem emptyWords_canonical {s ws} (h : Canonical s) : Canonical (State.emptyWords s ws) := foldl_canonical h setFull_canonical

theorem storePlain_canonical {s da bs} (h : Canonical s) : Canonical (State.storePlain s da bs) := fillWords_canonical (commit_canonical h)

theorem storeOut_canonical {s o} (h : Canonical s) : Canonical (State.storeOut s o) :=
  ite_canonical (fillWords_canonical (storePlain_canonical h)) (storePlain_canonical h)

theorem feLeave_canonical {s m store ws} (h : Canonical s) : Canonical (feLeave s m store ws) :=
  ite_canonical (fillWords_canonical h) (ite_canonical (emptyWords_canonical h) h)

theorem addWaiter_canonical {s w} (h : Canonical s) : Canonical (State.addWaiter s w) := update_canonical h

theorem dropWaiters_canonical {s who} (h : Canonical s) : Canonical (State.dropWaiters s who) := update_canonical h

theorem dropWaiter_canonical {s who ws} (h : Canonical s) : Canonical (State.dropWaiter s who ws) := update_canonical h

/-! ### Command queues -/

theorem setS_canonical {s q r v} (h : Canonical s) : Canonical (State.setS s q r v) := ite_canonical h (update_canonical h)

theorem setP_canonical {s q p v} (h : Canonical s) : Canonical (State.setP s q p v) := update_canonical h

theorem setV_canonical {s q v x} (h : Canonical s) : Canonical (State.setV s q v x) := update_canonical h

theorem setLoops_canonical {s q l} (h : Canonical s) : Canonical (State.setLoops s q l) := wr_canonical (update_canonical h)

theorem setHead_canonical {s q x2} (h : Canonical s) : Canonical (State.setHead s q x2) := update_canonical h

theorem setArrived_canonical {s q v} (h : Canonical s) : Canonical (State.setArrived s q v) := update_canonical h

theorem holdHead_canonical {s q c x3} (h : Canonical s) : Canonical (State.holdHead s q c x3) := setHead_canonical (wr_canonical (wr_canonical h))

theorem unhold_canonical {s q} (h : Canonical s) : Canonical (State.unhold s q) := setHead_canonical (wr_canonical (wr_canonical h))

theorem advanceFrom_canonical {s q last} (h : Canonical s) : Canonical (State.advanceFrom s q last) := wr_canonical (setLoops_canonical h)

theorem doneHead_canonical {s q} (h : Canonical s) : Canonical (State.doneHead s q) :=
  advanceFrom_canonical (setArrived_canonical (unhold_canonical h))

theorem countIssue_canonical {s q} (h : Canonical s) : Canonical (State.countIssue s q) := bump_canonical h

theorem faultQueue_canonical {s q cause} (h : Canonical s) : Canonical (State.faultQueue s q cause) :=
  flagMC_canonical (setHead_canonical (wr_canonical (wr_canonical (wr_canonical h))))

theorem issue_canonical {s q cls op eff} (h : Canonical s) (hf : ∀ {s x1}, Canonical s → Canonical (eff s x1)) :
    Canonical (issue s q cls op eff) := by
  unfold issue
  split
  · exact h
  split
  · exact h
  split
  · exact holdHead_canonical h
  split
  · exact faultQueue_canonical h
  · exact ite_canonical h (ite_canonical (doneHead_canonical (countIssue_canonical h)) (hf h))

/-! ### Hurdles -/

theorem setTrack_canonical {s t k} (h : Canonical s) : Canonical (State.setTrack s t k) := update_canonical h

theorem wakeWaiter_canonical {s w} (h : Canonical s) : Canonical (wakeWaiter s w) :=
  doneHead_canonical (countIssue_canonical (ite_canonical h (setS_canonical h)))

theorem wakeWaiters_canonical {s x1} (h : Canonical s) : Canonical (wakeWaiters s x1) := foldl_canonical (update_canonical h) wakeWaiter_canonical

theorem recordMargin_canonical {x0 old s slot} (h : Canonical s) : Canonical (recordMargin x0 old s slot) := ite_canonical (wr_canonical h) h

theorem genChanged_canonical {s x1 old} (h : Canonical s) : Canonical (genChanged s x1 old) :=
  ite_canonical h (wakeWaiters_canonical (foldl_canonical h recordMargin_canonical))

theorem settle_canonical {s x1 count} (h : Canonical s) : Canonical (settle s x1 count) :=
  genChanged_canonical (bump_canonical (wr_canonical (wr_canonical h)))

theorem arrive_canonical {s x1 n} (h : Canonical s) : Canonical (arrive s x1 n) := settle_canonical (bump_canonical h)

theorem hurInit_canonical {s x1 arg} (h : Canonical s) : Canonical (hurInit s x1 arg) := wr_canonical (wr_canonical (wr_canonical (wr_canonical h)))

theorem holdOp_canonical {s o} (h : Canonical s) : Canonical (State.holdOp s o) := update_canonical h

theorem recordWaiter_canonical {s w} (h : Canonical s) : Canonical (recordWaiter s w) := holdHead_canonical (update_canonical h)

theorem hurdleWait_canonical {s w} (h : Canonical s) : Canonical (hurdleWait s w) :=
  ite_canonical (wakeWaiter_canonical h) (recordWaiter_canonical h)

theorem hurdleError_canonical {s q} (h : Canonical s) : Canonical (hurdleError s q) := doneHead_canonical (countIssue_canonical h)

theorem arriveFor_canonical {s x1 n q dest sync} (h : Canonical s) : Canonical (arriveFor s x1 n q dest sync) := by
  unfold arriveFor
  extract_lets g s₁
  have hs₁ : Canonical s₁ := setS_canonical (arrive_canonical h)
  split
  · exact hurdleWait_canonical (setArrived_canonical hs₁)
  exact doneHead_canonical (countIssue_canonical hs₁)

theorem arriveInstr_canonical {s q w n sync} (h : Canonical s) : Canonical (arriveInstr s q w n sync) := by
  unfold arriveInstr
  extract_lets
  split
  · exact holdHead_canonical h
  split
  · exact hurdleError_canonical h
  split
  · exact hurdleWait_canonical h
  exact ite_canonical (holdHead_canonical (holdOp_canonical h)) (arriveFor_canonical h)

theorem hinitEff_canonical {s q w} (h : Canonical s) : Canonical (hinitEff s q w) := by
  unfold hinitEff
  extract_lets
  split
  · exact hurdleError_canonical h
  exact doneHead_canonical (setS_canonical (hurInit_canonical (countIssue_canonical h)))

theorem hwaitEff_canonical {s q w} (h : Canonical s) : Canonical (hwaitEff s q w) :=
  ite_canonical (hurdleError_canonical h) (hurdleWait_canonical h)

theorem htestEff_canonical {s q w} (h : Canonical s) : Canonical (htestEff s q w) := by
  unfold htestEff
  extract_lets
  split
  · exact hurdleError_canonical h
  exact doneHead_canonical (setS_canonical (countIssue_canonical h))

theorem hreadEff_canonical {s q w} (h : Canonical s) : Canonical (hreadEff s q w) := by
  unfold hreadEff
  extract_lets
  split
  · exact hurdleError_canonical h
  exact doneHead_canonical (setS_canonical (countIssue_canonical h))

theorem arriveFrom_canonical {s x1 n} (h : Canonical s) : Canonical (arriveFrom s x1 n) :=
  ite_canonical h (ite_canonical (holdOp_canonical h) (arrive_canonical h))

theorem hurOp_canonical {s x1 v} (h : Canonical s) : Canonical (hurOp s x1 v) := by
  unfold hurOp
  split
  · exact hurInit_canonical h
  · exact arriveFrom_canonical h
  · exact arriveFrom_canonical h
  · exact h

theorem hurStateWrite_canonical {s x1 count gen} (h : Canonical s) : Canonical (hurStateWrite s x1 count gen) :=
  ite_canonical (wr_canonical h) (genChanged_canonical (wr_canonical (wr_canonical h)))

theorem hurCfgWrite_canonical {s x1 target mode win} (h : Canonical s) : Canonical (hurCfgWrite s x1 target mode win) :=
  settle_canonical (wr_canonical (wr_canonical (wr_canonical h)))

theorem hurReach_canonical {s x1 t} (h0 : Canonical s) (h1 : Canonical t) : Canonical (hurReach s x1 t) := ite_canonical (emit_canonical h0) h1

/-! ### The track unit -/

theorem setLap_canonical {s t lap} (h : Canonical s) : Canonical (setLap s t lap) := ite_canonical (wr_canonical (wr_canonical h)) (wr_canonical h)

theorem enterAcquiring_canonical {s t} (h : Canonical s) : Canonical (enterAcquiring s t) := setTrack_canonical (wr_canonical (wr_canonical h))

theorem recordInterval_canonical {s t} (h : Canonical s) : Canonical (recordInterval s t) :=
  ite_canonical (ite_canonical (wr_canonical (wr_canonical (setTrack_canonical h))) (setTrack_canonical h)) h

theorem acceptEdge_canonical {s t i next} (h : Canonical s) : Canonical (acceptEdge s t i next) :=
  bump_canonical (setTrack_canonical (ite_canonical (setLap_canonical (recordInterval_canonical h)) (recordInterval_canonical h)))

theorem passEdge_canonical {s t} (h : Canonical s) : Canonical (passEdge s t) := setTrack_canonical h

theorem leaveStall_canonical {s t} (h : Canonical s) : Canonical (leaveStall s t) := ite_canonical (enterAcquiring_canonical h) h

theorem reverseEdge_canonical {s t} (h : Canonical s) : Canonical (reverseEdge s t) := by
  unfold reverseEdge
  extract_lets d
  split
  rename_i v s₁ heq
  have hs₁ : Canonical s₁ := by
    have hf := fresh_canonical h
    rwa [heq] at hf
  extract_lets s₂ s₃ src s₄
  have hs₄ : Canonical s₄ := setTrack_canonical (bump_canonical (wr_canonical (ite_canonical (wr_canonical h) (wr_canonical hs₁))))
  exact ite_canonical (enterAcquiring_canonical hs₄) hs₄

theorem indexCheck_canonical {s t} (h : Canonical s) : Canonical (indexCheck s t) :=
  ite_canonical (owe_canonical (bump_canonical (wr_canonical (setTrack_canonical h)))) (setTrack_canonical h)

theorem quadEdge_canonical {s t withZ} (h : Canonical s) : Canonical (quadEdge s t withZ) := by
  unfold quadEdge
  extract_lets s₁ idx d z s₂ k s₃
  have hs₃ : Canonical s₃ := setTrack_canonical (leaveStall_canonical h)
  split
  · split
    · exact acceptEdge_canonical (indexCheck_canonical (wr_canonical (leaveStall_canonical h)))
    exact passEdge_canonical (wr_canonical (leaveStall_canonical h))
  split
  · exact acceptEdge_canonical (indexCheck_canonical hs₃)
  split
  · exact ite_canonical (passEdge_canonical hs₃) (acceptEdge_canonical hs₃)
  exact acceptEdge_canonical hs₃

theorem pulseEdge_canonical {s t rising} (h : Canonical s) : Canonical (pulseEdge s t rising) := by
  unfold pulseEdge
  extract_lets
  split
  · exact setTrack_canonical h
  split
  · exact acceptEdge_canonical (leaveStall_canonical (setTrack_canonical h))
  exact ite_canonical (acceptEdge_canonical (leaveStall_canonical (setTrack_canonical h))) (setTrack_canonical h)

theorem trackEdge_canonical {s t fabric a b z held} (h : Canonical s) : Canonical (trackEdge s t fabric a b z held) := by
  unfold trackEdge
  split
  · exact h
  extract_lets
  split
  · split
    · exact ite_canonical (setTrack_canonical h) (quadEdge_canonical (setTrack_canonical h))
    exact ite_canonical (reverseEdge_canonical (setTrack_canonical h)) (setTrack_canonical h)
  · exact ite_canonical (pulseEdge_canonical (setTrack_canonical h)) (setTrack_canonical h)
  · exact ite_canonical (pulseEdge_canonical (setTrack_canonical h)) (setTrack_canonical h)
  · exact setTrack_canonical h

theorem indexPulse_canonical {s t fabric held} (h : Canonical s) : Canonical (indexPulse s t fabric held) :=
  ite_canonical h (acceptEdge_canonical (indexCheck_canonical (leaveStall_canonical h)))

theorem moveAhead_canonical {s t p} (h : Canonical s) : Canonical (moveAhead s t p) := ite_canonical (setTrack_canonical (setLap_canonical h)) h

theorem trackSample_canonical {s t lap angle inc locked limit} (h : Canonical s) : Canonical (trackSample s t lap angle inc locked limit) := by
  unfold trackSample
  split
  · exact h
  extract_lets s₁ p p₁ ahead s₂ src s₃ s₄
  have hs₄ : Canonical s₄ := wr_canonical (wr_canonical (setTrack_canonical (moveAhead_canonical (leaveStall_canonical h))))
  exact ite_canonical (bump_canonical hs₄) hs₄

theorem dcFollow_canonical {s t} (h : Canonical s) : Canonical (dcFollow s t) := by
  unfold dcFollow
  split
  · exact h
  split
  · exact moveAhead_canonical (setTrack_canonical (wr_canonical (leaveStall_canonical h)))
  exact ite_canonical (wr_canonical h) h

theorem trackCycle_canonical {s t} (h : Canonical s) : Canonical (trackCycle s t) := by
  unfold trackCycle
  split
  · exact h
  extract_lets k s₁ m k₁ frac s₂
  have hs₂ : Canonical s₂ := setTrack_canonical (setTrack_canonical h)
  split
  · exact dcFollow_canonical (setTrack_canonical h)
  split
  · exact setTrack_canonical h
  exact ite_canonical (moveAhead_canonical hs₂) (setTrack_canonical hs₂)

theorem trkEnable_canonical {s t} (h : Canonical s) : Canonical (trkEnable s t) := by
  unfold trkEnable
  split
  · exact h
  exact wr_canonical (wr_canonical (setTrack_canonical (wr_canonical (wr_canonical (wr_canonical h)))))

theorem trkDisable_canonical {s t} (h : Canonical s) : Canonical (trkDisable s t) := wr_canonical (wr_canonical (wr_canonical h))

theorem trkStep_canonical {s t v} (h : Canonical s) : Canonical (trkStep s t v) := ite_canonical h (moveAhead_canonical h)

theorem trackStall_canonical {s t} (h : Canonical s) : Canonical (trackStall s t) :=
  ite_canonical (owe_canonical (flagMC_canonical (bump_canonical (wr_canonical (wr_canonical h))))) h

theorem relockTracks_canonical {s} (h : Canonical s) : Canonical (relockTracks s) :=
  foldl_canonical h fun h => ite_canonical (enterAcquiring_canonical h) h

theorem lateRecord_canonical {s t r} (h : Canonical s) : Canonical (lateRecord s t r) := by
  unfold lateRecord
  extract_lets s₁ src s₂
  have hs₁ : Canonical s₁ := bump_canonical (wr_canonical h)
  have hs₂ : Canonical s₂ := ite_canonical (owe_canonical (update_canonical hs₁)) (ite_canonical hs₁ (owe_canonical (wr_canonical hs₁)))
  exact signalMC_canonical hs₂

theorem checkSlot_canonical {s slot} (h : Canonical s) : Canonical (checkSlot s slot) := by
  unfold checkSlot
  extract_lets t r met s₁ s₂
  have hs₂ : Canonical s₂ := lateRecord_canonical (wr_canonical (wr_canonical (wr_canonical h)))
  split
  · exact h
  split
  · exact wr_canonical (wr_canonical h)
  exact ite_canonical (arriveFrom_canonical hs₂) hs₂

theorem armSlot_canonical {s slot} (h : Canonical s) : Canonical (armSlot s slot) :=
  checkSlot_canonical (ite_canonical (wr_canonical (wr_canonical h)) (wr_canonical h))

theorem wmarkEff_canonical {s q w} (h : Canonical s) : Canonical (wmarkEff s q w) := by
  unfold wmarkEff
  extract_lets
  split
  · exact doneHead_canonical (bump_canonical (wr_canonical (countIssue_canonical h)))
  exact holdHead_canonical h

theorem rposEff_canonical {s q w} (h : Canonical s) : Canonical (rposEff s q w) :=
  doneHead_canonical (setS_canonical (setS_canonical (countIssue_canonical h)))

theorem farmEff_canonical {s q w} (h : Canonical s) : Canonical (farmEff s q w) :=
  ite_canonical (holdHead_canonical h) (doneHead_canonical (armSlot_canonical (wr_canonical (wr_canonical (wr_canonical (wr_canonical (wr_canonical
    (countIssue_canonical h))))))))

theorem markReached_canonical {s q} (h : Canonical s) : Canonical (markReached s q) := ite_canonical (doneHead_canonical (countIssue_canonical h)) h

theorem timestampWrap_canonical {s} (h : Canonical s) : Canonical (timestampWrap s) :=
  emit_canonical (update_canonical (wr_canonical (update_canonical h)))

theorem timestampTick_canonical {s} (h : Canonical s) : Canonical (timestampTick s) :=
  ite_canonical (timestampWrap_canonical h) (update_canonical h)

theorem timestampCycle_canonical {s} (h : Canonical s) : Canonical (timestampCycle s) :=
  foldl_canonical (update_canonical h) timestampTick_canonical

theorem dcCycle_canonical {s} (h : Canonical s) : Canonical (dcCycle s) := wr_canonical (update_canonical h)

/-! ### Records -/

theorem storeWord_canonical {s da v} (h : Canonical s) : Canonical (State.storeWord s da v) := storePlain_canonical h

theorem writeRecord_canonical {s da ws} (h : Canonical s) : Canonical (writeRecord s da ws) :=
  storeWord_canonical (foldl_canonical h storeWord_canonical)

theorem waitRecord_canonical {s w} (h : Canonical s) : Canonical (State.waitRecord s w) := update_canonical h

theorem putRecord_canonical {s c q engine da ws} (h : Canonical s) : Canonical (putRecord s c q engine da ws).1 := by
  unfold putRecord
  split
  · exact emit_canonical h
  split
  · exact waitRecord_canonical h
  extract_lets
  split
  · exact wr_canonical (writeRecord_canonical h)
  · exact writeRecord_canonical h

theorem flushRecords_canonical {s} (h : Canonical s) : Canonical (flushRecords s) :=
  foldl_canonical (update_canonical h) fun h => by
    split
    · exact emit_canonical (by split <;> exact wr_canonical h)
    extract_lets
    split
    · exact wr_canonical (writeRecord_canonical h)
    · exact writeRecord_canonical h

end Sys2Proof.Machine
end

section
/-!
PROOFS. Memories stay canonical: the matrix and the convert engines.
-/
namespace Sys2Proof.Machine

/-! ### Quantisation -/

theorem setSlot_canonical {s k i x3} (h : Canonical s) : Canonical (State.setSlot s k i x3) := update_canonical h

theorem ownSlots_canonical {s k queue sl} (h : Canonical s) : Canonical (ownSlots s k queue sl) :=
  foldl_canonical h fun h => ite_canonical (setSlot_canonical h) h

theorem updateStats_canonical {s k da t} (h : Canonical s) : Canonical (updateStats s k da t) :=
  wrIf_canonical (foldl_canonical h storeWord_canonical)

theorem closeConversion_canonical {s k d sl ch t elems} (h : Canonical s) : Canonical (closeConversion s k d sl ch t elems) := by
  unfold closeConversion
  extract_lets s₁ s₂
  have hs₂ : Canonical s₂ := bump_canonical (bump_canonical (bump_canonical (foldl_canonical h setSlot_canonical)))
  exact ite_canonical (updateStats_canonical (wrIf_canonical hs₂)) (wrIf_canonical hs₂)

theorem thresholdFault_canonical {s k} (h : Canonical s) : Canonical (thresholdFault s k) :=
  ite_canonical (signalMC_canonical (wr_canonical h)) (wr_canonical h)

theorem descError_canonical {s k cause} (h : Canonical s) : Canonical (descError s k cause) := wr_canonical (wr_canonical h)

/-! ### Matrix engines -/

theorem setEng_canonical {s e g} (h : Canonical s) : Canonical (State.setEng s e g) := update_canonical h

theorem setConv_canonical {s k o} (h : Canonical s) : Canonical (State.setConv s k o) := update_canonical h

theorem setRun_canonical {s e r} (h : Canonical s) : Canonical (State.setRun s e r) := setEng_canonical h

theorem mxRecord_canonical {s e i ws} (h : Canonical s) : Canonical (mxRecord s e i ws) := wrIf_canonical (putRecord_canonical (bump_canonical h))

theorem mxRefuse_canonical {s e i r} (h : Canonical s) : Canonical (mxRefuse s e i r) := by
  unfold mxRefuse
  extract_lets s₁ s₂
  have hs₁ : Canonical s₁ := wr_canonical (wr_canonical h)
  have hs₂ : Canonical s₂ := by
    unfold s₂
    split
    · exact descError_canonical hs₁
    · exact hs₁
  exact mxRecord_canonical hs₂

theorem putWords_canonical {s who dwait ws} (h : Canonical s) : Canonical (putWords s who dwait ws).1 := by
  induction ws generalizing s with
  | nil => exact h
  | cons o r ih => exact ite_fst_canonical (ih (storeOut_canonical h)) (ih (ite_canonical (addWaiter_canonical h) h))

theorem handRow_canonical {s e r dwait ws} (h : Canonical s) : Canonical (handRow s e r dwait ws).1 := putWords_canonical h

theorem finishRow_canonical {s e r m els} (h : Canonical s) : Canonical (finishRow s e r m els).1 :=
  ite_fst_canonical (handRow_canonical h) (ite_fst_canonical (putWords_canonical h) (handRow_canonical h))

theorem swapIn_canonical {s e r} (h : Canonical s) : Canonical (swapIn s e r).1 :=
  wr_canonical (wr_canonical (wr_canonical (bump_canonical (setEng_canonical h))))

theorem stallBeat_canonical {s e r} (h : Canonical s) : Canonical (stallBeat s e r) := by
  unfold stallBeat
  split
  · extract_lets s₁
    have hs₁ : Canonical s₁ := ite_canonical (bump_canonical h) h
    exact ite_canonical (bump_canonical hs₁) hs₁
  exact h

theorem feedRow_canonical {s e r} (h : Canonical s) : Canonical (feedRow s e r).1 := by
  unfold feedRow
  extract_lets p k0 as escs lanes weight bank one res first blks zeroA zeroB src cnt s₁ last bank₁ src₁ r1 x
  have hs₁ : Canonical s₁ := wr_canonical (bump_canonical h)
  have hx : Canonical x.1 := ite_fst_canonical (finishRow_canonical hs₁) hs₁
  split
  · exact hx
  exact ite_fst_canonical hx (ite_fst_canonical hx (wr_canonical hx))

theorem beat_canonical {s e r} (h : Canonical s) : Canonical (beat s e r).1 := by
  unfold beat
  extract_lets feed stalled sh loaded
  have hloaded : Canonical loaded.1 := by
    unfold loaded
    split
    · exact setEng_canonical (stallBeat_canonical h)
    · exact stallBeat_canonical h
  exact ite_fst_canonical (feedRow_canonical (ite_fst_canonical (swapIn_canonical hloaded) hloaded)) hloaded

theorem foldStep_canonical {s e r} (h : Canonical s) : Canonical (foldStep s e r).1 := by
  unfold foldStep
  extract_lets
  split
  · exact h
  split
  · exact h
  exact ite_fst_canonical h (ite_fst_canonical h (ite_fst_canonical h (beat_canonical h)))

theorem foldRun_canonical {n s e r} (h : Canonical s) : Canonical (foldRun n s e r).1 := by
  induction n generalizing s r with
  | zero => exact h
  | succ n ih => exact ite_fst_canonical (ih (foldStep_canonical h)) (foldStep_canonical h)

theorem noteWarmup_canonical {s k} (h : Canonical s) : Canonical (noteWarmup s k) := wr_canonical (bump_canonical h)

theorem settleBusy_canonical {s e} (h : Canonical s) : Canonical (settleBusy s e) := wr_canonical h

theorem clearCur_canonical {s e} (h : Canonical s) : Canonical (clearCur s e) :=
  wr_canonical (wr_canonical (settleBusy_canonical (setEng_canonical h)))

theorem emptyShadow_canonical {s e} (h : Canonical s) : Canonical (emptyShadow s e) := setEng_canonical h

theorem driveCur_canonical {s e} (h : Canonical s) : Canonical (driveCur s e) := by
  unfold driveCur
  split
  · exact h
  · extract_lets
    split
    · exact setRun_canonical (foldRun_canonical h)
    split
    · exact setRun_canonical h
    split
    · exact clearCur_canonical (mxRefuse_canonical h)
    · exact setRun_canonical (foldRun_canonical (putWords_canonical (ite_canonical (noteWarmup_canonical h) h)))

theorem beginIns_canonical {s e i behind} (h : Canonical s) : Canonical (beginIns s e i behind) :=
  driveCur_canonical (wr_canonical (setRun_canonical (ite_canonical (emptyShadow_canonical h) h)))

theorem takeStaged_canonical {s e} (h : Canonical s) : Canonical (takeStaged s e) := by
  unfold takeStaged
  extract_lets
  split
  · exact h
  · exact beginIns_canonical (wr_canonical (setEng_canonical h))
  · exact ite_canonical (beginIns_canonical (wr_canonical (setEng_canonical h))) h

theorem drive_canonical {s e} (h : Canonical s) : Canonical (drive s e) := takeStaged_canonical (driveCur_canonical h)

theorem matmulEff_canonical {s q w} (h : Canonical s) : Canonical (matmulEff s q w) := by
  unfold matmulEff
  extract_lets k e par i g d sl s₁ s₂ s₃
  have hs₁ : Canonical s₁ := wr_canonical (countIssue_canonical h)
  have hs₂ : Canonical s₂ := ownSlots_canonical hs₁
  have hs₃ : Canonical s₃ := by
    unfold s₃
    split
    · exact mxRefuse_canonical hs₁
    · exact ite_canonical (takeStaged_canonical (wr_canonical (setEng_canonical hs₂))) (beginIns_canonical hs₂)
  split
  · exact holdHead_canonical h
  refine ite_canonical ?_ ?_
  · exact holdHead_canonical h
  exact ite_canonical (holdHead_canonical h) (doneHead_canonical hs₃)

theorem endRun_canonical {s e r} (h : Canonical s) : Canonical (endRun s e r) := by
  unfold endRun
  extract_lets p k d sl src t past s₁
  have hs₁ : Canonical s₁ := ite_canonical (closeConversion_canonical h) h
  exact mxRecord_canonical (ite_canonical (thresholdFault_canonical hs₁) hs₁)

theorem matmulComplete_canonical {s e} (h : Canonical s) : Canonical (matmulComplete s e) := by
  unfold matmulComplete
  extract_lets
  split
  · exact settleBusy_canonical (endRun_canonical (setEng_canonical h))
  · split
    · exact ite_canonical (takeStaged_canonical (clearCur_canonical (endRun_canonical h))) h
    · exact h

theorem resumeFold_canonical {s e beats r} (h : Canonical s) : Canonical (resumeFold s e beats r) :=
  drive_canonical (setRun_canonical (bump_canonical h))

theorem feedResume_canonical {s e beats} (h : Canonical s) : Canonical (feedResume s e beats) := by
  unfold feedResume
  split
  · exact ite_canonical (resumeFold_canonical h) h
  · exact h

theorem outputPathResume_canonical {s e beats} (h : Canonical s) : Canonical (outputPathResume s e beats) := by
  unfold outputPathResume
  split
  · exact ite_canonical (resumeFold_canonical h) h
  · exact h

theorem dWordWrite_canonical {s e da} (h : Canonical s) : Canonical (dWordWrite s e da) := by
  unfold dWordWrite
  extract_lets
  split
  · exact ite_canonical (setEng_canonical (storeOut_canonical (dropWaiter_canonical h))) h
  · exact h

theorem dutyWrite_canonical {s e v} (h : Canonical s) : Canonical (dutyWrite s e v) :=
  ite_canonical (throttleRefused_canonical (flagMC_canonical h)) (wr_canonical h)

theorem preempt_canonical {s e} (h : Canonical s) : Canonical (preempt s e) := by
  unfold preempt
  split
  · exact ite_canonical (wr_canonical h) h
  · exact h

theorem engineStop_canonical {s e} (h : Canonical s) : Canonical (engineStop s e) := by
  unfold engineStop
  split
  · exact ite_canonical (wr_canonical (wr_canonical (wr_canonical (wr_canonical h)))) h
  · exact h

theorem continueStopped_canonical {s e} (h : Canonical s) : Canonical (continueStopped s e) := by
  unfold continueStopped
  split
  · split
    · exact drive_canonical (setRun_canonical (emptyShadow_canonical (wr_canonical (wr_canonical h))))
    exact h
  · exact h

theorem dropOut_canonical {s e r} (h : Canonical s) : Canonical (dropOut s e r) := foldl_canonical h dropWaiter_canonical

theorem failRun_canonical {s e r} (h : Canonical s) : Canonical (failRun s e r) := by
  unfold failRun
  extract_lets nb fi s₁ s₂
  have hs₁ : Canonical s₁ := dropOut_canonical (wr_canonical h)
  have hs₂ : Canonical s₂ := by
    unfold s₂
    split
    · exact ite_canonical (dropWaiters_canonical (setConv_canonical hs₁)) hs₁
    · exact hs₁
  exact mxRecord_canonical hs₂

theorem dataError_canonical {s e older} (h : Canonical s) : Canonical (dataError s e older) := by
  unfold dataError
  extract_lets
  split
  · exact settleBusy_canonical (failRun_canonical (setEng_canonical h))
  · exact h
  · exact ite_canonical h (takeStaged_canonical (clearCur_canonical (failRun_canonical h)))
  · exact h

/-! ### Convert engines -/

theorem cvRecord_canonical {s k i ws} (h : Canonical s) : Canonical (cvRecord s k i ws) := wrIf_canonical (putRecord_canonical h)

theorem cvRefuse_canonical {s k kind i r} (h : Canonical s) : Canonical (cvRefuse s k kind i r) := by
  unfold cvRefuse
  extract_lets d s₁
  have hs₁ : Canonical s₁ := by
    unfold s₁
    split
    · exact descError_canonical h
    · exact h
  exact cvRecord_canonical hs₁

theorem cvFinish_canonical {s k o} (h : Canonical s) : Canonical (cvFinish s k o) := by
  unfold cvFinish
  extract_lets s₁ d g f s₂
  have hs₁ : Canonical s₁ := wr_canonical (setConv_canonical h)
  have hs₂ : Canonical s₂ := closeConversion_canonical hs₁
  split
  · exact setEng_canonical hs₁
  · exact cvRecord_canonical (fresh_canonical hs₁)
  · exact cvRecord_canonical (ite_canonical (thresholdFault_canonical hs₂) hs₂)

theorem cvDrive_canonical {s k} (h : Canonical s) : Canonical (cvDrive s k) := by
  unfold cvDrive
  split
  · exact h
  · split
    · exact h
    exact ite_canonical (cvFinish_canonical (putWords_canonical h)) (setConv_canonical (putWords_canonical h))

theorem cvBegin_canonical {s k o} (h : Canonical s) : Canonical (cvBegin s k o) := cvDrive_canonical (wr_canonical (setConv_canonical h))

theorem cvResume_canonical {s k n} (h : Canonical s) : Canonical (cvResume s k n) := by
  unfold cvResume
  split
  · exact h
  · split
    · exact cvDrive_canonical h
    split
    · exact h
    · refine ite_canonical ?_ ?_
      · extract_lets s₁
        have hs₁ : Canonical s₁ := storeOut_canonical (dropWaiter_canonical h)
        exact ite_canonical (cvFinish_canonical hs₁) (setConv_canonical hs₁)
      exact h

theorem convertEff_canonical {s q w} (h : Canonical s) : Canonical (convertEff s q w) := by
  unfold convertEff
  extract_lets k i dw d sl s₁ s₂ warm s₃ src s₄
  have hs₂ : Canonical s₂ := ownSlots_canonical (countIssue_canonical h)
  have hs₄ : Canonical s₄ := by
    unfold s₄
    split
    · exact cvRefuse_canonical (countIssue_canonical h)
    · exact cvBegin_canonical (ite_canonical (noteWarmup_canonical hs₂) hs₂)
  split
  · exact holdHead_canonical h
  exact ite_canonical (holdHead_canonical h) (doneHead_canonical hs₄)

theorem tableEff_canonical {s q w} (h : Canonical s) : Canonical (tableEff s q w) := by
  unfold tableEff
  extract_lets k i s₁ s₂
  have hs₂ : Canonical s₂ := by
    unfold s₂
    split
    · exact cvRefuse_canonical (countIssue_canonical h)
    · exact cvBegin_canonical (countIssue_canonical h)
  exact ite_canonical (holdHead_canonical h) (doneHead_canonical hs₂)

theorem spillConvert_canonical {s e} (h : Canonical s) : Canonical (spillConvert s e) := by
  unfold spillConvert
  extract_lets
  split
  · exact ite_canonical (cvBegin_canonical h) h
  · exact h

theorem setClearing_canonical {s k l} (h : Canonical s) : Canonical (State.setClearing s k l) := update_canonical h

theorem slotClear_canonical {s k} (h : Canonical s) : Canonical (slotClear s k) :=
  ite_canonical h (wr_canonical (wr_canonical (setClearing_canonical h)))

theorem slotClearEnd_canonical {s k j} (h : Canonical s) : Canonical (slotClearEnd s k j) := by
  unfold slotClearEnd
  split
  · extract_lets l s₁
    have hs₁ : Canonical s₁ := setClearing_canonical (setSlot_canonical h)
    exact ite_canonical (wrIf_canonical (wr_canonical hs₁)) hs₁
  exact h

theorem histClear_canonical {s k} (h : Canonical s) : Canonical (histClear s k) := ite_canonical h (wr_canonical (wr_canonical h))

theorem clearAllSlots_canonical {s k} (h : Canonical s) : Canonical (clearAllSlots s k) := update_canonical h

theorem histClearEnd_canonical {s k} (h : Canonical s) : Canonical (histClearEnd s k) :=
  ite_canonical (wrIf_canonical (wr_canonical (clearAllSlots_canonical h))) h

end Sys2Proof.Machine
end

section
/-!
PROOFS. Memories stay canonical: HBM and the CXL tier, packets, streams and batons.
-/
namespace Sys2Proof.Machine

/-! ### Memory -/

theorem setQueue_canonical {s pc l} (h : Canonical s) : Canonical (State.setQueue s pc l) := setMem_canonical h

theorem wakePc_canonical {s pc} (h : Canonical s) : Canonical (wakePc s pc) := by
  unfold wakePc
  split
  · exact wr_canonical h
  · exact bump_canonical (foldl_canonical h fun h => ite_canonical (wr_canonical h) h)
  · exact h

theorem hbmUncorrectable_canonical {s pc da write} (h : Canonical s) : Canonical (hbmUncorrectable s pc da write) := by
  unfold hbmUncorrectable
  extract_lets q s₁ s₂
  have hs₁ : Canonical s₁ := wr_canonical (bump_canonical h)
  have hs₂ : Canonical s₂ := ite_canonical hs₁ (wr_canonical (wr_canonical (wr_canonical (wr_canonical hs₁))))
  exact ite_canonical (owe_canonical (signalMC_canonical hs₂)) hs₂

theorem hbmCorrected_canonical {s pc} (h : Canonical s) : Canonical (hbmCorrected s pc) := wr_canonical (bump_canonical h)

theorem setWeak_canonical {s k v} (h : Canonical s) : Canonical (State.setWeak s k v) := setMem_canonical h

theorem hbmAtomRead_canonical {s atom ecc} (h : Canonical s) : Canonical (hbmAtomRead s atom ecc).1 := by
  unfold hbmAtomRead
  extract_lets
  split
  · exact bump_canonical (wakePc_canonical h)
  split
  · exact wakePc_canonical h
  · exact setWeak_canonical (hbmCorrected_canonical (wakePc_canonical h))
  · exact setWeak_canonical (hbmUncorrectable_canonical (wakePc_canonical h))

theorem hbmDrain_canonical {s pc panic} (h : Canonical s) : Canonical (hbmDrain s pc panic) := by
  unfold hbmDrain
  extract_lets
  split <;> exact ite_canonical (setQueue_canonical h) h

theorem hbmReadAtoms_canonical {s as ecc} (h : Canonical s) : Canonical (hbmReadAtoms s as ecc).1 := by
  induction as generalizing s ecc with
  | nil => exact h
  | cons a r ih => exact ih (hbmAtomRead_canonical h)

theorem countBytes_canonical {s c da n} (h : Canonical s) : Canonical (countBytes s c da n) :=
  foldl_canonical h fun h => ite_canonical h (bump_canonical h)

theorem hbmRead_canonical {s da n ecc} (h : Canonical s) : Canonical (hbmRead s da n ecc).1 :=
  ite_fst_canonical h (countBytes_canonical (hbmReadAtoms_canonical h))

theorem hbmAtomWrite_canonical {s da bs ecc panic} (h : Canonical s) : Canonical (hbmAtomWrite s da bs ecc panic).1 := by
  have hw {s} (h : Canonical s) : Canonical (s.setMem { s.mem with hbm := writeBytes s.mem.hbm (hbmKey s da) bs }) :=
    setMem_of_canonicalBytes h (canonicalBytes_writeBytes bs h.hbm) h.cxl
  exact ite_fst_canonical (setWeak_canonical (hbmUncorrectable_canonical (wakePc_canonical h)))
    (hbmDrain_canonical (setQueue_canonical
      (hw (setWeak_canonical (ite_canonical (hbmCorrected_canonical (wakePc_canonical h)) (wakePc_canonical h))))))

theorem hbmWriteAtoms_canonical {s panic ps ecc} (h : Canonical s) : Canonical (hbmWriteAtoms s panic ps ecc).1 := by
  induction ps generalizing s ecc with
  | nil => exact h
  | cons p r ih => exact ih (hbmAtomWrite_canonical h)

theorem hbmWrite_canonical {s da bs ecc panic} (h : Canonical s) : Canonical (hbmWrite s da bs ecc panic).1 :=
  ite_fst_canonical h (countBytes_canonical (hbmWriteAtoms_canonical h))

theorem xltEntry_canonical {s page entryDA} (h : Canonical s) : Canonical (xltEntry s page entryDA).1 := by
  unfold xltEntry
  split
  · exact h
  · extract_lets r v
    have hr : Canonical r.1 := hbmRead_canonical h
    clear_value r
    split
    · exact hr
    · exact ite_canonical (setMem_canonical hr) hr

theorem cxlTranslate_canonical {s off write} (h : Canonical s) : Canonical (cxlTranslate s off write).1 := by
  have hr (page e) : Canonical (xltEntry s page e).1 := xltEntry_canonical h
  -- The result has a name of its own: the kernel would unfold a comparison with `cxlBase` in a projection of it.
  generalize hp : cxlTranslate s off write = p
  unfold cxlTranslate at hp
  split at hp
  · exact hp ▸ h
  split at hp
  · split at hp
    · exact hp ▸ h
    extract_lets page r at hp
    split at hp
    · exact hp ▸ hr _ _
    · split at hp
      · exact hp ▸ hr _ _
      extract_lets da at hp
      split at hp
      · exact hp ▸ hr _ _
      split at hp <;> exact hp ▸ hr _ _
  · exact hp ▸ h

theorem cxlResolve_canonical {s off write} (h : Canonical s) : Canonical (cxlResolve s off write).1 := by
  unfold cxlResolve
  extract_lets
  split <;> exact cxlTranslate_canonical h

theorem cxlError_canonical {s} (h : Canonical s) : Canonical (cxlError s) := owe_canonical (bump_canonical h)

theorem cxlMiss_canonical {s} (h : Canonical s) : Canonical (cxlMiss s) := bump_canonical h

theorem cxlKeys_canonical {s off write n} (h : Canonical s) : Canonical (cxlKeys s off write n).1 := by
  induction n generalizing s off with
  | zero => exact h
  | succ n ih =>
    have hr := cxlResolve_canonical (off := off) (write := write) h
    unfold cxlKeys
    extract_lets
    split
    · exact hr
    · exact cxlMiss_canonical hr
    · exact cxlError_canonical hr
    · split <;> exact ih hr

theorem cxlRead_canonical {s off n ecc} (h : Canonical s) : Canonical (cxlRead s off n ecc).1 := by
  unfold cxlRead
  extract_lets
  split
  · exact cxlKeys_canonical h
  · exact ite_fst_canonical (cxlError_canonical (cxlKeys_canonical h)) (bump_canonical (cxlKeys_canonical h))

theorem cxlWrite_canonical {s off bs ecc} (h : Canonical s) : Canonical (cxlWrite s off bs ecc).1 := by
  unfold cxlWrite
  extract_lets r
  have hr : Canonical r.1 := cxlKeys_canonical h
  split
  · exact hr
  · exact ite_fst_canonical (cxlError_canonical hr) (bump_canonical (setMem_of_canonicalBytes hr hr.hbm (canonicalBytes_foldl_set _ hr.cxl)))

theorem hostRead_canonical {s n ext} (h : Canonical s) : Canonical (hostRead s n ext).1 :=
  ite_fst_canonical (bump_canonical h) (ite_fst_canonical (bump_canonical h) h)

theorem hostWrite_canonical {s da bs} (h : Canonical s) : Canonical (hostWrite s da bs).1 :=
  ite_fst_canonical (bump_canonical h) (emit_canonical (bump_canonical h))

theorem memRead_canonical {s da n a} (h : Canonical s) : Canonical (memRead s da n a).1 := by
  unfold memRead
  split
  · exact ite_fst_canonical (hbmRead_canonical h) h
  · exact ite_fst_canonical h h
  · exact ite_fst_canonical h h
  · exact cxlRead_canonical h
  · exact hostRead_canonical h
  · exact h
  · exact h

theorem memWrite_canonical {s da bs a} (h : Canonical s) : Canonical (memWrite s da bs a).1 := by
  unfold memWrite
  split
  · exact ite_fst_canonical (hbmWrite_canonical h) h
  · exact ite_fst_canonical h (storePlain_canonical h)
  · exact ite_fst_canonical h (storePlain_canonical h)
  · exact cxlWrite_canonical h
  · exact hostWrite_canonical h
  · exact h
  · exact h

theorem memNat_canonical {s da n} (h : Canonical s) : Canonical (memNat s da n).1 := memRead_canonical h

theorem hbmBandWrite_canonical {s j v} (h : Canonical s) : Canonical (hbmBandWrite s j v) :=
  ite_canonical (wr_canonical h) (wrClamped_canonical (wr_canonical h))

theorem patrolScrub_canonical {s pc addr ecc panic} (h : Canonical s) : Canonical (patrolScrub s pc addr ecc panic) := by
  unfold patrolScrub
  split
  · split
    · exact h
    · exact setWeak_canonical (hbmCorrected_canonical h)
    · exact setWeak_canonical (hbmUncorrectable_canonical h)
  exact h

theorem refresh_canonical {s pc bank panic} (h : Canonical s) : Canonical (refresh s pc bank panic) := by
  unfold refresh
  extract_lets
  split
  · exact setMem_canonical h
  exact ite_canonical (setMem_canonical h) (wr_canonical (bump_canonical h))

theorem hbmCycle_canonical {s} (h : Canonical s) : Canonical (hbmCycle s) := by
  unfold hbmCycle
  extract_lets pcs s₁
  have hs₁ : Canonical s₁ := foldl_canonical h fun h => ite_canonical (bump_canonical h) h
  exact ite_canonical hs₁ (setMem_canonical hs₁)

theorem powerDown_canonical {s pc panic} (h : Canonical s) : Canonical (powerDown s pc panic) := ite_canonical (bump_canonical (wr_canonical h)) h

theorem selfRefresh_canonical {s stack} (h : Canonical s) : Canonical (selfRefresh s stack) := ite_canonical (foldl_canonical h wr_canonical) h

theorem setTraining_canonical {s k v} (h : Canonical s) : Canonical (State.setTraining s k v) := setMem_canonical h

theorem hbmTraining_canonical {s q bad} (h : Canonical s) : Canonical (hbmTraining s q bad) :=
  ite_canonical h (wr_canonical (wr_canonical (foldl_canonical h setTraining_canonical)))

theorem stackTrained_canonical {s q k margins dTemp failed} (h : Canonical s) : Canonical (stackTrained s q k margins dTemp failed) := by
  unfold stackTrained
  extract_lets stack st m s₁ low fail s₂
  have hs₁ : Canonical s₁ := foldl_canonical h wr_canonical
  have hs₂ : Canonical s₂ := foldl_canonical hs₁ wr_canonical
  split
  · exact h
  split
  · exact setTraining_canonical (wr_canonical hs₁)
  exact setTraining_canonical (setMem_canonical (ite_canonical (owe_canonical (setBit_canonical hs₂)) (clearBit_canonical hs₂)))

theorem trainingDone_canonical {s q margins dTemps failed} (h : Canonical s) : Canonical (trainingDone s q margins dTemps failed) := by
  unfold trainingDone
  split
  · exact h
  extract_lets s₁ worst s₂
  have hs₂ : Canonical s₂ := wr_canonical (wr_canonical (foldl_canonical h stackTrained_canonical))
  exact ite_canonical (wr_canonical (wr_canonical hs₂)) hs₂

theorem cxlWinCfgWrite_canonical {s w v} (h : Canonical s) : Canonical (cxlWinCfgWrite s w v) := by
  unfold cxlWinCfgWrite
  extract_lets en same s₁ base s₂ s₃ s₄
  have hs₄ : Canonical s₄ := wrClamped_canonical (wr_canonical (wr_canonical (wr_canonical (wr_canonical (wr_canonical h)))))
  split
  · split
    · exact wr_canonical (wrIf_canonical h)
    exact ite_canonical (wr_canonical (wrIf_canonical h)) (wr_canonical (wrIf_canonical h))
  exact ite_canonical (wr_canonical hs₄) hs₄

theorem prqPop_canonical {s} (h : Canonical s) : Canonical (prqPop s) := by
  unfold prqPop
  split
  · exact emit_canonical h
  · exact emit_canonical (wr_canonical (setMem_canonical h))

theorem xltInv_canonical {s v} (h : Canonical s) : Canonical (xltInv s v) := wr_canonical (setMem_canonical h)

theorem xltInvDone_canonical {s} (h : Canonical s) : Canonical (xltInvDone s) := ite_canonical h (wr_canonical (setMem_canonical h))

theorem cxlLinkUp_canonical {s p speed width ltssm} (h : Canonical s) : Canonical (cxlLinkUp s p speed width ltssm) := by
  unfold cxlLinkUp
  split
  · exact h
  exact flagMC_canonical (wr_canonical (setBit_canonical (wr_canonical (wr_canonical (wr_canonical h)))))

theorem markDown_canonical {s p} (h : Canonical s) : Canonical (markDown s p) :=
  foldl_canonical h fun h => ite_canonical h (foldl_canonical h fun h => ite_canonical (setBit_canonical h) h)

/-! ### Packets -/

theorem setNoc_canonical {s n} (h : Canonical s) : Canonical (State.setNoc s n) := update_canonical h

theorem probeMatch_canonical {s n x2 p wait} (h : Canonical s) : Canonical (probeMatch s n x2 p wait) := by
  unfold probeMatch
  extract_lets v s₁
  have hs₁ : Canonical s₁ := ite_canonical (bumpTo_canonical h) (wr_canonical h)
  split
  · exact hs₁
  exact ite_canonical (setNoc_canonical hs₁) (setNoc_canonical hs₁)

theorem seePacket_canonical {s p hops waits} (h : Canonical s) : Canonical (seePacket s p hops waits) := foldl_canonical h probeMatch_canonical

theorem misroute_canonical {s q} (h : Canonical s) : Canonical (misroute s q) := wr_canonical (bump_canonical h)

theorem linkError_canonical {s p e q} (h : Canonical s) : Canonical (linkError s p e q).1 := by
  unfold linkError
  split
  · exact h
  · exact wr_canonical (bump_canonical h)
  · exact flagMC_canonical (bump_canonical h)
  · exact flagMC_canonical (bump_canonical h)

theorem crossLinks_canonical {s p ls es} (h : Canonical s) : Canonical (crossLinks s p ls es).1 := by
  induction ls generalizing s es with
  | nil => exact h
  | cons l r ih =>
    have he := linkError_canonical (p := p) (e := es.headD 0) (q := quarterOfDie l.2 l.1)
      (ite_canonical (c := l.1 < 4) (bump_canonical (c := C.NOC_FLIT_CNT) (i := l.1) (n := p.flits) h) h)
    exact ite_fst_canonical he (ih he)

theorem setAsleep_canonical {s q d v} (h : Canonical s) : Canonical (setAsleep s q d v) := by
  unfold setAsleep
  extract_lets
  split
  · exact ite_canonical (setBit_canonical h) (clearBit_canonical h)
  split <;> exact ite_canonical (setBit_canonical h) (clearBit_canonical h)

theorem markBusy_canonical {s ds} (h : Canonical s) : Canonical (markBusy s ds) := setNoc_canonical h

theorem travel_canonical {s p} (h : Canonical s) : Canonical (travel s p).1 := by
  unfold travel
  extract_lets r l s₁
  have hs₁ : Canonical s₁ := seePacket_canonical (crossLinks_canonical (markBusy_canonical h))
  exact ite_fst_canonical hs₁ (ite_fst_canonical hs₁ hs₁)

theorem carry_canonical {s p} (h : Canonical s) : Canonical (carry s p).1 := by
  unfold carry
  split
  · exact misroute_canonical h
  split
  · exact wr_canonical (setNoc_canonical h)
  · exact setNoc_canonical h
  · exact travel_canonical h

theorem openReq_canonical {s p ctl} (h : Canonical s) : Canonical (openReq s p ctl) := ite_canonical h (setNoc_canonical h)

theorem respond_canonical {s p cls op da words status data} (h : Canonical s) : Canonical (respond s p cls op da words status data) :=
  setNoc_canonical h

theorem mapOpen_canonical {s src txn write ctl f} (h : Canonical s) : Canonical (mapOpen s src txn write ctl f) := setNoc_canonical h

theorem showPort_canonical {s n} (h : Canonical s) : Canonical (showPort s n) := wr_canonical (wr_canonical (wr_canonical h))

theorem deliverPort_canonical {f s n write} (h : Canonical s) : Canonical (deliverPort f s n write) := by
  induction f generalizing s with
  | zero => exact h
  | succ f ih =>
    unfold deliverPort
    extract_lets
    split
    · have hs (n) : Canonical (s.setNoc n) := setNoc_canonical h
      exact ite_canonical (showPort_canonical h)
        (ih (ite_canonical (hs _) (ite_canonical (emit_canonical (hs _)) (bump_canonical (emit_canonical (hs _))))))
    · exact showPort_canonical h

theorem markSent_canonical {s p ctl} (h : Canonical s) : Canonical (markSent s p ctl) := mapOpen_canonical h

theorem completeError_canonical {s src txn write ctl} (h : Canonical s) : Canonical (completeError s src txn write ctl) := by
  unfold completeError
  split
  · exact h
  · split
    · exact deliverPort_canonical (mapOpen_canonical h)
    · extract_lets s₁
      have hs₁ : Canonical s₁ := emit_canonical (mapOpen_canonical h)
      split
      · exact wr_canonical hs₁
      · exact hs₁

theorem setRemote_canonical {s k r} (h : Canonical s) : Canonical (setRemote s k r) := update_canonical h

theorem passBy_canonical {s p} (h : Canonical s) : Canonical (passBy s p) := ite_canonical (travel_canonical h) h

/-! ### Stream engines -/

theorem setStream_canonical {s g x} (h : Canonical s) : Canonical (State.setStream s g x) := update_canonical h

theorem setStmSet_canonical {s g k a} (h : Canonical s) : Canonical (State.setStmSet s g k a) := setStream_canonical h

theorem stmShow_canonical {s g} (h : Canonical s) : Canonical (stmShow s g) := by
  unfold stmShow
  extract_lets x s₁ s₂ s₃ s₄
  have hs₁ : Canonical s₁ := wr_canonical (wr_canonical h)
  have hs₃ : Canonical s₃ := ite_canonical (wr_canonical (wr_canonical (wr_canonical (wr_canonical hs₁)))) (wr_canonical hs₁)
  have hs₄ : Canonical s₄ := ite_canonical (wr_canonical (wr_canonical (wr_canonical hs₃))) hs₃
  exact ite_canonical (wr_canonical hs₄) (wr_canonical (wr_canonical hs₄))

theorem streamTry_canonical {s g k mode store ws} (h : Canonical s) : Canonical (streamTry s g k mode store ws).1 :=
  ite_fst_canonical (dropWaiter_canonical h) (ite_fst_canonical h (addWaiter_canonical h))

theorem setFail_canonical {s g k f} (h : Canonical s) : Canonical (setFail s g k f) := by
  unfold setFail
  extract_lets
  split
  · exact h
  split
  · exact ite_canonical h (setStmSet_canonical h)
  · exact setStmSet_canonical h

theorem readBurst_canonical {s g k b} (h : Canonical s) : Canonical (readBurst s g k b) := by
  unfold readBurst
  extract_lets
  split
  · exact h
  split
  · exact memRead_canonical h
  · exact setStmSet_canonical (memRead_canonical h)

theorem streamEff_canonical {s q w} (h : Canonical s) : Canonical (streamEff s q w) := by
  unfold streamEff
  extract_lets core g k list count s₁ src a x s₂
  have hs₂ : Canonical s₂ := setStream_canonical (countIssue_canonical h)
  exact ite_canonical (holdHead_canonical h) (doneHead_canonical (stmShow_canonical (ite_canonical (readBurst_canonical hs₂) hs₂)))

theorem urgencyUpdate_canonical {s g k j} (h : Canonical s) : Canonical (urgencyUpdate s g k j) :=
  ite_canonical h (stmShow_canonical (ite_canonical (wr_canonical (wr_canonical (setStmSet_canonical h))) (setStmSet_canonical h)))

theorem streamLate_canonical {s g k j} (h : Canonical s) : Canonical (streamLate s g k j) :=
  ite_canonical h (lateRecord_canonical (urgencyUpdate_canonical (flagMC_canonical (setStmSet_canonical h))))

theorem translateSide_canonical {s da write} (h : Canonical s) : Canonical (translateSide s da write).1 := by
  unfold translateSide
  split
  · extract_lets
    split <;> exact cxlTranslate_canonical h
  · exact ite_fst_canonical h (ite_fst_canonical h h)
  · exact h

theorem translateParts_canonical {s ps} (h : Canonical s) : Canonical (translateParts s ps).1 := by
  induction ps generalizing s with
  | nil => exact h
  | cons p r ih =>
    unfold translateParts
    extract_lets x y
    have hx : Canonical x.1 := translateSide_canonical h
    have hy : Canonical y.1 := ite_fst_canonical (translateSide_canonical hx) hx
    split
    · split
      · exact ih hy
      · exact hy
    · exact hx

theorem askHost_canonical {s page} (h : Canonical s) : Canonical (askHost s page) :=
  ite_canonical h (emit_canonical (bump_canonical (update_canonical h)))

theorem readEntries_canonical {s g k j} (h : Canonical s) : Canonical (readEntries s g k j) := by
  unfold readEntries
  extract_lets
  split
  · exact h
  split
  · exact setFail_canonical h
  exact ite_canonical (streamTry_canonical h) (setStmSet_canonical (feLeave_canonical (streamTry_canonical h)))

theorem walkTo_canonical {s g k j p} (h : Canonical s) : Canonical (walkTo s g k j p) := by
  unfold walkTo
  extract_lets
  split
  · exact setStmSet_canonical h
  exact ite_canonical (setStmSet_canonical h) (setStream_canonical (setStmSet_canonical h))

theorem putIssued_canonical {s g k j p parts after xl} (h : Canonical s) : Canonical (putIssued s g k j p parts after xl) :=
  setStmSet_canonical (foldl_canonical (urgencyUpdate_canonical (walkTo_canonical h)) wakePc_canonical)

theorem issueNext_canonical {s g k j p} (h : Canonical s) : Canonical (issueNext s g k j p) := by
  unfold issueNext
  extract_lets
  split
  · exact setFail_canonical (fresh_canonical h)
  split
  · exact readEntries_canonical h
  split
  · exact setFail_canonical (fresh_canonical h)
  split
  · exact setFail_canonical (fresh_canonical h)
  split
  · exact walkTo_canonical h
  · split
    · exact putIssued_canonical (translateParts_canonical h)
    · exact translateParts_canonical h
    · split
      · exact askHost_canonical (translateParts_canonical h)
      · exact translateParts_canonical h

theorem transferIssue_canonical {s g} (h : Canonical s) : Canonical (transferIssue s g) := by
  unfold transferIssue
  split
  · exact h
  split
  · exact h
  · extract_lets a j f s₁
    have hs₁ : Canonical s₁ := ite_canonical (readBurst_canonical h) h
    split
    · exact stmShow_canonical (walkTo_canonical h)
    split
    · exact setFail_canonical (fresh_canonical h)
    split
    · exact setFail_canonical hs₁
    exact stmShow_canonical (issueNext_canonical (ite_canonical (readBurst_canonical hs₁) hs₁))

theorem setIssued_canonical {s g k j p f} (h : Canonical s) : Canonical (setIssued s g k j p f) := setStmSet_canonical h

theorem withdrawLines_canonical {s g k i} (h : Canonical s) : Canonical (withdrawLines s g k i) := ite_canonical h (setStmSet_canonical h)

theorem failTransfer_canonical {s g k cause i} (h : Canonical s) : Canonical (failTransfer s g k cause i) :=
  setFail_canonical (setIssued_canonical (withdrawLines_canonical h))

theorem readParts_canonical {s xl ext ecc panic ps} (h : Canonical s) : Canonical (readParts s xl ext ecc panic ps).1 := by
  induction ps generalizing s ext ecc with
  | nil => exact h
  | cons p r ih => exact ih (memRead_canonical h)

theorem serveOpen_canonical {s r} (h : Canonical s) : Canonical (serveOpen s r) := by
  unfold serveOpen
  split
  · exact setIssued_canonical h
  · exact h

theorem serveBefore_canonical {s ds q earlier} (h : Canonical s) : Canonical (serveBefore s ds q earlier) := foldl_canonical h serveOpen_canonical

theorem readComplete_canonical {s g k j p ext ecc} (h : Canonical s) : Canonical (readComplete s g k j p ext ecc) := by
  unfold readComplete
  split
  · exact h
  · extract_lets q s₁ d total done ws r bs r₁
    have hs₁ : Canonical s₁ := ite_canonical (serveBefore_canonical h) h
    have hr : Canonical r.1 := streamTry_canonical hs₁
    have hr₁ : Canonical r₁.1 := readParts_canonical hs₁
    split
    · exact hs₁
    · split
      · split
        · exact hs₁
        split
        · exact failTransfer_canonical hs₁
        split
        · exact hr
        exact bump_canonical (setIssued_canonical (feLeave_canonical hr))
      split
      · exact failTransfer_canonical hr₁
      · exact bump_canonical (setIssued_canonical hr₁)

theorem writeRuns_canonical {s xl ecc panic rs} (h : Canonical s) : Canonical (writeRuns s xl ecc panic rs).1 := by
  induction rs generalizing s ecc with
  | nil => exact h
  | cons p r ih => exact ih (memWrite_canonical h)

/-- A request that is answered with an error leaves HBM and the CXL tier as they were. -/
theorem writeAll_canonical {s g k j xl ecc runs} (h : Canonical s) : Canonical (writeAll s g k j xl ecc runs).1 := by
  unfold writeAll
  extract_lets q ds s₁ r
  have hs₁ : Canonical s₁ := serveBefore_canonical h
  have hr : Canonical r.1 := writeRuns_canonical hs₁
  exact ite_fst_canonical hr (setMem_of_canonicalBytes hr hs₁.hbm hs₁.cxl)

theorem refreshCkpt_canonical {s g k j} (h : Canonical s) : Canonical (refreshCkpt s g k j) :=
  ite_canonical (wr_canonical (setStmSet_canonical h)) h

theorem countDelivered_canonical {s g k j n} (h : Canonical s) : Canonical (countDelivered s g k j n) :=
  refreshCkpt_canonical (bump_canonical (setStmSet_canonical h))

theorem markDelivered_canonical {s g k j line n} (h : Canonical s) : Canonical (markDelivered s g k j line n) :=
  ite_canonical (countDelivered_canonical (setStmSet_canonical h)) (setStmSet_canonical h)

theorem sendTransfer_canonical {s g k j x w} (h : Canonical s) : Canonical (sendTransfer s g k j x w) :=
  foldl_canonical (setRemote_canonical h) emit_canonical

theorem deliverRemote_canonical {s g k j line n runs} (h : Canonical s) : Canonical (deliverRemote s g k j line n runs) :=
  ite_canonical h (foldl_canonical (markDelivered_canonical h) sendTransfer_canonical)

theorem lineDelivery_canonical {s g k j line ecc} (h : Canonical s) : Canonical (lineDelivery s g k j line ecc) := by
  unfold lineDelivery
  extract_lets a d xs slots begun fails
  have hfails {s} (h : Canonical s) : Canonical (fails s) := by
    unfold fails
    clear_value xs
    split
    · exact failTransfer_canonical h
    · exact h
  split
  · exact h
  · split
    · exact h
    extract_lets
    split
    · exact deliverRemote_canonical h
    split
    · exact hfails h
    split
    · split
      · exact h
      split
      · exact hfails h
      exact ite_canonical (streamTry_canonical h) (markDelivered_canonical (fillWords_canonical (foldl_canonical (serveBefore_canonical
        (streamTry_canonical h)) commit_canonical)))
    split
    · exact markDelivered_canonical (writeAll_canonical h)
    · exact ite_canonical h (hfails (writeAll_canonical h))

theorem writeAck_canonical {s g k j p ecc} (h : Canonical s) : Canonical (writeAck s g k j p ecc) := by
  unfold writeAck
  extract_lets
  split
  · exact h
  · split
    · exact h
    extract_lets open_ cells runs wss r
    have hr : Canonical r.1 := foldl_fst_canonical h fun h => (streamTry_canonical h)
    split
    · exact setIssued_canonical h
    split
    · exact h
    split
    · split
      · exact h
      split
      · exact failTransfer_canonical h
      split
      · exact hr
      exact countDelivered_canonical (setIssued_canonical (foldl_canonical hr commit_canonical))
    split
    · exact countDelivered_canonical (setIssued_canonical (writeAll_canonical h))
    exact failTransfer_canonical (writeAll_canonical h)

theorem endSet_canonical {s g k} (h : Canonical s) : Canonical (endSet s g k) := stmShow_canonical (dropWaiters_canonical (setStream_canonical h))

theorem descriptorComplete_canonical {s g k j} (h : Canonical s) : Canonical (descriptorComplete s g k j) := by
  unfold descriptorComplete
  extract_lets a d b s₁ s₂
  have hs₁ : Canonical s₁ := bump_canonical (setStmSet_canonical h)
  have hs₂ : Canonical s₂ := ite_canonical (arriveFrom_canonical hs₁) hs₁
  split
  · exact h
  exact ite_canonical (endSet_canonical hs₂) (stmShow_canonical hs₂)

theorem showCkpt_canonical {s g ws} (h : Canonical s) : Canonical (showCkpt s g ws) :=
  wr_canonical (wr_canonical (wr_canonical (wr_canonical (wr_canonical (wr_canonical (wr_canonical (wr_canonical h)))))))

theorem stopWith_canonical {s g k state ws} (h : Canonical s) : Canonical (stopWith s g k state ws) :=
  stmShow_canonical (wr_canonical (showCkpt_canonical (setStream_canonical (setStmSet_canonical h))))

theorem setPciGroups_canonical {s l} (h : Canonical s) : Canonical (setPciGroups s l) := wr_canonical (update_canonical h)

theorem askPage_canonical {s g ga write} (h : Canonical s) : Canonical (askPage s g ga write).1 := by
  unfold askPage
  split
  · exact emit_canonical (setStream_canonical (bump_canonical (setPciGroups_canonical h)))
  · exact setStream_canonical h

theorem askTier_canonical {s g ga write} (h : Canonical s) : Canonical (askTier s g ga write).1 := by
  unfold askTier
  split
  · exact flagMC_canonical (setMem_canonical h)
  · exact setStream_canonical h

theorem noteGroup_canonical {s g n} (h : Canonical s) : Canonical (noteGroup s g n) := by
  unfold noteGroup
  split
  · exact h
  · exact showCkpt_canonical (setStmSet_canonical h)

theorem nextRequest_canonical {s host} (h : Canonical s) : Canonical (nextRequest s host) := by
  unfold nextRequest
  split
  · exact h
  · split
    · exact h
    · exact noteGroup_canonical (ite_fst_canonical (askPage_canonical h) (askTier_canonical h))

theorem translationFault_canonical {s g} (h : Canonical s) : Canonical (translationFault s g) := by
  unfold translationFault
  split
  · exact h
  split
  · exact h
  · extract_lets
    split
    · exact h
    split
    · exact h
    · extract_lets host s₁
      have hs₁ : Canonical s₁ := ite_canonical (update_canonical h) (cxlMiss_canonical h)
      split
      · exact h
      split
      · exact emit_canonical (setFail_canonical hs₁)
      exact stopWith_canonical (ite_fst_canonical (askPage_canonical (bump_canonical hs₁)) (askTier_canonical (bump_canonical hs₁)))

theorem transferError_canonical {s g k j p} (h : Canonical s) : Canonical (transferError s g k j p) := by
  unfold transferError
  extract_lets
  split
  · exact h
  · exact ite_canonical (failTransfer_canonical h) (ite_canonical (failTransfer_canonical h) h)

theorem stopFlag_canonical {s g cause} (h : Canonical s) : Canonical (stopFlag s g cause) := by
  unfold stopFlag
  extract_lets
  split
  · exact flagMC_canonical (wr_canonical h)
  exact ite_canonical (flagMC_canonical (wr_canonical h)) (flagMC_canonical (wr_canonical h))

theorem setStop_canonical {s g k} (h : Canonical s) : Canonical (setStop s g k) := by
  unfold setStop
  extract_lets
  split
  · exact ite_canonical (endSet_canonical h) h
  split
  · exact h
  · exact ite_canonical h (stopFlag_canonical (stopWith_canonical h))

theorem dropGroups_canonical {s g} (h : Canonical s) : Canonical (dropGroups s g) := updateMem_canonical h

theorem resumeSet_canonical {s g} (h : Canonical s) : Canonical (resumeSet s g) := by
  unfold resumeSet
  extract_lets
  split
  · exact h
  · exact stmShow_canonical (dropGroups_canonical (setStream_canonical h))

theorem abandonSet_canonical {s g} (h : Canonical s) : Canonical (abandonSet s g) := by
  unfold abandonSet
  extract_lets x s₁
  have hs₁ : Canonical s₁ := dropGroups_canonical (setStream_canonical h)
  split
  · exact h
  · extract_lets
    split
    · exact emit_canonical (endSet_canonical hs₁)
    exact emit_canonical (stmShow_canonical (setStream_canonical hs₁))

theorem groupAnswered_canonical {s g success} (h : Canonical s) : Canonical (groupAnswered s g success) := by
  unfold groupAnswered
  extract_lets
  split
  · exact ite_canonical h (ite_canonical (resumeSet_canonical h) (setFail_canonical h))
  · exact h

theorem resetStream_canonical {s g} (h : Canonical s) : Canonical (resetStream s g) :=
  dropGroups_canonical (dropWaiters_canonical (dropWaiters_canonical (setStream_canonical h)))

theorem cxlPrqResp_canonical {s n success} (h : Canonical s) : Canonical (cxlPrqResp s n success) := by
  unfold cxlPrqResp
  split
  · exact h
  · extract_lets src s₁ s₂
    have hs₂ : Canonical s₂ := by
      unfold s₂
      split
      · exact groupAnswered_canonical (setMem_canonical h)
      · exact setMem_canonical h
    exact nextRequest_canonical hs₂

/-! ### Batons -/

theorem fePortLoad_canonical {s c} (h : Canonical s) : Canonical (fePortLoad s c) := by
  unfold fePortLoad
  extract_lets
  split
  · exact emit_canonical h
  split
  · exact h
  exact ite_canonical (emit_canonical (feLeave_canonical h)) (emit_canonical (wr_canonical h))

theorem fePortStore_canonical {s c v} (h : Canonical s) : Canonical (fePortStore s c v) := by
  unfold fePortStore
  extract_lets
  split
  · exact emit_canonical h
  split
  · exact h
  exact ite_canonical (feLeave_canonical (commit_canonical h)) (wr_canonical h)

theorem batonEff_canonical {s q w} (h : Canonical s) : Canonical (batonEff s q w) := doneHead_canonical (emit_canonical (countIssue_canonical h))

theorem setWindowQueue_canonical {s w l} (h : Canonical s) : Canonical (setWindowQueue s w l) :=
  wr_canonical (wr_canonical (wr_canonical (update_canonical h)))

theorem releaseBaton_canonical {s x1 b} (h : Canonical s) : Canonical (releaseBaton s x1 b) :=
  arrive_canonical (wr_canonical (wr_canonical (bump_canonical h)))

theorem dropBaton_canonical {s c f} (h : Canonical s) : Canonical (dropBaton s c f) := by
  unfold dropBaton
  extract_lets s₁
  have hs₁ : Canonical s₁ := wr_canonical (bump_canonical h)
  exact ite_canonical (signalMC_canonical hs₁) hs₁

theorem batonAtHurdle_canonical {s x1 b} (h : Canonical s) : Canonical (batonAtHurdle s x1 b) := by
  unfold batonAtHurdle
  extract_lets
  split
  · exact dropBaton_canonical h
  split
  · exact holdOp_canonical h
  split
  · exact releaseBaton_canonical h
  split
  · exact dropBaton_canonical h
  exact ite_canonical (dropBaton_canonical h) (setWindowQueue_canonical h)

theorem batonArrives_canonical {s b port} (h : Canonical s) : Canonical (batonArrives s b port) := by
  unfold batonArrives
  split
  · exact batonAtHurdle_canonical h
  · split
    · exact dropBaton_canonical h
    · split
      · exact signalMC_canonical (bump_canonical h)
      · exact h

theorem batonRelease_canonical {s w} (h : Canonical s) : Canonical (batonRelease s w) := by
  unfold batonRelease
  split
  · exact h
  · split
    · exact h
    · exact ite_canonical h (releaseBaton_canonical (setWindowQueue_canonical (wr_canonical h)))

theorem winWrite_canonical {s w isLen v} (h : Canonical s) : Canonical (winWrite s w isLen v) :=
  ite_canonical (wr_canonical (wr_canonical h)) (wr_canonical (wr_canonical (wr_canonical h)))

theorem applyHeld_canonical {s o} (h : Canonical s) : Canonical (applyHeld s o) := by
  unfold applyHeld
  split
  · exact arriveFor_canonical h
  · exact arrive_canonical h
  · exact batonAtHurdle_canonical h

theorem openTable_canonical {s c} (h : Canonical s) : Canonical (openTable s c) := foldl_canonical (update_canonical h) applyHeld_canonical

end Sys2Proof.Machine
end

section
/-!
PROOFS. Memories stay canonical: scalar and vector instructions, contexts and what a reset clears.
-/
namespace Sys2Proof.Machine

/-! ### Scalar instructions -/

theorem scalWrite_canonical {s q w v} (h : Canonical s) : Canonical (scalWrite s q w v) :=
  doneHead_canonical (setS_canonical (countIssue_canonical h))

theorem scalArith_canonical {op s q w} (h : Canonical s) : Canonical (scalArith op s q w) := scalWrite_canonical h

theorem loopEff_canonical {s q w} (h : Canonical s) : Canonical (loopEff s q w) := by
  unfold loopEff
  extract_lets n pc s₁
  have hs₁ : Canonical s₁ := unhold_canonical (countIssue_canonical h)
  split
  · exact advanceFrom_canonical hs₁
  exact wr_canonical (setLoops_canonical hs₁)

theorem lidxEff_canonical {s q w} (h : Canonical s) : Canonical (lidxEff s q w) := by
  unfold lidxEff
  split <;> exact scalWrite_canonical h

theorem brEff_canonical {s q w} (h : Canonical s) : Canonical (brEff s q w) := by
  unfold brEff
  split
  · exact wr_canonical (setLoops_canonical (unhold_canonical (countIssue_canonical h)))
  exact doneHead_canonical (countIssue_canonical h)

theorem scalAccess_canonical {s q w} (h : Canonical s) : Canonical (scalAccess s q w) := by
  unfold scalAccess
  extract_lets
  split
  · exact faultQueue_canonical (countIssue_canonical h)
  exact doneHead_canonical (feLeave_canonical (ite_canonical (commit_canonical (countIssue_canonical h)) (setS_canonical (countIssue_canonical h))))

theorem scalMem_canonical {s q w} (h : Canonical s) : Canonical (scalMem s q w) := by
  unfold scalMem
  extract_lets
  split
  · exact holdHead_canonical h
  exact ite_canonical (scalAccess_canonical h) (holdHead_canonical (addWaiter_canonical h))

theorem fenceEff_canonical {s q} (h : Canonical s) : Canonical (fenceEff s q) :=
  ite_canonical (holdHead_canonical h) (doneHead_canonical (countIssue_canonical h))

theorem haltEff_canonical {s q} (h : Canonical s) : Canonical (haltEff s q) := wr_canonical (doneHead_canonical (countIssue_canonical h))

theorem signalEff_canonical {s q} (h : Canonical s) : Canonical (signalEff s q) := doneHead_canonical (flagMC_canonical (countIssue_canonical h))

theorem queueFault_canonical {s q} (h : Canonical s) : Canonical (queueFault s q) := by
  unfold queueFault
  split
  · split
    · exact faultQueue_canonical h
    · exact h
  exact h

/-! ### Vector instructions -/

theorem setVop_canonical {s q v} (h : Canonical s) : Canonical (State.setVop s q v) := update_canonical h

theorem countLanes_canonical {s q ls writes} (h : Canonical s) : Canonical (countLanes s q ls writes) := bump_canonical (setVop_canonical h)

theorem vecDone_canonical {s q ls} (h : Canonical s) : Canonical (vecDone s q ls) :=
  doneHead_canonical (countLanes_canonical (countIssue_canonical h))

theorem vecMap_canonical {s q w f} (h : Canonical s) : Canonical (vecMap s q w f) := vecDone_canonical (setV_canonical h)

theorem vecArithEff_canonical {op s q w} (h : Canonical s) : Canonical (vecArithEff op s q w) := vecMap_canonical h

theorem vfmaEff_canonical {s q w} (h : Canonical s) : Canonical (vfmaEff s q w) := vecMap_canonical h

theorem vdivEff_canonical {s q w} (h : Canonical s) : Canonical (vdivEff s q w) := vecMap_canonical h

theorem vsqrtEff_canonical {s q w} (h : Canonical s) : Canonical (vsqrtEff s q w) := vecMap_canonical h

theorem vminmaxEff_canonical {wantMax s q w} (h : Canonical s) : Canonical (vminmaxEff wantMax s q w) := vecMap_canonical h

theorem vsignEff_canonical {neg s q w} (h : Canonical s) : Canonical (vsignEff neg s q w) := vecMap_canonical h

theorem vcmpEff_canonical {s q w} (h : Canonical s) : Canonical (vcmpEff s q w) := vecDone_canonical (setP_canonical h)

theorem vselEff_canonical {s q w} (h : Canonical s) : Canonical (vselEff s q w) := vecMap_canonical h

theorem vcvtEff_canonical {s q w} (h : Canonical s) : Canonical (vcvtEff s q w) := vecDone_canonical (setV_canonical h)

theorem vredEff_canonical {s q w} (h : Canonical s) : Canonical (vredEff s q w) := by
  unfold vredEff
  extract_lets
  split
  · exact vecDone_canonical (setS_canonical h)
  · exact vecDone_canonical h

theorem vrmaxEff_canonical {s q w} (h : Canonical s) : Canonical (vrmaxEff s q w) := by
  unfold vrmaxEff
  extract_lets
  split
  · exact vecDone_canonical h
  · exact vecDone_canonical (setS_canonical h)

theorem vmovsEff_canonical {s q w} (h : Canonical s) : Canonical (vmovsEff s q w) :=
  ite_canonical (vecDone_canonical (setV_canonical h)) (vecDone_canonical h)

theorem vmovvEff_canonical {s q w} (h : Canonical s) : Canonical (vmovvEff s q w) :=
  ite_canonical (vecDone_canonical (setS_canonical h)) (vecDone_canonical h)

theorem vecBitsEff_canonical {op s q w} (h : Canonical s) : Canonical (vecBitsEff op s q w) := vecMap_canonical h

theorem vldAccess_canonical {s q w} (h : Canonical s) : Canonical (vldAccess s q w) := by
  unfold vldAccess
  extract_lets
  split
  · exact faultQueue_canonical (countIssue_canonical h)
  exact doneHead_canonical (countLanes_canonical (feLeave_canonical (setV_canonical (countIssue_canonical h))))

theorem vstAccess_canonical {s q w} (h : Canonical s) : Canonical (vstAccess s q w) := by
  unfold vstAccess
  extract_lets
  split
  · exact faultQueue_canonical (countIssue_canonical h)
  exact doneHead_canonical (countLanes_canonical (feLeave_canonical (foldl_canonical (countIssue_canonical h) commit_canonical)))

theorem vecAccess_canonical {s q w} (h : Canonical s) : Canonical (vecAccess s q w) := ite_canonical (vstAccess_canonical h) (vldAccess_canonical h)

theorem vecMem_canonical {s q w} (h : Canonical s) : Canonical (vecMem s q w) := by
  unfold vecMem
  extract_lets
  split
  · exact holdHead_canonical h
  exact ite_canonical (vecAccess_canonical h) (holdHead_canonical (addWaiter_canonical h))

theorem vrecEff_canonical {s q w} (h : Canonical s) : Canonical (vrecEff s q w) :=
  doneHead_canonical (wrIf_canonical (putRecord_canonical (setVop_canonical (countLanes_canonical (countIssue_canonical h)))))

/-! ### Contexts -/

theorem dropWaits_canonical {s q} (h : Canonical s) : Canonical (dropWaits s q) := update_canonical (dropWaiters_canonical h)

theorem retranslate_canonical {s g} (h : Canonical s) : Canonical (retranslate s g) := ite_canonical (resumeSet_canonical h) h

theorem setSuspended_canonical {s k v} (h : Canonical s) : Canonical (setSuspended s k v) :=
  foldl_canonical h fun h => ite_canonical (dropGroups_canonical (setStream_canonical h)) (retranslate_canonical (setStream_canonical h))

theorem queueStart_canonical {s q} (h : Canonical s) : Canonical (queueStart s q) := by
  unfold queueStart
  extract_lets st k s₁ s₂
  have hs₂ : Canonical s₂ := foldl_canonical (wr_canonical h) continueStopped_canonical
  exact ite_canonical h (ite_canonical hs₂ (setSuspended_canonical hs₂))

theorem queueStop_canonical {s q} (h : Canonical s) : Canonical (queueStop s q) := by
  unfold queueStop
  split
  · exact wr_canonical (setArrived_canonical (unhold_canonical (dropWaits_canonical h)))
  exact h

theorem clearFault_canonical {s q} (h : Canonical s) : Canonical (clearFault s q) := ite_canonical (wr_canonical h) h

theorem rangeWrite_canonical {s q v} (h : Canonical s) : Canonical (rangeWrite s q v) :=
  ite_canonical h (wrIf_canonical (wr_canonical (wr_canonical (wr_canonical h))))

theorem imemLo_canonical {s k v} (h : Canonical s) : Canonical (imemLo s k v) := update_canonical h

theorem imemHi_canonical {s k v} (h : Canonical s) : Canonical (imemHi s k v) := wr_canonical (ite_canonical (wr_canonical h) (update_canonical h))

theorem ctxFail_canonical {s k cause} (h : Canonical s) : Canonical (ctxFail s k cause) := wr_canonical (wr_canonical h)

theorem setCtx_canonical {s k o} (h : Canonical s) : Canonical (State.setCtx s k o) := update_canonical h

theorem writeImage_canonical {s da ps} (h : Canonical s) : Canonical (writeImage s da ps).1 := by
  induction ps generalizing s with
  | nil => exact h
  | cons p r ih =>
    exact ite_fst_canonical (ih h) (ite_fst_canonical (ih (memWrite_canonical h)) (memWrite_canonical h))

theorem quietHead_canonical {s q} (h : Canonical s) : Canonical (quietHead s q) := setHead_canonical (dropWaits_canonical h)

theorem ctxSave_canonical {s k} (h : Canonical s) : Canonical (ctxSave s k) := by
  unfold ctxSave
  extract_lets da h₁ z
  have hz : Canonical z.1 := by
    unfold z
    split
    · exact memWrite_canonical (memNat_canonical h)
    · exact memNat_canonical h
  split
  · exact h
  split
  · exact ctxFail_canonical h
  split
  · exact ctxFail_canonical h
  split
  · exact ctxFail_canonical hz
  exact setCtx_canonical (setSuspended_canonical (foldl_canonical (wr_canonical (wr_canonical (wr_canonical (foldl_canonical hz
    quietHead_canonical)))) preempt_canonical))

theorem ctxEnd_canonical {s k cycles} (h : Canonical s) : Canonical (ctxEnd s k cycles) :=
  setCtx_canonical (wr_canonical (wr_canonical (wr_canonical (wr_canonical (wr_canonical h)))))

theorem allSaved_canonical {s k} (h : Canonical s) : Canonical (allSaved s k) :=
  foldl_canonical h fun h => ite_canonical h (wr_canonical (wr_canonical h))

theorem saveDone_canonical {s k error cycles} (h : Canonical s) : Canonical (saveDone s k error cycles) := by
  unfold saveDone
  split
  · exact h
  extract_lets r s₁
  have hs₁ : Canonical s₁ := ctxEnd_canonical (allSaved_canonical (ite_fst_canonical h (writeImage_canonical h)))
  exact ite_canonical (wr_canonical hs₁) (ctxFail_canonical hs₁)

theorem allIdle_canonical {s k} (h : Canonical s) : Canonical (allIdle s k) :=
  foldl_canonical h fun h => wr_canonical (unhold_canonical (dropWaits_canonical h))

theorem ctxRestore_canonical {s k} (h : Canonical s) : Canonical (ctxRestore s k) := by
  unfold ctxRestore
  extract_lets
  split
  · exact h
  split
  · exact ctxFail_canonical h
  split
  · exact ctxFail_canonical h
  split
  · exact ctxFail_canonical h
  split
  · exact ctxFail_canonical (allIdle_canonical (memNat_canonical h))
  · split
    · exact ctxFail_canonical (memNat_canonical h)
    exact setCtx_canonical (wr_canonical (wr_canonical (memNat_canonical h)))

theorem restoreQueue_canonical {s q bs auto} (h : Canonical s) : Canonical (restoreQueue s q bs auto) :=
  wr_canonical (setArrived_canonical (unhold_canonical (setVop_canonical (wr_canonical (wr_canonical (wr_canonical (setLoops_canonical
    (wr_canonical h))))))))

theorem takeReplay_canonical {s e cur staged} (h : Canonical s) : Canonical (takeReplay s e cur staged) := by
  unfold takeReplay
  extract_lets s₁ src s₂
  have hs₁ : Canonical s₁ := wr_canonical (wr_canonical (setEng_canonical h))
  have hs₂ : Canonical s₂ := by
    unfold s₂
    split
    · exact wr_canonical (setEng_canonical hs₁)
    · exact wr_canonical hs₁
  split
  · exact continueStopped_canonical (wr_canonical (wr_canonical (wr_canonical (wr_canonical (setRun_canonical hs₂)))))
  · exact takeStaged_canonical hs₂

theorem restoreSet_canonical {s g k q bs ck armed} (h : Canonical s) : Canonical (restoreSet s g k q bs ck armed) := by
  unfold restoreSet
  split
  · exact setStmSet_canonical h
  extract_lets w c at_ src a s₁ s₂
  have hs₂ : Canonical s₂ := foldl_canonical (setStmSet_canonical h) readBurst_canonical
  exact ite_canonical hs₂ (setStmSet_canonical hs₂)

theorem restoreStream_canonical {s g q bs} (h : Canonical s) : Canonical (restoreStream s g q bs) := by
  unfold restoreStream
  extract_lets w ctrl s₁ s₂ s₃ part ck s₄ s₅ sets src s₆ stopped s₇
  have hs₇ : Canonical s₇ := stmShow_canonical (setStream_canonical (restoreSet_canonical (restoreSet_canonical (wr_canonical (wr_canonical
    (wr_canonical (wr_canonical (resetStream_canonical h))))))))
  clear_value stopped
  split
  · exact stopWith_canonical (setFail_canonical hs₇)
  · exact hs₇

theorem areaPart_canonical {s da part} (h : Canonical s) : Canonical (areaPart s da part).1 := ite_fst_canonical h (memRead_canonical h)

theorem areaParts_canonical {s da ps} (h : Canonical s) : Canonical (areaParts s da ps).1 := by
  induction ps generalizing s with
  | nil => exact h
  | cons p r ih =>
    have hx := areaPart_canonical (da := da) (part := p) h
    unfold areaParts
    extract_lets
    split
    · exact hx
    · exact ih hx

theorem restoreFiles_canonical {s k l p sr v fe im pad} (h : Canonical s) : Canonical (restoreFiles s k l p sr v fe im pad) := by
  unfold restoreFiles
  extract_lets s₁ s₂ s₃ words src s₄
  have hs₄ : Canonical s₄ := update_canonical (foldl_canonical (foldl_canonical (foldl_canonical h setP_canonical) setS_canonical) setV_canonical)
  exact foldl_canonical (ite_canonical hs₄ (commit_canonical hs₄)) setFull_canonical

theorem restoreDone_canonical {s k error cycles} (h : Canonical s) : Canonical (restoreDone s k error cycles) := by
  unfold restoreDone
  split
  · exact h
  extract_lets da h₁ l r
  have hr : Canonical r.1 := ite_fst_canonical (memNat_canonical h) (areaParts_canonical (memNat_canonical h))
  split
  · exact setSuspended_canonical (wr_canonical (ctxEnd_canonical (foldl_canonical (foldl_canonical (foldl_canonical (restoreFiles_canonical hr)
      takeReplay_canonical) restoreStream_canonical) restoreQueue_canonical)))
  · exact ctxFail_canonical (ctxEnd_canonical (allIdle_canonical hr))

theorem lsuResume_canonical {s q} (h : Canonical s) : Canonical (lsuResume s q) := by
  unfold lsuResume
  extract_lets
  split
  · exact h
  split
  · exact ite_canonical (vecAccess_canonical (dropWaiter_canonical h)) (scalAccess_canonical (dropWaiter_canonical h))
  exact h

theorem initEnd_canonical {s k staging} (h : Canonical s) : Canonical (initEnd s k staging) := by
  unfold initEnd
  split
  · exact ite_canonical h (flushRecords_canonical (update_canonical h))
  exact ite_canonical h (flushRecords_canonical (wr_canonical h))

/-! ### Cores and clusters in reset -/

theorem setRst_canonical {s kind i v} (h : Canonical s) : Canonical (State.setRst s kind i v) := update_canonical h

theorem clearMemory_canonical {s da n} (h : Canonical s) : Canonical (clearMemory s da n) := by
  unfold clearMemory
  exact ⟨Tab.wf_drop _ _ (fun a => decide (da ≤ a ∧ a < da + n)) h.sram,
    Tab.wf_drop _ _ (fun w => decide (da ≤ w * 8 ∧ w * 8 < da + n)) h.full, h.hbm, h.cxl, h.nv⟩

theorem resetCoreRegs_canonical {s k} (h : Canonical s) : Canonical (resetCoreRegs s k) := by
  unfold resetCoreRegs
  exact resetFields_canonical (resetFields_canonical (resetFields_canonical (resetFields_canonical h)))

theorem resetTile_canonical {s k} (h : Canonical s) : Canonical (resetTile s k) := update_canonical h

theorem clearCore_canonical {s k} (h : Canonical s) : Canonical (clearCore s k) :=
  clearMemory_canonical (resetTile_canonical (resetCoreRegs_canonical (foldl_canonical (dropWaiters_canonical (foldl_canonical (foldl_canonical h
    dropWaits_canonical) dropWaiters_canonical)) resetStream_canonical)))

theorem resetCore_canonical {s k} (h : Canonical s) : Canonical (resetCore s k) := setRst_canonical (clearCore_canonical h)

theorem clearHurdles_canonical {s c} (h : Canonical s) : Canonical (clearHurdles s c) :=
  update_canonical (resetFields_canonical (resetFields_canonical h))

theorem clearFinishLines_canonical {s c} (h : Canonical s) : Canonical (clearFinishLines s c) := resetFields_canonical h

theorem clearStaging_canonical {s c} (h : Canonical s) : Canonical (clearStaging s c) := by
  unfold clearStaging
  exact update_canonical (clearMemory_canonical h)

theorem clearCluster_canonical {s c} (h : Canonical s) : Canonical (clearCluster s c) := by
  unfold clearCluster
  exact resetFields_canonical (clearFinishLines_canonical (clearHurdles_canonical (clearStaging_canonical (foldl_canonical h clearCore_canonical))))

theorem releaseCore_canonical {s k} (h : Canonical s) : Canonical (releaseCore s k) :=
  ite_canonical (setRst_canonical h) (wr_canonical (wr_canonical (setRst_canonical h)))

theorem releaseCluster_canonical {s c} (h : Canonical s) : Canonical (releaseCluster s c) := by
  unfold releaseCluster
  split
  · exact h
  exact foldl_canonical (setRst_canonical h) fun h => ite_canonical h (releaseCore_canonical h)

end Sys2Proof.Machine
end

section
/-!
PROOFS. Memories stay canonical: sessions, Kamrus ports and lanes.
-/
namespace Sys2Proof.Machine

/-! ### Sessions -/

theorem setSess_canonical {s n x} (h : Canonical s) : Canonical (State.setSess s n x) := update_canonical h

theorem setSes_canonical {s x} (h : Canonical s) : Canonical (State.setSes s x) := update_canonical h

theorem readEntry_canonical {s n} (h : Canonical s) : Canonical (readEntry s n).1 := memRead_canonical h

theorem entryWrite_canonical {s n word lo w v} (h : Canonical s) : Canonical (entryWrite s n word lo w v) := by
  unfold entryWrite
  extract_lets
  split
  · exact memWrite_canonical (memNat_canonical h)
  · exact memNat_canonical h

theorem entryState_canonical {s n v} (h : Canonical s) : Canonical (entryState s n v) := entryWrite_canonical h

theorem readRingAt_canonical {s da pin} (h : Canonical s) : Canonical (readRingAt s da pin).1 := memNat_canonical (memNat_canonical h)

theorem writeRingAt_canonical {s da c} (h : Canonical s) : Canonical (writeRingAt s da c) :=
  ite_canonical (memWrite_canonical h) (memWrite_canonical h)

theorem writeRing_canonical {s x r c} (h : Canonical s) : Canonical (writeRing s x r c) := writeRingAt_canonical h

theorem readRing_canonical {s x r pin} (h : Canonical s) : Canonical (readRing s x r pin).1 := readRingAt_canonical h

theorem putRing_canonical {s n r c} (h : Canonical s) : Canonical (putRing s n r c) := setSes_canonical h

theorem dropRing_canonical {s k} (h : Canonical s) : Canonical (dropRing s k) := setSes_canonical h

theorem showPinned_canonical {s} (h : Canonical s) : Canonical (showPinned s) := wr_canonical h

theorem makeRoom_canonical {s} (h : Canonical s) : Canonical (makeRoom s) := by
  unfold makeRoom
  split
  · exact h
  split
  · exact h
  · extract_lets s₁
    have hs₁ : Canonical s₁ := by
      unfold s₁
      split
      · exact writeRing_canonical h
      · exact h
    exact dropRing_canonical hs₁

theorem cacheRing_canonical {s n r pin} (h : Canonical s) : Canonical (cacheRing s n r pin) := by
  unfold cacheRing
  split
  · exact h
  · extract_lets s₁ c
    have hc : Canonical c.1 := readRing_canonical (makeRoom_canonical h)
    split
    · exact showPinned_canonical (putRing_canonical hc)
    · exact hc

theorem dropDoorbell_canonical {s} (h : Canonical s) : Canonical (dropDoorbell s) := wr_canonical (bump_canonical h)

theorem storeTail_canonical {s n r tail} (h : Canonical s) : Canonical (storeTail s n r tail) := by
  unfold storeTail
  split
  · exact ite_canonical (dropDoorbell_canonical h) (putRing_canonical h)
  · exact dropDoorbell_canonical h

theorem missRing_canonical {s n r} (h : Canonical s) : Canonical (missRing s n r) :=
  foldl_canonical (setSes_canonical (bump_canonical (cacheRing_canonical h))) storeTail_canonical

theorem showSlots_canonical {s} (h : Canonical s) : Canonical (showSlots s) := wr_canonical h

theorem completionRing_canonical {s b} (h : Canonical s) : Canonical (completionRing s b).1 :=
  ite_fst_canonical (readRingAt_canonical h) ((ite_canonical (missRing_canonical h) h))

theorem commitCompletion_canonical {s i} (h : Canonical s) : Canonical (commitCompletion s i) := by
  unfold commitCompletion
  split
  · exact h
  · split
    · exact h
    · extract_lets r mem
      have hmem : Canonical mem.1 := memNat_canonical (completionRing_canonical h)
      split
      · exact completionRing_canonical h
      · extract_lets c w
        have hw : Canonical w.1 := memWrite_canonical hmem
        exact ite_canonical hmem (showSlots_canonical (setSes_canonical (writeRingAt_canonical (ite_canonical (putRing_canonical hw) hw))))

theorem completeSub_canonical {s i status} (h : Canonical s) : Canonical (completeSub s i status) := by
  unfold completeSub
  split
  · exact h
  · exact commitCompletion_canonical (setSes_canonical h)

theorem showResident_canonical {s m n valid sched switching} (h : Canonical s) : Canonical (showResident s m n valid sched switching) :=
  foldl_canonical h fun h => wr_canonical (wr_canonical (wr_canonical (wr_canonical h)))

theorem setSched_canonical {s m v} (h : Canonical s) : Canonical (setSched s m v) := foldl_canonical h fun h => wr_canonical (wr_canonical h)

theorem wakeClusters_canonical {s m} (h : Canonical s) : Canonical (wakeClusters s m) :=
  foldl_canonical h fun h => ite_canonical (bump_canonical (clearBit_canonical h)) h

theorem giveSlots_canonical {s x} (h : Canonical s) : Canonical (giveSlots s x) := foldl_canonical h fun h => wr_canonical (wr_canonical h)

theorem eachCore_canonical {x f s} (hf : ∀ {s x1 x2}, Canonical s → Canonical (f s x1 x2)) (h : Canonical s) : Canonical (eachCore x f s) :=
  foldl_canonical h fun h => foldl_canonical h hf

theorem saveCores_canonical {s x} (h : Canonical s) : Canonical (saveCores s x) :=
  eachCore_canonical (fun h => ctxSave_canonical (wr_canonical (wr_canonical h))) h

theorem restoreCores_canonical {s x} (h : Canonical s) : Canonical (restoreCores s x) :=
  eachCore_canonical (fun h => ctxRestore_canonical (wr_canonical (wr_canonical (wr_canonical h)))) h

theorem saveHurdles_canonical {s c da} (h : Canonical s) : Canonical (saveHurdles s c da) := memWrite_canonical (memWrite_canonical h)

theorem disarmed_canonical {s c} (h : Canonical s) : Canonical (disarm s c) := foldl_canonical h wr_canonical

theorem saveSlots_canonical {s c da} (h : Canonical s) : Canonical (saveSlots s c da) := disarmed_canonical (memWrite_canonical h)

theorem loadHurdle_canonical {s x1 bs} (h : Canonical s) : Canonical (loadHurdle s x1 bs) :=
  wr_canonical (wr_canonical (wr_canonical (wr_canonical (wr_canonical (wr_canonical (wr_canonical h))))))

theorem loadWindow_canonical {s w bs} (h : Canonical s) : Canonical (loadWindow s w bs) :=
  setWindowQueue_canonical (wr_canonical (wr_canonical (wr_canonical h)))

theorem loadSlot_canonical {s n bs} (h : Canonical s) : Canonical (loadSlot s n bs) := by
  unfold loadSlot
  extract_lets a g t s₁ s₂ s₃
  have hs₃ : Canonical s₃ := wr_canonical (wr_canonical (wr_canonical (wr_canonical (wr_canonical (wr_canonical (wr_canonical (wr_canonical
    (wr_canonical (wr_canonical h)))))))))
  exact ite_canonical (armSlot_canonical hs₃) hs₃

theorem loadCluster_canonical {s c da slots} (h : Canonical s) : Canonical (loadCluster s c da slots) := by
  unfold loadCluster
  extract_lets
  split
  · exact memRead_canonical h
  · extract_lets s₁ s₂
    have hs₂ : Canonical s₂ := foldl_canonical (foldl_canonical (clearHurdles_canonical (memRead_canonical h)) loadHurdle_canonical)
      loadWindow_canonical
    exact ite_canonical (foldl_canonical hs₂ loadSlot_canonical) hs₂

theorem eachCluster_canonical {x f s} (hf : ∀ {s x1 x2}, Canonical s → Canonical (f s x1 x2)) (h : Canonical s) : Canonical (eachCluster x f s) :=
  foldl_canonical h hf

theorem addSwitch_canonical {s w} (h : Canonical s) : Canonical (addSwitch s w) := setSes_canonical h

theorem setSwitch_canonical {s m w} (h : Canonical s) : Canonical (setSwitch s m w) := setSes_canonical h

theorem beginRestore_canonical {s n x} (h : Canonical s) : Canonical (beginRestore s n x) := by
  unfold beginRestore
  extract_lets s₁ s₂
  have hs₁ : Canonical s₁ := setSched_canonical (giveSlots_canonical (showResident_canonical h))
  have hs₂ : Canonical s₂ := ite_canonical (wakeClusters_canonical hs₁) hs₁
  split
  · exact restoreCores_canonical hs₂
  exact eachCluster_canonical (fun h => clearFinishLines_canonical (clearHurdles_canonical h)) hs₂

theorem beginSwitch_canonical {s m out inc} (h : Canonical s) : Canonical (beginSwitch s m out inc) := by
  unfold beginSwitch
  split
  · extract_lets s₁ s₂
    have hs₂ : Canonical s₂ := showResident_canonical (setSess_canonical h)
    exact saveCores_canonical (addSwitch_canonical (ite_canonical hs₂ (eachCluster_canonical saveSlots_canonical hs₂)))
  · split
    · exact beginRestore_canonical (addSwitch_canonical h)
    · exact h

theorem slice_canonical {s m} (h : Canonical s) : Canonical (slice s m) := by
  unfold slice
  split
  · exact h
  split
  · exact h
  · split
    · exact beginSwitch_canonical h
    · exact ite_canonical (beginSwitch_canonical h) h

theorem startResume_canonical {s n} (h : Canonical s) : Canonical (startResume s n) := by
  unfold startResume
  split
  · exact h
  · exact ite_canonical (beginSwitch_canonical h) h

theorem sliceAll_canonical {s} (h : Canonical s) : Canonical (sliceAll s) :=
  foldl_canonical (foldl_canonical h startResume_canonical) slice_canonical

theorem admitBusy_canonical {s} (h : Canonical s) : Canonical (admitBusy s) := wr_canonical h

theorem refuseAction_canonical {s cause} (h : Canonical s) : Canonical (refuseAction s cause) := wr_canonical (wr_canonical h)

theorem wakeForSched_canonical {s x} (h : Canonical s) : Canonical (wakeForSched s x) :=
  foldl_canonical (wakeClusters_canonical h) fun h => ite_canonical (wr_canonical h) h

theorem admitSched_canonical {s n x} (h : Canonical s) : Canonical (admitSched s n x) := by
  unfold admitSched
  extract_lets s₁ s₂ s₃ s₄
  have hs₄ : Canonical s₄ := foldl_canonical (giveSlots_canonical (wakeForSched_canonical (setSess_canonical (setSched_canonical h)))) fun h => by
    split
    · exact ite_canonical (showPinned_canonical (putRing_canonical (makeRoom_canonical h))) h
    · exact h
  exact entryState_canonical (showResident_canonical hs₄)

theorem admitSession_canonical {s n} (h : Canonical s) : Canonical (admitSession s n) := by
  unfold admitSession
  extract_lets s₁ e s₂ ws x0 x rs st f s₃
  have he : Canonical e.1 := readEntry_canonical (wr_canonical h)
  have hs₃ : Canonical s₃ := entryWrite_canonical he
  split
  · exact refuseAction_canonical (fresh_canonical he)
  split
  · exact refuseAction_canonical he
  · split
    · exact admitSched_canonical hs₃
    exact slice_canonical (entryState_canonical (setSess_canonical hs₃))

theorem stopSession_canonical {s x} (h : Canonical s) : Canonical (stopSession s x) :=
  wr_canonical (update_canonical (foldl_canonical h fun h => resetCore_canonical (foldl_canonical h queueStop_canonical)))

theorem abandonSubs_canonical {s n} (h : Canonical s) : Canonical (abandonSubs s n) :=
  foldl_canonical (setSes_canonical h) fun h => by
    split
    · exact ite_canonical (commitCompletion_canonical h) h
    · exact h

theorem dropRings_canonical {s n x} (h : Canonical s) : Canonical (dropRings s n x) :=
  showPinned_canonical (foldl_canonical h fun h => by
    split
    · exact dropRing_canonical (writeRing_canonical h)
    · exact h)

theorem endNow_canonical {s n x} (h : Canonical s) : Canonical (endNow s n x) := by
  unfold endNow
  extract_lets s₁ s₂
  have hs₂ : Canonical s₂ := ite_canonical (stopSession_canonical h) (foldl_canonical (stopSession_canonical h) fun h => clearStaging_canonical
    (clearFinishLines_canonical (clearHurdles_canonical h)))
  exact slice_canonical (admitBusy_canonical (showSlots_canonical (entryState_canonical (setSess_canonical (setSes_canonical (dropRings_canonical
    (abandonSubs_canonical (ite_canonical (showResident_canonical (setSes_canonical hs₂)) h))))))))

theorem suspend_canonical {s n x} (h : Canonical s) : Canonical (suspend s n x) := by
  unfold suspend
  split
  · exact slice_canonical (entryState_canonical (setSess_canonical (setSes_canonical h)))
  split
  · exact admitBusy_canonical (setSess_canonical h)
  split
  · exact admitBusy_canonical (setSess_canonical h)
  exact admitBusy_canonical (beginSwitch_canonical (setSess_canonical h))

theorem resume_canonical {s n x} (h : Canonical s) : Canonical (resume s n x) := by
  unfold resume
  extract_lets
  split
  · exact refuseAction_canonical h
  split
  · exact admitBusy_canonical (startResume_canonical (setSess_canonical h))
  exact slice_canonical (entryState_canonical (setSess_canonical h))

theorem sesAction_canonical {s n action} (h : Canonical s) : Canonical (sesAction s n action) := by
  unfold sesAction
  extract_lets
  split
  · exact refuseAction_canonical (wr_canonical h)
  · extract_lets
    split
    · exact refuseAction_canonical (wr_canonical h)
    split
    · exact ite_canonical (endNow_canonical (wr_canonical h)) (refuseAction_canonical (wr_canonical h))
    · exact ite_canonical (suspend_canonical (wr_canonical h)) (refuseAction_canonical (wr_canonical h))
    · exact ite_canonical (resume_canonical (wr_canonical h)) (refuseAction_canonical (wr_canonical h))
    · exact refuseAction_canonical (wr_canonical h)

theorem admitWrite_canonical {s v} (h : Canonical s) : Canonical (admitWrite s v) :=
  ite_canonical (admitSession_canonical h) (sesAction_canonical h)

theorem lapSuspend_canonical {s n} (h : Canonical s) : Canonical (lapSuspend s n) := by
  unfold lapSuspend
  split
  · exact h
  · split
    · exact h
    · split
      · exact h
      exact admitBusy_canonical (beginSwitch_canonical (setSess_canonical (wrIf_canonical (bump_canonical (foldl_canonical (foldl_canonical h
        checkSlot_canonical) disarmed_canonical)))))

theorem quantumExpiry_canonical {s n} (h : Canonical s) : Canonical (quantumExpiry s n) := by
  unfold quantumExpiry
  split
  · exact h
  · exact ite_canonical h (slice_canonical (setSess_canonical h))

theorem switchSaved_canonical {s n used} (h : Canonical s) : Canonical (switchSaved s n used) := by
  unfold switchSaved
  split
  · exact h
  · split
    · exact h
    · split
      · exact h
      extract_lets s₁ gone y s₂ s₃ src s₄
      have hs₂ : Canonical s₂ := entryWrite_canonical (entryState_canonical (setSess_canonical (eachCluster_canonical saveHurdles_canonical h)))
      have hs₄ : Canonical s₄ := admitBusy_canonical (setSes_canonical (ite_canonical (setSched_canonical hs₂) hs₂))
      split
      · exact beginRestore_canonical (setSwitch_canonical hs₄)
      · exact slice_canonical (showResident_canonical (setSwitch_canonical hs₄))

theorem switchRestored_canonical {s n} (h : Canonical s) : Canonical (switchRestored s n) := by
  unfold switchRestored
  split
  · exact h
  · split
    · exact h
    · split
      · exact h
      extract_lets s₁ y s₂ s₃
      have hs₃ : Canonical s₃ := admitBusy_canonical (showResident_canonical (bump_canonical (entryState_canonical (setSwitch_canonical
        (setSess_canonical (ite_canonical (eachCluster_canonical loadCluster_canonical h) h))))))
      exact ite_canonical (beginSwitch_canonical hs₃) (slice_canonical hs₃)

theorem ringDoorbell_canonical {s n r tail} (h : Canonical s) : Canonical (ringDoorbell s n r tail) := by
  unfold ringDoorbell
  split
  · exact slice_canonical (storeTail_canonical h)
  · exact dropDoorbell_canonical h

theorem doorbell_canonical {s v} (h : Canonical s) : Canonical (doorbell s v) := by
  unfold doorbell
  extract_lets
  split
  · exact dropDoorbell_canonical (bump_canonical h)
  split
  · exact ringDoorbell_canonical (bump_canonical h)
  exact ite_canonical (dropDoorbell_canonical (bump_canonical h)) (setSes_canonical (bump_canonical h))

theorem ringLoad_canonical {s n r} (h : Canonical s) : Canonical (ringLoad s n r) := by
  unfold ringLoad
  split
  · exact h
  · exact ite_canonical h (slice_canonical (missRing_canonical h))

theorem ringPin_canonical {s v} (h : Canonical s) : Canonical (ringPin s v) := by
  unfold ringPin
  extract_lets n r s₁
  have hs₁ : Canonical s₁ := ite_canonical h (missRing_canonical h)
  split
  · exact h
  · split
    · exact hs₁
    · split
      · split
        · exact wr_canonical hs₁
        exact showPinned_canonical (putRing_canonical hs₁)
      exact ite_canonical hs₁ (showPinned_canonical (putRing_canonical hs₁))

theorem takeEntry_canonical {s n r c x ext} (h : Canonical s) : Canonical (takeEntry s n r c x ext).1 := by
  unfold takeEntry
  extract_lets
  split
  · exact memRead_canonical h
  · exact setSess_canonical (putRing_canonical (memRead_canonical h))

theorem openSub_canonical {s n c tag qs} (h : Canonical s) : Canonical (openSub s n c tag qs) := showSlots_canonical (setSes_canonical h)

theorem dispatch_canonical {s n isArrive ext eff} (h : Canonical s) (hf : ∀ {s x1 x2 x3}, Canonical s → Canonical (eff s x1 x2 x3)) :
    Canonical (dispatch s n isArrive ext eff) := by
  unfold dispatch
  split
  · exact h
  · split
    · exact h
    split
    · exact h
    · split
      · exact h
      · extract_lets
        split
        · exact takeEntry_canonical h
        · exact ite_canonical (slice_canonical (hf (takeEntry_canonical h))) h

theorem submissionRun_canonical {s n ext} (h : Canonical s) : Canonical (submissionRun s n ext) :=
  dispatch_canonical h (fun h => by
    extract_lets tag i qs s₁
    have hs₁ : Canonical s₁ := foldl_canonical (openSub_canonical h) fun h => queueStart_canonical (wr_canonical h)
    exact ite_canonical (completeSub_canonical (openSub_canonical h)) (ite_canonical (completeSub_canonical (openSub_canonical h)) (ite_canonical
      (completeSub_canonical hs₁) hs₁)))

theorem submissionArrive_canonical {s n ext} (h : Canonical s) : Canonical (submissionArrive s n ext) :=
  dispatch_canonical h (fun h => completeSub_canonical (arriveFrom_canonical (openSub_canonical h)))

theorem runComplete_canonical {s i} (h : Canonical s) : Canonical (runComplete s i) := by
  unfold runComplete
  split
  · exact h
  · split
    · exact h
    · exact ite_canonical h (slice_canonical (completeSub_canonical h))

theorem clockWrite_canonical {s v} (h : Canonical s) : Canonical (clockWrite s v) := by
  unfold clockWrite
  extract_lets mode step old s₁
  have hs₁ : Canonical s₁ := wr_canonical (wr_canonical h)
  split
  · exact wr_canonical h
  exact ite_canonical hs₁ (relockTracks_canonical hs₁)

/-! ### Kamrus ports -/

theorem setKmr_canonical {s k} (h : Canonical s) : Canonical (State.setKmr s k) := update_canonical h

theorem setKport_canonical {s p x} (h : Canonical s) : Canonical (State.setKport s p x) := setKmr_canonical h

theorem setLanes_canonical {s p st ls} (h : Canonical s) : Canonical (setLanes s p st ls) :=
  foldl_canonical h fun h => ite_canonical (wr_canonical h) h

theorem setLaneState_canonical {s l} (h : Canonical s) : Canonical (State.setLaneState s l) := update_canonical h

theorem startSearch_canonical {s l r} (h : Canonical s) : Canonical (startSearch s l r) :=
  wr_canonical (wr_canonical (wr_canonical (ite_canonical (setLaneState_canonical h) (wr_canonical (wr_canonical (wr_canonical
    (setLaneState_canonical h)))))))

theorem trainKept_canonical {s l r} (h : Canonical s) : Canonical (trainKept s l r) :=
  wr_canonical (wr_canonical (wr_canonical (wr_canonical (wr_canonical h))))

theorem retrainLanes_canonical {s p chosen ls} (h : Canonical s) : Canonical (retrainLanes s p chosen ls) :=
  foldl_canonical h fun h => by
    extract_lets l s₁
    have hs₁ : Canonical s₁ := bump_canonical (wr_canonical (wr_canonical h))
    split
    · split
      · exact trainKept_canonical hs₁
      · exact startSearch_canonical hs₁
    exact h

theorem negotiatePort_canonical {s p} (h : Canonical s) : Canonical (negotiatePort s p) := by
  unfold negotiatePort
  extract_lets
  split
  · exact wr_canonical (setKport_canonical (wr_canonical h))
  · extract_lets s₁ src₁ s₂ s₃
    have hs₃ : Canonical s₃ := retrainLanes_canonical (setKport_canonical (wr_canonical (wr_canonical (wr_canonical (wr_canonical (wr_canonical
      h))))))
    exact ite_canonical (flagMC_canonical hs₃) (wr_canonical hs₃)

theorem sendMasks_canonical {s p} (h : Canonical s) : Canonical (sendMasks s p) := emit_canonical h

theorem capabilityExchange_canonical {s p m224 m112 m56 fec sleep} (h : Canonical s) :
    Canonical (capabilityExchange s p m224 m112 m56 fec sleep) := by
  unfold capabilityExchange
  split
  · exact h
  exact negotiatePort_canonical (setLanes_canonical (wr_canonical (setKport_canonical h)))

theorem noModeRetry_canonical {s p} (h : Canonical s) : Canonical (noModeRetry s p) :=
  ite_canonical (retrainLanes_canonical (wr_canonical (setKport_canonical h))) h

theorem bitLockTimeout_canonical {s p i} (h : Canonical s) : Canonical (bitLockTimeout s p i) :=
  ite_canonical (negotiatePort_canonical (sendMasks_canonical (setKport_canonical h))) h

theorem noteSent_canonical {s c} (h : Canonical s) : Canonical (noteSent s c) := by
  unfold noteSent
  extract_lets
  split
  · exact ite_canonical (setRemote_canonical h) h
  · exact h

theorem countDrop_canonical {s p} (h : Canonical s) : Canonical (countDrop s p) := bump_canonical h

theorem dropCell_canonical {s p c} (h : Canonical s) : Canonical (dropCell s p c) := noteSent_canonical (countDrop_canonical h)

theorem enqueueCell_canonical {s p c relayed} (h : Canonical s) : Canonical (enqueueCell s p c relayed) := by
  unfold enqueueCell
  extract_lets
  split
  · exact dropCell_canonical h
  split
  · exact signalMC_canonical (dropCell_canonical h)
  exact ite_canonical (bump_canonical (setKport_canonical h)) (setKport_canonical h)

theorem sendHello_canonical {s p assign} (h : Canonical s) : Canonical (sendHello s p assign) := ite_canonical (enqueueCell_canonical h) h

theorem sendHellos_canonical {s} (h : Canonical s) : Canonical (sendHellos s) := foldl_canonical h sendHello_canonical

theorem startRebuild_canonical {s} (h : Canonical s) : Canonical (startRebuild s) := ite_canonical h (sendHellos_canonical (setKmr_canonical h))

theorem alignFrame_canonical {s p} (h : Canonical s) : Canonical (alignFrame s p) := by
  unfold alignFrame
  split
  · exact h
  · exact wr_canonical (setKport_canonical h)

theorem portUp_canonical {s p} (h : Canonical s) : Canonical (portUp s p) :=
  startRebuild_canonical (enqueueCell_canonical (sendHello_canonical (setKport_canonical (alignFrame_canonical (foldl_canonical (setLanes_canonical
    (wr_canonical h)) fun h => wr_canonical (wr_canonical h))))))

theorem portGoesDown_canonical {s p} (h : Canonical s) : Canonical (portGoesDown s p) :=
  startRebuild_canonical (setKmr_canonical (retrainLanes_canonical (wr_canonical (flagMC_canonical (setKport_canonical (foldl_canonical
    (bump_canonical (bump_canonical h)) noteSent_canonical))))))

theorem portDown_canonical {s p} (h : Canonical s) : Canonical (portDown s p) := ite_canonical (portGoesDown_canonical h) h

theorem codeword_canonical {s p outcome cells} (h : Canonical s) : Canonical (codeword s p outcome cells) := by
  unfold codeword
  split
  · exact h
  split
  · exact bump_canonical h
  · extract_lets x bad s₁
    have hs₁ : Canonical s₁ := setKport_canonical (bump_canonical h)
    exact ite_canonical (portGoesDown_canonical hs₁) hs₁
  · exact h

theorem sendCell_canonical {s c via} (h : Canonical s) : Canonical (sendCell s c via) :=
  ite_canonical (enqueueCell_canonical h) (dropCell_canonical h)

theorem hopsDrop_canonical {s} (h : Canonical s) : Canonical (hopsDrop s) := signalMC_canonical (bump_canonical h)

theorem relayCell_canonical {s p c} (h : Canonical s) : Canonical (relayCell s p c) := by
  unfold relayCell
  split
  · exact hopsDrop_canonical h
  exact ite_canonical (emit_canonical h) (sendCell_canonical h)

theorem receiveCell_canonical {s p c} (h : Canonical s) : Canonical (receiveCell s p c).1 := by
  unfold receiveCell
  extract_lets x s₁ d s₂ s₃
  have hs₂ : Canonical s₂ := setKport_canonical (bump_canonical h)
  have hs₃ : Canonical s₃ := ite_canonical (owe_canonical (flagMC_canonical (bump_canonical hs₂))) hs₂
  split
  · exact h
  split
  · exact setKport_canonical h
  split
  · exact h
  split
  · exact owe_canonical (flagMC_canonical (countDrop_canonical (bump_canonical h)))
  exact ite_fst_canonical (countDrop_canonical hs₃) hs₃

theorem cellArrives_canonical {s p typ c f} (h : Canonical s) (hf : ∀ {s}, Canonical s → Canonical (f s)) :
    Canonical (cellArrives s p typ c f) := by
  unfold cellArrives
  extract_lets
  split
  · exact receiveCell_canonical h
  exact ite_canonical (hf (receiveCell_canonical h)) (relayCell_canonical (receiveCell_canonical h))

theorem linkCell_canonical {s p sub c f} (h : Canonical s) (hf : ∀ {s}, Canonical s → Canonical (f s)) : Canonical (linkCell s p sub c f) :=
  ite_canonical (hf (receiveCell_canonical h)) (receiveCell_canonical h)

theorem ackCell_canonical {s c err} (h : Canonical s) : Canonical (ackCell s c err) := sendCell_canonical h

theorem commitCell_canonical {s k c ecc} (h : Canonical s) : Canonical (commitCell s k c ecc).1 := by
  unfold commitCell
  extract_lets
  split
  · split
    · exact ackCell_canonical (dropWaiters_canonical h)
    split
    · exact h
    split
    · exact ackCell_canonical (fillWords_canonical (commit_canonical (dropWaiters_canonical h)))
    exact ite_fst_canonical h (addWaiter_canonical h)
  exact ackCell_canonical (memWrite_canonical h)

theorem setStalled_canonical {s k l} (h : Canonical s) : Canonical (setStalled s k l) := setKmr_canonical h

theorem writeCell_canonical {s p c ecc} (h : Canonical s) : Canonical (writeCell s p c ecc) := by
  unfold writeCell
  extract_lets
  split
  · exact setStalled_canonical h
  exact ite_canonical (commitCell_canonical h) (setStalled_canonical (commitCell_canonical h))

theorem cellsResume_canonical {s k} (h : Canonical s) : Canonical (cellsResume s k) := by
  unfold cellsResume
  split
  · exact h
  · exact ite_canonical (setStalled_canonical (commitCell_canonical h)) (commitCell_canonical h)

theorem ackTransfer_canonical {s g r p} (h : Canonical s) : Canonical (ackTransfer s g r p) := by
  unfold ackTransfer
  extract_lets
  split
  · exact h
  · exact ite_canonical h (countDelivered_canonical (setIssued_canonical h))

theorem endRemote_canonical {s k r ok} (h : Canonical s) : Canonical (endRemote s k r ok) := by
  unfold endRemote
  extract_lets
  split
  · exact foldl_canonical (setRemote_canonical h) ackTransfer_canonical
  split
  · exact failTransfer_canonical (setRemote_canonical h)
  · exact setRemote_canonical h

theorem takeAck_canonical {s e} (h : Canonical s) : Canonical (takeAck s e) := by
  unfold takeAck
  extract_lets
  split
  · split
    · exact deliverPort_canonical (mapOpen_canonical h)
    · exact bump_canonical h
  · extract_lets
    split
    · exact ite_canonical (endRemote_canonical h) (setRemote_canonical h)
    · exact setRemote_canonical h

theorem takeAcks_canonical {s c} (h : Canonical s) : Canonical (takeAcks s c) := foldl_canonical h takeAck_canonical

theorem ackTimeout_canonical {s k} (h : Canonical s) : Canonical (ackTimeout s k) := by
  unfold ackTimeout
  extract_lets
  split
  · exact ite_canonical (endRemote_canonical h) h
  · split
    · exact ite_canonical (completeError_canonical h) h
    · exact h

theorem takeBatons_canonical {s p c foreign} (h : Canonical s) : Canonical (takeBatons s p c foreign) :=
  foldl_canonical h fun h => by
    extract_lets
    split
    · split
      · exact dropBaton_canonical h
      · exact batonArrives_canonical h
    exact batonArrives_canonical h

theorem relaySync_canonical {s p c} (h : Canonical s) : Canonical (relaySync s p c) := by
  unfold relaySync
  extract_lets bs keep s₁
  have hs₁ : Canonical s₁ := foldl_canonical h hopsDrop_canonical
  exact ite_canonical hs₁ (relayCell_canonical hs₁)

theorem syncCell_canonical {s p c foreign} (h : Canonical s) : Canonical (syncCell s p c foreign) := by
  unfold syncCell
  extract_lets
  split
  · exact receiveCell_canonical h
  exact ite_canonical (takeBatons_canonical (receiveCell_canonical h)) (relaySync_canonical (receiveCell_canonical h))

theorem showSpread_canonical {s} (h : Canonical s) : Canonical (showSpread s) := ite_canonical (wr_canonical (wr_canonical h)) (wr_canonical h)

theorem noteSpread_canonical {s p v} (h : Canonical s) : Canonical (noteSpread s p v) := ite_canonical (showSpread_canonical (setKmr_canonical h)) h

theorem refCtrlWrite_canonical {s v} (h : Canonical s) : Canonical (refCtrlWrite s v) := by
  unfold refCtrlWrite
  extract_lets src pri change src₁ s₁ s₂
  have hs₂ : Canonical s₂ := wr_canonical (wr_canonical (wr_canonical (ite_canonical (setKmr_canonical h) h)))
  exact ite_canonical h (showSpread_canonical (ite_canonical hs₂ (wr_canonical hs₂)))

theorem followManager_canonical {s p x2} (h : Canonical s) : Canonical (followManager s p x2) :=
  ite_canonical h (ite_canonical (wr_canonical (setKmr_canonical h)) (setKmr_canonical h))

theorem takeNode_canonical {s n} (h : Canonical s) : Canonical (takeNode s n) :=
  startRebuild_canonical (ite_canonical (wr_canonical (wr_canonical h)) (wr_canonical h))

theorem answerHello_canonical {s p x2} (h : Canonical s) : Canonical (answerHello s p x2) := ite_canonical (enqueueCell_canonical h) h

theorem takeAssign_canonical {s p x2} (h : Canonical s) : Canonical (takeAssign s p x2) := by
  unfold takeAssign
  split
  · exact h
  · split
    · exact h
    exact ite_canonical (ite_canonical h (takeNode_canonical h)) (sendHello_canonical h)

theorem takeHello_canonical {s p x2} (h : Canonical s) : Canonical (takeHello s p x2) := by
  unfold takeHello
  extract_lets s₁ s₂ rest src s₃
  have hs₃ : Canonical s₃ := setKmr_canonical (takeAssign_canonical (followManager_canonical (wr_canonical (wr_canonical (wr_canonical
    (wr_canonical h))))))
  exact answerHello_canonical (ite_canonical (noteSpread_canonical hs₃) hs₃)

theorem neighbourReport_canonical {s r} (h : Canonical s) : Canonical (neighbourReport s r) := by
  unfold neighbourReport
  extract_lets
  split
  · exact h
  split
  · exact ite_canonical (setKmr_canonical (startRebuild_canonical h)) (setKmr_canonical h)
  exact ite_canonical (setKmr_canonical (startRebuild_canonical h)) h

theorem writeEntry_canonical {s i r} (h : Canonical s) : Canonical (writeEntry s i r) := by
  unfold writeEntry
  extract_lets w0 same s₁ src s₂
  have hs₂ : Canonical s₂ := setKmr_canonical (wr_canonical (wr_canonical (wr_canonical h)))
  exact ite_canonical hs₂ (wr_canonical hs₂)

theorem enterMember_canonical {s r} (h : Canonical s) : Canonical (enterMember s r) := by
  unfold enterMember
  split
  · exact h
  · exact ite_canonical (writeEntry_canonical h) (sendHello_canonical (writeEntry_canonical h))

theorem becomeRoot_canonical {s} (h : Canonical s) : Canonical (becomeRoot s) := ite_canonical (wr_canonical (wr_canonical h)) h

theorem rebuildEnd_canonical {s} (h : Canonical s) : Canonical (rebuildEnd s) := by
  unfold rebuildEnd
  split
  · exact h
  exact flagMC_canonical (bump_canonical (wr_canonical (setKmr_canonical (foldl_canonical (writeEntry_canonical (foldl_canonical
    (becomeRoot_canonical h) fun h => ite_canonical (wr_canonical (wr_canonical h)) h)) enterMember_canonical))))

theorem referenceLoss_canonical {s p} (h : Canonical s) : Canonical (referenceLoss s p) := by
  unfold referenceLoss
  extract_lets
  split
  · exact setKmr_canonical h
  split
  · exact wr_canonical (setKmr_canonical (setKmr_canonical h))
  exact ite_canonical (wr_canonical (setKmr_canonical (setKmr_canonical h))) (setKmr_canonical h)

theorem holdoverExpiry_canonical {s} (h : Canonical s) : Canonical (holdoverExpiry s) :=
  ite_canonical (foldl_canonical (setKmr_canonical h) portDown_canonical) h

theorem standbyTakeover_canonical {s} (h : Canonical s) : Canonical (standbyTakeover s) := ite_canonical (flagMC_canonical (setKmr_canonical h)) h

theorem trackPeriod_canonical {s p} (h : Canonical s) : Canonical (trackPeriod s p) := ite_canonical (enqueueCell_canonical h) h

theorem setFrame_canonical {s frame slot} (h : Canonical s) : Canonical (setFrame s frame slot) :=
  foldl_canonical h fun h => wr_canonical (setKport_canonical h)

theorem takeTrack_canonical {s p c} (h : Canonical s) : Canonical (takeTrack s p c) :=
  noteSpread_canonical (setFrame_canonical (foldl_canonical h trackSample_canonical))

theorem calibrated_canonical {s p m} (h : Canonical s) : Canonical (calibrated s p m) := by
  unfold calibrated
  extract_lets
  split
  · exact foldl_canonical (wr_canonical h) fun h => ite_canonical (wr_canonical h) h
  exact wr_canonical h

theorem calibrate_canonical {s p c} (h : Canonical s) : Canonical (calibrate s p c) :=
  linkCell_canonical h (fun h => by
    extract_lets t x rtt m s₁
    have hs₁ : Canonical s₁ := wr_canonical (setKport_canonical h)
    exact ite_canonical (enqueueCell_canonical h) (ite_canonical h (ite_canonical (enqueueCell_canonical hs₁) (calibrated_canonical hs₁))))

theorem applySwap_canonical {s p} (h : Canonical s) : Canonical (applySwap s p) := ite_canonical (wr_canonical (wr_canonical h)) h

theorem transmit_canonical {s p c relayed} (h : Canonical s) : Canonical (transmit s p c relayed) :=
  emit_canonical (noteSent_canonical (bump_canonical (setKport_canonical h)))

theorem nextSlot_canonical {s p} (h : Canonical s) : Canonical (nextSlot s p) :=
  ite_canonical (setKport_canonical h) (wr_canonical (setKport_canonical h))

theorem slotTransmission_canonical {s p} (h : Canonical s) : Canonical (slotTransmission s p) := by
  unfold slotTransmission
  split
  · exact h
  extract_lets s₁ x asleep s₂
  have hs₂ : Canonical s₂ := by
    unfold s₂
    split
    · exact applySwap_canonical h
    · split
      · exact applySwap_canonical h
      · exact ite_canonical (applySwap_canonical h) (transmit_canonical (setKport_canonical (applySwap_canonical h)))
  exact nextSlot_canonical hs₂

theorem storeShape_canonical {s bs} (h : Canonical s) : Canonical (storeShape s bs) := by
  unfold storeShape
  extract_lets
  split
  · exact h
  exact ite_canonical (signalMC_canonical (wr_canonical (memWrite_canonical h))) (memWrite_canonical h)

theorem shapeTable_canonical {s a} (h : Canonical s) : Canonical (shapeTable s a) := by
  unfold shapeTable
  split
  · exact storeShape_canonical h
  · exact ite_canonical h (foldl_canonical (storeShape_canonical h) emit_canonical)

theorem performWaiting_canonical {s a n packet} (h : Canonical s) (hf : ∀ {s x1 x2}, Canonical s → Canonical (packet s x1 x2)) :
    Canonical (performWaiting s a n packet) := by
  unfold performWaiting
  split
  · exact lsuResume_canonical h
  · exact cvResume_canonical h
  · exact cellsResume_canonical h
  · exact hf h

/-! ### Lanes and hub ports -/

theorem receiverDetect_canonical {s l found} (h : Canonical s) : Canonical (receiverDetect s l found) := by
  unfold receiverDetect
  split
  · exact h
  split
  · exact wr_canonical h
  split
  · exact startSearch_canonical (ite_canonical (wr_canonical h) h)
  exact startSearch_canonical h

theorem laneRetry_canonical {s l} (h : Canonical s) : Canonical (laneRetry s l) := by
  unfold laneRetry
  split
  · exact h
  exact ite_canonical (startSearch_canonical (bump_canonical h)) (bump_canonical (wr_canonical h))

theorem offerMasks_canonical {s p} (h : Canonical s) : Canonical (offerMasks s p) := ite_canonical (sendMasks_canonical (setLanes_canonical h)) h

theorem rateFails_canonical {s l} (h : Canonical s) : Canonical (rateFails s l) := by
  unfold rateFails
  extract_lets
  split
  · split
    · exact startSearch_canonical h
    · exact offerMasks_canonical (ite_canonical (wr_canonical h) (wr_canonical h))
  exact ite_canonical (startSearch_canonical h) (wr_canonical h)

theorem searchDone_canonical {s l fom eq offered} (h : Canonical s) : Canonical (searchDone s l fom eq offered) := by
  unfold searchDone
  split
  · exact h
  split
  · exact rateFails_canonical h
  extract_lets s₁ s₂ full retrain src s₃ src₁ s₄
  have hs₁ : Canonical s₁ := wr_canonical (wr_canonical (wr_canonical h))
  have hs₄ : Canonical s₄ := setLaneState_canonical (ite_canonical (wr_canonical (wr_canonical hs₁)) (wr_canonical hs₁))
  split
  · exact setLaneState_canonical (wr_canonical hs₁)
  split
  · exact wr_canonical hs₄
  exact ite_canonical hs₄ (rateFails_canonical hs₄)

theorem blockLock_canonical {s l} (h : Canonical s) : Canonical (blockLock s l) := by
  unfold blockLock
  split
  · exact h
  extract_lets s₁ p r x s₂
  have hs₁ : Canonical s₁ := wr_canonical (wr_canonical h)
  have hs₂ : Canonical s₂ := setKport_canonical hs₁
  split
  · exact hs₁
  split
  · exact ite_canonical (portUp_canonical hs₁) hs₁
  split
  · exact startSearch_canonical hs₂
  · exact offerMasks_canonical hs₂

theorem lockLoss_canonical {s l fom} (h : Canonical s) : Canonical (lockLoss s l fom) := by
  unfold lockLoss
  split
  · exact h
  extract_lets s₁
  have hs₁ : Canonical s₁ := bump_canonical (wr_canonical h)
  exact ite_canonical (portDown_canonical hs₁) (bump_canonical (wr_canonical hs₁))

theorem txSleep_canonical {s l} (h : Canonical s) : Canonical (txSleep s l) := ite_canonical (emit_canonical (wr_canonical h)) h

theorem txWake_canonical {s l} (h : Canonical s) : Canonical (txWake s l) := ite_canonical (emit_canonical (bump_canonical (wr_canonical h))) h

theorem idleMarker_canonical {s l} (h : Canonical s) : Canonical (idleMarker s l) := ite_canonical (wr_canonical h) h

theorem wakePattern_canonical {s l} (h : Canonical s) : Canonical (wakePattern s l) := ite_canonical (wr_canonical h) h

theorem wakeTimeout_canonical {s l} (h : Canonical s) : Canonical (wakeTimeout s l) := ite_canonical (portDown_canonical h) h

theorem laneEnable_canonical {s l en} (h : Canonical s) : Canonical (laneEnable s l en) :=
  ite_canonical (wr_canonical (wr_canonical (wr_canonical (ite_canonical (portDown_canonical (wr_canonical h)) (wr_canonical h))))) (wr_canonical h)

theorem setPci_canonical {s x} (h : Canonical s) : Canonical (State.setPci s x) := update_canonical h

theorem cfgCopies_canonical {s} (h : Canonical s) : Canonical (cfgCopies s) := wr_canonical (wr_canonical (wr_canonical (wr_canonical h)))

theorem failHost_canonical {s} (h : Canonical s) : Canonical (failHost s) :=
  foldl_canonical h fun h => foldl_canonical h fun h => foldl_canonical h fun h => by
    split
    · exact ite_canonical (failTransfer_canonical h) h
    · exact ite_canonical (failTransfer_canonical h) h
    · exact h

theorem showAtc_canonical {s} (h : Canonical s) : Canonical (showAtc s) := wr_canonical (wr_canonical h)

theorem functionReset_canonical {s} (h : Canonical s) : Canonical (functionReset s) :=
  cfgCopies_canonical (showAtc_canonical (setPciGroups_canonical (setPci_canonical (failHost_canonical h))))

theorem functionLevelReset_canonical {s} (h : Canonical s) : Canonical (functionLevelReset s) :=
  wr_canonical (wr_canonical (functionReset_canonical h))

theorem setBar2Size_canonical {s c} (h : Canonical s) : Canonical (setBar2Size s c) := wr_canonical (wr_canonical h)

theorem cfgWrite_canonical {s dw v be} (h : Canonical s) : Canonical (cfgWrite s dw v be) := by
  unfold cfgWrite
  extract_lets
  split
  · exact functionLevelReset_canonical h
  exact ite_canonical (setPci_canonical (setBar2Size_canonical (setPci_canonical h))) (cfgCopies_canonical (setPci_canonical h))

theorem configRequest_canonical {s dw write v be} (h : Canonical s) : Canonical (configRequest s dw write v be) := by
  unfold configRequest
  split
  · exact emit_canonical h
  exact ite_canonical (emit_canonical h) (ite_canonical (cfgWrite_canonical h) (emit_canonical h))

theorem pcieLinkUp_canonical {s speed width flit ltssm} (h : Canonical s) : Canonical (pcieLinkUp s speed width flit ltssm) := by
  unfold pcieLinkUp
  split
  · exact h
  exact foldl_canonical (wr_canonical (wr_canonical (wr_canonical (wr_canonical (wr_canonical h))))) fun h => ite_canonical (wr_canonical
    (wr_canonical h)) h

theorem pcieDrop_canonical {s} (h : Canonical s) : Canonical (pcieDrop s) :=
  foldl_canonical (wr_canonical (wr_canonical (wr_canonical (wr_canonical (wr_canonical h))))) fun h => ite_canonical (wr_canonical h) h

theorem pcieLinkDown_canonical {s} (h : Canonical s) : Canonical (pcieLinkDown s) := by
  unfold pcieLinkDown
  split
  · extract_lets s₁
    have hs₁ : Canonical s₁ := owe_canonical (wr_canonical (pcieDrop_canonical h))
    exact ite_canonical (signalMC_canonical hs₁) hs₁
  exact h

theorem pciePortReset_canonical {s} (h : Canonical s) : Canonical (pciePortReset s) := by
  unfold pciePortReset
  exact pcieDrop_canonical (resetFields_canonical (functionReset_canonical h))

theorem translationCompletion_canonical {s page write invalidated} (h : Canonical s) :
    Canonical (translationCompletion s page write invalidated) := by
  unfold translationCompletion
  split
  · exact h
  exact ite_canonical (emit_canonical (bump_canonical h)) (showAtc_canonical (setPci_canonical h))

theorem settleInvals_canonical {s} (h : Canonical s) : Canonical (settleInvals s) := foldl_canonical (setPci_canonical h) emit_canonical

theorem atsInvalidate_canonical {s page n} (h : Canonical s) : Canonical (atsInvalidate s page n) := by
  unfold atsInvalidate
  extract_lets hit locked src s₁
  have hs₁ : Canonical s₁ := showAtc_canonical (setPci_canonical h)
  exact settleInvals_canonical (bump_canonical (ite_canonical (flagMC_canonical hs₁) hs₁))

theorem pageResponse_canonical {s n success} (h : Canonical s) : Canonical (pageResponse s n success) := by
  unfold pageResponse
  split
  · exact bump_canonical h
  · extract_lets s₁ s₂
    have hs₂ : Canonical s₂ := by
      unfold s₂
      split
      · exact groupAnswered_canonical (setPciGroups_canonical h)
      · exact setPciGroups_canonical h
    exact nextRequest_canonical hs₂

theorem cxlCfgStart_canonical {s p data} (h : Canonical s) : Canonical (cxlCfgStart s p data) := by
  unfold cxlCfgStart
  split
  · exact h
  extract_lets s₁
  have hs₁ : Canonical s₁ := by
    unfold s₁
    split
    · exact wr_canonical h
    · exact h
  exact emit_canonical (wr_canonical (wr_canonical hs₁))

theorem cxlCfgDone_canonical {s p ok answer} (h : Canonical s) : Canonical (cxlCfgDone s p ok answer) := by
  unfold cxlCfgDone
  split
  · exact h
  extract_lets s₁
  have hs₁ : Canonical s₁ := wr_canonical (wr_canonical h)
  split
  · split
    · exact wr_canonical hs₁
    · exact hs₁
  exact bump_canonical (wr_canonical hs₁)

theorem cxlRemove_canonical {s p} (h : Canonical s) : Canonical (cxlRemove s p) :=
  ite_canonical (wr_canonical h) (ite_canonical h (setLaneState_canonical h))

theorem cxlDrop_canonical {s p} (h : Canonical s) : Canonical (cxlDrop s p) :=
  foldl_canonical (wr_canonical (wr_canonical (wr_canonical (clearBit_canonical (wr_canonical (setLaneState_canonical h)))))) fun h =>
    ite_canonical (wr_canonical h) h

theorem cxlRemoved_canonical {s p} (h : Canonical s) : Canonical (cxlRemoved s p) := ite_canonical (wr_canonical (cxlDrop_canonical h)) h

theorem cxlLinkDown_canonical {s p} (h : Canonical s) : Canonical (cxlLinkDown s p) := by
  unfold cxlLinkDown
  split
  · exact markDown_canonical (owe_canonical (flagMC_canonical (bump_canonical (wr_canonical (cxlDrop_canonical h)))))
  exact h

end Sys2Proof.Machine
end

section
/-!
PROOFS. Memories stay canonical: NV, the network, the fabric and its loads.
-/
namespace Sys2Proof.Machine

/-! ### Non-volatile memory -/

theorem setConf_canonical {s x} (h : Canonical s) : Canonical (State.setConf s x) := update_canonical h

theorem nvWrite_canonical {s o bs} (h : Canonical s) : Canonical (nvWrite s o bs) :=
  ⟨h.sram, h.full, h.hbm, h.cxl, canonicalBytes_writeBytes bs h.nv⟩

theorem nvGuarded_canonical {s o bs} (h : Canonical s) : Canonical (nvGuarded s o bs) :=
  ite_canonical (wr_canonical h) (ite_canonical (setSec_canonical (nvWrite_canonical h)) (nvWrite_canonical h))

theorem extendM_canonical {s i d} (h : Canonical s) : Canonical (extendM s i d) := foldl_canonical h wr_canonical

theorem clearM_canonical {s i} (h : Canonical s) : Canonical (clearM s i) := foldl_canonical h wr_canonical

/-! ### Domains and traces of the network -/

theorem domainSleep_canonical {s q d} (h : Canonical s) : Canonical (domainSleep s q d) := ite_canonical (setAsleep_canonical h) h

theorem respondRead_canonical {s p data} (h : Canonical s) : Canonical (respondRead s p data) := by
  unfold respondRead
  split <;> exact foldl_canonical h respond_canonical

theorem putWaiting_canonical {s p} (h : Canonical s) : Canonical (putWaiting s p) := setNoc_canonical h

theorem packetTry_canonical {s p store ws} (h : Canonical s) : Canonical (packetTry s p store ws).1 := by
  unfold packetTry
  extract_lets
  split
  · exact setNoc_canonical (dropWaiter_canonical h)
  exact ite_fst_canonical h (putWaiting_canonical (addWaiter_canonical h))

theorem serveRead_canonical {s p} (h : Canonical s) : Canonical (serveRead s p) := by
  unfold serveRead
  extract_lets
  split
  · split
    · exact respondRead_canonical h
    split
    · exact putWaiting_canonical h
    exact ite_canonical (respondRead_canonical (feLeave_canonical (packetTry_canonical h))) (packetTry_canonical h)
  exact respondRead_canonical (memRead_canonical h)

theorem serveWrite_canonical {s p} (h : Canonical s) : Canonical (serveWrite s p) := by
  unfold serveWrite
  extract_lets
  split
  · split
    · exact respond_canonical h
    split
    · exact putWaiting_canonical h
    split
    · exact respond_canonical (fillWords_canonical (commit_canonical (packetTry_canonical h)))
    exact packetTry_canonical h
  exact respond_canonical (memWrite_canonical h)

theorem serveRequest_canonical {s p a} (h : Canonical s) : Canonical (serveRequest s p a) := by
  unfold serveRequest
  split
  · exact h
  · exact h
  · exact h
  · exact ite_canonical (respondRead_canonical h) (respond_canonical h)
  · exact ite_canonical (serveRead_canonical h) (serveWrite_canonical h)

theorem packetResume_canonical {s src txn} (h : Canonical s) : Canonical (packetResume s src txn) := by
  unfold packetResume
  split
  · exact ite_canonical (serveRead_canonical h) (serveWrite_canonical h)
  · exact h

theorem cellPacket_canonical {s p} (h : Canonical s) : Canonical (cellPacket s p) := sendCell_canonical h

theorem cellError_canonical {s p} (h : Canonical s) : Canonical (cellError s p) := by
  unfold cellError
  extract_lets
  split
  · exact h
  split
  · exact endRemote_canonical h
  · exact completeError_canonical h
  · exact emit_canonical h

theorem batonPacket_canonical {s p} (h : Canonical s) : Canonical (batonPacket s p) :=
  ite_canonical (sendCell_canonical h) (batonArrives_canonical h)

theorem arrivePacket_canonical {s p} (h : Canonical s) : Canonical (arrivePacket s p) := ite_canonical h (arriveFrom_canonical h)

theorem takeResponse_canonical {s r bad} (h : Canonical s) : Canonical (takeResponse s r bad) := by
  unfold takeResponse
  extract_lets
  split
  · exact misroute_canonical h
  · extract_lets o' s₁ s₂
    have hs₂ : Canonical s₂ := ite_canonical (emit_canonical (mapOpen_canonical h)) (emit_canonical (mapOpen_canonical h))
    split
    · exact deliverPort_canonical (mapOpen_canonical h)
    · exact ite_canonical (mapOpen_canonical hs₂) hs₂

theorem takeRegResp_canonical {s r} (h : Canonical s) : Canonical (takeRegResp s r) := by
  unfold takeRegResp
  split
  · exact misroute_canonical h
  · exact emit_canonical (setNoc_canonical h)

theorem refuseRequest_canonical {s p} (h : Canonical s) : Canonical (refuseRequest s p) :=
  ite_canonical (cellError_canonical h) (completeError_canonical h)

theorem completionTimeout_canonical {s src txn write ctl} (h : Canonical s) : Canonical (completionTimeout s src txn write ctl) := by
  unfold completionTimeout
  split
  · exact h
  · exact ite_canonical h (completeError_canonical h)

theorem wakeFail_canonical {s q l} (h : Canonical s) : Canonical (wakeFail s q l) :=
  wr_canonical (foldl_canonical h fun h => ite_canonical (refuseRequest_canonical (misroute_canonical h)) (misroute_canonical h))

theorem ringWrite_canonical {q s rs} (h : Canonical s) : Canonical (ringWrite q s rs) := by
  induction rs generalizing s with
  | nil => exact h
  | cons r rest ih =>
    have hw := memWrite_canonical (da := ringPlace s q) (bs := r.flatMap (fun w => bytesLE 8 w)) (a := Around.quiet) h
    exact ih (ite_canonical (wr_canonical hw) (wr_canonical (wr_canonical hw)))

theorem markGaps_canonical {s ns} (h : Canonical s) : Canonical (markGaps s ns) := setNoc_canonical h

theorem traceArrives_canonical {s p} (h : Canonical s) : Canonical (traceArrives s p) :=
  ite_canonical (markGaps_canonical h) (ringWrite_canonical h)

theorem traceDiscard_canonical {s q} (h : Canonical s) : Canonical (traceDiscard s q) := by
  unfold traceDiscard
  extract_lets
  split
  · exact wr_canonical (bump_canonical (markGaps_canonical (setNoc_canonical h)))
  · exact wr_canonical (bump_canonical (markGaps_canonical (setNoc_canonical h)))
  · split
    · exact h
    · exact ite_canonical h (wr_canonical (bump_canonical (markGaps_canonical (setNoc_canonical h))))

theorem probeRefuse_canonical {s n} (h : Canonical s) : Canonical (probeRefuse s n) := ite_canonical (wr_canonical h) h

theorem probeCtrlWrite_canonical {s n v} (h : Canonical s) : Canonical (probeCtrlWrite s n v) := by
  unfold probeCtrlWrite
  extract_lets fs s₁
  have hs₁ : Canonical s₁ := ite_canonical (ite_canonical (probeRefuse_canonical h) h) (foldl_canonical h wrClamped_canonical)
  exact ite_canonical (wr_canonical (wr_canonical hs₁)) (wr_canonical hs₁)

/-! ### The fabric -/

theorem setFab_canonical {s f} (h : Canonical s) : Canonical (State.setFab s f) := update_canonical h

theorem initCells_canonical {s r} (h : Canonical s) : Canonical (initCells s r) := setFab_canonical h

theorem ramEccRead_canonical {s b a outcome flip} (h : Canonical s) : Canonical (ramEccRead s b a outcome flip) := by
  unfold ramEccRead
  extract_lets q v s₁
  have hs₁ : Canonical s₁ := emit_canonical (wr_canonical (bump_canonical h))
  split
  · exact emit_canonical h
  · exact emit_canonical (wr_canonical (bump_canonical h))
  · exact ite_canonical (signalMC_canonical hs₁) hs₁

theorem pllWrite_canonical {s p v} (h : Canonical s) : Canonical (pllWrite s p v) := by
  unfold pllWrite
  extract_lets s₁
  have hs₁ : Canonical s₁ := ite_canonical h (wr_canonical (wr_canonical (wr_canonical h)))
  exact ite_canonical (wr_canonical (wr_canonical hs₁)) (wr_canonical hs₁)

theorem pllLock_canonical {s p} (h : Canonical s) : Canonical (pllLock s p) := ite_canonical (wr_canonical h) h

theorem pllLockLoss_canonical {s p} (h : Canonical s) : Canonical (pllLockLoss s p) := ite_canonical (wr_canonical (wr_canonical h)) h

theorem markSlices_canonical {s u} (h : Canonical s) : Canonical (markSlices s u) := foldl_canonical h fun h => ite_canonical (setFab_canonical h) h

theorem markFire_canonical {s u} (h : Canonical s) : Canonical (markFire s u) := by
  unfold markFire
  extract_lets t p now st s₁ k p' s₂
  have hs₁ : Canonical s₁ := markSlices_canonical (emit_canonical (wr_canonical h))
  have hs₂ : Canonical s₂ := wr_canonical (wr_canonical (wr_canonical hs₁))
  split
  · exact h
  split
  · exact wr_canonical (wr_canonical hs₁)
  exact ite_canonical (wr_canonical (bump_canonical hs₂)) hs₂

theorem markCfgWrite_canonical {s u v} (h : Canonical s) : Canonical (markCfgWrite s u v) :=
  wr_canonical (ite_canonical h (wr_canonical (wrClamped_canonical (wr_canonical h))))

theorem portRequest_canonical {s n kind dst ga words fe data} (h : Canonical s) : Canonical (portRequest s n kind dst ga words fe data) := by
  unfold portRequest
  extract_lets
  split
  · exact h
  split
  · exact emit_canonical (bump_canonical (wr_canonical (wr_canonical h)))
  split
  · split
    · exact h
    split
    · exact h
    · exact showPort_canonical (emit_canonical (openReq_canonical h))
  · split
    · exact h
    split
    · split
      · exact h
      · exact bump_canonical (showPort_canonical (emit_canonical (openReq_canonical h)))
    split
    · exact h
    · exact bump_canonical (showPort_canonical (emit_canonical (openReq_canonical h)))
  · exact emit_canonical h
  · exact emit_canonical h

theorem targetDeliver_canonical {s p} (h : Canonical s) : Canonical (targetDeliver s p) := by
  unfold targetDeliver
  split
  · exact completeError_canonical h
  · exact ite_canonical (emit_canonical h) (emit_canonical (mapOpen_canonical h))

theorem targetAccess_canonical {s p} (h : Canonical s) : Canonical (targetAccess s p) :=
  ite_canonical (emit_canonical h) (targetDeliver_canonical (openReq_canonical h))

theorem isolatePort_canonical {s n} (h : Canonical s) : Canonical (isolatePort s n) := showPort_canonical (wr_canonical h)

theorem setBankMV_canonical {s b mv} (h : Canonical s) : Canonical (setBankMV s b mv) := wr_canonical (wr_canonical h)

theorem vccioFault_canonical {s b mv} (h : Canonical s) : Canonical (vccioFault s b mv) :=
  ite_canonical (setBankMV_canonical h) (flagMC_canonical (bump_canonical (wr_canonical (setBankMV_canonical h))))

theorem vccioResume_canonical {s b mv} (h : Canonical s) : Canonical (vccioResume s b mv) :=
  ite_canonical (wr_canonical (setBankMV_canonical h)) (setBankMV_canonical h)

/-! ### Slices -/

theorem setSlice_canonical {s n x} (h : Canonical s) : Canonical (State.setSlice s n x) := setFab_canonical h

theorem setDm_canonical {s n m a v} (h : Canonical s) : Canonical (setDm s n m a v) := setFab_canonical h

theorem putAcc_canonical {s n i v} (h : Canonical s) : Canonical (putAcc s n i v) := by
  unfold putAcc
  extract_lets
  split
  · exact setSlice_canonical (bump_canonical (wr_canonical h))
  exact ite_canonical (setSlice_canonical (bump_canonical (wr_canonical h))) (setSlice_canonical h)

theorem movr_canonical {s n i d} (h : Canonical s) : Canonical (movr s n i d) := by
  unfold movr
  extract_lets
  split
  · exact setSlice_canonical (bump_canonical (wr_canonical h))
  exact ite_canonical (setSlice_canonical (bump_canonical (wr_canonical h))) (setSlice_canonical h)

theorem stepWalker_canonical {s n i how} (h : Canonical s) : Canonical (stepWalker s n i how) := by
  unfold stepWalker
  extract_lets
  split
  · exact setSlice_canonical h
  · exact setSlice_canonical h
  · exact h

theorem stepOperand_canonical {s n c} (h : Canonical s) : Canonical (stepOperand s n c) :=
  ite_canonical (stepWalker_canonical h) (ite_canonical (stepWalker_canonical h) h)

theorem setSlicePC_canonical {s n a} (h : Canonical s) : Canonical (setSlicePC s n a) := wr_canonical h

theorem takeStop_canonical {s n} (h : Canonical s) : Canonical (takeStop s n) := by
  unfold takeStop
  split
  · extract_lets s₁
    have hs₁ : Canonical s₁ := wr_canonical (wr_canonical h)
    exact ite_canonical (wr_canonical hs₁) hs₁
  exact h

theorem sliceNext_canonical {s n cycles} (h : Canonical s) : Canonical (sliceNext s n cycles) :=
  takeStop_canonical (wr_canonical (ite_canonical (setSlice_canonical (bump_canonical h)) (setSlicePC_canonical (setSlice_canonical (bump_canonical
    h)))))

theorem sliceJump_canonical {s n target} (h : Canonical s) : Canonical (sliceJump s n target) :=
  takeStop_canonical (setSlicePC_canonical (bump_canonical h))

theorem sliceIssue_canonical {s n op f} (h : Canonical s) (hf : ∀ {s x1}, Canonical s → Canonical (f s x1)) : Canonical (sliceIssue s n op f) :=
  ite_canonical (hf h) h

theorem sliceArith_canonical {s n w g} (h : Canonical s) (hf : ∀ {s x1 x2}, Canonical s → Canonical (g s x1 x2)) :
    Canonical (sliceArith s n w g) := by
  unfold sliceArith
  extract_lets x a b st sw s₁ s₂
  have hs₂ : Canonical s₂ := foldl_canonical (hf h) stepOperand_canonical
  exact sliceNext_canonical (ite_canonical (stepWalker_canonical (setDm_canonical hs₂)) hs₂)

theorem sliceWait_canonical {s n on'} (h : Canonical s) : Canonical (sliceWait s n on') := wr_canonical (wr_canonical h)

theorem sliceGo_canonical {s n} (h : Canonical s) : Canonical (sliceGo s n) := wr_canonical (wr_canonical h)

theorem sliceFifo_canonical {s n w t} (h : Canonical s) (e : sliceFifo s n w = some t) : Canonical t := by
  unfold sliceFifo at e
  extract_lets at e
  split at e
  · split at e
    · cases e
    · cases e; exact setSlice_canonical h
  · split at e
    · cases e
    · cases e; exact setSlice_canonical h

theorem sliceInOut_canonical {s n w} (h : Canonical s) : Canonical (sliceInOut s n w) := by
  unfold sliceInOut
  split
  · rename_i t heq
    exact sliceNext_canonical (sliceFifo_canonical h heq)
  · exact sliceWait_canonical h

theorem sliceResume_canonical {s n} (h : Canonical s) : Canonical (sliceResume s n) := by
  unfold sliceResume
  extract_lets
  split
  · split
    · rename_i t heq
      exact sliceNext_canonical (sliceGo_canonical (sliceFifo_canonical h heq))
    · exact h
  exact h

theorem sliceWaitm_canonical {s n} (h : Canonical s) : Canonical (sliceWaitm s n) :=
  ite_canonical (sliceNext_canonical (wr_canonical h)) (sliceWait_canonical h)

theorem pendSet_canonical {s n} (h : Canonical s) : Canonical (pendSet s n) := by
  unfold pendSet
  extract_lets
  split
  · exact h
  split
  · exact sliceNext_canonical (sliceGo_canonical (setSlice_canonical h))
  exact ite_canonical (bump_canonical (wr_canonical (setSlice_canonical h))) (wr_canonical (setSlice_canonical h))

theorem sliceRep_canonical {s n w} (h : Canonical s) : Canonical (sliceRep s n w) := wr_canonical (setSlice_canonical (sliceNext_canonical h))

theorem sliceLoop_canonical {s n w} (h : Canonical s) : Canonical (sliceLoop s n w) :=
  takeStop_canonical (setSlicePC_canonical (setSlice_canonical (bump_canonical h)))

theorem sliceBr_canonical {s n w} (h : Canonical s) : Canonical (sliceBr s n w) := ite_canonical (sliceJump_canonical h) (sliceNext_canonical h)

theorem sliceWset_canonical {s n w} (h : Canonical s) : Canonical (sliceWset s n w) := sliceNext_canonical (setSlice_canonical h)

theorem sliceWstep_canonical {s n w} (h : Canonical s) : Canonical (sliceWstep s n w) := sliceNext_canonical (setSlice_canonical h)

theorem sliceHalt_canonical {s n} (h : Canonical s) : Canonical (sliceHalt s n) := wr_canonical (sliceNext_canonical h)

theorem sliceFault_canonical {s n} (h : Canonical s) : Canonical (sliceFault s n) := ite_canonical (wr_canonical (wr_canonical h)) h

theorem sliceStart_canonical {s n} (h : Canonical s) : Canonical (sliceStart s n) := ite_canonical (wr_canonical h) h

theorem sliceStop_canonical {s n} (h : Canonical s) : Canonical (sliceStop s n) := takeStop_canonical (wr_canonical h)

theorem sliceClearFault_canonical {s n} (h : Canonical s) : Canonical (sliceClearFault s n) := ite_canonical (wr_canonical h) h

theorem sliceReset_canonical {s n} (h : Canonical s) : Canonical (sliceReset s n) := by
  unfold sliceReset
  extract_lets s₁ s₂ s₃
  have hs₃ : Canonical s₃ := wr_canonical (wr_canonical (wr_canonical (wr_canonical (wr_canonical (wr_canonical (wr_canonical (setSlice_canonical
    h)))))))
  exact ite_canonical (sliceStart_canonical hs₃) hs₃

theorem clearRegion_canonical {s r} (h : Canonical s) : Canonical (clearRegion s r) := foldl_canonical (initCells_canonical h) sliceReset_canonical

theorem memPortNext_canonical {s n} (h : Canonical s) : Canonical (memPortNext s n) := ite_canonical (wr_canonical h) h

theorem memAddrWrite_canonical {s n v} (h : Canonical s) : Canonical (memAddrWrite s n v) := wr_canonical (wr_canonical (wr_canonical h))

theorem memPortRead_canonical {s n} (h : Canonical s) : Canonical (memPortRead s n) := emit_canonical (memPortNext_canonical h)

theorem memPortWrite_canonical {s n v} (h : Canonical s) : Canonical (memPortWrite s n v) := by
  unfold memPortWrite
  split
  · exact wr_canonical h
  · exact memPortNext_canonical (setDm_canonical h)

theorem fifoHandshake_canonical {s n output k v} (h : Canonical s) : Canonical (fifoHandshake s n output k v) := by
  unfold fifoHandshake
  extract_lets
  split
  · exact h
  split
  · split
    · exact h
    · exact emit_canonical (setSlice_canonical h)
  exact ite_canonical h (setSlice_canonical h)

/-! ### Configuration loads -/

theorem errorOut_canonical {s o} (h : Canonical s) : Canonical (errorOut s o) := by
  unfold errorOut
  split
  · exact deliverPort_canonical (mapOpen_canonical h)
  · exact emit_canonical (mapOpen_canonical h)

theorem dropPacket_canonical {s p} (h : Canonical s) : Canonical (dropPacket s p) := dropWaiters_canonical (setNoc_canonical h)

theorem closeWrapper_canonical {s inside} (h : Canonical s) : Canonical (closeWrapper s inside) :=
  foldl_canonical (setNoc_canonical (foldl_canonical (foldl_canonical (foldl_canonical (setNoc_canonical h) showPort_canonical) errorOut_canonical)
    dropPacket_canonical)) wakeFail_canonical

theorem failReads_canonical {s lo n} (h : Canonical s) : Canonical (failReads s lo n) := foldl_canonical h transferError_canonical

theorem frameContents_canonical {s f data} (h : Canonical s) : Canonical (frameContents s f data) := by
  unfold frameContents
  extract_lets
  split
  · exact ite_canonical h (setFab_canonical h)
  · exact ite_canonical h (ite_canonical (setFab_canonical h) (setFab_canonical h))
  · exact h

theorem writeFrame_canonical {s f data place} (h : Canonical s) : Canonical (writeFrame s f data place) :=
  frameContents_canonical (setConf_canonical h)

theorem clearFrames_canonical {s r} (h : Canonical s) : Canonical (clearFrames s r) := setFab_canonical (setConf_canonical h)

theorem wreg_canonical {s scope r v t} (h : Canonical s) (e : wreg s scope r v = some t) : Canonical t := by
  unfold wreg at e
  split at e
  · extract_lets at e
    split at e
    · cases e; exact wr_canonical h
    · cases e
  · extract_lets at e
    split at e
    · cases e; exact setFab_canonical h
    · cases e
  · extract_lets at e
    split at e
    · cases e; exact setFab_canonical h
    · cases e
  · cases e

theorem putFrames_canonical {s l fs data len} (h : Canonical s) : Canonical (putFrames s l fs data len).1 :=
  foldl_fst_canonical h fun h => (wr_canonical (writeFrame_canonical h))

theorem oneRecord_canonical {s l ochre bs} (h : Canonical s) : Canonical (oneRecord s l ochre bs).2.1 := by
  unfold oneRecord
  extract_lets
  split
  · split
    · exact h
    split
    · exact putFrames_canonical h
    split <;> exact h
  · split
    · exact h
    split
    · exact h
    split
    · exact putFrames_canonical h
    exact h
  · split
    · exact h
    split
    · rename_i t heq
      exact wreg_canonical h heq
    · split <;> exact h
  · split <;> exact h
  · split
    · exact wr_canonical (clearFrames_canonical h)
    split <;> exact h
  · exact h
  · split <;> exact h
  · exact h

theorem runRecords_canonical {ochre n s l bs} (h : Canonical s) : Canonical (runRecords ochre n s l bs).1 := by
  induction n generalizing s l bs with
  | zero => exact h
  | succ n ih =>
    unfold runRecords
    extract_lets r
    have hr : Canonical r.2.1 := oneRecord_canonical h
    split
    · exact h
    split
    · exact ite_fst_canonical hr (ih hr)
    · exact hr

theorem showFailed_canonical {s} (h : Canonical s) : Canonical (showFailed s) := wr_canonical h

theorem commitSignatures_canonical {s scope boot} (h : Canonical s) : Canonical (commitSignatures s scope boot) :=
  showFailed_canonical (foldl_canonical h setConf_canonical)

theorem quietSlice_canonical {s n} (h : Canonical s) : Canonical (quietSlice s n) :=
  ite_canonical (wr_canonical (wr_canonical (wr_canonical (setSlice_canonical h)))) (setSlice_canonical h)

theorem setRegion_canonical {s r st digest} (h : Canonical s) : Canonical (setRegion s r st digest) := setConf_canonical (wr_canonical h)

theorem loadResetCluster_canonical {s c} (h : Canonical s) : Canonical (loadResetCluster s c) :=
  setConf_canonical (setRst_canonical (clearCluster_canonical (failReads_canonical (closeWrapper_canonical h))))

theorem freezeScope_canonical {s scope} (h : Canonical s) : Canonical (freezeScope s scope) :=
  foldl_canonical (foldl_canonical h fun h => wr_canonical (setConf_canonical (foldl_canonical h quietSlice_canonical))) loadResetCluster_canonical

theorem cfgStart_canonical {s} (h : Canonical s) : Canonical (cfgStart s) := by
  unfold cfgStart
  split
  · exact h
  split
  · exact wr_canonical (wr_canonical h)
  · exact wr_canonical (wr_canonical (wr_canonical (wr_canonical (bump_canonical (setConf_canonical (foldl_canonical h isolatePort_canonical))))))

theorem releaseScope_canonical {s scope ports} (h : Canonical s) : Canonical (releaseScope s scope ports) :=
  foldl_canonical (foldl_canonical h setConf_canonical) fun h => showPort_canonical (wr_canonical h)

theorem endLoad_canonical {s} (h : Canonical s) : Canonical (endLoad s) := wr_canonical (wr_canonical (setConf_canonical h))

theorem loadFail_canonical {s l cause frame} (h : Canonical s) : Canonical (loadFail s l cause frame) := by
  unfold loadFail
  extract_lets wrote s₁ s₂ s₃ s₄ s₅ s₆ s₇
  have hs₂ : Canonical s₂ := bump_canonical (wr_canonical (wr_canonical (wr_canonical (wr_canonical (wr_canonical h)))))
  have hs₄ : Canonical s₄ := ite_canonical (signalMC_canonical (owe_canonical hs₂)) (owe_canonical hs₂)
  have hs₇ : Canonical s₇ := foldl_canonical (foldl_canonical (releaseScope_canonical hs₄) wr_canonical) fun h => ite_canonical
    (releaseCluster_canonical (setConf_canonical h)) h
  exact ite_canonical (endLoad_canonical hs₇) (wr_canonical (setConf_canonical hs₄))

theorem copyLapRecord_canonical {s} (h : Canonical s) : Canonical (copyLapRecord s) :=
  foldl_canonical (ite_canonical (owe_canonical h) (ite_canonical (owe_canonical h) h)) wr_canonical

theorem loadEnd_canonical {s l} (h : Canonical s) : Canonical (loadEnd s l) := by
  unfold loadEnd
  split
  · exact loadFail_canonical h
  extract_lets h₁ version s₁ s₂ s₃ s₄ s₅ s₆ src s₇
  have hs₁ : Canonical s₁ := foldl_canonical h fun h => setConf_canonical (wr_canonical (setRegion_canonical (setConf_canonical
    (clearRegion_canonical h))))
  have hs₃ : Canonical s₃ := commitSignatures_canonical (releaseScope_canonical hs₁)
  have hs₅ : Canonical s₅ := foldl_canonical (ite_canonical hs₃ (extendM_canonical (setConf_canonical hs₃))) fun h => releaseCluster_canonical
    (setConf_canonical h)
  have hs₆ : Canonical s₆ := ite_canonical (extendM_canonical hs₅) hs₅
  have hs₇ : Canonical s₇ := ite_canonical (copyLapRecord_canonical (extendM_canonical (setConf_canonical (setConf_canonical hs₆)))) hs₆
  exact wr_canonical (endLoad_canonical hs₇)

theorem imageBytes_canonical {s l o n ext bad} (h : Canonical s) : Canonical (imageBytes s l o n ext bad).1 := by
  unfold imageBytes
  split
  · exact h
  · exact memRead_canonical h
  · exact h

theorem setLoad_canonical {s l} (h : Canonical s) : Canonical (setLoad s l) := setConf_canonical h

theorem showBytes_canonical {s l n} (h : Canonical s) : Canonical (showBytes s l n) := ite_canonical (wr_canonical h) h

theorem scopeIsolated_canonical {s timeout} (h : Canonical s) : Canonical (scopeIsolated s timeout) := by
  unfold scopeIsolated
  split
  · exact ite_canonical (freezeScope_canonical (wr_canonical (setLoad_canonical h))) h
  · exact h

theorem loadHeader_canonical {s ext bad} (h : Canonical s) : Canonical (loadHeader s ext bad) := by
  unfold loadHeader
  split
  · exact h
  · split
    · exact h
    extract_lets r s₁
    have hs₁ : Canonical s₁ := showBytes_canonical (imageBytes_canonical h)
    split
    · exact imageBytes_canonical h
    · exact loadFail_canonical (imageBytes_canonical h)
    · exact ite_canonical (loadFail_canonical hs₁) (setLoad_canonical hs₁)

theorem signatureVerify_canonical {s sigExt tableExt bad} (h : Canonical s) : Canonical (signatureVerify s sigExt tableExt bad) := by
  unfold signatureVerify
  split
  · exact h
  · split
    · exact h
    · split
      · exact h
      extract_lets r t s₁
      have ht : Canonical t.1 := imageBytes_canonical (imageBytes_canonical h)
      have hs₁ : Canonical s₁ := showBytes_canonical ht
      split
      · exact ite_canonical (loadFail_canonical hs₁) (wr_canonical (setLoad_canonical hs₁))
      · exact loadFail_canonical (imageBytes_canonical h)
      · exact loadFail_canonical ht
      · exact ht

theorem chunkVerified_canonical {s ext bad} (h : Canonical s) : Canonical (chunkVerified s ext bad) := by
  unfold chunkVerified
  split
  · exact h
  · split
    · exact h
    · split
      · exact h
      split
      · exact loadFail_canonical h
      extract_lets o n r s₁
      have hs₁ : Canonical s₁ := showBytes_canonical (imageBytes_canonical h)
      split
      · exact imageBytes_canonical h
      · exact loadFail_canonical (imageBytes_canonical h)
      · split
        · exact loadFail_canonical hs₁
        extract_lets x
        have hx : Canonical x.1 := runRecords_canonical hs₁
        split
        · exact loadEnd_canonical hx
        · exact loadFail_canonical hx
        · exact ite_canonical (loadFail_canonical hx) (setLoad_canonical hx)

theorem loadTimeout_canonical {s} (h : Canonical s) : Canonical (loadTimeout s) := by
  unfold loadTimeout
  split
  · exact ite_canonical (loadFail_canonical h) h
  · exact h

theorem loadAbort_canonical {s} (h : Canonical s) : Canonical (loadAbort s) := by
  unfold loadAbort
  split
  · exact loadFail_canonical h
  · exact h

theorem loadReset_canonical {s regions clusters} (h : Canonical s) : Canonical (loadReset s regions clusters) := by
  unfold loadReset
  split
  · exact ite_canonical (loadFail_canonical h) h
  · exact h

theorem blankRegions_canonical {s rs} (h : Canonical s) : Canonical (blankRegions s rs) :=
  showFailed_canonical (setConf_canonical (foldl_canonical h fun h => setRegion_canonical (clearFrames_canonical h)))

theorem ochreFails_canonical {s scope} (h : Canonical s) : Canonical (ochreFails s scope) :=
  owe_canonical (wr_canonical (update_canonical (endLoad_canonical (setConf_canonical (blankRegions_canonical h)))))

theorem ochreFallback_canonical {s} (h : Canonical s) : Canonical (ochreFallback s) := by
  unfold ochreFallback
  split
  · exact h
  · extract_lets s₁ scope h₁ dimg l x s₂ s₃ s₄ s₅ src s₆
    have hs₁ : Canonical s₁ := bump_canonical (wr_canonical h)
    have hx : Canonical x.1 := runRecords_canonical hs₁
    have hs₂ : Canonical s₂ := foldl_canonical hx fun h => setRegion_canonical (wr_canonical (setConf_canonical (clearRegion_canonical h)))
    have hs₆ : Canonical s₆ := setConf_canonical (foldl_canonical (owe_canonical (extendM_canonical (commitSignatures_canonical hs₂))) fun h =>
      releaseCluster_canonical (setConf_canonical h))
    split
    · exact ochreFails_canonical hs₁
    split
    · exact endLoad_canonical (ite_canonical (copyLapRecord_canonical hs₆) hs₆)
    · exact ochreFails_canonical hx

theorem regionRelease_canonical {s r} (h : Canonical s) : Canonical (regionRelease s r) :=
  ite_canonical (wr_canonical (setConf_canonical (releaseScope_canonical h))) h

theorem takeBytes_canonical {s l bs} (h : Canonical s) : Canonical (takeBytes s l bs) := wr_canonical (setLoad_canonical h)

theorem slaveWord_canonical {s parallel v rdy} (h : Canonical s) : Canonical (slaveWord s parallel v rdy) := by
  unfold slaveWord
  extract_lets
  split
  · exact h
  split
  · exact bump_canonical h
  split
  · exact h
  · split
    · exact takeBytes_canonical h
    split
    · exact setLoad_canonical h
    · exact takeBytes_canonical h

theorem sspCsRise_canonical {s} (h : Canonical s) : Canonical (sspCsRise s) := by
  unfold sspCsRise
  split
  · exact ite_canonical (bump_canonical (setLoad_canonical h)) h
  · exact h

/-! ### The security unit -/

theorem writeBoot_canonical {s primary trial tries} (h : Canonical s) : Canonical (writeBoot s primary trial tries) := by
  unfold writeBoot
  split <;> exact nvWrite_canonical h

theorem romBegin_canonical {s mcOnly} (h : Canonical s) : Canonical (romBegin s mcOnly) := by
  unfold romBegin
  extract_lets s₁
  have hs₁ : Canonical s₁ := wr_canonical (wr_canonical h)
  split
  · exact clearM_canonical (clearM_canonical hs₁)
  exact extendM_canonical (extendM_canonical (foldl_canonical hs₁ clearM_canonical))

theorem romChoose_canonical {s} (h : Canonical s) : Canonical (romChoose s).1 := by
  unfold romChoose
  split
  · exact h
  · split
    · exact ite_fst_canonical (owe_canonical (wr_canonical (writeBoot_canonical h))) (writeBoot_canonical h)
    exact h

theorem romStart_canonical {s k trial tries} (h : Canonical s) : Canonical (romStart s k trial tries) :=
  update_canonical (wr_canonical (wr_canonical (wr_canonical (wr_canonical (extendM_canonical h)))))

theorem romBoot_canonical {s mcOnly} (h : Canonical s) : Canonical (romBoot s mcOnly) := by
  unfold romBoot
  extract_lets c
  have hc : Canonical c.1 := romChoose_canonical (romBegin_canonical h)
  split
  · exact romStart_canonical hc
  split
  · exact owe_canonical (wr_canonical (romStart_canonical hc))
  exact wr_canonical (setSec_canonical hc)

theorem mcRestart_canonical {s} (h : Canonical s) : Canonical (mcRestart s) := by
  unfold mcRestart
  split
  · exact h
  exact romBoot_canonical (owe_canonical (wr_canonical (wr_canonical (bump_canonical (update_canonical h)))))

theorem rollbackGo_canonical {s} (h : Canonical s) : Canonical (rollbackGo s) :=
  ite_canonical h (ite_canonical (wr_canonical h) (wr_canonical (setSec_canonical h)))

theorem floorBlown_canonical {s} (h : Canonical s) : Canonical (floorBlown s) := by
  unfold floorBlown
  split
  · exact h
  · exact owe_canonical (wr_canonical (setSec_canonical h))

theorem cutBlowing_canonical {s} (h : Canonical s) : Canonical (cutBlowing s) := by
  unfold cutBlowing
  split
  · exact h
  · exact setSec_canonical (fresh_canonical h)

theorem verifyGo_canonical {s} (h : Canonical s) : Canonical (verifyGo s) := ite_canonical h (setSec_canonical h)

theorem secEvent_canonical {s f} (h : Canonical s) : Canonical (secEvent s f) := ite_canonical (signalMC_canonical h) h

theorem verifyDone_canonical {s} (h : Canonical s) : Canonical (verifyDone s) := by
  unfold verifyDone
  split
  · exact h
  · extract_lets n ok src s₁ s₂
    have hs₂ : Canonical s₂ := bump_canonical (wr_canonical (wr_canonical (setSec_canonical h)))
    exact secEvent_canonical (ite_canonical hs₂ (bump_canonical hs₂))

theorem bootSwitch_canonical {s} (h : Canonical s) : Canonical (bootSwitch s) :=
  ite_canonical h (ite_canonical (writeBoot_canonical h) (wr_canonical h))

theorem bootConfirm_canonical {s} (h : Canonical s) : Canonical (bootConfirm s) := ite_canonical (writeBoot_canonical h) h

theorem secExtend_canonical {s v} (h : Canonical s) : Canonical (secExtend s v) := by
  unfold secExtend
  split
  · exact h
  exact ite_canonical (setSec_canonical h) (extendM_canonical (setSec_canonical h))

theorem attGo_canonical {s} (h : Canonical s) : Canonical (attGo s) := ite_canonical h (setSec_canonical h)

theorem reportWritten_canonical {s ecc} (h : Canonical s) : Canonical (reportWritten s ecc) := by
  unfold reportWritten
  split
  · exact h
  · exact secEvent_canonical (bump_canonical (memWrite_canonical (setSec_canonical h)))

theorem dbgChallenge_canonical {s} (h : Canonical s) : Canonical (dbgChallenge s) := by
  unfold dbgChallenge
  split
  · exact h
  exact setSec_canonical (foldl_canonical h fun h => wr_canonical (fresh_canonical h))

theorem dbgGo_canonical {s ecc} (h : Canonical s) : Canonical (dbgGo s ecc) := by
  unfold dbgGo
  split
  · exact h
  extract_lets r good src s₁
  have hs₁ : Canonical s₁ := setSec_canonical (memRead_canonical h)
  split
  · split
    · exact secEvent_canonical (extendM_canonical (wr_canonical (owe_canonical hs₁)))
    exact secEvent_canonical (wr_canonical hs₁)
  · exact secEvent_canonical (wr_canonical hs₁)

theorem recoveryHead_canonical {s head} (h : Canonical s) : Canonical (recoveryHead s head) := by
  unfold recoveryHead
  extract_lets
  split
  · exact setSec_canonical h
  exact ite_canonical (setSec_canonical h) (ite_canonical (setSec_canonical h) (setSec_canonical (nvWrite_canonical h)))

theorem recoveryNext_canonical {s} (h : Canonical s) : Canonical (recoveryNext s) := by
  unfold recoveryNext
  split
  · exact h
  extract_lets
  split
  · exact recoveryHead_canonical h
  · extract_lets o bs s₁ src s₂
    have hs₂ : Canonical s₂ := setSec_canonical (nvWrite_canonical h)
    split
    · exact h
    exact ite_canonical hs₂ (mcRestart_canonical (writeBoot_canonical hs₂))

end Sys2Proof.Machine
end

section
/-!
PROOFS. Memories stay canonical: resets, MORDANT, the pacer and tests.
-/
namespace Sys2Proof.Machine

/-! ### Resets and power -/

theorem holdContents_canonical {s pcs} (h : Canonical s) : Canonical (holdContents s pcs) := foldl_canonical h wr_canonical

/-- A device-level reset empties on-chip memory, keeps HBM only as a reset of the device, and leaves the CXL tier and NV. -/
theorem clearedState_canonical {s scope} (h : Canonical s) : Canonical (clearedState s scope) := by
  have hbm {c : Bool} : CanonicalBytes (if c then s.mem.hbm else []) := by
    cases c
    · rfl
    · exact h.hbm
  exact holdContents_canonical ⟨rfl, rfl, hbm, h.cxl, h.nv⟩

theorem deviceReset_canonical {s src scope} (h : Canonical s) : Canonical (deviceReset s src scope) := by
  unfold deviceReset
  split
  · extract_lets s₁
    have hs₁ : Canonical s₁ := ite_canonical h (owe_canonical (clearedState_canonical h))
    exact setBit_canonical (ite_canonical (wr_canonical hs₁) hs₁)
  extract_lets drive s₁ s₂ s₃
  have hs₂ : Canonical s₂ := bump_canonical (wr_canonical (wr_canonical (wr_canonical (clearedState_canonical (cutBlowing_canonical h)))))
  have hs₃ : Canonical s₃ := ite_canonical (bump_canonical (wr_canonical hs₂)) hs₂
  exact ite_canonical (emit_canonical (owe_canonical hs₃)) (owe_canonical hs₃)

theorem bootSelect_canonical {s codes} (h : Canonical s) : Canonical (bootSelect s codes) := by
  unfold bootSelect
  extract_lets b same bin s₁ s₂
  have hs₂ : Canonical s₂ := wr_canonical (wr_canonical (wr_canonical (wr_canonical (wr_canonical (wr_canonical h)))))
  exact wr_canonical (wr_canonical (ite_canonical hs₂ (owe_canonical hs₂)))

theorem trimLoad_canonical {s bad nvOK} (h : Canonical s) : Canonical (trimLoad s bad nvOK) := by
  unfold trimLoad
  split
  · exact wr_canonical (wr_canonical h)
  extract_lets s₁
  have hs₁ : Canonical s₁ := wr_canonical (wr_canonical h)
  split
  · exact owe_canonical (wr_canonical hs₁)
  exact owe_canonical (update_canonical (wr_canonical hs₁))

theorem resetRelease_canonical {s codes bad nvOK} (h : Canonical s) : Canonical (resetRelease s codes bad nvOK) := by
  unfold resetRelease
  split
  · exact showSpread_canonical (romBoot_canonical (update_canonical (trimLoad_canonical (bootSelect_canonical h))))
  exact h

theorem failHeld_canonical {s q} (h : Canonical s) : Canonical (failHeld s q) := ite_canonical h (wakeFail_canonical (setNoc_canonical h))

theorem clearPort_canonical {s p} (h : Canonical s) : Canonical (clearPort s p) :=
  portGoesDown_canonical (resetFields_canonical (resetFields_canonical h))

theorem clearQuarter_canonical {s q} (h : Canonical s) : Canonical (clearQuarter s q) :=
  setNoc_canonical (setLaneState_canonical (setMem_canonical (setKmr_canonical (holdContents_canonical (update_canonical (foldl_canonical
    (foldl_canonical (foldl_canonical (failHeld_canonical h) clearCluster_canonical) portGoesDown_canonical) clearRegion_canonical))))))

theorem assertBlock_canonical {s kind i} (h : Canonical s) : Canonical (assertBlock s kind i) := by
  unfold assertBlock
  split
  · exact loadReset_canonical (setRst_canonical (clearQuarter_canonical (failReads_canonical (closeWrapper_canonical h))))
  · exact setRst_canonical (clearCluster_canonical (loadReset_canonical (failReads_canonical (closeWrapper_canonical h))))
  · exact resetCore_canonical (failReads_canonical (closeWrapper_canonical h))
  · exact setRst_canonical (clearRegion_canonical (closeWrapper_canonical h))
  · exact setRst_canonical (clearPort_canonical (closeWrapper_canonical h))

theorem showBlocks_canonical {s} (h : Canonical s) : Canonical (showBlocks s) := wr_canonical (wr_canonical h)

theorem blockReset_canonical {s kind i hold} (h : Canonical s) : Canonical (blockReset s kind i hold) := by
  unfold blockReset
  split
  · exact h
  split
  · exact bump_canonical (wr_canonical h)
  split
  · exact h
  exact showBlocks_canonical (update_canonical (ite_canonical h (bump_canonical (assertBlock_canonical h))))

theorem releaseQuarter_canonical {s q} (h : Canonical s) : Canonical (releaseQuarter s q) := by
  unfold releaseQuarter
  split
  · exact h
  exact foldl_canonical (setRst_canonical h) fun h => ite_canonical h (releaseCluster_canonical h)

theorem blockRelease_canonical {s kind i} (h : Canonical s) : Canonical (blockRelease s kind i) := by
  unfold blockRelease
  extract_lets
  split
  · exact h
  exact showBlocks_canonical (by
    split
    · exact releaseQuarter_canonical (update_canonical h)
    · exact ite_canonical (update_canonical h) (releaseCluster_canonical (update_canonical h))
    · exact releaseCore_canonical (update_canonical h)
    · exact setRst_canonical (update_canonical h))

theorem quarterFalls_canonical {s q} (h : Canonical s) : Canonical (quarterFalls s q) :=
  wr_canonical (setConf_canonical (blankRegions_canonical (assertBlock_canonical h)))

theorem fenceQuarter_canonical {s q} (h : Canonical s) : Canonical (fenceQuarter s q) := by
  unfold fenceQuarter
  extract_lets s₁ s₂ src s₃ s₄
  have hs₂ : Canonical s₂ := foldl_canonical (quarterFalls_canonical h) wr_canonical
  have hs₄ : Canonical s₄ := owe_canonical (bump_canonical (ite_canonical (update_canonical hs₂) (wr_canonical hs₂)))
  exact ite_canonical (signalMC_canonical hs₄) hs₄

theorem qctrlWrite_canonical {s v} (h : Canonical s) : Canonical (qctrlWrite s v) := by
  unfold qctrlWrite
  split
  · exact h
  exact ite_canonical (wr_canonical h) (update_canonical (wr_canonical (foldl_canonical h quarterFalls_canonical)))

theorem quarterPowerOn_canonical {s q} (h : Canonical s) : Canonical (quarterPowerOn s q) := by
  unfold quarterPowerOn
  split
  · exact ite_canonical (update_canonical h) (releaseQuarter_canonical (wr_canonical (update_canonical h)))
  exact h

/-- The rails fall: HBM loses its contents. -/
theorem railsFall_canonical {s cause} (h : Canonical s) : Canonical (railsFall s cause) := by
  unfold railsFall
  extract_lets t
  have ht : Canonical t := wr_canonical (clearedState_canonical (cutBlowing_canonical h))
  clear_value t
  exact ⟨ht.sram, ht.full, rfl, ht.cxl, ht.nv⟩

theorem inputRemoved_canonical {s} (h : Canonical s) : Canonical (inputRemoved s) := by
  unfold inputRemoved
  split
  · exact update_canonical (wr_canonical (wr_canonical (wr_canonical (clearedState_canonical (cutBlowing_canonical h)))))
  exact h

theorem powerSequence_canonical {s} (h : Canonical s) : Canonical (powerSequence s) :=
  emit_canonical (owe_canonical (bump_canonical (wr_canonical (wr_canonical (wr_canonical (clearedState_canonical h))))))

theorem powerOn_canonical {s recs} (h : Canonical s) : Canonical (powerOn s recs) :=
  ite_canonical h (setLaneState_canonical (powerSequence_canonical h))

theorem inputReturn_canonical {s} (h : Canonical s) : Canonical (inputReturn s) := ite_canonical (powerSequence_canonical h) h

theorem nsysrst_canonical {s low} (h : Canonical s) : Canonical (nsysrst s low) := by
  unfold nsysrst
  split
  · exact h
  split
  · exact update_canonical h
  extract_lets
  split
  · exact ite_canonical (deviceReset_canonical (update_canonical (wr_canonical (update_canonical h)))) (update_canonical h)
  split
  · exact ite_canonical (update_canonical h) (setBit_canonical (update_canonical h))
  exact deviceReset_canonical (update_canonical h)

theorem perst_canonical {s} (h : Canonical s) : Canonical (perst s) := by
  unfold perst
  split
  · exact h
  exact ite_canonical (ite_canonical h (pciePortReset_canonical h)) (deviceReset_canonical h)

theorem hotReset_canonical {s} (h : Canonical s) : Canonical (hotReset s) :=
  ite_canonical h (ite_canonical (pciePortReset_canonical h) (deviceReset_canonical h))

theorem resetOfKind_canonical {s kind i src hold} (h : Canonical s) : Canonical (resetOfKind s kind i src hold) := by
  unfold resetOfKind
  split
  · exact deviceReset_canonical h
  exact ite_canonical (mcRestart_canonical h) (blockReset_canonical h)

theorem executeReset_canonical {s} (h : Canonical s) : Canonical (executeReset s) := by
  unfold executeReset
  split
  · exact resetOfKind_canonical (update_canonical h)
  · exact h

theorem remoteReset_canonical {s p c} (h : Canonical s) : Canonical (remoteReset s p c) :=
  cellArrives_canonical h (fun h => ite_canonical (resetOfKind_canonical h) (wr_canonical h))

/-! ### MORDANT -/

theorem rewrite_canonical {s ds} (h : Canonical s) : Canonical (rewrite s ds) :=
  foldl_canonical h fun h => frameContents_canonical (setConf_canonical h)

theorem markGroup_canonical {s g mark frame tried} (h : Canonical s) : Canonical (markGroup s g mark frame tried) := by
  unfold markGroup
  extract_lets first src s₁ s₂ die s₃
  have hs₂ : Canonical s₂ := showFailed_canonical (setConf_canonical h)
  have hs₃ : Canonical s₃ := ite_canonical (owe_canonical hs₂) hs₂
  exact ite_canonical (signalMC_canonical hs₃) hs₃

theorem failGroup_canonical {s g frame tried} (h : Canonical s) : Canonical (failGroup s g frame tried) :=
  markGroup_canonical (bump_canonical (wr_canonical h))

theorem checkGroup_canonical {s g faults mismatch sigEcc} (h : Canonical s) : Canonical (checkGroup s g faults mismatch sigEcc) := by
  unfold checkGroup
  extract_lets fs single double repair s₁ s₂
  have hs₂ : Canonical s₂ := ite_canonical (wr_canonical (bump_canonical (bump_canonical h))) (bump_canonical h)
  split
  · split
    · exact setConf_canonical (bump_canonical (rewrite_canonical (wr_canonical hs₂)))
    · exact markGroup_canonical (wr_canonical hs₂)
  split
  · exact hs₂
  split
  · exact hs₂
  split
  · split
    · extract_lets s₁
      have hs₁ : Canonical s₁ := bump_canonical (rewrite_canonical hs₂)
      exact ite_canonical hs₁ (failGroup_canonical hs₁)
    · exact failGroup_canonical hs₂
  exact failGroup_canonical hs₂

theorem groupCheck_canonical {s faults mismatch sigEcc coverUs} (h : Canonical s) : Canonical (groupCheck s faults mismatch sigEcc coverUs) := by
  unfold groupCheck
  split
  · exact h
  split
  · exact wr_canonical h
  extract_lets g s₁
  have hs₁ : Canonical s₁ := wr_canonical (ite_canonical h (checkGroup_canonical h))
  split
  · exact wr_canonical hs₁
  exact bump_canonical (wr_canonical (wr_canonical hs₁))

theorem mordantReset_canonical {s} (h : Canonical s) : Canonical (mordantReset s) := owe_canonical (bump_canonical (wr_canonical (wr_canonical h)))

theorem mordantWatchdog_canonical {s} (h : Canonical s) : Canonical (mordantWatchdog s) :=
  ite_canonical h (mordantReset_canonical (fireHeat_canonical (wr_canonical h)))

theorem tmrMismatch_canonical {s a b c} (h : Canonical s) : Canonical (tmrMismatch s a b c) := by
  unfold tmrMismatch
  split
  · exact h
  exact mordantReset_canonical (fireHeat_canonical (wr_canonical (foldl_canonical h wr_canonical)))

theorem mdtLogPop_canonical {s} (h : Canonical s) : Canonical (mdtLogPop s) := emit_canonical (setConf_canonical h)

/-! ### The pacer -/

theorem setPwr_canonical {s p} (h : Canonical s) : Canonical (State.setPwr s p) := update_canonical h

theorem takePower_canonical {s v i mw} (h : Canonical s) : Canonical (takePower s v i mw) :=
  wr_canonical (bump_canonical (wr_canonical (wr_canonical (wr_canonical (wr_canonical (setPwr_canonical h))))))

theorem takeTemp_canonical {s i x} (h : Canonical s) : Canonical (takeTemp s i x) := setPwr_canonical (wr_canonical (wr_canonical h))

theorem takeVolt_canonical {s i mv} (h : Canonical s) : Canonical (takeVolt s i mv) := by
  unfold takeVolt
  split
  · exact setBankMV_canonical h
  exact ite_canonical (wr_canonical (wr_canonical h)) (wr_canonical h)

theorem takeAin_canonical {s i code} (h : Canonical s) : Canonical (takeAin s i code) := ite_canonical (wr_canonical h) h

theorem heatDue_canonical {s x1 idx} (h : Canonical s) : Canonical (heatDue s x1 idx) := setPwr_canonical (fireHeat_canonical h)

theorem heatSample_canonical {s x1 key idx c x} (h : Canonical s) : Canonical (heatSample s x1 key idx c x) := by
  unfold heatSample
  extract_lets first f0 f hit off active n fire now seen src s₁ s₂ s₃
  have hs₃ : Canonical s₃ := ite_canonical (heatDue_canonical (wr_canonical (setPwr_canonical h))) (wr_canonical (setPwr_canonical h))
  exact ite_canonical (pacLog_canonical hs₃) hs₃

theorem showActive_canonical {s x1} (h : Canonical s) : Canonical (showActive s x1) := wr_canonical h

theorem heatTick_canonical {t s x2} (h : Canonical s) : Canonical (heatTick t s x2) := by
  unfold heatTick
  split
  · exact h
  extract_lets src c s₁
  have hs₁ : Canonical s₁ := by
    unfold s₁
    split
    · exact foldl_canonical h fun h => ite_canonical (heatSample_canonical h) h
    split
    · exact foldl_canonical h fun h => ite_canonical (heatSample_canonical h) h
    split
    · exact h
    split
    · exact heatSample_canonical h
    · exact h
  exact ite_canonical hs₁ (showActive_canonical hs₁)

theorem showTrip_canonical {s} (h : Canonical s) : Canonical (showTrip s) := foldl_canonical (wr_canonical h) wr_canonical

theorem applyCeilings_canonical {s} (h : Canonical s) : Canonical (applyCeilings s) := by
  unfold applyCeilings
  exact showTrip_canonical (wr_canonical (foldl_canonical (setPwr_canonical (foldl_canonical h fun h => throttleRefused_canonical (wr_canonical
    h))) fun h => wr_canonical (wr_canonical h)))

theorem pacerTick_canonical {s t} (h : Canonical s) : Canonical (pacerTick s t) := by
  unfold pacerTick
  split
  · exact h
  exact applyCeilings_canonical (wr_canonical (foldl_canonical (foldl_canonical (foldl_canonical (foldl_canonical (takePower_canonical h) fun h =>
    ite_canonical (takeTemp_canonical h) h) fun h => ite_canonical (takeVolt_canonical h) h) fun h => ite_canonical (takeAin_canonical h) h)
    heatTick_canonical))

theorem railFault_canonical {s i} (h : Canonical s) : Canonical (railFault s i) := by
  unfold railFault
  extract_lets s₁ s₂
  have hs₂ : Canonical s₂ := bump_canonical (wr_canonical (ite_canonical (owe_canonical (fenceQuarter_canonical h)) (deviceReset_canonical h)))
  exact ite_canonical (signalMC_canonical hs₂) hs₂

theorem heatAction_canonical {s x1 idx} (h : Canonical s) : Canonical (heatAction s x1 idx) := by
  unfold heatAction
  split
  · exact showTrip_canonical (wr_canonical h)
  split
  · exact showTrip_canonical (wr_canonical h)
  split
  · exact railsFall_canonical h
  split
  · exact deviceReset_canonical h
  split
  · exact railsFall_canonical h
  split
  · exact railFault_canonical h
  exact ite_canonical (mordantReset_canonical h) (ite_canonical (blockReset_canonical h) h)

theorem heatFire_canonical {s x1} (h : Canonical s) : Canonical (heatFire s x1) := foldl_canonical (setPwr_canonical h) heatAction_canonical

theorem tripWrite_canonical {s v} (h : Canonical s) : Canonical (tripWrite s v) := by
  unfold tripWrite
  exact showTrip_canonical (foldl_canonical (ite_canonical (wr_canonical h) h) fun h => ite_canonical (wr_canonical h) h)

theorem kick_canonical {s} (h : Canonical s) : Canonical (kick s) := wr_canonical h

theorem watchdogWarning_canonical {s} (h : Canonical s) : Canonical (watchdogWarning s) :=
  ite_canonical h (owe_canonical (flagMC_canonical (wr_canonical h)))

theorem watchdogExpiry_canonical {s} (h : Canonical s) : Canonical (watchdogExpiry s) := by
  unfold watchdogExpiry
  split
  · exact h
  extract_lets s₁
  have hs₁ : Canonical s₁ := fireHeat_canonical (wr_canonical h)
  exact ite_canonical (deviceReset_canonical hs₁) (mcRestart_canonical hs₁)

theorem pacLogPop_canonical {s} (h : Canonical s) : Canonical (pacLogPop s) := emit_canonical (setPwr_canonical h)

theorem pwrAvgRead_canonical {s} (h : Canonical s) : Canonical (pwrAvgRead s) := emit_canonical (wr_canonical h)

theorem clearMax_canonical {s i} (h : Canonical s) : Canonical (clearMax s i) := setPwr_canonical (wr_canonical h)

theorem pacTempRead_canonical {s i} (h : Canonical s) : Canonical (pacTempRead s i) := emit_canonical (clearMax_canonical h)

/-! ### Tests -/

theorem setPins_canonical {s x} (h : Canonical s) : Canonical (State.setPins s x) := update_canonical h

theorem fenceCluster_canonical {s c} (h : Canonical s) : Canonical (fenceCluster s c) := by
  unfold fenceCluster
  extract_lets s₁ s₂
  have hs₂ : Canonical s₂ := owe_canonical (bump_canonical (wr_canonical (assertBlock_canonical h)))
  exact ite_canonical (signalMC_canonical hs₂) hs₂

theorem unfenceCluster_canonical {s c} (h : Canonical s) : Canonical (unfenceCluster s c) := by
  unfold unfenceCluster
  extract_lets src s₁
  have hs₁ : Canonical s₁ := setConf_canonical (wr_canonical h)
  exact ite_canonical hs₁ (releaseCluster_canonical hs₁)

theorem fenceClusters_canonical {s m} (h : Canonical s) : Canonical (fenceClusters s m) := by
  unfold fenceClusters
  extract_lets
  split
  · exact h
  split
  · exact wr_canonical h
  exact foldl_canonical (foldl_canonical h fenceCluster_canonical) unfenceCluster_canonical

theorem unfenceQuarter_canonical {s q} (h : Canonical s) : Canonical (unfenceQuarter s q) :=
  update_canonical (resetFields_canonical (wr_canonical h))

theorem fenceQuarters_canonical {s m} (h : Canonical s) : Canonical (fenceQuarters s m) := by
  unfold fenceQuarters
  extract_lets
  split
  · exact h
  split
  · exact wr_canonical h
  exact foldl_canonical (foldl_canonical h fenceQuarter_canonical) unfenceQuarter_canonical

theorem lapStart_canonical {s} (h : Canonical s) : Canonical (lapStart s) := by
  unfold lapStart
  split
  · exact h
  split
  · exact wr_canonical h
  exact nvWrite_canonical (foldl_canonical (wr_canonical (wr_canonical (wr_canonical (setPins_canonical h)))) fun h => setRegion_canonical
    (setConf_canonical h))

theorem lapComplete_canonical {s f} (h : Canonical s) : Canonical (lapComplete s f) := by
  unfold lapComplete
  split
  · exact h
  extract_lets old diff skipCxl steps links skip src s₁ s₂ s₃ s₄ s₅ s₆
  have hs₃ : Canonical s₃ := wr_canonical (wr_canonical (wr_canonical (nvWrite_canonical (ite_canonical (setPins_canonical h) h))))
  have hs₆ : Canonical s₆ := foldl_canonical (ite_canonical (bump_canonical hs₃) (bump_canonical (bump_canonical hs₃))) fun h =>
    showBlocks_canonical (update_canonical (assertBlock_canonical h))
  exact ite_canonical (signalMC_canonical hs₆) hs₆

theorem tapTake_canonical {s n out} (h : Canonical s) : Canonical (tapTake s n out) := emit_canonical (setPins_canonical h)

theorem tapIdcode_canonical {s} (h : Canonical s) : Canonical (tapIdcode s) := tapTake_canonical h

theorem tapBypass_canonical {s} (h : Canonical s) : Canonical (tapBypass s) := tapTake_canonical h

theorem tapSample_canonical {s levels load} (h : Canonical s) : Canonical (tapSample s levels load) := tapTake_canonical (setPins_canonical h)

theorem tapExtest_canonical {s levels} (h : Canonical s) : Canonical (tapExtest s levels) :=
  ite_canonical (tapTake_canonical h) (tapBypass_canonical h)

theorem tapClamp_canonical {s} (h : Canonical s) : Canonical (tapClamp s) := ite_canonical (tapTake_canonical h) (tapBypass_canonical h)

/-! ### Device-level units -/

theorem setDict_canonical {s d} (h : Canonical s) : Canonical (State.setDict s d) := update_canonical h

theorem setAL_canonical {s v} (h : Canonical s) : Canonical (setAL s v) := ite_canonical (setDict_canonical (wr_canonical h)) (wr_canonical h)

theorem alError_canonical {s code} (h : Canonical s) : Canonical (alError s code) := wr_canonical (wr_canonical h)

theorem settleAL_canonical {s} (h : Canonical s) : Canonical (settleAL s) := ite_canonical (alError_canonical (setAL_canonical h)) h

theorem alRequest_canonical {s v ack} (h : Canonical s) : Canonical (alRequest s v ack) := by
  unfold alRequest
  extract_lets s₁ s₂
  have hs₂ : Canonical s₂ := ite_canonical (wr_canonical (wr_canonical (settleAL_canonical h))) (settleAL_canonical h)
  split
  · exact hs₂
  split
  · exact alError_canonical hs₂
  · exact setAL_canonical hs₂

theorem showAlert_canonical {s} (h : Canonical s) : Canonical (showAlert s) := ite_canonical h (emit_canonical (update_canonical h))

theorem mailboxEmcy_canonical {s m} (h : Canonical s) : Canonical (mailboxEmcy s m) := by
  unfold mailboxEmcy
  extract_lets
  split
  · exact wr_canonical (bump_canonical (setDict_canonical h))
  split
  · exact setDict_canonical h
  split
  · exact wr_canonical (bump_canonical (setDict_canonical (setDict_canonical h)))
  exact setDict_canonical h

theorem kamrusEmcy_canonical {s m node} (h : Canonical s) : Canonical (kamrusEmcy s m node) := by
  unfold kamrusEmcy
  split
  · exact sendCell_canonical h
  · exact h

theorem emcyLog_canonical {s m node} (h : Canonical s) : Canonical (emcyLog s m node) := setDict_canonical h

theorem raiseMsix_canonical {s} (h : Canonical s) : Canonical (raiseMsix s) := ite_canonical (emit_canonical (fresh_canonical h)) h

theorem emergency_canonical {s event byte7} (h : Canonical s) : Canonical (emergency s event byte7) := by
  unfold emergency
  split
  · exact h
  extract_lets src s₁ src₁ s₂ m b s₃ src₂ s₄
  have hs₁ : Canonical s₁ := ite_canonical (setDict_canonical h) h
  have hs₄ : Canonical s₄ := setDict_canonical (emcyLog_canonical (bump_canonical (ite_canonical (setDict_canonical hs₁) hs₁)))
  exact raiseMsix_canonical (mailboxEmcy_canonical (kamrusEmcy_canonical (ite_canonical (emit_canonical hs₄) hs₄)))

theorem emergencyCell_canonical {s p c} (h : Canonical s) : Canonical (emergencyCell s p c) :=
  cellArrives_canonical h (fun h => ite_canonical h (kamrusEmcy_canonical (emcyLog_canonical h)))

end Sys2Proof.Machine
end

section
/-!
PROOFS. Memories stay canonical: registers, objects, the field port, the network's packets and the clock.
-/
namespace Sys2Proof.Machine

/-! ### Registers -/

theorem quietOut_canonical {s t} (h : Canonical t) : Canonical (State.quietOut s t) := update_canonical h

theorem readEffect_canonical {s r n full low high} (h : Canonical s) : Canonical (readEffect s r n full low high) := by
  unfold readEffect
  split
  · exact wr_canonical h
  · exact ite_canonical (update_canonical h) h
  · exact ite_canonical (quietOut_canonical (prqPop_canonical h)) h
  · exact ite_canonical (quietOut_canonical (mdtLogPop_canonical h)) h
  · exact ite_canonical (quietOut_canonical (pacLogPop_canonical h)) h
  · exact ite_canonical (update_canonical h) h
  · exact ite_canonical (wr_canonical h) h
  · exact ite_canonical (clearMax_canonical h) h
  · exact ite_canonical (quietOut_canonical (memPortRead_canonical h)) h
  · exact h

theorem regRead_canonical {s r n half} (h : Canonical s) : Canonical (regRead s r n half).1 := by
  unfold regRead
  split
  · exact ite_fst_canonical h (ite_fst_canonical h (quietOut_canonical (fePortLoad_canonical h)))
  exact readEffect_canonical h

theorem writeField_canonical {n w s f} (h : Canonical s) : Canonical (writeField n w s f) := by
  unfold writeField
  split
  · exact wr_canonical h
  · exact wr_canonical h
  · exact h

theorem writeFields_canonical {s r n w} (h : Canonical s) : Canonical (writeFields s r n w) := foldl_canonical h writeField_canonical

theorem whenAsked_canonical {s f w g} (h : Canonical s) (hf : ∀ {s}, Canonical s → Canonical (g s)) : Canonical (State.whenAsked s f w g) :=
  ite_canonical (hf h) h

theorem heatWrite_canonical {s r x2 w} (h : Canonical s) : Canonical (heatWrite s r x2 w) := by
  unfold heatWrite
  extract_lets refuse t was s₁
  have hs₁ : Canonical s₁ := ite_canonical (ite_canonical (wr_canonical h) h) (writeFields_canonical h)
  split
  · exact ite_canonical (ite_canonical (wr_canonical (writeField_canonical h)) (writeField_canonical h)) (wr_canonical h)
  split
  · split
    · exact wr_canonical hs₁
    exact setPwr_canonical (wr_canonical (wr_canonical hs₁))
  exact ite_canonical (wr_canonical h) (writeFields_canonical h)

theorem mailboxGo_canonical {s} (h : Canonical s) : Canonical (mailboxGo s) := ite_canonical h (bump_canonical (wr_canonical h))

theorem slotTableWrite_canonical {s n w} (h : Canonical s) : Canonical (slotTableWrite s n w) := ite_canonical h (wr_canonical h)

theorem kmrCtrlWrite_canonical {s p w} (h : Canonical s) : Canonical (kmrCtrlWrite s p w) := by
  unfold kmrCtrlWrite
  extract_lets s₁ s₂
  have hs₂ : Canonical s₂ := ite_canonical (portDown_canonical (writeFields_canonical h)) (writeFields_canonical h)
  exact ite_canonical hs₂ (wr_canonical hs₂)

theorem portCtrlWrite_canonical {s n w} (h : Canonical s) : Canonical (portCtrlWrite s n w) := showPort_canonical (writeFields_canonical h)

theorem ctxCtrlWrite_canonical {s k w} (h : Canonical s) : Canonical (ctxCtrlWrite s k w) := by
  unfold ctxCtrlWrite
  extract_lets
  split
  · exact ctxFail_canonical (writeFields_canonical h)
  · exact ctxSave_canonical (writeFields_canonical h)
  · exact ctxRestore_canonical (writeFields_canonical h)
  · exact writeFields_canonical h

theorem trkCtrlWrite_canonical {s t w} (h : Canonical s) : Canonical (trkCtrlWrite s t w) :=
  ite_canonical (trkEnable_canonical h) (trkDisable_canonical h)

theorem hurCtrlWrite_canonical {s c w} (h : Canonical s) : Canonical (hurCtrlWrite s c w) :=
  ite_canonical (openTable_canonical (writeFields_canonical h)) (writeFields_canonical h)

theorem regEffect_canonical {s r n w low} (h : Canonical s) : Canonical (regEffect s r n w low) := by
  unfold regEffect
  split
  · exact whenAsked_canonical (whenAsked_canonical (dutyWrite_canonical (foldl_canonical h writeField_canonical)) preempt_canonical)
      continueStopped_canonical
  · exact whenAsked_canonical (whenAsked_canonical (writeFields_canonical h) histClear_canonical) slotClear_canonical
  · exact imemLo_canonical h
  · exact imemHi_canonical h
  · exact ctxCtrlWrite_canonical h
  · exact whenAsked_canonical (whenAsked_canonical (whenAsked_canonical h queueStart_canonical) queueStop_canonical) clearFault_canonical
  · exact ite_canonical h (writeFields_canonical h)
  · exact rangeWrite_canonical h
  · extract_lets
    split
    · exact abandonSet_canonical (writeFields_canonical h)
    exact ite_canonical (resumeSet_canonical (writeFields_canonical h)) (writeFields_canonical h)
  · exact hurCtrlWrite_canonical h
  · exact hurCfgWrite_canonical h
  · exact hurStateWrite_canonical h
  · exact hurOp_canonical h
  · exact winWrite_canonical h
  · exact winWrite_canonical h
  · exact trkCtrlWrite_canonical h
  · exact ite_canonical (wr_canonical h) (writeFields_canonical h)
  · exact ite_canonical (wr_canonical h) (writeFields_canonical h)
  · exact ite_canonical (wr_canonical h) (writeFields_canonical h)
  · exact ite_canonical (wr_canonical h) (writeFields_canonical h)
  · exact ite_canonical (wr_canonical h) (writeFields_canonical h)
  · exact ite_canonical (wr_canonical h) (writeFields_canonical h)
  · exact trkStep_canonical h
  · exact ite_canonical h (writeFields_canonical h)
  · exact ite_canonical h (writeFields_canonical h)
  · exact ite_canonical h (writeFields_canonical h)
  · exact whenAsked_canonical (writeFields_canonical h) (fun h => ite_canonical h (armSlot_canonical h))
  · exact sliceAll_canonical (writeFields_canonical h)
  · exact admitWrite_canonical h
  · exact clockWrite_canonical h
  · exact ringPin_canonical h
  · exact doorbell_canonical h
  · exact kmrCtrlWrite_canonical h
  · exact whenAsked_canonical (writeFields_canonical h) wr_canonical
  · exact slotTableWrite_canonical h
  · exact refCtrlWrite_canonical h
  · exact hbmBandWrite_canonical h
  · exact xltInv_canonical h
  · exact cxlPrqResp_canonical h
  · exact cxlWinCfgWrite_canonical h
  · exact ite_canonical (wr_canonical h) (writeFields_canonical h)
  · exact ite_canonical (wr_canonical h) (writeFields_canonical h)
  · exact probeCtrlWrite_canonical h
  · exact ite_canonical (probeRefuse_canonical h) (writeFields_canonical h)
  · exact ite_canonical (probeRefuse_canonical h) (writeFields_canonical h)
  · exact ite_canonical (probeRefuse_canonical h) (writeFields_canonical h)
  · exact ite_canonical (probeRefuse_canonical h) (writeFields_canonical h)
  · exact pllWrite_canonical h
  · exact portCtrlWrite_canonical h
  · exact markCfgWrite_canonical h
  · exact ite_canonical h (writeFields_canonical h)
  · exact ite_canonical h (writeFields_canonical h)
  · exact whenAsked_canonical (whenAsked_canonical (whenAsked_canonical (whenAsked_canonical (writeFields_canonical h) sliceStart_canonical)
      sliceStop_canonical) sliceClearFault_canonical) sliceReset_canonical
  · exact ite_canonical h (writeFields_canonical h)
  · exact memAddrWrite_canonical h
  · exact ite_canonical (memPortWrite_canonical h) h
  · exact whenAsked_canonical (whenAsked_canonical (writeFields_canonical h) cfgStart_canonical) loadAbort_canonical
  · exact whenAsked_canonical h regionRelease_canonical
  · exact writeFields_canonical (laneEnable_canonical h)
  · exact emit_canonical h
  · exact whenAsked_canonical (writeFields_canonical h) cxlRemove_canonical
  · exact whenAsked_canonical (writeFields_canonical h) cxlCfgStart_canonical
  · exact ite_canonical (cxlCfgStart_canonical h) h
  · exact whenAsked_canonical (writeFields_canonical h) mailboxGo_canonical
  · exact ite_canonical (wr_canonical h) (writeFields_canonical h)
  · exact whenAsked_canonical (showBlocks_canonical (writeFields_canonical h)) blockReset_canonical
  · exact qctrlWrite_canonical h
  · exact whenAsked_canonical (writeFields_canonical h) kick_canonical
  · exact tripWrite_canonical h
  · exact heatWrite_canonical h
  · exact heatWrite_canonical h
  · exact heatWrite_canonical h
  · exact whenAsked_canonical (whenAsked_canonical (writeFields_canonical h) bootSwitch_canonical) bootConfirm_canonical
  · exact whenAsked_canonical (writeFields_canonical h) rollbackGo_canonical
  · exact whenAsked_canonical (writeFields_canonical h) verifyGo_canonical
  · exact secExtend_canonical h
  · exact whenAsked_canonical (writeFields_canonical h) attGo_canonical
  · exact whenAsked_canonical (whenAsked_canonical (writeFields_canonical h) dbgChallenge_canonical) dbgGo_canonical
  · exact whenAsked_canonical h recoveryNext_canonical
  · exact fenceQuarters_canonical (fenceClusters_canonical h)
  · exact whenAsked_canonical h lapStart_canonical
  · exact writeFields_canonical h

theorem keepOther_canonical {s t r n half w} (h : Canonical t) : Canonical (keepOther s t r n half w) := foldl_canonical h wr_canonical

theorem regWrite_canonical {s src r n half v} (h : Canonical s) : Canonical (regWrite s src r n half v).1 := by
  unfold regWrite
  split
  · exact h
  split
  · exact h
  split
  · exact h
  split
  · exact ite_fst_canonical h (ite_fst_canonical h (fePortStore_canonical h))
  split
  · exact regEffect_canonical h
  · exact keepOther_canonical (regEffect_canonical h)

theorem windowRead_canonical {s src off width} (h : Canonical s) : Canonical (windowRead s src off width).1 := by
  unfold windowRead
  split
  · exact h
  · split
    · exact h
    split
    · exact ite_fst_canonical (targetAccess_canonical h) h
    · exact ite_fst_canonical h (regRead_canonical h)
    · exact ite_fst_canonical h h

theorem windowWrite_canonical {s src off width v} (h : Canonical s) : Canonical (windowWrite s src off width v).1 := by
  unfold windowWrite
  split
  · exact h
  · split
    · exact h
    split
    · exact ite_fst_canonical (targetAccess_canonical h) h
    · exact ite_fst_canonical h (regWrite_canonical h)
    · exact ite_fst_canonical h h

theorem showAns_canonical {x write} (h : Canonical x.1) : Canonical (showAns x write) := by
  unfold showAns
  split
  · exact ite_canonical h (emit_canonical h)
  · exact emit_canonical h
  · exact h

theorem barError_canonical {s write} (h : Canonical s) : Canonical (barError s write) :=
  ite_canonical (wr_canonical h) (emit_canonical (bump_canonical h))

theorem bar0_canonical {s write off width v} (h : Canonical s) : Canonical (bar0 s write off width v) := by
  unfold bar0
  split
  · exact ite_canonical h (emit_canonical h)
  split
  · exact barError_canonical h
  extract_lets r
  have hr : Canonical r.1 := ite_fst_canonical (windowWrite_canonical h) (windowRead_canonical h)
  split
  · exact ite_canonical (bump_canonical hr) (emit_canonical (bump_canonical hr))
  · exact barError_canonical hr
  · exact hr

theorem bar2Error_canonical {s write} (h : Canonical s) : Canonical (bar2Error s write) := barError_canonical (wr_canonical h)

theorem bar2_canonical {s write o len data ecc panic} (h : Canonical s) : Canonical (bar2 s write o len data ecc panic) := by
  unfold bar2
  extract_lets
  split
  · exact ite_canonical h (emit_canonical h)
  split
  · exact bar2Error_canonical h
  · exact bar2Error_canonical h
  · split
    · exact h
    split
    · exact ite_canonical (bump_canonical (memWrite_canonical h)) (barError_canonical (memWrite_canonical h))
    split
    · exact emit_canonical (bump_canonical (memRead_canonical h))
    · exact barError_canonical (memRead_canonical h)

/-! ### Objects -/

theorem setObj_canonical {s i k v} (h : Canonical s) : Canonical (setObj s i k v) := setDict_canonical h

theorem portAccess_canonical {s b off write} (h : Canonical s) : Canonical (portAccess s b off write).1 := by
  unfold portAccess
  split
  · exact h
  extract_lets r
  have hr : Canonical r.1 := by
    unfold r
    split
    · exact windowWrite_canonical h
    · exact windowRead_canonical h
  split
  · exact hr
  · exact h

theorem domainRead_canonical {s i off max} (h : Canonical s) : Canonical (domainRead s i off max).1 := by
  unfold domainRead
  extract_lets mem
  split
  · split
    · unfold mem
      extract_lets
      split
      · exact memRead_canonical (memRead_canonical h)
      · exact memRead_canonical h
    · exact h
  · exact h
  · exact h
  · unfold mem
    extract_lets
    split
    · exact memRead_canonical h
    · exact h
  · exact h

theorem blockState_canonical {s} (h : Canonical s) : Canonical (blockState s).1 := fresh_canonical h

theorem subValue_canonical {s i k} (h : Canonical s) : Canonical (subValue s i k).1 := by
  unfold subValue
  extract_lets
  split
  · exact h
  · exact h
  · exact h
  · exact h
  · exact h
  · exact h
  · exact h
  · exact h
  · exact h
  · exact h
  · exact h
  · exact h
  · exact h
  · exact h
  · exact h
  · exact h
  · exact h
  · split
    · split
      · exact blockState_canonical h
      · exact h
      · exact h
    split
    · split
      · exact h
      · exact ite_fst_canonical (setDict_canonical h) h
    exact ite_fst_canonical (ite_fst_canonical h (portAccess_canonical h)) h

theorem subRead_canonical {s i k off max} (h : Canonical s) : Canonical (subRead s i k off max).1 := by
  unfold subRead
  split
  · exact h
  · split
    · exact h
    · split
      · exact h
      split
      · exact domainRead_canonical h
      split
      · exact h
      split
      · exact h
      extract_lets
      split
      · exact subValue_canonical h
      · exact h

theorem alWrite_canonical {s v} (h : Canonical s) : Canonical (alWrite s v).1 := by
  unfold alWrite
  split
  · exact h
  split
  · exact h
  · exact wr_canonical (wr_canonical (setAL_canonical (settleAL_canonical h)))

theorem unlockWrite_canonical {s path v} (h : Canonical s) : Canonical (unlockWrite s path v) := setDict_canonical h

theorem resetObject_canonical {s k v} (h : Canonical s) : Canonical (resetObject s k v).1 := by
  unfold resetObject
  split
  · exact h
  exact ite_fst_canonical (ite_canonical (setDict_canonical h) h) (setObj_canonical h)

theorem slotSegment_canonical {s off bs} (h : Canonical s) : Canonical (slotSegment s off bs).1 := ite_fst_canonical h (nvGuarded_canonical h)

theorem fuseWrite_canonical {s bs} (h : Canonical s) : Canonical (fuseWrite s bs).1 := ite_fst_canonical h (update_canonical h)

theorem keyWrite_canonical {s slot bs} (h : Canonical s) : Canonical (keyWrite s slot bs).1 := ite_fst_canonical h (setSec_canonical h)

theorem subStore_canonical {s path i k off bs} (h : Canonical s) : Canonical (subStore s path i k off bs).1 := by
  unfold subStore
  extract_lets
  split
  · exact ite_fst_canonical (setObj_canonical h) h
  split
  · exact ite_fst_canonical (setObj_canonical h) h
  split
  · exact h
  split
  · exact alWrite_canonical h
  · exact unlockWrite_canonical h
  · exact resetObject_canonical h
  · exact attGo_canonical (foldl_canonical h wr_canonical)
  · exact slotSegment_canonical h
  · exact ite_canonical (lapStart_canonical h) h
  · exact setDict_canonical h
  · exact fuseWrite_canonical h
  · exact keyWrite_canonical h
  · split
    · split
      · rename_i t _ heq
        exact fst_canonical heq (portAccess_canonical h)
      · exact h
    exact setObj_canonical h

theorem subWrite_canonical {s path i k off bs} (h : Canonical s) : Canonical (subWrite s path i k off bs).1 := by
  unfold subWrite
  split
  · exact h
  · split
    · exact h
    · split
      · exact h
      split
      · exact h
      exact ite_fst_canonical h (ite_fst_canonical h (ite_fst_canonical h (subStore_canonical h)))

/-! ### The field port -/

theorem copyOutput_canonical {s bs} (h : Canonical s) : Canonical (copyOutput s bs) := by
  unfold copyOutput
  extract_lets
  split
  · exact setDict_canonical h
  split
  · exact setDict_canonical (setDict_canonical h)
  exact ite_canonical (setDict_canonical h) (arriveFrom_canonical (foldl_canonical (setDict_canonical h) storePlain_canonical))

theorem sm2Buffer_canonical {s bs} (h : Canonical s) : Canonical (sm2Buffer s bs) := by
  unfold sm2Buffer
  split
  · exact h
  extract_lets
  split
  · exact copyOutput_canonical (bump_canonical h)
  · exact setDict_canonical (bump_canonical h)
  · exact owe_canonical (wr_canonical (bump_canonical (setDict_canonical (bump_canonical h))))

theorem resumeCopy_canonical {s} (h : Canonical s) : Canonical (resumeCopy s) := by
  unfold resumeCopy
  split
  · exact h
  · extract_lets src t
    have ht : Canonical t := copyOutput_canonical (setDict_canonical h)
    split
    · exact copyOutput_canonical (setDict_canonical ht)
    · exact ht

theorem sampleEntry_canonical {s e} (h : Canonical s) : Canonical (sampleEntry s e).1 := by
  unfold sampleEntry
  extract_lets
  split
  · exact subRead_canonical h
  · exact h

theorem sampleAll_canonical {es s acc} (h : Canonical s) : Canonical (sampleAll es s acc).1 := by
  induction es generalizing s acc with
  | nil => exact h
  | cons e r ih => exact ih (sampleEntry_canonical h)

theorem inputRead_canonical {s} (h : Canonical s) : Canonical (inputRead s) := by
  unfold inputRead
  split
  · exact h
  exact ite_canonical h (emit_canonical (sampleAll_canonical (ite_canonical h (foldl_canonical h fun h => ite_canonical h (setDict_canonical h)))))

theorem sm2Watchdog_canonical {s} (h : Canonical s) : Canonical (sm2Watchdog s) := by
  unfold sm2Watchdog
  split
  · exact h
  extract_lets s₁ src s₂ s₃
  have hs₃ : Canonical s₃ := owe_canonical (wr_canonical (bump_canonical (setDict_canonical (alError_canonical (setAL_canonical h)))))
  exact ite_canonical (signalMC_canonical hs₃) hs₃

theorem dcLose_canonical {s} (h : Canonical s) : Canonical (dcLose s) := by
  unfold dcLose
  extract_lets src s₁ s₂
  have hs₂ : Canonical s₂ := owe_canonical (flagMC_canonical (bump_canonical (wr_canonical (setDict_canonical h))))
  exact ite_canonical (alError_canonical (setAL_canonical hs₂)) hs₂

theorem dcTracks_canonical {s} (h : Canonical s) : Canonical (dcTracks s) := foldl_canonical h dcFollow_canonical

theorem dcUpdate_canonical {s diff time} (h : Canonical s) : Canonical (dcUpdate s diff time) := by
  unfold dcUpdate
  split
  · exact h
  extract_lets src src₁ s₁ inside d s₂
  have hs₂ : Canonical s₂ := setDict_canonical (update_canonical (wr_canonical h))
  exact dcTracks_canonical (ite_canonical (ite_canonical (dcLose_canonical hs₂) hs₂) (ite_canonical (wr_canonical hs₂) hs₂))

theorem dcTimeout_canonical {s} (h : Canonical s) : Canonical (dcTimeout s) := ite_canonical (dcTracks_canonical (dcLose_canonical h)) h

theorem fieldLink_canonical {s p up} (h : Canonical s) : Canonical (fieldLink s p up) :=
  ite_canonical h (ite_canonical (setBit_canonical h) (clearBit_canonical h))

/-! ### The dictionary -/

theorem dUpload_canonical {s q max} (h : Canonical s) : Canonical (dUpload s q max).1 := by
  unfold dUpload
  extract_lets
  split
  · exact ite_fst_canonical h (subRead_canonical h)
  · exact h

theorem dDownload_canonical {s path q} (h : Canonical s) : Canonical (dDownload s path q).1 :=
  ite_fst_canonical h (ite_fst_canonical (subWrite_canonical h) h)

theorem readSubs_canonical {i max ks s acc} (h : Canonical s) : Canonical (readSubs i max ks s acc).1 := by
  induction ks generalizing s acc with
  | nil => exact h
  | cons k r ih =>
    unfold readSubs
    extract_lets
    split
    · exact ih (subRead_canonical h)
    · exact h

theorem dUploadCA_canonical {s q max} (h : Canonical s) : Canonical (dUploadCA s q max).1 := by
  unfold dUploadCA
  split
  · exact h
  · split
    · exact h
    extract_lets
    split
    · exact ite_fst_canonical h (readSubs_canonical h)
    · exact h

theorem writeSubs_canonical {path i f s k bs} (h : Canonical s) : Canonical (writeSubs path i f s k bs).1 := by
  induction f generalizing s k bs with
  | zero => exact h
  | succ f ih =>
    unfold writeSubs
    split
    · exact h
    split
    · exact h
    · exact ite_fst_canonical (ih (subWrite_canonical h)) h

theorem dDownloadCA_canonical {s path q} (h : Canonical s) : Canonical (dDownloadCA s path q).1 := by
  unfold dDownloadCA
  split
  · exact h
  · exact ite_fst_canonical h (ite_fst_canonical h (ite_fst_canonical (writeSubs_canonical h) h))

theorem dInfo_canonical {s q max} (h : Canonical s) : Canonical (dInfo s q max).1 := by
  unfold dInfo
  split
  · exact h
  · exact ite_fst_canonical h h

theorem dExec_canonical {s path q max} (h : Canonical s) : Canonical (dExec s path q max).1 := by
  unfold dExec
  extract_lets
  split
  · exact dUpload_canonical (settleAL_canonical h)
  · exact dDownload_canonical (settleAL_canonical h)
  · exact dUploadCA_canonical (settleAL_canonical h)
  · exact dDownloadCA_canonical (settleAL_canonical h)
  · exact dInfo_canonical (settleAL_canonical h)
  · exact settleAL_canonical h

theorem fieldTransaction_canonical {s op req} (h : Canonical s) : Canonical (fieldTransaction s op req) :=
  ite_canonical h (emit_canonical (dExec_canonical (bump_canonical h)))

theorem writeResponse_canonical {s bs} (h : Canonical s) : Canonical (writeResponse s bs) := foldl_canonical h wr_canonical

theorem mailboxTransaction_canonical {s op} (h : Canonical s) : Canonical (mailboxTransaction s op) := by
  unfold mailboxTransaction
  extract_lets
  split
  · exact h
  exact raiseMsix_canonical (wr_canonical (wr_canonical (writeResponse_canonical (ite_canonical (dExec_canonical h) (bump_canonical
    (dExec_canonical h))))))

theorem cellTransaction_canonical {s op p c} (h : Canonical s) : Canonical (cellTransaction s op p c) := by
  unfold cellTransaction
  extract_lets
  split
  · exact h
  exact cellArrives_canonical h (fun h => ite_canonical h (sendCell_canonical (ite_fst_canonical (dExec_canonical h) h)))

theorem sendRequest_canonical {s op dst req} (h : Canonical s) : Canonical (sendRequest s op dst req) :=
  ite_canonical h (sendCell_canonical (setDict_canonical h))

theorem transaction_canonical {s op path} (h : Canonical s) : Canonical (transaction s op path) := by
  unfold transaction
  extract_lets
  split
  · exact ite_canonical (fieldTransaction_canonical h) h
  · exact ite_canonical (mailboxTransaction_canonical h) h
  · exact cellTransaction_canonical h
  · exact ite_canonical (sendRequest_canonical h) h

theorem dictionaryResponse_canonical {s p c} (h : Canonical s) : Canonical (dictionaryResponse s p c) :=
  cellArrives_canonical h (fun h => ite_canonical h (emit_canonical (setDict_canonical h)))

theorem dictionaryTimeout_canonical {s tag} (h : Canonical s) : Canonical (dictionaryTimeout s tag) :=
  ite_canonical (emit_canonical (setDict_canonical h)) h

theorem unlockTimeout_canonical {s path} (h : Canonical s) : Canonical (unlockTimeout s path) := setDict_canonical h

/-! ### Packets at their units -/

theorem regPacket_canonical {s p} (h : Canonical s) : Canonical (regPacket s p) := by
  unfold regPacket
  split
  · extract_lets w r
    have hr : Canonical r.1 := ite_fst_canonical (windowRead_canonical h) (windowWrite_canonical h)
    split
    · exact targetDeliver_canonical h
    split
    · exact respond_canonical hr
    · exact respond_canonical hr
    · exact h
  · exact respond_canonical h

theorem eventPacket_canonical {s p} (h : Canonical s) : Canonical (eventPacket s p) := ite_canonical (emit_canonical h) h

theorem arriveAt_canonical {s p a} (h : Canonical s) : Canonical (arriveAt s p a) := by
  unfold arriveAt
  split
  · exact serveRequest_canonical h
  · exact serveRequest_canonical h
  · exact ite_canonical (cellError_canonical h) (cellPacket_canonical h)
  · exact takeResponse_canonical h
  · exact batonPacket_canonical h
  · exact arrivePacket_canonical h
  · exact regPacket_canonical h
  · exact regPacket_canonical h
  · exact takeRegResp_canonical h
  · exact eventPacket_canonical h
  · exact traceArrives_canonical h
  · exact h

theorem enter_canonical {s p} (h : Canonical s) : Canonical (enter s p) := by
  unfold enter
  extract_lets
  split
  · exact carry_canonical h
  · exact markGaps_canonical (carry_canonical h)
  · exact refuseRequest_canonical (carry_canonical h)
  · exact arriveAt_canonical (carry_canonical h)

theorem launch_canonical {s p} (h : Canonical s) : Canonical (launch s p) := by
  unfold launch
  extract_lets
  split
  · exact ite_canonical (openReq_canonical h) (enter_canonical (markSent_canonical (openReq_canonical h)))
  exact enter_canonical h

theorem launchAs_canonical {s cls op p} (h : Canonical s) : Canonical (launchAs s cls op p) := launch_canonical h

theorem regResp_canonical {s p} (h : Canonical s) : Canonical (regResp s p) := by
  unfold regResp
  split
  · exact enter_canonical (setNoc_canonical h)
  · exact ite_canonical (enter_canonical h) h

theorem responseArrives_canonical {s op dst txn linkErr} (h : Canonical s) : Canonical (responseArrives s op dst txn linkErr) := by
  unfold responseArrives
  split
  · exact h
  · exact enter_canonical (setNoc_canonical h)

theorem recordsArrive_canonical {s q linkErr} (h : Canonical s) : Canonical (recordsArrive s q linkErr) :=
  ite_canonical h (enter_canonical (setNoc_canonical h))

theorem domainWake_canonical {s q d} (h : Canonical s) : Canonical (domainWake s q d) := by
  unfold domainWake
  extract_lets k mine more was src s₁ s₂ s₃
  have hs₃ : Canonical s₃ := markBusy_canonical (ite_canonical (bump_canonical (setAsleep_canonical (wr_canonical (setNoc_canonical h))))
    (wr_canonical (setNoc_canonical h)))
  split
  · exact h
  split
  · exact foldl_canonical (wakeFail_canonical (wr_canonical (setNoc_canonical h))) enter_canonical
  exact foldl_canonical hs₃ enter_canonical

theorem passLines_canonical {s p c} (h : Canonical s) : Canonical (passLines s p c) := foldl_canonical h passBy_canonical

theorem cxlFail_canonical {s r late} (h : Canonical s) : Canonical (cxlFail s r late) := by
  unfold cxlFail
  split
  · exact transferError_canonical (cxlError_canonical h)
  · split
    · exact completeError_canonical (cxlError_canonical h)
    exact setNoc_canonical (cxlError_canonical h)

/-! ### A cycle of the clock -/

theorem stallCycle_canonical {s} (h : Canonical s) : Canonical (stallCycle s) := foldl_canonical h bumpTo_canonical

theorem panicCycle_canonical {s} (h : Canonical s) : Canonical (panicCycle s) := foldl_canonical h bump_canonical

theorem holdCycle_canonical {s} (h : Canonical s) : Canonical (holdCycle s) := foldl_canonical h fun h => ite_canonical (bump_canonical h) h

theorem sliceCycle_canonical {s n} (h : Canonical s) : Canonical (sliceCycle s n) := ite_canonical h (foldl_canonical h bump_canonical)

theorem pacerCycle_canonical {s} (h : Canonical s) : Canonical (pacerCycle s) := by
  unfold pacerCycle
  extract_lets s₁
  have hs₁ : Canonical s₁ := ite_canonical (bump_canonical h) h
  exact ite_canonical (bump_canonical hs₁) hs₁

theorem idleCycle_canonical {s} (h : Canonical s) : Canonical (idleCycle s) := by
  unfold idleCycle
  split
  · exact showAlert_canonical h
  exact showAlert_canonical (resumeCopy_canonical (settleAL_canonical (settleInvals_canonical (sliceAll_canonical (pacerCycle_canonical
    (holdCycle_canonical (hbmCycle_canonical (panicCycle_canonical (stallCycle_canonical (sliceCycle_canonical (timestampCycle_canonical
    (foldl_canonical (dcCycle_canonical h) trackCycle_canonical))))))))))))

end Sys2Proof.Machine
end

section
/-!
PROOFS. Every step keeps every memory in its canonical form (log entry 8): the commands, each by what it does, and the step.
-/
namespace Sys2Proof.Machine

/-- Every command leaves a next state, and keeps the memories canonical. -/
theorem exec_canonical {s c} (h : Canonical s) : ∃ t, exec c s = .next t ∧ Canonical t := by
  cases c with
  | registerWrite => exact ⟨_, rfl, showAns_canonical (windowWrite_canonical h)⟩
  | bar0Request => exact ⟨_, rfl, bar0_canonical h⟩
  | bar2Request => exact ⟨_, rfl, bar2_canonical h⟩
  | matmul => exact ⟨_, rfl, issue_canonical h matmulEff_canonical⟩
  | feedResume => exact ⟨_, rfl, feedResume_canonical h⟩
  | outputPathResume => exact ⟨_, rfl, outputPathResume_canonical h⟩
  | dWordWrite => exact ⟨_, rfl, dWordWrite_canonical h⟩
  | matmulComplete => exact ⟨_, rfl, matmulComplete_canonical h⟩
  | duty => exact ⟨_, rfl, dutyWrite_canonical h⟩
  | preempt => exact ⟨_, rfl, preempt_canonical h⟩
  | engineStop => exact ⟨_, rfl, engineStop_canonical h⟩
  | continueEngine => exact ⟨_, rfl, continueStopped_canonical h⟩
  | dataError => exact ⟨_, rfl, dataError_canonical h⟩
  | convert => exact ⟨_, rfl, issue_canonical h convertEff_canonical⟩
  | table => exact ⟨_, rfl, issue_canonical h tableEff_canonical⟩
  | spillConvert => exact ⟨_, rfl, spillConvert_canonical h⟩
  | slotClear => exact ⟨_, rfl, slotClear_canonical h⟩
  | slotClearEnd => exact ⟨_, rfl, slotClearEnd_canonical h⟩
  | histClear => exact ⟨_, rfl, histClear_canonical h⟩
  | histClearEnd => exact ⟨_, rfl, histClearEnd_canonical h⟩
  | vadd => exact ⟨_, rfl, issue_canonical h vecArithEff_canonical⟩
  | vsub => exact ⟨_, rfl, issue_canonical h vecArithEff_canonical⟩
  | vmul => exact ⟨_, rfl, issue_canonical h vecArithEff_canonical⟩
  | vfma => exact ⟨_, rfl, issue_canonical h vfmaEff_canonical⟩
  | vdiv => exact ⟨_, rfl, issue_canonical h vdivEff_canonical⟩
  | vsqrt => exact ⟨_, rfl, issue_canonical h vsqrtEff_canonical⟩
  | vmin => exact ⟨_, rfl, issue_canonical h vminmaxEff_canonical⟩
  | vmax => exact ⟨_, rfl, issue_canonical h vminmaxEff_canonical⟩
  | vabs => exact ⟨_, rfl, issue_canonical h vsignEff_canonical⟩
  | vneg => exact ⟨_, rfl, issue_canonical h vsignEff_canonical⟩
  | vcmp => exact ⟨_, rfl, issue_canonical h vcmpEff_canonical⟩
  | vsel => exact ⟨_, rfl, issue_canonical h vselEff_canonical⟩
  | vcvt => exact ⟨_, rfl, issue_canonical h vcvtEff_canonical⟩
  | vred => exact ⟨_, rfl, issue_canonical h vredEff_canonical⟩
  | vrmax => exact ⟨_, rfl, issue_canonical h vrmaxEff_canonical⟩
  | vld => exact ⟨_, rfl, issue_canonical h vecMem_canonical⟩
  | vst => exact ⟨_, rfl, issue_canonical h vecMem_canonical⟩
  | vmovs => exact ⟨_, rfl, issue_canonical h vmovsEff_canonical⟩
  | vmovv => exact ⟨_, rfl, issue_canonical h vmovvEff_canonical⟩
  | vand => exact ⟨_, rfl, issue_canonical h vecBitsEff_canonical⟩
  | vor => exact ⟨_, rfl, issue_canonical h vecBitsEff_canonical⟩
  | vxor => exact ⟨_, rfl, issue_canonical h vecBitsEff_canonical⟩
  | vshl => exact ⟨_, rfl, issue_canonical h vecBitsEff_canonical⟩
  | vshr => exact ⟨_, rfl, issue_canonical h vecBitsEff_canonical⟩
  | vrec => exact ⟨_, rfl, issue_canonical h vrecEff_canonical⟩
  | nop => exact ⟨_, rfl, issue_canonical h (fun h => doneHead_canonical (countIssue_canonical h))⟩
  | loop => exact ⟨_, rfl, issue_canonical h loopEff_canonical⟩
  | lidx => exact ⟨_, rfl, issue_canonical h lidxEff_canonical⟩
  | br => exact ⟨_, rfl, issue_canonical h brEff_canonical⟩
  | add => exact ⟨_, rfl, issue_canonical h scalArith_canonical⟩
  | sub => exact ⟨_, rfl, issue_canonical h scalArith_canonical⟩
  | mul => exact ⟨_, rfl, issue_canonical h scalArith_canonical⟩
  | and => exact ⟨_, rfl, issue_canonical h scalArith_canonical⟩
  | or => exact ⟨_, rfl, issue_canonical h scalArith_canonical⟩
  | xor => exact ⟨_, rfl, issue_canonical h scalArith_canonical⟩
  | shl => exact ⟨_, rfl, issue_canonical h scalArith_canonical⟩
  | shr => exact ⟨_, rfl, issue_canonical h scalArith_canonical⟩
  | sar => exact ⟨_, rfl, issue_canonical h scalArith_canonical⟩
  | li => exact ⟨_, rfl, issue_canonical h scalWrite_canonical⟩
  | lih => exact ⟨_, rfl, issue_canonical h scalWrite_canonical⟩
  | sld => exact ⟨_, rfl, issue_canonical h scalMem_canonical⟩
  | sst => exact ⟨_, rfl, issue_canonical h scalMem_canonical⟩
  | fence => exact ⟨_, rfl, issue_canonical h fenceEff_canonical⟩
  | halt => exact ⟨_, rfl, issue_canonical h haltEff_canonical⟩
  | signal => exact ⟨_, rfl, issue_canonical h signalEff_canonical⟩
  | queueFault => exact ⟨_, rfl, queueFault_canonical h⟩
  | waitingAccessPerform => exact ⟨_, rfl, performWaiting_canonical h packetResume_canonical⟩
  | vecQStart => exact ⟨_, rfl, queueStart_canonical h⟩
  | vecQStop => exact ⟨_, rfl, queueStop_canonical h⟩
  | clearFault => exact ⟨_, rfl, clearFault_canonical h⟩
  | vmaskWrite => exact ⟨_, rfl, rangeWrite_canonical h⟩
  | vecImemDataHi => exact ⟨_, rfl, imemHi_canonical h⟩
  | save => exact ⟨_, rfl, ctxSave_canonical h⟩
  | saveDone => exact ⟨_, rfl, saveDone_canonical h⟩
  | restore => exact ⟨_, rfl, ctxRestore_canonical h⟩
  | restoreDone => exact ⟨_, rfl, restoreDone_canonical h⟩
  | spadInitEnd => exact ⟨_, rfl, initEnd_canonical h⟩
  | stream => exact ⟨_, rfl, issue_canonical h streamEff_canonical⟩
  | transferIssue => exact ⟨_, rfl, transferIssue_canonical h⟩
  | readTransferComplete => exact ⟨_, rfl, readComplete_canonical h⟩
  | lineDelivery => exact ⟨_, rfl, lineDelivery_canonical h⟩
  | writeTransferAck => exact ⟨_, rfl, writeAck_canonical h⟩
  | descriptorComplete => exact ⟨_, rfl, descriptorComplete_canonical h⟩
  | urgencyUpdate => exact ⟨_, rfl, urgencyUpdate_canonical h⟩
  | streamLate => exact ⟨_, rfl, streamLate_canonical h⟩
  | translationFault => exact ⟨_, rfl, translationFault_canonical h⟩
  | transferError => exact ⟨_, rfl, transferError_canonical h⟩
  | setStop => exact ⟨_, rfl, setStop_canonical h⟩
  | stmResume => exact ⟨_, rfl, ite_canonical h (resumeSet_canonical h)⟩
  | stmAbandon => exact ⟨_, rfl, abandonSet_canonical h⟩
  | hinit => exact ⟨_, rfl, issue_canonical h hinitEff_canonical⟩
  | harrive => exact ⟨_, rfl, issue_canonical h arriveInstr_canonical⟩
  | hadd => exact ⟨_, rfl, issue_canonical h arriveInstr_canonical⟩
  | hwait => exact ⟨_, rfl, issue_canonical h hwaitEff_canonical⟩
  | hsync => exact ⟨_, rfl, issue_canonical h arriveInstr_canonical⟩
  | htest => exact ⟨_, rfl, issue_canonical h htestEff_canonical⟩
  | hread => exact ⟨_, rfl, issue_canonical h hreadEff_canonical⟩
  | hurOpHinit => exact ⟨_, rfl, hurReach_canonical h (hurInit_canonical h)⟩
  | hurOpHarrive => exact ⟨_, rfl, hurReach_canonical h (arriveFrom_canonical h)⟩
  | hurOpHadd => exact ⟨_, rfl, hurReach_canonical h (arriveFrom_canonical h)⟩
  | hurStateWrite => exact ⟨_, rfl, hurReach_canonical h (hurStateWrite_canonical h)⟩
  | hurCfgWrite => exact ⟨_, rfl, hurReach_canonical h (hurCfgWrite_canonical h)⟩
  | fePortLoad => exact ⟨_, rfl, fePortLoad_canonical h⟩
  | fePortStore => exact ⟨_, rfl, fePortStore_canonical h⟩
  | baton => exact ⟨_, rfl, issue_canonical h batonEff_canonical⟩
  | batonArrival => exact ⟨_, rfl, batonArrives_canonical h⟩
  | batonRelease => exact ⟨_, rfl, batonRelease_canonical h⟩
  | hurWinWrite => exact ⟨_, rfl, hurReach_canonical h (winWrite_canonical h)⟩
  | wmark => exact ⟨_, rfl, issue_canonical h wmarkEff_canonical⟩
  | markReached => exact ⟨_, rfl, markReached_canonical h⟩
  | rpos => exact ⟨_, rfl, issue_canonical h rposEff_canonical⟩
  | farm => exact ⟨_, rfl, issue_canonical h farmEff_canonical⟩
  | arm => exact ⟨_, rfl, ite_canonical h (armSlot_canonical h)⟩
  | finishLineCheck => exact ⟨_, rfl, checkSlot_canonical h⟩
  | trkEnable => exact ⟨_, rfl, trkEnable_canonical h⟩
  | trkDisable => exact ⟨_, rfl, trkDisable_canonical h⟩
  | trackEdge => exact ⟨_, rfl, trackEdge_canonical h⟩
  | indexPulse => exact ⟨_, rfl, indexPulse_canonical h⟩
  | trkStep => exact ⟨_, rfl, trkStep_canonical h⟩
  | trackStall => exact ⟨_, rfl, trackStall_canonical h⟩
  | trkLapRead => exact ⟨_, rfl, emit_canonical (wr_canonical h)⟩
  | lateLogPop =>
    refine ⟨_, rfl, ?_⟩
    split
    · exact emit_canonical h
    · exact emit_canonical (update_canonical h)
  | timestampWrap => exact ⟨_, rfl, ite_canonical (timestampWrap_canonical h) h⟩
  | emergency => exact ⟨_, rfl, emergency_canonical h⟩
  | admitSession => exact ⟨_, rfl, admitSession_canonical h⟩
  | endSession => exact ⟨_, rfl, sesAction_canonical h⟩
  | suspend => exact ⟨_, rfl, sesAction_canonical h⟩
  | resume => exact ⟨_, rfl, sesAction_canonical h⟩
  | lapBoundarySuspend => exact ⟨_, rfl, lapSuspend_canonical h⟩
  | quantumExpiry => exact ⟨_, rfl, quantumExpiry_canonical h⟩
  | sessionSwitchSaved => exact ⟨_, rfl, switchSaved_canonical h⟩
  | sessionSwitchRestored => exact ⟨_, rfl, switchRestored_canonical h⟩
  | doorbell => exact ⟨_, rfl, doorbell_canonical h⟩
  | ringContextLoad => exact ⟨_, rfl, ringLoad_canonical h⟩
  | submissionRun => exact ⟨_, rfl, submissionRun_canonical h⟩
  | submissionArrive => exact ⟨_, rfl, submissionArrive_canonical h⟩
  | runComplete => exact ⟨_, rfl, runComplete_canonical h⟩
  | completionEntryWrite => exact ⟨_, rfl, commitCompletion_canonical h⟩
  | sesClockWrite => exact ⟨_, rfl, clockWrite_canonical h⟩
  | sesRingPinWrite => exact ⟨_, rfl, ringPin_canonical h⟩
  | capabilityExchange => exact ⟨_, rfl, capabilityExchange_canonical h⟩
  | noModeRetry => exact ⟨_, rfl, noModeRetry_canonical h⟩
  | portDown => exact ⟨_, rfl, portDown_canonical h⟩
  | reneg => exact ⟨_, rfl, portDown_canonical (wr_canonical h)⟩
  | codewordReceive => exact ⟨_, rfl, codeword_canonical h⟩
  | writeCell => exact ⟨_, rfl, cellArrives_canonical h (fun h => writeCell_canonical (passLines_canonical h))⟩
  | ackCell => exact ⟨_, rfl, cellArrives_canonical h takeAcks_canonical⟩
  | syncCell => exact ⟨_, rfl, syncCell_canonical h⟩
  | trackCell => exact ⟨_, rfl, cellArrives_canonical h takeTrack_canonical⟩
  | hello => exact ⟨_, rfl, linkCell_canonical h takeHello_canonical⟩
  | latencyCalibration => exact ⟨_, rfl, calibrate_canonical h⟩
  | neighbourReport => exact ⟨_, rfl, cellArrives_canonical h (fun h => ite_canonical (neighbourReport_canonical h) h)⟩
  | dictionaryResponse => exact ⟨_, rfl, dictionaryResponse_canonical h⟩
  | dictionaryTimeout => exact ⟨_, rfl, dictionaryTimeout_canonical h⟩
  | remoteReset => exact ⟨_, rfl, remoteReset_canonical h⟩
  | ackTimeout => exact ⟨_, rfl, ackTimeout_canonical h⟩
  | swap => exact ⟨_, rfl, wr_canonical h⟩
  | bankSwapApply => exact ⟨_, rfl, applySwap_canonical h⟩
  | rebuild => exact ⟨_, rfl, startRebuild_canonical h⟩
  | rebuildEnd => exact ⟨_, rfl, rebuildEnd_canonical h⟩
  | referenceLoss => exact ⟨_, rfl, referenceLoss_canonical h⟩
  | holdoverExpiry => exact ⟨_, rfl, holdoverExpiry_canonical h⟩
  | kmrRefCtrlWrite => exact ⟨_, rfl, refCtrlWrite_canonical h⟩
  | trackSamplePeriod => exact ⟨_, rfl, trackPeriod_canonical h⟩
  | standbyTakeover => exact ⟨_, rfl, standbyTakeover_canonical h⟩
  | shapeTable => exact ⟨_, rfl, shapeTable_canonical h⟩
  | hbmBandWrite => exact ⟨_, rfl, hbmBandWrite_canonical h⟩
  | read => exact ⟨_, rfl, launchAs_canonical h⟩
  | write => exact ⟨_, rfl, launchAs_canonical h⟩
  | patrolScrub => exact ⟨_, rfl, patrolScrub_canonical h⟩
  | refresh => exact ⟨_, rfl, refresh_canonical h⟩
  | powerDownEntry => exact ⟨_, rfl, powerDown_canonical h⟩
  | selfRefreshEntry => exact ⟨_, rfl, selfRefresh_canonical h⟩
  | hbmTraining => exact ⟨_, rfl, hbmTraining_canonical h⟩
  | trainingDone => exact ⟨_, rfl, trainingDone_canonical h⟩
  | cxlErrorResponse => exact ⟨_, rfl, cxlFail_canonical h⟩
  | cxlCompletionTimeout => exact ⟨_, rfl, cxlFail_canonical h⟩
  | cxlWinCfgWrite => exact ⟨_, rfl, cxlWinCfgWrite_canonical h⟩
  | prqRecPop => exact ⟨_, rfl, prqPop_canonical h⟩
  | cxlPrqResp => exact ⟨_, rfl, cxlPrqResp_canonical h⟩
  | xltInv => exact ⟨_, rfl, xltInv_canonical h⟩
  | xltInvDone => exact ⟨_, rfl, xltInvDone_canonical h⟩
  | cxlLinkUp => exact ⟨_, rfl, cxlLinkUp_canonical h⟩
  | cxlLinkDown => exact ⟨_, rfl, cxlLinkDown_canonical h⟩
  | cell => exact ⟨_, rfl, launchAs_canonical h⟩
  | readData => exact ⟨_, rfl, responseArrives_canonical h⟩
  | writeAck => exact ⟨_, rfl, responseArrives_canonical h⟩
  | nocBaton => exact ⟨_, rfl, launchAs_canonical h⟩
  | nocArrive => exact ⟨_, rfl, launchAs_canonical h⟩
  | regRead => exact ⟨_, rfl, launchAs_canonical h⟩
  | regWrite => exact ⟨_, rfl, launchAs_canonical h⟩
  | regResp => exact ⟨_, rfl, regResp_canonical h⟩
  | event => exact ⟨_, rfl, launchAs_canonical h⟩
  | records => exact ⟨_, rfl, recordsArrive_canonical h⟩
  | tracePacketDiscard => exact ⟨_, rfl, traceDiscard_canonical h⟩
  | nocCompletionTimeout => exact ⟨_, rfl, completionTimeout_canonical h⟩
  | domainSleep => exact ⟨_, rfl, domainSleep_canonical h⟩
  | domainWake => exact ⟨_, rfl, domainWake_canonical h⟩
  | nocPrbCtrlWrite => exact ⟨_, rfl, probeCtrlWrite_canonical h⟩
  | ramRead => exact ⟨_, rfl, ramEccRead_canonical h⟩
  | pllLock => exact ⟨_, rfl, pllLock_canonical h⟩
  | markFire => exact ⟨_, rfl, markFire_canonical h⟩
  | fabricPortRequest => exact ⟨_, rfl, portRequest_canonical h⟩
  | targetAccess => exact ⟨_, rfl, targetAccess_canonical h⟩
  | isolate => exact ⟨_, rfl, isolatePort_canonical h⟩
  | portIsolated => exact ⟨_, rfl, showPort_canonical h⟩
  | vccioFault => exact ⟨_, rfl, vccioFault_canonical h⟩
  | vccioResume => exact ⟨_, rfl, vccioResume_canonical h⟩
  | spsNop => exact ⟨_, rfl, sliceIssue_canonical h (fun h => sliceArith_canonical h (fun h => h))⟩
  | mpy => exact ⟨_, rfl, sliceIssue_canonical h (fun h => sliceArith_canonical h putAcc_canonical)⟩
  | mac => exact ⟨_, rfl, sliceIssue_canonical h (fun h => sliceArith_canonical h putAcc_canonical)⟩
  | msu => exact ⟨_, rfl, sliceIssue_canonical h (fun h => sliceArith_canonical h putAcc_canonical)⟩
  | clr => exact ⟨_, rfl, sliceIssue_canonical h (fun h => sliceArith_canonical h putAcc_canonical)⟩
  | adda => exact ⟨_, rfl, sliceIssue_canonical h (fun h => sliceArith_canonical h putAcc_canonical)⟩
  | suba => exact ⟨_, rfl, sliceIssue_canonical h (fun h => sliceArith_canonical h putAcc_canonical)⟩
  | spsAbs => exact ⟨_, rfl, sliceIssue_canonical h (fun h => sliceArith_canonical h putAcc_canonical)⟩
  | spsNeg => exact ⟨_, rfl, sliceIssue_canonical h (fun h => sliceArith_canonical h putAcc_canonical)⟩
  | spsShl => exact ⟨_, rfl, sliceIssue_canonical h (fun h => sliceArith_canonical h putAcc_canonical)⟩
  | spsShr => exact ⟨_, rfl, sliceIssue_canonical h (fun h => sliceArith_canonical h putAcc_canonical)⟩
  | ldacc => exact ⟨_, rfl, sliceIssue_canonical h (fun h => sliceArith_canonical h putAcc_canonical)⟩
  | movr => exact ⟨_, rfl, sliceIssue_canonical h (fun h => sliceArith_canonical h movr_canonical)⟩
  | inFifo => exact ⟨_, rfl, sliceIssue_canonical h sliceInOut_canonical⟩
  | outFifo => exact ⟨_, rfl, sliceIssue_canonical h sliceInOut_canonical⟩
  | sliceFifoResume => exact ⟨_, rfl, sliceResume_canonical h⟩
  | rep => exact ⟨_, rfl, sliceIssue_canonical h sliceRep_canonical⟩
  | spsLoop => exact ⟨_, rfl, sliceIssue_canonical h sliceLoop_canonical⟩
  | jmp => exact ⟨_, rfl, sliceIssue_canonical h sliceJump_canonical⟩
  | spsBr => exact ⟨_, rfl, sliceIssue_canonical h sliceBr_canonical⟩
  | waitm => exact ⟨_, rfl, sliceIssue_canonical h sliceWaitm_canonical⟩
  | pendSet => exact ⟨_, rfl, pendSet_canonical h⟩
  | wset => exact ⟨_, rfl, sliceIssue_canonical h sliceWset_canonical⟩
  | wstep => exact ⟨_, rfl, sliceIssue_canonical h sliceWstep_canonical⟩
  | scale => exact ⟨_, rfl, sliceIssue_canonical h (fun h => sliceNext_canonical (wr_canonical h))⟩
  | spsHalt => exact ⟨_, rfl, sliceIssue_canonical h sliceHalt_canonical⟩
  | sliceFault => exact ⟨_, rfl, sliceFault_canonical h⟩
  | spsStart => exact ⟨_, rfl, sliceStart_canonical h⟩
  | spsStop => exact ⟨_, rfl, sliceStop_canonical h⟩
  | spsClearFault => exact ⟨_, rfl, sliceClearFault_canonical h⟩
  | srst => exact ⟨_, rfl, sliceReset_canonical h⟩
  | spsMemRead => exact ⟨_, rfl, memPortRead_canonical h⟩
  | spsMemWrite => exact ⟨_, rfl, memPortWrite_canonical h⟩
  | cfgLoadStart => exact ⟨_, rfl, cfgStart_canonical h⟩
  | scopeIsolated => exact ⟨_, rfl, scopeIsolated_canonical h⟩
  | header => exact ⟨_, rfl, loadHeader_canonical h⟩
  | signatureVerify => exact ⟨_, rfl, signatureVerify_canonical h⟩
  | chunkVerified => exact ⟨_, rfl, chunkVerified_canonical h⟩
  | loadTimeout => exact ⟨_, rfl, loadTimeout_canonical h⟩
  | abort => exact ⟨_, rfl, loadAbort_canonical h⟩
  | ochreFallback => exact ⟨_, rfl, ochreFallback_canonical h⟩
  | release => exact ⟨_, rfl, regionRelease_canonical h⟩
  | slavePortWord => exact ⟨_, rfl, slaveWord_canonical h⟩
  | sspCsRise => exact ⟨_, rfl, sspCsRise_canonical h⟩
  | groupCheck => exact ⟨_, rfl, groupCheck_canonical h⟩
  | mordantWatchdog => exact ⟨_, rfl, mordantWatchdog_canonical h⟩
  | tmrMismatch => exact ⟨_, rfl, tmrMismatch_canonical h⟩
  | mdtLogPop => exact ⟨_, rfl, mdtLogPop_canonical h⟩
  | receiverDetect => exact ⟨_, rfl, receiverDetect_canonical h⟩
  | laneRetry => exact ⟨_, rfl, laneRetry_canonical h⟩
  | laneSearchDone => exact ⟨_, rfl, searchDone_canonical h⟩
  | lockLoss => exact ⟨_, rfl, lockLoss_canonical h⟩
  | txSleep => exact ⟨_, rfl, txSleep_canonical h⟩
  | txWake => exact ⟨_, rfl, txWake_canonical h⟩
  | wakeTimeout => exact ⟨_, rfl, wakeTimeout_canonical h⟩
  | atsInvalidate => exact ⟨_, rfl, atsInvalidate_canonical h⟩
  | pageRequestGroupResponse => exact ⟨_, rfl, pageResponse_canonical h⟩
  | functionLevelReset => exact ⟨_, rfl, functionLevelReset_canonical h⟩
  | pcieLinkDown => exact ⟨_, rfl, pcieLinkDown_canonical h⟩
  | hotReset => exact ⟨_, rfl, hotReset_canonical h⟩
  | pciMsixRaise => exact ⟨_, rfl, emit_canonical h⟩
  | rd => exact ⟨_, rfl, cxlCfgStart_canonical h⟩
  | cxlCfgDataWrite => exact ⟨_, rfl, cxlCfgStart_canonical h⟩
  | cxlCfgDone => exact ⟨_, rfl, cxlCfgDone_canonical h⟩
  | remove => exact ⟨_, rfl, cxlRemove_canonical h⟩
  | removed => exact ⟨_, rfl, cxlRemoved_canonical h⟩
  | upload => exact ⟨_, rfl, transaction_canonical h⟩
  | download => exact ⟨_, rfl, transaction_canonical h⟩
  | uploadCa => exact ⟨_, rfl, transaction_canonical h⟩
  | downloadCa => exact ⟨_, rfl, transaction_canonical h⟩
  | objInfo => exact ⟨_, rfl, transaction_canonical h⟩
  | execute => exact ⟨_, rfl, executeReset_canonical h⟩
  | unlockTimeout => exact ⟨_, rfl, unlockTimeout_canonical h⟩
  | alStateRequest => exact ⟨_, rfl, ite_canonical (alRequest_canonical (bump_canonical h)) h⟩
  | sm2Buffer => exact ⟨_, rfl, sm2Buffer_canonical h⟩
  | inputImageRead => exact ⟨_, rfl, inputRead_canonical h⟩
  | sm2Watchdog => exact ⟨_, rfl, sm2Watchdog_canonical h⟩
  | dcUpdate => exact ⟨_, rfl, dcUpdate_canonical h⟩
  | dcUpdateTimeout => exact ⟨_, rfl, dcTimeout_canonical h⟩
  | mbxEmcyPop => exact ⟨_, rfl, showAns_canonical (windowRead_canonical h)⟩
  | powerOn => exact ⟨_, rfl, powerOn_canonical h⟩
  | nsysrst => exact ⟨_, rfl, nsysrst_canonical h⟩
  | pciePerstN => exact ⟨_, rfl, perst_canonical h⟩
  | resetRelease => exact ⟨_, rfl, resetRelease_canonical h⟩
  | quarterReset => exact ⟨_, rfl, blockReset_canonical h⟩
  | clusterReset => exact ⟨_, rfl, blockReset_canonical h⟩
  | coreReset => exact ⟨_, rfl, blockReset_canonical h⟩
  | fabricRegionReset => exact ⟨_, rfl, blockReset_canonical h⟩
  | kamrusPortReset => exact ⟨_, rfl, blockReset_canonical h⟩
  | blockResetRelease => exact ⟨_, rfl, blockRelease_canonical h⟩
  | pacerTick => exact ⟨_, rfl, pacerTick_canonical h⟩
  | heatFire => exact ⟨_, rfl, heatFire_canonical h⟩
  | pacTripWrite => exact ⟨_, rfl, tripWrite_canonical h⟩
  | kick => exact ⟨_, rfl, kick_canonical h⟩
  | watchdogWarning => exact ⟨_, rfl, watchdogWarning_canonical h⟩
  | watchdogExpiry => exact ⟨_, rfl, watchdogExpiry_canonical h⟩
  | pwrQctrlWrite => exact ⟨_, rfl, qctrlWrite_canonical h⟩
  | quarterPowerOn => exact ⟨_, rfl, quarterPowerOn_canonical h⟩
  | pacLogPop => exact ⟨_, rfl, pacLogPop_canonical h⟩
  | pwrAvgRead => exact ⟨_, rfl, pwrAvgRead_canonical h⟩
  | pacTempRead => exact ⟨_, rfl, pacTempRead_canonical h⟩
  | rollbackGo => exact ⟨_, rfl, rollbackGo_canonical h⟩
  | floorBlown => exact ⟨_, rfl, floorBlown_canonical h⟩
  | secVerifyGo => exact ⟨_, rfl, verifyGo_canonical h⟩
  | verifyDone => exact ⟨_, rfl, verifyDone_canonical h⟩
  | switchSlot => exact ⟨_, rfl, bootSwitch_canonical h⟩
  | confirm => exact ⟨_, rfl, bootConfirm_canonical h⟩
  | secExtend => exact ⟨_, rfl, secExtend_canonical h⟩
  | secAttGo => exact ⟨_, rfl, attGo_canonical h⟩
  | reportWritten => exact ⟨_, rfl, reportWritten_canonical h⟩
  | chal => exact ⟨_, rfl, dbgChallenge_canonical h⟩
  | secDbgGo => exact ⟨_, rfl, dbgGo_canonical h⟩
  | nextPart => exact ⟨_, rfl, recoveryNext_canonical h⟩
  | tstFenceCluster => exact ⟨_, rfl, fenceClusters_canonical h⟩
  | tstFenceQuarter => exact ⟨_, rfl, fenceQuarters_canonical h⟩
  | tstCdlGo => exact ⟨_, rfl, lapStart_canonical h⟩
  | cdlComplete => exact ⟨_, rfl, lapComplete_canonical h⟩
  | bypass => exact ⟨_, rfl, tapBypass_canonical h⟩
  | idcode => exact ⟨_, rfl, tapIdcode_canonical h⟩
  | samplePreload => exact ⟨_, rfl, tapSample_canonical h⟩
  | extest => exact ⟨_, rfl, tapExtest_canonical h⟩
  | clamp => exact ⟨_, rfl, tapClamp_canonical h⟩
  | slotTransmission => exact ⟨_, rfl, slotTransmission_canonical h⟩
  | trackInterpolation => exact ⟨_, rfl, trackCycle_canonical h⟩
  | emergencyCell => exact ⟨_, rfl, emergencyCell_canonical h⟩
  | bitLockTimeout => exact ⟨_, rfl, bitLockTimeout_canonical h⟩
  | blockLock => exact ⟨_, rfl, blockLock_canonical h⟩
  | idleMarker => exact ⟨_, rfl, idleMarker_canonical h⟩
  | wakePattern => exact ⟨_, rfl, wakePattern_canonical h⟩
  | pllLockLoss => exact ⟨_, rfl, pllLockLoss_canonical h⟩
  | fabricFifoHandshake => exact ⟨_, rfl, fifoHandshake_canonical h⟩
  | translationCompletion => exact ⟨_, rfl, translationCompletion_canonical h⟩
  | configurationRequest => exact ⟨_, rfl, configRequest_canonical h⟩
  | pcieLinkUp => exact ⟨_, rfl, pcieLinkUp_canonical h⟩
  | fieldPortLink => exact ⟨_, rfl, fieldLink_canonical h⟩
  | inputReturn => exact ⟨_, rfl, inputReturn_canonical h⟩
  | inputRemoved => exact ⟨_, rfl, inputRemoved_canonical h⟩

theorem step_canonical {s t} (h : Canonical s) (e : step s = .next t) : Canonical t := by
  unfold step at e
  split at e
  case h_1 c rest _ =>
    obtain ⟨u, hu, hc⟩ := exec_canonical (c := c) (update_canonical (pending := rest) h)
    cases hu.symm.trans e
    exact hc
  case h_2 => cases e; exact idleCycle_canonical h

/-- Settles O5: each function of the model keeps the memories canonical, so every command does, and the cycle of an idle device. -/
theorem everyStepKeepsMemoriesCanonical : Obligations.EveryStepKeepsMemoriesCanonical := by
  unfold Obligations.EveryStepKeepsMemoriesCanonical
  exact fun _ _ e h => canonical_iff.mp (step_canonical (canonical_iff.mpr h) e)

end Sys2Proof.Machine
end

section
/-!
PROOFS. Positions and marks (R207-R209), and the reads and the timestamp of the track unit (R195, R214, R222).
-/
namespace Sys2Proof.Machine

/-! ### rpos and wmark (R208, R209) -/

theorem markTrk_lt (w : Nat) : markTrk w < 8 := Nat.mod_lt _ (by decide)

/-- What rpos leaves in its second register: the angle, and the state of the track (R208). -/
def angleWord (s : State) (u : Nat) : Nat := (s.track u).angle + s.trkState u * 2 ^ 32

theorem rposEff_eq (s : State) {q : Nat} (hq : q < 4096) (w : Nat) :
    rposEff s q w = (((s.countIssue q).setS q (markReg w) (s.lap (markTrk w))).setS q (markReg w + 1) (angleWord s (markTrk w))).doneHead q := by
  have htrk : markTrk w < 131072 := (markTrk_lt w).trans (by decide)
  have hstate : (s.countIssue q).trkState (markTrk w) = s.trkState (markTrk w) :=
    (countIssue_frame s hq).fields _ _ htrk (by decide)
  simp only [rposEff, angleWord, State.trkState, State.setS_rd, State.track, State.setS_trk, countIssue_trk] at hstate ⊢
  rw [hstate]

theorem rposEff_reads (s : State) {q w : Nat} (hq : q < 4096) (hreg : markReg w ≤ 30) :
    let t := rposEff s q w
    Finished s t q ∧ SameRegs s t (queueFields q) ∧ t = { s with regs := t.regs, tile := t.tile } ∧
      ∀ p r, r < 32 → t.sreg p r = if p = q ∧ r = markReg w + 1 then angleWord s (markTrk w) % 2 ^ 64
        else if p = q ∧ r = markReg w ∧ r ≠ 0 then s.lap (markTrk w) % 2 ^ 64 else s.sreg p r := by
  rw [rposEff_eq s hq]
  have hregs : (((s.countIssue q).setS q (markReg w) (s.lap (markTrk w))).setS q (markReg w + 1) (angleWord s (markTrk w))).regs =
      (s.countIssue q).regs := by simp only [State.setS_regs]
  refine ⟨.of_effect hq hregs ?_, .of_effect hq hregs, ?_, fun p r hr => ?_⟩
  · rw [State.loops_setS, State.loops_setS, countIssue_tile]
  · rw [doneHead_rest, State.setS_rest, State.setS_rest, countIssue_rest]
  · rw [doneHead_sreg, State.sreg_setS _ _ _ _ _ _ hr (by omega), State.sreg_setS _ _ _ _ _ _ hr (by omega), State.countIssue,
      State.bump_sreg]
    exact if_congr (by omega) rfl rfl

/-- A wmark whose mark is reached: late, counted and done (R209). -/
def lateMark (s : State) (q u : Nat) : State := ((s.countIssue q).wr F.TRK_STATUS_LATE_MARK u 1).bump C.TRK_LATE_MARK_CNT u 1

def lateMarkFields : List Fld := [F.TRK_STATUS_LATE_MARK, F.TRK_LATE_MARK_CNT_COUNT, F.TRK_WRAP_FLAGS]

theorem lateMark_frame (s : State) (q : Nat) {u : Nat} (hu : u < 8) : UnitFrame lateMarkFields (s.countIssue q) (lateMark s q u) :=
  (UnitFrame.wr _ 1 (by omega) (by decide)).trans (.bump _ (c := C.TRK_LATE_MARK_CNT) 1 (by omega) (by decide) (by decide))

theorem lateMark_counts (s : State) {q u : Nat} (hq : q < 4096) (hu : u < 8) :
    (lateMark s q u).rd F.TRK_STATUS_LATE_MARK u = 1 ∧
      (lateMark s q u).rd F.TRK_LATE_MARK_CNT_COUNT u = (s.rd F.TRK_LATE_MARK_CNT_COUNT u + 1) % 2 ^ 64 := by
  have hi : u < 131072 := by omega
  have hcount : ((s.countIssue q).wr F.TRK_STATUS_LATE_MARK u 1).rd F.TRK_LATE_MARK_CNT_COUNT u = s.rd F.TRK_LATE_MARK_CNT_COUNT u :=
    (State.rd_wr_key _ _ (by decide) hi hi).trans ((countIssue_frame s hq).fields _ _ hi (by decide))
  constructor
  · rw [lateMark, State.rd_bump_other _ _ _ _ _ _ hi hi (.inl (by decide)) (.inl (by decide)), State.rd_wr_same]
    rfl
  · rw [← hcount]
    exact State.rd_bump_same _ C.TRK_LATE_MARK_CNT u 1 (by decide) hi

theorem wmarkEff_reached {s : State} {q w : Nat} (hq : q < 4096) (h : markPos s q w ≤ s.position (markTrk w)) :
    let t := wmarkEff s q w
    t.tile.sregs = s.tile.sregs ∧ t.trk = s.trk ∧ t.rd F.TRK_STATUS_LATE_MARK (markTrk w) = 1 ∧
      t.rd F.TRK_LATE_MARK_CNT_COUNT (markTrk w) = (s.rd F.TRK_LATE_MARK_CNT_COUNT (markTrk w) + 1) % 2 ^ 64 ∧ Finished s t q := by
  have hu := markTrk_lt w
  have hi : markTrk w < 131072 := by omega
  have ht : wmarkEff s q w = (lateMark s q (markTrk w)).doneHead q := if_pos h
  obtain ⟨hlate, hcount⟩ := lateMark_counts s hq hu
  have hframe := lateMark_frame s q hu
  rw [ht]
  refine ⟨?_, ?_, ?_, ?_, hframe.finished hq (by decide) (by decide)⟩
  · rw [doneHead_sregs, hframe.sregs, countIssue_tile]
  · rw [doneHead_rest, lateMark, State.bump_trk, State.wr_trk, countIssue_trk]
  · rw [doneHead_keeps _ hq hi (by decide), hlate]
  · rw [doneHead_keeps _ hq hi (by decide), hcount]

theorem wmarkEff_ahead {s : State} {q w : Nat} (h : s.position (markTrk w) < markPos s q w) : wmarkEff s q w = s.holdHead q 0x5 .mark :=
  if_neg (Nat.not_le.2 h)

theorem State.headWait_holdHead (s : State) (q c : Nat) (h : HeadWait) : (s.holdHead q c h).headWait q = h := Tab.get_set_same _ _ _ _

/-! ### The trace timestamp (R222) -/

theorem epochRecord_length (s : State) : (epochRecord s).length = 16 := by simp [epochRecord]

theorem timestampWrap_wraps (s : State) :
    let t := timestampWrap s
    t.trk = { s.trk with ts := 0 } ∧ t.rd F.TRK_EPOCH_EPOCH 0 = (s.rd F.TRK_EPOCH_EPOCH 0 + 1) % 2 ^ F.TRK_EPOCH_EPOCH.width ∧
      (∃ ws, t.outbox = .epoch ws :: s.outbox ∧ ws.length = 16) ∧ SameRegs s t [(F.TRK_EPOCH_EPOCH, 0)] :=
  ⟨rfl, State.rd_wr_same { s with trk := { s.trk with ts := 0 } } F.TRK_EPOCH_EPOCH 0 _, ⟨_, rfl, epochRecord_length _⟩,
    (SameRegs.wr s F.TRK_EPOCH_EPOCH 0 _ (by decide) (by simp)).regs' rfl⟩

/-- Settles O26: rpos writes its two registers, wmark holds its head or is late, and the reads and the wrap of the track unit. -/
theorem positionMarksAndTimestamp : Obligations.PositionMarksAndTimestamp := by
  unfold Obligations.PositionMarksAndTimestamp
  refine ⟨⟨?rpos, ?wmark, ?reached⟩, ?lap, ?emptyLog, ?log, ?wrap, fun s h => congrArg Host.Outcome.next (if_neg h)⟩
  case rpos =>
    intro q s hissue hreg
    exact ⟨_, congrArg Host.Outcome.next (issue_eq hissue _), rposEff_reads s q.isLt hreg⟩
  case wmark =>
    intro q s hissue w trk
    refine ⟨_, congrArg Host.Outcome.next (issue_eq hissue _), ?_⟩
    rcases Nat.lt_or_ge (s.position trk) (markPos s q w) with hahead | hreached
    · rw [wmarkEff_ahead hahead]
      obtain ⟨hstate, hon, hpc⟩ := holdHead_shows s (c := 0x5) .mark q.isLt (by decide)
      exact ⟨rfl, rfl, fun _ => ⟨hstate, hon, s.headWait_holdHead q 0x5 .mark, hpc, holdHead_sameRegs s q.isLt _ _⟩,
        fun h => absurd h (Nat.not_le.2 hahead)⟩
    · obtain ⟨hsregs, htrk, hlate⟩ := wmarkEff_reached q.isLt hreached
      exact ⟨hsregs, htrk, fun h => absurd hreached (Nat.not_le.2 h), fun _ => hlate⟩
  case reached =>
    intro q s hwait
    refine ⟨fun hreached => ?_, fun hahead => congrArg Host.Outcome.next (if_neg fun h => Nat.not_le.2 hahead h.2)⟩
    obtain ⟨hdone, hregs, hrest, hsregs⟩ := finishedHead s q.isLt
    exact ⟨_, congrArg Host.Outcome.next (if_pos ⟨hwait, hreached⟩), hdone, hregs, hsregs, hrest⟩
  case lap =>
    exact fun trk s => ⟨_, rfl, rfl, State.rd_wr_same s F.TRK_ANGLE_ANGLE trk _,
      (SameRegs.wr s F.TRK_ANGLE_ANGLE trk _ (by omega) (by simp)).regs' rfl, rfl⟩
  case emptyLog =>
    intro s h
    exact congrArg Host.Outcome.next (by simp only [h])
  case log =>
    intro s r rest h
    refine ⟨({ s with trk := { s.trk with lateLog := rest } } : State).emit (.data r.2.2.2), ?_, rfl, rfl, rfl, rfl⟩
    exact congrArg Host.Outcome.next (by simp only [h])
  case wrap =>
    intro s h
    obtain ⟨htrk, hepoch, hout, hregs⟩ := timestampWrap_wraps s
    exact ⟨_, congrArg Host.Outcome.next (if_pos h), by rw [htrk], by rw [htrk], hepoch, hout, hregs⟩

end Sys2Proof.Machine
end

section
/-!
PROOFS. Tracks (R196-R205, R218): what each operation on a track makes of its fields and of its position, from EN to the stall, and from
an accepted edge to a cycle of interpolation.
-/
namespace Sys2Proof.Machine

/-! ### The fields and the workings of a track -/

section
variable (s : State) (u : Nat)

@[simp] theorem State.track_setTrack (k : Track) : (s.setTrack u k).track u = k := Tab.get_set_same _ _ _ _

theorem State.track_setTrack_other {u v : Nat} (h : v ≠ u) (k : Track) : (s.setTrack u k).track v = s.track v :=
  Tab.get_set_other _ _ _ _ h

theorem State.track_of_trk {s t : State} (h : t.trk = s.trk) (u : Nat) : t.track u = s.track u := by rw [State.track, h, State.track]

@[simp] theorem State.track_wr (f : Fld) (i v : Nat) : (s.wr f i v).track u = s.track u := rfl

@[simp] theorem State.track_bump (c : Cnt) (i n : Nat) : (s.bump c i n).track u = s.track u := State.track_of_trk (State.bump_trk _ _ _ _) u

@[simp] theorem State.track_owe (event byte : Nat) : (s.owe event byte).track u = s.track u := rfl

theorem UnitFrame.setTrack (l : List Fld) (k : Track) : UnitFrame l s (s.setTrack u k) := ⟨fun _ _ _ _ => rfl, rfl, rfl, rfl, rfl, rfl⟩

theorem UnitFrame.owe (l : List Fld) (event byte : Nat) : UnitFrame l s (s.owe event byte) := ⟨fun _ _ _ _ => rfl, rfl, rfl, rfl, rfl, rfl⟩

theorem OffChip.setTrack {s t : State} (h : OffChip s t) (u : Nat) (k : Track) : OffChip s (t.setTrack u k) := ⟨h.tile, h.sram⟩

/-- A position is kept by what keeps the lap and the angle. -/
theorem UnitFrame.position {l : List Fld} {s t : State} {u : Nat} (h : UnitFrame l s t) (hu : u < 131072)
    (hl : ∀ g ∈ l, g.key ≠ F.TRK_LAP_LAP.key) (hangle : (t.track u).angle = (s.track u).angle) : t.position u = s.position u := by
  rw [State.position, State.lap, h.fields _ _ hu hl, hangle, State.position, State.lap]

end

section
variable (s : State) (u : Fin 8)

theorem track_index_lt : u.val < 131072 := by omega

/-- A field of a track after a write of another of its fields. -/
theorem State.rd_wr_track {f g : Fld} (v : Nat) (h : f.key ≠ g.key) : (s.wr g u v).rd f u = s.rd f u :=
  State.rd_wr_key _ _ h (by omega) (by omega)

/-- A field of a track after one of its counters has counted. -/
theorem State.rd_bump_track {f : Fld} {c : Cnt} (n : Nat) (h : f.key ≠ c.fld.key) (h' : f.key ≠ c.wrapFld.key) :
    (s.bump c u n).rd f u = s.rd f u :=
  State.rd_bump_other _ _ _ _ _ _ (by omega) (by omega) (.inl h) (.inl h')

/-! ### EN and TRK_STEP (R196, R197, R203) -/

/-- A track that is enabled: at the preset angle, its levels as they are (R197). -/
def presetTrack : Track :=
  { Track.off with
    inA := (s.track u).inA, inB := (s.track u).inB, angle := s.rd F.TRK_PRESET_ANGLE_ANGLE u,
    ea := posOf (if s.trkMode u = 4 then s.rd F.TRK_PRESET_LAP_LAP u % 2 ^ 64 else 0) (s.rd F.TRK_PRESET_ANGLE_ANGLE u) }

theorem trkEnable_eq (hoff : s.on F.TRK_CTRL_EN u = false) :
    trkEnable s u = ((((((s.wr F.TRK_CTRL_EN u 1).wr F.TRK_DEFICIT_EDGES u 0).wr F.TRK_LAP_LAP u (s.rd F.TRK_PRESET_LAP_LAP u)).setTrack u
      (presetTrack s u)).wr F.TRK_INC_INC u 0).wr F.TRK_STATUS_STATE u (if s.trkMode u = 5 then trkLOCKED else trkACQ)) := by
  simp (disch := decide) only [trkEnable, hoff, presetTrack, State.trkMode, State.lap, State.track_wr, State.setTrack_rd, State.rd_wr_track,
    State.rd_wr_same]
  rfl

theorem trkEnable_enables (hoff : s.on F.TRK_CTRL_EN u = false) :
    let t := trkEnable s u
    t.rd F.TRK_CTRL_EN u = 1 ∧ t.trkState u = (if s.trkMode u = 5 then trkLOCKED else trkACQ) ∧
      t.lap u = s.rd F.TRK_PRESET_LAP_LAP u % 2 ^ 64 ∧ (t.track u).angle = s.rd F.TRK_PRESET_ANGLE_ANGLE u ∧ t.rd F.TRK_INC_INC u = 0 ∧
      t.rd F.TRK_DEFICIT_EDGES u = 0 ∧ (∀ v, v ≠ u.val → t.track v = s.track v) ∧
      SameRegs s t [(F.TRK_CTRL_EN, u.val), (F.TRK_DEFICIT_EDGES, u.val), (F.TRK_LAP_LAP, u.val), (F.TRK_INC_INC, u.val),
        (F.TRK_STATUS_STATE, u.val)] ∧ t = { s with regs := t.regs, trk := t.trk } := by
  have hu := track_index_lt u
  rw [trkEnable_eq s u hoff]
  refine ⟨?_, ?_, ?_, ?_, ?_, ?_, fun v hv => State.track_setTrack_other _ hv _, ?_, rfl⟩
  · simp (disch := decide) only [State.rd_wr_track, State.setTrack_rd, State.rd_wr_same]
    rfl
  · rw [State.trkState, State.rd_wr_same]
    split <;> rfl
  · simp (disch := decide) only [State.lap, State.rd_wr_track, State.setTrack_rd, State.rd_wr_same]
    rfl
  · simp [presetTrack]
  · simp (disch := decide) only [State.rd_wr_track, State.rd_wr_same, Nat.zero_mod]
  · simp (disch := decide) only [State.rd_wr_track, State.setTrack_rd, State.rd_wr_same, Nat.zero_mod]
  · refine .wr' _ _ _ (.wr' _ _ _ (.regs' (t := ((s.wr F.TRK_CTRL_EN u 1).wr F.TRK_DEFICIT_EDGES u 0).wr F.TRK_LAP_LAP u _) ?_ rfl) hu ?_) hu ?_
    · exact ((SameRegs.wr s _ _ _ hu (by simp)).wr' _ _ _ hu (by simp)).wr' _ _ _ hu (by simp)
    · simp
    · simp

theorem trkDisable_disables :
    let t := trkDisable s u
    t.rd F.TRK_CTRL_EN u = 0 ∧ t.trkState u = trkOFF ∧ t.position u = s.position u ∧
      SameRegs s t [(F.TRK_CTRL_EN, u.val), (F.TRK_STATUS_STATE, u.val), (F.TRK_INC_INC, u.val)] ∧ t = { s with regs := t.regs } := by
  have hu := track_index_lt u
  refine ⟨?_, ?_, ?_, ?_, rfl⟩
  · simp (disch := decide) only [trkDisable, State.rd_wr_track, State.rd_wr_same, Nat.zero_mod]
  · simp (disch := decide) only [trkDisable, State.trkState, State.rd_wr_track, State.rd_wr_same]
    rfl
  · simp (disch := decide) only [trkDisable, State.position, State.lap, State.rd_wr_track, State.track_wr]
  · exact ((SameRegs.wr s _ _ _ hu (by simp)).wr' _ _ _ hu (by simp)).wr' _ _ _ hu (by simp)

/-- The fields that a lap may change: TRK_LAP, and LAP_WRAP where it wraps (R220). -/
def lapFields : List Fld := [F.TRK_LAP_LAP, F.TRK_STATUS_LAP_WRAP]

theorem setLap_frame (lap : Nat) : UnitFrame lapFields s (setLap s u lap) ∧ OffChip s (setLap s u lap) := by
  have hu := track_index_lt u
  have hlap : UnitFrame lapFields s (s.wr F.TRK_LAP_LAP u lap) := .wr s _ hu (by decide)
  unfold setLap
  dsimp only
  split
  · exact ⟨hlap.trans (.wr _ _ hu (by decide)), ((OffChip.refl s).wr _ _ _).wr _ _ _⟩
  · exact ⟨hlap, (OffChip.refl s).wr _ _ _⟩

theorem setLap_sets (lap : Nat) : (setLap s u lap).lap u = lap % 2 ^ 64 ∧ (setLap s u lap).trk = s.trk := by
  unfold setLap
  dsimp only
  split
  · exact ⟨(State.rd_wr_track _ u _ (by decide)).trans (State.rd_wr_same _ _ _ _), rfl⟩
  · exact ⟨State.rd_wr_same _ _ _ _, rfl⟩

theorem moveAhead_frame (p : Nat) : UnitFrame lapFields s (moveAhead s u p) ∧ OffChip s (moveAhead s u p) := by
  obtain ⟨hframe, hoff⟩ := setLap_frame s u (p / 2 ^ 32)
  unfold moveAhead
  split
  · exact ⟨hframe.trans (.setTrack _ _ _ _), hoff.setTrack _ _⟩
  · exact ⟨.refl _ s, .refl s⟩

/-- A track moves to a position that lies ahead, and to no other (R196). -/
theorem moveAhead_position {p : Nat} (hp : p < 2 ^ 96) : (moveAhead s u p).position u = Nat.max p (s.position u) := by
  unfold moveAhead
  split
  case isTrue hahead =>
    have hlap : (setLap s u (p / 2 ^ 32)).lap u = p / 2 ^ 32 := (setLap_sets s u _).1.trans (Nat.mod_eq_of_lt (by omega))
    rw [State.position, State.track_setTrack, State.lap, State.setTrack_rd, ← State.lap, hlap, posOf, Nat.div_add_mod']
    exact (Nat.max_eq_left hahead.le).symm
  case isFalse hbehind => exact (Nat.max_eq_right (Nat.not_lt.1 hbehind)).symm

theorem trkStep_moves {value : Nat} (hon : s.trkState u ≠ trkOFF) (hmode : s.trkMode u = 5)
    (hp : posOf (s.lap u + bits value 32 32) (bits value 0 32) < 2 ^ 96) :
    let t := trkStep s u value
    t.position u = Nat.max (posOf (s.lap u + bits value 32 32) (bits value 0 32)) (s.position u) ∧ t.trkState u = s.trkState u ∧
      t.sram = s.sram ∧ t.tile = s.tile := by
  have ht : trkStep s u value = moveAhead s u (posOf (s.lap u + bits value 32 32) (bits value 0 32)) := if_neg (by simp [hon, hmode])
  obtain ⟨hframe, hoff⟩ := moveAhead_frame s u (posOf (s.lap u + bits value 32 32) (bits value 0 32))
  rw [ht]
  exact ⟨moveAhead_position s u hp, hframe.fields _ _ (track_index_lt u) (by decide), hoff.sram, hoff.tile⟩

/-! ### Stalls (R215, R218) -/

/-- A track that stalls, before its emergency is owed: STALLED, at rest and counted. -/
def stalledTrack : State := ((s.wr F.TRK_STATUS_STATE u trkSTALLED).wr F.TRK_INC_INC u 0).bump C.TRK_STALL_CNT u 1

theorem trackStall_eq (hstate : s.trkState u = trkACQ ∨ s.trkState u = trkLOCKED) (hmode : s.trkMode u ≠ 5)
    (hlim : s.rd F.TRK_STALL_TO_CYCLES u ≠ 0) (hsilent : s.rd F.TRK_STALL_TO_CYCLES u ≤ (s.track u).silent) :
    trackStall s u = ((stalledTrack s u).flagMC F.TRK_STATUS_STALL u).owe 0x24000003 4 :=
  if_pos ⟨hstate, hlim, hsilent, hmode⟩

theorem stalledTrack_frame : UnitFrame [F.TRK_STATUS_STATE, F.TRK_INC_INC, F.TRK_STALL_CNT_COUNT, F.TRK_WRAP_FLAGS] s (stalledTrack s u) := by
  have hu := track_index_lt u
  exact ((UnitFrame.wr s _ hu (by decide)).trans (.wr _ _ hu (by decide))).trans (.bump _ (c := C.TRK_STALL_CNT) 1 hu (by decide) (by decide))

theorem stalledTrack_rd :
    (stalledTrack s u).trkState u = trkSTALLED ∧ (stalledTrack s u).rd F.TRK_INC_INC u = 0 ∧
      (stalledTrack s u).rd F.TRK_STALL_CNT_COUNT u = (s.rd F.TRK_STALL_CNT_COUNT u + 1) % 2 ^ 64 := by
  have hu := track_index_lt u
  refine ⟨?_, ?_, ?_⟩
  · rw [stalledTrack, State.trkState, State.rd_bump_track _ _ _ (by decide) (by decide), State.rd_wr_track _ _ _ (by decide), State.rd_wr_same]
    rfl
  · rw [stalledTrack, State.rd_bump_track _ _ _ (by decide) (by decide), State.rd_wr_same, Nat.zero_mod]
  · refine (State.rd_bump_same _ C.TRK_STALL_CNT u 1 (by decide) hu).trans ?_
    rw [State.rd_wr_track _ _ _ (by decide), State.rd_wr_track _ _ _ (by decide)]
    rfl

theorem trackStall_stalls (hstate : s.trkState u = trkACQ ∨ s.trkState u = trkLOCKED) (hmode : s.trkMode u ≠ 5)
    (hlim : s.rd F.TRK_STALL_TO_CYCLES u ≠ 0) (hsilent : s.rd F.TRK_STALL_TO_CYCLES u ≤ (s.track u).silent) :
    let t := trackStall s u
    t.trkState u = trkSTALLED ∧ t.rd F.TRK_INC_INC u = 0 ∧ t.rd F.TRK_STATUS_STALL u = 1 ∧
      t.rd F.TRK_STALL_CNT_COUNT u = (s.rd F.TRK_STALL_CNT_COUNT u + 1) % 2 ^ 64 ∧ t.outbox = .mc F.TRK_STATUS_STALL u :: s.outbox ∧
      t.position u = s.position u ∧ t.dict = { s.dict with owed := s.dict.owed ++ [(0x24000003, 4)] } ∧
      t = { s with regs := t.regs, outbox := t.outbox, dict := t.dict } := by
  have hu := track_index_lt u
  obtain ⟨hstalled, hinc, hcount⟩ := stalledTrack_rd s u
  have hrest : stalledTrack s u = { s with regs := (stalledTrack s u).regs } := State.bump_rest _ _ _ _
  have hflag (f : Fld) : (((stalledTrack s u).flagMC F.TRK_STATUS_STALL u).owe 0x24000003 4).rd f u =
      ((stalledTrack s u).wr F.TRK_STATUS_STALL u 1).rd f u := rfl
  have hkeeps (f : Fld) (hf : f.key ≠ F.TRK_STATUS_STALL.key) := (hflag f).trans (State.rd_wr_track (stalledTrack s u) u 1 hf)
  rw [trackStall_eq s u hstate hmode hlim hsilent]
  refine ⟨(hkeeps _ (by decide)).trans hstalled, (hkeeps _ (by decide)).trans hinc, (hflag _).trans (State.rd_wr_same _ _ _ _),
    (hkeeps _ (by decide)).trans hcount, ?_, ?_, ?_, ?_⟩
  · change Out.mc F.TRK_STATUS_STALL u :: (stalledTrack s u).outbox = _
    rw [hrest]
  · exact UnitFrame.position (((stalledTrack_frame s u).mono (List.subset_append_left _ [F.TRK_STATUS_STALL])).trans
      (((UnitFrame.wr _ 1 hu (by decide)).trans (.emit _ _)).trans (.owe _ _ _ _))) hu (by decide)
      (congrArg Track.angle (State.track_bump _ _ C.TRK_STALL_CNT u 1))
  · change { (stalledTrack s u).dict with owed := (stalledTrack s u).dict.owed ++ [(0x24000003, 4)] } = _
    rw [hrest]
  · rw [hrest]
    rfl

theorem trackStall_waits (h : s.rd F.TRK_STALL_TO_CYCLES u = 0 ∨ (s.track u).silent < s.rd F.TRK_STALL_TO_CYCLES u) : trackStall s u = s :=
  if_neg fun ⟨_, hlim, hsilent, _⟩ => h.elim hlim fun hlt => Nat.not_le.2 hlt hsilent

/-! ### Accepted edges and the index check (R200, R204, R205) -/

/-- The fields that an accepted edge may change: INC and the state, by its interval; the lap; and the count of edges. -/
def edgeFields : List Fld := [F.TRK_INC_INC, F.TRK_STATUS_STATE, F.TRK_LAP_LAP, F.TRK_STATUS_LAP_WRAP, F.TRK_EDGE_CNT_COUNT, F.TRK_WRAP_FLAGS]

theorem recordInterval_frame :
    UnitFrame [F.TRK_INC_INC, F.TRK_STATUS_STATE] s (recordInterval s u) ∧ OffChip s (recordInterval s u) ∧
      ∃ hist, (recordInterval s u).track u = { s.track u with hist := hist } := by
  have hu := track_index_lt u
  unfold recordInterval
  dsimp only
  split
  · split
    · exact ⟨((UnitFrame.setTrack _ _ _ _).trans (.wr _ _ hu (by decide))).trans (.wr _ _ hu (by decide)),
        (((OffChip.refl s).setTrack _ _).wr _ _ _).wr _ _ _, _, State.track_setTrack _ _ _⟩
    · exact ⟨.setTrack _ _ _ _, (OffChip.refl s).setTrack _ _, _, State.track_setTrack _ _ _⟩
  · exact ⟨.refl _ s, .refl s, _, rfl⟩

theorem acceptEdge_lap :
    acceptEdge s u 0 true =
      ((setLap (recordInterval s u) u ((recordInterval s u).lap u + 1)).setTrack u
        { (recordInterval s u).track u with
          i := 0, angle := 0, ea := 0, frac := 0, prevAccepted := true, sinceEdge := 0, silent := 0, seen := true }).bump C.TRK_EDGE_CNT u 1 := by
  simp only [acceptEdge, edgeAngle, Nat.zero_mul, Nat.zero_div, if_true]

/-- An edge that begins the next lap: the lap goes up by one, the angle is 0, and the edge is counted (R204). -/
theorem acceptEdge_beginsLap (hlap : s.lap u + 1 < 2 ^ 64) :
    let t := acceptEdge s u 0 true
    t.lap u = s.lap u + 1 ∧ (t.track u).angle = 0 ∧ (t.track u).edges = (s.track u).edges ∧
      t.rd F.TRK_EDGE_CNT_COUNT u = (s.rd F.TRK_EDGE_CNT_COUNT u + 1) % 2 ^ 64 ∧ UnitFrame edgeFields s t ∧ OffChip s t := by
  have hu := track_index_lt u
  rw [acceptEdge_lap]
  obtain ⟨hinterval, hoff, hist, htrack⟩ := recordInterval_frame s u
  generalize recordInterval s u = r at hinterval hoff htrack
  obtain ⟨hframe, hoff'⟩ := setLap_frame r u (r.lap u + 1)
  obtain ⟨hset, -⟩ := setLap_sets r u (r.lap u + 1)
  have hrlap : r.lap u = s.lap u := hinterval.fields _ _ hu (by decide)
  rw [hrlap] at hset hframe hoff' ⊢
  generalize setLap r u (s.lap u + 1) = v at hframe hoff' hset
  refine ⟨?_, ?_, ?_, ?_, ?_, ?_⟩
  · rw [State.lap, State.rd_bump_track _ _ _ (by decide) (by decide), State.setTrack_rd]
    exact hset.trans (Nat.mod_eq_of_lt hlap)
  · rw [State.track_bump, State.track_setTrack]
  · rw [State.track_bump, State.track_setTrack, htrack]
  · refine (State.rd_bump_same _ C.TRK_EDGE_CNT u 1 (by decide) hu).trans ?_
    have hcount : v.rd F.TRK_EDGE_CNT_COUNT u = s.rd F.TRK_EDGE_CNT_COUNT u :=
      (hframe.fields _ _ hu (by decide)).trans (hinterval.fields _ _ hu (by decide))
    exact congrArg (fun n => (n + 1) % 2 ^ 64) hcount
  · exact (((hinterval.mono (by decide)).trans (hframe.mono (by decide))).trans (.setTrack _ _ _ _)).trans
      (.bump _ (c := C.TRK_EDGE_CNT) 1 hu (by decide) (by decide))
  · exact ((hoff.trans hoff').setTrack _ _).bump _ _ _

/-- The index check (R200): the count of edges starts again, and a count other than EPL is an index error. -/
theorem indexCheck_checks :
    let t := indexCheck s u
    (t.track u).edges = 0 ∧ UnitFrame [F.TRK_STATUS_INDEX_ERR, F.TRK_IDX_ERR_CNT_COUNT, F.TRK_WRAP_FLAGS] s t ∧
      ((s.track u).edges ≠ trkEpl s u → t.rd F.TRK_STATUS_INDEX_ERR u = 1 ∧
        t.rd F.TRK_IDX_ERR_CNT_COUNT u = (s.rd F.TRK_IDX_ERR_CNT_COUNT u + 1) % 2 ^ 64) ∧
      ((s.track u).edges = trkEpl s u → t.rd F.TRK_IDX_ERR_CNT_COUNT u = s.rd F.TRK_IDX_ERR_CNT_COUNT u) := by
  have hu := track_index_lt u
  by_cases hedges : (s.track u).edges = trkEpl s u
  · have ht : indexCheck s u = s.setTrack u { s.track u with edges := 0 } := by simp [indexCheck, hedges]
    rw [ht]
    exact ⟨by simp, .setTrack _ _ _ _, fun h => absurd hedges h, fun _ => rfl⟩
  · set r := s.setTrack u { s.track u with edges := 0 } with hr
    have ht : indexCheck s u = ((r.wr F.TRK_STATUS_INDEX_ERR u 1).bump C.TRK_IDX_ERR_CNT u 1).owe 0x24000004 4 := by
      simp [indexCheck, hedges, hr]
    rw [ht]
    refine ⟨by simp [hr], ?_, fun _ => ⟨?_, ?_⟩, fun h => absurd h hedges⟩
    · exact (((UnitFrame.setTrack _ _ _ _).trans (.wr _ _ hu (by decide))).trans
        (.bump _ (c := C.TRK_IDX_ERR_CNT) 1 hu (by decide) (by decide))).trans (.owe _ _ _ _)
    · refine (State.rd_bump_track _ _ _ (by decide) (by decide)).trans ?_
      exact State.rd_wr_same _ _ _ _
    · refine (State.rd_bump_same _ C.TRK_IDX_ERR_CNT u 1 (by decide) hu).trans ?_
      rw [State.rd_wr_track _ _ _ (by decide)]
      rfl

theorem leaveStall_of_moving (h : s.trkState u ≠ trkSTALLED) : leaveStall s u = s := if_neg h

theorem indexPulse_eq {fabric : Bool} {held : Nat} (hstate : s.trkState u = trkLOCKED) (hmode : s.trkMode u = 0)
    (hen : s.on F.TRK_CFG_INDEX_EN u = true) (hpass : passesFilter s u fabric held = true) :
    indexPulse s u fabric held = acceptEdge (indexCheck s u) u 0 true := by
  unfold indexPulse
  rw [leaveStall_of_moving s u (by rw [hstate]; decide), if_neg (by simp [hstate, hmode, hen, hpass, trkLOCKED, trkOFF])]

theorem indexPulse_beginsLap {fabric : Bool} {held : Nat} (hstate : s.trkState u = trkLOCKED) (hmode : s.trkMode u = 0)
    (hen : s.on F.TRK_CFG_INDEX_EN u = true) (hpass : passesFilter s u fabric held = true) (hlap : s.lap u + 1 < 2 ^ 64) :
    let t := indexPulse s u fabric held
    t.lap u = s.lap u + 1 ∧ (t.track u).angle = 0 ∧ (t.track u).edges = 0 ∧
      ((s.track u).edges ≠ s.rd F.TRK_EPL_EPL u → t.rd F.TRK_STATUS_INDEX_ERR u = 1 ∧
        t.rd F.TRK_IDX_ERR_CNT_COUNT u = (s.rd F.TRK_IDX_ERR_CNT_COUNT u + 1) % 2 ^ 64) ∧
      ((s.track u).edges = s.rd F.TRK_EPL_EPL u → t.rd F.TRK_IDX_ERR_CNT_COUNT u = s.rd F.TRK_IDX_ERR_CNT_COUNT u) := by
  have hu := track_index_lt u
  have hepl : trkEpl s u = s.rd F.TRK_EPL_EPL u := by simp only [trkEpl, hmode]
  rw [indexPulse_eq s u hstate hmode hen hpass, ← hepl]
  obtain ⟨hedges, hchecked, hbad, hgood⟩ := indexCheck_checks s u
  have hclap : (indexCheck s u).lap u = s.lap u := hchecked.fields _ _ hu (by decide)
  obtain ⟨hnext, hangle, hkept, -, hframe, -⟩ := acceptEdge_beginsLap (indexCheck s u) u (hclap.symm ▸ hlap)
  have hrd (f : Fld) (hf : ∀ g ∈ edgeFields, g.key ≠ f.key) := hframe.fields f u hu hf
  refine ⟨hnext.trans (congrArg (· + 1) hclap), hangle, hkept.trans hedges, fun h => ?_, fun h => ?_⟩
  · obtain ⟨hflag, hcount⟩ := hbad h
    exact ⟨(hrd _ (by decide)).trans hflag, (hrd _ (by decide)).trans hcount⟩
  · exact (hrd _ (by decide)).trans (hgood h)

/-! ### Edges of the inputs (R198-R200) -/

/-- The levels of A and B that have passed the filter. -/
def levelsTaken (a b : Bool) : State := s.setTrack u { s.track u with inA := a, inB := b }

theorem levelsTaken_position (a b : Bool) : (levelsTaken s u a b).position u = s.position u := by
  rw [State.position, levelsTaken, State.track_setTrack]
  rfl

theorem trackEdge_of_unfiltered {fabric a b z : Bool} {held : Nat} (h : passesFilter s u fabric held = false) :
    trackEdge s u fabric a b z held = s := if_pos (by simp [h])

theorem indexPulse_of_unfiltered {fabric : Bool} {held : Nat} (h : passesFilter s u fabric held = false) : indexPulse s u fabric held = s :=
  if_pos (by simp [h])

/-- A pulse outside HOLDOFF is an edge (R199). -/
theorem pulseEdge_eq (hstate : s.trkState u = trkLOCKED)
    (hoff : (s.track u).seen = false ∨ s.rd F.TRK_CFG_HOLDOFF u < (s.track u).sinceEdge) :
    pulseEdge s u true = acceptEdge (s.setTrack u { s.track u with silent := 0 }) u 0 true := by
  have hheld : ((s.track u).seen && decide ((s.track u).sinceEdge ≤ s.rd F.TRK_CFG_HOLDOFF u)) = false := by
    rcases hoff with hfirst | hlate
    · rw [hfirst, Bool.false_and]
    · rw [decide_eq_false (Nat.not_le.2 hlate), Bool.and_false]
  have hmoving : (s.setTrack u { s.track u with silent := 0 }).trkState u ≠ trkSTALLED := by
    rw [State.trkState, State.setTrack_rd, ← State.trkState, hstate]; decide
  unfold pulseEdge
  dsimp only
  rw [State.setTrack_rd, hheld, Bool.false_and, if_neg Bool.false_ne_true, if_pos (.inr rfl), leaveStall_of_moving _ u hmoving]

theorem trackEdge_pulse {fabric b z : Bool} {held : Nat} (hstate : s.trkState u = trkLOCKED) (hmode : s.trkMode u = 1)
    (hpass : passesFilter s u fabric held = true) (hlow : (s.track u).inA = false) :
    trackEdge s u fabric true b z held = pulseEdge (levelsTaken s u true b) u true := by
  have hmode' : (levelsTaken s u true b).trkMode u = 1 := hmode
  have hstate' : (levelsTaken s u true b).trkState u = trkLOCKED := hstate
  unfold trackEdge
  dsimp only
  rw [if_neg (by simp [hpass]), ← levelsTaken, hmode', hstate']
  simp [hlow, trkLOCKED, trkOFF]

theorem trackEdge_pulse_beginsLap {fabric b z : Bool} {held : Nat} (hstate : s.trkState u = trkLOCKED) (hmode : s.trkMode u = 1)
    (hpass : passesFilter s u fabric held = true) (hlow : (s.track u).inA = false)
    (hoff : (s.track u).seen = false ∨ s.rd F.TRK_CFG_HOLDOFF u < (s.track u).sinceEdge) (hlap : s.lap u + 1 < 2 ^ 64) :
    let t := trackEdge s u fabric true b z held
    t.lap u = s.lap u + 1 ∧ (t.track u).angle = 0 ∧ t.rd F.TRK_EDGE_CNT_COUNT u = (s.rd F.TRK_EDGE_CNT_COUNT u + 1) % 2 ^ 64 ∧
      t.sram = s.sram ∧ t.tile = s.tile := by
  have htaken : (levelsTaken s u true b).track u = { s.track u with inA := true, inB := b } := State.track_setTrack _ _ _
  rw [trackEdge_pulse s u hstate hmode hpass hlow, pulseEdge_eq (levelsTaken s u true b) u hstate (by rw [htaken]; exact hoff)]
  obtain ⟨hnext, hangle, -, hcount, -, hchip⟩ := acceptEdge_beginsLap
    ((levelsTaken s u true b).setTrack u { (levelsTaken s u true b).track u with silent := 0 }) u hlap
  exact ⟨hnext, hangle, hcount, hchip.sram, hchip.tile⟩

/-! ### Reverse edges and tracks that are OFF (R197, R200) -/

/-- The deficit of edges raised by one; past its width it becomes a value that nothing fixes. -/
def deficitRaised : State :=
  if s.rd F.TRK_DEFICIT_EDGES u + 1 < 2 ^ 32 then s.wr F.TRK_DEFICIT_EDGES u (s.rd F.TRK_DEFICIT_EDGES u + 1)
  else s.fresh.2.wr F.TRK_DEFICIT_EDGES u s.fresh.1

theorem deficitRaised_frame : UnitFrame [F.TRK_DEFICIT_EDGES] s (deficitRaised s u) ∧ (deficitRaised s u).trk = s.trk := by
  have hu := track_index_lt u
  unfold deficitRaised
  split
  · exact ⟨.wr _ _ hu (by decide), rfl⟩
  · exact ⟨(UnitFrame.fresh s).trans (.wr _ _ hu (by decide)), rfl⟩

theorem deficitRaised_rd (h : s.rd F.TRK_DEFICIT_EDGES u + 1 < 2 ^ 32) :
    (deficitRaised s u).rd F.TRK_DEFICIT_EDGES u = s.rd F.TRK_DEFICIT_EDGES u + 1 := by
  rw [deficitRaised, if_pos h, State.rd_wr_same]
  exact Nat.mod_eq_of_lt h

/-- A reverse edge counted and flagged (R200), before a LOCKED track leaves its state. -/
def reverseCounted : State :=
  let r := ((deficitRaised s u).wr F.TRK_STATUS_REVERSE u 1).bump C.TRK_REV_CNT u 1
  r.setTrack u { r.track u with silent := 0 }

def reverseFields : List Fld := [F.TRK_DEFICIT_EDGES, F.TRK_STATUS_REVERSE, F.TRK_REV_CNT_COUNT, F.TRK_WRAP_FLAGS]

theorem reverseEdge_eq :
    reverseEdge s u = if s.trkState u = trkLOCKED then enterAcquiring (reverseCounted s u) u else reverseCounted s u := by
  have hu := track_index_lt u
  have hstate : (reverseCounted s u).trkState u = s.trkState u := by
    rw [reverseCounted, State.trkState, State.setTrack_rd, State.rd_bump_track _ _ _ (by decide) (by decide),
      State.rd_wr_track _ _ _ (by decide)]
    exact (deficitRaised_frame s u).1.fields _ _ hu (by decide)
  rw [← hstate]
  rfl

theorem reverseCounted_frame :
    UnitFrame reverseFields s (reverseCounted s u) ∧ ((reverseCounted s u).track u).angle = (s.track u).angle := by
  have hu := track_index_lt u
  obtain ⟨hraised, htrk⟩ := deficitRaised_frame s u
  refine ⟨?_, ?_⟩
  · exact (((hraised.mono (by decide)).trans (.wr _ _ hu (by decide))).trans
      (.bump _ (c := C.TRK_REV_CNT) 1 hu (by decide) (by decide))).trans (.setTrack _ _ _ _)
  · simp only [reverseCounted, State.track_setTrack, State.track_bump, State.track_wr, State.track_of_trk htrk]

theorem reverseCounted_rd :
    (reverseCounted s u).rd F.TRK_STATUS_REVERSE u = 1 ∧
      (reverseCounted s u).rd F.TRK_REV_CNT_COUNT u = (s.rd F.TRK_REV_CNT_COUNT u + 1) % 2 ^ 64 ∧
      (s.rd F.TRK_DEFICIT_EDGES u + 1 < 2 ^ 32 → (reverseCounted s u).rd F.TRK_DEFICIT_EDGES u = s.rd F.TRK_DEFICIT_EDGES u + 1) := by
  have hu := track_index_lt u
  obtain ⟨hraised, -⟩ := deficitRaised_frame s u
  refine ⟨?_, ?_, fun h => ?_⟩
  · rw [reverseCounted, State.setTrack_rd, State.rd_bump_track _ _ _ (by decide) (by decide), State.rd_wr_same]
    rfl
  · rw [reverseCounted, State.setTrack_rd]
    refine (State.rd_bump_same _ C.TRK_REV_CNT u 1 (by decide) hu).trans ?_
    rw [State.rd_wr_track _ _ _ (by decide)]
    exact congrArg (fun n => (n + 1) % 2 ^ 64) (hraised.fields _ _ hu (by decide))
  · rw [reverseCounted, State.setTrack_rd, State.rd_bump_track _ _ _ (by decide) (by decide), State.rd_wr_track _ _ _ (by decide)]
    exact deficitRaised_rd s u h

theorem enterAcquiring_frame :
    UnitFrame [F.TRK_STATUS_STATE, F.TRK_INC_INC] s (enterAcquiring s u) ∧ (enterAcquiring s u).trkState u = trkACQ ∧
      ((enterAcquiring s u).track u).angle = (s.track u).angle := by
  have hu := track_index_lt u
  refine ⟨((UnitFrame.wr _ _ hu (by decide)).trans (.wr _ _ hu (by decide))).trans (.setTrack _ _ _ _), ?_, ?_⟩
  · rw [enterAcquiring, State.trkState, State.setTrack_rd, State.rd_wr_track _ _ _ (by decide), State.rd_wr_same]
    rfl
  · rw [enterAcquiring, State.track_setTrack]

/-- A reverse edge (R200): counted and flagged in every state, the position kept, and LOCKED left for ACQUIRING. -/
theorem reverseEdge_counts :
    let t := reverseEdge s u
    t.trkState u = (if s.trkState u = trkLOCKED then trkACQ else s.trkState u) ∧ t.rd F.TRK_STATUS_REVERSE u = 1 ∧
      t.rd F.TRK_REV_CNT_COUNT u = (s.rd F.TRK_REV_CNT_COUNT u + 1) % 2 ^ 64 ∧ t.position u = s.position u ∧
      (s.rd F.TRK_DEFICIT_EDGES u + 1 < 2 ^ 32 → t.rd F.TRK_DEFICIT_EDGES u = s.rd F.TRK_DEFICIT_EDGES u + 1) ∧
      t.rd F.TRK_EDGE_CNT_COUNT u = s.rd F.TRK_EDGE_CNT_COUNT u := by
  have hu := track_index_lt u
  obtain ⟨hframe, hangle⟩ := reverseCounted_frame s u
  obtain ⟨hreverse, hcount, hdeficit⟩ := reverseCounted_rd s u
  have hposition := hframe.position hu (by decide) hangle
  have hedges := hframe.fields F.TRK_EDGE_CNT_COUNT u hu (by decide)
  rw [reverseEdge_eq]
  split
  · obtain ⟨hacq, hstate, hsame⟩ := enterAcquiring_frame (reverseCounted s u) u
    have hkeeps (f : Fld) (hf : ∀ g ∈ [F.TRK_STATUS_STATE, F.TRK_INC_INC], g.key ≠ f.key) := hacq.fields f u hu hf
    exact ⟨hstate, (hkeeps _ (by decide)).trans hreverse, (hkeeps _ (by decide)).trans hcount,
      (hacq.position hu (by decide) hsame).trans hposition, fun h => (hkeeps _ (by decide)).trans (hdeficit h),
      (hkeeps _ (by decide)).trans hedges⟩
  · exact ⟨hframe.fields _ _ hu (by decide), hreverse, hcount, hposition, hdeficit, hedges⟩

theorem quadPhase_lt (a b : Bool) : quadPhase a b < 4 := by cases a <;> cases b <;> decide

theorem trackEdge_reverse {fabric a b z : Bool} {held : Nat} (hmode : s.trkMode u = 0) (hpass : passesFilter s u fabric held = true)
    (hback : quadPhase (s.track u).inA (s.track u).inB = (quadPhase a b + 1) % 4) :
    trackEdge s u fabric a b z held = reverseEdge (levelsTaken s u a b) u := by
  have hmode' : (levelsTaken s u a b).trkMode u = 0 := hmode
  have hd : (quadPhase a b + 4 - (quadPhase a b + 1) % 4) % 4 = 3 := by have := quadPhase_lt a b; omega
  unfold trackEdge
  dsimp only
  rw [if_neg (by simp [hpass]), ← levelsTaken, hmode', hback]
  simp [hd]

/-- Levels that reach a track which is OFF are taken, and no more, but for a reverse edge of mode 0 (R197, R200). -/
theorem trackEdge_of_off {fabric a b z : Bool} {held : Nat} (hoff : s.trkState u = trkOFF) :
    trackEdge s u fabric a b z held = s ∨ trackEdge s u fabric a b z held = levelsTaken s u a b ∨
      trackEdge s u fabric a b z held = reverseEdge (levelsTaken s u a b) u := by
  have hoff' : (levelsTaken s u a b).trkState u = trkOFF := hoff
  unfold trackEdge
  dsimp only
  split
  · exact .inl rfl
  rw [← levelsTaken, hoff']
  simp only [decide_true, Bool.not_true, Bool.and_false, Bool.false_eq_true, if_false, if_true]
  right
  split
  · split
    · exact .inl rfl
    · split
      · exact .inr rfl
      · exact .inl rfl
  · exact .inl rfl
  · exact .inl (if_neg (by simp))
  · exact .inl rfl

theorem trackEdge_off_holds {fabric a b z : Bool} {held : Nat} (hoff : s.trkState u = trkOFF) :
    let t := trackEdge s u fabric a b z held
    t.trkState u = trkOFF ∧ t.position u = s.position u ∧ t.rd F.TRK_EDGE_CNT_COUNT u = s.rd F.TRK_EDGE_CNT_COUNT u := by
  rcases trackEdge_of_off s u hoff (fabric := fabric) (a := a) (b := b) (z := z) (held := held) with ht | ht | ht
  · rw [ht]
    exact ⟨hoff, rfl, rfl⟩
  · rw [ht]
    exact ⟨hoff, levelsTaken_position s u a b, rfl⟩
  · have hoff' : (levelsTaken s u a b).trkState u = trkOFF := hoff
    obtain ⟨hstate, -, -, hposition, -, hedges⟩ := reverseEdge_counts (levelsTaken s u a b) u
    rw [ht]
    exact ⟨hstate.trans ((if_neg (by rw [hoff']; decide)).trans hoff), hposition.trans (levelsTaken_position s u a b), hedges⟩

/-! ### A cycle of interpolation (R204) -/

/-- Where a cycle leaves the angle of a LOCKED track in modes 0 to 2: moved on by INC from the latest edge, up to one unit below the next. -/
def interpolated : Nat :=
  Nat.max (s.track u).angle (Nat.min ((s.track u).ea + ((s.track u).frac + s.rd F.TRK_INC_INC u) / 65536)
    (edgeAngle (trkEpl s u) ((s.track u).i + 1) - 1))

/-- A track whose interval and stall counts have gone on by a cycle. -/
def Track.aged (k : Track) : Track := { k with sinceEdge := k.sinceEdge + 1, silent := k.silent + 1 }

theorem trackCycle_interpolates (hstate : s.trkState u = trkLOCKED) (hmode : s.trkMode u < 3) :
    let t := trackCycle s u
    t.lap u = s.lap u ∧ (t.track u).angle = interpolated s u ∧ t = { s with trk := t.trk } := by
  have hcycle : trackCycle s u =
      ((s.setTrack u (s.track u).aged).setTrack u { (s.track u).aged with frac := (s.track u).frac + s.rd F.TRK_INC_INC u }).setTrack u
        { (s.track u).aged with frac := (s.track u).frac + s.rd F.TRK_INC_INC u, angle := interpolated s u } := by
    have h3 : s.trkMode u ≠ 3 := by omega
    have h4 : s.trkMode u ≠ 4 := by omega
    have h5 : s.trkMode u ≠ 5 := by omega
    rw [State.trkMode] at h3 h4 h5
    rw [State.trkState] at hstate
    simp only [trackCycle, State.trkState, State.trkMode, State.setTrack_rd, State.track_setTrack, hstate, h3, h4, h5]
    rfl
  rw [hcycle]
  exact ⟨rfl, by rw [State.track_setTrack], rfl⟩

end

/-- Settles O28: EN, TRK_STEP and the stall; and edges, by what the filter and the phase of the inputs make of them, and interpolation. -/
theorem tracksMoveForwardOrStall : Obligations.TracksMoveForwardOrStall := by
  unfold Obligations.TracksMoveForwardOrStall
  refine ⟨⟨?enable, fun trk s hon => congrArg Host.Outcome.next (if_pos hon), fun trk s => ⟨_, rfl, trkDisable_disables s trk⟩, ?step,
    fun trk value s hmode => congrArg Host.Outcome.next (if_pos (.inr hmode)), ?stall⟩, ?filter, ?pulse, ?reverse, ?index, ?off, ?cycle⟩
  case enable => exact fun trk s hoff => ⟨_, rfl, trkEnable_enables s trk hoff⟩
  case step => exact fun trk value s hon hmode hp => ⟨_, rfl, trkStep_moves s trk hon hmode hp⟩
  case stall =>
    exact fun trk s hstate hmode => ⟨fun hlim hsilent => ⟨_, rfl, trackStall_stalls s trk hstate hmode hlim hsilent⟩,
      fun h => congrArg Host.Outcome.next (trackStall_waits s trk h)⟩
  case filter =>
    exact fun trk fabric a b z held s h => ⟨congrArg Host.Outcome.next (trackEdge_of_unfiltered s trk h),
      congrArg Host.Outcome.next (indexPulse_of_unfiltered s trk h)⟩
  case pulse =>
    exact fun trk fabric b z held s hstate hmode hpass hlow hoff hlap =>
      ⟨_, rfl, trackEdge_pulse_beginsLap s trk hstate hmode hpass hlow hoff hlap⟩
  case reverse =>
    intro trk fabric a b z held s hmode hpass hback
    obtain ⟨hstate, hflag, hcount, hposition, hdeficit, -⟩ := reverseEdge_counts (levelsTaken s trk a b) trk
    exact ⟨_, congrArg Host.Outcome.next (trackEdge_reverse s trk hmode hpass hback), hstate, hflag, hcount,
      hposition.trans (levelsTaken_position s trk a b), hdeficit⟩
  case index =>
    exact fun trk fabric held s hstate hmode hen hpass hlap => ⟨_, rfl, indexPulse_beginsLap s trk hstate hmode hen hpass hlap⟩
  case off =>
    exact fun trk fabric a b z held s hoff => ⟨⟨_, rfl, trackEdge_off_holds s trk hoff⟩, congrArg Host.Outcome.next (if_pos (.inl hoff)),
      congrArg Host.Outcome.next (if_pos hoff)⟩
  case cycle =>
    intro trk s hstate hmode k
    obtain ⟨hlap, hangle, hrest⟩ := trackCycle_interpolates s trk hstate hmode
    exact ⟨_, rfl, hlap, hangle ▸ Nat.le_max_left _ _, hangle, hrest⟩

end Sys2Proof.Machine
end

section
/-!
PROOFS. Finish lines (R210-R214): a finish line that is late at farm, whose alternative arrival ends the wait of another queue.
-/
namespace Sys2Proof.Machine

theorem exec_farm {q : Fin 4096} {s : State} (h : Issues s q 6 0x02) : exec (.farm q) s = .next (farmEff s q (s.headWord q)) :=
  congrArg Host.Outcome.next (issue_eq h _)

/-- Queue 0 runs at a farm of slot 0, whose finish line, lap 0 and angle 0 of track 0, is reached with its work not met, and whose alternative
is hurdle 1, with TARGET 1. There queue 8 waits in an hwait for the generation after 0; its result goes to S1. -/
def lateFarm : State :=
  recordWaiter
    { State.reset with
      regs := [F.VEC_Q_STAT_STATE.entry qRUN, F.TRK_FL_GEN_ALT.entry 1, F.TRK_FL_GEN_ALT_EN.entry 1]
      tile := { State.reset.tile with imem := [(0, 0x16)] } }
    ⟨1, 8, 0, 1, false⟩

theorem lateFarm_issues : Issues lateFarm 0 6 0x02 where
  running := by decide
  live := by decide
  plain := by decide
  enabled := by decide
  faultless := by decide +kernel
  isClass := by decide
  isOp := by decide
  predicated := fun _ => by decide

/-- farm arms the slot, finds it late and makes the arrival; the wake of queue 8 writes its S1 (R180, R212). -/
theorem lateFarm_writes_result : lateFarm.tile.sregs = [] ∧ (farmEff lateFarm 0 (lateFarm.headWord 0)).tile.sregs = [(257, 1)] := by
  decide +kernel

/-- Refutes O27: of farm it says that no S register changes, whatever its finish line brings about. In `lateFarm` the slot is late at once,
and the arrival at its alternative hurdle ends the wait of an hwait, which takes its result (R180, R212). -/
theorem not_finishLinesAreMetOrLate : ¬ Obligations.FinishLinesAreMetOrLate := by
  unfold Obligations.FinishLinesAreMetOrLate
  rintro ⟨hfarm, -⟩
  obtain ⟨t, hstep, hsregs, -⟩ := hfarm 0 lateFarm lateFarm_issues
  obtain ⟨hbefore, hafter⟩ := lateFarm_writes_result
  obtain rfl : farmEff lateFarm 0 (lateFarm.headWord 0) = t :=
    Host.Outcome.next.inj ((exec_farm (q := 0) lateFarm_issues).symm.trans hstep)
  exact absurd (hafter.symm.trans (hsregs.trans hbefore)) (by decide)

end Sys2Proof.Machine
end

section
/-!
PROOFS. What an ACLK cycle without a command keeps: the trace timestamp and the queue of commands, whatever a slicing switch or a copy
of the output image does beside it; and memory, the sessions and the copy in progress, by all that only counts.
-/
namespace Sys2Proof.Machine

/-! ### Two views of the state -/

/-- The Track unit, which holds the trace timestamp, and the commands that wait. -/
def State.clock (s : State) : TrackUnit × List Instr := (s.trk, s.pending)

/-- Memory on the chip and off it, the sessions, the copy of the output image in progress, and the commands that wait. -/
def State.resting (s : State) : Tab Byte × Tab Bool × Tab Byte × Tab Byte × Sessions × Option (List Byte) × List Instr :=
  (s.sram, s.full, s.mem.hbm, s.mem.cxl, s.ses, s.dict.copying, s.pending)

/-- A loop keeps what each of its turns keeps. -/
theorem foldl_keeps {α β : Type} (g : State → β) {f : State → α → State} (l : List α) (s : State) (h : ∀ t a, g (f t a) = g t) :
    g (l.foldl f s) = g s :=
  List.foldlRecOn l f (motive := fun t => g t = g s) rfl fun t ht a _ => (h t a).trans ht

section
variable (s : State)

@[simp] theorem State.wr_clock (f : Fld) (i v : Nat) : (s.wr f i v).clock = s.clock := rfl
@[simp] theorem State.emit_clock (o : Out) : (s.emit o).clock = s.clock := rfl
@[simp] theorem State.owe_clock (event byte : Nat) : (s.owe event byte).clock = s.clock := rfl
@[simp] theorem State.setMem_clock (m : Mem) : (s.setMem m).clock = s.clock := rfl
@[simp] theorem State.setQueue_clock (pc : Nat) (l : List Nat) : (s.setQueue pc l).clock = s.clock := rfl
@[simp] theorem State.setWeak_clock (k v : Nat) : (s.setWeak k v).clock = s.clock := rfl
@[simp] theorem State.setSes_clock (x : Sessions) : (s.setSes x).clock = s.clock := rfl
@[simp] theorem State.setSess_clock (n : Nat) (x : Option Sess) : (s.setSess n x).clock = s.clock := rfl
@[simp] theorem State.setDict_clock (d : Dict) : (s.setDict d).clock = s.clock := rfl
@[simp] theorem State.setPci_clock (x : Pci) : (s.setPci x).clock = s.clock := rfl
@[simp] theorem State.setCtx_clock (k : Nat) (o : Option CtxOp) : (s.setCtx k o).clock = s.clock := rfl
@[simp] theorem State.setStream_clock (g : Nat) (x : Stream) : (s.setStream g x).clock = s.clock := rfl
@[simp] theorem State.holdOp_clock (o : HeldOp) : (s.holdOp o).clock = s.clock := rfl
@[simp] theorem State.doneHead_clock (q : Nat) : (s.doneHead q).clock = s.clock := rfl
@[simp] theorem State.setS_clock (q r v : Nat) : (s.setS q r v).clock = s.clock := by simp [State.clock]
@[simp] theorem State.bump_clock (c : Cnt) (i n : Nat) : (s.bump c i n).clock = s.clock := by simp [State.clock]
@[simp] theorem State.countIssue_clock (q : Nat) : (s.countIssue q).clock = s.clock := State.bump_clock _ _ _ _
@[simp] theorem State.bumpTo_clock (f : Fld) (i n : Nat) (w : Fld) (wi b : Nat) : (s.bumpTo f i n w wi b).clock = s.clock := by
  unfold State.bumpTo
  dsimp only
  split <;> rfl
@[simp] theorem State.storePlain_clock (da : Nat) (bs : List Byte) : (s.storePlain da bs).clock = s.clock := by
  rw [(s.storePlain_frame da bs).rest]
  rfl

@[simp] theorem State.emit_resting (o : Out) : (s.emit o).resting = s.resting := rfl
@[simp] theorem State.setPci_resting (x : Pci) : (s.setPci x).resting = s.resting := rfl
@[simp] theorem State.bump_resting (c : Cnt) (i n : Nat) : (s.bump c i n).resting = s.resting := by simp [State.resting]
@[simp] theorem State.bumpTo_resting (f : Fld) (i n : Nat) (w : Fld) (wi b : Nat) : (s.bumpTo f i n w wi b).resting = s.resting := by
  unfold State.bumpTo
  dsimp only
  split <;> rfl

/-! ### The cycle's counters (R118, R158, R283, R309, R352, R397, R412, R446, R485) -/

theorem stallCycle_keeps : (stallCycle s).clock = s.clock ∧ (stallCycle s).resting = s.resting :=
  ⟨foldl_keeps _ _ _ fun _ _ => State.bumpTo_clock _ _ _ _ _ _ _, foldl_keeps _ _ _ fun _ _ => State.bumpTo_resting _ _ _ _ _ _ _⟩

theorem panicCycle_keeps : (panicCycle s).clock = s.clock ∧ (panicCycle s).resting = s.resting :=
  ⟨foldl_keeps _ _ _ fun _ _ => State.bump_clock _ _ _ _, foldl_keeps _ _ _ fun _ _ => State.bump_resting _ _ _ _⟩

theorem hbmCycle_keeps : (hbmCycle s).clock = s.clock ∧ (hbmCycle s).resting = s.resting := by
  unfold hbmCycle
  extract_lets pcs t
  have hclock : t.clock = s.clock := foldl_keeps _ _ _ fun _ _ => by split <;> simp
  have hresting : t.resting = s.resting := foldl_keeps _ _ _ fun _ _ => by split <;> simp
  split
  · exact ⟨hclock, hresting⟩
  · exact ⟨hclock, hresting⟩

theorem holdCycle_keeps : (holdCycle s).clock = s.clock ∧ (holdCycle s).resting = s.resting :=
  ⟨foldl_keeps _ _ _ fun _ _ => by split <;> simp, foldl_keeps _ _ _ fun _ _ => by split <;> simp⟩

theorem sliceCycle_keeps (n : Nat) : (sliceCycle s n).clock = s.clock ∧ (sliceCycle s n).resting = s.resting := by
  unfold sliceCycle
  split
  · exact ⟨rfl, rfl⟩
  · exact ⟨foldl_keeps _ _ _ fun _ _ => State.bump_clock _ _ _ _, foldl_keeps _ _ _ fun _ _ => State.bump_resting _ _ _ _⟩

theorem pacerCycle_keeps : (pacerCycle s).clock = s.clock ∧ (pacerCycle s).resting = s.resting := by
  unfold pacerCycle
  dsimp only
  split_ifs <;> simp

theorem settleInvals_keeps : (settleInvals s).clock = s.clock ∧ (settleInvals s).resting = s.resting :=
  ⟨(foldl_keeps _ _ _ fun _ _ => State.emit_clock _ _).trans (State.setPci_clock _ _),
    (foldl_keeps _ _ _ fun _ _ => State.emit_resting _ _).trans (State.setPci_resting _ _)⟩

theorem setAL_keeps (v : Nat) : (setAL s v).clock = s.clock ∧ (setAL s v).resting = s.resting := by
  unfold setAL
  dsimp only
  split <;> exact ⟨rfl, rfl⟩

theorem settleAL_keeps : (settleAL s).clock = s.clock ∧ (settleAL s).resting = s.resting := by
  unfold settleAL
  split
  · exact setAL_keeps s _
  · exact ⟨rfl, rfl⟩

theorem showAlert_keeps : (showAlert s).clock = s.clock ∧ (showAlert s).resting = s.resting := by
  unfold showAlert
  dsimp only
  split <;> exact ⟨rfl, rfl⟩

/-! ### Memory by DA (R276-R291, R398) -/

@[simp] theorem wakePc_clock (pc : Nat) : (wakePc s pc).clock = s.clock := by
  unfold wakePc
  split
  · rfl
  · exact (State.bump_clock _ _ _ _).trans (foldl_keeps _ _ _ fun _ _ => by dsimp only; split <;> rfl)
  · rfl

@[simp] theorem hbmUncorrectable_clock (pc da : Nat) (write : Bool) : (hbmUncorrectable s pc da write).clock = s.clock := by
  unfold hbmUncorrectable State.signalMC
  dsimp only
  split_ifs <;> simp

@[simp] theorem hbmCorrected_clock (pc : Nat) : (hbmCorrected s pc).clock = s.clock := by simp [hbmCorrected]

@[simp] theorem hbmAtomRead_clock (atom ecc : Nat) : (hbmAtomRead s atom ecc).1.clock = s.clock := by
  unfold hbmAtomRead
  dsimp only
  split
  · simp
  · split <;> simp

@[simp] theorem hbmReadAtoms_clock (atoms ecc : List Nat) : (hbmReadAtoms s atoms ecc).1.clock = s.clock := by
  induction atoms generalizing s ecc with
  | nil => rfl
  | cons a atoms ih => exact (ih _ _).trans (hbmAtomRead_clock s a _)

@[simp] theorem countBytes_clock (c : Cnt) (da n : Nat) : (countBytes s c da n).clock = s.clock :=
  foldl_keeps _ _ _ fun _ _ => by dsimp only; split <;> simp

@[simp] theorem hbmRead_clock (da n : Nat) (ecc : List Nat) : (hbmRead s da n ecc).1.clock = s.clock := by
  unfold hbmRead
  dsimp only
  split <;> simp

@[simp] theorem hbmDrain_clock (pc : Nat) (panic : Bool) : (hbmDrain s pc panic).clock = s.clock := by
  unfold hbmDrain
  dsimp only
  split_ifs <;> simp

@[simp] theorem hbmAtomWrite_clock (da : Nat) (bs : List Byte) (ecc : Nat) (panic : Bool) :
    (hbmAtomWrite s da bs ecc panic).1.clock = s.clock := by
  unfold hbmAtomWrite
  dsimp only
  rw [apply_ite Prod.fst, apply_ite State.clock]
  simp [apply_ite State.clock]

@[simp] theorem hbmWriteAtoms_clock (panic : Bool) (pieces : List (Nat × List Byte)) (ecc : List Nat) :
    (hbmWriteAtoms s panic pieces ecc).1.clock = s.clock := by
  induction pieces generalizing s ecc with
  | nil => rfl
  | cons p pieces ih => exact (ih _ _).trans (hbmAtomWrite_clock s p.1 p.2 _ panic)

@[simp] theorem hbmWrite_clock (da : Nat) (bs : List Byte) (ecc : List Nat) (panic : Bool) :
    (hbmWrite s da bs ecc panic).1.clock = s.clock := by
  unfold hbmWrite
  dsimp only
  split <;> simp

@[simp] theorem xltEntry_clock (page da : Nat) : (xltEntry s page da).1.clock = s.clock := by
  unfold xltEntry
  split
  · rfl
  · dsimp only
    split
    · simp
    · dsimp only
      split <;> simp

@[simp] theorem cxlTranslate_clock (off : Nat) (write : Bool) : (cxlTranslate s off write).1.clock = s.clock := by
  unfold cxlTranslate
  split
  · rfl
  split
  · split
    · rfl
    · dsimp only
      split
      · simp
      · split_ifs <;> simp
  · rfl

@[simp] theorem cxlResolve_clock (off : Nat) (write : Bool) : (cxlResolve s off write).1.clock = s.clock := by
  unfold cxlResolve
  dsimp only
  split <;> simp

@[simp] theorem cxlError_clock : (cxlError s).clock = s.clock := by simp [cxlError]

@[simp] theorem cxlKeys_clock (n : Nat) (off : Nat) (write : Bool) : (cxlKeys s off write n).1.clock = s.clock := by
  induction n generalizing s off with
  | zero => rfl
  | succ n ih =>
    unfold cxlKeys
    dsimp only
    split
    · simp
    · simp [cxlMiss]
    · simp
    · split <;> simp [ih]

@[simp] theorem cxlRead_clock (off n : Nat) (ecc : List Nat) : (cxlRead s off n ecc).1.clock = s.clock := by
  unfold cxlRead
  dsimp only
  split
  · simp
  · split <;> simp

@[simp] theorem cxlWrite_clock (off : Nat) (bs : List Byte) (ecc : List Nat) : (cxlWrite s off bs ecc).1.clock = s.clock := by
  unfold cxlWrite
  dsimp only
  split
  · simp
  · split <;> simp

@[simp] theorem hostRead_clock (n : Nat) (ext : List Byte) : (hostRead s n ext).1.clock = s.clock := by
  unfold hostRead
  split_ifs <;> simp

@[simp] theorem hostWrite_clock (da : Nat) (bs : List Byte) : (hostWrite s da bs).1.clock = s.clock := by
  unfold hostWrite
  split <;> simp

@[simp] theorem memRead_clock (da n : Nat) (a : Around) : (memRead s da n a).1.clock = s.clock := by
  unfold memRead
  split
  · split <;> simp
  · split <;> rfl
  · split <;> rfl
  · simp
  · simp
  · rfl
  · rfl

@[simp] theorem memNat_clock (da n : Nat) : (memNat s da n).1.clock = s.clock := memRead_clock s da n _

@[simp] theorem memWrite_clock (da : Nat) (bs : List Byte) (a : Around) : (memWrite s da bs a).1.clock = s.clock := by
  unfold memWrite
  split
  · split <;> simp
  · split <;> simp
  · split <;> simp
  · simp
  · simp
  · rfl
  · rfl

end

/-! ### Cores that save and restore, and stream engines that suspend (R136-R142, R168) -/

section
variable (s : State)

@[simp] theorem ctxFail_clock (k cause : Nat) : (ctxFail s k cause).clock = s.clock := rfl
@[simp] theorem dropWaits_clock (q : Nat) : (dropWaits s q).clock = s.clock := rfl
@[simp] theorem quietHead_clock (q : Nat) : (quietHead s q).clock = s.clock := rfl
@[simp] theorem dropGroups_clock (g : Nat) : (dropGroups s g).clock = s.clock := rfl

@[simp] theorem allIdle_clock (k : Nat) : (allIdle s k).clock = s.clock := foldl_keeps _ _ _ fun _ _ => rfl

@[simp] theorem preempt_clock (e : Nat) : (preempt s e).clock = s.clock := by
  unfold preempt
  split
  · split <;> rfl
  · rfl

@[simp] theorem stmShow_clock (g : Nat) : (stmShow s g).clock = s.clock := by
  unfold stmShow
  dsimp only
  split_ifs <;> rfl

@[simp] theorem resumeSet_clock (g : Nat) : (resumeSet s g).clock = s.clock := by
  unfold resumeSet
  dsimp only
  split
  · rfl
  · simp

@[simp] theorem retranslate_clock (g : Nat) : (retranslate s g).clock = s.clock := by
  unfold retranslate
  dsimp only
  split <;> simp

@[simp] theorem setSuspended_clock (k : Nat) (v : Bool) : (setSuspended s k v).clock = s.clock :=
  foldl_keeps _ _ _ fun _ _ => by dsimp only; split <;> simp

@[simp] theorem ctxRestore_clock (k : Nat) : (ctxRestore s k).clock = s.clock := by
  unfold ctxRestore
  dsimp only
  split_ifs
  · rfl
  · rfl
  · rfl
  · rfl
  · split
    · simp
    · split <;> simp

@[simp] theorem ctxSave_clock (k : Nat) : (ctxSave s k).clock = s.clock := by
  unfold ctxSave
  extract_lets da h z quiet shown stopped
  have hz : z.1.clock = s.clock := by
    unfold z
    split <;> simp [h]
  clear_value z
  split
  · rfl
  split
  · rfl
  split
  · rfl
  split
  · exact hz
  · have hquiet : quiet.clock = z.1.clock := foldl_keeps _ _ _ fun _ _ => quietHead_clock _ _
    have hstopped : stopped.clock = shown.clock := foldl_keeps _ _ _ fun _ _ => preempt_clock _ _
    simp [hstopped, shown, hquiet, hz]

/-! ### Slicing (R233-R235) -/

theorem eachCore_clock (x : Sess) {f : State → Nat → Nat → State} (h : ∀ t k da, (f t k da).clock = t.clock) :
    (eachCore x f s).clock = s.clock :=
  foldl_keeps _ _ _ fun _ _ => foldl_keeps _ _ _ fun _ _ => h _ _ _

theorem eachCluster_clock (x : Sess) {f : State → Nat → Nat → State} (h : ∀ t c da, (f t c da).clock = t.clock) :
    (eachCluster x f s).clock = s.clock :=
  foldl_keeps _ _ _ fun _ _ => h _ _ _

@[simp] theorem saveCores_clock (x : Sess) : (saveCores s x).clock = s.clock := eachCore_clock _ _ fun _ _ _ => by simp
@[simp] theorem restoreCores_clock (x : Sess) : (restoreCores s x).clock = s.clock := eachCore_clock _ _ fun _ _ _ => by simp
@[simp] theorem showResident_clock (m n : Nat) (valid sched switching : Bool) : (showResident s m n valid sched switching).clock = s.clock :=
  foldl_keeps _ _ _ fun _ _ => rfl
@[simp] theorem setSched_clock (m : Nat) (v : Bool) : (setSched s m v).clock = s.clock := foldl_keeps _ _ _ fun _ _ => rfl
@[simp] theorem giveSlots_clock (x : Sess) : (giveSlots s x).clock = s.clock := foldl_keeps _ _ _ fun _ _ => rfl
@[simp] theorem wakeClusters_clock (m : Nat) : (wakeClusters s m).clock = s.clock :=
  foldl_keeps _ _ _ fun _ _ => by split <;> simp [State.clearBit]
@[simp] theorem clearHurdles_clock (c : Nat) : (clearHurdles s c).clock = s.clock := rfl
@[simp] theorem clearFinishLines_clock (c : Nat) : (clearFinishLines s c).clock = s.clock := rfl
@[simp] theorem disarm_clock (c : Nat) : (disarm s c).clock = s.clock := foldl_keeps _ _ _ fun _ _ => rfl
@[simp] theorem saveSlots_clock (c da : Nat) : (saveSlots s c da).clock = s.clock := by simp [saveSlots]
@[simp] theorem addSwitch_clock (w : Switch) : (addSwitch s w).clock = s.clock := rfl

@[simp] theorem beginRestore_clock (n : Nat) (x : Sess) : (beginRestore s n x).clock = s.clock := by
  unfold beginRestore
  extract_lets shown woken
  have hwoken : woken.clock = s.clock := by
    unfold woken
    split <;> simp [shown]
  split
  · exact (restoreCores_clock _ _).trans hwoken
  · exact (eachCluster_clock _ _ fun _ _ _ => by simp).trans hwoken

@[simp] theorem beginSwitch_clock (m : Nat) (out inc : Option Nat) : (beginSwitch s m out inc).clock = s.clock := by
  unfold beginSwitch
  split
  · extract_lets worked shown saved
    have hsaved : saved.clock = s.clock := by
      unfold saved
      split
      · simp [shown, worked]
      · exact (eachCluster_clock _ _ saveSlots_clock).trans (by simp [shown, worked])
    simp [hsaved]
  · split <;> simp

@[simp] theorem slice_clock (m : Nat) : (slice s m).clock = s.clock := by
  unfold slice
  split
  · rfl
  split
  · rfl
  split
  · exact beginSwitch_clock _ _ _ _
  · split <;> simp

@[simp] theorem startResume_clock (n : Nat) : (startResume s n).clock = s.clock := by
  unfold startResume
  split
  · rfl
  · split <;> simp

theorem sliceAll_clock : (sliceAll s).clock = s.clock :=
  (foldl_keeps _ _ _ slice_clock).trans (foldl_keeps _ _ _ startResume_clock)

/-! ### The copy of the output image (R177, R415) -/

theorem recordMargin_cases (h old slot : Nat) :
    recordMargin h old s slot = s ∨ ∃ v, recordMargin h old s slot = s.wr F.TRK_FL_STAT_MARGIN slot v := by
  unfold recordMargin
  split
  · exact .inr ⟨_, rfl⟩
  · exact .inl rfl

@[simp] theorem recordMargin_clock (h old slot : Nat) : (recordMargin h old s slot).clock = s.clock := by
  obtain heq | ⟨v, heq⟩ := recordMargin_cases s h old slot <;> rw [heq]
  exact State.wr_clock _ _ _ _

@[simp] theorem wakeWaiter_clock (w : HurWaiter) : (wakeWaiter s w).clock = s.clock := by
  unfold wakeWaiter
  dsimp only
  split <;> simp

@[simp] theorem wakeWaiters_clock (h : Nat) : (wakeWaiters s h).clock = s.clock := (foldl_keeps _ _ _ wakeWaiter_clock).trans rfl

@[simp] theorem genChanged_clock (h old : Nat) : (genChanged s h old).clock = s.clock := by
  unfold genChanged
  split
  · rfl
  · exact (wakeWaiters_clock _ _).trans (foldl_keeps _ _ _ fun _ _ => recordMargin_clock _ _ _ _)

@[simp] theorem arrive_clock (h n : Nat) : (arrive s h n).clock = s.clock := by simp [arrive, settle]

@[simp] theorem arriveFrom_clock (h n : Nat) : (arriveFrom s h n).clock = s.clock := by
  unfold arriveFrom
  split_ifs <;> simp

@[simp] theorem copyOutput_clock (bs : List Byte) : (copyOutput s bs).clock = s.clock := by
  unfold copyOutput
  extract_lets sorted dict copied base runs words _ stored
  have hstored : stored.clock = copied.clock := foldl_keeps _ _ _ fun _ _ => State.storePlain_clock _ _ _
  split
  · rfl
  split
  · rfl
  split
  · rfl
  · exact (arriveFrom_clock _ _ _).trans hstored

theorem resumeCopy_clock : (resumeCopy s).clock = s.clock := by
  unfold resumeCopy
  split
  · rfl
  · dsimp only
    split <;> simp

end

end Sys2Proof.Machine
end

section
/-!
PROOFS. The idle step: an ACLK cycle moves the tracks, counts the trace timestamp (R21, R222) and keeps the queue of commands empty.
-/
namespace Sys2Proof.Machine

/-! ### The tracks and the distributed clock (R201, R204) -/

/-- The register fields that a cycle of the tracks and of the distributed clock may change. -/
def cycleFields : List Fld := [F.FLD_DC_TIME_NS, F.TRK_STATUS_STATE, F.TRK_INC_INC, F.TRK_LAP_LAP, F.TRK_STATUS_LAP_WRAP]

/-- From `s` to `t`, tracks or the system time of the distributed clock have moved, and the trace timestamp has not. -/
structure TracksMoved (s t : State) : Prop where
  fields : ∀ (f : Fld) (i : Nat), i < 131072 → (∀ g ∈ cycleFields, g.key ≠ f.key) → t.rd f i = s.rd f i
  resting : t.resting = s.resting
  ts : t.trk.ts = s.trk.ts
  frac : t.trk.frac = s.trk.frac

namespace TracksMoved

variable {s t v : State}

theorem refl (s : State) : TracksMoved s s := ⟨fun _ _ _ _ => rfl, rfl, rfl, rfl⟩

theorem trans (h : TracksMoved s t) (h' : TracksMoved t v) : TracksMoved s v :=
  ⟨fun f i hi hf => (h'.fields f i hi hf).trans (h.fields f i hi hf), h'.resting.trans h.resting, h'.ts.trans h.ts, h'.frac.trans h.frac⟩

theorem wr (h : TracksMoved s t) {g : Fld} {u : Nat} (n : Nat) (hu : u < 8) (hg : g ∈ cycleFields) : TracksMoved s (t.wr g u n) :=
  h.trans ⟨fun _ _ hi hf => State.rd_wr_key _ _ (hf g hg).symm hi (by omega), rfl, rfl, rfl⟩

theorem setTrack (h : TracksMoved s t) (u : Nat) (k : Track) : TracksMoved s (t.setTrack u k) := ⟨h.fields, h.resting, h.ts, h.frac⟩

theorem ite {c : Prop} [Decidable c] (ht : TracksMoved s t) (hv : TracksMoved s v) : TracksMoved s (if c then t else v) := by
  split
  · exact ht
  · exact hv

/-- How long a cycle takes is not a matter of the tracks (R21). -/
theorem cycleTime (h : TracksMoved s t) : cycleTime t = cycleTime s := by
  rw [Machine.cycleTime, h.fields F.SES_CLOCK_MODE 0 (by decide) (by decide), h.fields F.SES_CLOCK_STEP 0 (by decide) (by decide),
    Machine.cycleTime]

end TracksMoved

section
variable (s : State) {u : Nat} (hu : u < 8)
include hu

theorem enterAcquiring_moves : TracksMoved s (enterAcquiring s u) :=
  .setTrack (.wr (.wr (.refl s) _ hu (by decide)) _ hu (by decide)) _ _

theorem leaveStall_moves : TracksMoved s (leaveStall s u) := .ite (enterAcquiring_moves s hu) (.refl s)

theorem setLap_moves (lap : Nat) : TracksMoved s (setLap s u lap) :=
  have hlap : TracksMoved s (s.wr F.TRK_LAP_LAP u lap) := .wr (.refl s) _ hu (by decide)
  .ite (.wr hlap _ hu (by decide)) hlap

theorem moveAhead_moves (p : Nat) : TracksMoved s (moveAhead s u p) := .ite (.setTrack (setLap_moves s hu _) _ _) (.refl s)

theorem dcFollow_moves : TracksMoved s (dcFollow s u) := by
  unfold dcFollow
  split
  · exact .refl s
  split
  · exact .trans (.setTrack (.wr (leaveStall_moves s hu) _ hu (by decide)) _ _) (moveAhead_moves _ hu _)
  · exact .ite (.wr (.refl s) _ hu (by decide)) (.refl s)

theorem trackCycle_moves : TracksMoved s (trackCycle s u) := by
  unfold trackCycle
  split
  · exact .refl s
  extract_lets k counted mode _ _ advanced
  have hcounted : TracksMoved s counted := .setTrack (.refl s) _ _
  split
  · exact hcounted.trans (dcFollow_moves counted hu)
  split
  · exact hcounted
  · have hadvanced : TracksMoved s advanced := .setTrack hcounted _ _
    split
    · exact hadvanced.trans (moveAhead_moves advanced hu _)
    · exact .setTrack hadvanced _ _

end

theorem dcCycle_moves (s : State) : TracksMoved s (dcCycle s) :=
  have hpart : TracksMoved s { s with trk := { s.trk with nsFrac := (s.trk.nsFrac + cycleTime s) % 21 } } :=
    ⟨fun _ _ _ _ => rfl, rfl, rfl, rfl⟩
  hpart.wr _ (by decide) (by decide)

/-- The state when a cycle counts in the trace timestamp: the distributed clock and every track have had theirs. -/
def tracksCycled (s : State) : State := (List.range 8).foldl trackCycle (dcCycle s)

theorem tracksCycled_moves (s : State) : TracksMoved s (tracksCycled s) :=
  List.foldlRecOn _ _ (motive := TracksMoved s) (dcCycle_moves s) fun t ht _ hu => ht.trans (trackCycle_moves t (List.mem_range.1 hu))

/-! ### The trace timestamp (R222) -/

theorem timestampTick_counts {s : State} (h : s.trk.ts < 2 ^ 48) :
    let t := timestampTick s
    t.trk.ts = (s.trk.ts + 1) % 2 ^ 48 ∧ t.trk.frac = s.trk.frac := by
  unfold timestampTick
  split
  case isTrue hwrap =>
    obtain ⟨htrk, -⟩ := timestampWrap_wraps s
    exact ⟨by rw [htrk, hwrap]; rfl, by rw [htrk]⟩
  case isFalse hmore =>
    have hlt : s.trk.ts + 1 < 2 ^ 48 := by omega
    exact ⟨(Nat.mod_eq_of_lt hlt).symm, rfl⟩

theorem timestampTicks_count (n : Nat) {s : State} (h : s.trk.ts < 2 ^ 48) :
    let t := (List.range n).foldl (fun s _ => timestampTick s) s
    t.trk.ts = (s.trk.ts + n) % 2 ^ 48 ∧ t.trk.frac = s.trk.frac := by
  induction n with
  | zero => exact ⟨(Nat.mod_eq_of_lt h).symm, rfl⟩
  | succ n ih =>
    obtain ⟨hts, hfrac⟩ := ih
    rw [List.range_succ, List.foldl_append, List.foldl_cons, List.foldl_nil]
    obtain ⟨hts', hfrac'⟩ := timestampTick_counts (hts ▸ Nat.mod_lt _ (by decide))
    exact ⟨by rw [hts', hts]; omega, hfrac'.trans hfrac⟩

/-- A cycle adds its time, in twelfths, to the part of a count that had passed. -/
theorem timestampCycle_counts {s : State} (h : s.trk.ts < 2 ^ 48) :
    let t := timestampCycle s
    t.trk.ts = (s.trk.ts + (s.trk.frac + cycleTime s) / 12) % 2 ^ 48 ∧ t.trk.frac < 12 := by
  obtain ⟨hts, hfrac⟩ := timestampTicks_count ((s.trk.frac + cycleTime s) / 12)
    (s := { s with trk := { s.trk with frac := (s.trk.frac + cycleTime s) % 12 } }) h
  exact ⟨hts, hfrac ▸ Nat.mod_lt _ (by decide)⟩

theorem timestampTick_resting (s : State) : (timestampTick s).resting = s.resting := by
  unfold timestampTick
  split <;> rfl

theorem timestampCycle_resting (s : State) : (timestampCycle s).resting = s.resting := 
  (foldl_keeps _ _ _ fun _ _ => timestampTick_resting _).trans rfl

/-! ### The cycle (R21, R222, R485) -/

/-- The state once a cycle has been counted in the trace timestamp. -/
def timeCycled (s : State) : State := timestampCycle (tracksCycled s)

theorem timeCycled_resting (s : State) : (timeCycled s).resting = s.resting :=
  (timestampCycle_resting _).trans (tracksCycled_moves s).resting

theorem timeCycled_counts {s : State} (h : s.trk.ts < 2 ^ 48) :
    (timeCycled s).trk.ts = (s.trk.ts + (s.trk.frac + cycleTime s) / 12) % 2 ^ 48 ∧ (timeCycled s).trk.frac < 12 := by
  have hmoved := tracksCycled_moves s
  have hcounts := timestampCycle_counts (s := tracksCycled s) (by rw [hmoved.ts]; exact h)
  rwa [hmoved.ts, hmoved.frac, hmoved.cycleTime] at hcounts

/-- The rest of the cycle that only counts (R118, R158, R283, R309, R352, R446). -/
def countersCycled (s : State) : State :=
  pacerCycle (holdCycle (hbmCycle (panicCycle (stallCycle (sliceCycle (timeCycled s) ((timeCycled s).trk.ts / 2 - s.trk.ts / 2))))))

theorem idleCycle_eq {s : State} (hup : hubDown s = false) :
    idleCycle s = showAlert (resumeCopy (settleAL (settleInvals (sliceAll (countersCycled s))))) := by
  simp only [idleCycle, hup, Bool.false_eq_true, if_false, countersCycled, timeCycled, tracksCycled]

theorem countersCycled_keeps (s : State) : (countersCycled s).clock = (timeCycled s).clock ∧ (countersCycled s).resting = s.resting := by
  unfold countersCycled
  constructor
  · rw [(pacerCycle_keeps _).1, (holdCycle_keeps _).1, (hbmCycle_keeps _).1, (panicCycle_keeps _).1, (stallCycle_keeps _).1,
      (sliceCycle_keeps _ _).1]
  · rw [(pacerCycle_keeps _).2, (holdCycle_keeps _).2, (hbmCycle_keeps _).2, (panicCycle_keeps _).2, (stallCycle_keeps _).2,
      (sliceCycle_keeps _ _).2, timeCycled_resting]

theorem idleCycle_clock {s : State} (hup : hubDown s = false) : (idleCycle s).clock = (timeCycled s).clock := by
  rw [idleCycle_eq hup, (showAlert_keeps _).1, resumeCopy_clock, (settleAL_keeps _).1, (settleInvals_keeps _).1, sliceAll_clock,
    (countersCycled_keeps s).1]

theorem sliceAll_of_none {s : State} (h : s.admitted = []) : sliceAll s = s := by
  unfold sliceAll
  rw [h]
  rfl

theorem resumeCopy_of_none {s : State} (h : s.dict.copying = none) : resumeCopy s = s := by
  unfold resumeCopy
  rw [h]

theorem resting_eq_iff {s t : State} : t.resting = s.resting ↔
    t.sram = s.sram ∧ t.full = s.full ∧ t.mem.hbm = s.mem.hbm ∧ t.mem.cxl = s.mem.cxl ∧ t.ses = s.ses ∧ t.dict.copying = s.dict.copying ∧
      t.pending = s.pending := by
  simp only [State.resting, Prod.mk.injEq]

/-- Without a session and without a copy in progress a cycle only counts. -/
theorem idleCycle_resting {s : State} (hup : hubDown s = false) (hcopy : s.dict.copying = none) (hnone : s.admitted = []) :
    (idleCycle s).resting = s.resting := by
  have hcounted := (countersCycled_keeps s).2
  obtain ⟨-, -, -, -, hses, hcopying, -⟩ := resting_eq_iff.1 hcounted
  have hslice : sliceAll (countersCycled s) = countersCycled s := sliceAll_of_none (by rw [State.admitted, hses, ← State.admitted, hnone])
  have hsettled : (settleAL (settleInvals (countersCycled s))).resting = s.resting := by
    rw [(settleAL_keeps _).2, (settleInvals_keeps _).2, hcounted]
  obtain ⟨-, -, -, -, -, hsettling, -⟩ := resting_eq_iff.1 hsettled
  rw [idleCycle_eq hup, hslice, resumeCopy_of_none (hsettling.trans hcopy), (showAlert_keeps _).2, hsettled]

/-- While the hub is in reset nothing is shown on ALERT_N (R485). -/
theorem showAlert_of_down {s : State} (hdown : hubDown s = true) :
    showAlert s = { s with pins := { s.pins with alert := false }, outbox := (showAlert s).outbox } := by
  unfold showAlert
  rw [hdown]
  dsimp only [Bool.not_true, Bool.false_and]
  split
  case isTrue hsame =>
    have hhigh : s.pins.alert = false := hsame.symm
    rw [← hhigh]
  case isFalse => rfl

theorem idleCycle_of_down {s : State} (hdown : hubDown s = true) : idleCycle s = showAlert s := if_pos hdown

/-- Settles O2: an idle step is a cycle, which keeps the queue by its `clock` and, when nothing is sliced or copied, memory by its `resting`. -/
theorem idleStepPassesOneCycle : Obligations.IdleStepPassesOneCycle := by
  unfold Obligations.IdleStepPassesOneCycle
  intro s hempty
  have hstep : step s = .next (idleCycle s) := by rw [step, hempty]
  refine ⟨_, hstep, ?_⟩
  cases hdown : hubDown s with
  | true =>
    have hresting : (idleCycle s).resting = s.resting := by rw [idleCycle_of_down hdown, (showAlert_keeps s).2]
    obtain ⟨hsram, hfull, hhbm, hcxl, -, -, hpending⟩ := resting_eq_iff.1 hresting
    refine ⟨hpending.trans hempty, fun _ _ => ⟨hsram, hfull, hhbm, hcxl⟩, fun _ => ?_, fun h => nomatch h⟩
    rw [idleCycle_of_down hdown]
    exact showAlert_of_down hdown
  | false =>
    have hclock := Prod.mk.inj (idleCycle_clock hdown)
    obtain ⟨-, -, -, -, -, -, hpending⟩ := resting_eq_iff.1 (timeCycled_resting s)
    refine ⟨(hclock.2.trans hpending).trans hempty, fun hcopy hnone => ?_, fun h => (nomatch h), fun _ hts _ => ?_⟩
    · obtain ⟨hsram, hfull, hhbm, hcxl, -⟩ := resting_eq_iff.1 (idleCycle_resting hdown hcopy hnone)
      exact ⟨hsram, hfull, hhbm, hcxl⟩
    · rw [hclock.1]
      exact timeCycled_counts hts

end Sys2Proof.Machine
end

section
/-!
PROOFS. Sessions and memory (R224, R276-R291, R398): what lies beside the sessions. An access of memory by DA changes no session, no ring
and no submission, and none of the register fields by which sessions are admitted and shown.
-/
namespace Sys2Proof.Machine

/-! ### What lies beside the sessions -/

/-- The register fields of the session machinery, by key. -/
def sessionField (k : Nat) : Bool := decide (F.SES_CTRL_EN.key ≤ k ∧ k ≤ F.SES_RESIDENT_SWITCHING.key)

/-- Those fields, SCHED of the stream engines, and the fields of the cool-down lap that admission looks at (R226, R470). -/
def admissionField (k : Nat) : Bool :=
  sessionField k || decide (k ∈ [F.STM_STATUS_SCHED.key, F.TST_CDL_STEP.key, F.TST_CDL_PARKED.key])

/-- From `s` to `t` the fields whose keys are in `p` are as they were, and so is what `v` sees of the sessions and of the tile. -/
structure Beside {β : Type} (p : Nat → Bool) (v : Sessions → Tile → β) (s t : State) : Prop where
  fields : ∀ (f : Fld) (i : Nat), i < 131072 → p f.key = true → t.rd f i = s.rd f i
  view : v t.ses t.tile = v s.ses s.tile

namespace Beside

variable {β γ : Type} {p q : Nat → Bool} {v : Sessions → Tile → β} {v' : Sessions → Tile → γ} {s t u : State}

theorem refl (s : State) : Beside p v s s := ⟨fun _ _ _ _ => rfl, rfl⟩

theorem trans (h : Beside p v s t) (h' : Beside p v t u) : Beside p v s u :=
  ⟨fun f i hi hf => (h'.fields f i hi hf).trans (h.fields f i hi hf), h'.view.trans h.view⟩

/-- Whoever sees less sees no change either. -/
theorem mono (h : Beside p v s t) (hq : ∀ k, q k = true → p k = true)
    (hv : ∀ x y x' y', v x y = v x' y' → v' x y = v' x' y') : Beside q v' s t :=
  ⟨fun f i hi hf => h.fields f i hi (hq _ hf), hv _ _ _ _ h.view⟩

/-- A change of no register, and of nothing that `v` sees. -/
theorem update (h : Beside p v s t) (hregs : u.regs = t.regs) (hview : v u.ses u.tile = v t.ses t.tile) : Beside p v s u :=
  h.trans ⟨fun f i _ _ => State.rd_of_regs hregs f i, hview⟩

theorem setMem (h : Beside p v s t) (m : Mem) : Beside p v s (t.setMem m) := h.update rfl rfl

theorem emit (h : Beside p v s t) (o : Out) : Beside p v s (t.emit o) := h.update rfl rfl

theorem owe (h : Beside p v s t) (event byte : Nat) : Beside p v s (t.owe event byte) := h.update rfl rfl

theorem wr (h : Beside p v s t) {g : Fld} {i : Nat} (n : Nat) (hi : i < 131072) (hg : p g.key = false) : Beside p v s (t.wr g i n) :=
  h.trans ⟨fun f _ hj hf => State.rd_wr_key _ _ (fun e => by simp [e, hg] at hf) hj hi, rfl⟩

theorem bump (h : Beside p v s t) {c : Cnt} {i : Nat} (n : Nat) (hi : i < 131072) (hc : p c.fld.key = false) (hw : p c.wrapFld.key = false) :
    Beside p v s (t.bump c i n) := by
  unfold State.bump
  dsimp only
  split
  · exact (h.wr _ hi hc).wr _ hi hw
  · exact h.wr _ hi hc

theorem ite {c : Prop} [Decidable c] (ht : Beside p v s t) (hu : Beside p v s u) : Beside p v s (if c then t else u) := by
  split
  · exact ht
  · exact hu

theorem foldl {α : Type} {f : State → α → State} {l : List α} (h : Beside p v s t) (hf : ∀ u, ∀ a ∈ l, Beside p v u (f u a)) :
    Beside p v s (l.foldl f t) :=
  List.foldlRecOn l f (motive := Beside p v s) h fun u hu a ha => hu.trans (hf u a ha)

theorem on (h : Beside p v s t) {f : Fld} {i : Nat} (hi : i < 131072) (hf : p f.key = true) : t.on f i = s.on f i := by
  rw [State.on, h.fields f i hi hf, State.on]

end Beside

/-- Nothing that sessions look at has changed, and no core's own state. -/
abbrev Aside : State → State → Prop := Beside admissionField Prod.mk

section
variable {s t : State} (h : Aside s t)
include h

theorem Aside.ses : t.ses = s.ses := (Prod.mk.inj h.view).1

theorem Aside.tile : t.tile = s.tile := (Prod.mk.inj h.view).2

theorem Aside.sess (n : Nat) : t.sess n = s.sess n := by rw [State.sess, h.ses, State.sess]

end

/-! ### HBM (R274-R283) -/

theorem hbmLoc_lt (s : State) (da : Nat) : (hbmLoc s da).1 < 256 := by
  have hoff : da % 2 ^ 36 < 2 ^ 36 := Nat.mod_lt _ (by decide)
  unfold hbmLoc
  dsimp only
  split <;> dsimp only <;> omega

section
variable {s : State} {pc : Nat}

theorem quarterOfPc_lt (hpc : pc < 256) : quarterOfPc pc < 131072 := by unfold quarterOfPc; omega

theorem wakePc_aside (hpc : pc < 256) : Aside s (wakePc s pc) := by
  have hwoken (t : State) (i : Nat) (hi : i ∈ List.range 32) :
      Aside t (if t.rd F.HBM_PC_STATE_STATE (pc / 32 * 32 + i) = 2 then t.wr F.HBM_PC_STATE_STATE (pc / 32 * 32 + i) 0 else t) :=
    have hi := List.mem_range.1 hi
    .ite ((Beside.refl t).wr _ (by omega) (by decide)) (.refl t)
  unfold wakePc
  split
  · exact (Beside.refl s).wr _ (by omega) (by decide)
  · exact ((Beside.refl s).foldl hwoken).bump _ (quarterOfPc_lt hpc) (by decide) (by decide)
  · exact .refl s

theorem hbmUncorrectable_aside (hpc : pc < 256) (da : Nat) (write : Bool) : Aside s (hbmUncorrectable s pc da write) := by
  have hq := quarterOfPc_lt hpc
  have hcounted : Aside s ((s.bump C.HBM_UE_CNT (quarterOfPc pc) 1).wr F.HBM_STATUS_UE (quarterOfPc pc) 1) :=
    ((Beside.refl s).bump _ hq (by decide) (by decide)).wr _ hq (by decide)
  have hlog (t : State) (w : Nat) : Aside t ((((t.wr F.HBM_ERR_LOG_DA (quarterOfPc pc) da).wr F.HBM_ERR_LOG_PC (quarterOfPc pc) pc).wr
      F.HBM_ERR_LOG_WRITE (quarterOfPc pc) w).wr F.HBM_ERR_LOG_VALID (quarterOfPc pc) 1) :=
    ((((Beside.refl t).wr _ hq (by decide)).wr _ hq (by decide)).wr _ hq (by decide)).wr _ hq (by decide)
  unfold hbmUncorrectable
  dsimp only
  generalize (s.bump C.HBM_UE_CNT (quarterOfPc pc) 1).wr F.HBM_STATUS_UE (quarterOfPc pc) 1 = counted at hcounted ⊢
  exact .ite (.owe (.emit (.ite hcounted (hcounted.trans (hlog _ _))) _) _ _) (.ite hcounted (hcounted.trans (hlog _ _)))

theorem hbmCorrected_aside (hpc : pc < 256) : Aside s (hbmCorrected s pc) :=
  ((Beside.refl s).bump _ (quarterOfPc_lt hpc) (by decide) (by decide)).wr _ (quarterOfPc_lt hpc) (by decide)

end

theorem hbmAtomRead_aside (s : State) (atom ecc : Nat) : Aside s (hbmAtomRead s atom ecc).1 := by
  have hpc := hbmLoc_lt s (atom * 32)
  have hwoken : Aside s (wakePc s (hbmLoc s (atom * 32)).1) := wakePc_aside hpc
  unfold hbmAtomRead
  dsimp only
  split
  · exact hwoken.bump _ (quarterOfPc_lt hpc) (by decide) (by decide)
  · split
    · exact hwoken
    · exact (hwoken.trans (hbmCorrected_aside hpc)).setMem _
    · exact (hwoken.trans (hbmUncorrectable_aside hpc _ _)).setMem _

theorem hbmReadAtoms_aside (atoms ecc : List Nat) (s : State) : Aside s (hbmReadAtoms s atoms ecc).1 := by
  induction atoms generalizing s ecc with
  | nil => exact .refl s
  | cons a atoms ih => exact (hbmAtomRead_aside s a _).trans (ih _ _)

theorem countBytes_aside (s : State) {c : Cnt} (hc : admissionField c.fld.key = false) (hw : admissionField c.wrapFld.key = false) (da n : Nat) :
    Aside s (countBytes s c da n) :=
  (Beside.refl s).foldl fun t q hq => by
    have hq := List.mem_range.1 hq
    exact .ite (.refl t) ((Beside.refl t).bump _ (by omega) hc hw)

theorem hbmRead_aside (s : State) (da n : Nat) (ecc : List Nat) : Aside s (hbmRead s da n ecc).1 := by
  unfold hbmRead
  dsimp only
  split
  · exact .refl s
  · exact (hbmReadAtoms_aside _ _ s).trans (countBytes_aside _ (by decide) (by decide) _ _)

theorem hbmDrain_aside (s : State) (pc : Nat) (panic : Bool) : Aside s (hbmDrain s pc panic) :=
  .ite (.ite ((Beside.refl s).setMem _) (.refl s)) (.ite ((Beside.refl s).setMem _) (.refl s))

theorem hbmAtomWrite_aside (s : State) (da : Nat) (bs : List Byte) (ecc : Nat) (panic : Bool) : Aside s (hbmAtomWrite s da bs ecc panic).1 := by
  have hpc := hbmLoc_lt s da
  have hwoken : Aside s (wakePc s (hbmLoc s da).1) := wakePc_aside hpc
  unfold hbmAtomWrite
  dsimp only
  rw [apply_ite Prod.fst]
  refine .ite ?_ ?_
  · exact .setMem (hwoken.trans (hbmUncorrectable_aside hpc _ _)) _
  · exact .trans (.setMem (.setMem (.setMem (.ite (hwoken.trans (hbmCorrected_aside hpc)) hwoken) _) _) _) (hbmDrain_aside _ _ _)

theorem hbmWriteAtoms_aside (panic : Bool) (pieces : List (Nat × List Byte)) (ecc : List Nat) (s : State) :
    Aside s (hbmWriteAtoms s panic pieces ecc).1 := by
  induction pieces generalizing s ecc with
  | nil => exact .refl s
  | cons p pieces ih => exact (hbmAtomWrite_aside s p.1 p.2 _ panic).trans (ih _ _)

theorem hbmWrite_aside (s : State) (da : Nat) (bs : List Byte) (ecc : List Nat) (panic : Bool) : Aside s (hbmWrite s da bs ecc panic).1 := by
  unfold hbmWrite
  dsimp only
  split
  · exact .refl s
  · exact (hbmWriteAtoms_aside _ _ _ s).trans (countBytes_aside _ (by decide) (by decide) _ _)

/-! ### The CXL tier and the host (R287-R291, R398) -/

/-- A counter of the tier or of the PCIe port. -/
theorem hubCounter_aside {s t : State} (h : Aside s t) {c : Cnt} (n : Nat) (hc : admissionField c.fld.key = false)
    (hw : admissionField c.wrapFld.key = false) : Aside s (t.bump c 0 n) := h.bump n (by decide) hc hw

theorem xltEntry_aside (s : State) (page da : Nat) : Aside s (xltEntry s page da).1 := by
  have hread := hbmRead_aside s da 8 []
  unfold xltEntry
  split
  · exact .refl s
  · dsimp only
    split
    · exact hread
    · exact .ite (hread.setMem _) hread

theorem cxlTranslate_aside (s : State) (off : Nat) (write : Bool) : Aside s (cxlTranslate s off write).1 := by
  unfold cxlTranslate
  split
  · exact .refl s
  split
  · split
    · exact .refl s
    · dsimp only
      have hentry := xltEntry_aside s
      split
      · exact hentry _ _
      · split_ifs <;> exact hentry _ _
  · exact .refl s

theorem cxlResolve_aside (s : State) (off : Nat) (write : Bool) : Aside s (cxlResolve s off write).1 := by
  have htranslated := cxlTranslate_aside s off write
  unfold cxlResolve
  dsimp only
  split <;> exact htranslated

theorem cxlError_aside (s : State) : Aside s (cxlError s) :=
  (hubCounter_aside (.refl s) (c := C.CXL_ERR_RSP_CNT) _ (by decide) (by decide)).owe _ _

theorem cxlKeys_aside (n : Nat) (s : State) (off : Nat) (write : Bool) : Aside s (cxlKeys s off write n).1 := by
  induction n generalizing s off with
  | zero => exact .refl s
  | succ n ih =>
    have hresolved := cxlResolve_aside s off write
    unfold cxlKeys
    dsimp only
    split
    · exact hresolved
    · exact hubCounter_aside hresolved _ (by decide) (by decide)
    · exact hresolved.trans (cxlError_aside _)
    · split <;> exact hresolved.trans (ih _ _)

theorem cxlRead_aside (s : State) (off n : Nat) (ecc : List Nat) : Aside s (cxlRead s off n ecc).1 := by
  have hkeys := cxlKeys_aside n s off false
  unfold cxlRead
  dsimp only
  split
  · exact hkeys
  · split
    · exact hkeys.trans (cxlError_aside _)
    · exact hubCounter_aside hkeys _ (by decide) (by decide)

theorem cxlWrite_aside (s : State) (off : Nat) (bs : List Byte) (ecc : List Nat) : Aside s (cxlWrite s off bs ecc).1 := by
  have hkeys := cxlKeys_aside bs.length s off true
  unfold cxlWrite
  dsimp only
  split
  · exact hkeys
  · split
    · exact hkeys.trans (cxlError_aside _)
    · exact hubCounter_aside (hkeys.setMem _) _ (by decide) (by decide)

theorem hostRead_aside (s : State) (n : Nat) (ext : List Byte) : Aside s (hostRead s n ext).1 := by
  unfold hostRead
  split_ifs
  · exact hubCounter_aside (.refl s) _ (by decide) (by decide)
  · exact hubCounter_aside (.refl s) _ (by decide) (by decide)
  · exact .refl s

theorem hostWrite_aside (s : State) (da : Nat) (bs : List Byte) : Aside s (hostWrite s da bs).1 := by
  unfold hostWrite
  split
  · exact hubCounter_aside (.refl s) _ (by decide) (by decide)
  · exact (hubCounter_aside (.refl s) (c := C.PCI_TX_BYTES_CNT) _ (by decide) (by decide)).emit _

/-! ### Memory by DA -/

theorem storePlain_aside (s : State) (da : Nat) (bs : List Byte) : Aside s (s.storePlain da bs) where
  fields f i hi hf := (s.storePlain_frame da bs).fields f i hi fun e => by rw [e] at hf; exact absurd hf (by decide)
  view := by rw [(s.storePlain_frame da bs).rest]

theorem memRead_aside (s : State) (da n : Nat) (a : Around) : Aside s (memRead s da n a).1 := by
  unfold memRead
  split
  · split
    · exact hbmRead_aside _ _ _ _
    · exact .refl s
  · split <;> exact .refl s
  · split <;> exact .refl s
  · exact cxlRead_aside _ _ _ _
  · exact hostRead_aside _ _ _
  · exact .refl s
  · exact .refl s

theorem memNat_aside (s : State) (da n : Nat) : Aside s (memNat s da n).1 := memRead_aside s da n _

theorem memWrite_aside (s : State) (da : Nat) (bs : List Byte) (a : Around) : Aside s (memWrite s da bs a).1 := by
  unfold memWrite
  split
  · split
    · exact hbmWrite_aside _ _ _ _ _
    · exact .refl s
  · split
    · exact .refl s
    · exact storePlain_aside _ _ _
  · split
    · exact .refl s
    · exact storePlain_aside _ _ _
  · exact cxlWrite_aside _ _ _ _
  · exact hostWrite_aside _ _ _
  · exact .refl s
  · exact .refl s

end Sys2Proof.Machine
end

section
/-!
PROOFS. The ring cache (R229-R231) and what admission shows (R224-R227): what a context that enters or leaves the cache changes, and the
fields of the clusters and cores of a session.
-/
namespace Sys2Proof.Machine

/-! ### The ring cache -/

/-- The fields of sessions but those that count pinned contexts and dropped doorbells. -/
def ringlessField (k : Nat) : Bool :=
  admissionField k && decide (k ∉ [F.SES_STATUS_DB_DROP.key, F.SES_RING_PIN_PINNED.key, F.SES_DB_DROP_CNT_COUNT.key, F.SES_WRAP_FLAGS.key])

/-- All of the sessions but the contexts in the cache and their order of use, and the tile. -/
def ringless (x : Sessions) (y : Tile) : Sessions × Tile := ({ x with rings := [], lru := [] }, y)

/-- Nothing of the sessions has changed but the ring cache and what shows it. -/
abbrev RingsMoved : State → State → Prop := Beside ringlessField ringless

theorem ringlessField_admission {k : Nat} (h : ringlessField k = true) : admissionField k = true := by
  rw [ringlessField, Bool.and_eq_true] at h
  exact h.1

theorem Aside.ringsMoved {s t : State} (h : Aside s t) : RingsMoved s t :=
  h.mono (fun _ => ringlessField_admission) fun _ _ _ _ e => by obtain ⟨rfl, rfl⟩ := Prod.mk.inj e; rfl

section
variable {s t : State} (h : RingsMoved s t)
include h

theorem RingsMoved.ses : t.ses = { s.ses with rings := t.ses.rings, lru := t.ses.lru } := by
  obtain ⟨e, -⟩ := Prod.mk.inj h.view
  simpa using congrArg (fun x : Sessions => { x with rings := t.ses.rings, lru := t.ses.lru }) e

theorem RingsMoved.tile : t.tile = s.tile := (Prod.mk.inj h.view).2

theorem RingsMoved.table : t.ses.sess = s.ses.sess := by rw [h.ses]

theorem RingsMoved.loads : t.ses.loads = s.ses.loads := by rw [h.ses]

theorem RingsMoved.sess (n : Nat) : t.sess n = s.sess n := by rw [State.sess, h.table, State.sess]

end

section
variable (s : State)

theorem readRingAt_aside (da : Nat) (pin : Bool) : Aside s (readRingAt s da pin).1 :=
  (memNat_aside s da 8).trans (memNat_aside _ (da + 8) 8)

theorem readRing_aside (x : Sess) (r : Nat) (pin : Bool) : Aside s (readRing s x r pin).1 := readRingAt_aside s _ _

theorem writeRingAt_aside (da : Nat) (c : Ring) : Aside s (writeRingAt s da c) :=
  .ite (memWrite_aside _ _ _ _) (memWrite_aside _ _ _ _)

theorem writeRing_aside (x : Sess) (r : Nat) (c : Ring) : Aside s (writeRing s x r c) := writeRingAt_aside s _ _

theorem putRing_moves (n r : Nat) (c : Ring) : RingsMoved s (putRing s n r c) := (Beside.refl s).update rfl rfl

theorem dropRing_moves (k : Nat) : RingsMoved s (dropRing s k) := (Beside.refl s).update rfl rfl

theorem showPinned_moves : RingsMoved s (showPinned s) := (Beside.refl s).wr _ (by decide) (by decide)

theorem makeRoom_moves : RingsMoved s (makeRoom s) := by
  unfold makeRoom
  split
  · exact .refl s
  split
  · exact .refl s
  · dsimp only
    split
    · exact (writeRing_aside s _ _ _).ringsMoved.trans (dropRing_moves _ _)
    · exact dropRing_moves s _

theorem cacheRing_moves (n r : Nat) (pin : Bool) : RingsMoved s (cacheRing s n r pin) := by
  unfold cacheRing
  split
  · exact .refl s
  · have hread := (makeRoom_moves s).trans (readRing_aside (makeRoom s) ‹_› r pin).ringsMoved
    dsimp only
    split
    · exact (hread.trans (putRing_moves _ _ _ _)).trans (showPinned_moves _)
    · exact hread

theorem dropDoorbell_moves : RingsMoved s (dropDoorbell s) :=
  ((Beside.refl s).bump (c := C.SES_DB_DROP_CNT) _ (by decide) (by decide) (by decide)).wr _ (by decide) (by decide)

theorem storeTail_moves (n r tail : Nat) : RingsMoved s (storeTail s n r tail) := by
  unfold storeTail
  split
  · exact .ite (dropDoorbell_moves s) (putRing_moves s _ _ _)
  · exact dropDoorbell_moves s

@[simp] theorem putRing_ring_same (n r : Nat) (c : Ring) : (putRing s n r c).ring n r = some c := by
  simp [putRing, State.ring, State.setSes]

/-! ### The clusters and cores of a session (R224, R226) -/

theorem mem_maskClusters {m c : Nat} (h : c ∈ maskClusters m) : c < 32 := List.mem_range.1 (List.mem_of_mem_filter h)

theorem mem_maskCores {m k : Nat} (h : k ∈ maskCores m) : k < 512 := by
  obtain ⟨c, hc, hk⟩ := List.mem_flatMap.1 h
  obtain ⟨i, hi, rfl⟩ := List.mem_map.1 hk
  have hc := mem_maskClusters hc
  have hi := List.mem_range.1 hi
  omega

/-- What one turn of a loop brings about and every turn keeps holds at its end. -/
theorem foldl_establishes {α : Type} {P : State → Prop} {f : State → α → State} {l : List α} {a : α} (ha : a ∈ l)
    (hset : ∀ u, P (f u a)) (hkeep : ∀ u, ∀ b ∈ l, P u → P (f u b)) (s : State) : P (l.foldl f s) := by
  induction l generalizing s with
  | nil => exact absurd ha List.not_mem_nil
  | cons b l ih =>
    obtain rfl | hl := List.mem_cons.1 ha
    · exact List.foldlRecOn l f (motive := P) (hset s) fun u hu c hc => hkeep u c (List.mem_cons_of_mem _ hc) hu
    · exact ih hl (fun u c hc => hkeep u c (List.mem_cons_of_mem _ hc)) _

/-- One cluster shown as a session's, or as nobody's. -/
def showOne (n : Nat) (valid sched switching : Bool) (s : State) (c : Nat) : State :=
  (((s.wr F.SES_RESIDENT_SESSION c n).wr F.SES_RESIDENT_VALID c (b2n valid)).wr F.SES_RESIDENT_SCHED c (b2n sched)).wr F.SES_RESIDENT_SWITCHING c
    (b2n switching)

/-- What SES_RESIDENT shows of a cluster. -/
def shownAt (s : State) (c : Nat) : Nat × Nat × Nat × Nat :=
  (s.rd F.SES_RESIDENT_SESSION c, s.rd F.SES_RESIDENT_VALID c, s.rd F.SES_RESIDENT_SCHED c, s.rd F.SES_RESIDENT_SWITCHING c)

theorem b2n_mod (b : Bool) : b2n b % 2 ^ 1 = b2n b := by cases b <;> rfl

theorem showOne_same {n c : Nat} (hn : n < 65536) (hc : c < 32) (valid sched switching : Bool) :
    shownAt (showOne n valid sched switching s c) c = (n, b2n valid, b2n sched, b2n switching) := by
  have hother {f g : Fld} (hk : f.key ≠ g.key) (u : State) (v : Nat) : (u.wr g c v).rd f c = u.rd f c :=
    u.rd_wr_key v hk (by omega) (by omega)
  have hses : n % 2 ^ F.SES_RESIDENT_SESSION.width = n := Nat.mod_eq_of_lt hn
  unfold shownAt showOne
  rw [State.rd_wr_same, hother (by decide), hother (by decide), hother (by decide), State.rd_wr_same, hses,
    hother (by decide), hother (by decide), State.rd_wr_same, hother (by decide), State.rd_wr_same]
  simp only [F.SES_RESIDENT_VALID, F.SES_RESIDENT_SCHED, F.SES_RESIDENT_SWITCHING, b2n_mod]

theorem showOne_other {c d : Nat} (hc : c < 32) (hd : d < 32) (h : c ≠ d) (n : Nat) (valid sched switching : Bool) :
    shownAt (showOne n valid sched switching s d) c = shownAt s c := by
  have hother (f g : Fld) (u : State) (v : Nat) : (u.wr g d v).rd f c = u.rd f c := u.rd_wr_unit v h (by omega) (by omega)
  simp only [shownAt, showOne, hother]

theorem showResident_shows {m n c : Nat} (hn : n < 65536) (hc : c ∈ maskClusters m) (valid sched switching : Bool) :
    shownAt (showResident s m n valid sched switching) c = (n, b2n valid, b2n sched, b2n switching) :=
  have hset (u : State) : shownAt (showOne n valid sched switching u c) c = (n, b2n valid, b2n sched, b2n switching) :=
    showOne_same u hn (mem_maskClusters hc) _ _ _
  foldl_establishes (P := fun u => shownAt u c = _) (f := showOne n valid sched switching) hc hset (fun u d hd hu => by
    obtain rfl | hne := eq_or_ne c d
    · exact hset u
    · exact (showOne_other u (mem_maskClusters hc) (mem_maskClusters hd) hne _ _ _ _).trans hu) s

/-- SCHED of the two stream engines of a core. -/
def schedAt (s : State) (k : Nat) : Nat × Nat := (s.rd F.STM_STATUS_SCHED (2 * k), s.rd F.STM_STATUS_SCHED (2 * k + 1))

theorem setSched_shows {m k : Nat} (hk : k ∈ maskCores m) (v : Bool) : schedAt (setSched s m v) k = (b2n v, b2n v) := by
  have hk512 := mem_maskCores hk
  have hset (u : State) : schedAt ((u.wr F.STM_STATUS_SCHED (2 * k) (b2n v)).wr F.STM_STATUS_SCHED (2 * k + 1) (b2n v)) k = (b2n v, b2n v) := by
    unfold schedAt
    rw [State.rd_wr_unit _ _ (by omega) (by omega) (by omega), State.rd_wr_same, State.rd_wr_same]
    simp only [F.STM_STATUS_SCHED, b2n_mod]
  refine foldl_establishes (P := fun u => schedAt u k = _) hk hset (fun u j hj hu => ?_) s
  have hj512 := mem_maskCores hj
  obtain rfl | hne := eq_or_ne k j
  · exact hset u
  · have hother {a b : Nat} (ha : a / 2 = k) (hb : b / 2 = j) (w : State) :
        (w.wr F.STM_STATUS_SCHED b (b2n v)).rd F.STM_STATUS_SCHED a = w.rd F.STM_STATUS_SCHED a :=
      w.rd_wr_unit _ (by omega) (by omega) (by omega)
    unfold schedAt at hu ⊢
    rw [hother (by omega) (by omega), hother (by omega) (by omega), hother (by omega) (by omega), hother (by omega) (by omega), hu]

/-! ### Entries of the session table (R224) -/

theorem entryWrite_aside (n word lo w v : Nat) : Aside s (entryWrite s n word lo w v) := by
  have hread := memNat_aside s (entryDA s n + 8 * word) 8
  unfold entryWrite
  dsimp only
  split
  · exact hread.trans (memWrite_aside _ _ _ _)
  · exact hread

theorem entryState_aside (n v : Nat) : Aside s (entryState s n v) := entryWrite_aside s _ _ _ _ _

theorem readEntry_aside (n : Nat) : Aside s (readEntry s n).1 := memRead_aside s _ _ _

/-- Without slicing no group is sliced (R233). -/
theorem slice_of_off {s : State} (hoff : s.on F.SES_CTRL_EN 0 = false) (m : Nat) : slice s m = s := by
  unfold slice
  rw [if_pos (by simp [hoff])]

end

end Sys2Proof.Machine
end

section
/-!
PROOFS. Admission (R225-R227): a scheduled session's admission in its parts, and what it leaves in the table and shows.
-/
namespace Sys2Proof.Machine

/-! ### A session's entry in the table -/

section
variable (s : State)

@[simp] theorem State.sess_setSess_same (n : Nat) (x : Option Sess) : (s.setSess n x).sess n = x := by simp [State.sess, State.setSess]

theorem State.sess_setSess_other {m n : Nat} (h : m ≠ n) (x : Option Sess) : (s.setSess n x).sess m = s.sess m :=
  Tab.get_set_other _ _ _ _ h

/-! ### The parts of a scheduled session's admission (R226, R281, R308) -/

theorem wakeClusters_aside (m : Nat) : Aside s (wakeClusters s m) :=
  (Beside.refl s).foldl fun t c hc => by
    have hc := mem_maskClusters hc
    exact .ite (((Beside.refl t).wr _ (by omega) (by decide)).bump _ (by omega) (by decide) (by decide)) (.refl t)

theorem wakeForSched_aside (x : Sess) : Aside s (wakeForSched s x) :=
  (wakeClusters_aside s x.clusters).foldl fun t p hp => by
    have hp := List.mem_range.1 hp
    exact .ite ((Beside.refl t).wr _ (by omega) (by decide)) (.refl t)

theorem giveSlots_aside (x : Sess) : Aside s (giveSlots s x) :=
  (Beside.refl s).foldl fun t k hk => by
    have hk := mem_maskCores hk
    exact ((Beside.refl t).wr _ (by omega) (by decide)).wr _ (by omega) (by decide)

theorem setSched_beside (m : Nat) (v : Bool) : Beside sessionField Prod.mk s (setSched s m v) :=
  (Beside.refl s).foldl fun t k hk => by
    have hk := mem_maskCores hk
    exact ((Beside.refl t).wr _ (by omega) (by decide)).wr _ (by omega) (by decide)

/-- The fields of `admissionField` but SES_RESIDENT. -/
def unshownField (k : Nat) : Bool := admissionField k && !decide (F.SES_RESIDENT_SESSION.key ≤ k ∧ k ≤ F.SES_RESIDENT_SWITCHING.key)

theorem showResident_beside (m n : Nat) (valid sched switching : Bool) :
    Beside unshownField Prod.mk s (showResident s m n valid sched switching) :=
  (Beside.refl s).foldl fun t c hc => by
    have hc := mem_maskClusters hc
    exact ((((Beside.refl t).wr _ (by omega) (by decide)).wr _ (by omega) (by decide)).wr _ (by omega) (by decide)).wr _ (by omega) (by decide)

/-- A valid ring of a scheduled session enters the cache pinned. -/
def pinValid (n : Nat) (x : Sess) (s : State) (r : Nat) : State :=
  match (readRing s x r true).2 with
  | some c => if c.valid then showPinned (putRing (makeRoom s) n r c) else s
  | none => s

theorem pinValid_moves (n : Nat) (x : Sess) (r : Nat) : RingsMoved s (pinValid n x s r) := by
  unfold pinValid
  split
  · exact .ite (((makeRoom_moves s).trans (putRing_moves _ _ _ _)).trans (showPinned_moves _)) (.refl s)
  · exact .refl s

/-! ### Admission -/

/-- A scheduled session in the table, its clusters awake and its valid rings pinned. -/
def seated (n : Nat) (x : Sess) : State :=
  (List.range 32).foldl (pinValid n x)
    (giveSlots (wakeForSched ((setSched s x.clusters true).setSess n (some { x with st := 2 })) x) x)

theorem admitSched_eq (n : Nat) (x : Sess) :
    admitSched s n x = entryState (showResident (seated s n x) x.clusters n true true false) n 2 := rfl

theorem seated_moves (n : Nat) (x : Sess) :
    RingsMoved ((setSched s x.clusters true).setSess n (some { x with st := 2 })) (seated s n x) :=
  .trans (Aside.ringsMoved ((wakeForSched_aside _ x).trans (giveSlots_aside _ x))) ((Beside.refl _).foldl fun t r _ => pinValid_moves t n x r)

/-- What the admission of a session leaves: the table but for its entry, the tile, and its number. -/
structure Admits (n : Nat) (y : Sess) (s t : State) : Prop where
  number : t.rd F.SES_ADMIT_STAT_SESSION 0 = s.rd F.SES_ADMIT_STAT_SESSION 0
  tile : t.tile = s.tile
  same : t.sess n = some y
  others : ∀ m, m ≠ n → t.sess m = s.sess m

theorem admitSched_admits (n : Nat) (x : Sess) : Admits n { x with st := 2 } s (admitSched s n x) where
  number := by
    rw [admitSched_eq, (entryState_aside _ _ _).fields _ _ (by decide) (by decide),
      (showResident_beside _ _ _ _ _ _).fields _ _ (by decide) (by decide), (seated_moves s n x).fields _ _ (by decide) (by decide)]
    exact (setSched_beside s _ _).fields _ _ (by decide) (by decide)
  tile := by
    rw [admitSched_eq, (entryState_aside _ _ _).tile, (Prod.mk.inj (showResident_beside _ _ _ _ _ _).view).2, (seated_moves s n x).tile]
    exact (Prod.mk.inj (setSched_beside s _ _).view).2
  same := by
    rw [admitSched_eq, (entryState_aside _ _ _).sess, State.sess, (Prod.mk.inj (showResident_beside _ _ _ _ _ _).view).1, ← State.sess,
      (seated_moves s n x).sess, State.sess_setSess_same]
  others m hm := by
    rw [admitSched_eq, (entryState_aside _ _ _).sess, State.sess, (Prod.mk.inj (showResident_beside _ _ _ _ _ _).view).1, ← State.sess,
      (seated_moves s n x).sess, State.sess_setSess_other _ hm, State.sess, (Prod.mk.inj (setSched_beside s _ _).view).1, State.sess]

theorem admitSched_sched {k : Nat} (n : Nat) {x : Sess} (hk : k ∈ maskCores x.clusters) : schedAt (admitSched s n x) k = (1, 1) := by
  have hk512 := mem_maskCores hk
  have hkeep {i : Nat} (hi : i < 131072) :
      (admitSched s n x).rd F.STM_STATUS_SCHED i = (setSched s x.clusters true).rd F.STM_STATUS_SCHED i := by
    rw [admitSched_eq, (entryState_aside _ _ _).fields _ _ hi (by decide), (showResident_beside _ _ _ _ _ _).fields _ _ hi (by decide),
      (seated_moves s n x).fields _ _ hi (by decide)]
    rfl
  rw [schedAt, hkeep (by omega), hkeep (by omega)]
  exact setSched_shows s hk true

theorem admitSched_shown {n c : Nat} (hn : n < 65536) {x : Sess} (hc : c ∈ maskClusters x.clusters) :
    shownAt (admitSched s n x) c = (n, 1, 1, 0) := by
  have hc32 := mem_maskClusters hc
  have hkeep {f : Fld} (hf : admissionField f.key = true) : (admitSched s n x).rd f c =
      (showResident (seated s n x) x.clusters n true true false).rd f c := (entryState_aside _ _ _).fields f c (by omega) hf
  rw [shownAt, hkeep (by decide), hkeep (by decide), hkeep (by decide), hkeep (by decide)]
  exact showResident_shows _ hn hc true true false

/-- A free session is admitted READY. -/
def admitFree (n : Nat) (x : Sess) : State := slice (entryState (s.setSess n (some x)) n 1) x.clusters

theorem admitFree_admits {s : State} (hoff : s.on F.SES_CTRL_EN 0 = false) (n : Nat) (x : Sess) : Admits n x s (admitFree s n x) := by
  have hentry := entryState_aside (s.setSess n (some x)) n 1
  have hslice : admitFree s n x = entryState (s.setSess n (some x)) n 1 := slice_of_off ((hentry.on (by decide) (by decide)).trans hoff) _
  rw [hslice]
  exact ⟨hentry.fields _ _ (by decide) (by decide), hentry.tile, by rw [hentry.sess, State.sess_setSess_same],
    fun m hm => by rw [hentry.sess, State.sess_setSess_other _ hm]⟩

theorem refuseAction_refuses (cause : Nat) :
    let t := refuseAction s cause
    t.rd F.SES_STATUS_ADMIT_REFUSED 0 = 1 ∧ t.rd F.SES_ADMIT_STAT_CAUSE 0 = cause % 16 ∧
      t.rd F.SES_ADMIT_STAT_SESSION 0 = s.rd F.SES_ADMIT_STAT_SESSION 0 := by
  unfold refuseAction
  refine ⟨?_, State.rd_wr_same _ _ _ _, ?_⟩
  · rw [State.rd_wr_key _ _ (by decide) (by decide) (by decide), State.rd_wr_same]
    rfl
  · rw [State.rd_wr_key _ _ (by decide) (by decide) (by decide), State.rd_wr_key _ _ (by decide) (by decide) (by decide)]

end

/-- Settles O33: the reads of the entry and of the rings leave the sessions alone, so the first failing check is that of the state given;
what is then refused or admitted changes one entry of the table. -/
theorem sessionsAreAdmittedOrRefused : Obligations.SessionsAreAdmittedOrRefused := by
  unfold Obligations.SessionsAreAdmittedOrRefused
  intro n s hparked hstep hoff s0 e ws x rs st
  have hnumbered : Beside (fun k => admissionField k && decide (k ≠ F.SES_ADMIT_STAT_SESSION.key)) Prod.mk s s0 :=
    (Beside.refl s).wr _ (by decide) (by decide)
  have hread : Aside s0 e.1 := readEntry_aside s0 n
  have hkept {f : Fld} (hf : admissionField f.key = true) (hne : decide (f.key ≠ F.SES_ADMIT_STAT_SESSION.key) = true) :
      e.1.rd f 0 = s.rd f 0 :=
    (hread.fields f 0 (by decide) hf).trans (hnumbered.fields f 0 (by decide) (by rw [hf, hne]; rfl))
  have hnumber : e.1.rd F.SES_ADMIT_STAT_SESSION 0 = n := by
    rw [hread.fields _ 0 (by decide) (by decide), State.rd_wr_same]
    exact Nat.mod_eq_of_lt n.isLt
  have hses : e.1.ses = s.ses := hread.ses
  have hsess (m : Nat) : e.1.sess m = s.sess m := by rw [State.sess, hses, State.sess]
  have htile : e.1.tile = s.tile := hread.tile
  have hracing : (e.1.on F.TST_CDL_PARKED 0 || decide (e.1.rd F.TST_CDL_STEP 0 ≠ 0)) = false := by
    rw [State.on, hkept (by decide) (by decide), ← State.on, hparked, hkept (by decide) (by decide), hstep]
    rfl
  have hexec : exec (.admitSession n) s = .next (match admitCause e.1 n x (bits (ws.getD 0 0) 0 2) st rs with
      | some c => refuseAction e.1 c
      | none => if x.sched then admitSched (entryWrite e.1 n 14 0 64 x.admitLap) n x else admitFree (entryWrite e.1 n 14 0 64 x.admitLap) n x) := by
    have hst : st = if (e.1.sess n).isSome then 2 else bits (ws.getD 0 0) 2 3 := by rw [hsess]
    rw [hst]
    exact congrArg _ (if_neg (by rw [hracing]; decide))
  have hentry : Aside e.1 (entryWrite e.1 n 14 0 64 x.admitLap) := entryWrite_aside _ _ _ _ _ _
  have hadmitted {y : Sess} {t : State} (h : Admits n y (entryWrite e.1 n 14 0 64 x.admitLap) t) :
      t.rd F.SES_ADMIT_STAT_SESSION 0 = n ∧ t.tile = s.tile ∧ ∀ m, m ≠ n.val → t.sess m = s.sess m :=
    ⟨(h.number.trans (hentry.fields _ 0 (by decide) (by decide))).trans hnumber, (h.tile.trans hentry.tile).trans htile,
      fun m hm => ((h.others m hm).trans (hentry.sess m)).trans (hsess m)⟩
  refine ⟨_, hexec, ?_⟩
  cases admitCause e.1 n x (bits (ws.getD 0 0) 0 2) st rs with
  | some c =>
    obtain ⟨hrefused, hcause, hnum⟩ := refuseAction_refuses e.1 c
    exact ⟨hnum.trans hnumber, htile, fun m _ => hsess m, fun d hd => by cases hd; exact ⟨hrefused, hcause, hses⟩, fun h => nomatch h⟩
  | none =>
    dsimp only
    by_cases hsched : x.sched = true
    · rw [if_pos hsched]
      have h := admitSched_admits (entryWrite e.1 n 14 0 64 x.admitLap) n x
      obtain ⟨hnum, htiled, hothers⟩ := hadmitted h
      refine ⟨hnum, htiled, hothers, fun _ h => (nomatch h), fun _ => ⟨fun hfree => ?_, fun _ => ⟨h.same, fun k hk => ?_,
        fun c hc => ?_⟩⟩⟩
      · exact absurd hsched (by rw [hfree]; decide)
      · exact Prod.mk.inj (admitSched_sched _ n hk)
      · obtain ⟨hn, hrest⟩ := Prod.mk.inj (admitSched_shown (entryWrite e.1 n 14 0 64 x.admitLap) n.isLt hc)
        obtain ⟨hvalid, hrest⟩ := Prod.mk.inj hrest
        exact ⟨hn, hvalid, (Prod.mk.inj hrest).1⟩
    · rw [if_neg hsched]
      have hoff' : (entryWrite e.1 n 14 0 64 x.admitLap).on F.SES_CTRL_EN 0 = false := by
        rw [hentry.on (by decide) (by decide), State.on, hkept (by decide) (by decide)]
        exact hoff
      have h := admitFree_admits hoff' n x
      obtain ⟨hnum, htiled, hothers⟩ := hadmitted h
      exact ⟨hnum, htiled, hothers, fun _ h => (nomatch h), fun _ => ⟨fun _ => h.same, fun h => absurd h hsched⟩⟩

end Sys2Proof.Machine
end

section
/-!
PROOFS. Doorbells, the ring cache and the clock (R230, R231, R237): what a doorbell does at a cached and at a missing context, what a miss
loads, and what pins a context.
-/
namespace Sys2Proof.Machine

/-! ### A doorbell (R230) -/

/-- From `s` to `t` neither memory nor a core's own state has changed, nor the count of doorbells. -/
structure Unrung (s t : State) : Prop where
  count : t.rd F.SES_DOORBELL_CNT_COUNT 0 = s.rd F.SES_DOORBELL_CNT_COUNT 0
  tile : t.tile = s.tile
  sram : t.sram = s.sram
  mem : t.mem = s.mem

/-- A doorbell is discarded: counted and flagged (R230). -/
structure Drops (s t : State) : Prop where
  flag : t.rd F.SES_STATUS_DB_DROP 0 = 1
  count : t.rd F.SES_DB_DROP_CNT_COUNT 0 = (s.rd F.SES_DB_DROP_CNT_COUNT 0 + 1) % 2 ^ 64
  ses : t.ses = s.ses

/-- A doorbell's TAIL fits in a ring (R230). -/
def Ring.takes (c : Ring) (tail : Nat) : Prop :=
  c.valid = true ∧ c.completion = false ∧ (if c.head ≤ tail then tail - c.head else tail + c.size - c.head) ≤ c.size - 1

theorem Ring.not_takes {c : Ring} {tail : Nat}
    (h : c.valid = false ∨ c.completion = true ∨ c.size - 1 < if c.head ≤ tail then tail - c.head else tail + c.size - c.head) :
    ¬ c.takes tail := by
  rintro ⟨hvalid, hcompletion, hroom⟩
  obtain h | h | h := h
  · exact absurd (h.symm.trans hvalid) (by decide)
  · exact absurd (h.symm.trans hcompletion) (by decide)
  · exact absurd h (Nat.not_lt.2 hroom)

section
variable (s : State)

theorem dropDoorbell_drops : Drops s (dropDoorbell s) where
  flag := State.rd_wr_same _ _ _ _
  count := (State.rd_wr_key _ _ (by decide) (by decide) (by decide)).trans (State.rd_bump_same s C.SES_DB_DROP_CNT _ _ (by decide) (by decide))
  ses := State.bump_ses _ _ _ _

theorem dropDoorbell_unrung : Unrung s (dropDoorbell s) where
  count := (dropDoorbell_moves s).fields _ _ (by decide) (by decide)
  tile := (dropDoorbell_moves s).tile
  sram := State.bump_sram _ _ _ _
  mem := State.bump_mem _ _ _ _

theorem setSes_unrung (x : Sessions) : Unrung s (s.setSes x) := ⟨rfl, rfl, rfl, rfl⟩

theorem storeTail_of_takes {s : State} {n r tail : Nat} {c : Ring} (hring : s.ring n r = some c) (hc : c.takes tail) :
    storeTail s n r tail = putRing s n r { c with tail := tail % c.size } := by
  obtain ⟨hvalid, hcompletion, hroom⟩ := hc
  unfold storeTail
  rw [hring]
  exact if_neg (by rw [hvalid, hcompletion, decide_eq_false (Nat.not_lt.2 hroom)]; decide)

theorem storeTail_of_refused {s : State} {n r tail : Nat} {c : Ring} (hring : s.ring n r = some c) (hc : ¬ c.takes tail) :
    storeTail s n r tail = dropDoorbell s := by
  unfold storeTail
  rw [hring]
  refine if_pos ?_
  by_contra hstored
  simp only [Bool.or_eq_true, Bool.not_eq_true', decide_eq_true_eq, not_or, Bool.not_eq_false, Bool.not_eq_true, not_lt] at hstored
  exact hc ⟨hstored.1.1, hstored.1.2, hstored.2⟩

/-- The doorbell is counted, whatever becomes of it. -/
def rung : State := s.bump C.SES_DOORBELL_CNT 0 1

theorem rung_count : (rung s).rd F.SES_DOORBELL_CNT_COUNT 0 = (s.rd F.SES_DOORBELL_CNT_COUNT 0 + 1) % 2 ^ 64 :=
  State.rd_bump_same s C.SES_DOORBELL_CNT _ _ (by decide) (by decide)

theorem rung_rd {f : Fld} (h1 : f.key ≠ F.SES_DOORBELL_CNT_COUNT.key) (h2 : f.key ≠ F.SES_WRAP_FLAGS.key) : (rung s).rd f 0 = s.rd f 0 :=
  State.rd_bump_other s _ _ _ f 0 (by decide) (by decide) (.inl h1) (.inl h2)

theorem rung_ses : (rung s).ses = s.ses := State.bump_ses _ _ _ _

theorem rung_off {s : State} (hoff : s.on F.SES_CTRL_EN 0 = false) : (rung s).on F.SES_CTRL_EN 0 = false := by
  rw [State.on, rung_rd s (by decide) (by decide)]
  exact hoff

/-- What a doorbell does beyond its count, slicing off. -/
def doorbellDone (n r tail : Nat) (u : State) : State :=
  if (u.sess n).isNone then dropDoorbell u
  else if (u.ring n r).isSome then storeTail u n r tail
  else if 256 ≤ u.ses.loads.length then dropDoorbell u
  else u.setSes { u.ses with loads := u.ses.loads ++ [(n, r, tail)] }

theorem doorbell_eq {s : State} (hoff : s.on F.SES_CTRL_EN 0 = false) (v : Nat) :
    doorbell s v = doorbellDone (bits v 0 16) (bits v 16 5) (bits v 32 16) (rung s) := by
  have hstored : ringDoorbell (rung s) (bits v 0 16) (bits v 16 5) (bits v 32 16) =
      if ((rung s).sess (bits v 0 16)).isNone then dropDoorbell (rung s) else storeTail (rung s) (bits v 0 16) (bits v 16 5) (bits v 32 16) := by
    unfold ringDoorbell
    split
    case h_1 x hx =>
      rw [hx]
      exact slice_of_off (((storeTail_moves _ _ _ _).on (by decide) (by decide)).trans (rung_off hoff)) _
    case h_2 hx => rw [hx]; rfl
  change (if ((rung s).sess _).isNone then _ else if ((rung s).ring _ _).isSome then ringDoorbell (rung s) _ _ _ else _) = doorbellDone _ _ _ _
  rw [hstored, doorbellDone]
  split
  case isTrue => rfl
  case isFalse => rfl

theorem putRing_unrung (n r : Nat) (c : Ring) : Unrung s (putRing s n r c) := setSes_unrung s _

theorem storeTail_unrung (n r tail : Nat) : Unrung s (storeTail s n r tail) := by
  cases hring : s.ring n r with
  | none =>
    unfold storeTail
    rw [hring]
    exact dropDoorbell_unrung s
  | some c =>
    by_cases hc : c.takes tail
    · rw [storeTail_of_takes hring hc]
      exact putRing_unrung s _ _ _
    · rw [storeTail_of_refused hring hc]
      exact dropDoorbell_unrung s

theorem doorbellDone_unrung (n r tail : Nat) : Unrung s (doorbellDone n r tail s) := by
  unfold doorbellDone
  split_ifs
  · exact dropDoorbell_unrung s
  · exact storeTail_unrung s _ _ _
  · exact dropDoorbell_unrung s
  · exact setSes_unrung s _

theorem doorbellDone_of_cached {s : State} {n r : Nat} {x : Sess} {c : Ring} (hx : s.sess n = some x) (hc : s.ring n r = some c) (tail : Nat) :
    doorbellDone n r tail s = storeTail s n r tail := by
  simp [doorbellDone, hx, hc]

theorem doorbellDone_of_missing {s : State} {n r : Nat} {x : Sess} (hx : s.sess n = some x) (hr : s.ring n r = none)
    (hroom : s.ses.loads.length < 256) (tail : Nat) :
    doorbellDone n r tail s = s.setSes { s.ses with loads := s.ses.loads ++ [(n, r, tail)] } := by
  simp [doorbellDone, hx, hr, hroom]

/-- A doorbell that is discarded after its count. -/
theorem drops_of_rung {t : State} (h : Drops (rung s) t) : Drops s t :=
  ⟨h.flag, by rw [h.count, rung_rd s (by decide) (by decide)], h.ses.trans (rung_ses s)⟩

/-! ### A load (R231) -/

/-- A missing context is loaded, and the doorbells that wait for it are no longer among those that wait. -/
def ringLoaded (n r : Nat) : State :=
  let t := (cacheRing s n r false).bump C.SES_RING_MISS_CNT 0 1
  t.setSes { t.ses with loads := t.ses.loads.filter (fun l => !(decide (l.1 = n ∧ l.2.1 = r))) }

theorem missRing_moves (n r : Nat) : RingsMoved (ringLoaded s n r) (missRing s n r) :=
  (Beside.refl _).foldl fun t l _ => storeTail_moves t n r l.2.2

theorem missRing_misses (n r : Nat) :
    let t := missRing s n r
    (∀ l ∈ t.ses.loads, ¬ (l.1 = n ∧ l.2.1 = r)) ∧ t.rd F.SES_RING_MISS_CNT_COUNT 0 = (s.rd F.SES_RING_MISS_CNT_COUNT 0 + 1) % 2 ^ 64 ∧
      t.ses.sess = s.ses.sess ∧ t.tile = s.tile ∧ t.on F.SES_CTRL_EN 0 = s.on F.SES_CTRL_EN 0 := by
  have hcached := cacheRing_moves s n r false
  have happlied := missRing_moves s n r
  refine ⟨fun l hl => ?_, ?_, ?_, ?_, ?_⟩
  · rw [happlied.loads] at hl
    have hkept := (List.mem_filter.1 hl).2
    rwa [Bool.not_eq_true', decide_eq_false_iff_not] at hkept
  · rw [happlied.fields _ _ (by decide) (by decide), ← hcached.fields F.SES_RING_MISS_CNT_COUNT 0 (by decide) (by decide)]
    exact State.rd_bump_same _ C.SES_RING_MISS_CNT _ _ (by decide) (by decide)
  · have hcounted := State.bump_ses (cacheRing s n r false) C.SES_RING_MISS_CNT 0 1
    rw [happlied.table, ← hcached.table, ← hcounted]
    rfl
  · rw [happlied.tile, ← hcached.tile]
    exact State.bump_tile _ _ _ _
  · rw [happlied.on (by decide) (by decide), ← hcached.on (f := F.SES_CTRL_EN) (by decide) (by decide), State.on, State.on]
    exact congrArg (fun v => decide (v ≠ 0)) (State.rd_bump_other _ C.SES_RING_MISS_CNT _ _ F.SES_CTRL_EN 0 (by decide) (by decide)
      (.inl (by decide)) (.inl (by decide)))

/-! ### A pin (R231, R238) -/

/-- A cached context with another PIN, shown. -/
def repin (n r : Nat) (c : Ring) (pin : Bool) : State := showPinned (putRing s n r { c with pin := pin })

theorem repin_ring (n r : Nat) (c : Ring) (pin : Bool) : (repin s n r c pin).ring n r = some { c with pin := pin } :=
  putRing_ring_same s n r _

theorem repin_shown (n r : Nat) (c : Ring) (pin : Bool) :
    (repin s n r c pin).rd F.SES_RING_PIN_PINNED 0 = pinnedRings (repin s n r c pin) % 2 ^ F.SES_RING_PIN_PINNED.width :=
  State.rd_wr_same _ _ _ _

theorem ringPin_of_cached {s : State} {v : Nat} {x : Sess} {c : Ring} (hx : s.sess (bits v 16 16) = some x)
    (hc : s.ring (bits v 16 16) (bits v 32 5) = some c) :
    ringPin s v =
      if bit v 40 = 1 then
        if !c.pin && decide (15360 ≤ pinnedRings s) then s.wr F.SES_STATUS_ADMIT_REFUSED 0 1 else repin s (bits v 16 16) (bits v 32 5) c true
      else if x.sched then s else repin s (bits v 16 16) (bits v 32 5) c false := by
  unfold ringPin
  dsimp only
  rw [hx]
  simp only [hc, Option.isSome_some, if_true]
  rfl

/-! ### The clock (R206, R237) -/

theorem relockTracks_moves : TracksMoved s (relockTracks s) :=
  List.foldlRecOn _ _ (motive := TracksMoved s) (.refl s) fun t ht _ hu =>
    ht.trans (.ite (enterAcquiring_moves t (List.mem_range.1 hu)) (.refl t))

theorem relockTracks_tile : (relockTracks s).tile = s.tile :=
  foldl_keeps State.tile _ _ fun t u => by split <;> rfl

/-- MODE and STEP set. -/
def setClock (mode step : Nat) : State := (s.wr F.SES_CLOCK_MODE 0 mode).wr F.SES_CLOCK_STEP 0 step

theorem setClock_sets {mode step : Nat} (hmode : mode < 2) (hstep : step < 4) :
    (setClock s mode step).rd F.SES_CLOCK_MODE 0 = mode ∧ (setClock s mode step).rd F.SES_CLOCK_STEP 0 = step := by
  refine ⟨?_, (State.rd_wr_same _ _ _ _).trans (Nat.mod_eq_of_lt hstep)⟩
  exact (State.rd_wr_key _ _ (by decide) (by decide) (by decide)).trans ((State.rd_wr_same _ _ _ _).trans (Nat.mod_eq_of_lt hmode))

theorem setClock_sameRegs (mode step : Nat) : SameRegs s (setClock s mode step) [(F.SES_CLOCK_MODE, 0), (F.SES_CLOCK_STEP, 0)] :=
  .wr' F.SES_CLOCK_STEP 0 step (SameRegs.wr s F.SES_CLOCK_MODE 0 mode (by decide) (by simp)) (by decide) (by simp)

/-- The clock as a write that is not refused leaves it: tracks relock when STEP changes (R206). -/
def clocked (mode step : Nat) : State :=
  if step = s.rd F.SES_CLOCK_STEP 0 then setClock s mode step else relockTracks (setClock s mode step)

theorem clocked_sets {mode step : Nat} (hmode : mode < 2) (hstep : step < 4) :
    (clocked s mode step).rd F.SES_CLOCK_MODE 0 = mode ∧ (clocked s mode step).rd F.SES_CLOCK_STEP 0 = step := by
  obtain ⟨hmodeSet, hstepSet⟩ := setClock_sets s hmode hstep
  have hmoved := relockTracks_moves (setClock s mode step)
  unfold clocked
  split
  · exact ⟨hmodeSet, hstepSet⟩
  · exact ⟨(hmoved.fields F.SES_CLOCK_MODE 0 (by decide) (by decide)).trans hmodeSet,
      (hmoved.fields F.SES_CLOCK_STEP 0 (by decide) (by decide)).trans hstepSet⟩

theorem clocked_keeps (mode step : Nat) : (clocked s mode step).tile = s.tile ∧ (clocked s mode step).sram = s.sram := by
  have htile := relockTracks_tile (setClock s mode step)
  have hsram := (resting_eq_iff.1 (relockTracks_moves (setClock s mode step)).resting).1
  unfold clocked
  split
  · exact ⟨rfl, rfl⟩
  · exact ⟨htile, hsram⟩

end

/-- Settles O36: a doorbell is counted and then discarded, stored at its cached context, or kept waiting; the reads and writes of contexts in
memory lie beside the sessions; and tracks that relock keep the clock's fields. -/
theorem doorbellsRingsAndClock : Obligations.DoorbellsRingsAndClock := by
  unfold Obligations.DoorbellsRingsAndClock
  refine ⟨fun value s hoff => ?_, fun n r s x hx hr hoff => ?_, fun value s x c => ?_, fun value s => ?_⟩
  · intro n r tail
    have hrung := doorbellDone_unrung (rung s) n r tail
    have hsess (m : Nat) : (rung s).sess m = s.sess m := by rw [State.sess, rung_ses, State.sess]
    have hring (m i : Nat) : (rung s).ring m i = s.ring m i := by rw [State.ring, rung_ses, State.ring]
    refine ⟨_, congrArg Host.Outcome.next (doorbell_eq hoff value.toNat), hrung.count.trans (rung_count s),
      hrung.tile.trans (State.bump_tile _ _ _ _), hrung.sram.trans (State.bump_sram _ _ _ _),
      hrung.mem.trans (State.bump_mem _ _ _ _), fun hnone => ?_, fun x hx hr hroom => ?_, fun x c hx hc => ?_⟩
    · have hdropped : doorbellDone n r tail (rung s) = dropDoorbell (rung s) := if_pos (by rw [hsess, hnone]; rfl)
      obtain ⟨hflag, hcount, hses⟩ := drops_of_rung s (dropDoorbell_drops (rung s))
      rw [hdropped]
      exact ⟨hflag, hcount, hses⟩
    · rw [doorbellDone_of_missing ((hsess n).trans hx) ((hring n r).trans hr) (by rw [rung_ses]; exact hroom)]
      exact ⟨by rw [← rung_ses s]; rfl, by rw [← rung_ses s]; rfl, rung_rd s (by decide) (by decide)⟩
    · rw [doorbellDone_of_cached ((hsess n).trans hx) ((hring n r).trans hc)]
      intro held
      refine ⟨fun hvalid hcompletion hroom => ?_, fun hrefused => ?_⟩
      · rw [storeTail_of_takes ((hring n r).trans hc) ⟨hvalid, hcompletion, hroom⟩]
        exact ⟨putRing_ring_same _ _ _ _, rung_rd s (by decide) (by decide)⟩
      · have hrefuses : ¬ c.takes tail := Ring.not_takes hrefused
        obtain ⟨hflag, hcount, hses⟩ := drops_of_rung s (dropDoorbell_drops (rung s))
        rw [storeTail_of_refused ((hring n r).trans hc) hrefuses]
        exact ⟨hflag, hcount, hses⟩
  · obtain ⟨hloads, hcount, htable, htile, hon⟩ := missRing_misses s n r
    have hexec : exec (.ringContextLoad n r) s = .next (missRing s n r) := by
      have hload : ringLoad s n r = slice (missRing s n r) x.clusters := by simp [ringLoad, hx, hr]
      exact congrArg _ (hload.trans (slice_of_off (hon.trans hoff) _))
    exact ⟨_, hexec, hloads, hcount, htable, htile⟩
  · intro n r hx hc
    refine ⟨fun hpin hmay => ?_, fun hpin hc' hfull => ?_, fun hpin hsched => ?_, fun hpin hfree => ?_⟩
    · have hnot : (!c.pin && decide (15360 ≤ pinnedRings s)) = false := by
        obtain h | h := hmay
        · rw [h]; rfl
        · rw [decide_eq_false (Nat.not_le.2 h), Bool.and_false]
      have hexec : ringPin s value.toNat = repin s n r c true := by rw [ringPin_of_cached hx hc, if_pos hpin, hnot, if_neg Bool.false_ne_true]
      exact ⟨_, congrArg Host.Outcome.next hexec, repin_ring s n r c true, repin_shown s n r c true, rfl⟩
    · have hexec : ringPin s value.toNat = s.wr F.SES_STATUS_ADMIT_REFUSED 0 1 := by
        rw [ringPin_of_cached hx hc, if_pos hpin, hc', decide_eq_true hfull]
        rfl
      exact ⟨_, congrArg Host.Outcome.next hexec, State.rd_wr_same _ _ _ _, rfl⟩
    · have hexec : ringPin s value.toNat = s := by rw [ringPin_of_cached hx hc, hpin, hsched]; rfl
      exact congrArg Host.Outcome.next hexec
    · have hexec : ringPin s value.toNat = repin s n r c false := by rw [ringPin_of_cached hx hc, hpin, hfree]; rfl
      exact ⟨_, congrArg Host.Outcome.next hexec, repin_ring s n r c false⟩
  · intro mode step refused
    by_cases hrefused : refused
    · have hexec : clockWrite s value.toNat = s.wr F.SES_STATUS_CLOCK_REFUSED 0 1 := if_pos hrefused
      exact ⟨_, congrArg Host.Outcome.next hexec, rfl, rfl, fun _ => ⟨State.rd_wr_same _ _ _ _, .wr s _ _ _ (by decide) (by simp), rfl⟩,
        fun h => absurd hrefused h⟩
    · have hstep : step ≤ 2 := clampTo_le (by decide)
      have hexec : clockWrite s value.toNat = clocked s mode step := if_neg hrefused
      obtain ⟨htile, hsram⟩ := clocked_keeps s mode step
      obtain ⟨hmodeSet, hstepSet⟩ := clocked_sets s (mode := mode) (step := step) (Nat.mod_lt _ (by decide)) (by omega)
      refine ⟨_, congrArg Host.Outcome.next hexec, htile, hsram, fun h => absurd h hrefused, fun _ => ⟨hmodeSet, hstepSet, fun hsame => ?_⟩⟩
      rw [clocked, if_pos hsame]
      exact ⟨setClock_sameRegs s mode step, rfl⟩

end Sys2Proof.Machine
end

section
/-!
PROOFS. Actions of SES_ADMIT (R227, R235): a scheduled session whose record names no track of the device.
-/
namespace Sys2Proof.Machine

/-- A scheduled session, resident, whose TRK names the unit of TRK_LAP that shares its place with SES_ADMIT_STAT.SESSION: a record that no
entry gives, whose TRK has three bits, but that the statement allows. -/
def tracklessSession : Sess :=
  { sessOf [2] 0 with st := 2, trk := (F.SES_ADMIT_STAT_SESSION.key - F.TRK_LAP_LAP.key) * 131072 }

/-- The reset state with that session admitted as session 5. -/
def tracklessState : State := { State.reset with ses := { State.reset.ses with sess := [(5, some tracklessSession)] } }

/-- SUSPEND shows its session in SES_ADMIT_STAT before it notes the lap, which then reads as the session's number. -/
theorem tracklessState_suspended : tracklessState.lap tracklessSession.trk = 0 ∧
    (sesAction tracklessState 5 3).sess 5 = some { tracklessSession with suspending := some 5 } := by decide +kernel

/-- Refutes O34: of SUSPEND of a scheduled RESIDENT session it says that the lap noted is the one its track shows, whatever track its record
names. In `tracklessState` the lap stands where SES_ADMIT_STAT.SESSION does, and the action has written its session there. -/
theorem not_sessionActionsFollowTheirTable : ¬ Obligations.SessionActionsFollowTheirTable := by
  unfold Obligations.SessionActionsFollowTheirTable
  rintro ⟨-, -, hsuspend, -⟩
  obtain ⟨-, hscheduled, -⟩ := hsuspend 5 tracklessState tracklessSession rfl rfl rfl rfl
  obtain ⟨t, hstep, hnoted, -⟩ := hscheduled rfl rfl
  obtain rfl : sesAction tracklessState 5 3 = t := Host.Outcome.next.inj hstep
  obtain ⟨hlap, hsuspended⟩ := tracklessState_suspended
  have hsame : some { tracklessSession with suspending := some 5 } =
      some { tracklessSession with suspending := some (tracklessState.lap tracklessSession.trk) } := hsuspended.symm.trans hnoted
  rw [hlap] at hsame
  exact absurd (congrArg (Option.map Sess.suspending) hsame) (by decide)

end Sys2Proof.Machine
end

section
/-!
PROOFS. Switches (R212, R234, R235): a free session whose saved area arms a finish line that has passed, at a hurdle whose recorded waiter
names no queue of the device. Of the area only its first slot is not as a reset leaves a cluster, so the load of the rest changes nothing.
-/
namespace Sys2Proof.Machine

/-! ### A saved area -/

/-- A byte of the area: each hurdle has TARGET 1, and slot 0 is armed for generation 1 of hurdle 0 at lap 0 and angle 0, with an alternative
arrival at hurdle 0. -/
def areaByte (i : Nat) : Byte :=
  if i < 0x10000 then (if i % 32 = 0 then 1 else 0)
  else if i = 0x18010 then 1 else if i = 0x18015 then 8 else if i = 0x18018 then 1 else 0

def areaBytes : List Byte := (List.range 0x18800).map areaByte

theorem areaBytes_length : areaBytes.length = 0x18800 := by rw [areaBytes, List.length_map, List.length_range]

theorem areaBytes_part (o n : Nat) (h : o + n ≤ 0x18800) : (areaBytes.drop o).take n = (List.range n).map (fun j => areaByte (o + j)) := by
  refine List.ext_getElem (by simp [areaBytes_length]; omega) fun j hj hj' => ?_
  simp [areaBytes]

/-- A hurdle, a baton window and a slot as a reset leaves them, and the armed slot. -/
def restedHurdle : List Byte := 1 :: List.replicate 31 0
def restedWindow : List Byte := List.replicate 0x200 0
def restedSlot : List Byte := List.replicate 32 0
def armedSlot : List Byte := (List.range 32).map (fun j => areaByte (0x18000 + j))

theorem areaBytes_hurdle {h : Nat} (hh : h < 2048) : (areaBytes.drop (32 * h)).take 32 = restedHurdle := by
  rw [areaBytes_part _ _ (by omega), show restedHurdle = (List.range 32).map (fun j => if j % 32 = 0 then 1 else 0) from rfl]
  refine List.map_congr_left fun j hj => ?_
  have hj := List.mem_range.1 hj
  rw [areaByte, if_pos (by omega), Nat.mul_add_mod]

theorem areaBytes_window {w : Nat} (hw : w < 64) : (areaBytes.drop (0x10000 + 0x200 * w)).take 0x200 = restedWindow := by
  rw [areaBytes_part _ _ (by omega), show restedWindow = (List.range 0x200).map (fun _ => 0) by rw [List.map_const', List.length_range]; rfl]
  refine List.map_congr_left fun j hj => ?_
  have hj := List.mem_range.1 hj
  rw [areaByte, if_neg (by omega), if_neg (by omega), if_neg (by omega), if_neg (by omega)]

/-- The bytes of a slot of the area. -/
def slotBytes (n : Nat) : List Byte := if n = 0 then armedSlot else restedSlot

theorem areaBytes_slot {n : Nat} (hn : n < 64) : (areaBytes.drop (0x18000 + 32 * n)).take 32 = slotBytes n := by
  rw [areaBytes_part _ _ (by omega), slotBytes]
  split
  case isTrue hzero => rw [hzero]; rfl
  case isFalse hmore =>
    rw [show restedSlot = (List.range 32).map (fun _ => 0) from rfl]
    refine List.map_congr_left fun j hj => ?_
    rw [areaByte, if_neg (by omega), if_neg (by omega), if_neg (by omega), if_neg (by omega)]

/-! ### Loads that change nothing -/

theorem State.wr_reset {s : State} (hregs : s.regs = []) {f : Fld} {i v : Nat} (hv : v % 2 ^ f.width = f.resetAt i) : s.wr f i v = s := by
  cases s
  obtain rfl := hregs
  simp [State.wr, hv, Tab.set, Tab.erase]

theorem loadHurdle_rested {s : State} (hregs : s.regs = []) (h : Nat) : loadHurdle s h restedHurdle = s := by
  have hw (f : Fld) (v : Nat) (hv : v % 2 ^ f.width = f.resetAt h) : s.wr f h v = s := State.wr_reset hregs hv
  unfold loadHurdle
  dsimp only
  rw [hw F.HUR_CFG_TARGET _ rfl, hw F.HUR_CFG_MODE _ rfl, hw F.HUR_CFG_WIN _ rfl, hw F.HUR_STATE_COUNT _ rfl, hw F.HUR_STATE_GEN _ rfl,
    hw F.HUR_VALUE_VALUE _ rfl, hw F.HUR_VALUE_SRC_NODE _ rfl]

theorem loadWindow_rested {s : State} (hregs : s.regs = []) (hbatons : s.sync.batons = []) (w : Nat) : loadWindow s w restedWindow = s := by
  have hw (f : Fld) (v : Nat) (hv : v % 2 ^ f.width = f.resetAt w) : s.wr f w v = s := State.wr_reset hregs hv
  have hqueue : ({ s with sync := { s.sync with batons := Tab.set [] s.sync.batons w [] } } : State) = s := by
    rw [hbatons, show Tab.set ([] : List Baton) [] w [] = [] from rfl, ← hbatons]
  unfold loadWindow setWindowQueue
  dsimp only
  rw [hw F.HUR_WIN_BASE_DA _ rfl, hw F.HUR_WIN_LEN_LEN _ rfl, hw F.HUR_WIN_CREDIT_CREDIT _ rfl,
    show (List.range (Nat.min 8 (wordAt restedWindow 3))) = [] from rfl, List.map_nil, hqueue, hw F.HUR_WIN_STAT_HELD _ rfl,
    hw F.HUR_WIN_STAT_HEAD_TAG _ rfl, hw F.HUR_WIN_STAT_HEAD_CNT _ rfl]

theorem clearHurdles_rested {s : State} {c : Nat} (hregs : s.regs = []) (hbatons : s.sync.batons = []) (hheld : s.sync.held = [])
    (hwaiters : ∀ w ∈ s.sync.hurWait, clusterOfQueue w.queue ≠ c) : clearHurdles s c = s := by
  have hkept : s.sync.hurWait.filter (fun w => !(decide (clusterOfHurdle w.hur = c) && decide (clusterOfQueue w.queue = c))) = s.sync.hurWait :=
    List.filter_eq_self.2 fun w hw => by rw [decide_eq_false (hwaiters w hw), Bool.and_false]; rfl
  unfold clearHurdles State.resetFields
  dsimp only
  rw [hkept, hregs, hbatons, hheld]
  simp only [Tab.drop, List.filter_nil]
  rw [← hregs, ← hheld, ← hbatons]

/-! ### The restore -/

/-- A free session with that area in the scratchpads of cluster 2, whose restore has ended. -/
def savedSession : Sess := { sessOf [1, 1] 0 with saved := true, saveDA := scratchBase }

def areaDA : Nat := scratchBase + 0x2000000

/-- Its switch, and a waiter at hurdle 0 whose STATE is the count of switches (see `strayWaiter`), over some memory. -/
def strayRestoreOver (m : Tab Byte) : State :=
  { strayWaiter (F.SES_SWITCH_CNT_COUNT.key - F.VEC_Q_STAT_STATE.key) with
    regs := []
    sram := m
    ses := { State.reset.ses with sess := [(1, some savedSession)], switches := [⟨1, none, some 1, true⟩] } }

/-- That state over the area. -/
def strayRestore : State := strayRestoreOver (writeBytes [] areaDA areaBytes)

theorem strayRestoreOver_memDown (m : Tab Byte) (ws : List Nat) : memDown (strayRestoreOver m) ws = false := by
  have hin (kind i : Nat) : (strayRestoreOver m).inReset kind i = false := rfl
  refine List.any_eq_false.2 fun w _ => ?_
  unfold padDown
  split <;> simp [State.coreDown, State.clusterDown, State.quarterDown, hin]

theorem strayRestoreOver_sram (m : Tab Byte) : (strayRestoreOver m).sram = m := rfl

theorem readBytes_of_written {m : Tab Byte} {a n : Nat} {bs : List Byte} (hm : m = writeBytes [] a bs) (hn : bs.length = n) :
    readBytes m a n = bs := by
  rw [hm, ← hn, readBytes_writeBytes]

theorem strayRestore_waiters : ∀ w ∈ strayRestore.sync.hurWait, clusterOfQueue w.queue ≠ 0 := by
  intro w hw
  obtain rfl := List.mem_singleton.1 hw
  decide +kernel

theorem strayRestore_area : memRead strayRestore areaDA 0x18800 Around.quiet = (strayRestore, some areaBytes) := by
  have hbytes : readBytes strayRestore.sram areaDA 0x18800 = areaBytes := 
    readBytes_of_written (strayRestoreOver_sram _) areaBytes_length
  unfold memRead
  rw [show regionOf areaDA = .scratch 32 by decide]
  dsimp only
  rw [strayRestore, strayRestoreOver_memDown, ← strayRestore, show decide (clusterOfDA (areaDA + 0x18800 - 1) = none) = false by decide, hbytes]
  rfl

/-- The slots of the area, loaded. -/
def straySlots : State := (List.range 64).foldl (fun s n => loadSlot s n (slotBytes n)) strayRestore

theorem foldl_fixed_on {α : Type} {f : State → α → State} {l : List α} {s : State} (h : ∀ a ∈ l, f s a = s) : l.foldl f s = s :=
  List.foldlRecOn l f (motive := fun t => t = s) rfl fun _ ht a ha => ht ▸ h a ha

theorem loadCluster_strayRestore : loadCluster strayRestore 0 areaDA true = straySlots := by
  have hclear : clearHurdles strayRestore 0 = strayRestore := clearHurdles_rested rfl rfl rfl strayRestore_waiters
  have hhurdles : (List.range 2048).foldl (fun s h => loadHurdle s (0 * 2048 + h) ((areaBytes.drop (32 * h)).take 32)) strayRestore =
      strayRestore := foldl_fixed_on fun h hh => by
    rw [areaBytes_hurdle (List.mem_range.1 hh), loadHurdle_rested rfl]
  have hwindows : (List.range 64).foldl (fun s w => loadWindow s (0 * 64 + w) ((areaBytes.drop (0x10000 + 0x200 * w)).take 0x200))
      strayRestore = strayRestore := foldl_fixed_on fun w hw => by
    rw [areaBytes_window (List.mem_range.1 hw), loadWindow_rested rfl rfl]
  unfold loadCluster
  rw [strayRestore_area]
  dsimp only
  rw [hclear, hhurdles, hwindows, if_pos rfl]
  exact List.foldl_ext _ _ _ (fun s n hn => by rw [areaBytes_slot (List.mem_range.1 hn), Nat.zero_mul, Nat.zero_add])

/-- A free session resident at the end of its restore, from the state in which its clusters are loaded. -/
def residentAgain (s : State) (n : Nat) (x : Sess) : State :=
  let y := { x with st := 2, restoring := false, expired := false, hadWork := false, suspending := none, saving := x.suspending.isSome }
  admitBusy (showResident ((entryState (setSwitch (s.setSess n (some y)) x.clusters none) n 2).bump C.SES_SWITCH_CNT 0 1) x.clusters n true
    x.sched false)

theorem eachCluster_savedSession (f : State → Nat → Nat → State) (s : State) : eachCluster savedSession f s = f s 0 areaDA := rfl

theorem switchRestored_of_loaded {s u : State} {n : Nat} {x : Sess} {w : Switch} (hx : s.sess n = some x)
    (hw : switchOf s x.clusters = some w) (hinc : w.inc = some n) (hout : w.saved = true) (hrest : coresRest s x.clusters = true)
    (hsaved : x.saved = true) (hasked : x.suspending = none)
    (hload : eachCluster x (fun s c da => loadCluster s c da (!x.sched)) s = u) :
    switchRestored s n = slice (residentAgain u n x) x.clusters := by
  unfold switchRestored residentAgain
  rw [hx]
  dsimp only
  rw [hw]
  dsimp only
  rw [if_neg (by rw [hinc, hout, hrest]; simp), if_pos hsaved, hload, hasked]
  rfl

theorem switchRestored_strayRestore : switchRestored strayRestore 1 = slice (residentAgain straySlots 1 savedSession) 1 := by
  refine switchRestored_of_loaded (x := savedSession) (w := ⟨1, none, some 1, true⟩) rfl rfl rfl rfl (by decide +kernel) rfl rfl ?_
  rw [eachCluster_savedSession]
  exact loadCluster_strayRestore

/-- The wake of the waiter writes RUN where the count of switches stood. -/
theorem straySlots_counts : (slice (residentAgain straySlots 1 savedSession) 1).rd F.SES_SWITCH_CNT_COUNT 0 = 2 := by decide +kernel

/-- Refutes O35: of the end of a restore it says that the count of switches advances by 1, whatever queue waits at a hurdle of the session's
clusters. In `strayRestore` the loaded slot 0 is late, its alternative arrival ends the wait of a queue number that the device does not
have, and its RUN stands in the count of switches, which then counts to 2. -/
theorem not_switchesSaveAndRestoreSessions : ¬ Obligations.SwitchesSaveAndRestoreSessions := by
  unfold Obligations.SwitchesSaveAndRestoreSessions
  rintro ⟨-, -, -, hrestored⟩
  obtain ⟨t, hstep, -, -, hcount, -⟩ := hrestored 1 strayRestore savedSession ⟨1, none, some 1, true⟩ rfl rfl rfl rfl (by decide +kernel) rfl
    (by decide +kernel)
  obtain rfl : switchRestored strayRestore 1 = t := Host.Outcome.next.inj hstep
  rw [switchRestored_strayRestore, straySlots_counts] at hcount
  have hzero : strayRestore.rd F.SES_SWITCH_CNT_COUNT 0 = 0 := rfl
  rw [hzero] at hcount
  exact absurd hcount (by decide)

end Sys2Proof.Machine
end

section
/-!
PROOFS. Submissions (R232): an ARRIVE at a hurdle whose recorded waiter names no queue of the device.
-/
namespace Sys2Proof.Machine

/-- A free session, resident on cluster 0 with one sample slot. -/
def residentSession : Sess := { sessOf [0, 1] 0 with st := 2 }

/-- Its submission ring 0 in the scratchpad of core 0, with one entry pending. -/
def arriveRing : Ring := ⟨scratchBase, 4, false, true, 0, 0, 1, false⟩

/-- Session 1 is resident and slicing is on; the entry of its ring is an ARRIVE at hurdle 0, where `strayWaiter 63` has a waiter whose STATE is
the cluster's count of arrivals, which stands at 5. -/
def straySubmission : State :=
  { strayWaiter 63 with
    regs := [F.HUR_ARRIVE_CNT_COUNT.entry 5, F.SES_CTRL_EN.entry 1]
    sram := [(scratchBase, 2)]
    ses := { State.reset.ses with sess := [(1, some residentSession)], rings := [(32, some arriveRing)], lru := [32] } }

/-- The eight words of the entry. -/
def arriveEntry : List Nat := [2, 0, 0, 0, 0, 0, 0, 0]

theorem straySubmission_dispatches : dispatches straySubmission 1 residentSession = true ∧
    nextPending straySubmission 1 residentSession = some 0 ∧ straySubmission.ring 1 0 = some arriveRing ∧
    (takeEntry straySubmission 1 0 arriveRing residentSession []).2 = some arriveEntry ∧
    ∀ e ∈ straySubmission.admitted, e.2.clusters = residentSession.clusters → e.2.st ≠ 1 := by decide +kernel

/-- The wake of the waiter writes RUN where the count of arrivals stood. -/
theorem straySubmission_loses_count : straySubmission.rd F.HUR_ARRIVE_CNT_COUNT 0 = 5 ∧
    (submissionArrive straySubmission 1 []).rd F.HUR_ARRIVE_CNT_COUNT 0 = 1 := by decide +kernel

/-- Refutes O37: of an ARRIVE at an open table it says that the count of arrivals advances by 1, whatever queue waits at the hurdle. In
`straySubmission` the arrival ends the wait of a queue number that the device does not have, and its RUN stands in the count. -/
theorem not_submissionsRunAndComplete : ¬ Obligations.SubmissionsRunAndComplete := by
  unfold Obligations.SubmissionsRunAndComplete
  rintro ⟨hdispatch, -⟩
  obtain ⟨hready, hnext, hring, hentry, hnone⟩ := straySubmission_dispatches
  obtain ⟨-, -, -, harrive, -⟩ := hdispatch 1 [] straySubmission _ residentSession 0 arriveRing arriveEntry rfl hready hnext hring
    (Prod.ext rfl hentry) hnone
  obtain ⟨t, hstep, -, -, hopen⟩ := harrive rfl (by decide)
  obtain rfl : submissionArrive straySubmission 1 [] = t := Host.Outcome.next.inj hstep
  obtain ⟨hbefore, hafter⟩ := straySubmission_loses_count
  have hcount : (submissionArrive straySubmission 1 []).rd F.HUR_ARRIVE_CNT_COUNT 0 =
      (straySubmission.rd F.HUR_ARRIVE_CNT_COUNT 0 + 1) % 2 ^ 64 := hopen (by decide)
  rw [hafter, hbefore] at hcount
  exact absurd hcount (by decide)

end Sys2Proof.Machine
end

section
/-!
PROOFS. Kamrus ports (R239-R254, R382, R383): the fields of a port after a write of another of its fields, what the operations on ports and
lanes leave alone, cells that enter a queue, and what a receiver makes of a cell.
-/
namespace Sys2Proof.Machine

/-! ### The fields of a port -/

section
variable (s : State) (p : Fin 12)

theorem port_index_lt : p.val < 131072 := by omega

/-- A field of a port after a write of another of its fields. -/
theorem State.rd_wr_port {f g : Fld} (v : Nat) (h : f.key ≠ g.key) : (s.wr g p v).rd f p = s.rd f p :=
  State.rd_wr_key _ _ h (by omega) (by omega)

theorem State.on_eq_of_rd {s t : State} {f : Fld} {i : Nat} (h : t.rd f i = s.rd f i) : t.on f i = s.on f i := by rw [State.on, h, State.on]

@[simp] theorem State.wr_kport (f : Fld) (i v j : Nat) : (s.wr f i v).kport j = s.kport j := rfl
@[simp] theorem State.emit_kport (o : Out) (j : Nat) : (s.emit o).kport j = s.kport j := rfl
@[simp] theorem State.bump_kport (c : Cnt) (i n j : Nat) : (s.bump c i n).kport j = s.kport j := by simp [State.kport]

theorem State.kport_of_kmr {s t : State} (h : t.kmr = s.kmr) (j : Nat) : t.kport j = s.kport j := by rw [State.kport, h, State.kport]

@[simp] theorem State.kport_setKport (j : Nat) (x : KPort) : (s.setKport j x).kport j = x := Tab.get_set_same _ _ _ _

theorem State.kport_setKport_other {i j : Nat} (h : i ≠ j) (x : KPort) : (s.setKport j x).kport i = s.kport i := Tab.get_set_other _ _ _ _ h

end

/-! ### What the ports leave alone -/

/-- From `s` to `t` the Kamrus ports have worked: of the register fields only those in `l` have changed, in whatever unit, and beside them
nothing but what the ports, the lanes, the network, the stream engines, the tracks and the dictionary hold and what has left the device. -/
structure LinkFrame (l : List Fld) (s t : State) : Prop where
  fields : ∀ (f : Fld) (i : Nat), i < 131072 → (∀ g ∈ l, f.key ≠ g.key) → t.rd f i = s.rd f i
  rest : t = { s with
    regs := t.regs, kmr := t.kmr, lanes := t.lanes, noc := t.noc, streams := t.streams, trk := t.trk, dict := t.dict, outbox := t.outbox }

namespace LinkFrame

variable {l m : List Fld} {s t u : State}

theorem refl (l : List Fld) (s : State) : LinkFrame l s s := ⟨fun _ _ _ _ => rfl, rfl⟩

theorem trans (h : LinkFrame l s t) (h' : LinkFrame l t u) : LinkFrame l s u where
  fields f i hi hf := (h'.fields f i hi hf).trans (h.fields f i hi hf)
  rest := h'.rest.trans (by rw [h.rest])

theorem mono (h : LinkFrame l s t) (hm : l ⊆ m) : LinkFrame m s t :=
  { h with fields := fun f i hi hf => h.fields f i hi fun g hg => hf g (hm hg) }

/-- A change of no register. -/
theorem of_regs (hregs : t.regs = s.regs) (hrest : t = { s with
    regs := t.regs, kmr := t.kmr, lanes := t.lanes, noc := t.noc, streams := t.streams, trk := t.trk, dict := t.dict, outbox := t.outbox }) :
    LinkFrame l s t := ⟨fun f i _ _ => State.rd_of_regs hregs f i, hrest⟩

theorem wr (h : LinkFrame l s t) {f : Fld} {i : Nat} (v : Nat) (hi : i < 131072) (hf : f ∈ l) : LinkFrame l s (t.wr f i v) :=
  h.trans ⟨fun _ _ hj hg => State.rd_wr_key _ _ (hg f hf) hj hi, rfl⟩

theorem bump (h : LinkFrame l s t) {c : Cnt} {i : Nat} (n : Nat) (hi : i < 131072) (hc : c.fld ∈ l) (hw : c.wrapFld ∈ l) :
    LinkFrame l s (t.bump c i n) :=
  h.trans ⟨fun _ _ hj hf => State.rd_bump_other _ _ _ _ _ _ hi hj (.inl (hf _ hc)) (.inl (hf _ hw)), by rw [State.bump_rest]⟩

theorem emit (h : LinkFrame l s t) (o : Out) : LinkFrame l s (t.emit o) := h.trans (.of_regs rfl rfl)

theorem flagMC (h : LinkFrame l s t) {f : Fld} {i : Nat} (hi : i < 131072) (hf : f ∈ l) : LinkFrame l s (t.flagMC f i) := (h.wr 1 hi hf).emit _

theorem owe (h : LinkFrame l s t) (event byte : Nat) : LinkFrame l s (t.owe event byte) := h.trans (.of_regs rfl rfl)

theorem setKmr (h : LinkFrame l s t) (k : Kamrus) : LinkFrame l s (t.setKmr k) := h.trans (.of_regs rfl rfl)

theorem setKport (h : LinkFrame l s t) (j : Nat) (x : KPort) : LinkFrame l s (t.setKport j x) := h.setKmr _

theorem setNoc (h : LinkFrame l s t) (n : Noc) : LinkFrame l s (t.setNoc n) := h.trans (.of_regs rfl rfl)

theorem setTrack (h : LinkFrame l s t) (u : Nat) (k : Track) : LinkFrame l s (t.setTrack u k) := h.trans (.of_regs rfl rfl)

theorem ite {c : Prop} [Decidable c] (ht : LinkFrame l s t) (hu : LinkFrame l s u) : LinkFrame l s (if c then t else u) := by
  split
  · exact ht
  · exact hu

theorem foldl {α : Type} {f : State → α → State} {as : List α} (h : LinkFrame l s t) (hf : ∀ u, ∀ a ∈ as, LinkFrame l u (f u a)) :
    LinkFrame l s (as.foldl f t) :=
  List.foldlRecOn as f (motive := LinkFrame l s) h fun u hu a ha => hu.trans (hf u a ha)

section
variable (h : LinkFrame l s t)
include h

theorem tile : t.tile = s.tile := by rw [h.rest]
theorem sram : t.sram = s.sram := by rw [h.rest]
theorem full : t.full = s.full := by rw [h.rest]
theorem mem : t.mem = s.mem := by rw [h.rest]
theorem sync : t.sync = s.sync := by rw [h.rest]
theorem rst : t.rst = s.rst := by rw [h.rest]

theorem port {f : Fld} (p : Fin 12) (hf : ∀ g ∈ l, f.key ≠ g.key) : t.rd f p = s.rd f p := h.fields f p (port_index_lt p) hf

/-- A field of the device's own. -/
theorem device {f : Fld} (hf : ∀ g ∈ l, f.key ≠ g.key) : t.rd f 0 = s.rd f 0 := h.fields f 0 (by decide) hf

end
end LinkFrame

theorem portActive_congr {s t : State} {p : Nat} (hstate : t.rd F.KMR_STATUS_STATE p = s.rd F.KMR_STATUS_STATE p) (hrst : t.rst = s.rst) :
    portActive t p = portActive s p := by
  have hin (kind i : Nat) : t.inReset kind i = s.inReset kind i := by rw [State.inReset, hrst, State.inReset]
  simp only [portActive, hstate, portDownRst, State.quarterDown, hin]

theorem LinkFrame.portActive {l : List Fld} {s t : State} (h : LinkFrame l s t) (hl : ∀ g ∈ l, F.KMR_STATUS_STATE.key ≠ g.key) {p : Nat}
    (hp : p < 131072) : portActive t p = portActive s p := portActive_congr (h.fields _ _ hp hl) h.rst

/-- What a counter of a port reads after it has counted. -/
theorem State.rd_bump_port (s : State) {c : Cnt} (p : Fin 12) (n : Nat) (hk : c.fld.key ≠ c.wrapFld.key) :
    (s.bump c p n).rd c.fld p = (s.rd c.fld p + n) % 2 ^ c.fld.width := State.rd_bump_same _ _ _ _ hk (port_index_lt p)

/-! ### Lanes (R382, R383, R388) -/

/-- The fields of a lane that a change of its state or a search may change. -/
def laneFields : List Fld :=
  [F.LNE_STAT_STATE, F.LNE_STAT_RATE, F.LNE_STAT_HIST_USED, F.LNE_STAT_TX_ASLEEP, F.LNE_STAT_RX_ASLEEP, F.LNE_EQ_CTLE, F.LNE_EQ_PRESET,
    F.LNE_EQ_DFE, F.LNE_RETRAIN_CNT_COUNT, F.LNE_WRAP_FLAGS]

section
variable (s : State)

theorem startSearch_frame {i : Nat} (hi : i < 131072) (r : Nat) : LinkFrame laneFields s (startSearch s i r) := by
  unfold startSearch
  extract_lets kept full lanes t eq v
  have ht : LinkFrame laneFields s t := .of_regs rfl rfl
  have hv : LinkFrame laneFields s v := .ite ht (((ht.wr _ hi (by decide)).wr _ hi (by decide)).wr _ hi (by decide))
  exact ((hv.wr _ hi (by decide)).wr _ hi (by decide)).wr _ hi (by decide)

theorem startSearch_keeps (i r : Nat) : (startSearch s i r).kmr = s.kmr ∧ (startSearch s i r).outbox = s.outbox := by
  unfold startSearch
  extract_lets kept full lanes t eq v
  change v.kmr = s.kmr ∧ v.outbox = s.outbox
  unfold v
  split <;> exact ⟨rfl, rfl⟩

theorem trainKept_frame {i : Nat} (hi : i < 131072) (r : Nat) : LinkFrame laneFields s (trainKept s i r) :=
  (((((LinkFrame.refl _ s).wr _ hi (by decide)).wr _ hi (by decide)).wr _ hi (by decide)).wr _ hi (by decide)).wr _ hi (by decide)

theorem retrainLanes_frame (p : Fin 12) (chosen : Option Nat) {ls : List Nat} (hls : ∀ i ∈ ls, i < 64) :
    LinkFrame laneFields s (retrainLanes s p chosen ls) := by
  refine (LinkFrame.refl _ s).foldl fun u i hi => ?_
  have hlane : laneOf p i < 131072 := by
    have := hls i hi
    unfold laneOf
    omega
  have hawake : LinkFrame laneFields u (((u.wr F.LNE_STAT_TX_ASLEEP (laneOf p i) 0).wr F.LNE_STAT_RX_ASLEEP (laneOf p i) 0).bump
      C.LNE_RETRAIN_CNT (laneOf p i) 1) :=
    (((LinkFrame.refl _ u).wr _ hlane (by decide)).wr _ hlane (by decide)).bump _ hlane (by decide) (by decide)
  refine .ite ?_ (.refl _ u)
  cases chosen with
  | some r => exact hawake.trans (trainKept_frame _ hlane r)
  | none => exact hawake.trans (startSearch_frame _ hlane _)

/-- Lanes that retrain concern no port's cells, and send nothing. -/
theorem retrainLanes_keeps (p : Nat) (chosen : Option Nat) (ls : List Nat) :
    (retrainLanes s p chosen ls).kmr = s.kmr ∧ (retrainLanes s p chosen ls).outbox = s.outbox := by
  refine List.foldlRecOn ls _ (motive := fun t : State => t.kmr = s.kmr ∧ t.outbox = s.outbox) ⟨rfl, rfl⟩ fun t ht i _ => ?_
  dsimp only
  split
  · cases chosen with
    | some r => exact ⟨(State.bump_kmr _ _ _ _).trans ht.1, (State.bump_outbox _ _ _ _).trans ht.2⟩
    | none => exact ⟨((startSearch_keeps _ _ _).1.trans (State.bump_kmr _ _ _ _)).trans ht.1,
        ((startSearch_keeps _ _ _).2.trans (State.bump_outbox _ _ _ _)).trans ht.2⟩
  · exact ht

theorem setLanes_frame (p : Fin 12) (st : Nat) {ls : List Nat} (hls : ∀ i ∈ ls, i < 64) : LinkFrame laneFields s (setLanes s p st ls) :=
  (LinkFrame.refl _ s).foldl fun u i hi => .ite ((LinkFrame.refl _ u).wr _ (by have := hls i hi; unfold laneOf; omega) (by decide)) (.refl _ u)

theorem setLanes_keeps (p st : Nat) (ls : List Nat) : (setLanes s p st ls).kmr = s.kmr ∧ (setLanes s p st ls).outbox = s.outbox :=
  ⟨foldl_keeps State.kmr ls s fun _ _ => by split <;> rfl, foldl_keeps State.outbox ls s fun _ _ => by split <;> rfl⟩

end

/-! ### Cells that enter a queue (R250, R257) -/

/-- The port with a cell at the end of a queue. -/
def KPort.add (x : KPort) (c : Cell) : KPort :=
  { x with queues := Tab.set [] x.queues (cellQueue c) (Tab.get [] x.queues (cellQueue c) ++ [(c, false)]) }

theorem KPort.add_queue (x : KPort) (c : Cell) :
    Tab.get [] (x.add c).queues (cellQueue c) = Tab.get [] x.queues (cellQueue c) ++ [(c, false)] := Tab.get_set_same _ _ _ _

/-- A cell of this device's own that no channel carries enters its queue at an ACTIVE port. -/
theorem enqueueCell_own {s : State} {p : Nat} {c : Cell} (hactive : portActive s p = true) (hc : c.sched = false) :
    enqueueCell s p c false = s.setKport p ((s.kport p).add c) := by
  simp [enqueueCell, hactive, hc, KPort.add]

/-- From `s` to `t` nothing has changed but what ACTIVE ports hold. -/
structure Queued (s t : State) : Prop where
  rest : t = { s with kmr := { s.kmr with ports := t.kmr.ports } }
  down : ∀ i, portActive s i = false → t.kport i = s.kport i

namespace Queued

variable {s t u : State}

theorem refl (s : State) : Queued s s := ⟨rfl, fun _ _ => rfl⟩

theorem regs (h : Queued s t) : t.regs = s.regs := by rw [h.rest]

theorem rd (h : Queued s t) (f : Fld) (i : Nat) : t.rd f i = s.rd f i := State.rd_of_regs h.regs f i

theorem active (h : Queued s t) (p : Nat) : portActive t p = portActive s p := portActive_congr (h.rd _ _) (by rw [h.rest])

theorem trans (h : Queued s t) (h' : Queued t u) : Queued s u where
  rest := h'.rest.trans (by rw [h.rest])
  down i hi := (h'.down i ((h.active i).trans hi)).trans (h.down i hi)

theorem frame (h : Queued s t) (l : List Fld) : LinkFrame l s t := .of_regs h.regs (h.rest.trans (by rw [h.rest]))

theorem setKport (s : State) {p : Nat} (hp : portActive s p = true) (x : KPort) : Queued s (s.setKport p x) where
  rest := rfl
  down i hi := State.kport_setKport_other _ (fun e => by rw [e, hp] at hi; cases hi) _

/-- The kamrus state but its ports. -/
theorem kmr (h : Queued s t) : t.kmr = { s.kmr with ports := t.kmr.ports } := by rw [h.rest]

theorem outbox (h : Queued s t) : t.outbox = s.outbox := by rw [h.rest]

end Queued

theorem sendHello_queued (s : State) (p : Nat) (assign : Option (Nat × Nat)) : Queued s (sendHello s p assign) := by
  unfold sendHello
  split
  · rename_i hp
    rw [enqueueCell_own hp rfl]
    exact .setKport s hp _
  · exact .refl s

theorem sendHellos_queued (s : State) : Queued s (sendHellos s) :=
  List.foldlRecOn _ _ (motive := Queued s) (.refl s) fun t ht p _ => ht.trans (sendHello_queued t p none)

theorem startRebuild_worker {s : State} (h : kmrRole s = 0) : startRebuild s = s := if_pos h

/-- A manager that rebuilds its start list has no reports yet, and greets on its ports (R260). -/
theorem startRebuild_manager {s : State} (h : kmrRole s ≠ 0) :
    Queued (s.setKmr { s.kmr with rebuild := true, reports := [] }) (startRebuild s) := by
  rw [startRebuild, if_neg h]
  exact sendHellos_queued _

/-- A rebuild that starts changes nothing but what ACTIVE ports hold and the state of the rebuild. -/
theorem startRebuild_rest (s : State) :
    startRebuild s = { s with kmr := { s.kmr with
      ports := (startRebuild s).kmr.ports, rebuild := (startRebuild s).kmr.rebuild, reports := (startRebuild s).kmr.reports } } := by
  by_cases h : kmrRole s = 0
  · rw [startRebuild_worker h]
  · rw [(startRebuild_manager h).rest]
    rfl

theorem startRebuild_regs (s : State) : (startRebuild s).regs = s.regs := by rw [startRebuild_rest]

theorem startRebuild_frame (s : State) (l : List Fld) : LinkFrame l s (startRebuild s) :=
  .of_regs (startRebuild_regs s) ((startRebuild_rest s).trans (by rw [startRebuild_rest s]))

theorem startRebuild_down {s : State} {i : Nat} (hi : portActive s i = false) : (startRebuild s).kport i = s.kport i := by
  by_cases h : kmrRole s = 0
  · rw [startRebuild_worker h]
  · exact (startRebuild_manager h).down i hi

/-! ### Receiving (R244, R247) -/

/-- The fields of a port that a received cell may change. -/
def receiveFields : List Fld :=
  [F.KMR_RX_CELL_CNT_COUNT, F.KMR_CELL_LOST_CNT_COUNT, F.KMR_CELL_DROP_CNT_COUNT, F.KMR_WRAP_FLAGS, F.KMR_STATUS_LOST]

theorem receiveCell_frame (s : State) (p : Fin 12) (c : Cell) : LinkFrame receiveFields s (receiveCell s p c).1 := by
  have hp := port_index_lt p
  have hcount : LinkFrame receiveFields s (s.bump C.KMR_RX_CELL_CNT p 1) := (LinkFrame.refl _ s).bump _ hp (by decide) (by decide)
  have hdrop {t : State} (h : LinkFrame receiveFields s t) : LinkFrame receiveFields s (countDrop t p) :=
    h.bump (c := C.KMR_CELL_DROP_CNT) _ hp (by decide) (by decide)
  unfold receiveCell
  extract_lets x t d t1 t2
  have ht2 : LinkFrame receiveFields s t2 :=
    .ite (((((hcount.setKport _ _).bump (c := C.KMR_CELL_LOST_CNT) _ hp (by decide) (by decide)).flagMC hp (by decide))).owe _ _) (hcount.setKport _ _)
  split_ifs
  · exact .refl _ s
  · exact (LinkFrame.refl _ s).setKport _ _
  · exact .refl _ s
  · exact ((hdrop hcount).flagMC hp (by decide)).owe _ _
  · exact hdrop ht2
  · exact ht2

theorem receiveCell_inactive {s : State} {p : Nat} {c : Cell} (h : portActive s p = false) : receiveCell s p c = (s, false) := by
  simp [receiveCell, h]

/-- A cell that is accepted came to an ACTIVE port. -/
theorem receiveCell_active {s u : State} {p : Fin 12} {c : Cell} (h : receiveCell s p c = (u, true)) : portActive u p = true := by
  have hframe : LinkFrame receiveFields s u := by simpa [h] using receiveCell_frame s p c
  rw [hframe.portActive (by decide) (port_index_lt p)]
  by_contra hdown
  rw [receiveCell_inactive (Bool.eq_false_iff.2 hdown)] at h
  cases h

/-- What a cell that is the first one from a partner leaves: it is counted, and its SEQ is known. -/
def firstCell (s : State) (p : Nat) (c : Cell) : State :=
  (s.bump C.KMR_RX_CELL_CNT p 1).setKport p { s.kport p with rxSeq := some (c.seq % 2 ^ 32) }

theorem firstCell_rest (s : State) (p : Nat) (c : Cell) :
    firstCell s p c = { s with regs := (firstCell s p c).regs, kmr := { s.kmr with ports := (firstCell s p c).kmr.ports } } := by
  unfold firstCell
  rw [State.bump_rest]
  rfl

theorem firstCell_frame (s : State) (p : Fin 12) (c : Cell) : LinkFrame [F.KMR_RX_CELL_CNT_COUNT, F.KMR_WRAP_FLAGS] s (firstCell s p c) :=
  ((LinkFrame.refl _ s).bump (c := C.KMR_RX_CELL_CNT) _ (port_index_lt p) (by decide) (by decide)).setKport _ _

@[simp] theorem firstCell_kport (s : State) (p : Nat) (c : Cell) :
    (firstCell s p c).kport p = { s.kport p with rxSeq := some (c.seq % 2 ^ 32) } := State.kport_setKport _ _ _

section
variable {s : State} {p : Nat} {c : Cell}

theorem receiveCell_spoiled (h : portActive s p = true) (hs : 0 < (s.kport p).spoiled) :
    receiveCell s p c = (s.setKport p { s.kport p with spoiled := (s.kport p).spoiled - 1 }, false) := by simp [receiveCell, h, hs]

section
variable (h : portActive s p = true) (hs : (s.kport p).spoiled = 0)
include h hs

theorem receiveCell_idle (hc : c.typ = 0) : receiveCell s p c = (s, false) := by simp [receiveCell, h, hs, hc]

/-- The first cell from a partner is accepted, whatever its SEQ. -/
theorem receiveCell_first (hq : (s.kport p).rxSeq = none) (hc : c.typ ≠ 0) (hc' : c.typ ≤ 5) : receiveCell s p c = (firstCell s p c, true) := by
  simp [receiveCell, h, hs, hc, hq, firstCell, Nat.not_lt.2 hc']

/-- A cell with the SEQ of the last one is a repeated one (R249). -/
theorem receiveCell_repeated {l : Nat} (hq : (s.kport p).rxSeq = some l) (hc : c.typ ≠ 0) (hl : c.seq = l) :
    receiveCell s p c =
      (((countDrop (s.bump C.KMR_RX_CELL_CNT p 1) p).flagMC F.KMR_STATUS_LOST p).owe 0x2A000001 (p / 3), false) := by
  have hd : (c.seq + 2 ^ 32 - l) % 2 ^ 32 = 0 := by omega
  simp only [receiveCell, h, hs, hq, hd, hc, Bool.not_true, Bool.false_eq_true, if_false, Nat.lt_irrefl, true_or, if_true]

end

/-! ### Where a received cell goes (R245, R302) -/

theorem cellArrives_refused {typ : Nat} {u : State} (f : State → State) (h : receiveCell s p c = (u, false)) : cellArrives s p typ c f = u := by
  simp [cellArrives, h]

theorem cellArrives_here {typ : Nat} {u : State} (f : State → State) (h : receiveCell s p c = (u, true)) (ht : c.typ = typ)
    (hd : c.dst = s.node) : cellArrives s p typ c f = f u := by
  simp [cellArrives, h, ht, hd]

theorem cellArrives_relayed {typ : Nat} {u : State} (f : State → State) (h : receiveCell s p c = (u, true)) (ht : c.typ = typ)
    (hd : c.dst ≠ s.node) : cellArrives s p typ c f = relayCell u p c := by
  simp [cellArrives, h, ht, hd]

theorem linkCell_here {sub : Nat} {u : State} (f : State → State) (h : receiveCell s p c = (u, true)) (ht : c.typ = 5)
    (hsub : natAt c.payload 0 1 = sub) : linkCell s p sub c f = f u := by
  simp [linkCell, h, ht, hsub]

end

end Sys2Proof.Machine
end

section
/-!
PROOFS. The slot table (R252, R253): a swap that is asked for, one that is applied at slot 0, and writes of the active and of the inactive bank.
-/
namespace Sys2Proof.Machine

section
variable (s : State) (p : Fin 12)

/-- SWAP written 1 asks for the other bank, and changes nothing else. -/
theorem swap_asks : ∃ t, exec (.swap p) s = .next t ∧ t.rd F.KMR_FRAME_SWAP p = 1 ∧ SameRegs s t [(F.KMR_FRAME_SWAP, p.val)] ∧
    t = { s with regs := t.regs } :=
  ⟨s.wr F.KMR_FRAME_SWAP p 1, rfl, State.rd_wr_same _ _ _ _, .wr s _ _ _ (port_index_lt p) (by simp), rfl⟩

theorem applySwap_waits (h : s.on F.KMR_FRAME_SWAP p = false ∨ (s.kport p).slot ≠ 0) : applySwap s p = s :=
  if_neg (by rcases h with h | h <;> simp [h])

/-- At slot 0 the other bank becomes active, and SWAP clears. -/
theorem applySwap_swaps (hasked : s.on F.KMR_FRAME_SWAP p = true) (hslot : (s.kport p).slot = 0) :
    let t := applySwap s p
    t.rd F.KMR_FRAME_BANK p = 1 - s.rd F.KMR_FRAME_BANK p ∧ t.rd F.KMR_FRAME_SWAP p = 0 ∧
      SameRegs s t [(F.KMR_FRAME_BANK, p.val), (F.KMR_FRAME_SWAP, p.val)] ∧ t = { s with regs := t.regs } := by
  have hp := port_index_lt p
  have ht : applySwap s p = (s.wr F.KMR_FRAME_BANK p (1 - s.rd F.KMR_FRAME_BANK p)).wr F.KMR_FRAME_SWAP p 0 :=
    if_pos (by simp [hasked, hslot])
  rw [ht]
  refine ⟨?_, State.rd_wr_same _ _ _ _, (SameRegs.wr s _ _ _ hp (by simp)).wr' _ _ _ hp (by simp), rfl⟩
  rw [State.rd_wr_port _ _ _ (by decide), State.rd_wr_same]
  exact Nat.mod_eq_of_lt (Nat.lt_of_le_of_lt (Nat.sub_le _ _) (by decide))

/-- The banks of a port: a swap is asked for, applied at slot 0, and waits until then. -/
theorem slotBanks_swap :
    (∃ t, exec (.swap p) s = .next t ∧ t.rd F.KMR_FRAME_SWAP p = 1 ∧ SameRegs s t [(F.KMR_FRAME_SWAP, p.val)] ∧ t = { s with regs := t.regs }) ∧
    (s.on F.KMR_FRAME_SWAP p = true → (s.kport p).slot = 0 → s.rd F.KMR_FRAME_BANK p ≤ 1 → ∃ t, exec (.bankSwapApply p) s = .next t ∧
      t.rd F.KMR_FRAME_BANK p = 1 - s.rd F.KMR_FRAME_BANK p ∧ t.rd F.KMR_FRAME_SWAP p = 0 ∧
      SameRegs s t [(F.KMR_FRAME_BANK, p.val), (F.KMR_FRAME_SWAP, p.val)] ∧ t = { s with regs := t.regs }) ∧
    (s.on F.KMR_FRAME_SWAP p = false ∨ (s.kport p).slot ≠ 0 → exec (.bankSwapApply p) s = .next s) :=
  ⟨swap_asks s p, fun hasked hslot _ => ⟨_, rfl, applySwap_swaps s p hasked hslot⟩,
    fun h => congrArg Host.Outcome.next (applySwap_waits s p h)⟩

/-- A 64-bit write of the control window by the management controller at a place of the slot table that answers. -/
theorem registerWrite_slotTable {off n : Nat} (v : Word) (haligned : off % 8 = 0) (hreg : regAt off = some (.KMR_SLOT_TABLE, n))
    (hplace : noSuchPlace off = false) (htarget : targetAt off = none) (hup : regDown s Reg.KMR_SLOT_TABLE.place n = false) :
    exec (.registerWrite off 8 v) s = .next (slotTableWrite s n v.toNat) := by
  have hwhole : off / 8 * 8 = off := by omega
  have hwrite : regWrite s mcUnit .KMR_SLOT_TABLE n none v.toNat = (slotTableWrite s n v.toNat, .ok 0) := rfl
  rw [exec_registerWrite, windowWrite]
  simp [accessHalf, haligned, hplace, htarget, hwhole, hreg, hup, hwrite, showAns]

/-- An entry of the table keeps the channels and kinds of its two slots (R252). -/
theorem slotEntry_lt (v : Nat) : v &&& 0x000000FF000000FF < 2 ^ 64 := Nat.lt_of_le_of_lt Nat.and_le_right (by decide)

end

/-- Settles O59: SWAP and its application by the two fields they write, a write of the table by the bank that its entry lies in. -/
theorem slotTableBankSwapsAtSlotZero : Obligations.SlotTableBankSwapsAtSlotZero := by
  unfold Obligations.SlotTableBankSwapsAtSlotZero
  refine ⟨fun p s => slotBanks_swap s p, fun p b i off v s => ?_⟩
  intro n haligned hreg hplace htarget hup
  have hn : n < 131072 ∧ n / 4096 = p ∧ n % 4096 / 2048 = b := by
    unfold n
    omega
  obtain ⟨hlt, hport, hbank⟩ := hn
  rw [registerWrite_slotTable s v haligned hreg hplace htarget hup, slotTableWrite, hport, hbank]
  refine ⟨fun hactive => by rw [if_pos hactive], fun hinactive => ⟨_, by rw [if_neg hinactive], ?_, .wr s _ _ _ hlt (by simp), rfl⟩⟩
  exact (State.rd_wr_same _ _ _ _).trans (Nat.mod_eq_of_lt (slotEntry_lt _))

end Sys2Proof.Machine
end

section
/-!
PROOFS. Negotiation of a port (R239-R242, R383): the mode that both ends choose, and what an exchange, a missing bit lock and a retry leave.
-/
namespace Sys2Proof.Machine

/-! ### The mode that both ends choose (R241) -/

/-- The modes lie within the fields that show them. -/
theorem modesInOrder_lt : ∀ m ∈ modesInOrder, m.1 < 4 ∧ m.2.1 < 4 ∧ m.2.2.1 < 2 ∧ m.2.2.2 < 8 := by decide

theorem chooseMode_mem {s : State} {p : Nat} {m : Nat × Nat × Nat × Nat} (h : chooseMode s p = some m) : m ∈ modesInOrder :=
  List.mem_of_find?_eq_some h

/-- The choice looks at the masks of both ends and at what this end offers. -/
theorem LinkFrame.chooseMode {l : List Fld} {s t : State} (h : LinkFrame l s t) (p : Fin 12)
    (hl : ∀ f ∈ [F.KMR_CTRL_CAP_RATE, F.KMR_CTRL_CAP_LANES, F.KMR_CTRL_CAP_FEC], ∀ g ∈ l, f.key ≠ g.key) (hx : t.kport p = s.kport p) :
    chooseMode t p = chooseMode s p := by
  rw [Machine.chooseMode, hx, h.port p (hl _ (by simp)), h.port p (hl _ (by simp)), h.port p (hl _ (by simp)), Machine.chooseMode]

section
variable (s : State) (p : Fin 12)

/-- A port that has chosen a mode, before its lanes retrain. -/
def modeChosen (m : Nat × Nat × Nat × Nat) : State :=
  (((((s.wr F.KMR_STATUS_STATE p 2).wr F.KMR_MODE_LANES p m.1).wr F.KMR_MODE_RATE p m.2.1).wr F.KMR_MODE_FEC p m.2.2.1).wr
    F.KMR_MODE_GROUP p m.2.2.2).setKport p { s.kport p with chosen := true, noMode := false }

/-- The fields that show a chosen mode. -/
def modeFields : List Fld := [F.KMR_STATUS_STATE, F.KMR_MODE_LANES, F.KMR_MODE_RATE, F.KMR_MODE_FEC, F.KMR_MODE_GROUP]

theorem modeChosen_frame (m : Nat × Nat × Nat × Nat) : LinkFrame modeFields s (modeChosen s p m) := by
  have hp := port_index_lt p
  exact .setKport (.wr (.wr (.wr (.wr (.wr (.refl _ s) _ hp (by decide)) _ hp (by decide)) _ hp (by decide)) _ hp (by decide)) _ hp (by decide)) _ _

theorem modeChosen_shows {m : Nat × Nat × Nat × Nat} (hm : m ∈ modesInOrder) :
    let t := modeChosen s p m
    t.rd F.KMR_STATUS_STATE p = 2 ∧ t.rd F.KMR_MODE_LANES p = m.1 ∧ t.rd F.KMR_MODE_RATE p = m.2.1 ∧ t.rd F.KMR_MODE_FEC p = m.2.2.1 ∧
      t.rd F.KMR_MODE_GROUP p = m.2.2.2 := by
  obtain ⟨hlanes, hrate, hfec, hgroup⟩ := modesInOrder_lt m hm
  simp (disch := decide) only [modeChosen, State.setKport_frame, State.rd_wr_port, State.rd_wr_same]
  exact ⟨rfl, Nat.mod_eq_of_lt hlanes, Nat.mod_eq_of_lt hrate, Nat.mod_eq_of_lt hfec, Nat.mod_eq_of_lt hgroup⟩

/-- The group of a mode that is chosen lies among the lanes. -/
theorem modeChosen_lanes {m : Nat × Nat × Nat × Nat} (hm : m ∈ modesInOrder) : ∀ i ∈ groupLanes (modeChosen s p m) p, i < 64 := by
  obtain ⟨-, -, -, -, hgroup⟩ := modeChosen_shows s p hm
  intro i hi
  obtain ⟨j, hj, rfl⟩ := List.mem_map.1 hi
  have hj := List.mem_range.1 hj
  have hn : 8 / 2 ^ (modeChosen s p m).rd F.KMR_MODE_LANES p ≤ 8 := Nat.div_le_self _ _
  have hg : (modeChosen s p m).rd F.KMR_MODE_GROUP p ≤ 7 := by
    have := (modesInOrder_lt m hm).2.2.2
    omega
  have hprod := Nat.mul_le_mul hn hg
  omega

/-- MODE_LOW shown (R242), and signalled when it is set. -/
def showModeLow (c : Bool) : State := if c then s.flagMC F.KMR_STATUS_MODE_LOW p else s.wr F.KMR_STATUS_MODE_LOW p 0

theorem showModeLow_frame (c : Bool) : LinkFrame [F.KMR_STATUS_MODE_LOW] s (showModeLow s p c) :=
  .ite ((LinkFrame.refl _ s).flagMC (port_index_lt p) (by decide)) ((LinkFrame.refl _ s).wr _ (port_index_lt p) (by decide))

theorem showModeLow_kmr (c : Bool) : (showModeLow s p c).kmr = s.kmr := by cases c <;> rfl

theorem showModeLow_outbox (c : Bool) : s.outbox <:+ (showModeLow s p c).outbox := by
  cases c
  · exact List.suffix_rfl
  · exact List.suffix_cons _ _

theorem showModeLow_shows (c : Bool) : (showModeLow s p c).rd F.KMR_STATUS_MODE_LOW p = 1 ↔ c = true := by
  cases c
  · exact iff_of_false (by rw [showModeLow, if_neg (by decide), State.rd_wr_same]; decide) (by decide)
  · exact iff_of_true (State.flagMC_rd_same _ _ _) rfl

/-! ### Negotiation (R241, R242) -/

theorem chooseMode_training : chooseMode (s.wr F.KMR_STATUS_STATE p 2) p = chooseMode s p :=
  LinkFrame.chooseMode ((LinkFrame.refl [F.KMR_STATUS_STATE] s).wr _ (port_index_lt p) (by decide)) p (by decide) rfl

theorem negotiatePort_none (h : chooseMode s p = none) :
    negotiatePort s p =
      ((s.wr F.KMR_STATUS_STATE p 2).setKport p { s.kport p with chosen := false, noMode := true }).wr F.KMR_STATUS_NO_MODE p 1 := by
  simp only [negotiatePort, chooseMode_training, h]
  rfl

/-- The lanes of a chosen mode's group retrain. -/
def modeTrained (m : Nat × Nat × Nat × Nat) : State :=
  retrainLanes (modeChosen s p m) p (some m.2.1) (groupLanes (modeChosen s p m) p)

theorem negotiatePort_some {m : Nat × Nat × Nat × Nat} (h : chooseMode s p = some m) :
    negotiatePort s p = showModeLow (modeTrained s p m) p (decide ((modeTrained s p m).rd F.KMR_CTRL_MIN_RAW p < m.1 + m.2.1)) := by
  simp only [negotiatePort, chooseMode_training, h, showModeLow, decide_eq_true_eq]
  rfl

theorem modeTrained_frame {m : Nat × Nat × Nat × Nat} (hm : m ∈ modesInOrder) : LinkFrame laneFields (modeChosen s p m) (modeTrained s p m) :=
  retrainLanes_frame _ p _ (modeChosen_lanes s p hm)

/-- A port without a mode that both ends allow shows it, and waits to train again. -/
theorem negotiatePort_noMode (h : chooseMode s p = none) :
    let t := negotiatePort s p
    t.rd F.KMR_STATUS_STATE p = 2 ∧ t.rd F.KMR_STATUS_NO_MODE p = 1 ∧ t.kport p = { s.kport p with chosen := false, noMode := true } := by
  rw [negotiatePort_none s p h]
  refine ⟨?_, State.rd_wr_same _ _ _ _, State.kport_setKport _ _ _⟩
  rw [State.rd_wr_port _ _ _ (by decide)]
  exact State.rd_wr_same s F.KMR_STATUS_STATE p 2

/-- A port that has chosen a mode shows it, and whether it is below the least raw rate of KMR_CTRL. -/
theorem negotiatePort_chooses {m : Nat × Nat × Nat × Nat} (h : chooseMode s p = some m) :
    let t := negotiatePort s p
    t.rd F.KMR_STATUS_STATE p = 2 ∧ t.rd F.KMR_MODE_LANES p = m.1 ∧ t.rd F.KMR_MODE_RATE p = m.2.1 ∧ t.rd F.KMR_MODE_FEC p = m.2.2.1 ∧
      t.rd F.KMR_MODE_GROUP p = m.2.2.2 ∧ t.kport p = { s.kport p with chosen := true, noMode := false } ∧
      (t.rd F.KMR_STATUS_MODE_LOW p = 1 ↔ s.rd F.KMR_CTRL_MIN_RAW p < m.1 + m.2.1) := by
  have hm := chooseMode_mem h
  have htrained := modeTrained_frame s p hm
  obtain ⟨hstate, hlanes, hrate, hfec, hgroup⟩ := modeChosen_shows s p hm
  have hlow := showModeLow_frame (modeTrained s p m) p (decide ((modeTrained s p m).rd F.KMR_CTRL_MIN_RAW p < m.1 + m.2.1))
  have hshown {f : Fld} (hf : ∀ g ∈ laneFields, f.key ≠ g.key) (hf' : ∀ g ∈ [F.KMR_STATUS_MODE_LOW], f.key ≠ g.key) :
      (negotiatePort s p).rd f p = (modeChosen s p m).rd f p := by
    rw [negotiatePort_some s p h]
    exact (hlow.port p hf').trans (htrained.port p hf)
  have hmin : (modeTrained s p m).rd F.KMR_CTRL_MIN_RAW p = s.rd F.KMR_CTRL_MIN_RAW p :=
    (htrained.port p (by decide)).trans ((modeChosen_frame s p m).port p (by decide))
  refine ⟨(hshown (by decide) (by decide)).trans hstate, (hshown (by decide) (by decide)).trans hlanes,
    (hshown (by decide) (by decide)).trans hrate, (hshown (by decide) (by decide)).trans hfec, (hshown (by decide) (by decide)).trans hgroup, ?_, ?_⟩
  · rw [negotiatePort_some s p h, State.kport_of_kmr (showModeLow_kmr _ _ _), modeTrained, State.kport_of_kmr (retrainLanes_keeps _ _ _ _).1,
      modeChosen, State.kport_setKport]
  · rw [negotiatePort_some s p h, showModeLow_shows, hmin, decide_eq_true_eq]

/-- The fields that negotiation of a port may change. -/
def negotiationFields : List Fld := F.KMR_STATUS_NO_MODE :: F.KMR_STATUS_MODE_LOW :: (modeFields ++ laneFields)

/-- Negotiation whatever its end: the port is in NEGOTIATING, with its masks as they were, and outputs are only added. -/
theorem negotiatePort_negotiates :
    let t := negotiatePort s p
    t.rd F.KMR_STATUS_STATE p = 2 ∧ (t.kport p).own = (s.kport p).own ∧ LinkFrame negotiationFields s t ∧ s.outbox <:+ t.outbox := by
  have hp := port_index_lt p
  cases h : chooseMode s p with
  | none =>
    obtain ⟨hstate, -, hport⟩ := negotiatePort_noMode s p h
    refine ⟨hstate, by rw [hport], ?_, ?_⟩ <;> rw [negotiatePort_none s p h]
    · exact (((LinkFrame.refl _ s).wr _ hp (by decide)).setKport _ _).wr _ hp (by decide)
    · exact List.suffix_rfl
  | some m =>
    obtain ⟨hstate, -, -, -, -, hport, -⟩ := negotiatePort_chooses s p h
    have htrained : s.outbox = (modeTrained s p m).outbox := (retrainLanes_keeps (modeChosen s p m) _ _ _).2.symm
    refine ⟨hstate, by rw [hport], ?_, ?_⟩ <;> rw [negotiatePort_some s p h]
    · exact (((modeChosen_frame s p m).mono fun f hf => by simp [negotiationFields, hf]).trans
        ((modeTrained_frame s p (chooseMode_mem h)).mono fun f hf => by simp [negotiationFields, hf])).trans
        ((showModeLow_frame _ p _).mono (by simp [negotiationFields]))
    · rw [htrained]
      exact showModeLow_outbox _ p _

end

/-! ### The exchange (R241, R390) -/

/-- A port that has its partner's masks. -/
def partnerMasks (s : State) (p m224 m112 m56 fec sleep : Nat) : State :=
  s.setKport p { s.kport p with theirs := (m224, m112, m56), theirFec := fec, theirSleep := sleep }

/-- The lanes with block lock wait for the mode, and the masks are shown. -/
def masksShown (s : State) (p m224 m112 m56 : Nat) : State :=
  let t := s.wr F.KMR_MODE_PMASKS p (m224 + m112 * 2 ^ 8 + m56 * 2 ^ 16)
  setLanes t p 5 ((List.range 8).filter (fun i => decide (bit (t.kport p).own.2.2 i = 1)))

section
variable (s : State) (p : Fin 12) (m224 m112 m56 : Fin 256) (fec : Fin 4) (sleep : Fin 256)

theorem capabilityExchange_active (h : s.rd F.KMR_STATUS_STATE p = 3) : capabilityExchange s p m224 m112 m56 fec sleep = s := if_pos (by simp [h])

theorem capabilityExchange_eq (hup : portDownRst s p = false) (hen : s.on F.KMR_CTRL_EN p = true) (hstate : s.rd F.KMR_STATUS_STATE p ≠ 3)
    (hlock : (s.kport p).own.2.2 % 256 ≠ 0) :
    capabilityExchange s p m224 m112 m56 fec sleep =
      negotiatePort (masksShown (partnerMasks s p m224 m112 m56 fec sleep) p m224 m112 m56) p := by
  have hmod {n : Nat} (i : Fin n) : i.val % n = i.val := Nat.mod_eq_of_lt i.isLt
  rw [capabilityExchange, if_neg (by simp [hup, hen, hstate, hlock]), hmod m224, hmod m112, hmod m56, hmod fec, hmod sleep]
  rfl

theorem masksShown_frame : LinkFrame (F.KMR_MODE_PMASKS :: laneFields) s (masksShown s p m224 m112 m56) :=
  ((LinkFrame.refl _ s).wr _ (port_index_lt p) (by decide)).trans
    ((setLanes_frame _ p 5 (fun i hi => by have := List.mem_range.1 (List.mem_filter.1 hi).1; omega)).mono (List.subset_cons_self _ _))

theorem masksShown_kmr : (masksShown s p m224 m112 m56).kmr = s.kmr := (setLanes_keeps _ _ _ _).1

theorem masksShown_masks : (masksShown s p m224 m112 m56).rd F.KMR_MODE_PMASKS p = m224 + m112 * 2 ^ 8 + m56 * 2 ^ 16 := by
  rw [masksShown, (setLanes_frame _ p 5 (fun i hi => by have := List.mem_range.1 (List.mem_filter.1 hi).1; omega)).port p (by decide),
    State.rd_wr_same]
  exact Nat.mod_eq_of_lt (by simp only [F.KMR_MODE_PMASKS]; omega)

/-- An exchange at a port that trains: what it stores and what it settles on. -/
theorem capabilityExchange_negotiates (hup : portDownRst s p = false) (hen : s.on F.KMR_CTRL_EN p = true)
    (hstate : s.rd F.KMR_STATUS_STATE p ≠ 3) (hlock : (s.kport p).own.2.2 % 256 ≠ 0) :
    let s1 := partnerMasks s p m224 m112 m56 fec sleep
    let t := capabilityExchange s p m224 m112 m56 fec sleep
    t.rd F.KMR_STATUS_STATE p = 2 ∧ t.rd F.KMR_MODE_PMASKS p = m224 + m112 * 2 ^ 8 + m56 * 2 ^ 16 ∧ t.tile = s.tile ∧ t.sram = s.sram ∧
      (chooseMode s1 p = none → t.rd F.KMR_STATUS_NO_MODE p = 1 ∧ (t.kport p).noMode = true ∧ (t.kport p).chosen = false) ∧
      (∀ l r f g, chooseMode s1 p = some (l, r, f, g) → t.rd F.KMR_MODE_LANES p = l ∧ t.rd F.KMR_MODE_RATE p = r ∧ t.rd F.KMR_MODE_FEC p = f ∧
        t.rd F.KMR_MODE_GROUP p = g ∧ (t.kport p).chosen = true ∧ (t.rd F.KMR_STATUS_MODE_LOW p = 1 ↔ s.rd F.KMR_CTRL_MIN_RAW p < l + r)) := by
  intro s1 t
  have ht : t = negotiatePort (masksShown s1 p m224 m112 m56) p := capabilityExchange_eq s p m224 m112 m56 fec sleep hup hen hstate hlock
  have hmasks : LinkFrame (F.KMR_MODE_PMASKS :: laneFields) s (masksShown s1 p m224 m112 m56) :=
    ((LinkFrame.refl _ s).setKport _ _).trans (masksShown_frame s1 p m224 m112 m56)
  have hchoose : chooseMode (masksShown s1 p m224 m112 m56) p = chooseMode s1 p :=
    (masksShown_frame s1 p m224 m112 m56).chooseMode p (by decide) (State.kport_of_kmr (masksShown_kmr _ _ _ _ _) _)
  obtain ⟨hnegotiating, -, hframe, -⟩ := negotiatePort_negotiates (masksShown s1 p m224 m112 m56) p
  have hall := hmasks.mono (List.subset_append_left _ negotiationFields) |>.trans (hframe.mono (List.subset_append_right _ _))
  rw [ht]
  refine ⟨hnegotiating, (hframe.port p (by decide)).trans (masksShown_masks _ _ _ _ _), hall.tile, hall.sram, fun hnone => ?_,
    fun l r f g hsome => ?_⟩
  · obtain ⟨-, hshown, hport⟩ := negotiatePort_noMode (masksShown s1 p m224 m112 m56) p (hchoose.trans hnone)
    exact ⟨hshown, by rw [hport], by rw [hport]⟩
  · obtain ⟨-, hlanes, hrate, hfec, hgroup, hport, hlow⟩ := negotiatePort_chooses (masksShown s1 p m224 m112 m56) p (hchoose.trans hsome)
    rw [hmasks.port p (by decide)] at hlow
    exact ⟨hlanes, hrate, hfec, hgroup, by rw [hport], hlow⟩

end

/-! ### Retries and missing bit lock (R241) -/

section
variable (s : State) (p : Fin 12)

theorem noModeRetry_idle (h : (s.kport p).noMode = false) : noModeRetry s p = s := if_neg (by simp [h])

/-- A port without a mode trains again, from no block lock. -/
theorem noModeRetry_retrains (h : (s.kport p).noMode = true) (hstate : s.rd F.KMR_STATUS_STATE p = 2) :
    (noModeRetry s p).rd F.KMR_STATUS_STATE p = 1 ∧ (noModeRetry s p).kport p = { s.kport p with noMode := false, own := (0, 0, 0) } := by
  have ht : noModeRetry s p = retrainLanes ((s.setKport p { s.kport p with noMode := false, own := (0, 0, 0) }).wr F.KMR_STATUS_STATE p 1) p none
      (List.range 8) := if_pos (by simp [h, hstate])
  rw [ht]
  constructor
  · rw [(retrainLanes_frame _ p _ (fun i hi => by have := List.mem_range.1 hi; omega)).port p (by decide), State.rd_wr_same]
    rfl
  · rw [State.kport_of_kmr (retrainLanes_keeps _ _ _ _).1, State.wr_kport, State.kport_setKport]

theorem bitLockTimeout_idle (lane : Nat) (h : (s.kport p).chosen = false) : bitLockTimeout s p lane = s := if_neg (by simp [h])

theorem sendMasks_sends : ∃ fec sleep, .exchange p (s.kport p).own.1 (s.kport p).own.2.1 (s.kport p).own.2.2 fec sleep ∈ (sendMasks s p).outbox :=
  ⟨_, _, List.mem_cons_self⟩

/-- A lane without bit lock leaves the mask of its rate, and this end sends its masks again. -/
theorem bitLockTimeout_repeats (lane : Nat) (h : (s.kport p).chosen = true) (hstate : s.rd F.KMR_STATUS_STATE p = 2)
    (hlane : (groupLanes s p).contains lane = true) (hlock : s.rd F.LNE_STAT_STATE (laneOf p lane) < 3) :
    let own := dropMaskBit (s.kport p).own (s.rd F.KMR_MODE_RATE p) lane
    let t := bitLockTimeout s p lane
    (t.kport p).own = own ∧ t.rd F.KMR_STATUS_STATE p = 2 ∧ ∃ fec sleep, .exchange p own.1 own.2.1 own.2.2 fec sleep ∈ t.outbox := by
  intro own t
  have ht : t = negotiatePort (sendMasks (s.setKport p { s.kport p with own := own }) p) p := if_pos (by simp only [h, hstate, hlane, hlock]; rfl)
  obtain ⟨hnegotiating, hown, -, hout⟩ := negotiatePort_negotiates (sendMasks (s.setKport p { s.kport p with own := own }) p) p
  obtain ⟨fec, sleep, hsent⟩ := sendMasks_sends (s.setKport p { s.kport p with own := own }) p
  rw [State.kport_setKport] at hsent
  rw [ht]
  refine ⟨hown.trans ?_, hnegotiating, fec, sleep, hout.subset hsent⟩
  rw [sendMasks, State.emit_kport, State.kport_setKport]

end

end Sys2Proof.Machine
end

section
/-!
PROOFS. Ports that go down, codewords and calibration (R243, R247, R266), and with negotiation and the slot banks what Kamrus ports do.
-/
namespace Sys2Proof.Machine

/-! ### What is queued is discarded (R243, R246) -/

theorem noteSent_rest (s : State) (c : Cell) : noteSent s c = { s with kmr := { s.kmr with remote := (noteSent s c).kmr.remote } } := by
  unfold noteSent
  dsimp only
  split
  · split <;> rfl
  · rfl

theorem noteSent_frame (s : State) (l : List Fld) (c : Cell) : LinkFrame l s (noteSent s c) := .of_regs (by rw [noteSent_rest]) (by rw [noteSent_rest])

@[simp] theorem noteSent_kport (s : State) (c : Cell) (i : Nat) : (noteSent s c).kport i = s.kport i := by
  rw [noteSent_rest]
  rfl

@[simp] theorem noteSent_outbox (s : State) (c : Cell) : (noteSent s c).outbox = s.outbox := by rw [noteSent_rest]

section
variable (s : State) (p : Fin 12)

/-- The cells that wait at a port. -/
def waitingCells : List Cell := ((s.kport p).queues.flatMap (fun q => q.2)).map (fun e => e.1)

theorem waitingCells_length : (waitingCells s p).length = ((s.kport p).queues.map (fun q => q.2.length)).sum := by
  rw [waitingCells, List.length_map, List.length_flatMap]

/-- The cells of a port that goes down are counted, and their transfers know it. -/
def cellsDiscarded : State :=
  (waitingCells s p).foldl noteSent ((s.bump C.KMR_CELL_DROP_CNT p (waitingCells s p).length).bump C.KMR_DOWN_CNT p 1)

theorem cellsDiscarded_counts :
    (cellsDiscarded s p).rd F.KMR_CELL_DROP_CNT_COUNT p = (s.rd F.KMR_CELL_DROP_CNT_COUNT p + (waitingCells s p).length) % 2 ^ 64 ∧
      (cellsDiscarded s p).rd F.KMR_DOWN_CNT_COUNT p = (s.rd F.KMR_DOWN_CNT_COUNT p + 1) % 2 ^ 64 := by
  have hp := port_index_lt p
  have hnoted := (LinkFrame.refl [] ((s.bump C.KMR_CELL_DROP_CNT p (waitingCells s p).length).bump C.KMR_DOWN_CNT p 1)).foldl
    (as := waitingCells s p) fun u c _ => noteSent_frame u [] c
  constructor
  · refine (hnoted.port p (by decide)).trans ?_
    rw [State.rd_bump_other _ _ _ _ _ _ hp hp (.inl (by decide)) (.inl (by decide))]
    exact State.rd_bump_port s (c := C.KMR_CELL_DROP_CNT) p _ (by decide)
  · refine (hnoted.port p (by decide)).trans ((State.rd_bump_port _ (c := C.KMR_DOWN_CNT) p 1 (by decide)).trans ?_)
    rw [State.rd_bump_other _ _ _ _ _ _ hp hp (.inl (by decide)) (.inl (by decide))]
    rfl

theorem cellsDiscarded_frame :
    LinkFrame [F.KMR_CELL_DROP_CNT_COUNT, F.KMR_DOWN_CNT_COUNT, F.KMR_WRAP_FLAGS] s (cellsDiscarded s p) :=
  have hp := port_index_lt p
  (((LinkFrame.refl _ s).bump (c := C.KMR_CELL_DROP_CNT) _ hp (by decide) (by decide)).bump (c := C.KMR_DOWN_CNT) _ hp (by decide) (by decide)).foldl
    fun u c _ => noteSent_frame u _ c

theorem cellsDiscarded_kport (i : Nat) : (cellsDiscarded s p).kport i = s.kport i :=
  (foldl_keeps (fun t => t.kport i) _ _ fun t c => noteSent_kport t c i).trans (by simp)

/-! ### A port that goes down (R243, R257) -/

/-- The port without cells, masks or mode. -/
def KPort.dropped (x : KPort) : KPort :=
  { x with chosen := false, noMode := false, own := (0, 0, 0), queues := [], rxSeq := none, bad := [], spoiled := 0 }

/-- The port shows that it has gone down. -/
def downShown : State :=
  let t := (cellsDiscarded s p).setKport p (s.kport p).dropped
  (t.flagMC F.KMR_STATUS_DOWN_EVT p).wr F.KMR_STATUS_STATE p (b2n (t.on F.KMR_CTRL_EN p))

/-- Without the port, a device may follow no manager. -/
def withoutPort (s : State) (p : Nat) : Kamrus :=
  { s.kmr with
    mgrPorts := s.kmr.mgrPorts.filter (fun i => decide (i ≠ p)),
    manager := if (s.kmr.mgrPorts.filter (fun i => decide (i ≠ p))).isEmpty then none else s.kmr.manager,
    neighbours := s.kmr.neighbours.filter (fun e => decide (e.1 ≠ p)) }

theorem setKmr_withoutPort (s : State) (p : Nat) :
    (s.setKmr (withoutPort s p)).regs = s.regs ∧ (s.setKmr (withoutPort s p)).outbox = s.outbox ∧
      ∀ i, (s.setKmr (withoutPort s p)).kport i = s.kport i := ⟨rfl, rfl, fun _ => rfl⟩

/-- The lanes of the port train again. -/
def downTrained : State := retrainLanes (downShown s p) p none (List.range 8)

theorem portGoesDown_eq : portGoesDown s p = startRebuild ((downTrained s p).setKmr (withoutPort (downTrained s p) p)) := by
  unfold portGoesDown
  extract_lets x cells discarded t trained
  have htrained : trained = downTrained s p := rfl
  rw [← htrained]
  rfl

/-- The fields that a port may change when it goes down. -/
def downFields : List Fld :=
  [F.KMR_CELL_DROP_CNT_COUNT, F.KMR_DOWN_CNT_COUNT, F.KMR_WRAP_FLAGS, F.KMR_STATUS_DOWN_EVT, F.KMR_STATUS_STATE] ++ laneFields

theorem downShown_shows :
    (downShown s p).rd F.KMR_STATUS_STATE p = b2n (s.on F.KMR_CTRL_EN p) ∧ (downShown s p).rd F.KMR_STATUS_DOWN_EVT p = 1 ∧
      (downShown s p).rd F.KMR_CELL_DROP_CNT_COUNT p = (cellsDiscarded s p).rd F.KMR_CELL_DROP_CNT_COUNT p ∧
      (downShown s p).rd F.KMR_DOWN_CNT_COUNT p = (cellsDiscarded s p).rd F.KMR_DOWN_CNT_COUNT p := by
  have hp := port_index_lt p
  have hflag : LinkFrame [F.KMR_STATUS_DOWN_EVT] (cellsDiscarded s p)
      (((cellsDiscarded s p).setKport p (s.kport p).dropped).flagMC F.KMR_STATUS_DOWN_EVT p) := ((LinkFrame.refl _ _).setKport _ _).flagMC hp (by decide)
  have hen : ((cellsDiscarded s p).setKport p (s.kport p).dropped).on F.KMR_CTRL_EN p = s.on F.KMR_CTRL_EN p :=
    State.on_eq_of_rd ((cellsDiscarded_frame s p).port p (by decide))
  refine ⟨?_, ?_, ?_, ?_⟩
  · rw [downShown, State.rd_wr_same, hen]
    cases s.on F.KMR_CTRL_EN p <;> rfl
  · rw [downShown, State.rd_wr_port _ _ _ (by decide)]
    exact State.flagMC_rd_same _ _ _
  · rw [downShown, State.rd_wr_port _ _ _ (by decide), hflag.port p (by decide)]
  · rw [downShown, State.rd_wr_port _ _ _ (by decide), hflag.port p (by decide)]

theorem downTrained_frame : LinkFrame laneFields (downShown s p) (downTrained s p) :=
  retrainLanes_frame _ p _ fun i hi => by have := List.mem_range.1 hi; omega

theorem portGoesDown_frame : LinkFrame downFields s (portGoesDown s p) := by
  have hp := port_index_lt p
  have hshown : LinkFrame downFields s (downShown s p) :=
    ((((cellsDiscarded_frame s p).mono (by decide)).setKport _ _).flagMC hp (by decide)).wr _ hp (by decide)
  rw [portGoesDown_eq]
  exact ((hshown.trans ((downTrained_frame s p).mono (List.subset_append_right _ _))).setKmr _).trans (startRebuild_frame _ _)

/-- The state of the port, its counters and its flag after it has gone down. -/
theorem portGoesDown_rd {f : Fld} (hf : ∀ g ∈ laneFields, f.key ≠ g.key) : (portGoesDown s p).rd f p = (downShown s p).rd f p := by
  rw [portGoesDown_eq, State.rd_of_regs ((startRebuild_regs _).trans (setKmr_withoutPort _ p).1)]
  exact (downTrained_frame s p).port p hf

theorem portGoesDown_state : (portGoesDown s p).rd F.KMR_STATUS_STATE p = b2n (s.on F.KMR_CTRL_EN p) :=
  (portGoesDown_rd s p (by decide)).trans (downShown_shows s p).1

theorem not_active_of_state {t : State} {q : Nat} {b : Bool} (h : t.rd F.KMR_STATUS_STATE q = b2n b) : portActive t q = false := by
  have hne : t.rd F.KMR_STATUS_STATE q ≠ 3 := by
    rw [h]
    cases b <;> decide
  simp [portActive, hne]

theorem downTrained_kport (i : Nat) : (downTrained s p).kport i = if i = p then (s.kport p).dropped else s.kport i := by
  rw [downTrained, State.kport_of_kmr (retrainLanes_keeps _ _ _ _).1]
  change ((cellsDiscarded s p).setKport p (s.kport p).dropped).kport i = _
  split
  case isTrue h => rw [h, State.kport_setKport]
  case isFalse h => rw [State.kport_setKport_other _ h, cellsDiscarded_kport]

/-- What is queued at the port is gone; at a worker no other port changes. -/
theorem portGoesDown_kport :
    (portGoesDown s p).kport p = (s.kport p).dropped ∧ (kmrRole s = 0 → ∀ i, i ≠ p.val → (portGoesDown s p).kport i = s.kport i) := by
  obtain ⟨hregs, -, hkport⟩ := setKmr_withoutPort (downTrained s p) p
  have hrole := (portGoesDown_frame s p).device (f := F.KMR_ROLE_ROLE) (by decide)
  have hdown : portActive (portGoesDown s p) p = false := not_active_of_state (portGoesDown_state s p)
  rw [portGoesDown_eq] at hrole hdown ⊢
  generalize (downTrained s p).setKmr (withoutPort (downTrained s p) p) = t at hregs hkport hrole hdown ⊢
  have hkept : t.regs = (startRebuild t).regs := (startRebuild_regs t).symm
  constructor
  · rw [startRebuild_down, hkport, downTrained_kport, if_pos rfl]
    rw [← hdown]
    exact portActive_congr (State.rd_of_regs hkept _ _) (startRebuild_frame t []).rst.symm
  · intro hworker i hi
    rw [startRebuild_worker ((State.rd_of_regs hkept _ _).trans (hrole.trans hworker)), hkport, downTrained_kport, if_neg hi]

theorem portGoesDown_signals : .mc F.KMR_STATUS_DOWN_EVT p ∈ (portGoesDown s p).outbox := by
  have hout : (portGoesDown s p).outbox = (downShown s p).outbox := by
    have hkept (t : State) : (startRebuild t).outbox = t.outbox := by rw [startRebuild_rest]
    rw [portGoesDown_eq, hkept, (setKmr_withoutPort _ p).2.1]
    exact (retrainLanes_keeps _ _ _ _).2
  rw [hout]
  exact List.mem_cons_self

end

/-- A command that takes a port down leaves what the port's own going down leaves, whatever it has noted of the port before. -/
theorem portGoesDown_after {s u : State} {p : Fin 12} {l : List Fld} (h : LinkFrame l s u)
    (hl : ∀ f ∈ [F.KMR_CTRL_EN, F.KMR_CELL_DROP_CNT_COUNT, F.KMR_DOWN_CNT_COUNT, F.KMR_ROLE_ROLE], ∀ g ∈ l, f.key ≠ g.key)
    (hqueues : (u.kport p).queues = (s.kport p).queues) (hothers : ∀ i, i ≠ p.val → u.kport i = s.kport i) :
    let t := portGoesDown u p
    t.rd F.KMR_STATUS_STATE p = b2n (s.on F.KMR_CTRL_EN p) ∧ t.rd F.KMR_STATUS_DOWN_EVT p = 1 ∧ .mc F.KMR_STATUS_DOWN_EVT p ∈ t.outbox ∧
      t.rd F.KMR_DOWN_CNT_COUNT p = (s.rd F.KMR_DOWN_CNT_COUNT p + 1) % 2 ^ 64 ∧
      t.rd F.KMR_CELL_DROP_CNT_COUNT p = (s.rd F.KMR_CELL_DROP_CNT_COUNT p + ((s.kport p).queues.map (fun q => q.2.length)).sum) % 2 ^ 64 ∧
      (t.kport p).queues = [] ∧ (kmrRole s = 0 → ∀ i, i ≠ p.val → t.kport i = s.kport i) ∧ t.tile = s.tile ∧ t.sram = s.sram := by
  obtain ⟨-, hflag, hdrop, hdown⟩ := downShown_shows u p
  obtain ⟨hdropped, hcounted⟩ := cellsDiscarded_counts u p
  obtain ⟨hport, hworker⟩ := portGoesDown_kport u p
  have hen : u.on F.KMR_CTRL_EN p = s.on F.KMR_CTRL_EN p := State.on_eq_of_rd (h.port p (hl _ (by simp)))
  have hrole : kmrRole u = kmrRole s := h.device (hl _ (by simp))
  have hall := (h.mono (List.subset_append_left _ downFields)).trans ((portGoesDown_frame u p).mono (List.subset_append_right _ _))
  refine ⟨by rw [portGoesDown_state, hen], (portGoesDown_rd u p (by decide)).trans hflag, portGoesDown_signals u p, ?_, ?_, by rw [hport]; rfl,
    fun hr i hi => (hworker (hrole.trans hr) i hi).trans (hothers i hi), hall.tile, hall.sram⟩
  · rw [portGoesDown_rd u p (by decide), hdown, hcounted, h.port p (hl _ (by simp))]
  · rw [portGoesDown_rd u p (by decide), hdrop, hdropped, h.port p (hl _ (by simp)), waitingCells_length, hqueues]

/-! ### Codewords (R247) -/

section
variable {s : State} {p : Fin 12}

theorem portDown_active (h : portActive s p = true) : portDown s p = portGoesDown s p := if_pos h
theorem portDown_inactive {p : Nat} (h : portActive s p = false) : portDown s p = s := if_neg (by simp [h])

theorem codeword_inactive (outcome cells : Nat) (h : portActive s p = false) : codeword s p outcome cells = s := by simp [codeword, h]

theorem codeword_clean (s : State) (p cells : Nat) : codeword s p 0 cells = s := by
  unfold codeword
  split <;> rfl

theorem codeword_corrected (cells : Nat) (h : portActive s p = true) : codeword s p 1 cells = s.bump C.KMR_CW_CORR_CNT p 1 := by
  simp [codeword, h]

/-- The uncorrectable codewords of the last millisecond, with one that comes now. -/
def badNow (s : State) (p : Nat) : List Nat := s.trk.ts :: (s.kport p).bad.filter (fun t => decide ((s.trk.ts + 2 ^ 48 - t) % 2 ^ 48 < 1750000))

/-- An uncorrectable codeword is counted, and spoils the cells that lie in it. -/
def codewordLost (s : State) (p cells : Nat) : State :=
  (s.bump C.KMR_CW_UNCORR_CNT p 1).setKport p { s.kport p with bad := badNow s p, spoiled := (s.kport p).spoiled + cells }

theorem codewordLost_frame (s : State) (p : Fin 12) (cells : Nat) :
    LinkFrame [F.KMR_CW_UNCORR_CNT_COUNT, F.KMR_WRAP_FLAGS] s (codewordLost s p cells) :=
  ((LinkFrame.refl _ s).bump (c := C.KMR_CW_UNCORR_CNT) _ (port_index_lt p) (by decide) (by decide)).setKport _ _

/-- With too many uncorrectable codewords in a millisecond the port goes down. -/
theorem codeword_tooMany (cells : Nat) (h : portActive s p = true) (hth : s.rd F.KMR_CTRL_DOWN_TH p < (badNow s p).length) :
    codeword s p 2 cells = portGoesDown (codewordLost s p cells) p := by
  have hth' : (codewordLost s p cells).rd F.KMR_CTRL_DOWN_TH p < (badNow s p).length := by
    rwa [(codewordLost_frame s p cells).port p (by decide)]
  unfold codeword
  rw [if_neg (by simp [h])]
  exact if_pos hth'

/-- Each of the commands that take an ACTIVE port down. -/
theorem down_of_command (cells : Fin 4) {c : Instr} (hc : c = .portDown p ∨ c = .reneg p ∨
      (c = .codewordReceive p 2 cells ∧ s.rd F.KMR_CTRL_DOWN_TH p < (badNow s p).length)) (h : portActive s p = true) :
    ∃ u l, exec c s = .next (portGoesDown u p) ∧ LinkFrame l s u ∧
      (∀ f ∈ [F.KMR_CTRL_EN, F.KMR_CELL_DROP_CNT_COUNT, F.KMR_DOWN_CNT_COUNT, F.KMR_ROLE_ROLE], ∀ g ∈ l, f.key ≠ g.key) ∧
      (u.kport p).queues = (s.kport p).queues ∧ ∀ i, i ≠ p.val → u.kport i = s.kport i := by
  have hp := port_index_lt p
  rcases hc with rfl | rfl | ⟨rfl, hth⟩
  · exact ⟨s, [], congrArg Host.Outcome.next (portDown_active h), .refl _ s, by decide, rfl, fun _ _ => rfl⟩
  · have hreneg : LinkFrame [F.KMR_CTRL_RENEG] s (s.wr F.KMR_CTRL_RENEG p 0) := (LinkFrame.refl _ s).wr _ hp (by decide)
    exact ⟨_, _, congrArg Host.Outcome.next (portDown_active ((hreneg.portActive (by decide) hp).trans h)), hreneg, by decide, rfl, fun _ _ => rfl⟩
  · refine ⟨_, _, congrArg Host.Outcome.next (codeword_tooMany cells h hth), codewordLost_frame s p cells, by decide, ?_, fun i hi => ?_⟩
    · rw [codewordLost, State.kport_setKport]
    · rw [codewordLost, State.kport_setKport_other _ hi, State.bump_kport]

end

/-! ### Calibration (R266) -/

section
variable {s u : State} {p : Fin 12} {c : Cell}

/-- The round trip that a calibration answer shows, and the least so far. -/
def roundTrip (u : State) (c : Cell) : Nat := Nat.min 0xFFFF ((u.trk.ts + 2 ^ 48 - natAt c.payload 8 8 % 2 ^ 48) % 2 ^ 48)
def leastTrip (u : State) (p : Nat) (c : Cell) : Nat :=
  if (u.kport p).cal = 0 then roundTrip u c else Nat.min (u.rd F.KMR_LAT_RTT_MIN p) (roundTrip u c)

/-- One more pair of calibration cells. -/
def pairCounted (u : State) (p : Nat) (c : Cell) : State :=
  (u.setKport p { u.kport p with cal := (u.kport p).cal + 1 }).wr F.KMR_LAT_RTT_MIN p (leastTrip u p c)

theorem pairCounted_frame (u : State) (p : Fin 12) (c : Cell) : LinkFrame [F.KMR_LAT_RTT_MIN] u (pairCounted u p c) :=
  ((LinkFrame.refl _ u).setKport _ _).wr _ (port_index_lt p) (by decide)

theorem calCell_congr {t : State} (hpartner : t.rd F.KMR_PARTNER_NODE p = u.rd F.KMR_PARTNER_NODE p) (hnode : t.node = u.node) (kind ts : Nat) :
    calCell t p kind ts = calCell u p kind ts := by
  rw [calCell, controlCell, hpartner, hnode]
  rfl

section
variable (h : receiveCell s p c = (u, true)) (htyp : c.typ = 5) (hsub : natAt c.payload 0 1 = 2)
include h htyp hsub

theorem calibrate_request (hkind : natAt c.payload 1 1 = 0) :
    calibrate s p c = u.setKport p ((u.kport p).add (calCell u p 1 (natAt c.payload 8 8))) := by
  rw [calibrate, linkCell_here _ h htyp hsub]
  dsimp only
  rw [if_pos hkind, enqueueCell_own (receiveCell_active h) rfl]

theorem calibrate_late (hkind : natAt c.payload 1 1 ≠ 0) (hcal : 64 ≤ (u.kport p).cal) : calibrate s p c = u := by
  rw [calibrate, linkCell_here _ h htyp hsub]
  dsimp only
  rw [if_neg hkind, if_pos hcal]

/-- An answer among the first 63 asks for the next one. -/
theorem calibrate_next (hkind : natAt c.payload 1 1 ≠ 0) (hcal : (u.kport p).cal < 63) :
    calibrate s p c = (pairCounted u p c).setKport p (((pairCounted u p c).kport p).add (calCell u p 0 0)) := by
  have hactive : portActive (pairCounted u p c) p = true :=
    ((pairCounted_frame u p c).portActive (by decide) (port_index_lt p)).trans (receiveCell_active h)
  have hcell : calCell (pairCounted u p c) p 0 0 = calCell u p 0 0 :=
    calCell_congr ((pairCounted_frame u p c).port p (by decide)) ((pairCounted_frame u p c).device (by decide)) 0 0
  rw [calibrate, linkCell_here _ h htyp hsub]
  dsimp only
  rw [if_neg hkind, if_neg (by omega), if_pos (by omega)]
  refine Eq.trans ?_ (enqueueCell_own hactive rfl)
  rw [← hcell]
  rfl

theorem calibrate_last (hkind : natAt c.payload 1 1 ≠ 0) (hcal : (u.kport p).cal = 63) :
    calibrate s p c = calibrated (pairCounted u p c) p (leastTrip u p c) := by
  rw [calibrate, linkCell_here _ h htyp hsub]
  dsimp only
  rw [if_neg hkind, if_neg (by omega), if_neg (by omega)]
  rfl

end

/-- Calibration that ends writes ONE_WAY, and FWD_COMP of the tracks that follow over this port. -/
theorem calibrated_oneWay (t : State) (p : Fin 12) (m : Nat) :
    (calibrated t p m).rd F.KMR_LAT_ONE_WAY p = (m + 1) / 2 % 2 ^ F.KMR_LAT_ONE_WAY.width ∧
      LinkFrame [F.KMR_LAT_ONE_WAY, F.TRK_FWD_COMP_CYCLES] t (calibrated t p m) ∧
      (calibrated t p m).kmr = t.kmr := by
  let o := t.wr F.KMR_LAT_ONE_WAY p ((m + 1) / 2)
  have honeWay : o.rd F.KMR_LAT_ONE_WAY p = (m + 1) / 2 % 2 ^ F.KMR_LAT_ONE_WAY.width := State.rd_wr_same _ _ _ _
  have hwritten : LinkFrame [F.KMR_LAT_ONE_WAY, F.TRK_FWD_COMP_CYCLES] t o := (LinkFrame.refl _ t).wr _ (port_index_lt p) (by decide)
  have htracks : LinkFrame [F.TRK_FWD_COMP_CYCLES] o ((List.range 8).foldl
      (fun s t => if s.trkMode t = 4 then s.wr F.TRK_FWD_COMP_CYCLES t ((m + 1) / 2 + 30) else s) o) :=
    (LinkFrame.refl _ o).foldl fun v i hi => .ite ((LinkFrame.refl _ v).wr _ (by have := List.mem_range.1 hi; omega) (by decide)) (.refl _ v)
  unfold calibrated
  dsimp only
  split
  · exact ⟨(htracks.port p (by decide)).trans honeWay, hwritten.trans (htracks.mono (by simp)), foldl_keeps State.kmr _ _ fun _ _ => by split <;> rfl⟩
  · exact ⟨honeWay, hwritten, rfl⟩

/-- A calibration answer within the first 64 counts, keeps the least round trip, and asks for the next or sets ONE_WAY. -/
theorem calibrate_answer (h : receiveCell s p c = (u, true)) (htyp : c.typ = 5) (hsub : natAt c.payload 0 1 = 2)
    (hkind : natAt c.payload 1 1 ≠ 0) (hcal : (u.kport p).cal < 64) :
    let t := calibrate s p c
    (t.kport p).cal = (u.kport p).cal + 1 ∧ t.rd F.KMR_LAT_RTT_MIN p = leastTrip u p c % 2 ^ F.KMR_LAT_RTT_MIN.width ∧
      ((u.kport p).cal < 63 → Tab.get [] (t.kport p).queues 65 = Tab.get [] (u.kport p).queues 65 ++ [(calCell u p 0 0, false)]) ∧
      ((u.kport p).cal = 63 → t.rd F.KMR_LAT_ONE_WAY p = (leastTrip u p c + 1) / 2 % 2 ^ F.KMR_LAT_ONE_WAY.width) := by
  have hpair : (pairCounted u p c).kport p = { u.kport p with cal := (u.kport p).cal + 1 } := State.kport_setKport _ _ _
  have hleast : (pairCounted u p c).rd F.KMR_LAT_RTT_MIN p = leastTrip u p c % 2 ^ F.KMR_LAT_RTT_MIN.width := State.rd_wr_same _ _ _ _
  by_cases hlast : (u.kport p).cal = 63
  · obtain ⟨honeWay, hframe, hkmr⟩ := calibrated_oneWay (pairCounted u p c) p (leastTrip u p c)
    rw [calibrate_last h htyp hsub hkind hlast]
    exact ⟨by rw [State.kport_of_kmr hkmr, hpair], (hframe.port p (by decide)).trans hleast, fun hlt => absurd hlast (Nat.ne_of_lt hlt), fun _ => honeWay⟩
  · have hqueue : cellQueue (calCell u p 0 0) = 65 := rfl
    have hadded := KPort.add_queue ((pairCounted u p c).kport p) (calCell u p 0 0)
    rw [hqueue] at hadded
    rw [calibrate_next h htyp hsub hkind (by omega)]
    refine ⟨by rw [State.kport_setKport, KPort.add, hpair], hleast, fun _ => ?_, fun h => absurd h hlast⟩
    rw [State.kport_setKport, hadded, hpair]

end

/-- Settles O38: negotiation by the mode that is chosen, the commands that take a port down by what they share, the slot banks, and
calibration by the cell that arrives. -/
theorem portsNegotiateAndGoDown : Obligations.PortsNegotiateAndGoDown := by
  unfold Obligations.PortsNegotiateAndGoDown
  refine ⟨fun p m224 m112 m56 fec sleep s => ⟨fun h => ?_, fun hup hen hstate hlock => ?_⟩, fun p s => ⟨fun h => ?_, fun h hstate => ?_⟩,
    fun p lane s => ⟨fun h => ?_, fun h hstate hlane hlock => ?_⟩, fun p o cells s h => ⟨?_, ?_, ?_⟩, fun p cells s c hc h => ?_,
    fun p cells s => ⟨?_, fun h => ?_⟩, fun p s => slotBanks_swap s p, fun p c s u h htyp hsub => ?_⟩
  case refine_1 => exact congrArg Host.Outcome.next (capabilityExchange_active s p m224 m112 m56 fec sleep h)
  case refine_2 => exact ⟨_, rfl, capabilityExchange_negotiates s p m224 m112 m56 fec sleep hup hen hstate hlock⟩
  case refine_3 => exact congrArg Host.Outcome.next (noModeRetry_idle s p h)
  case refine_4 => exact ⟨_, rfl, noModeRetry_retrains s p h hstate⟩
  case refine_5 => exact congrArg Host.Outcome.next (bitLockTimeout_idle s p lane h)
  case refine_6 => exact ⟨_, rfl, bitLockTimeout_repeats s p lane h hstate hlane hlock⟩
  case refine_7 => exact congrArg Host.Outcome.next (portDown_inactive h)
  case refine_8 => exact congrArg Host.Outcome.next (codeword_inactive _ _ h)
  case refine_9 =>
    have hreneg : LinkFrame [F.KMR_CTRL_RENEG] s (s.wr F.KMR_CTRL_RENEG p 0) := (LinkFrame.refl _ s).wr _ (port_index_lt p) (by decide)
    exact congrArg Host.Outcome.next (portDown_inactive ((hreneg.portActive (by decide) (port_index_lt p)).trans h))
  case refine_10 =>
    obtain ⟨u, l, hstep, hframe, hl, hqueues, hothers⟩ := down_of_command cells hc h
    exact ⟨_, hstep, portGoesDown_after hframe hl hqueues hothers⟩
  case refine_11 => exact congrArg Host.Outcome.next (codeword_clean s p cells)
  case refine_12 =>
    exact ⟨_, congrArg Host.Outcome.next (codeword_corrected _ h), State.rd_bump_port s (c := C.KMR_CW_CORR_CNT) p 1 (by decide), State.bump_rest _ _ _ _⟩
  case refine_13 =>
    refine ⟨fun hkind => ⟨_, congrArg Host.Outcome.next (calibrate_request h htyp hsub hkind), rfl, ?_⟩,
      fun hkind hcal => congrArg Host.Outcome.next (calibrate_late h htyp hsub hkind hcal),
      fun hkind hcal => ⟨_, rfl, calibrate_answer h htyp hsub hkind hcal⟩⟩
    rw [State.kport_setKport]
    exact KPort.add_queue _ _

end Sys2Proof.Machine
end

section
/-!
PROOFS. Cells that do nothing more than be received, and cells for other nodes whose HOPS are used up (R189, R244, R247, R249, R254).
-/
namespace Sys2Proof.Machine

section
variable {s u : State} {p : Fin 12} {c : Cell}

/-! ### Cells that are not accepted -/

/-- Whatever a cell would do, one that the receiver refuses does no more than the receiver. -/
theorem cellCommand_refused {ecc : List Nat} {foreign : Bool} {i : Instr}
    (hi : i = .writeCell p c ecc ∨ i = .ackCell p c ∨ i = .trackCell p c ∨ i = .syncCell p c foreign) (h : receiveCell s p c = (u, false)) :
    exec i s = .next u := by
  rcases hi with rfl | rfl | rfl | rfl
  case inr.inr.inr => exact congrArg Host.Outcome.next (by simp [syncCell, h])
  all_goals exact congrArg Host.Outcome.next (cellArrives_refused _ h)

/-- A repeated cell is counted as dropped, shown in LOST, and owed as an event. -/
theorem repeatedCell_shows (s : State) (p : Fin 12) :
    let t := ((countDrop (s.bump C.KMR_RX_CELL_CNT p 1) p).flagMC F.KMR_STATUS_LOST p).owe 0x2A000001 (p / 3)
    t.rd F.KMR_CELL_DROP_CNT_COUNT p = (s.rd F.KMR_CELL_DROP_CNT_COUNT p + 1) % 2 ^ 64 ∧ t.rd F.KMR_STATUS_LOST p = 1 ∧
      t.dict = { s.dict with owed := s.dict.owed ++ [(0x2A000001, p.val / 3)] } ∧ t = { s with regs := t.regs, outbox := t.outbox, dict := t.dict } := by
  have hp := port_index_lt p
  have hrest : countDrop (s.bump C.KMR_RX_CELL_CNT p 1) p = { s with regs := (countDrop (s.bump C.KMR_RX_CELL_CNT p 1) p).regs } := by
    rw [countDrop, State.bump_rest, State.bump_rest s]
  have hcount : (countDrop (s.bump C.KMR_RX_CELL_CNT p 1) p).rd F.KMR_CELL_DROP_CNT_COUNT p = (s.rd F.KMR_CELL_DROP_CNT_COUNT p + 1) % 2 ^ 64 := by
    refine (State.rd_bump_port (s.bump C.KMR_RX_CELL_CNT p 1) (c := C.KMR_CELL_DROP_CNT) p 1 (by decide)).trans ?_
    rw [State.rd_bump_other _ _ _ _ _ _ hp hp (.inl (by decide)) (.inl (by decide))]
    rfl
  generalize countDrop (s.bump C.KMR_RX_CELL_CNT p 1) p = v at hrest hcount
  refine ⟨(State.rd_wr_port v p (g := F.KMR_STATUS_LOST) 1 (by decide)).trans hcount, State.flagMC_rd_same _ _ _, ?_, ?_⟩ <;> rw [hrest] <;> rfl

/-! ### Cells for another node (R189, R254) -/

theorem relayCell_hops {p : Nat} (h : 15 ≤ c.hops) : relayCell s p c = hopsDrop s := if_pos h

/-- A SYNC cell without batons is relayed as it is. -/
theorem relaySync_empty {p : Nat} (hn : c.count = 0) : relaySync s p c = relayCell s p { c with count := 0, payload := [] } := by
  simp [relaySync, hn]

/-- The only baton of a SYNC cell whose HOPS are used up is discarded, and nothing is relayed. -/
theorem relaySync_spent {p : Nat} (hn : c.count = 1) (hhops : bits (natAt (c.payload.take 32) 8 8) 40 4 = 15) : relaySync s p c = hopsDrop s := by
  simp [relaySync, hn, hhops]

theorem syncCell_relayed {foreign : Bool} (h : receiveCell s p c = (u, true)) (ht : c.typ = 3) (hd : c.dst ≠ s.node) :
    syncCell s p c foreign = relaySync u p c := by
  simp [syncCell, h, ht, hd]

theorem syncCell_here {foreign : Bool} (h : receiveCell s p c = (u, true)) (ht : c.typ = 3) (hd : c.dst = s.node) :
    syncCell s p c foreign = takeBatons u p c foreign := by
  simp [syncCell, h, ht, hd]

/-- A first cell that is discarded for its HOPS is counted, and changes no queue and no memory. -/
theorem hopsDrop_firstCell (s : State) (p : Fin 12) (c : Cell) :
    let t := hopsDrop (firstCell s p c)
    t.rd F.KMR_HOPS_DROP_CNT_COUNT 0 = (s.rd F.KMR_HOPS_DROP_CNT_COUNT 0 + 1) % 2 ^ 64 ∧
      LinkFrame [F.KMR_RX_CELL_CNT_COUNT, F.KMR_WRAP_FLAGS, F.KMR_HOPS_DROP_CNT_COUNT, F.KMR_DEV_WRAP_FLAGS] s t ∧
      (t.kport p).queues = (s.kport p).queues := by
  have hfirst := firstCell_frame s p c
  refine ⟨?_, ?_, ?_⟩
  · refine (State.rd_bump_same _ C.KMR_HOPS_DROP_CNT 0 1 (by decide) (by decide)).trans ?_
    exact congrArg (fun n => (n + 1) % 2 ^ 64) (hfirst.device (by decide))
  · exact ((hfirst.mono (by simp)).bump (c := C.KMR_HOPS_DROP_CNT) 1 (by decide) (by decide) (by decide)).emit _
  · simp [hopsDrop, State.signalMC]

/-- Each of the commands relays a cell of its type that is for another node: with used-up HOPS it is discarded. -/
theorem cellCommand_hops {ecc : List Nat} {foreign : Bool} {i : Instr}
    (hi : i = .writeCell p c ecc ∨ i = .ackCell p c ∨ i = .trackCell p c ∨ i = .syncCell p c foreign)
    (h : portActive s p = true) (hs : (s.kport p).spoiled = 0) (hq : (s.kport p).rxSeq = none) (hd : c.dst ≠ s.node) (hh : 15 ≤ c.hops)
    (hwrite : i = .writeCell p c ecc → c.typ = 1) (hack : i = .ackCell p c → c.typ = 2) (htrack : i = .trackCell p c → c.typ = 4)
    (hsync : i = .syncCell p c foreign → c.typ = 3 ∧ c.count = 0) : exec i s = .next (hopsDrop (firstCell s p c)) := by
  have hreceived {n : Nat} (ht : c.typ = n) (hn : n ≠ 0) (hn' : n ≤ 5) : receiveCell s p c = (firstCell s p c, true) :=
    receiveCell_first h hs hq (ht ▸ hn) (ht ▸ hn')
  have harrives {n : Nat} (f : State → State) (ht : c.typ = n) (hn : n ≠ 0) (hn' : n ≤ 5) :
      cellArrives s p n c f = hopsDrop (firstCell s p c) :=
    (cellArrives_relayed f (hreceived ht hn hn') ht hd).trans (relayCell_hops hh)
  rcases hi with rfl | rfl | rfl | rfl
  · exact congrArg Host.Outcome.next (harrives _ (hwrite rfl) (by decide) (by decide))
  · exact congrArg Host.Outcome.next (harrives _ (hack rfl) (by decide) (by decide))
  · exact congrArg Host.Outcome.next (harrives _ (htrack rfl) (by decide) (by decide))
  · obtain ⟨ht, hn⟩ := hsync rfl
    refine congrArg Host.Outcome.next ((syncCell_relayed (hreceived ht (by decide) (by decide)) ht hd).trans ?_)
    rw [relaySync_empty hn]
    exact relayCell_hops hh

end

end Sys2Proof.Machine
end

section
/-!
PROOFS. The way of the lines of a WRITE cell through the network (R302, R306, R311), which changes what probes and links show, and the WRITE
cell's bytes in on-chip memory (R245).
-/
namespace Sys2Proof.Machine

/-! ### Packets that pass the network -/

/-- The fields that probes and die links show. -/
def wayFields : List Fld :=
  [F.NOC_FLIT_CNT_COUNT, F.NOC_LINK_CE_CNT_COUNT, F.NOC_LINK_UE_CNT_COUNT, F.NOC_WRAP_FLAGS, F.NOC_STATUS_LINK_CE, F.NOC_STATUS_LINK_UE,
    F.NOC_PRB_CNT_COUNT, F.NOC_PRB_WRAP_FLAGS]

/-- The ports' work has left what the ports themselves hold. -/
structure PortsKept (l : List Fld) (s t : State) : Prop extends LinkFrame l s t where
  kmr : t.kmr = s.kmr

namespace PortsKept

variable {l : List Fld} {s t u : State}

theorem refl (l : List Fld) (s : State) : PortsKept l s s := ⟨.refl _ s, rfl⟩

theorem trans (h : PortsKept l s t) (h' : PortsKept l t u) : PortsKept l s u := ⟨h.toLinkFrame.trans h'.toLinkFrame, h'.kmr.trans h.kmr⟩

theorem wr (h : PortsKept l s t) {f : Fld} {i : Nat} (v : Nat) (hi : i < 131072) (hf : f ∈ l) : PortsKept l s (t.wr f i v) :=
  ⟨h.toLinkFrame.wr v hi hf, h.kmr⟩

theorem bump (h : PortsKept l s t) {c : Cnt} {i : Nat} (n : Nat) (hi : i < 131072) (hc : c.fld ∈ l) (hw : c.wrapFld ∈ l) :
    PortsKept l s (t.bump c i n) := ⟨h.toLinkFrame.bump n hi hc hw, (State.bump_kmr _ _ _ _).trans h.kmr⟩

theorem emit (h : PortsKept l s t) (o : Out) : PortsKept l s (t.emit o) := ⟨h.toLinkFrame.emit o, h.kmr⟩

theorem setNoc (h : PortsKept l s t) (x : Noc) : PortsKept l s (t.setNoc x) := ⟨h.toLinkFrame.setNoc x, h.kmr⟩

theorem setTrack (h : PortsKept l s t) (u : Nat) (k : Track) : PortsKept l s (t.setTrack u k) := ⟨h.toLinkFrame.setTrack u k, h.kmr⟩

theorem ite {c : Prop} [Decidable c] (ht : PortsKept l s t) (hu : PortsKept l s u) : PortsKept l s (if c then t else u) := by
  split
  · exact ht
  · exact hu

theorem foldl {α : Type} {f : State → α → State} {as : List α} (h : PortsKept l s t) (hf : ∀ u, ∀ a ∈ as, PortsKept l u (f u a)) :
    PortsKept l s (as.foldl f t) :=
  List.foldlRecOn as f (motive := PortsKept l s) h fun u hu a ha => hu.trans (hf u a ha)

end PortsKept

section
variable (s : State) (p : Packet)

theorem quarterOfDie_lt (d other : Nat) : quarterOfDie d other < 4 := by
  unfold quarterOfDie
  split_ifs <;> omega

theorem linkError_frame (e : Nat) {q : Nat} (hq : q < 4) : PortsKept wayFields s (linkError s p e q).1 := by
  have hi : q < 131072 := by omega
  have hlost : PortsKept wayFields s ((s.bump C.NOC_LINK_UE_CNT q 1).flagMC F.NOC_STATUS_LINK_UE q) :=
    (((PortsKept.refl _ s).bump (c := C.NOC_LINK_UE_CNT) _ hi (by decide) (by decide)).wr _ hi (by decide)).emit _
  unfold linkError
  split
  · exact .refl _ s
  · exact ((PortsKept.refl _ s).bump (c := C.NOC_LINK_CE_CNT) _ hi (by decide) (by decide)).wr _ hi (by decide)
  · exact hlost
  · exact hlost

theorem crossLinks_frame (links : List (Nat × Nat)) (es : List Nat) : PortsKept wayFields s (crossLinks s p links es).1 := by
  induction links generalizing s es with
  | nil => exact .refl _ s
  | cons x r ih =>
    obtain ⟨a, b⟩ := x
    have hflits : PortsKept wayFields s (if a < 4 then s.bump C.NOC_FLIT_CNT a p.flits else s) := by
      split
      · exact (PortsKept.refl _ s).bump (c := C.NOC_FLIT_CNT) _ (by omega) (by decide) (by decide)
      · exact .refl _ s
    have herror := hflits.trans (linkError_frame _ p (es.headD 0) (quarterOfDie_lt b a))
    unfold crossLinks
    extract_lets t e v
    have hv : PortsKept wayFields s v.1 := herror.trans (ih _ _)
    have he : PortsKept wayFields s e.1 := herror
    clear_value v e
    split
    · exact he
    · exact hv

theorem probeMatch_frame {n : Nat} (hn : n < 272) (h : Hop) (wait : Nat) : PortsKept wayFields s (probeMatch s n h p wait) := by
  have hcount (v : Nat) : PortsKept wayFields s (if n < 256 then s.bumpTo F.NOC_PRB_CNT_COUNT n v F.NOC_PRB_WRAP_FLAGS (n / 64) (n % 64)
      else s.wr F.NOC_PRB_CNT_COUNT n (s.rd F.NOC_PRB_CNT_COUNT n + v)) := by
    have hwr (v : Nat) : PortsKept wayFields s (s.wr F.NOC_PRB_CNT_COUNT n v) := (PortsKept.refl _ s).wr _ (by omega) (by decide)
    split
    · unfold State.bumpTo
      dsimp only
      split
      · exact (hwr _).wr _ (by omega) (by decide)
      · exact hwr _
    · exact hwr _
  unfold probeMatch
  extract_lets v t k q r
  have ht : PortsKept wayFields s t := hcount v
  clear_value t
  split
  · exact ht
  · split
    · exact ht.setNoc _
    · exact ht.setNoc _

theorem probesOf_lt {die n : Nat} (h : n ∈ probesOf die) : n < 272 := by
  unfold probesOf at h
  split at h
  all_goals
    obtain ⟨i, hi, rfl⟩ := List.mem_map.1 h
    have := List.mem_range.1 hi
    omega

theorem seePacket_frame (hops : List Hop) (waits : List Nat) : PortsKept wayFields s (seePacket s p hops waits) := by
  refine (PortsKept.refl _ s).foldl fun u x hx => probeMatch_frame u p ?_ _ _
  obtain ⟨h, -, hx⟩ := List.mem_flatMap.1 hx
  obtain ⟨n, hn, rfl⟩ := List.mem_map.1 hx
  exact probesOf_lt (List.mem_filter.1 hn).1

theorem travel_frame : PortsKept wayFields s (travel s p).1 := by
  have hbusy (ds : List (Nat × Nat)) : PortsKept wayFields s (markBusy s ds) := (PortsKept.refl _ s).setNoc _
  have hseen (hops : List Hop) : PortsKept wayFields s
      (seePacket (crossLinks (markBusy s (domainsOf s p)) p (routeOfPkt s p).2 p.linkErr).1 p hops p.waits) :=
    ((hbusy _).trans (crossLinks_frame _ p _ _)).trans (seePacket_frame _ p _ _)
  unfold travel
  dsimp only
  split
  · exact hseen _
  · split <;> exact hseen _

theorem passBy_frame : PortsKept wayFields s (passBy s p) := by
  unfold passBy
  split
  · exact travel_frame s p
  · exact .refl _ s

/-- The lines of a cell that pass the network change nothing of ports, memories and waiting accesses. -/
theorem passLines_frame (n : Nat) (c : Cell) : PortsKept wayFields s (passLines s n c) := (PortsKept.refl _ s).foldl fun u _ _ => passBy_frame u _

end

end Sys2Proof.Machine
end

section
/-!
PROOFS. WRITE cells for this device (R245, R172, R173): committed and acknowledged, or waiting in their channel queue.
-/
namespace Sys2Proof.Machine

/-! ### A cell that is sent (R251) -/

/-- From `s` to `t` cells have left, or have been discarded: ports, remote writes, registers and outputs may have changed. -/
structure SendFrame (s t : State) : Prop where
  rest : t = { s with regs := t.regs, kmr := { s.kmr with ports := t.kmr.ports, remote := t.kmr.remote }, outbox := t.outbox }

namespace SendFrame

variable {s t u : State}

theorem refl (s : State) : SendFrame s s := ⟨rfl⟩

theorem trans (h : SendFrame s t) (h' : SendFrame t u) : SendFrame s u := ⟨h'.rest.trans (by rw [h.rest])⟩

theorem bump (h : SendFrame s t) (c : Cnt) (i n : Nat) : SendFrame s (t.bump c i n) := h.trans ⟨by rw [State.bump_rest]⟩

theorem noteSent (h : SendFrame s t) (c : Cell) : SendFrame s (noteSent t c) := h.trans ⟨by rw [noteSent_rest]⟩

theorem emit (h : SendFrame s t) (o : Out) : SendFrame s (t.emit o) := h.trans ⟨rfl⟩

theorem setKport (h : SendFrame s t) (p : Nat) (x : KPort) : SendFrame s (t.setKport p x) := h.trans ⟨rfl⟩

end SendFrame

theorem dropCell_frame (s : State) (p : Nat) (c : Cell) : SendFrame s (dropCell s p c) := ((SendFrame.refl s).bump _ _ _).noteSent c

theorem enqueueCell_frame (s : State) (p : Nat) (c : Cell) (relayed : Bool) : SendFrame s (enqueueCell s p c relayed) := by
  unfold enqueueCell
  extract_lets x l room t
  have ht : SendFrame s t := (SendFrame.refl s).setKport _ _
  split_ifs
  · exact dropCell_frame s p c
  · exact (dropCell_frame s p c).emit _
  · exact ht.bump _ _ _
  · exact ht

theorem sendCell_frame (s : State) (c : Cell) (from? : Option Nat) : SendFrame s (sendCell s c from?) := by
  unfold sendCell
  dsimp only
  split
  · exact enqueueCell_frame _ _ _ _
  · exact dropCell_frame _ _ _

theorem ackCell_frame (s : State) (c : Cell) (err : Bool) : SendFrame s (ackCell s c err) := sendCell_frame _ _ _

/-! ### What an access to on-chip memory asks -/

theorem LinkFrame.unit {l : List Fld} {s t : State} (h : LinkFrame l s t) : UnitFrame l s t where
  fields f i hi hf := h.fields f i hi fun g hg => (hf g hg).symm
  loops := by rw [h.tile]
  sregs := by rw [h.tile]
  rst := h.rst
  staged := by rw [h.sync]
  mem := h.mem

theorem mayAccess_congr {s t : State} (h : t.full = s.full) (earlier : List Waiter) (m : Nat) (store : Bool) (ws : List Nat) :
    mayAccess t earlier m store ws = mayAccess s earlier m store ws := by
  have hready : feReady t = feReady s := by
    funext m store w
    simp only [feReady, State.isFull_of_full h]
  simp only [mayAccess, Waiter.ready, hready]

theorem memDown_congr {s t : State} (h : t.rst = s.rst) (ws : List Nat) : memDown t ws = memDown s ws := by
  simp only [memDown, padDown_congr h]

/-! ### Committing a cell (R245) -/

section
variable {s : State} {k : Nat} {c : Cell}

/-- The words of a cell's bytes. -/
def cellWords (c : Cell) : List Nat := wordsOf c.da (cellBytes c).length

/-- A cell's bytes in memory, its words full, and its place in the order of accesses given up. -/
def cellCommitted (s : State) (k : Nat) (c : Cell) : State :=
  ((s.dropWaiters (.cells k)).commit c.da (cellBytes c)).fillWords (wholeWords c.da (cellBytes c).length)

/-- What a cell for on-chip memory that answers meets. -/
structure CellServed (s : State) (c : Cell) : Prop where
  first : onChip c.da = true
  last : onChip (c.da + (cellBytes c).length - 1) = true
  up : memDown s (cellWords c) = false

theorem commitCell_eq (h : CellServed s c) (ecc : List Nat) :
    commitCell s k c ecc =
      if (cellWords c).any (fun w => padBusy s (w * 8)) then (s, false)
      else if mayAccess s (waitersBefore (.cells k) (cellWords c) s.sync.waiters) c.dfe true (cellWords c) then
        (ackCell (cellCommitted s k c) c false, true)
      else if s.sync.waiters.any (fun w => decide (w.who = .cells k)) then (s, false)
      else (s.addWaiter ⟨.cells k, c.dfe, true, cellWords c⟩, false) := by
  obtain ⟨hfirst, hlast, hup⟩ := h
  have hup' : (memDown s (cellWords c) || !(onChip (c.da + (cellBytes c).length - 1))) = false := by simp [hup, hlast]
  unfold commitCell
  dsimp only
  rw [if_pos hfirst]
  exact if_neg (by rw [← cellWords, hup']; exact Bool.false_ne_true)

theorem commitCell_commits (h : CellServed s c) (ecc : List Nat) (hidle : (cellWords c).any (fun w => padBusy s (w * 8)) = false)
    (hmay : mayAccess s (waitersBefore (.cells k) (cellWords c) s.sync.waiters) c.dfe true (cellWords c) = true) :
    commitCell s k c ecc = (ackCell (cellCommitted s k c) c false, true) := by
  rw [commitCell_eq h, if_neg (by rw [hidle]; exact Bool.false_ne_true), if_pos hmay]

/-- A cell that may not be committed changes at most the order of the waiting accesses. -/
theorem commitCell_waits (h : CellServed s c) (ecc : List Nat) (hwait : (cellWords c).any (fun w => padBusy s (w * 8)) = true ∨
      mayAccess s (waitersBefore (.cells k) (cellWords c) s.sync.waiters) c.dfe true (cellWords c) = false) :
    ∃ y, commitCell s k c ecc = ({ s with sync := y }, false) := by
  rw [commitCell_eq h]
  by_cases hbusy : (cellWords c).any (fun w => padBusy s (w * 8)) = true
  · exact ⟨s.sync, if_pos hbusy⟩
  · have hmay := hwait.resolve_left hbusy
    rw [if_neg hbusy, if_neg (by rw [hmay]; exact Bool.false_ne_true)]
    split
    · exact ⟨s.sync, rfl⟩
    · exact ⟨_, rfl⟩

/-- The bytes of a committed cell are those read back, and the rest of memory is as it was. -/
theorem cellCommitted_memory (s : State) (k : Nat) (c : Cell) :
    let t := cellCommitted s k c
    readBytes t.sram c.da (cellBytes c).length = cellBytes c ∧ SameBytes s t c.da (cellBytes c).length ∧
      (∀ x, t.isFull x = if x ∈ wholeWords c.da (cellBytes c).length then true else s.isFull x) ∧ t.tile = s.tile ∧ t.mem = s.mem := by
  intro t
  have hstore : StoreFrame (s.dropWaiters (.cells k)) t := (State.commit_frame _ _ _).trans (State.fillWords_frame _ _)
  obtain ⟨hbytes, hfull⟩ := (s.dropWaiters (.cells k)).commit_memory c.da (cellBytes c)
  have hsram : t.sram = writeBytes s.sram c.da (cellBytes c) := (State.fillWords_sram _ _).trans hbytes
  refine ⟨?_, fun x hx => ?_, fun x => ?_, hstore.tile, hstore.mem⟩
  · exact hsram ▸ readBytes_writeBytes _ _ _
  · rw [hsram, byteAt_writeBytes_outside hx]
  · rw [show t = State.fillWords _ _ from rfl, State.fillWords, isFull_setWords, State.isFull_of_full hfull]
    rfl

end

/-! ### A WRITE cell that arrives -/

/-- The channel queue of a cell. -/
def cellChannel (p : Nat) (c : Cell) : Nat := quarterOfPort p * 64 + c.channel % 64

section
variable {s : State} {p : Nat} {c : Cell}

theorem writeCell_behind (ecc : List Nat) (h : stalledCells s (cellChannel p c) ≠ []) :
    writeCell s p c ecc = setStalled s (cellChannel p c) (stalledCells s (cellChannel p c) ++ [c]) :=
  if_pos (by simpa [cellChannel] using h)

theorem writeCell_first (ecc : List Nat) (h : stalledCells s (cellChannel p c) = []) :
    writeCell s p c ecc =
      if (commitCell s (cellChannel p c) c ecc).2 then (commitCell s (cellChannel p c) c ecc).1
      else setStalled (commitCell s (cellChannel p c) c ecc).1 (cellChannel p c) [c] :=
  if_neg (by simpa [cellChannel] using h)

theorem stalledCells_setStalled (s : State) (k : Nat) (l : List Cell) : stalledCells (setStalled s k l) k = l := Tab.get_set_same _ _ _ _

/-- A cell that cannot be committed at once waits at the end of its channel queue. -/
theorem writeCell_waits (ecc : List Nat) (h : CellServed s c)
    (hwait : stalledCells s (cellChannel p c) ≠ [] ∨ (cellWords c).any (fun w => padBusy s (w * 8)) = true ∨
      mayAccess s (waitersBefore (.cells (cellChannel p c)) (cellWords c) s.sync.waiters) c.dfe true (cellWords c) = false) :
    let t := writeCell s p c ecc
    stalledCells t (cellChannel p c) = stalledCells s (cellChannel p c) ++ [c] ∧ t.sram = s.sram ∧ t.full = s.full := by
  by_cases hfirst : stalledCells s (cellChannel p c) = []
  · obtain ⟨y, hy⟩ := commitCell_waits h ecc (hwait.resolve_left (not_not.2 hfirst))
    rw [writeCell_first ecc hfirst, hy, hfirst]
    exact ⟨stalledCells_setStalled _ _ _, rfl, rfl⟩
  · rw [writeCell_behind ecc hfirst]
    exact ⟨stalledCells_setStalled _ _ _, rfl, rfl⟩

theorem writeCell_commits (ecc : List Nat) (h : CellServed s c) (hfirst : stalledCells s (cellChannel p c) = [])
    (hidle : (cellWords c).any (fun w => padBusy s (w * 8)) = false)
    (hmay : mayAccess s (waitersBefore (.cells (cellChannel p c)) (cellWords c) s.sync.waiters) c.dfe true (cellWords c) = true) :
    writeCell s p c ecc = ackCell (cellCommitted s (cellChannel p c) c) c false := by
  rw [writeCell_first ecc hfirst, commitCell_commits h ecc hidle hmay]
  rfl

end

/-! ### From the port to the memory -/

section
variable {s : State} {p : Fin 12} {c : Cell}

/-- A WRITE cell at the memory, received and with its lines passed. -/
def cellAtMemory (s : State) (p : Nat) (c : Cell) : State := passLines (firstCell s p c) p c

theorem cellAtMemory_frame (s : State) (p : Fin 12) (c : Cell) :
    LinkFrame (F.KMR_RX_CELL_CNT_COUNT :: F.KMR_WRAP_FLAGS :: wayFields) s (cellAtMemory s p c) :=
  ((firstCell_frame s p c).mono (by simp)).trans ((passLines_frame _ p c).toLinkFrame.mono (by simp))

theorem stalledCells_atMemory (k : Nat) : stalledCells (cellAtMemory s p c) k = stalledCells s k := by
  unfold stalledCells
  rw [cellAtMemory, (passLines_frame _ p c).kmr, firstCell_rest]

/-- A cell meets at the memory what it would have met before it was received. -/
theorem cellAtMemory_meets (k : Nat) (ws : List Nat) (m : Nat) :
    let t := cellAtMemory s p c
    stalledCells t k = stalledCells s k ∧ memDown t ws = memDown s ws ∧
      ws.any (fun w => padBusy t (w * 8)) = ws.any (fun w => padBusy s (w * 8)) ∧
      mayAccess t (waitersBefore (.cells k) ws t.sync.waiters) m true ws = mayAccess s (waitersBefore (.cells k) ws s.sync.waiters) m true ws := by
  have h := cellAtMemory_frame s p c
  refine ⟨stalledCells_atMemory k, memDown_congr h.rst ws, ?_, ?_⟩
  · simp only [h.unit.padBusy (by decide)]
  · rw [h.sync, mayAccess_congr h.full]

section
variable (h : portActive s p = true) (hs : (s.kport p).spoiled = 0) (hq : (s.kport p).rxSeq = none) (ht : c.typ = 1) (hd : c.dst = s.node)
include h hs hq ht hd

theorem exec_writeCell_here (ecc : List Nat) : exec (.writeCell p c ecc) s = .next (writeCell (cellAtMemory s p c) p c ecc) :=
  congrArg Host.Outcome.next (cellArrives_here _ (receiveCell_first h hs hq (by omega) (by omega)) ht hd)

variable (hserved : CellServed s c)
include hserved

/-- A WRITE cell that nothing keeps is in memory when it has arrived. -/
theorem exec_writeCell_commits (ecc : List Nat) (hfirst : stalledCells s (cellChannel p c) = [])
    (hidle : (cellWords c).any (fun w => padBusy s (w * 8)) = false)
    (hmay : mayAccess s (waitersBefore (.cells (cellChannel p c)) (cellWords c) s.sync.waiters) c.dfe true (cellWords c) = true) :
    ∃ t, exec (.writeCell p c ecc) s = .next t ∧ readBytes t.sram c.da (cellBytes c).length = cellBytes c ∧
      SameBytes s t c.da (cellBytes c).length ∧
      (∀ x, t.isFull x = if x ∈ wholeWords c.da (cellBytes c).length then true else s.isFull x) ∧ t.tile = s.tile ∧ t.mem = s.mem := by
  obtain ⟨hstalled, hdown, hbusy, hadmit⟩ := cellAtMemory_meets (s := s) (p := p) (c := c) (cellChannel p c) (cellWords c) c.dfe
  have hframe := cellAtMemory_frame s p c
  obtain ⟨hread, hrest, hfull, htile, hmem⟩ := cellCommitted_memory (cellAtMemory s p c) (cellChannel p c) c
  have hack := (ackCell_frame (cellCommitted (cellAtMemory s p c) (cellChannel p c) c) c false).rest
  refine ⟨_, exec_writeCell_here h hs hq ht hd ecc, ?_⟩
  rw [writeCell_commits ecc ⟨hserved.first, hserved.last, hdown.trans hserved.up⟩ (hstalled.trans hfirst) (hbusy.trans hidle) (hadmit.trans hmay), hack]
  refine ⟨hread, fun a ha => (hrest a ha).trans (by rw [hframe.sram]), fun x => (hfull x).trans ?_, htile.trans hframe.tile, hmem.trans hframe.mem⟩
  rw [State.isFull_of_full hframe.full]

/-- A WRITE cell that may not be committed yet waits in its channel queue. -/
theorem exec_writeCell_waits (ecc : List Nat)
    (hwait : stalledCells s (cellChannel p c) ≠ [] ∨ (cellWords c).any (fun w => padBusy s (w * 8)) = true ∨
      mayAccess s (waitersBefore (.cells (cellChannel p c)) (cellWords c) s.sync.waiters) c.dfe true (cellWords c) = false) :
    ∃ t, exec (.writeCell p c ecc) s = .next t ∧ stalledCells t (cellChannel p c) = stalledCells s (cellChannel p c) ++ [c] ∧
      t.sram = s.sram ∧ t.full = s.full := by
  obtain ⟨hstalled, hdown, hbusy, hadmit⟩ := cellAtMemory_meets (s := s) (p := p) (c := c) (cellChannel p c) (cellWords c) c.dfe
  have hframe := cellAtMemory_frame s p c
  have hserved' : CellServed (cellAtMemory s p c) c := ⟨hserved.first, hserved.last, hdown.trans hserved.up⟩
  obtain ⟨hqueue, hsram, hfull⟩ := writeCell_waits ecc hserved' (by rwa [hstalled, hbusy, hadmit])
  exact ⟨_, exec_writeCell_here h hs hq ht hd ecc, by rw [hqueue, hstalled], hsram.trans hframe.sram, hfull.trans hframe.full⟩

end

end

end Sys2Proof.Machine
end

section
/-!
PROOFS. Acknowledgements of remote writes, batons of a foreign domain, and TRACK cells (R188, R246, R255, R265).
-/
namespace Sys2Proof.Machine

/-! ### Remote write transfers (R246) -/

/-- From `s` to `t` the sets of stream engines and their counters have changed, and nothing else. -/
structure SetsFrame (s t : State) : Prop where
  rest : t = { s with regs := t.regs, streams := t.streams }

namespace SetsFrame

variable {s t u : State}

theorem refl (s : State) : SetsFrame s s := ⟨rfl⟩

theorem trans (h : SetsFrame s t) (h' : SetsFrame t u) : SetsFrame s u := ⟨h'.rest.trans (by rw [h.rest])⟩

theorem of_set {g k : Nat} {a : StmSet} (h : SetBecomes g k a s t) : SetsFrame s t := ⟨by rw [h.rest]⟩

theorem kmr (h : SetsFrame s t) : t.kmr = s.kmr := by rw [h.rest]
theorem sram (h : SetsFrame s t) : t.sram = s.sram := by rw [h.rest]
theorem tile (h : SetsFrame s t) : t.tile = s.tile := by rw [h.rest]

end SetsFrame

section
variable (s : State)

theorem setIssued_frame (g k j p : Nat) (f : Issued → Issued) : SetsFrame s (setIssued s g k j p f) :=
  have ⟨_, h⟩ := setIssued_becomes s g k g k j p f
  .of_set h

theorem setFail_frame (g k : Nat) (f : StmFail) : SetsFrame s (setFail s g k f) := by
  unfold setFail
  dsimp only
  split
  · exact .refl s
  · split
    · split
      · exact .refl s
      · exact ⟨rfl⟩
    · exact ⟨rfl⟩

theorem failTransfer_frame (g k cause : Nat) (i : Issued) : SetsFrame s (failTransfer s g k cause i) :=
  have ⟨_, hlines⟩ := withdrawLines_becomes s g k i
  ((SetsFrame.of_set hlines).trans (setIssued_frame _ _ _ _ _ _)).trans (setFail_frame _ _ _ _)

theorem ackTransfer_frame (g : Nat) (r : Remote) (p : Nat) : SetsFrame s (ackTransfer s g r p) := by
  unfold ackTransfer
  dsimp only
  split
  · exact .refl s
  · split
    · exact .refl s
    · exact (setIssued_frame _ _ _ _ _ _).trans ⟨countDelivered_rest _ _ _ _ _⟩

theorem endRemote_frame (k : Nat) (r : Remote) (ok : Bool) : SetsFrame (setRemote s k none) (endRemote s k r ok) := by
  unfold endRemote
  dsimp only
  split
  · exact List.foldlRecOn _ _ (motive := SetsFrame _) (.refl _) fun t ht p _ => ht.trans (ackTransfer_frame t _ r p)
  · split
    · exact failTransfer_frame _ _ _ _ _
    · exact .refl _

theorem remoteOf_setRemote (k : Nat) (r : Option Remote) : remoteOf (setRemote s k r) k = r := Tab.get_set_same _ _ _ _

/-- A remote write that has ended, well or not, is no longer one. -/
theorem endRemote_ends (k : Nat) (r : Remote) (ok : Bool) :
    let t := endRemote s k r ok
    remoteOf t k = none ∧ t.sram = s.sram ∧ t.tile = s.tile := by
  have h := endRemote_frame s k r ok
  exact ⟨by rw [remoteOf, h.kmr]; exact remoteOf_setRemote s k none, h.sram, h.tile⟩

/-! ### Acknowledgements -/

/-- The transfer that an acknowledgement entry names. -/
def ackKey (e : Nat) : Nat := e % 1024 * 8 + bits e 10 3

/-- A transfer with one more acknowledgement. -/
def Remote.ack (r : Remote) (e : Nat) : Remote :=
  { r with acked := r.acked ++ [bits e 13 3], err := r.err || decide (bit e 16 = 1) }

section
variable {s : State} {e : Nat}

theorem takeAck_late (hr : remoteOf s (ackKey e) = none) (hp : portWrite s (ackKey e) = none) : takeAck s e = s.bump C.KMR_ACK_LATE_CNT 0 1 := by
  unfold takeAck
  rw [← ackKey]
  simp only [hr, hp]

section
variable {r : Remote} (hr : remoteOf s (ackKey e) = some r) (hnew : r.acked.contains (bits e 13 3) = false)
include hr hnew

theorem takeAck_open (hl : r.lastCell = none) : takeAck s e = setRemote s (ackKey e) (some (r.ack e)) := by
  unfold takeAck
  rw [← ackKey]
  simp only [hr, hnew, hl, Bool.false_eq_true, if_false]
  rw [Remote.ack, hl]

theorem takeAck_last {l : Nat} (hl : r.lastCell = some l) (hlen : r.acked.length = l) :
    takeAck s e = endRemote s (ackKey e) (r.ack e) (!(r.ack e).err) := by
  unfold takeAck
  rw [← ackKey]
  simp only [hr, hnew, hl, Bool.false_eq_true, if_false]
  exact if_pos (by rw [List.length_append, hlen]; rfl)

end

theorem takeAcks_one {c : Cell} (hn : c.count = 1) : takeAcks s c = takeAck s (ofBytesLE (c.payload.take 8)) := by
  simp [takeAcks, hn]

end

/-- What a first cell leaves of remote writes and of the requests of fabric ports is what there was. -/
theorem firstCell_transfers (p : Nat) (c : Cell) (k : Nat) :
    remoteOf (firstCell s p c) k = remoteOf s k ∧ portWrite (firstCell s p c) k = portWrite s k ∧ (firstCell s p c).streams = s.streams := by
  rw [firstCell_rest]
  exact ⟨rfl, rfl, rfl⟩

/-- An ACK cell of one entry for this device. -/
theorem exec_ackCell_here {s : State} {p : Fin 12} {c : Cell} (h : portActive s p = true) (hs : (s.kport p).spoiled = 0)
    (hq : (s.kport p).rxSeq = none) (ht : c.typ = 2) (hd : c.dst = s.node) (hn : c.count = 1) :
    exec (.ackCell p c) s = .next (takeAck (firstCell s p c) (ofBytesLE (c.payload.take 8))) :=
  congrArg Host.Outcome.next
    ((cellArrives_here _ (receiveCell_first h hs hq (by omega) (by omega)) ht hd).trans (takeAcks_one hn))

/-- An acknowledgement of no transfer is counted as late. -/
theorem takeAck_firstCell_late {s : State} {p : Fin 12} {c : Cell} {e : Nat} (hr : remoteOf s (ackKey e) = none)
    (hp : portWrite s (ackKey e) = none) :
    let t := takeAck (firstCell s p c) e
    t.rd F.KMR_ACK_LATE_CNT_COUNT 0 = (s.rd F.KMR_ACK_LATE_CNT_COUNT 0 + 1) % 2 ^ 64 ∧ t.streams = s.streams := by
  obtain ⟨hremote, hport, hstreams⟩ := firstCell_transfers s p c (ackKey e)
  rw [takeAck_late (hremote.trans hr) (hport.trans hp)]
  constructor
  · refine (State.rd_bump_same _ C.KMR_ACK_LATE_CNT 0 1 (by decide) (by decide)).trans ?_
    exact congrArg (fun n => (n + 1) % 2 ^ 64) ((firstCell_frame s p c).device (by decide))
  · rw [State.bump_rest]
    exact hstreams

/-! ### The acknowledgements that do not come -/

section
variable {s : State} {k : Nat}

theorem ackTimeout_none (hr : remoteOf s k = none) (hp : portWrite s k = none) : ackTimeout s k = s := by
  simp [ackTimeout, hr, hp]

theorem ackTimeout_early {r : Remote} (hr : remoteOf s k = some r)
    (h : r.lastCell = none ∨ (s.trk.ts + 2 ^ 48 - r.sentAt) % 2 ^ 48 < s.rd F.KMR_ACK_TO_CYCLES 0) : ackTimeout s k = s := by
  simp only [ackTimeout, hr]
  rw [if_neg]
  rw [Bool.and_eq_true, decide_eq_true_eq]
  rintro ⟨hlast, hdue⟩
  rcases h with h | h
  · rw [h] at hlast
    cases hlast
  · exact Nat.not_le.2 h hdue

theorem ackTimeout_due {r : Remote} (hr : remoteOf s k = some r) (hlast : r.lastCell.isSome = true)
    (hdue : s.rd F.KMR_ACK_TO_CYCLES 0 ≤ (s.trk.ts + 2 ^ 48 - r.sentAt) % 2 ^ 48) : ackTimeout s k = endRemote s k r false := by
  simp only [ackTimeout, hr]
  exact if_pos (by rw [hlast, Bool.true_and]; exact decide_eq_true hdue)

end

end

/-! ### Batons of a foreign domain (R188, R262) -/

/-- The baton of a SYNC cell that carries one. -/
def cellBaton (c : Cell) : Baton := batonOf ((List.range 4).map (fun k => ofBytesLE ((c.payload.drop (8 * k)).take 8)))

theorem takeBatons_rejected {s : State} {p h : Nat} {c : Cell} (hn : c.count = 1) (hcnt : 0 < (cellBaton c).cnt)
    (hh : hurdleOfDA (gaDA (cellBaton c).ga) = some h) :
    takeBatons s p c true = dropBaton s (clusterOfHurdle h) F.HUR_STATUS_BATON_REJ := by
  have hrange : List.range (Nat.min c.count 16) = [0] := by rw [hn]; rfl
  have hbaton : batonOf ((List.range 4).map (fun k => ofBytesLE ((c.payload.drop (8 * k)).take 8))) = cellBaton c := rfl
  simp only [takeBatons, hrange, List.foldl_cons, List.foldl_nil, Nat.mul_zero, Nat.zero_add, hbaton, hcnt, hh, decide_true,
    Bool.and_self, if_true]

theorem hurdleOfDA_lt {da h : Nat} (hda : hurdleOfDA da = some h) : h / 2048 < 32 := by
  unfold hurdleOfDA windowBase at hda
  dsimp only at hda
  split_ifs at hda
  cases hda
  omega

theorem dropBaton_shows (s : State) {c : Nat} (hc : c < 131072) :
    let t := dropBaton s c F.HUR_STATUS_BATON_REJ
    t.rd F.HUR_STATUS_BATON_REJ c = 1 ∧ t.rd F.HUR_BATON_DROP_CNT_COUNT c = (s.rd F.HUR_BATON_DROP_CNT_COUNT c + 1) % 2 ^ 64 ∧
      LinkFrame [F.HUR_BATON_DROP_CNT_COUNT, F.HUR_WRAP_BATON_DROP, F.HUR_STATUS_BATON_REJ] s t := by
  let u := (s.bump C.HUR_BATON_DROP_CNT c 1).wr F.HUR_STATUS_BATON_REJ c 1
  have hframe : LinkFrame [F.HUR_BATON_DROP_CNT_COUNT, F.HUR_WRAP_BATON_DROP, F.HUR_STATUS_BATON_REJ] s u :=
    ((LinkFrame.refl _ s).bump (c := C.HUR_BATON_DROP_CNT) 1 hc (by decide) (by decide)).wr 1 hc (by decide)
  have hcount : u.rd F.HUR_BATON_DROP_CNT_COUNT c = (s.rd F.HUR_BATON_DROP_CNT_COUNT c + 1) % 2 ^ 64 :=
    (State.rd_wr_key _ _ (by decide) hc hc).trans (State.rd_bump_same s C.HUR_BATON_DROP_CNT c 1 (by decide) hc)
  have hflag : u.rd F.HUR_STATUS_BATON_REJ c = 1 := State.rd_wr_same _ _ _ _
  unfold dropBaton
  dsimp only
  split
  · exact ⟨hflag, hcount, hframe.emit _⟩
  · exact ⟨hflag, hcount, hframe⟩

/-- A counted baton of a foreign domain is rejected at the cluster of its hurdle (R262). -/
theorem syncCell_rejects {s : State} {p : Fin 12} {c : Cell} {h : Nat} (hactive : portActive s p = true) (hs : (s.kport p).spoiled = 0)
    (hq : (s.kport p).rxSeq = none) (ht : c.typ = 3) (hd : c.dst = s.node) (hn : c.count = 1) (hcnt : 0 < (cellBaton c).cnt)
    (hh : hurdleOfDA (gaDA (cellBaton c).ga) = some h) :
    let t := syncCell s p c true
    t.rd F.HUR_STATUS_BATON_REJ (h / 2048) = 1 ∧
      t.rd F.HUR_BATON_DROP_CNT_COUNT (h / 2048) = (s.rd F.HUR_BATON_DROP_CNT_COUNT (h / 2048) + 1) % 2 ^ 64 ∧ t.sync = s.sync ∧ t.tile = s.tile := by
  have hc : h / 2048 < 131072 := by have := hurdleOfDA_lt hh; omega
  have hfirst := firstCell_frame s p c
  obtain ⟨hflag, hcount, hframe⟩ := dropBaton_shows (firstCell s p c) hc
  rw [syncCell_here (receiveCell_first hactive hs hq (by omega) (by omega)) ht hd, takeBatons_rejected hn hcnt hh]
  rw [hfirst.fields _ _ hc (by decide)] at hcount
  exact ⟨hflag, hcount, hframe.sync.trans hfirst.sync, hframe.tile.trans hfirst.tile⟩

/-! ### TRACK cells (R202, R255, R265) -/

/-- The fields of a track that a sample may change. -/
def sampleFields : List Fld := [F.TRK_STATUS_STATE, F.TRK_INC_INC, F.TRK_LAP_LAP, F.TRK_STATUS_LAP_WRAP, F.TRK_EDGE_CNT_COUNT, F.TRK_WRAP_FLAGS]

theorem trackSample_frame (s : State) {u : Nat} (hu : u < 8) (lap angle inc : Nat) (locked : Bool) (limit : Option (Nat × Nat)) :
    PortsKept sampleFields s (trackSample s u lap angle inc locked limit) := by
  have hi : u < 131072 := by omega
  have hleave (t : State) : PortsKept sampleFields t (leaveStall t u) :=
    .ite ((((PortsKept.refl _ t).wr _ hi (by decide)).wr _ hi (by decide)).setTrack _ _) (.refl _ t)
  have hlap (t : State) (n : Nat) : PortsKept sampleFields t (setLap t u n) :=
    have h : PortsKept sampleFields t (t.wr F.TRK_LAP_LAP u n) := (PortsKept.refl _ t).wr _ hi (by decide)
    .ite (h.wr _ hi (by decide)) h
  have hmove (t : State) (n : Nat) : PortsKept sampleFields t (moveAhead t u n) := .ite ((hlap _ _).setTrack _ _) (.refl _ t)
  unfold trackSample
  extract_lets v p p' ahead moved k kept shown
  have hshown : PortsKept sampleFields s shown :=
    (((((hleave s).trans (hmove _ _)).setTrack _ _).wr _ hi (by decide)).wr _ hi (by decide))
  exact .ite (.refl _ s) (.ite (hshown.bump (c := C.TRK_EDGE_CNT) _ hi (by decide) (by decide)) hshown)

/-- The frame counter of one port set to a frame and slot. -/
def portFrameSet (frame slot : Nat) (s : State) (p : Nat) : State :=
  (s.setKport p { s.kport p with slot := slot % s.rd F.KMR_FRAME_LEN p }).wr F.KMR_FRAME_FRAME_NO p (frame + slot / s.rd F.KMR_FRAME_LEN p)

section
variable (s : State) (frame slot : Nat)

theorem portFrameSet_frame {p : Nat} (hp : p < 131072) : LinkFrame [F.KMR_FRAME_FRAME_NO] s (portFrameSet frame slot s p) :=
  ((LinkFrame.refl _ s).setKport _ _).wr _ hp (by decide)

/-- Each of the ports that are set shows the frame and the slot. -/
theorem portFrameSet_foldl {ps : List Nat} (hps : ∀ p ∈ ps, p < 131072) {i : Nat} (hi : i ∈ ps) :
    let t := ps.foldl (portFrameSet frame slot) s
    (t.kport i).slot = slot % s.rd F.KMR_FRAME_LEN i ∧
      t.rd F.KMR_FRAME_FRAME_NO i = (frame + slot / s.rd F.KMR_FRAME_LEN i) % 2 ^ F.KMR_FRAME_FRAME_NO.width := by
  induction ps using List.reverseRecOn with
  | nil => cases hi
  | append_singleton ps p ih =>
    have hbefore {q : Nat} (hq : q ∈ ps) : q < 131072 := hps q (List.mem_append_left _ hq)
    have hframe : LinkFrame [F.KMR_FRAME_FRAME_NO] s (ps.foldl (portFrameSet frame slot) s) :=
      (LinkFrame.refl _ s).foldl fun u q hq => portFrameSet_frame u frame slot (hbefore hq)
    have hlen := hframe.fields F.KMR_FRAME_LEN i (hps i hi) (by decide)
    rw [List.foldl_append, List.foldl_cons, List.foldl_nil]
    generalize ps.foldl (portFrameSet frame slot) s = t at *
    by_cases hip : i = p
    · subst hip
      rw [← hlen]
      exact ⟨by rw [portFrameSet, State.wr_kport, State.kport_setKport], State.rd_wr_same _ _ _ _⟩
    · obtain ⟨hslot, hno⟩ := ih (fun q hq => hbefore hq) ((List.mem_append.1 hi).resolve_right (by simpa using hip))
      refine ⟨?_, ?_⟩
      · rw [portFrameSet, State.wr_kport, State.kport_setKport_other _ hip, hslot]
      · rw [portFrameSet, State.rd_wr_other _ _ (hps i hi) (hps p (by simp)) (.inr hip)]
        exact hno

theorem setFrame_shows {i : Nat} (hi : i < 12) :
    ((setFrame s frame slot).kport i).slot = slot % s.rd F.KMR_FRAME_LEN i ∧
      (setFrame s frame slot).rd F.KMR_FRAME_FRAME_NO i = (frame + slot / s.rd F.KMR_FRAME_LEN i) % 2 ^ F.KMR_FRAME_FRAME_NO.width :=
  portFrameSet_foldl s frame slot (fun p hp => by have := List.mem_range.1 hp; omega) (List.mem_range.2 hi)

theorem setFrame_frame : LinkFrame [F.KMR_FRAME_FRAME_NO] s (setFrame s frame slot) :=
  (LinkFrame.refl _ s).foldl fun u p hp => portFrameSet_frame u frame slot (by have := List.mem_range.1 hp; omega)

end

/-! ### The spread of the reference (R264) -/

/-- The fields that show a spread reference, and the mode that it holds. -/
def spreadFields : List Fld := [F.KMR_DEV_STATUS_SPREAD_IN, F.SES_CLOCK_MODE]

section
variable (s : State)

theorem showSpread_frame : LinkFrame spreadFields s (showSpread s) := by
  have hshown (v : Nat) : LinkFrame spreadFields s (s.wr F.KMR_DEV_STATUS_SPREAD_IN 0 v) := (LinkFrame.refl _ s).wr _ (by decide) (by decide)
  exact .ite ((hshown _).wr _ (by decide) (by decide)) (hshown _)

theorem showSpread_kmr : (showSpread s).kmr = s.kmr := by
  unfold showSpread
  dsimp only
  split <;> rfl

theorem noteSpread_frame (p : Nat) (v : Bool) : LinkFrame spreadFields s (noteSpread s p v) :=
  .ite (((LinkFrame.refl _ s).setKmr _).trans (showSpread_frame _)) (.refl _ s)

theorem noteSpread_kmr (p : Nat) (v : Bool) : (noteSpread s p v).kmr = { s.kmr with spread := (noteSpread s p v).kmr.spread } := by
  unfold noteSpread
  split
  · rw [showSpread_kmr]
    rfl
  · rfl

theorem noteSpread_kport (p : Nat) (v : Bool) (i : Nat) : (noteSpread s p v).kport i = s.kport i := by
  rw [State.kport, noteSpread_kmr]
  rfl

end

theorem LinkFrame.cycleSlots {l : List Fld} {s t : State} (h : LinkFrame l s t) (p : Fin 12)
    (hl : ∀ f ∈ [F.SES_CLOCK_MODE, F.SES_CLOCK_STEP, F.KMR_MODE_FEC, F.KMR_MODE_LANES, F.KMR_MODE_RATE], ∀ g ∈ l, f.key ≠ g.key) (n : Nat) :
    cycleSlots t p n = cycleSlots s p n := by
  simp only [Machine.cycleSlots, rawOf, h.device (hl F.SES_CLOCK_MODE (by simp)), h.device (hl F.SES_CLOCK_STEP (by simp)),
    h.port p (hl F.KMR_MODE_FEC (by simp)), h.port p (hl F.KMR_MODE_LANES (by simp)), h.port p (hl F.KMR_MODE_RATE (by simp))]

/-- The frame and the slot that a TRACK cell carries. -/
def cellFrame (c : Cell) : Nat := ofBytesLE ((c.payload.drop 256).take 4)
def cellSlot (c : Cell) : Nat := ofBytesLE ((c.payload.drop 260).take 4)

/-- The samples of a TRACK cell taken by their tracks. -/
def samplesTaken (s : State) (c : Cell) : State :=
  (List.range 8).foldl (fun s t =>
    let b := (c.payload.drop (32 * t)).take 32
    let at' := fun o n => ofBytesLE ((b.drop o).take n)
    trackSample s t (at' 0 8) (at' 8 4) (at' 12 6) (decide (at' 18 1 % 4 = trkLOCKED)) (if bit (at' 18 1) 2 = 1 then some (at' 24 8, at' 20 4) else none)) s

theorem samplesTaken_frame (s : State) (c : Cell) : PortsKept sampleFields s (samplesTaken s c) :=
  (PortsKept.refl _ s).foldl fun v _ hi => trackSample_frame v (List.mem_range.1 hi) _ _ _ _ _

theorem takeTrack_eq (s : State) (p : Nat) (c : Cell) :
    takeTrack s p c =
      noteSpread (setFrame (samplesTaken s c) (cellFrame c)
        (cellSlot c + cycleSlots (samplesTaken s c) p ((samplesTaken s c).rd F.KMR_LAT_ONE_WAY p))) p
        (decide (ofBytesLE ((c.payload.drop 264).take 1) % 2 = 1)) := by
  unfold takeTrack samplesTaken cellFrame cellSlot
  rfl

/-- A TRACK cell sets the frame of every port, the cell's slot advanced by the way it has come. -/
theorem takeTrack_sets (s : State) (p : Fin 12) (c : Cell) :
    let slot := cellSlot c + cycleSlots s p (s.rd F.KMR_LAT_ONE_WAY p)
    let t := takeTrack s p c
    t.sram = s.sram ∧ t.mem = s.mem ∧ ∀ i, i < 12 → (t.kport i).slot = slot % s.rd F.KMR_FRAME_LEN i ∧
      t.rd F.KMR_FRAME_FRAME_NO i = (cellFrame c + slot / s.rd F.KMR_FRAME_LEN i) % 2 ^ F.KMR_FRAME_FRAME_NO.width := by
  intro slot t
  have ht : t = _ := takeTrack_eq s p c
  have hu := samplesTaken_frame s c
  generalize samplesTaken s c = u at ht hu
  rw [hu.port p (by decide), hu.toLinkFrame.cycleSlots p (by decide)] at ht
  have hspread := noteSpread_frame (setFrame u (cellFrame c) slot) p (decide (ofBytesLE ((c.payload.drop 264).take 1) % 2 = 1))
  have hset := setFrame_frame u (cellFrame c) slot
  rw [ht]
  refine ⟨(hspread.sram.trans hset.sram).trans hu.sram, (hspread.mem.trans hset.mem).trans hu.mem, fun i hi => ?_⟩
  obtain ⟨hslot, hno⟩ := setFrame_shows u (cellFrame c) slot hi
  rw [hu.fields F.KMR_FRAME_LEN i (by omega) (by decide)] at hslot hno
  exact ⟨by rw [noteSpread_kport, hslot], (hspread.fields _ i (by omega) (by decide)).trans hno⟩

end Sys2Proof.Machine
end

section
/-!
PROOFS. Slots that transmit (R250, R252, R254, R255), and with what cells do when they arrive how a link carries them.
-/
namespace Sys2Proof.Machine

section
variable (s : State) (p : Fin 12) (c : Cell)

/-! ### A cell begins transmission -/

/-- The cell with the next SEQ of the port. -/
def nextCell : Cell := { c with seq := ((s.kport p).txSeq + 1) % 2 ^ 32 }

/-- A cell that leaves as it stood in its queue, but for its SEQ: neither a TRACK nor a CONTROL cell, or one that is relayed. -/
theorem transmit_plain {relayed : Bool} (h : c.typ ≠ 4 ∧ c.typ ≠ 5 ∨ relayed = true) :
    transmit s p c relayed =
      (noteSent ((s.setKport p { s.kport p with txSeq := ((s.kport p).txSeq + 1) % 2 ^ 32 }).bump C.KMR_TX_CELL_CNT p 1) (nextCell s p c)).emit
        (.cell p (nextCell s p c)) := by
  unfold transmit
  extract_lets x c1 c2 t
  have htrack : ¬ (c1.typ = 4 ∧ (!relayed) = true) := by rcases h with ⟨h4, -⟩ | h <;> simp_all [c1]
  have hcal : ¬ (c1.typ = 5 ∧ (!relayed) = true ∧ natAt c1.payload 0 2 = 0x02) := by rcases h with ⟨-, h5⟩ | h <;> simp_all [c1]
  have hc2 : c2 = nextCell s p c := (if_neg htrack).trans (if_neg hcal)
  rw [hc2]

/-- A transmission counts, takes the next SEQ, and leaves the device. -/
theorem transmit_sends {relayed : Bool} (h : c.typ ≠ 4 ∧ c.typ ≠ 5 ∨ relayed = true) :
    let t := transmit s p c relayed
    t.outbox = .cell p (nextCell s p c) :: s.outbox ∧ t.kport p = { s.kport p with txSeq := ((s.kport p).txSeq + 1) % 2 ^ 32 } ∧
      t.rd F.KMR_TX_CELL_CNT_COUNT p = (s.rd F.KMR_TX_CELL_CNT_COUNT p + 1) % 2 ^ 64 ∧
      LinkFrame [F.KMR_TX_CELL_CNT_COUNT, F.KMR_WRAP_FLAGS] s t := by
  let u := (s.setKport p { s.kport p with txSeq := ((s.kport p).txSeq + 1) % 2 ^ 32 }).bump C.KMR_TX_CELL_CNT p 1
  have ht : transmit s p c relayed = (noteSent u (nextCell s p c)).emit (.cell p (nextCell s p c)) := transmit_plain s p c h
  have hnoted := noteSent_frame u [] (nextCell s p c)
  rw [ht]
  refine ⟨?_, ?_, ?_, ?_⟩
  · exact congrArg (Out.cell p (nextCell s p c) :: ·) ((noteSent_outbox u _).trans (State.bump_outbox _ _ _ _))
  · rw [State.emit_kport, noteSent_kport, State.bump_kport, State.kport_setKport]
  · exact (hnoted.port p (by decide)).trans (State.rd_bump_port _ (c := C.KMR_TX_CELL_CNT) p 1 (by decide))
  · exact ((((LinkFrame.refl _ s).setKport _ _).bump (c := C.KMR_TX_CELL_CNT) _ (port_index_lt p) (by decide) (by decide)).trans
      (noteSent_frame u _ _)).emit _

/-! ### The next slot -/

/-- The slot after the current one, slot 0 after the last of a frame. -/
def slotAfter : Nat := if (s.kport p).slot + 1 < s.rd F.KMR_FRAME_LEN p then (s.kport p).slot + 1 else 0

theorem nextSlot_begins :
    (nextSlot s p).kport p = { s.kport p with slot := slotAfter s p } ∧ (nextSlot s p).outbox = s.outbox ∧
      LinkFrame [F.KMR_FRAME_FRAME_NO] s (nextSlot s p) := by
  unfold nextSlot slotAfter
  dsimp only
  split
  · exact ⟨State.kport_setKport _ _ _, rfl, (LinkFrame.refl _ s).setKport _ _⟩
  · exact ⟨State.kport_setKport _ _ _, rfl, ((LinkFrame.refl _ s).setKport _ _).wr _ (port_index_lt p) (by decide)⟩

/-! ### A slot (R252) -/

theorem slotTransmission_inactive (h : portActive s p = false) : slotTransmission s p = s := if_pos (by simp [h])

section
variable {s p c}

/-- A port whose queue `q` has lost its head. -/
def headTaken (s : State) (p q : Nat) (rest : List (Cell × Bool)) : State :=
  s.setKport p { s.kport p with queues := Tab.set [] (s.kport p).queues q rest }

theorem slotTransmission_head {q : Nat} {r : Bool} {rest : List (Cell × Bool)} (h : portActive s p = true)
    (hswap : s.on F.KMR_FRAME_SWAP p = false)
    (hawake : (groupLanes s p).any (fun i => s.on F.LNE_STAT_TX_ASLEEP (laneOf p i)) = false)
    (hfind : (slotQueues s p).find? (fun q => !((Tab.get [] (s.kport p).queues q).isEmpty)) = some q)
    (hhead : Tab.get [] (s.kport p).queues q = (c, r) :: rest) :
    slotTransmission s p = nextSlot (transmit (headTaken s p q rest) p c r) p := by
  unfold slotTransmission
  rw [if_neg (by simp [h]), applySwap_waits s p (.inl hswap)]
  simp only [hfind, hhead, hawake, Bool.false_eq_true, if_false]
  rfl

/-- A slot transmits the head of the first queue that it looks at and finds a cell in. -/
theorem slotTransmission_transmits {q : Nat} {r : Bool} {rest : List (Cell × Bool)} (h : portActive s p = true)
    (hswap : s.on F.KMR_FRAME_SWAP p = false)
    (hawake : (groupLanes s p).any (fun i => s.on F.LNE_STAT_TX_ASLEEP (laneOf p i)) = false)
    (hfind : (slotQueues s p).find? (fun q => !((Tab.get [] (s.kport p).queues q).isEmpty)) = some q)
    (hhead : Tab.get [] (s.kport p).queues q = (c, r) :: rest) (hplain : c.typ ≠ 4 ∧ c.typ ≠ 5 ∨ r = true) :
    let t := slotTransmission s p
    t.outbox = .cell p (nextCell s p c) :: s.outbox ∧ Tab.get [] (t.kport p).queues q = rest ∧
      (t.kport p).txSeq = ((s.kport p).txSeq + 1) % 2 ^ 32 ∧ t.rd F.KMR_TX_CELL_CNT_COUNT p = (s.rd F.KMR_TX_CELL_CNT_COUNT p + 1) % 2 ^ 64 ∧
      t.tile = s.tile ∧ t.sram = s.sram ∧ (t.kport p).slot = slotAfter s p := by
  let u := headTaken s p q rest
  have hu : u.kport p = { s.kport p with queues := Tab.set [] (s.kport p).queues q rest } := State.kport_setKport _ _ _
  have hcell : nextCell u p c = nextCell s p c := by rw [nextCell, hu, nextCell]
  obtain ⟨hsent, hport, hcount, hframe⟩ := transmit_sends u p c hplain
  obtain ⟨hnext, hout, hslot⟩ := nextSlot_begins (transmit u p c r) p
  have hafter : slotAfter (transmit u p c r) p = slotAfter s p := by
    rw [slotAfter, hport, hu, hframe.port p (by decide), slotAfter]
    rfl
  rw [slotTransmission_head h hswap hawake hfind hhead]
  refine ⟨?_, ?_, ?_, ?_, hslot.tile.trans hframe.tile, hslot.sram.trans hframe.sram, ?_⟩
  · rw [hout, hsent, hcell]
    rfl
  · rw [hnext, hport, hu]
    exact Tab.get_set_same _ _ _ _
  · rw [hnext, hport, hu]
  · exact (hslot.port p (by decide)).trans hcount
  · rw [hnext, hafter]

end

end

/-- Settles O39: each command by what the receiver makes of its cell and by what the cell then does, a slot by the head of its queue. -/
theorem cellsArriveOnceAndAreAcknowledged : Obligations.CellsArriveOnceAndAreAcknowledged := by
  unfold Obligations.CellsArriveOnceAndAreAcknowledged
  refine ⟨fun p c ecc foreign s i hi => ⟨fun h => ?_, fun h hs => ?_, fun h hs hc => ?_, fun l h hs hc hq _ _ hl => ?_,
      fun h hs hq hd hh hwrite hack htrack hsync => ?_⟩,
    fun p c foreign s h hs hq ht hd hn hh => ?_, fun p c ecc s h hs hq ht hd => ?_, fun p c s e h hs hq ht hd hn he => ?_,
    fun p c s hurdle h hs hq ht hd hn => ?_, fun p c s h hs hq ht hd => ?_, fun e slot s => ⟨fun hr hp => ?_, fun r hr hearly => ?_,
      fun r hr hlast hdue => ?_⟩, fun p s h => ?_, fun p s q c r rest h hswap hawake hfind hhead hplain => ?_⟩
  case refine_1 => exact cellCommand_refused hi (receiveCell_inactive h)
  case refine_2 => exact cellCommand_refused hi (receiveCell_spoiled h hs)
  case refine_3 => exact cellCommand_refused hi (receiveCell_idle h hs hc)
  case refine_4 => exact ⟨_, cellCommand_refused hi (receiveCell_repeated h hs hq hc hl), repeatedCell_shows s p⟩
  case refine_5 =>
    obtain ⟨hcount, hframe, hqueues⟩ := hopsDrop_firstCell s p c
    exact ⟨_, cellCommand_hops hi h hs hq hd hh hwrite hack htrack hsync, hcount, hframe.sram, hframe.full, hframe.tile, hqueues⟩
  case refine_6 =>
    obtain ⟨hcount, hframe, hqueues⟩ := hopsDrop_firstCell s p c
    have hspent : syncCell s p c foreign = hopsDrop (firstCell s p c) :=
      (syncCell_relayed (receiveCell_first h hs hq (by omega) (by omega)) ht hd).trans (relaySync_spent hn hh)
    exact ⟨_, congrArg Host.Outcome.next hspent, hcount, hqueues, hframe.tile, hframe.sync⟩
  case refine_7 =>
    intro bs ws k may hfirst hlast hup
    have hserved : CellServed s c := ⟨hfirst, hlast, hup⟩
    exact ⟨fun hnone hidle hmay => exec_writeCell_commits h hs hq ht hd hserved ecc hnone hidle hmay,
      fun hwait => exec_writeCell_waits h hs hq ht hd hserved ecc hwait⟩
  case refine_8 =>
    have hstep : exec (.ackCell p c) s = .next (takeAck (firstCell s p c) e) := he ▸ exec_ackCell_here h hs hq ht hd hn
    obtain ⟨hremote, -, hstreams⟩ := firstCell_transfers s p c (ackKey e)
    refine ⟨fun hr hp => ⟨_, hstep, takeAck_firstCell_late hr hp⟩, fun r l hr hl hnew hlen => ⟨_, hstep, ?_⟩,
      fun r hr hl hnew => ⟨_, hstep, ?_⟩⟩
    · rw [takeAck_last (hremote.trans hr) hnew hl hlen]
      exact (endRemote_ends _ _ _ _).1
    · rw [takeAck_open (hremote.trans hr) hnew hl]
      exact ⟨remoteOf_setRemote _ _ _, hstreams⟩
  case refine_9 =>
    intro b hcnt hh
    exact ⟨_, rfl, syncCell_rejects h hs hq ht hd hn hcnt hh⟩
  case refine_10 =>
    intro num slot
    have hfirst := firstCell_frame s p c
    have hstep : exec (.trackCell p c) s = .next (takeTrack (firstCell s p c) p c) :=
      congrArg Host.Outcome.next (cellArrives_here _ (receiveCell_first h hs hq (by omega) (by omega)) ht hd)
    obtain ⟨hsram, hmem, hports⟩ := takeTrack_sets (firstCell s p c) p c
    rw [hfirst.port p (by decide), hfirst.cycleSlots p (by decide)] at hports
    refine ⟨_, hstep, hsram.trans hfirst.sram, hmem.trans hfirst.mem, fun i hi => ?_⟩
    have hlen := hfirst.fields F.KMR_FRAME_LEN i (by omega) (by decide)
    rw [← hlen]
    exact hports i hi
  case refine_11 => exact congrArg Host.Outcome.next (ackTimeout_none hr hp)
  case refine_12 => exact congrArg Host.Outcome.next (ackTimeout_early hr hearly)
  case refine_13 => exact ⟨_, congrArg Host.Outcome.next (ackTimeout_due hr hlast hdue), endRemote_ends s _ r false⟩
  case refine_14 => exact congrArg Host.Outcome.next (slotTransmission_inactive s p h)
  case refine_15 => exact ⟨_, rfl, slotTransmission_transmits h hswap hawake hfind hhead hplain⟩

end Sys2Proof.Machine
end

section
/-!
PROOFS. HELLOs (R257, R258, R264): the partner that they show, the manager that is followed, and the node ID that comes with one.
-/
namespace Sys2Proof.Machine

/-! ### The parts of a HELLO -/

/-- The partner's registers of a port. -/
def partnerFields : List Fld := [F.KMR_PARTNER_NODE, F.KMR_PARTNER_PORT, F.KMR_PARTNER_ROLE, F.KMR_PARTNER_SERIAL_SERIAL]

/-- The fields of the device that a HELLO may change. -/
def helloFields : List Fld := [F.KMR_ROLE_DOMAIN, F.KMR_ROLE_NODE, F.KMR_DEV_STATUS_SPREAD_IN, F.SES_CLOCK_MODE]

/-- The sender of a HELLO shown at a port. -/
def partnerShown (s : State) (p : Nat) (h : Hello) : State :=
  (((s.wr F.KMR_PARTNER_NODE p h.node).wr F.KMR_PARTNER_PORT p h.port).wr F.KMR_PARTNER_ROLE p h.role).wr F.KMR_PARTNER_SERIAL_SERIAL p h.serial

/-- Assured mode of the sender noted, by its node. -/
def assuredNoted (s : State) (h : Hello) : State :=
  let rest := s.kmr.assured.filter (fun n => decide (n ≠ h.node))
  s.setKmr { s.kmr with assured := if h.assured then rest ++ [h.node] else rest }

/-- What a HELLO does once its manager and its node ID are taken. -/
def helloEnd (s : State) (p : Nat) (h : Hello) : State :=
  answerHello (if 1 ≤ h.role then noteSpread (assuredNoted s h) p h.spread else assuredNoted s h) p h

theorem takeHello_eq (s : State) (p : Nat) (h : Hello) :
    takeHello s p h = helloEnd (takeAssign (followManager (partnerShown s p h) p h) p h) p h := rfl

/-- From `s` to `t` the manager that the device follows, and the ports to it, have not changed. -/
structure SameManager (s t : State) : Prop where
  manager : t.kmr.manager = s.kmr.manager
  ports : t.kmr.mgrPorts = s.kmr.mgrPorts

theorem SameManager.refl (s : State) : SameManager s s := ⟨rfl, rfl⟩

theorem SameManager.trans {s t u : State} (h : SameManager s t) (h' : SameManager t u) : SameManager s u :=
  ⟨h'.manager.trans h.manager, h'.ports.trans h.ports⟩

theorem Queued.sameManager {s t : State} (h : Queued s t) : SameManager s t := ⟨by rw [h.kmr], by rw [h.kmr]⟩

theorem startRebuild_sameManager (s : State) : SameManager s (startRebuild s) := ⟨by rw [startRebuild_rest], by rw [startRebuild_rest]⟩

section
variable (s : State) (h : Hello)

/-! ### The partner -/

section
variable (p : Fin 12)

theorem partnerShown_frame : LinkFrame partnerFields s (partnerShown s p h) :=
  have hp := port_index_lt p
  .wr (.wr (.wr (.wr (.refl _ s) _ hp (by decide)) _ hp (by decide)) _ hp (by decide)) _ hp (by decide)

theorem partnerShown_shows :
    let t := partnerShown s p h
    t.rd F.KMR_PARTNER_PORT p = h.port % 2 ^ F.KMR_PARTNER_PORT.width ∧ t.rd F.KMR_PARTNER_ROLE p = h.role % 2 ^ F.KMR_PARTNER_ROLE.width ∧
      t.rd F.KMR_PARTNER_SERIAL_SERIAL p = h.serial % 2 ^ 64 := by
  refine ⟨?_, ?_, State.rd_wr_same _ _ _ _⟩ <;> simp (disch := decide) only [partnerShown, State.rd_wr_port, State.rd_wr_same]

end

/-! ### The manager (R257) -/

variable (p : Nat)

theorem followManager_frame : LinkFrame [F.KMR_ROLE_DOMAIN] s (followManager s p h) := by
  unfold followManager
  dsimp only
  split
  · exact .refl _ s
  · split
    · exact ((LinkFrame.refl _ s).setKmr _).wr _ (by decide) (by decide)
    · exact (LinkFrame.refl _ s).setKmr _

variable {s h}

/-- A HELLO of no higher role gives no orders. -/
theorem followManager_ignored (hrole : h.role ≤ kmrRole s) : followManager s p h = s := if_pos hrole

/-- The first manager heard is followed, over the port on which it was heard. -/
theorem followManager_first (hnone : s.kmr.manager = none) (hports : s.kmr.mgrPorts = []) (hrole : kmrRole s < h.role) :
    followManager s p h = (s.setKmr { s.kmr with manager := some h.node, mgrPorts := [p] }).wr F.KMR_ROLE_DOMAIN 0 h.domain := by
  simp [followManager, hnone, hports, Nat.not_le.2 hrole]

/-- A port to the manager stays one. -/
theorem followManager_ports {i : Nat} (hi : i ∈ s.kmr.mgrPorts) : i ∈ (followManager s p h).kmr.mgrPorts := by
  unfold followManager
  dsimp only
  split
  · exact hi
  · split
    · change i ∈ if s.kmr.mgrPorts.isEmpty then [p] else s.kmr.mgrPorts
      rwa [if_neg (by simp [List.ne_nil_of_mem hi])]
    · change i ∈ if s.kmr.manager = some h.node ∧ !(s.kmr.mgrPorts.contains p) then s.kmr.mgrPorts ++ [p] else s.kmr.mgrPorts
      split
      · exact List.mem_append_left _ hi
      · exact hi

/-! ### The node ID (R258) -/

variable (s)

/-- A device with a node ID of its own, before it looks for its members again. -/
def nodeShown (n : Nat) : State :=
  if kmrRole (s.wr F.KMR_ROLE_NODE 0 n) = 2 then (s.wr F.KMR_ROLE_NODE 0 n).wr F.KMR_ROLE_DOMAIN 0 n else s.wr F.KMR_ROLE_NODE 0 n

theorem takeNode_eq (n : Nat) : takeNode s n = startRebuild (nodeShown s n) := rfl

theorem nodeShown_frame (n : Nat) : LinkFrame [F.KMR_ROLE_DOMAIN, F.KMR_ROLE_NODE] s (nodeShown s n) := by
  have hnode : LinkFrame [F.KMR_ROLE_DOMAIN, F.KMR_ROLE_NODE] s (s.wr F.KMR_ROLE_NODE 0 n) := (LinkFrame.refl _ s).wr _ (by decide) (by decide)
  exact .ite (hnode.wr _ (by decide) (by decide)) hnode

theorem nodeShown_kmr (n : Nat) : (nodeShown s n).kmr = s.kmr := by
  unfold nodeShown
  split <;> rfl

theorem nodeShown_node {n : Nat} (hn : n < 2 ^ 14) : (nodeShown s n).node = n := by
  have hnode : (s.wr F.KMR_ROLE_NODE 0 n).node = n := (State.rd_wr_same _ _ _ _).trans (Nat.mod_eq_of_lt hn)
  unfold nodeShown
  split
  · exact (State.rd_wr_key _ _ (by decide) (by decide) (by decide)).trans hnode
  · exact hnode

theorem takeNode_frame (n : Nat) : LinkFrame [F.KMR_ROLE_DOMAIN, F.KMR_ROLE_NODE] s (takeNode s n) := by
  rw [takeNode_eq]
  exact (nodeShown_frame s n).trans (startRebuild_frame _ _)

theorem takeNode_sameManager (n : Nat) : SameManager s (takeNode s n) := by
  obtain ⟨hmanager, hports⟩ := startRebuild_sameManager (nodeShown s n)
  rw [nodeShown_kmr] at hmanager hports
  exact ⟨hmanager, hports⟩

theorem takeNode_node {n : Nat} (hn : n < 2 ^ 14) : (takeNode s n).node = n :=
  (State.rd_of_regs (startRebuild_regs _) _ _).trans (nodeShown_node s hn)

theorem takeAssign_keeps : LinkFrame [F.KMR_ROLE_DOMAIN, F.KMR_ROLE_NODE] s (takeAssign s p h) ∧ SameManager s (takeAssign s p h) := by
  have hsame : LinkFrame [F.KMR_ROLE_DOMAIN, F.KMR_ROLE_NODE] s s ∧ SameManager s s := ⟨.refl _ s, .refl s⟩
  unfold takeAssign
  split
  · exact hsame
  · split
    · exact hsame
    · split
      · split
        · exact hsame
        · exact ⟨takeNode_frame s _, takeNode_sameManager s _⟩
      · have hsent := sendHello_queued s
        exact ⟨(hsent _ _).frame _, (hsent _ _).sameManager⟩

variable {s}

theorem takeAssign_none (hnone : h.assign = none) : takeAssign s p h = s := by simp [takeAssign, hnone]

/-- A node ID at the end of its path that comes from the manager followed is this device's. -/
theorem takeAssign_takes {n : Nat} (hassign : h.assign = some (0xFF, n)) (hn : n < 2 ^ 14) (hport : p ∈ s.kmr.mgrPorts) :
    (takeAssign s p h).node = n := by
  have htaken : takeAssign s p h = if n = s.node then s else takeNode s n := by simp [takeAssign, hassign, hport]
  rw [htaken]
  split
  case isTrue heq => exact heq.symm
  case isFalse => exact takeNode_node s hn

/-! ### The answer -/

/-- A HELLO is answered through the queue of its port. -/
theorem answerHello_queued (hactive : portActive s p = true) : Queued s (answerHello s p h) := by
  unfold answerHello
  split
  · rw [enqueueCell_own hactive rfl]
    exact .setKport s hactive _
  · exact .refl s

theorem helloEnd_keeps (hp : p < 131072) (hactive : portActive s p = true) :
    LinkFrame spreadFields s (helloEnd s p h) ∧ SameManager s (helloEnd s p h) := by
  have hassured : LinkFrame spreadFields s (assuredNoted s h) := (LinkFrame.refl _ s).setKmr _
  have hspread : LinkFrame spreadFields s (if 1 ≤ h.role then noteSpread (assuredNoted s h) p h.spread else assuredNoted s h) :=
    .ite (hassured.trans (noteSpread_frame _ _ _)) hassured
  have hmanager : SameManager s (if 1 ≤ h.role then noteSpread (assuredNoted s h) p h.spread else assuredNoted s h) := by
    split
    · exact ⟨by rw [noteSpread_kmr]; rfl, by rw [noteSpread_kmr]; rfl⟩
    · exact ⟨rfl, rfl⟩
  have hqueued := answerHello_queued (h := h) p ((hspread.portActive (by decide) hp).trans hactive)
  exact ⟨hspread.trans (hqueued.frame _), hmanager.trans hqueued.sameManager⟩

end

/-! ### A HELLO -/

/-- What a HELLO at an ACTIVE port does. -/
theorem takeHello_does {u : State} {p : Fin 12} {h : Hello} (hactive : portActive u p = true) :
    let t := takeHello u p h
    LinkFrame (partnerFields ++ helloFields) u t ∧
      t.rd F.KMR_PARTNER_PORT p = h.port % 2 ^ F.KMR_PARTNER_PORT.width ∧ t.rd F.KMR_PARTNER_ROLE p = h.role % 2 ^ F.KMR_PARTNER_ROLE.width ∧
      t.rd F.KMR_PARTNER_SERIAL_SERIAL p = h.serial % 2 ^ 64 ∧
      (u.kmr.manager = none → u.kmr.mgrPorts = [] → kmrRole u < h.role → h.assign = none → t.kmr.manager = some h.node ∧ t.kmr.mgrPorts = [p.val] ∧
        t.rd F.KMR_ROLE_DOMAIN 0 = h.domain % 2 ^ F.KMR_ROLE_DOMAIN.width) ∧
      (h.role ≤ kmrRole u → t.kmr.manager = u.kmr.manager ∧ t.kmr.mgrPorts = u.kmr.mgrPorts) ∧
      (∀ n, h.assign = some (0xFF, n) → n < 2 ^ 14 → u.kmr.mgrPorts.contains p.val = true → t.node = n) := by
  intro t
  have hp := port_index_lt p
  let a := partnerShown u p h
  let b := followManager a p h
  let c := takeAssign b p h
  have ha : LinkFrame partnerFields u a := partnerShown_frame u h p
  have hb : LinkFrame [F.KMR_ROLE_DOMAIN] a b := followManager_frame a h p
  obtain ⟨hc, hsame⟩ : LinkFrame [F.KMR_ROLE_DOMAIN, F.KMR_ROLE_NODE] b c ∧ SameManager b c := takeAssign_keeps b p
  have hrole : kmrRole a = kmrRole u := ha.device (by decide)
  have hupto : LinkFrame (partnerFields ++ helloFields) u c :=
    ((ha.mono (by decide)).trans (hb.mono (by decide))).trans (hc.mono (by decide))
  obtain ⟨hend, hkept⟩ : LinkFrame spreadFields c t ∧ SameManager c t  := by
    rw [show t = helloEnd c p h from takeHello_eq u p h]
    exact helloEnd_keeps p hp ((hupto.portActive (by decide) hp).trans hactive)
  obtain ⟨hport, hprole, hserial⟩ := partnerShown_shows u h p
  have hshown {f : Fld} (hf : ∀ g ∈ helloFields, f.key ≠ g.key) : t.rd f p = a.rd f p := by
    have hall : LinkFrame helloFields a t := ((hb.mono (by decide)).trans (hc.mono (by decide))).trans (hend.mono (by decide))
    exact hall.port p hf
  refine ⟨hupto.trans (hend.mono (by decide)), (hshown (by decide)).trans hport, (hshown (by decide)).trans hprole,
    (hshown (by decide)).trans hserial, fun hnone hports hlt hassign => ?_, fun hle => ?_, fun n hassign hn hcontains => ?_⟩
  · have hcb : c = b := takeAssign_none p hassign
    have hfirst : b = (a.setKmr { a.kmr with manager := some h.node, mgrPorts := [p.val] }).wr F.KMR_ROLE_DOMAIN 0 h.domain :=
      followManager_first p hnone hports (hrole ▸ hlt)
    refine ⟨?_, ?_, ?_⟩
    · rw [hkept.manager, hcb, hfirst]
      rfl
    · rw [hkept.ports, hcb, hfirst]
      rfl
    · rw [hend.device (by decide), hcb, hfirst]
      exact State.rd_wr_same _ _ _ _
  · have hba : b = a := followManager_ignored p (hrole ▸ hle)
    have hmanager := hsame.trans hkept
    rw [hba] at hmanager
    exact ⟨hmanager.manager, hmanager.ports⟩
  · have hmem : p.val ∈ b.kmr.mgrPorts := followManager_ports p (List.contains_iff_mem.1 hcontains)
    exact (hend.device (by decide)).trans (takeAssign_takes p hassign hn hmem)

end Sys2Proof.Machine
end

section
/-!
PROOFS. Reports and the start list, references and holdover, TRACK cells that leave, and the shape table (R258-R268); and with HELLOs how a
system of devices is managed.
-/
namespace Sys2Proof.Machine

/-! ### Neighbour reports (R260) -/

/-- A report in the place of any other of its member. -/
def reportPut (s : State) (r : Report) : State :=
  s.setKmr { s.kmr with reports := s.kmr.reports.filter (fun x => decide (x.key ≠ r.key)) ++ [r] }

section
variable {s : State} {r : Report}

theorem neighbourReport_worker (h : kmrRole s = 0) : neighbourReport s r = s := if_pos h

section
variable (h : kmrRole s ≠ 0)
include h

/-- A report that contradicts none of the rebuild in progress belongs to it. -/
theorem neighbourReport_joins (hrebuild : s.kmr.rebuild = true) (hsame : ∀ x ∈ s.kmr.reports, x.key = r.key → x = r) :
    neighbourReport s r = reportPut s r := by
  have hnone : s.kmr.reports.any (fun x => decide (x.key = r.key ∧ x ≠ r)) = false := by
    simpa using hsame
  exact (if_neg h).trans ((if_pos hrebuild).trans (if_neg (by rw [hnone]; exact Bool.false_ne_true)))

/-- A report that shows a change, or contradicts one of the rebuild in progress, is the first of a rebuild. -/
theorem neighbourReport_restarts (hchange : s.kmr.rebuild = false → reportChange s r = true)
    (hother : s.kmr.rebuild = true → ∃ x ∈ s.kmr.reports, x.key = r.key ∧ x ≠ r) : neighbourReport s r = reportPut (startRebuild s) r := by
  cases hrebuild : s.kmr.rebuild with
  | false => exact (if_neg h).trans ((if_neg (by rw [hrebuild]; exact Bool.false_ne_true)).trans (if_pos (hchange hrebuild)))
  | true =>
    have hsome : s.kmr.reports.any (fun x => decide (x.key = r.key ∧ x ≠ r)) = true := by
      simpa using hother hrebuild
    exact (if_neg h).trans ((if_pos hrebuild).trans (if_pos hsome))

theorem neighbourReport_known (hrebuild : s.kmr.rebuild = false) (hknown : reportChange s r = false) : neighbourReport s r = s := by
  simp only [neighbourReport, if_neg h, hrebuild, hknown, Bool.false_eq_true, if_false]

/-- A rebuild that starts has no reports. -/
theorem startRebuild_starts : (startRebuild s).kmr.rebuild = true ∧ (startRebuild s).kmr.reports = [] := by
  rw [(startRebuild_manager h).kmr]
  exact ⟨rfl, rfl⟩

end

theorem neighbourReport_arrives {p : Fin 12} {c : Cell} {u : State} (h : receiveCell s p c = (u, true)) (ht : c.typ = 5) (hd : c.dst = s.node)
    (hsub : natAt c.payload 0 1 = 3) : exec (.neighbourReport p c) s = .next (neighbourReport u (reportOf c.payload)) :=
  congrArg Host.Outcome.next ((cellArrives_here _ h ht hd).trans (if_pos hsub))

end

/-! ### The start list (R258-R260) -/

/-- The words of the start list, and the node ID that a system root takes. -/
def listFields : List Fld :=
  [F.KMR_START_LIST0_DATA, F.KMR_START_LIST1_DATA, F.KMR_START_LIST2_DATA, F.KMR_START_LIST3_DATA, F.KMR_ROLE_NODE, F.KMR_ROLE_DOMAIN]

section
variable (s : State)

theorem becomeRoot_frame : LinkFrame listFields s (becomeRoot s) :=
  .ite (((LinkFrame.refl _ s).wr _ (by decide) (by decide)).wr _ (by decide) (by decide)) (.refl _ s)

theorem writeEntry_frame {i : Nat} (hi : i < 128) (r : Report) : LinkFrame listFields s (writeEntry s i r) := by
  have hindex : i < 131072 := by omega
  unfold writeEntry
  extract_lets w0 same t k u
  have hu : LinkFrame listFields s u :=
    .setKmr (.wr (.wr (.wr (.refl _ s) _ hindex (by decide)) _ hindex (by decide)) _ hindex (by decide)) _
  exact .ite hu (hu.wr _ hindex (by decide))

theorem memberIndex_lt {s : State} {r : Report} {i : Nat} (h : memberIndex s r = some i) : i < 128 := by
  have hlt {f : Nat → Bool} (hf : ((List.range 128).filter (fun i => decide (0 < i))).find? f = some i) : i < 128 :=
    List.mem_range.1 (List.mem_filter.1 (List.mem_of_find?_eq_some hf)).1
  unfold memberIndex at h
  dsimp only at h
  split at h
  case h_1 _ hfound =>
    cases h
    exact hlt hfound
  split at h
  case h_1 _ hfound =>
    cases h
    exact hlt hfound
  exact hlt h

theorem enterMember_frame (r : Report) : LinkFrame listFields s (enterMember s r) := by
  unfold enterMember
  split
  · exact .refl _ s
  · rename_i i hi
    have hentry := writeEntry_frame s (memberIndex_lt hi) r
    exact .ite hentry (hentry.trans ((sendHello_queued _ _ _).frame _))

/-- The entry of a member that did not answer is no longer present. -/
def absentMarked (keep : List Nat) (s : State) (i : Nat) : State :=
  if bit (s.rd F.KMR_START_LIST0_DATA i) 16 = 1 ∧ !(keep.contains (Tab.get 0 s.kmr.keys i)) then
    (s.wr F.KMR_START_LIST0_DATA i (s.rd F.KMR_START_LIST0_DATA i - 2 ^ 16)).wr F.KMR_START_LIST3_DATA i s.trk.ts
  else s

theorem absentMarked_frame (keep : List Nat) {i : Nat} (hi : i < 128) : LinkFrame listFields s (absentMarked keep s i) :=
  have hindex : i < 131072 := by omega
  .ite (((LinkFrame.refl _ s).wr _ hindex (by decide)).wr _ hindex (by decide)) (.refl _ s)

/-- The start list written from the reports of a rebuild. -/
def listWritten (s : State) : State :=
  let u := becomeRoot s
  let v := (List.range 128).foldl (absentMarked (0xFFFFFFFFFFFF :: u.kmr.reports.map (fun r => r.key))) u
  v.kmr.reports.foldl enterMember (writeEntry v 0 (ownReport v))

theorem listWritten_frame : LinkFrame listFields s (listWritten s) := by
  have habsent (keep : List Nat) (u : State) : LinkFrame listFields u ((List.range 128).foldl (absentMarked keep) u) :=
    (LinkFrame.refl _ u).foldl fun v i hi => absentMarked_frame v keep (List.mem_range.1 hi)
  exact (((becomeRoot_frame s).trans (habsent _ _)).trans (writeEntry_frame _ (by decide) _)).foldl fun u r _ => enterMember_frame u r

/-- A rebuild that has ended: its generation counted, and signalled. -/
def rebuilt (s : State) : State :=
  let u := s.setKmr { s.kmr with rebuild := false, reports := [] }
  ((u.wr F.KMR_SL_CTRL_GEN 0 (u.rd F.KMR_SL_CTRL_GEN 0 + 1)).bump C.KMR_SL_REBUILD_CNT 0 1).flagMC F.KMR_DEV_STATUS_SL_CHANGED 0

theorem rebuildEnd_idle {s : State} (h : s.kmr.rebuild = false) : rebuildEnd s = s := if_pos (by simp [h])

theorem rebuildEnd_eq {s : State} (h : s.kmr.rebuild = true) : rebuildEnd s = rebuilt (listWritten s) := if_neg (by simp [h])

theorem rebuilt_shows :
    (rebuilt s).kmr.rebuild = false ∧ (rebuilt s).kmr.reports = [] ∧
      (rebuilt s).rd F.KMR_SL_CTRL_GEN 0 = (s.rd F.KMR_SL_CTRL_GEN 0 + 1) % 2 ^ F.KMR_SL_CTRL_GEN.width ∧
      (rebuilt s).rd F.KMR_SL_REBUILD_CNT_COUNT 0 = (s.rd F.KMR_SL_REBUILD_CNT_COUNT 0 + 1) % 2 ^ 64 ∧
      (rebuilt s).rd F.KMR_DEV_STATUS_SL_CHANGED 0 = 1 := by
  let u := s.setKmr { s.kmr with rebuild := false, reports := [] }
  let v := u.wr F.KMR_SL_CTRL_GEN 0 (u.rd F.KMR_SL_CTRL_GEN 0 + 1)
  have hkmr : (rebuilt s).kmr = u.kmr := State.bump_kmr v C.KMR_SL_REBUILD_CNT 0 1
  have hflagged {f : Fld} (hf : f.key ≠ F.KMR_DEV_STATUS_SL_CHANGED.key) : (rebuilt s).rd f 0 = (v.bump C.KMR_SL_REBUILD_CNT 0 1).rd f 0 := by
    change ((v.bump C.KMR_SL_REBUILD_CNT 0 1).wr F.KMR_DEV_STATUS_SL_CHANGED 0 1).rd f 0 = _
    exact State.rd_wr_key _ _ hf (by decide) (by decide)
  refine ⟨by rw [hkmr]; rfl, by rw [hkmr]; rfl, ?_, ?_, State.flagMC_rd_same _ _ _⟩
  · rw [hflagged (by decide), State.rd_bump_other _ _ _ _ _ _ (by decide) (by decide) (.inl (by decide)) (.inl (by decide))]
    exact State.rd_wr_same _ _ _ _
  · rw [hflagged (by decide)]
    refine (State.rd_bump_same v C.KMR_SL_REBUILD_CNT 0 1 (by decide) (by decide)).trans ?_
    exact congrArg (fun n => (n + 1) % 2 ^ 64) (State.rd_wr_key u _ (by decide) (by decide) (by decide))

/-- The end of a rebuild counts its generation, and is flagged. -/
theorem rebuildEnd_ends {s : State} (h : s.kmr.rebuild = true) :
    let t := rebuildEnd s
    t.kmr.rebuild = false ∧ t.kmr.reports = [] ∧
      t.rd F.KMR_SL_CTRL_GEN 0 = (s.rd F.KMR_SL_CTRL_GEN 0 + 1) % 2 ^ F.KMR_SL_CTRL_GEN.width ∧
      t.rd F.KMR_SL_REBUILD_CNT_COUNT 0 = (s.rd F.KMR_SL_REBUILD_CNT_COUNT 0 + 1) % 2 ^ 64 ∧ t.rd F.KMR_DEV_STATUS_SL_CHANGED 0 = 1 := by
  have hwritten := listWritten_frame s
  obtain ⟨hdone, hreports, hgen, hcount, hflag⟩ := rebuilt_shows (listWritten s)
  rw [hwritten.device (by decide)] at hgen hcount
  rw [rebuildEnd_eq h]
  exact ⟨hdone, hreports, hgen, hcount, hflag⟩

end

/-! ### References (R263) -/

section
variable (s : State) (p : Fin 12)

/-- The references lost, with that of a port. -/
def lostWith (s : State) (p : Nat) : List Nat := if s.kmr.refLost.contains p then s.kmr.refLost else s.kmr.refLost ++ [p]

theorem mem_lostWith {i : Nat} : i ∈ lostWith s p ↔ i ∈ s.kmr.refLost ∨ i = p.val := by
  unfold lostWith
  split
  case isTrue h => exact ⟨.inl, fun hi => hi.elim id fun e => e ▸ List.contains_iff_mem.1 h⟩
  case isFalse => simp

/-- The loss is noted. -/
def lossNoted (s : State) (p : Nat) : State := s.setKmr { s.kmr with refLost := lostWith s p }

theorem referenceLoss_eq {s : State} (hheld : s.kmr.holdover = false) :
    referenceLoss s p =
      if s.rd F.KMR_REF_CTRL_SRC 0 ≠ 1 ∨ (p.val ≠ s.rd F.KMR_REF_CTRL_PRIMARY 0 ∧ p.val ≠ s.rd F.KMR_REF_CTRL_SECONDARY 0) then lossNoted s p
      else if s.rd F.KMR_REF_CTRL_PRIMARY 0 ∈ lostWith s p ∧
          (s.rd F.KMR_REF_CTRL_SECONDARY 0 = 15 ∨ s.rd F.KMR_REF_CTRL_SECONDARY 0 ∈ lostWith s p) then
        ((lossNoted s p).setKmr { (lossNoted s p).kmr with holdover := true }).wr F.KMR_DEV_STATUS_REF_LOST 0 1
      else if p.val = s.rd F.KMR_REF_CTRL_PRIMARY 0 then
        ((lossNoted s p).setKmr { (lossNoted s p).kmr with onSecondary := true }).wr F.KMR_DEV_STATUS_REF_SWITCH 0 1
      else lossNoted s p := by
  have hnot : ¬ s.kmr.holdover = true := by rw [hheld]; exact Bool.false_ne_true
  exact if_congr (or_congr Iff.rfl (or_iff_left hnot)) rfl
    (if_congr (and_congr List.contains_iff_mem (or_congr Iff.rfl List.contains_iff_mem)) rfl rfl)

/-- A loss is noted whatever it leads to. -/
theorem referenceLoss_notes {s : State} (hheld : s.kmr.holdover = false) :
    p.val ∈ (referenceLoss s p).kmr.refLost ∧ (referenceLoss s p).tile = s.tile ∧ (referenceLoss s p).sram = s.sram := by
  have hp : p.val ∈ lostWith s p := (mem_lostWith s p).2 (.inr rfl)
  rw [referenceLoss_eq p hheld]
  split_ifs <;> exact ⟨hp, rfl, rfl⟩

theorem referenceLoss_internal {s : State} (hheld : s.kmr.holdover = false) (hsrc : s.rd F.KMR_REF_CTRL_SRC 0 ≠ 1) :
    referenceLoss s p = lossNoted s p := by rw [referenceLoss_eq p hheld, if_pos (.inl hsrc)]

section
variable {s : State} {p : Fin 12} (hheld : s.kmr.holdover = false) (hsrc : s.rd F.KMR_REF_CTRL_SRC 0 = 1)
  (hpri : p.val = s.rd F.KMR_REF_CTRL_PRIMARY 0)
include hheld hsrc hpri

/-- Without its primary and its secondary reference a device holds over. -/
theorem referenceLoss_holds (hsec : s.rd F.KMR_REF_CTRL_SECONDARY 0 = 15 ∨ s.rd F.KMR_REF_CTRL_SECONDARY 0 ∈ s.kmr.refLost ∨
      s.rd F.KMR_REF_CTRL_SECONDARY 0 = p.val) :
    (referenceLoss s p).kmr.holdover = true ∧ (referenceLoss s p).rd F.KMR_DEV_STATUS_REF_LOST 0 = 1 := by
  have hboth : s.rd F.KMR_REF_CTRL_PRIMARY 0 ∈ lostWith s p ∧
      (s.rd F.KMR_REF_CTRL_SECONDARY 0 = 15 ∨ s.rd F.KMR_REF_CTRL_SECONDARY 0 ∈ lostWith s p) :=
    ⟨(mem_lostWith s p).2 (.inr hpri.symm), hsec.imp id (mem_lostWith s p).2⟩
  rw [referenceLoss_eq p hheld, if_neg (by simp [hsrc, ← hpri]), if_pos hboth]
  exact ⟨rfl, State.rd_wr_same _ _ _ _⟩

/-- Without its primary reference a device runs on its secondary. -/
theorem referenceLoss_switches (hsome : s.rd F.KMR_REF_CTRL_SECONDARY 0 ≠ 15) (hkept : s.rd F.KMR_REF_CTRL_SECONDARY 0 ∉ s.kmr.refLost)
    (hother : s.rd F.KMR_REF_CTRL_SECONDARY 0 ≠ p.val) :
    (referenceLoss s p).kmr.onSecondary = true ∧ (referenceLoss s p).kmr.holdover = false ∧
      (referenceLoss s p).rd F.KMR_DEV_STATUS_REF_SWITCH 0 = 1 := by
  have hsec : ¬ (s.rd F.KMR_REF_CTRL_PRIMARY 0 ∈ lostWith s p ∧
      (s.rd F.KMR_REF_CTRL_SECONDARY 0 = 15 ∨ s.rd F.KMR_REF_CTRL_SECONDARY 0 ∈ lostWith s p)) := by
    rw [mem_lostWith s p (i := s.rd F.KMR_REF_CTRL_SECONDARY 0)]
    rintro ⟨-, h | h | h⟩ <;> contradiction
  rw [referenceLoss_eq p hheld, if_neg (by simp [hsrc, ← hpri]), if_neg hsec, if_pos hpri]
  exact ⟨rfl, hheld, State.rd_wr_same _ _ _ _⟩

end

/-! ### The end of holdover (R263) -/

/-- A port that goes down changes the state of no other. -/
theorem portGoesDown_others {i : Nat} (hi : i < 131072) (hne : i ≠ p.val) :
    (portGoesDown s p).rd F.KMR_STATUS_STATE i = s.rd F.KMR_STATUS_STATE i := by
  have hp := port_index_lt p
  have hflagged : LinkFrame [F.KMR_CELL_DROP_CNT_COUNT, F.KMR_DOWN_CNT_COUNT, F.KMR_WRAP_FLAGS, F.KMR_STATUS_DOWN_EVT] s
      (((cellsDiscarded s p).setKport p (s.kport p).dropped).flagMC F.KMR_STATUS_DOWN_EVT p) :=
    (((cellsDiscarded_frame s p).mono (by decide)).setKport _ _).flagMC hp (by decide)
  rw [portGoesDown_eq, State.rd_of_regs ((startRebuild_regs _).trans (setKmr_withoutPort _ p).1), (downTrained_frame s p).fields _ i hi (by decide),
    downShown, State.rd_wr_other _ _ hi hp (.inr hne)]
  exact hflagged.fields _ i hi (by decide)

theorem portGoesDown_holdover : (portGoesDown s p).kmr.holdover = s.kmr.holdover := by
  have hnoted : (cellsDiscarded s p).kmr.holdover = s.kmr.holdover :=
    (foldl_keeps (fun t => t.kmr.holdover) _ _ fun t c => by rw [noteSent_rest]).trans (by simp)
  have hstarted (t : State) : (startRebuild t).kmr.holdover = t.kmr.holdover := by rw [startRebuild_rest]
  have hwithout (t : State) : (t.setKmr (withoutPort t p)).kmr.holdover = t.kmr.holdover := rfl
  have hshown : (downShown s p).kmr.holdover = (cellsDiscarded s p).kmr.holdover := rfl
  rw [portGoesDown_eq, hstarted, hwithout, downTrained, (retrainLanes_keeps _ _ _ _).1, hshown, hnoted]

/-- A port told to go down is not ACTIVE, nor is one that was not before. -/
theorem portDown_leaves_inactive {i : Nat} (hi : i < 131072) (h : i = p.val ∨ portActive s i = false) : portActive (portDown s p) i = false := by
  cases hactive : portActive s p with
  | false =>
    rw [portDown_inactive hactive]
    exact h.elim (fun e => e ▸ hactive) id
  | true =>
    rw [portDown_active hactive]
    by_cases hip : i = p.val
    · rw [hip]
      exact not_active_of_state (portGoesDown_state s p)
    · exact (portActive_congr (portGoesDown_others s p hi hip) (portGoesDown_frame s p).rst).trans (h.resolve_left hip)

theorem portDown_holdover : (portDown s p).kmr.holdover = s.kmr.holdover := by
  unfold portDown
  split
  · exact portGoesDown_holdover s p
  · rfl

/-- Ports taken down one after the other are all down at the end. -/
theorem portsDown_inactive {ps : List Nat} (hps : ∀ p ∈ ps, p < 12) {i : Nat} (hi : i ∈ ps) : portActive (ps.foldl portDown s) i = false := by
  induction ps using List.reverseRecOn with
  | nil => cases hi
  | append_singleton ps p ih =>
    have hlt : i < 131072 := by have := hps i hi; omega
    rw [List.foldl_append, List.foldl_cons, List.foldl_nil]
    refine portDown_leaves_inactive _ ⟨p, hps p (by simp)⟩ hlt ((List.mem_append.1 hi).symm.imp (by simp) fun hmem => ?_)
    exact ih (fun q hq => hps q (List.mem_append_left _ hq)) hmem

theorem holdoverExpiry_idle {s : State} (h : s.kmr.holdover = false) : holdoverExpiry s = s := if_neg (by simp [h])

/-- Holdover that ends takes every port down. -/
theorem holdoverExpiry_ends {s : State} (h : s.kmr.holdover = true) :
    (holdoverExpiry s).kmr.holdover = false ∧ ∀ p, p < 12 → portActive (holdoverExpiry s) p = false := by
  have ht : holdoverExpiry s = (List.range 12).foldl portDown (s.setKmr { s.kmr with holdover := false }) := if_pos h
  rw [ht]
  refine ⟨?_, fun p hp => portsDown_inactive _ (fun i hi => List.mem_range.1 hi) (List.mem_range.2 hp)⟩
  exact List.foldlRecOn _ _ (motive := fun t : State => t.kmr.holdover = false) rfl fun t ht i hi =>
    (portDown_holdover t ⟨i, List.mem_range.1 hi⟩).trans ht

end

/-! ### The choice of a reference (R263, R264) -/

/-- A reference port of the register's range. -/
theorem refPort_lt (n : Nat) : refPort n < 16 := by
  unfold refPort
  split_ifs <;> omega

section
variable (s : State) (v : Nat)

/-- The source that a write selects. -/
def writtenSrc (v : Nat) : Nat := Nat.min (bits v 0 2) 1

theorem refCtrlWrite_held (hsrc : writtenSrc v ≠ s.rd F.KMR_REF_CTRL_SRC 0) (hsched : schedAdmitted s = true) : refCtrlWrite s v = s :=
  if_pos ⟨hsrc, hsched⟩

/-- What a write of KMR_REF_CTRL leaves before SPREAD_IN is shown. -/
def refWritten (s : State) (v : Nat) : State :=
  let change := decide (writtenSrc v ≠ s.rd F.KMR_REF_CTRL_SRC 0 ∨ refPort (bits v 4 4) ≠ s.rd F.KMR_REF_CTRL_PRIMARY 0)
  let u := if change then s.setKmr { s.kmr with spread := none, onSecondary := false } else s
  ((u.wr F.KMR_REF_CTRL_SRC 0 (writtenSrc v)).wr F.KMR_REF_CTRL_PRIMARY 0 (refPort (bits v 4 4))).wr F.KMR_REF_CTRL_SECONDARY 0 (refPort (bits v 8 4))

/-- SSC written, where assured mode does not hold it. -/
def sscWritten (s : State) (v : Nat) : State :=
  let assured := decide (s.rd F.SES_CLOCK_MODE 0 = 0) || !(s.kmr.assured.isEmpty)
  if bit v 12 ≠ s.rd F.KMR_REF_CTRL_SSC 0 ∧ assured then s else s.wr F.KMR_REF_CTRL_SSC 0 (bit v 12)

theorem refCtrlWrite_eq (h : writtenSrc v = s.rd F.KMR_REF_CTRL_SRC 0 ∨ schedAdmitted s = false) :
    refCtrlWrite s v = showSpread (sscWritten (refWritten s v) v) := by
  have hallowed : ¬ (writtenSrc v ≠ s.rd F.KMR_REF_CTRL_SRC 0 ∧ schedAdmitted s = true) := by
    rintro ⟨hne, hsched⟩
    rcases h with h | h
    · exact hne h
    · rw [h] at hsched
      cases hsched
  exact if_neg hallowed

theorem refWritten_shows :
    let t := refWritten s v
    LinkFrame [F.KMR_REF_CTRL_SRC, F.KMR_REF_CTRL_PRIMARY, F.KMR_REF_CTRL_SECONDARY] s t ∧ t.rd F.KMR_REF_CTRL_SRC 0 = writtenSrc v ∧
      t.rd F.KMR_REF_CTRL_PRIMARY 0 = refPort (bits v 4 4) ∧ t.rd F.KMR_REF_CTRL_SECONDARY 0 = refPort (bits v 8 4) := by
  have hsrc : writtenSrc v < 2 ^ 2 := Nat.lt_of_le_of_lt (Nat.min_le_right _ _) (by decide)
  have hchanged (c : Bool) (k : Kamrus) : LinkFrame [F.KMR_REF_CTRL_SRC, F.KMR_REF_CTRL_PRIMARY, F.KMR_REF_CTRL_SECONDARY] s (if c then s.setKmr k else s) :=
    .ite ((LinkFrame.refl _ s).setKmr _) (.refl _ s)
  have hpassed (u : State) {f g : Fld} (n : Nat) (hfg : f.key ≠ g.key) : (u.wr g 0 n).rd f 0 = u.rd f 0 :=
    State.rd_wr_key _ _ hfg (by decide) (by decide)
  unfold refWritten
  extract_lets change u
  refine ⟨(((hchanged _ _).wr _ (by decide) (by decide)).wr _ (by decide) (by decide)).wr _ (by decide) (by decide), ?_, ?_, ?_⟩
  · rw [hpassed _ _ (by decide), hpassed _ _ (by decide), State.rd_wr_same]
    exact Nat.mod_eq_of_lt hsrc
  · rw [hpassed _ _ (by decide), State.rd_wr_same]
    exact Nat.mod_eq_of_lt (refPort_lt _)
  · rw [State.rd_wr_same]
    exact Nat.mod_eq_of_lt (refPort_lt _)

theorem sscWritten_frame : LinkFrame [F.KMR_REF_CTRL_SSC] s (sscWritten s v) := .ite (.refl _ s) ((LinkFrame.refl _ s).wr _ (by decide) (by decide))

/-- A device in assured mode keeps SSC. -/
theorem sscWritten_assured (hmode : s.rd F.SES_CLOCK_MODE 0 = 0) (hssc : s.rd F.KMR_REF_CTRL_SSC 0 ≤ 1) :
    (sscWritten s v).rd F.KMR_REF_CTRL_SSC 0 = s.rd F.KMR_REF_CTRL_SSC 0 := by
  unfold sscWritten
  dsimp only
  split
  case isTrue => rfl
  case isFalse h =>
    have hsame : bit v 12 = s.rd F.KMR_REF_CTRL_SSC 0 := by
      by_contra hne
      exact h ⟨hne, by simp [hmode]⟩
    rw [State.rd_wr_same, hsame]
    exact Nat.mod_eq_of_lt (Nat.lt_of_le_of_lt hssc (by decide))

/-- A write that is applied selects the source and the ports. -/
theorem refCtrlWrite_writes (h : writtenSrc v = s.rd F.KMR_REF_CTRL_SRC 0 ∨ schedAdmitted s = false) :
    let t := refCtrlWrite s v
    t.tile = s.tile ∧ t.sram = s.sram ∧ t.rd F.KMR_REF_CTRL_SRC 0 = writtenSrc v ∧ t.rd F.KMR_REF_CTRL_PRIMARY 0 = refPort (bits v 4 4) ∧
      t.rd F.KMR_REF_CTRL_SECONDARY 0 = refPort (bits v 8 4) ∧
      (s.rd F.SES_CLOCK_MODE 0 = 0 → s.rd F.KMR_REF_CTRL_SSC 0 ≤ 1 → t.rd F.KMR_REF_CTRL_SSC 0 = s.rd F.KMR_REF_CTRL_SSC 0) := by
  obtain ⟨hwritten, hsrc, hpri, hsec⟩ := refWritten_shows s v
  have hssc := sscWritten_frame (refWritten s v) v
  have hspread := showSpread_frame (sscWritten (refWritten s v) v)
  rw [refCtrlWrite_eq s v h]
  refine ⟨(hspread.tile.trans hssc.tile).trans hwritten.tile, (hspread.sram.trans hssc.sram).trans hwritten.sram, ?_, ?_, ?_, fun hmode hle => ?_⟩
  · rw [hspread.device (by decide), hssc.device (by decide), hsrc]
  · rw [hspread.device (by decide), hssc.device (by decide), hpri]
  · rw [hspread.device (by decide), hssc.device (by decide), hsec]
  · have hkept := hwritten.device (f := F.KMR_REF_CTRL_SSC) (by decide)
    rw [hspread.device (by decide), sscWritten_assured _ _ ((hwritten.device (by decide)).trans hmode) (hkept ▸ hle), hkept]

end

/-! ### TRACK cells that leave, and a standby (R265, R267) -/

section
variable (s : State)

/-- A TRACK cell of this device, before it takes its samples. -/
def trackCellOf (s : State) (p : Nat) : Cell :=
  { typ := 4, seq := 0, channel := 0, dst := s.rd F.KMR_PARTNER_NODE p, hops := 0, src := s.node, eng := 0, xslot := 0, num := 0, len := 0, dfe := 0,
    last := false, da := 0, count := 0, sched := false, payload := [] }

theorem trackPeriod_idle {p : Nat} (h : bit (s.rd F.KMR_TRK_FWD_PORTS 0) p = 0) : trackPeriod s p = s := if_neg (by simp [h])

theorem trackPeriod_queues {p : Nat} (h : bit (s.rd F.KMR_TRK_FWD_PORTS 0) p = 1) (hmanager : 1 ≤ kmrRole s ∨ s.kmr.tookOver = true)
    (hactive : portActive s p = true) : trackPeriod s p = s.setKport p ((s.kport p).add (trackCellOf s p)) :=
  (if_pos ⟨h, hmanager, hactive⟩).trans (enqueueCell_own hactive rfl)

theorem standbyTakeover_idle (h : s.on F.KMR_ROLE_STANDBY 0 = false ∨ s.kmr.tookOver = true) : standbyTakeover s = s :=
  if_neg (by rcases h with h | h <;> simp [h])

theorem standbyTakeover_takes (h : s.on F.KMR_ROLE_STANDBY 0 = true) (honce : s.kmr.tookOver = false) :
    (standbyTakeover s).kmr.tookOver = true ∧ (standbyTakeover s).rd F.KMR_DEV_STATUS_TAKEOVER 0 = 1 ∧
      SameRegs s (standbyTakeover s) [(F.KMR_DEV_STATUS_TAKEOVER, 0)] := by
  have ht : standbyTakeover s = (s.setKmr { s.kmr with tookOver := true }).flagMC F.KMR_DEV_STATUS_TAKEOVER 0 := if_pos (by simp [h, honce])
  rw [ht]
  exact ⟨rfl, State.flagMC_rd_same _ _ _, SameRegs.wr s F.KMR_DEV_STATUS_TAKEOVER 0 1 (by decide) (by simp)⟩

end

/-! ### The shape table (R268) -/

section
variable (s : State) (bs : List Byte)

/-- The write of a table at the place that firmware names. -/
def shapeWrite (s : State) (bs : List Byte) : State × Bool := memWrite s (s.rd F.KMR_SHAPE_DA 0) bs Around.quiet

theorem storeShape_elsewhere (h : regionOf (s.rd F.KMR_SHAPE_DA 0) ≠ .hbm) : storeShape s bs = s := if_pos (.inl h)

theorem storeShape_eq (h : regionOf (s.rd F.KMR_SHAPE_DA 0) = .hbm) (hend : regionOf (s.rd F.KMR_SHAPE_DA 0 + bs.length) = .hbm) :
    storeShape s bs =
      if (shapeWrite s bs).2 then ((shapeWrite s bs).1.wr F.KMR_SHAPE_GEN 0 (natAt bs 4 4 % 2 ^ 16)).signalMC F.KMR_SHAPE_GEN 0 else (shapeWrite s bs).1 :=
  if_neg (by simp [h, hend])

theorem storeShape_tile : (storeShape s bs).tile = s.tile := by
  have hwrite : (shapeWrite s bs).1.tile = s.tile := memWrite_tile _ _ _ _
  unfold storeShape
  dsimp only
  rw [← shapeWrite]
  split
  · rfl
  · split <;> exact hwrite

theorem shapes_sent_tile (t : State) (ds : List Claim) : (ds.foldl (fun s d => s.emit (.shape d.node bs)) t).tile = t.tile :=
  foldl_keeps State.tile ds t fun _ _ => rfl

/-- What is sent to each of a list of devices leaves the device. -/
theorem shapes_sent (t : State) (ds : List Claim) {d : Claim} (hd : d ∈ ds) :
    .shape d.node bs ∈ (ds.foldl (fun s d => s.emit (.shape d.node bs)) t).outbox := by
  induction ds using List.reverseRecOn with
  | nil => cases hd
  | append_singleton ds e ih =>
    rw [List.foldl_append, List.foldl_cons, List.foldl_nil]
    rcases List.mem_append.1 hd with h | h
    · exact List.mem_cons_of_mem _ (ih h)
    · rw [List.mem_singleton.1 h]
      exact List.mem_cons_self

end

section
variable (s : State) (track : Fin 8) (claims : List Claim)

theorem shapeTable_member (h : kmrRole s ≠ 2) : shapeTable s (.built track claims) = s := if_pos h

/-- A domain manager sends its table to every other device. -/
theorem shapeTable_builds (h : kmrRole s = 2) :
    let t := shapeTable s (.built track claims)
    t.tile = s.tile ∧
      ∀ d ∈ shapeDevices s claims, d.node ≠ s.node → .shape d.node (shapeBytes s track (shapeDevices s claims)) ∈ t.outbox := by
  have ht : shapeTable s (.built track claims) =
      ((shapeDevices s claims).filter (fun d => decide (d.node ≠ s.node))).foldl
        (fun t d => t.emit (.shape d.node (shapeBytes s track (shapeDevices s claims)))) (storeShape s (shapeBytes s track (shapeDevices s claims))) :=
    if_neg (by simp [h])
  rw [ht]
  refine ⟨?_, fun d hd hother => shapes_sent _ _ _ (List.mem_filter.2 ⟨hd, decide_eq_true hother⟩)⟩
  exact (shapes_sent_tile _ _ _).trans (storeShape_tile s _)

end

/-- Settles O40: HELLOs and reports by the parts of what they do, rebuilds by the frame of the start list, references by the branches of
their loss. -/
theorem managersReferencesAndStartList : Obligations.ManagersReferencesAndStartList := by
  unfold Obligations.ManagersReferencesAndStartList
  refine ⟨fun p c s u h ht hsub => ?_, fun p c s u h ht hd hsub => ?_, fun s => ⟨fun h => ?_, fun h => ?_, fun h => ?_, fun h => ?_⟩,
    fun p s hheld => ?_, fun s => ⟨fun h => ?_, fun h => ?_⟩, fun value s => ⟨fun hsrc hsched => ?_, fun h => ?_⟩,
    fun p s => ⟨fun h => ?_, fun h hmanager hactive => ?_⟩, fun s => ⟨fun h => ?_, fun h honce => ?_⟩, fun bs s => ?_,
    fun track claims s => ⟨fun h => ?_, fun h => ?_⟩⟩
  case refine_1 =>
    intro hello
    have hreceived : LinkFrame receiveFields s u := by simpa [h] using receiveCell_frame s p c
    obtain ⟨hframe, hport, hrole, hserial, hfirst, hignored, hnode⟩ := takeHello_does (h := hello) (receiveCell_active h)
    exact ⟨_, congrArg Host.Outcome.next (linkCell_here _ h ht hsub), hframe.tile.trans hreceived.tile, hframe.sram.trans hreceived.sram, hport,
      hrole, hserial, hfirst, hignored, hnode⟩
  case refine_2 =>
    intro r
    have hstep := neighbourReport_arrives h ht hd hsub
    refine ⟨fun hw => by rw [hstep, neighbourReport_worker hw], fun hm hrebuild hsame => ⟨_, hstep, ?_⟩, fun hm hchange hother => ⟨_, hstep, ?_⟩,
      fun hm hrebuild hknown => by rw [hstep, neighbourReport_known hm hrebuild hknown]⟩
    · rw [neighbourReport_joins hm hrebuild hsame]
      exact ⟨rfl, rfl⟩
    · obtain ⟨hstarted, hempty⟩ := startRebuild_starts hm
      rw [neighbourReport_restarts hm hchange hother]
      refine ⟨hstarted, ?_, startRebuild_regs u⟩
      change (startRebuild u).kmr.reports.filter _ ++ [r] = [r]
      rw [hempty]
      rfl
  case refine_3 => exact congrArg Host.Outcome.next (startRebuild_worker h)
  case refine_4 =>
    obtain ⟨hstarted, hempty⟩ := startRebuild_starts h
    exact ⟨_, rfl, hstarted, hempty, startRebuild_regs s⟩
  case refine_5 => exact congrArg Host.Outcome.next (rebuildEnd_idle h)
  case refine_6 => exact ⟨_, rfl, rebuildEnd_ends h⟩
  case refine_7 =>
    obtain ⟨hnoted, htile, hsram⟩ := referenceLoss_notes p hheld
    refine ⟨_, rfl, hnoted, htile, hsram, fun hsrc => ?_, fun hsrc hpri hsec => referenceLoss_holds hheld hsrc hpri hsec,
      fun hsrc hpri hsome hkept hother => referenceLoss_switches hheld hsrc hpri hsome hkept hother⟩
    rw [referenceLoss_internal p hheld hsrc]
    exact ⟨rfl, hheld⟩
  case refine_8 => exact congrArg Host.Outcome.next (holdoverExpiry_idle h)
  case refine_9 => exact ⟨_, rfl, holdoverExpiry_ends h⟩
  case refine_10 => exact congrArg Host.Outcome.next (refCtrlWrite_held s _ hsrc hsched)
  case refine_11 => exact ⟨_, rfl, refCtrlWrite_writes s _ h⟩
  case refine_12 => exact congrArg Host.Outcome.next (trackPeriod_idle s h)
  case refine_13 =>
    refine ⟨_, trackCellOf s p, congrArg Host.Outcome.next (trackPeriod_queues s h hmanager hactive), rfl, rfl, rfl, ?_, rfl⟩
    rw [State.kport_setKport]
    exact KPort.add_queue _ _
  case refine_14 => exact congrArg Host.Outcome.next (standbyTakeover_idle s h)
  case refine_15 => exact ⟨_, rfl, standbyTakeover_takes s h honce⟩
  case refine_16 =>
    intro da r
    refine ⟨fun h => congrArg Host.Outcome.next (storeShape_elsewhere s bs h),
      fun h hend hfails => congrArg Host.Outcome.next ((storeShape_eq s bs h hend).trans (if_neg (by rw [shapeWrite, hfails]; exact Bool.false_ne_true))),
      fun h hend hdone => ⟨_, congrArg Host.Outcome.next ((storeShape_eq s bs h hend).trans (if_pos hdone)), ?_, rfl, rfl, rfl⟩⟩
    exact (State.rd_wr_same _ _ _ _).trans (Nat.mod_mod _ _)
  case refine_17 => exact congrArg Host.Outcome.next (shapeTable_member s track claims h)
  case refine_18 => exact ⟨_, rfl, shapeTable_builds s track claims h⟩

end Sys2Proof.Machine
end
